-- ==== Sys2Proof/Word.lean ====
section
/-! DEFINITION. The word types of the RD-824 and their plainest arithmetic: bytes, byte strings, the 64-bit time
counter, and the sparse tables in which the model keeps numbered objects. -/

namespace Sys2Proof

/-- One octet on a link or in a record. -/
abbrev Byte := BitVec 8

/-- A byte string, first octet first; every multi-byte field in it is little-endian unless a rule says otherwise (R9). -/
abbrev Bytes := List Byte

/-- A value of the device time counter, in FTU (01, The time counter): it wraps at 2^64. -/
abbrev Counter := BitVec 64

/-- A table of numbered objects: (index, object) pairs in rising order of index, each index at most once. -/
abbrev Tbl (α : Type) := List (Nat × α)

end Sys2Proof
end

