-- ==== Sys2Proof/Syntax.lean ====
section
/-! DEFINITION. The commands of the block: one constructor per row of spec/opcode_table.json, with the operands the
environment supplies. An opcode row carries the accepted Edtor command it executes; an event row carries what the event
brings (a frame, a measured value, a test outcome, the number of the unit it happens to). -/

namespace Sys2Proof

/-- Session roles (R48); each includes what the ones before it permit. -/
inductive Role where
  | operator | supervisor | service
deriving DecidableEq, Repr

/-- The three ports that carry Edtor (R36). -/
inductive Port where
  | h0 | h1 | l23
deriving DecidableEq, Repr

/-- The twelve modes (R103). -/
inductive Mode where
  | doldrums | still | tender | calm | zephyr | breeze | drift | lull | squall | veer | watch | fog
deriving DecidableEq, Repr

/-- The eight windows of a fleet cycle (R24). -/
inductive Window where
  | latch | safe | solve | command | plan | emit | persist | guard
deriving DecidableEq, Repr

/-- An Edtor command that has passed the acceptance checks (R59), or an open command of the open exchange (R51). -/
structure Request where
  /-- Session slot; 4 for the open exchange. -/
  slot : Nat := 0
  /-- SESSION_ID; 0 in the open exchange. -/
  sessionId : Nat := 0
  /-- OPEN_HOST of the open exchange; 0 otherwise. -/
  openHost : Nat := 0
  /-- Port it arrived on. -/
  port : Port := .h0
  /-- Source IP address. -/
  addr : Nat := 0
  /-- Source UDP port. -/
  udp : Nat := 0
  /-- SEQ. -/
  seq : Nat := 0
  /-- TAG. -/
  tag : Nat := 0
  /-- OPCODE. -/
  opcode : Nat := 0
  /-- Expected CSN, when EXPECT_CSN is set (R73). -/
  expect : Option Nat := none
  /-- Acceptance CSN (R71). -/
  accept : Nat := 0
  /-- Capture instant on the time counter (R25). -/
  counter : Counter := 0
  /-- FC that latched it. -/
  latchFc : Nat := 0
  /-- The descriptor ahead of it in its queue (R153). -/
  desc : Bytes := []
  /-- Its 32-byte header (R39). -/
  header : Bytes := []
  /-- Payload. -/
  payload : Bytes := []
deriving DecidableEq, Repr

/-- An IP address (R463). -/
inductive IpAddr where
  | v4 (a : BitVec 32)
  | v6 (a : BitVec 128)
deriving DecidableEq, Repr

/-- A UDP datagram at port 48230 as its bytes stand on the wire: 32-byte header, ciphertext, 16-byte tag (R36, R39, R43). -/
structure Datagram where
  /-- Port it arrives on. -/
  port : Port := .h0
  /-- Source IP address. -/
  addr : Nat := 0
  /-- Source UDP port. -/
  udp : Nat := 0
  /-- It is an IP fragment (R37). -/
  fragment : Bool := false
  /-- Destination MAC address. -/
  mac : BitVec 48 := 0
  /-- Destination IP address. -/
  dst : IpAddr := .v6 0
  /-- PCLK of the FC in progress at which it is captured (R77). -/
  pclk : Nat := 0
  /-- Counter value at its capture point, the end of its SFD (R152). -/
  stamp : Counter := 0
  /-- Header, ciphertext, tag. -/
  bytes : Bytes := []
deriving DecidableEq, Repr

/-- One entry of a spill queue with the fields of its control word (R82, R83). -/
structure QEntry where
  /-- SOP. -/
  sop : Bool := false
  /-- EOP. -/
  eop : Bool := false
  /-- TRUNC. -/
  trunc : Bool := false
  /-- NOT_VALID. -/
  notValid : Bool := false
  /-- PENDING. -/
  pending : Bool := false
  /-- QFAULT. -/
  qfault : Bool := false
  /-- FRAME_ENTRIES. -/
  frameEntries : Nat := 0
  /-- DATA: its valid bytes (BYTES is their number). -/
  data : Bytes := []
deriving DecidableEq, Repr

/-- A frame on a host port that is not Edtor's (R465). -/
inductive HostFrame where
  | arp | ndp | echo | other
deriving DecidableEq, Repr

/-- What one channel's shadow register gives at an epoch latch (R180, R182), and what POS takes for it from the broadcast
ephemeris and its own models. -/
structure ChanMeas where
  /-- CHAN_ID. -/
  chan : Nat := 0
  /-- Transmit time of the signal at the correlators at the latch, in its system's time, 2^-32 ms. -/
  txTow : Nat := 0
  /-- Carrier phase at the correlators, 2^-24 cycle. -/
  phase : Int := 0
  /-- DOPPLER. -/
  doppler : Int := 0
  /-- CN0. -/
  cn0 : Nat := 0
  /-- CODE_STD_CM. -/
  codeStd : Nat := 0
  /-- PHASE_STD. -/
  phaseStd : Nat := 0
  /-- ECEF position of the satellite when it sent what is received at the latch, turned to the instant of reception, 0.1 mm. -/
  sat : Int × Int × Int := (0, 0, 0)
  /-- Its velocity, 0.1 mm/s. -/
  vel : Int × Int × Int := (0, 0, 0)
  /-- Satellite clock, relativity and group delay of its ephemeris as a range, 0.1 mm. -/
  terms : Int := 0
  /-- Ionospheric delay by POS's models, 0.1 mm. -/
  iono : Int := 0
  /-- Tropospheric delay by POS's models, 0.1 mm. -/
  tropo : Int := 0
  /-- Issue of data of its ephemeris. -/
  iod : Nat := 0
deriving DecidableEq, Repr

/-- What an epoch latch captures (R180 to R186). -/
structure EpochIn where
  /-- The channels' measurements. -/
  meas : List ChanMeas := []
deriving DecidableEq, Repr

/-- A satellite in view by almanac or ephemeris (R175). -/
structure SatView where
  /-- System: 0 GPS, 1 Galileo, 2 BeiDou, 3 GLONASS, 4 QZSS. -/
  sys : Nat := 0
  /-- PRN or slot number. -/
  sv : Nat := 0
  /-- GLONASS k. -/
  gloK : Int := 0
  /-- Elevation, degrees. -/
  elev : Int := 0
  /-- Not marked unhealthy. -/
  healthy : Bool := true
deriving DecidableEq, Repr

/-- What POS takes from the navigation data in SOLVE (R136, R174, R175). -/
structure SolveIn where
  /-- The satellites in view. -/
  sky : List SatView := []
  /-- LEAP_S with the announced change, new value and second of GPS time it takes effect at, where GNSS supplies them. -/
  leap : Option (Int × Option (Int × Nat)) := none
deriving DecidableEq, Repr

/-- What a stream's front end gives at a boundary (R166, R168, R170). -/
structure StreamIn where
  /-- In-band power P averaged over the FC that ends. -/
  power : Nat := 1
  /-- Noise floor P0 as tracked, in the same unit. -/
  floor : Nat := 1
  /-- Spectrum bins above the noise floor: offset of the bin from the window centre in Hz, and dB above the floor. -/
  peaks : List (Int × Nat) := []
  /-- AGC gain word. -/
  agc : Nat := 0
deriving DecidableEq, Repr

/-- A bias sample of one antenna (R171). -/
structure AntIn where
  /-- Current, 0.1 mA. -/
  ma : Nat := 0
  /-- Voltage, mV. -/
  mv : Nat := 0
  /-- At the current limit. -/
  limit : Bool := false
deriving DecidableEq, Repr

/-- An Ethernet frame that comes over a BUOY link with its FCS holding (R222). -/
structure BuoyFrame where
  /-- Link 0-9. -/
  link : Nat := 0
  /-- PCLK of the FC in progress at its capture instant (R240). -/
  pclk : Nat := 0
  /-- Counter value at its capture point, the end of its SFD (R152). -/
  stamp : Counter := 0
  /-- Destination address. -/
  dest : BitVec 48 := 0
  /-- Source address. -/
  src : BitVec 48 := 0
  /-- EtherType. -/
  etherType : Nat := 0x88B5
  /-- The data field: header, payload, MIC and any padding. -/
  bytes : Bytes := []
deriving DecidableEq, Repr

/-- What a calibration takes for one link where the least-squares fit leaves it open (R230). -/
structure CalFit where
  /-- Link. -/
  link : Nat := 0
  /-- ANT_DELAY in FTU. -/
  delay : Int := 0
deriving DecidableEq, Repr

/-- A radio frame as it comes from the air (R414, R415, R423, R434). -/
structure AirIn where
  /-- Radio: 0 A, 1 B. -/
  radio : Nat := 0
  /-- Timeslot of the FC, 0-3. -/
  slot : Nat := 0
  /-- Start of the preamble after the slot begins, µs. -/
  startUs : Nat := 250
  /-- PHY_MODE it is sent in. -/
  phy : Nat := 5
  /-- Channel index it is sent on. -/
  channel : Nat := 0
  /-- RSSI, dBm. -/
  rssi : Int := -60
  /-- PCLK of the FC at its capture instant. -/
  pclk : Nat := 0
  /-- Counter value at its capture point, the end of its SFD (R152). -/
  stamp : Counter := 0
  /-- The FCS holds. -/
  fcsOk : Bool := true
  /-- PSDU without its FCS. -/
  psdu : Bytes := []
deriving DecidableEq, Repr

/-- What the safety channels find in SAFE of one FC (R368, R373, R387, R388). -/
structure SafeIn where
  /-- TEST_ID of the test each channel fails. -/
  tests : List (Option Nat) := [none, none, none]
  /-- Each channel's snapshot differs from those of the other voting channels, which agree. -/
  differs : List Bool := [false, false, false]
  /-- All snapshots of the voting channels differ pairwise. -/
  allDiffer : Bool := false
  /-- Readbacks of SW1 and SW2 where they are not as commanded. -/
  readback : Option (Bool × Bool) := none
deriving DecidableEq, Repr


/-- A CAN frame as it comes from the bus (R441, R444, R459). -/
structure CanIn where
  /-- Identifier. -/
  id : Nat := 0
  /-- IDE: a 29-bit identifier. -/
  ide : Bool := false
  /-- FDF. -/
  fdf : Bool := false
  /-- BRS. -/
  brs : Bool := false
  /-- ESI. -/
  esi : Bool := false
  /-- A remote frame. -/
  remote : Bool := false
  /-- Data bytes. -/
  data : Bytes := []
  /-- Counter value of its SOF at the transceiver. -/
  sof : Counter := 0
deriving DecidableEq, Repr

/-- What a sleeping channel's transceiver sees on the bus (R453). -/
structure CanWakeIn where
  /-- Length of a dominant phase, µs. -/
  dominantUs : Nat := 0
  /-- A classical frame with an 11-bit identifier: identifier and data. -/
  frame : Option (Nat × Bytes) := none
deriving DecidableEq, Repr

/-- What a boundary samples of the pins and the analog inputs (R120, R155, R166 to R171, R221, R369, R472). -/
structure BoundaryIn where
  /-- SL-A IN1 reads high at the boundary. -/
  a1 : Bool := true
  /-- SL-A IN2. -/
  a2 : Bool := true
  /-- SL-B IN1. -/
  b1 : Bool := true
  /-- SL-B IN2. -/
  b2 : Bool := true
  /-- The outputs of V1 and V2 differ. -/
  voters : Bool := false
  /-- Average of VIN over the FC that ends, mV. -/
  vinMv : Nat := 24000
  /-- Front end of each of the six streams. -/
  streams : List StreamIn := []
  /-- Bias samples of ANT-A and ANT-B. -/
  ants : List AntIn := []
  /-- OCXO board temperature, 0.001 degree C. -/
  boardMk : Int := 0
  /-- Enclosure temperature T_ENCL, 0.001 degree C. -/
  enclMk : Int := 0
  /-- PoDL current of each link, mA. -/
  podlMa : List Nat := []
  /-- P_INT: input power less the PoDL power delivered, mW (R552). -/
  intMw : Nat := 0
  /-- Internal cell voltage, mV. -/
  cellMv : Nat := 3600
  /-- VBAK, mV; 0 when absent. -/
  vbakMv : Nat := 0
  /-- State of the tamper loop. -/
  tloop : Nat := 0
  /-- The OCXO oven has reached its set point. -/
  oven : Bool := true
  /-- RTC reading at the boundary, 1/32,768 s. -/
  rtc : Nat := 0
deriving DecidableEq, Repr

/-- What STILL finds from phase 3 on (R114, R115, R147, R373). -/
structure BootIn where
  /-- Signature and decryption of slot A succeed. -/
  sigA : Bool := true
  /-- Signature and decryption of slot B succeed. -/
  sigB : Bool := true
  /-- A copy of the MRAM control block can be read. -/
  ctrl : Bool := true
  /-- Each safety channel passes its full self-test. -/
  chans : List Bool := [true, true, true]
  /-- Both switches of SL-OUT pass their test. -/
  slout : Bool := true
  /-- SL-A IN1 is closed. -/
  a1 : Bool := true
  /-- SL-A IN2. -/
  a2 : Bool := true
  /-- SL-B IN1. -/
  b1 : Bool := true
  /-- SL-B IN2. -/
  b2 : Bool := true
  /-- Device time counter at the reading of phase 7. -/
  counter : Counter := 0
  /-- Bridge counter at that reading. -/
  bridge : Nat := 0
  /-- RTC at that reading, 1/32768 s. -/
  rtc : Nat := 0
  /-- OCXO cycles spent in STILL, by the bridge counter. -/
  stillCycles : Nat := 0
  /-- OCXO board temperature, 0.001 degree C. -/
  boardMk : Int := 0
deriving DecidableEq, Repr

/-- An uncorrectable memory error (R34, R565). -/
structure MemIn where
  /-- BLOCK: 1 core-local SRAM, 2 table SRAM, 3 STRT, 4 LEADLIGHT, 5 DRAM, 6 MRAM. -/
  block : Nat := 1
  /-- UNIT: the core, the TABLE_ID, the search unit or the QUEUE_ID; 0xFF in block 5 for a capture buffer or update staging. In
  block 6: 1 for the journal, 2 for the event log, 0 for the rest of MRAM. -/
  unit : Nat := 0
  /-- Entry, record or way. -/
  index : Nat := 0
  /-- In block 6: the second copy fails too. -/
  both : Bool := false
  /-- In block 3: the way as it now reads. -/
  word : BitVec 64 := 0
  /-- In block 1: the window the core was working in. -/
  window : Window := .latch
  /-- In block 5: a queue's fault is found while its consumer reads. -/
  reading : Bool := false
  /-- In block 6: a write of PERSIST has failed a second time. -/
  writing : Bool := false
  /-- A single-bit error, corrected on read. -/
  corrected : Bool := false
deriving DecidableEq, Repr
/-- The commands, in the order of the opcode table. -/
inductive Instr where
  /-- A hardware fleet-cycle boundary opens a new FC: inputs captured before it are latched, the new mode takes effect and LATCH work begins (R21). -/
  | fcBoundary (x : BoundaryIn)
  /-- The SAFE window starts: the safety channels run their self-tests, exchange snapshots and form beacon go tokens (R24). -/
  | safeWindow (x : SafeIn)
  /-- The SOLVE window starts: POS solves GNSS epochs, RTK corrections, TDoA fixes and released positions (R24). -/
  | solveWindow (x : SolveIn)
  /-- The COMMAND window starts: automatic mode triggers are evaluated and latched Edtor commands execute in latch order within the budget (R24). -/
  | commandWindow
  /-- The PLAN window starts: other cores' commits are made, then conformance, allotment work, LEADLIGHT and STRT work run (R24). -/
  | planWindow
  /-- The EMIT window starts: replies, events, segment tables, correction fragments and beacon frames are placed in transmit queues (R24). -/
  | emitWindow
  /-- The PERSIST window starts: journal records and commits of the FC are written to MRAM and the standby FLT confirms state (R69). -/
  | persistWindow
  /-- The GUARD window starts: Edtor replies, events and credit packets of the FC are released together (R69). -/
  | guardWindow
  /-- A core's window timer expires with work still running, so the work is stopped and the core-specific action follows (R33). -/
  | windowOverrun (core : Nat) (window : Window)
  /-- An Edtor datagram arrives on H0, H1 or L23 and is authenticated, SEQ-checked and put through the acceptance checks into its session's command queue or rejected (R59). -/
  | commandReceive (d : Datagram)
  /-- A host credit packet renews the lease and sets the session's event limit (R66). -/
  | hostCredit (d : Datagram)
  /-- The Edtor stop filter recognises an authenticated STOP_ALL or STOP_ROBOT datagram and writes the stop request to the three channels (R374). -/
  | stopFilter (d : Datagram) (wait : Nat)
  /-- A command with an unassigned opcode costs one unit and ends with ST_BAD_OPCODE (R574). -/
  | unassignedOpcode (r : Request)
  /-- A session's lease runs out with no authenticated packet for 100 × LEASE_S FCs, so the session is closed (R53). -/
  | lease (slot : Nat)
  /-- Returns the device identity, revisions, boot count and fingerprint (R124). -/
  | sysIdentity (r : Request)
  /-- Returns the mode, return mode, condition word and NOT_READY bits (R125). -/
  | sysModeGet (r : Request)
  /-- Requests a mode transition of R110, judged against NOT_READY (R126). -/
  | sysModeSet (r : Request)
  /-- Requests a COMMANDED_WARM reset at the end of GUARD of the FC (R127). -/
  | sysResetWarm (r : Request)
  /-- Requests a COMMANDED_COLD reset with OCXO and PoDL off for 2 s (R127). -/
  | sysResetCold (r : Request)
  /-- Sets or reads the LULL thresholds, host-loss time, PODL_KEEP and battery input (R128). -/
  | sysPowerConfig (r : Request)
  /-- Opens an Edtor session through the open exchange and derives its session key (R55). -/
  | sysSessionOpen (r : Request)
  /-- Closes the caller's own or another session (R56). -/
  | sysSessionClose (r : Request)
  /-- Reports the four session slots (R57). -/
  | sysSessionList (r : Request)
  /-- Enrols a host in TENDER and returns its HOST_KEY (R129). -/
  | sysHostEnrol (r : Request)
  /-- Revokes an enrolled host and closes its sessions (R130). -/
  | sysHostRevoke (r : Request)
  /-- Ends TENDER with a TENDER_CLOSE reset when provisioning is complete (R131). -/
  | sysTenderClose (r : Request)
  /-- Sets or reads the addresses of H0 or H1 (R474). -/
  | sysNetConfig (r : Request)
  /-- Sets or reads the direction and options of IO 0–7 (R475). -/
  | sysAuxConfig (r : Request)
  /-- Switches the named L24 outputs at the first PCLK of PLAN (R476). -/
  | sysAuxSet (r : Request)
  /-- Reports host port links and L24 I/O state (R477). -/
  | sysPortStatus (r : Request)
  /-- Returns reported time and time-base state at the command's capture instant (R159). -/
  | timeGet (r : Request)
  /-- Sets or reads the time-base settings (R160). -/
  | timeConfig (r : Request)
  /-- Gives consent to and requests a time step in CALM (R161). -/
  | timeStep (r : Request)
  /-- Arms, re-arms or frees one time trigger (R162). -/
  | timeTriggerSet (r : Request)
  /-- Reads the 16 time triggers (R163). -/
  | timeTriggerGet (r : Request)
  /-- Reports antenna, channel, jamming and notch state (R192). -/
  | gnssStatus (r : Request)
  /-- Sets or reads the baseband settings (R189). -/
  | gnssConfig (r : Request)
  /-- Reads one retained measurement epoch in fragments (R191). -/
  | gnssMeasRead (r : Request)
  /-- Sets one notch filter's mode, width and offset (R193). -/
  | gnssNotchSet (r : Request)
  /-- Starts or applies a cable or antenna-alignment calibration in WATCH (R190). -/
  | gnssCalibrate (r : Request)
  /-- A running GNSS calibration completes or fails after its duration and commits its values (R190). -/
  | gnssCalibrationDone (delay : Option Nat) (align : List Int)
  /-- Reports reference-station state (R213). -/
  | refStatus (r : Request)
  /-- Enters the base position and baseline (R214). -/
  | refBaseSet (r : Request)
  /-- Sets or reads the reference-station settings (R215). -/
  | refConfig (r : Request)
  /-- Starts survey-in in ZEPHYR (R216). -/
  | refSurveyStart (r : Request)
  /-- Subscribes the calling session to EV_REF_RTCM (R217). -/
  | refRtcmSubscribe (r : Request)
  /-- Reports the indoor system and the ten anchor links (R253). -/
  | buoyStatus (r : Request)
  /-- Sets or clears one anchor context (R255). -/
  | buoyAnchorSet (r : Request)
  /-- Sets or reads the indoor system settings and class blink rates (R254). -/
  | buoyConfig (r : Request)
  /-- Starts the ASYMMETRY calibration of the anchors (R257). -/
  | buoyCalibrate (r : Request)
  /-- The anchor calibration ends after every anchor's blinks and fits asymmetries and antenna delays (R230). -/
  | buoyCalibrationDone (fits : List CalFit)
  /-- Sets one coverage or blend zone, or reads the zone table (R256). -/
  | buoyZoneSet (r : Request)
  /-- Subscribes the calling session to EV_BUOY_FIX (R258). -/
  | buoyFixSubscribe (r : Request)
  /-- Starts relaying an anchor image to the named links (R251). -/
  | buoyRelayStart (r : Request)
  /-- Sends RELAY_CTRL ACTIVATE to the named anchor heads (R252). -/
  | buoyRelayActivate (r : Request)
  /-- Makes the named anchor heads discard any partial image (R259). -/
  | buoyRelayAbort (r : Request)
  /-- Sets or reads RPT and adrift aging settings (R284). -/
  | sessConfig (r : Request)
  /-- Writes one robot class record (R285). -/
  | sessClassSet (r : Request)
  /-- Reads one robot class (R286). -/
  | sessClassGet (r : Request)
  /-- Enrols a robot in a session and places its RPT entry (R287). -/
  | sessEnrol (r : Request)
  /-- Ends a robot's enrolment (R288). -/
  | sessRevoke (r : Request)
  /-- Removes a LOST hold and returns the session to ENROLLED (R289). -/
  | sessRelease (r : Request)
  /-- Reads one robot session (R290). -/
  | sessGet (r : Request)
  /-- Lists all 256 robot sessions (R291). -/
  | sessList (r : Request)
  /-- Posts 1 to 8 tasks, committing at most two per FC (R352). -/
  | taskPost (r : Request)
  /-- Changes selected fields of one live task (R353). -/
  | taskModify (r : Request)
  /-- Cancels a task, letting its robot finish the leg or halting it (R354). -/
  | taskCancel (r : Request)
  /-- Reads one task (R355). -/
  | taskGet (r : Request)
  /-- Lists tasks of the selected states (R355). -/
  | taskList (r : Request)
  /-- Sets or reads the allotment settings (R356). -/
  | taskConfig (r : Request)
  /-- An OPEN task's DEADLINE_TIME64 passes and it becomes FAILED (R328). -/
  | taskDeadline
  /-- TERMINAL_KEEP_S after its terminal commit a task returns to FREE (R328). -/
  | terminalKeep
  /-- Sets or reads the reservation grid (R319). -/
  | strtGridSet (r : Request)
  /-- Reports STRT occupancy and fault counts (R320). -/
  | strtStatus (r : Request)
  /-- Creates a standing site hold by scan and reserve (R321). -/
  | strtHoldSet (r : Request)
  /-- Removes a host hold and frees its cells (R322). -/
  | strtHoldClear (r : Request)
  /-- Lists every existing hold (R323). -/
  | strtHoldList (r : Request)
  /-- Reserves cell-slots for an outside machine as a timed hold (R324). -/
  | strtReservePath (r : Request)
  /-- Reads one robot's plan and knots (R358). -/
  | pathGet (r : Request)
  /-- Asks for a leg to a point for a parked robot without a task (R357). -/
  | pathRequest (r : Request)
  /-- Reports the statistics of the last completed round (R359). -/
  | pathStatus (r : Request)
  /-- Executes a site stop command and reports the latched causes (R397). -/
  | stopAll (r : Request)
  /-- Executes a stop of one robot session (R398). -/
  | stopRobot (r : Request)
  /-- Reports vote, causes, channels, stop loops and SL-OUT (R399). -/
  | stopStatus (r : Request)
  /-- Sets or reads stop-loop modes, start policy, release input and DISC_FC (R400). -/
  | stopConfig (r : Request)
  /-- Arms a site or robot release (R401). -/
  | stopReleaseArm (r : Request)
  /-- Confirms an armed release within 500 FC (R402). -/
  | stopReleaseConfirm (r : Request)
  /-- In SAFE of the next FC every channel clears its latches and the vote returns to GO (R396). -/
  | releaseApply
  /-- Reports radio settings and counters (R436). -/
  | radioStatus (r : Request)
  /-- Sets or reads the regulatory profile, PHY modes and radio settings (R437). -/
  | radioConfig (r : Request)
  /-- At EFFECT_FC the pending profile, modes, PAN and hop seed take effect and STARTUP foghorns begin (R437). -/
  | radioSettingsEffect
  /-- Reads the dwell and duty-cycle accounting (R438). -/
  | radioBudget (r : Request)
  /-- Puts the named radios into FOG_STATE TEST (R439). -/
  | radioTestStart (r : Request)
  /-- Ends a radio test on the named radios (R439). -/
  | radioTestEnd (r : Request)
  /-- A radio test ends when its DURATION_S runs out (R439). -/
  | radioTestExpiry
  /-- Reports one CAN channel's configuration, state and counters (R456). -/
  | canStatus (r : Request)
  /-- Writes one CAN channel's configuration and restarts it (R455). -/
  | canConfig (r : Request)
  /-- Writes one receive rule, or reads all rules (R457). -/
  | canRuleSet (r : Request)
  /-- Writes one node stop-identifier entry (R458). -/
  | canNodeSet (r : Request)
  /-- Queues 1 to 8 host frames on one channel (R459). -/
  | canSend (r : Request)
  /-- Subscribes the calling session to EV_CAN_RX of one channel (R460). -/
  | canSubscribe (r : Request)
  /-- Puts a CAN channel to sleep once released frames complete (R461). -/
  | canSleepSleep (r : Request)
  /-- Wakes a sleeping CAN channel by command (R461). -/
  | canSleepWake (r : Request)
  /-- Reports tamper state and the 64 key slots (R497). -/
  | keyStatus (r : Request)
  /-- Generates or imports the SITE key into slot 0 (R498). -/
  | keySiteInstall (r : Request)
  /-- Destroys one key slot, resetting for slot 0 (R499). -/
  | keyDestroy (r : Request)
  /-- Stores an anchor factory key (R500). -/
  | keyAnchorSet (r : Request)
  /-- Stores a robot link key override (R500). -/
  | keyLinkSet (r : Request)
  /-- Returns a robot's link key and the device fingerprint on L23 (R501). -/
  | keyRobotExport (r : Request)
  /-- Commits new group or beacon key generations effective from EFFECT_FC (R502). -/
  | keyRoll (r : Request)
  /-- At EFFECT_FC the rolled group and beacon keys come into force (R502). -/
  | rollEffective
  /-- Sets or reads tamper policy, enables and the maintenance window (R503). -/
  | keyTamperConfig (r : Request)
  /-- Clears the tamper latch (R504). -/
  | keyTamperClear (r : Request)
  /-- Returns the periodic or a freshly signed attestation statement (R505). -/
  | attestGet (r : Request)
  /-- Reports update and slot state (R525). -/
  | updStatus (r : Request)
  /-- Opens or resumes a package download into update staging (R526). -/
  | updBegin (r : Request)
  /-- Writes one package block to staging (R527). -/
  | updData (r : Request)
  /-- Starts verification of the staged package and writing into the inactive slot (R529). -/
  | updFinish (r : Request)
  /-- Package verification and slot write complete after V + W FCs and the slot is WRITTEN (R529). -/
  | updFinishDone
  /-- Abandons a download, slot write or scheduled activation (R528). -/
  | updAbort (r : Request)
  /-- Schedules activation at the first suitable FC at least 10 FC ahead (R530). -/
  | updActivate (r : Request)
  /-- Schedules activation at a named whole second, optionally with anchor links (R530). -/
  | updActivateAt (r : Request)
  /-- Confirms the running image and raises ROLLBACK_FLOOR (R532). -/
  | updConfirm (r : Request)
  /-- Schedules activation of the other, confirmed slot (R532). -/
  | updRevert (r : Request)
  /-- In FC a − 100 RELAY_CTRL ACTIVATE is sent to the named anchor heads (R522). -/
  | anchorActivateSend
  /-- In COMMAND of FC a − 1 the activation conditions are checked and the new slot written TRIAL, or the activation is cancelled (R516). -/
  | activationCheck (imagesOk : Bool)
  /-- At FC a the hitless activation begins reloading POS, LNK, SEC and the standby FLT, or a RESTART package resets (R517). -/
  | activation
  /-- A reloaded core finishes its reload and its outputs resume (R517). -/
  | coreReload (core : Nat)
  /-- At the end of GUARD of FC c the new image's FLT becomes active (R517). -/
  | fltImageHandover
  /-- At FC c + 11 the freeze ends, VEER is left and the safety-channel update begins (R517). -/
  | freezeEnd
  /-- A safety channel withdraws, loads the new SAF image, self-tests and rejoins (R520). -/
  | safUpdateTurn (fail : Option Nat)
  /-- A reloaded core fails or c is not reached by a + 14, so the new slot is rejected and the device resets (R521). -/
  | activationAbandon (failed : Bool)
  /-- A recovery package is downloaded over USB DFU when both slots fail, written to slot A and booted (R513). -/
  | dfuDownload (p : Bytes)
  /-- Returns journal records by tag, SEQ range or CSN range (R101). -/
  | jrnlQuery (r : Request)
  /-- Reads the event log (R102). -/
  | jrnlEventRead (r : Request)
  /-- Reports availability and fault summary (R566). -/
  | diagStatus (r : Request)
  /-- Reports one group of diagnostic counters (R567). -/
  | diagCounters (r : Request)
  /-- Reports queue state and clears OVERRUN (R568). -/
  | diagQueueStatus (r : Request)
  /-- Sets a queue's depth and level (R569). -/
  | diagQueueConfig (r : Request)
  /-- Starts a requested self-test or scrub (R570). -/
  | diagSelfTest (r : Request)
  /-- A requested test ends after its duration and its result is reported (R570). -/
  | selfTestDone (target : Nat) (fail : Bool) (detail : Nat)
  /-- Reads STRT or RPT entries by DMA, from a snapshot for the STRT (R571). -/
  | diagTableRead (r : Request)
  /-- Changes LOCK or SPOOF_SEEN of STRT or RPT entries (R572). -/
  | diagTableWrite (r : Request)
  /-- VIN at or above 20.0 V for 10 ms starts a power-on reset and STILL (R110). -/
  | powerOn
  /-- VIN below 16.0 V for 1 ms switches off outputs, latches POWER_FAIL and enters DOLDRUMS (R122). -/
  | powerFail
  /-- A reset of any kind is asserted and STILL begins (R116). -/
  | reset
  /-- Phase 7 completes and the first FC after STILL starts in CALM, TENDER or FOG (R110). -/
  | stillComplete (x : BootIn)
  /-- With both slots failed, boot is retried from phase 3 every 10 s (R115). -/
  | bootRetry (x : BootIn)
  /-- No session has been open for HOST_LOSS_S seconds in BREEZE, DRIFT or SQUALL, so FOG is triggered (R118). -/
  | hostLoss
  /-- 100 consecutive FCs without valid corrections or an in-sync anchor trigger FOG (R110). -/
  | referenceLost
  /-- A PPS out edge is driven at each whole second of reported time (R149). -/
  | ppsOut (pclk : Nat)
  /-- A ZDA sentence starts 9.5 ms after each PPS out edge (R151). -/
  | zda (pclk : Nat)
  /-- An external PPS edge on L22 is captured and used as a time measurement (R150). -/
  | ppsIn (ftu : Nat) (rising : Bool) (wide : Bool)
  /-- A step executed in COMMAND is applied at the next boundary, resizing the step FC (R145). -/
  | step
  /-- The RTC is set from reported time at every whole second (R148). -/
  | rtcSet (pclk : Nat)
  /-- A time trigger fires at its due time and applies its action (R156). -/
  | timeTrigger (id : Nat) (pclk : Nat)
  /-- PULSE_US after an ACTION 0x03 firing the output is turned off (R156). -/
  | pulseEnd (io : Nat) (pclk : Nat)
  /-- At a measurement epoch every channel's state is latched and read out to the epoch buffer (R180). -/
  | epochLatch (e : EpochIn)
  /-- An acquisition search hands a detected signal over to its channel (R176). -/
  | acquisitionDone (chan : Nat) (pclk : Nat)
  /-- A shorted antenna's bias is switched back on after 100 FC off (R172). -/
  | antShortRetry (ant : Nat)
  /-- A SYNC_REQ is launched on each BUOY link 50 µs after every FC boundary (R227). -/
  | syncReq
  /-- A SYNC_RESP completes an exchange that updates the link's clock model (R228). -/
  | syncResp (f : BuoyFrame)
  /-- An anchor head's HELLO pairs it and moves its context toward SYNCING (R226). -/
  | hello (f : BuoyFrame)
  /-- A BUOY REPORT frame is received, authenticated and written to its report queue (R240). -/
  | report (f : BuoyFrame)
  /-- A missing REPORT at the end of the following period lets its group be solved with DEADLINE set (R241). -/
  | reportDeadline (fc : Nat) (period : Nat)
  /-- An anchor head's RELAY_ACK advances or ends an image relay (R251). -/
  | relayAck (f : BuoyFrame)
  /-- No acknowledgement for 10 FC makes the relay resend from NEXT_CHUNK (R251). -/
  | relayResend (link : Nat)
  /-- A BUOY PHY link goes up or down, changing the anchor context state (R226). -/
  | phyLinkChange (link : Nat) (up : Bool) (level24 : Bool)
  /-- PoDL detection and classification on a link decide whether it is powered (R220). -/
  | podlDetection (link : Nat) (cls : Nat)
  /-- A PoDL overload or short puts the link in FAULT (R221). -/
  | podlOverload (link : Nat)
  /-- A shed link is powered again after 1,000 FC of margin (R221). -/
  | podlRestore (link : Nat)
  /-- An anchor context in FAULT is retried after 1,000 FC (R226). -/
  | faultRetry (link : Nat)
  /-- A radio frame is received and written with its descriptor to the RX queue (R435). -/
  | radioRx (f : AirIn)
  /-- An association request is checked and answered, starting a new association (R268). -/
  | assocReq
  /-- An association confirmation makes the session ASSOCIATED or returns it to ENROLLED (R266). -/
  | assocConfirm
  /-- No confirmation by FC n + 50 returns the session to ENROLLED (R266). -/
  | assocTimeout
  /-- A robot position report is learned and applied (R273). -/
  | positionReport
  /-- A robot's plan request becomes a rank 1 or rank 2 request, or is ignored (R346). -/
  | planReq
  /-- A SLEEP element makes the session ASLEEP or renews its sleep (R432). -/
  | sleep
  /-- An ASSOCIATED session unheard for ADRIFT_FC becomes ADRIFT (R281). -/
  | adrift
  /-- The RPT aging sweep visits its share of entries and ages those unheard for AGE (R279). -/
  | agingSweep
  /-- No renewal by NEXT_WAKE_FC + 20 marks the sleeping session WAKE_MISSED (R433). -/
  | wakeMissed
  /-- A radio timeslot begins and its scheduled downlink, uplink or foghorn is handled (R410). -/
  | timeslot (k : Nat)
  /-- A LAMP beacon is launched in slot 0 unless the live vote or robot stops suppress it (R417). -/
  | beaconLaunch
  /-- A tagged stop frame is launched in the target slot and repeated while stop holds (R384). -/
  | stopFrame (k : Nat)
  /-- A stop-loop line reads open for FILTER samples, opening the input and asserting the vote (R369). -/
  | slInput (inp : Nat) (line : Nat) (pclk : Nat)
  /-- The lead channel drives a test pulse on a stop-loop source and checks the lines (R370). -/
  | inputTestPulse (src : Nat) (lows : List Bool)
  /-- The lead channel pulses SW1 or SW2 off and the channels check readback (R373). -/
  | sloutTestPulse (fell : Bool) (rose : Bool)
  /-- A channel's monitor finds PCLK lost and kills SL-OUT (R20). -/
  | clockLoss (chan : Nat) (pclk : Nat)
  /-- After its self-test and matching snapshots a withdrawn channel rejoins (R389). -/
  | channelRejoin (chan : Nat)
  /-- Every 8 h one channel starts its planned full self-test (R390). -/
  | plannedSelfTest
  /-- Every 10 min the lead passes to the next channel (R391). -/
  | leadChange
  /-- Hourly FLT0 and FLT1 exchange active and standby roles (R393). -/
  | fltSwap
  /-- A valid CAN frame is received and written to the RX queue (R444). -/
  | canRx (ch : Nat) (f : CanIn)
  /-- A sent, failed or stale CAN frame's outcome is written to the completion table (R449). -/
  | canTxOutcome (ch : Nat) (stop : Bool) (outcome : Nat) (sof : Option Counter)
  /-- TEC above 255 takes the channel bus-off (R443). -/
  | busOff (ch : Nat) (head : Bool)
  /-- After 128 × 11 recessive bits the channel returns to ERROR_ACTIVE (R443). -/
  | busOffRecovery (ch : Nat)
  /-- A bus wake or a stop vote wakes a sleeping CAN channel (R453). -/
  | canWake (ch : Nat) (w : CanWakeIn)
  /-- An H0, H1 or L23 link goes up or down (R473). -/
  | portLink (port : Port) (up : Bool) (speed : Nat)
  /-- An L24 input's filtered level changes (R468). -/
  | auxInput (io : Nat) (level : Bool) (pclk : Nat)
  /-- An output at its current limit for 1 ms is switched off and latched (R469). -/
  | outFault (io : Nat) (pclk : Nat)
  /-- The service-enable input changes after its 100 ms filter (R471). -/
  | svcEn (active : Bool) (pclk : Nat)
  /-- The auxiliary I/O supply is lost or returns (R473). -/
  | vioLost (present : Bool) (pclk : Nat)
  /-- A tamper sensor check trips a sensor at its second consecutive finding and applies the policy (R493). -/
  | tamperCheck (sensor : Nat) (found : Bool) (rtc : Nat)
  /-- The tamper maintenance window expires (R495). -/
  | maintenanceExpiry
  /-- An allotment round opens with conformance, eligibility, auction and the request list (R338). -/
  | allotmentRound
  /-- A free search unit takes a path request from the LEADLIGHT queue (R336). -/
  | leadlightRequest
  /-- A LEADLIGHT search ends with FOUND, LEG, PARTIAL, NO_PATH or ABANDONED (R337). -/
  | searchResult (unit : Nat) (tclk : Nat)
  /-- A STRT probe reads both candidate buckets and returns FREE, a match or CORRUPT (R301). -/
  | probe (cell : Nat) (slot : Nat) (kind : Nat) (requester : Nat)
  /-- Finished searches are leg-end scanned and reserved in the STRT (R341). -/
  | legReserve
  /-- In PLAN of FC 10r + 9 every leg reserved in the round is granted (R342). -/
  | grant
  /-- At each slot boundary the expiry sweep frees the previous slot's timed entries and reports stale dwells (R309). -/
  | expirySweep
  /-- A producer writes an entry to a spill queue (R86). -/
  | queueWrite (q : Nat) (e : QEntry) (special : Bool)
  /-- A consumer reads an entry from a spill queue (R88). -/
  | queueRead (q : Nat)
  /-- A consumer discards the rest of the frame it is reading (R89). -/
  | dropRest (q : Nat)
  /-- A queue head refill from DRAM completes (R86). -/
  | headRefill (q : Nat)
  /-- A pointer mismatch or DRAM error resets a queue (R90). -/
  | queueFault (q : Nat) (dram : Bool) (reading : Bool)
  /-- An uncorrectable memory error takes its block's defined outcome (R34). -/
  | memoryFault (f : MemIn)
  /-- With main power absent, the backup supply falls below 2.0 V, so the backup domain loses its RTC, key slots, tamper latch and event latch (R537). -/
  | backupDomainLoss
  /-- An ARP, NDP or ICMP echo request arriving on H0, H1 or L23 is answered, within the per-FC limits, or counted as RX_OTHER (R465). -/
  | arpNdpEchoRequest (port : Port) (kind : HostFrame)
  /-- A bus error raises TEC or REC, moving the channel between ERROR_ACTIVE and ERROR_PASSIVE and raising EV_CAN_STATE (R443). -/
  | canBusError (ch : Nat) (tec : Nat) (rec : Nat)
  /-- A tracking channel loses code or phase lock, or a cycle slip is detected, so SLIP is set, LOCK_TIME_MS restarts and AMBIG may fall back (R184). -/
  | lossOfLock (chan : Nat) (code : Bool) (phase : Bool) (pclk : Nat)
  /-- A channel's PLL achieves phase lock, setting CARRIER_LOCK, and resolves the half-cycle ambiguity (R179). -/
  | phaseLock (chan : Nat) (pclk : Nat)
  /-- A channel achieves bit or secondary-code synchronisation, or decodes message time, advancing AMBIG toward 0b00 (R183). -/
  | bitSynchronisation (chan : Nat) (message : Bool)
  /-- A non-primary signal started from its primary's code phase and Doppler reaches code lock, within 20 FC (R176). -/
  | codeLock (chan : Nat) (pclk : Nat)
deriving DecidableEq, Repr

end Sys2Proof
end

