-- ==== Sys2Proof/Config.lean ====
section
/-! DEFINITION. What an implementation fixes and the values the spec leaves open: constants without a body, about which
nothing can be proved. -/

namespace Sys2Proof.Config

open Sys2Proof

/-- Free value number n: random values (R483) and every value the spec leaves open take the next one. -/
opaque freeNat : Nat → Nat

/-- CAPTURE_COUNTER of a frame sent without LAUNCH_AT, which the spec does not state (R153). -/
opaque unlaunched : Nat

/-- Bytes of a LEADLIGHT request by its robot session, whose layout the spec does not give (R94). -/
opaque requestWord : Nat → Bytes

/-- Time in FTU from the first preamble symbol of a radio frame to the end of its SFD in a PHY mode, which the spec leaves to
the PHY (R152, R410). -/
opaque sfdFtu : Nat → Nat

/-- The address of a BUOY link's MAC as derived from DEVICE_EUI64: DEVICE_EUI64, link (R219). -/
opaque macFrom : BitVec 64 → Nat → BitVec 48

/-- PRC of a cell whose correction in 0.02 m is beyond 16 bits: the spec states none (R209, R210). -/
opaque prcBeyond : Int → Int

/-- The up coordinate R243 fixes where no zone holds the robot's previous position: the spec states none. -/
opaque floorElsewhere : Int

/-- The core images the slot as manufactured holds, by SEG_KIND: the spec does not give them (R492). -/
opaque factoryImage : Nat → Bytes

/-- CONFIG_MEAS: SHA-384 of the current-format area of the persistent configuration as persisted at a CSN (R492), whose
layout the spec does not give. -/
opaque configMeas : Nat → Bytes

/-- The Celnagen public keys in the boot ROM, points of P-384, by SIG_KEY_ID (R509). -/
opaque bootKey : Nat → Option (Nat × Nat)

end Sys2Proof.Config
end

