-- ==== Sys2Proof/Machine/State.lean ====
section
/-! DEFINITION. The state of the RD-824 as plain data: every register, table, queue, counter, mode and pin the spec
gives it, each field's docstring naming the rule. A structure's default values are its values after POWER_ON reset of a
device as manufactured; notes/assumptions/1.md lists those the spec leaves open. -/

namespace Sys2Proof.Machine

open Sys2Proof

/-- STATE of the time base (R137). -/
inductive TimeState where
  | unaligned | acquiring | locked | holdover | stepPending
deriving DecidableEq, Repr

/-- ANCHOR_STATE (R226). -/
inductive AnchorState where
  | off | enabled | linkUp | unpaired | syncing | inSync | fault | relay
deriving DecidableEq, Repr

/-- SSTATE of a robot session (R265). -/
inductive SState where
  | free | enrolled | associating | associated | adrift | asleep | lost
deriving DecidableEq, Repr

/-- STATE of a task (R328). -/
inductive TaskState where
  | free | posted | assigned | active | finished | cancelled | failed
deriving DecidableEq, Repr

/-- PLAN_STATE of a robot session (R349). -/
inductive PlanState where
  | none | parked | requested | reserved | granted | halted | deferred | stopped | adrift
deriving DecidableEq, Repr

/-- What one piece of a leg does (R331). -/
inductive SegKind where
  | wait | turn | run
deriving DecidableEq, Repr

/-- Where a request of an allotment round stands (R336, R338, R341). -/
inductive ReqStage where
  | queued | searching | found | reserved | failed | carried | dropped
deriving DecidableEq, Repr

/-- Result of a LEADLIGHT search (R337). -/
inductive SearchCode where
  | found | leg | partialPath | noPath | abandoned
deriving DecidableEq, Repr

/-- CH_STATE of a safety channel (R399). -/
inductive ChState where
  | voting | testing | withdrawn | rejoining | updating
deriving DecidableEq, Repr

/-- CSTATE of a CAN channel (R443). -/
inductive CState where
  | off | errorActive | errorPassive | busOff | asleep | disabled
deriving DecidableEq, Repr

/-- A mode change decided and waiting for the next boundary (R30, R113). -/
structure ModeChange where
  /-- The mode that governs from the next FC. -/
  target : Mode
  /-- ENTRY_CAUSE (R113). -/
  cause : Nat
  /-- RETURN_MODE once the change is made (R106); none is 0xFF. -/
  ret : Option Mode
  /-- CSN of the commit that decided it, where a command did. -/
  csn : Option Nat := none
  /-- SESSION_ID and TAG of that command. -/
  tag : Option (Nat × Nat) := none
deriving DecidableEq, Repr

/-- An automatic mode trigger (R107, R110, R580). -/
inductive Trigger where
  /-- The stop vote has been asserted. -/
  | stopVote
  /-- Three consecutive beacons were not put on air. -/
  | beaconLoss
  /-- A stop release was confirmed and the vote is go again. -/
  | release
  /-- Supply low, or the battery input active. -/
  | lull
  /-- LULL's condition no longer holds. -/
  | lullOver
  /-- The time base entered holdover, or corrections are withheld. -/
  | referenceLost
  /-- Holdover cleared and corrections valid in 100 consecutive FCs. -/
  | referenceBack
  /-- No session open for HOST_LOSS_S. -/
  | hostLoss
  /-- No corrections and no anchor in sync for 100 FCs. -/
  | noPosition
  /-- MRAM unreadable, or PERSIST failed twice. -/
  | mramFault
  /-- A core faulted and is reloaded. -/
  | coreReload (core : Nat)
  /-- The next FC is that of an activation whose conditions hold. -/
  | activation
  /-- An activation or a core reload is over. -/
  | veerOver
deriving DecidableEq, Repr

/-- What a BUOY link captures for LATCH of the next FC (R25, R225, R226). -/
inductive BuoyIn where
  /-- An uplink frame in its report queue, with its descriptor. -/
  | frame (f : BuoyFrame) (desc : Bytes)
  /-- The PHY link has gone up or down. -/
  | phy (link : Nat) (up : Bool)
  /-- A PoDL overload or short. -/
  | overload (link : Nat)
deriving DecidableEq, Repr

/-- Who receives an event (R577). -/
inductive Audience where
  /-- Every open session. -/
  | all
  /-- Every SUPERVISOR and SERVICE session. -/
  | sup
  /-- One session slot. -/
  | one (slot : Nat)
  /-- Every SUPERVISOR and SERVICE session, and one slot besides. -/
  | supAnd (slot : Nat)
  /-- Exactly these slots (subscribers). -/
  | slots (l : List Nat)
deriving DecidableEq, Repr

/-- An event raised, or placed in a session's event queue (R58, R67). -/
structure Event where
  /-- Event code (R577). -/
  code : Nat
  /-- Its receivers. -/
  aud : Audience := .all
  /-- CSN of the commit it reports, or the current CSN (R42). -/
  csn : Nat := 0
  /-- Reported time at its capture instant (R67). -/
  time : Nat := 0
  /-- SESSION_ID and TAG of the command that caused it (R58). -/
  tag : Option (Nat × Nat) := none
  /-- Payload after the preamble. -/
  payload : Bytes := []
deriving DecidableEq, Repr

/-- An Edtor packet from the RD-824 to a host (R39). -/
structure Packet where
  /-- Session slot; 4 for the open exchange. -/
  slot : Nat := 0
  /-- SESSION_ID. -/
  sessionId : Nat := 0
  /-- Port it leaves on. -/
  port : Port := .h0
  /-- Destination IP address. -/
  addr : Nat := 0
  /-- Destination UDP port. -/
  udp : Nat := 0
  /-- KIND (R40). -/
  kind : Nat := 2
  /-- SEQ (R46). -/
  seq : Nat := 0
  /-- TAG. -/
  tag : Nat := 0
  /-- OPCODE, or the event code. -/
  opcode : Nat := 0
  /-- FLAGS (R41). -/
  flags : Nat := 0
  /-- CSN (R71). -/
  csn : Nat := 0
  /-- STATUS. -/
  status : Nat := 0
  /-- OPEN_HOST. -/
  openHost : Nat := 0
  /-- Payload. -/
  payload : Bytes := []
  /-- It answers a retransmission (R64): it ends no command and keeps its original CSN (R75). -/
  resent : Bool := false
  /-- It belongs to a reply of several packets (R63): never cached (R64). -/
  multi : Bool := false
  /-- The datagram as it is sent: header, ciphertext and tag (R39, R43); empty until it is released. -/
  wire : Bytes := []
deriving DecidableEq, Repr

/-- A fragmented reply still being released (R63). -/
structure Stream where
  /-- The packet every fragment copies but for its payload and flags. -/
  head : Packet := {}
  /-- Payloads not yet released, each with its FRAG_INDEX head. -/
  frags : List Bytes := []
  /-- Fragments released per FC. -/
  perFc : Nat := 32
deriving DecidableEq, Repr

/-- The fuses and the mask ROM identity: fixed at manufacture, written by no command (00 R1, R2; 01 Memory; 04 R124). -/
structure Fuse where
  /-- DEVICE_EUI64; a manufactured value (04 R124). -/
  eui64 : BitVec 64 := 0
  /-- ORDER_CODE 0x08 RD-824-E8, 0x09 RD-824-E9 (00 R2, 04 R124). -/
  orderCode : Nat := 0x08
  /-- HW_REV, B1 (00 R3, 04 R124). -/
  hwRev : Nat := 0x21
  /-- SERIAL (04 R124). -/
  serial : Bytes := List.replicate 12 0
  /-- DEVICE_SECRET (01 Memory, 16 R481). -/
  secret : Bytes := List.replicate 32 0
deriving DecidableEq, Repr

/-- The time counter, the fleet cycle and its windows (01 R21-R24). -/
structure Clock where
  /-- boundaries are generated: from clock lock in STILL, never in DOLDRUMS (01 R21). -/
  running : Bool := false
  /-- the device time counter at the boundary of the FC in progress; the counter restarts from 0 at every reset (R117) (01 R21, 05 R132). -/
  boundary : BitVec 64 := 0
  /-- FC phase register in FTU; provisional until STILL completes (01 R21, R22). -/
  fcPhase : Nat := 0
  /-- FC_NUMBER of the FC in progress (01 R23). -/
  fcNumber : Nat := 0
  /-- length of the FC in progress in PCLK (01 R21, R22). -/
  fcLen : Nat := 1248000
  /-- the window in progress (01 R24). -/
  window : Window := .latch
  /-- the FC in progress is the first after STILL (04 R114). -/
  firstFc : Bool := false
  /-- OVEN_WARMING: the oven has not reached its set point (04 R111). -/
  ovenWarming : Bool := true
deriving DecidableEq, Repr

/-- One outstanding command of a session: the acceptance hardware's tag table (02 R59, R91). -/
structure Outstanding where
  /-- TAG (02 R59). -/
  tag : Nat := 0
  /-- OPCODE (02 R64). -/
  opcode : Nat := 0
  /-- the command has been latched (03 R91). -/
  latched : Bool := false
  /-- the last reply sent for the tag (02 R64). -/
  lastReply : Option Packet := none
deriving DecidableEq, Repr

/-- One Edtor session slot (02 R38, R45-R53, R57, R65, R66). -/
structure Session where
  /-- the slot holds an open session (02 R47). -/
  sopen : Bool := false
  /-- SESSION_ID (02 R52). -/
  id : Nat := 0
  /-- HOST_INDEX; 0xFF the provisioning host (02 R57). -/
  host : Nat := 0
  /-- the role granted (02 R48). -/
  role : Role := .operator
  /-- port the session is bound to (02 R38). -/
  port : Port := .h0
  /-- the host's IP address (02 R38). -/
  addr : Nat := 0
  /-- the host's UDP source port (02 R38). -/
  udp : Nat := 0
  /-- LEASE_S (02 R53). -/
  leaseS : Nat := 5
  /-- FC_NUMBER in which the lease was last renewed (02 R53). -/
  renewFc : Nat := 0
  /-- session key (LNK, SEC, GCM engine and stop filter copies) (02 R47, 16 R484). -/
  key : Bytes := []
  /-- highest SEQ accepted (02 R45). -/
  rxHigh : Nat := 0
  /-- values seen among the 1,024 below (02 R45). -/
  rxSeen : List Nat := []
  /-- SEQ of the last packet sent (02 R46). -/
  txSeq : Nat := 0
  /-- commands outstanding (02 R59). -/
  outs : List Outstanding := []
  /-- reply cache, oldest first (02 R64). -/
  cache : List Packet := []
  /-- Edtor reply queue 0x04-0x07 (03 R94). -/
  replyQ : List Packet := []
  /-- Edtor event queue 0x08-0x0B (03 R94). -/
  eventQ : List Event := []
  /-- EVT_SENT: EVENT_NUMBER of the last event sent (02 R65). -/
  evSent : Nat := 0
  /-- EVT_LIMIT in force (02 R66). -/
  evLimit : Nat := 0
  /-- EVT_LIMIT of credit packets captured and not yet latched (02 R66, 01 R25). -/
  limits : List Nat := []
  /-- LOST_COUNT (02 R67). -/
  lost : Nat := 0
  /-- OPENED_CSN (02 R57). -/
  openedCsn : Nat := 0
  /-- violations of the packets captured and not yet latched, in the order of R578 (02 R80, 20 R578). -/
  viol : List Nat := List.replicate 11 0
  /-- violations of the FC, counted for its EV_EDTOR_VIOLATION, in the order of R578 (02 R80, 20 R578). -/
  violDue : List Nat := List.replicate 11 0
  /-- the session's violation counters since it opened, in the order of R578, then RX_AUTH_FAIL, RX_REPLAY and RX_NO_SESSION (02 R79). -/
  cnt : List Nat := List.replicate 14 0
  /-- the boundary found the lease run out (02 R53, R54). -/
  leaseDue : Bool := false
  /-- highest CSN of the final replies, events and credit packets sent (02 R75). -/
  csnSent : Nat := 0
  /-- fragmented replies still being released (02 R63). -/
  streams : List Stream := []
  /-- FC that executed REF_RTCM_SUBSCRIBE; none not subscribed (07 R217). -/
  rtcmSub : Option Nat := none
  /-- FC that executed BUOY_FIX_SUBSCRIBE; none not subscribed (08 R258). -/
  fixSub : Option Nat := none
  /-- FC that executed CAN_SUBSCRIBE, per channel; none not subscribed (14 R460). -/
  canSub : List (Option Nat) := [none, none]
deriving DecidableEq, Repr

/-- Edtor counters of one port (02 R37, R79, 20 R578). -/
structure PortCounters where
  /-- RX_BAD_SIZE (02 R79). -/
  badSize : Nat := 0
  /-- RX_BAD_HEADER (02 R79). -/
  badHeader : Nat := 0
  /-- RX_NO_SESSION (02 R79). -/
  noSession : Nat := 0
  /-- RX_AUTH_FAIL (02 R79). -/
  authFail : Nat := 0
  /-- RX_REPLAY (02 R79). -/
  replay : Nat := 0
  /-- RX_BAD_KIND ... EX_BAD_MODE in the order of R578 (02 R79). -/
  viol : List Nat := List.replicate 11 0
  /-- host credits whose EVT_LIMIT was below the limit in force (02 R66). -/
  evtLow : Nat := 0
  /-- the five drop counts as the last boundary latched them (02 R80, R579). -/
  latched : List Nat := List.replicate 5 0
  /-- the five drop counts at the last EV_EDTOR_DROPPED (02 R80, R579). -/
  reported : List Nat := List.replicate 5 0
deriving DecidableEq, Repr

/-- The Edtor transport (02). -/
structure Edtor where
  /-- session slots 0-3 (02 R50). -/
  sessions : Tbl Session := []
  /-- commands captured and not yet latched (queues 0x00-0x03) (02 R59, 03 R94). -/
  inbox : List Request := []
  /-- commands latched and not yet executed, in latch order, carried ones first (02 R62, 01 R32). -/
  latched : List Request := []
  /-- REJECTED and resent replies awaiting EMIT of the next FC (02 R59, R64). -/
  rejects : List Packet := []
  /-- commands lost in a command-queue reset, ended in COMMAND of the next FC (03 R91). -/
  faulted : List Request := []
  /-- counters of H0, H1, L23 (02 R79). -/
  ports : Tbl PortCounters := []
  /-- those whose packets the boundary has latched, due in EMIT of this FC (02 R59, R64). -/
  rejectsDue : List Packet := []
  /-- replies of the open exchange, and the last ones of a session that has closed itself, due at GUARD (02 R51, R56). -/
  parting : List Packet := []
  /-- JRNL_HOLD: commands held for lack of journal slots (03 R99). -/
  jrnlHold : Nat := 0
  /-- command units used in this FC (01 R32). -/
  unitsUsed : Nat := 0
deriving DecidableEq, Repr

/-- One spill queue (03 R82-R94). -/
structure SpillQueue where
  /-- entries, head first (head, middle and tail together) (03 R82, R85). -/
  entries : List QEntry := []
  /-- write pointer, first copy (03 R90). -/
  ptr : Nat := 0
  /-- write pointer, second copy (03 R90). -/
  ptrDup : Nat := 0
  /-- entries reserved for the frame being written and not yet written (03 R84). -/
  resv : Nat := 0
  /-- frames cut for overlength (03 R84). -/
  truncated : Nat := 0
  /-- FULL (03 R87). -/
  full : Bool := false
  /-- OVERRUN (03 R87). -/
  overrun : Bool := false
  /-- OVERRUN_COUNT (03 R87). -/
  overrunCount : Nat := 0
  /-- DROPPING (03 R89). -/
  dropping : Bool := false
  /-- the consumer is inside a frame (03 R89). -/
  inFrame : Bool := false
  /-- reads return NOT_VALID until the next SOP (03 R89). -/
  skipToSop : Bool := false
  /-- the frame being presented was refused (03 R84). -/
  refused : Bool := false
  /-- the level event is armed (03 R92). -/
  armed : Bool := true
  /-- FC in which the level event was last raised (03 R92). -/
  raisedFc : Option Nat := none
  /-- entries in the 32-entry head (03 R85). -/
  inHead : Nat := 0
  /-- entries in the middle, in DRAM; the rest stand in the tail (03 R85). -/
  inMid : Nat := 0
  /-- a frame accepted at its SOP has not ended (03 R84). -/
  writing : Bool := false
  /-- a head refill from DRAM is pending (03 R86). -/
  refillPending : Bool := false
  /-- depth in force since the last reset (03 R94). -/
  depth : Nat := 0
  /-- a new LEVEL to apply at the next boundary (03 R94). -/
  levelNext : Option Nat := none
  /-- LEVEL in force (03 R92). -/
  level : Nat := 0
  /-- queue faults counted (03 R90). -/
  faults : Nat := 0
  /-- highest occupancy since the last read (19 R568). -/
  maxOcc : Nat := 0
  /-- read pointer, first copy (03 R90). -/
  rptr : Nat := 0
  /-- read pointer, second copy (03 R90). -/
  rptrDup : Nat := 0
  /-- the 64 bytes returned by the last read (03 R82, R83, R88). -/
  lastRead : Option Bytes := none
  /-- occupancy when the queue was last noted (03 R92). -/
  occ : Nat := 0
deriving DecidableEq, Repr

/-- One journal record (03 R96). -/
structure JournalRec where
  /-- REC_ID (03 R96). -/
  recId : Nat := 0
  /-- REC_KIND (03 R96). -/
  kind : Nat := 1
  /-- STATE: LATCHED 0x01, FINAL 0x02 (03 R96). -/
  final : Bool := false
  /-- SESSION_ID (03 R96). -/
  sessionId : Nat := 0
  /-- ORIGIN (03 R96). -/
  origin : Nat := 0
  /-- INTERRUPT (03 R96). -/
  interrupt : Nat := 0
  /-- TAG (03 R96). -/
  tag : Nat := 0
  /-- OPCODE (03 R96). -/
  opcode : Nat := 0
  /-- SEQ (03 R96). -/
  seq : Nat := 0
  /-- ACCEPT_CSN (03 R96). -/
  acceptCsn : Nat := 0
  /-- LAST_CSN (03 R96). -/
  lastCsn : Nat := 0
  /-- COMMITS_DONE (03 R96). -/
  done : Nat := 0
  /-- COMMITS_PLANNED (03 R96). -/
  planned : Nat := 0
  /-- LATCH_FC (the low 32 bits are stored) (03 R96). -/
  latchFc : Nat := 0
  /-- FINAL_FC (the low 32 bits are stored) (03 R96). -/
  finalFc : Nat := 0
  /-- FINAL_STATUS (03 R96). -/
  status : Nat := 0
deriving DecidableEq, Repr

/-- A contiguous range of internal commits of one origin in the FC (03 R97). -/
structure InternalRec where
  /-- ORIGIN 0x80-0x84 (03 R96). -/
  origin : Nat := 0x80
  /-- first CSN of the range (03 R96). -/
  first : Nat := 0
  /-- last CSN of the range (03 R96). -/
  last : Nat := 0
  /-- commits in the range (03 R96). -/
  count : Nat := 0
  /-- FC of the commits (LATCH_FC) (03 R96). -/
  fc : Nat := 0
deriving DecidableEq, Repr

/-- One event-log record (03 R102). -/
structure LogRec where
  /-- LOG_SEQ (03 R102). -/
  logSeq : Nat := 0
  /-- EVENT_CODE (03 R102). -/
  code : Nat := 0
  /-- SESSION_ID the event was addressed to (03 R102). -/
  sessionId : Nat := 0xFFFF
  /-- CSN (03 R102). -/
  csn : Nat := 0
  /-- EVENT_TIME (03 R102). -/
  time : Nat := 0
  /-- PAYLOAD_HEAD (03 R102). -/
  head : Bytes := []
  /-- PAYLOAD_LEN (03 R102). -/
  len : Nat := 0
deriving DecidableEq, Repr

/-- What this FC has committed and raised, not yet persisted or sent (02 R69, 03 R96, R97). -/
structure Commits where
  /-- current CSN: the last CSN committed (02 R68). -/
  csn : Nat := 0
  /-- the CSN the next commit takes (02 R68). -/
  nextCsn : Nat := 1
  /-- commits submitted by other cores and not yet made: ORIGIN, OBJ_KIND, OBJ_INDEX (01 R12, 03 R97). -/
  submitted : List (Nat × Nat × Nat) := []
  /-- contiguous CSN ranges of internal commits of this FC (03 R97). -/
  internal : List InternalRec := []
  /-- command records to write in PERSIST (03 R97). -/
  recs : List JournalRec := []
  /-- event-log records to write in PERSIST (03 R97). -/
  logs : List LogRec := []
  /-- events raised and not yet placed by EMIT (02 R67). -/
  events : List Event := []
  /-- events captured by hardware in this FC and latched in the next (01 R25). -/
  later : List Event := []
  /-- replies of this FC awaiting EMIT (02 R60, R76). -/
  replies : List Packet := []
  /-- commits made so far by the command in execution (03 R96). -/
  cmdCommits : Nat := 0
  /-- the last of them (02 R71, 03 R96). -/
  cmdLast : Nat := 0
  /-- no PERSIST has completed since the reset (03 R100). -/
  booting : Bool := false
  /-- PERSIST of the FC in progress has been carried out and not broken (03 R98). -/
  persistDue : Bool := false
  /-- consecutive PERSIST failures (03 R98). -/
  persistFails : Nat := 0
  /-- this FC's Edtor packets are withheld (03 R98). -/
  withheld : Bool := false
  /-- FC whose PERSIST completed last (13 R413). -/
  persistedFc : Nat := 0
  /-- PERSIST of the FC in progress has completed (02 R69). -/
  persisted : Bool := false
  /-- packets released at the last GUARD (02 R76). -/
  packets : List Packet := []
deriving DecidableEq, Repr

/-- The mode machine (04 R103-R113). -/
structure ModeState where
  /-- MODE (04 R103). -/
  cur : Mode := .still
  /-- RETURN_MODE; none is 0xFF (04 R106). -/
  ret : Option Mode := none
  /-- ENTRY_CAUSE (04 R113). -/
  cause : Nat := 0
  /-- ENTRY_FC (04 R125). -/
  entryFc : Nat := 0
  /-- the change that takes effect at the next boundary (04 R30, R110). -/
  next : Option ModeChange := none
  /-- automatic triggers latched and not yet evaluated (04 R107, R580). -/
  triggers : List Trigger := []
  /-- triggers captured or decided after COMMAND began, latched at the next boundary (04 R580). -/
  later : List Trigger := []
  /-- the cause FOG was entered with (04 R118). -/
  fogCause : Nat := 0
  /-- condition word at the last EMIT (04 R112). -/
  lastCond : Nat := 0x841
  /-- kind of the reset in progress or last taken (04 R116). -/
  lastKind : Nat := 0x01
  /-- phase of STILL in progress (04 R114). -/
  stillPhase : Nat := 1
  /-- image slots that have failed in this STILL (04 R115). -/
  stillFails : Nat := 0
  /-- phase 5 could not read the MRAM control block (04 R110). -/
  ctrlUnreadable : Bool := false
  /-- FCs without an open session (04 R118). -/
  noSessionFc : Nat := 0
  /-- consecutive FCs with corrections valid (04 R110). -/
  corrRun : Nat := 0
  /-- consecutive FCs of the reference-loss FOG row (04 R110). -/
  refLossRun : Nat := 0
  /-- kind of the reset due at the last PCLK of GUARD (04 R127, R131). -/
  resetAt : Option Nat := none
  /-- LULL or FOG has intervened since RETURN_MODE was recorded (04 R109). -/
  intervened : Bool := false
  /-- core being reloaded (04 R110). -/
  veerCore : Option Nat := none
deriving DecidableEq, Repr

/-- SYS_POWER_CONFIG parameters (04 R118, R120, R121). -/
structure PowerConfig where
  /-- VIN_LULL_ENTER mV (04 R120). -/
  lullEnter : Nat := 19000
  /-- VIN_LULL_EXIT mV (04 R120). -/
  lullExit : Nat := 21000
  /-- LULL_ENTER_FC (04 R120). -/
  enterFc : Nat := 20
  /-- LULL_EXIT_FC (04 R120). -/
  exitFc : Nat := 500
  /-- HOST_LOSS_S (04 R118). -/
  hostLossS : Nat := 30
  /-- PODL_KEEP (04 R120). -/
  podlKeep : Nat := 0
  /-- BATTERY_INPUT, 0xFF none (04 R128). -/
  batteryInput : Nat := 0xFF
deriving DecidableEq, Repr

/-- The supply monitor (04 R120-R122, 18 R534). -/
structure Supply where
  /-- last latched VIN average in mV (04 R125). -/
  vinMv : Nat := 0
  /-- consecutive averages below VIN_LULL_ENTER (04 R120). -/
  below : Nat := 0
  /-- consecutive averages at or above VIN_LULL_EXIT (04 R120). -/
  above : Nat := 0
  /-- the supply is LOW (04 R120). -/
  low : Bool := false
  /-- SUPPLY_LOW: the last average latched lay below VIN_LULL_ENTER (04 R111). -/
  lastLow : Bool := false
  /-- the battery input is active as latched (04 R121). -/
  battery : Bool := false
  /-- TENDER's LULL power effects are in force (04 R121). -/
  tenderLull : Bool := false
  /-- the SYS_POWER_CONFIG parameters in force (04 R128). -/
  cfg : PowerConfig := {}
  /-- parameters set in this FC apply from the next (04 R128). -/
  cfgDue : Bool := false
deriving DecidableEq, Repr

/-- One enrolled host (04 R129, 02 R48, R51). -/
structure HostRec where
  /-- the index is enrolled (04 R129). -/
  enrolled : Bool := false
  /-- role ceiling (02 R48). -/
  ceiling : Role := .operator
  /-- NAME (04 R129). -/
  name : Bytes := []
  /-- highest open SEQ accepted (02 R51). -/
  openSeq : Nat := 0
  /-- last open-reply SEQ used (02 R51). -/
  replySeq : Nat := 0
deriving DecidableEq, Repr

/-- The MRAM control block (03 R95). -/
structure Control where
  /-- CSN_CEILING, 1 at manufacture (02 R68). -/
  csnCeiling : Nat := 1
  /-- LAST_CSN (02 R68). -/
  lastCsn : Nat := 0
  /-- REC_ID of the last record (03 R96). -/
  recId : Nat := 0
  /-- LOG_SEQ of the last log record (03 R102). -/
  logSeq : Nat := 0
  /-- generation of each session slot (02 R52). -/
  slotGen : List Nat := [0, 0, 0, 0]
  /-- open SEQ of the provisioning host (02 R51). -/
  provSeq : Nat := 0
  /-- open-reply SEQ of the provisioning host (02 R51). -/
  provReplySeq : Nat := 0
  /-- mode at the last PERSIST (03 R95). -/
  mode : Nat := 1
  /-- RETURN_MODE at the last PERSIST (03 R95). -/
  returnMode : Nat := 0xFF
  /-- BOOT_COUNT (04 R117). -/
  bootCount : Nat := 0
  /-- LAST_RESET_KIND (04 R116). -/
  lastResetKind : Nat := 0x01
  /-- SYS_TENDER_CLOSE has been made since the SITE key was last invalidated (04 R123). -/
  provRefused : Bool := false
  /-- journal ring, oldest first (03 R95, R99). -/
  journal : List JournalRec := []
  /-- event log, oldest first (03 R95). -/
  eventLog : List LogRec := []
  /-- REC_ID of the journal records neither copy yields (04 R119). -/
  badRecs : List Nat := []
  /-- LOG_SEQ of the event-log records neither copy yields (04 R119). -/
  badLogs : List Nat := []
  /-- enrolled hosts (02 R48). -/
  hosts : Tbl HostRec := []
  /-- OBJ_CSN of every object, keyed by OBJ_KIND x 2^32 + OBJ_INDEX; an unlisted object has 0 (02 R72). -/
  objCsn : Tbl Nat := []
deriving DecidableEq, Repr

/-- The three reported-time registers of one FC (05 R132, R133). -/
structure TimeRegs where
  /-- FC_NUMBER from whose boundary they are in force (05 R133). -/
  fc : Nat := 0
  /-- counter value at that boundary (05 R133). -/
  boundary : BitVec 64 := 0
  /-- OFFSET; TIME64 0 when no source is valid (R147) (05 R132). -/
  offset : BitVec 64 := 0
  /-- ERA of TIME64 0 at that boundary (05 R135). -/
  era : Nat := 0
  /-- ANCHOR (05 R132). -/
  anchor : BitVec 64 := 0
  /-- RATE, parts per 2^40 (05 R132, R137). -/
  rate : Int := 0
  /-- STATE in the FC (05 R159). -/
  state : TimeState := .unaligned
  /-- REF_SOURCE at that boundary (05 R159). -/
  source : Nat := 0
  /-- ERR_EST at that boundary (05 R159). -/
  errNs : Nat := 0xFFFFFFFF
  /-- PENDING_FTU at that boundary (05 R159). -/
  pending : Int := 0
  /-- FC_PHASE_DRIFT at that boundary (05 R140, R159). -/
  drift : Int := 0
deriving DecidableEq, Repr

/-- Qualification of one time reference (05 R138). -/
structure RefQual where
  /-- consecutive valid measurements (05 R138). -/
  good : Nat := 0
  /-- consecutive epochs without a valid solution (GNSS) (05 R138). -/
  bad : Nat := 0
  /-- the reference is qualified (05 R138). -/
  qualified : Bool := false
  /-- reported time of the last edge or epoch (05 R138, R150). -/
  lastTime : Option Nat := none
  /-- last measured offset x in FTU (05 R137). -/
  lastX : Int := 0
  /-- offset of the counter from the reference at that measurement, in FTU (05 R139). -/
  lastY : Int := 0
deriving DecidableEq, Repr

/-- One time trigger (05 R156, R162). -/
structure TimeTrigger where
  /-- ACTION; 0x00 free (05 R156). -/
  action : Nat := 0
  /-- OUTPUT (05 R162). -/
  output : Nat := 0
  /-- TFLAGS: bit 0 NOTIFY, bit 1 STOP_SUPPRESS (05 R162). -/
  flags : Nat := 0
  /-- PULSE_US (05 R162). -/
  pulseUs : Nat := 0
  /-- next due time (ERA and TIME64) (05 R156). -/
  due : Nat := 0
  /-- firings left; 0 without end (05 R163). -/
  left : Nat := 0
  /-- PERIOD_FTU (05 R156). -/
  period : Nat := 0
  /-- first FC in which the trigger is armed (05 R162). -/
  armedFc : Nat := 0
  /-- FC in which it last raised EV_TIME_TRIGGER (05 R158). -/
  eventFc : Option Nat := none
deriving DecidableEq, Repr

/-- A step waiting for the boundary (05 R145, R161). -/
structure StepReq where
  /-- STEP_FTU (05 R161). -/
  ftu : Int := 0
  /-- SOURCE 0x01 (05 R161). -/
  fromPending : Bool := true
  /-- ERR_EST after SOURCE 0x02 (05 R161). -/
  errNs : Nat := 0
deriving DecidableEq, Repr

/-- TIME_CONFIG settings (05 R160). -/
structure TimeConfig where
  /-- REF_ORDER (05 R160). -/
  refOrder : Nat := 1
  /-- STEP_POLICY (05 R160). -/
  stepPolicy : Nat := 1
  /-- PPS_IN_EDGE (05 R160). -/
  ppsEdge : Nat := 1
  /-- PPS_OUT_SQUELCH (05 R160). -/
  squelch : Nat := 1
  /-- FREQ_TAU_S (05 R160). -/
  freqTau : Nat := 1000
  /-- PHASE_TAU_S (05 R160). -/
  phaseTau : Nat := 10
  /-- PPS_SQUELCH_NS (05 R160). -/
  squelchNs : Nat := 10000
  /-- PPS_IN_DELAY_PS (05 R160). -/
  ppsDelay : Nat := 0xFFFFFFFF
  /-- PPS_OUT_WIDTH_MS (05 R160). -/
  ppsWidth : Nat := 100
  /-- ZDA_ENABLE (05 R160). -/
  zdaEnable : Nat := 1
deriving DecidableEq, Repr

/-- The time base (05). -/
structure TimeBase where
  /-- registers in force (05 R132). -/
  regs : TimeRegs := {}
  /-- register values of the last 1,000 FCs, newest first (05 R133). -/
  history : List TimeRegs := []
  /-- RATE to apply at the next boundary (05 R133). -/
  nextRate : Option Int := none
  /-- STATE (05 R137, R147). -/
  state : TimeState := .unaligned
  /-- STATE to apply at the next boundary (05 R137). -/
  nextState : Option TimeState := none
  /-- REF_SOURCE (05 R159). -/
  source : Nat := 0
  /-- reference in use: 1 GNSS, 2 external PPS (05 R138). -/
  ref : Option Nat := none
  /-- the GNSS reference (05 R138). -/
  gnss : RefQual := {}
  /-- the external PPS reference (05 R138). -/
  pps : RefQual := {}
  /-- consecutive measurements within 1 us (05 R137). -/
  run : Nat := 0
  /-- |x| of the last 10 measurements (05 R142). -/
  last10 : List Nat := []
  /-- ERR_EST at entry to the state, or as last computed, in ns (05 R142, R147). -/
  errEst : Nat := 0xFFFFFFFF
  /-- E0 (05 R142). -/
  entryErr : Nat := 0xFFFFFFFF
  /-- F0 is 2e-11 rather than 5e-10 (05 R142). -/
  entryF0Slow : Bool := false
  /-- counter value at entry to HOLDOVER or UNALIGNED (05 R142). -/
  entryAt : Counter := 0
  /-- OCXO board temperature at entry, in mK (05 R142). -/
  entryTempMk : Int := 0
  /-- largest temperature change since entry, in mK (05 R142). -/
  dTempMk : Nat := 0
  /-- FCs spent in LOCKED (05 R142). -/
  lockedFc : Nat := 0
  /-- frequency the OCXO tuning voltage adds, in parts of 10^18 (05 R139). -/
  tuning : Int := 0
  /-- PENDING_FTU (05 R143). -/
  pending : Int := 0
  /-- FC_PHASE_DRIFT in FTU (05 R140). -/
  phaseDrift : Int := 0
  /-- a step to apply at the next boundary (05 R145). -/
  step : Option StepReq := none
  /-- the FC in progress is a step FC (05 R145). -/
  stepFc : Bool := false
  /-- a step was executed in COMMAND of this FC (05 R144). -/
  steppedThisFc : Bool := false
  /-- last OCXO-board temperature sample, mK (05 R155). -/
  boardTempMk : Int := 0
  /-- last enclosure temperature sample, mK (05 R155). -/
  enclTempMk : Int := 0
  /-- PPS in edges captured in the FC, PPS_IN_DELAY_PS subtracted, oldest first (05 R150, 01 R25). -/
  ppsIn : List Counter := []
  /-- PPS_IN_BAD (05 R150). -/
  ppsBad : Nat := 0
  /-- counter value of the previous PPS out edge (05 R146). -/
  ppsPrevOut : Option Counter := none
  /-- counter value at which the PPS out pulse falls; none while it is low (05 R149). -/
  ppsFall : Option Counter := none
  /-- reported time of that edge, the whole second ZDA names (05 R151). -/
  ppsTime : Nat := 0
  /-- a ZDA sentence is still to start for that edge (05 R151). -/
  zdaDue : Bool := false
  /-- settings in force in this FC (05 R160). -/
  cfg : TimeConfig := {}
  /-- PPS out and ZDA are suppressed (05 R149). -/
  ppsSuppressed : Bool := false
  /-- the ZDA sentence last started (05 R151). -/
  zda : Bytes := []
  /-- LAUNCH_MISSED per link (05 R154). -/
  launchMissed : Tbl Nat := []
  /-- transmit completion tables, newest first (05 R154). -/
  completions : Tbl (List Nat) := []
  /-- time triggers (05 R156). -/
  triggers : Tbl TimeTrigger := []
  /-- OCXO bridge counter (outside the reset domain) (05 R147). -/
  bridge : Nat := 0
  /-- RTC reading at the boundary of the FC, 1/32768 s (05 R147). -/
  rtcAt : Nat := 0
  /-- STATE and REF_SOURCE last reported by EV_TIME_STATE (05 R164). -/
  lastStateEv : Option (TimeState × Nat) := none
deriving DecidableEq, Repr

/-- The time record of the last PERSIST and the persisted time data (05 R136, R147). -/
structure TimeRecord where
  /-- a record has been written (05 R147). -/
  recorded : Bool := false
  /-- bridge count at the boundary (05 R147). -/
  bridge : Nat := 0
  /-- reported time and ERA at the boundary (05 R147). -/
  time : Nat := 0
  /-- RTC reading at the boundary, 1/32768 s (05 R147). -/
  rtc : Nat := 0
  /-- STATE (05 R147). -/
  state : TimeState := .unaligned
  /-- ERR_EST (05 R147). -/
  errEst : Nat := 0xFFFFFFFF
  /-- LEAP_S persisted; set at manufacture (05 R136). -/
  leapS : Int := 18
  /-- an announced change: the new LEAP_S and the reported second from which it holds (05 R136, R159). -/
  leapNext : Option (Int × Nat) := none
  /-- STEP_COUNT, steps since manufacture (05 R146, R159). -/
  stepCount : Nat := 0
deriving DecidableEq, Repr

/-- GNSS_CONFIG settings and calibration values (06 R189, R190). -/
structure GnssConfig where
  /-- EPOCH_HZ as set (06 R189). -/
  epochHz : Nat := 1
  /-- ELEV_MASK_DEG (06 R189). -/
  elevMask : Nat := 5
  /-- ANT_B_POLICY (06 R189). -/
  antB : Nat := 1
  /-- BIAS (06 R189). -/
  bias : Nat := 1
  /-- SIGNAL_MASK (06 R189). -/
  sigMask : Nat := 0x3FFFF
  /-- LULL_SIGNAL_MASK (06 R189). -/
  lullMask : Nat := 0x1111
  /-- JAM_WARN (06 R189). -/
  jamWarn : Nat := 48
  /-- NOTCH_THRESH_DB (06 R189). -/
  notchThresh : Nat := 15
  /-- PLL_BW_HZ (06 R189). -/
  pllBw : Nat := 10
  /-- DLL_BW_CHZ (06 R189). -/
  dllBw : Nat := 50
  /-- BIAS_OPEN_MA (06 R189). -/
  biasOpen : Nat := 4
  /-- SPACING_64 by SIG_ID; absent is R178's default (06 R178, R189). -/
  spacing : Tbl Nat := []
  /-- ANT_A_DELAY_PS (06 R190). -/
  cableA : Nat := 0
  /-- ANT_B_DELAY_PS (06 R190). -/
  cableB : Nat := 0
  /-- ALIGN_PS LB1, LB2, UB (06 R190). -/
  align : List Int := [0, 0, 0]
  /-- mode, width code and offset of each notch; absent is AUTO, 100 kHz (06 R167, R193). -/
  notchMode : Tbl (Nat × Nat × Int) := []
deriving DecidableEq, Repr

/-- A notch as placed (06 R167, R168). -/
structure Notch where
  /-- an AUTO notch is placed on an interferer (06 R168). -/
  placed : Bool := false
  /-- offset from the window centre, Hz (06 R168). -/
  offset : Int := 0
  /-- consecutive FCs with the interferer below threshold (06 R167). -/
  quiet : Nat := 0
deriving DecidableEq, Repr

/-- One tracking channel (06 R174-R184). -/
structure Channel where
  /-- the channel tracks a signal (06 R174). -/
  assigned : Bool := false
  /-- ANT (06 R185). -/
  ant : Nat := 0
  /-- signal number (BIT of R173) (06 R173). -/
  bit : Nat := 0
  /-- SV (06 R185). -/
  sv : Nat := 0
  /-- GLO_K (06 R185). -/
  gloK : Int := 0
  /-- elevation at assignment, degrees (06 R175). -/
  elev : Int := 0
  /-- acquired or started from its primary (06 R176). -/
  active : Bool := false
  /-- one of the eight searches of the acquisition engine is for it (06 R176). -/
  searching : Bool := false
  /-- FC in which its last search began (06 R176). -/
  searchFc : Nat := 0
  /-- CODE_LOCK (06 R184). -/
  codeLock : Bool := false
  /-- counter value at which the code lock began (06 R184). -/
  codeAt : Counter := 0
  /-- CARRIER_LOCK (06 R184). -/
  phaseLock : Bool := false
  /-- HALF_CYCLE_RESOLVED (06 R184). -/
  halfCycle : Bool := false
  /-- AMBIG (06 R183, R184). -/
  ambig : Nat := 3
  /-- SLIP since the previous epoch (06 R184). -/
  slip : Bool := false
  /-- counter value from which LOCK_TIME_MS counts (06 R184). -/
  lockAt : Counter := 0
  /-- SLIP_COUNT (06 R184). -/
  slips : Nat := 0
deriving DecidableEq, Repr

/-- A signal POS gives a channel (06 R174, R175). -/
structure ChanWish where
  /-- antenna (06 R175). -/
  ant : Nat := 0
  /-- signal number (06 R173). -/
  bit : Nat := 0
  /-- SV (06 R185). -/
  sv : Nat := 0
  /-- GLONASS k (06 R185). -/
  gloK : Int := 0
  /-- elevation, degrees (06 R175). -/
  elev : Int := 0
deriving DecidableEq, Repr

/-- A measurement record (06 R185). -/
structure MeasRecord where
  /-- CHAN_ID (06 R185). -/
  chan : Nat := 0
  /-- ANT (06 R185). -/
  ant : Nat := 0
  /-- signal number of SIG_ID (06 R173). -/
  bit : Nat := 0
  /-- SV (06 R185). -/
  sv : Nat := 0
  /-- GLO_K (06 R185). -/
  gloK : Int := 0
  /-- MFLAGS (06 R184). -/
  flags : Nat := 3
  /-- TX_TOW (06 R185). -/
  txTow : Nat := 0
  /-- CARRIER_PHASE (06 R185). -/
  phase : Int := 0
  /-- DOPPLER (06 R185). -/
  doppler : Int := 0
  /-- CN0 (06 R185). -/
  cn0 : Nat := 0
  /-- SPACING_64 (06 R185). -/
  spacing : Nat := 8
  /-- LOCK_TIME_MS (06 R185). -/
  lockMs : Nat := 0
  /-- SLIP_COUNT (06 R185). -/
  slips : Nat := 0
  /-- CODE_STD_CM (06 R185). -/
  codeStd : Nat := 0
  /-- PHASE_STD (06 R185). -/
  phaseStd : Nat := 0
  /-- elevation of its satellite (06 R175). -/
  elev : Int := 0
  /-- position of its satellite by the ephemeris, ECEF, 0.1 mm (07 R210). -/
  sat : Int × Int × Int := (0, 0, 0)
  /-- velocity of its satellite, 0.1 mm/s (07 R200). -/
  vel : Int × Int × Int := (0, 0, 0)
  /-- satellite clock, relativity and group delay by the ephemeris, 0.1 mm (07 R210). -/
  terms : Int := 0
  /-- ionospheric delay POS expects, 0.1 mm (07 R198, R201). -/
  iono : Int := 0
  /-- tropospheric delay POS expects, 0.1 mm (07 R198, R201). -/
  tropo : Int := 0
  /-- issue of data of its ephemeris (07 R209). -/
  iod : Nat := 0
deriving DecidableEq, Repr

/-- A retained measurement epoch (06 R180, R185). -/
structure Epoch where
  /-- EPOCH_FC (06 R180). -/
  fc : Nat := 0
  /-- EPOCH_COUNTER (06 R180). -/
  counter : BitVec 64 := 0
  /-- full reported time of the latch (06 R185). -/
  time : Nat := 0
  /-- EPOCH_HZ (06 R185). -/
  hz : Nat := 1
  /-- ANT_IN_USE (06 R185). -/
  antInUse : Nat := 0
  /-- TSOL (06 R186). -/
  tsol : Nat := 0
  /-- TSOL_SATS (06 R185). -/
  tsolSats : Nat := 0
  /-- TSOL_X_NS (06 R185). -/
  tsolX : Int := 0
  /-- JAM of streams 0-5 (06 R185). -/
  jam : List Nat := List.replicate 6 0
  /-- EFLAGS BURST (06 R185). -/
  burst : Bool := false
  /-- measurement records in CHAN_ID order (06 R185). -/
  records : List MeasRecord := []
  /-- POS has solved the epoch (06 R181). -/
  solved : Bool := false
  /-- it was latched during a freeze (07 R203). -/
  frozen : Bool := false
  /-- x of its time solution, FTU (06 R186). -/
  x : Int := 0
deriving DecidableEq, Repr

/-- One antenna input (06 R171, R172). -/
structure Antenna where
  /-- ANT_STATE (06 R171). -/
  state : Nat := 1
  /-- bias current, 0.1 mA (06 R192). -/
  ma : Nat := 0
  /-- bias voltage, mV (06 R194). -/
  mv : Nat := 0
  /-- state whose condition the last samples met (06 R171). -/
  cand : Nat := 1
  /-- consecutive samples that met it (06 R171). -/
  count : Nat := 0
  /-- consecutive FCs of the RF_SILENT condition (06 R171). -/
  silent : Nat := 0
  /-- channels with C/N0 above 30 dB-Hz at the last epoch (06 R171). -/
  strong : Nat := 0
  /-- FCs left of the SHORT cycle's off part (06 R172). -/
  biasOffFc : Nat := 0
  /-- FCs left of the SHORT cycle's on part (06 R172). -/
  biasOnFc : Nat := 0
deriving DecidableEq, Repr

/-- A running GNSS calibration (06 R190). -/
structure GnssCal where
  /-- KIND (06 R190). -/
  kind : Nat := 1
  /-- ANTENNA (06 R190). -/
  antenna : Nat := 0
  /-- FC that ends it (06 R190). -/
  endFc : Nat := 0
  /-- ANT_B_ALIGN lacked satellites in some FC (06 R190). -/
  lacked : Bool := false
  /-- the command to answer (06 R190). -/
  req : Request := {}
deriving DecidableEq, Repr

/-- The GNSS baseband (06). -/
structure Gnss where
  /-- settings in force in the FC (06 R189, R190, R193). -/
  cfg : GnssConfig := {}
  /-- EPOCH_HZ in force (06 R189). -/
  hzInForce : Nat := 1
  /-- LULL burst tracking has started (06 R187). -/
  burstMode : Bool := false
  /-- the FC before the boundary was in burst tracking (06 R187). -/
  burstWas : Bool := false
  /-- JAM of streams 0-5 (06 R170). -/
  jam : List Nat := List.replicate 6 0
  /-- EV_GNSS_JAMMING is armed (06 R170). -/
  jamArmed : List Bool := List.replicate 6 true
  /-- noise floor P0 of streams 0-5, as tracked (06 R170). -/
  noise : List Nat := List.replicate 6 1
  /-- AGC gain words (06 R166). -/
  agc : List Nat := List.replicate 6 0
  /-- notches, 4 x stream + notch (06 R168). -/
  notches : Tbl Notch := []
  /-- notch centres of each stream in the FC before the boundary (06 R168, R169). -/
  centresWas : List (List Int) := []
  /-- NOTCH_OVERFLOW (06 R168, R192). -/
  notchOverflow : Nat := 0
  /-- ANT-A and ANT-B (06 R171). -/
  ants : Tbl Antenna := []
  /-- SHORT_RETRIES (06 R192). -/
  shortRetries : Nat := 0
  /-- the channel pool (06 R174). -/
  chans : Tbl Channel := []
  /-- assignment to apply at the next boundary (06 R174). -/
  assignNext : Option (List ChanWish) := none
  /-- retained epochs, newest first (06 R191). -/
  epochs : List Epoch := []
  /-- epoch latched at the boundary, readable in the next FC (06 R181). -/
  captured : Option Epoch := none
  /-- running calibration (06 R190). -/
  cal : Option GnssCal := none
deriving DecidableEq, Repr

/-- REF_CONFIG settings (07 R215). -/
structure RefConfig where
  /-- STATION_ID as written (0x0001 stands for 0) (07 R215). -/
  station : Nat := 1
  /-- RTCM_HZ (07 R215). -/
  rtcmHz : Nat := 1
  /-- AIR_HZ (07 R215). -/
  airHz : Nat := 1
  /-- CORR_SIGNAL_MASK (07 R215). -/
  sigMask : Nat := 0x539
  /-- FRAG_BYTES (07 R215). -/
  fragBytes : Nat := 200
  /-- MIN_SATS (07 R215). -/
  minSats : Nat := 6
  /-- NOTCHED_POLICY (07 R215). -/
  notched : Nat := 1
  /-- CODE_RESID_CM (07 R215). -/
  codeResid : Nat := 500
  /-- XCHECK_MM (07 R215). -/
  xcheckMm : Nat := 20
  /-- RETURN_S (07 R215). -/
  returnS : Nat := 600
  /-- SETUP_ID (07 R215). -/
  setupId : Nat := 1
  /-- ANT_DESCRIPTOR (07 R215). -/
  antDesc : Bytes := List.replicate 32 0
  /-- ANT_SERIAL (07 R215). -/
  antSerial : Bytes := List.replicate 32 0
deriving DecidableEq, Repr

/-- The tie, the orientation and the baseline: site configuration (07 R195-R199). -/
structure RefFrame where
  /-- BASE_STATE (07 R197). -/
  base : Nat := 0
  /-- X0, 0.1 mm (07 R211). -/
  x0 : Int := 0
  /-- Y0 (07 R211). -/
  y0 : Int := 0
  /-- Z0 (07 R211). -/
  z0 : Int := 0
  /-- a base position has been committed (07 R196). -/
  frameSet : Bool := false
  /-- ORIENT_LAT (07 R211). -/
  lat : Int := 0
  /-- ORIENT_LON (07 R211). -/
  lon : Int := 0
  /-- FRAME_REV (07 R196). -/
  frameRev : Nat := 0
  /-- BASELINE_E, _N, _U in mm (07 R199). -/
  baseline : Option (Int × Int × Int) := none
deriving DecidableEq, Repr

/-- Sums of one signal's single differences since its tie began (07 R199). -/
structure BaseSum where
  /-- epochs (07 R199). -/
  n : Nat := 0
  /-- sums of the line of sight by axis, parts of 2^20 (07 R199). -/
  h : List Int := [0, 0, 0]
  /-- sum of the single differences, 0.1 mm / 1,024 (07 R199). -/
  s : Int := 0
  /-- sums of the products of the line of sight (07 R199). -/
  hh : List Int := [0, 0, 0, 0, 0, 0, 0, 0, 0]
  /-- sums of line of sight by single difference (07 R199). -/
  hs : List Int := [0, 0, 0]
  /-- sum of the squared single differences (07 R199). -/
  ss : Int := 0
deriving DecidableEq, Repr

/-- A running survey-in (07 R198, R216). -/
structure Survey where
  /-- MIN_S (07 R216). -/
  minS : Nat := 60
  /-- ACC_MM (07 R216). -/
  accMm : Nat := 10
  /-- MAX_S (07 R216). -/
  maxS : Nat := 60
  /-- FC in which it started (07 R198). -/
  startFc : Nat := 0
  /-- positions in the mean (07 R198). -/
  n : Nat := 0
  /-- sums of the positions, 0.1 mm (07 R198). -/
  sum : List Int := [0, 0, 0]
  /-- sums of squares, for the sample deviation (07 R198). -/
  sumSq : List Nat := [0, 0, 0]
  /-- consecutive epochs with ANT-A not OK (07 R216). -/
  badAnt : Nat := 0
  /-- running sums of the baseline estimate, by signal (07 R199). -/
  segs : Tbl BaseSum := []
  /-- sums of signals whose tie a slip has ended (07 R199). -/
  done : List BaseSum := []
  /-- BASE_STATE before the survey (07 R216). -/
  baseBefore : Nat := 0
  /-- the command to answer (07 R216). -/
  req : Request := {}
deriving DecidableEq, Repr

/-- The phase tie of one signal (07 R199, R204). -/
structure Tie where
  /-- agreeing epochs in a row; 30 hold the tie (07 R199). -/
  run : Nat := 0
  /-- single difference less its geometric part, of the first epoch of the run, 0.1 mm / 1,024 (07 R199). -/
  value : Int := 0
  /-- the tie as translation uses it; it outlasts a slip on ANT-A while ANT_B_ACTIVE is set (07 R199, R204). -/
  held : Option Int := none
  /-- what the ties add to ANT-A's phase so that corrections go on across a fail-over, 0.1 mm / 1,024 (07 R204). -/
  carry : Int := 0
deriving DecidableEq, Repr

/-- The reference station (07). -/
structure RefStation where
  /-- BASE_STATE shows SURVEYING (07 R197). -/
  surveying : Bool := false
  /-- running survey (07 R198). -/
  survey : Option Survey := none
  /-- CORR_STATE of the latest epoch (07 R202). -/
  corrState : Nat := 0
  /-- CORR_VALID (07 R202). -/
  corrValid : Bool := false
  /-- consecutive epochs not VALID (07 R202). -/
  invalidRun : Nat := 0
  /-- SATS_PASSED (07 R213). -/
  satsPassed : Nat := 0
  /-- SATS_EXCLUDED (07 R213). -/
  satsExcluded : Nat := 0
  /-- excluded satellites and their passed epochs so far (07 R201). -/
  excluded : Tbl Nat := []
  /-- ANT_B_ACTIVE (07 R204, 04 R111). -/
  antB : Bool := false
  /-- ANT_SPARE_LOST (07 R204, 04 R111). -/
  spareLost : Bool := false
  /-- FCs for which ANT-A has been OK (07 R204). -/
  antOkFc : Nat := 0
  /-- ANT_B_ACTIVE clears at the next epoch boundary (07 R204). -/
  returnDue : Bool := false
  /-- LOCK_TIME_MS of each signal as corrections carry it (07 R201, R204, R209). -/
  corrLock : Tbl Nat := []
  /-- whole cycles taken off each signal's CPC (07 R210). -/
  cpcCycles : Tbl Int := []
  /-- whole cycles taken off each signal's phase range in MSM7 (07 R207). -/
  rtcmCycles : Tbl Int := []
  /-- signals whose RESET no correction message has carried yet (07 R201, R209, R210). -/
  resetDue : List Nat := []
  /-- signals left out for want of a tie, to start anew (07 R204). -/
  restart : List Nat := []
  /-- FC of a change of FRAME_REV no site message has carried yet (07 R211). -/
  siteDue : Option Nat := none
  /-- XCHECK_MEDIAN (07 R213). -/
  xcheckMedian : Nat := 0
  /-- consecutive epochs above the limit (07 R205). -/
  xcheckBad : Nat := 0
  /-- consecutive epochs within the limit while BASELINE stands (07 R205). -/
  xcheckGood : Nat := 0
  /-- the cross-check has failed (07 R205). -/
  baselineFault : Bool := false
  /-- phase ties by signal (07 R199). -/
  ties : Tbl Tie := []
  /-- MSG_SEQ (07 R212). -/
  msgSeq : Nat := 0
  /-- CORR_FRAG_STALE (07 R212). -/
  fragStale : Nat := 0
  /-- LAST_VALID_EPOCH_FC (07 R213). -/
  lastValidFc : Nat := 0
  /-- CORR_VALID, ANT_IN_USE, BASE_STATE and BASELINE last reported (07 R218). -/
  lastEvent : List Nat := [0, 0, 0, 0]
  /-- RTCM frames of solved epochs awaiting EMIT (07 R208). -/
  rtcmOut : List (Nat × List Bytes) := []
  /-- correction message awaiting EMIT (07 R212). -/
  corrOut : Option Bytes := none
  /-- FRAME_REV at the last 1006 (07 R206). -/
  tieRev : Nat := 0
deriving DecidableEq, Repr

/-- BUOY_CONFIG settings (08 R254). -/
structure BuoyConfig where
  /-- UWB_CHANNEL (08 R254). -/
  channel : Nat := 5
  /-- PREAMBLE_CODE (08 R254). -/
  preamble : Nat := 9
  /-- MIN_ANCHORS (08 R254). -/
  minAnchors : Nat := 3
  /-- HDOP_MAX_X10 (08 R254). -/
  hdopMax : Nat := 50
  /-- RESID_MAX_MM (08 R254). -/
  residMax : Nat := 150
  /-- BLEND_GATE_MM (08 R254). -/
  blendGate : Nat := 300
  /-- FP_QUAL_MIN (08 R254). -/
  fpQual : Nat := 16
  /-- SYNC_LOST_10PS (08 R254). -/
  syncLost : Nat := 20
  /-- CLASS_RATE nibbles (08 R254). -/
  classRate : List Nat := List.replicate 32 4
deriving DecidableEq, Repr

/-- The persistent part of one anchor context (08 R223, R247, R230, R255). -/
structure AnchorRec where
  /-- the context is set (08 R255). -/
  isSet : Bool := false
  /-- EUI64 (08 R255). -/
  eui : BitVec 64 := 0
  /-- PODL_CLASS_MAX (08 R255). -/
  classMax : Nat := 0
  /-- PODL_PRIO (08 R255). -/
  prio : Nat := 0
  /-- E_MM (08 R255). -/
  e : Int := 0
  /-- N_MM (08 R255). -/
  n : Int := 0
  /-- U_MM (08 R255). -/
  u : Int := 0
  /-- COORD_SIGMA_MM (08 R255). -/
  sigma : Nat := 0
  /-- SURVEYED (08 R247). -/
  surveyed : Bool := false
  /-- CALIBRATED (08 R230). -/
  calibrated : Bool := false
  /-- GROUP (08 R230). -/
  group : Nat := 0
  /-- ASYM_FTU (08 R230). -/
  asym : Int := 0
  /-- ANT_DELAY (08 R230). -/
  antDelay : Int := 0
  /-- downlink BCTR (08 R223). -/
  downCtr : Nat := 0
deriving DecidableEq, Repr

/-- An anchor firmware relay (08 R251). -/
structure Relay where
  /-- IMAGE_ID (08 R224). -/
  imageId : Nat := 0
  /-- IMAGE_LEN (08 R224). -/
  len : Nat := 0
  /-- NEXT_CHUNK acknowledged (08 R251). -/
  acked : Nat := 0
  /-- next chunk to send (08 R251). -/
  sent : Nat := 0
  /-- FC of the last acknowledgement (08 R251). -/
  ackFc : Nat := 0
deriving DecidableEq, Repr

/-- The volatile part of one anchor context (08 R220, R226, R228, R253). -/
structure AnchorLive where
  /-- ANCHOR_STATE (08 R226). -/
  state : AnchorState := .off
  /-- EUI64 heard (08 R253). -/
  heard : BitVec 64 := 0
  /-- a powered device is detected and classified (08 R220). -/
  detected : Bool := false
  /-- class requested (08 R220). -/
  pdClass : Nat := 0
  /-- PODL_CLASS granted, 0 none (08 R253). -/
  granted : Nat := 0
  /-- PODL_ON (08 R253). -/
  podlOn : Bool := false
  /-- PODL_SHED (08 R253). -/
  shed : Bool := false
  /-- consecutive FCs with 2 W of margin (08 R221). -/
  marginFc : Nat := 0
  /-- FC in which FAULT was entered (08 R221, R226). -/
  faultFc : Option Nat := none
  /-- PODL_CLASS_REFUSED (08 R220). -/
  classRefused : Nat := 0
  /-- the PHY link is up (08 R226). -/
  phy : Bool := false
  /-- LEVEL_2V4 (08 R253). -/
  level24 : Bool := false
  /-- last uplink BCTR accepted (08 R223). -/
  upCtr : Nat := 0
  /-- MIC_FAIL (08 R253). -/
  micFail : Nat := 0
  /-- FCs of the MIC failures of the last 100 FC (08 R226). -/
  micFcs : List Nat := []
  /-- REPLAY (08 R223). -/
  replay : Nat := 0
  /-- frames dropped by R222, or of unknown BTYPE (08 R222, R224). -/
  badFrames : Nat := 0
  /-- last 16 (T2, device time) pairs (08 R228). -/
  pairs : List (Int × Int) := []
  /-- capture of the SYNC_REQ in flight (08 R228). -/
  t1 : Option (BitVec 64) := none
  /-- consecutive exchanges accepted (08 R226). -/
  good : Nat := 0
  /-- consecutive exchanges missing (08 R226). -/
  missing : Nat := 0
  /-- PATH_DELAY_PS (08 R228). -/
  pathDelay : Nat := 0
  /-- SYNC_RESID_PS (08 R228). -/
  resid : Nat := 0
  /-- TEMP_C (08 R253). -/
  temp : Int := 0
  /-- ASTATUS (08 R224). -/
  astatus : Nat := 0
  /-- FW_VERSION (08 R253). -/
  fw : Nat := 0
  /-- MODEL (08 R224). -/
  model : Nat := 0
  /-- FCs of the report records of the last 100 FC (08 R253). -/
  reportFcs : List Nat := []
  /-- REPORT_LATE plus DROPPED (08 R253). -/
  reportLoss : Nat := 0
  /-- PODL_MA (08 R253). -/
  podlMa : Nat := 0
  /-- running relay (08 R251). -/
  relay : Option Relay := none
  /-- RSTATE (08 R253). -/
  rstate : Nat := 0
  /-- the anchor head's address, taken from its HELLO (08 R222). -/
  mac : BitVec 48 := 0
  /-- PD_CLASS its HELLO gives (08 R224). -/
  pdHello : Nat := 0
  /-- frames lost with the report queue (03 R91). -/
  rxLost : Nat := 0
  /-- FC by which HELLO must come in RELAY (08 R252). -/
  relayUntil : Option Nat := none
  /-- ANCHOR_STATE before a change to report (08 R260). -/
  evOld : Option AnchorState := none
  /-- cause of the last change (08 R260). -/
  evCause : Nat := 0
  /-- ANCHOR_LINK (16 R491). -/
  key : Bytes := []
  /-- image and reported time of a RELAY_CTRL ACTIVATE sent whose instant has not come (08 R252). -/
  activate : Option (Nat × Nat) := none
  /-- downlink frames handed to the link in this FC (08 R224). -/
  downQ : List Bytes := []
deriving DecidableEq, Repr

/-- A running BUOY_RELAY START command (08 R259). -/
structure RelayCmd where
  /-- LINK_MASK (08 R259). -/
  mask : Nat := 0
  /-- DONE_MASK (08 R259). -/
  done : Nat := 0
  /-- FAILED_MASK (08 R259). -/
  failed : Nat := 0
  /-- FC in which the last named link reported (08 R259). -/
  doneFc : Option Nat := none
  /-- the command to answer (08 R259). -/
  req : Request := {}
deriving DecidableEq, Repr

/-- One coverage or blend zone (08 R248, R256). -/
structure Zone where
  /-- KIND (08 R256). -/
  kind : Nat := 0
  /-- A_E (08 R256). -/
  aE : Int := 0
  /-- A_N (08 R256). -/
  aN : Int := 0
  /-- B_E (08 R256). -/
  bE : Int := 0
  /-- B_N (08 R256). -/
  bN : Int := 0
  /-- HALF_WIDTH_MM (08 R256). -/
  half : Nat := 0
  /-- FLOOR_U_MM (08 R256). -/
  floorU : Int := 0
deriving DecidableEq, Repr

/-- A report of one blink from one anchor (08 R238). -/
structure BlinkReport where
  /-- link (08 R241). -/
  link : Nat := 0
  /-- SHORT_ADDR (08 R238). -/
  addr : Nat := 0
  /-- BFLAGS (08 R238). -/
  bflags : Nat := 0
  /-- RQUAL (08 R238). -/
  rqual : Nat := 0
  /-- BLINK_CTR (08 R238). -/
  ctr : Nat := 0
  /-- MIC (08 R238). -/
  mic : Nat := 0
  /-- RX_LOCAL (08 R238). -/
  rxLocal : Nat := 0
  /-- FP_DB (08 R238). -/
  fpDb : Nat := 0
  /-- RX_DB (08 R238). -/
  rxDb : Nat := 0
  /-- FC the period belongs to (08 R222). -/
  fc : Nat := 0
  /-- PERIOD (08 R222). -/
  period : Nat := 0
  /-- FC that captured it (08 R241). -/
  gotFc : Nat := 0
deriving DecidableEq, Repr

/-- A TDoA fix (08 R243, R260). -/
structure Fix where
  /-- SESSION (08 R260). -/
  session : Nat := 0
  /-- ANCHORS_USED (08 R260). -/
  anchors : Nat := 0
  /-- FFLAGS (08 R244). -/
  flags : Nat := 0
  /-- E_MM (08 R260). -/
  e : Int := 0
  /-- N_MM (08 R260). -/
  n : Int := 0
  /-- U_MM (08 R260). -/
  u : Int := 0
  /-- SIGMA_MM (08 R260). -/
  sigma : Nat := 0
  /-- HDOP_X10 (08 R260). -/
  hdop : Nat := 0
  /-- GROUP (08 R260). -/
  group : Nat := 0
  /-- RESID_MM (08 R260). -/
  resid : Nat := 0
  /-- BLINK_SLOT (08 R260). -/
  slot : Nat := 0
  /-- FIX_TIME (08 R260). -/
  time : Nat := 0
  /-- FC that solved it (08 R249). -/
  fc : Nat := 0
  /-- BLEND_W (08 R250). -/
  w : Nat := 0xFFFF
deriving DecidableEq, Repr

/-- A running ASYMMETRY calibration (08 R230, R257). -/
structure BuoyCal where
  /-- FC of the final reply (08 R257). -/
  endFc : Nat := 0
  /-- transmitter, receiver, BLINK_CTR and device time of each calibration blink reported at sufficient quality; the transmitter's own reports name it twice (08 R230). -/
  heard : List (Nat × Nat × Nat × Int) := []
  /-- the links that transmit (08 R230). -/
  who : List Nat := []
  /-- the command to answer (08 R257). -/
  req : Request := {}
deriving DecidableEq, Repr

/-- The BUOY links and the TDoA solver (08). -/
structure Buoy where
  /-- anchor contexts B0-B9 (08 R226). -/
  anchors : Tbl AnchorLive := []
  /-- ambient samples of the last 100 FC, 0.1 degree C (08 R221). -/
  tAmb : List Int := []
  /-- uplink frames in the report queues, and link events, captured and not yet latched (08 R225, 01 R25). -/
  ins : List BuoyIn := []
  /-- anchor contexts as they act in this FC (08 R255). -/
  ctx : Tbl AnchorRec := []
  /-- links whose context a command of this FC has set or cleared (08 R255). -/
  ctxDue : List Nat := []
  /-- latched reports not yet solved (08 R241). -/
  reports : List BlinkReport := []
  /-- (link, FC, period, FC that captured it) of the REPORT frames received (08 R241). -/
  periods : List (Nat × Nat × Nat × Nat) := []
  /-- (FC, period, FC of the instant) whose report deadline has passed (08 R241). -/
  deadlines : List (Nat × Nat × Nat) := []
  /-- fixes of this FC awaiting EMIT (08 R250). -/
  fixes : List Fix := []
  /-- FCs of the VALID fixes of the last 100 FC (08 R253). -/
  fixFcs : List Nat := []
  /-- counts: not in sync, MIC or CTR differ, UNKNOWN_ADDR, REPLAY, MIC_FAIL (08 R242). -/
  rejects : List Nat := [0, 0, 0, 0, 0]
  /-- counts at the last EV_BUOY_BLINK_REJECT (08 R260). -/
  rejectsSent : List Nat := [0, 0, 0, 0, 0]
  /-- LAST_SHORT_ADDR (08 R260). -/
  lastBadAddr : Nat := 0
  /-- running calibration (08 R257). -/
  cal : Option BuoyCal := none
  /-- running BUOY_RELAY START (08 R259). -/
  relayCmd : Option RelayCmd := none
  /-- zone table in force (08 R248). -/
  zones : Tbl Zone := []
  /-- EFFECT_TIME and zones of the tables committed and not yet in force, oldest first (08 R250). -/
  zonesNext : List (Nat × Tbl Zone) := []
  /-- the zone message is due because the table changed (08 R250). -/
  zonesDirty : Bool := false
  /-- UWB_CHANNEL and PREAMBLE_CODE with the whole second from which they hold: those committed, newest first, down to those in force; empty while only BUOY_CONFIG's have held (08 R254). -/
  radioInForce : List (Nat × Nat × Nat) := []
deriving DecidableEq, Repr

/-- One robot class record (09 R261). -/
structure ClassRec where
  /-- CFLAGS: bit 0 DEFINED (09 R261). -/
  flags : Nat := 0
  /-- FP_SCALE (09 R261). -/
  scale : Nat := 0
  /-- CLEAR_CELLS (09 R261). -/
  clear : Nat := 0
  /-- FOOTPRINT (09 R262). -/
  footprint : Nat := 0
  /-- VMAX_MM_S (09 R261). -/
  vmax : Nat := 0
  /-- AMAX_MM_S2 (09 R261). -/
  amax : Nat := 0
  /-- DMAX_MM_S2 (09 R261). -/
  dmax : Nat := 0
  /-- YAW_MAX_CDEG_S (09 R261). -/
  yaw : Nat := 0
  /-- TOL_MM (09 R261). -/
  tol : Nat := 0
  /-- HARD_MM (09 R261). -/
  hard : Nat := 0
  /-- TAG_HEIGHT_MM (09 R261). -/
  tagHeight : Nat := 0
  /-- POSREP_FC (09 R261). -/
  posrep : Nat := 0
  /-- NAME (09 R261). -/
  name : Bytes := List.replicate 16 0
deriving DecidableEq, Repr

/-- The persistent part of one robot session (09 R264). -/
structure RobotRec where
  /-- SSTATE while FREE, ENROLLED or LOST (09 R265). -/
  sstate : SState := .free
  /-- EUI-64 (09 R264). -/
  eui : BitVec 64 := 0
  /-- CLASS (09 R264). -/
  cls : Nat := 0
  /-- short-address generation (09 R269). -/
  gen : Nat := 0
  /-- last link-key frame counter accepted (09 R264, 13 R420). -/
  linkCtr : Nat := 0
  /-- LOST hold marker (09 R264). -/
  lostHold : Bool := false
deriving DecidableEq, Repr

/-- A released position (08 R249, 09 R290). -/
structure Position where
  /-- released valid (08 R249). -/
  valid : Bool := false
  /-- E_MM (09 R290). -/
  e : Int := 0
  /-- N_MM (09 R290). -/
  n : Int := 0
  /-- U_MM (09 R290). -/
  u : Int := 0
  /-- SIGMA_MM (09 R290). -/
  sigma : Nat := 0
  /-- POS_SOURCE (09 R290). -/
  source : Nat := 0
  /-- time of the released position (09 R290). -/
  time : Nat := 0
  /-- FC that released it (08 R249). -/
  fc : Nat := 0
  /-- FC that last released a valid one (08 R243). -/
  validFc : Nat := 0
  /-- a valid position has been released since enrolment (09 R283). -/
  had : Bool := false
  /-- BLEND_CONFLICT (08 R249). -/
  conflict : Bool := false
deriving DecidableEq, Repr

/-- An RTK position report kept for blending (09 R273). -/
structure RtkReport where
  /-- E_MM (09 R272). -/
  e : Int := 0
  /-- N_MM (09 R272). -/
  n : Int := 0
  /-- U_MM (09 R272). -/
  u : Int := 0
  /-- SIGMA_MM (09 R272). -/
  sigma : Nat := 0
  /-- POS_TIME (09 R272). -/
  time : Nat := 0
  /-- FC that latched it (09 R273). -/
  fc : Nat := 0
deriving DecidableEq, Repr

/-- The volatile part of one robot session (09 R264-R273, R290). -/
structure Robot where
  /-- association key (uplink and downlink keys derive from it) (09 R264). -/
  assocKey : Bytes := []
  /-- SHORT_ADDR (09 R269). -/
  shortAddr : Nat := 0xFFFF
  /-- DEVICE_NONCE of the latest ASSOC_RESP (09 R268). -/
  deviceNonce : Bytes := []
  /-- FC whose EMIT queued the ASSOC_RESP (09 R266). -/
  respFc : Nat := 0
  /-- UP_CTR (09 R290). -/
  upCtr : Nat := 0
  /-- uplink counters accepted below the highest (09 R277). -/
  upSeen : List Nat := []
  /-- DOWN_CTR (09 R290). -/
  downCtr : Nat := 0
  /-- ASSOC_TIME (09 R290). -/
  assocTime : Nat := 0
  /-- ASSOC_COUNT since enrolment (09 R290). -/
  assocCount : Nat := 0
  /-- counter value of the last accepted frame on radio A and B (09 R277). -/
  lastFrame : List (Option Nat) := [none, none]
  /-- FC that latched the last accepted frame (09 R281). -/
  lastHeard : Nat := 0
  /-- released position (09 R273). -/
  pos : Position := {}
  /-- latest VALID TDoA fix (08 R249). -/
  fix : Option Fix := none
  /-- latest fixed-integer report (09 R273). -/
  rtk : Option RtkReport := none
  /-- HEADING_CDEG of the last report (09 R272). -/
  heading : Nat := 0
  /-- SPEED_MM_S (09 R272). -/
  speed : Int := 0
  /-- BATTERY_PCT (09 R290). -/
  battery : Nat := 0
  /-- LOW_BATTERY (09 R290). -/
  lowBattery : Bool := false
  /-- consecutive reports with MOVING clear (11 R348). -/
  still2 : Nat := 0
  /-- BLINK_HZ code (08 R236). -/
  blinkHz : Nat := 0
  /-- base slot (08 R235). -/
  blinkSlot : Nat := 0
  /-- EFFECT_TIME of the assignment (08 R236). -/
  blinkEffect : Nat := 0
  /-- assignments before it: BLINK_HZ code, base slot, EFFECT_TIME, newest first, down to the one in force (08 R235, R236). -/
  blinkWas : List (Nat × Nat × Nat) := []
  /-- last accepted BLINK_CTR (08 R242). -/
  blinkCtr : Option Nat := none
  /-- WAKE_FC announced (13 R432). -/
  wakeFc : Option Nat := none
  /-- its wake has been missed (13 R433). -/
  wakeMissed : Bool := false
  /-- SSTATE at the start of the FC, once changed (09 R292). -/
  evOld : Option SState := none
  /-- cause of the last change in the FC (09 R292). -/
  evCause : Nat := 0
  /-- CSN of the commit of the last change of SSTATE (02 R68). -/
  evCsn : Nat := 0
  /-- SESSION_ID and TAG of the command that made the last change (02 R58). -/
  evTag : Option (Nat × Nat) := none
  /-- FC of the last EV_PORT_MOVE (09 R292). -/
  moveFc : Option Nat := none
  /-- EUI-64 at the last change of SSTATE (09 R292). -/
  evEui : BitVec 64 := 0
  /-- CLASS at the last change of SSTATE (09 R292). -/
  evCls : Nat := 0
  /-- message in progress: KIND, last E_CTR, bytes so far (13 R419). -/
  chain : Option (Nat × Nat × Bytes) := none
  /-- it has become LOST and its reservations and hold are due in PLAN (09 R283). -/
  lostDue : Bool := false
deriving DecidableEq, Repr

/-- One entry of the Robot Presence Table (09 R275). -/
structure RptEntry where
  /-- EUI64 (09 R275). -/
  eui : BitVec 64 := 0
  /-- SHORT_ADDR (09 R275). -/
  shortAddr : Nat := 0xFFFF
  /-- SESSION (09 R275). -/
  session : Nat := 0
  /-- VALID (09 R275). -/
  valid : Bool := false
  /-- ENROLLED (09 R275). -/
  enrolled : Bool := false
  /-- LOCK (09 R275). -/
  lock : Bool := false
  /-- HEARD (09 R275). -/
  heard : Bool := false
  /-- PORT (09 R275). -/
  port : Nat := 0
  /-- SPOOF_SEEN (09 R275). -/
  spoof : Bool := false
  /-- LAST_HEARD_FC (09 R275). -/
  lastHeard : Nat := 0
deriving DecidableEq, Repr

/-- SESS_CONFIG settings (09 R284). -/
structure SessConfig where
  /-- RPT_AGE_S (09 R284). -/
  rptAge : Nat := 60
  /-- ADRIFT_FC (09 R284). -/
  adrift : Nat := 50
  /-- SLEEP_AGE_S (09 R284). -/
  sleepAge : Nat := 3600
deriving DecidableEq, Repr

/-- Robots and presence learning (09). -/
structure Sess where
  /-- volatile parts of the robot sessions (09 R264). -/
  robots : Tbl Robot := []
  /-- Robot Presence Table (09 R274). -/
  rpt : Tbl RptEntry := []
  /-- MIC_FAIL (09 R268, R276). -/
  micFail : Nat := 0
  /-- REPLAY (09 R268). -/
  replay : Nat := 0
  /-- STALE_CONFIRM (09 R268). -/
  staleConfirm : Nat := 0
  /-- DUPLICATE (09 R277). -/
  duplicate : Nat := 0
  /-- PORT_RACE (09 R277). -/
  portRace : Nat := 0
  /-- RPT_FULL (09 R278). -/
  rptFull : Nat := 0
  /-- MIC_FAIL at the last EV_RPT_SPOOF (09 R292). -/
  micSent : Nat := 0
  /-- LAST_EUI64 (09 R292). -/
  lastSpoofEui : BitVec 64 := 0
  /-- LAST_PORT (09 R292). -/
  lastSpoofPort : Nat := 0
deriving DecidableEq, Repr

/-- The reservation grid: site configuration (10 R293). -/
structure Grid where
  /-- CELL_MM; 0 while not configured (10 R293). -/
  cellMm : Nat := 0
  /-- GRID_NX (10 R293). -/
  nx : Nat := 0
  /-- GRID_NY (10 R293). -/
  ny : Nat := 0
  /-- GRID_E0_MM (10 R293). -/
  e0 : Int := 0
  /-- GRID_N0_MM (10 R293). -/
  n0 : Int := 0
deriving DecidableEq, Repr

/-- One site hold (10 R313-R316). -/
structure HoldRec where
  /-- the hold exists (10 R313). -/
  present : Bool := false
  /-- PERSISTENT (10 R316). -/
  persistent : Bool := false
  /-- made by STRT_RESERVE_PATH (10 R313). -/
  timed : Bool := false
  /-- a LOST hold (10 R313). -/
  lost : Bool := false
  /-- X0, Y0, X1, Y1 (10 R321). -/
  rect : Nat × Nat × Nat × Nat := (0, 0, 0, 0)
  /-- cells of a LOST hold (10 R313). -/
  cellList : List Nat := []
  /-- runs of a timed hold: X0, Y0, X1, Y1, first slot, slots (10 R324). -/
  runs : List (Nat × Nat × Nat × Nat × Nat × Nat) := []
  /-- STATE ACTIVE (10 R315). -/
  active : Bool := false
  /-- ACTIVE_SLOT (10 R315). -/
  activeSlot : Nat := 0
  /-- L; for a timed hold its last slot (10 R315). -/
  lastSlot : Nat := 0
  /-- cells under a DWELL (10 R315). -/
  pendingCells : List Nat := []
  /-- cells whose insert failed (10 R581). -/
  retryCells : List Nat := []
  /-- NAME (10 R321). -/
  name : Bytes := List.replicate 16 0
deriving DecidableEq, Repr

/-- A whole-table snapshot kept for a session (10 R317). -/
structure StrtSnap where
  /-- SNAP_ID (19 R571). -/
  id : Nat := 0
  /-- session it is kept for (10 R317). -/
  sessionId : Nat := 0
  /-- the ways (10 R317). -/
  ways : Tbl (BitVec 64) := []
  /-- slot of the snapshot (10 R317). -/
  slot : Nat := 0
  /-- snapshot CSN (10 R317). -/
  csn : Nat := 0
  /-- FC that took it (10 R317). -/
  fc : Nat := 0
deriving DecidableEq, Repr

/-- An EV_STRT_ALARM gathered in the FC (10 R325). -/
structure StrtAlarm where
  /-- CAUSE (10 R325). -/
  cause : Nat := 1
  /-- OWNER (10 R325). -/
  owner : Nat := 0
  /-- KIND (10 R325). -/
  kind : Nat := 0
  /-- COUNT (10 R325). -/
  count : Nat := 1
  /-- ENTRY_INDEX (10 R325). -/
  index : Nat := 0xFFFFFFFF
deriving DecidableEq, Repr

/-- The Space-Time Reservation Table engine (10). -/
structure Strt where
  /-- the grid in force in this FC (10 R319). -/
  grid : Grid := {}
  /-- result of the last probe: 0 FREE, 1 match, 2 CORRUPT; ENTRY_INDEX; entry (10 R301). -/
  probeOut : Option (Nat × Nat × BitVec 64) := none
  /-- probe discarded and to be re-issued: cell, SLOT10, KIND (10 R302). -/
  reissue : Option (Nat × Nat × Nat) := none
  /-- ways by ENTRY_INDEX; an unlisted way is free, 0x...A (10 R296). -/
  ways : Tbl (BitVec 64) := []
  /-- relocation-in-flight register: key and class (10 R302). -/
  relocating : Option Nat := none
  /-- CHAIN_FAILS (10 R320). -/
  chainFails : Nat := 0
  /-- LONGEST_CHAIN (10 R320). -/
  longestChain : Nat := 0
  /-- STALE (10 R320). -/
  stale : Nat := 0
  /-- corrupt ways detected and the slot boundaries passed since (10 R303). -/
  corrupt : Tbl Nat := []
  /-- FC whose PLAN re-asserts every DWELL and ZONE_LOCK (10 R303). -/
  reassertFc : Option Nat := none
  /-- entries to free once unlocked (10 R307). -/
  unlockFree : List Nat := []
  /-- STRT_HOLD_SET commands executed in this FC (10 STRT opcodes). -/
  holdSets : Nat := 0
  /-- FC of the last whole-table snapshot (10 R317). -/
  snapFc : Option Nat := none
  /-- snapshots kept for their sessions (10 R317). -/
  snaps : List StrtSnap := []
  /-- alarms of this FC by cause (10 R325). -/
  alarms : List StrtAlarm := []
  /-- the count stood at FILL_LIMIT (10 R308). -/
  filled : Bool := false
  /-- slot of the last expiry sweep (10 R309). -/
  sweptSlot : Option Nat := none
deriving DecidableEq, Repr

/-- A task waypoint (11 R326). -/
structure Waypoint where
  /-- X (11 R326). -/
  x : Nat := 0
  /-- Y (11 R326). -/
  y : Nat := 0
  /-- HEADING (11 R326). -/
  heading : Nat := 0
  /-- WFLAGS (11 R326). -/
  flags : Nat := 0
  /-- DWELL_S (11 R326). -/
  dwellS : Nat := 0
deriving DecidableEq, Repr

/-- One task (11 R326, R328). -/
structure Task where
  /-- STATE (11 R328). -/
  state : TaskState := .free
  /-- KIND (11 R326). -/
  kind : Nat := 0
  /-- PRIORITY (11 R326). -/
  priority : Nat := 0
  /-- CLASS_MASK (11 R326). -/
  classMask : Nat := 0
  /-- VALUE_MS (11 R326). -/
  valueMs : Nat := 0
  /-- NOT_BEFORE_TIME64 (11 R326). -/
  notBefore : Nat := 0
  /-- DEADLINE_TIME64 (11 R326). -/
  deadline : Nat := 0
  /-- DEADLINE_TIME64 in force (11 R353). -/
  deadlineNow : Nat := 0
  /-- waypoints (11 R326). -/
  wps : List Waypoint := []
  /-- CAUSE (11 R355). -/
  cause : Nat := 0
  /-- NEXT_WP (11 R328). -/
  nextWp : Nat := 0
  /-- SESSION (11 R355). -/
  session : Nat := 0xFF
  /-- LEGS (11 R355). -/
  legs : Nat := 0
  /-- STATE_TIME (11 R355). -/
  stateTime : Nat := 0
  /-- FC of the last state change (11 R328). -/
  stateFc : Nat := 0
deriving DecidableEq, Repr

/-- TASK_CONFIG settings (11 R356). -/
structure TaskConfig where
  /-- CONT_AHEAD_SLOTS (11 R356). -/
  contAhead : Nat := 60
  /-- AUCTION_BIDS_MAX (11 R356). -/
  bidsMax : Nat := 4096
  /-- TERMINAL_KEEP_S (11 R356). -/
  keepS : Nat := 60
  /-- CONF_FC (11 R356). -/
  confFc : Nat := 3
  /-- POS_LOSS_FC (11 R356). -/
  posLoss : Nat := 30
  /-- GRANT_MAX (11 R356). -/
  grantMax : Nat := 64
  /-- EXCLUDE_ROUNDS (11 R356). -/
  excludeRounds : Nat := 10
deriving DecidableEq, Repr

/-- One piece of a leg: a wait, a turn in place or a run (11 R330, R331). -/
structure Seg where
  /-- what the robot does (11 R331). -/
  kind : SegKind := .wait
  /-- first slot (11 R331). -/
  slot : Nat := 0
  /-- slots taken (11 R331). -/
  slots : Nat := 0
  /-- cell column at its start (11 R331). -/
  x : Nat := 0
  /-- cell row at its start (11 R331). -/
  y : Nat := 0
  /-- heading at its start (11 R331). -/
  h : Nat := 0
  /-- heading at its end; direction of a run (11 R331). -/
  toH : Nat := 0
  /-- cells of a run (11 R330). -/
  len : Nat := 0
deriving DecidableEq, Repr

/-- A reserved or granted leg (11 R332, R342, R343). -/
structure Leg where
  /-- the class record it was planned with (11 R329). -/
  cls : ClassRec := {}
  /-- its pieces in order (11 R331). -/
  segs : List Seg := []
  /-- START slot (11 R333). -/
  start : Nat := 0
  /-- slot from which the start cell is held at rest (11 R332). -/
  holdFrom : Nat := 0
  /-- arrival slot (11 R358). -/
  arrive : Nat := 0
  /-- start cell column (11 R332). -/
  x : Nat := 0
  /-- start cell row (11 R332). -/
  y : Nat := 0
  /-- start heading (11 R332). -/
  h : Nat := 0
  /-- end cell column (11 R332). -/
  endX : Nat := 0
  /-- end cell row (11 R332). -/
  endY : Nat := 0
  /-- heading at arrival (11 R332). -/
  endH : Nat := 0
  /-- task served (11 R343). -/
  task : Option Nat := none
  /-- WP_INDEX (11 R343). -/
  wp : Nat := 0xFF
  /-- LEG_FLAGS (11 R343). -/
  flags : Nat := 0
  /-- PLAN_ID (11 R343). -/
  planId : Nat := 0
  /-- BASE_TIME (11 R343). -/
  baseTime : Nat := 0
  /-- its end has been acted on (11 R328). -/
  reached : Bool := false
  /-- waypoint of its task it was planned to (11 R333). -/
  target : Option Nat := none
  /-- goal column, row and heading (11 R333). -/
  goal : Nat × Nat × Nat := (0, 0, 0xFF)
deriving DecidableEq, Repr

/-- Plan state of one robot (11 R347-R349). -/
structure Plan where
  /-- PLAN_STATE (11 R349). -/
  state : PlanState := .none
  /-- grants since association (11 R342). -/
  planId : Nat := 0
  /-- leg granted (11 R343). -/
  leg : Option Leg := none
  /-- tables still running ahead of a granted continuation (11 R338). -/
  before : List Leg := []
  /-- leg reserved and not granted (11 R341). -/
  next : Option Leg := none
  /-- QUEUE_POS (11 R358). -/
  queuePos : Nat := 0
  /-- cells of its standing DWELL (11 R348). -/
  dwell : List Nat := []
  /-- task held (11 R328). -/
  task : Option Nat := none
  /-- consecutive checks above TOL_MM (11 R347). -/
  exceed : Nat := 0
  /-- consecutive FCs without a valid position while moving (11 R347). -/
  posLost : Nat := 0
  /-- the last conformance check passed (11 R328). -/
  confOk : Bool := false
  /-- slot in which it was halted (11 R348). -/
  haltSlot : Nat := 0
  /-- slot from which its rest dwell is due; none where no halt or adrift dwell stands (11 R348). -/
  restAt : Option Nat := none
  /-- FC of its last halt (11 R348). -/
  haltedFc : Option Nat := none
  /-- consecutive rounds HALTED without a grant (11 R328). -/
  haltRounds : Nat := 0
  /-- HALT due in EMIT (11 R346). -/
  haltOut : Bool := false
  /-- segment table due in EMIT (11 R343). -/
  tableOut : Bool := false
  /-- PLAN_STATUS due in EMIT: status, QUEUE_POS, ROUND (11 R346). -/
  statusOut : Option (Nat × Nat × Nat) := none
  /-- FC of the last EV_CONFORMANCE (11 R360). -/
  evFc : Option Nat := none
  /-- slot at which DWELL_S at the last waypoint ends (11 R328). -/
  doneSlot : Option Nat := none
  /-- TASK_CANCEL asks for a halt (11 R354). -/
  haltReq : Bool := false
deriving DecidableEq, Repr

/-- The result of a LEADLIGHT search (11 R337). -/
structure SearchResult where
  /-- FOUND, LEG, PARTIAL, NO_PATH or ABANDONED (11 R337). -/
  code : SearchCode := .noPath
  /-- path found (11 R337). -/
  segs : List Seg := []
  /-- arrival slot (11 R337). -/
  arrive : Nat := 0
  /-- last cell column (11 R337). -/
  x : Nat := 0
  /-- last cell row (11 R337). -/
  y : Nat := 0
  /-- last heading (11 R337). -/
  h : Nat := 0
  /-- nodes expanded (11 R359). -/
  nodes : Nat := 0
  /-- probes spent (11 R359). -/
  probes : Nat := 0
deriving DecidableEq, Repr

/-- One request of an allotment round (11 R340). -/
structure PathReq where
  /-- rank (11 R340). -/
  rank : Nat := 4
  /-- robot session (11 R340). -/
  session : Nat := 0
  /-- PLAN_STATE it was made from (11 R349). -/
  under : PlanState := .parked
  /-- task (11 R340). -/
  task : Option Nat := none
  /-- waypoint it is planned to (11 R333). -/
  target : Option Nat := none
  /-- start cell column, row and heading (11 R333). -/
  origin : Option (Nat × Nat × Nat) := none
  /-- goal column, row and heading (11 R333). -/
  goal : Nat × Nat × Nat := (0, 0, 0xFF)
  /-- direction of the line of a FOLLOW stage (11 R333). -/
  follow : Option (Int × Int) := none
  /-- START slot (11 R338). -/
  start : Nat := 0
  /-- slot before which no motion begins (11 R338). -/
  moveFrom : Nat := 0
  /-- avoid list: cell, slot, standing (11 R334). -/
  avoid : List (Nat × Nat × Bool) := []
  /-- it was lost once and has been reissued (03 R91, 01 R34). -/
  lost : Bool := false
  /-- searches repeated in the round (11 R341). -/
  tries : Nat := 0
  /-- failed reserves (11 R339). -/
  fails : Nat := 0
  /-- where the request stands (11 R338). -/
  stage : ReqStage := .queued
  /-- first FC in which its search may start (11 R341). -/
  fromFc : Nat := 0
  /-- search unit (11 R336). -/
  unit : Nat := 0
  /-- result of its search (11 R337). -/
  result : Option SearchResult := none
  /-- FC whose PLAN finished the search (11 R341). -/
  doneFc : Nat := 0
  /-- QUEUE_POS beyond the limit (11 R340). -/
  queuePos : Option Nat := none
  /-- the PATH_REQUEST to answer (11 R357). -/
  host : Option Request := none
  /-- CSN of its reserve (02 R73). -/
  reserveCsn : Nat := 0
deriving DecidableEq, Repr

/-- Statistics of an allotment round (11 R359). -/
structure RoundStats where
  /-- ROUND (11 R359). -/
  round : Nat := 0
  /-- REQUESTS (11 R359). -/
  requests : Nat := 0
  /-- GRANTS (11 R359). -/
  grants : Nat := 0
  /-- DEFERRED (11 R359). -/
  deferred : Nat := 0
  /-- NO_PATH (11 R359). -/
  noPath : Nat := 0
  /-- BUDGET (11 R359). -/
  budget : Nat := 0
  /-- CONFLICTS (11 R359). -/
  conflicts : Nat := 0
  /-- AUCTION_BIDS (11 R359). -/
  bids : Nat := 0
  /-- HALTS (11 R359). -/
  halts : Nat := 0
  /-- NODES (11 R359). -/
  nodes : Nat := 0
  /-- PROBES (11 R359). -/
  probes : Nat := 0
  /-- MAX_SEARCH_TCLK (11 R359). -/
  maxTclk : Nat := 0
deriving DecidableEq, Repr

/-- A TASK_POST that commits over several FCs (11 R352). -/
structure PostRun where
  /-- the command (11 R352). -/
  req : Request := {}
  /-- tasks not yet committed with their indexes (11 R352). -/
  todo : List (Nat × Task) := []
  /-- indexes committed (11 R352). -/
  done : List Nat := []
  /-- COMMITS_PLANNED (11 R352). -/
  planned : Nat := 0
  /-- CSN of its own last commit (02 R73). -/
  lastCommit : Nat := 0
  /-- FC that executed it first (11 R352). -/
  firstFc : Nat := 0
deriving DecidableEq, Repr

/-- Allotment, LEADLIGHT and conformance (11). -/
structure Allot where
  /-- plan state per robot session (11 R349). -/
  plans : Tbl Plan := []
  /-- round in progress (11 R338). -/
  round : Option Nat := none
  /-- requests of the round, in rank order (11 R340). -/
  reqs : List PathReq := []
  /-- requests carried to the next round (11 R340). -/
  carried : List PathReq := []
  /-- excluded pairs: session, task, last round excluded (11 R339). -/
  excluded : List (Nat × Nat × Nat) := []
  /-- statistics of the round in progress (11 R359). -/
  stats : RoundStats := {}
  /-- statistics of the last completed round (11 R359). -/
  last : RoundStats := {}
  /-- PLAN_REQ ignored (11 R346). -/
  ignored : Nat := 0
  /-- TASK_POST commands in progress (11 R352). -/
  posts : List PostRun := []
  /-- PATH_REQUEST commands accepted and not yet in a round (11 R357). -/
  pathReqs : List Request := []
  /-- a mode that halts robots in motion has begun and PLAN has not halted them yet (11 R350). -/
  haltsDue : Bool := false
  /-- the first round of DRIFT has halted robots out of coverage (11 R350). -/
  driftSwept : Bool := false
  /-- TASK_CONFIG in force (11 R356). -/
  cfg : TaskConfig := {}
  /-- class records in force for planning (09 R263). -/
  classNow : Tbl ClassRec := []
  /-- FC whose reserves have been made (11 R341). -/
  reserveFc : Option Nat := none
deriving DecidableEq, Repr

/-- One safety channel (12 R363-R366, R387-R390). -/
structure Channel3 where
  /-- CH_STATE (12 R399). -/
  state : ChState := .testing
  /-- the channel's own latches, by CAUSE bit (12 R361, R364). -/
  latched : BitVec 13 := 0
  /-- the channel's active sources, by CAUSE bit (12 R361). -/
  active : BitVec 13 := 0
  /-- the channel's own ROBOT_STOP (12 R362, R364). -/
  robotStop : BitVec 256 := 0
  /-- FCs left of the full self-test in progress (12 R389, R390). -/
  leftFc : Nat := 0
  /-- consecutive FCs its snapshots have matched while rejoining (12 R389, R390). -/
  matchFc : Nat := 0
  /-- withdrawn for a planned test or an update (12 R390). -/
  planned : Bool := false
  /-- FCs of its rejoins in the last 24 h (12 R389). -/
  rejoins : List Nat := []
  /-- stays withdrawn until the next reset (12 R389). -/
  stuck : Bool := false
  /-- consecutive FCs in which its snapshot differs from the other two (12 R388). -/
  diffRun : Nat := 0
  /-- TEST_ID that failed last (12 R387, R403). -/
  testId : Nat := 0
  /-- outcome of the full self-test in progress (12 R390). -/
  testPassed : Bool := true
  /-- PCLK lost as its monitor sees it (12 R361). -/
  clockLost : Bool := false
  /-- the DIAG_SELF_TEST command to answer (19 R570). -/
  hostReq : Option Request := none
deriving DecidableEq, Repr

/-- One stop-loop input (12 R369-R371). -/
structure SlInput where
  /-- the mode in force: 1 CONTACT, 2 OSSD (12 R369, R400). -/
  mode : Nat := 1
  /-- IN1 open: it has read low for FILTER samples (12 R369). -/
  open1 : Bool := true
  /-- IN2 open (12 R369). -/
  open2 : Bool := true
  /-- IN1 as sampled at the boundary that opened the FC (12 R370, R371). -/
  high1 : Bool := false
  /-- IN2 as sampled at that boundary (12 R370, R371). -/
  high2 : Bool := false
  /-- filtered state of IN1 at that boundary: closed (12 R399). -/
  shown1 : Bool := false
  /-- filtered state of IN2 at that boundary: closed (12 R399). -/
  shown2 : Bool := false
  /-- every pulse check of the FC has passed (12 R370, R371). -/
  pulseOk : Bool := true
  /-- the open condition stands (12 R371). -/
  openCond : Bool := true
  /-- the FAULT condition stands (12 R370, R371). -/
  fault : Bool := false
  /-- consecutive boundaries at which the lines differ (12 R371). -/
  differ : Nat := 0
  /-- both lines have read open at one boundary since FAULT was latched (12 R371). -/
  sawOpen : Bool := false
  /-- consecutive boundaries with both lines high and every pulse check passed (12 R371). -/
  okRun : Nat := 0
deriving DecidableEq, Repr

/-- STOP_CONFIG settings (12 R400). -/
structure StopConfig where
  /-- SL_A_MODE (12 R400). -/
  modeA : Nat := 1
  /-- SL_B_MODE (12 R400). -/
  modeB : Nat := 1
  /-- START_POLICY (12 R400). -/
  startPolicy : Nat := 1
  /-- RELEASE_INPUT (12 R400). -/
  releaseInput : Nat := 9
  /-- DISC_FC (12 R400). -/
  discFc : Nat := 10
deriving DecidableEq, Repr

/-- One entry of the Edtor stop filter's key table (12 R374). -/
structure FilterEntry where
  /-- the entry holds a session (12 R374). -/
  valid : Bool := false
  /-- SESSION_ID (12 R374). -/
  sessionId : Nat := 0
  /-- session key (12 R374). -/
  key : Bytes := []
  /-- port binding (12 R374). -/
  port : Port := .h0
  /-- address binding (12 R374). -/
  addr : Nat := 0
  /-- UDP port binding (12 R374). -/
  udp : Nat := 0
  /-- FILTER_SEQ (12 R374). -/
  seq : Nat := 0
deriving DecidableEq, Repr

/-- A packet the stop filter acted on (12 R376). -/
structure FilterRec where
  /-- SESSION_ID (12 R376). -/
  sessionId : Nat := 0
  /-- SEQ (12 R376). -/
  seq : Nat := 0
  /-- reported time of the assertion (12 R376). -/
  time : Nat := 0
deriving DecidableEq, Repr

/-- A pending STOP_RELEASE_ARM (12 R395, R401). -/
structure ReleaseArm where
  /-- ARM_ID (12 R401). -/
  armId : Nat := 0
  /-- arming session (12 R401). -/
  sessionId : Nat := 0
  /-- SCOPE SITE (12 R401). -/
  site : Bool := true
  /-- SESSION (12 R401). -/
  robot : Nat := 0
  /-- FC that executed the arm (12 R395). -/
  fc : Nat := 0
deriving DecidableEq, Repr

/-- Stop events gathered in the FC (12 R403). -/
structure StopEvents where
  /-- EV_STOP_STATE is due (12 R403). -/
  vote : Bool := false
  /-- EV_STOP_ROBOT due: session, ACTION, CAUSE, time (12 R403). -/
  robots : List (Nat × Nat × Nat × Nat) := []
  /-- EV_SAF_CHANNEL due: channel, new state, old state, REASON, TEST_ID, time (12 R403). -/
  chans : List (Nat × Nat × Nat × Nat × Nat × Nat) := []
  /-- EV_FLT_HANDOVER due: new active, KIND, EFFECT_FC (12 R403). -/
  flt : List (Nat × Nat × Nat) := []
deriving DecidableEq, Repr

/-- The stop path (12). -/
structure Stop where
  /-- SAF0, SAF1, SAF2 (12 The channels). -/
  chans : List Channel3 := [{}, {}, {}]
  /-- SL-A (12 R369). -/
  slA : SlInput := {}
  /-- SL-B (12 R369). -/
  slB : SlInput := {}
  /-- LEAD (12 R391, R392). -/
  lead : Nat := 0
  /-- voted state GO (12 R367). -/
  voted : Bool := false
  /-- SW1 commanded on (12 R372, 04 R117). -/
  sw1 : Bool := false
  /-- SW2 commanded on (12 R372, 04 R117). -/
  sw2 : Bool := false
  /-- OUTPUT_FAULT (12 R373). -/
  outputFault : Bool := false
  /-- consecutive boundaries at which V1 and V2 differ (12 R368). -/
  voterDiff : Nat := 0
  /-- firmware requests for the next window: robot session or site, cause bit, robot CAUSE (12 R365). -/
  requests : List (Option Nat × Nat × Nat) := []
  /-- the cause of an INTERNAL request holds (12 R361). -/
  internalCause : Bool := false
  /-- the filter's key table (12 R374). -/
  filter : Tbl FilterEntry := []
  /-- packets the filter acted on (12 R376). -/
  filterRecs : List FilterRec := []
  /-- FILTER_REJECT (12 R374, R399). -/
  filterReject : Nat := 0
  /-- BEACON_MISSES (12 R381). -/
  beaconMisses : Nat := 0
  /-- a radio launched the last beacon in its slot (12 R381). -/
  beaconOnAir : Bool := false
  /-- a beacon FC awaits its count (12 R381). -/
  beaconSent : Bool := false
  /-- token block released to LNK (12 R378). -/
  token : Option Bytes := none
  /-- ASN of the first slot of the stop frames in progress (12 R384). -/
  stopFrom : Nat := 0
  /-- ASN of the target slot of the last change (12 R384). -/
  stopTarget : Nat := 0
  /-- ASN of the slot at which the repetition has ended (12 R384). -/
  stopUntil : Nat := 0
  /-- SCOPE ALL and ROBOT_STOP before that change: what slots ahead of its target carry (12 R383, R384). -/
  stopWas : Bool × BitVec 256 := (false, 0)
  /-- CAUSE of the last stop of each robot (12 R403). -/
  robotCause : Tbl Nat := []
  /-- the vote has turned to STOP since the boundary (12 R385). -/
  canStopNext : Bool := false
  /-- a stop frame is to be queued on CAN in EMIT (12 R385). -/
  canStopDue : Bool := false
  /-- the last arm of each session (12 R395, R402). -/
  arms : List ReleaseArm := []
  /-- ARM_ID last given (12 R401). -/
  armIds : Nat := 0
  /-- confirmed release: site?, robot session; applied in SAFE (12 R396). -/
  release : Option (Bool × Nat) := none
  /-- LAST_STOP_TIME (12 R399). -/
  lastStop : Nat := 0
  /-- LAST_RELEASE_TIME (12 R399). -/
  lastRelease : Nat := 0
  /-- VOTE_TIME (12 R403). -/
  voteTime : Nat := 0
  /-- events latched, due in EMIT (12 R403). -/
  evs : StopEvents := {}
  /-- changes captured since the boundary (12 R403, 01 R25). -/
  evsNext : StopEvents := {}
  /-- readback of SW1 and SW2: high (12 R373, R399). -/
  readback : Bool × Bool := (false, false)
  /-- PROV_FC (12 R392). -/
  provFc : Nat := 0
  /-- consecutive FCs in which all snapshots differ (12 R388). -/
  allDiffer : Nat := 0
deriving DecidableEq, Repr

/-- RADIO_CONFIG settings in force or pending (13 R437). -/
structure RadioConfig where
  /-- PROFILE; 0 stands for the ordering code's default (13 R437). -/
  profile : Nat := 0
  /-- PHY_MODE (13 R437). -/
  phyMode : Nat := 0x06
  /-- FOG_MODE (13 R437). -/
  fogMode : Nat := 0x08
  /-- BEACON_FC (13 R437). -/
  beaconFc : Nat := 5
  /-- FOGHORN_FC (13 R437). -/
  foghornFc : Nat := 20
  /-- FOG_STARTUP_S (13 R437). -/
  startupS : Nat := 60
  /-- PAN_ID; 0 stands for the default from DEVICE_EUI64 (13 R437). -/
  panId : Nat := 0
  /-- TX_POWER_A as written; 0 stands for the maximum (13 R437). -/
  powerA : Nat := 0
  /-- TX_POWER_B as written; 0 stands for the maximum (13 R437). -/
  powerB : Nat := 0
  /-- HOP_SEED; 0 stands for the default from DEVICE_EUI64 (13 R437). -/
  hopSeed : Nat := 0
deriving DecidableEq, Repr

/-- The radio's persistent data (13 R420, R437). -/
structure RadioPersist where
  /-- settings in force (13 R437). -/
  cfg : RadioConfig := {}
  /-- settings to take effect and EFFECT_FC (13 R437). -/
  pendingCfg : Option (RadioConfig × Nat) := none
  /-- GROUP_CTR ceiling (13 R420). -/
  groupCeil : Nat := 1
  /-- LINK_DOWN_CTR ceiling (13 R420). -/
  linkCeil : Nat := 1
deriving DecidableEq, Repr

/-- A frame or element for the air (13 R414-R422). -/
structure AirFrame where
  /-- class 0 beacon, 1-5 elements by class (13 R422). -/
  cls : Nat := 3
  /-- robot addressed; none for every robot (13 R422). -/
  session : Option Nat := none
  /-- KIND: 1 ASSOC, 2 GROUP, 3 LINK (13 R419). -/
  kind : Nat := 1
  /-- E_EUI64 of a LINK element (13 R419). -/
  eui : BitVec 64 := 0
  /-- the message or fragment (13 R419). -/
  body : Bytes := []
  /-- FRAG: the message begins with a fragment header (13 R419). -/
  frag : Bool := false
  /-- FC that queued it (13 R422). -/
  fc : Nat := 0
  /-- FC whose PERSIST it waits for (13 R413). -/
  commitFc : Nat := 0
  /-- downlink frames of radio A still to carry it (3 for HALT) (13 R422). -/
  leftA : Nat := 1
  /-- downlink frames of radio B still to carry it (13 R422). -/
  leftB : Nat := 1
  /-- bytes of it placed on radio A while its chain is unfinished (13 R419). -/
  doneA : Nat := 0
  /-- bytes of it placed on radio B while its chain is unfinished (13 R419). -/
  doneB : Nat := 0
  /-- a fix message (13 R422). -/
  isFix : Bool := false
  /-- a correction fragment (13 R212). -/
  isCorr : Bool := false
deriving DecidableEq, Repr

/-- A frame filled for one downlink slot (13 R414, R422). -/
structure SlotFrame where
  /-- ASN of the slot it is due in (13 R410). -/
  slot : Nat := 0
  /-- the PSDU without its FCS (13 R414). -/
  psdu : Bytes := []
  /-- AIR in us (13 R408). -/
  air : Nat := 0
  /-- FC whose PERSIST it waits for (13 R413). -/
  commitFc : Nat := 0
  /-- a LAMP beacon (13 R416). -/
  beacon : Bool := false
  /-- the token block of a beacon (13 R417). -/
  token : Bytes := []
  /-- length of each element in it, and 1 plus MSG_SEQ and FRAG_INDEX where it carries a correction fragment, else 0 (07 R212). -/
  parts : List (Nat × Nat) := []
deriving DecidableEq, Repr

/-- One transceiver (13 R407, R428, R436). -/
structure OneRadio where
  /-- frames filled for slots (13 R422). -/
  queue : List SlotFrame := []
  /-- FC at which STARTUP ends (13 R428). -/
  startupUntil : Option Nat := none
  /-- first FC of RADIO_TEST (13 R439). -/
  testFrom : Nat := 0
  /-- FC at which RADIO_TEST ends (13 R439). -/
  testUntil : Option Nat := none
  /-- BEACONS_NOT_LAUNCHED (13 R436). -/
  notLaunched : Nat := 0
  /-- FRAMES_TX (13 R436). -/
  framesTx : Nat := 0
  /-- FRAMES_RX (13 R436). -/
  framesRx : Nat := 0
  /-- RX_FCS_FAIL (13 R436). -/
  fcsFail : Nat := 0
  /-- RX_MIC_FAIL (13 R436). -/
  micFail : Nat := 0
  /-- RX_REPLAY (13 R436). -/
  replay : Nat := 0
  /-- RX_DUPLICATE (13 R436). -/
  duplicate : Nat := 0
  /-- DWELL_DEFERRED (13 R436). -/
  deferred : Nat := 0
  /-- DWELL_OVER (13 R436). -/
  dwellOver : Nat := 0
  /-- FOG_SKIPPED (13 R436). -/
  fogSkipped : Nat := 0
  /-- frames dropped by R415 (13 R415). -/
  badHeader : Nat := 0
  /-- frames lost with the RX queue (03 R91). -/
  rxLost : Nat := 0
  /-- frames put on air in the FC: (channel, PSDU) (13 R410). -/
  air : List (Nat × Bytes) := []
  /-- a two-slot foghorn occupies slots below this ASN (13 R429). -/
  busyUntil : Nat := 0
deriving DecidableEq, Repr

/-- A message taken from an uplink frame (13 R419). -/
structure AirMsg where
  /-- radio (13 R415). -/
  radio : Nat := 0
  /-- KIND (13 R419). -/
  kind : Nat := 1
  /-- robot session, where the EUI-64 is enrolled (13 R419). -/
  session : Option Nat := none
  /-- EUI-64 (13 R419). -/
  eui : BitVec 64 := 0
  /-- E_CTR (13 R420). -/
  ctr : Nat := 0
  /-- message (13 R419). -/
  body : Bytes := []
deriving DecidableEq, Repr

/-- The sub-GHz radio (13). -/
structure Radio where
  /-- radio A (13 R407). -/
  a : OneRadio := {}
  /-- radio B (13 R407). -/
  b : OneRadio := {}
  /-- messages waiting for downlink slots, in queuing order (13 R422). -/
  elements : List AirFrame := []
  /-- GROUP_CTR (13 R420). -/
  groupCtr : Nat := 1
  /-- LINK_DOWN_CTR (13 R420). -/
  linkDownCtr : Nat := 1
  /-- airtime bins per channel frequency in kHz: (bin, us), newest first (13 R426, R427). -/
  bins : Tbl (List (Nat × Nat)) := []
  /-- U_c per channel frequency in kHz as they stood at the boundary (13 R438). -/
  boundaryUse : Tbl Nat := []
  /-- dedicated cell of each session: D, m, p (13 R424). -/
  cells : Tbl (Nat × Nat × Nat) := []
  /-- FIX_STALE (13 R422). -/
  fixStale : Nat := 0
  /-- per cause DEFERRED, OVER, FOG_SKIPPED: count, last radio, KIND and INDEX, count at the last event (13 R440). -/
  budgetEvs : List (Nat × Nat × Nat × Nat × Nat) := [(0, 0, 1, 0, 0), (0, 0, 1, 0, 0), (0, 0, 2, 0, 0)]
  /-- first FC in which beacons are sent after STILL (13 R428). -/
  beaconsSince : Option Nat := none
  /-- ASN of the last beacon launched (13 R417). -/
  beaconAsn : Option Nat := none
  /-- FOGHORN_FC in force in this FC (13 R437). -/
  foghornNow : Nat := 20
  /-- frames captured and not yet latched, with their descriptors (13 R435). -/
  rx : List (AirIn × Bytes) := []
  /-- messages latched in this FC and not yet taken (13 R421). -/
  msgs : List AirMsg := []
deriving DecidableEq, Repr

/-- CAN_CONFIG of one channel (14 R455). -/
structure CanConfig where
  /-- ENABLE (14 R455). -/
  enable : Nat := 2
  /-- NOMINAL_KBPS (14 R455). -/
  nominal : Nat := 500
  /-- DATA_KBPS (14 R455). -/
  data : Nat := 2000
  /-- NOM_SP_PCT (14 R455). -/
  nomSp : Nat := 80
  /-- DATA_SP_PCT (14 R455). -/
  dataSp : Nat := 75
  /-- TERM (14 R455). -/
  term : Nat := 1
  /-- NOMATCH_ACTION (14 R455). -/
  noMatch : Nat := 2
  /-- STOP_CAN_ID (14 R455). -/
  stopId : Nat := 0x010
  /-- BUSOFF_LIMIT (14 R455). -/
  busoffLimit : Nat := 0
  /-- TX_TTL_FC (14 R455). -/
  ttl : Nat := 100
  /-- WAKE_MODE (14 R455). -/
  wakeMode : Nat := 1
  /-- WAKE_LEN (14 R455). -/
  wakeLen : Nat := 0
  /-- WAKE_ID (14 R455). -/
  wakeId : Nat := 0
  /-- WAKE_ID_MASK (14 R455). -/
  wakeIdMask : Nat := 0
  /-- WAKE_DATA_MASK (14 R455). -/
  wakeData : Bytes := List.replicate 8 0
deriving DecidableEq, Repr

/-- One CAN rule (14 R446). -/
structure CanRule where
  /-- ID_VALUE (14 R446). -/
  idValue : Nat := 0
  /-- ID_MASK (14 R446). -/
  idMask : Nat := 0
  /-- FMT (14 R446). -/
  fmt : Nat := 0
  /-- ACTION (14 R446). -/
  action : Nat := 0
  /-- MIN_LEN (14 R446). -/
  minLen : Nat := 0
  /-- MAX_LEN (14 R446). -/
  maxLen : Nat := 0
deriving DecidableEq, Repr

/-- One CAN node entry (14 R447). -/
structure CanNode where
  /-- ENABLE (14 R447). -/
  enable : Bool := false
  /-- IDE (14 R447). -/
  ide : Bool := false
  /-- STOP_ID (14 R447). -/
  stopId : Nat := 0
  /-- NAME (14 R458). -/
  name : Bytes := List.replicate 8 0
deriving DecidableEq, Repr

/-- A CAN frame (14 R459, R462). -/
structure CanFrame where
  /-- identifier (14 R459). -/
  id : Nat := 0
  /-- IDE (14 R459). -/
  ide : Bool := false
  /-- FDF (14 R459). -/
  fdf : Bool := false
  /-- BRS (14 R462). -/
  brs : Bool := false
  /-- ESI (14 R462). -/
  esi : Bool := false
  /-- remote frame (14 R441). -/
  remote : Bool := false
  /-- data bytes (14 R459). -/
  data : Bytes := []
  /-- reported time of its SOF (14 R444). -/
  sof : Nat := 0
deriving DecidableEq, Repr

/-- A frame in a CAN TX queue (14 R448, R449). -/
structure CanTx where
  /-- the frame (14 R448). -/
  frame : CanFrame := {}
  /-- ONE_SHOT (14 R449). -/
  oneShot : Bool := false
  /-- NOTIFY (14 R459). -/
  notify : Bool := false
  /-- TX_REF (14 R459). -/
  txRef : Nat := 0
  /-- sending session (14 R449). -/
  sessionId : Nat := 0
  /-- FC of its release to the controller (14 R448). -/
  releasedFc : Option Nat := none
  /-- the stop frame (14 R454). -/
  stop : Bool := false
  /-- REISSUED (14 R462). -/
  reissued : Bool := false
deriving DecidableEq, Repr

/-- One CAN channel (14 R443-R453). -/
structure CanChan where
  /-- CSTATE (14 R443). -/
  state : CState := .off
  /-- TEC (14 R443). -/
  tecCtr : Nat := 0
  /-- REC (14 R443). -/
  recCtr : Nat := 0
  /-- FCs of the bus-offs in the last 6,000 FC (14 R452). -/
  busoffs : List Nat := []
  /-- frames captured and not yet taken (14 R445). -/
  rx : List CanFrame := []
  /-- frames latched and not yet checked (14 R445). -/
  latchedRx : List CanFrame := []
  /-- frames for EV_CAN_RX: frame, RULE, NODE_STOP (14 R462). -/
  deliver : List (CanFrame × Nat × Bool) := []
  /-- TX queue, head first (14 R448). -/
  txq : List CanTx := []
  /-- stop buffer (14 R448). -/
  stopBuf : Option CanTx := none
  /-- outcomes captured and not yet latched: frame, OUTCOME, reported time of its SOF (14 R449). -/
  outcomes : List (CanTx × Nat × Nat) := []
  /-- HIT_COUNT per rule (14 R446). -/
  hits : Tbl Nat := []
  /-- RX_FRAMES (14 R456). -/
  rxFrames : Nat := 0
  /-- RX_OVERRUN (14 R456). -/
  rxOverrun : Nat := 0
  /-- RX_REMOTE (14 R456). -/
  rxRemote : Nat := 0
  /-- NODE_STOPS (14 R456). -/
  nodeStops : Nat := 0
  /-- TX_FRAMES (14 R456). -/
  txFrames : Nat := 0
  /-- TX_FAILED (14 R456). -/
  txFailed : Nat := 0
  /-- BUSOFF_COUNT (14 R456). -/
  busoffCount : Nat := 0
  /-- LAST_STOP_SEQ (14 R450). -/
  stopSeq : Nat := 0
  /-- TDC_ROOT (14 R456). -/
  tdc : Nat := 0
  /-- FC of a CAN_SLEEP accepted and not yet carried out: the channel sleeps once the frames released up to its GUARD have completed (14 R461). -/
  sleepDue : Option Nat := none
  /-- CSTATE before the changes captured and not yet latched (14 R462). -/
  evOld : Option CState := none
  /-- CSTATE before the changes EMIT is to report (14 R462). -/
  evDue : Option CState := none
  /-- settings in force (14 R462). -/
  cfg : CanConfig := {}
  /-- outcomes read in LATCH, EV_CAN_TX to send (14 R462). -/
  latchedOut : List (CanTx × Nat × Nat) := []
  /-- a stop frame was lost at bus-off and waits for the recovery (14 R462). -/
  stopLost : Bool := false
  /-- cause of the last change (14 R462). -/
  evCause : Nat := 0
  /-- a stop frame is to be queued again (14 R452). -/
  reissue : Bool := false
  /-- the channel restarts at the next boundary (14 R455). -/
  restart : Bool := false
deriving DecidableEq, Repr

/-- Persistent CAN settings of one channel (14 R446, R447, R455). -/
structure CanPersist where
  /-- configuration (14 R455). -/
  cfg : CanConfig := {}
  /-- rules (14 R446). -/
  rules : Tbl CanRule := []
  /-- node table (14 R447). -/
  nodes : Tbl CanNode := []
deriving DecidableEq, Repr

/-- SYS_NET_CONFIG of one port (15 R474). -/
structure NetConfig where
  /-- NFLAGS: both off until set (15 R464). -/
  flags : Nat := 0
  /-- PREFIX4 (15 R474). -/
  plen4 : Nat := 0
  /-- PREFIX6 (15 R474). -/
  plen6 : Nat := 0
  /-- ADDR4 (15 R474). -/
  addr4 : Bytes := List.replicate 4 0
  /-- GW4 (15 R474). -/
  gw4 : Bytes := List.replicate 4 0
  /-- ADDR6 (15 R474). -/
  addr6 : Bytes := List.replicate 16 0
  /-- GW6 (15 R474). -/
  gw6 : Bytes := List.replicate 16 0
deriving DecidableEq, Repr

/-- SYS_AUX_CONFIG of one L24 I/O (15 R475). -/
structure AuxConfig where
  /-- DIR (15 R475). -/
  dir : Nat := 1
  /-- AFLAGS: bit 0 STOP_OFF, bit 1 NOTIFY, bit 2 INVERT (15 R475). -/
  flags : Nat := 0
  /-- FILTER_10US (15 R475). -/
  filter : Nat := 100
  /-- OUT_START (15 R475). -/
  start : Nat := 0
deriving DecidableEq, Repr

/-- The live state of one L24 I/O (15 R468, R469). -/
structure AuxLive where
  /-- filtered level before INVERT (15 R468). -/
  level : Bool := false
  /-- filtered level as latched by firmware (15 R468). -/
  latched : Bool := false
  /-- filtered changes in this FC (15 R468). -/
  changes : Nat := 0
  /-- change count (15 R468). -/
  total : Nat := 0
  /-- CHATTER (15 R468). -/
  chatter : Bool := false
  /-- reported time and level of the last edge captured and not yet latched (15 R478). -/
  edge : Option (Nat × Bool) := none
  /-- edge latched, EV_AUX due (15 R478). -/
  edgeDue : Option (Nat × Bool) := none
  /-- commanded output state (15 R469). -/
  out : Bool := false
  /-- OUT_FAULT (15 R469). -/
  outFault : Bool := false
  /-- time of an OUT_FAULT captured and not yet latched (15 R478). -/
  faultEv : Option Nat := none
  /-- EV_AUX OUT_FAULT is due (15 R478). -/
  faultDue : Option Nat := none
  /-- counter value at which a trigger's pulse ends (05 R156). -/
  pulseEnd : Option Counter := none
  /-- SYS_AUX_SET value for the first PCLK of PLAN (15 R476). -/
  setNext : Option Bool := none
deriving DecidableEq, Repr

/-- The live state of one host port (15 R465, R477). -/
structure PortLive where
  /-- LINK (15 R477). -/
  link : Bool := false
  /-- SPEED (15 R477). -/
  speed : Nat := 0
  /-- RX_RATE_DROP (15 R477). -/
  rateDrop : Nat := 0
  /-- RX_OTHER (15 R477). -/
  other : Nat := 0
  /-- LINK_LOSSES (15 R477). -/
  losses : Nat := 0
  /-- frames passed to the IP checks in this FC (15 R465). -/
  frames : Nat := 0
  /-- ARP and NDP requests answered in this FC (15 R465). -/
  arps : Nat := 0
  /-- echo requests answered in this FC (15 R465). -/
  echoes : Nat := 0
  /-- a link change captured and not yet latched (15 R478). -/
  changed : Bool := false
  /-- EV_PORT_LINK is due (15 R478). -/
  due : Bool := false
deriving DecidableEq, Repr

/-- The ports and the auxiliary I/O (15). -/
structure Ports where
  /-- H0, H1, L23 (15 R477). -/
  hosts : Tbl PortLive := []
  /-- addresses in force in this FC (15 R474). -/
  netNow : Tbl NetConfig := []
  /-- I/O settings in force in this FC (15 R475). -/
  auxNow : Tbl AuxConfig := []
  /-- IO 0-7 (15 R468). -/
  io : Tbl AuxLive := []
  /-- filtered SVC_EN level (15 R471). -/
  svcEn : Bool := false
  /-- SERVICE_ENABLE as latched (15 R471, 04 R111). -/
  svcLatched : Bool := false
  /-- reported time of an SVC_EN edge captured and not yet latched (15 R478). -/
  svcEdge : Option Nat := none
  /-- SVC_EN edge latched, EV_AUX due (15 R478). -/
  svcDue : Option Nat := none
  /-- VIO_PRESENT (15 R477). -/
  vio : Bool := true
  /-- VIO change captured and not yet latched (15 R478). -/
  vioEv : Option (Bool × Nat) := none
  /-- VIO change latched, EV_AUX due (15 R478). -/
  vioDue : Option (Bool × Nat) := none
  /-- TLOOP (15 R472, R477). -/
  tloop : Nat := 0
deriving DecidableEq, Repr

/-- One key slot record of the backup SRAM (16 R484, R485). -/
structure KeySlot where
  /-- COMMIT VALID (16 R485). -/
  valid : Bool := false
  /-- COMMIT WIPED (16 R485). -/
  wiped : Bool := false
  /-- COMMIT CUR: VAL1 is current (16 R485). -/
  cur : Bool := false
  /-- COMMIT SHADOW (16 R485). -/
  shadow : Bool := false
  /-- COMMIT CSN_TAG (16 R485). -/
  csnTag : Nat := 0
  /-- GEN, 1 at manufacture (16 R484). -/
  gen : Nat := 1
  /-- KIND (16 R484). -/
  kind : Nat := 0
  /-- KEY_LEN (16 R484). -/
  keyLen : Nat := 0
  /-- BINDING (16 R484). -/
  binding : BitVec 64 := 0
  /-- VAL0 (16 R484). -/
  val0 : Bytes := []
  /-- VAL1 (16 R484). -/
  val1 : Bytes := []
deriving DecidableEq, Repr

/-- The backup domain: it survives every reset and DOLDRUMS and is lost only with its supply (16 R484, R493; 04 R115, R122). -/
structure Backup where
  /-- key slots 0-63 (16 R484). -/
  slots : Tbl KeySlot := []
  /-- derived-key cache tags; an unlisted tag is 0 (16 R484, R487). -/
  tags : Tbl Nat := []
  /-- TAMPER_LATCHED (16 R494, 04 R111). -/
  latched : Bool := false
  /-- TSRC_LATCHED (16 R494). -/
  tsrc : Nat := 0
  /-- TSRC_NOW (16 R497). -/
  tsrcNow : Nat := 0
  /-- consecutive checks that found each sensor's condition (16 R493). -/
  tripRun : List Nat := [0, 0, 0, 0, 0]
  /-- time of the first trip, from the RTC (16 R494). -/
  firstTrip : Nat := 0
  /-- TAMPER_COUNT (16 R493). -/
  tamperCount : Nat := 0
  /-- TAMPER_ENABLE (16 R493). -/
  enable : Nat := 0x17
  /-- POLICY (16 R494). -/
  policy : Nat := 1
  /-- FCs left of the maintenance window and one more; 0 closed, 1 its expiry is due (16 R495). -/
  maintFc : Nat := 0
  /-- slot 0 was wiped with the main domain off or before phase 5; phase 5 acts on it (16 R494). -/
  wipedInDark : Bool := false
  /-- sensors tripped since the previous EV_TAMPER (16 R506). -/
  unreported : Nat := 0
  /-- ACTION of the trip not yet reported (16 R506). -/
  unreportedAction : Nat := 1
  /-- POWER_FAIL in the event latch, with its RTC time (04 R122). -/
  powerFail : Option Nat := none
  /-- boot failures recorded in the event latch (04 R115). -/
  bootFails : Nat := 0
  /-- RTC count, 1/32768 s (05 R147). -/
  rtc : Nat := 0
  /-- trim of the RTC's rate (05 R148). -/
  rtcTrim : Int := 0
  /-- the backup domain was found lost at power-on (16 R486, R493). -/
  lost : Bool := false
deriving DecidableEq, Repr

/-- The sealed copy of a key slot in MRAM (16 R486). -/
structure SealedSlot where
  /-- the record sealed (16 R486). -/
  slot : KeySlot := {}
  /-- the copy has been erased (16 R494). -/
  erased : Bool := false
deriving DecidableEq, Repr

/-- Key generations and tamper settings in the persistent configuration (16 R481, R486, R502, R503). -/
structure KeyPersist where
  /-- sealed copies (16 R486). -/
  sealed : Tbl SealedSlot := []
  /-- HOST_GEN per HOST_INDEX (16 R481). -/
  hostGen : Tbl Nat := []
  /-- GROUP_GEN (16 R502). -/
  groupGen : Nat := 1
  /-- BEACON_GEN (16 R502). -/
  beaconGen : Nat := 1
  /-- a pending roll: (WHAT, EFFECT_FC) (16 R502). -/
  roll : Option (Nat × Nat) := none
  /-- BCTR of the last accepted HELLO per EUI-64 (16 R491). -/
  helloCtr : Tbl Nat := []
  /-- persistent copy of TAMPER_ENABLE (16 R503). -/
  tamperEnable : Nat := 0x17
  /-- persistent copy of POLICY (16 R503). -/
  tamperPolicy : Nat := 1
deriving DecidableEq, Repr

/-- A change of a key slot between its COMMAND and its PERSIST (16 R488). -/
structure SlotChange where
  /-- key slot (16 R488). -/
  slot : Nat := 0
  /-- the record after the flip (CSN_TAG is set at the flip) (16 R488). -/
  new : KeySlot := {}
  /-- the commit word read in step 1, for the compare-and-set (16 R488). -/
  expect : KeySlot := {}
  /-- the change is a destruction (16 R488). -/
  destroy : Bool := false
  /-- the command to answer (16 R488). -/
  req : Request := {}
  /-- its reply payload (16 R498, R500). -/
  reply : Bytes := []
deriving DecidableEq, Repr

/-- The SEC core's volatile state (16). -/
structure Sec where
  /-- slot changes of this FC (16 R488). -/
  change : List SlotChange := []
  /-- latest periodic attestation statement (16 R492). -/
  attest : Bytes := []
  /-- FC that signed it (16 R492). -/
  attestFc : Nat := 0
  /-- ATTEST_GET commands whose statement is signed for the next FC (16 R505). -/
  fresh : List Request := []
  /-- fresh statements accepted in this FC (16 R505). -/
  freshUsed : Nat := 0
  /-- EV_KEY due: (SLOT, ACTION) (16 R506). -/
  evKeys : List (Nat × Nat) := []
  /-- sensors of the EV_TAMPER due in EMIT of this FC (16 R494). -/
  evBits : Nat := 0
  /-- POLICY, TAMPER_ENABLE and MAINT_S to reach the backup domain at the first PCLK of PLAN (16 R503). -/
  tamperNext : Option (Option Nat × Option Nat × Nat) := none
  /-- the sealed copy of slot 0 is to be erased in PERSIST (16 R494). -/
  wipeDue : Bool := false
deriving DecidableEq, Repr

/-- What a package header and table give (17 R507, R508). -/
structure PkgInfo where
  /-- PKG_MAGIC (17 R507). -/
  magic : Nat := 0
  /-- PKG_VER (17 R507). -/
  ver : Nat := 0
  /-- PFLAGS (17 R507). -/
  pflags : Nat := 0
  /-- FW_VERSION: FW_MAJOR, FW_MINOR, FW_PATCH as stored (17 R507). -/
  fw : Nat := 0
  /-- HW_REV_MIN (17 R507). -/
  hwMin : Nat := 0
  /-- HW_REV_MAX (17 R507). -/
  hwMax : Nat := 0
  /-- ORDER_MASK (17 R507). -/
  orderMask : Nat := 0
  /-- CONFIG_FORMAT (17 R507). -/
  configFormat : Nat := 0
  /-- ROLLBACK_INDEX (17 R507). -/
  rollback : Nat := 0
  /-- PKG_LEN (17 R507). -/
  len : Nat := 0
  /-- PKG_ID (17 R507). -/
  pkgId : Bytes := List.replicate 16 0
  /-- ANCHOR segments: (segment index, ANCHOR_MODEL, ANCHOR_FW, LEN) (17 R507, R529). -/
  anchors : List (Nat × Nat × Nat × Nat) := []
deriving DecidableEq, Repr

/-- One 64 MiB firmware slot of the image flash (17 R511). -/
structure ImageSlot where
  /-- SLOT_STATE (17 R511). -/
  state : Nat := 0
  /-- TRIAL_COUNT (17 R511). -/
  trial : Nat := 0
  /-- SLOT_SEQ (17 R511). -/
  seq : Nat := 0
  /-- ROLLBACK_FLOOR (17 R511). -/
  floor : Nat := 0
  /-- HDR_COUNT (17 R511). -/
  hdrCount : Nat := 0
  /-- CAPSULE (17 R511). -/
  capsule : Bytes := []
  /-- the package stored (17 R511). -/
  pkg : PkgInfo := {}
  /-- the package as received (17 R511). -/
  body : Bytes := []
deriving DecidableEq, Repr

/-- The image flash: it keeps its contents through every reset (17 R511). -/
structure Flash where
  /-- slot A, as manufactured CONFIRMED (17 R511). -/
  a : ImageSlot := { state := 3, seq := 1, hdrCount := 1, pkg := { fw := 3 } }
  /-- slot B, EMPTY (17 R511). -/
  b : ImageSlot := {}
  /-- the running slot is B (17 R525). -/
  active : Bool := false
deriving DecidableEq, Repr

/-- Update settings of the persistent configuration (17 R514, R515). -/
structure UpdPersist where
  /-- CONFIG_FORMAT of the running format's area (17 R514). -/
  format : Nat := 0
  /-- FORMAT_DUAL (17 R515). -/
  dual : Bool := false
  /-- the old format still written (17 R515). -/
  oldFormat : Option Nat := none
deriving DecidableEq, Repr

/-- A scheduled or running activation (17 R516). -/
structure Activation where
  /-- activation FC (17 R516). -/
  a : Nat := 0
  /-- FC that accepted the command (17 R530). -/
  n : Nat := 0
  /-- FC whose PERSIST confirms the standby FLT (17 R517). -/
  c : Option Nat := none
  /-- the package has RESTART set (17 R519). -/
  restart : Bool := false
  /-- UPD_REVERT (17 R524). -/
  revert : Bool := false
  /-- REQUIRE_LOCKED (17 R530). -/
  requireLocked : Bool := false
  /-- LINK_MASK (17 R530). -/
  linkMask : Nat := 0
  /-- a time step has been taken since acceptance (17 R516). -/
  stepped : Bool := false
  /-- the slot it activates is B (17 R516). -/
  target : Bool := false
  /-- CSN of the command's last commit (02 R73, 17 R531). -/
  last : Nat := 0
  /-- the check in FC a - 1 has passed (17 R531). -/
  passed : Bool := false
  /-- the slot headers are to be written in PERSIST (17 R531). -/
  trialDue : Bool := false
  /-- the command to answer (17 R531). -/
  req : Request := {}
deriving DecidableEq, Repr

/-- One EV_UPD_STATE due (17 R533). -/
structure UpdEvent where
  /-- NEW_STATE (17 R533). -/
  new : Nat := 0
  /-- OLD_STATE (17 R533). -/
  old : Nat := 0
  /-- CAUSE (17 R533). -/
  cause : Nat := 0
  /-- CSN of the commit it reports, or the current one (02 R68). -/
  csn : Nat := 0
  /-- SESSION_ID and TAG of the command that made the change (02 R58). -/
  tag : Option (Nat × Nat) := none
deriving DecidableEq, Repr

/-- Firmware update (17). -/
structure Upd where
  /-- UPD_STATE (17 R525). -/
  state : Nat := 0
  /-- UPD_STATE before the change to report (17 R533). -/
  oldState : Nat := 0
  /-- EV_UPD_STATE due in EMIT (17 R533). -/
  evs : List UpdEvent := []
  /-- PKG_ID of the package downloaded or running unconfirmed (17 R525, R526). -/
  pkgId : Bytes := List.replicate 16 0
  /-- PKG_LEN (17 R526). -/
  len : Nat := 0
  /-- CAPSULE (17 R526). -/
  capsule : Bytes := []
  /-- blocks received in update staging (17 R527). -/
  blocks : Tbl Bytes := []
  /-- anchor segments stand decrypted in staging (17 R529). -/
  staged : Bool := false
  /-- a running UPD_FINISH: FC in which verification ends, FC of the final reply, the command to answer (17 R529). -/
  finish : Option (Nat × Nat × Request) := none
  /-- status of the verification, once it has ended (17 R529). -/
  verified : Option Nat := none
  /-- scheduled or running activation (17 R516). -/
  act : Option Activation := none
  /-- the channel whose turn runs and the FC its turn began (17 R520). -/
  safTurn : Option (Nat × Nat) := none
  /-- the channel whose turn comes next; 3 none (17 R520). -/
  safNext : Nat := 3
  /-- SAF_NEW (17 R525). -/
  safNew : Nat := 0
  /-- SAF_FAILED (17 R520). -/
  safFailed : Bool := false
  /-- L23 presents the DFU device (17 R513). -/
  dfu : Bool := false
  /-- BLOCKS: blocks the download needs (17 R527). -/
  blocksEver : Nat := 0
deriving DecidableEq, Repr

/-- Lifetime and rolling counters kept in the MRAM control block (19 R560, R566, R567). -/
structure DiagPersist where
  /-- lifetime counts of causes 0-5 (19 R560). -/
  life : List Nat := List.replicate 6 0
  /-- day bins, newest first: counts of causes 0-5 (19 R560). -/
  bins : List (List Nat) := []
  /-- FCs elapsed in the newest day bin (19 R560). -/
  dayFc : Nat := 0
  /-- FCs elapsed since manufacture (19 R566). -/
  elapsedFc : Nat := 0
  /-- FCs run with main power, for HOURS_RUN (19 R566). -/
  hoursFc : Nat := 0
  /-- GROUP 0x02: corrected and uncorrectable of five blocks, STRT CHK failures (19 R567). -/
  mem : List Nat := List.replicate 11 0
  /-- core reloads, lifetime (19 R567). -/
  reloads : List Nat := List.replicate 8 0
  /-- FLT_FAILOVERS (19 R566). -/
  failovers : Nat := 0
  /-- WATCHDOG_RESETS (19 R566). -/
  watchdogs : Nat := 0
  /-- LAST_FAULT_TIME64 (19 R566). -/
  lastFault : Nat := 0
deriving DecidableEq, Repr

/-- A running self-test (19 R570). -/
structure TestRun where
  /-- TARGET (19 R570). -/
  target : Nat := 0xFF
  /-- FC of the final reply (19 R570). -/
  endFc : Nat := 0
  /-- DETAIL so far (19 R570). -/
  detail : Nat := 0
  /-- RESULT FAIL (19 R570). -/
  failed : Bool := false
  /-- TEST_ID (19 R570). -/
  testId : Nat := 0
  /-- the command to answer (19 R570). -/
  req : Request := {}
deriving DecidableEq, Repr

/-- An EV_MEMORY_FAULT gathered in the FC (19 R565). -/
structure MemFault where
  /-- BLOCK (19 R565). -/
  block : Nat := 1
  /-- UNIT (19 R565). -/
  unit : Nat := 0
  /-- OUTCOME (19 R565). -/
  outcome : Nat := 1
  /-- INDEX (19 R565). -/
  index : Nat := 0xFFFFFFFF
deriving DecidableEq, Repr

/-- The eight cores (01 R25, R33, R34; 19). -/
structure Cores where
  /-- the active FLT: 0 or 1 (12 R392). -/
  active : Nat := 0
  /-- the standby FLT confirms state by hash (12 R393, 04 R111). -/
  standbyReady : Bool := false
  /-- last FC whose PERSIST the standby confirmed (12 R393). -/
  lastGood : Nat := 0
  /-- FC of the last periodic exchange (12 R393). -/
  swapFc : Option Nat := none
  /-- the FLT whose results this FC uses (12 R393). -/
  resultsFrom : Nat := 0
  /-- cores being reloaded and the first FC in which their outputs may return (04 R110). -/
  reload : List (Nat × Nat) := []
  /-- hand-over at the next boundary (12 R394). -/
  nextActive : Option Nat := none
  /-- the FC's work is redone after an FLT failure (12 R394, 19 R559). -/
  redo : Bool := false
  /-- cores that faulted in this FC (04 R110). -/
  faulted : List Nat := []
  /-- window overruns per core since reset (19 R567). -/
  overruns : List Nat := List.replicate 8 0
  /-- FCs of the overruns of the last 24 h (19 R566). -/
  overrunFcs : List Nat := []
  /-- consecutive FCs with a SEC overrun (01 R33). -/
  secRun : Nat := 0
  /-- SEC has overrun in this FC (01 R33). -/
  secOver : Bool := false
  /-- table entries not valid, by TABLE_ID and index, to restore from MRAM at the next boundary (01 R34). -/
  restore : List (Nat × Nat) := []
  /-- POS_INVALID: the FC's POS results are not used (01 R33). -/
  posInvalid : Bool := false
  /-- LNK skips the FC's transmissions (01 R33). -/
  txSkipped : Bool := false
  /-- a standby overrun left it not ready (01 R33). -/
  notReady : Bool := false
  /-- EV_WINDOW_OVERRUN due: CORE, WINDOW, ACTION, FC (19 R565). -/
  overEvs : List (Nat × Nat × Nat × Nat) := []
  /-- EV_MEMORY_FAULT due (19 R565). -/
  memEvs : List MemFault := []
  /-- ECC_CORRECTED since reset (19 R566). -/
  eccReset : Nat := 0
  /-- QUEUE_FAULTS since reset (19 R566). -/
  queueFaults : Nat := 0
  /-- self-tests running (19 R570). -/
  tests : List TestRun := []
  /-- event-log records carried (19 R567). -/
  jrnlCarried : Nat := 0
  /-- PERSIST failures (19 R567). -/
  persistFailed : Nat := 0
  /-- MRAM repairs by scrub (19 R567). -/
  repairs : Nat := 0
  /-- CELL_MV (19 R566). -/
  cellMv : Nat := 0
  /-- VBAK_MV (19 R566). -/
  vbakMv : Nat := 0
  /-- T_AMB, 0.1 degree C (18 R552, 19 R566). -/
  tAmb : Int := 0
  /-- T_OCXO_DC (19 R566). -/
  tOcxo : Int := 0
  /-- T_ENCL_DC (19 R566). -/
  tEncl : Int := 0
  /-- P_INT, mW (18 R535, R552). -/
  pInt : Nat := 0
  /-- P_AVAIL, mW (18 R535, 08 R221). -/
  pAvail : Nat := 0
  /-- FCs of cause 4 still to count until NOT_READY clears (19 R559). -/
  resetCount : Option Nat := none
deriving DecidableEq, Repr

/-- Configured depth and level of one queue (03 R94, 19 R569). -/
structure QueueConfig where
  /-- DEPTH; 0 stands for the default (03 R94). -/
  depth : Nat := 0
  /-- LEVEL; with levelSet (03 R94). -/
  level : Nat := 0
  /-- LEVEL has been configured (19 R569). -/
  levelSet : Bool := false
deriving DecidableEq, Repr

/-- The MRAM: control block, journal, event log and persistent configuration (01 Memory; 03 R95). State holds it twice: as worked on (p) and as last persisted (nv). -/
structure Mram where
  /-- control block, journal and event log (03 R95). -/
  control : Control := {}
  /-- SYS_POWER_CONFIG (04 R120, R128). -/
  power : PowerConfig := {}
  /-- TIME_CONFIG (05 R160). -/
  timeCfg : TimeConfig := {}
  /-- the time record (05 R147). -/
  timeRec : TimeRecord := {}
  /-- GNSS_CONFIG and calibration values (06 R189). -/
  gnssCfg : GnssConfig := {}
  /-- REF_CONFIG (07 R215). -/
  refCfg : RefConfig := {}
  /-- site frame, base position and baseline (07 R195). -/
  refFrame : RefFrame := {}
  /-- BUOY_CONFIG (08 R254). -/
  buoyCfg : BuoyConfig := {}
  /-- anchor contexts (08 R255). -/
  anchors : Tbl AnchorRec := []
  /-- zone table (08 R256). -/
  zones : Tbl Zone := []
  /-- ZONE_REV (08 R248). -/
  zoneRev : Nat := 0
  /-- EFFECT_TIME of the zone table (08 R250). -/
  zoneEffect : Nat := 0
  /-- robot classes (09 R261). -/
  classes : Tbl ClassRec := []
  /-- persistent parts of the robot sessions (09 R264). -/
  robots : Tbl RobotRec := []
  /-- SESS_CONFIG (09 R284). -/
  sessCfg : SessConfig := {}
  /-- reservation grid (10 R293). -/
  grid : Grid := {}
  /-- persistent site holds (10 R316). -/
  holds : Tbl HoldRec := []
  /-- tasks (11 R326). -/
  tasks : Tbl Task := []
  /-- TASK_CONFIG (11 R356). -/
  taskCfg : TaskConfig := {}
  /-- STOP_CONFIG (12 R400). -/
  stopCfg : StopConfig := {}
  /-- radio settings and counter ceilings (13 R437). -/
  radio : RadioPersist := {}
  /-- CAN settings of C0 and C1 (14 R455). -/
  can : List CanPersist := [{}, {}]
  /-- SYS_NET_CONFIG of H0 and H1 (15 R474). -/
  net : Tbl NetConfig := []
  /-- SYS_AUX_CONFIG of IO 0-7 (15 R475). -/
  aux : Tbl AuxConfig := []
  /-- sealed key copies, generations and tamper settings (16 R486, R502). -/
  keys : KeyPersist := {}
  /-- configuration formats (17 R514). -/
  upd : UpdPersist := {}
  /-- availability and lifetime counts (19 R560). -/
  diag : DiagPersist := {}
  /-- configured queue depths and levels (03 R94). -/
  queueCfg : Tbl QueueConfig := []
  /-- neither copy of the control block can be read (01 R34, 04 R110). -/
  unreadable : Bool := false
deriving DecidableEq, Repr

/-- The RD-824. -/
structure State where
  /-- commands waiting, first in, first out (the block's queue). -/
  pending : List Instr := []
  /-- index of the next free value (16 R483 and wherever the spec leaves a value open). -/
  freeCtr : Nat := 0
  /-- fuses (01 Memory). -/
  fuse : Fuse := {}
  /-- image flash (17 R511). -/
  flash : Flash := {}
  /-- MRAM contents as worked on in this FC (03 R95, 02 R69). -/
  p : Mram := {}
  /-- MRAM contents as last persisted (03 R95, 02 R69). -/
  nv : Mram := {}
  /-- backup domain (16 R484). -/
  bk : Backup := {}
  /-- time counter and fleet cycle (01 R21). -/
  clk : Clock := {}
  /-- the eight cores (01 R25, R33). -/
  cores : Cores := {}
  /-- mode machine (04 R103). -/
  mode : ModeState := {}
  /-- supply monitor (04 R120). -/
  supply : Supply := {}
  /-- Edtor transport (02). -/
  edtor : Edtor := {}
  /-- commits, records and packets of the FC (02 R68). -/
  com : Commits := {}
  /-- spill queues by QUEUE_ID (03 R94). -/
  queues : Tbl SpillQueue := []
  /-- time base (05). -/
  time : TimeBase := {}
  /-- GNSS baseband (06). -/
  gnss : Gnss := {}
  /-- reference station (07). -/
  ref : RefStation := {}
  /-- BUOY links and TDoA (08). -/
  buoy : Buoy := {}
  /-- robots and presence learning (09). -/
  sess : Sess := {}
  /-- STRT engine (10). -/
  strt : Strt := {}
  /-- site holds (10 R313). -/
  holds : Tbl HoldRec := []
  /-- allotment and conformance (11). -/
  allot : Allot := {}
  /-- stop path (12). -/
  stop : Stop := {}
  /-- sub-GHz radio (13). -/
  radio : Radio := {}
  /-- CAN channels (14). -/
  can : List CanChan := [{}, {}]
  /-- host ports and auxiliary I/O (15). -/
  ports : Ports := {}
  /-- SEC core (16). -/
  sec : Sec := {}
  /-- firmware update (17). -/
  upd : Upd := {}
deriving DecidableEq, Repr

/-- Why the block cannot carry out a command. -/
inductive Fault where
  /-- The command names a unit the RD-824 does not have (a port, link, radio, channel, queue, sensor, core or stop-loop
  line beyond those the spec lists): the event cannot occur. Raised by the event commands that name a unit. Safe. -/
  | noSuchUnit
deriving DecidableEq, Repr

/-- Commands the model has no meaning for. -/
inductive Refusal where
  /-- A row of the opcode table that is not modelled yet. Raised only by Dispatch. Safe. -/
  | notModelled (mnemonic : String)
deriving DecidableEq, Repr

/-- The RD-824 right after a POWER_ON reset, as manufactured: STILL in phase 1, nothing in MRAM or the backup domain,
no command waiting (R114, R116, R117). -/
def State.reset : State := {}

end Sys2Proof.Machine
end

