-- ==== Sys2Proof/Machine/Ops.lean ====
section
/-! DEFINITION. The named operations over bytes, tables, time, commits, the journal, events and replies that every
command's meaning is built from. -/

namespace Sys2Proof.Machine

open Sys2Proof

/-! ### Bytes (R9: little-endian) -/

/-- The `n` low bytes of `x`, least significant first. -/
def le : Nat → Nat → Bytes
  | 0, _ => []
  | n + 1, x => BitVec.ofNat 8 x :: le n (x / 256)

/-- The `n` bytes of a signed value in two's complement. -/
def leI (n : Nat) (x : Int) : Bytes := le n (x % (2 ^ (8 * n) : Nat)).toNat

/-- The value of a little-endian byte string. -/
def fromLe : Bytes → Nat
  | [] => 0
  | b :: bs => b.toNat + 256 * fromLe bs

/-- The `n` bytes at offset `off`. -/
def slice (p : Bytes) (off n : Nat) : Bytes := (p.drop off).take n

/-- The unsigned field of `n` bytes at offset `off`. -/
def fld (p : Bytes) (off n : Nat) : Nat := fromLe (slice p off n)

/-- Two's complement reading of `x` as `bits` wide. -/
def toSigned (bits x : Nat) : Int := if x < 2 ^ (bits - 1) then (x : Int) else (x : Int) - (2 ^ bits : Nat)

/-- The signed field of `n` bytes at offset `off`. -/
def fldI (p : Bytes) (off n : Nat) : Int := toSigned (8 * n) (fld p off n)

/-- Reserved bytes: all zero (R7). -/
def zeros (p : Bytes) (off n : Nat) : Bool := (slice p off n).all (· == 0)

/-- A byte string with every byte 0. -/
def allZero (p : Bytes) : Bool := p.all (· == 0)

/-- `n` zero bytes. -/
def zb (n : Nat) : Bytes := List.replicate n 0

/-- A byte string cut or zero-filled to `n` bytes. -/
def fit (n : Nat) (p : Bytes) : Bytes := (p ++ zb n).take n

/-- Bit `i` of a number. -/
def bit (x i : Nat) : Bool := x.testBit i

/-- A flag as a number with one bit at position `i`. -/
def flag (b : Bool) (i : Nat) : Nat := if b then 2 ^ i else 0

/-- The bits of a list of flags, first flag in bit 0. -/
def bitsOf : List Bool → Nat
  | [] => 0
  | b :: bs => flag b 0 + 2 * bitsOf bs

/-- A count saturating at `2 ^ bits - 1`. -/
def sat (bits x : Nat) : Nat := min x (2 ^ bits - 1)

/-- One more in a saturating 32-bit counter. -/
def inc32 (x : Nat) : Nat := sat 32 (x + 1)

/-- Put an element before the first one it does not follow. -/
def insertBy {α : Type} (le : α → α → Bool) (x : α) : List α → List α
  | [] => [x]
  | y :: l => if le x y then x :: y :: l else y :: insertBy le x l

/-- A list in the order of `le`; equal elements keep their order. -/
def sortBy {α : Type} (le : α → α → Bool) (l : List α) : List α := l.foldr (insertBy le) []

/-- Integer division rounded up. -/
def cdiv (a b : Nat) : Nat := (a + b - 1) / b

/-- One step of CRC-16 with polynomial 0x1021 (R96). -/
def crcBits : Nat → BitVec 16 → BitVec 16
  | 0, c => c
  | n + 1, c => crcBits n (if c.msb then (c <<< 1) ^^^ 0x1021#16 else c <<< 1)

/-- CRC-16, polynomial 0x1021, initial value 0xFFFF (R96). -/
def crc16 (p : Bytes) : Nat :=
  (p.foldl (fun (c : BitVec 16) (b : Byte) => crcBits 8 (c ^^^ ((b.setWidth 16 : BitVec 16) <<< (8 : Nat)))) 0xFFFF#16).toNat

/-! ### Tables -/

/-- The object at an index. -/
def tget {α : Type} : Tbl α → Nat → Option α
  | [], _ => none
  | (k, v) :: t, i => if k = i then some v else tget t i

/-- The object at an index, or a default. -/
def tgetD {α : Type} (t : Tbl α) (i : Nat) (d : α) : α := (tget t i).getD d

/-- Write the object at an index, keeping the order of indexes. -/
def tput {α : Type} : Tbl α → Nat → α → Tbl α
  | [], i, x => [(i, x)]
  | (k, v) :: t, i, x => if i < k then (i, x) :: (k, v) :: t else if i = k then (i, x) :: t else (k, v) :: tput t i x

/-- Remove the object at an index. -/
def tdel {α : Type} : Tbl α → Nat → Tbl α
  | [], _ => []
  | (k, v) :: t, i => if k = i then t else (k, v) :: tdel t i

/-- Change the object at an index, starting from a default where there is none. -/
def tmod {α : Type} (t : Tbl α) (i : Nat) (d : α) (f : α → α) : Tbl α := tput t i (f (tgetD t i d))

/-- Change every object of a table. -/
def tmap {α : Type} (t : Tbl α) (f : Nat → α → α) : Tbl α := t.map fun e => (e.1, f e.1 e.2)

/-- Change the element at a position of a list; positions beyond its end are left alone. -/
def lmod {α : Type} (l : List α) (i : Nat) (f : α → α) : List α := l.modify i f

/-- Whether the indexes of a table rise strictly. -/
def Tbl.sorted {α : Type} : Tbl α → Bool
  | [] => true
  | [_] => true
  | (k, _) :: (k', v') :: t => decide (k < k') && Tbl.sorted ((k', v') :: t)

/-! ### Codes -/

/-- MODE code (R103). -/
def modeCode : Mode → Nat
  | .doldrums => 0 | .still => 1 | .tender => 2 | .calm => 3 | .zephyr => 4 | .breeze => 5
  | .drift => 6 | .lull => 7 | .squall => 8 | .veer => 9 | .watch => 10 | .fog => 11

/-- The mode of a MODE code. -/
def modeOf (n : Nat) : Option Mode :=
  [Mode.doldrums, .still, .tender, .calm, .zephyr, .breeze, .drift, .lull, .squall, .veer, .watch, .fog][n]?

/-- ROLE code (R55). -/
def roleCode : Role → Nat
  | .operator => 1 | .supervisor => 2 | .service => 3

/-- The role of a ROLE code. -/
def roleOfCode : Nat → Option Role
  | 1 => some .operator | 2 => some .supervisor | 3 => some .service | _ => none

/-- PORT code (R57). -/
def portCode : Port → Nat
  | .h0 => 0 | .h1 => 1 | .l23 => 2

/-- WINDOW code (R565). -/
def windowCode : Window → Nat
  | .latch => 0 | .safe => 1 | .solve => 2 | .command => 3 | .plan => 4 | .emit => 5 | .persist => 6 | .guard => 7

/-! Status codes (R575). -/

def stOk : Nat := 0x0000
def stAccepted : Nat := 0x0001
def stDeferred : Nat := 0x0002
def stBadKind : Nat := 0x0100
def stBadReserved : Nat := 0x0101
def stTagInUse : Nat := 0x0102
def stReplyExpired : Nat := 0x0103
def stNoCredit : Nat := 0x0104
def stBadOpcode : Nat := 0x0105
def stBadLength : Nat := 0x0106
def stBadRole : Nat := 0x0107
def stBadMode : Nat := 0x0108
def stBadRange : Nat := 0x0109
def stNoSession : Nat := 0x0200
def stServiceNotEnabled : Nat := 0x0201
def stSessionClosed : Nat := 0x0202
def stCsnMismatch : Nat := 0x0203
def stInterrupted : Nat := 0x0204
def stQueueFault : Nat := 0x0205
def stNotReady : Nat := 0x0206
def stBusy : Nat := 0x0207
def stTooLate : Nat := 0x0208
def stTableFull : Nat := 0x0209
def stHostExists : Nat := 0x0300
def stLastSupervisor : Nat := 0x0301
def stNoSiteKey : Nat := 0x0302
def stKeyExists : Nat := 0x0303
def stTampered : Nat := 0x0304
def stCalFailed : Nat := 0x0310
def stSurveyFailed : Nat := 0x0311
def stRelayFailed : Nat := 0x0312
def stRobotExists : Nat := 0x0320
def stHoldExists : Nat := 0x0321
def stStrtConflict : Nat := 0x0322
def stNoPath : Nat := 0x0323
def stImageInvalid : Nat := 0x0330
def stImageIncompatible : Nat := 0x0331
def stActivationFailed : Nat := 0x0332

/-! Object kinds (R72). -/

def okSession : Nat := 1
def okHost : Nat := 2
def okRobot : Nat := 3
def okClass : Nat := 4
def okTask : Nat := 5
def okPath : Nat := 6
def okHold : Nat := 7
def okAnchor : Nat := 8
def okSite : Nat := 9
def okKey : Nat := 10

/-- The site configuration as an object. -/
def siteObj : Nat × Nat := (okSite, 0)

/-! Origins of internal commits (R96) and the INTERRUPT codes. -/

def orgFlt : Nat := 0x80
def orgPos : Nat := 0x81
def orgSaf : Nat := 0x82
def orgLnk : Nat := 0x83
def orgSec : Nat := 0x84
def intNone : Nat := 0
def intReset : Nat := 1
def intStop : Nat := 2
def intClosed : Nat := 3
def intCsn : Nat := 4
def intQueue : Nat := 5
def intFailover : Nat := 6
def intMode : Nat := 7

/-! ### Time (R21, R23, R132, R135) -/

/-- FTU in one fleet cycle of nominal length (R21). -/
def ftuPerFc : Nat := 638976000

/-- FTU in one second of reported time. -/
def ftuPerSec : Nat := 63897600000

/-- The slew term of R132 at a counter value: ((c - ANCHOR) * RATE) asr 40. -/
def slew (g : TimeRegs) (c : Counter) : Int := (((c - g.anchor).toNat : Int) * g.rate) / (2 ^ 40 : Nat)

/-- reported(c) without its era (R132). -/
def time64 (g : TimeRegs) (c : Counter) : Counter := c + g.offset + BitVec.ofInt 64 (slew g c)

/-- The full reported time ERA x 2^64 + TIME64 at a counter value at or after the registers' boundary (R132, R135). -/
def fullTime (g : TimeRegs) (c : Counter) : Nat :=
  ((g.era * 2 ^ 64 + (time64 g g.boundary).toNat + (c - g.boundary).toNat : Nat) + (slew g c - slew g g.boundary)).toNat

/-- FC_NUMBER of a full reported time: nearest whole 10 ms, a tie rounded down (R23, R135). -/
def fcOfTime (t : Nat) : Nat := (t + (ftuPerFc / 2 - 1)) / ftuPerFc

/-- The full reported time of the boundary of the FC in progress. -/
def nowTime (s : State) : Nat := fullTime s.time.regs s.clk.boundary

/-- The counter value at a PCLK of the FC in progress. -/
def counterAt (s : State) (pclk : Nat) : Counter := s.clk.boundary + BitVec.ofNat 64 (512 * pclk)

/-- The full reported time at a PCLK of the FC in progress. -/
def timeAt (s : State) (pclk : Nat) : Nat := fullTime s.time.regs (counterAt s pclk)

/-- FC_NUMBER of the FC in progress. -/
def fcNow (s : State) : Nat := s.clk.fcNumber

/-- The reservation slot of the FC in progress (R28, R294). -/
def slotNow (s : State) : Nat := fcNow s / 5

/-- An 8-byte time field: TIME64 alone (R135). -/
def leTime (t : Nat) : Bytes := le 8 (t % 2 ^ 64)

/-- The ERA of a full time. -/
def eraOf (t : Nat) : Nat := t / 2 ^ 64 % 2 ^ 16

/-! ### Modes -/

/-- FOG with cause MRAM_FAULT: no commit is made and PERSIST does not run (R119). -/
def mramFog (s : State) : Bool := s.mode.cur == .fog && s.mode.fogCause == 0x0B

/-- Edtor runs in every mode but DOLDRUMS and STILL (R103). -/
def edtorRuns (s : State) : Bool := s.mode.cur != .doldrums && s.mode.cur != .still

/-- Firmware works in FCs: every mode but DOLDRUMS and STILL. -/
def running (s : State) : Bool := edtorRuns s

/-! ### Commits (R68, R72, R97) -/

/-- The key of an object in the OBJ_CSN table. -/
def objKey (kind idx : Nat) : Nat := kind * 2 ^ 32 + idx

/-- OBJ_CSN of an object (R72); 0 before its first change. -/
def objCsn (s : State) (kind idx : Nat) : Nat := tgetD s.p.control.objCsn (objKey kind idx) 0

/-- One commit on an object: the next CSN in serial order (R68). None is made in FOG with cause MRAM_FAULT (R119). -/
def commit (s : State) (kind idx : Nat) : State :=
  if mramFog s then s else
  { s with
    com.csn := s.com.nextCsn
    com.nextCsn := s.com.nextCsn + 1
    com.cmdCommits := s.com.cmdCommits + 1
    com.cmdLast := s.com.nextCsn
    p.control.objCsn := tput s.p.control.objCsn (objKey kind idx) s.com.nextCsn }

/-- One commit whose object set is several objects: each takes its CSN as OBJ_CSN (R72). -/
def commitAll (s : State) : List (Nat × Nat) → State
  | [] => s
  | o :: os =>
    if mramFog s then s else
    let t := commit s o.1 o.2
    { t with p.control.objCsn := os.foldl (fun c x => tput c (objKey x.1 x.2) t.com.csn) t.p.control.objCsn }

/-- The internal record of one origin in an FC, extended by one commit (R97). -/
def extendInternal (l : List InternalRec) (origin csn fc : Nat) : List InternalRec :=
  let mine (e : InternalRec) : Bool := e.origin == origin && e.fc == fc
  if l.any mine then l.map fun e => if mine e then { e with last := csn, count := e.count + 1 } else e
  else l ++ [{ origin := origin, first := csn, last := csn, count := 1, fc := fc }]

/-- One commit that no command causes, entered in its origin's internal record (R97). -/
def commitBy (s : State) (origin kind idx : Nat) : State :=
  if mramFog s then s else
  let t := commit s kind idx
  { t with
    com.cmdCommits := s.com.cmdCommits
    com.cmdLast := s.com.cmdLast
    com.internal := extendInternal s.com.internal origin t.com.csn (fcNow s) }

/-- One commit on several objects that no command causes; none on no object (R72, R97). -/
def commitAllBy (s : State) (origin : Nat) (objs : List (Nat × Nat)) : State :=
  if mramFog s || objs.isEmpty then s else
  let t := commitAll s objs
  { t with
    com.cmdCommits := s.com.cmdCommits
    com.cmdLast := s.com.cmdLast
    com.internal := extendInternal s.com.internal origin t.com.csn (fcNow s) }

/-- A commit submitted by a core other than the active FLT, made at the start of PLAN (R12, R97). -/
def submit (s : State) (origin kind idx : Nat) : State :=
  { s with com.submitted := s.com.submitted ++ [(origin, kind, idx)] }

/-! ### Free values -/

/-- The next free value: nothing constrains it; the counter moves on. -/
def freshNat (s : State) : Nat × State := (Config.freeNat s.freeCtr, { s with freeCtr := s.freeCtr + 1 })

/-- `n` free bytes. -/
def freshBytes (s : State) (n : Nat) : Bytes × State :=
  (le n (Config.freeNat s.freeCtr), { s with freeCtr := s.freeCtr + 1 })

/-! ### Events (R58, R67) -/

/-- Raise an event captured at a full reported time. -/
def raiseAt (s : State) (code : Nat) (aud : Audience) (t : Nat) (payload : Bytes) : State :=
  { s with com.events := s.com.events ++
      [{ code := code, aud := aud, csn := s.com.csn, time := t % 2 ^ 64, tag := none, payload := payload }] }

/-- Raise an event of the FC in progress. -/
def raise (s : State) (code : Nat) (aud : Audience) (payload : Bytes) : State :=
  raiseAt s code aud (nowTime s) payload

/-- Raise in the next FC an event that hardware captures at a full reported time in this one (R25): the boundary that latches
it gives it the CSN current then. -/
def raiseLater (s : State) (code : Nat) (aud : Audience) (t : Nat) (payload : Bytes) : State :=
  { s with com.later := s.com.later ++
      [{ code := code, aud := aud, csn := s.com.csn, time := t % 2 ^ 64, tag := none, payload := payload }] }

/-- Raise an event that a command causes: its own session's copy carries its TAG (R58). -/
def raiseBy (s : State) (r : Request) (code : Nat) (aud : Audience) (payload : Bytes) : State :=
  { s with com.events := s.com.events ++
      [{ code := code, aud := aud, csn := s.com.csn, time := nowTime s % 2 ^ 64, tag := some (r.sessionId, r.tag), payload := payload }] }

/-! ### Sessions -/

/-- The session in a slot. -/
def sessionAt (s : State) (slot : Nat) : Option Session :=
  match tget s.edtor.sessions slot with
  | some e => if e.sopen then some e else none
  | none => none

/-- The slots of the open sessions, in slot order. -/
def openSlots (s : State) : List Nat := (s.edtor.sessions.filter (·.2.sopen)).map (·.1)

/-- Change the session in a slot. -/
def modSession (s : State) (slot : Nat) (f : Session → Session) : State :=
  { s with edtor.sessions := s.edtor.sessions.map fun e => if e.1 = slot then (e.1, f e.2) else e }

/-- The session of a request while it is open. -/
def callerOf (s : State) (r : Request) : Option Session :=
  match sessionAt s r.slot with
  | some e => if e.id = r.sessionId then some e else none
  | none => none

/-- The role of the request's session. -/
def roleOf (s : State) (r : Request) : Role := ((callerOf s r).map (·.role)).getD .operator

/-- HOST_INDEX of the request's session, or OPEN_HOST of the open exchange. -/
def hostOf (s : State) (r : Request) : Nat :=
  if r.slot = 4 then (if r.openHost = 0xFF then 0xFF else r.openHost % 256) else ((callerOf s r).map (·.host)).getD 0

/-- SUPERVISOR or SERVICE. -/
def isSup : Role → Bool
  | .operator => false
  | _ => true

/-- SERVICE. -/
def isSvc : Role → Bool
  | .service => true
  | _ => false

/-! ### The journal (R96, R97, R99, R100) -/

/-- A record whose slot may be reused: FINAL, and ended at least 1,000 FCs ago (R99). -/
def reusable (s : State) (j : JournalRec) : Bool := j.final && decide (j.finalFc + 1000 ≤ fcNow s)

/-- Journal slots that can be used: free ones, and the oldest records that may be reused (R96, R99). -/
def usableSlots (s : State) : Nat :=
  (40960 - s.p.control.journal.length) + (s.p.control.journal.takeWhile (reusable s)).length

/-- The journal is all but full: no command executes (R99). -/
def journalFull (s : State) : Bool := decide (usableSlots s < 512)

/-- No command executes: in a step FC (R145), before the first PERSIST after a reset, or while the journal is all but full
(R99, R100); FOG with cause MRAM_FAULT keeps its records elsewhere (R119). -/
def held (s : State) : Bool := s.time.stepFc || (!mramFog s && (s.com.booting || journalFull s))

/-- Whether a record is that of a command. -/
def recIs (r : Request) (j : JournalRec) : Bool :=
  j.kind == 1 && j.sessionId == r.sessionId && j.tag == r.tag && j.seq == r.seq && j.opcode == r.opcode

/-- The latest record of a command: of this FC, else in the ring. -/
def findRec (s : State) (r : Request) : Option JournalRec :=
  match s.com.recs.find? (recIs r) with
  | some j => some j
  | none => s.p.control.journal.find? fun j => recIs r j && !j.final

/-- Replace a command's record in a list, or append it. -/
def upsertRec (l : List JournalRec) (r : Request) (j : JournalRec) : List JournalRec :=
  if l.any (recIs r) then l.map fun x => if recIs r x then j else x else l ++ [j]

/-- The record of a command as it stands after the commits it has just made; a FAILOVER stands until it ends (R100). -/
def recOf (s : State) (r : Request) (final : Bool) (intr status planned : Nat) : JournalRec :=
  let b := (findRec s r).getD
    { kind := 1, sessionId := r.sessionId, origin := hostOf s r, tag := r.tag, opcode := r.opcode, seq := r.seq,
      acceptCsn := r.accept, latchFc := r.latchFc }
  let done := b.done + s.com.cmdCommits
  { b with
    final := final
    interrupt := if intr = intNone && b.interrupt = intFailover then intFailover else intr
    done := done
    planned := if b.planned = 0 then max planned done else b.planned
    lastCsn := if s.com.cmdCommits = 0 then b.lastCsn else s.com.cmdLast
    finalFc := if final then fcNow s else 0
    status := if final then status else 0 }

/-- Enter a command's record among those this FC's PERSIST writes. -/
def record (s : State) (r : Request) (final : Bool) (intr status planned : Nat) : State :=
  { s with
    com.recs := upsertRec s.com.recs r (recOf s r final intr status planned)
    com.cmdCommits := 0 }

/-! ### Replies (R61, R63, R71) -/

def fFinal : Nat := 1
def fMore : Nat := 4
def fLost : Nat := 8
def fStopFilter : Nat := 0x20
def fTagValid : Nat := 0x40
def fRejected : Nat := 0x80

/-- The session and TAG an event carries that reports a commit of a request (R58). -/
def tagOf (s : State) (r : Request) : Option (Nat × Nat) := if (callerOf s r).isSome then some (r.sessionId, r.tag) else none

/-- Raise an event with the CSN of the commit it reports and the command that made the commit (R58, R67). -/
def raiseWith (s : State) (csn : Nat) (tag : Option (Nat × Nat)) (code : Nat) (aud : Audience) (payload : Bytes) : State :=
  { s with com.events := s.com.events ++
      [{ code := code, aud := aud, csn := csn, time := nowTime s % 2 ^ 64, tag := tag, payload := payload }] }

/-- A reply packet to a request. -/
def replyTo (r : Request) (flags csn status : Nat) (payload : Bytes) : Packet :=
  { slot := r.slot, sessionId := r.sessionId, port := r.port, addr := r.addr, udp := r.udp, kind := 2, seq := 0,
    tag := r.tag, opcode := r.opcode, flags := flags, csn := csn, status := status, openHost := r.openHost,
    payload := payload }

/-- Position of an execution status in the counters of R578, where it has one. -/
def exCounter (status : Nat) : Option Nat :=
  if status = stBadOpcode then some 6 else if status = stBadLength then some 7
  else if status = stBadReserved then some 8 else if status = stBadRole then some 9
  else if status = stBadMode then some 10 else none

/-- Count a violation of R79 for its port and its session: found in a packet captured, or at execution. -/
def countViol (s : State) (slot : Nat) (port : Port) (i : Nat) (executing : Bool) : State :=
  let up : Nat → Nat := fun x => sat 16 (x + 1)
  let s := modSession s slot fun e =>
    { e with
      viol := if executing then e.viol else lmod e.viol i up
      violDue := if executing then lmod e.violDue i up else e.violDue
      cnt := lmod e.cnt i inc32 }
  { s with edtor.ports := tmod s.edtor.ports (portCode port) {} fun c => { c with viol := lmod c.viol i inc32 } }

/-- Count the violation an execution status stands for (R79). -/
def countStatus (s : State) (r : Request) (status : Nat) : State :=
  match exCounter status with
  | some i => countViol s r.slot r.port i true
  | none => s

/-- Queue a reply for EMIT, while the session it goes to is open (R54) or the exchange is the open exchange. -/
def queueReply (s : State) (r : Request) (k : Packet) : State :=
  if r.slot = 4 || (callerOf s r).isSome then { s with com.replies := s.com.replies ++ [k] } else s

/-- CSN of a final reply: the command's last commit, else the snapshot CSN (R71). -/
def finalCsn (s : State) (r : Request) : Nat :=
  if s.com.cmdCommits != 0 then s.com.cmdLast
  else match findRec s r with
    | some j => if j.done = 0 then s.com.csn else j.lastCsn
    | none => s.com.csn

/-- End a command: its FINAL record, its violation count and its final reply (R60, R61, R71); an end that INTERRUPT names is
no violation (R79, R100). -/
def finishI (s : State) (r : Request) (intr status : Nat) (payload : Bytes) : State :=
  let csn := finalCsn s r
  let s := record s r true intr status 0
  let s := if intr = intNone then countStatus s r status else s
  queueReply s r (replyTo r fFinal csn status payload)

/-- End a command whose opcode the mode permits, but not what it asks for: ST_BAD_MODE without a violation (R79, R576). -/
def refuseMode (s : State) (r : Request) : State :=
  let s := record s r true intNone stBadMode 0
  queueReply s r (replyTo r fFinal s.com.csn stBadMode [])

/-- End a command that nothing has interrupted. -/
def finish (s : State) (r : Request) (status : Nat) (payload : Bytes) : State := finishI s r intNone status payload

/-- ST_ACCEPTED for a command that goes on: its LATCHED record and the non-final reply with the acceptance CSN (R61, R71). -/
def accept (s : State) (r : Request) (planned : Nat) (payload : Bytes) : State :=
  let s := record s r false intNone 0 planned
  queueReply s r (replyTo r 0 r.accept stAccepted payload)

/-- ST_DEFERRED (R61). -/
def deferred (s : State) (r : Request) (payload : Bytes) : State :=
  let s := record s r false intNone 0 0
  queueReply s r (replyTo r 0 r.accept stDeferred payload)

/-- FRAG_INDEX heads of a fragmented reply (R63). -/
def fragments : Nat → List Bytes → List Bytes
  | _, [] => []
  | i, b :: bs => (le 2 i ++ zb 2 ++ b) :: fragments (i + 1) bs

/-- Cut a byte string into pieces of `n`. -/
def chunksOf (n fuel : Nat) (p : Bytes) : List Bytes :=
  match fuel with
  | 0 => [p]
  | fuel + 1 => if p.length ≤ n then [p] else p.take n :: chunksOf n fuel (p.drop n)

/-- End a command whose result is sent as fragments over several packets, `perFc` of them in each FC (R63). -/
def finishFrags (s : State) (r : Request) (parts : List Bytes) (perFc : Nat) : State :=
  let s := record s r true intNone stOk 0
  modSession s r.slot fun e => { e with streams := e.streams ++
    [{ head := { replyTo r 0 s.com.csn stOk [] with multi := decide (1 < parts.length) }, frags := fragments 0 parts, perFc := perFc }] }

/-! ### The expected-CSN check (R73, R74) -/

/-- The first object of a set changed after E. -/
def changedSince (s : State) (e : Nat) (objs : List (Nat × Nat)) : Option (Nat × Nat) :=
  objs.find? fun o => decide (e < objCsn s o.1 o.2)

/-- The payload of ST_CSN_MISMATCH (R74). -/
def mismatchPayload (s : State) (o : Nat × Nat) : Bytes := le 2 o.1 ++ zb 2 ++ le 4 o.2 ++ le 8 (objCsn s o.1 o.2)

/-- Go on to the first commit only if no object of the set has changed since the expected CSN. -/
def checkCsn (s : State) (r : Request) (objs : List (Nat × Nat)) (k : State → State) : State :=
  match r.expect with
  | none => k s
  | some e =>
    match changedSince s e objs with
    | none => k s
    | some o => finishI s r intCsn stCsnMismatch (mismatchPayload s o)

/-! ### Keys (R481, R484) -/

/-- A key slot record; one never written is EMPTY with GEN 1. -/
def keySlot (s : State) (i : Nat) : KeySlot := tgetD s.bk.slots i {}

/-- The key a slot holds. -/
def keyOf (k : KeySlot) : Bytes := if k.cur then k.val1 else k.val0

/-- A valid SITE key is installed in slot 0. -/
def siteValid (s : State) : Bool := (keySlot s 0).valid

/-- The SITE key. -/
def siteKey (s : State) : Bytes := keyOf (keySlot s 0)

/-! ### Mode triggers (R107, R580) -/

/-- Latch an automatic trigger to be evaluated in COMMAND of the FC in progress, or of the next FC when COMMAND has begun. -/
def trigger (s : State) (t : Trigger) : State :=
  if s.clk.window == .latch || s.clk.window == .safe || s.clk.window == .solve then
    { s with mode.triggers := s.mode.triggers ++ [t] }
  else { s with mode.later := s.mode.later ++ [t] }

/-- Latch in the next FC a trigger captured by hardware during the FC in progress (R25). -/
def triggerLater (s : State) (t : Trigger) : State := { s with mode.later := s.mode.later ++ [t] }

end Sys2Proof.Machine
end

