-- ==== Sys2Proof/Machine/Operands.lean ====
section
/-! DEFINITION. The forms in which commands name what they act on: the mode sets and role conditions of R573, the order
of the execution checks (R576), and the common shape in which an opcode is executed. -/

namespace Sys2Proof.Machine

open Sys2Proof

/-! ### Mode sets (R573) -/

def mCfg : List Mode := [.tender, .calm, .zephyr, .watch]
def mNorm : List Mode := [.tender, .calm, .zephyr, .breeze, .drift, .lull, .squall, .watch]
def mRun : List Mode := [.calm, .zephyr, .breeze, .drift, .lull, .squall, .watch]
def mWork : List Mode := [.calm, .zephyr, .breeze, .drift, .watch]
def mUpd : List Mode := [.calm, .breeze, .drift, .lull, .squall]

/-- The opcodes FOG admits: identity, mode, reset, session, journal and read-only DIAG opcodes (R118). -/
def fogOpcodes : List Nat :=
  [0x0101, 0x0102, 0x0103, 0x0104, 0x0120, 0x0121, 0x0122, 0x0E01, 0x0E02, 0x0F01, 0x0F02, 0x0F03, 0x0F20]

/-- The mode in force is one of a list. -/
def inModes (s : State) (l : List Mode) : Bool := l.contains s.mode.cur

/-- EDT: every mode in which Edtor runs; in FOG only the opcodes R118 admits. -/
def edt (s : State) (opcode : Nat) : Bool :=
  edtorRuns s && (s.mode.cur != .fog || fogOpcodes.contains opcode)

/-- Modes of an opcode with a read form: EDT to read, a list to change. -/
def edtOr (s : State) (opcode : Nat) (read : Bool) (l : List Mode) : Bool :=
  if read then edt s opcode else inModes s l

/-! ### Roles (R48) -/

/-- The request's session is SUPERVISOR or SERVICE. -/
def supOk (s : State) (r : Request) : Bool := isSup (roleOf s r)

/-- The request's session is SERVICE. -/
def svcOk (s : State) (r : Request) : Bool := isSvc (roleOf s r)

/-! ### Texts -/

/-- A text field: at most 31 ASCII characters, zero-filled. -/
def textOk (b : Bytes) : Bool :=
  let chars := b.takeWhile (· != 0)
  decide (chars.length < b.length) && (b.drop chars.length).all (· == 0) && chars.all fun c => decide (c.toNat < 128)

/-- A NAME: ASCII, zero-filled. -/
def nameOk (b : Bytes) : Bool := textOk (b ++ [0])

/-! ### Execution (R32, R60, R576) -/

/-- A command executes only while its session is open and Edtor runs, and while nothing holds commands. -/
def live (s : State) (r : Request) : Bool := edtorRuns s && (callerOf s r).isSome && !held s

/-- A command that does not execute: one held for want of journal slots is counted in JRNL_HOLD (R99). -/
def carry (s : State) (r : Request) : State :=
  if edtorRuns s && (callerOf s r).isSome && !mramFog s && journalFull s then { s with edtor.jrnlHold := inc32 s.edtor.jrnlHold } else s

/-- Take a command from those latched and waiting, as it begins to execute. -/
def takeLatched (s : State) (r : Request) : State :=
  { s with edtor.latched := s.edtor.latched.erase r, com.cmdCommits := 0 }

/-- Execute an opcode: the checks of R576 in their order, then its body. -/
def runOp (s : State) (r : Request) (lenOk rsvOk roleOk modeOk : Bool) (body : State → State) : State :=
  if !live s r then carry s r else
  let s := takeLatched s r
  if !lenOk then finish s r stBadLength []
  else if !rsvOk then finish s r stBadReserved []
  else if !roleOk then finish s r stBadRole []
  else if !modeOk then finish s r stBadMode []
  else body s

/-- An opcode with an empty payload, any role and EDT modes that only reads: one final reply. -/
def readOp (s : State) (r : Request) (opcode : Nat) (reply : State → Bytes) : State :=
  runOp s r r.payload.isEmpty true true (edt s opcode) fun s => finish s r stOk (reply s)

/-- End with a status where a condition fails, else go on. -/
def need (c : Bool) (s : State) (r : Request) (status : Nat) (k : State → State) : State :=
  if c then k s else finish s r status []

/-- A one-commit change: the expected-CSN check, the commit on its object, the change, and the final reply. -/
def change1 (s : State) (r : Request) (obj : Nat × Nat) (f : State → State) (reply : State → Bytes) : State :=
  checkCsn s r [obj] fun s =>
    let s := f (commit s obj.1 obj.2)
    finish s r stOk (reply s)

/-- A one-commit change of several objects. -/
def changeAll (s : State) (r : Request) (objs : List (Nat × Nat)) (f : State → State) (status : Nat) (reply : State → Bytes) : State :=
  checkCsn s r objs fun s =>
    let s := f (commitAll s objs)
    finish s r status (reply s)

/-- Fix a selector byte at the head of a request's payload, for a row that stands for one form of an opcode. -/
def withHead (r : Request) (b : Nat) : Request := { r with payload := r.payload.set 0 (BitVec.ofNat 8 b) }

end Sys2Proof.Machine
end

