-- ==== Sys2Proof/Machine/Flags.lean ====
section
/-! DEFINITION. The flag words the device computes from its state: the vote and its causes as firmware reports them, the
condition word (R111), the NOT_READY bits (R126), and the conditions of the mode rows (R109, R110, R120). -/

namespace Sys2Proof.Machine

open Sys2Proof

/-! ### Windows (R24, R145) -/

/-- PLAN begins at 624,000, or with 249,600 PCLK left in a short step FC (R145). -/
def planStart (s : State) : Nat := min 624000 (s.clk.fcLen - 249600)

/-- First PCLK of a window of the FC in progress (R24, R145). -/
def windowStart (s : State) : Window → Nat
  | .latch => 0
  | .safe => 62400
  | .solve => 124800
  | .command => min 374400 (planStart s)
  | .plan => planStart s
  | .emit => s.clk.fcLen - 249600
  | .persist => s.clk.fcLen - 124800
  | .guard => s.clk.fcLen - 62400

/-- The reported time of a commit made now: that at which its window begins. -/
def commitTime (s : State) : Nat := timeAt s (windowStart s s.clk.window)

/-! ### The safety channels as reported -/

/-- Channels voting. -/
def votingCount (s : State) : Nat := (s.stop.chans.filter (·.state == .voting)).length

/-- The site stop sources active in any voting channel; bit 9 while fewer than two vote (R361). -/
def causesActive (s : State) : BitVec 13 :=
  (s.stop.chans.filter (·.state == .voting)).foldl (fun a c => a ||| c.active) 0
    ||| (if votingCount s < 2 then 0x200#13 else 0)

/-- The site stop sources latched in any voting channel. -/
def causesLatched (s : State) : BitVec 13 :=
  (s.stop.chans.filter (·.state == .voting)).foldl (fun a c => a ||| c.latched) 0

/-- ROBOT_STOP as the voting channels hold it. -/
def robotStops (s : State) : BitVec 256 :=
  (s.stop.chans.filter (·.state == .voting)).foldl (fun a c => a ||| c.robotStop) 0

/-- SAF_TWO_OF_TWO: exactly two channels vote because of a planned self-test or an update (R367). -/
def twoOfTwo (s : State) : Bool := votingCount s == 2 && s.stop.chans.any fun c => c.state != .voting && c.planned

/-! ### Anchors -/

/-- The link numbers B0-B9. -/
def links : List Nat := List.range 10

/-- A SURVEYED anchor context. -/
def surveyed (s : State) (link : Nat) : Bool := (tgetD s.buoy.ctx link {}).surveyed

/-- An anchor context that is IN_SYNC. -/
def inSync (s : State) (link : Nat) : Bool := (tgetD s.buoy.anchors link {}).state == .inSync

/-- SURVEYED contexts that are IN_SYNC (R226). -/
def goodAnchors (s : State) : Nat := (links.filter fun l => surveyed s l && inSync s l).length

/-! ### The condition word (R111) -/

/-- HOLDOVER: every time state but LOCKED (R137), once reported time runs; clear before (R111). -/
def holdover (s : State) : Bool := s.clk.running && s.time.state != .locked

/-- FLT_STANDBY_NOT_READY. -/
def standbyNotReady (s : State) : Bool := !s.cores.standbyReady

/-- REDUNDANCY_DEGRADED. -/
def degraded (s : State) : Bool := decide (votingCount s < 3) || standbyNotReady s || s.ref.spareLost

/-- The condition word. -/
def condition (s : State) : Nat :=
  flag s.bk.latched 15 + flag s.p.upd.dual 14 + flag s.supply.battery 13 + flag s.supply.lastLow 12
  + flag s.clk.ovenWarming 11 + flag (holdover s) 10 + flag s.ref.antB 9 + flag s.ref.spareLost 8
  + flag (links.any fun l => surveyed s l && !inSync s l) 7 + flag (standbyNotReady s) 6
  + flag (twoOfTwo s) 5 + flag s.ports.svcLatched 4 + 4 * votingCount s + flag (degraded s) 0

/-! ### FOG (R118) -/

/-- A cause FOG is entered with still holds. -/
def fogHoldsFor (s : State) (cause : Nat) : Bool :=
  if cause = 0x0B then true
  else if cause = 0x08 then (openSlots s).isEmpty
  else if cause = 0x06 then !s.ref.corrValid && goodAnchors s == 0
  else false

/-- The cause FOG was entered with still holds. -/
def fogHolds (s : State) : Bool := fogHoldsFor s s.mode.fogCause

/-! ### NOT_READY (R126) -/

/-- Enrolled hosts with ceiling SUPERVISOR or SERVICE. -/
def supHosts (s : State) : List Nat :=
  (s.p.control.hosts.filter fun h => h.2.enrolled && isSup h.2.ceiling).map (·.1)

/-- A base position is fixed: BASE_STATE SURVEYED or ENTERED (R197). -/
def baseFixed (s : State) : Bool := s.p.refFrame.base == 2 || s.p.refFrame.base == 3

/-- The reservation grid is configured. -/
def gridSet (s : State) : Bool := s.p.grid.cellMm != 0

/-- The preconditions of BREEZE or DRIFT not met, bits 0-6. -/
def notReadyGo (s : State) : Nat :=
  bitsOf [!siteValid s, !s.p.refFrame.frameSet, !gridSet s, !(baseFixed s || decide (4 ≤ goodAnchors s)),
    causesActive s != 0, decide (votingCount s < 2), !(s.p.classes.any fun c => bit c.2.flags 0)]

/-- NOT_READY as SYS_MODE_GET reports it: bits 0-6, and bit 7 while a FOG cause holds. -/
def notReady (s : State) : Nat := notReadyGo s + flag (s.mode.cur == .fog && fogHolds s) 7

/-- NOT_READY of SYS_TENDER_CLOSE: bits 0-2 and 8 (R131). -/
def notReadyTender (s : State) : Nat :=
  bitsOf [!siteValid s, !s.p.refFrame.frameSet, !gridSet s] + flag (supHosts s).isEmpty 8

/-! ### Conditions of the mode rows -/

/-- LULL's condition: the supply is LOW or the battery input is active (R120). -/
def lullCond (s : State) : Bool := s.supply.low || s.supply.battery

/-- SQUALL's condition: a site stop stands, so the vote is STOP. -/
def squallCond (s : State) : Bool := !s.stop.voted

/-- The references decide between BREEZE and DRIFT (R110). -/
def refMode (s : State) : Mode := if holdover s || !s.ref.corrValid then .drift else .breeze

/-- A held mode (R106). -/
def isHeld : Mode → Bool
  | .calm | .zephyr | .breeze | .drift | .watch => true
  | _ => false

/-- A mode entered over a held mode (R106). -/
def isOver : Mode → Bool
  | .squall | .lull | .veer | .fog => true
  | _ => false

/-- BREEZE or DRIFT. -/
def isGo : Mode → Bool
  | .breeze | .drift => true
  | _ => false

/-- RETURN_MODE after a change from one mode to another (R106). -/
def retFor (s : State) (target : Mode) : Option Mode :=
  if isOver target then (if isHeld s.mode.cur then some s.mode.cur else s.mode.ret) else none

/-- The mode entered on leaving SQUALL, LULL, VEER or FOG (R109). -/
def exitMode (s : State) : Mode :=
  if mramFog s then .fog
  else if decide (100 * s.supply.cfg.hostLossS ≤ s.mode.noSessionFc) && (s.mode.ret == some .breeze || s.mode.ret == some .drift) then .fog
  else if squallCond s then .squall
  else if lullCond s then .lull
  else match s.mode.ret with
    | some .breeze => refMode s
    | some .drift => refMode s
    | some .zephyr => if s.mode.intervened then .calm else .zephyr
    | some .watch => if s.mode.intervened then .calm else .watch
    | some m => m
    | none => .calm

/-- Precedence of R107: a smaller number is entered first. -/
def rank : Mode → Nat
  | .doldrums => 0 | .still => 1 | .fog => 2 | .squall => 3 | .lull => 4 | .veer => 5 | _ => 6

/-- Go is permitted to beacons: BREEZE, DRIFT, or VEER held from one of them (R104). -/
def goPermitted (s : State) : Bool :=
  isGo s.mode.cur || (s.mode.cur == .veer && ((s.mode.ret.map isGo).getD false))

/-- A motion mode or one held from it: BREEZE, DRIFT, or over one of them. -/
def goHeld (s : State) : Bool := isGo s.mode.cur || ((s.mode.ret.map isGo).getD false)

/-! ### Cores away (R394, R517, R518) -/

/-- ACT_FC. -/
def actFc (s : State) : Nat := (s.upd.act.map (·.a)).getD 0

/-- A core is being reloaded. -/
def reloading (s : State) (core : Nat) : Bool := s.cores.reload.any fun e => e.1 == core

/-- LNK works through FC a of an activation and is away from the next (R517). -/
def lnkAway (s : State) : Bool := reloading s 6 && !(s.upd.state == 5 && actFc s == fcNow s)

/-- POS is away. -/
def posAway (s : State) : Bool := reloading s 5

/-- The freeze of an activation (R517, R518). -/
def freeze (s : State) : Bool := s.upd.state == 5

/-- The mode whose fleet service runs: VEER serves what the mode it holds serves (R103). -/
def fleetMode (s : State) : Mode := if s.mode.cur == .veer then s.mode.ret.getD .veer else s.mode.cur

/-- No position is checked in the FC: the freeze of an activation, or VEER with POS away (R103, R350). -/
def posFrozen (s : State) : Bool := freeze s || (s.mode.cur == .veer && posAway s)

/-- The FC's work of the failed FLT is not done: it is left to the new active core in the next FC (R394). -/
def fltAway (s : State) : Bool := s.cores.nextActive.isSome

end Sys2Proof.Machine
end

