-- ==== Sys2Proof/Machine/Air.lean ====
section
/-! DEFINITION. Queuing Haene application messages for the downlink (R419, R422), shared by every part that sends to
robots. -/

namespace Sys2Proof.Machine

open Sys2Proof

/-- Queue a message of a class, to one robot or to every robot. -/
def queueMsg (s : State) (cls : Nat) (session : Option Nat) (body : Bytes) : State :=
  { s with radio.elements := s.radio.elements ++
      [{ cls := cls, session := session, kind := if session.isSome then 1 else 2, body := body, fc := fcNow s,
         commitFc := fcNow s, leftA := if cls = 1 then 3 else 1, leftB := if cls = 1 then 3 else 1, isFix := cls == 4 }] }

/-- Queue a message under a robot's link key, named by its EUI-64. -/
def queueLinkMsg (s : State) (session : Nat) (eui : BitVec 64) (body : Bytes) : State :=
  { s with radio.elements := s.radio.elements ++
      [{ cls := 3, session := some session, kind := 3, eui := eui, body := body, fc := fcNow s, commitFc := fcNow s }] }

/-- Split a message into fragments of at most `n` bytes, each after its 4-byte header (R212). -/
def airFragments (seq n : Nat) (p : Bytes) : List Bytes :=
  let parts := chunksOf n p.length p
  (List.range parts.length).map fun i =>
    let b := parts.getD i []
    le 1 seq ++ le 1 (16 * i + (parts.length - 1)) ++ le 2 b.length ++ b

/-- Queue a message to every robot as fragments, with the next MSG_SEQ (R212). -/
def queueFragments (s : State) (corr : Bool) (p : Bytes) : State :=
  let frags := airFragments s.ref.msgSeq s.p.refCfg.fragBytes p
  { s with
    ref.msgSeq := (s.ref.msgSeq + 1) % 256
    radio.elements := s.radio.elements ++ frags.map fun b =>
      { cls := 5, session := none, kind := 2, body := b, frag := true, fc := fcNow s, commitFc := fcNow s, isCorr := corr } }

/-- A frame has been sent on a link: its capture value enters the transmit completion table (R154). -/
def noteSent (s : State) (link : Nat) (capture : Counter) : State :=
  { s with time.completions := tmod s.time.completions link [] fun l => (capture.toNat :: l).take 256 }

end Sys2Proof.Machine
end

