-- ==== Sys2Proof/Machine/Modes.lean ====
section
/-! DEFINITION. The mode machine: choosing among latched triggers (R107), recording a change for the next boundary
(R30, R106) and making it there. -/

namespace Sys2Proof.Machine

open Sys2Proof

/-- A firmware stop request of site scope: a CAUSE bit, registered in every channel at the next window (R365). -/
def requestStop (s : State) (bit : Nat) : State :=
  { s with stop.requests := s.stop.requests ++ [(none, bit, 0)] }

/-- A firmware stop request of robot scope with the CAUSE its event reports (R362, R365). -/
def requestRobotStop (s : State) (session cause : Nat) : State :=
  { s with stop.requests := s.stop.requests ++ [(some session, 0, cause)] }

/-- Record a mode change that takes effect at the next boundary; entering FOG sends the internal-fault stop request (R110). -/
def decideMode (s : State) (target : Mode) (cause : Nat) (csn : Option Nat) (tag : Option (Nat × Nat)) : State :=
  let entering := target == .fog && s.mode.cur != .fog && (s.mode.next.map (·.target)) != some .fog
  let s := { s with mode.next := some { target := target, cause := cause, ret := retFor s target, csn := csn, tag := tag } }
  if entering then requestStop { s with stop.internalCause := true } 6 else s

/-- The modes a stop vote takes to SQUALL (R110). -/
def toSquall : List Mode := [.calm, .zephyr, .breeze, .drift, .watch, .lull, .veer]

/-- The modes a low supply takes to LULL (R110). -/
def toLull : List Mode := [.calm, .zephyr, .breeze, .drift, .watch, .veer]

/-- The way out of SQUALL, LULL or VEER (R109): FOG is entered for the loss of the hosts, any other mode for the trigger. -/
def exitTo (s : State) (cause : Nat) : Mode × Nat := (exitMode s, if exitMode s == .fog then 0x08 else cause)

/-- The mode change a latched trigger asks for in the mode in force, with its ENTRY_CAUSE (R110, R113). DESIGN CHOICE: R113 names
no ENTRY_CAUSE for a mode entered when VEER is left; it repeats the cause VEER was entered with. -/
def triggerTarget (s : State) : Trigger → Option (Mode × Nat)
  | .mramFault => if mramFog s || s.mode.cur == .still || s.mode.cur == .doldrums then none else some (.fog, 0x0B)
  | .hostLoss => if inModes s [.breeze, .drift, .squall] then some (.fog, 0x08) else none
  | .noPosition => if inModes s [.breeze, .drift] then some (.fog, 0x06) else none
  | .stopVote => if inModes s toSquall && squallCond s then some (.squall, 0x03) else none
  | .beaconLoss => if inModes s toSquall then some (.squall, 0x0C) else none
  | .release => if inModes s [.squall] && !squallCond s then some (exitTo s 0x04) else none
  | .lull => if inModes s toLull && lullCond s then some (.lull, 0x05) else none
  | .lullOver => if inModes s [.lull] && !lullCond s then some (exitTo s 0x05) else none
  | .referenceLost => if inModes s [.breeze] then some (.drift, 0x06) else none
  | .referenceBack => if inModes s [.drift] then some (.breeze, 0x07) else none
  | .coreReload _ => if isHeld s.mode.cur then some (.veer, 0x0A) else none
  | .activation => if isGo s.mode.cur then some (.veer, 0x09) else none
  | .veerOver => if inModes s [.veer] then some (exitTo s s.mode.cause) else none

/-- The triggers evaluated: those latched, and LULL's condition as a level (R110, R120, R121). -/
def triggersNow (s : State) : List Trigger :=
  s.mode.triggers ++ (if lullCond s then [.lull] else [.lullOver])

/-- The candidate entered: the first of the highest precedence (R107). -/
def bestOf : List (Mode × Nat) → Option (Mode × Nat)
  | [] => none
  | c :: cs =>
    match bestOf cs with
    | none => some c
    | some d => if rank d.1 < rank c.1 then some d else some c

/-- Evaluate the automatic triggers at the first PCLK of COMMAND (R107). -/
def evaluateTriggers (s : State) : State :=
  let best := bestOf ((triggersNow s).filterMap (triggerTarget s))
  let s := { s with mode.triggers := [] }
  match best with
  | none => s
  | some (m, c) => if m == s.mode.cur && !(m == .fog && c != s.mode.fogCause) then s else decideMode s m c none none

/-- The mode selected so far in the FC: the one SYS_MODE_SET is judged against (R107). -/
def modeSelected (s : State) : Mode := (s.mode.next.map (·.target)).getD s.mode.cur

/-- The modes whose first FC halts every robot in motion (R350). -/
def quietModes : List Mode := [.squall, .lull, .calm, .fog]

/-- Make the recorded mode change at the boundary that opens FC `fc` (R30, R106, R109); in FOG with cause MRAM_FAULT every
packet carries the last CSN persisted (R119). -/
def applyMode (s : State) (fc : Nat) : State :=
  match s.mode.next with
  | none => s
  | some c =>
    if c.target == s.mode.cur && !(c.target == .fog && c.cause != s.mode.fogCause) then { s with mode.next := none } else
    { s with
      mode.cur := c.target
      mode.ret := c.ret
      mode.cause := c.cause
      mode.fogCause := if c.target == .fog then c.cause else s.mode.fogCause
      mode.entryFc := fc
      allot.haltsDue := s.allot.haltsDue || quietModes.contains c.target
      com.csn := if c.target == .fog && c.cause == 0x0B then s.nv.control.lastCsn else s.com.csn
      mode.intervened :=
        c.ret.isSome && (s.mode.intervened || c.target == .lull || c.target == .fog)
      mode.next := none }

/-- Payload of EV_MODE_CHANGE after the preamble (R113). -/
def modeChangePayload (s : State) (c : ModeChange) (effect : Nat) : Bytes :=
  le 1 (modeCode c.target) ++ le 1 (modeCode s.mode.cur) ++ le 1 c.cause
    ++ le 1 ((c.ret.map modeCode).getD 0xFF) ++ le 4 (condition s) ++ le 8 effect

end Sys2Proof.Machine
end

