-- ==== Sys2Proof/Machine/Fit.lean ====
section
/-! DEFINITION. Exact linear algebra over rationals for the least-squares fits the spec names (R230), and square roots of
whole numbers. -/

namespace Sys2Proof.Machine

open Sys2Proof

/-- Take a pivot out of a row. -/
def clearCol (c : Nat) (pivot row : List Rat) : List Rat :=
  let k := row.getD c 0
  if k = 0 then row else List.zipWith (fun a b => a - k * b) row pivot

/-- Gauss-Jordan elimination on augmented rows, one column after another from `c`: the pivot columns with their rows. -/
def eliminate : Nat → Nat → List (Nat × List Rat) → List (List Rat) → List (Nat × List Rat)
  | 0, _, done, _ => done
  | n + 1, c, done, rows =>
    match rows.find? fun r => r.getD c 0 != 0 with
    | none => eliminate n (c + 1) done rows
    | some r =>
      let p := r.map fun a => a / r.getD c 0
      eliminate n (c + 1) ((done.map fun e => (e.1, clearCol c p e.2)) ++ [(c, p)]) ((rows.erase r).map (clearCol c p))

/-- The solution of `n` unknowns; an unknown the rows leave open takes its value from `free`. -/
def solveRows (n : Nat) (rows : List (List Rat)) (free : Nat → Rat) : List Rat :=
  let done := eliminate n 0 [] rows
  let isPivot (c : Nat) : Bool := done.any (·.1 == c)
  (List.range n).map fun c =>
    match done.find? (·.1 == c) with
    | none => free c
    | some e => e.2.getD n 0 - (((List.range n).filter fun j => !isPivot j).map fun j => e.2.getD j 0 * free j).sum

/-- The normal equations of weighted-equal observations, each coefficients and value. -/
def normalRows (n : Nat) (obs : List (List Rat × Rat)) : List (List Rat) :=
  (List.range n).map fun i =>
    ((List.range n).map fun j => (obs.map fun o => o.1.getD i 0 * o.1.getD j 0).sum)
      ++ [(obs.map fun o => o.1.getD i 0 * o.2).sum]

/-- The least-squares solution of observations, with side conditions that hold exactly among what the observations leave open. -/
def leastSquares (n : Nat) (obs : List (List Rat × Rat)) (side : List (List Rat × Rat)) (free : Nat → Rat) : List Rat :=
  solveRows n (normalRows n obs ++ side.map fun o => o.1 ++ [o.2]) free

/-- Division rounded to nearest, a tie away from zero. -/
def rdiv (a : Int) (b : Nat) : Int :=
  let q : Nat := (2 * a.natAbs + b) / (2 * b)
  if a < 0 then -(q : Int) else q

/-- The nearest whole number, half away from 0. -/
def roundRat (x : Rat) : Int :=
  if 0 ≤ x then (2 * x.num + x.den) / (2 * x.den) else -((2 * -x.num + x.den) / (2 * x.den))

/-- The least number whose square is at least `x`. -/
def sqrtUp (x : Nat) : Nat := if Nat.sqrt x ^ 2 = x then Nat.sqrt x else Nat.sqrt x + 1

end Sys2Proof.Machine
end

