-- ==== Sys2Proof/Machine/Crypto.lean ====
section
/-! DEFINITION. The key derivation of R480 with the hash it names: SHA-256 and HMAC-SHA-256, computed exactly. -/

namespace Sys2Proof.Machine

open Sys2Proof

/-- The initial hash value of SHA-256. -/
def shaInit : List (BitVec 32) :=
  [0x6a09e667#32, 0xbb67ae85#32, 0x3c6ef372#32, 0xa54ff53a#32, 0x510e527f#32, 0x9b05688c#32,
   0x1f83d9ab#32, 0x5be0cd19#32]

/-- The round constants of SHA-256. -/
def shaK : List (BitVec 32) :=
  [0x428a2f98#32, 0x71374491#32, 0xb5c0fbcf#32, 0xe9b5dba5#32, 0x3956c25b#32, 0x59f111f1#32,
   0x923f82a4#32, 0xab1c5ed5#32, 0xd807aa98#32, 0x12835b01#32, 0x243185be#32, 0x550c7dc3#32,
   0x72be5d74#32, 0x80deb1fe#32, 0x9bdc06a7#32, 0xc19bf174#32, 0xe49b69c1#32, 0xefbe4786#32,
   0x0fc19dc6#32, 0x240ca1cc#32, 0x2de92c6f#32, 0x4a7484aa#32, 0x5cb0a9dc#32, 0x76f988da#32,
   0x983e5152#32, 0xa831c66d#32, 0xb00327c8#32, 0xbf597fc7#32, 0xc6e00bf3#32, 0xd5a79147#32,
   0x06ca6351#32, 0x14292967#32, 0x27b70a85#32, 0x2e1b2138#32, 0x4d2c6dfc#32, 0x53380d13#32,
   0x650a7354#32, 0x766a0abb#32, 0x81c2c92e#32, 0x92722c85#32, 0xa2bfe8a1#32, 0xa81a664b#32,
   0xc24b8b70#32, 0xc76c51a3#32, 0xd192e819#32, 0xd6990624#32, 0xf40e3585#32, 0x106aa070#32,
   0x19a4c116#32, 0x1e376c08#32, 0x2748774c#32, 0x34b0bcb5#32, 0x391c0cb3#32, 0x4ed8aa4a#32,
   0x5b9cca4f#32, 0x682e6ff3#32, 0x748f82ee#32, 0x78a5636f#32, 0x84c87814#32, 0x8cc70208#32,
   0x90befffa#32, 0xa4506ceb#32, 0xbef9a3f7#32, 0xc67178f2#32]

/-- A big-endian word of four bytes. -/
def beWord (p : Bytes) : BitVec 32 := BitVec.ofNat 32 (p.foldl (fun a b => a * 256 + b.toNat) 0)

/-- The `n` low bytes of `x`, most significant first. -/
def be (n x : Nat) : Bytes := (le n x).reverse

/-- The words of a 64-byte block. -/
def blockWords : Nat → Bytes → List (BitVec 32)
  | 0, _ => []
  | n + 1, p => beWord (p.take 4) :: blockWords n (p.drop 4)

def shaS0 (x : BitVec 32) : BitVec 32 := x.rotateRight 7 ^^^ x.rotateRight 18 ^^^ (x >>> (3 : Nat))
def shaS1 (x : BitVec 32) : BitVec 32 := x.rotateRight 17 ^^^ x.rotateRight 19 ^^^ (x >>> (10 : Nat))
def shaB0 (x : BitVec 32) : BitVec 32 := x.rotateRight 2 ^^^ x.rotateRight 13 ^^^ x.rotateRight 22
def shaB1 (x : BitVec 32) : BitVec 32 := x.rotateRight 6 ^^^ x.rotateRight 11 ^^^ x.rotateRight 25

/-- The message schedule: the window of the last 16 words, oldest first, moves on one word a round. -/
def shaNext (w : List (BitVec 32)) : BitVec 32 :=
  shaS1 (w.getD 14 0) + w.getD 9 0 + shaS0 (w.getD 1 0) + w.getD 0 0

/-- One round on the eight working words. -/
def shaRound (v : List (BitVec 32)) (k w : BitVec 32) : List (BitVec 32) :=
  match v with
  | [a, b, c, d, e, f, g, h] =>
    let t1 := h + shaB1 e + ((e &&& f) ^^^ (~~~e &&& g)) + k + w
    let t2 := shaB0 a + ((a &&& b) ^^^ (a &&& c) ^^^ (b &&& c))
    [t1 + t2, a, b, c, d + t1, e, f, g]
  | _ => v

/-- The rounds of one block. -/
def shaRounds : List (BitVec 32) → List (BitVec 32) → List (BitVec 32) → List (BitVec 32)
  | [], _, v => v
  | k :: ks, w, v => shaRounds ks (w.drop 1 ++ [shaNext w]) (shaRound v k (w.getD 0 0))

/-- All blocks. -/
def shaBlocks : Nat → Bytes → List (BitVec 32) → List (BitVec 32)
  | 0, _, h => h
  | n + 1, p, h => shaBlocks n (p.drop 64) (List.zipWith (· + ·) h (shaRounds shaK (blockWords 16 p) h))

/-- SHA-256. -/
def sha256 (p : Bytes) : Bytes :=
  let padded := p ++ [0x80#8] ++ zb ((119 - p.length % 64) % 64) ++ be 8 (8 * p.length)
  (shaBlocks (padded.length / 64) padded shaInit).flatMap fun w => be 4 w.toNat

/-- HMAC-SHA-256. -/
def hmac256 (key msg : Bytes) : Bytes :=
  let k := fit 64 (if 64 < key.length then sha256 key else key)
  sha256 (k.map (· ^^^ 0x5c#8) ++ sha256 (k.map (· ^^^ 0x36#8) ++ msg))

/-- The blocks of the counter-mode KDF. -/
def kdfBlocks (parent label context : Bytes) (bits : Nat) : Nat → Nat → Bytes
  | 0, _ => []
  | n + 1, i => hmac256 parent (be 4 i ++ label ++ [0] ++ context ++ be 4 bits) ++ kdfBlocks parent label context bits n (i + 1)

/-- kdf of R480. -/
def kdf (parent label context : Bytes) (bytes : Nat) : Bytes :=
  (kdfBlocks parent label context (8 * bytes) (cdiv bytes 32) 1).take bytes

/-- An ASCII label. -/
def ascii (t : String) : Bytes := t.toList.map fun c => BitVec.ofNat 8 c.toNat

/-! ### The keys of R481 -/

/-- A generation one higher, wrapping from 0xFFFF to 1 (R484). -/
def nextGen (g : Nat) : Nat := if g = 0xFFFF then 1 else g + 1

/-- A derived key enters its cache entry under the GEN of its parent (R487). -/
def cacheKey (s : State) (entry gen : Nat) : State := { s with bk.tags := tput s.bk.tags entry gen }

/-- PROVISION_KEY. -/
def provisionKey (s : State) : Bytes := kdf s.fuse.secret (ascii "RD PROVISION") (le 8 s.fuse.eui64.toNat) 32

/-- HOST_KEY of a host index under its generation, or of the provisioning host. -/
def hostKey (s : State) (host : Nat) : Bytes :=
  if host = 0xFF then provisionKey s
  else kdf (siteKey s) (ascii "EDTOR HOST") (le 1 host ++ le 2 (tgetD s.p.keys.hostGen host 0)) 32

/-- A session key. -/
def sessionKey (s : State) (host : Nat) (hostNonce deviceNonce : Bytes) (id : Nat) : Bytes :=
  kdf (hostKey s host) (ascii "EDTOR SESSION") (hostNonce ++ deviceNonce ++ le 2 id) 32

/-- The link slot that overrides a robot's link key, if any (R484). -/
def linkSlotOf (s : State) (eui : BitVec 64) : Option Nat :=
  (s.bk.slots.find? fun e => e.2.kind == 3 && e.2.valid && e.2.binding == eui).map (·.1)

/-- LINK_KEY of a robot. -/
def linkKey (s : State) (eui : BitVec 64) : Bytes :=
  match linkSlotOf s eui with
  | some i => (keyOf (keySlot s i)).take 16
  | none => kdf (siteKey s) (ascii "HAENE LINK") (le 8 eui.toNat) 16

/-- The GEN of the parent of a robot's LINK_KEY (R487). -/
def linkGen (s : State) (eui : BitVec 64) : Nat := (keySlot s ((linkSlotOf s eui).getD 0)).gen

/-- ASSOC_UP and ASSOC_DOWN of an association (R481). -/
def assocKeys (s : State) (eui : BitVec 64) (robotNonce deviceNonce : Bytes) (addr : Nat) : Bytes :=
  kdf (linkKey s eui) (ascii "HAENE UP") (robotNonce ++ deviceNonce ++ le 2 addr) 16 ++
  kdf (linkKey s eui) (ascii "HAENE DOWN") (robotNonce ++ deviceNonce ++ le 2 addr) 16

/-- A generation as it is in an FC: a pending roll applies from EFFECT_FC on (R490). Bit 0 GROUP, bit 1 BEACON. -/
def genAt (s : State) (which gen fc : Nat) : Nat :=
  match s.p.keys.roll with
  | some (what, e) => if bit what which && decide (e ≤ fc) then nextGen gen else gen
  | none => gen

/-- GROUP_GEN of an FC. -/
def groupGenAt (s : State) (fc : Nat) : Nat := genAt s 0 s.p.keys.groupGen fc

/-- BEACON_GEN of an FC. -/
def beaconGenAt (s : State) (fc : Nat) : Nat := genAt s 1 s.p.keys.beaconGen fc

/-- GROUP_KEY of a generation. -/
def groupKey (s : State) (gen : Nat) : Bytes := kdf (siteKey s) (ascii "HAENE GROUP") (le 2 gen) 16

/-- BEACON_KEY of a channel and a generation. -/
def beaconKey (s : State) (c gen : Nat) : Bytes := kdf (siteKey s) (ascii "HAENE BEACON") (le 1 c ++ le 2 gen) 32

/-- ANCHOR_LINK of a link, its anchor and the BCTR of the accepted HELLO. -/
def anchorLinkKey (s : State) (link : Nat) (eui : BitVec 64) (ctr : Nat) : Bytes :=
  kdf ((keyOf (keySlot s (link + 1))).take 16) (ascii "BUOY LINK") (le 8 eui.toNat ++ le 4 ctr) 16

end Sys2Proof.Machine
end

