-- ==== Sys2Proof/Machine/Ecc.lean ====
section
/-! DEFINITION. SHA-384 (FIPS 180-4), the curves P-256 and P-384 with ECDSA, deterministic nonces as RFC 6979 forms them, and the
attestation key of R482, all computed exactly. Numbers are natural numbers below the modulus; a point is in Jacobian
coordinates, the point at infinity with Z = 0. -/

namespace Sys2Proof.Machine

open Sys2Proof

/-! ### SHA-384 -/

/-- The initial hash value of SHA-384. -/
def sha384Init : List (BitVec 64) :=
  [0xcbbb9d5dc1059ed8#64, 0x629a292a367cd507#64, 0x9159015a3070dd17#64, 0x152fecd8f70e5939#64,
   0x67332667ffc00b31#64, 0x8eb44a8768581511#64, 0xdb0c2e0d64f98fa7#64, 0x47b5481dbefa4fa4#64]

/-- The round constants of SHA-384. -/
def sha384K : List (BitVec 64) :=
  [0x428a2f98d728ae22#64, 0x7137449123ef65cd#64, 0xb5c0fbcfec4d3b2f#64, 0xe9b5dba58189dbbc#64,
   0x3956c25bf348b538#64, 0x59f111f1b605d019#64, 0x923f82a4af194f9b#64, 0xab1c5ed5da6d8118#64,
   0xd807aa98a3030242#64, 0x12835b0145706fbe#64, 0x243185be4ee4b28c#64, 0x550c7dc3d5ffb4e2#64,
   0x72be5d74f27b896f#64, 0x80deb1fe3b1696b1#64, 0x9bdc06a725c71235#64, 0xc19bf174cf692694#64,
   0xe49b69c19ef14ad2#64, 0xefbe4786384f25e3#64, 0x0fc19dc68b8cd5b5#64, 0x240ca1cc77ac9c65#64,
   0x2de92c6f592b0275#64, 0x4a7484aa6ea6e483#64, 0x5cb0a9dcbd41fbd4#64, 0x76f988da831153b5#64,
   0x983e5152ee66dfab#64, 0xa831c66d2db43210#64, 0xb00327c898fb213f#64, 0xbf597fc7beef0ee4#64,
   0xc6e00bf33da88fc2#64, 0xd5a79147930aa725#64, 0x06ca6351e003826f#64, 0x142929670a0e6e70#64,
   0x27b70a8546d22ffc#64, 0x2e1b21385c26c926#64, 0x4d2c6dfc5ac42aed#64, 0x53380d139d95b3df#64,
   0x650a73548baf63de#64, 0x766a0abb3c77b2a8#64, 0x81c2c92e47edaee6#64, 0x92722c851482353b#64] ++
  [0xa2bfe8a14cf10364#64, 0xa81a664bbc423001#64, 0xc24b8b70d0f89791#64, 0xc76c51a30654be30#64,
   0xd192e819d6ef5218#64, 0xd69906245565a910#64, 0xf40e35855771202a#64, 0x106aa07032bbd1b8#64,
   0x19a4c116b8d2d0c8#64, 0x1e376c085141ab53#64, 0x2748774cdf8eeb99#64, 0x34b0bcb5e19b48a8#64,
   0x391c0cb3c5c95a63#64, 0x4ed8aa4ae3418acb#64, 0x5b9cca4f7763e373#64, 0x682e6ff3d6b2b8a3#64,
   0x748f82ee5defb2fc#64, 0x78a5636f43172f60#64, 0x84c87814a1f0ab72#64, 0x8cc702081a6439ec#64,
   0x90befffa23631e28#64, 0xa4506cebde82bde9#64, 0xbef9a3f7b2c67915#64, 0xc67178f2e372532b#64,
   0xca273eceea26619c#64, 0xd186b8c721c0c207#64, 0xeada7dd6cde0eb1e#64, 0xf57d4f7fee6ed178#64,
   0x06f067aa72176fba#64, 0x0a637dc5a2c898a6#64, 0x113f9804bef90dae#64, 0x1b710b35131c471b#64,
   0x28db77f523047d84#64, 0x32caab7b40c72493#64, 0x3c9ebe0a15c9bebc#64, 0x431d67c49c100d4c#64,
   0x4cc5d4becb3e42b6#64, 0x597f299cfc657e2a#64, 0x5fcb6fab3ad6faec#64, 0x6c44198c4a475817#64]

def sha384S0 (x : BitVec 64) : BitVec 64 := x.rotateRight 1 ^^^ x.rotateRight 8 ^^^ (x >>> (7 : Nat))
def sha384S1 (x : BitVec 64) : BitVec 64 := x.rotateRight 19 ^^^ x.rotateRight 61 ^^^ (x >>> (6 : Nat))
def sha384B0 (x : BitVec 64) : BitVec 64 := x.rotateRight 28 ^^^ x.rotateRight 34 ^^^ x.rotateRight 39
def sha384B1 (x : BitVec 64) : BitVec 64 := x.rotateRight 14 ^^^ x.rotateRight 18 ^^^ x.rotateRight 41

/-- The message schedule: the window of the last 16 words, oldest first, moves on one word a round. -/
def sha384Next (w : List (BitVec 64)) : BitVec 64 :=
  sha384S1 (w.getD 14 0) + w.getD 9 0 + sha384S0 (w.getD 1 0) + w.getD 0 0

/-- One round on the eight working words. -/
def sha384Round (v : List (BitVec 64)) (k w : BitVec 64) : List (BitVec 64) :=
  match v with
  | [a, b, c, d, e, f, g, h] =>
    let t1 := h + sha384B1 e + ((e &&& f) ^^^ (~~~e &&& g)) + k + w
    let t2 := sha384B0 a + ((a &&& b) ^^^ (a &&& c) ^^^ (b &&& c))
    [t1 + t2, a, b, c, d + t1, e, f, g]
  | _ => v

/-- The rounds of one block. -/
def sha384Rounds : List (BitVec 64) → List (BitVec 64) → List (BitVec 64) → List (BitVec 64)
  | [], _, v => v
  | k :: ks, w, v => sha384Rounds ks (w.drop 1 ++ [sha384Next w]) (sha384Round v k (w.getD 0 0))

/-- A big-endian number of a byte string. -/
def natOfBe (p : Bytes) : Nat := p.foldl (fun a b => a * 256 + b.toNat) 0

/-- The eight-byte words of a block. -/
def words64 : Nat → Bytes → List (BitVec 64)
  | 0, _ => []
  | n + 1, p => BitVec.ofNat 64 (natOfBe (p.take 8)) :: words64 n (p.drop 8)

/-- All blocks. -/
def sha384Blocks : Nat → Bytes → List (BitVec 64) → List (BitVec 64)
  | 0, _, h => h
  | n + 1, p, h => sha384Blocks n (p.drop 128) (List.zipWith (· + ·) h (sha384Rounds sha384K (words64 16 p) h))

/-- SHA-384. -/
def sha384 (p : Bytes) : Bytes :=
  let padded := p ++ [0x80#8] ++ zb ((239 - p.length % 128) % 128) ++ be 16 (8 * p.length)
  ((sha384Blocks (padded.length / 128) padded sha384Init).take 6).flatMap fun w => be 8 w.toNat

/-! ### The curves P-256 and P-384 -/

/-- A curve y² = x³ − 3x + b over a prime field: the field's prime, the order of the group, the base point, and the bits of a
scalar. -/
structure Curve where
  p : Nat
  n : Nat
  gx : Nat
  gy : Nat
  bits : Nat
deriving DecidableEq, Repr

/-- P-256. -/
def p256 : Curve :=
  { p := 0xffffffff00000001000000000000000000000000ffffffffffffffffffffffff
    n := 0xffffffff00000000ffffffffffffffffbce6faada7179e84f3b9cac2fc632551
    gx := 0x6b17d1f2e12c4247f8bce6e563a440f277037d812deb33a0f4a13945d898c296
    gy := 0x4fe342e2fe1a7f9b8ee7eb4a7c0f9e162bce33576b315ececbb6406837bf51f5
    bits := 256 }

/-- P-384. -/
def p384 : Curve :=
  { p := 0xfffffffffffffffffffffffffffffffffffffffffffffffffffffffffffffffeffffffff0000000000000000ffffffff
    n := 0xffffffffffffffffffffffffffffffffffffffffffffffffc7634d81f4372ddf581a0db248b0a77aecec196accc52973
    gx := 0xaa87ca22be8b05378eb1c71ef320ad746e1d3b628ba79b9859f741e082542a385502f25dbf55296c3a545e3872760ab7
    gy := 0x3617de4a96262c6f5d9e98bf9292dc29f8f41dbd289a147ce9da3113b5f0b8c00a60b1ce1d7e819d7a431d7c90ea0e5f
    bits := 384 }

/-- `x ^ k mod m` over the `n` low bits of `k`. -/
def powMod (m x k : Nat) : Nat → Nat
  | 0 => 1
  | n + 1 =>
    let y := powMod m x (k / 2) n
    if k % 2 = 0 then y * y % m else y * y % m * x % m

/-- The inverse modulo a prime of at most `bits` bits. -/
def invMod (bits m x : Nat) : Nat := powMod m x (m - 2) bits

/-- Difference modulo m of two residues. -/
def subMod (m a b : Nat) : Nat := (a + m - b % m) % m

/-- Doubling of a point modulo the field's prime. -/
def ecDouble (m : Nat) (q : Nat × Nat × Nat) : Nat × Nat × Nat :=
  let (x, y, z) := q
  let zz := z * z % m
  let yy := y * y % m
  let s := 4 * x * yy % m
  let w := 3 * (subMod m x zz) * (x + zz) % m
  let x' := subMod m (w * w % m) (2 * s)
  (x', subMod m (w * subMod m s x' % m) (8 * yy * yy), 2 * y * z % m)

/-- Sum of two points. -/
def ecAdd (m : Nat) (q r : Nat × Nat × Nat) : Nat × Nat × Nat :=
  let (x1, y1, z1) := q
  let (x2, y2, z2) := r
  if z1 = 0 then r else if z2 = 0 then q else
  let u1 := x1 * z2 * z2 % m
  let u2 := x2 * z1 * z1 % m
  let s1 := y1 * z2 * z2 * z2 % m
  let s2 := y2 * z1 * z1 * z1 % m
  if u1 = u2 then (if s1 = s2 then ecDouble m q else (1, 1, 0)) else
  let h := subMod m u2 u1
  let t := subMod m s2 s1
  let hh := h * h % m
  let x3 := subMod m (t * t % m) (hh * h + 2 * u1 * hh)
  (x3, subMod m (t * subMod m (u1 * hh % m) x3 % m) (s1 * hh * h), h * z1 * z2 % m)

/-- The multiple of a point by the `n` low bits of `k`. -/
def ecMul (m : Nat) (q : Nat × Nat × Nat) (k : Nat) : Nat → Nat × Nat × Nat
  | 0 => (1, 1, 0)
  | n + 1 =>
    let r := ecDouble m (ecMul m q (k / 2) n)
    if k % 2 = 0 then r else ecAdd m r q

/-- Affine coordinates of a point. -/
def ecAffine (c : Curve) (q : Nat × Nat × Nat) : Nat × Nat :=
  let i := invMod c.bits c.p q.2.2
  (q.1 * i * i % c.p, q.2.1 * i * i * i % c.p)

/-- A multiple of the base point. -/
def ecBaseMul (c : Curve) (k : Nat) : Nat × Nat × Nat := ecMul c.p (c.gx, c.gy, 1) k c.bits

/-- A signature r ‖ s holds for a message hash as long as the order, under a public key. -/
def ecdsaVerify (c : Curve) (q : Nat × Nat) (h sig : Bytes) : Bool :=
  let size := c.bits / 8
  let r := natOfBe (sig.take size)
  let t := natOfBe (sig.drop size)
  let w := invMod c.bits c.n t
  let pt := ecAdd c.p (ecBaseMul c (natOfBe h * w % c.n)) (ecMul c.p (q.1, q.2, 1) (r * w % c.n) c.bits)
  decide (0 < r) && decide (r < c.n) && decide (0 < t) && decide (t < c.n) && pt.2.2 != 0 && (ecAffine c pt).1 % c.n == r

/-! ### ECDSA P-256 with SHA-256 -/

/-- The candidates of RFC 6979, at most `n` of them: the first in the range of the group order. -/
def nonceLoop : Nat → Bytes → Bytes → Nat
  | 0, _, _ => 1
  | n + 1, k, v =>
    let v := hmac256 k v
    let c := natOfBe v
    if 0 < c && c < p256.n then c else
      let k := hmac256 k (v ++ [0])
      nonceLoop n k (hmac256 k v)

/-- The deterministic nonce of a private key and a message hash (RFC 6979). -/
def ecNonce (d : Nat) (h : Bytes) : Nat :=
  let x := be 32 d ++ be 32 (natOfBe h % p256.n)
  let v := List.replicate 32 1#8
  let k := hmac256 (zb 32) (v ++ [0] ++ x)
  let v := hmac256 k v
  let k := hmac256 k (v ++ [1] ++ x)
  nonceLoop 8 k (hmac256 k v)

/-- The signature of a message under a private key: r and s, each 32 bytes, big-endian. -/
def ecdsaSign (d : Nat) (msg : Bytes) : Bytes :=
  let h := sha256 msg
  let k := ecNonce d h
  let r := (ecAffine p256 (ecBaseMul p256 k)).1 % p256.n
  be 32 r ++ be 32 (invMod 256 p256.n k * (natOfBe h + r * d) % p256.n)

/-! ### The attestation key (R482) -/

/-- ATTEST_KEY: d = (K mod (n - 1)) + 1. -/
def attestKey (secret : Bytes) : Nat := natOfBe (kdf secret (ascii "RD ATTEST") (be 4 0) 40) % (p256.n - 1) + 1

/-- The public key d × G: X and Y, each big-endian. -/
def attestPub (secret : Bytes) : Bytes :=
  let q := ecAffine p256 (ecBaseMul p256 (attestKey secret))
  be 32 q.1 ++ be 32 q.2

/-- ID_FINGERPRINT: SHA-256 of the public key (R124, R482). -/
def fingerprint (secret : Bytes) : Bytes := sha256 (attestPub secret)

end Sys2Proof.Machine
end

