-- ==== Sys2Proof/Machine/Aes.lean ====
section
/-! DEFINITION. The block cipher and the modes the spec names, computed exactly: AES-128 and AES-256 (FIPS 197), AES-GCM with
a 96-bit nonce and a 128-bit tag (R43), AES-CCM* with a 13-byte nonce (R223, R233, R420), and AES-CMAC (R379). A block is the
list of its 16 octets as numbers. -/

namespace Sys2Proof.Machine

open Sys2Proof

/-! ### AES -/

/-- The S-box, 32 entries a row, entry 0 in the low octet. -/
def sboxRows : List Nat :=
  [0xc072a49cafa2d4adf04759fa7dc982ca76abd7fe2b670130c56f6bf27b777c63,
   0x75b227ebe28012079a059618c323c7041531d871f1e5a534ccf73f362693fdb7,
   0xcf584c4a39becb6a5bb1fc20ed00d153842fe329b3d63b52a05a6e1b1a2c8309,
   0xd2f3ff1021dab6bcf5389d928f40a351a89f3c507f02f94585334d43fbaaefd0,
   0xdb0b5ede14b8ee4688902a22dc4f816073195d643d7ea7c41744975fec130ccd,
   0x08ae7a65eaf4566ca94ed58d6d37c8e779e4959162acd3c25c2406490a3a32e0,
   0x9e1dc186b95735610ef6034866b53e708a8bbd4b1f74dde8c6b4a61c2e2578ba,
   0x16bb54b00f2d99416842e6bf0d89a18cdf2855cee9871e9b948ed9691198f8e1]

/-- S-box of an octet. -/
def sbox (b : Nat) : Nat := (sboxRows.getD (b / 32) 0 >>> (8 * (b % 32))) % 256

/-- Multiplication by x in GF(2^8). -/
def xtime (b : Nat) : Nat := if b < 128 then 2 * b else (2 * b) ^^^ 0x11b

/-- MixColumns of a state, column by column. -/
def mixColumns : List Nat → List Nat
  | a :: b :: c :: d :: l =>
    (xtime a ^^^ xtime b ^^^ b ^^^ c ^^^ d) :: (a ^^^ xtime b ^^^ xtime c ^^^ c ^^^ d) ::
      (a ^^^ b ^^^ xtime c ^^^ xtime d ^^^ d) :: (xtime a ^^^ a ^^^ b ^^^ c ^^^ xtime d) :: mixColumns l
  | _ => []

/-- ShiftRows of a state held column by column. -/
def shiftRows : List Nat → List Nat
  | [a0, a1, a2, a3, b0, b1, b2, b3, c0, c1, c2, c3, d0, d1, d2, d3] =>
    [a0, b1, c2, d3, b0, c1, d2, a3, c0, d1, a2, b3, d0, a1, b2, c3]
  | l => l

/-- Exclusive or, octet by octet, as long as the shorter of the two. -/
def xorNats (a b : List Nat) : List Nat := List.zipWith (· ^^^ ·) a b

/-- One round under a round key; the last omits MixColumns. -/
def aesRound (last : Bool) (key st : List Nat) : List Nat :=
  let t := shiftRows (st.map sbox)
  xorNats (if last then t else mixColumns t) key

/-- The rounds under a list of round keys. -/
def aesRounds : List (List Nat) → List Nat → List Nat
  | [], st => st
  | [k], st => aesRound true k st
  | k :: ks, st => aesRounds ks (aesRound false k st)

/-- The next word of the key schedule: `i` its number, `nk` the words of the key, the words so far newest first. -/
def nextKeyWord (nk i rcon : Nat) (w : List (List Nat)) : List Nat :=
  let t := w.getD 0 []
  let t' := if i % nk = 0 then xorNats ((t.drop 1 ++ t.take 1).map sbox) [rcon, 0, 0, 0]
    else if nk = 8 && i % nk = 4 then t.map sbox
    else t
  xorNats (w.getD (nk - 1) []) t'

/-- `n` more words of the key schedule. -/
def expandWords : Nat → Nat → Nat → Nat → List (List Nat) → List (List Nat)
  | 0, _, _, _, w => w
  | n + 1, nk, i, rcon, w =>
    expandWords n nk (i + 1) (if i % nk = 0 then xtime rcon else rcon) (nextKeyWord nk i rcon w :: w)

/-- Words of four octets. -/
def wordsOf : List Nat → List (List Nat)
  | a :: b :: c :: d :: l => [a, b, c, d] :: wordsOf l
  | _ => []

/-- Round keys from words in order. -/
def roundKeys : List (List Nat) → List (List Nat)
  | a :: b :: c :: d :: l => (a ++ b ++ c ++ d) :: roundKeys l
  | _ => []

/-- The round keys of a 16-byte or a 32-byte key. -/
def aesKeys (key : Bytes) : List (List Nat) :=
  let nk := key.length / 4
  roundKeys (expandWords (4 * (nk + 7) - nk) nk nk 1 (wordsOf (key.map (·.toNat))).reverse).reverse

/-- The cipher on one block under expanded keys. -/
def aesBlock (keys : List (List Nat)) (b : List Nat) : List Nat :=
  match keys with
  | [] => b
  | k :: ks => aesRounds ks (xorNats b k)

/-! ### Numbers, blocks and bytes -/

/-- The octets of a byte string. -/
def natsOf (p : Bytes) : List Nat := p.map (·.toNat)

/-- The byte string of octets. -/
def bytesOf (l : List Nat) : Bytes := l.map (BitVec.ofNat 8)

/-- A block cut or zero-filled to 16 octets. -/
def fit16 (l : List Nat) : List Nat := (l ++ List.replicate 16 0).take 16

/-- The blocks of octets, the last one zero-filled; `n` the number of them at most. -/
def blocksOf : Nat → List Nat → List (List Nat)
  | 0, _ => []
  | n + 1, l => if l.isEmpty then [] else fit16 l :: blocksOf n (l.drop 16)

/-- The blocks of octets. -/
def blocks (l : List Nat) : List (List Nat) := blocksOf (l.length / 16 + 1) l

/-- Big-endian value of octets. -/
def beNat (l : List Nat) : Nat := l.foldl (fun a b => a * 256 + b) 0

/-- The `n` low octets of a number, most significant first. -/
def beNats : Nat → Nat → List Nat
  | 0, _ => []
  | n + 1, x => x / 256 ^ n % 256 :: beNats n x

/-- Counter-mode keystream of `n` blocks: a block of 16 octets whose last `w` octets count on from `i`. -/
def keystream (keys : List (List Nat)) (pre : List Nat) (w : Nat) : Nat → Nat → List Nat
  | 0, _ => []
  | n + 1, i => aesBlock keys (pre ++ beNats w i) ++ keystream keys pre w n (i + 1)

/-! ### AES-GCM (R43) -/

/-- The multiplication of GHASH, most significant bit first: `n` bits of x are left. -/
def gmulStep (x : Nat) : Nat → Nat → Nat → Nat
  | 0, _, z => z
  | n + 1, v, z => gmulStep x n (if v.testBit 0 then (v >>> 1) ^^^ (0xe1 <<< 120) else v >>> 1) (if x.testBit n then z ^^^ v else z)

/-- Multiplication in the field of GHASH. -/
def gmul (x y : Nat) : Nat := gmulStep x 128 y 0

/-- GHASH over blocks. -/
def ghash (h : Nat) (l : List (List Nat)) : Nat := l.foldl (fun y b => gmul (y ^^^ beNat b) h) 0

/-- The 16-byte tag over additional data and ciphertext. -/
def gcmTag (keys : List (List Nat)) (nonce : Bytes) (aad cipher : List Nat) : Bytes :=
  let h := beNat (aesBlock keys (List.replicate 16 0))
  let y := ghash h (blocks aad ++ blocks cipher ++ [beNats 8 (8 * aad.length) ++ beNats 8 (8 * cipher.length)])
  bytesOf (xorNats (beNats 16 y) (aesBlock keys (natsOf nonce ++ [0, 0, 0, 1])))

/-- The text under the counter-mode keystream: encryption and decryption alike. -/
def gcmCrypt (keys : List (List Nat)) (nonce : Bytes) (l : List Nat) : List Nat :=
  xorNats l (keystream keys (natsOf nonce) 4 (cdiv l.length 16) 2)

/-- AES-GCM sealing: ciphertext and tag of a plaintext under a key, a 12-byte nonce and additional data. -/
def gcmSeal (key nonce aad plain : Bytes) : Bytes × Bytes :=
  let keys := aesKeys key
  let c := gcmCrypt keys nonce (natsOf plain)
  (bytesOf c, gcmTag keys nonce (natsOf aad) c)

/-- AES-GCM opening: the plaintext where the tag holds. -/
def gcmOpen (key nonce aad cipher tag : Bytes) : Option Bytes :=
  let keys := aesKeys key
  let c := natsOf cipher
  if gcmTag keys nonce (natsOf aad) c == tag then some (bytesOf (gcmCrypt keys nonce c)) else none

/-! ### AES-CCM* (IEEE 802.15.4: 13-byte nonce, 2-byte length) -/

/-- CBC-MAC over blocks. -/
def cbcMac (keys : List (List Nat)) (l : List (List Nat)) : List Nat :=
  l.foldl (fun y b => aesBlock keys (xorNats y b)) (List.replicate 16 0)

/-- The authentication tag before encryption: `m` tag bytes over additional data and plaintext. -/
def ccmMac (keys : List (List Nat)) (nonce : List Nat) (aad plain : List Nat) (m : Nat) : List Nat :=
  let flags := (if aad.isEmpty then 0 else 64) + (if m = 0 then 0 else 8 * ((m - 2) / 2)) + 1
  let b0 := flags :: nonce ++ beNats 2 plain.length
  let a := if aad.isEmpty then [] else blocks (beNats 2 aad.length ++ aad)
  (cbcMac keys ([b0] ++ a ++ blocks plain)).take m

/-- CCM* sealing: ciphertext and encrypted tag of `m` bytes. -/
def ccmSeal (key nonce aad plain : Bytes) (m : Nat) : Bytes × Bytes :=
  let keys := aesKeys key
  let n := natsOf nonce
  let l := natsOf plain
  (bytesOf (xorNats l (keystream keys (1 :: n) 2 (cdiv l.length 16) 1)),
    bytesOf (xorNats (ccmMac keys n (natsOf aad) l m) (keystream keys (1 :: n) 2 1 0)))

/-- The CCM* tag of `m` bytes over data that is not encrypted. -/
def ccmTag (key nonce aad : Bytes) (m : Nat) : Bytes := (ccmSeal key nonce aad [] m).2

/-- CCM* opening: the plaintext where the tag of `m` bytes holds. -/
def ccmOpen (key nonce aad cipher mic : Bytes) (m : Nat) : Option Bytes :=
  let keys := aesKeys key
  let n := natsOf nonce
  let l := natsOf cipher
  let plain := xorNats l (keystream keys (1 :: n) 2 (cdiv l.length 16) 1)
  if bytesOf (xorNats (ccmMac keys n (natsOf aad) plain m) (keystream keys (1 :: n) 2 1 0)) == mic then some (bytesOf plain) else none

/-- The 13-byte nonce of IEEE 802.15.4: EUI-64 and frame counter most significant octet first, and the security level. -/
def nonce154 (eui : BitVec 64) (ctr level : Nat) : Bytes := (le 8 eui.toNat).reverse ++ (le 4 ctr).reverse ++ le 1 level

/-! ### AES-CMAC (R379, R383) -/

/-- Doubling in GF(2^128). -/
def cmacDouble (x : Nat) : Nat := if x.testBit 127 then (2 * x % 2 ^ 128) ^^^ 0x87 else 2 * x

/-- AES-CMAC of a message. -/
def cmac (key msg : Bytes) : Bytes :=
  let keys := aesKeys key
  let k1 := cmacDouble (beNat (aesBlock keys (List.replicate 16 0)))
  let n := if msg.isEmpty then 0 else (msg.length - 1) / 16
  let front := natsOf (msg.take (16 * n))
  let rest := natsOf (msg.drop (16 * n))
  let last := if rest.length = 16 then xorNats rest (beNats 16 k1) else xorNats (fit16 (rest ++ [128])) (beNats 16 (cmacDouble k1))
  bytesOf (cbcMac keys (blocks front ++ [last]))

end Sys2Proof.Machine
end

