-- ==== Sys2Proof/Machine/Wire.lean ====
section
/-! DEFINITION. Edtor packets as they stand on a link: the header, the nonce, AES-GCM sealing and opening (R39, R43, R44), and
the 16-byte descriptor ahead of every queued frame (R153). -/

namespace Sys2Proof.Machine

open Sys2Proof

/-! ### The header of a datagram (R39) -/

/-- KIND. -/
def hKind (d : Datagram) : Nat := fld d.bytes 3 1
/-- SESSION_ID. -/
def hSession (d : Datagram) : Nat := fld d.bytes 4 2
/-- SEQ. -/
def hSeq (d : Datagram) : Nat := fld d.bytes 6 6
/-- TAG. -/
def hTag (d : Datagram) : Nat := fld d.bytes 12 2
/-- OPCODE. -/
def hOpcode (d : Datagram) : Nat := fld d.bytes 14 2
/-- FLAGS. -/
def hFlags (d : Datagram) : Nat := fld d.bytes 16 2
/-- LENGTH. -/
def hLength (d : Datagram) : Nat := fld d.bytes 18 2
/-- CSN. -/
def hCsn (d : Datagram) : Nat := fld d.bytes 20 8
/-- STATUS. -/
def hStatus (d : Datagram) : Nat := fld d.bytes 28 2
/-- OPEN_HOST. -/
def hOpenHost (d : Datagram) : Nat := fld d.bytes 30 2
/-- The bytes in the place of the payload: ciphertext as captured, plaintext once opened. -/
def hPayload (d : Datagram) : Bytes := slice d.bytes 32 (hLength d)

/-- Datagram size (R36, R37, R79). -/
def sizeOk (d : Datagram) : Bool := decide (48 ≤ d.bytes.length) && decide (d.bytes.length ≤ 1448) && !d.fragment

/-- MAGIC, VERSION and LENGTH (R79). -/
def headerOk (d : Datagram) : Bool :=
  fld d.bytes 0 2 == 0x4544 && fld d.bytes 2 1 == 3 && decide (hLength d ≤ 1400) && d.bytes.length == hLength d + 48

/-! ### Nonce, sealing and opening (R43, R44) -/

/-- The GCM nonce: SESSION_ID, DIR (0x00 from the host, 0x01 from the RD-824), HOST, SEQ and two zero bytes (R44). -/
def edtorNonce (sessionId dir host seq : Nat) : Bytes := le 2 sessionId ++ le 1 dir ++ le 1 host ++ le 6 seq ++ zb 2

/-- The nonce of a packet from a host: HOST is OPEN_HOST in the open exchange and 0 otherwise. -/
def hostNonce (d : Datagram) : Bytes :=
  edtorNonce (hSession d) 0 (if hSession d = 0 then hOpenHost d else 0) (hSeq d)

/-- Open a datagram under a key: with its tag holding, the datagram with the plaintext in the place of the ciphertext. -/
def openDatagram (key : Bytes) (d : Datagram) : Option Datagram :=
  let head := d.bytes.take 32
  let tag := d.bytes.drop (32 + hLength d)
  (gcmOpen key (hostNonce d) head (hPayload d) tag).map fun plain => { d with bytes := head ++ plain ++ tag }

/-- The 32-byte header of a packet from the RD-824 (R39, R42). -/
def packetHeader (k : Packet) : Bytes :=
  le 2 0x4544 ++ le 1 3 ++ le 1 k.kind ++ le 2 k.sessionId ++ le 6 k.seq ++ le 2 k.tag ++ le 2 k.opcode ++ le 2 k.flags
    ++ le 2 k.payload.length ++ le 8 k.csn ++ le 2 k.status ++ le 2 (if k.sessionId = 0 then k.openHost else 0)

/-- A packet with its datagram: header, ciphertext at offset 32 and tag under a key (R39, R43). -/
def sealPacket (key : Bytes) (k : Packet) : Packet :=
  let head := packetHeader k
  let (c, t) := gcmSeal key (edtorNonce k.sessionId 1 (if k.sessionId = 0 then k.openHost else 0) k.seq) head k.payload
  { k with wire := head ++ c ++ t }

/-! ### The descriptor (R153) -/

/-- Link numbers L01 to L24 of the host ports and the service port. -/
def portLink : Port → Nat
  | .h0 => 5 | .h1 => 6 | .l23 => 23

/-- CAPTURE_COUNTER, LINK, DESC_FLAGS, FRAME_LEN, LINK_INFO. -/
def descriptor (counter link flags len info : Nat) : Bytes :=
  le 8 counter ++ le 1 link ++ zb 1 ++ le 2 flags ++ le 2 len ++ le 2 info

/-- DESC_FLAGS of a frame captured with a timestamp: TS_VALID, HOLDOVER at capture, and the link's own bits. -/
def capturedFlags (s : State) (more : Nat) : Nat := 1 + flag (s.time.state != .locked) 1 + more

/-- The descriptor of a received radio frame (R434). -/
def airDesc (s : State) (f : AirIn) : Bytes :=
  descriptor f.stamp.toNat (3 + f.radio) (capturedFlags s (flag f.fcsOk 3 + 16 * (f.phy % 16))) f.psdu.length
    (f.channel % 256 + 256 * (f.rssi % 256).toNat)

/-- The descriptor of a radio frame to send, with LAUNCH_AT (R434): its launch time and o of its slot. -/
def slotDesc (radio launch asn len : Nat) : Bytes := descriptor launch (3 + radio) 4 len (asn % 40)

/-- The descriptor of a BUOY uplink frame whose MIC holds (R225): BTYPE and PERIOD are bytes 0 and 12 of its data field. -/
def buoyDesc (s : State) (f : BuoyFrame) : Bytes :=
  descriptor f.stamp.toNat (7 + f.link) (capturedFlags s 8) (14 + f.bytes.length) (fld f.bytes 0 1 + 256 * fld f.bytes 12 1)

/-- An Ethernet frame without its FCS. -/
def etherFrame (dest src : BitVec 48) (etherType : Nat) (data : Bytes) : Bytes :=
  (le 6 dest.toNat).reverse ++ (le 6 src.toNat).reverse ++ (le 2 etherType).reverse ++ data

/-- The descriptor of a frame sent without LAUNCH_AT: the spec states no CAPTURE_COUNTER for it. -/
def sendDesc (link len : Nat) : Bytes := descriptor Config.unlaunched link 0 len 0

/-- The descriptor of a received Edtor datagram, whose frame is its header and payload (R94, R152). -/
def edtorDesc (s : State) (d : Datagram) : Bytes :=
  descriptor d.stamp.toNat (portLink d.port) (capturedFlags s 0) (32 + hLength d) 0

/-! ### Queue entries (R82, R83) -/

/-- The control word of an entry. -/
def ctrlWord (e : QEntry) : Nat :=
  flag e.notValid 31 + flag e.sop 30 + flag e.eop 29 + flag e.pending 28 + flag e.qfault 27 + flag e.trunc 26
    + 2 ^ 18 * (e.data.length % 64) + e.frameEntries % 4096

/-- The 64 bytes of an entry: DATA with bytes beyond BYTES 0, then CTRL. -/
def entryWord (e : QEntry) : Bytes := fit 60 e.data ++ le 4 (ctrlWord e)

/-- The entries after the first of a frame: 60 bytes each but the last. -/
def layRest : Nat → Bytes → List QEntry
  | 0, _ => []
  | n + 1, b => { eop := n == 0, data := b.take 60 } :: layRest n (b.drop 60)

/-- A frame laid into entries, FRAME_ENTRIES on the first. -/
def layFrame (b : Bytes) : List QEntry :=
  let n := cdiv b.length 60
  match layRest n b with
  | [] => []
  | e :: t => { e with sop := true, frameEntries := n } :: t

end Sys2Proof.Machine
end

