-- ==== Sys2Proof/Machine/Package.lean ====
section
/-! DEFINITION. The firmware package (R507 to R510): its header and segment table, its signature, the capsule that carries its
key, and its segments in plain, all computed exactly. -/

namespace Sys2Proof.Machine

open Sys2Proof

/-! ### Header and segment table (R507, R508) -/

/-- Segment entry `i`. -/
def segEntry (b : Bytes) (i : Nat) : Bytes := slice b (64 + 64 * i) 64

/-- The fields a package header and its segment table give. -/
def pkgInfo (b : Bytes) : PkgInfo :=
  { magic := fld b 0 4, ver := fld b 4 2, pflags := fld b 7 1, fw := fld b 8 4, hwMin := fld b 12 1, hwMax := fld b 13 1
    orderMask := fld b 14 1, configFormat := fld b 16 4, rollback := fld b 20 4, len := fld b 24 8, pkgId := slice b 40 16
    anchors := (List.range 16).filterMap fun i =>
      let e := segEntry b i
      if fld e 0 1 = 0x10 then some (i, fld e 2 2, fld e 4 4, fld e 12 4) else none }

/-- The segment entries in use. -/
def segEntries (b : Bytes) : List Bytes := ((List.range 16).map (segEntry b)).filter fun e => fld e 0 1 != 0

/-- The place and length of one segment are within the limits of R507 and R508. -/
def segPlaceOk (len : Nat) (e : Bytes) : Bool :=
  let off := fld e 8 4
  let n := fld e 12 4
  off % 16 == 0 && decide (1088 ≤ off) && decide (off + n + 96 ≤ len)
    && decide (n ≤ if fld e 0 1 = 0x10 then 2097152 else 1048576)

/-- Two segments do not overlap. -/
def segApart (a b : Bytes) : Bool :=
  decide (fld a 8 4 + fld a 12 4 ≤ fld b 8 4) || decide (fld b 8 4 + fld b 12 4 ≤ fld a 8 4)

/-- Every pair of a list satisfies a relation. -/
def pairwiseB (f : Bytes → Bytes → Bool) : List Bytes → Bool
  | [] => true
  | a :: l => l.all (f a) && pairwiseB f l

/-- The segment rules of R508. -/
def segmentsOk (b : Bytes) (len : Nat) : Bool :=
  let l := segEntries b
  let anchors := l.filter fun e => fld e 0 1 == 0x10
  fld b 6 1 == l.length && decide (5 ≤ l.length) && l.all (segPlaceOk len)
    && [1, 2, 3, 4, 5].all (fun k => (l.filter fun e => fld e 0 1 == k).length == 1)
    && decide (anchors.length ≤ 11) && l.length == 5 + anchors.length
    && pairwiseB segApart l && pairwiseB (fun a b => fld a 2 2 != fld b 2 2) anchors

/-- The signature holds under the boot-ROM key that SIG_KEY_ID names; an unknown one fails the package (R509). -/
def pkgSigned (b : Bytes) : Bool :=
  match Config.bootKey (fld b 32 4) with
  | none => false
  | some q =>
    let n := b.length - 96
    ecdsaVerify p384 q (sha384 (b.take n)) (b.drop n)

/-! ### Capsule and segments (R510) -/

/-- IMAGE_KEY (R481). -/
def imageKey (s : State) : Bytes := kdf s.fuse.secret (ascii "RD IMAGE") [] 32

/-- K_PKG as a capsule carries it, where the capsule unwraps. -/
def packageKey (s : State) (capsule : Bytes) : Option Bytes :=
  gcmOpen (imageKey s) (slice capsule 24 12) (capsule.take 40) (slice capsule 40 32) (slice capsule 72 16)

/-- A segment in plain, where its tag holds under K_PKG. -/
def segPlain (key b e : Bytes) : Option Bytes :=
  gcmOpen key (slice e 16 12) (e.take 16 ++ slice b 40 16) (slice b (fld e 8 4) (fld e 12 4)) (slice e 28 16)

/-- Every segment tag of a package holds under the key its capsule carries. -/
def segTagsOk (s : State) (capsule b : Bytes) : Bool :=
  match packageKey s capsule with
  | none => false
  | some k => (segEntries b).all fun e => (segPlain k b e).isSome

/-- A segment of the package in a slot, decrypted. -/
def slotSegment (s : State) (x : ImageSlot) (e : Bytes) : Bytes :=
  ((packageKey s x.capsule).bind fun k => segPlain k x.body e).getD []

/-- A slot's header as either copy carries it (R511): the state and the counts, the capsule, and HDR_CHK over bytes 0 to 111. -/
def slotHeader (x : ImageSlot) : Bytes :=
  let b := le 4 0x544F4C53 ++ le 1 x.state ++ le 1 x.trial ++ zb 2 ++ le 8 x.seq ++ le 4 x.floor ++ le 4 x.hdrCount ++ fit 88 x.capsule
  b ++ (sha256 b).take 16

/-- A copy of a header is read where its magic and HDR_CHK hold (R511, R512). -/
def copyHolds (b : Bytes) : Bool :=
  b.length == 128 && fld b 0 4 == 0x544F4C53 && slice b 112 16 == (sha256 (b.take 112)).take 16

/-- A slot whose header has never been written has no copy that holds. -/
def headerValid (x : ImageSlot) : Bool := decide (0 < x.hdrCount) && copyHolds (slotHeader x)

/-- The slot an active or inactive image runs from. -/
def imageSlot (s : State) (b : Bool) : ImageSlot := if b then s.flash.b else s.flash.a

/-- The slot of the running image. -/
def activeSlot (s : State) : ImageSlot := imageSlot s s.flash.active

/-- The slot not running. -/
def otherSlot (s : State) : ImageSlot := imageSlot s (!s.flash.active)

/-- A core image of the running slot by its SEG_KIND: the slot as manufactured holds an image the spec does not give. -/
def runningImage (s : State) (kind : Nat) : Bytes :=
  let x := activeSlot s
  if x.body.isEmpty then Config.factoryImage kind else
  match (segEntries x.body).find? fun e => fld e 0 1 == kind with
  | some e => slotSegment s x e
  | none => []

/-- FW_MEAS: SHA-384 of the running images of SAF, FLT, POS, LNK and SEC (R492). -/
def fwMeas (s : State) : Bytes := [1, 2, 3, 4, 5].flatMap fun k => sha384 (runningImage s k)

/-- The slot that holds the package whose anchor images stand in staging. -/
def stagedSlot (s : State) : ImageSlot := if s.flash.a.pkg.pkgId == s.upd.pkgId then s.flash.a else s.flash.b

/-- The anchor image of a segment index, decrypted from that package (R529). -/
def anchorPlain (s : State) (i : Nat) : Bytes := slotSegment s (stagedSlot s) (segEntry (stagedSlot s).body i)

end Sys2Proof.Machine
end

