-- ==== Sys2Proof/Machine/Journal.lean ====
section
/-! DEFINITION. The JRNL opcodes: reading journal records and the event log (R96, R101, R102). -/

namespace Sys2Proof.Machine

open Sys2Proof

/-- The 56 bytes of a journal record (R96). -/
def recBytes (j : JournalRec) : Bytes :=
  let b := le 8 j.recId ++ le 1 j.kind ++ le 1 (if j.final then 2 else 1) ++ le 2 j.sessionId ++ le 1 j.origin
    ++ le 1 j.interrupt ++ le 2 j.tag ++ le 2 j.opcode ++ le 6 j.seq ++ le 8 j.acceptCsn ++ le 8 j.lastCsn
    ++ le 2 j.done ++ le 2 j.planned ++ le 4 j.latchFc ++ le 4 j.finalFc ++ le 2 j.status
  b ++ le 2 (crc16 b)

/-- The 64 bytes of an event-log record (R102). -/
def logBytes (e : LogRec) : Bytes :=
  let b := le 8 e.logSeq ++ le 2 e.code ++ le 2 e.sessionId ++ zb 4 ++ le 8 e.csn ++ le 8 e.time ++ fit 28 e.head ++ le 2 e.len
  b ++ le 2 (crc16 b)

/-- Whether two records are of one command. -/
def sameCommand (a b : JournalRec) : Bool :=
  a.kind == 1 && a.sessionId == b.sessionId && a.tag == b.tag && a.seq == b.seq && a.opcode == b.opcode && !a.final

/-- The LATCHED record of a command that waits (R97). -/
def waitingRec (s : State) (r : Request) : JournalRec := recOf { s with com.cmdCommits := 0 } r false intNone 0 0

/-- A command has no record yet. -/
def unrecorded (s : State) (r : Request) : Bool :=
  !(s.com.recs.any (recIs r)) && !(s.p.control.journal.any fun j => recIs r j && !j.final)

/-- The record of one origin's commits (R97). -/
def internalRecord (e : InternalRec) : JournalRec :=
  { kind := 2, final := true, origin := e.origin, acceptCsn := e.first, lastCsn := e.last, done := e.count, planned := e.count
    latchFc := e.fc, finalFc := e.fc }

/-- The records PERSIST writes for the FC, in its order (R97). -/
def dueRecs (s : State) : List JournalRec :=
  s.com.recs ++ (s.edtor.latched.filter (unrecorded s)).map (waitingRec s) ++ s.com.internal.map internalRecord

/-- A record in place of the one of its command, or after all others under the next REC_ID. -/
def mergeRec (l : List JournalRec) (id : Nat) (j : JournalRec) : List JournalRec × Nat :=
  if l.any fun x => sameCommand x j then (l.map fun x => if sameCommand x j then { j with recId := x.recId } else x, id)
  else (l ++ [{ j with recId := id + 1 }], id + 1)

/-- The journal records a read can return, as at its snapshot (R70, R101): the ring without what neither copy yields (R119), and
the records of this FC. -/
def readableRecs (s : State) : List JournalRec :=
  let ring := s.p.control.journal.filter fun j => !s.p.control.badRecs.contains j.recId
  ((dueRecs s).foldl (fun a j => mergeRec a.1 a.2 j) (ring, s.p.control.recId)).1

/-- The span of a record meets a CSN range (R101). -/
def meets (j : JournalRec) (first last : Nat) : Bool :=
  decide (j.acceptCsn ≤ last) && decide (first ≤ max j.acceptCsn j.lastCsn)

/-- A record is selected by a query payload (R101). -/
def selected (p : Bytes) (j : JournalRec) : Bool :=
  match fld p 0 1 with
  | 1 => j.kind == 1 && j.sessionId == fld p 2 2 && j.tag == fld p 4 2
  | 2 => j.kind == 1 && j.sessionId == fld p 2 2 && decide (fld p 6 6 ≤ j.seq) && decide (j.seq ≤ fld p 12 6)
  | _ => meets j (fld p 24 8) (fld p 32 8)

/-- The fields a SELECT does not use are 0 (R101). -/
def queryUnused (p : Bytes) : Bool :=
  match fld p 0 1 with
  | 1 => zeros p 6 12 && zeros p 24 16
  | 2 => zeros p 4 2 && zeros p 24 16
  | 3 => zeros p 2 16
  | _ => true

/-- The ranges of a query (R101). -/
def queryRange (p : Bytes) : Bool :=
  match fld p 0 1 with
  | 1 => true
  | 2 => decide (fld p 6 6 ≤ fld p 12 6) && decide (fld p 12 6 ≤ fld p 6 6 + 65535)
  | 3 => decide (fld p 24 8 ≤ fld p 32 8)
  | _ => false

/-- Reply of JRNL_QUERY: the newest 24 of the matching records, newest first (R101). DESIGN CHOICE: with no record retained
OLDEST_LATCH_FC is 0; the spec states no value. -/
def queryReply (r : Request) (s : State) : Bytes :=
  let own := fun j : JournalRec => isSup (roleOf s r) || j.origin == hostOf s r
  let m := ((readableRecs s).filter fun j => selected r.payload j && own j).reverse
  let k := m.take 24
  le 2 k.length ++ le 1 (flag (decide (24 < m.length)) 0) ++ zb 1
    ++ le 4 (((readableRecs s).head?.map (·.latchFc)).getD 0) ++ k.flatMap recBytes

/-- JRNL_QUERY (R101). -/
def opJrnlQuery (r : Request) (s : State) : State :=
  let p := r.payload
  runOp s r (p.length == 40) (zeros p 1 1 && zeros p 18 6 && queryUnused p)
    (isSup (roleOf s r) || fld p 0 1 != 3) (edt s 0x0E01) fun s =>
  need (queryRange p) s r stBadRange fun s => finish s r stOk (queryReply r s)

def execJrnlQuery (r : Request) (s : State) : Host.Outcome State Fault Refusal := .next (opJrnlQuery r s)

/-- Reply of JRNL_EVENT_READ: from the first record at or above FROM_LOG_SEQ (R102). -/
def eventReadReply (p : Bytes) (s : State) : Bytes :=
  let k := (s.p.control.eventLog.filter fun e => decide (fld p 0 8 ≤ e.logSeq) && !s.p.control.badLogs.contains e.logSeq).take (fld p 8 2)
  le 2 k.length ++ zb 6 ++ k.flatMap logBytes

/-- JRNL_EVENT_READ (R102). -/
def opJrnlEventRead (r : Request) (s : State) : State :=
  let p := r.payload
  runOp s r (p.length == 16) (zeros p 10 6) true (edt s 0x0E02) fun s =>
  need (decide (1 ≤ fld p 8 2) && decide (fld p 8 2 ≤ 21)) s r stBadRange fun s =>
  finish s r stOk (eventReadReply p s)

def execJrnlEventRead (r : Request) (s : State) : Host.Outcome State Fault Refusal := .next (opJrnlEventRead r s)

end Sys2Proof.Machine
end

