-- ==== Sys2Proof/Machine/Queues.lean ====
section
/-! DEFINITION. The spill queues: writing, reading, dropping, refilling and resetting them (R82 to R94), and what a
reset does to the work a queue carried (R91). -/

namespace Sys2Proof.Machine

open Sys2Proof

/-- The fixed parameters of a queue (R94): largest frame in entries, least and largest depth, default depth and LEVEL,
entries kept in reserve. -/
structure QParam where
  maxFrame : Nat
  minDepth : Nat
  maxDepth : Nat
  depth : Nat
  level : Nat
  reserve : Nat
deriving DecidableEq, Repr

/-- The queue set (R94). -/
def qParam (q : Nat) : Option QParam :=
  if q ≤ 0x07 then some ⟨25, 12800, 12800, 12800, 9600, 0⟩
  else if q ≤ 0x0B then some ⟨25, 64, 524288, 16384, 12288, 0⟩
  else if q = 0x10 || q = 0x12 then some ⟨35, 64, 524288, 4096, 3072, 0⟩
  else if q = 0x11 || q = 0x13 then some ⟨35, 128, 524288, 4096, 3072, 35⟩
  else if 0x20 ≤ q && q ≤ 0x29 then some ⟨26, 64, 524288, 8192, 6144, 0⟩
  else if q = 0x30 || q = 0x32 then some ⟨2, 64, 524288, 1024, 768, 0⟩
  else if q = 0x31 || q = 0x33 then some ⟨2, 64, 524288, 1024, 768, 2⟩
  else if q = 0x40 then some ⟨1, 4096, 4096, 4096, 3072, 0⟩
  else if q = 0x41 then some ⟨1, 64, 524288, 4096, 3072, 0⟩
  else none

/-- The QUEUE_IDs, rising (R94). -/
def queueIds : List Nat :=
  List.range 12 ++ [0x10, 0x11, 0x12, 0x13] ++ (List.range 10).map (· + 0x20) ++ [0x30, 0x31, 0x32, 0x33, 0x40, 0x41]

/-- Depth of a queue from the next reset on (R94). -/
def depthCfg (s : State) (q : Nat) (p : QParam) : Nat :=
  let c := tgetD s.p.queueCfg q {}
  if c.depth = 0 then p.depth else c.depth

/-- LEVEL configured for a queue (R92, R94). -/
def levelCfg (s : State) (q : Nat) (p : QParam) : Nat :=
  let c := tgetD s.p.queueCfg q {}
  if c.levelSet then c.level else p.level

/-- A queue of default depth and LEVEL as it starts: empty. -/
def freshQueue (p : QParam) : SpillQueue := { depth := p.depth, level := p.level }

/-- A queue as it stands: one that no configuration and no use has touched is as R94 gives it. -/
def queueAt (s : State) (q : Nat) (p : QParam) : SpillQueue := (tget s.queues q).getD (freshQueue p)

/-- Write a queue back. -/
def setQueue (s : State) (q : Nat) (k : SpillQueue) : State := { s with queues := tput s.queues q k }

/-- The queues after a reset: a configured depth or LEVEL holds from here on (R94). -/
def bootQueues (s : State) : Tbl SpillQueue :=
  s.p.queueCfg.filterMap fun e => (qParam e.1).map fun p =>
    (e.1, { freshQueue p with depth := depthCfg s e.1 p, level := levelCfg s e.1 p })

/-! ### The work the model keeps in structured form, as the frames its queues hold (R82, R94, R153) -/

/-- A command in its queue: descriptor, header and payload. -/
def commandFrame (r : Request) : Bytes := r.desc ++ r.header ++ r.payload

/-- A packet in a reply queue; SEQ is given at release. -/
def replyFrame (k : Packet) : Bytes :=
  sendDesc (portLink k.port) (32 + k.payload.length) ++ packetHeader k ++ k.payload

/-- An event in an event queue; EVENT_NUMBER, LOST_COUNT and SEQ are given at release. -/
def eventFrame (e : Session) (v : Event) : Bytes :=
  replyFrame { kind := 3, sessionId := e.id, port := e.port, tag := (v.tag.map (·.2)).getD 0, opcode := v.code, csn := v.csn
               flags := flag v.tag.isSome 6, payload := zb 8 ++ le 8 v.time ++ v.payload }

/-- A radio frame in a TX queue. -/
def slotFrameBytes (s : State) (radio : Nat) (f : SlotFrame) : Bytes :=
  let launch := s.clk.boundary.toNat + (f.slot - 4 * fcNow s) * 159744000 + 15974400 + Config.sfdFtu s.p.radio.cfg.phyMode
  slotDesc radio launch f.slot f.psdu.length ++ f.psdu

/-- The link-specific DESC_FLAGS of a CAN frame (R454). -/
def canDescFlags (f : CanFrame) : Nat := flag f.ide 3 + flag f.fdf 4 + flag f.brs 5 + flag f.esi 6

/-- A received CAN frame in its queue. -/
def canRxFrame (s : State) (ch : Nat) (f : CanFrame) : Bytes :=
  descriptor (f.sof % 2 ^ 64) (17 + ch) (capturedFlags s (canDescFlags f)) f.data.length 0 ++ f.data

/-- A CAN frame to send in its queue. -/
def canTxFrame (ch : Nat) (t : CanTx) : Bytes :=
  descriptor Config.unlaunched (17 + ch) (canDescFlags t.frame + flag t.oneShot 7 + flag t.stop 8 + flag t.notify 9)
    t.frame.data.length t.txRef ++ t.frame.data

/-- An uplink BUOY frame in its report queue. -/
def buoyRxFrame (f : BuoyFrame) (desc : Bytes) : Bytes := desc ++ etherFrame f.dest f.src f.etherType f.bytes

/-- The uplink frames of a link that are captured and not yet latched. -/
def buoyFrames (s : State) (link : Nat) : List (BuoyFrame × Bytes) :=
  s.buoy.ins.filterMap fun x => match x with
    | .frame f d => if f.link = link then some (f, d) else none
    | _ => none

/-- The requests standing in the LEADLIGHT request queue. -/
def queuedReqs (s : State) : List PathReq := s.allot.reqs.filter fun x => x.stage == .queued && decide (x.fromFc ≤ fcNow s)

/-- The frames of the device's own work in a queue, oldest first. -/
def workFrames (s : State) (q : Nat) : List Bytes :=
  if q ≤ 3 then (s.edtor.inbox.filter (·.slot == q)).map commandFrame
  else if q ≤ 7 then ((tgetD s.edtor.sessions (q - 4) {}).replyQ).map replyFrame
  else if q ≤ 11 then let e := tgetD s.edtor.sessions (q - 8) {}; e.eventQ.map (eventFrame e)
  else if q = 0x10 || q = 0x12 then (s.radio.rx.filter (·.1.radio == (q - 0x10) / 2)).map fun f => f.2 ++ f.1.psdu
  else if q = 0x11 then s.radio.a.queue.map (slotFrameBytes s 0)
  else if q = 0x13 then s.radio.b.queue.map (slotFrameBytes s 1)
  else if 0x20 ≤ q && q ≤ 0x29 then (buoyFrames s (q - 0x20)).map fun f => buoyRxFrame f.1 f.2
  else if q = 0x30 || q = 0x32 then
    let ch := (q - 0x30) / 2
    let c := s.can.getD ch {}
    (c.latchedRx ++ c.rx).map (canRxFrame s ch)
  else if q = 0x31 || q = 0x33 then
    let ch := (q - 0x31) / 2
    let c := s.can.getD ch {}
    (c.txq ++ c.stopBuf.toList).map (canTxFrame ch)
  else if q = 0x40 then s.com.recs.map recBytes ++ s.com.logs.map fun e => (logBytes e).drop 8
  else if q = 0x41 then (queuedReqs s).map fun x => fit 48 (Config.requestWord x.session)
  else []

/-- The entries of the device's own work in a queue. -/
def ownEntries (s : State) (q : Nat) : List QEntry := (workFrames s q).flatMap layFrame

/-- Their number. -/
def workEntries (s : State) (q : Nat) : Nat := ((workFrames s q).map fun b => cdiv b.length 60).sum

/-- OCCUPANCY of a queue in entries. -/
def occupancy (s : State) (q : Nat) (k : SpillQueue) : Nat := k.entries.length + workEntries s q

/-- Free entries of a queue. -/
def freeEntries (s : State) (q : Nat) (k : SpillQueue) : Nat := k.depth - (occupancy s q k + k.resv)

/-- FULL to an ordinary frame, or to the frame the reserve is kept for (R87, R94). -/
def fullFor (s : State) (q : Nat) (p : QParam) (k : SpillQueue) (special : Bool) : Bool :=
  decide (freeEntries s q k < p.maxFrame + (if special then 0 else p.reserve))

/-- The session that owns an Edtor queue. -/
def queueOwner (q : Nat) : Option Nat := if q ≤ 11 then some (q % 4) else none

/-- Who receives a queue's events (R93). -/
def queueAud (q : Nat) : Audience :=
  match queueOwner q with
  | some slot => .supAnd slot
  | none => .sup

/-- Payload of EV_QUEUE_FAULT and EV_QUEUE_LEVEL (R93). -/
def queueEvent (q cause occ lostEntries lostFrames : Nat) : Bytes :=
  le 1 q ++ le 1 cause ++ zb 2 ++ le 4 occ ++ le 4 lostEntries ++ le 4 lostFrames

/-- After a queue has grown or shrunk: the level event and its arming, FULL and the highest occupancy (R87, R92). -/
def noteOccupancy (s : State) (q : Nat) (p : QParam) (before : Nat) : State :=
  let k := queueAt s q p
  let occ := occupancy s q k
  let crossed := k.level != 0 && k.armed && decide (before < k.level) && decide (k.level ≤ occ) && k.raisedFc != some (fcNow s)
  let k := { k with
    full := fullFor s q p k false
    maxOcc := max k.maxOcc occ
    occ := occ
    armed := if crossed then false else k.armed || decide (occ ≤ k.level / 2)
    raisedFc := if crossed then some (fcNow s) else k.raisedFc }
  let s := setQueue s q k
  if crossed then raiseLater s 0x8107 (queueAud q) (nowTime s) (queueEvent q 3 occ 0 0) else s

/-- A refused SOP: OVERRUN and its count (R87). -/
def noteOverrun (s : State) (q : Nat) (p : QParam) : State :=
  let k := queueAt s q p
  setQueue s q { k with overrun := true, overrunCount := inc32 k.overrunCount }

/-- Whether a structured frame may enter a queue; a refused one is counted as an overrun (R87, R94). -/
def admitFrame (s : State) (q : Nat) (special : Bool) : Bool × State :=
  match qParam q with
  | none => (false, s)
  | some p => if fullFor s q p (queueAt s q p) special then (false, noteOverrun s q p) else (true, s)

/-- Note a structured frame's arrival in a queue that held `before` entries. -/
def arrived (s : State) (q before : Nat) : State :=
  match qParam q with
  | none => s
  | some p => noteOccupancy s q p before

/-- Note a queue whose contents may have changed since it was last noted, while the firmware runs (R87, R92). -/
def noteQueue (s : State) (q : Nat) : State :=
  match qParam q with
  | none => s
  | some p =>
    let k := queueAt s q p
    if !running s || occupancy s q k = k.occ then s else noteOccupancy s q p k.occ

/-- Note every queue. -/
def noteAll (s : State) : State := queueIds.foldl noteQueue s

/-- OCCUPANCY of a queue by its id. -/
def occOf (s : State) (q : Nat) : Nat :=
  match qParam q with
  | none => 0
  | some p => occupancy s q (queueAt s q p)

/-- Move entries between tail, middle and head: straight to the head while the middle is empty, in blocks of 16 into the
middle otherwise (R85). -/
def settle (k : SpillQueue) : SpillQueue :=
  let tail := k.entries.length - k.inHead - k.inMid
  if k.inMid = 0 then
    let m := min tail (32 - k.inHead)
    let rest := tail - m
    { k with inHead := k.inHead + m, inMid := if 16 ≤ rest then rest / 16 * 16 else 0 }
  else { k with inMid := k.inMid + tail / 16 * 16 }

/-- A head refill is wanted: the head holds 16 entries or fewer and the middle is not empty (R85). -/
def wantsRefill (k : SpillQueue) : Bool := decide (k.inHead ≤ 16) && decide (0 < k.inMid)

/-- Entries of the front block of the middle: 16, or what DROP_REST has left of it. -/
def frontBlock (k : SpillQueue) : Nat := if k.inMid % 16 = 0 then 16 else k.inMid % 16

/-! ### What a reset of a queue does to its work (R91) -/

/-- Commands of a slot not yet latched are ended in COMMAND of the next FC (R91). -/
def resetCommandQueue (s : State) (slot : Nat) : State :=
  { s with
    edtor.faulted := s.edtor.faulted ++ s.edtor.inbox.filter (·.slot == slot)
    edtor.inbox := s.edtor.inbox.filter (·.slot != slot) }

/-- Final replies end their tags' outstanding state and enter the reply cache (R59, R64). -/
def retireTags (e : Session) (sent : List Packet) : Session :=
  let sent := sent.filter fun k => !k.resent
  let fin := sent.filter fun k => k.kind == 2 && bit k.flags 0 && !bit k.flags 7
  let single := fin.filter fun k => !k.multi
  { e with
    outs := (e.outs.filter fun o => !(fin.any fun k => k.tag == o.tag)).map fun o =>
      match (sent.filter fun k => k.kind == 2 && k.tag == o.tag && !bit k.flags 7).getLast? with
      | some k => { o with lastReply := some k }
      | none => o
    cache := ((e.cache.filter fun c => !(fin.any fun k => k.tag == c.tag)) ++ single).reverse.take 512 |>.reverse }

/-- The replies of a slot are lost; their final ones can still be resent from the cache (R91). -/
def resetReplyQueue (s : State) (slot : Nat) : State :=
  modSession s slot fun e => { retireTags e e.replyQ with replyQ := [] }

/-- The events of a slot are lost and counted (R91). -/
def resetEventQueue (s : State) (slot : Nat) : State :=
  modSession s slot fun e => { e with lost := sat 32 (e.lost + e.eventQ.length), eventQ := [] }

/-- A CAN TX queue is emptied; a stop frame lost this way is a one-shot failure and queued again (R91). -/
def resetCanTx (s : State) (ch : Nat) : State :=
  { s with can := lmod s.can ch fun c =>
      { c with
        txq := []
        stopBuf := none
        outcomes := c.outcomes ++ c.stopBuf.toList.map fun t => (t, 2, 0) } }

/-- The work carried by a queue is discarded with the consequences of R91. -/
def discardWork (s : State) (q : Nat) : State :=
  if q ≤ 3 then resetCommandQueue s q
  else if q ≤ 7 then resetReplyQueue s (q - 4)
  else if q ≤ 11 then resetEventQueue s (q - 8)
  else if q = 0x10 then { s with
    radio.rx := s.radio.rx.filter (·.1.radio != 0)
    radio.a.rxLost := sat 32 (s.radio.a.rxLost + (s.radio.rx.filter (·.1.radio == 0)).length) }
  else if q = 0x12 then { s with
    radio.rx := s.radio.rx.filter (·.1.radio != 1)
    radio.b.rxLost := sat 32 (s.radio.b.rxLost + (s.radio.rx.filter (·.1.radio == 1)).length) }
  else if q = 0x11 then { s with radio.a.queue := [] }
  else if q = 0x13 then { s with radio.b.queue := [] }
  else if 0x20 ≤ q && q ≤ 0x29 then { s with
    buoy.ins := s.buoy.ins.filter fun x => match x with
      | .frame f _ => f.link != q - 0x20
      | _ => true
    buoy.anchors := tmod s.buoy.anchors (q - 0x20) {} fun a =>
      { a with rxLost := sat 32 (a.rxLost + (buoyFrames s (q - 0x20)).length) } }
  else if q = 0x30 || q = 0x32 then { s with can := lmod s.can ((q - 0x30) / 2) fun c =>
    { c with rx := [], latchedRx := [], rxOverrun := sat 32 (c.rxOverrun + c.rx.length + c.latchedRx.length) } }
  else if q = 0x31 || q = 0x33 then resetCanTx s ((q - 0x31) / 2)
  else if q = 0x41 then { s with allot.reqs := s.allot.reqs.map fun x =>
    if x.stage == .queued && decide (x.fromFc ≤ fcNow s) then (if x.lost then { x with stage := .carried } else { x with lost := true, fromFc := fcNow s + 1 }) else x }
  else s

/-- Whole or partial frames in a queue: those of the device's own work, and those of its entries, the first of which may
begin inside a frame (R93). -/
def heldFrames (s : State) (q : Nat) (k : SpillQueue) : Nat :=
  (workFrames s q).length + (k.entries.filter (·.sop)).length + (if (k.entries.head?.map (·.sop)) = some false then 1 else 0)

/-- Reset a queue after a pointer mismatch (1) or an uncorrectable DRAM error (2) (R90). -/
def resetQueue (s : State) (q : Nat) (p : QParam) (cause : Nat) (reading : Bool) : State :=
  let k := queueAt s q p
  let lostEntries := occupancy s q k
  let lostFrames := heldFrames s q k
  let s := discardWork s q
  let s := setQueue s q { k with
    entries := [], ptr := 0, ptrDup := 0, rptr := 0, rptrDup := 0, resv := 0, writing := false, refused := false,
    full := false, dropping := false, armed := true, inFrame := false, skipToSop := false, inHead := 0, inMid := 0,
    refillPending := false, occ := 0, faults := inc32 k.faults,
    lastRead := if reading then some (entryWord { notValid := true, qfault := true }) else k.lastRead }
  let s := { s with cores.queueFaults := inc32 s.cores.queueFaults, p.diag.lastFault := nowTime s % 2 ^ 64 }
  raiseLater s 0x8106 (queueAud q) (nowTime s) (queueEvent q cause 0 lostEntries lostFrames)

/-- The pointer copies of a queue differ (R90). -/
def mismatch (k : SpillQueue) : Bool := k.ptr != k.ptrDup || k.rptr != k.rptrDup

/-- Append an entry to a queue (R85). -/
def push (k : SpillQueue) (e : QEntry) : SpillQueue :=
  settle { k with entries := k.entries ++ [e], ptr := (k.ptr + 1) % k.depth, ptrDup := (k.ptr + 1) % k.depth }

/-- The journal queue was reset while PERSIST wrote it: this PERSIST did not complete, so its outputs are withheld, and the
second in succession leads to FOG (R91, R98). -/
def persistBroken (s : State) : State :=
  if s.clk.window != .persist || !s.com.persistDue then s else
  let s : State := { s with
    com.withheld := true
    com.persistDue := false
    com.persistFails := s.com.persistFails + 1
    cores.persistFailed := inc32 s.cores.persistFailed }
  if 2 ≤ s.com.persistFails then triggerLater s .mramFault else s

/-- A queue reset with what it means to the PERSIST in progress (R90, R91, R98). -/
def faultQueue (s : State) (q : Nat) (p : QParam) (cause : Nat) (reading : Bool) : State :=
  let s := resetQueue s q p cause reading
  if q = 0x40 then persistBroken s else s

/-- A word after the SOP of a frame accepted. The last reserved entry ends the frame: without EOP of its own it is an
overlength frame, marked EOP and TRUNC, and the words beyond are discarded (R84). -/
def writeRest (s : State) (q : Nat) (p : QParam) (e : QEntry) (k : SpillQueue) : State :=
  let before := occupancy s q k
  let last := e.eop || decide (k.resv ≤ 1)
  let overlong := last && !e.eop
  let k := { k with
    resv := if last then 0 else k.resv - 1
    writing := !last
    refused := overlong
    truncated := if overlong then inc32 k.truncated else k.truncated }
  let k := if k.dropping then { k with dropping := !last }
    else push k { e with frameEntries := 0, eop := last, trunc := e.trunc || overlong }
  noteOccupancy (setQueue s q k) q p before

/-- The SOP of a frame: all its entries are reserved, or all of it is refused (R84, R87). -/
def writeSop (s : State) (q : Nat) (p : QParam) (e : QEntry) (special : Bool) (k : SpillQueue) : State :=
  if fullFor s q p k special || decide (freeEntries s q k < e.frameEntries) || e.frameEntries = 0 then
    setQueue s q { k with overrun := true, overrunCount := inc32 k.overrunCount, refused := !e.eop, writing := false, resv := 0 }
  else
    let overlong := e.frameEntries == 1 && !e.eop
    let last := e.frameEntries == 1 || e.eop
    let k' := push k { e with eop := last, trunc := e.trunc || overlong }
    noteOccupancy (setQueue s q { k' with
      resv := if last then 0 else e.frameEntries - 1, writing := !last, refused := overlong, dropping := false, skipToSop := false
      truncated := if overlong then inc32 k.truncated else k.truncated }) q p (occupancy s q k)

/-- One word presented by a producer (R83, R84, R87, R89). -/
def writeWord (s : State) (q : Nat) (p : QParam) (e : QEntry) (special : Bool) : State :=
  let k := queueAt s q p
  if e.sop then writeSop s q p e special k
  else if k.refused then setQueue s q { k with refused := !e.eop }
  else if !k.writing then s
  else writeRest s q p e k

/-- QUEUE_WRITE (R84 to R87). -/
def opQueueWrite (q : Nat) (e : QEntry) (special : Bool) (p : QParam) (s : State) : State :=
  if mismatch (queueAt s q p) then faultQueue s q p 1 false else writeWord s q p e special

def execQueueWrite (q : Nat) (e : QEntry) (special : Bool) (s : State) : Host.Outcome State Fault Refusal :=
  match qParam q with
  | none => .fault .noSuchUnit
  | some p => .next (opQueueWrite q e special p s)

/-- Take the head entry (R85, R89). -/
def popHead (k : SpillQueue) (e : QEntry) (rest : List QEntry) : SpillQueue :=
  let k := settle { k with
    entries := rest, inHead := k.inHead - 1, rptr := (k.rptr + 1) % k.depth, rptrDup := (k.rptr + 1) % k.depth }
  { k with refillPending := wantsRefill k, inFrame := !e.eop, lastRead := some (entryWord e) }

/-- The words before the next SOP are passed over after DROP_REST (R89). -/
def skipOld (l : List QEntry) : List QEntry := l.dropWhile (!·.sop)

/-- QUEUE_READ (R83, R86, R88, R89). -/
def opQueueRead (q : Nat) (p : QParam) (s : State) : State :=
  let k := queueAt s q p
  if mismatch k then faultQueue s q p 1 true else
  let before := occupancy s q k
  match k.entries with
  | [] => setQueue s q { k with lastRead := some (entryWord { notValid := true }) }
  | e :: rest =>
    if k.inHead = 0 then
      setQueue s q { k with refillPending := wantsRefill k, lastRead := some (entryWord { notValid := true, pending := true }) }
    else if (k.dropping || k.skipToSop) && !e.sop then setQueue s q { k with lastRead := some (entryWord { notValid := true }) }
    else noteOccupancy (setQueue s q (popHead k e rest)) q p before

def execQueueRead (q : Nat) (s : State) : Host.Outcome State Fault Refusal :=
  match qParam q with
  | none => .fault .noSuchUnit
  | some p => .next (opQueueRead q p s)

/-- The entries of the frame being read: up to and including its EOP, or all that stand of it (R89). -/
def frameRest : List QEntry → Nat
  | [] => 0
  | e :: t => if e.sop then 0 else if e.eop then 1 else frameRest t + 1

/-- The EOP of the frame being read has been written. -/
def eopWritten : List QEntry → Bool
  | [] => false
  | e :: t => if e.sop then true else e.eop || eopWritten t

/-- DROP_REST (R89): between frames it does nothing. -/
def opDropRest (q : Nat) (p : QParam) (s : State) : State :=
  let k := queueAt s q p
  if !k.inFrame then s else
  let before := occupancy s q k
  let n := frameRest k.entries
  let ended := eopWritten k.entries
  let k := settle { k with
    entries := k.entries.drop n
    inHead := k.inHead - n
    inMid := k.inMid - (n - k.inHead)
    rptr := (k.rptr + n) % k.depth
    rptrDup := (k.rptr + n) % k.depth
    inFrame := false
    dropping := !ended
    skipToSop := !ended }
  noteOccupancy (setQueue s q { k with refillPending := wantsRefill k }) q p before

def execDropRest (q : Nat) (s : State) : Host.Outcome State Fault Refusal :=
  match qParam q with
  | none => .fault .noSuchUnit
  | some p => .next (opDropRest q p s)

/-- HEAD_REFILL: the block of a pending refill reaches the head (R85, R86). -/
def opHeadRefill (q : Nat) (p : QParam) (s : State) : State :=
  let k := queueAt s q p
  if !k.refillPending || k.inMid = 0 then s else
  let k := settle { k with inHead := k.inHead + frontBlock k, inMid := k.inMid - frontBlock k }
  setQueue s q { k with refillPending := wantsRefill k }

def execHeadRefill (q : Nat) (s : State) : Host.Outcome State Fault Refusal :=
  match qParam q with
  | none => .fault .noSuchUnit
  | some p => .next (opHeadRefill q p s)

/-- QUEUE_FAULT: a pointer mismatch or a DRAM error is found, during a read or not (R90). -/
def opQueueFault (q : Nat) (dram reading : Bool) (p : QParam) (s : State) : State :=
  faultQueue s q p (if dram then 2 else 1) reading

def execQueueFault (q : Nat) (dram reading : Bool) (s : State) : Host.Outcome State Fault Refusal :=
  match qParam q with
  | none => .fault .noSuchUnit
  | some p => .next (opQueueFault q dram reading p s)

end Sys2Proof.Machine
end

