-- ==== Sys2Proof/Machine/Frame.lean ====
section
/-! DEFINITION. The site frame: geodetic latitude and longitude on the WGS 84 ellipsoid, and the conversion between ECEF and
local east, north and up (R195). Sines and cosines are fixed-point numbers in parts of 2^64, accurate far beyond the units the
spec reports. Angles count 2^-32 of 180 degrees. -/

namespace Sys2Proof.Machine

open Sys2Proof

/-! ### Vectors -/

/-- A vector of three whole numbers. -/
abbrev Vec : Type := Int × Int × Int

def vadd (a b : Vec) : Vec := (a.1 + b.1, a.2.1 + b.2.1, a.2.2 + b.2.2)
def vsub (a b : Vec) : Vec := (a.1 - b.1, a.2.1 - b.2.1, a.2.2 - b.2.2)
def vmap (f : Int → Int) (a : Vec) : Vec := (f a.1, f a.2.1, f a.2.2)
def vdot (a b : Vec) : Int := a.1 * b.1 + a.2.1 * b.2.1 + a.2.2 * b.2.2

/-- The sum of squared distances between two points. -/
def dist2 (a b : Vec) : Nat := (vdot (vsub a b) (vsub a b)).toNat

/-- Distance between two points in parts of 1/1,024 of their unit. -/
def distFine (a b : Vec) : Int := Nat.sqrt (dist2 a b * 2 ^ 20)

/-! ### Sines and cosines -/

/-- 1 in fixed point. -/
def fx : Nat := 2 ^ 64

/-- π in fixed point. -/
def piFx : Int := 57952155664616982739

/-- The sine series from its term of order `k` on: `n` more terms, the square of the angle in radians, the term, and the sum. -/
def sinSeries : Nat → Nat → Int → Int → Int → Int
  | 0, _, _, _, acc => acc
  | n + 1, k, x2, t, acc =>
    let t' := -(rdiv (t * x2) (fx * ((k + 1) * (k + 2))))
    sinSeries n (k + 2) x2 t' (acc + t')

/-- Sine of an angle of at most 90 degrees. -/
def sinSmall (a : Int) : Int :=
  let x := rdiv (a * piFx) (2 ^ 32)
  sinSeries 14 1 (rdiv (x * x) fx) x x

/-- Sine of an angle from -180 to 180 degrees. -/
def sinA (a : Int) : Int :=
  sinSmall (if 2 ^ 31 < a then 2 ^ 32 - a else if a < -(2 ^ 31) then -(2 ^ 32) - a else a)

/-- Cosine of an angle from -180 to 180 degrees. -/
def cosA (a : Int) : Int := sinSmall (2 ^ 31 - a.natAbs)

/-! ### WGS 84 -/

/-- Semi-major axis in 0.1 mm. -/
def wgsA : Int := 63781370000

/-- Square of the eccentricity in fixed point. -/
def wgsE2 : Int := 123489514410299146

/-- Halve an interval `n` times, keeping the half at whose start `g` holds. -/
def bisect (g : Int → Bool) : Nat → Int → Int → Int
  | 0, lo, _ => lo
  | n + 1, lo, hi =>
    let mid := (lo + hi) / 2
    if g mid then bisect g n mid hi else bisect g n lo mid

/-- Radius of curvature in the prime vertical, in 0.1 mm / 2^20, for a sine of the latitude. -/
def primeVertical (sn : Int) : Int :=
  let w := fx - rdiv (rdiv (sn * sn) fx * wgsE2) fx
  wgsA * 2 ^ 20 * fx / (Nat.sqrt (w.toNat * fx) : Int)

/-- The geodetic latitude of a point is not below an angle: the normal to the ellipsoid there passes on its pole's side. -/
def latAtLeast (t : Vec) (a : Int) : Bool :=
  let sn := sinA a
  let cs := cosA a
  let p : Int := Nat.sqrt ((t.1 * t.1 + t.2.1 * t.2.1).toNat * 2 ^ 40)
  let n := rdiv (primeVertical sn * wgsE2) fx
  decide (p * sn - t.2.2 * 2 ^ 20 * cs - rdiv (n * sn) fx * cs ≤ 0)

/-- The longitude of a point is not below an angle of its own half of the circle. -/
def lonAtLeast (t : Vec) (a : Int) : Bool := decide (0 ≤ t.2.1 * cosA a - t.1 * sinA a)

/-- ORIENT_LAT and ORIENT_LON of a tie in 2^-31 of 180 degrees, to the nearest (R195, R211). -/
def orientOf (t : Vec) : Int × Int :=
  let lat := bisect (latAtLeast t) 32 (-(2 ^ 31)) (2 ^ 31)
  let lon := if 0 ≤ t.2.1 then bisect (lonAtLeast t) 32 0 (2 ^ 32) else bisect (lonAtLeast t) 32 (-(2 ^ 32)) 0
  ((lat + 1) / 2, (lon + 1) / 2)

/-! ### East, north and up (R195) -/

/-- The axes east, north and up of an orientation as ECEF vectors in fixed point. -/
def axesOf (lat lon : Int) : Vec × Vec × Vec :=
  let sl := sinA (2 * lat)
  let cl := cosA (2 * lat)
  let so := sinA (2 * lon)
  let co := cosA (2 * lon)
  ((-so, co, 0), (-(rdiv (sl * co) fx), -(rdiv (sl * so) fx), cl), (rdiv (cl * co) fx, rdiv (cl * so) fx, sl))

/-- site_enu: an ECEF point about a tie, in the unit it is given in. -/
def siteEnu (lat lon : Int) (tie p : Vec) : Vec :=
  let d := vsub p tie
  let (e, n, u) := axesOf lat lon
  (rdiv (vdot e d) fx, rdiv (vdot n d) fx, rdiv (vdot u d) fx)

/-- The ECEF vector of a displacement in site coordinates. -/
def ecefOf (lat lon : Int) (d : Vec) : Vec :=
  let (e, n, u) := axesOf lat lon
  (rdiv (e.1 * d.1 + n.1 * d.2.1 + u.1 * d.2.2) fx, rdiv (e.2.1 * d.1 + n.2.1 * d.2.1 + u.2.1 * d.2.2) fx,
    rdiv (e.2.2 * d.1 + n.2.2 * d.2.1 + u.2.2 * d.2.2) fx)

end Sys2Proof.Machine
end

