-- ==== Sys2Proof/Machine/Ports.lean ====
section
/-! DEFINITION. The host ports and the auxiliary I/O: links, inputs, outputs, service enable, VIO, and the opcodes
SYS_NET_CONFIG, SYS_AUX_CONFIG, SYS_AUX_SET and SYS_PORT_STATUS (R463 to R478). -/

namespace Sys2Proof.Machine

open Sys2Proof

/-- The settings of an I/O in force in this FC. -/
def auxCfg (s : State) (io : Nat) : AuxConfig := tgetD s.ports.auxNow io {}

/-- The live state of an I/O. -/
def auxLive (s : State) (io : Nat) : AuxLive := tgetD s.ports.io io {}

/-- Change the live state of an I/O. -/
def modIo (s : State) (io : Nat) (f : AuxLive → AuxLive) : State := { s with ports.io := tmod s.ports.io io {} f }

/-- An I/O is an output in force. -/
def isOutput (s : State) (io : Nat) : Bool := (auxCfg s io).dir == 2

/-- Filtered level of an input after INVERT; the inputs read low while VIO is absent. -/
def inLevel (s : State) (io : Nat) : Bool :=
  !isOutput s io && xor ((auxLive s io).level && s.ports.vio) (bit (auxCfg s io).flags 2)

/-- An output is switched on (R469): commanded on, no OUT_FAULT, VIO present, and not forced off by STOP_OFF. -/
def outOn (s : State) (io : Nat) : Bool :=
  isOutput s io && running s && s.ports.vio && (auxLive s io).out && !(auxLive s io).outFault
    && (s.stop.voted || !bit (auxCfg s io).flags 0)

/-- Command an output; turning it on clears OUT_FAULT (R469, R476). -/
def setOut (s : State) (io : Nat) (v : Bool) : State :=
  modIo s io fun x => { x with out := v, outFault := x.outFault && !v }

/-- SYS_AUX_SET takes effect at the first PCLK of PLAN (R476). -/
def applyAuxSet (s : State) : State :=
  { s with ports.io := tmap s.ports.io fun _ x =>
      match x.setNext with
      | none => x
      | some v => { x with out := v, outFault := x.outFault && !v, setNext := none } }

/-! ### Addresses (R463, R464, R466) -/

/-- MAC address of a port: 0x02, bits [31:0] of DEVICE_EUI64, and the port (R464). -/
def portMac (s : State) (port : Port) : BitVec 48 :=
  BitVec.ofNat 48 (2 * 2 ^ 40 + s.fuse.eui64.toNat % 2 ^ 32 * 2 ^ 8 + portCode port)

/-- The IPv6 link-local address a MAC address gives as modified EUI-64 (R464). -/
def linkLocal (m : BitVec 48) : BitVec 128 :=
  BitVec.ofNat 128 (0xFE80 * 2 ^ 112 + Nat.xor (m.toNat / 2 ^ 24) 0x020000 * 2 ^ 40 + 0xFFFE * 2 ^ 24 + m.toNat % 2 ^ 24)

/-- A port answers at an IP address: L23 at its two fixed ones, H0 and H1 at their link-local address and at those that
SYS_NET_CONFIG has switched on (R464, R466, R474). -/
def portHasAddr (s : State) (port : Port) (a : IpAddr) : Bool :=
  let c := tgetD s.ports.netNow (portCode port) {}
  match port == .l23, a with
  | true, .v4 a => a == 0xC0A8F801
  | true, .v6 a => a == 0xFE800000000000000000000000000001
  | false, .v4 a => bit c.flags 0 && (le 4 a.toNat).reverse == c.addr4
  | false, .v6 a => a == linkLocal (portMac s port) || (bit c.flags 1 && (le 16 a.toNat).reverse == c.addr6)

/-- A datagram is addressed to the port it arrives on. -/
def toUs (s : State) (d : Datagram) : Bool := d.mac == portMac s d.port && portHasAddr s d.port d.dst

/-! ### Events from the pins -/

/-- A pin event names a PCLK of the FC in progress. -/
def inFc (s : State) (pclk : Nat) : Bool := decide (pclk < s.clk.fcLen)

/-- AUX_INPUT (R468). -/
def opAuxInput (io : Nat) (level : Bool) (pclk : Nat) (s : State) : State :=
  if !inFc s pclk || isOutput s io || (auxLive s io).level == level || (level && !s.ports.vio) then s else
  modIo s io fun x =>
    { x with
      level := level, changes := x.changes + 1, total := inc32 x.total,
      chatter := x.chatter || decide (64 < x.changes + 1), edge := some (timeAt s pclk, level) }

def execAuxInput (io : Nat) (level : Bool) (pclk : Nat) (s : State) : Host.Outcome State Fault Refusal :=
  if io < 8 then .next (opAuxInput io level pclk s) else .fault .noSuchUnit

/-- OUT_FAULT (R469): an output at its current limit for 1 ms is switched off and latched. -/
def opOutFault (io pclk : Nat) (s : State) : State :=
  if !inFc s pclk || !outOn s io then s else
  modIo s io fun x => { x with outFault := true, faultEv := some (timeAt s pclk) }

def execOutFault (io pclk : Nat) (s : State) : Host.Outcome State Fault Refusal :=
  if io < 8 then .next (opOutFault io pclk s) else .fault .noSuchUnit

/-- SVC_EN (R471): the filtered level changes; firmware latches it at the next boundary. -/
def opSvcEn (active : Bool) (pclk : Nat) (s : State) : State :=
  if !inFc s pclk || s.ports.svcEn == active then s else
  { s with ports.svcEn := active, ports.svcEdge := some (timeAt s pclk) }

def execSvcEn (active : Bool) (pclk : Nat) (s : State) : Host.Outcome State Fault Refusal := .next (opSvcEn active pclk s)

/-- VIO_LOST (R473): inputs read low and outputs drop while VIO is absent. -/
def opVioLost (present : Bool) (pclk : Nat) (s : State) : State :=
  if !inFc s pclk || s.ports.vio == present then s else
  { s with
    ports.vio := present
    ports.vioEv := some (present, timeAt s pclk)
    ports.io := if present then s.ports.io else tmap s.ports.io fun _ x => { x with level := false } }

def execVioLost (present : Bool) (pclk : Nat) (s : State) : Host.Outcome State Fault Refusal := .next (opVioLost present pclk s)

/-- PORT_LINK (R466, R473): sessions stay open until their lease ends. -/
def opPortLink (port : Port) (up : Bool) (speed : Nat) (s : State) : State :=
  let x := tgetD s.ports.hosts (portCode port) {}
  if x.link == up && x.speed == speed then s else
  { s with
    ports.hosts := tput s.ports.hosts (portCode port)
      { x with link := up, speed := speed, changed := true, losses := if x.link && !up then inc32 x.losses else x.losses } }

def execPortLink (port : Port) (up : Bool) (speed : Nat) (s : State) : Host.Outcome State Fault Refusal :=
  .next (opPortLink port up speed s)

/-- A frame reaches a port's MAC: passed to the IP checks, or dropped at the limit of 2,048 in the FC (R465). -/
def portFrame (s : State) (port : Port) : Bool × State :=
  let x := tgetD s.ports.hosts (portCode port) {}
  if x.frames < 2048 then
    (true, { s with ports.hosts := tput s.ports.hosts (portCode port) { x with frames := x.frames + 1 } })
  else (false, { s with ports.hosts := tput s.ports.hosts (portCode port) { x with rateDrop := inc32 x.rateDrop } })

/-- Count a frame discarded as RX_OTHER. -/
def portOther (s : State) (port : Port) : State :=
  { s with ports.hosts := tmod s.ports.hosts (portCode port) {} fun x => { x with other := inc32 x.other } }

/-- ARP_NDP_ECHO_REQUEST (R465). -/
def opArpNdpEchoRequest (port : Port) (kind : HostFrame) (s : State) : State :=
  let (passed, s) := portFrame s port
  if !passed then s else
  let x := tgetD s.ports.hosts (portCode port) {}
  match kind with
  | .echo => if x.echoes < 16 then { s with ports.hosts := tput s.ports.hosts (portCode port) { x with echoes := x.echoes + 1 } }
      else portOther s port
  | .other => portOther s port
  | _ => if x.arps < 64 then { s with ports.hosts := tput s.ports.hosts (portCode port) { x with arps := x.arps + 1 } }
      else portOther s port

def execArpNdpEchoRequest (port : Port) (kind : HostFrame) (s : State) : Host.Outcome State Fault Refusal :=
  .next (opArpNdpEchoRequest port kind s)

/-! ### Latching and reporting -/

/-- An output that becomes an input is switched off as the change applies (R470). -/
def ioAtBoundary (s : State) (io : Nat) (x : AuxLive) : AuxLive :=
  let toInput := isOutput s io && (tgetD s.p.aux io {}).dir != 2
  { x with
    latched := x.level
    edgeDue := x.edge
    edge := none
    faultDue := x.faultEv
    faultEv := none
    chatter := x.chatter && x.changes != 0
    changes := 0
    out := x.out && !toInput }

/-- What the boundary latches from the pins, and the settings that apply from it. -/
def latchPorts (s : State) : State :=
  { s with
    ports.io := tmap s.ports.io fun io x => ioAtBoundary s io x
    ports.auxNow := s.p.aux
    ports.netNow := s.p.net
    ports.svcLatched := s.ports.svcEn
    ports.svcDue := s.ports.svcEdge
    ports.svcEdge := none
    ports.vioDue := s.ports.vioEv
    ports.vioEv := none
    ports.hosts := tmap s.ports.hosts fun _ x =>
      { x with due := x.changed, changed := false, frames := 0, arps := 0, echoes := 0 } }

/-- Payload of EV_AUX (R478). -/
def auxEvent (io cause : Nat) (level : Bool) (t : Nat) : Bytes :=
  le 1 io ++ le 1 cause ++ le 1 (flag level 0) ++ zb 5 ++ leTime t

/-- EV_AUX of one I/O (R468, R478). -/
def emitIo (s : State) (io : Nat) (x : AuxLive) : State :=
  match x.faultDue, x.edgeDue with
  | some t, _ => raiseAt s 0x8109 .all t (auxEvent io 2 false t)
  | none, some (t, l) =>
    if bit (auxCfg s io).flags 1 && !x.chatter then raiseAt s 0x8109 .all t (auxEvent io 1 (xor l (bit (auxCfg s io).flags 2)) t)
    else s
  | none, none => s

/-- EV_PORT_LINK of one port (R478). -/
def emitPort (s : State) (port : Nat) (x : PortLive) : State :=
  if x.due then raise s 0x8108 .all (le 1 port ++ le 1 (flag x.link 0) ++ le 1 x.speed ++ zb 1) else s

/-- The port and I/O events of the FC (R478). -/
def emitPorts (s : State) : State :=
  let s := s.ports.hosts.foldl (fun s e => emitPort s e.1 e.2) s
  let s := s.ports.io.foldl (fun s e => emitIo s e.1 e.2) s
  let s := match s.ports.svcDue with
    | some t => raiseAt s 0x8109 .all t (auxEvent 0xFF 3 s.ports.svcLatched t)
    | none => s
  let s := match s.ports.vioDue with
    | some (v, t) => raiseAt s 0x8109 .all t (auxEvent 0xFF (if v then 5 else 4) v t)
    | none => s
  { s with
    ports.svcDue := none
    ports.vioDue := none
    ports.hosts := tmap s.ports.hosts fun _ x => { x with due := false }
    ports.io := tmap s.ports.io fun _ x => { x with edgeDue := none, faultDue := none } }

/-! ### Opcodes -/

/-- Settings of a port as SYS_NET_CONFIG returns them (R474). -/
def netReply (port action : Nat) (c : NetConfig) : Bytes :=
  le 1 port ++ le 1 action ++ le 1 c.flags ++ le 1 c.plen4 ++ le 1 c.plen6 ++ zb 3
    ++ fit 4 c.addr4 ++ fit 4 c.gw4 ++ fit 16 c.addr6 ++ fit 16 c.gw6

/-- Settings a SYS_NET_CONFIG payload carries. -/
def netFrom (p : Bytes) : NetConfig :=
  { flags := fld p 2 1, plen4 := fld p 3 1, plen6 := fld p 4 1, addr4 := slice p 8 4, gw4 := slice p 12 4,
    addr6 := slice p 16 16, gw6 := slice p 32 16 }

/-- Ranges of R474. -/
def netOk (c : NetConfig) : Bool :=
  decide (1 ≤ c.plen4) && decide (c.plen4 ≤ 30) && decide (1 ≤ c.plen6) && decide (c.plen6 ≤ 128)

/-- SYS_NET_CONFIG (R474). -/
def opSysNetConfig (r : Request) (s : State) : State :=
  let p := r.payload
  let read := fld p 1 1 == 2
  runOp s r (p.length == 48) (if read then zeros p 2 46 else zeros p 5 3 && decide (fld p 2 1 < 4))
    (read || supOk s r) (edtOr s 0x0140 read mCfg) fun s =>
  need (decide (fld p 0 1 < 2) && (read || (fld p 1 1 == 1 && netOk (netFrom p)))) s r stBadRange fun s =>
  if read then finish s r stOk (netReply (fld p 0 1) 2 (tgetD s.p.net (fld p 0 1) {})) else
  change1 s r siteObj (fun s => { s with p.net := tput s.p.net (fld p 0 1) (netFrom p) })
    (fun _ => netReply (fld p 0 1) 1 (netFrom p))

def execSysNetConfig (r : Request) (s : State) : Host.Outcome State Fault Refusal := .next (opSysNetConfig r s)

/-- Settings of an I/O as SYS_AUX_CONFIG returns them (R475). -/
def auxReply1 (c : AuxConfig) : Bytes :=
  le 1 c.dir ++ le 1 c.flags ++ le 2 (if c.dir = 2 then 0 else c.filter) ++ le 1 (if c.dir = 2 then max 1 c.start else 0) ++ zb 3

/-- The reply of SYS_AUX_CONFIG. -/
def auxReply (s : State) : Bytes := (List.range 8).flatMap fun io => auxReply1 (tgetD s.p.aux io {})

/-- The entry of SYS_AUX_CONFIG for an I/O. -/
def auxEntry (p : Bytes) (io : Nat) : Bytes := slice p (8 * io) 8

/-- Reserved fields of an entry: those its DIR leaves unused included (R7, R475). -/
def auxRsv (e : Bytes) : Bool :=
  zeros e 5 3 && decide (fld e 1 1 < 8) &&
    (match fld e 0 1 with
     | 0 => allZero e
     | 1 => fld e 4 1 == 0
     | 2 => fld e 2 2 == 0
     | _ => true)

/-- Ranges of an entry (R475). -/
def auxOk (e : Bytes) : Bool :=
  match fld e 0 1 with
  | 0 => true
  | 1 => decide (1 ≤ fld e 2 2) && decide (fld e 2 2 ≤ 10000)
  | 2 => fld e 4 1 == 1 || fld e 4 1 == 2
  | _ => false

/-- An entry as settings. -/
def auxFrom (e : Bytes) : AuxConfig := { dir := fld e 0 1, flags := fld e 1 1, filter := fld e 2 2, start := fld e 4 1 }

/-- An I/O that must be an input (R470). -/
def mustBeInput (s : State) (io : Nat) : Bool :=
  s.p.power.batteryInput == io || s.p.stopCfg.releaseInput == io + 1

/-- An I/O that a time trigger not free names, so it must be an output (R470). -/
def mustBeOutput (s : State) (io : Nat) : Bool :=
  s.time.triggers.any fun t => t.2.action != 0 && t.2.action != 5 && t.2.output == io

/-- A SYS_AUX_CONFIG entry would break R470. -/
def auxBusy (s : State) (p : Bytes) (io : Nat) : Bool :=
  (fld (auxEntry p io) 0 1 == 2 && mustBeInput s io) || (fld (auxEntry p io) 0 1 == 1 && mustBeOutput s io)

/-- SYS_AUX_CONFIG (R475). -/
def opSysAuxConfig (r : Request) (s : State) : State :=
  let p := r.payload
  let read := allZero p
  runOp s r (p.length == 64) ((List.range 8).all fun io => auxRsv (auxEntry p io)) (read || supOk s r)
    (edtOr s 0x0141 read mCfg) fun s =>
  if read then finish s r stOk (auxReply s) else
  need ((List.range 8).all fun io => auxOk (auxEntry p io)) s r stBadRange fun s =>
  need (!((List.range 8).any (auxBusy s p))) s r stBusy fun s =>
  change1 s r siteObj
    (fun s => { s with
      p.aux := (List.range 8).foldl
        (fun t io => if fld (auxEntry p io) 0 1 = 0 then t else tput t io (auxFrom (auxEntry p io))) s.p.aux })
    auxReply

def execSysAuxConfig (r : Request) (s : State) : Host.Outcome State Fault Refusal := .next (opSysAuxConfig r s)

/-- SYS_AUX_SET (R476): the outputs take VALUE at the first PCLK of PLAN. -/
def opSysAuxSet (r : Request) (s : State) : State :=
  let p := r.payload
  let mask := fld p 0 1
  runOp s r (p.length == 4) (zeros p 2 2) true
    (inModes s [.calm, .zephyr, .breeze, .drift, .lull, .squall, .watch]) fun s =>
  need ((List.range 8).all fun io => !bit mask io || isOutput s io) s r stBadRange fun s =>
  let s := (List.range 8).foldl
    (fun s io => if bit mask io then modIo s io fun x => { x with setNext := some (bit (fld p 1 1) io) } else s) s
  finish s r stOk []

def execSysAuxSet (r : Request) (s : State) : Host.Outcome State Fault Refusal := .next (opSysAuxSet r s)

/-- One port entry of SYS_PORT_STATUS. -/
def portEntry (x : PortLive) : Bytes :=
  le 1 (flag x.link 0) ++ le 1 x.speed ++ zb 2 ++ le 4 x.rateDrop ++ le 4 x.other ++ le 4 x.losses

/-- Reply of SYS_PORT_STATUS (R477). -/
def portStatusReply (s : State) : Bytes :=
  ((List.range 3).flatMap fun i => portEntry (tgetD s.ports.hosts i {}))
    ++ le 1 (bitsOf ((List.range 8).map (inLevel s))) ++ le 1 (bitsOf ((List.range 8).map (outOn s)))
    ++ le 1 (bitsOf ((List.range 8).map fun io => (auxLive s io).outFault))
    ++ le 1 (bitsOf ((List.range 8).map fun io => (auxLive s io).chatter))
    ++ le 1 (bitsOf [s.ports.svcEn, s.ports.vio]) ++ le 1 s.ports.tloop ++ zb 2

/-- SYS_PORT_STATUS (R477). -/
def opSysPortStatus (r : Request) (s : State) : State := readOp s r 0x0143 portStatusReply

def execSysPortStatus (r : Request) (s : State) : Host.Outcome State Fault Refusal := .next (opSysPortStatus r s)

end Sys2Proof.Machine
end

