-- ==== Sys2Proof/Machine/Time.lean ====
section
/-! DEFINITION. The time base: reported-time registers, time states and references, discipline, ERR_EST, steps, time I/O
on L22, time triggers, and the TIME opcodes (R132 to R164). -/

namespace Sys2Proof.Machine

open Sys2Proof

/-! ### Reading the time of past FCs (R133) -/

/-- The registers in force at a counter value of the last 1,000 FCs. -/
def regsFor (s : State) (c : Counter) : TimeRegs :=
  ((s.time.regs :: s.time.history).find? fun g => decide (g.boundary ≤ c)).getD s.time.regs

/-- The full reported time of a capture. -/
def capturedTime (s : State) (c : Counter) : Nat := fullTime (regsFor s c) c

/-! ### Codes -/

/-- STATE code (R137). -/
def timeCode : TimeState → Nat
  | .unaligned => 0 | .acquiring => 1 | .locked => 2 | .holdover => 3 | .stepPending => 4

/-- RATE_MAX (R132). -/
def rateMax : Int := 1099511

/-- FTU in nanoseconds, to nearest. -/
def ftuToNs (x : Int) : Int := rdiv (x * 10000) 638976

/-- The magnitude of FTU in nanoseconds, rounded up. -/
def nsUp (x : Int) : Nat := cdiv (x.natAbs * 10000) 638976

/-! ### ERR_EST (R142) -/

/-- REF_UNC of a reference in ns (R138). -/
def refUnc (ref : Option Nat) : Nat := if ref == some 2 then 100 else 20

/-- PCLK in one second. -/
def pclkPerSec : Nat := 124800000

/-- Growth of ERR_EST over `n` PCLK, in ns rounded up, for F0 in units of 1e-15 and a temperature change in mK. -/
def errGrowth (e0 f0 mK n : Nat) : Nat :=
  if e0 = 0xFFFFFFFF then e0
  else
    let d := pclkPerSec ^ 2 * 10 ^ 9
    sat 32 (cdiv (e0 * d + (f0 + 4 * mK) * n * pclkPerSec * 10 ^ 3 + 2894 * n * n) d)

/-- F0 of the holdover in progress. -/
def f0Of (s : State) : Nat := if s.time.entryF0Slow then 20000 else 500000

/-- PCLK from entry to HOLDOVER or UNALIGNED to the boundary of the FC. -/
def sinceEntry (s : State) : Nat := (s.clk.boundary - s.time.entryAt).toNat / 512

/-- ERR_EST at the boundary of the FC, or as last measured since. -/
def errNow (s : State) : Nat :=
  match s.time.state with
  | .holdover => errGrowth s.time.entryErr (f0Of s) s.time.dTempMk (sinceEntry s)
  | .unaligned => errGrowth s.time.entryErr 500000 s.time.dTempMk (sinceEntry s)
  | _ => sat 32 s.time.errEst

/-- ERR_EST after a measurement that leaves a state in force (R142). -/
def errAfter (s : State) (st : TimeState) (x : Int) (last : List Nat) : Nat :=
  match st with
  | .locked => cdiv (last.foldl max 0 * 10000) 638976 + refUnc s.time.ref
  | .stepPending => nsUp x
  | _ => nsUp x + refUnc s.time.ref

/-! ### References and states (R137, R138, R143) -/

/-- The state that governs from the next boundary as far as decided. -/
def timeDecided (s : State) : TimeState := s.time.nextState.getD s.time.state

/-- ERR_EST of that state: E0 where it is still to be entered as HOLDOVER. -/
def errDecided (s : State) : Nat :=
  match timeDecided s with
  | .holdover | .unaligned => errNow s
  | _ => sat 32 s.time.errEst

/-- References in the order REF_ORDER ranks them. -/
def refOrder (s : State) : List Nat :=
  match s.time.cfg.refOrder with
  | 2 => [2, 1] | 3 => [1] | 4 => [2] | _ => [1, 2]

/-- Qualification of a reference. -/
def refQual (s : State) (ref : Nat) : RefQual := if ref = 2 then s.time.pps else s.time.gnss

/-- The highest-ranked qualified reference. -/
def bestRef (s : State) : Option Nat := (refOrder s).find? fun r => (refQual s r).qualified

/-- An offset may be slewed (R143). -/
def slewable (s : State) (x : Int) : Bool :=
  decide (x.natAbs ≤ 6389760) && decide ((s.time.phaseDrift - x).natAbs ≤ 63897600)

/-- The time base leaves LOCKED, or enters HOLDOVER: the trigger of R110. -/
def leaveLocked (s : State) : State := if s.time.state == .locked then trigger s .referenceLost else s

/-- The reference in use is lost and no other is qualified. -/
def loseReference (s : State) : State :=
  let s := { s with time.ref := none, time.pending := 0, time.nextRate := some 0 }
  match timeDecided s with
  | .unaligned | .holdover => s
  | _ => leaveLocked { s with time.nextState := some .holdover, time.run := 0 }

/-- A reference comes into use with offset x (R138, R143). -/
def acquireReference (s : State) (ref : Nat) (x : Int) : State :=
  let s := leaveLocked { s with time.ref := some ref, time.source := ref, time.run := 0, time.last10 := [] }
  if slewable s x then { s with time.nextState := some .acquiring, time.pending := 0, time.errEst := errAfter s .acquiring x [] }
  else { s with time.nextState := some .stepPending, time.pending := x, time.nextRate := some 0, time.errEst := errAfter s .stepPending x [] }

/-- Use the highest-ranked qualified reference (R138). -/
def selectReference (s : State) : State :=
  let best := bestRef s
  if best == s.time.ref then s else
  match best with
  | none => loseReference s
  | some r => acquireReference s r (refQual s r).lastX

/-- RATE of the phase loop (R140). -/
def phaseRate (s : State) (x : Int) : Int :=
  let r := if x.natAbs > 63898 then (if x < 0 then rateMax else -rateMax)
    else rdiv (-x * (2 ^ 40 : Nat)) (s.time.cfg.phaseTau * 63897600000)
  max (-rateMax) (min rateMax r)

/-- Most the tuning changes at one update: 1e-11, in parts of 10^18 (R139). -/
def steerMax : Int := 10000000

/-- The tuning after a measurement that finds the counter to have moved by `dy` FTU against the reference since the one before:
the frequency error it shows is removed with time constant FREQ_TAU_S (R139). -/
def steer (s : State) (dy : Int) : Int :=
  s.time.tuning + max (-steerMax) (min steerMax (rdiv (-dy * (10 ^ 18 : Nat)) (s.time.cfg.freqTau * ftuPerSec)))

/-- A measurement of the reference in use (R137, R139, R140, R142). -/
def useMeasurement (s : State) (x dy : Int) : State :=
  let st := timeDecided s
  if st == .unaligned || st == .holdover then s else
  let run := if s.time.state == .acquiring then (if x.natAbs ≤ 63898 then min 10 (s.time.run + 1) else 0) else 0
  let last := (x.natAbs :: s.time.last10).take 10
  let st' : TimeState := if st == .acquiring && run == 10 && !s.clk.ovenWarming then .locked else st
  { s with
    time.run := run
    time.last10 := last
    time.tuning := steer s dy
    time.nextState := if st' == s.time.state then s.time.nextState else some st'
    time.nextRate := some (if st == .stepPending then 0 else phaseRate s x)
    time.pending := if st' == .stepPending then x else 0
    time.errEst := errAfter s st' x last }

/-- Offset of the counter from the reference at counter value `c` and reported time `t`, given x (R139). -/
def counterOffset (x : Int) (c : Counter) (t : Nat) : Int := x + c.toNat - t

/-- A POS time solution of the epoch latched at counter value `c`, flagged valid or not (R138). -/
def gnssMeasure (s : State) (valid : Bool) (x : Int) (c : Counter) : State :=
  let q := s.time.gnss
  let y := counterOffset x c (capturedTime s c)
  let q' := if valid then
      { q with good := min 3 (q.good + 1), bad := 0, qualified := q.qualified || decide (2 ≤ q.good), lastX := x, lastY := y }
    else { q with good := 0, bad := min 3 (q.bad + 1), qualified := q.qualified && decide (q.bad < 2) }
  let s := selectReference { s with time.gnss := q' }
  if valid && s.time.ref == some 1 then useMeasurement s x (y - q.lastY) else s

/-- PPS_IN_DELAY_PS in force, in FTU. -/
def ppsDelayFtu (s : State) : Int :=
  if s.time.cfg.ppsDelay = 0xFFFFFFFF then 0 else rdiv (s.time.cfg.ppsDelay * 638976) 10000000

/-- x of a PPS in edge at reported time `t`: its distance from the nearest whole second. -/
def ppsOffset (t : Nat) : Int := (t : Int) - ((t + ftuPerSec / 2) / ftuPerSec * ftuPerSec : Nat)

/-- The interval between two edges lies within 1 s ± 10 µs. -/
def ppsInterval (a b : Nat) : Bool := decide (((b : Int) - a - ftuPerSec).natAbs ≤ 638976)

/-- Reported time of a capture of the FC that ends, in the scale of the registers in force: a step already applied moves it. -/
def scaledTime (s : State) (c : Counter) : Nat :=
  let g := s.time.regs
  if g.boundary ≤ c then fullTime g c
  else ((capturedTime s c : Int) + (fullTime g g.boundary - fullTime (regsFor s c) g.boundary)).toNat

/-- An edge is taken as a measurement (R138, R150). DESIGN CHOICE: the first edge has no interval to judge and counts toward no
run, so that the external PPS qualifies at its eleventh edge. -/
def measurePps (s : State) (c : Counter) : State :=
  let t := scaledTime s c
  let q := s.time.pps
  match q.lastTime with
  | none => { s with time.pps := { q with lastTime := some t } }
  | some t0 =>
    if !ppsInterval t0 t then
      { s with time.pps := { q with lastTime := some t, good := 0 }, time.ppsBad := inc32 s.time.ppsBad }
    else
      let x := ppsOffset t
      let y := counterOffset x c t
      let s := selectReference { s with time.pps :=
        { q with lastTime := some t, good := min 10 (q.good + 1), qualified := q.qualified || decide (9 ≤ q.good), lastX := x
                 lastY := y } }
      if s.time.ref == some 2 then useMeasurement s x (y - q.lastY) else s

/-- LATCH takes the edges of the FC that ends (R25). -/
def latchPps (s : State) : State := s.time.ppsIn.foldl measurePps { s with time.ppsIn := [] }

/-- PPS_IN (R150): an edge of the polarity selected, at least 1 µs wide, is captured for the next LATCH. -/
def opPpsIn (ftu : Nat) (rising wide : Bool) (s : State) : State :=
  if !running s || !wide || ftu ≥ 512 * s.clk.fcLen || rising != (s.time.cfg.ppsEdge == 1) then s else
  { s with time.ppsIn := s.time.ppsIn ++ [s.clk.boundary + BitVec.ofInt 64 (ftu - ppsDelayFtu s)] }

def execPpsIn (ftu : Nat) (rising wide : Bool) (s : State) : Host.Outcome State Fault Refusal := .next (opPpsIn ftu rising wide s)

/-! ### The boundary (R133, R137, R141) -/

/-- The next state takes effect; entry to HOLDOVER fixes E0, F0 and the temperature (R142). -/
def enterTimeState (s : State) : State :=
  match s.time.nextState with
  | none => s
  | some st =>
    if st == s.time.state then { s with time.nextState := none } else
    let s := if st == .holdover || st == .unaligned then { s with
        time.entryErr := errNow s
        time.entryF0Slow := s.time.state == .locked && decide (400 * s.time.cfg.freqTau ≤ s.time.lockedFc)
        time.entryAt := s.clk.boundary
        time.entryTempMk := s.time.boardTempMk
        time.dTempMk := 0 } else s
    { s with time.state := st, time.nextState := none, time.lockedFc := 0 }

/-- The registers from a boundary on: RATE changes without a jump (R133), and is 0 where the state says so (R137). -/
def nextRegs (s : State) (b : Counter) (fc : Nat) : TimeRegs :=
  let g := s.time.regs
  let rate := if s.time.state == .acquiring || s.time.state == .locked then s.time.nextRate.getD g.rate else 0
  let moved := if rate == g.rate then g else { g with offset := g.offset + BitVec.ofInt 64 (slew g b), anchor := b, rate := rate }
  { moved with fc := fc, boundary := b, era := eraOf (fullTime g b) }

/-- FC_PHASE_DRIFT of a boundary at a full reported time. -/
def driftOf (t : Nat) : Int := (t : Int) - (ftuPerFc * fcOfTime t : Nat)

/-- The external PPS is lost where 1.5 s after its last edge have passed at reported time `now` (R138). -/
def ppsLoss (s : State) (now : Nat) : State :=
  match s.time.pps.lastTime with
  | some t => if now ≤ t + ftuPerSec * 3 / 2 then s else { s with time.pps := { s.time.pps with qualified := false, good := 0 } }
  | none => s

/-- The references at the boundary at counter value `b`: the edges of the FC that ends, a loss in it, and the new settings. -/
def latchReferences (s : State) (b : Counter) : State :=
  let s := latchPps s
  selectReference { ppsLoss s (fullTime s.time.regs b) with time.cfg := s.p.timeCfg }

/-- What each boundary samples and counts for the time base, with its registers in force (R142, R149, R155). -/
def settleTime (s : State) (board : Int) : State :=
  let s := { s with
    time.nextRate := none
    time.dTempMk := max s.time.dTempMk (board - s.time.entryTempMk).natAbs
    time.lockedFc := if s.time.state == TimeState.locked then s.time.lockedFc + 1 else 0
    time.ppsFall := s.time.ppsFall.filter fun c => decide (s.clk.boundary < c)
    time.steppedThisFc := false }
  { s with
    time.regs.state := s.time.state
    time.regs.source := s.time.source
    time.regs.errNs := errNow s
    time.regs.pending := s.time.pending
    time.regs.drift := s.time.phaseDrift }

/-- What the boundary at counter value `b` does to the time base. -/
def timeBoundary (s : State) (b : Counter) (board encl : Int) : State :=
  let t := fullTime s.time.regs b
  let s := latchReferences s b
  let s := enterTimeState { s with
    clk.boundary := b
    clk.fcNumber := fcOfTime t
    time.boardTempMk := board
    time.enclTempMk := encl }
  settleTime { s with
    time.history := (s.time.regs :: s.time.history).take 999
    time.regs := nextRegs s b (fcOfTime t)
    time.phaseDrift := driftOf t
    time.stepFc := false } board

/-- EV_TIME_STATE of the FC (R164). -/
def emitTime (s : State) : State :=
  let st := timeDecided s
  let old := (s.time.lastStateEv.map (·.1)).getD st
  let s := { s with time.lastStateEv := some (st, s.time.source) }
  if st == old then s else
  raise s 0x8201 .all (le 1 (timeCode st) ++ le 1 (timeCode old) ++ le 1 s.time.source ++ zb 1
    ++ le 4 (errDecided s) ++ leI 8 s.time.pending)

/-! ### Steps (R143 to R145, R161) -/

/-- Full reported time of the next boundary as the registers run on. -/
def nextTime (s : State) : Nat := timeAt s s.clk.fcLen

/-- FC_NUMBER of the step FC. -/
def stepEffectFc (s : State) (ftu : Int) : Nat := fcOfTime ((nextTime s : Int) + ftu).toNat

/-- Payload of EV_TIME_STEP after the preamble. -/
def stepEvent (s : State) (ftu : Int) : Bytes :=
  leI 8 ftu ++ le 8 (fcOfTime (nextTime s)) ++ le 8 (stepEffectFc s ftu) ++ le 4 s.p.timeRec.stepCount ++ zb 4

/-- Record a step to be applied at the next boundary. -/
def requestStep (s : State) (q : StepReq) : State :=
  { s with time.step := some q, time.steppedThisFc := true, p.timeRec.stepCount := inc32 s.p.timeRec.stepCount }

/-- The step STEP_POLICY STANDING takes at the start of COMMAND (R144). -/
def standingStep (s : State) : State :=
  if s.time.cfg.stepPolicy == 2 && s.mode.cur == .calm && s.time.state == .stepPending && !s.time.stepFc
      && s.time.step.isNone then
    let ftu := -s.time.pending
    let s := requestStep (commitBy s orgFlt okSite 0) { ftu := ftu, fromPending := true, errNs := 0 }
    raise s 0x8202 .all (stepEvent s ftu)
  else s

/-- STEP_FTU of a TIME_STEP. -/
def stepFtu (s : State) (r : Request) : Int :=
  if fld r.payload 0 1 = 1 then -s.time.pending
  else ((fld r.payload 16 2 * 2 ^ 64 + fld r.payload 8 8 : Nat) : Int) - capturedTime s r.counter

/-- TIME_STEP (R161). -/
def opTimeStep (r : Request) (s : State) : State :=
  let p := r.payload
  let src := fld p 0 1
  runOp s r (p.length == 24) (zeros p 1 7 && zeros p 18 2 && (src != 1 || zeros p 8 16)) (supOk s r)
    (inModes s [.calm]) fun s =>
  need (src == 1 || (src == 2 && decide (1 ≤ fld p 20 4) && decide (fld p 20 4 ≤ 10000000))) s r stBadRange fun s =>
  need (s.time.step.isNone && (if src = 1 then s.time.state == .stepPending
      else s.time.state == .unaligned || s.time.state == .holdover)) s r stNotReady fun s =>
  let ftu := stepFtu s r
  checkCsn s r [siteObj] fun s =>
    let s := requestStep (commit s okSite 0) { ftu := ftu, fromPending := src == 1, errNs := 1000 * fld p 20 4 }
    let s := raiseBy s r 0x8202 .all (stepEvent s ftu)
    finish s r stOk (leI 8 ftu ++ le 8 (stepEffectFc s ftu))

def execTimeStep (r : Request) (s : State) : Host.Outcome State Fault Refusal := .next (opTimeStep r s)

/-! ### TIME_GET and TIME_CONFIG -/

/-- LEAP_S that holds at a second of the GPS timescale, and whether that second is an inserted leap second (R136, R151). -/
def leapAt (s : State) (sec : Nat) : Int × Bool :=
  match s.p.timeRec.leapNext with
  | some (n, from') =>
    if from' ≤ sec then (n, false)
    else if sec + 1 = from' && n == s.p.timeRec.leapS + 1 then (n, true) else (s.p.timeRec.leapS, false)
  | none => (s.p.timeRec.leapS, false)

/-- A change of LEAP_S is announced and lies ahead (R136, R159). -/
def leapPending (s : State) (sec : Nat) : Bool := s.p.timeRec.leapNext.any fun v => decide (sec < v.2)

/-- Reply of TIME_GET: the time base at the capture instant (R159). -/
def timeGetReply (s : State) (c : Counter) : Bytes :=
  let g := regsFor s c
  let t := fullTime g c
  leTime t ++ le 2 (eraOf t) ++ le 1 (timeCode g.state) ++ le 1 g.source
    ++ le 2 (bitsOf [g.state != .locked, s.clk.ovenWarming, leapPending s (t / ftuPerSec)]) ++ leI 2 (leapAt s (t / ftuPerSec)).1
    ++ le 8 c.toNat ++ le 8 g.offset.toNat ++ le 8 g.anchor.toNat ++ leI 4 g.rate ++ le 4 g.errNs
    ++ leI 8 g.pending ++ leI 4 (ftuToNs g.drift) ++ le 4 s.p.timeRec.stepCount

/-- TIME_GET (R159). -/
def opTimeGet (r : Request) (s : State) : State := readOp s r 0x0201 fun s => timeGetReply s r.counter

def execTimeGet (r : Request) (s : State) : Host.Outcome State Fault Refusal := .next (opTimeGet r s)

/-- The settings as TIME_CONFIG carries them (R160). -/
def timeCfgBytes (c : TimeConfig) : Bytes :=
  le 1 c.refOrder ++ le 1 c.stepPolicy ++ le 1 c.ppsEdge ++ le 1 c.squelch ++ le 2 c.freqTau ++ le 2 c.phaseTau
    ++ le 4 c.squelchNs ++ le 4 c.ppsDelay ++ le 2 c.ppsWidth ++ le 1 c.zdaEnable ++ zb 5

/-- A field left at 0 keeps its setting. -/
def keep (new old : Nat) : Nat := if new = 0 then old else new

/-- A value is 0, or within a range. -/
def within (x lo hi : Nat) : Bool := x == 0 || (decide (lo ≤ x) && decide (x ≤ hi))

/-- The settings after a TIME_CONFIG payload. -/
def timeCfgFrom (c : TimeConfig) (p : Bytes) : TimeConfig :=
  { refOrder := keep (fld p 0 1) c.refOrder, stepPolicy := keep (fld p 1 1) c.stepPolicy, ppsEdge := keep (fld p 2 1) c.ppsEdge,
    squelch := keep (fld p 3 1) c.squelch, freqTau := keep (fld p 4 2) c.freqTau, phaseTau := keep (fld p 6 2) c.phaseTau,
    squelchNs := keep (fld p 8 4) c.squelchNs, ppsDelay := keep (fld p 12 4) c.ppsDelay, ppsWidth := keep (fld p 16 2) c.ppsWidth,
    zdaEnable := keep (fld p 18 1) c.zdaEnable }

/-- Ranges of R160. -/
def timeCfgOk (p : Bytes) : Bool :=
  within (fld p 0 1) 1 4 && within (fld p 1 1) 1 2 && within (fld p 2 1) 1 2 && within (fld p 3 1) 1 3
    && within (fld p 4 2) 10 10000 && within (fld p 6 2) 1 1000 && within (fld p 8 4) 10 1000000
    && (within (fld p 12 4) 1 50000000 || fld p 12 4 == 0xFFFFFFFF) && within (fld p 16 2) 1 500 && within (fld p 18 1) 1 2

/-- TIME_CONFIG (R160): the settings apply from FC n + 1. DESIGN CHOICE: the reply to a change, and a read in the rest of the same
FC, carry the settings as changed. -/
def opTimeConfig (r : Request) (s : State) : State :=
  let p := r.payload
  let read := allZero p
  runOp s r (p.length == 24) (zeros p 19 5) (read || supOk s r) (edtOr s 0x0202 read mCfg) fun s =>
  if read then finish s r stOk (timeCfgBytes s.p.timeCfg) else
  need (timeCfgOk p) s r stBadRange fun s =>
  change1 s r siteObj (fun s => { s with p.timeCfg := timeCfgFrom s.p.timeCfg p }) (fun s => timeCfgBytes s.p.timeCfg)

def execTimeConfig (r : Request) (s : State) : Host.Outcome State Fault Refusal := .next (opTimeConfig r s)

/-! ### PPS out, ZDA and the RTC (R146 to R151) -/

/-- The first PCLK at or after a multiple of `unit` of reported time, displaced by `off`. -/
def crosses (s : State) (pclk unit off : Nat) : Bool :=
  let t := timeAt s pclk + unit - off
  if pclk = 0 then decide (t % unit < 513) else decide ((timeAt s (pclk - 1) + unit - off) / unit < t / unit)

/-- PPS out is to be suppressed (R149). -/
def ppsSquelched (s : State) : Bool :=
  s.time.cfg.squelch != 1 && (s.time.state == .unaligned || s.time.state == .stepPending
    || (s.time.cfg.squelch == 3 && decide (s.time.cfg.squelchNs < errNow s)))

/-- The previous edge lies at least 500 ms back (R146). -/
def ppsApart (s : State) (c : Counter) : Bool :=
  match s.time.ppsPrevOut with
  | some c0 => decide (ftuPerSec / 2 ≤ (c - c0).toNat)
  | none => true

/-- PPS_OUT (R146, R149). -/
def opPpsOut (pclk : Nat) (s : State) : State :=
  if !running s || !inFc s pclk || !crosses s pclk ftuPerSec 0 || !ppsApart s (counterAt s pclk) then s else
  if ppsSquelched s then { s with time.ppsSuppressed := true } else
  { s with
    time.ppsSuppressed := false
    time.ppsPrevOut := some (counterAt s pclk)
    time.ppsFall := some (counterAt s pclk + BitVec.ofNat 64 (63897600 * s.time.cfg.ppsWidth))
    time.ppsTime := timeAt s pclk / ftuPerSec * ftuPerSec
    time.zdaDue := s.time.cfg.zdaEnable == 1 }

/-- The level of PPS out at a PCLK of the FC: high for PPS_OUT_WIDTH_MS from an edge (R149). -/
def ppsOutHigh (s : State) (pclk : Nat) : Bool := s.time.ppsFall.any fun c => decide (counterAt s pclk < c)

def execPpsOut (pclk : Nat) (s : State) : Host.Outcome State Fault Refusal := .next (opPpsOut pclk s)

/-- RTC_SET (R148): the RTC is set from reported time at a whole second. Its rate is trimmed every hour, by an amount the spec
does not give; DESIGN CHOICE: at the whole hours of reported time. -/
def opRtcSet (pclk : Nat) (s : State) : State :=
  if !running s || !inFc s pclk || !crosses s pclk ftuPerSec 0 then s else
  let sec := timeAt s pclk / ftuPerSec
  let s := { s with bk.rtc := sec * 32768 }
  if sec % 3600 = 0 then
    let (v, s) := freshNat s
    { s with bk.rtcTrim := v }
  else s

def execRtcSet (pclk : Nat) (s : State) : Host.Outcome State Fault Refusal := .next (opRtcSet pclk s)

/-- Year, month and day of a day number counted from 1980-01-06. -/
def civil (day : Nat) : Nat × Nat × Nat :=
  let z := day + 3657 + 719468
  let era := z / 146097
  let doe := z % 146097
  let yoe := (doe - doe / 1460 + doe / 36524 - doe / 146096) / 365
  let doy := doe - (365 * yoe + yoe / 4 - yoe / 100)
  let mp := (5 * doy + 2) / 153
  let m := if mp < 10 then mp + 3 else mp - 9
  (yoe + era * 400 + (if m ≤ 2 then 1 else 0), m, doy - (153 * mp + 2) / 5 + 1)

/-- A number in `n` decimal digits. -/
def digits : Nat → Nat → Bytes
  | 0, _ => []
  | n + 1, x => digits n (x / 10) ++ [BitVec.ofNat 8 (48 + x % 10)]

/-- A hexadecimal digit in capitals. -/
def hexDigit (x : Nat) : Byte := BitVec.ofNat 8 (if x < 10 then 48 + x else 55 + x)

/-- The ZDA sentence of the edge at a full reported time (R151). -/
def zdaSentence (s : State) (t : Nat) : Bytes :=
  let sec := t / ftuPerSec
  let (leap, inserted) := leapAt s sec
  let utc := ((sec : Int) - leap).toNat
  let day := utc / 86400
  let (y, m, d) := civil day
  let tod := utc % 86400
  let hms := if inserted then digits 6 235960
    else digits 2 (tod / 3600) ++ digits 2 (tod / 60 % 60) ++ digits 2 (tod % 60)
  let body := ascii "GNZDA," ++ hms ++ ascii ".00," ++ digits 2 d ++ ascii "," ++ digits 2 m ++ ascii "," ++ digits 4 y
    ++ ascii ",00,00"
  let sum := (body.foldl (· ^^^ ·) (0 : Byte)).toNat
  ascii "$" ++ body ++ ascii "*" ++ [hexDigit (sum / 16), hexDigit (sum % 16), 13, 10]

/-- 9.5 ms of reported time in FTU. -/
def zdaDelay : Nat := 607027200

/-- ZDA (R151): a sentence starts 9.5 ms after its PPS out edge. -/
def opZda (pclk : Nat) (s : State) : State :=
  let t := timeAt s pclk
  if !running s || !inFc s pclk || !s.time.zdaDue || t < s.time.ppsTime + zdaDelay || s.time.ppsTime + zdaDelay + 513 ≤ t then s else
  { s with time.zda := zdaSentence s s.time.ppsTime, time.zdaDue := false }

def execZda (pclk : Nat) (s : State) : Host.Outcome State Fault Refusal := .next (opZda pclk s)

/-! ### Time triggers (R156 to R158, R162, R163) -/

/-- An action on an output at its fire PCLK, of counter value `c` (R156). -/
def triggerAction (s : State) (g : TimeTrigger) (c : Counter) : State :=
  if g.action = 1 then setOut s g.output true
  else if g.action = 2 then setOut s g.output false
  else if g.action = 3 then
    modIo (setOut s g.output true) g.output fun x => { x with pulseEnd := some (c + BitVec.ofNat 64 (g.pulseUs * 638976 / 10)) }
  else if g.action = 4 then setOut s g.output (!(auxLive s g.output).out)
  else s

/-- The trigger after a firing at full time `t`: its next due time, or free (R156, R158). DESIGN CHOICE: a forward step past
several due times uses up one firing of COUNT. -/
def triggerNext (g : TimeTrigger) (t : Nat) : TimeTrigger :=
  if g.period = 0 || g.left = 1 then {}
  else { g with
    due := if t < g.due then g.due else g.due + g.period * ((t - g.due) / g.period + 1)
    left := g.left - 1 }

/-- OUTCOME of a firing. -/
def fireOutcome (s : State) (g : TimeTrigger) (t : Nat) : Nat :=
  if bit g.flags 1 && !s.stop.voted then 3 else if g.due + 513 ≤ t then 2 else 1

/-- A trigger fires at a PCLK of this FC (R156 to R158). DESIGN CHOICE: a suppressed firing raises its event where a firing would,
so a trigger without NOTIFY that is not late raises none. -/
def fireTrigger (s : State) (id : Nat) (g : TimeTrigger) (pclk : Nat) : State :=
  let t := timeAt s pclk
  let out := fireOutcome s g t
  let s := if out = 3 then s else triggerAction s g (counterAt s pclk)
  let g' := triggerNext g t
  let report := (bit g.flags 0 || decide (g.due + 513 ≤ t)) && g.eventFc != some (fcNow s)
  let s := { s with
    time.triggers := tput s.time.triggers id
      (if report then { g' with eventFc := some (fcNow s) } else g') }
  if report then
    raiseLater s 0x8203 .sup t (le 1 id ++ le 1 out ++ zb 2
      ++ le 4 (if g.left = 0 && g.period != 0 then 0xFFFFFFFF else g'.left) ++ leTime t)
  else s

/-- The reported time one PCLK before a PCLK of the FC. -/
def timeBefore (s : State) (pclk : Nat) : Nat := if pclk = 0 then scaledTime s (s.clk.boundary - 512) else timeAt s (pclk - 1)

/-- A PCLK is the first at which reported time is at or after an armed trigger's due time (R156); the first of a step FC is for
every due time the step passed (R158). -/
def firesAt (s : State) (g : TimeTrigger) (pclk : Nat) : Bool :=
  g.action != 0 && decide (g.armedFc ≤ fcNow s) && decide (g.due ≤ timeAt s pclk)
    && ((pclk == 0 && s.time.stepFc) || decide (timeBefore s pclk < g.due))

/-- A trigger fires if the PCLK is its own. -/
def tryFire (s : State) (id pclk : Nat) : State :=
  match tget s.time.triggers id with
  | none => s
  | some g => if firesAt s g pclk then fireTrigger s id g pclk else s

/-- TIME_TRIGGER (R156): a trigger fires at the first PCLK at or after its due time, after every trigger of a lower TRIGGER_ID
that fires on the same output at the same PCLK (R157). -/
def opTimeTrigger (id pclk : Nat) (s : State) : State :=
  match tget s.time.triggers id with
  | none => s
  | some g =>
    if !running s || !inFc s pclk || !firesAt s g pclk then s else
    let before := (List.range id).filter fun j => (tget s.time.triggers j).any fun x => x.output == g.output
    tryFire (before.foldl (fun s j => tryFire s j pclk) s) id pclk

def execTimeTrigger (id pclk : Nat) (s : State) : Host.Outcome State Fault Refusal :=
  if id < 16 then .next (opTimeTrigger id pclk s) else .fault .noSuchUnit

/-- PULSE_END (R156): the output of an ACTION 0x03 firing goes off at the first PCLK at which PULSE_US have passed. -/
def opPulseEnd (io pclk : Nat) (s : State) : State :=
  match (auxLive s io).pulseEnd with
  | none => s
  | some c =>
    if !running s || !inFc s pclk || counterAt s pclk < c || (pclk != 0 && decide (c ≤ counterAt s (pclk - 1))) then s
    else modIo (setOut s io false) io fun x => { x with pulseEnd := none }

def execPulseEnd (io pclk : Nat) (s : State) : Host.Outcome State Fault Refusal :=
  if io < 8 then .next (opPulseEnd io pclk s) else .fault .noSuchUnit

/-- Full time of the start of FC n + 2: a step FC in between ends on a whole 10 ms of the new reported time (R145). -/
def startOfSecondNext (s : State) : Nat :=
  match s.time.step with
  | some q => (stepEffectFc s q.ftu + 1) * ftuPerFc
  | none => timeAt s (s.clk.fcLen + 1248000)

/-- The fields of TIME_TRIGGER_SET within their ranges (R162). -/
def triggerOk (s : State) (p : Bytes) : Bool :=
  let action := fld p 1 1
  let period := fld p 24 8
  decide (fld p 0 1 < 16) && decide (action ≤ 5) && decide (fld p 2 1 < 8)
    && (action == 0 ||
      ((action == 5 || isOutput s (fld p 2 1))
        && (action != 3 || (decide (1 ≤ fld p 4 4) && decide (fld p 4 4 ≤ 1000000)
            && (period == 0 || decide (fld p 4 4 * 638976 < period * 10))))
        && (period == 0 || (decide (63897600 ≤ period) && decide (period ≤ 5520752640000000)))
        && (period != 0 || fld p 20 4 == 1)))

/-- Reserved fields of TIME_TRIGGER_SET, those the ACTION leaves unused included (R7, R162). -/
def triggerRsv (p : Bytes) : Bool :=
  zeros p 18 2 && decide (fld p 3 1 < 4)
    && (match fld p 1 1 with
      | 0 => zeros p 2 30
      | 5 => zeros p 2 1 && zeros p 4 4
      | 3 => true
      | _ => zeros p 4 4)

/-- FIRST_TIME of a TIME_TRIGGER_SET. -/
def triggerFirst (p : Bytes) : Nat := fld p 16 2 * 2 ^ 64 + fld p 8 8

/-- TIME_TRIGGER_SET (R162). DESIGN CHOICE: the old arming ends when the command executes, so an occurrence of it due before the
boundary of FC n + 1 is lost. -/
def opTimeTriggerSet (r : Request) (s : State) : State :=
  let p := r.payload
  runOp s r (p.length == 32) (triggerRsv p) (supOk s r)
    (inModes s [.calm, .zephyr, .breeze, .drift, .lull, .squall, .watch]) fun s =>
  need (triggerOk s p) s r stBadRange fun s =>
  need (fld p 1 1 == 0 || decide (startOfSecondNext s ≤ triggerFirst p)) s r stTooLate fun s =>
  change1 s r siteObj
    (fun s => { s with
      time.triggers := tput s.time.triggers (fld p 0 1)
        (if fld p 1 1 = 0 then {} else
         { action := fld p 1 1, output := fld p 2 1, flags := fld p 3 1, pulseUs := fld p 4 4, due := triggerFirst p,
           left := fld p 20 4, period := fld p 24 8, armedFc := fcNow s + 1 }) })
    (fun _ => [])

def execTimeTriggerSet (r : Request) (s : State) : Host.Outcome State Fault Refusal := .next (opTimeTriggerSet r s)

/-- One entry of TIME_TRIGGER_GET (R163). -/
def triggerEntry (s : State) (id : Nat) : Bytes :=
  let g := tgetD s.time.triggers id {}
  if g.action = 0 then zb 32 else
  le 1 id ++ le 1 g.action ++ le 1 g.output ++ le 1 g.flags ++ le 4 g.pulseUs ++ leTime g.due ++ le 2 (eraOf g.due) ++ zb 2
    ++ le 4 g.left ++ le 8 g.period

/-- Reply of TIME_TRIGGER_GET (R163). -/
def triggersReply (s : State) : Bytes := (List.range 16).flatMap (triggerEntry s)

/-- TIME_TRIGGER_GET (R163). -/
def opTimeTriggerGet (r : Request) (s : State) : State := readOp s r 0x0211 triggersReply

def execTimeTriggerGet (r : Request) (s : State) : Host.Outcome State Fault Refusal := .next (opTimeTriggerGet r s)

end Sys2Proof.Machine
end

