-- ==== Sys2Proof/Machine/Gnss.lean ====
section
/-! DEFINITION. The GNSS baseband: notches, jamming, antenna bias, the channel pool, the epoch latch, and the GNSS opcodes
(R165 to R194). -/

namespace Sys2Proof.Machine

open Sys2Proof

/-! ### Signals (R165, R173) -/

/-- A signal the baseband tracks: SIG_ID, system, band index, carrier and code rate in Hz, pilot arm, primary. -/
structure Signal where
  sigId : Nat
  sys : Nat
  band : Nat
  carrier : Int
  perK : Int
  chip : Int
  pilot : Bool
  primary : Bool
deriving DecidableEq, Repr

/-- The signals by BIT. -/
def signals : List Signal :=
  [⟨0x01, 0, 2, 1575420000, 0, 1023000, false, true⟩, ⟨0x02, 0, 2, 1575420000, 0, 1023000, true, false⟩,
   ⟨0x03, 0, 1, 1227600000, 0, 1023000, true, false⟩, ⟨0x04, 0, 0, 1176450000, 0, 10230000, true, false⟩,
   ⟨0x11, 1, 2, 1575420000, 0, 1023000, true, true⟩, ⟨0x12, 1, 0, 1176450000, 0, 10230000, true, false⟩,
   ⟨0x13, 1, 0, 1207140000, 0, 10230000, true, false⟩, ⟨0x14, 1, 1, 1278750000, 0, 5115000, true, false⟩,
   ⟨0x21, 2, 2, 1561098000, 0, 2046000, false, true⟩, ⟨0x22, 2, 2, 1575420000, 0, 1023000, true, false⟩,
   ⟨0x23, 2, 0, 1176450000, 0, 10230000, true, false⟩, ⟨0x24, 2, 1, 1268520000, 0, 10230000, false, false⟩,
   ⟨0x31, 3, 2, 1602000000, 562500, 511000, false, true⟩, ⟨0x32, 3, 1, 1246000000, 437500, 511000, false, false⟩,
   ⟨0x41, 4, 2, 1575420000, 0, 1023000, false, true⟩, ⟨0x42, 4, 2, 1575420000, 0, 1023000, true, false⟩,
   ⟨0x43, 4, 1, 1227600000, 0, 1023000, true, false⟩, ⟨0x44, 4, 0, 1176450000, 0, 10230000, true, false⟩]

/-- The signal of a BIT. -/
def signalOf (i : Nat) : Signal := signals.getD i ⟨0, 0, 0, 0, 0, 1, false, false⟩

/-- BIT of a SIG_ID. -/
def bitOfSig (id : Nat) : Option Nat := signals.findIdx? (·.sigId == id)

/-- Carrier of a signal for a GLONASS k, Hz. -/
def carrierOf (g : Signal) (k : Int) : Int := g.carrier + g.perK * k

/-- Window centre of a band, Hz (R165). -/
def windowCentre (band : Nat) : Int := [1191795000, 1254000000, 1582000000].getD band 0

/-- SPACING_64 of a signal (R178). -/
def spacingOf (c : GnssConfig) (i : Nat) : Nat :=
  (tget c.spacing i).getD
    (if (signalOf i).chip ≤ 1023000 then 8 else if (signalOf i).chip ≤ 5115000 then 16 else 64)

/-! ### Antennas in use -/

/-- The antenna in use: ANT-B while ANT_B_ACTIVE is set (R175). -/
def antInUse (s : State) : Nat := if s.ref.antB then 1 else 0

/-- ANT_STATE of an antenna. -/
def antState (s : State) (a : Nat) : Nat := (tgetD s.gnss.ants a {}).state

/-- Bias of an antenna is switched on by GNSS_CONFIG. -/
def biasCfg (s : State) (a : Nat) : Bool := s.gnss.cfg.bias == 1 || s.gnss.cfg.bias == a + 2

/-- A CABLE_MEASURE holds an antenna's bias off and its channels idle (R190). -/
def cableMeasuring (s : State) (a : Nat) : Bool :=
  match s.gnss.cal with
  | some c => c.kind == 1 && c.antenna == a
  | none => false

/-! ### Notches (R167, R168) -/

/-- Mode, width and offset in force for a notch; AUTO and 100 kHz by default. -/
def notchCfg (s : State) (n : Nat) : Nat × Nat × Int := tgetD s.gnss.cfg.notchMode n (1, 2, 0)

/-- The AUTO notches of a stream. -/
def autoNotches (s : State) (stream : Nat) : List Nat :=
  (List.range 4).filterMap fun k => if (notchCfg s (4 * stream + k)).1 = 1 then some (4 * stream + k) else none

/-- Insert by falling strength; equal strengths keep their order. -/
def insertPeak (x : Int × Nat) : List (Int × Nat) → List (Int × Nat)
  | [] => [x]
  | y :: t => if y.2 < x.2 then x :: y :: t else y :: insertPeak x t

/-- Interferers of a stream, strongest first. -/
def interferers (s : State) (i : StreamIn) : List (Int × Nat) :=
  (i.peaks.filter fun p => decide (s.gnss.cfg.notchThresh ≤ p.2)).foldl (fun l x => insertPeak x l) []

/-- A placed AUTO notch after one spectrum: kept while its interferer is detected, released after 100 quiet FCs. -/
def holdNotch (found : List (Int × Nat)) (x : Notch) : Notch :=
  if !x.placed then x
  else if found.any (·.1 == x.offset) then { x with quiet := 0 }
  else if x.quiet + 1 < 100 then { x with quiet := x.quiet + 1 }
  else {}

/-- Put interferers, strongest first, on free notches; the rest is left over. -/
def placeNotches : Tbl Notch → List Nat → List (Int × Nat) → Tbl Notch × Nat
  | t, _, [] => (t, 0)
  | t, [], l => (t, l.length)
  | t, n :: ns, x :: l => placeNotches (tput t n { placed := true, offset := x.1 }) ns l

/-- The notches of a stream after its spectrum, and the interferers left without a notch. -/
def notchStream (s : State) (t : Tbl Notch) (stream : Nat) (i : StreamIn) : Tbl Notch × Nat :=
  let found := interferers s i
  let autos := autoNotches s stream
  let t := (List.range 4).foldl (fun t k =>
    let n := 4 * stream + k
    tput t n (if autos.contains n then holdNotch found (tgetD t n {}) else {})) t
  let placed := autos.filter fun n => (tgetD t n {}).placed
  let free := autos.filter fun n => !(tgetD t n {}).placed
  placeNotches t free (found.filter fun x => !placed.any fun n => (tgetD t n {}).offset == x.1)

/-- Notch centres in force on a stream, from the window centre. -/
def notchCentres (s : State) (stream : Nat) : List Int :=
  (List.range 4).filterMap fun k =>
    let n := 4 * stream + k
    let x := tgetD s.gnss.notches n {}
    match (notchCfg s n).1 with
    | 1 => if x.placed then some x.offset else none
    | 2 => some (notchCfg s n).2.2
    | _ => none

/-- A notch centre in force for the samples before the boundary lies within the main lobe of a signal on an antenna (R169). -/
def notched (s : State) (ant i : Nat) (k : Int) : Bool :=
  let g := signalOf i
  (s.gnss.centresWas.getD (3 * ant + g.band) []).any fun c =>
    decide ((windowCentre g.band + c - carrierOf g k).natAbs ≤ g.chip.natAbs)

/-- Number of notches placed on a stream (R194). DESIGN CHOICE: FIXED notches are not counted as placed. -/
def notchesPlaced (s : State) (stream : Nat) : Nat :=
  ((List.range 4).filter fun k => (tgetD s.gnss.notches (4 * stream + k) {}).placed).length

/-! ### The boundary: jamming, notches and antennas -/

/-- min(255, floor(16 × max(0, 10 × log10(P ÷ P0)))), counted exactly: J is reached where 10^J × P0^160 ≤ P^160 (R170). -/
def jamOf (p p0 : Nat) : Nat := ((List.range 255).filter fun j => decide (10 ^ (j + 1) * p0 ^ 160 ≤ p ^ 160)).length

/-- JAM and its event for one stream (R170, R194). -/
def streamBoundary (s : State) (stream : Nat) (i : StreamIn) : State :=
  let old := s.gnss.jam.getD stream 0
  let jam := jamOf i.power i.floor
  let warn := s.gnss.cfg.jamWarn
  let armed := s.gnss.jamArmed.getD stream true
  let fire := armed && decide (old < warn) && decide (warn ≤ jam)
  let (t, left) := notchStream s s.gnss.notches stream i
  let peak := (((interferers s i).head?).map (·.1)).getD 0
  let s := { s with
    gnss.notches := t
    gnss.notchOverflow := sat 16 (s.gnss.notchOverflow + left)
    gnss.jam := s.gnss.jam.set stream jam
    gnss.noise := s.gnss.noise.set stream i.floor
    gnss.agc := s.gnss.agc.set stream i.agc
    gnss.jamArmed := s.gnss.jamArmed.set stream ((armed && !fire) || decide (jam + 16 < warn)) }
  if fire then
    raise s 0x8302 .all (le 1 stream ++ le 1 jam ++ le 1 (notchesPlaced s stream) ++ zb 1 ++ leI 4 peak)
  else s

/-- The state whose condition a bias sample meets, of an antenna that is RF_SILENT or not (R171). -/
def antCondition (s : State) (silent : Bool) (i : AntIn) : Option Nat :=
  if i.mv < 3000 then some 4
  else if i.limit && i.mv < 4750 then some 3
  else if i.ma < 10 * s.gnss.cfg.biasOpen then some 2
  else if 4750 ≤ i.mv && !silent then some 1
  else none

/-- The state of an antenna after its sample (R171). -/
def antNext (s : State) (a : Nat) (x : Antenna) (c : Option Nat) : Nat :=
  if x.state != 4 && decide (300 ≤ x.silent) then 5
  else if !biasCfg s a then (if x.state = 5 && 300 ≤ x.silent then 5 else 0)
  else match c with
    | some v => if x.cand = v && 10 ≤ x.count then v else x.state
    | none => x.state

/-- One antenna's sample at a boundary (R171, R172). -/
def antSample (s : State) (a : Nat) (i : AntIn) : Antenna :=
  let x := tgetD s.gnss.ants a {}
  let other := tgetD s.gnss.ants (1 - a) {}
  let on := biasCfg s a && x.biasOffFc == 0 && !cableMeasuring s a
  let silent := if x.strong = 0 && 6 ≤ other.strong then min 300 (x.silent + 1) else 0
  let c := if on then antCondition s (silent == 300) i else none
  let x := { x with
    ma := i.ma
    mv := i.mv
    cand := c.getD x.cand
    count := match c with
      | some v => if v = x.cand then min 10 (x.count + 1) else 1
      | none => 0
    silent := silent }
  let st := antNext s a x c
  let again := st = 4 && (x.state != 4 || x.biasOnFc = 1)
  { x with
    state := st
    biasOffFc := if again then 101 else if st != 4 then 0 else if 1 < x.biasOffFc then x.biasOffFc - 1 else x.biasOffFc
    biasOnFc := if st = 4 && !again then x.biasOnFc - 1 else 0
    count := if again then 0 else x.count }

/-- The antenna of a boundary, with its event (R194). -/
def antBoundary (s : State) (a : Nat) (i : AntIn) : State :=
  let old := antState s a
  let x := antSample s a i
  let s := { s with gnss.ants := tput s.gnss.ants a x }
  if x.state == old then s else
  raise s 0x8301 .all (le 1 a ++ le 1 x.state ++ le 1 old ++ zb 1 ++ le 2 i.ma ++ le 2 i.mv)

/-- ANT_SHORT_RETRY (R172): the bias of a shorted antenna comes back on for 10 FC. -/
def opAntShortRetry (ant : Nat) (s : State) : State :=
  let x := tgetD s.gnss.ants ant {}
  if x.state != 4 || x.biasOffFc != 1 then s else
  { s with
    gnss.ants := tput s.gnss.ants ant { x with biasOffFc := 0, biasOnFc := 10, count := 0 }
    gnss.shortRetries := sat 16 (s.gnss.shortRetries + 1) }

def execAntShortRetry (ant : Nat) (s : State) : Host.Outcome State Fault Refusal :=
  if ant < 2 then .next (opAntShortRetry ant s) else .fault .noSuchUnit

/-! ### Channels (R174 to R176, R179, R183, R184) -/

/-- Change a channel that is assigned. -/
def modChan (s : State) (c : Nat) (f : Channel → Channel) : State :=
  match tget s.gnss.chans c with
  | none => s
  | some x => { s with gnss.chans := tput s.gnss.chans c (f x) }

/-- A primary channel waits for a search. -/
def waitsSearch (x : Channel) : Bool := x.assigned && (signalOf x.bit).primary && !x.active && !x.searching

/-- The channel searched next: the one whose last search lies furthest back, then the lowest CHAN_ID. -/
def nextSearch (t : Tbl Channel) : Option Nat :=
  (t.foldl (fun (b : Option (Nat × Nat)) e =>
    if !waitsSearch e.2 then b else
    match b with
    | some v => if e.2.searchFc < v.1 then some (e.2.searchFc, e.1) else b
    | none => some (e.2.searchFc, e.1)) none).map (·.2)

/-- Start searches while fewer than eight run (R176). DESIGN CHOICE: their order. -/
def startSearches (s : State) : State :=
  (List.range 8).foldl (fun s _ =>
    if 8 ≤ (s.gnss.chans.filter fun e => e.2.searching).length then s else
    match nextSearch s.gnss.chans with
    | some c => modChan s c fun x => { x with searching := true, searchFc := fcNow s }
    | none => s) s

/-- A search that has not handed over within 30 FC gives its place up. -/
def endSearches (s : State) : State :=
  { s with gnss.chans := tmap s.gnss.chans fun _ x => { x with searching := x.searching && decide (fcNow s ≤ x.searchFc + 30) } }

/-- Code lock begins at a PCLK of the FC. -/
def lockCode (s : State) (pclk : Nat) (x : Channel) : Channel :=
  { x with codeLock := true, codeAt := counterAt s pclk, ambig := 1, searching := false, active := true }

/-- Two channels track the same satellite from the same antenna. -/
def sameSat (x y : Channel) : Bool := y.ant == x.ant && y.sv == x.sv && (signalOf y.bit).sys == (signalOf x.bit).sys

/-- ACQUISITION_DONE (R176): a primary signal is handed over, and the satellite's other signals start from it. -/
def opAcquisitionDone (c pclk : Nat) (s : State) : State :=
  match tget s.gnss.chans c with
  | none => s
  | some x =>
    if !inFc s pclk || !x.searching then s else
    startSearches { s with gnss.chans := tmap s.gnss.chans fun i y =>
      if i = c then lockCode s pclk y else if sameSat x y then { y with active := true } else y }

def execAcquisitionDone (chan pclk : Nat) (s : State) : Host.Outcome State Fault Refusal :=
  if chan < 320 then .next (opAcquisitionDone chan pclk s) else .fault .noSuchUnit

/-- CODE_LOCK (R176): a signal started from its primary reaches code lock. -/
def opCodeLock (c pclk : Nat) (s : State) : State :=
  modChan s c fun x => if inFc s pclk && x.active && !x.codeLock then lockCode s pclk x else x

def execCodeLock (chan pclk : Nat) (s : State) : Host.Outcome State Fault Refusal :=
  if chan < 320 then .next (opCodeLock chan pclk s) else .fault .noSuchUnit

/-- PHASE_LOCK (R179): a pilot channel in phase lock has no half-cycle ambiguity. -/
def opPhaseLock (c pclk : Nat) (s : State) : State :=
  modChan s c fun x => if inFc s pclk && x.codeLock && !x.phaseLock then
    { x with phaseLock := true, lockAt := counterAt s pclk, halfCycle := (signalOf x.bit).pilot } else x

def execPhaseLock (chan pclk : Nat) (s : State) : Host.Outcome State Fault Refusal :=
  if chan < 320 then .next (opPhaseLock chan pclk s) else .fault .noSuchUnit

/-- BIT_SYNCHRONISATION (R179, R183): AMBIG advances, by bit or secondary-code synchronisation or by message time. The preamble
of a navigation message resolves the half cycle of a data-only channel in phase lock, at whichever message it is seen. -/
def opBitSynchronisation (c : Nat) (message : Bool) (s : State) : State :=
  modChan s c fun x =>
    if !x.codeLock then x
    else if !message then (if x.ambig = 1 then { x with ambig := 2 } else x)
    else if x.ambig = 2 || x.ambig = 0 then
      { x with ambig := 0, halfCycle := x.halfCycle || (x.phaseLock && !(signalOf x.bit).pilot) }
    else x

def execBitSynchronisation (chan : Nat) (message : Bool) (s : State) : Host.Outcome State Fault Refusal :=
  if chan < 320 then .next (opBitSynchronisation chan message s) else .fault .noSuchUnit

/-- LOSS_OF_LOCK (R183, R184): a slip, a loss of phase lock, or a loss of code lock. -/
def opLossOfLock (c : Nat) (code phase : Bool) (pclk : Nat) (s : State) : State :=
  if !inFc s pclk then s else
  startSearches (modChan s c fun x =>
    if !x.codeLock then x else
    { x with
      slip := true
      slips := (x.slips + 1) % 65536
      lockAt := counterAt s pclk
      phaseLock := x.phaseLock && !phase && !code
      halfCycle := x.halfCycle && !phase && !code
      codeLock := !code
      ambig := if code then 3 else x.ambig
      active := x.active && !(code && (signalOf x.bit).primary) })

def execLossOfLock (chan : Nat) (code phase : Bool) (pclk : Nat) (s : State) : Host.Outcome State Fault Refusal :=
  if chan < 320 then .next (opLossOfLock chan code phase pclk s) else .fault .noSuchUnit

/-- A wish of the assignment: class, antenna, BIT, satellite. -/
structure Wish where
  cls : Nat
  ant : Nat
  bit : Nat
  sat : SatView
deriving DecidableEq, Repr

/-- Candidate signals of a satellite (R175). -/
def satSignals (s : State) (v : SatView) : List Nat :=
  if v.healthy && decide ((s.gnss.cfg.elevMask : Int) < v.elev) then
    (List.range 18).filter fun i => bit s.gnss.cfg.sigMask i && (signalOf i).sys == v.sys
  else []

/-- Whether an antenna receives a signal (R175). -/
def antTakes (s : State) (a i : Nat) : Bool :=
  a == antInUse s || s.gnss.cfg.antB == 2 || (s.gnss.cfg.antB == 1 && (signalOf i).primary)

/-- Class of a wish: 0 to 3 of R175. -/
def wishClass (s : State) (a i : Nat) : Nat :=
  (if (signalOf i).primary then 0 else 2) + (if a == antInUse s then 0 else 1)

/-- The order within a class: by BIT for other signals, then by falling elevation (R175). -/
def wishBefore (x y : Wish) : Bool :=
  if 2 ≤ x.cls && x.bit != y.bit then decide (x.bit < y.bit) else decide (y.sat.elev < x.sat.elev)

/-- Insert a wish in the order of its class. DESIGN CHOICE: candidates of equal elevation keep the order in which the navigation
data name them. -/
def insertWish (x : Wish) : List Wish → List Wish
  | [] => [x]
  | y :: t => if wishBefore x y then x :: y :: t else y :: insertWish x t

/-- The wishes of one class in their order. -/
def wishesOf (s : State) (sky : List SatView) (cls : Nat) : List Wish :=
  let all := sky.flatMap fun v => (satSignals s v).flatMap fun i =>
    ([0, 1].filter fun a => antTakes s a i && wishClass s a i == cls).map fun a => { cls := cls, ant := a, bit := i, sat := v : Wish }
  all.foldl (fun l w => insertWish w l) []

/-- A channel tracks a wish. -/
def tracks (w : ChanWish) (x : Channel) : Bool := x.ant == w.ant && x.bit == w.bit && x.sv == w.sv && x.gloK == w.gloK

/-- A wish as POS hands it to the channel pool. -/
def handed (w : Wish) : ChanWish := { ant := w.ant, bit := w.bit, sv := w.sat.sv, gloK := w.sat.gloK, elev := w.sat.elev }

/-- The wishes granted, at most 320: class by class, those tracked already before new ones (R175). -/
def granted (s : State) (sky : List SatView) : List ChanWish :=
  let ordered := (List.range 4).flatMap fun c =>
    let l := (wishesOf s sky c).map handed
    let have' := l.filter fun w => s.gnss.chans.any fun e => tracks w e.2
    have' ++ l.filter fun w => !s.gnss.chans.any fun e => tracks w e.2
  ordered.take 320

/-- The channel a wish begins with: a signal whose primary tracks already starts from it (R176). -/
def freshChan (t : Tbl Channel) (w : ChanWish) : Channel :=
  let x : Channel := { assigned := true, ant := w.ant, bit := w.bit, sv := w.sv, gloK := w.gloK, elev := w.elev }
  { x with active := !(signalOf w.bit).primary && t.any fun e => sameSat x e.2 && (signalOf e.2.bit).primary && e.2.active }

/-- Give new wishes channels (R174). DESIGN CHOICE: the lowest free CHAN_ID. -/
def fillChans : Nat → Nat → Tbl Channel → List ChanWish → Tbl Channel
  | 0, _, t, _ => t
  | _, _, t, [] => t
  | fuel + 1, c, t, w :: ws =>
    match tget t c with
    | some _ => fillChans fuel (c + 1) t (w :: ws)
    | none => fillChans fuel (c + 1) (tput t c (freshChan t w)) ws

/-- The assignment POS has made takes effect: channels kept go on as they stand (R174). -/
def assignChannels (s : State) : State :=
  match s.gnss.assignNext with
  | none => s
  | some g =>
    let kept := s.gnss.chans.filterMap fun e => (g.find? fun w => tracks w e.2).map fun w => (e.1, { e.2 with elev := w.elev })
    startSearches { s with
      gnss.chans := fillChans 320 0 kept (g.filter fun w => !s.gnss.chans.any fun e => tracks w e.2)
      gnss.assignNext := none }

/-! ### Epochs (R28, R29, R180, R187) -/

/-- The power effects of LULL are in force, in LULL or in TENDER (R121). -/
def lullTracking (s : State) : Bool := s.mode.cur == .lull || s.supply.tenderLull

/-- The epoch rate in force. -/
def epochHz (s : State) : Nat := if lullTracking s then 1 else max 1 s.gnss.hzInForce

/-- The FC in progress is a measurement epoch. -/
def isEpochFc (s : State) : Bool := fcNow s % (100 / epochHz s) == 0

/-- A channel tracks during a LULL burst (R187). -/
def burstTracks (s : State) (x : Channel) : Bool := x.ant == antInUse s && bit s.gnss.cfg.lullMask x.bit

/-- A channel is measured at the latch: in the FC before, it tracked. -/
def measured (s : State) (x : Channel) : Bool :=
  x.assigned && !cableMeasuring s x.ant && (!s.gnss.burstWas || burstTracks s x)

/-- FTU in a millisecond. -/
def ftuPerMs : Nat := 63897600

/-- Code lock has held through the 200 ms before a counter value (R184). -/
def validAt (x : Channel) (c : Counter) : Bool := x.codeLock && decide (200 * ftuPerMs ≤ (c - x.codeAt).toNat)

/-- LOCK_TIME_MS at a counter value (R184). -/
def lockTime (x : Channel) (c : Counter) : Nat := if x.phaseLock then sat 32 ((c - x.lockAt).toNat / ftuPerMs) else 0

/-- MFLAGS at the latch edge (R184). -/
def mflags (s : State) (x : Channel) (c : Counter) : Nat :=
  flag (validAt x c) 15 + flag x.codeLock 14 + flag x.phaseLock 13 + flag x.halfCycle 12
    + flag (x.slip || s.gnss.burstWas) 11 + flag s.gnss.burstWas 10 + flag (notched s x.ant x.bit x.gloK) 9
    + flag ((signalOf x.bit).pilot && x.codeLock) 8 + x.ambig

/-- The stored delay of a signal's path from the antenna end of the cable, in ps: its cable, and for ANT-B the alignment of its
band to ANT-A (R182, R190). -/
def pathPs (s : State) (ant i : Nat) : Int :=
  if ant = 0 then s.gnss.cfg.cableA else s.gnss.cfg.cableB + s.gnss.cfg.align.getD (signalOf i).band 0

/-- The period of a system's TX_TOW in ms: a day for GLONASS, a week for the others (R182). -/
def towPeriod (i : Nat) : Nat := if (signalOf i).sys = 3 then 86400000 else 604800000

/-- TX_TOW at the antenna, the path's delay removed: what arrives there at the latch was sent that much later. -/
def txTowAt (s : State) (x : Channel) (m : ChanMeas) : Nat :=
  ((m.txTow + rdiv (pathPs s x.ant x.bit * (2 ^ 32 : Nat)) (10 ^ 9)) % ((towPeriod x.bit * 2 ^ 32 : Nat) : Int)).toNat

/-- CARRIER_PHASE at the antenna, the path's delay removed: it changes with the sign of the pseudorange. -/
def phaseAt (s : State) (x : Channel) (m : ChanMeas) : Int :=
  m.phase - rdiv (pathPs s x.ant x.bit * carrierOf (signalOf x.bit) x.gloK * (2 ^ 24 : Nat)) (10 ^ 12)

/-- The measurement record of a channel at the latch edge (R185). -/
def measRecord (s : State) (x : Channel) (c : Counter) (m : ChanMeas) : MeasRecord :=
  { chan := m.chan, ant := x.ant, bit := x.bit, sv := x.sv, gloK := x.gloK, flags := mflags s x c
    txTow := txTowAt s x m, phase := phaseAt s x m, doppler := m.doppler, cn0 := m.cn0, spacing := spacingOf s.gnss.cfg x.bit
    lockMs := if s.gnss.burstWas then min 200 (lockTime x c) else lockTime x c, slips := x.slips
    codeStd := m.codeStd, phaseStd := m.phaseStd, elev := x.elev, sat := m.sat, vel := m.vel, terms := m.terms
    iono := m.iono, tropo := m.tropo, iod := m.iod }

/-- The latch edge: the first GCLK edge at or after the boundary (R180). -/
def latchEdge (s : State) : Counter := counterAt s ((s.clk.boundary.toNat / 512) % 2)

/-- The records of an epoch in CHAN_ID order; a channel the event does not name reads as zeros. -/
def epochRecords (s : State) (e : EpochIn) : List MeasRecord :=
  (s.gnss.chans.filter fun c => measured s c.2).map fun c =>
    measRecord s c.2 (latchEdge s) ((e.meas.find? fun m => m.chan == c.1).getD { chan := c.1 })

/-- Channels of an antenna with C/N0 above 30 dB-Hz. -/
def strongOn (l : List MeasRecord) (a : Nat) : Nat := (l.filter fun r => r.ant == a && decide (7680 < r.cn0)).length

/-- The epoch as latched. -/
def epochOf (s : State) (l : List MeasRecord) : Epoch :=
  { fc := fcNow s
    counter := latchEdge s
    time := fullTime s.time.regs (latchEdge s)
    hz := epochHz s
    antInUse := antInUse s
    jam := s.gnss.jam
    burst := s.gnss.burstWas
    records := l
    frozen := freeze s }

/-- EPOCH_LATCH (R180 to R185): the shadow registers are taken, each channel's SLIP starts anew, and the assignment that
waited for the latch takes effect (R174). -/
def opEpochLatch (e : EpochIn) (s : State) : State :=
  if !running s || !isEpochFc s || s.gnss.captured.isSome then s else
  let l := epochRecords s e
  assignChannels { s with
    gnss.captured := some (epochOf s l)
    gnss.chans := tmap s.gnss.chans fun _ x => { x with slip := false }
    gnss.ants := tput (tmod s.gnss.ants 0 {} fun x => { x with strong := strongOn l 0 }) 1
      { (tgetD s.gnss.ants 1 {}) with strong := strongOn l 1 } }

def execEpochLatch (e : EpochIn) (s : State) : Host.Outcome State Fault Refusal := .next (opEpochLatch e s)

/-- ANT_B_ALIGN needs 8 common VALID satellites above 15 degrees in every FC (R190). -/
def commonSats (s : State) : Nat :=
  let ok := fun (x : Channel) => validAt x s.clk.boundary && decide (15 < x.elev) && (signalOf x.bit).primary
  (s.gnss.chans.filter fun e => e.2.ant == 0 && ok e.2
    && s.gnss.chans.any fun f => f.2.ant == 1 && ok f.2 && f.2.bit == e.2.bit && f.2.sv == e.2.sv).length

/-- What the boundary does to the baseband. -/
def gnssBoundary (s : State) (streams : List StreamIn) (ants : List AntIn) : State :=
  let s := { s with
    gnss.centresWas := (List.range 6).map (notchCentres s)
    gnss.burstWas := s.gnss.burstMode
    gnss.cfg := s.p.gnssCfg }
  let s := (List.range 6).foldl (fun s i => streamBoundary s i (streams.getD i {})) s
  let s := (List.range 2).foldl (fun s a => antBoundary s a (ants.getD a {})) s
  let s := endSearches { s with
    gnss.epochs := match s.gnss.captured with
      | some e => (e :: s.gnss.epochs).take 64
      | none => s.gnss.epochs
    gnss.captured := none
    gnss.hzInForce := if lullTracking s then 1 else if fcNow s % 100 = 0 then s.gnss.cfg.epochHz else s.gnss.hzInForce
    gnss.burstMode := lullTracking s && (s.gnss.burstMode || fcNow s % 100 == 80)
    gnss.cal := s.gnss.cal.map fun c => { c with lacked := c.lacked || (c.kind == 3 && decide (commonSats s < 8)) } }
  startSearches (if isEpochFc s then s else assignChannels s)

/-! ### Opcodes -/

/-- The settings as GNSS_CONFIG carries them (R189). -/
def gnssCfgBytes (s : State) (sig : Nat) : Bytes :=
  let c := s.p.gnssCfg
  le 1 c.epochHz ++ le 1 c.elevMask ++ le 1 c.antB ++ le 1 c.bias ++ le 4 c.sigMask ++ le 4 c.lullMask ++ le 1 c.jamWarn
    ++ le 1 c.notchThresh ++ le 1 c.pllBw ++ le 1 c.dllBw ++ le 1 c.biasOpen ++ le 1 sig
    ++ le 1 (match bitOfSig sig with | some i => spacingOf s.p.gnssCfg i | none => 0) ++ zb 13

/-- Settings after a GNSS_CONFIG payload. -/
def gnssCfgFrom (c : GnssConfig) (p : Bytes) : GnssConfig :=
  { c with
    epochHz := keep (fld p 0 1) c.epochHz
    elevMask := keep (fld p 1 1) c.elevMask
    antB := keep (fld p 2 1) c.antB
    bias := keep (fld p 3 1) c.bias
    sigMask := keep (fld p 4 4) c.sigMask
    lullMask := keep (fld p 8 4) c.lullMask
    jamWarn := keep (fld p 12 1) c.jamWarn
    notchThresh := keep (fld p 13 1) c.notchThresh
    pllBw := keep (fld p 14 1) c.pllBw
    dllBw := keep (fld p 15 1) c.dllBw
    biasOpen := keep (fld p 16 1) c.biasOpen
    spacing := match bitOfSig (fld p 17 1) with
      | some i => if fld p 18 1 = 0 then c.spacing else tput c.spacing i (fld p 18 1)
      | none => c.spacing }

/-- The primary signals as a mask (R175). -/
def primaryMask : Nat := 0x5111

/-- Ranges of R189. -/
def gnssCfgOk (p : Bytes) : Bool :=
  [0, 1, 2, 4, 5, 10, 20].contains (fld p 0 1) && within (fld p 1 1) 1 30 && within (fld p 2 1) 1 3 && within (fld p 3 1) 1 4
    && (fld p 4 4 == 0 || fld p 4 4 &&& primaryMask != 0) && within (fld p 13 1) 6 40 && within (fld p 14 1) 2 30
    && within (fld p 15 1) 5 200 && within (fld p 16 1) 1 20 && (fld p 17 1 == 0 || (bitOfSig (fld p 17 1)).isSome)
    && within (fld p 18 1) 4 64

/-- GNSS_CONFIG (R189). -/
def opGnssConfig (r : Request) (s : State) : State :=
  let p := r.payload
  let read := allZero p
  runOp s r (p.length == 32)
    (zeros p 19 13 && decide (fld p 4 4 < 2 ^ 18) && decide (fld p 8 4 < 2 ^ 18) && (fld p 17 1 != 0 || fld p 18 1 == 0))
    (read || supOk s r) (edtOr s 0x0302 read mCfg) fun s =>
  if read then finish s r stOk (gnssCfgBytes s 0) else
  need (gnssCfgOk p) s r stBadRange fun s =>
  change1 s r siteObj (fun s => { s with p.gnssCfg := gnssCfgFrom s.p.gnssCfg p }) (fun s => gnssCfgBytes s (fld p 17 1))

def execGnssConfig (r : Request) (s : State) : Host.Outcome State Fault Refusal := .next (opGnssConfig r s)

/-- Reply of GNSS_CALIBRATE (R190). -/
def calReply (s : State) : Bytes :=
  le 4 s.p.gnssCfg.cableA ++ le 4 s.p.gnssCfg.cableB ++ (s.p.gnssCfg.align.take 3).flatMap (leI 4) ++ zb 12

/-- Store a cable delay. -/
def setCable (s : State) (ant d : Nat) : State :=
  if ant = 0 then { s with p.gnssCfg.cableA := d } else { s with p.gnssCfg.cableB := d }

/-- GNSS_CALIBRATE (R190). -/
def opGnssCalibrate (r : Request) (s : State) : State :=
  let p := r.payload
  let kind := fld p 0 1
  runOp s r (p.length == 16) (zeros p 2 2 && zeros p 8 8 && (kind == 2 || zeros p 4 4) && (kind != 3 || zeros p 1 1))
    (svcOk s r) (inModes s [.watch]) fun s =>
  need (decide (1 ≤ kind) && decide (kind ≤ 3) && decide (fld p 1 1 < 2)
      && (kind != 2 || (decide (1 ≤ fld p 4 4) && decide (fld p 4 4 ≤ 2000000)))) s r stBadRange fun s =>
  need s.gnss.cal.isNone s r stBusy fun s =>
  if kind = 2 then change1 s r siteObj (fun s => setCable s (fld p 1 1) (fld p 4 4)) calReply else
  accept { s with gnss.cal := some { kind := kind, antenna := fld p 1 1, endFc := fcNow s + (if kind = 1 then 200 else 60000), req := r } } r 1 []

def execGnssCalibrate (r : Request) (s : State) : Host.Outcome State Fault Refusal := .next (opGnssCalibrate r s)

/-- GNSS_CALIBRATION_DONE (R190): the values found are committed, or the calibration has failed. -/
def opGnssCalibrationDone (delay : Option Nat) (align : List Int) (s : State) : State :=
  match s.gnss.cal with
  | none => s
  | some c =>
    if fcNow s < c.endFc then s else
    let s := { s with gnss.cal := none, com.cmdCommits := 0 }
    if c.kind = 1 then
      match delay with
      | none => finish s c.req stCalFailed (calReply s)
      | some d => change1 s c.req siteObj (fun s => setCable s c.antenna d) calReply
    else if c.lacked || align.length != 3 then finish s c.req stCalFailed (calReply s)
    else change1 s c.req siteObj (fun s => { s with p.gnssCfg.align := align }) calReply

def execGnssCalibrationDone (delay : Option Nat) (align : List Int) (s : State) : Host.Outcome State Fault Refusal :=
  .next (opGnssCalibrationDone delay align s)

/-- A measurement record as bytes (R185). -/
def measBytes (m : MeasRecord) : Bytes :=
  le 2 m.chan ++ le 1 m.ant ++ le 1 (signalOf m.bit).sigId ++ le 1 m.sv ++ leI 1 m.gloK ++ le 2 m.flags ++ le 8 m.txTow
    ++ leI 8 m.phase ++ leI 4 m.doppler ++ le 2 m.cn0 ++ le 1 m.spacing ++ zb 1 ++ le 4 m.lockMs ++ le 2 m.slips
    ++ le 2 m.codeStd ++ le 2 m.phaseStd ++ zb 6

/-- An epoch header (R185). -/
def epochHeader (e : Epoch) : Bytes :=
  le 8 e.counter.toNat ++ leTime e.time ++ le 2 (eraOf e.time) ++ le 2 e.records.length ++ le 1 e.hz ++ le 1 e.antInUse ++ le 1 e.tsol
    ++ le 1 e.tsolSats ++ le 8 e.fc ++ leI 4 e.tsolX ++ e.jam.flatMap (le 1) ++ le 2 (flag e.burst 0) ++ zb 4

/-- Groups of `n` records. -/
def groups {α : Type} (n : Nat) : Nat → List α → List (List α)
  | 0, _ => []
  | fuel + 1, l => if l.isEmpty then [] else l.take n :: groups n fuel (l.drop n)

/-- Fragments of GNSS_MEAS_READ without their FRAG_INDEX heads (R191). -/
def measParts (e : Epoch) : List Bytes :=
  (epochHeader e ++ (e.records.take 28).flatMap measBytes)
    :: (groups 29 12 (e.records.drop 28)).map fun l => l.flatMap measBytes

/-- GNSS_MEAS_READ (R191). -/
def opGnssMeasRead (r : Request) (s : State) : State :=
  runOp s r (r.payload.length == 8) true true (edt s 0x0303) fun s =>
  let fc := fld r.payload 0 8
  match (if fc = 0 then s.gnss.epochs.head? else s.gnss.epochs.find? (·.fc == fc)) with
  | none => finish s r (if fc = 0 then stNotReady else stBadRange) []
  | some e => finishFrags s r (measParts e) 12

def execGnssMeasRead (r : Request) (s : State) : Host.Outcome State Fault Refusal := .next (opGnssMeasRead r s)

/-- Satellites with a VALID measurement on an antenna, of one system. -/
def satsValid (e : Epoch) (ant sys : Nat) : Nat :=
  ((e.records.filter fun m => m.ant == ant && (signalOf m.bit).sys == sys && bit m.flags 15).map (·.sv)).eraseDups.length

/-- GNSS_STATUS (R192). -/
def gnssStatusReply (s : State) : Bytes :=
  let a := tgetD s.gnss.ants 0 {}
  let b := tgetD s.gnss.ants 1 {}
  let e := (s.gnss.epochs.head?).getD {}
  le 1 a.state ++ le 1 b.state ++ le 2 a.ma ++ le 2 b.ma ++ le 2 s.gnss.chans.length ++ s.gnss.jam.flatMap (le 1)
    ++ le 2 s.gnss.notchOverflow
    ++ (List.range 6).flatMap (fun i => le 1 (bitsOf ((List.range 4).map fun k => (tgetD s.gnss.notches (4 * i + k) {}).placed)
        + 16 * bitsOf ((List.range 4).map fun k => (notchCfg s (4 * i + k)).1 == 2)))
    ++ zb 2 ++ le 8 e.fc ++ (List.range 5).flatMap (fun y => le 1 (satsValid e e.antInUse y)) ++ le 1 (epochHz s)
    ++ le 2 s.gnss.shortRetries

/-- GNSS_STATUS (R192). -/
def opGnssStatus (r : Request) (s : State) : State := readOp s r 0x0301 gnssStatusReply

def execGnssStatus (r : Request) (s : State) : Host.Outcome State Fault Refusal := .next (opGnssStatus r s)

/-- GNSS_NOTCH_SET (R193). -/
def opGnssNotchSet (r : Request) (s : State) : State :=
  let p := r.payload
  let mode := fld p 2 1
  let off := fldI p 4 4
  runOp s r (p.length == 16) (zeros p 8 8 && (mode == 2 || zeros p 4 4)) (supOk s r)
    (inModes s [.tender, .calm, .zephyr, .breeze, .drift, .watch]) fun s =>
  need (decide (fld p 0 1 < 6) && decide (fld p 1 1 < 4) && decide (1 ≤ mode) && decide (mode ≤ 3) && decide (1 ≤ fld p 3 1)
      && decide (fld p 3 1 ≤ 4) && decide (off.natAbs ≤ 30000000)) s r stBadRange fun s =>
  change1 s r siteObj
    (fun s => { s with p.gnssCfg.notchMode := tput s.p.gnssCfg.notchMode (4 * fld p 0 1 + fld p 1 1) (mode, fld p 3 1, off) })
    (fun _ => [])

def execGnssNotchSet (r : Request) (s : State) : Host.Outcome State Fault Refusal := .next (opGnssNotchSet r s)

end Sys2Proof.Machine
end

