-- ==== Sys2Proof/Machine/Observe.lean ====
section
/-! DEFINITION. What POS forms from the measurements of an epoch: pseudoranges and phase ranges, their checks, single-point
positions, and the time solution (R182, R186, R198, R200, R201). Ranges are whole numbers of 0.1 mm / 1,024; positions are ECEF
in 0.1 mm. The satellite's place, its clock and group delay, and the delays of the atmosphere come with the measurement. -/

namespace Sys2Proof.Machine

open Sys2Proof

/-! ### Base and site -/

/-- A base position is fixed for solving: SURVEYED or ENTERED, and no survey running (R197). -/
def baseHeld (s : State) : Bool := !s.ref.surveying && baseFixed s

/-- The current tie. -/
def tieOf (s : State) : Vec := (s.p.refFrame.x0, s.p.refFrame.y0, s.p.refFrame.z0)

/-- ANT-B's ARP from ANT-A's as an ECEF vector, 0.1 mm (R199). -/
def baselineEcef (s : State) : Vec :=
  ecefOf s.p.refFrame.lat s.p.refFrame.lon (vmap (10 * ·) (s.p.refFrame.baseline.getD (0, 0, 0)))

/-- The ARP of an antenna. -/
def arpOf (s : State) (ant : Nat) : Vec := if ant = 0 then tieOf s else vadd (tieOf s) (baselineEcef s)

/-! ### Satellites and signals -/

/-- A satellite's key: system and number. -/
def satKey (m : MeasRecord) : Nat := (signalOf m.bit).sys * 256 + m.sv

/-- A signal's key: satellite and BIT. -/
def sigKey (m : MeasRecord) : Nat := satKey m * 32 + m.bit

/-- Distinct satellites of records. -/
def satsOf (l : List MeasRecord) : List Nat := (l.map satKey).eraseDups

/-- Distinct systems of records, in rising order. -/
def systemsOf (l : List MeasRecord) : List Nat := (List.range 5).filter fun y => l.any fun m => (signalOf m.bit).sys == y

/-- Carrier of a record's signal, Hz. -/
def carrierHz (m : MeasRecord) : Nat := (carrierOf (signalOf m.bit) m.gloK).natAbs

/-- The record of a signal on the other antenna. -/
def onOther (e : Epoch) (m : MeasRecord) : Option MeasRecord := e.records.find? fun x => x.ant != m.ant && sigKey x == sigKey m

/-! ### Pseudorange and phase range (R182) -/

/-- Speed of light, 0.1 mm / 1,024 per second. -/
def lightU : Int := 3069874769920000

/-- Reported time of an epoch in a system's own time, FTU: BeiDou lags GPS by 14 s, and GLONASS keeps UTC plus 3 h (R182). -/
def systemTime (s : State) (sys t : Nat) : Int :=
  if sys = 2 then t - 14 * ftuPerSec
  else if sys = 3 then t + (10800 - (leapAt s (t / ftuPerSec)).1) * ftuPerSec
  else t

/-- ρ of a record at the latch: c × (t_rx − t_tx), t_rx and t_tx taken modulo the period of TX_TOW (R182). -/
def codeAt (s : State) (e : Epoch) (m : MeasRecord) : Int :=
  let period : Nat := towPeriod m.bit * ftuPerMs * 2 ^ 32
  let d := (systemTime s (signalOf m.bit).sys e.time * (2 ^ 32 : Nat) - m.txTow * ftuPerMs) % period
  rdiv ((if 2 * d < period then d else d - period) * lightU) (ftuPerSec * 2 ^ 32)

/-- Carrier phase at the latch as a range. -/
def phaseRange (m : MeasRecord) : Int := rdiv (m.phase * lightU) (carrierHz m * 2 ^ 24)

/-- Rate of the range a second, from DOPPLER: positive DOPPLER, falling range. -/
def rangeRate (m : MeasRecord) : Int := rdiv (-m.doppler * lightU) (carrierHz m * 1024)

/-- Carrier lock at the latch. -/
def phaseLocked (m : MeasRecord) : Bool := bit m.flags 13

/-- Distance at the latch from a point to the satellite. -/
def rangeFrom (p : Vec) (m : MeasRecord) : Int := distFine p m.sat

/-- The geometric part of the single difference over the baseline at the latch: the range from ANT-B less that from ANT-A. -/
def geometric (s : State) (m : MeasRecord) : Int := rangeFrom (arpOf s 1) m - rangeFrom (arpOf s 0) m

/-- Code less what POS expects of it besides position and clock. -/
def codeModel (s : State) (e : Epoch) (m : MeasRecord) : Int := codeAt s e m - (m.terms + m.iono + m.tropo) * 1024

/-! ### Checks (R201) -/

/-- VALID and not excluded by NOTCHED_POLICY. -/
def usable (s : State) (m : MeasRecord) : Bool := bit m.flags 15 && !(bit m.flags 9 && s.p.refCfg.notched == 1)

/-- Insert in rising order. -/
def insertInt (x : Int) : List Int → List Int
  | [] => [x]
  | y :: t => if x ≤ y then x :: y :: t else y :: insertInt x t

/-- The median; of an even count, the mean of the middle two rounded down. -/
def medianInt (l : List Int) : Int :=
  let v := l.foldl (fun a x => insertInt x a) []
  let n := v.length
  if n % 2 = 1 then v.getD (n / 2) 0 else (v.getD (n / 2 - 1) 0 + v.getD (n / 2) 0) / 2

/-- Code residual of a record to the fixed base. -/
def codeResid (s : State) (e : Epoch) (m : MeasRecord) : Int := codeModel s e m - rangeFrom (arpOf s m.ant) m

/-- The code check (R201): the residual less the median of all signals of the band stays within CODE_RESID_CM. DESIGN CHOICE:
while no base position is fixed there is no residual to it, and no signal fails. -/
def codePasses (s : State) (e : Epoch) (m : MeasRecord) : Bool :=
  let band := e.records.filter fun x => x.ant == m.ant && (signalOf x.bit).band == (signalOf m.bit).band && usable s x
  !baseHeld s || decide ((codeResid s e m - medianInt (band.map (codeResid s e))).natAbs ≤ s.p.refCfg.codeResid * 102400)

/-- The excluded satellites after an antenna's checks: a primary signal that fails excludes its satellite until the primary has
passed in 60 consecutive epochs (R201). -/
def checkSats (s : State) (e : Epoch) (ant : Nat) : Tbl Nat :=
  let prim := e.records.filter fun m => m.ant == ant && (signalOf m.bit).primary && usable s m
  let runs := s.ref.excluded.map fun x => (x.1, if prim.any fun m => satKey m == x.1 && codePasses s e m then x.2 + 1 else 0)
  (prim.filter fun m => !codePasses s e m).foldl (fun t m => tput t (satKey m) 0) (runs.filter fun x => decide (x.2 < 60))

/-- A satellite is excluded. -/
def excludedIn (ex : Tbl Nat) (m : MeasRecord) : Bool := (tget ex (satKey m)).isSome

/-- A signal passes on its antenna. -/
def passes (s : State) (e : Epoch) (ex : Tbl Nat) (m : MeasRecord) : Bool :=
  usable s m && codePasses s e m && !excludedIn ex m

/-- The epoch before one, as retained. -/
def prevEpoch (s : State) (e : Epoch) : Option Epoch := s.gnss.epochs.find? fun p => decide (p.counter < e.counter)

/-- Milliseconds from the epoch before one to it. -/
def sinceLast (s : State) (e : Epoch) : Nat :=
  match prevEpoch s e with
  | some p => (e.counter - p.counter).toNat / ftuPerMs
  | none => 0

/-- The continuity test fails (R201): code minus carrier has changed by more than 1.5 m since the previous epoch, or the carrier
departs by more than 0.25 cycle from the Doppler prediction. DESIGN CHOICE: the prediction is the mean of both epochs' DOPPLER. -/
def jumps (s : State) (e : Epoch) (m : MeasRecord) : Bool :=
  match prevEpoch s e with
  | none => false
  | some p =>
    match p.records.find? fun x => x.ant == m.ant && sigKey x == sigKey m with
    | none => false
    | some q =>
      let cmc := (codeAt s e m - phaseRange m) - (codeAt s p q - phaseRange q)
      let expect := rdiv (-(m.doppler + q.doppler) * (2 ^ 13 : Nat) * (e.counter - p.counter).toNat) ftuPerSec
      phaseLocked m && phaseLocked q && (decide (15360000 < cmc.natAbs) || decide (2 ^ 22 < (m.phase - q.phase - expect).natAbs))

/-! ### Position and clock from code (R186, R198) -/

/-- A code observation: the satellite's place, the range, and the system whose clock it is in. -/
structure CodeObs where
  sat : Vec
  range : Int
  sys : Nat
deriving DecidableEq, Repr

/-- One row of a Gauss-Newton step at a point: derivatives by the point and by each system's clock, and what is left of the range. -/
def codeRow (systems : List Nat) (p : Vec) (o : CodeObs) : List Rat × Rat :=
  let r := distFine p o.sat
  let d := vsub p o.sat
  let k (x : Int) : Rat := mkRat (x * 1024) r.natAbs
  ([k d.1, k d.2.1, k d.2.2] ++ systems.map fun y => if y = o.sys then 1 else 0, o.range - r)

/-- Position, clocks and the residuals at them. -/
structure CodeFix where
  pos : Vec
  clocks : List Int
  resid : List Int
deriving DecidableEq, Repr

/-- What is left of each observation at a point and clocks. -/
def codeLeft (systems : List Nat) (p : Vec) (clocks : List Int) (l : List CodeObs) : List Int :=
  l.map fun o => o.range - distFine p o.sat - clocks.getD (systems.findIdx (· == o.sys)) 0

/-- Gauss-Newton steps from a point, at most `n`, ending with one below 0.1 mm; none where a step has no unique solution. -/
def codeSteps (systems : List Nat) (l : List CodeObs) : Nat → Vec → Option CodeFix
  | 0, _ => none
  | n + 1, p =>
    let unknowns := 3 + systems.length
    let rows := normalRows unknowns (l.map (codeRow systems p))
    if (eliminate unknowns 0 [] rows).length < unknowns then none else
    let v := (solveRows unknowns rows fun _ => 0).map roundRat
    let step : Vec := (rdiv (v.getD 0 0) 1024, rdiv (v.getD 1 0) 1024, rdiv (v.getD 2 0) 1024)
    let q := vadd p step
    if step = (0, 0, 0) then some { pos := q, clocks := v.drop 3, resid := codeLeft systems q (v.drop 3) l }
    else codeSteps systems l n q

/-- With the position held, each system's clock is the mean of its observations. -/
def heldFix (systems : List Nat) (p : Vec) (l : List CodeObs) : CodeFix :=
  let clocks := systems.map fun y =>
    let r := (l.filter fun o => o.sys == y).map fun o => o.range - distFine p o.sat
    rdiv r.sum (max 1 r.length)
  { pos := p, clocks := clocks, resid := codeLeft systems p clocks l }

/-- Where the steps begin: the tie, or with none the centre of the Earth. -/
def startPoint (s : State) : Vec := if s.p.refFrame.frameSet then tieOf s else (0, 0, 0)

/-- The residual RMS exceeds 10 m. -/
def rmsOver (l : List Int) : Bool := decide ((102400000 ^ 2 * l.length : Nat) < (l.map fun r => r.natAbs ^ 2).sum)

/-- One record as an observation. -/
def codeObs (s : State) (e : Epoch) (m : MeasRecord) : CodeObs :=
  { sat := m.sat, range := codeModel s e m, sys := (signalOf m.bit).sys }

/-- The time solution of an epoch: TSOL, TSOL_SATS and x in FTU, that of the first system in the order of R173 (R186).
DESIGN CHOICE: the inter-system unknowns are those of the systems before exclusions, and every observation counts alike. -/
def timeSolution (s : State) (e : Epoch) (ex : Tbl Nat) : Nat × Nat × Int :=
  let l := e.records.filter fun m => m.ant == e.antInUse && bit m.flags 15 && !bit m.flags 9
  let used := l.filter fun m => !excludedIn ex m
  let unknowns := max 1 (systemsOf l).length + (if baseHeld s then 0 else 3)
  let n := (satsOf used).length
  if (satsOf l).length < unknowns then (0, 0, 0)
  else if n < (if baseHeld s then 4 else 5) || n < unknowns then (2, n, 0)
  else
    let systems := systemsOf used
    let obs := used.map (codeObs s e)
    let fix := if baseHeld s then some (heldFix systems (arpOf s e.antInUse) obs) else codeSteps systems obs 10 (startPoint s)
    match fix with
    | none => (0, 0, 0)
    | some v => if rmsOver v.resid then (3, n, 0) else (1, n, rdiv (v.clocks.getD 0 0 * ftuPerSec) lightU.natAbs)

/-- The observation of one satellite for the single-point position (R198): its first signal with its first one of another band,
combined ionosphere-free, or its first signal alone. -/
def freeObs (s : State) (e : Epoch) (l : List MeasRecord) (k : Nat) : Option CodeObs :=
  match l.filter fun m => satKey m == k with
  | [] => none
  | a :: rest =>
    match rest.find? fun b => (signalOf b.bit).band != (signalOf a.bit).band with
    | none => some (codeObs s e a)
    | some b =>
      let fa := carrierHz a ^ 2
      let fb := carrierHz b ^ 2
      let v (m : MeasRecord) : Int := codeModel s e m + m.iono * 1024
      let num := fa * v a - fb * v b
      some { sat := a.sat, sys := (signalOf a.bit).sys, range := if fb < fa then rdiv num (fa - fb) else rdiv (-num) (fb - fa) }

/-- The single-point position of an epoch on ANT-A, where its satellites fix one (R198). -/
def singlePoint (s : State) (e : Epoch) (ex : Tbl Nat) : Option Vec :=
  let l := e.records.filter fun m => m.ant == 0 && passes s e ex m
  let systems := systemsOf l
  if (satsOf l).length < 3 + max 1 systems.length then none
  else (codeSteps systems ((satsOf l).filterMap (freeObs s e l)) 10 (startPoint s)).map (·.pos)

/-! ### The nominal instant (R200) -/

/-- t_nom of an epoch, in whole milliseconds of GPS time. -/
def nominalMs (e : Epoch) : Nat := ((e.time : Int) - e.x + 31948800).toNat / 63897600

/-- From the latch instant to t_nom, FTU. -/
def toNominal (e : Epoch) : Int := nominalMs e * ftuPerMs - ((e.time : Int) - e.x)

/-- A rate over that interval. -/
def overNominal (e : Epoch) (rate : Int) : Int := rdiv (rate * toNominal e) ftuPerSec

/-- Where the satellite is at t_nom. -/
def satNominal (e : Epoch) (m : MeasRecord) : Vec := vadd m.sat (vmap (overNominal e) m.vel)

/-- Code at t_nom, referred to ANT-A's ARP (R200, R204). The ALIGN_PS of R190 is already taken off ANT-B's code. -/
def nominalCode (s : State) (e : Epoch) (m : MeasRecord) : Int :=
  codeAt s e m + overNominal e (rangeRate m) - (if m.ant = 0 then 0 else geometric s m)

/-- The tie of a signal. -/
def tieFor (s : State) (m : MeasRecord) : Tie := tgetD s.ref.ties (sigKey m) {}

/-- Carrier phase at t_nom as a range, referred to ANT-A's ARP through the signal's tie (R200, R204). -/
def nominalPhase (s : State) (e : Epoch) (m : MeasRecord) : Int :=
  phaseRange m + overNominal e (rangeRate m) + (tieFor s m).carry
    - (if m.ant = 0 then 0 else geometric s m + (tieFor s m).held.getD 0)

/-- What R210 takes off both: the range from the tie, and the terms of the ephemeris. -/
def nominalModel (s : State) (e : Epoch) (m : MeasRecord) : Int :=
  distFine (tieOf s) (satNominal e m) + m.terms * 1024

end Sys2Proof.Machine
end

