-- ==== Sys2Proof/Machine/Rtcm.lean ====
section
/-! DEFINITION. The RTCM 3.x messages to hosts (R206, R207): transport frames, MSM7, 1006, 1008, 1033 and 1230. PRESUMED: the
field layouts, signal numbers and lock-time table are those of the RTCM standard, which the spec names and does not repeat. -/

namespace Sys2Proof.Machine

open Sys2Proof

/-! ### Bits and transport frames -/

/-- A field of a message: its width and its value. -/
abbrev BitField : Type := Nat × Int

/-- Fields one after another, most significant bit first: how many bits, and the number they spell. -/
def packBits (l : List BitField) : Nat × Nat :=
  l.foldl (fun a f => (a.1 + f.1, a.2 * 2 ^ f.1 + (f.2 % ((2 ^ f.1 : Nat) : Int)).toNat)) (0, 0)

/-- Fields as whole bytes, padded with zeros. -/
def bitBytes (l : List BitField) : Bytes :=
  let (n, v) := packBits l
  let k := (n + 7) / 8
  be k (v * 2 ^ (8 * k - n))

/-- Eight steps of CRC-24Q. -/
def crc24Bits : Nat → Nat → Nat
  | 0, c => c
  | n + 1, c => crc24Bits n (if c < 2 ^ 23 then 2 * c else (2 * c) ^^^ 0x1864CFB)

/-- CRC-24Q. -/
def crc24 (p : Bytes) : Nat := p.foldl (fun c b => crc24Bits 8 (c ^^^ (b.toNat * 65536))) 0

/-- A version 3 transport frame. -/
def rtcmFrame (l : List BitField) : Bytes :=
  let d := bitBytes l
  let b := le 1 0xD3 ++ be 2 d.length ++ d
  b ++ be 3 (crc24 b)

/-- Text as a counted string. -/
def countedText (p : Bytes) : List BitField := (8, (p.length : Int)) :: p.map fun b => (8, (b.toNat : Int))

/-- The characters of a zero-filled field. -/
def textOf (p : Bytes) : Bytes := p.takeWhile (· != 0)

/-! ### MSM7 -/

/-- A cell: the record, the ranges at t_nom in 0.1 mm / 1,024, the phase less its whole cycles, and LOCK_TIME_MS. -/
structure MsmCell where
  rec' : MeasRecord
  code : Int
  phase : Int
  lock : Nat
deriving DecidableEq, Repr

/-- Satellite number in the satellite mask. -/
def msmSat (m : MeasRecord) : Nat := if (signalOf m.bit).sys = 4 then m.sv - 192 else m.sv

/-- Signal number in the signal mask, by BIT. -/
def msmSig (m : MeasRecord) : Nat := [2, 32, 17, 24, 5, 24, 16, 11, 2, 32, 24, 8, 2, 8, 2, 32, 17, 24].getD m.bit 0

/-- Message number of MSM7, by system. -/
def msmNumber (sys : Nat) : Nat := [1077, 1097, 1127, 1087, 1117].getD sys 0

/-- Systems in the order of their messages. -/
def msmOrder : List Nat := [0, 3, 1, 4, 2]

/-- Satellite and signal numbers of cells, rising. -/
def satNumbers (l : List MsmCell) : List Nat := (List.range 65).filter fun n => l.any fun c => msmSat c.rec' == n
def sigNumbers (l : List MsmCell) : List Nat := (List.range 33).filter fun n => l.any fun c => msmSig c.rec' == n

/-- A mask of numbers counted from 1 at its most significant bit. -/
def maskBits (w : Nat) (l : List Nat) : List BitField := (List.range w).map fun i => (1, if l.contains (i + 1) then 1 else 0)

/-- A range in parts of 2^-k of a millisecond. -/
def rangeMs (k : Nat) (x : Int) : Int := rdiv (x * ((1000 * 2 ^ k : Nat) : Int)) lightU.natAbs

/-- The rough range of a satellite in 2^-10 ms, from the code of its first signal. -/
def roughRange (l : List MsmCell) (sat : Nat) : Int := ((l.find? fun c => msmSat c.rec' == sat).map fun c => rangeMs 10 c.code).getD 0

/-- The rough phase range rate of a satellite in m/s. -/
def roughRate (l : List MsmCell) (sat : Nat) : Int :=
  ((l.find? fun c => msmSat c.rec' == sat).map fun c => rdiv (rangeRate c.rec') 10240000).getD 0

/-- A value of a signed field, or the field's mark of no value where it does not fit. -/
def fineField (w : Nat) (x : Int) : BitField := (w, if x.natAbs < 2 ^ (w - 1) then x else -(2 ^ (w - 1) : Nat))

/-- The lock time indicator of a lock time in ms: exact below 64 ms, then halving its resolution at each doubling. -/
def lockIndicator (ms : Nat) : Nat :=
  let k := Nat.log2 ms - 5
  if 2 ^ 26 ≤ ms then 704 else 32 * k + ms / 2 ^ k

/-- The epoch time of a system at an instant in ms of GPS time. -/
def msmTime (s : State) (sys ms : Nat) : List BitField :=
  if sys = 3 then
    let t : Int := (ms : Int) + 10800000 - (leapAt s (ms / 1000)).1 * 1000
    [(3, t / 86400000 % 7), (27, t % 86400000)]
  else if sys = 2 then [(30, ((ms : Int) - 14000) % 604800000)]
  else [(30, (ms % 604800000 : Nat))]

/-- STATION_ID as sent. -/
def stationId (s : State) : Nat := s.p.refCfg.station - 1

/-- One MSM7 message of a system's cells (R207). -/
def msm7 (s : State) (sys ms : Nat) (more : Bool) (l : List MsmCell) : Bytes :=
  let sats := satNumbers l
  let sigs := sigNumbers l
  let grid := sats.flatMap fun a => sigs.map fun g => l.find? fun c => msmSat c.rec' == a && msmSig c.rec' == g
  let cells := grid.filterMap id
  let rough (c : MsmCell) : Int := roughRange l (msmSat c.rec')
  let first (a : Nat) : MsmCell := (l.find? fun c => msmSat c.rec' == a).getD ⟨{}, 0, 0, 0⟩
  rtcmFrame
    ([(12, (msmNumber sys : Int)), (12, (stationId s : Int))] ++ msmTime s sys ms
      ++ [(1, if more then 1 else 0), (3, 0), (7, 0), (2, 1), (2, 0), (1, 0), (3, 0)]
      ++ maskBits 64 sats ++ maskBits 32 sigs ++ grid.map (fun c => ((1, if c.isSome then 1 else 0) : BitField))
      ++ sats.map (fun a => ((8, if 0 ≤ roughRange l a ∧ roughRange l a < 255 * 1024 then roughRange l a / 1024 else 255) : BitField))
      ++ sats.map (fun a => ((4, if sys = 3 then (first a).rec'.gloK + 7 else 0) : BitField))
      ++ sats.map (fun a => ((10, roughRange l a % 1024) : BitField))
      ++ sats.map (fun a => fineField 14 (roughRate l a))
      ++ cells.map (fun c => fineField 20 (rangeMs 29 c.code - rough c * 2 ^ 19))
      ++ cells.map (fun c => fineField 24 (rangeMs 31 c.phase - rough c * 2 ^ 21))
      ++ cells.map (fun c => ((10, (lockIndicator c.lock : Int)) : BitField))
      ++ cells.map (fun c => ((1, if bit c.rec'.flags 12 then 0 else 1) : BitField))
      ++ cells.map (fun c => ((10, ((c.rec'.cn0 / 16 : Nat) : Int)) : BitField))
      ++ cells.map (fun c => fineField 15 (rdiv (rangeRate c.rec') 1024 - roughRate l (msmSat c.rec') * 10000)))

/-- Split a system's cells by satellites in rising order into groups whose cell mask holds at most 64 cells (R207). -/
def splitCells (l : List MsmCell) : List Nat → List MsmCell → List (List MsmCell)
  | [], cur => if cur.isEmpty then [] else [cur]
  | a :: rest, cur =>
    let mine := l.filter fun c => msmSat c.rec' == a
    let both := cur ++ mine
    if (satNumbers both).length * (sigNumbers both).length ≤ 64 then splitCells l rest both
    else cur :: splitCells l rest mine

/-- The MSM7 messages of an epoch, for each system with cells (R206). -/
def msmMessages (s : State) (ms : Nat) (l : List MsmCell) : List Bytes :=
  msmOrder.flatMap fun sys =>
    let mine := l.filter fun c => (signalOf c.rec'.bit).sys == sys
    let groups := splitCells mine (satNumbers mine) []
    groups.zipIdx.map fun g => msm7 s sys ms (g.2 + 1 != groups.length) g.1

/-! ### Station messages (R206) -/

/-- 1006: the ARP of the station, antenna height 0. -/
def message1006 (s : State) : Bytes :=
  let f := s.p.refFrame
  rtcmFrame [(12, 1006), (12, (stationId s : Int)), (6, 0), (1, 1), (1, 1), (1, 1), (1, 0), (38, f.x0), (1, 1), (1, 0), (38, f.y0),
    (2, 0), (38, f.z0), (16, 0)]

/-- Antenna descriptor, setup ID and serial. -/
def antennaFields (s : State) : List BitField :=
  countedText (textOf s.p.refCfg.antDesc) ++ [(8, (s.p.refCfg.setupId : Int))] ++ countedText (textOf s.p.refCfg.antSerial)

/-- 1008: the antenna. -/
def message1008 (s : State) : Bytes := rtcmFrame ([(12, 1008), (12, (stationId s : Int))] ++ antennaFields s)

/-- A number in decimal. -/
def decimal (n : Nat) : Bytes := (Nat.toDigits 10 n).map fun c => BitVec.ofNat 8 c.toNat

/-- FW_VERSION as text: major, minor and patch in decimal. -/
def versionText (fw : Nat) : Bytes :=
  decimal (fw % 256) ++ ascii "." ++ decimal (fw / 256 % 256) ++ ascii "." ++ decimal (fw / 65536)

/-- 1033: the antenna and the receiver. -/
def message1033 (s : State) : Bytes :=
  rtcmFrame ([(12, 1033), (12, (stationId s : Int))] ++ antennaFields s ++ countedText (ascii "CELNAGEN RD-824")
    ++ countedText (versionText (activeSlot s).pkg.fw) ++ countedText (textOf s.fuse.serial))

/-- 1230: GLONASS code-phase biases, aligned and 0, of L1 C/A and L2 C/A. -/
def message1230 (s : State) : Bytes :=
  rtcmFrame [(12, 1230), (12, (stationId s : Int)), (1, 1), (3, 0), (4, 0b1010), (16, 0), (16, 0)]

/-- The messages that go with the station's, 1230 while GLONASS is sent. -/
def stationMessages (s : State) (glonass : Bool) : List Bytes :=
  [message1006 s, message1008 s, message1033 s] ++ if glonass then [message1230 s] else []

end Sys2Proof.Machine
end

