-- ==== Sys2Proof/Machine/Ref.lean ====
section
/-! DEFINITION. The reference station: the epoch's checks and time solution, correction epochs, antenna fail-over and
cross-check, survey-in, the RTCM schedule, Haene messages, and the REF opcodes (R186, R195 to R218). -/

namespace Sys2Proof.Machine

open Sys2Proof

/-! ### Base and modes -/

/-- BASE_STATE (R197). -/
def baseState (s : State) : Nat := if s.ref.surveying then 1 else s.p.refFrame.base

/-- The mode R203 goes by: SQUALL and VEER act as the held mode. -/
def refRow (s : State) : Mode :=
  match s.mode.cur with
  | .squall => s.mode.ret.getD .squall
  | .veer => s.mode.ret.getD .veer
  | m => m

/-- Epochs are built in the mode in force (R203). -/
def buildsEpochs (s : State) : Bool := [Mode.calm, .breeze, .zephyr, .drift, .fog].contains (refRow s)

/-- RTCM and Haene correction messages of an epoch are sent in the mode in force: none of one latched during a freeze (R203). -/
def sendsCorrections (s : State) (e : Epoch) : Bool :=
  [Mode.calm, .breeze, .zephyr].contains (refRow s) && !e.frozen

/-- The Haene site message is sent in the mode in force (R203). -/
def sendsSite (s : State) : Bool := [Mode.calm, .breeze, .zephyr, .drift].contains (refRow s)

/-- A value limited to a signed 32-bit magnitude. -/
def sat31 (x : Int) : Int := max (-(2 ^ 31 - 1)) (min (2 ^ 31 - 1) x)

/-! ### Ties and cross-check (R199, R205) -/

/-- The carrier has lost or regained lock since the epoch before. -/
def relocked (s : State) (e : Epoch) (m : MeasRecord) : Bool := bit m.flags 11 || !phaseLocked m || decide (m.lockMs < sinceLast s e)

/-- The single difference of a signal less its geometric part. -/
def tieValue (s : State) (a b : MeasRecord) : Int := phaseRange b - phaseRange a - geometric s a

/-- XCHECK_MM in 0.1 mm / 1,024. -/
def xcheckU (s : State) : Nat := s.p.refCfg.xcheckMm * 10240

/-- One more epoch of a run: it agrees with the run's value, or begins a new run. A run of 30 holds the tie, and where another
value was held until then the carry takes up the difference. DESIGN CHOICE: the value is that of the run's first epoch. -/
def tieRun (s : State) (t : Tie) (v : Int) : Tie :=
  if t.run = 0 || xcheckU s < (v - t.value).natAbs then { t with run := 1, value := v }
  else if t.run = 29 then
    { t with run := 30, held := some t.value, carry := t.carry + (match t.held with | some h => t.value - h | none => 0) }
  else { t with run := t.run + 1 }

/-- The tie of a signal after an epoch, from its records on ANT-A and ANT-B. A slip on ANT-B ends it; a slip on ANT-A begins a
new run, and the value held before serves translation until then while ANT_B_ACTIVE is set (R199, R204). -/
def tieStep (s : State) (e : Epoch) (t : Tie) (a b : Option MeasRecord) : Tie :=
  match b with
  | none => if t.run = 30 then t else { t with run := 0 }
  | some y =>
    if relocked s e y then { t with run := 0, held := none } else
    match a with
    | none => if t.run = 30 then t else { t with run := 0 }
    | some x =>
      if !phaseLocked x then (if t.run = 30 then t else { t with run := 0 })
      else if relocked s e x then { t with run := 1, value := tieValue s x y, held := if s.ref.antB then t.held else none }
      else if t.run = 30 then t
      else tieRun s t (tieValue s x y)

/-- The ties after an epoch; none is kept while no baseline is known. -/
def tiesAfter (s : State) (e : Epoch) : Tbl Tie :=
  if s.p.refFrame.baseline.isNone then [] else
  ((e.records.map sigKey).eraseDups).foldl (fun t k =>
    let on (a : Nat) : Option MeasRecord := e.records.find? fun m => m.ant == a && sigKey m == k
    tput t k (tieStep s e (tgetD s.ref.ties k {}) (on 0) (on 1))) []

/-- A signal holds a tie. -/
def tied (s : State) (m : MeasRecord) : Bool := (tieFor s m).held.isSome

/-- Signals holding a tie. -/
def tiesHeld (s : State) : Nat := (s.ref.ties.filter fun e => e.2.held.isSome).length

/-- Insert in rising order. -/
def insertNat (x : Nat) : List Nat → List Nat
  | [] => [x]
  | y :: t => if x ≤ y then x :: y :: t else y :: insertNat x t

/-- The median; of an even count, the mean of the middle two rounded down. -/
def median (l : List Nat) : Nat :=
  let v := l.foldl (fun a x => insertNat x a) []
  let n := v.length
  if n = 0 then 0 else if n % 2 = 1 then v.getD (n / 2) 0 else (v.getD (n / 2 - 1) 0 + v.getD (n / 2) 0) / 2

/-- The largest deviation, in 0.1 mm, of each tied satellite tracked on both antennas. -/
def deviations (s : State) (e : Epoch) : Tbl Nat :=
  (e.records.filter fun m => m.ant == 0 && phaseLocked m && decide ((tieFor s m).run = 30)).foldl (fun t m =>
    match onOther e m with
    | none => t
    | some b =>
      if !phaseLocked b then t else
      tput t (satKey m) (max (tgetD t (satKey m) 0) ((tieValue s m b - (tieFor s m).value).natAbs / 1024))) []

/-- The satellites the cross-check excludes: those beyond the limit while the median is not (R205). -/
def outliers (s : State) (e : Epoch) : List Nat :=
  let dev := deviations s e
  let limit := 10 * s.p.refCfg.xcheckMm
  if s.p.refFrame.baseline.isNone || decide (limit < median (dev.map (·.2))) then []
  else (dev.filter fun d => decide (limit < d.2)).map (·.1)

/-- The satellites excluded from an epoch on an antenna, by its code check and by the cross-check (R201, R205). -/
def excludedOn (s : State) (e : Epoch) (ant : Nat) : Tbl Nat :=
  (outliers s e).foldl (fun t k => tput t k 0) (checkSats s e ant)

/-- The cross-check of an epoch (R205). -/
def crossCheck (s : State) (e : Epoch) : State :=
  let dev := deviations s e
  let limit := 10 * s.p.refCfg.xcheckMm
  let med := median (dev.map (·.2))
  let over' := decide (limit < med) && decide (4 ≤ dev.length)
  let bad := if over' then min 10 (s.ref.xcheckBad + 1) else 0
  let good := if over' then 0 else if s.ref.baselineFault then s.ref.xcheckGood + 1 else 0
  { s with
    ref.xcheckMedian := med
    ref.xcheckBad := bad
    ref.xcheckGood := if 60 ≤ good then 0 else good
    ref.baselineFault := (s.ref.baselineFault || decide (10 ≤ bad)) && decide (good < 60) }

/-! ### Correction epochs (R200, R202, R204) -/

/-- Signals of an antenna that pass its checks. -/
def passing (s : State) (e : Epoch) (ant : Nat) : List MeasRecord :=
  e.records.filter fun m => m.ant == ant && passes s e (excludedOn s e ant) m

/-- Signals of an antenna that take part: carried to ANT-A they need a held tie, and phase to carry. -/
def takePart (s : State) (e : Epoch) (ant : Nat) : List MeasRecord :=
  (passing s e ant).filter fun m => ant == 0 || (tied s m && phaseLocked m)

/-- The antenna the epoch is built from (R204). -/
def buildAnt (s : State) (e : Epoch) : Nat :=
  let u := antInUse s
  let few := (satsOf (takePart s e u)).length < s.p.refCfg.minSats
  let held := (satsOf ((takePart s e (1 - u)).filter (tied s))).length
  if few && decide (s.p.refCfg.minSats ≤ held) then 1 - u else u

/-- The antenna POS works with: a survey runs on ANT-A (R198). -/
def workAnt (s : State) (e : Epoch) : Nat := if s.ref.surveying then 0 else buildAnt s e

/-- CORR_STATE of an epoch (R202), the first that applies in code order. -/
def corrStateOf (s : State) (e : Epoch) (ant tsol : Nat) : Nat :=
  if !baseHeld s then 0
  else if tsol != 1 || s.time.state != .locked then 2
  else if (satsOf (takePart s e ant)).length < s.p.refCfg.minSats then 3
  else if antState s 0 != 1 && antState s 1 != 1 then 4
  else if s.ref.baselineFault then 5
  else 1

/-- LOCK_TIME of a signal as corrections carry it, and whether this epoch restarts it (R201, R204). -/
def corrLockOf (s : State) (e : Epoch) (m : MeasRecord) : Nat × Bool :=
  if jumps s e m || s.ref.restart.contains (sigKey m) then (0, true) else
  match tget s.ref.corrLock (sigKey m) with
  | some v => if m.ant = 0 && bit m.flags 11 then (m.lockMs, false) else (sat 32 (v + sinceLast s e), false)
  | none => if m.ant = 0 then (m.lockMs, false) else (0, true)

/-- `n` whole cycles of a signal's carrier as a range. -/
def cyclesU (m : MeasRecord) (n : Int) : Int := rdiv (n * lightU) (carrierHz m)

/-- CPC of a signal in 0.5 mm, the whole cycles taken off it, and whether this epoch takes others off (R210). -/
def cpcOf (s : State) (e : Epoch) (m : MeasRecord) : Int × Int × Bool :=
  let raw := nominalPhase s e m - nominalModel s e m
  let n := tgetD s.ref.cpcCycles (sigKey m) 0
  let v := rdiv (raw - cyclesU m n) 5120
  if v.natAbs ≤ 8000000 then (v, n, false) else
    let n' := raw * carrierHz m / lightU
    (rdiv (raw - cyclesU m n') 5120, n', true)

/-- PRC of a signal in 0.02 m (R210). DESIGN CHOICE: of a value that 16 bits do not hold the spec states no cell. -/
def prcOf (s : State) (e : Epoch) (m : MeasRecord) : Int :=
  let v := rdiv (nominalCode s e m - nominalModel s e m) 204800
  if v.natAbs < 32768 then v else Config.prcBeyond v

/-- RESET of a cell: every restart no correction message has carried yet (R201, R204, R209, R210). -/
def resetOf (s : State) (e : Epoch) (m : MeasRecord) : Bool :=
  s.ref.resetDue.contains (sigKey m) || (corrLockOf s e m).2 || (cpcOf s e m).2.2

/-- One cell of a correction message (R209). -/
def cellBytes (s : State) (e : Epoch) (m : MeasRecord) : Bytes :=
  le 1 (signalOf m.bit).sigId ++ leI 2 (prcOf s e m) ++ leI 3 (cpcOf s e m).1
    ++ le 1 (flag (bit m.flags 12) 7 + flag (resetOf s e m) 6 + min 63 ((corrLockOf s e m).1 / 1000))

/-- Insert a record by satellite, then by BIT. -/
def insertRec (x : MeasRecord) : List MeasRecord → List MeasRecord
  | [] => [x]
  | y :: t => if sigKey x ≤ sigKey y then x :: y :: t else y :: insertRec x t

/-- The cell dropped first: a non-primary one of the lowest elevation, then a primary one. -/
def dropBefore (x y : MeasRecord) : Bool :=
  let px := (signalOf x.bit).primary
  let py := (signalOf y.bit).primary
  if px != py then py else decide (x.elev < y.elev)

/-- Length of a correction message of these cells. -/
def corrLen (l : List MeasRecord) : Nat := 16 + 4 * (satsOf l).length + 7 * l.length

/-- Drop cells until the message fits (R212). -/
def truncateCells (limit : Nat) : Nat → List MeasRecord → List MeasRecord
  | 0, l => l
  | fuel + 1, l =>
    if corrLen l ≤ limit && (satsOf l).length ≤ 255 then l else
    match l with
    | [] => []
    | m :: ms => truncateCells limit fuel ((m :: ms).erase (ms.foldl (fun a x => if dropBefore x a then x else a) m))

/-- The blocks of a correction message. -/
def corrBlocks (s : State) (e : Epoch) (l : List MeasRecord) : Bytes :=
  (satsOf l).flatMap fun k =>
    let ms := l.filter fun m => satKey m == k
    let m := (ms.head?).getD {}
    le 1 m.sv ++ le 1 (16 * ((signalOf m.bit).sigId / 16) + ms.length)
      ++ le 2 (m.iod % 1024 + 1024 * (m.gloK % 16).toNat) ++ ms.flatMap (cellBytes s e)

/-- The cells a correction message carries: those of CORR_SIGNAL_MASK, by satellite, as many as fit (R209, R212). -/
def corrCells (s : State) (e : Epoch) (ant : Nat) : List MeasRecord × Bool :=
  let all := ((takePart s e ant).filter fun m => bit s.p.refCfg.sigMask m.bit).foldl (fun l m => insertRec m l) []
  let l := truncateCells (16 * s.p.refCfg.fragBytes) all.length all
  (l, l.length != all.length)

/-- A correction message (R209, R212). -/
def corrMessage (s : State) (e : Epoch) (ant : Nat) : Bytes :=
  let (l, cut) := corrCells s e ant
  le 1 1 ++ le 1 (flag (ant == 1) 0 + flag cut 1) ++ le 2 (stationId s)
    ++ le 4 (nominalMs e % 604800000) ++ le 2 (nominalMs e / 604800000) ++ le 1 (satsOf l).length ++ zb 1
    ++ le 2 s.p.refFrame.frameRev ++ zb 2 ++ corrBlocks s e l

/-- Whole cycles MSM7 takes off the phase of a signal: those that bring it to its code when its lock time starts. -/
def rtcmCyclesOf (s : State) (e : Epoch) (m : MeasRecord) : Int :=
  match tget s.ref.rtcmCycles (sigKey m), (corrLockOf s e m).2 with
  | some n, false => n
  | _, _ => rdiv ((nominalPhase s e m - nominalCode s e m) * carrierHz m) lightU.natAbs

/-- The MSM7 cell of a signal (R207). -/
def msmCell (s : State) (e : Epoch) (m : MeasRecord) : MsmCell :=
  { rec' := m, code := nominalCode s e m, phase := nominalPhase s e m - cyclesU m (rtcmCyclesOf s e m)
    lock := (corrLockOf s e m).1 }

/-- The signals MSM7 carries: those of CORR_SIGNAL_MASK, and every primary one (R207). -/
def msmCells (s : State) (e : Epoch) (ant : Nat) : List MsmCell :=
  ((takePart s e ant).filter fun m => bit s.p.refCfg.sigMask m.bit || (signalOf m.bit).primary).map (msmCell s e)

/-- The rate in force: the largest permitted one not above the setting that divides EPOCH_HZ (R208, R212). -/
def rateInForce (permitted : List Nat) (cfg hz : Nat) : Nat :=
  ((permitted.filter fun r => decide (r ≤ cfg) && hz % r == 0).foldl max 1)

/-- What a VALID epoch sends (R203, R206, R208, R212). -/
def sendEpoch (s : State) (e : Epoch) (ant : Nat) : State :=
  if !sendsCorrections s e then s else
  let rtcm := e.fc % (100 / rateInForce [1, 2, 4, 5, 10] s.p.refCfg.rtcmHz e.hz) == 0
  let air := e.fc % (100 / rateInForce [1, 2, 4, 5] s.p.refCfg.airHz e.hz) == 0
  let station := e.fc % 1000 == 0 || s.ref.tieRev != s.p.refFrame.frameRev
  let cells := msmCells s e ant
  let frames := msmMessages s (nominalMs e) cells
    ++ if station then stationMessages s (cells.any fun c => (signalOf c.rec'.bit).sys == 3) else []
  let s' := if rtcm then { s with ref.rtcmOut := s.ref.rtcmOut ++ [(e.fc, frames)], ref.tieRev := s.p.refFrame.frameRev } else s
  if air then { s' with ref.corrOut := some (corrMessage s e ant) } else s'

/-- The signals whose RESET an epoch's correction message has carried. -/
def resetsSent (s : State) (e : Epoch) (ant : Nat) : List Nat :=
  if sendsCorrections s e && e.fc % (100 / rateInForce [1, 2, 4, 5] s.p.refCfg.airHz e.hz) == 0 then
    (corrCells s e ant).1.map sigKey
  else []

/-- The lock times, cycles and restarts corrections carry after an epoch. -/
def afterCells (s : State) (e : Epoch) (ant : Nat) (sent : List Nat) : State :=
  let l := takePart s e ant
  let keys := l.map sigKey
  let left := (passing s e ant).map sigKey ++ s.ref.corrLock.map (·.1)
  { s with
    ref.corrLock := l.foldl (fun t m => tput t (sigKey m) (corrLockOf s e m).1) []
    ref.cpcCycles := l.foldl (fun t m => tput t (sigKey m) (cpcOf s e m).2.1) s.ref.cpcCycles
    ref.rtcmCycles := l.foldl (fun t m => tput t (sigKey m) (rtcmCyclesOf s e m)) s.ref.rtcmCycles
    ref.resetDue := ((s.ref.resetDue ++ (l.filter (resetOf s e)).map sigKey).eraseDups).filter fun k => !sent.contains k
    ref.restart := ((s.ref.restart ++ if ant = 1 then left else []).eraseDups).filter fun k => !keys.contains k }

/-- CORR_STATE and CORR_VALID of an epoch in a mode that builds epochs (R202). -/
def correctionEpoch (s : State) (e : Epoch) (ant tsol : Nat) : State :=
  if !buildsEpochs s then s else
  let st := corrStateOf s e ant tsol
  let run := if st = 1 then 0 else min 3 (s.ref.invalidRun + 1)
  let clears := s.ref.corrValid && run == 3
  let passed := (satsOf (takePart s e ant)).length
  let s := if !baseHeld s then s
    else if st = 1 then afterCells (sendEpoch s e ant) e ant (resetsSent s e ant)
    else afterCells s e ant []
  let s := { s with
    ref.corrState := st
    ref.invalidRun := run
    ref.corrValid := st == 1 || (s.ref.corrValid && run != 3)
    ref.satsPassed := passed
    ref.satsExcluded := (excludedOn s e ant).length
    ref.lastValidFc := if st = 1 then e.fc % 2 ^ 32 else s.ref.lastValidFc }
  if clears then trigger s .referenceLost else s

/-! ### Survey-in (R196, R198, R199, R216) -/

/-- A new tie lies within 10,000 mm of the current one, or there is none (R196). -/
def tieNear (s : State) (t : Vec) : Bool := !s.p.refFrame.frameSet || decide (dist2 t (tieOf s) ≤ 100000 ^ 2)

/-- Set the tie, the orientation with the first base position or on REORIENT, and a baseline where one is given; a new baseline
discards every tie (R196, R214). DESIGN CHOICE: a REORIENT counts as a change in FRAME_REV even where the tie stays the same. -/
def setBase (s : State) (t : Vec) (bl : Option Vec) (reorient : Bool) (base : Nat) : State :=
  let f := s.p.refFrame
  let turn := reorient || !f.frameSet
  let o := if turn then orientOf t else (f.lat, f.lon)
  let changed := turn || t != tieOf s
  { s with
    p.refFrame := { f with
      base := base
      x0 := t.1
      y0 := t.2.1
      z0 := t.2.2
      frameSet := true
      lat := o.1
      lon := o.2
      frameRev := if changed then (f.frameRev + 1) % 65536 else f.frameRev
      baseline := if bl.isSome then bl else f.baseline }
    ref.siteDue := if changed then some (fcNow s) else s.ref.siteDue
    ref.ties := if bl.isSome then tmap s.ref.ties fun _ x => { carry := x.carry } else s.ref.ties
    ref.baselineFault := s.ref.baselineFault && bl.isNone
    ref.xcheckBad := if bl.isSome then 0 else s.ref.xcheckBad }

/-- Element of a triple by axis. -/
def axis (t : Vec) : Nat → Int
  | 0 => t.1
  | 1 => t.2.1
  | _ => t.2.2

/-- Elapsed FCs of a survey at an FC. -/
def surveyFcs (v : Survey) (fc : Nat) : Nat := fc - v.startFc

/-- n Σx² − (Σx)² of an axis: n (n − 1) times the sample variance. -/
def spread (v : Survey) (i : Nat) : Nat := (v.n * v.sumSq.getD i 0) - (v.sum.getD i 0).natAbs ^ 2

/-- σ_mean of an axis in 0.1 mm squared, times n (n − 1) T with T in FCs: 3,000 × spread (R198). -/
def sigmaMeanOk (v : Survey) (fc i : Nat) : Bool :=
  decide (3000 * spread v i ≤ (10 * v.accMm) ^ 2 * (v.n * (v.n - 1) * surveyFcs v fc))

/-- The largest axis σ_mean in mm, rounded up. -/
def sigmaMm (v : Survey) (fc : Nat) : Nat :=
  let d := v.n * (v.n - 1) * surveyFcs v fc * 100
  if d = 0 then 0 else
  let q := cdiv (3000 * (List.range 3).foldl (fun a i => max a (spread v i)) 0) d
  let r := Nat.sqrt q
  if r * r = q then r else r + 1

/-- The mean of a survey. -/
def surveyMean (v : Survey) : Vec :=
  if v.n = 0 then (0, 0, 0) else (rdiv (v.sum.getD 0 0) v.n, rdiv (v.sum.getD 1 0) v.n, rdiv (v.sum.getD 2 0) v.n)

/-- Reply of REF_SURVEY_START (R216). -/
def surveyReply (v : Survey) (fc cause : Nat) : Bytes :=
  let m := surveyMean v
  leI 8 m.1 ++ leI 8 m.2.1 ++ leI 8 m.2.2 ++ le 4 (sigmaMm v fc) ++ le 4 (surveyFcs v fc / 100) ++ le 1 cause ++ zb 7

/-- One position enters the mean. -/
def surveyAdd (v : Survey) (t : Vec) : Survey :=
  { v with
    n := v.n + 1
    sum := (List.range 3).map fun i => v.sum.getD i 0 + axis t i
    sumSq := (List.range 3).map fun i => v.sumSq.getD i 0 + (axis t i).natAbs ^ 2 }

/-- The survey is over: BASE_STATE is as before it, or SURVEYED with the tie committed. -/
def surveyEnd (s : State) (v : Survey) (cause : Nat) (bl : Option Vec) : State :=
  let s := { s with ref.survey := none, ref.surveying := false, com.cmdCommits := 0 }
  let reply := surveyReply v (fcNow s)
  if cause != 0 then finish s v.req stSurveyFailed (reply cause)
  else if !tieNear s (surveyMean v) then finish s v.req stSurveyFailed (reply 2)
  else change1 s v.req siteObj (fun s => setBase s (surveyMean v) bl false 2) (fun _ => reply 0)

/-- The line of sight of a record from the ARP, away from the satellite, in parts of 2^20: how a range grows with the baseline. -/
def awaySight (s : State) (m : MeasRecord) : Vec :=
  let d := vsub (startPoint s) m.sat
  let r := distFine (startPoint s) m.sat
  if r = 0 then (0, 0, 0) else vmap (fun x => rdiv (x * 2 ^ 30) r.natAbs) d

/-- One single difference enters the sums of its signal. -/
def baseAdd (b : BaseSum) (h : Vec) (sd : Int) : BaseSum :=
  { n := b.n + 1
    h := (List.range 3).map fun i => b.h.getD i 0 + axis h i
    s := b.s + sd
    hh := (List.range 9).map fun k => b.hh.getD k 0 + axis h (k / 3) * axis h (k % 3)
    hs := (List.range 3).map fun i => b.hs.getD i 0 + axis h i * sd
    ss := b.ss + sd ^ 2 }

/-- The single differences of an epoch enter the estimate of the baseline; a slip on either antenna ends a signal's tie (R199). -/
def baseEpoch (s : State) (e : Epoch) (v : Survey) : Survey :=
  (e.records.filter (·.ant == 0)).foldl (fun v m =>
    match onOther e m with
    | none => v
    | some b =>
      if !phaseLocked m || !phaseLocked b then v else
      let old := tgetD v.segs (sigKey m) {}
      let ends := (relocked s e m || relocked s e b) && decide (0 < old.n)
      { v with
        segs := tput v.segs (sigKey m) (baseAdd (if ends then {} else old) (awaySight s m) (phaseRange b - phaseRange m))
        done := if ends then v.done ++ [old] else v.done }) v

/-- The normal equations of the baseline with every tie eliminated: the matrix, the right side, and what the squares leave. -/
def baseNormal (l : List BaseSum) : List (List Rat) × List Rat × Rat :=
  let q (a b n : Int) : Rat := mkRat (a * b) n.natAbs
  ((List.range 3).map fun i => (List.range 3).map fun j =>
      (l.map fun x => (x.hh.getD (3 * i + j) 0 : Rat) - q (x.h.getD i 0) (x.h.getD j 0) x.n).sum,
   (List.range 3).map fun i => (l.map fun x => (x.hs.getD i 0 : Rat) - q (x.h.getD i 0) x.s x.n).sum,
   (l.map fun x => (x.ss : Rat) - q x.s x.s x.n).sum)

/-- Solve the baseline's matrix for a right side. -/
def baseSolve (m : List (List Rat)) (r : List Rat) : List Rat :=
  solveRows 3 (List.zipWith (fun row x => row ++ [x]) m r) fun _ => 0

/-- Inner product. -/
def rdot (a b : List Rat) : Rat := (List.zipWith (· * ·) a b).sum

/-- The baseline a survey has estimated, in mm of site coordinates, where every axis reaches 3 mm (R199). DESIGN CHOICE: every
single difference counts alike, and the deviation is taken from what the fit leaves. -/
def baseEstimate (v : Survey) (lat lon : Int) : Option Vec :=
  let l := v.done ++ v.segs.map (·.2)
  let (m, r, left) := baseNormal l
  let count := (l.map (·.n)).sum
  if count < l.length + 4 || decide ((eliminate 3 0 [] m).length < 3) then none else
  let b := baseSolve m r
  let (e, n, u) := axesOf lat lon
  let axes : List (List Rat) := [e, n, u].map fun a => [mkRat a.1 fx, mkRat a.2.1 fx, mkRat a.2.2 fx]
  let var : Rat := (left - rdot b r) / ((count - l.length - 3 : Nat) : Rat) * (2 ^ 40 : Nat)
  if axes.any fun a => decide ((30720 ^ 2 : Nat) < var * rdot a (baseSolve m a)) then none else
  let mm (a : List Rat) : Int := roundRat (rdot a b * (1024 : Nat) / 10)
  match axes with
  | [e, n, u] => some (mm e, mm n, mm u)
  | _ => none

/-- The baseline a completing survey commits. -/
def surveyBaseline (s : State) (v : Survey) : Option Vec :=
  let f := s.p.refFrame
  let o := if f.frameSet then (f.lat, f.lon) else orientOf (surveyMean v)
  baseEstimate v o.1 o.2

/-- One epoch of a running survey (R198, R199, R216). -/
def surveyEpoch (s : State) (e : Epoch) : State :=
  match s.ref.survey with
  | none => s
  | some v =>
    let v := match singlePoint s e (excludedOn s e 0) with
      | some p => surveyAdd v p
      | none => v
    let v := { baseEpoch s e v with badAnt := if antState s 0 = 1 then 0 else v.badAnt + 1 }
    let fc := fcNow s
    if 2 ≤ v.n && 100 * v.minS ≤ surveyFcs v fc && (List.range 3).all (sigmaMeanOk v fc) then
      surveyEnd s v 0 (surveyBaseline s v)
    else if 100 * v.maxS ≤ surveyFcs v fc then surveyEnd s v 1 none
    else if 60 ≤ v.badAnt then surveyEnd s v 3 none
    else { s with ref.survey := some v }

/-! ### SOLVE (R186, R200) -/

/-- POS works: it is not being reloaded and its results are not barred. -/
def posUp (s : State) : Bool := !(s.cores.reload.any fun c => c.1 == 5)

/-- POS solves the epoch latched at the boundary of this FC. -/
def solveEpoch (s : State) : State :=
  match s.gnss.epochs with
  | [] => s
  | e :: rest =>
    if e.solved || !posUp s then s else
    let s := { s with ref.ties := tiesAfter s e }
    let ant := workAnt s e
    let ex := excludedOn s e ant
    let (tsol, n, x) := timeSolution s e ex
    let e := { e with solved := true, tsol := tsol, tsolSats := n, x := x, tsolX := if tsol = 1 then sat31 (ftuToNs x) else 0 }
    let s := gnssMeasure { s with gnss.epochs := e :: rest } (tsol == 1) x e.counter
    let s := if s.p.refFrame.baseline.isSome then crossCheck s e else s
    let s := correctionEpoch s e ant tsol
    { surveyEpoch s e with ref.excluded := ex }

/-! ### The boundary (R202, R204) -/

/-- ANT-A's primary signals all hold ties. -/
def primariesTied (s : State) : Bool :=
  s.gnss.chans.all fun c => !(c.2.ant == 0 && (signalOf c.2.bit).primary)
    || decide ((tgetD s.ref.ties (sigKey { bit := c.2.bit, sv := c.2.sv }) {}).run = 30)

/-- What the boundary does to the reference station, `wasA` and `wasB` being the ANT_STATEs before its samples. -/
def refBoundary (s : State) (wasA wasB : Nat) : State :=
  let known := s.p.refFrame.baseline.isSome
  let okFc := if antState s 0 = 1 then s.ref.antOkFc + 1 else 0
  let due := s.ref.antB && (s.ref.returnDue || (decide (100 * s.p.refCfg.returnS ≤ okFc) && primariesTied s))
  let antB := if s.ref.antB then !(due && isEpochFc s) else known && wasA != 1 && wasB == 1
  { s with
    ref.antOkFc := okFc
    ref.antB := antB
    ref.returnDue := due && antB
    ref.spareLost := !known || antState s (if antB then 0 else 1) != 1
    ref.corrValid := s.ref.corrValid && buildsEpochs s
    ref.invalidRun := if buildsEpochs s then s.ref.invalidRun else 0 }

/-! ### Events and messages (R206, R208, R211, R218) -/

/-- RFLAGS (R213). -/
def rflags (s : State) : Nat :=
  bitsOf [s.ref.corrValid, !([Mode.calm, .breeze, .zephyr].contains (refRow s)), s.p.refFrame.baseline.isSome]

/-- What EV_REF_STATE reports a change of. -/
def refStateNow (s : State) : List Nat :=
  [flag s.ref.corrValid 0, antInUse s, baseState s, flag (s.ref.corrState == 5) 0]

/-- EV_REF_STATE (R218). -/
def emitRefState (s : State) : State :=
  let now := refStateNow s
  if now == s.ref.lastEvent then s else
  raise { s with ref.lastEvent := now } 0x8402 .all
    (le 1 s.ref.corrState ++ le 1 (baseState s) ++ le 1 (antInUse s) ++ le 1 (rflags s) ++ le 2 s.ref.satsPassed
      ++ le 2 s.ref.satsExcluded ++ le 4 s.ref.xcheckMedian ++ zb 4)

/-- Pack whole frames into events of at most 1,372 bytes. -/
def packFrames : List Bytes → List Bytes → Nat → List (List Bytes)
  | [], cur, _ => if cur.isEmpty then [] else [cur]
  | f :: fs, cur, n =>
    if n + f.length ≤ 1372 then packFrames fs (cur ++ [f]) (n + f.length)
    else (if cur.isEmpty then [] else [cur]) ++ packFrames fs [f] f.length

/-- The sessions a subscription of an earlier FC serves. -/
def subscribers (s : State) (sub : Session → Option Nat) : List Nat :=
  (s.edtor.sessions.filter fun e => e.2.sopen && (match sub e.2 with | some fc => decide (fc < fcNow s) | none => false)).map (·.1)

/-- EV_REF_RTCM of the epochs solved (R208, R218). -/
def emitRtcm (s : State) : State :=
  let aud := Audience.slots (subscribers s (·.rtcmSub))
  let s' := s.ref.rtcmOut.foldl (fun s e =>
    (packFrames e.2 [] 0).foldl (fun s fs =>
      raise s 0x8401 aud (le 8 e.1 ++ le 2 fs.length ++ zb 2 ++ fs.flatten)) s) s
  { s' with ref.rtcmOut := [] }

/-- The site message (R211). -/
def siteMessage (s : State) : Bytes :=
  let f := s.p.refFrame
  le 1 2 ++ zb 1 ++ le 2 (stationId s) ++ le 2 f.frameRev ++ zb 2 ++ leI 8 f.x0 ++ leI 8 f.y0 ++ leI 8 f.z0
    ++ leI 4 f.lat ++ leI 4 f.lon

/-- The first epoch after a change of FRAME_REV has been solved in this FC (R211). -/
def siteAfterChange (s : State) : Bool :=
  (s.ref.siteDue.any fun c => decide (c < fcNow s)) && s.gnss.epochs.head?.any fun e => e.solved && e.fc == fcNow s - 1

/-- A site message is due in EMIT of this FC (R203, R211). -/
def siteMessageDue (s : State) : Bool :=
  s.p.refFrame.frameSet && sendsSite s && (fcNow s % 1000 == 0 || siteAfterChange s)

/-- A site message has been sent: it serves a change the epoch solved in this FC follows. -/
def siteSent (s : State) : State := { s with ref.siteDue := if siteAfterChange s then none else s.ref.siteDue }

/-! ### Opcodes -/

/-- REF_STATUS (R213). -/
def refStatusReply (s : State) : Bytes :=
  let f := s.p.refFrame
  let b := f.baseline.getD (0, 0, 0)
  le 1 (baseState s) ++ le 1 s.ref.corrState ++ le 1 (antInUse s) ++ le 1 (rflags s) ++ le 2 s.ref.satsPassed
    ++ le 2 s.ref.satsExcluded
    ++ (match s.ref.survey with
      | some v => le 4 (surveyFcs v (fcNow s) / 100) ++ le 4 (sigmaMm v (fcNow s))
      | none => zb 8)
    ++ leI 8 f.x0 ++ leI 8 f.y0 ++ leI 8 f.z0 ++ leI 4 b.1 ++ leI 4 b.2.1 ++ leI 4 b.2.2 ++ le 4 s.ref.xcheckMedian
    ++ le 2 f.frameRev ++ le 2 (tiesHeld s) ++ le 4 s.ref.lastValidFc ++ leI 4 f.lat ++ leI 4 f.lon ++ zb 8

/-- REF_STATUS (R213). -/
def opRefStatus (r : Request) (s : State) : State := readOp s r 0x0401 refStatusReply

def execRefStatus (r : Request) (s : State) : Host.Outcome State Fault Refusal := .next (opRefStatus r s)

/-- The baseline of a REF_BASE_SET: none keeps it; a partial one is out of range. -/
def baselineFrom (p : Bytes) : Option (Option Vec) :=
  let keeps := [24, 28, 32].map fun o => fld p o 4 == 0x80000000
  if keeps.all id then some none
  else if keeps.any id then none
  else some (some (fldI p 24 4, fldI p 28 4, fldI p 32 4))

/-- The tie lies between 6,300 km and 6,400 km from the geocentre (R214). -/
def tieInShell (t : Vec) : Bool :=
  decide (63000000000 ^ 2 ≤ dist2 t (0, 0, 0)) && decide (dist2 t (0, 0, 0) ≤ 64000000000 ^ 2)

/-- REF_BASE_SET (R214). -/
def opRefBaseSet (r : Request) (s : State) : State :=
  let p := r.payload
  let t := (fldI p 0 8, fldI p 8 8, fldI p 16 8)
  let reorient := bit (fld p 36 1) 0
  runOp s r (p.length == 48) (zeros p 37 11 && decide (fld p 36 1 < 2)) (supOk s r)
    (inModes s [.tender, .calm, .zephyr]) fun s =>
  if reorient && !inModes s [.tender] then refuseMode s r else
  match baselineFrom p with
  | none => finish s r stBadRange []
  | some bl =>
    need (tieInShell t && (inModes s [.tender] || tieNear s t)) s r stBadRange fun s =>
    need s.ref.survey.isNone s r stBusy fun s =>
    change1 s r siteObj (fun s => setBase s t bl reorient 3) (fun _ => [])

def execRefBaseSet (r : Request) (s : State) : Host.Outcome State Fault Refusal := .next (opRefBaseSet r s)

/-- The settings as REF_CONFIG carries them (R215). -/
def refCfgBytes (c : RefConfig) : Bytes :=
  le 2 c.station ++ le 1 c.rtcmHz ++ le 1 c.airHz ++ le 4 c.sigMask ++ le 2 c.fragBytes ++ le 1 c.minSats ++ le 1 c.notched
    ++ le 2 c.codeResid ++ le 2 c.xcheckMm ++ le 2 c.returnS ++ le 1 c.setupId ++ zb 13 ++ fit 32 c.antDesc ++ fit 32 c.antSerial

/-- Settings after a REF_CONFIG payload. -/
def refCfgFrom (c : RefConfig) (p : Bytes) : RefConfig :=
  { station := keep (fld p 0 2) c.station, rtcmHz := keep (fld p 2 1) c.rtcmHz, airHz := keep (fld p 3 1) c.airHz,
    sigMask := keep (fld p 4 4) c.sigMask, fragBytes := keep (fld p 8 2) c.fragBytes, minSats := keep (fld p 10 1) c.minSats,
    notched := keep (fld p 11 1) c.notched, codeResid := keep (fld p 12 2) c.codeResid, xcheckMm := keep (fld p 14 2) c.xcheckMm,
    returnS := keep (fld p 16 2) c.returnS, setupId := keep (fld p 18 1) c.setupId,
    antDesc := if fld p 32 1 = 0 then c.antDesc else slice p 32 32,
    antSerial := if fld p 64 1 = 0 then c.antSerial else slice p 64 32 }

/-- Ranges of R215. -/
def refCfgOk (p : Bytes) : Bool :=
  decide (fld p 0 2 ≤ 0x1000) && [0, 1, 2, 4, 5, 10].contains (fld p 2 1) && [0, 1, 2, 4, 5].contains (fld p 3 1)
    && within (fld p 8 2) 64 1020 && within (fld p 10 1) 4 20 && within (fld p 11 1) 1 2 && within (fld p 12 2) 100 5000
    && within (fld p 14 2) 5 200 && within (fld p 16 2) 60 65535 && textOk (slice p 32 32) && textOk (slice p 64 32)

/-- REF_CONFIG (R215). -/
def opRefConfig (r : Request) (s : State) : State :=
  let p := r.payload
  let read := allZero p
  runOp s r (p.length == 96) (zeros p 19 13 && decide (fld p 4 4 < 2 ^ 18)) (read || supOk s r)
    (edtOr s 0x0403 read mCfg) fun s =>
  if read then finish s r stOk (refCfgBytes s.p.refCfg) else
  need (refCfgOk p) s r stBadRange fun s =>
  change1 s r siteObj (fun s => { s with p.refCfg := refCfgFrom s.p.refCfg p }) (fun s => refCfgBytes s.p.refCfg)

def execRefConfig (r : Request) (s : State) : Host.Outcome State Fault Refusal := .next (opRefConfig r s)

/-- REF_SURVEY_START (R216). -/
def opRefSurveyStart (r : Request) (s : State) : State :=
  let p := r.payload
  let mn := fld p 0 4
  let mx := fld p 8 4
  runOp s r (p.length == 16) (zeros p 12 4) (supOk s r) (inModes s [.zephyr]) fun s =>
  need (decide (60 ≤ mn) && decide (mn ≤ 86400) && decide (10 ≤ fld p 4 4) && decide (fld p 4 4 ≤ 10000) && decide (mn ≤ mx)
      && decide (mx ≤ 604800)) s r stBadRange fun s =>
  need s.ref.survey.isNone s r stBusy fun s =>
  accept { s with
    ref.surveying := true
    ref.survey := some { minS := mn, accMm := fld p 4 4, maxS := mx, startFc := fcNow s, baseBefore := s.p.refFrame.base, req := r } } r 1 []

def execRefSurveyStart (r : Request) (s : State) : Host.Outcome State Fault Refusal := .next (opRefSurveyStart r s)

/-- A subscription opcode: ENABLE 0x01 on, 0x02 off; one commit on the calling session (R217, R258). -/
def subscribeOp (r : Request) (s : State) (opcode : Nat) (f : Session → Option Nat → Session) : State :=
  let p := r.payload
  runOp s r (p.length == 4) (zeros p 1 3) true (edt s opcode) fun s =>
  need (fld p 0 1 == 1 || fld p 0 1 == 2) s r stBadRange fun s =>
  change1 s r (okSession, r.slot)
    (fun s => modSession s r.slot fun e => f e (if fld p 0 1 = 1 then some (fcNow s) else none)) (fun _ => [])

/-- REF_RTCM_SUBSCRIBE (R217). -/
def opRefRtcmSubscribe (r : Request) (s : State) : State := subscribeOp r s 0x0420 fun e v => { e with rtcmSub := v }

def execRefRtcmSubscribe (r : Request) (s : State) : Host.Outcome State Fault Refusal := .next (opRefRtcmSubscribe r s)

end Sys2Proof.Machine
end

