-- ==== Sys2Proof/Machine/Buoy.lean ====
section
/-! DEFINITION. The BUOY links: power, frames and their MICs, anchor states, the clock models, reports, firmware relay,
calibration and the BUOY opcodes (R219 to R241, R247, R248, R251 to R260). -/

namespace Sys2Proof.Machine

open Sys2Proof

/-! ### Contexts -/

/-- The persistent part of a link's context as it acts in this FC (R255). -/
def anchorRec (s : State) (l : Nat) : AnchorRec := tgetD s.buoy.ctx l {}

/-- The persistent part of a link's context as committed. -/
def anchorSet (s : State) (l : Nat) : AnchorRec := tgetD s.p.anchors l {}

/-- The live part of a link's context. -/
def anchorAt (s : State) (l : Nat) : AnchorLive := tgetD s.buoy.anchors l {}

/-- Change the live part. -/
def modAnchor (s : State) (l : Nat) (f : AnchorLive → AnchorLive) : State :=
  { s with buoy.anchors := tput s.buoy.anchors l (f (anchorAt s l)) }

/-- ANCHOR_STATE code (R226). -/
def anchorCode : AnchorState → Nat
  | .off => 0 | .enabled => 1 | .linkUp => 2 | .unpaired => 3 | .syncing => 4 | .inSync => 5 | .fault => 6 | .relay => 7

/-- Change ANCHOR_STATE; the change is reported in EMIT of the FC that latches it (R260). A clock model lasts while the
context stays in sync. -/
def setAnchor (s : State) (l : Nat) (st : AnchorState) (cause : Nat) : State :=
  let a := anchorAt s l
  if a.state == st then s else
  modAnchor s l fun a =>
    { a with
      state := st
      evOld := some (a.evOld.getD a.state)
      evCause := cause
      good := 0
      missing := 0
      pairs := if st == .inSync || st == .relay || (st == .syncing && a.state == .inSync) then a.pairs else []
      t1 := if st == .syncing || st == .inSync then a.t1 else none }

/-- EV_BUOY_ANCHOR of the changes latched (R260). -/
def emitAnchors (s : State) : State :=
  links.foldl (fun s l =>
    let a := anchorAt s l
    match a.evOld with
    | none => s
    | some old =>
      let s := modAnchor s l fun a => { a with evOld := none }
      if old == a.state then s else
      raise s 0x8501 .all (le 1 l ++ le 1 (anchorCode a.state) ++ le 1 (anchorCode old) ++ le 1 a.evCause
        ++ le 8 (if a.heard = 0 then (anchorSet s l).eui else a.heard).toNat ++ le 2 a.resid ++ zb 2)) s

/-! ### Power (R220, R221) -/

/-- Powered-device class power in mW. -/
def classMw (c : Nat) : Nat := if c = 10 then 1230 else if c = 11 then 3200 else if c = 12 then 8400 else 0

/-- Sum of the granted classes in mW. -/
def grantedMw (s : State) : Nat := (s.buoy.anchors.map fun e => classMw e.2.granted).sum

/-- Mean ambient temperature of the last 100 FC, 0.1 degree C. -/
def ambient (s : State) : Int := if s.buoy.tAmb.isEmpty then 0 else s.buoy.tAmb.sum / (s.buoy.tAmb.length : Int)

/-- P_AVAIL in mW (R221); above 85 degrees C it is 0 (R535). -/
def podlAvail (s : State) : Nat := if 850 < ambient s then 0 else (84000 - 176 * (max 600 (ambient s) - 600)).toNat

/-- LULL's effects on the supply are in force (R120, R121). -/
def lullPower (s : State) : Bool := s.mode.cur == .lull || s.supply.tenderLull

/-- A link may be powered: detected, its class served and not above PODL_CLASS_MAX, and kept in LULL. -/
def mayPower (s : State) (l : Nat) : Bool :=
  let a := anchorAt s l
  let c := anchorRec s l
  c.isSet && a.detected && decide (10 ≤ a.pdClass) && decide (a.pdClass ≤ c.classMax)
    && (!lullPower s || bit s.supply.cfg.podlKeep l)

/-- Order of granting: rising PODL_PRIO, then rising link number. -/
def podlOrder (s : State) : List Nat :=
  (List.range 8).flatMap fun p => links.filter fun l => (anchorRec s l).prio == p

/-- Enable a context that is OFF where its conditions hold (R220, R226). -/
def enableLink (s : State) (l : Nat) : State :=
  let a := anchorAt s l
  let c := anchorRec s l
  if !c.isSet || a.state != .off then s
  else if c.classMax = 0 then
    let s := setAnchor s l .enabled 0x08
    if a.phy then setAnchor s l .linkUp 0x02 else s
  else if mayPower s l && !a.shed && decide (grantedMw s + classMw a.pdClass ≤ podlAvail s) then
    setAnchor (modAnchor s l fun a => { a with podlOn := true, granted := a.pdClass }) l .enabled 0x01
  else s

/-- Enable what may be enabled, in the order of granting; at most one link is switched on in an FC (R221, R536). -/
def enableLinks (s : State) : State :=
  ((podlOrder s).foldl (fun (e : Bool × State) l =>
    let t := enableLink e.2 l
    let on := (anchorAt t l).podlOn && !(anchorAt e.2 l).podlOn
    if on && e.1 then e else (e.1 || on, t)) (false, s)).2

/-- Switch a link's power off. -/
def unpower (s : State) (l cause : Nat) : State :=
  setAnchor (modAnchor s l fun a => { a with podlOn := false, granted := 0, phy := false }) l .off cause

/-- Shed links in the reverse order until the sum fits (R221). -/
def shedLinks (s : State) : State :=
  (podlOrder s).reverse.foldl (fun s l =>
    if (anchorAt s l).podlOn && decide (podlAvail s < grantedMw s) then
      unpower (modAnchor s l fun a => { a with shed := true, marginFc := 0 }) l 0x06
    else s) s

/-- Links that may no longer be powered lose their power: a context cleared, a PODL_CLASS_MAX below the class granted, or LULL
without PODL_KEEP (R220, R221). -/
def keepLinks (s : State) : State :=
  links.foldl (fun s l => if (anchorAt s l).podlOn && !mayPower s l then unpower s l 0x01 else s) s

/-- PODL_DETECTION (R220): a class above 12 is not powered and is counted. The boundary grants power. -/
def opPodlDetection (l cls : Nat) (s : State) : State :=
  let a := anchorAt s l
  if !running s || a.podlOn || a.state == .fault then s else
  let refused := decide (13 ≤ cls)
  modAnchor s l fun a =>
    { a with
      detected := cls != 0 && !refused
      pdClass := cls
      classRefused := if refused then inc32 a.classRefused else a.classRefused }

def execPodlDetection (link cls : Nat) (s : State) : Host.Outcome State Fault Refusal :=
  if link < 10 then .next (opPodlDetection link cls s) else .fault .noSuchUnit

/-- An event of a link enters what LATCH takes (R25). -/
def captureBuoy (s : State) (x : BuoyIn) : State := { s with buoy.ins := s.buoy.ins ++ [x] }

/-- PODL_OVERLOAD (R221, R226): the supply cuts the power at once; LATCH takes the context to FAULT. -/
def opPodlOverload (l : Nat) (s : State) : State :=
  if !running s || !(anchorAt s l).podlOn then s else
  captureBuoy (modAnchor s l fun a => { a with podlOn := false, granted := 0, phy := false }) (.overload l)

def execPodlOverload (link : Nat) (s : State) : Host.Outcome State Fault Refusal :=
  if link < 10 then .next (opPodlOverload link s) else .fault .noSuchUnit

/-- PODL_RESTORE (R221): a shed link may be powered again after 1,000 FC of margin; the boundary grants it. -/
def opPodlRestore (l : Nat) (s : State) : State :=
  let a := anchorAt s l
  if !running s || !a.shed || a.marginFc < 1000 then s else
  modAnchor s l fun a => { a with shed := false, marginFc := 0 }

def execPodlRestore (link : Nat) (s : State) : Host.Outcome State Fault Refusal :=
  if link < 10 then .next (opPodlRestore link s) else .fault .noSuchUnit

/-- FAULT_RETRY (R226): the context is OFF again, and the boundary enables it where its conditions hold. -/
def opFaultRetry (l : Nat) (s : State) : State :=
  let a := anchorAt s l
  match a.faultFc with
  | none => s
  | some fc =>
    if !running s || a.state != .fault || fcNow s < fc + 1000 then s else
    setAnchor (modAnchor s l fun a => { a with faultFc := none, micFcs := [] }) l .off 0x01

def execFaultRetry (link : Nat) (s : State) : Host.Outcome State Fault Refusal :=
  if link < 10 then .next (opFaultRetry link s) else .fault .noSuchUnit

/-- PHY_LINK_CHANGE (R219, R226): the link's level changes at once, and LATCH takes the context to its new state. -/
def opPhyLinkChange (l : Nat) (up level24 : Bool) (s : State) : State :=
  let a := anchorAt s l
  if !running s || a.phy == up then s else
  captureBuoy (modAnchor s l fun a => { a with phy := up, level24 := level24 }) (.phy l up)

def execPhyLinkChange (link : Nat) (up level24 : Bool) (s : State) : Host.Outcome State Fault Refusal :=
  if link < 10 then .next (opPhyLinkChange link up level24 s) else .fault .noSuchUnit

/-- LATCH takes a link going up or down (R226). -/
def takePhy (s : State) (l : Nat) (up : Bool) : State :=
  let a := anchorAt s l
  if up then (if a.state == .enabled then setAnchor s l .linkUp 0x02 else s)
  else if a.state == .off || a.state == .fault then s
  else setAnchor s l .enabled 0x02

/-- A context goes to FAULT (R221, R226). -/
def faultAnchor (s : State) (l cause : Nat) : State :=
  setAnchor (modAnchor s l fun a => { a with faultFc := some (fcNow s), podlOn := false, granted := 0 }) l .fault cause

/-! ### Frames (R219, R222, R223) -/

/-- The address of a link's MAC: locally administered, from DEVICE_EUI64 (R219). -/
def linkMac (s : State) (l : Nat) : BitVec 48 := (Config.macFrom s.fuse.eui64 l ||| 0x020000000000) &&& 0xFEFFFFFFFFFF

/-- BTYPE. -/
def bType (f : BuoyFrame) : Nat := fld f.bytes 0 1
/-- BVER. -/
def bVer (f : BuoyFrame) : Nat := fld f.bytes 1 1
/-- BLEN. -/
def bLen (f : BuoyFrame) : Nat := fld f.bytes 2 2
/-- BCTR. -/
def bCtr (f : BuoyFrame) : Nat := fld f.bytes 4 4
/-- FC_LOW. -/
def bFcLow (f : BuoyFrame) : Nat := fld f.bytes 8 4
/-- PERIOD. -/
def bPeriod (f : BuoyFrame) : Nat := fld f.bytes 12 1
/-- Payload. -/
def bPayload (f : BuoyFrame) : Bytes := slice f.bytes 16 (bLen f)
/-- EUI64 of a HELLO. -/
def helloEui (f : BuoyFrame) : BitVec 64 := BitVec.ofNat 64 (fld (bPayload f) 0 8)

/-- HELLO. -/
def isHello (f : BuoyFrame) : Bool := bType f == 0x81

/-- REPORT. -/
def isReport (f : BuoyFrame) : Bool := bType f == 0x83

/-- EtherType, destination, BVER and BLEN (R222, R240): only a HELLO may come to the broadcast address. -/
def frameOk (s : State) (f : BuoyFrame) : Bool :=
  f.etherType == 0x88B5 && (f.dest == linkMac s f.link || (isHello f && f.dest == 0xFFFFFFFFFFFF)) && bVer f == 1
    && decide (24 + bLen f ≤ f.bytes.length)

/-- The MIC over header and payload; direction 0x00 down, 0x01 up (R223). -/
def buoyMic (key : Bytes) (eui : BitVec 64) (ctr dir : Nat) (covered : Bytes) : Bytes :=
  ccmTag key (le 8 eui.toNat ++ le 4 ctr ++ le 1 dir) covered 8

/-- The key of an uplink frame with its anchor's EUI-64: the factory key for HELLO, else the link key; none where there is none. -/
def uplinkKey (s : State) (f : BuoyFrame) : Option (Bytes × BitVec 64) :=
  let slot := keySlot s (f.link + 1)
  let a := anchorAt s f.link
  if isHello f then (if slot.valid then some ((keyOf slot).take 16, helloEui f) else none)
  else if a.key = [] then none else some (a.key, a.heard)

/-- The MIC of an uplink frame holds. -/
def micOk (s : State) (f : BuoyFrame) : Bool :=
  match uplinkKey s f with
  | none => false
  | some (key, eui) => buoyMic key eui (bCtr f) 1 (f.bytes.take (16 + bLen f)) == slice f.bytes (16 + bLen f) 8

/-- The last BCTR accepted that a frame must exceed: a HELLO's counts for its EUI-64 (R223, R491), those captured and not yet
latched among them. -/
def lastCtr (s : State) (f : BuoyFrame) : Nat :=
  let a := anchorAt s f.link
  if isHello f then
    let waiting := s.buoy.ins.filterMap fun x => match x with
      | .frame g _ => if isHello g && helloEui g == helloEui f then some (bCtr g) else none
      | _ => none
    waiting.foldl max (max (tgetD s.p.keys.helloCtr (helloEui f).toNat 0) (if a.heard == helloEui f then a.upCtr else 0))
  else a.upCtr

/-- A MIC failure is counted (R223). -/
def anchorMicFail (s : State) (l : Nat) : State :=
  let fcs := ((anchorAt s l).micFcs.filter fun f => decide (fcNow s < f + 100)) ++ [fcNow s]
  modAnchor s l fun a => { a with micFail := inc32 a.micFail, micFcs := fcs }

/-- The receive path of an uplink frame (R222, R223, R225, R240): the checks in their order, then its entry into the report
queue of its link, at its capture instant. -/
def receiveBuoy (f : BuoyFrame) (s : State) : State :=
  let l := f.link
  if !running s || !(anchorAt s l).phy then s
  else if !frameOk s f then modAnchor s l fun a => { a with badFrames := inc32 a.badFrames }
  else if !micOk s f then anchorMicFail s l
  else if bCtr f ≤ lastCtr s f then modAnchor s l fun a => { a with replay := inc32 a.replay }
  else
    let s := if isHello f then s else modAnchor s l fun a => { a with upCtr := bCtr f }
    let before := occOf s (0x20 + l)
    match admitFrame s (0x20 + l) false with
    | (false, s) => s
    | (true, s) => arrived (captureBuoy s (.frame f (buoyDesc s f))) (0x20 + l) before

/-- HELLO (R226): captured. -/
def execHello (f : BuoyFrame) (s : State) : Host.Outcome State Fault Refusal :=
  if f.link < 10 then .next (receiveBuoy f s) else .fault .noSuchUnit

/-- SYNC_RESP (R228): captured. -/
def execSyncResp (f : BuoyFrame) (s : State) : Host.Outcome State Fault Refusal :=
  if f.link < 10 then .next (receiveBuoy f s) else .fault .noSuchUnit

/-- REPORT (R240): captured. -/
def execReport (f : BuoyFrame) (s : State) : Host.Outcome State Fault Refusal :=
  if f.link < 10 then .next (receiveBuoy f s) else .fault .noSuchUnit

/-- RELAY_ACK (R251): captured. -/
def execRelayAck (f : BuoyFrame) (s : State) : Host.Outcome State Fault Refusal :=
  if f.link < 10 then .next (receiveBuoy f s) else .fault .noSuchUnit

/-- Count a frame that is dropped, or of a BTYPE not known (R222, R224). -/
def badFrame (s : State) (l : Nat) : State := modAnchor s l fun a => { a with badFrames := inc32 a.badFrames }

/-- LATCH takes a HELLO (R226, R252, R491): the head is heard, paired anew, and moves toward SYNCING. -/
def takeHello (s : State) (f : BuoyFrame) : State :=
  let l := f.link
  let p := bPayload f
  let eui := helloEui f
  let s := cacheKey s (276 + l) (keySlot s (l + 1)).gen
  let s := { s with
    p.keys.helloCtr := tput s.p.keys.helloCtr eui.toNat (bCtr f)
    p.anchors := tmod s.p.anchors l {} fun c => { c with downCtr := 1 } }
  let key := anchorLinkKey s l eui (bCtr f)
  let s := modAnchor s l fun a =>
    { a with heard := eui, fw := fld p 8 4, model := fld p 12 2, pdHello := fld p 14 1, key := key, upCtr := bCtr f, mac := f.src }
  let mine := eui == (anchorRec s l).eui
  match (anchorAt s l).state with
  | .linkUp => setAnchor s l (if mine then .syncing else .unpaired) 0x03
  | .unpaired => if mine then setAnchor s l .syncing 0x03 else s
  | .relay => if mine then setAnchor (modAnchor s l fun a => { a with relayUntil := none }) l .syncing 0x07 else s
  | _ => s

/-! ### Clock models (R228) -/

/-- Sums of a list of pairs: n, Σx, Σy, Σxx, Σxy. -/
def pairSums (l : List (Int × Int)) : Int × Int × Int × Int × Int :=
  (l.length, (l.map (·.1)).sum, (l.map (·.2)).sum, (l.map fun p => p.1 * p.1).sum, (l.map fun p => p.1 * p.2).sum)

/-- Numerator and denominator of the slope fitted by least squares; slope 1 where one pair or none is held. -/
def fitSlope (l : List (Int × Int)) : Int × Int :=
  let (n, sx, sy, sxx, sxy) := pairSums l
  let d := n * sxx - sx * sx
  if d = 0 then (1, 1) else (n * sxy - sx * sy, d)

/-- RATE of a model, parts per 2^40. -/
def modelRate (l : List (Int × Int)) : Int := let (a, d) := fitSlope l; (a - d) * (2 ^ 40 : Nat) / d

/-- Device counter value of an unwrapped local time. -/
def deviceAt (l : List (Int × Int)) (x : Int) : Int :=
  let (n, sx, sy, _, _) := pairSums l
  let (a, d) := fitSlope l
  if n = 0 then x else (sy * d + a * (n * x - sx)) / (n * d)

/-- Device counter value of an unwrapped local time, exactly. -/
def deviceRat (l : List (Int × Int)) (x : Int) : Rat :=
  let (n, sx, sy, _, _) := pairSums l
  let (a, d) := fitSlope l
  if n = 0 then x else ((sy * d + a * (n * x - sx) : Int) : Rat) / ((n * d : Int) : Rat)

/-- Local time of a device counter value. -/
def localAt (l : List (Int × Int)) (y : Int) : Int :=
  let (n, sx, sy, _, _) := pairSums l
  let (a, d) := fitSlope l
  if n = 0 || a = 0 then y else (sx * a + d * (n * y - sy)) / (n * a)

/-- Residual RMS of a fit in ps, rounded down. -/
def fitResid (l : List (Int × Int)) : Nat :=
  let (n, sx, sy, _, _) := pairSums l
  let (a, d) := fitSlope l
  let r2 := (l.map fun p => (n * d * p.2 - d * sy - a * (n * p.1 - sx)).natAbs ^ 2).sum
  let den := n.natAbs * (n * d).natAbs ^ 2 * 638976 ^ 2
  if den = 0 then 0 else Nat.sqrt (r2 * 10 ^ 14 / den)

/-- Unwrap a 40-bit local time near a known one. -/
def unwrap (near : Int) (x : Nat) : Int := near + toSigned 40 (((x : Int) - near) % (2 ^ 40 : Nat)).toNat

/-- The last unwrapped local time of a link. -/
def lastLocal (a : AnchorLive) : Int := ((a.pairs.head?).map (·.1)).getD 0

/-- Picoseconds of an interval in FTU. -/
def ftuToPs (x : Int) : Int := rdiv (x * 10000000) 638976

/-- The state of an anchor after an accepted exchange (R226). -/
def afterExchange (s : State) (l : Nat) : State :=
  let a := anchorAt s l
  if a.state == .syncing && 100 ≤ a.good && a.resid ≤ 100 then setAnchor s l .inSync 0x04
  else if a.state == .inSync && 10 * s.p.buoyCfg.syncLost < a.resid then setAnchor s l .syncing 0x04
  else s

/-- T1 of the exchange in progress, as the transmit completion table holds it (R154). -/
def syncLaunch (s : State) (l : Nat) : Option Counter :=
  (anchorAt s l).t1.filter fun t => (tgetD s.time.completions (7 + l) []).contains t.toNat

/-- LATCH takes a SYNC_RESP (R228): the exchange enters the link's clock model. T4 is the frame's own capture. -/
def takeSyncResp (s : State) (f : BuoyFrame) : State :=
  let l := f.link
  let p := bPayload f
  let a := anchorAt s l
  match syncLaunch s l with
  | none => s
  | some t1 =>
    if a.state != .syncing && a.state != .inSync then s else
    let x2 := unwrap (lastLocal a) (fld p 0 5)
    let turn := unwrap x2 (fld p 5 5) - x2
    let d := (((f.stamp - t1).toNat : Int) - turn - turn * modelRate a.pairs / (2 ^ 40 : Nat)) / 2
    let pairs := ((x2, (t1.toNat : Int) + d + (anchorRec s l).asym / 2) :: a.pairs).take 16
    afterExchange (modAnchor s l fun a =>
      { a with
        pairs := pairs
        t1 := none
        missing := 0
        good := min 100 (a.good + 1)
        pathDelay := (ftuToPs d).toNat % 2 ^ 32
        resid := sat 16 (fitResid pairs)
        temp := fldI p 10 1
        astatus := fld p 11 1 }) l

/-! ### Downlink frames (R222 to R224, R227) -/

/-- Send a downlink frame: Ethernet header, header, payload and MIC, with the next BCTR. -/
def sendDown (s : State) (l btype : Nat) (payload : Bytes) : State :=
  let c := anchorSet s l
  let a := anchorAt s l
  let head := le 1 btype ++ le 1 1 ++ le 2 payload.length ++ le 4 c.downCtr ++ le 4 (fcNow s) ++ le 1 0xFF ++ zb 3
  let mic := buoyMic a.key a.heard c.downCtr 0 (head ++ payload)
  { modAnchor s l (fun a => { a with downQ := a.downQ ++ [etherFrame a.mac (linkMac s l) 0x88B5 (head ++ payload ++ mic)] }) with
    p.anchors := tput s.p.anchors l { c with downCtr := c.downCtr + 1 } }

/-- Send a downlink frame without LAUNCH_AT: when its capture point falls is open (R154). -/
def sendDownNow (s : State) (l btype : Nat) (payload : Bytes) : State :=
  let (t, s) := freshNat (sendDown s l btype payload)
  noteSent s (7 + l) (BitVec.ofNat 64 t)

/-- A 40-bit local time of a device counter value. -/
def local40 (a : AnchorLive) (c : Int) : Bytes := leI 5 (localAt a.pairs c)

/-- SYNC_REQ payload (R224). -/
def syncReqPayload (s : State) (a : AnchorLive) : Bytes :=
  local40 a (s.clk.boundary.toNat + 512 * s.clk.fcLen) ++ zb 3
    ++ leI 4 (localAt a.pairs (s.clk.boundary.toNat + 63897600) - localAt a.pairs s.clk.boundary.toNat)
    ++ le 1 (anchorCode a.state) ++ zb 11

/-- UWB_CHANNEL and PREAMBLE_CODE in force at a reported time (R254). -/
def uwbAt (s : State) (t : Nat) : Nat × Nat :=
  match s.buoy.radioInForce.find? fun r => decide (r.2.2 ≤ t) with
  | some r => (r.1, r.2.1)
  | none => (s.p.buoyCfg.channel, s.p.buoyCfg.preamble)

/-- UWB_CHANNEL and PREAMBLE_CODE in force. -/
def uwbNow (s : State) : Nat × Nat := uwbAt s (nowTime s)

/-- CONFIG payload (R224) with its calibration blinks. -/
def configPayload (s : State) (a : AnchorLive) (calTx : Nat) (first : Int) : Bytes :=
  le 1 (uwbNow s).1 ++ le 1 (uwbNow s).2 ++ le 1 s.p.buoyCfg.fpQual ++ le 1 calTx
    ++ (if calTx = 0 then zb 5 else local40 a first) ++ zb 7

/-- A link whose head is paired and follows the schedule. -/
def scheduled (a : AnchorLive) : Bool := a.phy && a.key != [] && (a.state == .syncing || a.state == .inSync)

/-- The instant SYNC_REQ of the FC is launched at (R227). -/
def syncInstant (s : State) : Counter := counterAt s 6240

/-- The schedule of one link (R227): SYNC_REQ with LAUNCH_AT, discarded and counted where its instant has passed, then
CONFIG. -/
def linkSchedule (s : State) (l : Nat) : State :=
  let a := anchorAt s l
  if !scheduled a then s else
  let s := if s.clk.window == .latch then
      noteSent (modAnchor (sendDown s l 0x01 (syncReqPayload s a)) l fun a => { a with t1 := some (syncInstant s) }) (7 + l) (syncInstant s)
    else { s with time.launchMissed := tmod s.time.launchMissed (7 + l) 0 fun n => sat 16 (n + 1) }
  sendDownNow s l 0x02 (configPayload s (anchorAt s l) 0 0)

/-- SYNC_REQ (R227): the schedule of every link, while LNK works. -/
def opSyncReq (s : State) : State := if !running s || lnkAway s then s else links.foldl linkSchedule s

def execSyncReq (s : State) : Host.Outcome State Fault Refusal := .next (opSyncReq s)

/-- RELAY_CTRL payload (R224). -/
def relayCtrl (a : AnchorLive) (action imageId len : Nat) (at' : Option Int) : Bytes :=
  le 1 action ++ zb 3 ++ le 4 imageId ++ le 4 len ++ (match at' with | some c => local40 a c | none => zb 5) ++ zb 7

/-! ### Reports (R238 to R242) -/

/-- The records of a REPORT, as 20-byte strings. -/
def reportRecords (f : BuoyFrame) : List Bytes :=
  let p := bPayload f
  (List.range (min 20 (fld p 0 1))).map fun i => slice p (4 + 20 * i) 20

/-- A report record (R238). -/
def blinkReport (l fc period gotFc : Nat) (b : Bytes) : BlinkReport :=
  { link := l, addr := fld b 0 2, bflags := fld b 2 1, rqual := fld b 3 1, ctr := fld b 4 4, mic := fld b 8 4, rxLocal := fld b 12 5,
    fpDb := fld b 17 1, rxDb := fld b 18 1, fc := fc, period := period, gotFc := gotFc }

/-- FC_NUMBER, as it counts now, of the FC whose FC_LOW is given: none where it is not among the last 256 (R222). A step
renumbers, and FC_LOW keeps the number of its time. -/
def fcOfLow (s : State) (low : Nat) : Option Nat :=
  (((s.time.regs :: s.time.history).take 256).findIdx? fun g => g.fc % 2 ^ 32 == low).map fun k => fcNow s - k

/-- A REPORT came after the end of the period after its own: FC and PCLK of its capture against FC and period (R241). -/
def reportLate (fc period gotFc pclk : Nat) : Bool :=
  let last := if period ≤ 8 then (fc, (period + 2) * 124800) else (fc + 1, 124800)
  let last := if period = 8 then (fc + 1, 0) else last
  decide (last.1 < gotFc) || (last.1 == gotFc && decide (last.2 < pclk))

/-- Device time of an RMARKER before its link's asymmetry is corrected. -/
def rawTime (s : State) (l rxLocal : Nat) : Int :=
  let a := anchorAt s l
  deviceAt a.pairs (unwrap (lastLocal a) rxLocal) - (anchorRec s l).asym / 2

/-- Calibration blinks of a REPORT (R230): the head's own transmissions, and those it heard of others at sufficient quality. -/
def calHeard (s : State) (l : Nat) (blinks : List BlinkReport) : State :=
  { s with buoy.cal := s.buoy.cal.map fun c =>
      if !c.who.contains l then c else
      { c with heard := c.heard ++ (blinks.filter fun b => bit b.bflags 3 && decide (0xFFF0 ≤ b.addr) && c.who.contains (b.addr - 0xFFF0)
          && (b.addr == 0xFFF0 + l || decide (s.p.buoyCfg.fpQual ≤ b.rqual % 64))).map fun b =>
            (b.addr - 0xFFF0, l, b.ctr, rawTime s l b.rxLocal) } }

/-- A REPORT is taken (R240 to R242): one captured after its deadline is discarded and counted. -/
def takeReport (s : State) (f : BuoyFrame) : State :=
  let l := f.link
  let a := anchorAt s l
  let gotFc := fcNow s - 1
  let late := modAnchor s l fun a => { a with reportLoss := sat 32 (a.reportLoss + 1) }
  match fcOfLow s (bFcLow f) with
  | none => late
  | some fc =>
    if reportLate fc (bPeriod f) gotFc f.pclk then late else
    let all := (reportRecords f).map (blinkReport l fc (bPeriod f) gotFc)
    let recs := all.filter fun b => !bit b.bflags 3
    let use := a.state == .inSync && (anchorRec s l).surveyed
    let s := modAnchor s l fun a =>
      { a with
        reportLoss := sat 32 (a.reportLoss + fld (bPayload f) 1 1)
        reportFcs := (a.reportFcs.filter fun f => decide (fcNow s < f + 100)) ++ recs.map fun _ => fcNow s }
    let s := if use then calHeard s l all else s
    { s with
      buoy.periods := s.buoy.periods ++ [(l, fc, bPeriod f, gotFc)]
      buoy.reports := s.buoy.reports ++ (if use then recs else [])
      buoy.rejects := if use then s.buoy.rejects else lmod s.buoy.rejects 0 fun x => sat 32 (x + recs.length) }

/-- REPORT_DEADLINE (R241): the end of the period after this one has come. -/
def opReportDeadline (fc period : Nat) (s : State) : State :=
  if !running s || 9 < period || fcNow s < fc || (fcNow s == fc && period == 9) then s else
  { s with buoy.deadlines := s.buoy.deadlines ++ [(fc, period, fcNow s)] }

def execReportDeadline (fc period : Nat) (s : State) : Host.Outcome State Fault Refusal := .next (opReportDeadline fc period s)

/-! ### Firmware relay (R251, R252, R259) -/

/-- Chunks of an image. -/
def relayChunks (v : Relay) : Nat := cdiv v.len 1024

/-- Send a relay's chunks of this FC: at most 8, and at most 16 beyond the last acknowledged (R251). -/
def relayData (s : State) (l : Nat) : State :=
  match (anchorAt s l).relay with
  | none => s
  | some v =>
    let last := min (min (v.acked + 16) (v.sent + 8)) (relayChunks v)
    let image := anchorPlain s v.imageId
    let s := (List.range (last - v.sent)).foldl (fun s i =>
      sendDownNow s l 0x03 (le 4 v.imageId ++ le 4 (v.sent + i) ++ slice image (1024 * (v.sent + i)) 1024)) s
    modAnchor s l fun a => { a with relay := some { v with sent := max v.sent last } }

/-- The relays' downlink traffic of an FC. -/
def emitRelays (s : State) : State := links.foldl relayData s

/-- A named link has reported VERIFIED or FAILED, in the FC before. -/
def relayReported (s : State) (l rstate : Nat) : State :=
  { s with buoy.relayCmd := s.buoy.relayCmd.map fun c =>
      let c := if !bit c.mask l || bit (c.done ||| c.failed) l then c
        else if rstate = 2 then { c with done := c.done ||| 2 ^ l } else { c with failed := c.failed ||| 2 ^ l }
      { c with doneFc := if c.doneFc.isNone && c.done ||| c.failed == c.mask then some (fcNow s - 1) else c.doneFc } }

/-- LATCH takes a RELAY_ACK (R251): it advances the relay, or ends it as VERIFIED or FAILED. -/
def takeRelayAck (s : State) (f : BuoyFrame) : State :=
  let l := f.link
  let p := bPayload f
  let rstate := fld p 8 1
  let s := modAnchor s l fun a => { a with rstate := rstate }
  match (anchorAt s l).relay with
  | none => s
  | some v =>
    if v.imageId != fld p 0 4 then s
    else if rstate = 2 || rstate = 3 then relayReported (modAnchor s l fun a => { a with relay := none }) l rstate
    else modAnchor s l fun a =>
      { a with relay := some { v with acked := max v.acked (fld p 4 4), sent := max v.sent (fld p 4 4), ackFc := fcNow s } }

/-- RELAY_RESEND (R251): no acknowledgement for 10 FC. -/
def opRelayResend (l : Nat) (s : State) : State :=
  match (anchorAt s l).relay with
  | none => s
  | some v =>
    if !running s || fcNow s < v.ackFc + 10 then s
    else modAnchor s l fun a => { a with relay := some { v with sent := v.acked, ackFc := fcNow s } }

def execRelayResend (link : Nat) (s : State) : Host.Outcome State Fault Refusal :=
  if link < 10 then .next (opRelayResend link s) else .fault .noSuchUnit

/-- Links a mask names. -/
def maskLinks (m : Nat) : List Nat := links.filter fun l => bit m l

/-- The anchor contexts a mask names, as objects. -/
def maskObjs (m : Nat) : List (Nat × Nat) := (maskLinks m).map fun l => (okAnchor, l)

/-- Length of a staged anchor image, by segment index (R529). -/
def stagedLen (s : State) (imageId : Nat) : Option Nat :=
  if !s.upd.staged then none else
  (((stagedSlot s).pkg.anchors.find? fun a => a.1 == imageId).map fun a => a.2.2.2)

/-- Reply of BUOY_RELAY. -/
def relayReply (done failed : Nat) : Bytes := le 2 done ++ le 2 failed ++ zb 4

/-- The final reply of BUOY_RELAY START, in the FC after the last named link has reported (R259). -/
def finishRelay (s : State) : State :=
  match s.buoy.relayCmd with
  | none => s
  | some c =>
    match c.doneFc with
    | none => s
    | some fc =>
      if fcNow s ≤ fc then s else
      let s := { s with buoy.relayCmd := none, com.cmdCommits := 0 }
      changeAll s c.req (maskObjs c.mask) id (if c.failed = 0 then stOk else stRelayFailed) fun _ => relayReply c.done c.failed

/-- The checks and the body common to the three forms of BUOY_RELAY (R259). -/
def relayOp (r : Request) (s : State) (rsv : Bool) (body : Nat → State → State) : State :=
  let p := r.payload
  let mask := fld p 2 2
  runOp s r (p.length == 24) (zeros p 1 1 && zeros p 18 6 && decide (mask < 1024) && rsv) (svcOk s r) (inModes s mWork) fun s =>
  need (mask != 0) s r stBadRange fun s => body mask s

/-- Every named anchor is IN_SYNC. -/
def namedInSync (s : State) (mask : Nat) : Bool := (maskLinks mask).all (inSync s)

/-- BUOY_RELAY START (R251, R259). -/
def opBuoyRelayStart (r : Request) (s : State) : State :=
  relayOp r s (zeros r.payload 8 10) fun mask s =>
  let id := fld r.payload 4 4
  match stagedLen s id with
  | none => finish s r stNotReady []
  | some len =>
    need (namedInSync s mask) s r stNotReady fun s =>
    need (s.buoy.relayCmd.isNone && s.buoy.cal.isNone) s r stBusy fun s =>
    let s := (maskLinks mask).foldl (fun s l =>
      modAnchor (sendDownNow s l 0x04 (relayCtrl (anchorAt s l) 1 id len none)) l fun a =>
        { a with relay := some { imageId := id, len := len, ackFc := fcNow s }, rstate := 1 }) s
    accept { s with buoy.relayCmd := some { mask := mask, req := r } } r 1 []

def execBuoyRelayStart (r : Request) (s : State) : Host.Outcome State Fault Refusal := .next (opBuoyRelayStart (withHead r 1) s)

/-- Full time of an 8-byte time and its era. -/
def fullOf (p : Bytes) (off : Nat) : Nat := fld p (off + 8) 2 * 2 ^ 64 + fld p off 8

/-- Counter value, from this FC's boundary on, at which reported time reaches `t`. -/
def counterOf (s : State) (t : Nat) : Int := s.clk.boundary.toNat + ((t : Int) - nowTime s)

/-- RELAY_CTRL ACTIVATE on the named links: each restarts at the instant, at which its context enters RELAY (R252). -/
def activateHeads (s : State) (mask id t : Nat) : State :=
  (maskLinks mask).foldl (fun s l =>
    let s := sendDownNow s l 0x04 (relayCtrl (anchorAt s l) 2 id 0 (some (counterOf s t)))
    modAnchor s l fun a => { a with relay := none, activate := some (id, t) }) s

/-- BUOY_RELAY ACTIVATE (R252, R259). -/
def opBuoyRelayActivate (r : Request) (s : State) : State :=
  relayOp r s true fun mask s =>
  let id := fld r.payload 4 4
  let t := fullOf r.payload 8
  need (namedInSync s mask && (stagedLen s id).isSome && (maskLinks mask).all fun l => (anchorAt s l).rstate == 2) s r stNotReady fun s =>
  need (decide (startOfSecondNext s ≤ t)) s r stTooLate fun s =>
  need s.buoy.relayCmd.isNone s r stBusy fun s =>
  changeAll s r (maskObjs mask) (fun s => activateHeads s mask id t) stOk fun _ => relayReply mask 0

def execBuoyRelayActivate (r : Request) (s : State) : Host.Outcome State Fault Refusal :=
  .next (opBuoyRelayActivate (withHead r 2) s)

/-- A START that an ABORT ends: its final reply without a commit. -/
def abortStart (s : State) (mask : Nat) : State :=
  match s.buoy.relayCmd with
  | none => s
  | some c =>
    if c.mask &&& mask = 0 then s else
    finish { s with buoy.relayCmd := none } c.req stRelayFailed (relayReply c.done (c.mask &&& (c.mask ^^^ c.done)))

/-- BUOY_RELAY ABORT (R259): the named heads discard any partial image. -/
def opBuoyRelayAbort (r : Request) (s : State) : State :=
  relayOp r s (zeros r.payload 8 10) fun mask s =>
  let id := fld r.payload 4 4
  checkCsn s r (maskObjs mask) fun s =>
  let s := (maskLinks mask).foldl (fun s l =>
    modAnchor (sendDownNow s l 0x04 (relayCtrl (anchorAt s l) 3 id 0 none)) l fun a => { a with relay := none, rstate := 0 })
    (commitAll s (maskObjs mask))
  abortStart (finish s r stOk (relayReply mask 0)) mask

def execBuoyRelayAbort (r : Request) (s : State) : Host.Outcome State Fault Refusal := .next (opBuoyRelayAbort (withHead r 3) s)

/-! ### The boundary -/

/-- Payload bytes a frame of a BTYPE must carry (R224); none for a BTYPE not known. -/
def needBytes (f : BuoyFrame) : Option Nat :=
  if isHello f then some 24
  else if bType f = 0x82 then some 16
  else if isReport f then some (4 + 20 * min 20 (fld (bPayload f) 0 1))
  else if bType f = 0x84 then some 12
  else none

/-- LATCH takes one uplink frame; one of another BTYPE, or too short for its own, is counted and ignored (R224, R225). -/
def takeFrame (s : State) (f : BuoyFrame) : State :=
  match needBytes f with
  | none => badFrame s f.link
  | some n =>
    if bLen f < n then badFrame s f.link
    else if isHello f then takeHello s f
    else if isReport f then takeReport s f
    else if bType f = 0x82 then takeSyncResp s f
    else takeRelayAck s f

/-- LATCH takes one capture of the links. -/
def latchOne (s : State) (x : BuoyIn) : State :=
  match x with
  | .frame f _ => takeFrame s f
  | .phy l up => takePhy s l up
  | .overload l => faultAnchor s l 0x01

/-- What the solver takes itself, LNK working or not: REPORT frames (R225). -/
def forSolver (x : BuoyIn) : Bool :=
  match x with
  | .frame f _ => isReport f
  | _ => false

/-- 100 MIC failures in 100 FC fault a context (R226). -/
def micFault (s : State) (l : Nat) : State :=
  let a := anchorAt s l
  if a.state != .fault && a.state != .off && decide (100 ≤ (a.micFcs.filter fun f => decide (fcNow s ≤ f + 100)).length) then
    faultAnchor s l 0x05
  else s

/-- LATCH takes the captures of the FC before in their order; while LNK is away, only what the solver takes (R225, R517). -/
def latchBuoy (s : State) : State :=
  let away := lnkAway s
  let now := if away then s.buoy.ins.filter forSolver else s.buoy.ins
  let s : State := { s with buoy.ins := if away then s.buoy.ins.filter fun x => !forSolver x else [] }
  let s := now.foldl latchOne s
  if away then s else links.foldl micFault s

/-- A link whose exchange of the FC before is missing (R226, R228). -/
def missedExchange (s : State) (l : Nat) : State :=
  let a := anchorAt s l
  if a.t1.isNone then s else
  let s := modAnchor s l fun a => { a with t1 := none, good := 0, missing := min 3 (a.missing + 1) }
  if a.state == .inSync && 2 ≤ a.missing then setAnchor s l .syncing 0x04 else s

/-- What a context newly in force does to the link's state (R226, R255). -/
def ctxActs (s : State) (l : Nat) : State :=
  let a := anchorAt s l
  let c := anchorRec s l
  if !c.isSet then unpower s l 0x08 else
  let mine := a.heard == c.eui
  match a.state with
  | .unpaired => if mine then setAnchor s l .syncing 0x08 else s
  | .syncing | .inSync | .relay => if mine then s else setAnchor s l .unpaired 0x08
  | _ => s

/-- Contexts set or cleared in the FC before come into force (R255). -/
def ctxBoundary (s : State) : State :=
  s.buoy.ctxDue.foldl (fun s l => ctxActs { s with buoy.ctx := tput s.buoy.ctx l (anchorSet s l) } l) { s with buoy.ctxDue := [] }

/-- A head told to restart enters RELAY in the first FC that begins at or after its instant (R252). -/
def activateBoundary (s : State) (l : Nat) : State :=
  match (anchorAt s l).activate with
  | none => s
  | some (_, t) =>
    if nowTime s < t then s else
    setAnchor (modAnchor s l fun a => { a with activate := none, relayUntil := some (fcNow s + 300) }) l .relay 0x07

/-- Forget the channel settings that no longer hold. -/
def pruneUwb (s : State) : State :=
  let due := s.buoy.radioInForce.filter fun r => decide (nowTime s < r.2.2)
  { s with buoy.radioInForce := if due.isEmpty then [] else due ++ (s.buoy.radioInForce.find? fun r => decide (r.2.2 ≤ nowTime s)).toList }

/-- What the boundary does to the links: ambient and margins, the captures latched, missing exchanges, contexts in force, the
restarts due, and power. -/
def buoyBoundary (s : State) (tAmb : Int) (podlMa : List Nat) : State :=
  let s := { s with buoy.tAmb := (tAmb :: s.buoy.tAmb).take 100 }
  let s := { s with
    cores.pAvail := podlAvail s
    buoy.anchors := tmap s.buoy.anchors fun l a =>
      { a with
        downQ := []
        podlMa := podlMa.getD l 0
        marginFc := if a.shed && decide (grantedMw s + classMw a.pdClass + 2000 ≤ podlAvail s) then min 1000 (a.marginFc + 1) else 0 } }
  let s := latchBuoy s
  let s := if lnkAway s then s else links.foldl missedExchange s
  let s := pruneUwb (ctxBoundary s)
  let s := links.foldl activateBoundary s
  enableLinks (shedLinks (keepLinks s))

/-! ### Zones (R248, R250, R256) -/

/-- The first whole second at least 2 s after a commit made now (R235, R250). -/
def effectSecond (s : State) : Nat := cdiv (commitTime s + 2 * ftuPerSec) ftuPerSec * ftuPerSec

/-- A zone as BUOY_ZONE_SET bytes 0-27. -/
def zoneBytes (i : Nat) (z : Zone) : Bytes :=
  le 1 i ++ le 1 z.kind ++ zb 2 ++ leI 4 z.aE ++ leI 4 z.aN ++ leI 4 z.bE ++ leI 4 z.bN ++ le 4 z.half ++ leI 4 z.floorU

/-- A zone from a payload. -/
def zoneFrom (p : Bytes) : Zone :=
  { kind := fld p 1 1, aE := fldI p 4 4, aN := fldI p 8 4, bE := fldI p 12 4, bN := fldI p 16 4, half := fld p 20 4, floorU := fldI p 24 4 }

/-- Ranges of BUOY_ZONE_SET. -/
def zoneOk (p : Bytes) : Bool :=
  decide (fld p 0 1 < 32) && decide (fld p 1 1 ≤ 2)
    && (fld p 1 1 == 0 || slice p 4 8 != slice p 12 8)
    && (fld p 1 1 != 2 || (decide (500 ≤ fld p 20 4) && decide (fld p 20 4 ≤ 50000)))

/-- The zone table as BUOY_ZONE_SET reads it (R256). -/
def zonesReply (s : State) : Bytes :=
  le 2 s.p.zoneRev ++ zb 2 ++ (List.range 32).flatMap fun i => zoneBytes i (tgetD s.p.zones i {})

/-- A zone takes its place in the table, which holds from EFFECT_TIME (R250). -/
def setZone (s : State) (z : Nat) (v : Zone) : State :=
  let t := effectSecond s
  let zs := tput s.p.zones z v
  { s with
    p.zones := zs
    p.zoneRev := (s.p.zoneRev + 1) % 65536
    p.zoneEffect := t
    buoy.zonesNext := s.buoy.zonesNext ++ [(t, zs)]
    buoy.zonesDirty := true }

/-- BUOY_ZONE_SET (R256). -/
def opBuoyZoneSet (r : Request) (s : State) : State :=
  let p := r.payload
  let read := fld p 0 1 == 0xFF
  runOp s r (p.length == 32)
    (zeros p 2 2 && zeros p 28 4 && (!read || zeros p 1 31) && (fld p 1 1 != 0 || zeros p 4 24) && (fld p 1 1 != 1 || zeros p 20 4))
    (read || supOk s r) (edtOr s 0x0520 read mCfg) fun s =>
  if read then
    finish s r stOk (zonesReply s)
  else
  need (zoneOk p) s r stBadRange fun s =>
  change1 s r siteObj (fun s => setZone s (fld p 0 1) (zoneFrom p)) (fun _ => [])

def execBuoyZoneSet (r : Request) (s : State) : Host.Outcome State Fault Refusal := .next (opBuoyZoneSet r s)

/-- The zone message (R250). -/
def zoneMessage (s : State) : Bytes :=
  let zs := s.p.zones.filter fun z => z.2.kind != 0
  le 1 4 ++ le 1 zs.length ++ le 2 s.p.zoneRev ++ leTime s.p.zoneEffect ++ zb 4 ++ zs.flatMap fun z => zoneBytes z.1 z.2

/-- Zone tables come into force at their instants (R250). -/
def zonesBoundary (s : State) : State :=
  let due := s.buoy.zonesNext.filter fun z => decide (z.1 ≤ nowTime s)
  match due.getLast? with
  | none => s
  | some z => { s with buoy.zones := z.2, buoy.zonesNext := s.buoy.zonesNext.filter fun z => decide (nowTime s < z.1) }

/-! ### Blink assignments (R234 to R236) -/

/-- Period in slots of a BLINK_HZ code. -/
def blinkPeriod (code : Nat) : Nat := 8192 / 2 ^ (code - 1)

/-- Two assignments, period and base slot, collide (R235). -/
def blinkCollide (a b : Nat × Nat) : Bool := if b.1 ≤ a.1 then a.2 % b.1 == b.2 else b.2 % a.1 == a.2

/-- The assignments taken, the contention slots included, without one session's. -/
def blinkTaken (s : State) (except : Nat) : List (Nat × Nat) :=
  (256, 255) :: (s.sess.robots.filter fun e => e.1 != except && e.2.blinkHz != 0).map fun e => (blinkPeriod e.2.blinkHz, e.2.blinkSlot)

/-- The first code not above `code` with room, and its smallest base slot; 0 where there is none. -/
def blinkRoom (taken : List (Nat × Nat)) : Nat → Nat × Nat
  | 0 => (0, 0)
  | c + 1 =>
    match (List.range (blinkPeriod (c + 1))).find? fun b => !taken.any (blinkCollide (blinkPeriod (c + 1), b)) with
    | some b => (c + 1, b)
    | none => blinkRoom taken c

/-- BLINK_HZ code of a class: 7 is no blinks. -/
def classRateOf (s : State) (cls : Nat) : Nat :=
  let n := s.p.buoyCfg.classRate.getD cls 4
  if n = 7 then 0 else n

/-- The blink assignment message (R236). -/
def blinkMessage (s : State) (x : Robot) : Bytes :=
  le 1 5 ++ le 1 x.blinkHz ++ le 2 x.shortAddr ++ le 2 x.blinkSlot ++ le 1 s.p.buoyCfg.channel ++ le 1 s.p.buoyCfg.preamble
    ++ leTime x.blinkEffect

/-- The assignments of a robot, newest first: BLINK_HZ code, base slot, EFFECT_TIME. -/
def blinkPlan (x : Robot) : List (Nat × Nat × Nat) := (x.blinkHz, x.blinkSlot, x.blinkEffect) :: x.blinkWas

/-- BLINK_HZ code and base slot in force at a reported time (R235): no blinks before the first assignment. -/
def blinkAt (x : Robot) (t : Nat) : Nat × Nat :=
  match (blinkPlan x).find? fun b => decide (b.2.2 ≤ t) with
  | some b => (b.1, b.2.1)
  | none => (0, 0)

/-- The assignments of a robot that hold at an instant or after it. -/
def laterBlinks (x : Robot) (t : Nat) : List (Nat × Nat × Nat) :=
  let l := blinkPlan x
  (l.filter fun b => decide (t < b.2.2)) ++ (l.find? fun b => decide (b.2.2 ≤ t)).toList

/-- Assign a robot's blinks from an instant and send the assignment (R235, R236); those before it hold until then. -/
def assignBlinks (s : State) (i t : Nat) (was : List (Nat × Nat × Nat)) : State :=
  match tget s.sess.robots i with
  | none => s
  | some x =>
    let (c, b) := blinkRoom (blinkTaken s i) (classRateOf s (tgetD s.p.robots i {}).cls)
    let x := { x with blinkHz := c, blinkSlot := b, blinkEffect := t, blinkWas := was }
    queueMsg { s with sess.robots := tput s.sess.robots i x } 3 (some i) (blinkMessage s x)

/-- Reassign every associated robot in rising session index (R235). -/
def reassignBlinks (s : State) : State :=
  let t := effectSecond s
  let who := s.sess.robots.filter fun e => e.2.shortAddr != 0xFFFF
  let s := { s with sess.robots := tmap s.sess.robots fun _ x => { x with blinkHz := 0 } }
  who.foldl (fun s e => assignBlinks s e.1 t (laterBlinks e.2 (commitTime s))) s

/-! ### Opcodes -/

/-- One link entry of BUOY_STATUS. -/
def linkEntry (s : State) (l : Nat) : Bytes :=
  let a := anchorAt s l
  let c := anchorSet s l
  le 1 (anchorCode a.state) ++ le 1 (bitsOf [c.surveyed, c.calibrated, a.podlOn, a.shed, a.level24]) ++ le 1 a.granted
    ++ le 1 c.group ++ le 8 (if a.heard = 0 then c.eui else a.heard).toNat ++ le 4 a.pathDelay ++ leI 4 (ftuToPs c.asym)
    ++ le 2 a.resid ++ le 2 (a.reportFcs.filter fun f => decide (fcNow s < f + 100)).length ++ le 4 a.reportLoss
    ++ le 4 a.micFail ++ le 4 a.fw ++ le 2 a.podlMa ++ leI 1 a.temp ++ le 1 a.rstate

/-- BUOY_STATUS (R253). -/
def buoyStatusReply (s : State) : Bytes :=
  le 1 (uwbNow s).1 ++ le 1 (uwbNow s).2 ++ le 1 (links.filter (inSync s)).length ++ leI 1 (ambient s / 10)
    ++ le 2 (podlAvail s / 100) ++ le 2 (grantedMw s / 100) ++ le 4 (s.buoy.fixFcs.filter fun f => decide (fcNow s < f + 100)).length
    ++ le 4 ((s.buoy.rejects.drop 2).sum) ++ links.flatMap (linkEntry s)

def opBuoyStatus (r : Request) (s : State) : State := readOp s r 0x0501 buoyStatusReply

def execBuoyStatus (r : Request) (s : State) : Host.Outcome State Fault Refusal := .next (opBuoyStatus r s)

/-- Nibble `c` of CLASS_RATE. -/
def rateNibble (p : Bytes) (c : Nat) : Nat := fld p (12 + c / 2) 1 / 16 ^ (c % 2) % 16

/-- The settings as BUOY_CONFIG carries them (R254). -/
def buoyCfgBytes (c : BuoyConfig) : Bytes :=
  le 1 c.channel ++ le 1 c.preamble ++ le 1 c.minAnchors ++ le 1 c.hdopMax ++ le 2 c.residMax ++ le 2 c.blendGate
    ++ le 1 c.fpQual ++ le 1 c.syncLost ++ zb 2
    ++ (List.range 16).flatMap (fun i => le 1 (c.classRate.getD (2 * i) 4 + 16 * c.classRate.getD (2 * i + 1) 4)) ++ zb 4

/-- Settings after a BUOY_CONFIG payload. -/
def buoyCfgFrom (c : BuoyConfig) (p : Bytes) : BuoyConfig :=
  { channel := keep (fld p 0 1) c.channel, preamble := keep (fld p 1 1) c.preamble, minAnchors := keep (fld p 2 1) c.minAnchors,
    hdopMax := keep (fld p 3 1) c.hdopMax, residMax := keep (fld p 4 2) c.residMax, blendGate := keep (fld p 6 2) c.blendGate,
    fpQual := keep (fld p 8 1) c.fpQual, syncLost := keep (fld p 9 1) c.syncLost,
    classRate := (List.range 32).map fun i => keep (rateNibble p i) (c.classRate.getD i 4) }

/-- Ranges of R254. -/
def buoyCfgOk (p : Bytes) : Bool :=
  [0, 5, 9].contains (fld p 0 1) && within (fld p 1 1) 9 12 && within (fld p 2 1) 3 8 && within (fld p 3 1) 10 100
    && within (fld p 4 2) 20 1000 && within (fld p 6 2) 50 2000 && within (fld p 8 1) 1 63 && within (fld p 9 1) 5 100
    && (List.range 32).all fun i => decide (rateNibble p i ≤ 7)

/-- Take new settings; a new channel, preamble or rate reassigns the robots, and a new channel or preamble holds for heads and
robots from one whole second (R235, R254). -/
def applyBuoyCfg (s : State) (c : BuoyConfig) : State :=
  let o := s.p.buoyCfg
  let air := c.channel != o.channel || c.preamble != o.preamble
  let was := if s.buoy.radioInForce.isEmpty then [(o.channel, o.preamble, 0)] else s.buoy.radioInForce
  let s := { s with
    p.buoyCfg := c
    buoy.radioInForce := if air then (c.channel, c.preamble, effectSecond s) :: was else s.buoy.radioInForce }
  if air || c.classRate != o.classRate then reassignBlinks s else s

/-- BUOY_CONFIG (R254). -/
def opBuoyConfig (r : Request) (s : State) : State :=
  let p := r.payload
  let read := allZero p
  runOp s r (p.length == 32) (zeros p 10 2 && zeros p 28 4) (read || supOk s r) (edtOr s 0x0503 read mCfg) fun s =>
  if read then finish s r stOk (buoyCfgBytes s.p.buoyCfg) else
  need (buoyCfgOk p) s r stBadRange fun s =>
  change1 s r siteObj (fun s => applyBuoyCfg s (buoyCfgFrom s.p.buoyCfg p)) (fun s => buoyCfgBytes s.p.buoyCfg)

def execBuoyConfig (r : Request) (s : State) : Host.Outcome State Fault Refusal := .next (opBuoyConfig r s)

/-- Coordinates moved by more than 50 mm (R230). -/
def movedFar (c : AnchorRec) (e n u : Int) : Bool :=
  decide (50 ^ 2 < (c.e - e).natAbs ^ 2 + (c.n - n).natAbs ^ 2 + (c.u - u).natAbs ^ 2)

/-- A context as BUOY_ANCHOR_SET sets it (R230, R247, R255). -/
def anchorFrom (c : AnchorRec) (p : Bytes) : AnchorRec :=
  let eui := BitVec.ofNat 64 (fld p 4 8)
  let e := fldI p 12 4
  let n := fldI p 16 4
  let u := fldI p 20 4
  let fresh := !c.isSet || c.eui != eui || movedFar c e n u
  { c with
    isSet := true
    eui := eui
    classMax := fld p 2 1
    prio := fld p 3 1
    e := e
    n := n
    u := u
    sigma := fld p 24 2
    surveyed := true
    calibrated := c.calibrated && !fresh
    group := if fresh then 0 else c.group }

/-- A link's context is committed; it acts from the next FC (R255). -/
def setContext (s : State) (l : Nat) (c : AnchorRec) : State :=
  { s with p.anchors := tput s.p.anchors l c, buoy.ctxDue := s.buoy.ctxDue ++ [l] }

/-- A cleared context: OFF, no coordinates, no calibration; its downlink counter goes on. -/
def clearedContext (c : AnchorRec) : AnchorRec := { downCtr := c.downCtr }

/-- BUOY_ANCHOR_SET (R255). -/
def opBuoyAnchorSet (r : Request) (s : State) : State :=
  let p := r.payload
  let l := fld p 0 1
  let set' := fld p 1 1 == 1
  runOp s r (p.length == 32) (zeros p 26 6 && (fld p 1 1 != 2 || zeros p 2 24)) (supOk s r) (inModes s mCfg) fun s =>
  need (decide (l < 10) && (fld p 1 1 == 2 || (set' && [0, 10, 11, 12].contains (fld p 2 1) && decide (fld p 3 1 ≤ 7)
      && decide (1 ≤ fld p 24 2) && decide (fld p 24 2 ≤ 1000)))) s r stBadRange fun s =>
  need (s.buoy.cal.isNone && (anchorAt s l).relay.isNone) s r stBusy fun s =>
  change1 s r (okAnchor, l)
    (fun s => setContext s l (if set' then anchorFrom (anchorSet s l) p else clearedContext (anchorSet s l)))
    (fun _ => [])

def execBuoyAnchorSet (r : Request) (s : State) : Host.Outcome State Fault Refusal := .next (opBuoyAnchorSet r s)

/-- Send calibration CONFIGs: anchor `i` in turn from FC n + 1 on, 100 blinks each, one per FC (R230). -/
def startCal (s : State) (who : List Nat) : State :=
  (List.range who.length).foldl (fun s i =>
    let l := who.getD i 0
    sendDownNow s l 0x02 (configPayload s (anchorAt s l) 100 (s.clk.boundary.toNat + 638976000 * (1 + 100 * i)))) s

/-- BUOY_CALIBRATE (R257). -/
def opBuoyCalibrate (r : Request) (s : State) : State :=
  let p := r.payload
  runOp s r (p.length == 8) (zeros p 1 7) (supOk s r) (inModes s [.zephyr, .watch]) fun s =>
  need (fld p 0 1 == 1) s r stBadRange fun s =>
  need (s.buoy.cal.isNone && s.buoy.relayCmd.isNone) s r stBusy fun s =>
  let who := links.filter fun l => inSync s l && surveyed s l
  accept { startCal s who with buoy.cal := some { endFc := fcNow s + 100 * who.length + 100, who := who, req := r } } r 1 []

def execBuoyCalibrate (r : Request) (s : State) : Host.Outcome State Fault Refusal := .next (opBuoyCalibrate r s)

/-- Blinks of one anchor that another has heard (R230). -/
def heardBy (c : BuoyCal) (a b : Nat) : List (Nat × Nat × Nat × Int) := c.heard.filter fun h => h.1 == a && h.2.1 == b

/-- A pair of anchors has heard each other at least 80 times. -/
def usablePair (c : BuoyCal) (a b : Nat) : Bool :=
  a != b && decide (80 ≤ (heardBy c a b).length) && decide (80 ≤ (heardBy c b a).length)

/-- Links joined to a set by usable pairs, in `n` rounds. -/
def reach (c : BuoyCal) : Nat → List Nat → List Nat
  | 0, l => l
  | n + 1, l => reach c n (links.filter fun x => l.contains x || l.any fun y => usablePair c x y)

/-- Lowest link of the calibration group of a link, where it has a usable pair. -/
def groupHead (c : BuoyCal) (l : Nat) : Option Nat :=
  if links.any fun x => x != l && usablePair c l x then (reach c 10 [l]).head? else none

/-- Calibration group of a link: numbered in the order of lowest links (R230). -/
def calGroup (c : BuoyCal) (l : Nat) : Nat :=
  match groupHead c l with
  | none => 0
  | some h => ((links.filterMap (groupHead c)).eraseDups.filter fun x => decide (x ≤ h)).length

/-- Measured flights of one anchor's blinks to another in FTU, before correction. -/
def flights (c : BuoyCal) (a b : Nat) : List Int :=
  (heardBy c a b).filterMap fun h => ((heardBy c a a).find? fun o => o.2.2.1 == h.2.2.1).map fun o => h.2.2.2 - o.2.2.2

/-- Their mean. -/
def meanFlight (c : BuoyCal) (a b : Nat) : Option Rat :=
  let l := flights c a b
  if l.isEmpty then none else some ((l.sum : Rat) / (l.length : Rat))

/-- FTU in which a signal travels a nanometre at C_AIR (R230). -/
def ftuPerNm : Rat := 63897600000 / 299702547000000000

/-- A distance in nm from its components in mm. -/
def distNm (de dn du : Int) : Nat := Nat.sqrt ((de.natAbs ^ 2 + dn.natAbs ^ 2 + du.natAbs ^ 2) * 10 ^ 12)

/-- The time of flight between two anchors in FTU, from the surveyed coordinates (R230). -/
def surveyFlight (s : State) (a b : Nat) : Rat :=
  let x := anchorSet s a
  let y := anchorSet s b
  (distNm (x.e - y.e) (x.n - y.n) (x.u - y.u) : Rat) * ftuPerNm

/-- How far a measured flight falls short of the surveyed one. -/
def shortfall (s : State) (c : BuoyCal) (a b : Nat) : Option Rat := (meanFlight c a b).map fun m => surveyFlight s a b - m

/-- The usable pairs, lower link first, with the shortfalls of both directions. -/
def fitPairs (s : State) (c : BuoyCal) : List (Nat × Nat × Rat × Rat) :=
  links.flatMap fun a => (links.filter fun b => decide (a < b) && usablePair c a b).filterMap fun b =>
    match shortfall s c a b, shortfall s c b a with
    | some x, some y => some (a, b, x, y)
    | _, _ => none

/-- One row of ten coefficients. -/
def coeff (f : Nat → Rat) : List Rat := links.map f

/-- ASYM_FTU of every link by least squares, the sum of each group 0 (R230): a flight from a to b is corrected by half the
difference of their asymmetries. -/
def fitAsym (s : State) (c : BuoyCal) : List Int :=
  let obs := (fitPairs s c).map fun q => (coeff fun l => if l = q.2.1 then 1 else if l = q.1 then -1 else 0, q.2.2.1 - q.2.2.2)
  let sums := (links.map (· + 1)).map fun g => (coeff fun l => if calGroup c l = g then 1 else 0, (0 : Rat))
  (leastSquares 10 obs sums fun _ => 0).map roundRat

/-- ANT_DELAY of every anchor by least squares (R230): a flight is corrected by half of each of the two delays. What the pairs
leave open is the operand's. -/
def fitDelay (s : State) (c : BuoyCal) (fits : List CalFit) : List Int :=
  let obs := (fitPairs s c).map fun q => (coeff fun l => if l = q.2.1 || l = q.1 then 1 else 0, -(q.2.2.1 + q.2.2.2))
  (leastSquares 10 obs [] fun l => (((fits.find? fun f => f.link == l).getD {}).delay : Rat)).map roundRat

/-- The residual of a usable pair in mm: the worse of its two directions after correction. -/
def pairResid (asym delay : List Int) (q : Nat × Nat × Rat × Rat) : Nat :=
  let da : Rat := ((asym.getD q.2.1 0 - asym.getD q.1 0 : Int) : Rat) / 2
  let dd : Rat := ((delay.getD q.2.1 0 + delay.getD q.1 0 : Int) : Rat) / 2
  let mm (x : Rat) : Nat := (roundRat (x / ftuPerNm / 1000000)).natAbs
  max (mm (q.2.2.1 - da + dd)) (mm (q.2.2.2 + da + dd))

/-- PAIR_RESID_MM of a link: the worst of its usable pairs. -/
def worstResid (s : State) (c : BuoyCal) (asym delay : List Int) (l : Nat) : Nat :=
  ((fitPairs s c).filter fun q => q.1 == l || q.2.1 == l).foldl (fun m q => max m (pairResid asym delay q)) 0

/-- The context of a link after a calibration. -/
def calibrated (c : BuoyCal) (asym delay : List Int) (l : Nat) (x : AnchorRec) : AnchorRec :=
  let g := calGroup c l
  { x with calibrated := g != 0, group := g, asym := if g = 0 then 0 else asym.getD l 0, antDelay := if g = 0 then 0 else delay.getD l 0 }

/-- Reply of BUOY_CALIBRATE. -/
def buoyCalReply (s : State) (c : BuoyCal) (asym delay : List Int) : Bytes :=
  le 1 (links.filterMap (groupHead c)).eraseDups.length ++ zb 7 ++ links.flatMap fun l =>
    let x := anchorSet s l
    le 1 x.group ++ le 1 (links.filter fun y => usablePair c l y).length ++ le 2 (sat 16 (worstResid s c asym delay l))
      ++ leI 4 (ftuToPs x.asym) ++ leI 4 (ftuToPs x.antDelay)

/-- BUOY_CALIBRATION_DONE (R230, R257). -/
def opBuoyCalibrationDone (fits : List CalFit) (s : State) : State :=
  match s.buoy.cal with
  | none => s
  | some c =>
    if fcNow s < c.endFc then s else
    let s := { s with buoy.cal := none, com.cmdCommits := 0 }
    let asym := fitAsym s c
    let delay := fitDelay s c fits
    if (links.filterMap (groupHead c)).isEmpty then finish s c.req stCalFailed (buoyCalReply s { c with heard := [] } [] []) else
    changeAll s c.req (maskObjs 0x3FF)
      (fun s => links.foldl (fun s l => setContext s l (calibrated c asym delay l (anchorSet s l))) s) stOk
      (fun s => buoyCalReply s c asym delay)

def execBuoyCalibrationDone (fits : List CalFit) (s : State) : Host.Outcome State Fault Refusal := .next (opBuoyCalibrationDone fits s)

/-- BUOY_FIX_SUBSCRIBE (R258). -/
def opBuoyFixSubscribe (r : Request) (s : State) : State := subscribeOp r s 0x0530 fun e v => { e with fixSub := v }

def execBuoyFixSubscribe (r : Request) (s : State) : Host.Outcome State Fault Refusal := .next (opBuoyFixSubscribe r s)

end Sys2Proof.Machine
end

