-- ==== Sys2Proof/Machine/Tdoa.lean ====
section
/-! DEFINITION. The TDoA solver, the zones a point lies in, the released position and the BUOY fix events (R241 to R245,
R248 to R250, R260). -/

namespace Sys2Proof.Machine

open Sys2Proof

/-! ### Robot sessions -/

/-- The volatile part of a robot session. -/
def robotAt (s : State) (i : Nat) : Robot := tgetD s.sess.robots i {}

/-- The persistent part of a robot session; its SSTATE is the state in force. -/
def robotRec (s : State) (i : Nat) : RobotRec := tgetD s.p.robots i {}

/-- Change the volatile part of a robot session. -/
def modRobot (s : State) (i : Nat) (f : Robot → Robot) : State := { s with sess.robots := tmod s.sess.robots i {} f }

/-- An association is in force. -/
def associated (s : State) (i : Nat) : Bool :=
  match (robotRec s i).sstate with
  | .associated | .adrift | .asleep => true
  | _ => false

/-- The sessions with an association in force. -/
def associatedSessions (s : State) : List Nat := (s.p.robots.filter fun e => associated s e.1).map (·.1)

/-! ### Zones (R248) -/

/-- The axis of a BLEND zone: (p - A)·(B - A), |B - A|² and (p - A)×(B - A). -/
def blendAxis (z : Zone) (e n : Int) : Int × Int × Int :=
  let de := z.bE - z.aE
  let dn := z.bN - z.aN
  ((e - z.aE) * de + (n - z.aN) * dn, de * de + dn * dn, (e - z.aE) * dn - (n - z.aN) * de)

/-- A point lies in a BLEND zone. -/
def inBlend (z : Zone) (e n : Int) : Bool :=
  let (dot, l2, cr) := blendAxis z e n
  z.kind == 2 && decide (0 ≤ dot) && decide (dot ≤ l2) && decide (cr * cr ≤ (z.half ^ 2 : Nat) * l2)

/-- A point lies in a COVER zone. -/
def inCover (z : Zone) (e n : Int) : Bool :=
  z.kind == 1 && decide (min z.aE z.bE ≤ e) && decide (e ≤ max z.aE z.bE)
    && decide (min z.aN z.bN ≤ n) && decide (n ≤ max z.aN z.bN)

/-- The lowest-numbered zone of a list of kinds that holds a point. -/
def zoneOf (s : State) (f : Zone → Int → Int → Bool) (e n : Int) : Option Zone :=
  (s.buoy.zones.find? fun z => f z.2 e n).map (·.2)

/-- A point lies in TDoA coverage. -/
def inCoverage (s : State) (e n : Int) : Bool := (zoneOf s (fun z e n => inBlend z e n || inCover z e n) e n).isSome

/-- The weight w of R249 in a BLEND zone. -/
def blendWeight (z : Zone) (e n : Int) : Nat :=
  let (dot, l2, _) := blendAxis z e n
  1000 - (rdiv (1000 * dot) l2.toNat).toNat

/-! ### Groups (R241, R242) -/

/-- The reports latched and not yet solved. -/
def latchedReports (s : State) : List BlinkReport := s.buoy.reports.filter fun b => decide (b.gotFc < fcNow s)

/-- Two reports belong to one group. -/
def sameGroup (a b : BlinkReport) : Bool := a.addr == b.addr && a.ctr == b.ctr

/-- The first report of each group, oldest capture first. -/
def groupHeads : List BlinkReport → List BlinkReport → List BlinkReport
  | acc, [] => acc
  | acc, b :: bs => groupHeads (if acc.any (sameGroup b) then acc else acc ++ [b]) bs

/-- The links that contribute reports. -/
def contributing (s : State) : List Nat := links.filter fun l => surveyed s l && inSync s l

/-- Every contributing link's REPORT of a period has been latched. -/
def periodFull (s : State) (fc period : Nat) : Bool :=
  (contributing s).all fun l => s.buoy.periods.any fun q => q.1 == l && q.2.1 == fc && q.2.2.1 == period && decide (q.2.2.2 < fcNow s)

/-- The end of the period after a period has been latched. -/
def periodOver (s : State) (fc period : Nat) : Bool :=
  s.buoy.deadlines.any fun d => d.1 == fc && d.2.1 == period && decide (d.2.2 < fcNow s)

/-- A group is to be solved in this FC. -/
def groupReady (s : State) (h : BlinkReport) : Bool :=
  ((latchedReports s).filter (sameGroup h)).all fun b => periodFull s b.fc b.period || periodOver s b.fc b.period

/-- The session that holds a short address. -/
def sessionOfAddr (s : State) (addr : Nat) : Option Nat :=
  if associated s (addr % 256) && (robotAt s (addr % 256)).shortAddr == addr then some (addr % 256) else none

/-- Count one of R242's rejections. -/
def countReject (s : State) (i n : Nat) : State := { s with buoy.rejects := lmod s.buoy.rejects i fun x => sat 32 (x + n) }

/-! ### The solver (R243, R244) -/

/-- First-path quality of a report. -/
def fpQuality (b : BlinkReport) : Nat := b.rqual % 64

/-- t_i of a report in FTU of the device counter, exactly (R243). -/
def rxTime (s : State) (b : BlinkReport) : Rat :=
  let a := anchorAt s b.link
  deviceRat a.pairs (unwrap (lastLocal a) b.rxLocal) - ((anchorRec s b.link).antDelay : Rat) / 2

/-- The position of the reference in a list of reports: highest quality, lowest link on a tie. -/
def refIndex (l : List BlinkReport) : Nat :=
  let best := l.foldl (fun m b => max m (fpQuality b)) 0
  let link := l.foldl (fun m b => if fpQuality b = best then min m b.link else m) 10
  (l.findIdx? fun b => fpQuality b == best && b.link == link).getD 0

/-- The mean of the anchors of a list of reports, in nm. -/
def centroid (s : State) (l : List BlinkReport) : Int × Int :=
  (1000000 * (l.map fun b => (anchorRec s b.link).e).sum / (l.length : Int), 1000000 * (l.map fun b => (anchorRec s b.link).n).sum / (l.length : Int))

/-- One report as the solver takes it: its anchor in nm, and C_AIR × (t - t_ref) in nm. -/
structure TdoaIn where
  e : Int
  n : Int
  u : Int
  range : Int
deriving DecidableEq, Repr

/-- The reports as the solver takes them. -/
def tdoaIns (s : State) (l : List BlinkReport) : List TdoaIn :=
  let tRef := rxTime s (l.getD (refIndex l) {})
  l.map fun b =>
    let c := anchorRec s b.link
    { e := 1000000 * c.e, n := 1000000 * c.n, u := 1000000 * c.u, range := roundRat ((rxTime s b - tRef) / ftuPerNm) }

/-- Distance in nm from an anchor to a point. -/
def distTo (a : TdoaIn) (e n u : Int) : Nat := Nat.sqrt ((a.e - e).natAbs ^ 2 + (a.n - n).natAbs ^ 2 + (a.u - u).natAbs ^ 2)

/-- One row of a Gauss-Newton step at a point: the derivatives of |p - a| - |p - ref| by e and n, in parts of 10^12, and the
residual range difference in nm. -/
def tdoaRow (r a : TdoaIn) (e n u : Int) : Int × Int × Int :=
  let da := distTo a e n u
  let dr := distTo r e n u
  ((e - a.e) * 10 ^ 12 / (da : Int) - (e - r.e) * 10 ^ 12 / (dr : Int),
    (n - a.n) * 10 ^ 12 / (da : Int) - (n - r.n) * 10 ^ 12 / (dr : Int), a.range - ((da : Int) - (dr : Int)))

/-- The sums of the normal equations: ee, nn, en, er, nr. -/
def tdoaSums (rows : List (Int × Int × Int)) : Int × Int × Int × Int × Int :=
  ((rows.map fun r => r.1 * r.1).sum, (rows.map fun r => r.2.1 * r.2.1).sum, (rows.map fun r => r.1 * r.2.1).sum,
    (rows.map fun r => r.1 * r.2.2).sum, (rows.map fun r => r.2.1 * r.2.2).sum)

/-- The nearest whole number of a ratio, half away from 0. -/
def roundDiv (a b : Int) : Int := rdiv (a * b.sign) b.natAbs

/-- Gauss-Newton steps from a point, at most `n`, ending with one below 1 mm (R243); none where a step has no solution. -/
def tdoaSteps (ins : List TdoaIn) (r : TdoaIn) (u : Int) : Nat → Int × Int → Option (Int × Int)
  | 0, p => some p
  | k + 1, p =>
    let (ee, nn, en, er, nr) := tdoaSums (ins.map fun a => tdoaRow r a p.1 p.2 u)
    let det := ee * nn - en * en
    if det = 0 then none else
    let de := roundDiv (10 ^ 12 * (nn * er - en * nr)) det
    let dn := roundDiv (10 ^ 12 * (ee * nr - en * er)) det
    let q := (p.1 + de, p.2 + dn)
    if de.natAbs ^ 2 + dn.natAbs ^ 2 < 10 ^ 12 then some q else tdoaSteps ins r u k q

/-- A solution: the point in nm, each report's residual range difference in nm, and HDOP² as a ratio. -/
structure TdoaSol where
  e : Int
  n : Int
  res : List Nat
  num : Nat
  den : Nat
deriving DecidableEq, Repr

/-- The solver's arithmetic over a list of reports (R243); HDOP² is the trace of the inverse of the last normal matrix. -/
def solveSet (s : State) (l : List BlinkReport) (start : Int × Int) (up : Int) : Option TdoaSol :=
  let ins := tdoaIns s l
  match ins[refIndex l]? with
  | none => none
  | some r =>
    let u := 1000000 * up
    match tdoaSteps ins r u 6 start with
    | none => none
    | some p =>
      let rows := ins.map fun a => tdoaRow r a p.1 p.2 u
      let (ee, nn, en, _, _) := tdoaSums rows
      let det := ee * nn - en * en
      if det = 0 then none else
      some { e := p.1, n := p.2, res := rows.map fun q => q.2.2.natAbs, num := ((ee + nn) * 10 ^ 24).natAbs, den := det.natAbs }

/-- The square sum of residuals in nm², and the number of range differences. -/
def residSum (res : List Nat) : Nat × Nat := ((res.map (· ^ 2)).sum, max 1 (res.length - 1))

/-- The residual RMS exceeds a limit in mm. -/
def residOver (res : List Nat) (limit : Nat) : Bool := let (q, d) := residSum res; decide (limit ^ 2 * 10 ^ 12 * d < q)

/-- The position of the largest residual. -/
def worstIndex (res : List Nat) : Nat := (res.findIdx? fun x => x == res.foldl max 0).getD 0

/-- RESID_MM, rounded up. -/
def residMm (res : List Nat) : Nat := let (q, d) := residSum res; sqrtUp (cdiv q (d * 10 ^ 12))

/-- SIGMA_MM: HDOP × max(resid, 15 mm), rounded up (R243). -/
def fixSigma (v : TdoaSol) : Nat :=
  let (q, d) := residSum v.res
  sqrtUp (cdiv (v.num * max q (225 * 10 ^ 12 * d)) (v.den * d * 10 ^ 12))

/-- HDOP ≤ HDOP_MAX_X10 ÷ 10 (R244). -/
def hdopOk (v : TdoaSol) (limit : Nat) : Bool := decide (100 * v.num ≤ limit ^ 2 * v.den)

/-- Index of the blink slot at a full reported time (R234). -/
def blinkSlotAt (t : Nat) : Nat := t / 7800000 % 8192

/-- OFF_SLOT: the RMARKER lies outside 60-110 µs after the start of the robot's slot, by the assignment in force then, or of a
contention slot (R237). -/
def offSlot (x : Robot) (t : Nat) : Bool :=
  let i := blinkSlotAt t
  let b := blinkAt x t
  let own := b.1 != 0 && i % blinkPeriod b.1 == b.2
  !((own || i % 256 == 255) && decide (3833856 ≤ t % 7800000) && decide (t % 7800000 ≤ 7028736))

/-- FLOOR_U_MM of the zone holding a robot's previous position plus the tag height of its class. -/
def tagUp (s : State) (i : Nat) : Int :=
  let q := (robotAt s i).pos
  let z := if q.had then zoneOf s (fun z e n => inBlend z e n || inCover z e n) q.e q.n else none
  ((z.map (·.floorU)).getD Config.floorElsewhere) + (tgetD s.p.classes (robotRec s i).cls {}).tagHeight

/-- The start position in nm: the released position of the last 200 FC, else the centroid. -/
def startOf (s : State) (i : Nat) (l : List BlinkReport) : Int × Int :=
  let q := (robotAt s i).pos
  if q.had && decide (fcNow s ≤ q.validFc + 200) then (1000000 * q.e, 1000000 * q.n) else centroid s l

/-- The reports of the calibration group with most reports, the lower-numbered group on a tie, and its number. -/
def calSet (s : State) (l : List BlinkReport) : Nat × List BlinkReport :=
  let of (g : Nat) := l.filter fun b => (anchorRec s b.link).group == g
  let best := (List.range 11).foldl (fun m g => max m (of g).length) 0
  let g := ((List.range 11).find? fun g => (of g).length == best).getD 0
  (g, of g)

/-- BLEND_W for a robot's previous position (R250). -/
def weightNow (s : State) (i : Nat) : Nat :=
  let q := (robotAt s i).pos
  if q.valid then ((zoneOf s inBlend q.e q.n).map fun z => blendWeight z q.e q.n).getD 0xFFFF else 0xFFFF

/-- FIX_TIME (R243): t_ref less the flight from the reference to the fix, as reported time. -/
def fixTime (s : State) (r : BlinkReport) (v : TdoaSol) (up : Int) : Nat :=
  let c := anchorRec s r.link
  let dist := distTo { e := 1000000 * c.e, n := 1000000 * c.n, u := 1000000 * c.u, range := 0 } v.e v.n (1000000 * up)
  capturedTime s (BitVec.ofInt 64 (roundRat (rxTime s r - (dist : Rat) * ftuPerNm)))

/-- A fix from the reports used, once solved. -/
def fixFrom (s : State) (i : Nat) (used : List BlinkReport) (v : TdoaSol) (up : Int) (flags group : Nat) : Fix :=
  let c := s.p.buoyCfg
  let e := rdiv v.e 1000000
  let n := rdiv v.n 1000000
  let t := fixTime s (used.getD (refIndex used) {}) v up
  let ok := !residOver v.res c.residMax && hdopOk v c.hdopMax && decide (c.minAnchors ≤ used.length)
  { session := i, anchors := used.length, e := e, n := n, u := up, hdop := sqrtUp (cdiv (100 * v.num) v.den), group := group
    flags := flags + flag ok 15 + flag (inCoverage s e n) 14 + flag (offSlot (robotAt s i) t) 11
    sigma := sat 16 (fixSigma v), resid := sat 16 (residMm v.res)
    slot := blinkSlotAt t, time := t, fc := fcNow s, w := weightNow s i }

/-- A fix released not valid for want of anchors, or of a solution: its values are open. -/
def openFix (s : State) (i : Nat) (used : List BlinkReport) (flags group : Nat) : Fix × State :=
  let (e, s) := freshNat s
  let (n, s) := freshNat s
  let (sg, s) := freshNat s
  let (h, s) := freshNat s
  let (rs, s) := freshNat s
  let (t, s) := freshNat s
  let e := toSigned 32 (e % 2 ^ 32)
  let n := toSigned 32 (n % 2 ^ 32)
  ({ session := i, anchors := used.length, e := e, n := n, u := tagUp s i, hdop := h % 256, group := group
     flags := flags + flag (inCoverage s e n) 14 + flag (offSlot (robotAt s i) t) 11
     sigma := sg % 65536, resid := rs % 65536, slot := blinkSlotAt t, time := t, fc := fcNow s, w := weightNow s i }, s)

/-- A group's solution once more without the report of the largest residual, where R243 asks for it. -/
def dropWorst (s : State) (used : List BlinkReport) (v : TdoaSol) : Option (List BlinkReport) :=
  if residOver v.res s.p.buoyCfg.residMax && decide (s.p.buoyCfg.minAnchors < used.length) then some (used.eraseIdx (worstIndex v.res))
  else none

/-- Release a set's solution, its values open where it has none. -/
def releaseFix (s : State) (i : Nat) (used : List BlinkReport) (v : Option TdoaSol) (flags group : Nat) : Fix × State :=
  match v with
  | none => openFix s i used flags group
  | some v => (fixFrom s i used v (tagUp s i) flags group, s)

/-- Solve a group's reports for a robot (R243). -/
def solveFor (s : State) (i : Nat) (l : List BlinkReport) (deadline : Bool) : Fix × State :=
  let (g, used) := calSet s l
  let base := flag (bit ((l.headD {}).bflags) 0) 10 + flag deadline 9 + flag (used.length != l.length) 8 + flag (g == 0) 12
  if used.length < s.p.buoyCfg.minAnchors || used.isEmpty then openFix s i used base g else
  let up := tagUp s i
  let start := startOf s i used
  let v := solveSet s used start up
  match v.bind (dropWorst s used) with
  | some fewer => releaseFix s i fewer (solveSet s fewer start up) (base + flag true 13) g
  | none => releaseFix s i used v base g

/-- Enter a fix: awaiting EMIT, and, when VALID, as the robot's latest. -/
def enterFix (s : State) (f : Fix) : State :=
  let s := { s with buoy.fixes := s.buoy.fixes ++ [f] }
  if bit f.flags 15 then
    modRobot { s with buoy.fixFcs := (s.buoy.fixFcs.filter fun k => decide (fcNow s < k + 100)) ++ [fcNow s] }
      f.session fun x => { x with fix := some f }
  else s

/-- The blink MIC holds (R233): CCM* MIC-32 over bytes 0-7 under the robot's uplink key. -/
def blinkOk (s : State) (i : Nat) (b : BlinkReport) : Bool :=
  fromLe (ccmTag ((robotAt s i).assocKey.take 16) (nonce154 (robotRec s i).eui b.ctr 1)
    (le 1 0x4B ++ le 1 b.bflags ++ le 2 b.addr ++ le 4 b.ctr) 4) == b.mic

/-- Take one group: R242's discards, then the solver. -/
def takeGroup (s : State) (h : BlinkReport) : State :=
  let all := (latchedReports s).filter (sameGroup h)
  let late := all.any fun b => !periodFull s b.fc b.period
  let s := { s with buoy.reports := s.buoy.reports.filter fun b => !(sameGroup h b && decide (b.gotFc < fcNow s)) }
  let good := all.filter fun b => surveyed s b.link && inSync s b.link
  let s := countReject s 0 (all.length - good.length)
  match good with
  | [] => s
  | b :: _ =>
    let same := good.filter (·.mic == b.mic)
    let s := countReject s 1 (good.length - same.length)
    match sessionOfAddr s b.addr with
    | none => countReject s 2 1
    | some i =>
      if ((robotAt s i).blinkCtr.map fun c => decide (b.ctr ≤ c)).getD false then countReject s 3 1
      else if !blinkOk s i b then countReject { s with buoy.lastBadAddr := b.addr } 4 1
      else
        let s := modRobot s i fun x => { x with blinkCtr := some b.ctr }
        let (f, s) := solveFor s i same late
        enterFix s f

/-- The TDoA work of SOLVE: at most 96 groups, oldest capture first (R245). -/
def solveBlinks (s : State) : State :=
  let heads := ((groupHeads [] (latchedReports s)).filter (groupReady s)).take 96
  heads.foldl takeGroup s

/-- Forget the periods and deadlines that no report to be solved belongs to. -/
def prunePeriods (s : State) : State :=
  let pending (fc period : Nat) : Bool := s.buoy.reports.any fun b => b.fc == fc && b.period == period
  { s with
    buoy.periods := s.buoy.periods.filter fun q => decide (fcNow s < q.2.1 + 100) || pending q.2.1 q.2.2.1
    buoy.deadlines := s.buoy.deadlines.filter fun d => decide (fcNow s < d.1 + 100) || pending d.1 d.2.1 }

/-! ### The released position (R249) -/

/-- Two positions lie within a distance in east and north. -/
def withinMm (e1 n1 e2 n2 : Int) (d : Nat) : Bool := decide ((e1 - e2) ^ 2 + (n1 - n2) ^ 2 ≤ ((d ^ 2 : Nat) : Int))

/-- T released. -/
def posOfFix (s : State) (f : Fix) : Position :=
  { valid := true, e := f.e, n := f.n, u := f.u, sigma := f.sigma, source := 1, time := f.time, fc := fcNow s, validFc := fcNow s, had := true }

/-- R released. -/
def posOfRtk (s : State) (f : RtkReport) : Position :=
  { valid := true, e := f.e, n := f.n, u := f.u, sigma := f.sigma, source := 2, time := f.time, fc := fcNow s, validFc := fcNow s, had := true }

/-- T and R blended with weight w; the time of a blend is open. -/
def posBlend (s : State) (w : Nat) (t : Fix) (r : RtkReport) (time : Nat) : Position :=
  let mix (a b : Int) := rdiv ((w : Int) * a + ((1000 - w : Nat) : Int) * b) 1000
  { valid := true, e := mix t.e r.e, n := mix t.n r.n, u := mix t.u r.u
    sigma := cdiv (w * t.sigma + (1000 - w) * r.sigma) 1000, source := 3, time := time % 2 ^ 64, fc := fcNow s, validFc := fcNow s, had := true }

/-- The position POS releases for a robot, none where nothing qualifies. -/
def selectPos (s : State) (x : Robot) : Option Position × State :=
  let t := x.fix.filter fun f => decide (fcNow s ≤ f.fc + 25)
  let r := x.rtk.filter fun f => decide (fcNow s ≤ f.fc + 20)
  let justT := t.map (posOfFix s)
  let justR := r.map (posOfRtk s)
  let q := x.pos
  if !q.valid then
    match t with
    | some f => if inCoverage s f.e f.n then (justT, s) else (justR, s)
    | none => (justR, s)
  else
    match zoneOf s inBlend q.e q.n with
    | some z =>
      let w := blendWeight z q.e q.n
      match t, r with
      | some a, some b =>
        if withinMm a.e a.n b.e b.n s.p.buoyCfg.blendGate then
          let (v, s) := freshNat s
          (some (posBlend s w a b v), s)
        else ((if 500 ≤ w then justT else justR).map fun p => { p with conflict := true }, s)
      | some _, none => (justT, s)
      | none, _ => (justR, s)
    | none => if (zoneOf s inCover q.e q.n).isSome then (justT, s) else (justR, s)

/-- Release one robot's position. -/
def releasePos (s : State) (i : Nat) : State :=
  let (p, s) := selectPos s (robotAt s i)
  modRobot s i fun x => { x with pos := p.getD { x.pos with valid := false, source := 0, conflict := false, fc := fcNow s } }

/-- POS releases one position for each associated robot. -/
def releasePositions (s : State) : State := (associatedSessions s).foldl releasePos s

/-! ### Messages and events (R250, R260) -/

/-- The Haene fix message. -/
def fixMessage (s : State) (f : Fix) : Bytes :=
  le 1 3 ++ le 1 (f.flags / 256) ++ le 2 (robotAt s f.session).shortAddr ++ leI 4 f.e ++ leI 4 f.n ++ le 2 f.sigma
    ++ le 2 f.w ++ leTime f.time

/-- A fix in EV_BUOY_FIX. -/
def fixEntry (f : Fix) : Bytes :=
  le 1 f.session ++ le 1 f.anchors ++ le 2 f.flags ++ leI 4 f.e ++ leI 4 f.n ++ leI 4 f.u ++ le 2 f.sigma ++ le 1 (min 255 f.hdop)
    ++ le 1 f.group ++ le 2 f.resid ++ le 2 f.slot ++ leTime f.time

/-- Fix messages and EV_BUOY_FIX of the FC's fixes. -/
def emitFixes (s : State) : State :=
  let aud := Audience.slots (subscribers s (·.fixSub))
  let s1 := (s.buoy.fixes.filter fun f => bit f.flags 15).foldl (fun t f => queueMsg t 4 (some f.session) (fixMessage t f)) s
  let s2 := (groups 43 s.buoy.fixes.length s.buoy.fixes).foldl (fun t g =>
    if g.isEmpty then t else raise t 0x8502 aud (le 2 g.length ++ zb 6 ++ g.flatMap fixEntry)) s1
  { s2 with buoy.fixes := [] }

/-- EV_BUOY_BLINK_REJECT (R579): in EMIT of an FC whose number is a multiple of 100, when a count it carries has moved. -/
def emitBlinkRejects (s : State) : State :=
  let d (i : Nat) := s.buoy.rejects.getD i 0 - s.buoy.rejectsSent.getD i 0
  if fcNow s % 100 != 0 || (d 4 == 0 && d 3 == 0 && d 2 == 0) then s else
  raise { s with buoy.rejectsSent := s.buoy.rejects } 0x8503 .sup
    (le 4 (d 4) ++ le 4 (d 3) ++ le 4 (d 2) ++ le 2 s.buoy.lastBadAddr ++ zb 2)

end Sys2Proof.Machine
end

