-- ==== Sys2Proof/Machine/Strt.lean ====
section
/-! DEFINITION. The Space-Time Reservation Table: entries, probes, inserts, the reserve and remove operations, expiry, and
the site holds with the STRT opcodes (R293 to R316, R319 to R325, R581). -/

namespace Sys2Proof.Machine

open Sys2Proof

/-! ### Entries (R295 to R298) -/

def kPath : Nat := 0
def kDwell : Nat := 1
def kZone : Nat := 2
def kHost : Nat := 3
def kClear : Nat := 4

/-- A KIND with a standing key. -/
def isStanding (kind : Nat) : Bool := kind == kDwell || kind == kZone

/-- A KIND whose OWNER is a robot session. -/
def isRobotKind (kind : Nat) : Bool := kind == kPath || kind == kDwell || kind == kClear

/-- A field of an entry. -/
def eField (w : BitVec 64) (lo n : Nat) : Nat := w.toNat / 2 ^ lo % 2 ^ n

def eCell (w : BitVec 64) : Nat := eField w 40 24
def eSlot (w : BitVec 64) : Nat := eField w 30 10
def eOwner (w : BitVec 64) : Nat := eField w 22 8
def eKind (w : BitVec 64) : Nat := eField w 19 3
def eAge (w : BitVec 64) : Nat := eField w 7 12
def eLock (w : BitVec 64) : Bool := w.toNat.testBit 6
def eValid (w : BitVec 64) : Bool := w.toNat.testBit 4

/-- Exclusive or of the `n` nibbles above the lowest. -/
def nibbles : Nat → Nat → Nat
  | 0, _ => 0
  | n + 1, x => x / 16 % 16 ^^^ nibbles n (x / 16)

/-- CHK of bits [63:4] (R297). -/
def chk (w : BitVec 64) : Nat := 10 ^^^ nibbles 15 w.toNat

/-- A way that fails its check. -/
def corruptWay (w : BitVec 64) : Bool := chk w != eField w 0 4

/-- A word with its CHK. -/
def sealed (x : Nat) : BitVec 64 := let w := BitVec.ofNat 64 (x / 16 * 16); BitVec.ofNat 64 (w.toNat + chk w)

/-- An entry. -/
def entry (cell slot10 owner kind age : Nat) (lock : Bool) : BitVec 64 :=
  sealed (cell * 2 ^ 40 + slot10 * 2 ^ 30 + owner * 2 ^ 22 + kind * 2 ^ 19 + age * 2 ^ 7 + flag lock 6 + 16)

/-- An entry with another KIND and AGE. -/
def reEntry (w : BitVec 64) (kind age : Nat) : BitVec 64 := entry (eCell w) (eSlot w) (eOwner w) kind age (eLock w)

/-- The word of a free way. -/
def freeWord : BitVec 64 := 0xA#64

/-- The word of a way. -/
def wayAt (t : Tbl (BitVec 64)) (i : Nat) : BitVec 64 := tgetD t i freeWord

/-- Write a way: the word of a free way leaves the way unlisted. -/
def putWay (t : Tbl (BitVec 64)) (i : Nat) (w : BitVec 64) : Tbl (BitVec 64) :=
  if w = freeWord then tdel t i else tput t i w

/-- The canonical form of the table: ways in rising order, none listed that reads as a free way. -/
def waysWf (t : Tbl (BitVec 64)) : Bool := Tbl.sorted t && t.all fun e => e.2 != freeWord

/-- A way that holds an entry and is not corrupt. -/
def holds (w : BitVec 64) : Bool := eValid w && !corruptWay w

/-! ### Hashing and lookup (R300, R301) -/

/-- A key as the hash takes it. -/
def keyInput (cell slot10 kind : Nat) : BitVec 64 :=
  BitVec.ofNat 64 ((if isStanding kind then 2 ^ 34 else 0) + cell * 1024 + slot10)

/-- The bucket of a key in a bank. -/
def bucketOf (bank : Nat) (k : BitVec 64) : Nat :=
  let x := if bank = 0 then (k ^^^ (k >>> (17 : Nat))) * 0x9E3779B97F4A7C15#64 else (k ^^^ (k >>> (13 : Nat))) * 0xC2B2AE3D27D4EB4F#64
  x.toNat / 2 ^ 49

/-- ENTRY_INDEX of way 0 of a bucket (R298). -/
def bucketBase (bank bucket : Nat) : Nat := bank * 131072 + bucket * 4

/-- The four ways of a bucket. -/
def waysOf (bank bucket : Nat) : List Nat := (List.range 4).map fun i => bucketBase bank bucket + i

/-- The eight ways a key can stand in. -/
def candidates (cell slot10 kind : Nat) : List Nat :=
  let k := keyInput cell slot10 kind
  waysOf 0 (bucketOf 0 k) ++ waysOf 1 (bucketOf 1 k)

/-- What a probe of one key finds. -/
inductive Found where
  | free
  | at (index : Nat) (word : BitVec 64)
  | corrupt (index : Nat) (word : BitVec 64)
deriving DecidableEq, Repr

/-- A way matches a key. -/
def matchesKey (cell slot10 kind : Nat) (w : BitVec 64) : Bool :=
  holds w && eCell w == cell && eSlot w == slot10 && isStanding (eKind w) == isStanding kind

/-- Probe one key (R301, R303). -/
def probeKey (t : Tbl (BitVec 64)) (cell slot10 kind : Nat) : Found :=
  let c := candidates cell slot10 kind
  match c.find? fun i => matchesKey cell slot10 kind (wayAt t i) with
  | some i => .at i (wayAt t i)
  | none =>
    match c.find? fun i => corruptWay (wayAt t i) with
    | some i => .corrupt i (wayAt t i)
    | none => .free

/-- One key of a request: cell, slot (ignored for a standing kind), KIND, OWNER. -/
structure Key where
  cell : Nat
  slot : Nat := 0
  kind : Nat
  owner : Nat
deriving DecidableEq, Repr

/-- SLOT10 of a key. -/
def Key10 (k : Key) : Nat := if isStanding k.kind then 0 else k.slot % 1024

/-- The outcome of a request's key (R299). -/
inductive Seen where
  | free
  | own (index : Nat) (word : BitVec 64)
  | shared (index : Nat) (word : BitVec 64)
  | pending
  | conflict (index : Nat) (word : BitVec 64) (corrupt : Bool)
deriving DecidableEq, Repr

/-- The standing key of a cell seen by a timed request. -/
def standingSeen (t : Tbl (BitVec 64)) (k : Key) (robot : Bool) : Option Seen :=
  match probeKey t k.cell 0 kDwell with
  | .free => none
  | .at i w => if robot && isRobotKind (eKind w) && eOwner w == k.owner then none else some (.conflict i w false)
  | .corrupt i w => some (.conflict i w true)

/-- The outcome of a key (R299). -/
def look (t : Tbl (BitVec 64)) (k : Key) : Seen :=
  let f := probeKey t k.cell (Key10 k) k.kind
  if k.kind = kZone then
    match f with
    | .at i w => if eKind w = kZone then .shared i w else .pending
    | _ => .free
  else if k.kind = kDwell then
    match f with
    | .free => .free
    | .at i w => if eKind w = kDwell && eOwner w = k.owner then .own i w else .conflict i w false
    | .corrupt i w => .conflict i w true
  else
    let robot := k.kind != kHost
    match f with
    | .corrupt i w => .conflict i w true
    | .at i w =>
      if robot && isRobotKind (eKind w) && eOwner w == k.owner then (standingSeen t k robot).getD (.own i w)
      else .conflict i w false
    | .free => (standingSeen t k robot).getD .free

/-! ### Inserting and relocation (R304) -/

/-- The first free way of a list. -/
def freeWay (t : Tbl (BitVec 64)) (l : List Nat) : Option Nat :=
  l.find? fun i => let w := wayAt t i; !eValid w && !corruptWay w

/-- The victim of step `i` in a bucket. -/
def victim (t : Tbl (BitVec 64)) (chain : List Nat) (i bank bucket : Nat) : Option Nat :=
  ((List.range 4).map fun j => bucketBase bank bucket + (i + j) % 4).find? fun x =>
    holds (wayAt t x) && !eLock (wayAt t x) && !chain.contains x

/-- Search for a relocation chain: its ways, the free way last. -/
def chainSearch (t : Tbl (BitVec 64)) : Nat → Nat → Nat → Nat → List Nat → Option (List Nat)
  | 0, _, _, _, _ => none
  | fuel + 1, i, bank, bucket, chain =>
    match victim t chain i bank bucket with
    | none => none
    | some v =>
      let w := wayAt t v
      let bank := 1 - bank
      let bucket := bucketOf bank (keyInput (eCell w) (eSlot w) (eKind w))
      match freeWay t (waysOf bank bucket) with
      | some f => some (chain ++ [v, f])
      | none => chainSearch t fuel (i + 1) bank bucket (chain ++ [v])

/-- Move each victim of a chain into the way after it, from the free end. -/
def moveChain (t : Tbl (BitVec 64)) : List Nat → Tbl (BitVec 64)
  | a :: b :: rest => let t := moveChain t (b :: rest); tdel (putWay t b (wayAt t a)) a
  | _ => t

/-- Insert an entry: the table and the number of moves, none where the search fails. -/
def insertEntry (t : Tbl (BitVec 64)) (w : BitVec 64) : Option (Tbl (BitVec 64) × Nat) :=
  let k := keyInput (eCell w) (eSlot w) (eKind w)
  match freeWay t (waysOf 0 (bucketOf 0 k) ++ waysOf 1 (bucketOf 1 k)) with
  | some i => some (putWay t i w, 0)
  | none =>
    match chainSearch t 32 0 0 (bucketOf 0 k) [] with
    | some chain => some (putWay (moveChain t chain) (chain.headD 0) w, chain.length - 1)
    | none => none

/-- The stronger of two timed robot kinds. -/
def stronger (a b : Nat) : Nat := if a = kPath || b = kPath then kPath else kClear

/-- Write one key after its probes (R306 step 3). -/
def writeKey (t : Tbl (BitVec 64)) (age : Nat) (k : Key) : Option (Tbl (BitVec 64) × Nat) :=
  match look t k with
  | .free => insertEntry t (entry k.cell (Key10 k) k.owner k.kind (if k.kind = kZone then 1 else age) false)
  | .own i w => some (putWay t i (reEntry w (if k.kind = kDwell then kDwell else stronger (eKind w) k.kind) age), 0)
  | .shared i w => some (putWay t i (reEntry w kZone (min 4095 (eAge w + 1))), 0)
  | .pending => some (t, 0)
  | .conflict _ _ _ => some (t, 0)

/-! ### Reserving (R303, R306, R308) -/

/-- FILL_LIMIT. -/
def fillLimit : Nat := 229376

/-- Valid entries; a corrupt way holds none that can be told (R297, R320). -/
def validEntries (s : State) : Nat := (s.strt.ways.filter fun e => holds e.2).length

/-- Gather an EV_STRT_ALARM of the FC, one for each cause (R325), STALE also for each owner (R310). -/
def strtAlarm (s : State) (cause owner kind index : Nat) : State :=
  let same (a : StrtAlarm) : Bool := a.cause == cause && (cause != 3 || a.owner == owner)
  let l := s.strt.alarms
  { s with strt.alarms :=
      if l.any same then l.map fun a => if same a then { a with owner := owner, kind := kind, index := index, count := a.count + 1 } else a
      else l ++ [{ cause := cause, owner := owner, kind := kind, index := index }] }

/-- The first detection of a corrupt way (R303). -/
def detectWay (s : State) (i : Nat) : State :=
  if (tget s.strt.corrupt i).isSome then s else
  let w := wayAt s.strt.ways i
  strtAlarm { s with
    strt.corrupt := tput s.strt.corrupt i 0
    strt.reassertFc := some (fcNow s + 1)
    p.diag.mem := lmod s.p.diag.mem 10 inc32
    cores.memEvs := s.cores.memEvs ++ [{ block := 3, unit := 1, outcome := 2, index := i }] }
    4 (eOwner w) (eKind w) i

/-- Every read of a way checks CHK: the corrupt ways of some keys' buckets are detected. -/
def detectKeys (s : State) (keys : List Key) : State :=
  if !(s.strt.ways.any fun e => corruptWay e.2) then s else
  let seen := keys.flatMap fun k => candidates k.cell (Key10 k) k.kind ++ candidates k.cell 0 kDwell
  (seen.filter fun i => corruptWay (wayAt s.strt.ways i)).foldl detectWay s

/-- The count has risen to FILL_LIMIT (R308). -/
def noteFill (s : State) : State :=
  let full := decide (fillLimit ≤ validEntries s)
  let s' := { s with strt.filled := full }
  if full && !s.strt.filled then strtAlarm s' 1 0 0 0xFFFFFFFF else s'

/-- What a reserve operation answers. -/
inductive Reserved where
  | done
  | conflict (pos index : Nat) (word : BitVec 64) (corrupt : Bool)
  | fill (pos : Nat)
  | chain (pos : Nat)
deriving DecidableEq, Repr

/-- The first conflict of a request, by position. -/
def firstConflict (t : Tbl (BitVec 64)) : Nat → List Key → Option Reserved
  | _, [] => none
  | pos, k :: ks =>
    match look t k with
    | .conflict i w c => some (.conflict pos i w c)
    | _ => firstConflict t (pos + 1) ks

/-- Positions of the keys whose probe returned FREE. -/
def freshKeys (t : Tbl (BitVec 64)) (keys : List Key) : List Nat :=
  (keys.zipIdx.filter fun e => look t e.1 == .free).map (·.2)

/-- Write every key in request order: the table and the most moves of one insert, or the position of a failed search. -/
def writeKeys (age : Nat) : Tbl (BitVec 64) → Nat → Nat → List Key → Except Nat (Tbl (BitVec 64) × Nat)
  | t, _, m, [] => .ok (t, m)
  | t, pos, m, k :: ks =>
    match writeKey t age k with
    | some (t, n) => writeKeys age t (pos + 1) (max m n) ks
    | none => .error pos

/-- A failed search (R304, R308). -/
def chainFailed (s : State) (k : Key) : State :=
  strtAlarm { s with strt.chainFails := sat 32 (s.strt.chainFails + 1) } 2 k.owner k.kind 0xFFFFFFFF

/-- The reserve operation (R306): all or nothing. -/
def reserve (s : State) (keys : List Key) : Reserved × State :=
  let s := detectKeys s keys
  let t := s.strt.ways
  match firstConflict t 0 keys with
  | some c => (c, s)
  | none =>
    let new := freshKeys t keys
    let room := fillLimit - validEntries s
    if (keys.any fun k => !isStanding k.kind) && decide (room < new.length) then (.fill (new.getD room 0), s) else
    match writeKeys (fcNow s % 4096) t 0 0 keys with
    | .error pos => (.chain pos, chainFailed s (keys.getD pos { cell := 0, kind := 0, owner := 0 }))
    | .ok (t, m) => (.done, noteFill { s with strt.ways := t, strt.longestChain := max s.strt.longestChain m })

/-! ### Removing (R307) -/

/-- Free or lower one entry of a standing or timed key, if its owner and kind match; a locked one stays. -/
def removeKey (s : State) (k : Key) : State :=
  match probeKey s.strt.ways k.cell (Key10 k) k.kind with
  | .at i w =>
    if eKind w != k.kind || eOwner w != k.owner then s
    else if k.kind = kZone && 1 < eAge w then { s with strt.ways := putWay s.strt.ways i (reEntry w kZone (eAge w - 1)) }
    else if eLock w then
      { s with
        strt.ways := if k.kind = kZone then putWay s.strt.ways i (reEntry w kZone 0) else s.strt.ways
        strt.unlockFree := s.strt.unlockFree ++ [i] }
    else { s with strt.ways := tdel s.strt.ways i }
  | _ => s

/-- The remove operation. -/
def removeKeys (s : State) (keys : List Key) : State := { keys.foldl removeKey (detectKeys s keys) with strt.filled := decide (fillLimit ≤ validEntries s) }

/-- The absolute slot a timed entry names (R309). -/
def slotOf (s : State) (w : BitVec 64) : Nat := slotNow s + (eSlot w + 1024 - slotNow s % 1024) % 1024

/-- Remove the timed entries of an owner for which a condition on kind and slot holds. -/
def removeTimed (s : State) (owner : Nat) (f : BitVec 64 → Bool) : State :=
  let s : State := { s with strt.ways := s.strt.ways.filter fun e =>
      !(holds e.2 && !isStanding (eKind e.2) && isRobotKind (eKind e.2) && eOwner e.2 == owner && !eLock e.2 && f e.2) }
  { s with strt.filled := decide (fillLimit ≤ validEntries s) }

/-! ### Cells -/

/-- The cell id of a column and a row (R293). -/
def cellId (x y : Nat) : Nat := y * 4096 + x

/-- Column and row of a cell id. -/
def cellX (c : Nat) : Nat := c % 4096
def cellY (c : Nat) : Nat := c / 4096

/-- The column and row of a point, none off the grid. -/
def cellOfPoint (s : State) (e n : Int) : Option (Nat × Nat) :=
  let g := s.strt.grid
  if g.cellMm = 0 then none else
  let x := (e - g.e0) / (g.cellMm : Int)
  let y := (n - g.n0) / (g.cellMm : Int)
  if 0 ≤ x && x < g.nx && 0 ≤ y && y < g.ny then some (x.toNat, y.toNat) else none

/-- The centre of a cell in mm. -/
def cellCentre (s : State) (x y : Nat) : Int × Int :=
  let g := s.strt.grid
  (g.e0 + x * g.cellMm + g.cellMm / 2, g.n0 + y * g.cellMm + g.cellMm / 2)

/-- Cells of a rectangle, by rising y, then rising x. -/
def rectCells (r : Nat × Nat × Nat × Nat) : List Nat :=
  let (x0, y0, x1, y1) := r
  (List.range (y1 + 1 - y0)).flatMap fun j => (List.range (x1 + 1 - x0)).map fun i => cellId (x0 + i) (y0 + j)

/-! ### Holds (R313 to R316) -/

/-- Cells of a standing hold. -/
def holdCells (h : HoldRec) : List Nat := if h.lost then h.cellList else rectCells h.rect

/-- Cells of a run of a timed hold, times its slots. -/
def runKeys (r : Nat × Nat × Nat × Nat × Nat × Nat) : Nat :=
  (r.2.2.1 + 1 - r.1) * (r.2.2.2.1 + 1 - r.2.1) * r.2.2.2.2.2

/-- CELLS (R323). -/
def holdCount (h : HoldRec) : Nat := if h.timed then (h.runs.map runKeys).sum else (holdCells h).length

/-- Cells not yet locked. -/
def holdPending (h : HoldRec) : List Nat := h.pendingCells ++ h.retryCells

/-- HFLAGS (R323). -/
def hflags (h : HoldRec) : Nat := bitsOf [h.persistent, h.timed, h.lost]

/-- STATE of a hold. -/
def holdState (h : HoldRec) : Nat := if h.active then 2 else 1

/-- Payload of EV_STRT_HOLD. -/
def holdEvent (n cause : Nat) (h : HoldRec) : Bytes :=
  le 2 n ++ le 1 (holdState h) ++ le 1 cause ++ le 1 (hflags h) ++ zb 3 ++ le 8 h.activeSlot ++ le 4 (holdCount h)
    ++ le 4 (holdPending h).length

/-- Keep a hold, in the persistent configuration where it is persistent. -/
def putHold (s : State) (n : Nat) (h : HoldRec) : State :=
  { s with
    holds := tput s.holds n h
    p.holds := if h.persistent then tput s.p.holds n h else s.p.holds }

/-- Drop a hold. -/
def dropHold (s : State) (n : Nat) : State := { s with holds := tdel s.holds n, p.holds := tdel s.p.holds n }

/-- The latest slot of any timed robot entry in some cells (R315). -/
def latestTimed (s : State) (cells : List Nat) : Option Nat :=
  ((s.strt.ways.filter fun e => holds e.2 && (eKind e.2 == kPath || eKind e.2 == kClear) && cells.contains (eCell e.2)).map
    fun e => slotOf s e.2).foldl (fun m x => some (max (m.getD 0) x)) none

/-- ZONE_LOCK keys of cells. -/
def zoneKeys (cells : List Nat) : List Key := cells.map fun c => { cell := c, kind := kZone, owner := 255 }

/-- The cells of a list under a robot's DWELL. -/
def underDwell (s : State) (cells : List Nat) : List Nat :=
  cells.filter fun c => match probeKey s.strt.ways c 0 kZone with | .at _ w => eKind w == kDwell | _ => false

/-- ACTIVE_SLOT and STATE once L and the pending cells are known (R315). -/
def settleHold (s : State) (h : HoldRec) : HoldRec :=
  if !(holdPending h).isEmpty then { h with activeSlot := 0, active := false }
  else
    let a := max (slotNow s) (h.lastSlot + 1)
    { h with activeSlot := a, active := decide (a ≤ slotNow s) }

/-- Raise L of a hold from the timed entries in some cells. -/
def raiseLast (s : State) (h : HoldRec) (cells : List Nat) : HoldRec :=
  match latestTimed s cells with
  | some l => { h with lastSlot := max h.lastSlot l }
  | none => h

/-- Lock cells one by one; those whose insert fails or that stand under a DWELL are pending (R581). -/
def lockCells (s : State) (h : HoldRec) (cells : List Nat) : HoldRec × State :=
  cells.foldl (fun (a : HoldRec × State) c =>
    let (h, s) := a
    if (underDwell s [c]).isEmpty then
      match reserve s (zoneKeys [c]) with
      | (.done, s) => (h, s)
      | (_, s) => ({ h with retryCells := h.retryCells ++ [c] }, s)
    else ({ h with pendingCells := h.pendingCells ++ [c] }, s)) (h, s)

/-- Create a standing hold in one operation: the scan, then the ZONE_LOCKs; none where it is refused (R315, R581). -/
def makeStanding (s : State) (h : HoldRec) : Option HoldRec × State :=
  let cells := holdCells h
  let h := raiseLast s { h with lastSlot := slotNow s - 1, pendingCells := [], retryCells := [] } cells
  match reserve s (zoneKeys cells) with
  | (.done, t) =>
    let h := { h with pendingCells := underDwell s cells }
    (some (settleHold t h), t)
  | (_, t) =>
    if h.lost || h.persistent then
      let (h, t) := lockCells t h cells
      (some (settleHold t h), t)
    else (none, t)

/-- A DWELL that covered some cells has been removed: pending holds take them (R315). A hold whose last pending cell clears
reports cause SLOT_KNOWN, with STATE ACTIVE where it is ACTIVE at once. -/
def dwellRemoved (s : State) (cells : List Nat) : State :=
  (s.holds.filter fun e => e.2.pendingCells.any cells.contains).foldl (fun s e =>
    let h := e.2
    let hit := h.pendingCells.filter cells.contains
    let h := raiseLast s { h with pendingCells := h.pendingCells.filter fun c => !hit.contains c } hit
    let (h, s) := lockCells s h hit
    let h := settleHold s h
    let s := putHold s e.1 h
    if (holdPending h).isEmpty then raise s 0x8801 .all (holdEvent e.1 6 h) else s) s

/-- Remove a robot's DWELL from cells. -/
def removeDwell (s : State) (owner : Nat) (cells : List Nat) : State :=
  if cells.isEmpty then s else
  dwellRemoved (removeKeys s (cells.map fun c => { cell := c, kind := kDwell, owner := owner })) cells

/-- Free the cells of a hold (R314). -/
def unlockHold (s : State) (h : HoldRec) : State :=
  if h.timed then
    let s : State := { s with strt.ways := s.strt.ways.filter fun e =>
        !(holds e.2 && eKind e.2 == kHost && !eLock e.2 && h.runs.any fun r =>
          decide (r.1 ≤ cellX (eCell e.2)) && decide (cellX (eCell e.2) ≤ r.2.2.1)
            && decide (r.2.1 ≤ cellY (eCell e.2)) && decide (cellY (eCell e.2) ≤ r.2.2.2.1)
            && decide (r.2.2.2.2.1 ≤ slotOf s e.2) && decide (slotOf s e.2 < r.2.2.2.2.1 + r.2.2.2.2.2)) }
    { s with strt.filled := decide (fillLimit ≤ validEntries s) }
  else
    removeKeys s (zoneKeys ((holdCells h).filter fun c => !(holdPending h).contains c))

/-- Bounding rectangle of cells. -/
def boundsOf (cells : List Nat) : Nat × Nat × Nat × Nat :=
  match cells with
  | [] => (0, 0, 0, 0)
  | c :: cs => cs.foldl (fun (b : Nat × Nat × Nat × Nat) x =>
      (min b.1 (cellX x), min b.2.1 (cellY x), max b.2.2.1 (cellX x), max b.2.2.2 (cellY x))) (cellX c, cellY c, cellX c, cellY c)

/-- Make the LOST hold of a session over cells: never refused (R283, R313, R581). -/
def makeLostHold (s : State) (session : Nat) (cells : List Nat) : State :=
  let n := 256 + session
  let s := match tget s.holds n with | some h => dropHold (unlockHold s h) n | none => s
  match makeStanding s { present := true, persistent := true, lost := true, rect := boundsOf cells, cellList := cells } with
  | (some h, s) => raise (commitBy (putHold s n h) orgFlt okHold n) 0x8801 .all (holdEvent n 1 h)
  | (none, s) => s

/-- Remove a hold, with its event under the command that did it. -/
def removeHold (s : State) (r : Request) (n : Nat) : State :=
  match tget s.holds n with
  | none => s
  | some h => raiseBy (unlockHold (dropHold s n) h) r 0x8801 .all (holdEvent n 3 h)

/-- Retry the cells whose insert failed (R581), in PLAN of every later FC. -/
def retryHolds (s : State) : State :=
  (s.holds.filter fun e => !e.2.retryCells.isEmpty).foldl (fun s e =>
    let (h, s) := lockCells s { e.2 with retryCells := [] } e.2.retryCells
    let got := e.2.retryCells.filter fun c => !(holdPending h).contains c
    let h := settleHold s (raiseLast s h got)
    let s := putHold s e.1 h
    if (holdPending h).isEmpty then raise s 0x8801 .all (holdEvent e.1 6 h) else s) s

/-- Timed holds whose last slot has expired are deleted in PLAN, by a commit each (R324). -/
def expireHolds (s : State) : State :=
  (s.holds.filter fun e => e.2.timed && decide (e.2.lastSlot < slotNow s)).foldl (fun s e =>
    raise (commitBy (dropHold s e.1) orgFlt okHold e.1) 0x8801 .all (holdEvent e.1 4 e.2)) s

/-- Free entries whose removal found them locked and that have been unlocked since, unless a robot or a hold claims them again
(R307). -/
def freeUnlocked (s : State) : State :=
  let ready := s.strt.unlockFree.filter fun i => !eLock (wayAt s.strt.ways i)
  let claimed (w : BitVec 64) : Bool := if eKind w = kDwell then (tgetD s.allot.plans (eOwner w) {}).dwell.contains (eCell w) else eAge w != 0
  let gone := ready.filter fun i => let w := wayAt s.strt.ways i; holds w && isStanding (eKind w) && !claimed w
  let cells := (gone.filter fun i => eKind (wayAt s.strt.ways i) == kDwell).map fun i => eCell (wayAt s.strt.ways i)
  let s := { s with
    strt.unlockFree := s.strt.unlockFree.filter fun i => !ready.contains i
    strt.ways := s.strt.ways.filter fun e => !gone.contains e.1 }
  if cells.isEmpty then s else dwellRemoved s cells

/-- A DWELL that cannot be written stops its robot (R308). -/
def dwellUnwritten (s : State) (session : Nat) : State := requestRobotStop s session 4

/-- The active FLT re-asserts every DWELL and ZONE_LOCK it holds (R303). -/
def reassert (s : State) : State :=
  if !s.strt.reassertFc.any (fun fc => decide (fc ≤ fcNow s)) then s else
  let s := { s with strt.reassertFc := none }
  let missing (s : State) (c : Nat) : Bool := match probeKey s.strt.ways c 0 kDwell with | .at _ _ => false | _ => true
  let refs (s : State) (c : Nat) : Nat := (s.holds.filter fun e => !e.2.timed && (holdCells e.2).contains c && !(holdPending e.2).contains c).length
  let put (s : State) (w : BitVec 64) : Bool × State :=
    match insertEntry s.strt.ways w with
    | some (t, _) => (true, { s with strt.ways := t })
    | none => (false, chainFailed s { cell := eCell w, kind := eKind w, owner := eOwner w })
  let s := s.allot.plans.foldl (fun s e => (e.2.dwell.filter (missing s)).foldl (fun s c =>
    match put s (entry c 0 e.1 kDwell (fcNow s % 4096) false) with
    | (true, s) => s
    | (false, s) => dwellUnwritten s e.1) s) s
  let cells := (s.holds.flatMap fun e => if e.2.timed then [] else (holdCells e.2).filter fun c => !(holdPending e.2).contains c).eraseDups
  noteFill ((cells.filter (missing s)).foldl (fun s c => (put s (entry c 0 255 kZone (refs s c) false)).2) s)

/-- A DWELL that the sweep reports as stale (R310). -/
def staleDwell (s : State) (w : BitVec 64) : Bool :=
  holds w && eKind w == kDwell && !eLock w && decide (3072 ≤ (fcNow s + 4096 - eAge w) % 4096)

/-- PLAN's care of the DWELLs: stale ones of FREE sessions removed, the others refreshed; every one refreshed each 1,024 FC (R310). -/
def refreshDwells (s : State) : State :=
  let stale := if fcNow s % 5 = 0 then s.strt.ways.filter fun e => staleDwell s e.2 else []
  let free := stale.filter fun e => (robotRec s (eOwner e.2)).sstate == .free
  let s := free.foldl (fun s e => removeDwell s (eOwner e.2) [eCell e.2]) s
  let renew (w : BitVec 64) : Bool := holds w && eKind w == kDwell && (fcNow s % 1024 == 0 || (fcNow s % 5 == 0 && staleDwell s w))
  { s with strt.ways := s.strt.ways.map fun e => (e.1, if renew e.2 then reEntry e.2 kDwell (fcNow s % 4096) else e.2) }

/-- The persistent holds are written back in phase 5 of STILL (R312). -/
def restoreHolds (s : State) : State :=
  s.p.holds.foldl (fun s e =>
    match makeStanding s { e.2 with pendingCells := [], retryCells := [] } with
    | (some h, s) => raise (putHold s e.1 h) 0x8801 .all (holdEvent e.1 5 h)
    | (none, s) => s) { s with holds := [] }

/-! ### Events (R325) -/

/-- EV_STRT_ALARM of the FC. -/
def emitStrt (s : State) : State :=
  let s' := s.strt.alarms.foldl (fun t a =>
    raise t 0x8802 .sup (le 1 a.cause ++ le 1 a.owner ++ le 1 a.kind ++ zb 1 ++ le 4 a.count ++ le 4 (validEntries s) ++ le 4 a.index)) s
  { s' with strt.alarms := [] }

/-! ### Probe and sweep -/

/-- PROBE (R301, R302): a probe whose key is being relocated is discarded and re-issued. -/
def opProbe (cell slot kind : Nat) (s : State) : State :=
  let s10 := if isStanding kind then 0 else slot % 1024
  if s.strt.relocating == some (keyInput cell s10 kind).toNat then
    { s with strt.reissue := some (cell, s10, kind), strt.probeOut := none }
  else
    let t := detectKeys s [{ cell := cell, slot := slot, kind := kind, owner := 0 }]
    { t with
      strt.reissue := none
      strt.probeOut := some (match probeKey s.strt.ways cell s10 kind with
        | .free => (0, 0xFFFFFFFF, 0)
        | .at i w => (1, i, w)
        | .corrupt i w => (2, i, w)) }

def execProbe (cell slot kind requester : Nat) (s : State) : Host.Outcome State Fault Refusal :=
  if requester < 5 && kind < 5 && cell < 2 ^ 24 then .next (opProbe cell slot kind s) else .fault .noSuchUnit

/-- Holds that become ACTIVE at a slot boundary (R315). -/
def activateHolds (s : State) : State :=
  (s.holds.filter fun e => !e.2.timed && !e.2.active && e.2.activeSlot != 0 && decide (e.2.activeSlot ≤ slotNow s)).foldl (fun s e =>
    let h := { e.2 with active := true }
    raise (putHold s e.1 h) 0x8801 .all (holdEvent e.1 2 h)) s

/-- EXPIRY_SWEEP (R303, R309, R310): once at each slot boundary, in LATCH. -/
def opExpirySweep (s : State) : State :=
  if !running s || s.clk.window != .latch || fcNow s % 5 != 0 || s.strt.sweptSlot == some (slotNow s) then s else
  let old := (slotNow s + 1023) % 1024
  let s : State := { s with strt.sweptSlot := some (slotNow s) }
  let ended := s.strt.corrupt.filter fun e => decide (1024 ≤ e.2 + 1)
  let s : State := { s with
    strt.corrupt := (s.strt.corrupt.filter fun e => decide (e.2 + 1 < 1024)).map fun e => (e.1, e.2 + 1)
    strt.ways := s.strt.ways.filter fun e =>
      !(ended.any fun o => o.1 == e.1) && !(holds e.2 && !isStanding (eKind e.2) && !eLock e.2 && eSlot e.2 == old) }
  let s := ((s.strt.ways.filter fun e => corruptWay e.2).map (·.1)).foldl detectWay s
  let stale := s.strt.ways.filter fun e => staleDwell s e.2
  let s := stale.foldl (fun s e => strtAlarm { s with strt.stale := sat 16 (s.strt.stale + 1) } 3 (eOwner e.2) kDwell e.1) s
  activateHolds { s with strt.filled := decide (fillLimit ≤ validEntries s) }

def execExpirySweep (s : State) : Host.Outcome State Fault Refusal := .next (opExpirySweep s)

/-! ### STRT opcodes -/

/-- The grid as R319 lays it out. -/
def gridBytes (g : Grid) : Bytes := le 2 g.cellMm ++ le 2 g.nx ++ le 2 g.ny ++ zb 2 ++ leI 4 g.e0 ++ leI 4 g.n0

/-- The grid of a payload. -/
def gridFrom (p : Bytes) : Grid := { cellMm := fld p 0 2, nx := fld p 2 2, ny := fld p 4 2, e0 := fldI p 8 4, n0 := fldI p 12 4 }

/-- Ranges of STRT_GRID_SET. -/
def gridOk (g : Grid) : Bool :=
  decide (100 ≤ g.cellMm) && decide (g.cellMm ≤ 1000) && g.cellMm % 50 == 0
    && decide (1 ≤ g.nx) && decide (g.nx ≤ 4096) && decide (1 ≤ g.ny) && decide (g.ny ≤ 4096)

/-- STRT_GRID_SET (R319). -/
def opStrtGridSet (r : Request) (s : State) : State :=
  let p := r.payload
  let read := fld p 0 2 == 0
  runOp s r (p.length == 16) (zeros p 6 2 && (!read || allZero p)) (read || supOk s r) (edtOr s 0x0801 read mCfg) fun s =>
  if read then finish s r stOk (gridBytes s.p.grid) else
  need (gridOk (gridFrom p)) s r stBadRange fun s =>
  need (validEntries s == 0 && s.holds.isEmpty) s r stBusy fun s =>
  change1 s r siteObj (fun s => { s with p.grid := gridFrom p }) fun s => gridBytes s.p.grid

def execStrtGridSet (r : Request) (s : State) : Host.Outcome State Fault Refusal := .next (opStrtGridSet r s)

/-- Valid entries of a KIND. -/
def byKind (s : State) (k : Nat) : Nat := (s.strt.ways.filter fun e => holds e.2 && eKind e.2 == k).length

/-- Cells of all standing holds (R314). -/
def standingCells (s : State) : Nat := ((s.holds.filter fun e => !e.2.timed).map fun e => holdCount e.2).sum

/-- Reply of STRT_STATUS. -/
def strtStatusReply (s : State) : Bytes :=
  gridBytes s.p.grid ++ le 8 (slotNow s) ++ le 4 (validEntries s) ++ (List.range 5).flatMap (fun k => le 4 (byKind s k))
    ++ le 4 (s.strt.ways.filter fun e => holds e.2 && eLock e.2).length ++ le 4 s.strt.chainFails ++ le 2 s.strt.longestChain
    ++ le 2 s.strt.corrupt.length ++ le 2 s.holds.length ++ le 2 s.strt.stale ++ le 4 (standingCells s) ++ zb 4

/-- STRT_STATUS (R320). -/
def opStrtStatus (r : Request) (s : State) : State := readOp s r 0x0802 strtStatusReply

def execStrtStatus (r : Request) (s : State) : Host.Outcome State Fault Refusal := .next (opStrtStatus r s)

/-- Modes of STRT_HOLD_SET and STRT_HOLD_CLEAR. -/
def mHold : List Mode := [.tender, .calm, .zephyr, .breeze, .drift, .lull, .squall, .watch]

/-- A rectangle of cells on the grid. -/
def rectOk (s : State) (x0 y0 x1 y1 : Nat) : Bool :=
  decide (x0 ≤ x1) && decide (y0 ≤ y1) && decide (x1 < s.strt.grid.nx) && decide (y1 < s.strt.grid.ny)

/-- The host hold a command names, 0xFF the lowest free one. -/
def pickHold (s : State) (h : Nat) : Option Nat :=
  if h = 0xFF then (List.range 256).find? fun i => (tget s.holds i).isNone else some h

/-- Go on with the hold a command names, if it is free. -/
def withHold (s : State) (r : Request) (h : Nat) (k : Nat → State → State) : State :=
  match pickHold s h with
  | none => finish s r stTableFull []
  | some n => need (tget s.holds n).isNone s r stHoldExists (k n)

/-- STRT_HOLD_SET (R321). -/
def opStrtHoldSet (r : Request) (s : State) : State :=
  let p := r.payload
  let pers := bit (fld p 1 1) 0
  let rect := (fld p 4 2, fld p 6 2, fld p 8 2, fld p 10 2)
  if 4 ≤ s.strt.holdSets then s else
  runOp s r (p.length == 32) (decide (fld p 1 1 < 2) && zeros p 2 2 && zeros p 28 4) (!pers || supOk s r) (inModes s mHold) fun s =>
  let s := { s with strt.holdSets := s.strt.holdSets + 1 }
  need (s.strt.grid.cellMm != 0) s r stNotReady fun s =>
  need (rectOk s rect.1 rect.2.1 rect.2.2.1 rect.2.2.2 && nameOk (slice p 12 16)) s r stBadRange fun s =>
  withHold s r (fld p 0 1) fun n s =>
  need (decide (standingCells s + (rectCells rect).length ≤ 65536)
    && (!pers || decide ((s.holds.filter fun e => e.2.persistent && !e.2.lost).length < 64))) s r stTableFull fun s =>
  checkCsn s r [(okHold, n)] fun s =>
  match reserve s (zoneKeys (rectCells rect)) with
  | (.done, _) =>
    match makeStanding s { present := true, persistent := pers, rect := rect, name := slice p 12 16 } with
    | (some h, s) =>
      let s := putHold (commit s okHold n) n h
      let s := raiseBy s r 0x8801 .all (holdEvent n 1 h)
      finish s r stOk (le 2 n ++ le 1 (holdState h) ++ zb 1 ++ le 4 (holdCount h) ++ le 4 (holdPending h).length ++ zb 4 ++ le 8 h.activeSlot)
    | (none, s) => finish s r stTableFull []
  | (_, s) => finish s r stTableFull []

def execStrtHoldSet (r : Request) (s : State) : Host.Outcome State Fault Refusal := .next (opStrtHoldSet r s)

/-- STRT_HOLD_CLEAR (R322). -/
def opStrtHoldClear (r : Request) (s : State) : State :=
  let p := r.payload
  let n := fld p 0 2
  let h := tgetD s.holds n {}
  runOp s r (p.length == 4) (zeros p 2 2) (!(h.present && h.persistent && !h.lost) || supOk s r) (inModes s mHold) fun s =>
  need (h.present && !h.lost) s r stBadRange fun s =>
  change1 s r (okHold, n) (fun s => removeHold s r n) fun _ => []

def execStrtHoldClear (r : Request) (s : State) : Host.Outcome State Fault Refusal := .next (opStrtHoldClear r s)

/-- An entry of STRT_HOLD_LIST. -/
def holdEntry (s : State) (n : Nat) (h : HoldRec) : Bytes :=
  le 2 n ++ le 1 (hflags h) ++ le 1 (holdState h) ++ le 2 h.rect.1 ++ le 2 h.rect.2.1 ++ le 2 h.rect.2.2.1 ++ le 2 h.rect.2.2.2
    ++ le 4 (holdCount h) ++ le 4 (holdPending h).length ++ zb 4 ++ le 8 h.activeSlot ++ le 8 (objCsn s okHold n) ++ fit 16 h.name

/-- STRT_HOLD_LIST (R323). -/
def opStrtHoldList (r : Request) (s : State) : State :=
  runOp s r r.payload.isEmpty true true (edt s 0x0812) fun s =>
  let parts := (groups 24 s.holds.length s.holds).map fun g => g.flatMap fun e => holdEntry s e.1 e.2
  if parts.length ≤ 1 then finish s r stOk parts.flatten else finishFrags s r parts parts.length

def execStrtHoldList (r : Request) (s : State) : Host.Outcome State Fault Refusal := .next (opStrtHoldList r s)

/-- Run `i` of STRT_RESERVE_PATH: rectangle, first slot, slots. -/
def runAt (p : Bytes) (i : Nat) : Nat × Nat × Nat × Nat × Nat × Nat :=
  let o := 32 + 12 * i
  (fld p o 2, fld p (o + 2) 2, fld p (o + 4) 2, fld p (o + 6) 2, fld p 8 8 + fld p (o + 8) 2, fld p (o + 10) 2)

/-- Two runs share a cell-slot. -/
def runsMeet (a b : Nat × Nat × Nat × Nat × Nat × Nat) : Bool :=
  decide (a.1 ≤ b.2.2.1) && decide (b.1 ≤ a.2.2.1) && decide (a.2.1 ≤ b.2.2.2.1) && decide (b.2.1 ≤ a.2.2.2.1)
    && decide (a.2.2.2.2.1 < b.2.2.2.2.1 + b.2.2.2.2.2) && decide (b.2.2.2.2.1 < a.2.2.2.2.1 + a.2.2.2.2.2)

/-- No two runs of a list overlap. -/
def runsApart : List (Nat × Nat × Nat × Nat × Nat × Nat) → Bool
  | [] => true
  | a :: l => !(l.any (runsMeet a)) && runsApart l

/-- Ranges of STRT_RESERVE_PATH. -/
def runsOk (s : State) (runs : List (Nat × Nat × Nat × Nat × Nat × Nat)) : Bool :=
  runs.all (fun q => rectOk s q.1 q.2.1 q.2.2.1 q.2.2.2.1 && decide (1 ≤ q.2.2.2.2.2) && decide (q.2.2.2.2.2 ≤ 1024)
    && decide (q.2.2.2.2.1 + q.2.2.2.2.2 ≤ slotNow s + 1024)) && runsApart runs && decide ((runs.map runKeys).sum ≤ 16384)

/-- Keys of a run: rising slot, then rising y, then rising x. -/
def keysOfRun (q : Nat × Nat × Nat × Nat × Nat × Nat) : List Key :=
  (List.range q.2.2.2.2.2).flatMap fun k =>
    (rectCells (q.1, q.2.1, q.2.2.1, q.2.2.2.1)).map fun c => { cell := c, slot := q.2.2.2.2.1 + k, kind := kHost, owner := 255 }

/-- Payload of ST_STRT_CONFLICT (R324). -/
def conflictPayload (k : Key) (pos index : Nat) (w : BitVec 64) (corrupt : Bool) : Bytes :=
  le 4 pos ++ le 2 (cellX k.cell) ++ le 2 (cellY k.cell) ++ le 8 k.slot ++ le 1 (eOwner w) ++ le 1 (eKind w)
    ++ le 1 (bitsOf [eLock w, corrupt, isStanding (eKind w)]) ++ zb 1 ++ le 4 index

/-- STRT_RESERVE_PATH (R324). -/
def opStrtReservePath (r : Request) (s : State) : State :=
  let p := r.payload
  let n := fld p 2 2
  let runs := (List.range n).map (runAt p)
  runOp s r (decide (32 ≤ p.length) && p.length == 32 + 12 * n) (zeros p 1 1 && zeros p 4 4) true
    (inModes s [.calm, .zephyr, .breeze, .drift, .lull, .squall, .watch]) fun s =>
  need (s.strt.grid.cellMm != 0) s r stNotReady fun s =>
  need (decide (1 ≤ n) && decide (n ≤ 100) && runsOk s runs && nameOk (slice p 16 16)) s r stBadRange fun s =>
  let hold := pickHold s (fld p 0 1)
  need ((hold.map fun h => (tget s.holds h).isNone).getD true) s r stHoldExists fun s =>
  need (runs.all fun q => decide (slotNow s ≤ q.2.2.2.2.1)) s r stTooLate fun s =>
  match hold with
  | none => finish s r stTableFull []
  | some h =>
  checkCsn s r [(okHold, h)] fun s =>
  let keys := runs.flatMap keysOfRun
  match reserve s keys with
  | (.conflict pos i w c, s) =>
    finish s r stStrtConflict (conflictPayload (keys.getD pos { cell := 0, kind := 0, owner := 0 }) pos i w c)
  | (.fill pos, s) => finish s r stTableFull (le 1 1 ++ zb 3 ++ le 4 pos)
  | (.chain pos, s) => finish s r stTableFull (le 1 2 ++ zb 3 ++ le 4 pos)
  | (.done, s) =>
    let first := (runs.map fun q => q.2.2.2.2.1).foldl min (runs.headD (0, 0, 0, 0, 0, 0)).2.2.2.2.1
    let last := (runs.map fun q => q.2.2.2.2.1 + q.2.2.2.2.2 - 1).foldl max 0
    let b := boundsOf (runs.flatMap fun q => [cellId q.1 q.2.1, cellId q.2.2.1 q.2.2.2.1])
    let rec' : HoldRec :=
      { present := true, timed := true, rect := b, runs := runs, active := true, activeSlot := first, lastSlot := last
        name := slice p 16 16 }
    let s := putHold (commit s okHold h) h rec'
    let s := raiseBy s r 0x8801 .all (holdEvent h 1 rec')
    finish s r stOk (le 1 h ++ zb 3 ++ le 4 keys.length)

def execStrtReservePath (r : Request) (s : State) : Host.Outcome State Fault Refusal := .next (opStrtReservePath r s)

end Sys2Proof.Machine
end

