-- ==== Sys2Proof/Machine/Geom.lean ====
section
/-! DEFINITION. Footprints, turned masks and sweeps, runs and turns, occupancy, and the knots of segment tables (R262,
R329 to R332, R343, R344), in exact arithmetic. -/

namespace Sys2Proof.Machine

open Sys2Proof

/-- A grid offset or a cell, column and row. -/
abbrev Off := Int × Int

/-! ### Numbers a + b√2, and their comparison with square roots -/

/-- Sign of an integer. -/
def sgnI (x : Int) : Int := if x < 0 then -1 else if x = 0 then 0 else 1

/-- Sign of a + b√2. -/
def sgn2 (x : Int × Int) : Int :=
  let (a, b) := x
  if 0 ≤ a && 0 ≤ b then sgnI (a + b)
  else if a ≤ 0 && b ≤ 0 then sgnI (a + b)
  else if 0 < a then sgnI (a * a - 2 * (b * b)) else sgnI (2 * (b * b) - a * a)

/-- A coordinate: a + b√2, or the square root of a natural number. -/
inductive Coord where
  | quad (a b : Int)
  | root (m : Int)
deriving DecidableEq, Repr

/-- Sign of a + b√2 - √m, m not negative. -/
def sgnRoot (a b m : Int) : Int :=
  if sgn2 (a, b) < 0 then -1
  else sgn2 (a * a + 2 * (b * b) - m, 2 * a * b)

/-- One coordinate is less than another. -/
def Coord.lt : Coord → Coord → Bool
  | .quad a b, .quad c d => decide (sgn2 (c - a, d - b) = 1)
  | .root m, .root n => decide (m < n)
  | .quad a b, .root m => decide (sgnRoot a b m < 0)
  | .root m, .quad a b => decide (0 < sgnRoot a b m)

/-! ### The body and its turned masks (R262, R329) -/

/-- Grid offsets FOOTPRINT covers at heading east. -/
def bodyCells (c : ClassRec) : List Off :=
  let s := c.scale
  let cells := (List.range 49).filter fun i => bit c.footprint i
  (cells.flatMap fun i =>
    let dx : Int := (i % 7 : Nat) - 3
    let dy : Int := 3 - (i / 7 : Nat)
    (List.range s).flatMap fun a => (List.range s).map fun b =>
      (s * dx + a - (s / 2 : Nat), s * dy + b - (s / 2 : Nat))).eraseDups

/-- A quarter turn counterclockwise, `n` times. -/
def quarter : Nat → Off → Off
  | 0, p => p
  | n + 1, p => let q := quarter n p; (-q.2, q.1)

/-- A point with even coordinates turned by h × 45°, each coordinate as a + b√2. -/
def turnPoint (h : Nat) (p : Off) : (Int × Int) × (Int × Int) :=
  let q := quarter (h % 8 / 2) p
  if h % 2 = 0 then ((q.1, 0), (q.2, 0)) else ((0, (q.1 - q.2) / 2), (0, (q.1 + q.2) / 2))

/-- The unit square at `q`, turned by h × 45° about the origin, overlaps the cell square at `p` with non-zero area. -/
def squaresMeet (h : Nat) (p q : Off) : Bool :=
  let q := quarter (h % 8 / 2) q
  if h % 2 = 0 then p == q else
  let near (x u : Int) : Bool := decide (sgn2 (1 - 2 * x, 1 + u) = 1) && decide (sgn2 (1 + 2 * x, 1 - u) = 1)
  let nearD (x u : Int) : Bool := decide (sgn2 (1 - 2 * x, 1 + u) = 1) && decide (sgn2 (1 + 2 * x, 1 - u) = 1)
  near p.1 (q.1 - q.2) && near p.2 (q.1 + q.2) && nearD q.1 (p.1 + p.2) && nearD q.2 (p.2 - p.1)

/-- Every number of one list is less than every number of another. -/
def allLess (lo hi : List Coord) : Bool := lo.all fun a => hi.all fun b => a.lt b

/-- Coordinates in quadrant k seen as the first: a point a + b√2. -/
def backQuarter : Nat → (Int × Int) × (Int × Int) → (Int × Int) × (Int × Int)
  | 0, p => p
  | n + 1, p => let q := backQuarter n p; (q.2, (-q.1.1, -q.1.2))

/-- The arc of a point from its place turned by h × 45° over the next 45°, in the first quadrant, enters the open
rectangle (xl, xr) × (yl, yr); `n` is the square of its radius. -/
def arcInQuadrant (e0 e1 : (Int × Int) × (Int × Int)) (n xl xr yl yr : Int) : Bool :=
  let x0 := sgn2 e0.1
  let y0 := sgn2 e0.2
  let x1 := sgn2 e1.1
  let y1 := sgn2 e1.2
  let fromIn := decide (x0 = 1) && decide (0 ≤ y0)
  let fromBelow := decide (0 ≤ x0) && decide (y0 = -1)
  let toIn := decide (0 ≤ x1) && decide (y1 = 1)
  let toBelow := decide (x1 = 1) && decide (y1 ≤ 0)
  if !(fromIn || fromBelow) || toBelow || xr ≤ 0 || yr ≤ 0 || (decide (0 < yl) && decide (n ≤ yl * yl)) then false else
  let lo := [Coord.quad 0 0, .quad xl 0] ++ (if yr * yr < n then [Coord.root (n - yr * yr)] else [])
    ++ (if toIn then [Coord.quad e1.1.1 e1.1.2] else [])
  let hi := [Coord.root n, .quad xr 0] ++ (if 0 < yl then [Coord.root (n - yl * yl)] else [])
    ++ (if fromIn then [Coord.quad e0.1.1 e0.1.2] else [])
  allLess lo hi

/-- A rectangle turned back by k quarter turns. -/
def backRect : Nat → Int × Int × Int × Int → Int × Int × Int × Int
  | 0, r => r
  | n + 1, r => let (xl, xr, yl, yr) := backRect n r; (yl, yr, -xr, -xl)

/-- A corner, in quarter cells, turning counterclockwise from h × 45° over 45°, enters the open square of a cell. -/
def arcMeets (h : Nat) (v p : Off) : Bool :=
  let e0 := turnPoint h v
  let e1 := turnPoint (h + 1) v
  let n := v.1 * v.1 + v.2 * v.2
  let r := (4 * p.1 - 2, 4 * p.1 + 2, 4 * p.2 - 2, 4 * p.2 + 2)
  (List.range 4).any fun k =>
    let (xl, xr, yl, yr) := backRect k r
    arcInQuadrant (backQuarter k e0) (backQuarter k e1) n xl xr yl yr

/-- Corners of a cell square in quarter cells. -/
def cornersOf (p : Off) : List Off :=
  [(4 * p.1 - 2, 4 * p.2 - 2), (4 * p.1 + 2, 4 * p.2 - 2), (4 * p.1 - 2, 4 * p.2 + 2), (4 * p.1 + 2, 4 * p.2 + 2)]

/-- The body square at `q` overlaps the cell square at `p` at some angle between h × 45° and (h + 1) × 45°. -/
def sweepMeets (h : Nat) (p q : Off) : Bool :=
  squaresMeet h p q || squaresMeet (h + 1) p q || (cornersOf q).any (fun v => arcMeets h v p)
    || (cornersOf p).any fun u => arcMeets ((7 - h % 8) % 8) u q

/-- Offsets within reach of a body in any heading. -/
def reachCells (body : List Off) : List Off :=
  let r : Nat := 2 * (body.foldl (fun m p => max m (max p.1.natAbs p.2.natAbs)) 0) + 2
  let line := (List.range (2 * r + 1)).map fun i => (i : Int) - r
  line.flatMap fun y => line.map fun x => (x, y)

/-- M_h (R329). -/
def mask (c : ClassRec) (h : Nat) : List Off :=
  let body := bodyCells c
  if h % 2 = 0 then body.map (quarter (h % 8 / 2)) else (reachCells body).filter fun p => body.any (squaresMeet h p)

/-- W of the step between h and h + 1 (R329). -/
def sweepUp (c : ClassRec) (h : Nat) : List Off :=
  let body := bodyCells c
  (reachCells body).filter fun p => body.any (sweepMeets (h % 8) p)

/-- W of a step from one heading to its neighbour. -/
def sweep (c : ClassRec) (a b : Nat) : List Off := if (a + 1) % 8 = b % 8 then sweepUp c a else sweepUp c b

/-- The heading of HEADING_CDEG (R329). -/
def headingOf (cdeg : Nat) : Nat :=
  let a := (45000 - cdeg) % 36000
  let q := a / 4500
  let r := a % 4500
  (if 4500 < 2 * r || (2 * r = 4500 && q % 2 = 1) then q + 1 else q) % 8

/-- HEADING_CDEG of a heading (R343). -/
def cdegOf (h : Nat) : Nat := (45000 - 4500 * (h % 8)) % 36000

/-! ### Runs and turns (R330) -/

/-- One step in a direction. -/
def stepOf (d : Nat) : Off := [(1, 0), (1, 1), (0, 1), (-1, 1), (-1, 0), (-1, -1), (0, -1), (1, -1)].getD (d % 8) (1, 0)

/-- Length of a run in mm. -/
def runLength (cellMm n d : Nat) : Nat :=
  if d % 2 = 0 then n * cellMm else (2 * n * cellMm * 1414214 + 1000000) / 2000000

/-- The profile of a run is trapezoidal. -/
def trapezoid (c : ClassRec) (len : Nat) : Bool :=
  decide (c.vmax * c.vmax * (c.amax + c.dmax) ≤ len * 2 * c.amax * c.dmax)

/-- Duration of a trapezoidal run, s. -/
def trapTime (c : ClassRec) (len : Nat) : ℚ := len / c.vmax + c.vmax / (2 * c.amax) + c.vmax / (2 * c.dmax)

/-- Square of the duration of a triangular run, s². -/
def triTime2 (c : ClassRec) (len : Nat) : ℚ := 2 * len * (c.amax + c.dmax) / (c.amax * c.dmax)

/-- The least natural number whose square is at least a rational. -/
def sqrtUpQ (x : ℚ) : Nat := let r := Nat.sqrt ⌊x⌋.toNat; if (r * r : ℚ) = x then r else r + 1

/-- The natural number nearest to the square root of a rational. -/
def sqrtNear (x : ℚ) : Nat := let r := Nat.sqrt ⌊x⌋.toNat; if ((2 * r + 1) ^ 2 : ℚ) ≤ 4 * x then r + 1 else r

/-- run_time of R330 in µs. -/
def runTimeUs (c : ClassRec) (len : Nat) : Nat :=
  if trapezoid c len then ⌈trapTime c len * 1000000⌉.toNat else sqrtUpQ (triTime2 c len * 1000000000000)

/-- RUN_SLOTS. -/
def runSlots (c : ClassRec) (cellMm n d : Nat) : Nat := cdiv (runTimeUs c (runLength cellMm n d)) 50000

/-- TURN_SLOTS. -/
def turnSlots (c : ClassRec) (k : Nat) : Nat := cdiv (k * 4500 * 20) c.yaw

/-- The headings passed on the shorter way, a half turn counterclockwise; both ends are in the list. -/
def turnPath (a b : Nat) : List Nat :=
  let d := (b + 8 - a % 8) % 8
  if d ≤ 4 then (List.range (d + 1)).map fun i => (a + i) % 8 else (List.range (9 - d)).map fun i => (a + 8 - i) % 8

/-- Sign of the distance run after t seconds less a bound. -/
def runSign (c : ClassRec) (len : Nat) (t bound : ℚ) : Int :=
  let sgn (x : ℚ) : Int := if x < 0 then -1 else if x = 0 then 0 else 1
  let a : ℚ := c.amax
  let b : ℚ := c.dmax
  let v : ℚ := c.vmax
  if trapezoid c len then
    let tt := trapTime c len
    if tt ≤ t then sgn (len - bound)
    else if t ≤ v / a then sgn (a * t * t / 2 - bound)
    else if t ≤ tt - v / b then sgn (v * v / (2 * a) + v * (t - v / a) - bound)
    else sgn (len - b * (tt - t) ^ 2 / 2 - bound)
  else
    let t2 := triTime2 c len
    if t2 ≤ t * t then sgn (len - bound)
    else if t * t * (a + b) ^ 2 ≤ b * b * t2 then sgn (a * t * t / 2 - bound)
    else
      let p := 2 * (len - bound) / b - t2 - t * t
      let q := 2 * t
      if 0 ≤ p then sgn (p + q) else sgn (q * q * t2 - p * p)

/-- First and last cell, counted along the run, held in its slot `j` (R331); a slot includes both its ends. -/
def runSpan (c : ClassRec) (len n j : Nat) : Nat × Nat :=
  let step : ℚ := len / n
  let bounds := (List.range n).map fun (k : Nat) => ((k : ℚ) + 1 / 2) * step
  ((bounds.filter fun b => decide (0 < runSign c len (j / 20) b)).length,
   (bounds.filter fun b => decide (0 ≤ runSign c len ((j + 1) / 20) b)).length)

/-- Reference cells of slot `j` of a run, as offsets from its start (R331). -/
def runCells (c : ClassRec) (cellMm n d j : Nat) : List Off :=
  let (lo, hi) := runSpan c (runLength cellMm n d) n j
  let (ex, ey) := stepOf d
  let line := (List.range (hi + 1 - lo)).map fun (i : Nat) => (((lo + i : Nat) : Int) * ex, ((lo + i : Nat) : Int) * ey)
  let side := if d % 2 = 0 then [] else (List.range (hi - lo)).flatMap fun (i : Nat) =>
    let k : Int := ((lo + i : Nat) : Int)
    [((k + 1) * ex, k * ey), (k * ex, (k + 1) * ey)]
  line ++ side

/-- The 45° steps of a turn that overlap its slot `j`. -/
def turnSteps (c : ClassRec) (k j : Nat) : List Nat :=
  (List.range k).filter fun i => decide (i * 4500 * 20 < (j + 1) * c.yaw) && decide (j * c.yaw < (i + 1) * 4500 * 20)

/-! ### Occupancy (R331, R332) -/

/-- What a leg holds in one slot: slot, reference cells, and the masks over each. -/
structure SlotOcc where
  slot : Nat
  refs : List Off
  masks : List (List Off)
deriving DecidableEq, Repr

/-- Cells as offsets moved to a cell. -/
def moved (at' : Off) (l : List Off) : List Off := l.map fun p => (at'.1 + p.1, at'.2 + p.2)

/-- The occupancy of one piece of a leg, slot by slot. -/
def segOcc (c : ClassRec) (cellMm : Nat) (g : Seg) : List SlotOcc :=
  let cell : Off := ((g.x : Int), (g.y : Int))
  match g.kind with
  | .wait => (List.range g.slots).map fun j => ⟨g.slot + j, [cell], [mask c g.h]⟩
  | .turn =>
    let path := turnPath g.h g.toH
    (List.range g.slots).map fun j =>
      ⟨g.slot + j, [cell], (turnSteps c (path.length - 1) j).map fun i => sweep c (path.getD i 0) (path.getD (i + 1) 0)⟩
  | .run => (List.range g.slots).map fun j => ⟨g.slot + j, moved cell (runCells c cellMm g.len g.toH j), [mask c g.toH]⟩

/-- The covered set of a slot. -/
def coveredSet (o : SlotOcc) : List Off := (o.refs.flatMap fun r => o.masks.flatMap (moved r)).eraseDups

/-- The clearance ring of a covered set. -/
def ringOf (c : ClassRec) (cov : List Off) : List Off :=
  let reach := (List.range (2 * c.clear + 1)).map fun i => (i : Int) - c.clear
  ((cov.flatMap fun p => reach.flatMap fun y => reach.map fun x => (p.1 + x, p.2 + y)).eraseDups).filter fun p => !cov.contains p

/-- A cell lies on the grid. -/
def onGrid (g : Grid) (p : Off) : Bool := decide (0 ≤ p.1) && decide (p.1 < g.nx) && decide (0 ≤ p.2) && decide (p.2 < g.ny)

/-- The cell ids of the cells of a list that lie on the grid. -/
def idsOf (g : Grid) (l : List Off) : List Nat := (l.filter (onGrid g)).map fun p => cellId p.1.toNat p.2.toNat

/-- The DWELL cells at rest. -/
def restCells (g : Grid) (c : ClassRec) (x y h : Nat) : List Nat := idsOf g (moved ((x : Int), (y : Int)) (mask c h))

/-- PATH and CLEARANCE keys of one slot for a session. -/
def slotKeys (g : Grid) (c : ClassRec) (session : Nat) (o : SlotOcc) : List Key :=
  let cov := coveredSet o
  (idsOf g cov).map (fun x => { cell := x, slot := o.slot, kind := kPath, owner := session })
    ++ (idsOf g (ringOf c cov)).map fun x => { cell := x, slot := o.slot, kind := kClear, owner := session }

/-- The slots of a leg, its start cell at rest first. -/
def legOcc (g : Grid) (l : Leg) : List SlotOcc :=
  ((List.range (l.start - l.holdFrom)).map fun i => ⟨l.holdFrom + i, [((l.x : Int), (l.y : Int))], [mask l.cls l.h]⟩)
    ++ l.segs.flatMap (segOcc l.cls g.cellMm)

/-- DWELL cells at a leg's end. -/
def legEndCells (g : Grid) (l : Leg) : List Nat := restCells g l.cls l.endX l.endY l.endH

/-- Every key of a leg's reservation (R332). -/
def legKeys (g : Grid) (session : Nat) (l : Leg) : List Key :=
  (legOcc g l).flatMap (slotKeys g l.cls session)
    ++ (legEndCells g l).map fun c => { cell := c, kind := kDwell, owner := session }

/-! ### Knots (R343, R344) -/

/-- A knot of a segment table. -/
structure Knot where
  t : Nat
  e : Int
  n : Int
  ve : Int
  vn : Int
  cdeg : Nat
deriving DecidableEq, Repr

/-- A rational rounded to nearest, half away from zero. -/
def roundQ (x : ℚ) : Int := if x < 0 then -⌊-x + 1 / 2⌋ else ⌊x + 1 / 2⌋

/-- Centre of a cell of a grid. -/
def centreOf (g : Grid) (x y : Nat) : Int × Int := (g.e0 + x * g.cellMm + g.cellMm / 2, g.n0 + y * g.cellMm + g.cellMm / 2)

/-- Signed component of a speed whose square along the run is `v2`, by the share `de` of its length `len`. -/
def speedPart (v2 : ℚ) (de : Int) (len : Nat) : Int :=
  let m : Int := sqrtNear (v2 * (de : ℚ) ^ 2 / (len : ℚ) ^ 2)
  if de < 0 then -m else m

/-- The instants of a run: µs from its start, mm run, square of the speed. -/
def runEvents (c : ClassRec) (len : Nat) : List (Nat × ℚ × ℚ) :=
  let v : ℚ := c.vmax
  let a : ℚ := c.amax
  let b : ℚ := c.dmax
  if trapezoid c len then
    let t := trapTime c len
    [(0, 0, 0), ((roundQ (v / a * 1000000)).toNat, v * v / (2 * a), v * v),
     ((roundQ ((t - v / b) * 1000000)).toNat, len - v * v / (2 * b), v * v), ((roundQ (t * 1000000)).toNat, len, 0)]
  else
    let t2 := triTime2 c len
    let p2 := t2 * b * b / (a + b) ^ 2
    [(0, 0, 0), (sqrtNear (p2 * 1000000000000), a * p2 / 2, a * a * p2), (sqrtNear (t2 * 1000000000000), len, 0)]

/-- Knots of one piece, times from the leg's start slot. -/
def segKnots (g : Grid) (c : ClassRec) (start : Nat) (s : Seg) : List Knot :=
  let base := (s.slot - start) * 50000
  let (e, n) := centreOf g s.x s.y
  match s.kind with
  | .wait => []
  | .turn =>
    let k := (turnPath s.h s.toH).length - 1
    [⟨base, e, n, 0, 0, cdegOf s.h⟩, ⟨base + (2 * k * 4500 * 1000000 + c.yaw) / (2 * c.yaw), e, n, 0, 0, cdegOf s.toH⟩]
  | .run =>
    let len := runLength g.cellMm s.len s.toH
    let (ex, ey) := stepOf s.toH
    let de : Int := (s.len * g.cellMm : Nat) * ex
    let dn : Int := (s.len * g.cellMm : Nat) * ey
    (runEvents c len).map fun q =>
      ⟨base + q.1, e + roundQ (de * q.2.1 / len), n + roundQ (dn * q.2.1 / len), speedPart q.2.2 de len, speedPart q.2.2 dn len, cdegOf s.toH⟩

/-- A knot equal in time to the one before it is merged with it. -/
def mergeKnots : List Knot → List Knot
  | a :: b :: l => if a.t = b.t then mergeKnots (b :: l) else a :: mergeKnots (b :: l)
  | l => l

/-- The knots of a leg. -/
def legKnots (g : Grid) (l : Leg) : List Knot :=
  let (e, n) := centreOf g l.x l.y
  mergeKnots (⟨0, e, n, 0, 0, cdegOf l.h⟩ :: l.segs.flatMap (segKnots g l.cls l.start))

/-- Cubic Hermite between two knots, `u` of the way. -/
def hermite (p0 p1 : Int) (v0 v1 : Int) (h u : ℚ) : ℚ :=
  (2 * u ^ 3 - 3 * u ^ 2 + 1) * p0 + (u ^ 3 - 2 * u ^ 2 + u) * h * v0 + (3 * u ^ 2 - 2 * u ^ 3) * p1 + (u ^ 3 - u ^ 2) * h * v1

/-- Position on a list of knots `t` µs after BASE_TIME64, in mm. -/
def knotPos (t : ℚ) : List Knot → Int × Int
  | [] => (0, 0)
  | [k] => (k.e, k.n)
  | a :: b :: l =>
    if t ≤ a.t then (a.e, a.n)
    else if t ≤ b.t then
      let h : ℚ := ((b.t : ℚ) - a.t) / 1000000
      let u : ℚ := (t - a.t) / ((b.t : ℚ) - a.t)
      (roundQ (hermite a.e b.e a.ve b.ve h u), roundQ (hermite a.n b.n a.vn b.vn h u))
    else knotPos t (b :: l)

end Sys2Proof.Machine
end

