-- ==== Sys2Proof/Machine/Lead.lean ====
section
/-! DEFINITION. LEADLIGHT: the search of R333 with its checks, limits and results (R333 to R337). -/

namespace Sys2Proof.Machine

open Sys2Proof

/-! ### Nodes and edges (R333) -/

/-- A node: at rest in a cell, facing `h`, from slot `t` on; the pieces that lead to it from `parent`, newest first. -/
structure SNode where
  x : Int
  y : Int
  h : Nat
  t : Nat
  edge : List Seg := []
  path : List (List Seg) := []
deriving DecidableEq, Repr

/-- What a search works with. -/
structure SCtx where
  g : Grid
  c : ClassRec
  session : Nat
  start : Nat
  moveFrom : Nat
  goal : Nat × Nat × Nat
  follow : Option (Int × Int)
  avoid : List (Nat × Nat × Bool)
  ways : Tbl (BitVec 64)
  /-- RUN_LIMIT by direction. -/
  limits : List Nat
  /-- A cell may be entered in DRIFT. -/
  covered : Off → Bool

/-- RUN_SET. -/
def runSet : List Nat := [1, 2, 4, 8, 16, 32]

/-- Millionths of a cell of the octile distance between two offsets. -/
def octile6 (dx dy : Int) : Nat :=
  max dx.natAbs dy.natAbs * 1000000 + 414214 * min dx.natAbs dy.natAbs

/-- h_est of a cell. -/
def hEst (k : SCtx) (x y : Int) : Nat :=
  20 * k.g.cellMm * octile6 ((k.goal.1 : Int) - x) ((k.goal.2.1 : Int) - y) / (1000000 * k.c.vmax)

/-- g + h_est of a node. -/
def fCost (k : SCtx) (n : SNode) : Nat := n.t - k.start + hEst k n.x n.y

/-- The cell of a node as a cell id, in the order of ties. -/
def nodeCell (n : SNode) : Int := n.y * 4096 + n.x

/-- The order in which nodes are taken. -/
def takenBefore (k : SCtx) (a b : SNode) : Bool :=
  let fa := fCost k a
  let fb := fCost k b
  if fa != fb then decide (fa < fb)
  else if a.t != b.t then decide (b.t < a.t)
  else if nodeCell a != nodeCell b then decide (nodeCell a < nodeCell b)
  else decide (a.h < b.h)

/-- The position of the node taken next; of equal nodes the earliest pushed. -/
def nextNode (k : SCtx) (l : List SNode) : Nat :=
  (l.zipIdx.foldl (fun (m : Option (SNode × Nat)) e =>
    match m with
    | none => some e
    | some b => if takenBefore k e.1 b.1 then some e else some b) none |>.map (·.2)).getD 0

/-- The position of the node dropped when the open set is full. -/
def dropNode (k : SCtx) (l : List SNode) : Nat :=
  (l.zipIdx.foldl (fun (m : Option (SNode × Nat)) e =>
    match m with
    | none => some e
    | some b => if fCost k b.1 ≤ fCost k e.1 then some e else some b) none |>.map (·.2)).getD 0

/-- Push a node; the open set holds 8,192. -/
def pushNode (k : SCtx) (l : List SNode) (n : SNode) : List SNode :=
  let l := l ++ [n]
  if 8192 < l.length then l.eraseIdx (dropNode k l) else l

/-- The occupancy of some pieces. -/
def edgeOcc (k : SCtx) (e : List Seg) : List SlotOcc := e.flatMap (segOcc k.c k.g.cellMm)

/-- The turn, if any, and the run of an edge. -/
def runEdge (k : SCtx) (n : SNode) (d len : Nat) : List Seg :=
  let turn := turnSlots k.c ((turnPath n.h d).length - 1)
  let x := n.x.toNat
  let y := n.y.toNat
  (if turn = 0 then [] else [{ kind := .turn, slot := n.t, slots := turn, x := x, y := y, h := n.h, toH := d, len := 0 }])
    ++ [{ kind := .run, slot := n.t + turn, slots := runSlots k.c k.g.cellMm len d, x := x, y := y, h := d, toH := d, len := len }]

/-- Slots that some pieces take. -/
def segSlots (e : List Seg) : Nat := (e.map (·.slots)).sum

/-- The covered set stays on the grid in every slot (R332). -/
def edgeOnGrid (k : SCtx) (e : List Seg) : Bool := (edgeOcc k e).all fun o => (coveredSet o).all (onGrid k.g)

/-- The run passes the goal (R333). -/
def passesGoal (k : SCtx) (n : SNode) (d len : Nat) : Bool :=
  let s := stepOf d
  decide ((((k.goal.1 : Int) - n.x) * s.1 + ((k.goal.2.1 : Int) - n.y) * s.2) < len * (s.1 * s.1 + s.2 * s.2))

/-- A FOLLOW stage runs along its line only (R333). -/
def followSkips (k : SCtx) (n : SNode) (d len : Nat) : Bool :=
  match k.follow with
  | none => false
  | some dir => stepOf d != dir || passesGoal k n d len

/-- The successors of a node in the order pushed (R333). -/
def successors (k : SCtx) (n : SNode) : List SNode :=
  let wait : Seg := { kind := .wait, slot := n.t, slots := 1, x := n.x.toNat, y := n.y.toNat, h := n.h, toH := n.h, len := 0 }
  let w : List SNode := if n.t + 1 ≤ k.start + 1020 then
      [{ x := n.x, y := n.y, h := n.h, t := n.t + 1, edge := [wait], path := n.edge :: n.path }] else []
  let runs := if n.t < k.moveFrom then [] else
    (List.range 8).flatMap fun d => (runSet.filter fun len => decide (len ≤ k.limits.getD d 0)).filterMap fun len =>
      if followSkips k n d len then none else
      let e := runEdge k n d len
      let t2 := n.t + segSlots e
      let s := stepOf d
      if t2 ≤ k.start + 1020 && edgeOnGrid k e && (edgeOcc k e).all (fun o => o.refs.all k.covered) then
        some { x := n.x + len * s.1, y := n.y + len * s.2, h := d, t := t2, edge := e, path := n.edge :: n.path }
      else none
  w ++ runs

/-! ### The check of an edge (R334) -/

/-- Probe the timed and then the standing key of cells: probes spent, and whether all passed. -/
def probeCells (k : SCtx) (slot : Nat) : List Nat → Nat × Bool
  | [] => (0, true)
  | c :: cs =>
    let bad (f : Found) : Bool := match f with
      | .free => false
      | .at _ w => !(isRobotKind (eKind w) && eOwner w == k.session)
      | .corrupt _ _ => true
    if bad (probeKey k.ways c (slot % 1024) kPath) then (1, false)
    else if bad (probeKey k.ways c 0 kDwell) then (2, false)
    else let r := probeCells k slot cs; (r.1 + 2, r.2)

/-- Probe the slots of an edge in order. -/
def probeSlots (k : SCtx) : List SlotOcc → Nat × Bool
  | [] => (0, true)
  | o :: os =>
    let a := probeCells k o.slot (idsOf k.g o.refs)
    if a.2 then let r := probeSlots k os; (a.1 + r.1, r.2) else a

/-- A key of the avoid list lies in the edge's covered set or ring in its slot. -/
def avoided (k : SCtx) (e : List Seg) : Bool :=
  !k.avoid.isEmpty && (edgeOcc k e).any fun o =>
    let cov := coveredSet o
    let ids := idsOf k.g (cov ++ ringOf k.c cov)
    k.avoid.any fun a => (a.2.2 || a.2.1 == o.slot) && ids.contains a.1

/-- The check: probes spent, and whether it passes. -/
def checkEdge (k : SCtx) (e : List Seg) : Nat × Bool := if avoided k e then (0, false) else probeSlots k (edgeOcc k e)

/-! ### The search -/

/-- A search in progress. -/
structure Search where
  opened : List SNode := []
  closed : List SNode := []
  nodes : Nat := 0
  probes : Nat := 0
  found : Option SNode := none
deriving DecidableEq, Repr

/-- Two nodes are one: cell, heading and slot. -/
def sameNode (a b : SNode) : Bool := a.x == b.x && a.y == b.y && a.h == b.h && a.t == b.t

/-- A node is at the goal. -/
def atGoal (k : SCtx) (n : SNode) : Bool :=
  n.x == (k.goal.1 : Int) && n.y == (k.goal.2.1 : Int) && (k.goal.2.2 == 0xFF || n.h == k.goal.2.2)

/-- One turn of the loop. -/
def searchStep (k : SCtx) (s : Search) : Search :=
  match s.opened[nextNode k s.opened]? with
  | none => s
  | some n =>
    let s := { s with opened := s.opened.eraseIdx (nextNode k s.opened), nodes := s.nodes + 1 }
    if s.closed.any (sameNode n) then s else
    let chk := if n.edge.isEmpty then (0, true) else checkEdge k n.edge
    let s := { s with probes := s.probes + chk.1 }
    if !chk.2 then s else
    let s := { s with closed := s.closed ++ [n] }
    if atGoal k n then { s with found := some n }
    else { s with opened := (successors k n).foldl (pushNode k) s.opened }

/-- The loop, until the goal, an empty open set or a limit of R335. -/
def searchLoop (k : SCtx) : Nat → Search → Search
  | 0, s => s
  | f + 1, s =>
    if s.found.isSome || s.opened.isEmpty || 65536 ≤ s.nodes || 131072 ≤ s.probes then s else searchLoop k f (searchStep k s)

/-- The closed node a PARTIAL ends at. -/
def bestClosed (k : SCtx) (l : List SNode) : Option SNode :=
  l.foldl (fun m n =>
    match m with
    | none => some n
    | some b =>
      let a := hEst k n.x n.y
      let c := hEst k b.x b.y
      if a < c || (a = c && (n.t < b.t || (n.t = b.t && decide (nodeCell n < nodeCell b)))) then some n else some b) none

/-! ### Legs (R335, R337) -/

/-- Edges of the path to a node, first edge first. -/
def trace (n : SNode) : List (List Seg) := ((n.edge :: n.path).filter (!·.isEmpty)).reverse

/-- A leg over some edges from a place. -/
def legOf (k : SCtx) (holdFrom x y h : Nat) (edges : List (List Seg)) : Leg :=
  let segs := edges.flatten
  let last := segs.getLast?
  let endCell : Off := match last with
    | none => ((x : Int), (y : Int))
    | some s => if s.kind == .run then
        ((s.x : Int) + s.len * (stepOf s.toH).1, (s.y : Int) + s.len * (stepOf s.toH).2) else ((s.x : Int), (s.y : Int))
  { cls := k.c, segs := segs, start := k.start, holdFrom := holdFrom, arrive := k.start + segSlots segs
    x := x, y := y, h := h, endX := endCell.1.toNat, endY := endCell.2.toNat, endH := (last.map (·.toH)).getD h }

/-- Reference cell-slots of a leg. -/
def legRefs (g : Grid) (l : Leg) : Nat := ((legOcc g l).map (·.refs.length)).sum

/-- A leg meets the leg limits of R335. -/
def legFits (g : Grid) (session : Nat) (l : Leg) : Bool :=
  decide (legRefs g l ≤ 1024) && decide ((legKeys g session l).length ≤ 16384) && decide ((legKnots g l).length ≤ 64)

/-- The longest of the first `n` edges that meet the leg limits. -/
def cutLeg (k : SCtx) (holdFrom x y h : Nat) (edges : List (List Seg)) : Nat → Nat
  | 0 => 0
  | n + 1 => if legFits k.g k.session (legOf k holdFrom x y h (edges.take (n + 1))) then n + 1 else cutLeg k holdFrom x y h edges n

/-- Some edges hold a run. -/
def hasRun (edges : List (List Seg)) : Bool := edges.flatten.any (·.kind == .run)

/-- A run of a class with its turn meets the leg limits alone (R335), the grid left aside. -/
def runFits (c : ClassRec) (cellMm d len : Nat) : Bool :=
  (List.range 8).all fun h =>
    let turn := turnPath h d
    let k := turn.length - 1
    let segs : List Seg := (if k = 0 then [] else [{ kind := .turn, slots := turnSlots c k, h := h, toH := d }])
      ++ [{ kind := .run, slots := runSlots c cellMm len d, h := d, toH := d, len := len }]
    let occ := segs.flatMap (segOcc c cellMm)
    let keys := (occ.map fun o => let cov := coveredSet o; cov.length + (ringOf c cov).length).sum + (mask c d).length
    decide ((occ.map (·.refs.length)).sum ≤ 1024) && decide (keys ≤ 16384)

/-- RUN_LIMIT by direction. -/
def runLimits (c : ClassRec) (cellMm : Nat) : List Nat :=
  (List.range 8).map fun d => ((runSet.filter (runFits c cellMm d)).getLast?).getD 0

/-- The result of a search as a leg would use it. -/
def resultOf (k : SCtx) (holdFrom x y h : Nat) (s : Search) : SearchResult :=
  let out (code : SearchCode) (edges : List (List Seg)) : SearchResult :=
    let l := legOf k holdFrom x y h edges
    { code := code, segs := l.segs, arrive := l.arrive, x := l.endX, y := l.endY, h := l.endH, nodes := s.nodes, probes := s.probes }
  let cut (code : SearchCode) (n : SNode) : SearchResult :=
    let edges := trace n
    let kept := edges.take (cutLeg k holdFrom x y h edges edges.length)
    if hasRun kept then out code kept else out .noPath []
  match s.found with
  | some n =>
    let edges := trace n
    if legFits k.g k.session (legOf k holdFrom x y h edges) then out .found edges else cut .leg n
  | none =>
    if s.opened.isEmpty then out .noPath []
    else match bestClosed k s.closed with
      | some n => cut .partialPath n
      | none => out .noPath []

/-- Search from a place. -/
def search (k : SCtx) (holdFrom x y h : Nat) : SearchResult :=
  resultOf k holdFrom x y h
    (searchLoop k 65536 { opened := [{ x := (x : Int), y := (y : Int), h := h, t := k.start }] })

end Sys2Proof.Machine
end

