-- ==== Sys2Proof/Machine/Task.lean ====
section
/-! DEFINITION. The task table: its state changes, its opcodes and its timed rows (R326 to R328, R352 to R356, R360). -/

namespace Sys2Proof.Machine

open Sys2Proof

/-! ### State changes (R328, R360) -/

/-- STATE code (R328). -/
def taskCode : TaskState → Nat
  | .free => 0 | .posted => 1 | .assigned => 2 | .active => 3 | .finished => 4 | .cancelled => 5 | .failed => 6

/-- A task; one not in the table is FREE. -/
def taskAt (s : State) (j : Nat) : Task := tgetD s.p.tasks j {}

/-- DONE, CANCELLED or FAILED. -/
def terminal : TaskState → Bool
  | .finished | .cancelled | .failed => true
  | _ => false

/-- OPEN, ASSIGNED or ACTIVE. -/
def liveTask : TaskState → Bool
  | .posted | .assigned | .active => true
  | _ => false

/-- Payload of EV_TASK_STATE. -/
def taskEvent (j new old cause : Nat) (t : Task) : Bytes :=
  le 2 j ++ le 1 new ++ le 1 old ++ le 1 cause ++ le 1 t.session ++ le 1 t.nextWp ++ zb 1

/-- A task as it stands after a change to a state with a cause. -/
def moved1 (s : State) (t : Task) (new : TaskState) (cause : Nat) : Task :=
  { t with
    state := new
    cause := cause
    session := if new == .posted then 0xFF else t.session
    stateTime := if new == t.state then t.stateTime else nowTime s % 2 ^ 64
    stateFc := if new == t.state then t.stateFc else fcNow s }

/-- Write a task, or free it. -/
def putTask (s : State) (j : Nat) (t : Task) : State :=
  { s with p.tasks := if t.state == .free then tdel s.p.tasks j else tput s.p.tasks j t }

/-- A change of a task that no command makes: a commit on the task and its event; none while no commit can be made (R119). -/
def moveTask (s : State) (j : Nat) (new : TaskState) (cause : Nat) (f : Task → Task) : State :=
  if mramFog s then s else
  let old := taskAt s j
  let t := moved1 s (f old) new cause
  raise (putTask (commitBy s orgFlt okTask j) j t) 0x8701 .all (taskEvent j (taskCode new) (taskCode old.state) cause t)

/-- A change of a task that a command makes. -/
def moveTaskBy (s : State) (r : Request) (j : Nat) (new : TaskState) (cause : Nat) (t : Task) : State :=
  let old := taskAt s j
  let t := moved1 s t new cause
  raiseBy (putTask (commit s okTask j) j t) r 0x8701 .all (taskEvent j (taskCode new) (taskCode old.state) cause t)

/-! ### Records (R326, R327) -/

/-- Waypoint `i` of a task record. -/
def wpFrom (p : Bytes) (i : Nat) : Waypoint :=
  let o := 32 + 8 * i
  { x := fld p o 2, y := fld p (o + 2) 2, heading := fld p (o + 4) 1, flags := fld p (o + 5) 1, dwellS := fld p (o + 6) 2 }

/-- The task of a record. -/
def taskFrom (p : Bytes) : Task :=
  { kind := fld p 0 1, priority := fld p 1 1, classMask := fld p 4 4, valueMs := fld p 8 4, notBefore := fld p 16 8
    deadline := fld p 24 8, deadlineNow := fld p 24 8, wps := (List.range (fld p 12 1)).map (wpFrom p) }

/-- A waypoint as R326 lays it out. -/
def wpBytes (w : Waypoint) : Bytes := le 2 w.x ++ le 2 w.y ++ le 1 w.heading ++ le 1 w.flags ++ le 2 w.dwellS

/-- A task record. -/
def taskBytes (j : Nat) (t : Task) : Bytes :=
  le 1 t.kind ++ le 1 t.priority ++ le 2 j ++ le 4 t.classMask ++ le 4 t.valueMs ++ le 1 t.wps.length ++ zb 3
    ++ le 8 t.notBefore ++ le 8 t.deadline ++ fit 128 (t.wps.flatMap wpBytes)

/-- The reserved fields of a record. -/
def taskRsv (p : Bytes) : Bool :=
  let n := min (fld p 12 1) 16
  zeros p 13 3 && zeros p (32 + 8 * n) (128 - 8 * n) && (List.range n).all fun i => decide (fld p (32 + 8 * i + 5) 1 < 4)

/-- FOLLOW of a waypoint. -/
def followWp (w : Waypoint) : Bool := bit w.flags 0

/-- Two waypoints lie on one row, column or diagonal. -/
def aligned (a b : Waypoint) : Bool :=
  let dx := ((b.x : Int) - a.x).natAbs
  let dy := ((b.y : Int) - a.y).natAbs
  dx == 0 || dy == 0 || dx == dy

/-- Every FOLLOW stage joins aligned waypoints and the last has none. -/
def stagesOk : List Waypoint → Bool
  | [] => true
  | [w] => !followWp w
  | a :: b :: l => (!followWp a || aligned a b) && stagesOk (b :: l)

/-- At least one set bit names a defined class. -/
def maskOk (s : State) (m : Nat) : Bool := (List.range 32).any fun c => bit m c && bit (tgetD s.p.classes c {}).flags 0

/-- The rule of a KIND. -/
def kindOk (t : Task) : Bool :=
  match t.kind with
  | 1 => t.wps.any followWp
  | 2 => t.wps.any followWp
  | 3 => decide (2 ≤ t.wps.length)
  | 4 => decide (2 ≤ t.wps.length)
  | 5 => t.wps.length == 1
  | _ => false

/-- The ranges of a record. -/
def taskOk (s : State) (t : Task) (j : Nat) : Bool :=
  let g := s.strt.grid
  (decide (j < 4096) || j == 0xFFFF) && decide (t.valueMs ≤ 3600000) && maskOk s t.classMask
    && decide (1 ≤ t.wps.length) && decide (t.wps.length ≤ 16)
    && t.wps.all (fun w => decide (w.x < g.nx) && decide (w.y < g.ny) && (decide (w.heading < 8) || w.heading == 0xFF) && decide (w.dwellS ≤ 3600))
    && stagesOk t.wps && kindOk t

/-! ### TASK_POST (R352) -/

def mPost : List Mode := [.calm, .zephyr, .breeze, .drift, .watch]
def mTask : List Mode := [.calm, .zephyr, .breeze, .drift, .lull, .squall, .watch]

/-- Indexes that running posts will commit. -/
def heldTasks (s : State) : List Nat := s.allot.posts.flatMap fun q => q.todo.map (·.1)

/-- The indexes records take: those named, and for 0xFFFF the lowest FREE ones; none while some record finds none. -/
def pickTasks (s : State) (named : List Nat) : List Nat → List Nat → Option (List Nat)
  | _, [] => some []
  | used, j :: js =>
    if j != 0xFFFF then (pickTasks s named used js).map (j :: ·) else
    match (List.range 4096).find? fun i => (tget s.p.tasks i).isNone && !named.contains i && !used.contains i with
    | none => none
    | some i => (pickTasks s named (i :: used) js).map (i :: ·)

/-- A named index is not FREE or terminal, or is named twice. -/
def postBusy (s : State) (named : List Nat) : Bool :=
  named.any (fun j => liveTask (taskAt s j).state || (heldTasks s).contains j || decide (1 < named.count j))

/-- Reply of TASK_POST. -/
def postReply (q : PostRun) : Bytes :=
  le 1 q.done.length ++ zb 3 ++ (List.range 8).flatMap fun i => le 2 (q.done.getD i 0xFFFF)

/-- The first object of a post changed by anything else since its own last commit. -/
def postChanged (s : State) (q : PostRun) : Option (Nat × Nat) :=
  match q.req.expect with
  | none => none
  | some e =>
    let objs := (q.done ++ q.todo.map (·.1)).map fun j => (okTask, j)
    if q.done.isEmpty then changedSince s e objs else changedSince s q.lastCommit objs

/-- Commit the next task of a post. -/
def postOne (s : State) (q : PostRun) : PostRun × State :=
  match q.todo with
  | [] => (q, s)
  | (j, t) :: rest =>
    let s := moveTaskBy s q.req j .posted 1 { t with state := (taskAt s j).state }
    ({ q with todo := rest, done := q.done ++ [j], lastCommit := s.com.csn }, s)

/-- Commit at most two tasks of a post; it stops where the expected-CSN check fails. -/
def postSome : Nat → PostRun → State → PostRun × State × Option (Nat × Nat)
  | 0, q, s => (q, s, none)
  | n + 1, q, s =>
    if q.todo.isEmpty then (q, s, none) else
    match postChanged s q with
    | some o => (q, s, some o)
    | none => let (q, s) := postOne s q; postSome n q s

/-- One FC of a post: its commits, then its end or its place among those that go on. -/
def postFc (s : State) (q : PostRun) : State :=
  let (q, s, bad) := postSome 2 q s
  match bad with
  | some o => finishI s q.req intCsn stCsnMismatch (mismatchPayload s o)
  | none =>
    if q.todo.isEmpty then finish s q.req stOk (postReply q)
    else
      let s := if q.firstFc = fcNow s then accept s q.req q.planned [] else record s q.req false intNone 0 q.planned
      { s with allot.posts := s.allot.posts ++ [q] }

/-- A post met by a mode that stops it (R100). -/
def postEnd (s : State) (q : PostRun) : State :=
  if s.mode.cur == .squall then finishI s q.req intStop stInterrupted (postReply q)
  else finishI s q.req intMode stBadMode (postReply q)

/-- COMMAND of every later FC: each post commits at most two more tasks. -/
def stepPosts (s : State) : State :=
  let qs := s.allot.posts
  qs.foldl (fun s q =>
    let s := { s with com.cmdCommits := 0 }
    if inModes s mPost then postFc s q else postEnd s q) { s with allot.posts := [] }

/-- Record `i` of a TASK_POST payload. -/
def postRec (p : Bytes) (i : Nat) : Bytes := slice p (8 + 160 * i) 160

/-- TASK_POST (R352). -/
def opTaskPost (r : Request) (s : State) : State :=
  let p := r.payload
  let n := fld p 0 1
  let recs := (List.range n).map (postRec p)
  runOp s r (decide (8 ≤ p.length) && p.length == 8 + 160 * n) (zeros p 1 7 && recs.all taskRsv) true (inModes s mPost) fun s =>
  need (s.strt.grid.cellMm != 0) s r stNotReady fun s =>
  let want := recs.map fun b => fld b 2 2
  let tasks := recs.map taskFrom
  need (decide (1 ≤ n) && decide (n ≤ 8) && (tasks.zip want).all fun e => taskOk s e.1 e.2) s r stBadRange fun s =>
  let named := want.filter (· != 0xFFFF)
  match pickTasks s named (heldTasks s) want with
  | none => finish s r stTableFull []
  | some idx =>
    need (!postBusy s named) s r stBusy fun s =>
    postFc s { req := r, todo := idx.zip tasks, planned := n, firstFc := fcNow s }

def execTaskPost (r : Request) (s : State) : Host.Outcome State Fault Refusal := .next (opTaskPost r s)

/-! ### TASK_MODIFY (R353) -/

/-- The fields MFLAGS does not select are 0. -/
def modifyRsv (p : Bytes) : Bool :=
  let m := fld p 2 1
  decide (m < 32) && (bit m 0 || zeros p 3 1) && (bit m 4 || zeros p 4 4) && (bit m 1 || zeros p 8 4) && zeros p 12 4
    && (bit m 2 || zeros p 16 8) && (bit m 3 || zeros p 24 8)

/-- A task with the selected fields changed. -/
def modified (p : Bytes) (t : Task) : Task :=
  let m := fld p 2 1
  { t with
    priority := if bit m 0 then fld p 3 1 else t.priority
    classMask := if bit m 4 then fld p 4 4 else t.classMask
    valueMs := if bit m 1 then fld p 8 4 else t.valueMs
    notBefore := if bit m 2 then fld p 16 8 else t.notBefore
    deadline := if bit m 3 then fld p 24 8 else t.deadline }

/-- The class of the robot a task is given to is left out of its CLASS_MASK. -/
def excludesRobot (s : State) (t : Task) : Bool := t.session != 0xFF && !bit t.classMask (robotRec s t.session).cls

/-- A command names a task of the table that is not FREE. -/
def taskNamed (s : State) (j : Nat) : Bool := decide (j < 4096) && (tget s.p.tasks j).isSome

/-- TASK_MODIFY (R353). -/
def opTaskModify (r : Request) (s : State) : State :=
  let p := r.payload
  let j := fld p 0 2
  runOp s r (p.length == 32) (modifyRsv p) true (inModes s mTask) fun s =>
  let t := modified p (taskAt s j)
  need (taskNamed s j && decide (t.valueMs ≤ 3600000) && (!bit (fld p 2 1) 4 || maskOk s t.classMask)) s r stBadRange fun s =>
  need (liveTask t.state && !(bit (fld p 2 1) 4 && excludesRobot s t)) s r stBusy fun s =>
  change1 s r (okTask, j) (fun s => putTask s j t) fun _ => []

def execTaskModify (r : Request) (s : State) : Host.Outcome State Fault Refusal := .next (opTaskModify r s)

/-! ### TASK_GET and TASK_LIST (R355) -/

/-- Reply of TASK_GET. -/
def taskReply (s : State) (j : Nat) : Bytes :=
  let t := taskAt s j
  taskBytes j t ++ le 1 (taskCode t.state) ++ le 1 t.cause ++ le 1 t.nextWp ++ le 1 t.session ++ le 4 t.legs
    ++ le 8 (objCsn s okTask j) ++ leTime t.stateTime ++ zb 8

/-- TASK_GET (R355). -/
def opTaskGet (r : Request) (s : State) : State :=
  let p := r.payload
  runOp s r (p.length == 4) (zeros p 2 2) true (edt s 0x0710) fun s =>
  need (decide (fld p 0 2 < 4096)) s r stBadRange fun s => finish s r stOk (taskReply s (fld p 0 2))

def execTaskGet (r : Request) (s : State) : Host.Outcome State Fault Refusal := .next (opTaskGet r s)

/-- An entry of TASK_LIST. -/
def taskEntry (s : State) (j : Nat) : Bytes :=
  let t := taskAt s j
  le 2 j ++ le 1 (taskCode t.state) ++ le 1 t.kind ++ le 1 t.priority ++ le 1 t.session ++ le 1 t.nextWp ++ zb 1 ++ le 8 (objCsn s okTask j)

/-- TASK_LIST (R355). -/
def opTaskList (r : Request) (s : State) : State :=
  let p := r.payload
  runOp s r (p.length == 4) (zeros p 1 3) true (edt s 0x0711) fun s =>
  let sel := (List.range 4096).filter fun j => bit (fld p 0 1) (taskCode (taskAt s j).state)
  let parts := (groups 87 sel.length sel).map fun g => g.flatMap (taskEntry s)
  if parts.length ≤ 1 then finish s r stOk parts.flatten else finishFrags s r parts 16

def execTaskList (r : Request) (s : State) : Host.Outcome State Fault Refusal := .next (opTaskList r s)

/-! ### TASK_CONFIG (R356) -/

/-- TASK_CONFIG as laid out. -/
def taskCfgBytes (c : TaskConfig) : Bytes :=
  le 2 c.contAhead ++ le 2 c.bidsMax ++ le 2 c.keepS ++ le 1 c.confFc ++ le 1 c.posLoss ++ le 1 c.grantMax ++ le 1 c.excludeRounds ++ zb 6

/-- A setting left at 0 is kept. -/
def keepIf0 (x old : Nat) : Nat := if x = 0 then old else x

/-- TASK_CONFIG settings after a command. -/
def taskCfgFrom (p : Bytes) (c : TaskConfig) : TaskConfig :=
  { contAhead := keepIf0 (fld p 0 2) c.contAhead, bidsMax := keepIf0 (fld p 2 2) c.bidsMax, keepS := keepIf0 (fld p 4 2) c.keepS
    confFc := keepIf0 (fld p 6 1) c.confFc, posLoss := keepIf0 (fld p 7 1) c.posLoss, grantMax := keepIf0 (fld p 8 1) c.grantMax
    excludeRounds := keepIf0 (fld p 9 1) c.excludeRounds }

/-- Ranges of TASK_CONFIG. -/
def taskCfgOk (c : TaskConfig) : Bool :=
  let within (x lo hi : Nat) : Bool := decide (lo ≤ x) && decide (x ≤ hi)
  within c.contAhead 20 400 && within c.bidsMax 256 8192 && within c.keepS 10 3600 && within c.confFc 1 20
    && within c.posLoss 10 200 && within c.grantMax 1 64 && within c.excludeRounds 1 100

/-- TASK_CONFIG (R356). -/
def opTaskConfig (r : Request) (s : State) : State :=
  let p := r.payload
  let read := allZero p
  runOp s r (p.length == 16) (zeros p 10 6) (read || supOk s r) (edtOr s 0x0720 read mCfg) fun s =>
  if read then finish s r stOk (taskCfgBytes s.p.taskCfg) else
  need (taskCfgOk (taskCfgFrom p s.p.taskCfg)) s r stBadRange fun s =>
  change1 s r siteObj (fun s => { s with p.taskCfg := taskCfgFrom p s.p.taskCfg }) fun s => taskCfgBytes s.p.taskCfg

def execTaskConfig (r : Request) (s : State) : Host.Outcome State Fault Refusal := .next (opTaskConfig r s)

/-! ### TASK_DEADLINE and TERMINAL_KEEP (R328) -/

/-- TASK_DEADLINE: in PLAN every OPEN task whose DEADLINE_TIME64 has passed becomes FAILED (R328). -/
def opTaskDeadline (s : State) : State :=
  if !running s || s.clk.window != .plan then s else
  (s.p.tasks.filter fun e => e.2.state == .posted && e.2.deadlineNow != 0 && decide (e.2.deadlineNow ≤ timeAt s 624000 % 2 ^ 64)).foldl
    (fun s e => moveTask s e.1 .failed 7 id) s

def execTaskDeadline (s : State) : Host.Outcome State Fault Refusal := .next (opTaskDeadline s)

/-- TERMINAL_KEEP: in PLAN every task TERMINAL_KEEP_S past its terminal commit becomes FREE (R328). -/
def opTerminalKeep (s : State) : State :=
  if !running s || s.clk.window != .plan then s else
  (s.p.tasks.filter fun e => terminal e.2.state && decide (e.2.stateFc + 100 * s.allot.cfg.keepS ≤ fcNow s)).foldl
    (fun s e => moveTask s e.1 .free 10 id) s

def execTerminalKeep (s : State) : Host.Outcome State Fault Refusal := .next (opTerminalKeep s)

/-- In PLAN of the first FC after STILL every ASSIGNED or ACTIVE task returns to OPEN (R328). -/
def reopenTasks (s : State) : State :=
  if !s.clk.firstFc then s else
  (s.p.tasks.filter fun e => e.2.state == .assigned || e.2.state == .active).foldl (fun s e => moveTask s e.1 .posted 8 id) s

end Sys2Proof.Machine
end

