-- ==== Sys2Proof/Machine/Guard.lean ====
section
/-! DEFINITION. Plan state, protective dwells with their halt chains, and the conformance monitor (R347 to R350), with the
messages and events they send. -/

namespace Sys2Proof.Machine

open Sys2Proof

/-! ### Plans -/

/-- The plan of a robot session. -/
def planAt (s : State) (i : Nat) : Plan := tgetD s.allot.plans i {}

/-- Change the plan of a robot session. -/
def modPlan (s : State) (i : Nat) (f : Plan → Plan) : State := { s with allot.plans := tmod s.allot.plans i {} f }

/-- PLAN_STATE code (R349). -/
def planCode : PlanState → Nat
  | .none => 0 | .parked => 1 | .requested => 2 | .reserved => 3 | .granted => 4 | .halted => 5 | .deferred => 6 | .stopped => 7 | .adrift => 8

/-- The class record a robot is planned with: the one in force for planning (R263). -/
def classOf (s : State) (i : Nat) : ClassRec := tgetD s.allot.classNow (robotRec s i).cls {}

/-- The tables a robot follows, earliest first. -/
def tablesOf (p : Plan) : List Leg := p.before ++ p.leg.toList

/-- The table in force in a slot: the last that has started, else the first. -/
def tableAt (p : Plan) (slot : Nat) : Option Leg :=
  let l := tablesOf p
  match (l.filter fun t => decide (t.start ≤ slot)).getLast? with
  | some t => some t
  | none => l.head?

/-- The cell and heading of a released position. -/
def restPlace (s : State) (i : Nat) : Option (Nat × Nat × Nat) :=
  let x := robotAt s i
  if !x.pos.had then none else (cellOfPoint s x.pos.e x.pos.n).map fun c => (c.1, c.2, headingOf x.heading)

/-! ### Writing a dwell (R348) -/

/-- DWELL keys of a session. -/
def dwellKeys (session : Nat) (cells : List Nat) : List Key := cells.map fun c => { cell := c, kind := kDwell, owner := session }

/-- Reserve a dwell, leaving out cells that another robot's DWELL or a ZONE_LOCK closes, at most `n` times over. -/
def tryDwell : Nat → State → Nat → List Nat → Option (List Nat) × State
  | 0, s, _, _ => (none, s)
  | n + 1, s, session, cells =>
    match reserve s (dwellKeys session cells) with
    | (.done, s) => (some cells, s)
    | (.conflict pos _ _ false, s) => tryDwell n s session (cells.eraseIdx pos)
    | (_, s) => (none, s)

/-- Robots whose granted timed entries meet some cells in a later slot. -/
def metBy (s : State) (session : Nat) (cells : List Nat) : List Nat :=
  (((s.strt.ways.filter fun e => holds e.2 && (eKind e.2 == kPath || eKind e.2 == kClear) && eOwner e.2 != session
      && cells.contains (eCell e.2) && decide (slotNow s < slotOf s e.2)).map fun e => eOwner e.2).eraseDups).filter fun o =>
    (planAt s o).state == .granted

/-- Put a dwell in the place of a robot's DWELL, with its timed entries after a slot removed; the commit is the caller's. The
answer names the robots to halt with it; none where the dwell could not be written. -/
def putDwell (s : State) (session : Nat) (cells : List Nat) (after : Option Nat) : Option (List Nat) × State :=
  let cells := cells.eraseDups
  match tryDwell 65 s session cells with
  | (none, s) => (none, dwellUnwritten s session)
  | (some got, s) =>
    let old := (planAt s session).dwell.filter fun c => !got.contains c
    let s := match after with
      | some t => removeTimed s session fun w => decide (t < slotOf s w)
      | none => s
    let s := removeDwell s session old
    let s := modPlan s session fun p => { p with dwell := got }
    (some (metBy s session got), s)

/-- The one commit of a dwell: on the path reservation where it was written, and on what changes with it. -/
def commitDwell (s : State) (i : Nat) (written : Bool) (more : List (Nat × Nat)) : State :=
  commitAllBy s orgFlt ((if written then [(okPath, i)] else []) ++ more)

/-- B of R348. -/
def brakeSlots (c : ClassRec) : Nat := cdiv (20 * c.vmax) c.dmax

/-- Cells a table covers from slot `lo` to slot `hi`, the rest before its start and at its end among them. -/
def spanCells (g : Grid) (prevEnd : Nat) (lo hi : Nat) (l : Leg) : List Nat :=
  let occ := (l.segs.flatMap (segOcc l.cls g.cellMm)).filter fun o => decide (lo ≤ o.slot) && decide (o.slot ≤ hi)
  (if lo < l.start && prevEnd ≤ hi then restCells g l.cls l.x l.y l.h else [])
    ++ idsOf g (occ.flatMap coveredSet)
    ++ (if l.arrive ≤ hi then legEndCells g l else [])

/-- Cells the tables of a plan cover from slot `lo` to slot `hi`. -/
def tableCells (g : Grid) (lo hi : Nat) : Nat → List Leg → List Nat
  | _, [] => []
  | prev, l :: ls => spanCells g prev lo hi l ++ tableCells g lo hi l.arrive ls

/-- EV_CONFORMANCE, at most one for each robot in an FC (R360). -/
def conformanceEvent (s : State) (i cause dev : Nat) : State :=
  if (planAt s i).evFc == some (fcNow s) then s else
  let s := modPlan s i fun p => { p with evFc := some (fcNow s) }
  raise s 0x8702 .all (le 1 i ++ le 1 cause ++ zb 2 ++ le 4 dev ++ le 4 (planAt s i).planId ++ zb 4)

/-! ### Halts (R348) -/

/-- Remove the timed entries of a leg that is reserved and not granted (R341). -/
def dropNext (s : State) (i : Nat) : State :=
  match (planAt s i).next with
  | none => s
  | some l =>
    modPlan (removeKeys s ((legKeys s.strt.grid i l).filter fun k => !isStanding k.kind)) i fun p => { p with next := none }

/-- Halt one GRANTED robot: the dwell, HALTED, and HALT due in EMIT. A leg reserved to follow is abandoned with it; the leg
itself is kept, its DWELL among it, where R350 says so. The answer names the robots its dwell halts. -/
def haltOne (s : State) (i : Nat) (keepLeg : Bool) : List Nat × State :=
  let p := planAt s i
  if p.state != .granted || p.haltedFc == some (fcNow s) then ([], s) else
  let c := ((tableAt p (slotNow s)).map (·.cls)).getD (classOf s i)
  let hi := slotNow s + 4 + brakeSlots c
  let cells := tableCells s.strt.grid (slotNow s - 1) hi 0 (tablesOf p) ++ (if keepLeg then p.dwell else [])
  let (met, s) := putDwell (dropNext s i) i cells (if keepLeg then none else some hi)
  let s := modPlan s i fun p => { p with
    state := .halted
    before := []
    exceed := 0
    posLost := 0
    haltSlot := slotNow s
    haltedFc := some (fcNow s)
    restAt := some (slotNow s + 10 + brakeSlots c)
    haltOut := true
    tableOut := false
    doneSlot := none }
  let s := modRobot s i fun x => { x with still2 := 0 }
  let s : State := { s with allot.stats.halts := sat 16 (s.allot.stats.halts + 1) }
  (met.getD [], commitDwell s i met.isSome [(okRobot, i)])

/-- Halt robots and those whose entries their dwells meet, each at most once in an FC. -/
def haltChain : Nat → State → List Nat → State
  | 0, s, _ => s
  | _ + 1, s, [] => s
  | n + 1, s, i :: is =>
    let was := (planAt s i).state
    let (met, s) := haltOne s i false
    let s := if was == .granted then conformanceEvent s i 4 0 else s
    haltChain n s (is ++ met)

/-- More halts than a chain can make. -/
def chainFuel : Nat := 65536

/-- Halt a robot with the cause EV_CONFORMANCE reports, if any, and the chain that follows. -/
def haltRobot (s : State) (i : Nat) (cause : Option Nat) (dev : Nat) (keepLeg : Bool) : State :=
  if (planAt s i).state != .granted || (planAt s i).haltedFc == some (fcNow s) then s else
  let (met, s) := haltOne s i keepLeg
  let s := match cause with
    | some c => conformanceEvent s i c dev
    | none => s
  haltChain chainFuel s met

/-- Write a rest dwell at a place, every later timed entry of the robot removed, and halt whom it meets. -/
def putRest (s : State) (i x y h : Nat) (more : List (Nat × Nat)) : State :=
  let (met, s) := putDwell s i (restCells s.strt.grid (classOf s i) x y h) (some (slotNow s))
  haltChain chainFuel (commitDwell s i met.isSome more) (met.getD [])

/-- Give a robot's task back (R328). -/
def loseTask (s : State) (i cause : Nat) : State :=
  match (planAt s i).task with
  | none => s
  | some j =>
    let s := modPlan s i fun p => { p with task := none, doneSlot := none }
    match (taskAt s j).state with
    | .active => moveTask s j .posted cause id
    | .assigned => moveTask s j .posted 9 id
    | _ => s

/-- Beyond the hard limit, or the position lost: a stop is requested, a rest dwell written, and the task given back (R347). -/
def stopHard (s : State) (i cause dev : Nat) : State :=
  let s := requestRobotStop s i cause
  let s := modPlan s i fun p => { p with
    state := .stopped
    exceed := 0
    posLost := 0
    restAt := none
    before := []
    next := none
    tableOut := false
    haltedFc := some (fcNow s) }
  let (met, s) := match restPlace s i with
    | some (x, y, h) => putDwell s i (restCells s.strt.grid (classOf s i) x y h) (some (slotNow s))
    | none => (none, s)
  let s := conformanceEvent (commitDwell s i met.isSome [(okRobot, i)]) i cause dev
  haltChain chainFuel (loseTask s i 8) (met.getD [])

/-! ### Conformance (R347) -/

/-- µs of a time after a table's BASE_TIME64. -/
def usAfter (base time : Nat) : ℚ := (toSigned 64 ((time + 2 ^ 64 - base % 2 ^ 64) % 2 ^ 64) : ℚ) * 1000000 / ftuPerSec

/-- The table's position at a time. -/
def tablePos (g : Grid) (l : Leg) (time : Nat) : Int × Int := knotPos (usAfter l.baseTime time) (legKnots g l)

/-- The table moves in the slot. -/
def tableMoves (p : Plan) (slot : Nat) : Bool :=
  (tablesOf p).any fun l => l.segs.any fun g => g.kind != .wait && decide (g.slot ≤ slot) && decide (slot < g.slot + g.slots)

/-- One robot's check. -/
def checkRobot (s : State) (i : Nat) : State :=
  let p := planAt s i
  let x := robotAt s i
  match tableAt p (slotNow s) with
  | none => s
  | some l =>
    if p.state != .granted || x.pos.fc != fcNow s then s
    else if !x.pos.valid then
      let n := if tableMoves p (slotNow s) then p.posLost + 1 else 0
      let s := modPlan s i fun p => { p with posLost := n }
      if s.allot.cfg.posLoss ≤ n then stopHard s i 3 0 else s
    else
      let (e, n) := tablePos s.strt.grid l x.pos.time
      let d2 := (x.pos.e - e) ^ 2 + (x.pos.n - n) ^ 2
      let dev := sqrtNear d2
      let s := modPlan s i fun p => { p with posLost := 0, confOk := decide (d2 ≤ ((l.cls.tol ^ 2 : Nat) : Int)) }
      if d2 ≤ ((l.cls.tol ^ 2 : Nat) : Int) then modPlan s i fun p => { p with exceed := 0 }
      else if ((l.cls.hard ^ 2 : Nat) : Int) < d2 then stopHard s i 2 dev
      else
        let s := modPlan s i fun p => { p with exceed := p.exceed + 1 }
        if s.allot.cfg.confFc ≤ p.exceed + 1 then haltRobot s i (some 1) dev false else s

/-- The sessions with a plan, in index order. -/
def planned (s : State) : List Nat := s.allot.plans.map (·.1)

/-- The modes in which conformance is checked (R350). -/
def conformanceModes : List Mode := [.breeze, .drift, .squall, .lull, .calm, .fog]

/-- Conformance of every robot, first in PLAN. -/
def conformance (s : State) : State := if conformanceModes.contains (fleetMode s) && !posFrozen s then (planned s).foldl checkRobot s else s

/-! ### Dwells that fall due (R348) -/

/-- The rest dwell of a robot that was halted or heard again. -/
def restDue (s : State) (i : Nat) : State :=
  let p := planAt s i
  let x := robotAt s i
  match p.restAt, restPlace s i with
  | some t, some (cx, cy, h) =>
    if x.pos.valid && (decide (t ≤ slotNow s) || decide (2 ≤ x.still2)) then
      putRest (modPlan s i fun p => { p with restAt := none }) i cx cy h []
    else s
  | _, _ => s

/-- The initial dwell of a robot ASSOCIATED with a valid position and no reservation. -/
def initialDue (s : State) (i : Nat) : State :=
  if (robotRec s i).sstate != .associated || (planAt s i).state != .none || !(robotAt s i).pos.valid || s.strt.grid.cellMm = 0 then s else
  match restPlace s i with
  | none => s
  | some (x, y, h) => modPlan (putRest s i x y h [(okRobot, i)]) i fun p => { p with state := .parked }

/-- A robot that has become ADRIFT: the dwell over its table to the leg end, where it has a table it follows or has ended; its task
is given back (R281, R328, R348). -/
def adriftDue (s : State) (i : Nat) : State :=
  let p := planAt s i
  if (robotRec s i).sstate != .adrift || p.state == .none || p.state == .adrift then s else
  let adrift : State → State := fun s => modPlan s i fun p => { p with state := .adrift, restAt := none, exceed := 0, posLost := 0 }
  if (tablesOf p).isEmpty || p.state == .halted || p.state == .stopped then loseTask (adrift s) i 8 else
  let hi := (((tablesOf p).getLast?).map (·.arrive)).getD 0
  let (met, s) := putDwell s i (tableCells s.strt.grid (slotNow s - 1) (max hi (slotNow s)) 0 (tablesOf p) ++ p.dwell) none
  loseTask (haltChain chainFuel (commitDwell (adrift s) i met.isSome [(okRobot, i)]) (met.getD [])) i 8

/-- A robot heard again after it was ADRIFT: HALTED, its rest dwell due at once. -/
def heardDue (s : State) (i : Nat) : State :=
  if (robotRec s i).sstate != .associated || (planAt s i).state != .adrift then s else
  modPlan s i fun p => { p with state := .halted, before := [], haltSlot := slotNow s, restAt := some (slotNow s) }

/-- A STOPPED robot whose stop has been released is HALTED (R347). -/
def stopReleased (s : State) (i : Nat) : State :=
  let p := planAt s i
  if p.state == .stopped && p.haltedFc != some (fcNow s) && !(robotStops s).getLsbD i then
    modPlan s i fun p => { p with state := .halted, haltSlot := slotNow s, restAt := some (slotNow s) }
  else s

/-- The dwells of PLAN for every session. -/
def dwellsDue (s : State) : State :=
  let every (s : State) (f : State → Nat → State) : State := ((s.p.robots.map (·.1))).foldl f s
  every (every (every (every (every s adriftDue) heardDue) stopReleased) restDue) initialDue

/-- The halts of the first PLAN of SQUALL, LULL, CALM and FOG, and those TASK_CANCEL asks for. -/
def modeHalts (s : State) : State :=
  let quiet := inModes s quietModes && s.allot.haltsDue
  let s : State := { s with allot.haltsDue := false }
  (planned s).foldl (fun s i =>
    let p := planAt s i
    let s := if p.haltReq then modPlan s i fun p => { p with haltReq := false } else s
    if quiet || p.haltReq then haltRobot s i none 0 false else s) s

/-- A reference cell of a leg after a slot lies outside TDoA coverage (R350). -/
def leavesCover (s : State) (l : Leg) (slot : Nat) : Bool :=
  (l.segs.flatMap (segOcc l.cls s.strt.grid.cellMm)).any fun o => decide (slot < o.slot) && o.refs.any fun c =>
    let (e, n) := centreOf s.strt.grid c.1.toNat c.2.toNat
    !inCoverage s e n

/-- The first round of DRIFT halts robots positioned by RTK, or whose table leaves coverage. -/
def driftHalts (s : State) : State :=
  if fleetMode s != .drift || s.allot.driftSwept then s else
  let s : State := { s with allot.driftSwept := true }
  (planned s).foldl (fun s i =>
    let p := planAt s i
    if p.state == .granted && ((robotAt s i).pos.source == 2 || (tablesOf p).any fun l => leavesCover s l (slotNow s)) then
      haltRobot s i (some 5) 0 true
    else s) s

/-! ### Messages (R343, R346) -/

/-- Queue a message to one robot as fragments (R212). -/
def queueRobotFragments (s : State) (session : Nat) (p : Bytes) : State :=
  let frags := airFragments s.ref.msgSeq s.p.refCfg.fragBytes p
  { s with
    ref.msgSeq := (s.ref.msgSeq + 1) % 256
    radio.elements := s.radio.elements ++ frags.map fun b =>
      { cls := 2, session := some session, kind := 1, body := b, frag := true, fc := fcNow s, commitFc := fcNow s } }

/-- One knot of a segment table. -/
def knotBytes (k : Knot) : Bytes := le 4 k.t ++ leI 4 k.e ++ leI 4 k.n ++ leI 2 k.ve ++ leI 2 k.vn ++ le 2 k.cdeg ++ zb 2

/-- The knots of a table: a leg without motion ends in a second knot at its arrival. -/
def tableKnots (g : Grid) (l : Leg) : List Knot :=
  match legKnots g l with
  | [k] => [k, { k with t := (l.arrive - l.start) * 50000 }]
  | ks => ks

/-- A segment-table message. -/
def tableMessage (s : State) (i : Nat) (l : Leg) : Bytes :=
  let ks := tableKnots s.strt.grid l
  let t := (l.task.map (taskAt s)).getD {}
  le 1 0x22 ++ le 1 ks.length ++ le 2 (robotAt s i).shortAddr ++ le 4 l.planId ++ le 8 l.baseTime
    ++ le 2 (l.task.getD 0xFFFF) ++ le 1 t.kind ++ le 1 l.wp ++ le 1 l.flags ++ zb 3 ++ ks.flatMap knotBytes

/-- HALT, segment tables and PLAN_STATUS of one robot; the last two leave in EMIT of the FC after a round, a table not during
the freeze of an activation (R518). -/
def emitPlan (s : State) (i : Nat) : State :=
  let p := planAt s i
  let s := if p.haltOut then
      queueMsg s 1 (some i) (le 1 0x24 ++ zb 3 ++ le 4 p.planId ++ le 8 ((fcNow s + 1) * ftuPerFc)) else s
  let due := fcNow s % 10 == 0
  let tableDue := due && !freeze s
  let s := match p.leg with
    | some l => if tableDue && p.tableOut then queueRobotFragments s i (tableMessage s i l) else s
    | none => s
  let s := match p.statusOut with
    | some (st, q, r) => if due then queueMsg s 2 (some i) (le 1 0x23 ++ le 1 st ++ le 2 q ++ le 4 p.planId ++ le 8 r) else s
    | none => s
  modPlan s i fun p => { p with
    haltOut := false
    tableOut := p.tableOut && !tableDue
    statusOut := if due then none else p.statusOut }

/-- The plan messages of EMIT. -/
def emitPlans (s : State) : State :=
  ((s.allot.plans.filter fun e => e.2.haltOut || e.2.tableOut || e.2.statusOut.isSome).map (·.1)).foldl emitPlan s

end Sys2Proof.Machine
end

