-- ==== Sys2Proof/Machine/Allot.lean ====
section
/-! DEFINITION. Allotment rounds: requests, the auction, searches, reserves and grants; leg ends; TASK_CANCEL and the PATH
opcodes (R328, R336 to R342, R346, R350, R351, R354, R357 to R360). -/

namespace Sys2Proof.Machine

open Sys2Proof

/-! ### Requests -/

/-- Change a request of the round by its position. -/
def modReq (s : State) (i : Nat) (f : PathReq → PathReq) : State := { s with allot.reqs := lmod s.allot.reqs i f }

/-- First slot of the legs of round r (R338). -/
def roundSlot (r : Nat) : Nat := (10 * r + 10) / 5

/-- A robot that may be given a leg: ASSOCIATED, its class defined, no LOST hold left standing (R266, R339, R340). -/
def mayServe (s : State) (i : Nat) : Bool :=
  let x := robotRec s i
  x.sstate == .associated && bit (classOf s i).flags 0 && !x.lostHold
    && (fleetMode s != .drift || (robotAt s i).pos.source == 1 || (robotAt s i).pos.source == 3)

/-- Where a robot at rest stands, its released position valid. -/
def standing (s : State) (i : Nat) : Option (Nat × Nat × Nat) :=
  if (robotAt s i).pos.valid then restPlace s i else none

/-- The direction of the line of the stage that ends at a waypoint, if it is FOLLOW (R327, R333). -/
def stageLine (t : Task) (wp : Nat) : Option (Int × Int) :=
  match wp with
  | 0 => none
  | w + 1 =>
    match t.wps[w]?, t.wps[w + 1]? with
    | some a, some b => if followWp a then some (sgnI ((b.x : Int) - a.x), sgnI ((b.y : Int) - a.y)) else none
    | _, _ => none

/-- A request to a waypoint of a task. -/
def toWaypoint (q : PathReq) (j wp : Nat) (t : Task) : Option PathReq :=
  (t.wps[wp]?).map fun w =>
    { q with task := some j, target := some wp, goal := (w.x, w.y, w.heading), follow := stageLine t wp }

/-- The ACTIVE task a robot holds. -/
def activeTask (s : State) (i : Nat) : Option (Nat × Task) :=
  match (planAt s i).task with
  | none => none
  | some j => if (taskAt s j).state == .active then some (j, taskAt s j) else none

/-- The rank 1 request of a HALTED robot: to its waypoint, else to the goal of the leg it was halted on, else to where it
stands. -/
def haltedReq (s : State) (g i : Nat) : PathReq :=
  let p := planAt s i
  let q : PathReq := { rank := 1, session := i, under := .halted, origin := standing s i, start := g, moveFrom := g + 1 }
  match activeTask s i with
  | some (j, t) => (toWaypoint q j t.nextWp t).getD q
  | none => { q with goal := match p.leg with | some l => l.goal | none => ((standing s i).map fun c => (c.1, c.2.1, 0xFF)).getD (0, 0, 0xFF) }

/-- The rank 2 request of a continuation, where one is due. -/
def continueReq (s : State) (g i : Nat) : Option PathReq :=
  let p := planAt s i
  match activeTask s i, (tablesOf p).getLast? with
  | some (j, t), some l =>
    let dwell := if l.wp = 0xFF then 0 else 20 * ((t.wps[l.wp]?).map (·.dwellS)).getD 0
    let wp := if p.state == .granted then (if l.wp = 0xFF then l.target.getD t.nextWp else l.wp + 1) else t.nextWp
    let q : PathReq :=
      { rank := 2, session := i, under := if p.state == .granted then .granted else .parked, origin := some (l.endX, l.endY, l.endH)
        start := max g (l.arrive + dwell), moveFrom := g + 1 }
    if l.arrive ≤ g + s.allot.cfg.contAhead then toWaypoint q j wp t else none
  | _, _ => none

/-- The rank 3 request of a PATH_REQUEST. -/
def hostReq (s : State) (g : Nat) (r : Request) : PathReq :=
  let p := r.payload
  let i := fld p 0 1
  { rank := 3, session := i, under := .parked, origin := standing s i, start := g, moveFrom := g + 1
    goal := (fld p 4 2, fld p 6 2, if bit (fld p 1 1) 0 then fld p 2 1 else 0xFF), host := some r }

/-! ### The auction (R339) -/

/-- OPEN tasks the auction considers. -/
def auctionTasks (s : State) : List (Nat × Task) :=
  let now := timeAt s 624000 % 2 ^ 64
  let l := s.p.tasks.filter fun e => e.2.state == .posted && decide (e.2.notBefore ≤ now)
  let before (a b : Nat × Task) : Bool :=
    if a.2.priority != b.2.priority then decide (b.2.priority < a.2.priority)
    else if a.2.notBefore != b.2.notBefore then decide (a.2.notBefore < b.2.notBefore)
    else decide (a.1 ≤ b.1)
  (sortBy before l).take 256

/-- The benefit a(i, j), where it is defined. -/
def benefit (s : State) (i : Nat) (e : Nat × Task) : Option ℚ :=
  let c := classOf s i
  match standing s i, e.2.wps[e.2.nextWp]? with
  | some (x, y, _), some w =>
    let oct : ℚ := s.strt.grid.cellMm * octile6 ((w.x : Int) - x) ((w.y : Int) - y) / 1000000
    let a : ℚ := e.2.valueMs + 1000 * e.2.priority - 1000 * oct / c.vmax
    let r := fcNow s / 10
    let out := s.allot.excluded.any fun q => q.1 == i && q.2.1 == e.1 && decide (r ≤ q.2.2)
    if bit e.2.classMask (robotRec s i).cls && decide (0 ≤ a) && !out then some a else none
  | _, _ => none

/-- A bid list: task, benefit. -/
abbrev Bids := List (Nat × ℚ)

/-- The 16 tasks of greatest benefit of a robot. -/
def bidsOf (s : State) (tasks : List (Nat × Task)) (i : Nat) : Bids :=
  let l := tasks.filterMap fun e => (benefit s i e).map fun a => (e.1, a)
  let before (a b : Nat × ℚ) : Bool := if a.2 = b.2 then decide (a.1 ≤ b.1) else decide (b.2 < a.2)
  (sortBy before l).take 16

/-- Prices and owners of an auction in progress. -/
structure Auction where
  price : Tbl ℚ := []
  owner : Tbl Nat := []
  bids : Nat := 0
deriving DecidableEq, Repr

/-- The values of a robot's tasks at the prices, best first. -/
def valued (a : Auction) (l : Bids) : Bids :=
  let v := l.map fun e => (e.1, e.2 - tgetD a.price e.1 0)
  sortBy (fun x y => if x.2 = y.2 then decide (x.1 ≤ y.1) else decide (y.2 < x.2)) v

/-- The auction loop. -/
def auctionLoop (bids : Nat → Bids) (maxBids : Nat) : Nat → List Nat → Auction → Auction
  | 0, _, a => a
  | _ + 1, [], a => a
  | n + 1, i :: queue, a =>
    if maxBids ≤ a.bids then a else
    match valued a (bids i) with
    | [] => auctionLoop bids maxBids n queue a
    | (j, w1) :: rest =>
      if w1 < 0 then auctionLoop bids maxBids n queue a else
      let w2 : ℚ := max 0 ((rest.head?.map (·.2)).getD 0)
      let queue := queue ++ (tget a.owner j).toList
      auctionLoop bids maxBids n queue
        { price := tput a.price j (tgetD a.price j 0 + (w1 - w2) + 1), owner := tput a.owner j i, bids := a.bids + 1 }

/-- The robots of the auction. -/
def bidders (s : State) (busy : List Nat) : List Nat :=
  (s.p.robots.map (·.1)).filter fun i =>
    mayServe s i && (planAt s i).state == .parked && (planAt s i).task.isNone && (standing s i).isSome && !busy.contains i

/-- The auction of a round: pairs (robot, task) with their benefit, and the bids made. -/
def auction (s : State) (busy : List Nat) : List (Nat × Nat × ℚ) × Nat :=
  let tasks := auctionTasks s
  let who := bidders s busy
  let table := who.map fun i => (i, bidsOf s tasks i)
  let bids (i : Nat) : Bids := (table.find? (·.1 == i)).map (·.2) |>.getD []
  let a := auctionLoop bids s.allot.cfg.bidsMax (2 * s.allot.cfg.bidsMax + 512) who {}
  (a.owner.map fun e => (e.2, e.1, ((bids e.2).find? (·.1 == e.1)).map (·.2) |>.getD 0), a.bids)

/-! ### Opening a round (R338 to R340) -/

/-- PRIORITY of a request's task. -/
def reqPriority (s : State) (q : PathReq) : Nat := (q.task.map fun j => (taskAt s j).priority).getD 0

/-- The order within rank 1. -/
def haltedBefore (s : State) (a b : PathReq) : Bool :=
  let pa := reqPriority s a
  let pb := reqPriority s b
  let ha := (planAt s a.session).haltSlot
  let hb := (planAt s b.session).haltSlot
  if pa != pb then decide (pb < pa) else if ha != hb then decide (ha < hb) else decide (a.session ≤ b.session)

/-- The order within rank 2. -/
def continueBefore (s : State) (a b : PathReq) : Bool :=
  let arr (q : PathReq) : Nat := (((tablesOf (planAt s q.session)).getLast?).map (·.arrive)).getD 0
  let pa := reqPriority s a
  let pb := reqPriority s b
  if pa != pb then decide (pb < pa) else if arr a != arr b then decide (arr a < arr b) else decide (a.session ≤ b.session)

/-- Requests carried come first within their rank, in their earlier order. -/
def carriedFirst (old : List PathReq) (new : List PathReq) : List PathReq :=
  (old.filterMap fun q => new.find? fun x => x.session == q.session)
    ++ new.filter fun x => !(old.any fun q => q.session == x.session)

/-- One request for each robot: the first stands. -/
def onePerRobot : List PathReq → List PathReq → List PathReq
  | acc, [] => acc
  | acc, q :: qs => onePerRobot (if acc.any fun x => x.session == q.session then acc else acc ++ [q]) qs

/-- The requests of a round in rank order, and the bids of its auction. -/
def roundRequests (s : State) (r : Nat) : List PathReq × Nat :=
  let g := roundSlot r
  let robots := s.p.robots.map (·.1)
  let halt := (robots.filter fun i => mayServe s i && ((planAt s i).state == .halted
    || ((planAt s i).state == .deferred && s.allot.carried.any fun q => q.session == i && q.rank == 1))).map (haltedReq s g)
  let cont := (robots.filter fun i => mayServe s i && ((planAt s i).state == .granted || (planAt s i).state == .parked
    || ((planAt s i).state == .deferred && s.allot.carried.any fun q => q.session == i && q.rank == 2))).filterMap (continueReq s g)
  let old (k : Nat) : List PathReq := s.allot.carried.filter (·.rank == k)
  let ranked := carriedFirst (old 1) (sortBy (haltedBefore s) halt) ++ carriedFirst (old 2) (sortBy (continueBefore s) cont)
    ++ s.allot.pathReqs.map (hostReq s g)
  let (pairs, bids) := auction s (ranked.map (·.session))
  let before (a b : Nat × Nat × ℚ) : Bool :=
    let pa := (taskAt s a.2.1).priority
    let pb := (taskAt s b.2.1).priority
    if pa != pb then decide (pb < pa) else if a.2.2 = b.2.2 then decide (a.1 ≤ b.1) else decide (b.2.2 < a.2.2)
  let fresh := (sortBy before pairs).filterMap fun e =>
    toWaypoint { rank := 4, session := e.1, under := .parked, origin := standing s e.1, start := g, moveFrom := g + 1 }
      e.2.1 (taskAt s e.2.1).nextWp (taskAt s e.2.1)
  (onePerRobot [] (ranked ++ fresh), bids)

/-- A request as the round takes it up: within the limit it is queued, where it has a place to start from. -/
def entered (limit : Nat) (q : PathReq) (pos : Nat) : PathReq :=
  if limit ≤ pos then { q with stage := .carried, queuePos := some (pos - limit + 1) }
  else if q.origin.isNone then { q with stage := .carried } else q

/-- Queue a request to LEADLIGHT. One that finds the queue full is an overrun, and ends the round as a search does that was
not complete (R94, R337). -/
def queueReq (s : State) (q : PathReq) : State :=
  if q.stage != .queued then { s with allot.reqs := s.allot.reqs ++ [q] } else
  match admitFrame s 0x41 false with
  | (true, s) => { s with allot.reqs := s.allot.reqs ++ [q] }
  | (false, s) => { s with allot.reqs := s.allot.reqs ++ [{ q with stage := .carried, result := some { code := .abandoned } }] }

/-- Open round r. -/
def openRound (s : State) (r : Nat) : State :=
  let s := driftHalts s
  let s : State := { s with allot.excluded := s.allot.excluded.filter fun q => decide (r ≤ q.2.2) }
  let (reqs, bids) := roundRequests s r
  let limit := min s.allot.cfg.grantMax 64
  let reqs := reqs.zipIdx.map fun e => entered limit e.1 e.2
  let s := reqs.foldl queueReq { s with allot.round := some r, allot.reqs := [] }
  let reqs := s.allot.reqs
  let s : State := { s with
    allot.carried := s.allot.carried.filter fun q => !(reqs.any fun x => x.session == q.session)
    allot.pathReqs := []
    allot.stats := { s.allot.stats with round := r, requests := reqs.length, bids := sat 16 bids } }
  reqs.foldl (fun s q =>
    if q.under == .granted then s
    else modPlan s q.session fun p => { p with state := if q.stage == .carried then .deferred else .requested }) s

/-- ALLOTMENT_ROUND (R338): in PLAN of FC 10r. -/
def opAllotmentRound (s : State) : State :=
  let r := fcNow s / 10
  if s.clk.window != .plan || fcNow s % 10 != 0 || !isGo (fleetMode s) || s.strt.grid.cellMm = 0 || s.allot.round == some r then s
  else noteQueue (openRound s r) 0x41

def execAllotmentRound (s : State) : Host.Outcome State Fault Refusal := .next (opAllotmentRound s)

/-! ### Searches (R336, R337) -/

/-- The FCs of a round so far, while one is open. -/
def roundAge (s : State) : Option Nat := s.allot.round.map fun r => fcNow s - 10 * r

/-- The units that search. -/
def busyUnits (s : State) : List Nat := (s.allot.reqs.filter (·.stage == .searching)).map (·.unit)

/-- LEADLIGHT_REQUEST (R336): the lowest-numbered free unit takes the next request of the queue. -/
def opLeadlightRequest (s : State) : State :=
  if s.clk.window != .plan || !isGo (fleetMode s) then s else
  match roundAge s, (List.range 4).find? (fun u => !(busyUnits s).contains u),
      s.allot.reqs.findIdx? (fun q => q.stage == .queued && decide (q.fromFc ≤ fcNow s)) with
  | some age, some u, some i => if 8 < age then s else noteQueue (modReq s i fun q => { q with stage := .searching, unit := u }) 0x41
  | _, _, _ => s

def execLeadlightRequest (s : State) : Host.Outcome State Fault Refusal := .next (opLeadlightRequest s)

/-- The later of the next FC's slot and the arrival of the leg before (R332). -/
def holdSlot (s : State) (q : PathReq) (fc : Nat) : Nat :=
  let prev := if q.rank = 2 then (((tablesOf (planAt s q.session)).getLast?).map (·.arrive)).getD 0 else 0
  max (fc / 5) prev

/-- What the search of a request works with. -/
def searchCtx (s : State) (q : PathReq) : SCtx :=
  let c := classOf s q.session
  { g := s.strt.grid, c := c, session := q.session, start := q.start, moveFrom := q.moveFrom, goal := q.goal, follow := q.follow
    avoid := q.avoid.take 16, ways := s.strt.ways, limits := runLimits c s.strt.grid.cellMm
    covered := fun p => fleetMode s != .drift || (let (e, n) := centreOf s.strt.grid p.1.toNat p.2.toNat; inCoverage s e n) }

/-- Exclude an auction pair for EXCLUDE_ROUNDS rounds (R339). -/
def excludePair (s : State) (q : PathReq) : State :=
  match q.rank == 4, q.task, s.allot.round with
  | true, some j, some r => { s with allot.excluded := s.allot.excluded ++ [(q.session, j, r + s.allot.cfg.excludeRounds)] }
  | _, _, _ => s

/-- Enter the result of a search. -/
def enterResult (s : State) (i : Nat) (q : PathReq) (res : SearchResult) (tclk : Nat) : State :=
  let s : State := { s with
    allot.stats.nodes := sat 32 (s.allot.stats.nodes + res.nodes)
    allot.stats.probes := sat 32 (s.allot.stats.probes + res.probes)
    allot.stats.maxTclk := max s.allot.stats.maxTclk (sat 32 tclk)
    allot.stats.budget := s.allot.stats.budget + (if res.code == .partialPath then 1 else 0) }
  let s := modReq s i fun q => { q with result := some res, doneFc := fcNow s, stage := if res.code == .noPath then .failed else .found }
  if res.code == .noPath then excludePair s q else s

/-- SEARCH_RESULT (R337): the search of a unit ends; after PLAN of FC 10r + 8 it is ABANDONED. -/
def opSearchResult (unit tclk : Nat) (s : State) : State :=
  match roundAge s, s.allot.reqs.findIdx? (fun q => q.stage == .searching && q.unit == unit) with
  | some age, some i =>
    let q := s.allot.reqs.getD i {}
    if 8 < age || (age == 8 && s.clk.window != .plan) then
      modReq s i fun q => { q with stage := .carried, result := some { code := .abandoned } }
    else if s.clk.window != .plan then s
    else match q.origin with
      | none => modReq s i fun q => { q with stage := .carried }
      | some (x, y, h) => enterResult s i q (search (searchCtx s q) (holdSlot s q (fcNow s + 1)) x y h) tclk
  | _, _ => s

def execSearchResult (unit tclk : Nat) (s : State) : Host.Outcome State Fault Refusal :=
  if unit < 4 then .next (opSearchResult unit tclk s) else .fault .noSuchUnit

/-! ### Reserves (R341) -/

/-- The leg a finished search gives. -/
def legFrom (s : State) (q : PathReq) (res : SearchResult) : Leg :=
  let (x, y, h) := q.origin.getD (0, 0, 0)
  let t := (q.task.map (taskAt s)).getD {}
  let atEnd := res.code == .found
  let tool := match q.target with
    | some (w + 1) => bit ((t.wps[w]?).map (·.flags) |>.getD 0) 1
    | _ => false
  let last := atEnd && q.target.isSome && decide ((q.target.getD 0) + 1 = t.wps.length)
  { cls := classOf s q.session, segs := res.segs, start := q.start, holdFrom := min q.start (holdSlot s q (fcNow s)), arrive := res.arrive
    x := x, y := y, h := h, endX := res.x, endY := res.y, endH := res.h, task := q.task
    wp := if atEnd then q.target.getD 0xFF else 0xFF, flags := bitsOf [tool, last], baseTime := 5 * q.start * ftuPerFc
    target := q.target, goal := q.goal }

/-- Another owner holds a timed entry in some cells from a slot on. -/
def scanHits (s : State) (session : Nat) (cells : List Nat) (fromSlot : Nat) : Bool :=
  s.strt.ways.any fun e => holds e.2 && !isStanding (eKind e.2) && !(isRobotKind (eKind e.2) && eOwner e.2 == session)
    && cells.contains (eCell e.2) && decide (fromSlot ≤ slotOf s e.2)

/-- TCLK of a reserve without contention and relocation (R306). -/
def reserveCost (keys : List Key) : Nat := (keys.map fun k => if isStanding k.kind then 4 else 5).sum + 7

/-- The request can still be reserved: its robot, task and command stand. -/
def stillWanted (s : State) (q : PathReq) : Bool :=
  let p := planAt s q.session
  (robotRec s q.session).sstate == .associated
    && (if q.under == .granted then p.state == .granted || p.state == .parked else p.state == .requested)
    && (q.rank != 4 || (q.task.map fun j => (taskAt s j).state == .posted).getD false)
    && (q.rank != 2 || (activeTask s q.session).isSome)

/-- The commit of a path reservation, under the PATH_REQUEST it serves where there is one. -/
def commitPath (s : State) (q : PathReq) (kind : Nat) : State :=
  match q.host with
  | some r => record (commit { s with com.cmdCommits := 0 } kind q.session) r false intNone 0 2
  | none => commitBy s orgFlt kind q.session

/-- A reserve that met a conflict (R341 step 3). -/
def reserveConflict (s : State) (i : Nat) (q : PathReq) (k : Key) (w : BitVec 64) : State :=
  let again := decide (q.tries < 2) && (match roundAge s with | some a => decide (a + 1 ≤ 8) | none => false)
  let s : State := { s with allot.stats.conflicts := sat 16 (s.allot.stats.conflicts + 1) }
  let s := modReq s i fun q => { q with
    avoid := q.avoid ++ [(k.cell, k.slot, isStanding (eKind w))]
    fails := q.fails + 1
    tries := if again then q.tries + 1 else q.tries
    fromFc := fcNow s + 1
    stage := if again then .queued else .carried }
  if 2 ≤ q.fails + 1 then excludePair s q else s

/-- A leg has been reserved (R341 step 4). -/
def reserveDone (s : State) (i : Nat) (q : PathReq) (l : Leg) : State :=
  let ends := legEndCells s.strt.grid l
  let s := removeDwell s q.session ((planAt s q.session).dwell.filter fun c => !ends.contains c)
  let s := commitPath s q okPath
  let s := modReq s i fun q => { q with stage := .reserved, reserveCsn := s.com.csn }
  let s := modPlan s q.session fun p => { p with
    dwell := ends
    next := some l
    task := if q.rank = 4 then q.task else p.task
    state := if q.under == .granted then p.state else .reserved }
  match q.rank == 4, q.task with
  | true, some j => moveTask s j .assigned 2 fun t => { t with session := q.session }
  | _, _ => s

/-- Reserve the leg of one finished search; `spent` is the TCLK of the PLAN so far. A leg beyond the budget waits. -/
def reserveOne (s : State) (spent i : Nat) : Option Nat × State :=
  let q := s.allot.reqs.getD i {}
  let l := legFrom s q (q.result.getD {})
  if !stillWanted s q then (some spent, modReq s i fun q => { q with stage := .dropped })
  else if scanHits s q.session (legEndCells s.strt.grid l) l.arrive then (some spent, modReq s i fun q => { q with stage := .carried })
  else
    let keys := legKeys s.strt.grid q.session l
    let cost := reserveCost keys
    if 600000 < spent + cost then (none, s) else
    match q.host, (q.host.bind (·.expect)).bind fun e => changedSince s e [(okPath, q.session)] with
    | some r, some o =>
      let s := modReq s i fun q => { q with stage := .dropped, host := none }
      let s := modPlan s q.session fun p => { p with state := q.under }
      (some spent, finishI { s with com.cmdCommits := 0 } r intCsn stCsnMismatch (mismatchPayload s o))
    | _, _ =>
      match reserve s keys with
      | (.done, s) => (some (spent + cost), reserveDone s i q l)
      | (.conflict pos _ w _, s) =>
        (some (spent + cost), reserveConflict s i q (keys.getD pos { cell := 0, kind := 0, owner := 0 }) w)
      | (_, s) =>
        let s := if 2 ≤ q.fails + 1 then excludePair s q else s
        (some (spent + cost), modReq s i fun q => { q with stage := .carried, fails := q.fails + 1 })

/-- Reserve finished searches in rank order until the budget is spent. -/
def reserveAll : State → Nat → List Nat → State
  | s, _, [] => s
  | s, spent, i :: is =>
    match reserveOne s spent i with
    | (none, s) => s
    | (some n, s) => reserveAll s n is

/-- LEG_RESERVE (R341): once in PLAN of each FC from 10r + 2 to 10r + 9. -/
def opLegReserve (s : State) : State :=
  match roundAge s with
  | none => s
  | some age =>
    if s.clk.window != .plan || !isGo (fleetMode s) || age < 2 || 9 < age || s.allot.reserveFc == some (fcNow s) then s else
    let ready := (s.allot.reqs.zipIdx.filter fun e => e.1.stage == .found && decide (e.1.doneFc < fcNow s)).map (·.2)
    reserveAll { s with allot.reserveFc := some (fcNow s) } 0 ready

def execLegReserve (s : State) : Host.Outcome State Fault Refusal := .next (opLegReserve s)

/-! ### Legs abandoned before their grant (R341) -/

/-- Remove the reserved leg of a robot and write a rest dwell at its start cell. -/
def abandonLeg (s : State) (i : Nat) : State :=
  match (planAt s i).next with
  | none => s
  | some l =>
    let (met, s) := putDwell (dropNext s i) i (restCells s.strt.grid l.cls l.x l.y l.h) none
    haltChain chainFuel (commitBy s orgFlt okPath i) (met.getD [])

/-- End a request of a round that is not granted, with its leg removed and its pair's task given back. -/
def releaseReq (s : State) (q : PathReq) : State :=
  let s := abandonLeg s q.session
  let s := if q.rank = 4 then loseTask s q.session 9 else s
  modPlan s q.session fun p =>
    { p with state := if p.state == .requested || p.state == .reserved || p.state == .deferred then q.under else p.state }

/-- End every request of a robot: the leg it reserved is abandoned and its PATH_REQUEST ends (R340, R341). -/
def dropRequests (s : State) (i intr status : Nat) : State :=
  let mine := (s.allot.reqs ++ s.allot.carried).filter fun q => q.session == i && q.stage != .dropped
  let hosts := mine.filterMap (·.host) ++ s.allot.pathReqs.filter fun r => fld r.payload 0 1 == i
  let s := mine.foldl releaseReq s
  let s := hosts.foldl (fun s r => finishI { s with com.cmdCommits := 0 } r intr status []) s
  { s with
    allot.reqs := s.allot.reqs.map fun q => if q.session == i then { q with stage := .dropped, host := none } else q
    allot.carried := s.allot.carried.filter fun q => q.session != i
    allot.pathReqs := s.allot.pathReqs.filter fun r => fld r.payload 0 1 != i }

/-- The robots with a request. -/
def requesters (s : State) : List Nat :=
  (((s.allot.reqs.filter (·.stage != .dropped)) ++ s.allot.carried).map (·.session)
    ++ s.allot.pathReqs.map fun r => fld r.payload 0 1).eraseDups

/-- Requests of robots that have left ASSOCIATED end. -/
def dropLeft (s : State) : State :=
  (requesters s).foldl (fun s i => if (robotRec s i).sstate == .associated then s else dropRequests s i intNone stInterrupted) s

/-- A mode without allotment ends the round (R350, R100). -/
def endRound (s : State) : State :=
  if isGo (fleetMode s) then s else
  let squall := s.mode.cur == .squall
  let s := (requesters s).foldl (fun s i =>
    dropRequests s i (if squall then intStop else intMode) (if squall then stInterrupted else stBadMode)) s
  { s with allot.round := none, allot.reqs := [] }

/-! ### Grants (R342) -/

/-- PLAN_STATUS of a request. -/
def tell (s : State) (i status pos r : Nat) : State := modPlan s i fun p => { p with statusOut := some (status, pos, r) }

/-- Grant a reserved leg. -/
def grantLeg (s : State) (r : Nat) (q : PathReq) (l : Leg) : State :=
  let s := commitPath s q okRobot
  let s := modPlan s q.session fun p => { p with
    planId := p.planId + 1
    before := if q.under == .granted then tablesOf p else []
    leg := some { l with planId := p.planId + 1 }
    next := none
    state := .granted
    queuePos := 0
    exceed := 0
    posLost := 0
    restAt := none
    haltRounds := 0
    tableOut := true }
  let s := tell s q.session 1 0 r
  let s : State := { s with allot.stats.grants := s.allot.stats.grants + 1 }
  let s := match q.task with
    | some j =>
      if (taskAt s j).state == .assigned then moveTask s j .active 3 fun t => { t with legs := t.legs + 1 }
      else putTask s j { taskAt s j with legs := (taskAt s j).legs + 1 }
    | none => s
  match q.host with
  | some h => finish { s with com.cmdCommits := 0 } h stOk (le 4 (planAt s q.session).planId ++ zb 4 ++ le 8 l.arrive)
  | none => s

/-- Defer a request: ranks 1 to 3 are carried; a pair returns to the auction. A position within the limit is open. -/
def deferReq (s : State) (r : Nat) (q : PathReq) : State :=
  let (v, s) := match q.queuePos with
    | some n => (n, s)
    | none => freshNat s
  let pos := v % 65536
  let s := abandonLeg s q.session
  let s := if q.rank = 4 then loseTask s q.session 9 else s
  let s := modPlan s q.session fun p => { p with
    queuePos := pos
    state := if q.under == .granted then p.state else if q.rank = 4 then .parked else .deferred }
  let s := tell s q.session 2 pos r
  let s : State := { s with
    allot.stats.deferred := s.allot.stats.deferred + 1
    allot.carried := if q.rank ≤ 2 then s.allot.carried ++ [{ q with stage := .carried, result := none, avoid := [] }] else s.allot.carried }
  match q.host with
  | some h =>
    let s := deferred { s with com.cmdCommits := 0 } h (le 2 pos ++ zb 6 ++ le 8 r)
    { s with allot.pathReqs := s.allot.pathReqs ++ [h] }
  | none => s

/-- Refuse a request whose search found no path. -/
def refuseReq (s : State) (r : Nat) (q : PathReq) : State :=
  let s := modPlan s q.session fun p =>
    { p with state := if p.state == .requested || p.state == .deferred then q.under else p.state }
  let s := tell s q.session 3 0 r
  let s : State := { s with allot.stats.noPath := s.allot.stats.noPath + 1 }
  match q.host with
  | some h => finish { s with com.cmdCommits := 0 } h stNoPath []
  | none => s

/-- End one request of the round. -/
def settleReq (frozen : Bool) (r : Nat) (s : State) (q : PathReq) : State :=
  match q.stage, (planAt s q.session).next with
  | .dropped, _ => s
  | .failed, _ => refuseReq s r q
  | .reserved, none => modPlan s q.session fun p => { p with state := if p.state == .reserved then q.under else p.state }
  | .reserved, some l =>
    if frozen then deferReq s r q else
    match q.host, (q.host.bind (·.expect)).bind fun _ => changedSince s q.reserveCsn [(okPath, q.session)] with
    | some h, some o => finishI { releaseReq s q with com.cmdCommits := 0 } h intCsn stCsnMismatch (mismatchPayload s o)
    | _, _ => grantLeg s r q l
  | _, _ => deferReq s r q

/-- Robots HALTED through a round without a grant; after 50 such rounds the task is given back (R328). -/
def haltedRounds (s : State) : State :=
  (planned s).foldl (fun s i =>
    let p := planAt s i
    let waits := p.state == .halted || (p.state == .deferred && s.allot.carried.any fun q => q.session == i && q.under == .halted)
    let n := if waits then p.haltRounds + 1 else 0
    let s := modPlan s i fun p => { p with haltRounds := n }
    if 50 ≤ n then loseTask s i 8 else s) s

/-- EV_ALLOT_ROUND's body and the reply of PATH_STATUS (R359). -/
def roundBytes (t : RoundStats) : Bytes :=
  le 8 t.round ++ le 2 t.requests ++ le 2 t.grants ++ le 2 t.deferred ++ le 2 t.noPath ++ le 2 t.budget ++ le 2 t.conflicts
    ++ le 2 t.bids ++ le 2 t.halts ++ le 4 t.nodes ++ le 4 t.probes ++ le 4 t.maxTclk ++ zb 4

/-- GRANT (R342): in PLAN of FC 10r + 9, after the reserves. -/
def opGrant (s : State) : State :=
  match s.allot.round with
  | none => s
  | some r =>
    if s.clk.window != .plan || fcNow s != 10 * r + 9 || !isGo (fleetMode s) then s else
    let reqs := s.allot.reqs
    let later := s.allot.pathReqs
    let s := reqs.foldl (settleReq (freeze s) r) { s with allot.reqs := [], allot.round := none, allot.pathReqs := [] }
    let s : State := { s with allot.pathReqs := s.allot.pathReqs ++ later }
    let s := haltedRounds s
    let s : State := { s with allot.last := s.allot.stats }
    let t := s.allot.stats
    if 0 < t.deferred + t.noPath + t.halts then raise s 0x8703 .sup (roundBytes t) else s

def execGrant (s : State) : Host.Outcome State Fault Refusal := .next (opGrant s)

/-! ### Leg ends (R328) -/

/-- The end of one table: its waypoint is reached where the last check passed. -/
def reachEnd (s : State) (i : Nat) (l : Leg) : State :=
  match l.task with
  | none => s
  | some j =>
    let t := taskAt s j
    if t.state == .active && t.session == i && l.wp == t.nextWp && (planAt s i).confOk then
      let s := moveTask s j .active 4 fun t => { t with nextWp := t.nextWp + 1 }
      if t.nextWp + 1 = t.wps.length then
        modPlan s i fun p => { p with doneSlot := some (l.arrive + 20 * ((t.wps[l.wp]?).map (·.dwellS)).getD 0) }
      else s
    else s

/-- Leg ends of one robot: tables that have ended are acted on once; the last one parks it. -/
def arriveRobot (s : State) (i : Nat) : State :=
  let p := planAt s i
  if p.state != .granted then s else
  let now := slotNow s
  let due := (tablesOf p).filter fun l => decide (l.arrive ≤ now) && !l.reached
  let s := due.foldl (fun s l => reachEnd s i l) s
  let ended := match p.leg with | some l => decide (l.arrive ≤ now) | none => true
  let waiting := s.allot.reqs.find? fun q => q.session == i && q.stage != .dropped
  let st : PlanState := match waiting with
    | none => .parked
    | some q => if q.stage == .reserved then .reserved else if q.stage == .carried then .deferred else .requested
  let s := modPlan s i fun p => { p with
    before := p.before.filter fun l => decide (now < l.arrive)
    leg := p.leg.map fun l => { l with reached := l.reached || decide (l.arrive ≤ now) }
    state := if ended then st else p.state }
  if ended then { s with allot.reqs := s.allot.reqs.map fun q => if q.session == i && q.under == .granted then { q with under := .parked } else q }
  else s

/-- DONE once the robot has rested DWELL_S at the last waypoint. -/
def doneRobot (s : State) (i : Nat) : State :=
  let p := planAt s i
  match p.doneSlot, p.task with
  | some d, some j =>
    if d ≤ slotNow s && (taskAt s j).state == .active then
      moveTask (modPlan s i fun p => { p with doneSlot := none, task := none }) j .finished 5 id
    else s
  | _, _ => s

/-! ### PLAN of every FC -/

/-- Settings and classes taken over with each round (R263, R353, R356). -/
def takeOver (s : State) : State :=
  let s : State := { s with allot.driftSwept := s.allot.driftSwept && fleetMode s == .drift }
  if fcNow s % 10 != 0 then s else
  { s with
    allot.cfg := s.p.taskCfg
    allot.classNow := s.p.classes
    allot.stats := if s.allot.round.isNone then {} else s.allot.stats
    p.tasks := tmap s.p.tasks fun _ t => { t with deadlineNow := t.deadline } }

/-- Legs reserved by requests that have been cancelled are removed in PLAN (R341). -/
def abandonCancelled (s : State) : State :=
  ((s.allot.plans.filter fun e => e.2.next.isSome
    && !(s.allot.reqs.any fun q => q.session == e.1 && q.stage == .reserved)).map (·.1)).foldl
    abandonLeg s

/-- Fleet work of PLAN: conformance first, then halts, requests that end, dwells and leg ends. -/
def planFleet (s : State) : State :=
  let s := reopenTasks (takeOver s)
  let s := conformance s
  let s := modeHalts s
  let s := abandonCancelled (endRound (dropLeft s))
  let s := dwellsDue s
  (planned s).foldl (fun s i => doneRobot (arriveRobot s i) i) s

/-! ### TASK_CANCEL (R354) -/

/-- What the end of a task asks of its robot. -/
def cancelRobot (s : State) (i : Nat) (halt : Bool) : State :=
  let mine := s.allot.reqs.filter fun q => q.session == i && q.stage != .dropped
  let s : State := { s with
    allot.reqs := s.allot.reqs.map fun q => if q.session == i then { q with stage := .dropped } else q
    allot.carried := s.allot.carried.filter fun q => q.session != i }
  let under := (mine.head?.map (·.under)).getD .parked
  modPlan s i fun p => { p with
    task := none
    doneSlot := none
    haltReq := p.haltReq || (halt && p.state == .granted)
    state := if p.state == .requested || p.state == .reserved || p.state == .deferred then under else p.state }

/-- TASK_CANCEL (R354). -/
def opTaskCancel (r : Request) (s : State) : State :=
  let p := r.payload
  let j := fld p 0 2
  let t := taskAt s j
  runOp s r (p.length == 4) (zeros p 3 1) true (inModes s mTask) fun s =>
  need (taskNamed s j && (fld p 2 1 == 1 || fld p 2 1 == 2)) s r stBadRange fun s =>
  need (liveTask t.state) s r stBusy fun s =>
  checkCsn s r [(okTask, j)] fun s =>
  let s := moveTaskBy s r j .cancelled 6 t
  let s := if t.session = 0xFF then s else cancelRobot s t.session (fld p 2 1 == 2)
  finish s r stOk []

def execTaskCancel (r : Request) (s : State) : Host.Outcome State Fault Refusal := .next (opTaskCancel r s)

/-! ### PATH opcodes (R357 to R359) -/

/-- PATH_REQUEST (R357). -/
def opPathRequest (r : Request) (s : State) : State :=
  let p := r.payload
  let i := fld p 0 1
  runOp s r (p.length == 8) (decide (fld p 1 1 < 2) && zeros p 3 1 && (bit (fld p 1 1) 0 || zeros p 2 1)) true
    (inModes s [.breeze, .drift]) fun s =>
  need ((robotRec s i).sstate != .free && decide (fld p 4 2 < s.strt.grid.nx) && decide (fld p 6 2 < s.strt.grid.ny)
    && decide (fld p 2 1 < 8)) s r stBadRange fun s =>
  need ((planAt s i).state == .parked && (planAt s i).task.isNone && !(requesters s).contains i) s r stBusy fun s =>
  checkCsn s r [(okPath, i)] fun s =>
  accept { s with allot.pathReqs := s.allot.pathReqs ++ [r] } r 2 []

def execPathRequest (r : Request) (s : State) : Host.Outcome State Fault Refusal := .next (opPathRequest r s)

/-- Entries a robot holds. -/
def entriesOf (s : State) (i : Nat) (dwell : Bool) : Nat :=
  (s.strt.ways.filter fun e => holds e.2 && isRobotKind (eKind e.2) && (eKind e.2 == kDwell) == dwell && eOwner e.2 == i).length

/-- Reply of PATH_GET. -/
def pathReply (s : State) (i : Nat) : Bytes :=
  let p := planAt s i
  let ks := match p.leg with | some l => tableKnots s.strt.grid l | none => []
  let l := p.leg.getD {}
  le 1 i ++ le 1 (planCode p.state) ++ le 1 ks.length ++ le 1 l.flags ++ le 4 p.planId ++ le 8 l.start ++ le 8 l.arrive
    ++ le 4 (entriesOf s i false) ++ le 2 (entriesOf s i true) ++ le 2 (if p.state == .deferred then p.queuePos else 0)
    ++ le 8 l.baseTime ++ ks.flatMap knotBytes

/-- PATH_GET (R358). -/
def opPathGet (r : Request) (s : State) : State :=
  let p := r.payload
  runOp s r (p.length == 4) (zeros p 1 3) true (edt s 0x0830) fun s =>
  need ((robotRec s (fld p 0 1)).sstate != .free) s r stBadRange fun s => finish s r stOk (pathReply s (fld p 0 1))

def execPathGet (r : Request) (s : State) : Host.Outcome State Fault Refusal := .next (opPathGet r s)

/-- Reply of PATH_STATUS: the last completed round (R359). -/
def roundReply (s : State) : Bytes := roundBytes s.allot.last

/-- PATH_STATUS (R359). -/
def opPathStatus (r : Request) (s : State) : State := readOp s r 0x0832 roundReply

def execPathStatus (r : Request) (s : State) : Host.Outcome State Fault Refusal := .next (opPathStatus r s)

end Sys2Proof.Machine
end

