-- ==== Sys2Proof/Machine/Can.lean ====
section
/-! DEFINITION. The CAN FD channels C0 and C1 (R441 to R462): states, receiving, sending, the stop frame, sleep and the
CAN opcodes. -/

namespace Sys2Proof.Machine

open Sys2Proof

/-! ### Channels (R443) -/

/-- A channel. -/
def canAt (s : State) (ch : Nat) : CanChan := s.can.getD ch {}

/-- Change a channel. -/
def modCan (s : State) (ch : Nat) (f : CanChan → CanChan) : State := { s with can := lmod s.can ch f }

/-- Its persistent settings. -/
def canSet (s : State) (ch : Nat) : CanPersist := s.p.can.getD ch {}

/-- CSTATE code. -/
def cstateCode : CState → Nat
  | .off => 0 | .errorActive => 1 | .errorPassive => 2 | .busOff => 3 | .asleep => 4 | .disabled => 5

/-- A channel that receives and sends. -/
def canOn (c : CanChan) : Bool := c.state == .errorActive || c.state == .errorPassive

/-- The link of a channel in the completion table. -/
def canLink (ch : Nat) : Nat := 17 + ch

/-- Change CSTATE by an event of the hardware: latched at the next boundary. -/
def setCan (c : CanChan) (st : CState) (cause : Nat) : CanChan :=
  if c.state == st then c else { c with state := st, evOld := some (c.evOld.getD c.state), evCause := cause }

/-- Change CSTATE by firmware: reported in EMIT of the FC in progress. -/
def setCanNow (c : CanChan) (st : CState) (cause : Nat) : CanChan :=
  if c.state == st then c else { c with state := st, evDue := some (c.evDue.getD c.state), evCause := cause }

/-- ERROR_ACTIVE or ERROR_PASSIVE as the counters say. -/
def byCounters (c : CanChan) : CanChan :=
  if !canOn c then c else
  setCan c (if c.tecCtr < 128 && c.recCtr < 128 then .errorActive else .errorPassive) 1

/-- Bus-off: one-shot frames waiting and the frame in progress end BUS_OFF; BUSOFF_LIMIT bus-offs within 6,000 FC disable
the channel (R449, R452). `head`: the frame in progress is the head of the TX queue, not the stop frame. -/
def goBusOff (fc : Nat) (head : Bool) (c : CanChan) : CanChan :=
  let offs := (c.busoffs.filter fun f => decide (fc < f + 6000)) ++ [fc]
  let lost := c.txq.zipIdx.filter fun e => e.1.releasedFc.isSome && (e.1.oneShot || (head && e.2 == 0))
  let c := setCan c .busOff 1
  let c := { c with
    busoffs := offs
    busoffCount := inc32 c.busoffCount
    stopBuf := none
    stopLost := c.stopLost || c.stopBuf.isSome
    txq := (c.txq.zipIdx.filter fun e => !lost.contains e).map (·.1)
    outcomes := c.outcomes ++ c.stopBuf.toList.map (fun t => (t, 4, 0)) ++ lost.map fun e => (e.1, 4, 0) }
  if c.cfg.busoffLimit != 0 && decide (c.cfg.busoffLimit ≤ offs.length) then setCan c .disabled 3 else c

/-- BUS_OFF: the transmit error that takes TEC above 255. -/
def opBusOff (ch : Nat) (head : Bool) (s : State) : State :=
  let c := canAt s ch
  if !running s || !canOn c || decide (c.tecCtr < 248) then s else
  modCan s ch fun c => goBusOff (fcNow s) head { c with tecCtr := 256 }

def execBusOff (ch : Nat) (head : Bool) (s : State) : Host.Outcome State Fault Refusal :=
  if ch < 2 then .next (noteQueue (opBusOff ch head s) (0x31 + 2 * ch)) else .fault .noSuchUnit

/-- BUS_OFF_RECOVERY: back to ERROR_ACTIVE with both counters 0. -/
def opBusOffRecovery (ch : Nat) (s : State) : State :=
  if !running s || (canAt s ch).state != .busOff then s else
  modCan s ch fun c => setCan { c with tecCtr := 0, recCtr := 0 } .errorActive 2

def execBusOffRecovery (ch : Nat) (s : State) : Host.Outcome State Fault Refusal :=
  if ch < 2 then .next (opBusOffRecovery ch s) else .fault .noSuchUnit

/-- CAN_BUS_ERROR: an error raises TEC and REC by what ISO 11898-1 gives for it. -/
def opCanBusError (ch tec rec' : Nat) (s : State) : State :=
  let c := canAt s ch
  if !running s || !canOn c then s else
  if 255 < c.tecCtr + tec then
    modCan s ch fun c => goBusOff (fcNow s) c.stopBuf.isNone { c with tecCtr := 256, recCtr := min 255 (c.recCtr + rec') }
  else modCan s ch fun c => byCounters { c with tecCtr := c.tecCtr + tec, recCtr := min 255 (c.recCtr + rec') }

def execCanBusError (ch tec rec' : Nat) (s : State) : Host.Outcome State Fault Refusal :=
  if ch < 2 then .next (noteQueue (opCanBusError ch tec rec' s) (0x31 + 2 * ch)) else .fault .noSuchUnit

/-! ### Receiving (R444 to R447) -/

/-- The data lengths of R441. -/
def canLengths : List Nat := [0, 1, 2, 3, 4, 5, 6, 7, 8, 12, 16, 20, 24, 32, 48, 64]

/-- A frame a bus can carry: its identifier fits, and its length is one of its format. -/
def canFrameOk (ide fdf : Bool) (id len : Nat) : Bool :=
  decide (id < if ide then 2 ^ 29 else 2 ^ 11) && canLengths.contains len && (fdf || decide (len ≤ 8))

/-- REC after a frame received without error: one less, and between 119 and 127 from above 127 (ISO 11898-1). -/
def recAfter (s : State) (rec' : Nat) : Nat × State :=
  if 127 < rec' then let (v, t) := freshNat s; (119 + v % 9, t) else (rec' - 1, s)

/-- CAN_RX: a valid frame enters the RX queue; remote frames are counted and discarded (R441, R444). -/
def opCanRx (ch : Nat) (f : CanIn) (s : State) : State :=
  if !running s || !canOn (canAt s ch) || !canFrameOk f.ide f.fdf f.id f.data.length then s else
  let (rec', s) := recAfter s (canAt s ch).recCtr
  let s := modCan s ch fun c => byCounters { c with recCtr := rec' }
  if f.remote then modCan s ch fun c => { c with rxRemote := inc32 c.rxRemote } else
  let q := 0x30 + 2 * ch
  let occ := occOf s q
  let (ok, t) := admitFrame s q false
  if !ok then modCan t ch fun c => { c with rxOverrun := inc32 c.rxOverrun } else
  let fr : CanFrame := { id := f.id, ide := f.ide, fdf := f.fdf, brs := f.brs, esi := f.esi, data := f.data, sof := capturedTime s f.sof }
  arrived (modCan s ch fun c => { c with rx := c.rx ++ [fr], rxFrames := inc32 c.rxFrames }) q occ

def execCanRx (ch : Nat) (f : CanIn) (s : State) : Host.Outcome State Fault Refusal :=
  if ch < 2 then .next (opCanRx ch f s) else .fault .noSuchUnit

/-- A node stop frame (R447). -/
def nodeStop (p : CanPersist) (f : CanFrame) : Bool :=
  (p.nodes.any fun e => e.2.enable && e.2.ide == f.ide && e.2.stopId == f.id)
    && decide (2 ≤ f.data.length) && f.data.take 2 == [1, 1]

/-- A frame matches a rule (R446). -/
def ruleMatches (u : CanRule) (f : CanFrame) : Bool :=
  u.action != 0 && Nat.land (Nat.xor f.id u.idValue) u.idMask == 0
    && (!bit u.fmt 1 || bit u.fmt 0 == f.ide) && (!bit u.fmt 3 || bit u.fmt 2 == f.fdf)
    && decide (u.minLen ≤ f.data.length) && decide (f.data.length ≤ u.maxLen)

/-- LNK takes one frame: node table, then rules in rising index, then NOMATCH_ACTION (R445). -/
def takeCan (s : State) (ch : Nat) (f : CanFrame) : State :=
  let p := canSet s ch
  let stop := nodeStop p f
  let s := if stop then requestStop (modCan s ch fun c => { c with nodeStops := inc32 c.nodeStops }) 5 else s
  match p.rules.find? fun e => ruleMatches e.2 f with
  | some e =>
    modCan s ch fun c => { c with
      hits := tmod c.hits e.1 0 inc32
      deliver := if e.2.action = 1 then c.deliver ++ [(f, e.1, stop)] else c.deliver }
  | none =>
    if p.cfg.noMatch = 1 then
      -- the spec names no RULE for a frame that matched none: a free value
      let (v, s) := freshNat s
      modCan s ch fun c => { c with deliver := c.deliver ++ [(f, v % 256, stop)] }
    else s

/-- LATCH: up to 256 frames of a channel, the rest carried. -/
def latchRx (s : State) (ch : Nat) : State :=
  let all := (canAt s ch).latchedRx ++ (canAt s ch).rx
  let s := modCan s ch fun c => { c with rx := [], latchedRx := all.drop 256, deliver := [] }
  (all.take 256).foldl (fun s f => takeCan s ch f) s

/-- FC_BOUNDARY of one channel: a restart under new settings, the changes and outcomes captured, then the frames. -/
def canLatch (s : State) (ch : Nat) : State :=
  let p := canSet s ch
  let s := modCan s ch fun c =>
    let c := if c.evOld.isSome then { c with evDue := some (c.evDue.getD (c.evOld.getD c.state)), evOld := none } else c
    let c := if c.restart then
        setCanNow { c with cfg := p.cfg, restart := false, tecCtr := 0, recCtr := 0, sleepDue := none } (if p.cfg.enable = 1 then .errorActive else .off) 8
      else c
    let again := c.outcomes.any fun o => o.1.stop && (o.2.1 == 2 || o.2.1 == 3 || o.2.1 == 5)
    { c with
      latchedOut := c.outcomes
      outcomes := []
      txFrames := sat 32 (c.txFrames + (c.outcomes.filter fun o => o.2.1 == 1).length)
      txFailed := sat 32 (c.txFailed + (c.outcomes.filter fun o => o.2.1 != 1).length)
      reissue := c.reissue || again || (c.stopLost && canOn c)
      stopLost := c.stopLost && !canOn c
      busoffs := c.busoffs.filter fun f => decide (fcNow s < f + 6000) }
  latchRx s ch

/-- FC_BOUNDARY: LNK in LATCH. -/
def canBoundary (s : State) : State := canLatch (canLatch s 0) 1

/-- The channels as they start in the first FC after STILL (R441). -/
def canStart (s : State) : State :=
  { s with can := [0, 1].map fun ch =>
      let c : CanChan := { cfg := (canSet s ch).cfg }
      if c.cfg.enable = 1 then setCanNow c .errorActive 8 else c }

/-! ### Sending (R448 to R452) -/

/-- An FD frame sent with BRS measures the transmitter delay (R441): a free value. -/
def measureDelay (s : State) (ch : Nat) : State :=
  let (v, s) := freshNat s
  modCan s ch fun c => { c with tdc := v % 65536 }

/-- CAN_TX_OUTCOME: the stop frame, or the head of the TX queue, leaves with its outcome. -/
def opCanTxOutcome (ch : Nat) (stop : Bool) (outcome : Nat) (sof : Option Counter) (s : State) : State :=
  let c := canAt s ch
  match (if stop then c.stopBuf else c.txq.head?) with
  | none => s
  | some t =>
    let may := match t.releasedFc with
      | none => false
      | some fc =>
        if outcome = 1 then canOn c
        else if outcome = 2 || outcome = 3 then canOn c && t.oneShot
        else outcome = 5 && decide (fc + c.cfg.ttl ≤ fcNow s)
    if !running s || !may then s else
    let time := (sof.map (capturedTime s)).getD 0
    let s := match sof with
      | some x => if outcome = 1 then noteSent s (canLink ch) x else s
      | none => s
    let s := if outcome = 1 && t.frame.brs then measureDelay s ch else s
    modCan s ch fun c =>
      let c := if outcome = 1 then byCounters { c with tecCtr := c.tecCtr - 1 } else c
      let c := { c with
        stopBuf := if stop then none else c.stopBuf
        txq := if stop then c.txq else c.txq.drop 1
        outcomes := c.outcomes ++ [(t, outcome, time)] }
      match c.sleepDue with
      | some n =>
        if (decide (n < fcNow s) || s.clk.window == .guard) && c.stopBuf.isNone && !(c.txq.any fun t => t.releasedFc.isSome)
        then setCan { c with sleepDue := none } .asleep 4 else c
      | none => c

def execCanTxOutcome (ch : Nat) (stop : Bool) (outcome : Nat) (sof : Option Counter) (s : State) :
    Host.Outcome State Fault Refusal :=
  if ch < 2 then .next (noteQueue (opCanTxOutcome ch stop outcome sof s) (0x31 + 2 * ch)) else .fault .noSuchUnit

/-- A sleeping channel wakes: the controller rejoins as ERROR_ACTIVE; under WAKE_MODE FRAME a wake of its own is preceded by
a wake frame ahead of everything else (R453). -/
def wakeChan (fc cause : Nat) (own now : Bool) (c : CanChan) : CanChan :=
  let c := { c with sleepDue := none }
  if c.state != .asleep then c else
  let c := (if now then setCanNow else setCan) { c with tecCtr := 0, recCtr := 0 } .errorActive cause
  if own && c.cfg.wakeMode = 2 then
    { c with txq := { frame := { id := c.cfg.wakeId, data := fit c.cfg.wakeLen c.cfg.wakeData }, releasedFc := some fc } :: c.txq }
  else c

/-- CAN_WAKE: a wake from the bus (R453); a turn of the vote to STOP wakes in EMIT. -/
def opCanWake (ch : Nat) (w : CanWakeIn) (s : State) : State :=
  let c := (canAt s ch).cfg
  let hit := if c.wakeMode = 1 then decide (5 ≤ w.dominantUs) else
    match w.frame with
    | none => false
    | some (id, data) =>
      Nat.land (Nat.xor id c.wakeId) c.wakeIdMask == 0 && data.length == c.wakeLen
        && (data.zip c.wakeData).any fun e => (e.1 &&& e.2) != 0
  if !running s || (canAt s ch).state != .asleep || !hit then s else
  modCan s ch (wakeChan (fcNow s) 5 false false)

def execCanWake (ch : Nat) (w : CanWakeIn) (s : State) : Host.Outcome State Fault Refusal :=
  if ch < 2 then .next (noteQueue (opCanWake ch w s) (0x31 + 2 * ch)) else .fault .noSuchUnit

/-- The RD-824's stop frame (R450). -/
def canStopFrame (s : State) (c : CanChan) (reissued : Bool) : CanTx :=
  let seq := (c.stopSeq + 1) % 2 ^ 16
  { frame := { id := c.cfg.stopId, data := le 1 1 ++ le 1 1 ++ le 2 seq ++ le 4 s.p.control.bootCount }
    oneShot := true
    txRef := seq
    stop := true
    reissued := reissued }

/-- EMIT: stop frames (R385, R452, R453). -/
def queueCanStop (s : State) : State :=
  let due := s.stop.canStopDue
  { s with
    stop.canStopDue := false
    can := s.can.map fun c =>
      let c := if due then wakeChan (fcNow s) 7 true true c else c
      let again := c.reissue && !s.stop.voted
      let c := { c with reissue := false }
      if due || again then
        let t := canStopFrame s c (!due)
        { c with stopBuf := some t, stopSeq := t.txRef }
      else c }

/-- A frame as EV_CAN_RX carries it (R462). -/
def canRxBytes (e : CanFrame × Nat × Bool) : Bytes :=
  let f := e.1
  le 8 f.sof ++ le 4 (f.id + flag f.ide 29 + flag f.fdf 30) ++ le 1 f.data.length ++ le 1 e.2.1
    ++ le 1 (bitsOf [f.brs, f.esi, e.2.2]) ++ zb 1 ++ fit ((f.data.length + 3) / 4 * 4) f.data

/-- Pack frames into events of at most 1,376 bytes. -/
def packCan : List Bytes → List Bytes → Nat → List (List Bytes)
  | [], cur, _ => if cur.isEmpty then [] else [cur]
  | f :: fs, cur, n =>
    if n + f.length ≤ 1376 then packCan fs (cur ++ [f]) (n + f.length) else cur :: packCan fs [f] f.length

/-- EMIT: EV_CAN_RX, EV_CAN_TX and EV_CAN_STATE of a channel (R462). -/
def emitCanChan (s : State) (ch : Nat) : State :=
  let c := canAt s ch
  let subs := Audience.slots (subscribers s fun e => e.canSub.getD ch none)
  let s := (packCan (c.deliver.map canRxBytes) [] 0).foldl (fun s fs =>
    raise s 0x8B01 subs (le 1 ch ++ le 1 fs.length ++ zb 6 ++ fs.flatten)) s
  let s := c.latchedOut.foldl (fun s o =>
    let (t, outcome, time) := o
    let sender := (s.edtor.sessions.filter fun e => e.2.sopen && e.2.id == t.sessionId && t.sessionId != 0).map (·.1)
    if outcome = 1 && !t.notify && !t.stop then s else
    raise s 0x8B02 (if t.stop then .all else .slots sender)
      (le 1 ch ++ le 1 outcome ++ le 2 t.txRef ++ le 1 (bitsOf [t.stop, t.reissued]) ++ le 1 (min 255 c.tecCtr) ++ zb 2 ++ leTime time)) s
  let s := modCan s ch fun c => { c with deliver := [], latchedOut := [], evDue := none }
  match c.evDue with
  | none => s
  | some old =>
    if old == c.state then s else
    raise s 0x8B03 .all (le 1 ch ++ le 1 (cstateCode c.state) ++ le 1 (cstateCode old) ++ le 1 c.evCause
      ++ le 1 (min 255 c.tecCtr) ++ le 1 c.recCtr ++ zb 2)

/-- EMIT of the CAN channels. -/
def emitCan (s : State) : State := emitCanChan (emitCanChan (queueCanStop s) 0) 1

/-- The first PCLK of PERSIST: the stop frames are released (R385, R448). -/
def releaseCanStop (s : State) : State :=
  { s with can := s.can.map fun c =>
      match c.stopBuf with
      | none => c
      | some t =>
        if t.releasedFc.isSome then c
        else if canOn c then { c with stopBuf := some { t with releasedFc := some (fcNow s) } }
        else if c.state == .busOff then
          { c with stopBuf := none, stopLost := true, outcomes := c.outcomes ++ [(t, 4, 0)] }
        else { c with stopBuf := none, outcomes := c.outcomes ++ [(t, 6, 0)] } }

/-- The first PCLK of GUARD: host frames are released unless PERSIST failed; then a channel told to sleep does so once it has
nothing left to send (R448, R449, R453). -/
def releaseCan (s : State) : State :=
  if s.com.withheld then s else
  { s with can := s.can.map fun c =>
      let late := match c.sleepDue with | some n => decide (n < fcNow s) | none => false
      let shut := late || !(canOn c || c.state == .busOff)
      let drop := if shut then c.txq.filter fun t => t.releasedFc.isNone else []
      let c := { c with
        txq := (c.txq.filter fun t => !shut || t.releasedFc.isSome).map fun t => { t with releasedFc := some (t.releasedFc.getD (fcNow s)) }
        outcomes := c.outcomes ++ drop.map fun t => (t, 6, 0) }
      if c.sleepDue.isSome && c.stopBuf.isNone && c.txq.isEmpty then setCan { c with sleepDue := none } .asleep 4 else c }

/-! ### The CAN opcodes (R455 to R461) -/

/-- The 40-byte record of R455. -/
def canCfgBytes (ch : Nat) (c : CanConfig) : Bytes :=
  le 1 ch ++ le 1 c.enable ++ le 2 c.nominal ++ le 2 c.data ++ le 1 c.nomSp ++ le 1 c.dataSp ++ le 1 c.term ++ le 1 c.noMatch
    ++ le 2 c.stopId ++ le 1 c.busoffLimit ++ le 1 c.ttl ++ le 1 c.wakeMode ++ le 1 c.wakeLen ++ le 4 c.wakeId
    ++ le 4 c.wakeIdMask ++ fit 8 c.wakeData ++ zb 8

/-- The record a payload carries. -/
def canCfgFrom (p : Bytes) : CanConfig :=
  { enable := fld p 1 1, nominal := fld p 2 2, data := fld p 4 2, nomSp := fld p 6 1, dataSp := fld p 7 1, term := fld p 8 1
    noMatch := fld p 9 1, stopId := fld p 10 2, busoffLimit := fld p 12 1, ttl := fld p 13 1, wakeMode := fld p 14 1
    wakeLen := fld p 15 1, wakeId := fld p 16 4, wakeIdMask := fld p 20 4, wakeData := slice p 24 8 }

/-- The ranges of R441 and R455. -/
def canCfgOk (c : CanConfig) : Bool :=
  (c.enable == 1 || c.enable == 2) && [125, 250, 500, 1000].contains c.nominal
    && (c.data == c.nominal || [1000, 2000, 4000, 5000].contains c.data) && decide (c.nominal ≤ c.data)
    && decide (60 ≤ c.nomSp) && decide (c.nomSp ≤ 90) && decide (60 ≤ c.dataSp) && decide (c.dataSp ≤ 90)
    && (c.term == 1 || c.term == 2) && decide (1 ≤ c.noMatch) && decide (c.noMatch ≤ 3) && decide (c.stopId ≤ 0x7FF)
    && decide (1 ≤ c.ttl) && (c.wakeMode == 1 || c.wakeMode == 2) && decide (c.wakeLen ≤ 8)

/-- An identifier is the STOP_ID of an enabled node other than entry `except` (R447). -/
def isNodeId (p : CanPersist) (ide : Bool) (id : Nat) (except : Option Nat) : Bool :=
  p.nodes.any fun e => e.2.enable && e.2.ide == ide && e.2.stopId == id && except != some e.1

/-- Change a channel's persistent settings. -/
def modCanSet (s : State) (ch : Nat) (f : CanPersist → CanPersist) : State := { s with p.can := lmod s.p.can ch f }

/-- CAN_CONFIG (R455). -/
def opCanConfig (r : Request) (s : State) : State :=
  let p := r.payload
  let ch := fld p 0 1
  let c := canCfgFrom p
  runOp s r (p.length == 40) (decide (c.wakeId < 2 ^ 11) && decide (c.wakeIdMask < 2 ^ 11) && zeros p 32 8) (supOk s r)
    (inModes s mCfg) fun s =>
  need (decide (ch < 2) && canCfgOk c && !isNodeId (canSet s ch) false c.stopId none) s r stBadRange fun s =>
  change1 s r siteObj
    (fun s => modCan (modCanSet s ch fun x => { x with cfg := c }) ch fun x => { x with restart := true }) fun _ => []

def execCanConfig (r : Request) (s : State) : Host.Outcome State Fault Refusal := .next (opCanConfig r s)

/-- The 88-byte reply of CAN_STATUS (R456). -/
def canStatusReply (s : State) (ch : Nat) : Bytes :=
  let c := canAt s ch
  canCfgBytes ch (canSet s ch).cfg ++ le 1 (cstateCode c.state) ++ le 1 (min 255 c.tecCtr) ++ le 1 c.recCtr
    ++ le 1 (min 255 c.busoffs.length) ++ le 4 c.rxFrames ++ le 4 c.rxOverrun ++ le 4 c.rxRemote ++ le 4 c.nodeStops
    ++ le 4 c.txFrames ++ le 4 c.txFailed ++ le 4 c.busoffCount ++ le 2 c.stopSeq ++ le 2 c.tdc ++ zb 12

/-- CAN_STATUS (R456). -/
def opCanStatus (r : Request) (s : State) : State :=
  let p := r.payload
  runOp s r (p.length == 4) (zeros p 1 3) true (edt s 0x0B01) fun s =>
  need (decide (fld p 0 1 < 2)) s r stBadRange fun s => finish s r stOk (canStatusReply s (fld p 0 1))

def execCanStatus (r : Request) (s : State) : Host.Outcome State Fault Refusal := .next (opCanStatus r s)

/-- The 16 bytes of a rule (R446). -/
def ruleBytes (u : CanRule) (hits : Nat) : Bytes :=
  le 4 u.idValue ++ le 4 u.idMask ++ le 1 u.fmt ++ le 1 u.action ++ le 1 u.minLen ++ le 1 u.maxLen ++ le 4 hits

/-- The rule a payload carries after its 4-byte head. -/
def ruleFrom (p : Bytes) : CanRule :=
  { idValue := fld p 4 4, idMask := fld p 8 4, fmt := fld p 12 1, action := fld p 13 1, minLen := fld p 14 1, maxLen := fld p 15 1 }

/-- CAN_RULE_SET (R457): ACTION 0xFF with every other field 0 reads, so the rules it reads are those of CHANNEL 0; with any
other field set it is an ACTION out of range. -/
def opCanRuleSet (r : Request) (s : State) : State :=
  let p := r.payload
  let ch := fld p 0 1
  let u := ruleFrom p
  let read := u.action == 0xFF && zeros p 0 13 && zeros p 14 6
  let rsv := zeros p 2 2 && decide (u.idValue < 2 ^ 29) && decide (u.idMask < 2 ^ 29) && decide (u.fmt < 16) && zeros p 16 4
  runOp s r (p.length == 20) rsv (read || supOk s r) (edtOr s 0x0B10 read mNorm) fun s =>
  need (decide (ch < 2) && (read || (decide (u.action ≤ 3) && decide (u.minLen ≤ u.maxLen) && decide (u.maxLen ≤ 64)))) s r stBadRange fun s =>
  if read then
    let part (a n : Nat) := ((List.range n).map (· + a)).flatMap fun i =>
      ruleBytes (tgetD (canSet s ch).rules i {}) (tgetD (canAt s ch).hits i 0)
    finishFrags s r [part 0 87, part 87 87, part 174 82] 3
  else
    change1 s r siteObj
      (fun s => modCan (modCanSet s ch fun x => { x with rules := tput x.rules (fld p 1 1) u }) ch fun c =>
        { c with hits := tdel c.hits (fld p 1 1) }) fun _ => []

def execCanRuleSet (r : Request) (s : State) : Host.Outcome State Fault Refusal := .next (opCanRuleSet r s)

/-- CAN_NODE_SET (R458). -/
def opCanNodeSet (r : Request) (s : State) : State :=
  let p := r.payload
  let ch := fld p 0 1
  let node := fld p 1 1
  let id := fld p 4 4
  let ide := fld p 3 1 == 1
  runOp s r (p.length == 16) (decide (id < 2 ^ 29)) (supOk s r) (inModes s mCfg) fun s =>
  let c := canSet s ch
  need (decide (ch < 2) && decide (node < 16) && (fld p 2 1 == 1 || fld p 2 1 == 2) && decide (fld p 3 1 ≤ 1)
      && (ide || decide (id < 2 ^ 11)) && nameOk (slice p 8 8)
      && !(!ide && id == c.cfg.stopId) && !isNodeId c ide id (some node)) s r stBadRange fun s =>
  change1 s r siteObj
    (fun s => modCanSet s ch fun x => { x with
      nodes := tput x.nodes node { enable := fld p 2 1 == 1, ide := ide, stopId := id, name := slice p 8 8 } }) fun _ => []

def execCanNodeSet (r : Request) (s : State) : Host.Outcome State Fault Refusal := .next (opCanNodeSet r s)

/-- Length of data padded to a multiple of 4. -/
def pad4 (n : Nat) : Nat := (n + 3) / 4 * 4

/-- The frames of CAN_SEND as slices of the payload; none where the lengths do not add up. -/
def sendFrames : Nat → Bytes → Option (List Bytes)
  | 0, p => if p.isEmpty then some [] else none
  | n + 1, p =>
    let len := 8 + pad4 (fld p 4 1)
    if p.length < 8 || p.length < len then none else (sendFrames n (p.drop len)).map fun l => p.take len :: l

/-- Reserved bits of a frame of CAN_SEND. -/
def sendRsv (f : Bytes) : Bool :=
  !bit (fld f 0 4) 31 && decide (fld f 5 1 < 4) && allZero (f.drop (8 + fld f 4 1))

/-- The frame as it is queued. -/
def sendFrame (f : Bytes) (c : CanConfig) (sessionId : Nat) : CanTx :=
  let fdf := bit (fld f 0 4) 30
  { frame := { id := fld f 0 4 % 2 ^ 29, ide := bit (fld f 0 4) 29, fdf := fdf, brs := fdf && decide (c.nominal < c.data), data := slice f 8 (fld f 4 1) }
    oneShot := bit (fld f 5 1) 0
    notify := bit (fld f 5 1) 1
    txRef := fld f 6 2
    sessionId := sessionId }

/-- A frame CAN_SEND may carry on a channel (R459). -/
def sendOk (p : CanPersist) (t : CanTx) : Bool :=
  canFrameOk t.frame.ide t.frame.fdf t.frame.id t.frame.data.length && !(!t.frame.ide && t.frame.id == p.cfg.stopId)
    && !isNodeId p t.frame.ide t.frame.id none

/-- The TX queue takes the frames one after the other: none of them finds it FULL (R87, R94). -/
def canRoom (s : State) (ch : Nat) (ts : List CanTx) : Bool :=
  match qParam (0x31 + 2 * ch) with
  | none => false
  | some q =>
    let ahead := (ts.dropLast.map fun t => cdiv (canTxFrame ch t).length 60).sum
    decide (ahead + q.maxFrame + q.reserve ≤ freeEntries s (0x31 + 2 * ch) (queueAt s (0x31 + 2 * ch) q))

/-- CAN_SEND (R459). -/
def opCanSend (r : Request) (s : State) : State :=
  let p := r.payload
  let ch := fld p 0 1
  let n := fld p 1 1
  let fs := sendFrames n (p.drop 4)
  let l := fs.getD []
  runOp s r (decide (4 ≤ p.length) && fs.isSome) (zeros p 2 2 && l.all sendRsv) true (inModes s mRun) fun s =>
  let ts := l.map fun f => sendFrame f (canAt s ch).cfg r.sessionId
  need (decide (ch < 2) && decide (1 ≤ n) && decide (n ≤ 8) && ts.all (sendOk (canSet s ch))) s r stBadRange fun s =>
  let st := (canAt s ch).state
  need (canRoom s ch ts && st != .asleep && st != .disabled && st != .off) s r stBusy fun s =>
  let q := 0x31 + 2 * ch
  let occ := occOf s q
  finish (arrived (modCan s ch fun c => { c with txq := c.txq ++ ts }) q occ) r stOk []

def execCanSend (r : Request) (s : State) : Host.Outcome State Fault Refusal := .next (opCanSend r s)

/-- CAN_SUBSCRIBE (R460). -/
def opCanSubscribe (r : Request) (s : State) : State :=
  let p := r.payload
  let ch := fld p 0 1
  runOp s r (p.length == 4) (zeros p 2 2) true (edt s 0x0B21) fun s =>
  need (decide (ch < 2) && (fld p 1 1 == 1 || fld p 1 1 == 2)) s r stBadRange fun s =>
  change1 s r (okSession, r.slot)
    (fun s => modSession s r.slot fun e => { e with canSub := e.canSub.set ch (if fld p 1 1 = 1 then some (fcNow s) else none) }) fun _ => []

def execCanSubscribe (r : Request) (s : State) : Host.Outcome State Fault Refusal := .next (opCanSubscribe r s)

/-- CAN_SLEEP with either ACTION (R453, R461). -/
def opCanSleep (r : Request) (s : State) : State :=
  let p := r.payload
  let ch := fld p 0 1
  let action := fld p 1 1
  runOp s r (p.length == 4) (zeros p 2 2) (supOk s r) (inModes s [.calm, .zephyr, .breeze, .drift, .lull, .watch]) fun s =>
  need (decide (ch < 2) && (action == 1 || action == 2)) s r stBadRange fun s =>
  need (!(action == 1 && !s.stop.voted)) s r stBusy fun s =>
  change1 s r siteObj
    (fun s => modCan s ch fun c =>
      if action = 2 then wakeChan (fcNow s) 6 true true c
      else if canOn c || c.state == .busOff then { c with sleepDue := some (fcNow s) } else c) fun _ => []

/-- Fix ACTION, for the row that stands for one of its values. -/
def withCanAction (r : Request) (b : Nat) : Request := { r with payload := r.payload.set 1 (BitVec.ofNat 8 b) }

def execCanSleepSleep (r : Request) (s : State) : Host.Outcome State Fault Refusal := .next (opCanSleep (withCanAction r 1) s)

def execCanSleepWake (r : Request) (s : State) : Host.Outcome State Fault Refusal := .next (opCanSleep (withCanAction r 2) s)

end Sys2Proof.Machine
end

