-- ==== Sys2Proof/Machine/Robots.lean ====
section
/-! DEFINITION. Robots over the air: the Robot Presence Table, associations and their cells, the uplink path and its
messages, and the rows that age robots (R264 to R283, R415, R419 to R421, R424, R432, R433, R435). -/

namespace Sys2Proof.Machine

open Sys2Proof

/-! ### Session state (R265, R266, R292) -/

/-- SSTATE code. -/
def sstateCode : SState → Nat
  | .free => 0 | .enrolled => 1 | .associating => 2 | .associated => 3 | .adrift => 4 | .asleep => 5 | .lost => 6

/-- Set SSTATE with the cause its event reports; the commit is the caller's, made before it or at the start of PLAN. -/
def setSState (s : State) (i : Nat) (new : SState) (cause : Nat) : State :=
  let x := robotRec s i
  let s := modRobot s i fun r =>
    { r with evOld := some (r.evOld.getD x.sstate), evCause := cause, evTag := none, evCsn := s.com.csn, evEui := x.eui, evCls := x.cls }
  { s with p.robots := tput s.p.robots i { x with sstate := new } }

/-- The last change of SSTATE was made by a command, which EV_SESS_STATE names (R58). -/
def tagSess (s : State) (i : Nat) (r : Request) : State := modRobot s i fun x => { x with evTag := tagOf s r }

/-- A change of SSTATE by LNK: its commit is made at the start of PLAN (R97). -/
def lnkSState (s : State) (i : Nat) (new : SState) (cause : Nat) : State := submit (setSState s i new cause) orgLnk okRobot i

/-- EV_SESS_STATE of the FC (R292), with the CSN of the last change's commit. -/
def emitSess (s : State) : State :=
  (s.sess.robots.filter fun e => e.2.evOld.isSome).foldl (fun s e =>
    let x := e.2
    let s := modRobot s e.1 fun r => { r with evOld := none }
    raiseWith s x.evCsn x.evTag 0x8601 .all (le 1 e.1 ++ le 1 (sstateCode (robotRec s e.1).sstate) ++ le 1 ((x.evOld.map sstateCode).getD 0) ++ le 1 x.evCause
      ++ le 8 x.evEui.toNat ++ le 2 x.shortAddr ++ le 1 x.evCls ++ zb 1)) s

/-- EV_RPT_SPOOF (R579). -/
def emitSpoof (s : State) : State :=
  if fcNow s % 100 != 0 || s.sess.micFail == s.sess.micSent then s else
  raise { s with sess.micSent := s.sess.micFail } 0x8603 .sup
    (le 4 (s.sess.micFail - s.sess.micSent) ++ le 8 s.sess.lastSpoofEui.toNat ++ le 1 s.sess.lastSpoofPort ++ zb 3)

/-- The session an EUI-64 is enrolled in. -/
def sessionOfEui (s : State) (eui : BitVec 64) : Option Nat :=
  (s.p.robots.find? fun e => e.2.sstate != .free && e.2.eui == eui).map (·.1)

/-! ### The Robot Presence Table (R274 to R280) -/

/-- The set of an EUI-64 (R274). -/
def rptSet (eui : BitVec 64) : Nat :=
  let x := (eui ^^^ (eui >>> (31 : Nat))) * 0xA24BAED4963EE407#64
  x.toNat / 2 ^ 32 * 1008 / 2 ^ 32

/-- The ways of an EUI-64's set. -/
def rptWays (eui : BitVec 64) : List Nat := (List.range 4).map fun i => rptSet eui * 4 + i

/-- The overflow entries. -/
def rptOverflow : List Nat := (List.range 64).map (· + 4032)

/-- An entry of the table. -/
def rptAt (s : State) (k : Nat) : RptEntry := tgetD s.sess.rpt k {}

/-- The VALID entry of an EUI-64. -/
def rptFind (s : State) (eui : BitVec 64) : Option Nat :=
  (rptWays eui ++ rptOverflow).find? fun k => (rptAt s k).valid && (rptAt s k).eui == eui

/-- Change an entry. -/
def modRpt (s : State) (k : Nat) (f : RptEntry → RptEntry) : State := { s with sess.rpt := tmod s.sess.rpt k {} f }

/-- FCs since an entry was last heard. -/
def rptAge (s : State) (k : Nat) : Nat := (fcNow s + 2 ^ 32 - (rptAt s k).lastHeard) % 2 ^ 32

/-- The unlocked unenrolled entry of a list heard longest ago, the lower index on a tie. -/
def rptVictim (s : State) (l : List Nat) : Option Nat :=
  (l.filter fun k => (rptAt s k).valid && !(rptAt s k).enrolled && !(rptAt s k).lock).foldl (fun m k =>
    match m with
    | none => some k
    | some b => if rptAge s b < rptAge s k then some k else some b) none

/-- The place an entry for an EUI-64 takes at enrolment (R278). -/
def rptPlace (s : State) (eui : BitVec 64) : Option Nat :=
  let free (l : List Nat) : Option Nat := l.find? fun k => !(rptAt s k).valid
  match free (rptWays eui) with
  | some k => some k
  | none =>
    match rptVictim s (rptWays eui) with
    | some k => some k
    | none =>
      match free rptOverflow with
      | some k => some k
      | none => rptVictim s rptOverflow

/-- The place an unenrolled EUI-64 is learned into (R278). -/
def rptLearnPlace (s : State) (eui : BitVec 64) : Option Nat :=
  match (rptWays eui ++ rptOverflow).find? fun k => !(rptAt s k).valid with
  | some k => some k
  | none =>
    match rptVictim s (rptWays eui) with
    | some k => some k
    | none => rptVictim s rptOverflow

/-- The radio a robot is heard on; none while it is not HEARD. -/
def portOf (s : State) (eui : BitVec 64) : Option Nat :=
  match rptFind s eui with
  | some k => if (rptAt s k).heard then some (rptAt s k).port else none
  | none => none

/-- Write SHORT_ADDR of a robot's entry. -/
def rptAddr (s : State) (eui : BitVec 64) (addr : Nat) : State :=
  match rptFind s eui with
  | some k => modRpt s k fun e => { e with shortAddr := addr }
  | none => s

/-! ### Dedicated cells (R424) -/

/-- The period of a class. -/
def cellPeriod (posrep : Nat) : Nat := if 80 ≤ posrep then 8 else if 40 ≤ posrep then 4 else if 20 ≤ posrep then 2 else 1

/-- Two assignments of one cell, period and phase, collide. -/
def cellCollide (a b : Nat × Nat) : Bool := if b.1 ≤ a.1 then a.2 % b.1 == b.2 else b.2 % a.1 == a.2

/-- The lowest free cell at a period, and its lowest phase. -/
def cellRoom (s : State) (m : Nat) : Option (Nat × Nat × Nat) :=
  ((List.range 16).flatMap fun d => (List.range m).map fun p => (d, m, p)).find? fun q =>
    !(s.radio.cells.any fun e => e.2.1 == q.1 && cellCollide (e.2.2.1, e.2.2.2) (q.2.1, q.2.2))

/-- The cell a robot gets: at its period, else at twice it, up to 8. -/
def pickCell (s : State) (m : Nat) : Option (Nat × Nat × Nat) := ([1, 2, 4, 8].filter fun k => decide (m ≤ k)).findSome? (cellRoom s)

/-- CELL_LOAD, in eighths of a cell. -/
def cellLoad (s : State) : Nat := (s.radio.cells.map fun e => 8 / e.2.2.1).sum

/-- EV_RADIO_CELL. -/
def cellEvent (s : State) (i cause : Nat) (q : Option (Nat × Nat × Nat)) : State :=
  let (d, m, p) := q.getD (0xFF, 0, 0)
  raise s 0x8A03 .sup (le 1 i ++ le 1 cause ++ le 1 d ++ le 1 m ++ le 1 p ++ zb 1 ++ le 2 (cellLoad s))

/-- Assign a robot its cell and send the assignment: EFFECT_ASN is the first slot of the first frame at least 20 FC on. -/
def assignCell (s : State) (i : Nat) : State :=
  let q := pickCell s (cellPeriod (tgetD s.p.classes (robotRec s i).cls {}).posrep)
  let s : State := { s with radio.cells := match q with | some c => tput s.radio.cells i c | none => tdel s.radio.cells i }
  let s := cellEvent s i (if q.isSome then 1 else 2) q
  let (d, m, p) := q.getD (0xFF, 1, 0)
  queueMsg s 3 (some i) (le 1 0x29 ++ le 1 d ++ le 1 m ++ le 1 p ++ le 8 (40 * cdiv (4 * (fcNow s + 20)) 40))

/-- Release a robot's cell. -/
def releaseCell (s : State) (i : Nat) : State :=
  match tget s.radio.cells i with
  | none => s
  | some c => cellEvent { s with radio.cells := tdel s.radio.cells i } i 3 (some c)

/-! ### Associations (R267 to R271) -/

/-- End an association: keys discarded, address retired, counters stopped; reservations and plan state stay. -/
def endAssociation (s : State) (i : Nat) : State :=
  let s := releaseCell (rptAddr s (robotRec s i).eui 0xFFFF) i
  let s := modRobot s i fun x => { x with
    assocKey := []
    shortAddr := 0xFFFF
    deviceNonce := []
    upCtr := 0
    upSeen := []
    downCtr := 0
    lastFrame := [none, none]
    blinkHz := 0
    blinkWas := []
    blinkCtr := none
    wakeFc := none
    wakeMissed := false
    chain := none }
  { s with radio.elements := s.radio.elements.filter fun e => !(e.session == some i && e.kind == 1) }

/-- The key message of R490: the keys in force, or those of the pending roll. -/
def keyMessage (s : State) (next : Bool) (effect : Nat) : Bytes :=
  let g := s.p.keys.groupGen
  let b := s.p.keys.beaconGen
  let what := (s.p.keys.roll.map (·.1)).getD 0
  let g := if next && bit what 0 then nextGen g else g
  let b := if next && bit what 1 then nextGen b else b
  le 1 0x2A ++ le 1 (flag next 0) ++ le 2 g ++ le 2 b ++ zb 2 ++ le 8 effect ++ groupKey s g
    ++ (List.range 3).flatMap fun c => beaconKey s c b

/-- Queue a robot's key messages. -/
def queueKeys (s : State) (i : Nat) : State :=
  let s := queueMsg s 3 (some i) (keyMessage s false 0)
  match s.p.keys.roll with
  | some (_, fc) => queueMsg s 3 (some i) (keyMessage s true fc)
  | none => s

/-- Queue a message under a robot's link key as fragments (R212). -/
def queueLinkFragments (s : State) (session : Option Nat) (eui : BitVec 64) (p : Bytes) : State :=
  let frags := airFragments s.ref.msgSeq s.p.refCfg.fragBytes p
  { s with
    ref.msgSeq := (s.ref.msgSeq + 1) % 256
    radio.elements := s.radio.elements ++ frags.map fun b =>
      { cls := 3, session := session, kind := 3, eui := eui, body := b, frag := true, fc := fcNow s, commitFc := fcNow s } }

/-- ASSOC_RESP (R267). -/
def assocResp (s : State) (result addr : Nat) (nonce : Bytes) : Bytes :=
  le 1 0x11 ++ le 1 result ++ le 2 addr ++ le 4 s.p.control.bootCount ++ fit 16 nonce ++ fit 32 (fingerprint s.fuse.secret)
    ++ le 2 s.sec.attest.length ++ s.sec.attest

/-- The next short-address generation (R269). -/
def nextAddrGen (g : Nat) : Nat := if 0xEF ≤ g then 1 else g + 1

/-- An ASSOC_REQ accepted (R268 step 5). -/
def acceptAssoc (s : State) (i : Nat) (m : AirMsg) : State :=
  let s := endAssociation s i
  let x := robotRec s i
  let gen := nextAddrGen x.gen
  let addr := gen * 256 + i
  let (nonce, s) := freshBytes s 16
  let s := lnkSState s i .associating 2
  let s : State := { s with p.robots := tmod s.p.robots i {} fun y => { y with gen := gen } }
  let keys := assocKeys s x.eui (slice m.body 8 16) nonce addr
  let s := cacheKey s i (linkGen s x.eui)
  let s := modRobot s i fun r => { r with assocKey := keys, shortAddr := addr, deviceNonce := nonce, respFc := fcNow s }
  queueLinkFragments (rptAddr s x.eui addr) (some i) x.eui (assocResp s 0 addr nonce)

/-- The answer to an ASSOC_REQ, by the enrolment as the FC's commands leave it (R268, R271). -/
def answerAssoc (s : State) (m : AirMsg) : State :=
  if s.mode.cur == .tender || m.body.length != 24 || !zeros m.body 2 2 then s else
  match sessionOfEui s m.eui with
  | none => queueLinkFragments s none m.eui (assocResp s 1 0xFFFF [])
  | some i =>
    if fld m.body 1 1 != (robotRec s i).cls then queueLinkFragments s (some i) m.eui (assocResp s 2 0xFFFF [])
    else acceptAssoc s i m

/-- An ASSOC_CONFIRM (R266, R268, R271): under the association key it makes the session ASSOCIATED. One that does not echo the
nonce of the response in force is stale; one latched later than 50 FCs after that response is too late. -/
def confirmAssoc (s : State) (m : AirMsg) : State :=
  match sessionOfEui s m.eui with
  | none => s
  | some i =>
    let x := robotAt s i
    if m.body.length != 20 || !zeros m.body 2 2 then s
    else if slice m.body 4 16 != x.deviceNonce then { s with sess.staleConfirm := inc32 s.sess.staleConfirm }
    else if (robotRec s i).sstate != .associating || x.respFc + 50 < fcNow s then s
    else if fld m.body 1 1 = 0 && m.kind = 1 then
      let s := lnkSState s i .associated 3
      let s := modRobot s i fun r => { r with assocTime := nowTime s % 2 ^ 64, assocCount := inc32 r.assocCount }
      let s := modPlan s i fun p => { p with planId := 0 }
      queueKeys (assignCell (assignBlinks s i (effectSecond s) []) i) i
    else if fld m.body 1 1 = 1 && m.kind = 3 then endAssociation (lnkSState s i .enrolled 5) i
    else s

/-! ### Receiving (R421, R435, R276, R277) -/

/-- PAN_ID in force. -/
def panId (s : State) : Nat :=
  let d := s.fuse.eui64.toNat % 65536
  if s.p.radio.cfg.panId != 0 then s.p.radio.cfg.panId else if d = 0 || d = 0xFFFF then 1 else d

/-- Change one radio. -/
def modOne (s : State) (r : Nat) (f : OneRadio → OneRadio) : State :=
  if r = 0 then { s with radio.a := f s.radio.a } else { s with radio.b := f s.radio.b }

/-- One radio. -/
def oneRadio (s : State) (r : Nat) : OneRadio := if r = 0 then s.radio.a else s.radio.b

/-- The uplink cells of the 40-slot plan (R412). -/
def uplinkCells : List Nat := [2, 3, 20, 22, 23, 25, 26, 27, 28, 29, 32, 33, 34, 35, 36, 37, 38, 39]

/-- ASN of a slot of the FC in progress. -/
def asnOf (s : State) (k : Nat) : Nat := 4 * fcNow s + k

/-- A stop frame takes the slot (R384, R418). -/
def stopInSlot (s : State) (k : Nat) : Bool :=
  decide (s.stop.stopFrom ≤ asnOf s k) && decide (asnOf s k < s.stop.stopUntil)

/-- An element whose MIC fails (R276, R421). -/
def elementMicFail (s : State) (radio : Nat) (eui : BitVec 64) : State :=
  let s := modOne s radio fun x => { x with micFail := inc32 x.micFail }
  let s : State := { s with sess.micFail := inc32 s.sess.micFail, sess.lastSpoofEui := eui, sess.lastSpoofPort := radio }
  match rptFind s eui with
  | some k => modRpt s k fun e => { e with spoof := true }
  | none => s

/-- A DUPLICATE. -/
def elementDuplicate (s : State) (radio : Nat) : State :=
  { modOne s radio fun x => { x with duplicate := inc32 x.duplicate } with sess.duplicate := inc32 s.sess.duplicate }

/-- A REPLAY. -/
def elementReplay (s : State) (radio : Nat) : State :=
  { modOne s radio fun x => { x with replay := inc32 x.replay } with sess.replay := inc32 s.sess.replay }

/-- How an association counter stands to those accepted (R421). -/
inductive CtrClass where
  | new | late | duplicate | replay
deriving DecidableEq, Repr

/-- The rule of R421 for ASSOC elements. -/
def ctrClass (x : Robot) (c : Nat) : CtrClass :=
  if x.upCtr < c then .new
  else if c + 64 < x.upCtr then .replay
  else if c = x.upCtr || x.upSeen.contains c then .duplicate
  else .late

/-- Note an accepted association counter. -/
def noteCtr (x : Robot) (c : Nat) : Robot :=
  if x.upCtr < c then { x with upCtr := c, upSeen := (x.upCtr :: x.upSeen).filter fun v => decide (v ≠ 0) && decide (c ≤ v + 64) }
  else { x with upSeen := c :: x.upSeen }

/-- A message type the RD-824 takes from robots. -/
def knownMsg (t : Nat) : Bool := t == 0x10 || t == 0x12 || t == 0x20 || t == 0x21 || t == 0x28

/-- Latch a whole message; fragments and unknown types are not taken. -/
def latchMsg (s : State) (frag : Bool) (m : AirMsg) : State :=
  if frag || !knownMsg (fld m.body 0 1) then s else { s with radio.msgs := s.radio.msgs ++ [m] }

/-- An element as it stands in a frame (R419): what the MIC covers ahead of the body, the body and the MIC. -/
structure Element where
  more : Bool
  frag : Bool
  kind : Nat
  addr : Nat
  ctr : Nat
  eui : BitVec 64
  aad : Bytes
  body : Bytes
  mic : Bytes
deriving DecidableEq, Repr

/-- The elements of a frame's body, at most `n`; what is left too short for an element is passed over. -/
def parseElements : Nat → Bytes → List Element
  | 0, _ => []
  | n + 1, b =>
    let hdr := fld b 0 1
    let len := fld b 1 1
    let head := if hdr % 16 = 3 then 16 else 8
    if len = 0 || b.length < head + len + 8 then [] else
    { more := bit hdr 7, frag := bit hdr 6, kind := hdr % 16, addr := fld b 2 2, ctr := fld b 4 4
      eui := BitVec.ofNat 64 (if head = 16 then fld b 8 8 else 0)
      aad := b.take head, body := slice b head len, mic := slice b (head + len) 8 } :: parseElements n (b.drop (head + len + 8))

/-- The elements of an uplink frame: its body lies between the 10 header bytes and the FCS (R414, R415, R419). -/
def elementsOf (f : AirIn) : List Element :=
  let b := (f.psdu.drop 10).take (f.psdu.length - 14)
  parseElements b.length b

/-- An uplink element opened under a key: its plaintext in the place of its body where its MIC holds (R420). -/
def openElement (key : Bytes) (eui : BitVec 64) (e : Element) : Option Element :=
  (ccmOpen key (nonce154 eui e.ctr 6) e.aad e.body e.mic 8).map fun p => { e with body := p }

/-- Add an element to its message (R419): a chain goes on only with the next counter of the same kind. -/
def chainElement (s : State) (i : Nat) (radio : Nat) (e : Element) (eui : BitVec 64) : State :=
  let x := robotAt s i
  let sofar : Option Bytes := match x.chain with
    | some (k, c, b) => if k = e.kind && c + 1 = e.ctr then some b else none
    | none => none
  let body := sofar.getD [] ++ e.body
  if e.more then modRobot s i fun x => { x with chain := some (e.kind, e.ctr, body) }
  else
    latchMsg (modRobot s i fun x => { x with chain := none }) e.frag
      { radio := radio, kind := e.kind, session := some i, eui := eui, ctr := e.ctr, body := body }

/-- What an accepted element tells of its frame: its session, its counter, and whether it announces a sleep. -/
def accepted (i : Nat) (e : Element) : Option (Nat × Nat × Bool) := some (i, e.ctr, fld e.body 0 1 == 0x28)

/-- An element under an association key (R420, R421). -/
def takeAssoc (s : State) (radio : Nat) (e : Element) : Option (Nat × Nat × Bool) × State :=
  match s.sess.robots.find? fun q => q.2.shortAddr == e.addr && e.addr != 0xFFFF with
  | none => (none, s)
  | some (i, x) =>
    let eui := (robotRec s i).eui
    match openElement (x.assocKey.take 16) eui e with
    | none => (none, elementMicFail s radio eui)
    | some e =>
      match ctrClass x e.ctr with
      | .duplicate => (none, elementDuplicate s radio)
      | .replay => (none, elementReplay s radio)
      | _ => (accepted i e, chainElement (modRobot s i fun x => noteCtr x e.ctr) i radio e eui)

/-- Learn an unenrolled EUI-64 from its ASSOC_REQ (R276, R278). -/
def learnUnenrolled (s : State) (radio : Nat) (eui : BitVec 64) : State :=
  let heard (e : RptEntry) : RptEntry := { e with heard := true, port := radio, lastHeard := fcNow s % 2 ^ 32 }
  match rptFind s eui with
  | some k => modRpt s k heard
  | none =>
    match rptLearnPlace s eui with
    | some k => { s with sess.rpt := tput s.sess.rpt k (heard { eui := eui, valid := true }) }
    | none => { s with sess.rptFull := inc32 s.sess.rptFull }

/-- An element under a link key (R268, R420). -/
def takeLink (s : State) (radio : Nat) (e : Element) : Option (Nat × Nat × Bool) × State :=
  match openElement (linkKey s e.eui) e.eui e with
  | none => (none, elementMicFail s radio e.eui)
  | some e =>
    match sessionOfEui s e.eui with
    | none =>
      if fld e.body 0 1 = 0x10 && !e.more then
        (none, latchMsg (learnUnenrolled s radio e.eui) e.frag { radio := radio, kind := 3, eui := e.eui, ctr := e.ctr, body := e.body })
      else (none, s)
    | some i =>
      let x := robotRec s i
      if e.ctr = x.linkCtr then (none, elementDuplicate s radio)
      else if e.ctr < x.linkCtr then (none, elementReplay s radio)
      else (accepted i e, chainElement { s with p.robots := tput s.p.robots i { x with linkCtr := e.ctr } } i radio e e.eui)

/-- 5 ms in FTU. -/
def raceFtu : Nat := 319488000

/-- EV_PORT_MOVE, at most one for each robot in an FC. -/
def portMoved (s : State) (i radio ctr gap : Nat) : State :=
  if (robotAt s i).moveFc == some (fcNow s) then s else
  raise (modRobot s i fun x => { x with moveFc := some (fcNow s) }) 0x8602 .sup
    (le 1 i ++ le 1 radio ++ zb 2 ++ le 4 ctr ++ le 4 (sat 32 (gap * 10 / 638976)))

/-- Learn an accepted frame of an enrolled robot: HEARD, LAST_HEARD_FC and PORT (R276, R277). `high` is the highest counter
accepted before it. -/
def learnFrame (s : State) (i radio ctr high t : Nat) (link : Bool) : State :=
  let x := robotAt s i
  match rptFind s (robotRec s i).eui with
  | none => s
  | some k =>
    let e := rptAt s k
    let (port, s) :=
      if !e.heard || link then (radio, s)
      else if e.port = radio || ctr ≤ high then (e.port, s)
      else
        match x.lastFrame.getD e.port none with
        | some u =>
          let gap := (t + 2 ^ 64 - u) % 2 ^ 64
          if gap ≤ raceFtu then (radio, { s with sess.portRace := inc32 s.sess.portRace }) else (radio, portMoved s i radio ctr gap)
        | none => (radio, portMoved s i radio ctr (2 ^ 63))
    let s := modRpt s k fun e => { e with heard := true, port := port, lastHeard := fcNow s % 2 ^ 32 }
    modRobot s i fun x => { x with
      lastHeard := fcNow s
      lastFrame := (if link then [none, none] else x.lastFrame).set radio (some t) }

/-- EV_RADIO_WAKE. -/
def wakeEvent (s : State) (i cause : Nat) : State :=
  raise s 0x8A02 .all (le 1 i ++ le 1 cause ++ le 1 ((portOf s (robotRec s i).eui).getD 0xFF) ++ zb 1 ++ zb 4 ++ le 8 ((robotAt s i).wakeFc.getD 0))

/-- An accepted frame brings an ADRIFT or ASLEEP robot back, unless all of it is a sleep announcement, and ends WAKE_MISSED. -/
def heardAgain (s : State) (i : Nat) (sleepOnly : Bool) : State :=
  let s := if (robotAt s i).wakeMissed then wakeEvent (modRobot s i fun x => { x with wakeMissed := false }) i 2 else s
  let st := (robotRec s i).sstate
  if (st == .adrift || st == .asleep) && !sleepOnly then lnkSState s i .associated 7 else s

/-- Apply one frame: its elements in order, then what an accepted frame teaches. -/
def applyFrame (s : State) (f : AirIn × Bytes) : State :=
  let fr := f.1
  let highs := s.sess.robots.map fun e => (e.1, e.2.upCtr)
  let (got, s) := (elementsOf fr).foldl (fun (a : List (Nat × Nat × Bool × Bool) × State) e =>
    let (r, s') := if e.kind = 1 then takeAssoc a.2 fr.radio e else if e.kind = 3 then takeLink a.2 fr.radio e else (none, a.2)
    match r with
    | some (i, c, sl) => (a.1 ++ [(i, c, e.kind == 3, sl)], s')
    | none => (a.1, s')) ([], s)
  match got with
  | [] => s
  | (i, _) :: _ =>
    let mine := got.filter fun g => g.1 == i
    let link := mine.any fun g => g.2.2.1
    let ctr := (mine.map (·.2.1)).foldl max 0
    let high := ((highs.find? (·.1 == i)).map (·.2)).getD 0
    let s := learnFrame s i fr.radio ctr high fr.stamp.toNat link
    if mine.all fun g => g.2.2.1 then s else heardAgain s i (mine.all fun g => g.2.2.2)

/-- LATCH: LNK applies the frames latched in capture order. -/
def latchRadio (s : State) : State :=
  let l := s.radio.rx
  l.foldl applyFrame { s with radio.rx := [], radio.msgs := [] }

/-! ### The rows of latched messages -/

/-- Take the first latched message of a type. -/
def takeMsg (s : State) (t : Nat) : Option (AirMsg × State) :=
  (s.radio.msgs.find? fun m => fld m.body 0 1 == t).map fun m => (m, { s with radio.msgs := s.radio.msgs.erase m })

/-- ASSOC_REQ (R268): decided in LATCH, answered by the enrolment as COMMAND leaves it, committed at the start of PLAN. -/
def opAssocReq (s : State) : State :=
  if !running s || s.clk.window != .command then s else
  match takeMsg s 0x10 with
  | some (m, s) => answerAssoc s m
  | none => s

def execAssocReq (s : State) : Host.Outcome State Fault Refusal := .next (opAssocReq s)

/-- ASSOC_CONFIRM (R266, R271): committed at the start of PLAN of the FC that latches it. -/
def opAssocConfirm (s : State) : State :=
  if !running s || s.clk.window != .command then s else
  match takeMsg s 0x12 with
  | some (m, s) => confirmAssoc s m
  | none => s

def execAssocConfirm (s : State) : Host.Outcome State Fault Refusal := .next (opAssocConfirm s)

/-- A position report's content applied to its session (R272, R273). -/
def applyReport (s : State) (m : AirMsg) : State :=
  match m.session with
  | none => s
  | some i =>
    let p := m.body
    if p.length != 32 || m.kind != 1 || 16 ≤ fld p 1 1 || !associated s i then s else
    let none3 := fld p 4 4 == 0x80000000
    let rtk : RtkReport :=
      { e := fldI p 4 4, n := fldI p 8 4, u := fldI p 12 4, sigma := fld p 16 2, time := fld p 24 8, fc := fcNow s }
    modRobot s i fun x => { x with
      rtk := if bit (fld p 1 1) 0 && !none3 then some rtk else x.rtk
      heading := fld p 18 2
      speed := fldI p 20 2
      battery := fld p 2 1
      lowBattery := bit (fld p 1 1) 3
      still2 := if bit (fld p 1 1) 2 then 0 else min 3 (x.still2 + 1) }

/-- POSITION_REPORT (R273): applied by SOLVE of its latching FC. -/
def opPositionReport (s : State) : State :=
  if !running s || !(s.clk.window == .latch || s.clk.window == .safe) then s else
  match takeMsg s 0x20 with
  | some (m, s) => applyReport s m
  | none => s

def execPositionReport (s : State) : Host.Outcome State Fault Refusal := .next (opPositionReport s)

/-- A robot's plan request (R346): a HALTED robot has its rank 1 request, a PARKED one with an ACTIVE task its
continuation; any other is counted and ignored. -/
def applyPlanReq (s : State) (m : AirMsg) : State :=
  match m.session with
  | none => s
  | some i =>
    let p := planAt s i
    let asked := (requesters s).contains i
    let good := m.body.length == 16 && (p.state == .halted || (p.state == .parked && (activeTask s i).isSome)) && !asked
    if good then s else { s with allot.ignored := inc32 s.allot.ignored }

/-- PLAN_REQ (R346). -/
def opPlanReq (s : State) : State :=
  if !running s || !(s.clk.window == .latch || s.clk.window == .safe || s.clk.window == .solve || s.clk.window == .command) then s else
  match takeMsg s 0x21 with
  | some (m, s) => applyPlanReq s m
  | none => s

def execPlanReq (s : State) : Host.Outcome State Fault Refusal := .next (opPlanReq s)

/-- A SLEEP element (R432): the first makes the session ASLEEP, a later one renews. -/
def applySleep (s : State) (m : AirMsg) : State :=
  match m.session with
  | none => s
  | some i =>
    let p := m.body
    let st := (robotRec s i).sstate
    if p.length != 16 || m.kind != 1 || fld p 2 2 = 0 || 1200 < fld p 2 2 || !(st == .associated || st == .adrift || st == .asleep) then s else
    let s := modRobot s i fun x => { x with wakeFc := some (fld p 8 8) }
    if st == .asleep then s else lnkSState s i .asleep 8

/-- SLEEP (R432). -/
def opSleep (s : State) : State :=
  if !running s || !(s.clk.window == .latch || s.clk.window == .safe) then s else
  match takeMsg s 0x28 with
  | some (m, s) => applySleep s m
  | none => s

def execSleep (s : State) : Host.Outcome State Fault Refusal := .next (opSleep s)

/-- Messages of some types not yet taken are acted on before their deadline. -/
def drainMsgs (s : State) (t : Nat) (f : State → AirMsg → State) : State :=
  let ms := s.radio.msgs.filter fun m => fld m.body 0 1 == t
  ms.foldl f { s with radio.msgs := s.radio.msgs.filter fun m => fld m.body 0 1 != t }

/-! ### Aging (R266, R279, R281, R283, R433) -/

/-- ASSOC_TIMEOUT (R266): in FC n + 51 an unconfirmed session returns to ENROLLED, committed at the start of PLAN (R97). -/
def opAssocTimeout (s : State) : State :=
  if !running s || s.clk.window != .command then s else
  (s.p.robots.filter fun e => e.2.sstate == .associating && decide ((robotAt s e.1).respFc + 50 < fcNow s)).foldl
    (fun s e => endAssociation (lnkSState s e.1 .enrolled 4) e.1) s

def execAssocTimeout (s : State) : Host.Outcome State Fault Refusal := .next (opAssocTimeout s)

/-- ADRIFT (R281): in LATCH, after learning. -/
def opAdrift (s : State) : State :=
  if !running s || s.clk.window != .latch then s else
  (s.p.robots.filter fun e => e.2.sstate == .associated && decide ((robotAt s e.1).lastHeard + s.p.sessCfg.adrift ≤ fcNow s)).foldl
    (fun s e => lnkSState s e.1 .adrift 6) s

def execAdrift (s : State) : Host.Outcome State Fault Refusal := .next (opAdrift s)

/-- An ADRIFT or ASLEEP session whose entry has aged becomes LOST (R283). -/
def becomeLost (s : State) (i : Nat) : State :=
  let had := (robotAt s i).pos.had
  let s := endAssociation (lnkSState s i .lost (if had then 9 else 10)) i
  modRobot s i fun x => { x with lostDue := true }

/-- Age one entry of the table. -/
def ageEntry (s : State) (k : Nat) : State :=
  let e := rptAt s k
  let st := (robotRec s e.session).sstate
  let age := 100 * (if e.enrolled && st == .asleep then s.p.sessCfg.sleepAge else s.p.sessCfg.rptAge)
  if !e.valid || e.lock || rptAge s k < age then s
  else if !e.enrolled then { s with sess.rpt := tdel s.sess.rpt k }
  else if !e.heard || st == .enrolled then s
  else
    let s := modRpt s k fun e => { e with heard := false }
    if st == .adrift || st == .asleep then becomeLost s e.session else s

/-- AGING_SWEEP (R279): in LATCH, entries 41k to 41k + 40 in the FCs whose number mod 100 is k. -/
def opAgingSweep (s : State) : State :=
  if !running s || s.clk.window != .latch then s else
  ((List.range 41).map fun j => 41 * (fcNow s % 100) + j).foldl (fun s k => if k < 4096 then ageEntry s k else s) s

def execAgingSweep (s : State) : Host.Outcome State Fault Refusal := .next (opAgingSweep s)

/-- WAKE_MISSED (R433). -/
def opWakeMissed (s : State) : State :=
  if !running s || s.clk.window != .latch then s else
  (s.p.robots.filter fun e => e.2.sstate == .asleep && !(robotAt s e.1).wakeMissed
    && (match (robotAt s e.1).wakeFc with | some w => decide (w + 20 ≤ fcNow s) | none => false)).foldl
    (fun s e => wakeEvent (modRobot s e.1 fun x => { x with wakeMissed := true }) e.1 1) s

def execWakeMissed (s : State) : Host.Outcome State Fault Refusal := .next (opWakeMissed s)

/-- Remove every entry a robot holds, its plan forgotten: one commit on its path reservation. -/
def clearPlan (s : State) (i : Nat) : State :=
  if (planAt s i).state == .none && (planAt s i).dwell.isEmpty then s else
  let old := (planAt s i).dwell
  let s := removeTimed s i fun _ => true
  let s := removeDwell s i old
  commitBy { s with allot.plans := tdel s.allot.plans i } orgFlt okPath i

/-- PLAN: the reservations of a robot that has become LOST end, and its hold is made (R283). -/
def lostWork (s : State) : State :=
  (s.sess.robots.filter fun e => e.2.lostDue).foldl (fun s e =>
    let i := e.1
    let s := modRobot s i fun x => { x with lostDue := false }
    let s := clearPlan (loseTask (dropRequests s i intNone stInterrupted) i 8) i
    match restPlace s i with
    | some (x, y, h) =>
      let s : State := { s with p.robots := tmod s.p.robots i {} fun y => { y with lostHold := true } }
      makeLostHold s i (restCells s.strt.grid (tgetD s.p.classes (robotRec s i).cls {}) x y h)
    | none => s) s

end Sys2Proof.Machine
end

