-- ==== Sys2Proof/Machine/Sess.lean ====
section
/-! DEFINITION. The SESS opcodes: settings, classes, enrolment and the two readings of the robot sessions (R261 to R264,
R278, R284 to R291). -/

namespace Sys2Proof.Machine

open Sys2Proof

/-! ### SESS_CONFIG (R284) -/

/-- The settings as SESS_CONFIG returns them. -/
def sessCfgBytes (c : SessConfig) : Bytes := le 2 c.rptAge ++ le 2 c.adrift ++ le 4 c.sleepAge ++ zb 8

/-- The settings a payload leaves: a field of 0 keeps its setting. -/
def sessCfgFrom (c : SessConfig) (p : Bytes) : SessConfig :=
  { rptAge := keepIf0 (fld p 0 2) c.rptAge, adrift := keepIf0 (fld p 2 2) c.adrift, sleepAge := keepIf0 (fld p 4 4) c.sleepAge }

/-- The ranges of R284. -/
def sessCfgOk (c : SessConfig) : Bool :=
  decide (5 ≤ c.rptAge) && decide (c.rptAge ≤ 3600) && decide (20 ≤ c.adrift) && decide (c.adrift ≤ 6000)
    && decide (c.adrift < 100 * c.rptAge) && decide (60 ≤ c.sleepAge) && decide (c.sleepAge ≤ 86400)

/-- SESS_CONFIG (R284). -/
def opSessConfig (r : Request) (s : State) : State :=
  let p := r.payload
  let read := allZero p
  runOp s r (p.length == 16) (zeros p 8 8) (read || supOk s r) (edtOr s 0x0602 read mCfg) fun s =>
  if read then finish s r stOk (sessCfgBytes s.p.sessCfg) else
  let c := sessCfgFrom s.p.sessCfg p
  need (sessCfgOk c) s r stBadRange fun s =>
  change1 s r siteObj (fun s => { s with p.sessCfg := c }) fun s => sessCfgBytes s.p.sessCfg

def execSessConfig (r : Request) (s : State) : Host.Outcome State Fault Refusal := .next (opSessConfig r s)

/-! ### Classes (R261 to R263, R285, R286) -/

/-- The record of a class as a payload carries it. -/
def classFrom (p : Bytes) : ClassRec :=
  { flags := fld p 1 1, scale := fld p 2 1, clear := fld p 3 1, footprint := fld p 4 8, vmax := fld p 12 2, amax := fld p 14 2
    dmax := fld p 16 2, yaw := fld p 18 2, tol := fld p 20 2, hard := fld p 22 2, tagHeight := fld p 24 2, posrep := fld p 26 1
    name := slice p 32 16 }

/-- The 48-byte record of a class. -/
def classBytes (i : Nat) (c : ClassRec) : Bytes :=
  le 1 i ++ le 1 c.flags ++ le 1 c.scale ++ le 1 c.clear ++ le 8 c.footprint ++ le 2 c.vmax ++ le 2 c.amax ++ le 2 c.dmax
    ++ le 2 c.yaw ++ le 2 c.tol ++ le 2 c.hard ++ le 2 c.tagHeight ++ le 1 c.posrep ++ zb 5 ++ fit 16 c.name

/-- The ranges of R261 and R262: they bind a DEFINED record. -/
def classOk (c : ClassRec) : Bool :=
  decide (1 ≤ c.scale) && decide (c.scale ≤ 4) && decide (c.clear ≤ 2) && bit c.footprint 24
    && decide (50 ≤ c.vmax) && decide (c.vmax ≤ 10000) && decide (50 ≤ c.amax) && decide (c.amax ≤ 5000)
    && decide (50 ≤ c.dmax) && decide (c.dmax ≤ 10000) && decide (100 ≤ c.yaw) && decide (c.yaw ≤ 36000)
    && decide (20 ≤ c.tol) && decide (c.tol ≤ 2000) && decide (c.tol < c.hard) && decide (c.hard ≤ 5000)
    && decide (c.tagHeight ≤ 3000) && decide (5 ≤ c.posrep) && decide (c.posrep ≤ 100) && nameOk c.name

/-- An enrolled robot uses the class. -/
def classUsed (s : State) (i : Nat) : Bool := s.p.robots.any fun e => e.2.sstate != .free && e.2.cls == i

/-- Reserved bits of a class record. -/
def classRsv (p : Bytes) : Bool := decide (fld p 1 1 < 2) && decide (fld p 4 8 < 2 ^ 49) && zeros p 27 5

/-- SESS_CLASS_SET (R263, R285). -/
def opSessClassSet (r : Request) (s : State) : State :=
  let p := r.payload
  let i := fld p 0 1
  let c := classFrom p
  let defined := bit c.flags 0
  runOp s r (p.length == 48) (classRsv p) (supOk s r) (inModes s (mCfg ++ [.breeze, .drift, .lull, .squall])) fun s =>
  need (decide (i < 32) && (!defined || classOk c)) s r stBadRange fun s =>
  need (!(classUsed s i && (!defined || !inModes s mCfg))) s r stBusy fun s =>
  change1 s r (okClass, i) (fun s => { s with p.classes := tput s.p.classes i c }) fun _ => []

def execSessClassSet (r : Request) (s : State) : Host.Outcome State Fault Refusal := .next (opSessClassSet r s)

/-- SESS_CLASS_GET (R286). -/
def opSessClassGet (r : Request) (s : State) : State :=
  let p := r.payload
  runOp s r (p.length == 4) (zeros p 1 3) true (edt s 0x0604) fun s =>
  need (decide (fld p 0 1 < 32)) s r stBadRange fun s =>
  finish s r stOk (classBytes (fld p 0 1) (tgetD s.p.classes (fld p 0 1) {}))

def execSessClassGet (r : Request) (s : State) : Host.Outcome State Fault Refusal := .next (opSessClassGet r s)

/-! ### Enrolment (R264, R266, R278, R287 to R289) -/

/-- The modes of SESS_ENROL and SESS_REVOKE. -/
def mEnrol : List Mode := [.tender, .calm, .zephyr, .breeze, .drift, .lull, .squall, .watch]

/-- The session SESS_ENROL names: 0xFF is the lowest FREE index. -/
def enrolAt (s : State) (n : Nat) : Option Nat :=
  if n = 0xFF then (List.range 256).find? fun i => (robotRec s i).sstate == .free else some n

/-- Where the Robot Presence Table takes an EUI-64 at enrolment: its own unenrolled entry, else a place of R278. -/
def enrolPlace (s : State) (eui : BitVec 64) : Option Nat :=
  match rptFind s eui with
  | some k => some k
  | none => rptPlace s eui

/-- Enter an enrolled robot in the table. -/
def rptEnrol (s : State) (k i : Nat) (eui : BitVec 64) : State :=
  let old : RptEntry := match rptFind s eui with | some j => rptAt s j | none => {}
  { s with sess.rpt := tput s.sess.rpt k { old with eui := eui, session := i, valid := true, enrolled := true } }

/-- The robot of a session has been enrolled: its record, and a volatile part as after reset. -/
def enrolRobot (s : State) (i cls : Nat) (eui : BitVec 64) : State :=
  let s : State := { s with
    sess.robots := tput s.sess.robots i {}
    p.robots := tput s.p.robots i { robotRec s i with eui := eui, cls := cls, linkCtr := 0 } }
  setSState s i .enrolled 1

/-- SESS_ENROL (R287). -/
def opSessEnrol (r : Request) (s : State) : State :=
  let p := r.payload
  let eui := BitVec.ofNat 64 (fld p 0 8)
  let cls := fld p 8 1
  let n := fld p 9 1
  runOp s r (p.length == 16) (zeros p 10 6) (supOk s r) (inModes s mEnrol) fun s =>
  need (bit (tgetD s.p.classes cls {}).flags 0 && (n == 0xFF || (robotRec s n).sstate == .free)) s r stBadRange fun s =>
  need (sessionOfEui s eui).isNone s r stRobotExists fun s =>
  match enrolAt s n, enrolPlace s eui with
  | some i, some k =>
    change1 s r (okRobot, i) (fun s => tagSess (enrolRobot (rptEnrol s k i eui) i cls eui) i r) fun _ => le 1 i ++ zb 3
  | _, _ => finish s r stTableFull []

def execSessEnrol (r : Request) (s : State) : Host.Outcome State Fault Refusal := .next (opSessEnrol r s)

/-- End an enrolment: the entry stays in the table as an unenrolled one (R278). -/
def revokeRobot (s : State) (i : Nat) : State :=
  let eui := (robotRec s i).eui
  let s := setSState s i .free 0x0B
  let s : State := match rptFind s eui with
    | some k => modRpt s k fun e => { e with enrolled := false, session := 0, shortAddr := 0xFFFF }
    | none => s
  { s with p.robots := tmod s.p.robots i {} fun x => { x with eui := 0, cls := 0 } }

/-- SESS_REVOKE (R288). -/
def opSessRevoke (r : Request) (s : State) : State :=
  let p := r.payload
  let i := fld p 0 1
  runOp s r (p.length == 4) (zeros p 1 3) (supOk s r) (inModes s mEnrol) fun s =>
  let x := robotRec s i
  need (x.sstate != .free) s r stBadRange fun s =>
  need ((x.sstate == .enrolled || x.sstate == .lost) && !x.lostHold) s r stBusy fun s =>
  change1 s r (okRobot, i) (fun s => tagSess (revokeRobot s i) i r) fun _ => []

def execSessRevoke (r : Request) (s : State) : Host.Outcome State Fault Refusal := .next (opSessRevoke r s)

/-- A revoked robot's task is given back and its plan forgotten in PLAN; its DWELLs go as the sweep reports them stale (R310). -/
def revokedWork (s : State) : State :=
  (s.allot.plans.filter fun e => (robotRec s e.1).sstate == .free).foldl (fun s e =>
    let s := loseTask s e.1 8
    { s with allot.plans := tdel s.allot.plans e.1 }) s

/-- SESS_RELEASE (R283, R289). -/
def opSessRelease (r : Request) (s : State) : State :=
  let p := r.payload
  let i := fld p 0 1
  runOp s r (p.length == 4) (zeros p 1 3) (supOk s r)
    (inModes s [.calm, .zephyr, .breeze, .drift, .lull, .squall, .watch]) fun s =>
  need (robotRec s i).lostHold s r stBadRange fun s =>
  changeAll s r [(okRobot, i), (okHold, 256 + i)]
    (fun s =>
      let s : State := { s with p.robots := tmod s.p.robots i {} fun x => { x with lostHold := false } }
      let s := if (robotRec s i).sstate == .lost then tagSess (setSState s i .enrolled 0x0C) i r else s
      removeHold s r (256 + i)) stOk fun _ => []

def execSessRelease (r : Request) (s : State) : Host.Outcome State Fault Refusal := .next (opSessRelease r s)

/-! ### Reading the sessions (R290, R291) -/

/-- The RPT entry of a session. -/
def rptOf (s : State) (i : Nat) : RptEntry :=
  match rptFind s (robotRec s i).eui with
  | some k => if (robotRec s i).sstate == .free then {} else rptAt s k
  | none => {}

/-- PORT as SESS_GET reports it. -/
def portByte (e : RptEntry) : Nat := if e.heard then e.port else 0xFF

/-- The 80-byte reply of SESS_GET. -/
def sessReply (s : State) (i : Nat) : Bytes :=
  let x := robotRec s i
  let v := robotAt s i
  let e := rptOf s i
  le 1 i ++ le 1 (sstateCode x.sstate) ++ le 1 x.cls ++ le 1 (bitsOf [v.pos.valid, v.lowBattery, e.spoof, x.lostHold, e.lock])
    ++ le 2 v.shortAddr ++ le 1 (portByte e) ++ le 1 v.blinkHz ++ le 8 x.eui.toNat ++ le 8 (objCsn s okRobot i)
    ++ le 4 v.upCtr ++ le 4 v.downCtr ++ leI 4 v.pos.e ++ leI 4 v.pos.n ++ leI 4 v.pos.u ++ le 2 v.pos.sigma ++ le 1 v.pos.source
    ++ le 1 (planCode (planAt s i).state) ++ le 8 v.pos.time ++ le 4 ((planAt s i).task.getD 0xFFFFFFFF) ++ le 4 e.lastHeard
    ++ le 8 v.assocTime ++ le 4 v.assocCount ++ le 1 v.battery ++ zb 3

/-- The session a SESS_GET names: one that is not FREE, or that of an enrolled EUI-64. -/
def sessNamed (s : State) (p : Bytes) : Option Nat :=
  if fld p 0 1 = 1 then (if (robotRec s (fld p 1 1)).sstate == .free then none else some (fld p 1 1))
  else if fld p 0 1 = 2 then sessionOfEui s (BitVec.ofNat 64 (fld p 8 8))
  else none

/-- SESS_GET (R290). -/
def opSessGet (r : Request) (s : State) : State :=
  let p := r.payload
  runOp s r (p.length == 16)
    (zeros p 2 6 && (fld p 0 1 != 1 || zeros p 8 8) && (fld p 0 1 != 2 || zeros p 1 1)) true (edt s 0x0620) fun s =>
  match sessNamed s p with
  | none => finish s r stBadRange []
  | some i => finish s r stOk (sessReply s i)

def execSessGet (r : Request) (s : State) : Host.Outcome State Fault Refusal := .next (opSessGet r s)

/-- An entry of SESS_LIST. -/
def sessEntry (s : State) (i : Nat) : Bytes :=
  le 1 i ++ le 1 (sstateCode (robotRec s i).sstate) ++ le 1 (robotRec s i).cls ++ le 1 (portByte (rptOf s i))
    ++ le 2 (robotAt s i).shortAddr ++ le 1 (robotAt s i).blinkHz ++ le 1 (planCode (planAt s i).state)

/-- SESS_LIST (R291): sessions 0 to 173, then 174 to 255. -/
def opSessList (r : Request) (s : State) : State :=
  runOp s r r.payload.isEmpty true true (edt s 0x0621) fun s =>
  finishFrags s r [(List.range 174).flatMap (sessEntry s), ((List.range 82).map (· + 174)).flatMap (sessEntry s)] 2

def execSessList (r : Request) (s : State) : Host.Outcome State Fault Refusal := .next (opSessList r s)

end Sys2Proof.Machine
end

