-- ==== Sys2Proof/Machine/Stop.lean ====
section
/-! DEFINITION. The stop path: latches, the vote and SL-OUT, the stop-loop inputs, the channels' tests and rejoining, the
Edtor stop filter, beacon tokens and stop frames, the release, and the STOP opcodes (R361 to R403). -/

namespace Sys2Proof.Machine

open Sys2Proof

/-! ### The vote (R364, R367, R372) -/

/-- A channel's own state is GO: no site source active or latched in it. -/
def chanGo (c : Channel3) : Bool := c.latched == 0 && c.active == 0

/-- The voted state: GO needs two voting channels' go. -/
def voteOf (s : State) : Bool :=
  running s && decide (2 ≤ (s.stop.chans.filter fun c => c.state == .voting && chanGo c).length)

/-- The first slot whose launch lies 13,713 PCLK or more after a change at a PCLK of the FC in progress (R384). -/
def stopSlotAfter (s : State) (pclk : Nat) : Nat := 4 * fcNow s + cdiv (pclk + 13713 - 31200) 312000

/-- Stop frames repeat from the change's target slot for 80 slots, or end where nothing is left to stop; the slots before the
target keep what they carried (R384). -/
def stopFrames (s t : State) (pclk : Nat) : State :=
  let g := stopSlotAfter t pclk
  let t : State := { t with
    stop.stopTarget := g
    stop.stopWas := if s.stop.stopTarget = g then s.stop.stopWas else (!s.stop.voted, robotStops s) }
  if t.stop.voted && robotStops t == 0 then { t with stop.stopUntil := min t.stop.stopUntil g }
  else
    { t with
      stop.stopFrom := if t.stop.stopUntil ≤ g then g else t.stop.stopFrom
      stop.stopUntil := g + 80 }

/-- An EV_STOP_ROBOT captured: one for each robot in an FC. -/
def noteRobot (s : State) (e : Nat × Nat × Nat × Nat) : State :=
  { s with stop.evsNext.robots := s.stop.evsNext.robots.filter (fun x => x.1 != e.1) ++ [e] }

/-- The voted state has changed: SL-OUT, the latched event and the mode trigger that follow (R363, R372, R396, R403). -/
def voteChanged (s : State) (time : Nat) : State :=
  let s := { s with stop.voteTime := time, stop.evsNext.vote := true }
  if s.stop.voted then triggerLater { s with stop.lastRelease := time } .release
  else triggerLater { s with stop.lastStop := time, stop.canStopNext := true } .stopVote

/-- Command the switches: on while the vote shows GO, unless OUTPUT_FAULT holds or a monitor kills them (R372, R386). -/
def driveSwitches (s : State) : State :=
  let on := s.stop.voted && !s.stop.outputFault && !(s.stop.chans.any (·.clockLost))
  { s with stop.sw1 := on, stop.sw2 := on, stop.readback := (on, on) }

/-- A change of the channels that shows at the vote at a PCLK of the FC in progress. -/
def changeStop (s : State) (pclk : Nat) (f : State → State) : State :=
  let t := f s
  let t := driveSwitches { t with stop.voted := voteOf t }
  let (old, new) := (robotStops s, robotStops t)
  if t.stop.voted == s.stop.voted && old == new then t else
  let t := stopFrames s t pclk
  let t := if t.stop.voted == s.stop.voted then t else voteChanged t (timeAt s pclk)
  ((List.range 256).filter fun i => old.getLsbD i != new.getLsbD i).foldl (fun t i =>
    noteRobot t (i, if new.getLsbD i then 1 else 2, tgetD t.stop.robotCause i 1, timeAt s pclk)) t

/-- Change every channel. -/
def modChans (s : State) (f : Channel3 → Channel3) : State := { s with stop.chans := s.stop.chans.map f }

/-- Change one channel. -/
def modSaf (s : State) (c : Nat) (f : Channel3 → Channel3) : State := { s with stop.chans := lmod s.stop.chans c f }

/-- One channel. -/
def chanAt (s : State) (c : Nat) : Channel3 := s.stop.chans.getD c {}

/-- A CAUSE bit. -/
def cause (bit : Nat) : BitVec 13 := BitVec.ofNat 13 (2 ^ bit)

/-- Latch a site source in every channel, with its condition active or not. -/
def latchSite (bit : Nat) (active : Bool) (s : State) : State :=
  modChans s fun c => { c with latched := c.latched ||| cause bit, active := if active then c.active ||| cause bit else c.active }

/-- The condition of a site source has gone; the latch stays. -/
def clearSite (bit : Nat) (s : State) : State := modChans s fun c => { c with active := c.active &&& ~~~(cause bit) }

/-- Set a robot's bit of ROBOT_STOP in every channel. -/
def latchRobot (i why : Nat) (s : State) : State :=
  modChans { s with stop.robotCause := tput s.stop.robotCause i why } fun c =>
    { c with robotStop := c.robotStop ||| BitVec.ofNat 256 (2 ^ i) }

/-- The firmware requests written by the window before reach the channels (R365): at the first PCLK of the window, and 3
PCLK later at the vote (R386). -/
def applyRequests (s : State) (start : Nat) : State :=
  if s.stop.requests.isEmpty then s else
  let l := s.stop.requests
  changeStop { s with stop.requests := [] } (start + 3) fun s => l.foldl (fun s q =>
    match q.1 with
    | some i => latchRobot i q.2.2 s
    | none => latchSite q.2.1 (q.2.1 == 6 && s.stop.internalCause) s) s

/-- OUTPUT_FAULT is latched: both switches are held off until a reset (R368, R373). -/
def outputFaulty (s : State) : State := latchSite 10 true { s with stop.outputFault := true }

/-! ### Stop-loop inputs (R369 to R371) -/

/-- Change one input. -/
def modSl (s : State) (i : Nat) (f : SlInput → SlInput) : State :=
  if i = 0 then { s with stop.slA := f s.stop.slA } else { s with stop.slB := f s.stop.slB }

/-- One input. -/
def slAt (s : State) (i : Nat) : SlInput := if i = 0 then s.stop.slA else s.stop.slB

/-- SL_INPUT (R369): a line has read low for FILTER samples; the vote follows 2 PCLK later (R386). -/
def opSlInput (inp line pclk : Nat) (s : State) : State :=
  if !inFc s pclk || !running s then s else
  let s := modSl s inp fun x => { x with
    open1 := x.open1 || line == 0
    open2 := x.open2 || line == 1
    openCond := true
    okRun := 0 }
  changeStop s (pclk + 2) (latchSite inp true)

def execSlInput (inp line pclk : Nat) (s : State) : Host.Outcome State Fault Refusal :=
  if inp < 2 && line < 2 then .next (opSlInput inp line pclk s) else .fault .noSuchUnit

/-- The FAULT of an input is latched. -/
def slFault (i : Nat) (s : State) : State :=
  latchSite (2 + i) true (modSl s i fun x => { x with fault := true, sawOpen := false })

/-- The PCLK at which a source's test pulse starts, and its window (R370). -/
def pulseStart (src : Nat) : Nat := [200000, 500000, 800000, 1100000].getD src 0
def pulseWindow (src : Nat) : Window := [Window.solve, .command, .plan, .emit].getD src .solve

/-- A line that read high at the boundary passes a pulse: it follows its own source's pulse and no other (R370). -/
def pulsePasses (high own low : Bool) : Bool := !high || (if own then low else !low)

/-- The pulse check of one CONTACT input: line 0 is fed from the input's first source, line 1 from its second. -/
def checkPulse (src : Nat) (lows : List Bool) (s : State) (i : Nat) : State :=
  let x := slAt s i
  if x.mode != 1 then s else
  if pulsePasses x.high1 (src == 2 * i) (lows.getD (2 * i) false) && pulsePasses x.high2 (src == 2 * i + 1) (lows.getD (2 * i + 1) false) then s
  else slFault i (modSl s i fun x => { x with pulseOk := false })

/-- INPUT_TEST_PULSE (R370): `lows` says which of the lines SL-A IN1, IN2, SL-B IN1, IN2 read low in the pulse's span. -/
def opInputTestPulse (src : Nat) (lows : List Bool) (s : State) : State :=
  if !running s || s.clk.window != pulseWindow src || (slAt s (src / 2)).mode != 1 then s else
  changeStop s (pulseStart src + 1252) fun s => [0, 1].foldl (checkPulse src lows) s

def execInputTestPulse (src : Nat) (lows : List Bool) (s : State) : Host.Outcome State Fault Refusal :=
  if src < 4 && lows.length == 4 then .next (opInputTestPulse src lows s) else .fault .noSuchUnit

/-- The FAULT of an input across a boundary: latched by a discrepancy, cleared once both lines have read open at one
boundary and then closed together (R371). -/
def slFaultStep (s : State) (i : Nat) (h1 h2 : Bool) : State :=
  let x := slAt s i
  if s.p.stopCfg.discFc ≤ x.differ then slFault i s
  else if x.fault && x.sawOpen && h1 && h2 then clearSite (2 + i) (modSl s i fun x => { x with fault := false, sawOpen := false })
  else if x.fault && !h1 && !h2 then modSl s i fun x => { x with sawOpen := true }
  else s

/-- One input at a boundary, from the samples of its lines (R370, R371, R400). -/
def slBoundary (s : State) (i : Nat) (h1 h2 : Bool) : State :=
  let want := if i = 0 then s.p.stopCfg.modeA else s.p.stopCfg.modeB
  let s := if (slAt s i).mode == want then s
    else latchSite i true (modSl s i fun x => { x with mode := want, openCond := true, okRun := 0, pulseOk := true })
  let s := modSl s i fun x => { x with
    high1 := h1
    high2 := h2
    open1 := x.open1 && !h1
    open2 := x.open2 && !h2
    shown1 := !(x.open1 && !h1)
    shown2 := !(x.open2 && !h2)
    okRun := if h1 && h2 && (x.mode == 2 || x.pulseOk) then x.okRun + 1 else 0
    pulseOk := true
    differ := if h1 == h2 then 0 else x.differ + 1 }
  let s := slFaultStep s i h1 h2
  let x := slAt s i
  if x.openCond && decide (5 ≤ x.okRun) && !x.open1 && !x.open2 then clearSite i (modSl s i fun x => { x with openCond := false }) else s

/-! ### The channels (R387 to R391) -/

/-- CH_STATE code (R399). -/
def chCode : ChState → Nat
  | .voting => 1 | .testing => 2 | .withdrawn => 3 | .rejoining => 4 | .updating => 5

/-- EV_SAF_CHANNEL captured. -/
def noteChan (s : State) (c : Nat) (new old : ChState) (reason testId time : Nat) : State :=
  { s with stop.evsNext.chans := s.stop.evsNext.chans ++ [(c, chCode new, chCode old, reason, testId, time)] }

/-- Change a channel's state, with its event. -/
def chanState (s : State) (c : Nat) (new : ChState) (reason testId pclk : Nat) : State :=
  let old := (chanAt s c).state
  noteChan (modSaf s c fun x => { x with state := new }) c new old reason testId (timeAt s pclk)

/-- 24 h in FCs. -/
def dayFc : Nat := 8640000

/-- Rejoins of a channel in the last 24 h. -/
def rejoins24 (s : State) (c : Nat) : Nat := ((chanAt s c).rejoins.filter fun f => decide (fcNow s < f + dayFc)).length

/-- A channel withdraws at the first PCLK of SOLVE (R389); one that has rejoined three times in 24 h stays withdrawn. -/
def withdraw (c reason testId : Nat) (s : State) : State :=
  let s := chanState s c .withdrawn reason testId 124800
  let stuck := decide (3 ≤ rejoins24 s c)
  modSaf s c fun x => { x with
    planned := false
    leftFc := if stuck then 0 else 13
    stuck := x.stuck || stuck
    matchFc := 0
    diffRun := 0
    testId := testId
    testPassed := true }

/-- LEAD (R391): the channel of the FC, or the next voting one. -/
def leadFor (s : State) : Nat :=
  let b := fcNow s / 60000 % 3
  (([b, (b + 1) % 3, (b + 2) % 3].find? fun c => (chanAt s c).state == .voting)).getD b

/-- The lead passes. -/
def passLead (s : State) : State :=
  let l := leadFor s
  if l = s.stop.lead then s else
  let s := { s with stop.lead := l }
  { s with stop.evs.chans := s.stop.evs.chans ++ [(l, chCode (chanAt s l).state, chCode (chanAt s l).state, 8, 0, nowTime s)] }

/-- LEAD_CHANGE (R391). -/
def opLeadChange (s : State) : State := if !running s || s.clk.window != .latch then s else passLead s

def execLeadChange (s : State) : Host.Outcome State Fault Refusal := .next (opLeadChange s)

/-- The snapshots of two channels differ in what this model holds of them. -/
def snapDiffers (a b : Channel3) : Bool := a.latched != b.latched || a.active != b.active || a.robotStop != b.robotStop

/-- A channel's snapshot differs from those of the other voting channels. -/
def differsNow (i : SafeIn) (s : State) (c : Nat) : Bool :=
  i.differs.getD c false ||
    (let others := (List.range 3).filter fun d => d != c && (chanAt s d).state == .voting
     !others.isEmpty && others.all fun d => snapDiffers (chanAt s c) (chanAt s d))

/-- DISCREPANCY: latched after two FCs in which the channels disagree, and active while they go on disagreeing (R361, R388). -/
def noteDiffer (differ : Bool) (s : State) : State :=
  let s := { s with stop.allDiffer := if differ then s.stop.allDiffer + 1 else 0 }
  if 2 ≤ s.stop.allDiffer then latchSite 11 true s else clearSite 11 s

/-- The cross-comparison of the voting channels (R388). -/
def crossCompare (i : SafeIn) (s : State) : State :=
  let voters := (List.range 3).filter fun c => (chanAt s c).state == .voting
  if voters.length = 3 then
    let odd := voters.filter (differsNow i s)
    if i.allDiffer || 1 < odd.length then
      noteDiffer true (modChans s fun c => { c with diffRun := 0 })
    else
      let s := noteDiffer false s
      let s := { s with
        stop.chans := s.stop.chans.zipIdx.map fun e => { e.1 with diffRun := if odd.contains e.2 then e.1.diffRun + 1 else 0 } }
      voters.foldl (fun s c => if 2 ≤ (chanAt s c).diffRun then withdraw c 2 0x0A s else s) s
  else if voters.length = 2 then
    noteDiffer (i.allDiffer || voters.any (differsNow i s)) s
  else noteDiffer false s

/-- The tests of one channel in SAFE, and its matching while it rejoins (R387, R389, R390). -/
def safeChannel (i : SafeIn) (s : State) (c : Nat) : State :=
  let x := chanAt s c
  let failed : Option Nat := if x.clockLost then some 8 else i.tests.getD c none
  match x.state with
  | .voting =>
    match failed with
    | some t => withdraw c (if t = 8 then 4 else 1) t s
    | none => s
  | .rejoining =>
    if failed.isSome || differsNow i s c then withdraw c 1 (failed.getD 0x0A) s
    else modSaf s c fun x => { x with matchFc := x.matchFc + 1 }
  | _ =>
    match failed with
    | some t => modSaf s c fun x => { x with testPassed := false, testId := t }
    | none => s

/-- A full self-test moves on at a boundary: it ends in REJOINING, or starts again after a failure (R389, R390). -/
def chanBoundary (s : State) (c : Nat) : State :=
  let x := chanAt s c
  if x.leftFc = 0 || !(x.state == .testing || x.state == .withdrawn) then s
  else if 1 < x.leftFc then modSaf s c fun x => { x with leftFc := x.leftFc - 1 }
  else if x.testPassed then
    modSaf (chanState s c .rejoining (if x.planned then 5 else 1) 0 0) c fun x => { x with leftFc := 0, matchFc := 0 }
  else
    let s := if x.state == .withdrawn then s else chanState s c .withdrawn 1 x.testId 0
    modSaf s c fun x => { x with leftFc := 12, planned := false, testPassed := true }

/-- CHANNEL_REJOIN (R389, R390): at the boundary after the last matching FC. -/
def opChannelRejoin (c : Nat) (s : State) : State :=
  let x := chanAt s c
  if !running s || s.clk.window != .latch || x.state != .rejoining || x.matchFc < (if x.planned then 10 else 100) then s else
  passLead <| changeStop s 2 fun s =>
    modSaf (chanState s c .voting 6 0 0) c fun x => { x with
      planned := false
      matchFc := 0
      rejoins := if x.planned then x.rejoins else x.rejoins.filter (fun f => decide (fcNow s < f + dayFc)) ++ [fcNow s] }

def execChannelRejoin (chan : Nat) (s : State) : Host.Outcome State Fault Refusal :=
  if chan < 3 then .next (opChannelRejoin chan s) else .fault .noSuchUnit

/-- Start a planned full self-test on a channel at the boundary (R390). -/
def plannedTest (c : Nat) (s : State) : State :=
  let s := changeStop s 2 fun s =>
    modSaf (chanState s c .testing 5 0 0) c fun x => { x with planned := true, leftFc := 12, matchFc := 0, testPassed := true }
  passLead s

/-- PLANNED_SELF_TEST (R390): every 8 h for each channel; skipped unless three channels are voting. -/
def opPlannedSelfTest (s : State) : State :=
  if !running s || s.clk.window != .latch || votingCount s != 3 then s else
  match (List.range 3).find? fun c => fcNow s % 2880000 == 960000 * c + 30000 with
  | some c => plannedTest c s
  | none => s

def execPlannedSelfTest (s : State) : Host.Outcome State Fault Refusal := .next (opPlannedSelfTest s)

/-- CLOCK_LOSS (R20, R361, R386): a channel's monitor finds PCLK lost and kills both switches. -/
def opClockLoss (c pclk : Nat) (s : State) : State :=
  if !inFc s pclk || !running s then s else
  changeStop s pclk fun s => modSaf s c fun x =>
    { x with clockLost := true, latched := x.latched ||| cause 8, active := x.active ||| cause 8 }

def execClockLoss (chan pclk : Nat) (s : State) : Host.Outcome State Fault Refusal :=
  if chan < 3 then .next (opClockLoss chan pclk s) else .fault .noSuchUnit

/-- SLOUT_TEST_PULSE (R373): the lead channel pulses SW1 or SW2 off; a readback that fails latches OUTPUT_FAULT. -/
def opSloutTestPulse (fell rose : Bool) (s : State) : State :=
  let first := fcNow s % 100 == 50
  if !running s || s.clk.window != .plan || !s.stop.voted || !s.stop.sw1 || !(first || fcNow s % 100 == 51) || (fell && rose) then s else
  let s := changeStop s (if fell then 673920 else 649000) outputFaulty
  { s with stop.readback := if first then (!fell, false) else (false, !fell) }

def execSloutTestPulse (fell rose : Bool) (s : State) : Host.Outcome State Fault Refusal := .next (opSloutTestPulse fell rose s)

/-! ### Beacon tokens and stop frames (R378 to R384) -/

/-- The radios transmit: not in DOLDRUMS or STILL, nor in TENDER before a SITE key is installed (R429). -/
def radiosOn (s : State) : Bool := running s && (s.mode.cur != .tender || siteValid s)

/-- TOKEN_MASK: the voting channels. -/
def tokenMask (s : State) : Nat := bitsOf ((List.range 3).map fun c => (chanAt s c).state == .voting)

/-- The tags of the voting channels over 48 bytes each forms, 0 for the others. -/
def tags (s : State) (fc : Nat) (body : Nat → Bytes) : Bytes :=
  (List.range 3).flatMap fun c =>
    if (chanAt s c).state == .voting then (cmac (beaconKey s c (beaconGenAt s fc)) (body c)).take 4 else zb 4

/-- Bytes 0 to 47 of the token block a channel forms (R378). -/
def tokenBody (s : State) (go : Bool) : Bytes :=
  le 1 1 ++ le 1 (if go then 1 else 2) ++ le 1 (tokenMask s) ++ le 1 s.stop.lead ++ le 4 s.p.control.bootCount
    ++ le 8 (fcNow s + 1) ++ le 32 (robotStops s).toNat

/-- The 60-byte token block (R378, R379): each channel tags its own view, the block carries the vote. -/
def tokenBlock (s : State) : Bytes :=
  tokenBody s (s.stop.voted && goPermitted s)
    ++ tags s (fcNow s + 1) fun c => tokenBody s (chanGo (chanAt s c) && goPermitted s)

/-- The 60-byte stop-frame block of a slot (R383): SCOPE ALL while the vote is STOP, else the robots stopped. -/
def stopBlock (s : State) (asn : Nat) : Bytes :=
  let (all, set) := if asn < s.stop.stopTarget then s.stop.stopWas else (!s.stop.voted, robotStops s)
  let b := le 1 1 ++ le 1 (if all then 1 else 2) ++ le 1 (tokenMask s) ++ zb 1 ++ le 4 s.p.control.bootCount ++ le 8 asn
    ++ le 32 (if all then 0 else set.toNat)
  b ++ tags s (asn / 4) fun _ => b

/-- A beacon FC (R28). -/
def beaconFc (s : State) : Bool := fcNow s % s.p.radio.cfg.beaconFc == 0

/-- SAFE of the FC after a beacon FC: count beacons not put on air; the third in a row latches BEACON_LOSS (R381). -/
def countBeacon (s : State) : State :=
  if !s.stop.beaconSent then s else
  let misses := if s.stop.beaconOnAir then 0 else min 3 (s.stop.beaconMisses + 1)
  let s := { s with stop.beaconSent := false, stop.beaconOnAir := false, stop.beaconMisses := misses }
  if misses = 3 then trigger (changeStop s 124802 (latchSite 7 true)) .beaconLoss
  else if (s.stop.chans.any fun c => c.active &&& cause 7 != 0) then changeStop s 124802 (clearSite 7) else s

/-- SAFE: beacon tokens, the count of beacons, the channels' tests and their cross-comparison (R379, R381, R387, R388). -/
def safeWork (i : SafeIn) (s : State) : State :=
  let s := countBeacon s
  let s := if beaconFc s && radiosOn s then { s with
      stop.token := some (tokenBlock s)
      stop.beaconSent := true
      bk.tags := [0, 1, 2].foldl (fun t c => tput t (272 + c) (keySlot s 0).gen) s.bk.tags } else { s with stop.token := none }
  let s := match i.readback with
    | none => s
    | some v => if v == (s.stop.sw1, s.stop.sw2) then s else { changeStop s 124802 outputFaulty with stop.readback := v }
  changeStop s 124802 fun s =>
    let s := crossCompare i s
    let s := [0, 1, 2].foldl (safeChannel i) s
    modChans s fun c => { c with clockLost := false, active := if c.clockLost then c.active &&& ~~~(cause 8) else c.active }

/-! ### The boundary -/

/-- Events captured are latched. -/
def mergeEvs (a b : StopEvents) : StopEvents :=
  { vote := a.vote || b.vote, robots := (a.robots.filter fun e => !(b.robots.any fun f => f.1 == e.1)) ++ b.robots
    chans := a.chans ++ b.chans, flt := a.flt ++ b.flt }

/-- The stop path at a boundary: latching, the samples of the lines, the voters, and the channels' tests. -/
def stopBoundary (s : State) (a1 a2 b1 b2 voters : Bool) : State :=
  let s := { s with
    stop.evs := mergeEvs s.stop.evs s.stop.evsNext
    stop.evsNext := {}
    stop.canStopDue := s.stop.canStopDue || s.stop.canStopNext
    stop.canStopNext := false
    stop.voterDiff := if voters then s.stop.voterDiff + 1 else 0
    stop.filterRecs := s.stop.filterRecs.filter fun f => (s.edtor.sessions.any fun e => e.2.sopen && e.2.id == f.sessionId) }
  let holds := s.stop.internalCause && s.mode.cur == .fog && fogHolds s
  let s := { s with stop.internalCause := holds }
  changeStop s 2 fun s =>
    let s := if holds then s else clearSite 6 s
    let s := slBoundary (slBoundary s 0 a1 a2) 1 b1 b2
    let s := if 2 ≤ s.stop.voterDiff then outputFaulty s else s
    let s := [0, 1, 2].foldl chanBoundary s
    if (chanAt s s.stop.lead).state == .voting then s else passLead s

/-! ### The Edtor stop filter (R374 to R376) -/

/-- The filter's entry for a datagram whose session and binding hold and whose SEQ is above FILTER_SEQ. -/
def filterEntry (d : Datagram) (s : State) : Option (Nat × FilterEntry) :=
  s.stop.filter.find? fun e => e.2.valid && e.2.sessionId == hSession d && e.2.port == d.port && e.2.addr == d.addr
    && e.2.udp == d.udp && decide (e.2.seq < hSeq d)

/-- The reserved payload bytes of a stop datagram, once opened, are 0. -/
def filterPayload (d : Datagram) : Bool :=
  if hOpcode d = 0x0901 then zeros d.bytes 34 14 else zeros d.bytes 33 1 && zeros d.bytes 36 12

/-- The filter's entry for a datagram that it acts on, with the datagram opened under the entry's key. -/
def filterHit (d : Datagram) (s : State) : Option (Nat × FilterEntry × Datagram) :=
  match filterEntry d s with
  | none => none
  | some (slot, e) =>
    match openDatagram e.key d with
    | some o => if filterPayload o then some (slot, e, o) else none
    | none => none

/-- The header of a stop datagram. -/
def filterHeader (d : Datagram) : Bool :=
  !d.fragment && d.bytes.length == 64 && headerOk d && hKind d == 1 && (hOpcode d == 0x0901 || hOpcode d == 0x0902)

/-- STOP_FILTER: asserted 876 PCLK and the wait for the filter's GCM unit after the last octet (R375). -/
def opStopFilter (d : Datagram) (wait : Nat) (s : State) : State :=
  if !running s || !inFc s d.pclk || !toUs s d then s else
  match if filterHeader d then filterHit d s else none with
  | none => { s with stop.filterReject := inc32 s.stop.filterReject }
  | some (slot, e, d) =>
    let pclk := d.pclk + 876 + min wait 1724
    let seq := hSeq d
    let s := { s with
      stop.filter := tput s.stop.filter slot { e with seq := seq }
      stop.filterRecs := s.stop.filterRecs ++ [{ sessionId := e.sessionId, seq := seq, time := timeAt s pclk }] }
    changeStop s pclk (if hOpcode d == 0x0901 then latchSite 4 false else latchRobot (fld d.bytes 32 1) 1)

def execStopFilter (d : Datagram) (wait : Nat) (s : State) : Host.Outcome State Fault Refusal := .next (opStopFilter d wait s)

/-! ### STOP_ALL and STOP_ROBOT (R376, R397, R398) -/

/-- The filter's record of a command. -/
def filterRec (s : State) (r : Request) : Option FilterRec := s.stop.filterRecs.find? fun f => f.sessionId == r.sessionId && f.seq == r.seq

/-- End a stop command: its reply is built from the filter's record where there is one. -/
def finishStop (s : State) (r : Request) (hit : Option FilterRec) (status : Nat) : State :=
  let payload := if status = stOk then le 4 (causesLatched s).toNat ++ leTime ((hit.map (·.time)).getD 0) ++ zb 4 else []
  let s := { s with stop.filterRecs := s.stop.filterRecs.filter fun f => !(f.sessionId == r.sessionId && f.seq == r.seq) }
  let csn := finalCsn s r
  let s := countStatus (record s r true intNone status 0) r status
  queueReply s r (replyTo r (fFinal + if hit.isSome then fStopFilter else 0) csn status payload)

/-- A stop command in COMMAND: without a record of the filter it writes the request itself. -/
def stopOp (r : Request) (s : State) (opcode : Nat) (rsv ok : Bool) (req : State → State) : State :=
  if !live s r then carry s r else
  let s := takeLatched s r
  let hit := filterRec s r
  if r.payload.length != 16 then finishStop s r hit stBadLength
  else if !rsv then finishStop s r hit stBadReserved
  else if !edt s opcode then finishStop s r hit stBadMode
  else if !ok then finishStop s r hit stBadRange
  else finishStop (if hit.isSome then s else req s) r hit stOk

/-- STOP_ALL (R397). -/
def opStopAll (r : Request) (s : State) : State :=
  stopOp r s 0x0901 (zeros r.payload 2 14) true fun s => requestStop s 4

def execStopAll (r : Request) (s : State) : Host.Outcome State Fault Refusal := .next (opStopAll r s)

/-- STOP_ROBOT (R398). -/
def opStopRobot (r : Request) (s : State) : State :=
  let i := fld r.payload 0 1
  stopOp r s 0x0902 (zeros r.payload 1 1 && zeros r.payload 4 12) ((robotRec s i).sstate != .free) fun s => requestRobotStop s i 1

def execStopRobot (r : Request) (s : State) : Host.Outcome State Fault Refusal := .next (opStopRobot r s)

/-! ### STOP_STATUS and STOP_CONFIG (R399, R400) -/

/-- A byte of SL_STATE. -/
def slByte (x : SlInput) : Nat := bitsOf [x.shown1, x.shown2, x.fault, x.mode == 2]

/-- Robots stopped. -/
def robotsStopped (s : State) : Nat := ((List.range 256).filter fun i => (robotStops s).getLsbD i).length

/-- Arms still pending. -/
def pendingArms (s : State) : List ReleaseArm := s.stop.arms.filter fun a => decide (fcNow s ≤ a.fc + 500)

/-- The 80-byte reply of STOP_STATUS. -/
def stopReply (s : State) : Bytes :=
  le 4 (causesActive s).toNat ++ le 4 (causesLatched s).toNat ++ le 1 (if s.stop.voted then 1 else 2) ++ le 1 (votingCount s)
    ++ le 1 s.stop.lead ++ (List.range 3).flatMap (fun c => le 1 (chCode (chanAt s c).state)) ++ le 1 (slByte s.stop.slA)
    ++ le 1 (slByte s.stop.slB)
    ++ le 1 (bitsOf [s.stop.sw1, s.stop.sw2, s.stop.readback.1, s.stop.readback.2, s.stop.outputFault])
    ++ le 1 s.stop.beaconMisses ++ le 2 (robotsStopped s) ++ le 32 (robotStops s).toNat
    ++ le 4 (((pendingArms s).head?.map (·.armId)).getD 0) ++ leTime s.stop.lastStop ++ leTime s.stop.lastRelease
    ++ le 4 s.stop.filterReject ++ zb 4

/-- STOP_STATUS (R399). -/
def opStopStatus (r : Request) (s : State) : State := readOp s r 0x0903 stopReply

def execStopStatus (r : Request) (s : State) : Host.Outcome State Fault Refusal := .next (opStopStatus r s)

/-- The settings as STOP_CONFIG returns them. -/
def stopCfgBytes (c : StopConfig) : Bytes :=
  le 1 c.modeA ++ le 1 c.modeB ++ le 1 c.startPolicy ++ le 1 c.releaseInput ++ le 1 c.discFc ++ zb 11

/-- The settings a payload leaves. -/
def stopCfgFrom (c : StopConfig) (p : Bytes) : StopConfig :=
  { modeA := keepIf0 (fld p 0 1) c.modeA, modeB := keepIf0 (fld p 1 1) c.modeB, startPolicy := keepIf0 (fld p 2 1) c.startPolicy
    releaseInput := keepIf0 (fld p 3 1) c.releaseInput, discFc := keepIf0 (fld p 4 1) c.discFc }

/-- The ranges of R400. -/
def stopCfgOk (c : StopConfig) : Bool :=
  decide (c.modeA ≤ 2) && decide (c.modeB ≤ 2) && decide (c.startPolicy ≤ 2) && decide (c.releaseInput ≤ 9)
    && decide (2 ≤ c.discFc) && decide (c.discFc ≤ 100)

/-- STOP_CONFIG (R400): a changed input mode applies from FC n + 1. -/
def opStopConfig (r : Request) (s : State) : State :=
  let p := r.payload
  let read := allZero p
  runOp s r (p.length == 16) (zeros p 5 11) (read || supOk s r) (edtOr s 0x0904 read mCfg) fun s =>
  if read then finish s r stOk (stopCfgBytes s.p.stopCfg) else
  let c := stopCfgFrom s.p.stopCfg p
  need (stopCfgOk c) s r stBadRange fun s =>
  change1 s r siteObj (fun s => { s with p.stopCfg := c }) fun s => stopCfgBytes s.p.stopCfg

def execStopConfig (r : Request) (s : State) : Host.Outcome State Fault Refusal := .next (opStopConfig r s)

/-! ### Release (R395, R396, R401, R402) -/

/-- The modes of both release steps. -/
def mRelease : List Mode := [.tender, .calm, .zephyr, .breeze, .drift, .lull, .squall, .veer, .watch]

/-- BLOCKING: the CAUSE bits that block a release of a scope. -/
def blocking (s : State) (site : Bool) : BitVec 13 :=
  (if site then causesActive s else 0) ||| (if votingCount s < 2 then cause 9 else 0) ||| (if s.stop.outputFault then cause 10 else 0)

/-- RELEASE_INPUT is active, or none is set. -/
def releaseInputOk (s : State) : Bool :=
  let io := s.p.stopCfg.releaseInput - 1
  s.p.stopCfg.releaseInput == 9 || (!isOutput s io && xor ((auxLive s io).latched && s.ports.vio) (bit (auxCfg s io).flags 2))

/-- There is something of a scope to release. -/
def releasable (s : State) (site : Bool) (robot : Nat) : Bool :=
  if site then causesLatched s != 0 else (robotStops s).getLsbD robot

/-- STOP_RELEASE_ARM (R401). -/
def opStopReleaseArm (r : Request) (s : State) : State :=
  let p := r.payload
  let scope := fld p 0 1
  let site := scope == 1
  runOp s r (p.length == 8) (zeros p 2 6 && (!site || zeros p 1 1)) (supOk s r) (inModes s mRelease) fun s =>
  need ((scope == 1 || scope == 2) && releasable s site (fld p 1 1)) s r stBadRange fun s =>
  let b := blocking s site
  if b != 0 then finish s r stNotReady (le 4 0 ++ le 4 b.toNat) else
  need (!((pendingArms s).any fun a => a.sessionId != r.sessionId)) s r stBusy fun s =>
  let id := s.stop.armIds % (2 ^ 32 - 1) + 1
  let s := { s with
    stop.armIds := id
    stop.arms := s.stop.arms.filter (fun a => a.sessionId != r.sessionId)
      ++ [{ armId := id, sessionId := r.sessionId, site := site, robot := fld p 1 1, fc := fcNow s }] }
  finish s r stOk (le 4 id ++ zb 4)

def execStopReleaseArm (r : Request) (s : State) : Host.Outcome State Fault Refusal := .next (opStopReleaseArm r s)

/-- STOP_RELEASE_CONFIRM (R396, R402). -/
def opStopReleaseConfirm (r : Request) (s : State) : State :=
  let p := r.payload
  runOp s r (p.length == 8) (zeros p 4 4) (supOk s r) (inModes s mRelease) fun s =>
  match s.stop.arms.find? fun a => a.sessionId == r.sessionId && a.armId == fld p 0 4 with
  | none => finish s r stBadRange []
  | some a =>
    need (blocking s a.site == 0 && releaseInputOk s) s r stNotReady fun s =>
    need (decide (fcNow s ≤ a.fc + 500)) s r stTooLate fun s =>
    change1 s r (if a.site then siteObj else (okRobot, a.robot))
      (fun s => { s with stop.arms := s.stop.arms.filter (fun x => x.armId != a.armId), stop.release := some (a.site, a.robot) })
      fun s => le 8 (fcNow s + 1)

def execStopReleaseConfirm (r : Request) (s : State) : Host.Outcome State Fault Refusal := .next (opStopReleaseConfirm r s)

/-- Clear what a release clears: a source still active keeps its latch, and OUTPUT_FAULT stays. -/
def clearLatches (site : Bool) (robot : Nat) (s : State) : State :=
  if site then modChans s fun c => { c with latched := c.latched &&& (c.active ||| cause 10) }
  else modChans s fun c => { c with robotStop := c.robotStop &&& ~~~(BitVec.ofNat 256 (2 ^ robot)) }

/-- RELEASE_APPLY (R396): in SAFE of the FC after the confirm; the vote shows at PCLK 124,802. -/
def opReleaseApply (s : State) : State :=
  if !running s || s.clk.window != .safe then s else
  match s.stop.release with
  | none => s
  | some (site, robot) => changeStop { s with stop.release := none } 124802 (clearLatches site robot)

def execReleaseApply (s : State) : Host.Outcome State Fault Refusal := .next (opReleaseApply s)

/-! ### Fleet-core exchange (R393) -/

/-- FLT_SWAP: hourly, if the standby confirmed state in PERSIST of the FC before. -/
def opFltSwap (s : State) : State :=
  if !running s || s.clk.window != .latch || fcNow s % 360000 != 0 || s.cores.swapFc == some (fcNow s) then s else
  let ok := s.cores.standbyReady && s.cores.lastGood + 1 == fcNow s
  let new := if ok then 1 - s.cores.active else s.cores.active
  { s with
    cores.swapFc := some (fcNow s)
    cores.active := new
    cores.resultsFrom := new
    stop.evs.flt := s.stop.evs.flt ++ [(new, if ok then 1 else 3, fcNow s)] }

def execFltSwap (s : State) : Host.Outcome State Fault Refusal := .next (opFltSwap s)

/-! ### Events (R403) -/

/-- The stop events of the FC. -/
def emitStop (s : State) : State :=
  let e := s.stop.evs
  let s := { s with stop.evs := {} }
  let s := if e.vote then
    raiseAt s 0x8901 .all s.stop.voteTime (le 1 (if s.stop.voted then 1 else 2) ++ le 1 (votingCount s) ++ le 1 s.stop.lead ++ zb 1
      ++ le 4 (causesActive s).toNat ++ le 4 (causesLatched s).toNat ++ leTime s.stop.voteTime) else s
  let s := e.robots.foldl (fun s x =>
    raiseAt s 0x8902 .all x.2.2.2 (le 1 x.1 ++ le 1 x.2.1 ++ le 1 x.2.2.1 ++ zb 1 ++ le 2 (robotsStopped s) ++ zb 2 ++ leTime x.2.2.2)) s
  let s := e.chans.foldl (fun s x =>
    raiseAt s 0x8903 .all x.2.2.2.2.2 (le 1 x.1 ++ le 1 x.2.1 ++ le 1 x.2.2.1 ++ le 1 x.2.2.2.1 ++ le 1 x.2.2.2.2.1
      ++ le 1 (votingCount s) ++ le 1 s.stop.lead ++ le 1 (rejoins24 s x.1))) s
  e.flt.foldl (fun s x =>
    raise s 0x8904 .all (le 1 x.1 ++ le 1 x.2.1 ++ zb 6 ++ le 8 s.p.control.lastCsn ++ le 8 x.2.2)) s

end Sys2Proof.Machine
end

