-- ==== Sys2Proof/Machine/Radio.lean ====
section
/-! DEFINITION. The sub-GHz radio's downlink: profiles, hopping, beacons, stop frames, downlink frames and foghorns, the
regulatory accounting, and the RADIO opcodes (R407 to R422, R426 to R430, R436 to R440). -/

namespace Sys2Proof.Machine

open Sys2Proof

/-! ### Profiles and PHY modes (R408, R409) -/

/-- What a PROFILE fixes: channel 0 in kHz, hop channels, scheduled modes, DWELL_MAX in µs, W in s, maximum dBm, foghorn
channels in kHz, foghorn modes, the duty bands as lists of foghorn channels, and LIMIT_b in µs. -/
structure ProfileRec where
  base : Nat
  n : Nat
  modes : List Nat
  dwell : Nat
  windowS : Nat
  dbm : Nat
  fogA : Nat
  fogB : Nat
  fogModes : List Nat
  bands : List (List Nat)
  limit : Nat
deriving DecidableEq, Repr

/-- The three profiles. -/
def profileRec (p : Nat) : ProfileRec :=
  if p = 0x91 then
    { base := 902800, n := 21, modes := [4, 5, 6, 7, 9], dwell := 400000, windowS := 20, dbm := 27, fogA := 902800, fogB := 926800
      fogModes := [1, 2, 3, 8], bands := [[902800], [926800]], limit := 400000 }
  else if p = 0x82 then
    { base := 864800, n := 3, modes := [5, 6, 7], dwell := 360000000, windowS := 3600, dbm := 14, fogA := 868150, fogB := 868450
      fogModes := [8], bands := [[868150, 868450]], limit := 36000000 }
  else
    { base := 863600, n := 4, modes := [4, 5, 6, 7, 9], dwell := 360000000, windowS := 3600, dbm := 14, fogA := 868150, fogB := 868450
      fogModes := [8], bands := [[868150, 868450]], limit := 36000000 }

/-- The profiles an ordering code permits, its default first. -/
def profilesOf (code : Nat) : List Nat := if code = 0x09 then [0x91] else [0x81, 0x82]

/-- PROFILE of a configuration. -/
def profileOf (s : State) (c : RadioConfig) : Nat := if c.profile = 0 then (profilesOf s.fuse.orderCode).headD 0x81 else c.profile

/-- HOP_SEED of a configuration. -/
def hopSeedOf (s : State) (c : RadioConfig) : Nat :=
  let d := s.fuse.eui64.toNat % 2 ^ 32
  if c.hopSeed != 0 then c.hopSeed else if d = 0 then 1 else d

/-- The configuration that governs an FC: a pending one from its EFFECT_FC (R437). -/
def radioCfgFor (s : State) (fc : Nat) : RadioConfig :=
  match s.p.radio.pendingCfg with
  | some (c, e) => if e ≤ fc then c else s.p.radio.cfg
  | none => s.p.radio.cfg

/-- PAN_ID of a configuration. -/
def panOf (s : State) (c : RadioConfig) : Nat := panId { s with p.radio.cfg := c }

/-- N_DBPS of an OFDM mode. -/
def nDbps (phy : Nat) : Nat := [12, 24, 48, 96, 144, 216, 288].getD (phy - 1) 12

/-- AIR in µs of a PSDU in a PHY mode. -/
def airOf (phy psdu : Nat) : Nat :=
  if phy = 8 then (12 + psdu) * 40 else if phy = 9 then (12 + psdu) * 20 else 720 + 120 * cdiv (8 * psdu + 6) (nDbps phy)

/-- SPACE of a scheduled mode. -/
def spaceOf (phy : Nat) : Nat :=
  if phy = 4 then 117 else if phy = 5 then 183 else if phy = 6 then 282 else if phy = 7 then 381 else 81

/-! ### Hopping (R411) -/

/-- One swap of hop_sequence. -/
def hopSwap (l : List Nat) (i j : Nat) : List Nat :=
  let a := l.getD i 0
  let b := l.getD j 0
  (l.set i b).set j a

/-- The swaps of hop_sequence from index `i` down to 1. -/
def hopSteps : Nat → Nat → List Nat → List Nat
  | 0, _, l => l
  | i + 1, x, l =>
    let x := (x * 0x5851F42D4C957F2D + 0x14057B7EF767814F) % 2 ^ 64
    hopSteps i x (hopSwap l (i + 1) (x / 2 ^ 33 % (i + 2)))

/-- hop_sequence(seed, n). -/
def hopSequence (seed n : Nat) : List Nat := hopSteps (n - 1) seed (List.range n)

/-- channel(r, asn): the hop index of a radio in a slot. -/
def hopChannel (s : State) (c : RadioConfig) (r asn : Nat) : Nat :=
  let n := (profileRec (profileOf s c)).n
  (hopSequence (hopSeedOf s c) n).getD ((asn + asn / Nat.lcm 20 n + (if r = 0 then 0 else n / 2)) % n) 0

/-- The configuration in force. -/
def radioCfg (s : State) : RadioConfig := s.p.radio.cfg

/-- The profile in force. -/
def prof (s : State) : ProfileRec := profileRec (profileOf s (radioCfg s))

/-- The frequency of a hop index in kHz. -/
def hopKhz (s : State) (k : Nat) : Nat := (prof s).base + 1200 * k

/-! ### Receiving (R411, R415, R423, R435) -/

/-- The RX queue of a radio. -/
def rxQueue (radio : Nat) : Nat := if radio = 0 then 0x10 else 0x12

/-- The slot exists in the FC in progress: a step FC may be short (R410). -/
def slotIn (s : State) (k : Nat) : Bool := decide (k < 4) && decide (312000 * (k + 1) ≤ s.clk.fcLen)

/-- A radio hears a frame: an uplink cell it does not send a stop frame in, the preamble in time, in PHY_MODE and on the
channel of the slot (R411, R412, R418, R423). -/
def hears (s : State) (f : AirIn) : Bool :=
  slotIn s f.slot && uplinkCells.contains (asnOf s f.slot % 40) && decide (150 ≤ f.startUs) && decide (f.startUs ≤ 350) && !stopInSlot s f.slot
    && f.phy == (radioCfg s).phyMode && f.channel == hopChannel s (radioCfg s) f.radio (asnOf s f.slot)

/-- FRAME_CONTROL, DEST_PAN, DEST_ADDR, H_TYPE and H_VER of an uplink frame (R414, R415). -/
def headerHolds (s : State) (p : Bytes) : Bool :=
  decide (14 ≤ p.length) && fld p 0 2 == 0xA941 && fld p 2 2 == panId s && fld p 4 2 == 0 && fld p 8 1 == 4 && fld p 9 1 == 1

/-- RADIO_RX: a frame the radio hears is checked and written to its RX queue with its descriptor (R415, R423, R434, R435). -/
def opRadioRx (f : AirIn) (s : State) : State :=
  if !running s || !hears s f then s
  else if !f.fcsOk then modOne s f.radio fun x => { x with fcsFail := inc32 x.fcsFail }
  else if !headerHolds s f.psdu then modOne s f.radio fun x => { x with badHeader := inc32 x.badHeader }
  else
    let q := rxQueue f.radio
    let before := occOf s q
    match admitFrame s q false with
    | (false, s) => s
    | (true, s) =>
      let s := modOne s f.radio fun x => { x with framesRx := inc32 x.framesRx }
      arrived { s with radio.rx := s.radio.rx ++ [(f, airDesc s f)] } q before

def execRadioRx (f : AirIn) (s : State) : Host.Outcome State Fault Refusal :=
  if f.radio < 2 && f.slot < 4 then .next (opRadioRx f s) else .fault .noSuchUnit

/-! ### Accounting (R426, R427) -/

/-- The bin of the FC in progress: W ÷ 200 of the device time counter. -/
def binNow (s : State) : Nat := s.clk.boundary.toNat / (ftuPerSec * (prof s).windowS / 200)

/-- Airtime of a frequency over the current bin and the 199 before it. -/
def usedOf (s : State) (khz : Nat) : Nat :=
  ((tgetD s.radio.bins khz []).filter fun b => decide (binNow s < b.1 + 200)).foldl (fun a b => a + b.2) 0

/-- Account a frame's airtime. -/
def addAir (s : State) (khz us : Nat) : State :=
  let b := binNow s
  { s with radio.bins := tmod s.radio.bins khz [] fun l =>
      let l := l.filter fun x => decide (b < x.1 + 200)
      match l with
      | (n, u) :: t => if n = b then (n, u + us) :: t else (b, us) :: l
      | [] => [(b, us)] }

/-- Airtime a cut foghorn did not use is taken off again. -/
def cutAir (s : State) (khz us : Nat) : State :=
  { s with radio.bins := tmod s.radio.bins khz [] fun l => match l with | (n, u) :: t => (n, u - us) :: t | [] => [] }

/-- D_b: airtime in a duty band. -/
def bandUsed (s : State) (band : List Nat) : Nat := (band.map (usedOf s)).sum

/-- The band a radio's foghorn channel lies in. -/
def fogBand (s : State) (r : Nat) : Nat := if (prof s).bands.length = 1 then 0 else r

/-- The frequency of a radio's foghorn channel. -/
def fogKhz (s : State) (r : Nat) : Nat := if r = 0 then (prof s).fogA else (prof s).fogB

/-- An occurrence for EV_RADIO_BUDGET: cause 1 DEFERRED, 2 OVER, 3 FOG_SKIPPED. -/
def budgetEvent (s : State) (cause r kind index : Nat) : State :=
  { s with radio.budgetEvs := lmod s.radio.budgetEvs (cause - 1) fun e => (e.1 + 1, r, kind, index, e.2.2.2.2) }

/-! ### Frames (R414 to R416) -/

/-- MAC and Haene headers of a frame from the RD-824. -/
def airHeader (s : State) (c : RadioConfig) (hType : Nat) : Bytes :=
  le 2 0xA941 ++ le 2 (panOf s c) ++ le 2 0xFFFF ++ le 2 0 ++ le 1 hType ++ le 1 1

/-- The capture point of a frame sent in a slot of the FC in progress: its first preamble symbol leaves 31,200 PCLK after the
slot begins, and the end of its SFD follows (R152, R410). -/
def airCapture (s : State) (k phy : Nat) : Counter := counterAt s (312000 * k + 31200) + BitVec.ofNat 64 (Config.sfdFtu phy)

/-- Put a frame on air in a slot of the FC in progress: accounted, counted, and entered in the completion table. -/
def onAir (s : State) (r k khz us phy : Nat) (psdu : Bytes) : State :=
  let s := modOne (addAir s khz us) r fun x => { x with framesTx := inc32 x.framesTx, air := x.air ++ [(khz, psdu)] }
  noteSent s (3 + r) (airCapture s k phy)

/-- A robot is never heard and waits in ASSOCIATING (R428). -/
def unheardAssociating (s : State) : Bool :=
  s.p.robots.any fun e => e.2.sstate == .associating && (portOf s e.2.eui).isNone

/-- A session whose PORT is a radio is ADRIFT or WAKE_MISSED. -/
def needsRecovery (s : State) (r : Nat) : Bool :=
  s.p.robots.any fun e => (e.2.sstate == .adrift || (e.2.sstate == .asleep && (robotAt s e.1).wakeMissed)) && portOf s e.2.eui == some r

/-- FOG_STATE in an FC: 0 OFF, 1 STARTUP, 2 RECOVERY, 3 TEST (R428). -/
def fogStateIn (s : State) (r fc : Nat) : Nat :=
  let x := oneRadio s r
  if (x.testUntil.map fun u => decide (x.testFrom ≤ fc) && decide (fc < u)).getD false then 3
  else if (x.startupUntil.map fun u => decide (fc < u)).getD false then 1
  else if needsRecovery s r || unheardAssociating s then 2 else 0

/-- FOG_STATE in the FC in progress. -/
def fogState (s : State) (r : Nat) : Nat := fogStateIn s r (fcNow s)

/-- The LAMP beacon of a radio for slot 0 of the next FC, without its FCS. -/
def beaconPsdu (s : State) (c : RadioConfig) (r : Nat) (token : Bytes) : Bytes :=
  airHeader s c 1 ++ fit 60 token ++ le 5 (4 * (fcNow s + 1))
    ++ le 1 (bitsOf [r == 1, c.beaconFc == 10, fogStateIn s r (fcNow s + 1) != 0]) ++ le 1 (profileOf s c) ++ le 1 c.phyMode
    ++ le 1 c.fogMode ++ zb 1 ++ le 2 s.p.radio.cfg.foghornFc ++ le 4 (hopSeedOf s c)
    ++ (fingerprint s.fuse.secret).take 4 ++ zb 1

/-- A foghorn (R430), without its FCS. -/
def foghornPsdu (s : State) (r asn : Nat) : Bytes :=
  let c := radioCfg s
  airHeader s c 5 ++ le 5 asn ++ le 1 (fogState s r + flag (r == 1) 2) ++ le 4 s.p.control.bootCount ++ le 1 (profileOf s c)
    ++ le 1 c.phyMode ++ le 4 (hopSeedOf s c) ++ le 2 (panOf s c)

/-- The window a slot begins in, and its launch lies in (R384, R410). -/
def slotWindow (k : Nat) : Window := [Window.latch, .solve, .plan, .plan].getD k .latch

/-- A radio event of a slot is due now. -/
def slotNowOk (s : State) (k : Nat) : Bool := radiosOn s && s.clk.window == slotWindow k && slotIn s k

/-! ### Elements (R419, R420) -/

/-- The CCM* nonce of an element from the RD-824. -/
def airNonce (s : State) (ctr level : Nat) : Bytes := nonce154 s.fuse.eui64 ctr level

/-- One element carrying a piece of a message, under the next counter of its kind. -/
def elementBytes (s : State) (f : AirFrame) (piece : Bytes) (more : Bool) : Bytes × State :=
  let hdr := le 1 (f.kind + flag more 7 + flag f.frag 6) ++ le 1 piece.length
  if f.kind = 2 then
    let a := hdr ++ le 2 0xFFFF ++ le 4 s.radio.groupCtr
    let mic := ccmTag (groupKey s (groupGenAt s (fcNow s + 1))) (airNonce s s.radio.groupCtr 2) (a ++ piece) 8
    (a ++ piece ++ mic, { cacheKey s 275 (keySlot s 0).gen with radio.groupCtr := s.radio.groupCtr + 1 })
  else if f.kind = 3 then
    let a := hdr ++ le 2 0xFFFE ++ le 4 s.radio.linkDownCtr ++ le 8 f.eui.toNat
    let (c, mic) := ccmSeal (linkKey s f.eui) (airNonce s s.radio.linkDownCtr 6) a piece 8
    (a ++ c ++ mic, { s with radio.linkDownCtr := s.radio.linkDownCtr + 1 })
  else
    let i := f.session.getD 0
    let x := robotAt s i
    let ctr := x.downCtr + 1
    let a := hdr ++ le 2 x.shortAddr ++ le 4 ctr
    let (c, mic) := ccmSeal (x.assocKey.drop 16) (airNonce s ctr 6) a piece 8
    (a ++ c ++ mic, modRobot s i fun x => { x with downCtr := ctr })

/-- An element's overhead. -/
def elementOverhead (f : AirFrame) : Nat := if f.kind = 3 then 24 else 16

/-- The radios a message goes out on: the one PORT names while the robot is HEARD, else both (R422). -/
def routes (s : State) (f : AirFrame) : List Nat :=
  let eui := if f.kind = 3 then some f.eui else f.session.map fun i => (robotRec s i).eui
  match eui.bind (portOf s) with
  | some r => [r]
  | none => [0, 1]

/-- Frames of a radio still to carry a message, and bytes of it placed there. -/
def leftOn (f : AirFrame) (r : Nat) : Nat := if r = 0 then f.leftA else f.leftB
def doneOn (f : AirFrame) (r : Nat) : Nat := if r = 0 then f.doneA else f.doneB

/-- Note bytes of a message placed on a radio. -/
def setDone (f : AirFrame) (r n : Nat) : AirFrame := if r = 0 then { f with doneA := n } else { f with doneB := n }

/-- A frame of a radio has carried a whole message: with one route it counts for both. -/
def carriedOn (f : AirFrame) (r : Nat) (single : Bool) : AirFrame :=
  let f := setDone f r 0
  { f with
    leftA := if single || r = 0 then f.leftA - 1 else f.leftA
    leftB := if single || r = 1 then f.leftB - 1 else f.leftB }

/-- An ASSOC element needs an association. -/
def deliverable (s : State) (f : AirFrame) : Bool :=
  f.kind != 1 || (match f.session with | some i => (robotAt s i).shortAddr != 0xFFFF | none => false)

/-- A frame being filled (R422). -/
structure Filling where
  st : State
  room : Nat
  body : Bytes := []
  parts : List (Nat × Nat) := []
  commitFc : Nat := 0
  closed : Bool := false
deriving DecidableEq, Repr

/-- Another message to the same receiver under the same key is unfinished on a radio: its chain goes on first (R419). -/
def chainBlocked (s : State) (r j : Nat) (f : AirFrame) : Bool :=
  s.radio.elements.zipIdx.any fun e =>
    e.2 != j && e.1.kind == f.kind && e.1.session == f.session && e.1.eui == f.eui && decide (0 < doneOn e.1 r)

/-- 1 plus MSG_SEQ and FRAG_INDEX of a correction fragment; 0 for every other message (R212). -/
def fragNo (f : AirFrame) : Nat := if f.isCorr then 1 + 16 * fld f.body 0 1 + fld f.body 1 1 / 16 else 0

/-- Place the pieces of message `j` that find room: each at most 255 bytes and no longer than one frame holds. -/
def placeMessage (r space j : Nat) : Nat → Filling → Filling
  | 0, w => w
  | fuel + 1, w =>
    match w.st.radio.elements[j]? with
    | none => w
    | some f =>
      let ov := elementOverhead f
      let rest := f.body.drop (doneOn f r)
      let n := min rest.length (min 255 (space - ov))
      if w.room < n + ov then { w with closed := true } else
      let more := decide (n < rest.length)
      let (b, st) := elementBytes w.st f (rest.take n) more
      let g := if more then setDone f r (doneOn f r + n) else carriedOn f r ((routes w.st f).length == 1)
      let w := { w with
        st := { st with radio.elements := st.radio.elements.set j g }
        room := w.room - (n + ov)
        body := w.body ++ b
        parts := w.parts ++ [(b.length, fragNo f)]
        commitFc := max w.commitFc f.commitFc }
      if more then placeMessage r space j fuel w else w

/-- Fill one frame: messages by class, then in queuing order; the first that finds no room ends it. -/
def fillFrame (s : State) (r space : Nat) : Filling :=
  let order := [1, 2, 3, 4, 5].flatMap fun c => (s.radio.elements.zipIdx.filter fun e => e.1.cls == c).map (·.2)
  order.foldl (fun (w : Filling) j =>
    if w.closed then w else
    match w.st.radio.elements[j]? with
    | none => w
    | some f =>
      if leftOn f r = 0 || !(routes w.st f).contains r || !deliverable w.st f || chainBlocked w.st r j f then w
      else placeMessage r space j 64 w) { st := s, room := space }

/-- A foghorn FC (R429). -/
def foghornFc (s : State) (fc : Nat) : Bool := fc % s.p.radio.cfg.foghornFc == 7

/-- A slot of an FC is a downlink cell (R412). -/
def downlinkCell (s : State) (c : RadioConfig) (fc k : Nat) : Bool :=
  let o := (4 * fc + k) % 40
  if o = 24 then c.beaconFc == 10
  else if o = 30 || o = 31 then !foghornFc s fc
  else o != 4 && !uplinkCells.contains o

/-- Fill a radio's frame for one slot of the next FC. -/
def fillSlot (s : State) (r k : Nat) : State :=
  let fc := fcNow s + 1
  let c := radioCfgFor s fc
  if !downlinkCell s c fc k then s else
  -- a frame carried over takes this slot (R426)
  let held := ((oneRadio s r).queue.filter fun f => !f.beacon && decide (f.slot ≤ 4 * fcNow s + 3)).length
  let before := ((List.range k).filter (downlinkCell s c fc)).length
  if before < held then s else
  let w := fillFrame s r (spaceOf c.phyMode)
  if w.body.isEmpty then s else
  let q := if r = 0 then 0x11 else 0x13
  let occ := occOf s q
  let (ok, t) := admitFrame s q false
  if !ok then t else
  let psdu := airHeader s c 3 ++ w.body
  arrived (modOne w.st r fun x => { x with queue := x.queue ++
    [{ slot := 4 * fc + k, psdu := psdu, air := airOf c.phyMode (psdu.length + 4), commitFc := w.commitFc
       parts := w.parts }] }) q occ

/-- Place a beacon in both radios' queues for slot 0 of the next FC, with the entries kept in reserve for it (R94, R416). -/
def fillBeacons (s : State) : State :=
  match s.stop.token with
  | none => s
  | some token =>
    let c := radioCfgFor s (fcNow s + 1)
    let put (s : State) (r : Nat) : State :=
      let psdu := beaconPsdu s c r token
      let q := if r = 0 then 0x11 else 0x13
      let occ := occOf s q
      match admitFrame s q true with
      | (false, s) => s
      | (true, s) =>
        arrived (modOne s r fun x => { x with queue := { slot := 4 * (fcNow s + 1), psdu := psdu, air := airOf c.phyMode (psdu.length + 4)
                                                         commitFc := 0, beacon := true, token := token } :: x.queue }) q occ
    let first : State := if s.radio.beaconsSince.isSome then s else
      let until' := some (fcNow s + 1 + 100 * s.p.radio.cfg.startupS)
      { s with
        radio.beaconsSince := some (fcNow s + 1)
        radio.a.startupUntil := until'
        radio.b.startupUntil := until' }
    { put (put first 0) 1 with stop.token := none }

/-! ### Correction messages (R212) -/

/-- What has left the TX queues is noted (R87, R92). -/
def noteTx (s : State) : State := noteQueue (noteQueue s 0x11) 0x13

/-- What the elements of a frame hold, less its correction fragments. -/
def withoutParts : List (Nat × Nat) → Bytes → Bytes
  | [], _ => []
  | p :: ps, b => (if p.2 = 0 then b.take p.1 else []) ++ withoutParts ps (b.drop p.1)

/-- Take the correction fragments out of a frame not yet on air; a frame that holds nothing else is gone. -/
def dropFrags (phy : Nat) (f : SlotFrame) : Option SlotFrame :=
  if f.parts.all (·.2 == 0) then some f else
  let head := f.psdu.length - (f.parts.map (·.1)).sum
  let body := withoutParts f.parts (f.psdu.drop head)
  let psdu := f.psdu.take head ++ body
  if body.isEmpty then none
  else some { f with psdu := psdu, air := airOf phy (psdu.length + 4), parts := f.parts.filter (·.2 == 0) }

/-- A correction message is queued: the fragments of those before it that are not yet on air, waiting or in a frame, are
discarded, and each counts once as stale (R212). -/
def queueCorrection (s : State) (p : Bytes) : State :=
  let waiting := (s.radio.elements.filter (·.isCorr)).map fragNo
  let framed := (s.radio.a.queue ++ s.radio.b.queue).flatMap fun f => (f.parts.map (·.2)).filter (· != 0)
  let keep (x : OneRadio) : OneRadio := { x with queue := x.queue.filterMap (dropFrags (radioCfgFor s (fcNow s + 1)).phyMode) }
  queueFragments (noteTx { s with
    radio.elements := s.radio.elements.filter (!·.isCorr)
    radio.a := keep s.radio.a
    radio.b := keep s.radio.b
    ref.fragStale := sat 32 (s.ref.fragStale + (waiting ++ framed).eraseDups.length) }) true p

/-- Beacons never launched are counted as LAUNCH_MISSED and leave the queues (R154). -/
def dropOldBeacons (s : State) : State :=
  [0, 1].foldl (fun s r =>
    let old := (oneRadio s r).queue.filter fun f => f.beacon && decide (f.slot ≤ 4 * fcNow s + 3)
    if old.isEmpty then s else
    let s : State := { s with time.launchMissed := tmod s.time.launchMissed (3 + r) 0 fun n => sat 16 (n + old.length) }
    modOne s r fun x => { x with notLaunched := sat 16 (x.notLaunched + old.length), queue := x.queue.filter fun f => !old.contains f }) s

/-- A fix not placed within 3 FC of queuing is discarded and counted as FIX_STALE (R422). -/
def dropOldFixes (s : State) : State :=
  let old (f : AirFrame) : Bool := f.isFix && decide (f.fc + 3 ≤ fcNow s)
  { s with
    radio.elements := s.radio.elements.filter (!old ·)
    radio.fixStale := sat 32 (s.radio.fixStale + (s.radio.elements.filter old).length) }

/-- EMIT: LNK places the beacons, fills a frame for each downlink slot of the next FC in slot order on each radio, and
discards the fixes that are stale (R416, R422). -/
def fillRadio (s : State) : State :=
  let s := dropOldBeacons s
  if !radiosOn s then dropOldFixes s else
  let s := fillBeacons s
  let s := [0, 1, 2, 3].foldl (fun s k => fillSlot (fillSlot s 0 k) 1 k) s
  dropOldFixes { s with radio.elements := s.radio.elements.filter fun f => (routes s f).any fun r => decide (0 < leftOn f r) }

/-- PERSIST: the ceilings of GROUP_CTR and LINK_DOWN_CTR rise by 2^20 when fewer than 2^19 values remain (R420). -/
def raiseAirCeilings (s : State) : State :=
  let up (c n : Nat) : Nat := if c - n < 2 ^ 19 then c + 2 ^ 20 else c
  { s with
    p.radio.groupCeil := up s.p.radio.groupCeil s.radio.groupCtr
    p.radio.linkCeil := up s.p.radio.linkCeil s.radio.linkDownCtr }

/-! ### Launching (R413, R417, R418, R426, R427, R429) -/

/-- A frame's commit has been persisted, or none is made (R413, R119). -/
def eligible (s : State) (f : SlotFrame) : Bool := mramFog s || decide (f.commitFc ≤ s.com.persistedFc)

/-- Launch the head of a radio's queue in a downlink slot, unless three quarters of the dwell limit are used (R426). -/
def launchDown (s : State) (r k : Nat) : State :=
  match (oneRadio s r).queue.find? fun f => !f.beacon with
  | none => s
  | some f =>
    if asnOf s k < f.slot || !eligible s f then s else
    let ch := hopChannel s (radioCfg s) r (asnOf s k)
    let khz := hopKhz s ch
    if 3 * (prof s).dwell < 4 * (usedOf s khz + f.air) then
      budgetEvent (modOne s r fun x => { x with deferred := inc32 x.deferred }) 1 r 1 ch
    else onAir (modOne s r fun x => { x with queue := x.queue.erase f }) r k khz f.air (radioCfg s).phyMode f.psdu

/-- A radio's foghorn in slot 2 of a foghorn FC (R427, R429). -/
def launchFoghorn (s : State) (r : Nat) : State :=
  if fogState s r = 0 then s else
  let asn := asnOf s 2
  let psdu := foghornPsdu s r asn
  let us := airOf (radioCfg s).fogMode (psdu.length + 4)
  let khz := fogKhz s r
  let b := fogBand s r
  let hop := (List.range (prof s).n).find? fun k => hopKhz s k == khz
  if (prof s).limit < bandUsed s ((prof s).bands.getD b []) + us then
    budgetEvent (modOne s r fun x => { x with fogSkipped := sat 16 (x.fogSkipped + 1) }) 3 r 2 b
  else if hop.isSome && decide (3 * (prof s).dwell < 4 * (usedOf s khz + us)) then
    budgetEvent (modOne s r fun x => { x with fogSkipped := sat 16 (x.fogSkipped + 1) }) 3 r 1 (hop.getD 0)
  else modOne (onAir s r 2 khz us (radioCfg s).fogMode psdu) r fun x => { x with busyUntil := if 2150 < us then asn + 2 else asn + 1 }

/-- TIMESLOT (R410): what the schedule gives the slot, unless a stop frame takes it. -/
def opTimeslot (k : Nat) (s : State) : State :=
  if !slotNowOk s k || stopInSlot s k then s else
  if foghornFc { s with p.radio.cfg.foghornFc := s.radio.foghornNow } (fcNow s) && k = 2 && asnOf s k % 40 = 30 then
    launchFoghorn (launchFoghorn s 0) 1
  else if !downlinkCell { s with p.radio.cfg.foghornFc := s.radio.foghornNow } (radioCfg s) (fcNow s) k then s
  else launchDown (launchDown s 0 k) 1 k

def execTimeslot (k : Nat) (s : State) : Host.Outcome State Fault Refusal :=
  if k < 4 then .next (noteTx (opTimeslot k s)) else .fault .noSuchUnit

/-- A beacon or stop frame: always launched; one that takes U_c above DWELL_MAX is counted (R426). -/
def launchAlways (s : State) (r k : Nat) (psdu : Bytes) (us : Nat) : State :=
  let ch := hopChannel s (radioCfg s) r (asnOf s k)
  let s := onAir s r k (hopKhz s ch) us (radioCfg s).phyMode psdu
  if usedOf s (hopKhz s ch) ≤ (prof s).dwell then s
  else budgetEvent (modOne s r fun x => { x with dwellOver := sat 16 (x.dwellOver + 1) }) 2 r 1 ch

/-- The live state suppresses a beacon (R380, R417). -/
def beaconSuppressed (s : State) (token : Bytes) : Bool :=
  (!s.stop.voted && fld token 1 1 == 1) || robotStops s &&& ~~~(BitVec.ofNat 256 (fld token 16 32)) != 0

/-- Launch or suppress one radio's beacon in slot 0. -/
def launchBeacon (s : State) (r : Nat) : State :=
  match (oneRadio s r).queue.find? fun f => f.beacon && f.slot == asnOf s 0 with
  | none => s
  | some f =>
    let s := modOne s r fun x => { x with queue := x.queue.erase f }
    if beaconSuppressed s f.token then modOne s r fun x => { x with notLaunched := sat 16 (x.notLaunched + 1) }
    else
      let s := launchAlways s r 0 f.psdu f.air
      { s with stop.beaconOnAir := true, radio.beaconAsn := some (asnOf s 0) }

/-- BEACON_LAUNCH (R417): in slot 0 of the FC after a beacon FC. -/
def opBeaconLaunch (s : State) : State := if !slotNowOk s 0 then s else launchBeacon (launchBeacon s 0) 1

def execBeaconLaunch (s : State) : Host.Outcome State Fault Refusal := .next (noteTx (opBeaconLaunch s))

/-- A stop frame on one radio; a two-slot foghorn still running is cut (R418). -/
def launchStop (s : State) (r k : Nat) : State :=
  let asn := asnOf s k
  let s := if asn < (oneRadio s r).busyUntil && k = 3 then
      modOne (cutAir s (fogKhz s r) 1110) r fun x => { x with busyUntil := asn }
    else s
  let psdu := airHeader s (radioCfg s) 2 ++ stopBlock s asn
  launchAlways s r k psdu (airOf (radioCfg s).phyMode (psdu.length + 4))

/-- STOP_FRAME (R383, R384, R418): in every slot of the repetition, unless a beacon launched there stands for it. -/
def opStopFrame (k : Nat) (s : State) : State :=
  if !slotNowOk s k || !stopInSlot s k || s.radio.beaconAsn == some (asnOf s k) then s
  else launchStop (launchStop s 0 k) 1 k

def execStopFrame (k : Nat) (s : State) : Host.Outcome State Fault Refusal :=
  if k < 4 then .next (opStopFrame k s) else .fault .noSuchUnit

/-! ### The boundary and the timed rows -/

/-- The radios at a boundary: what went on air is forgotten, the accounting is read, and a test ends with WATCH (R439). -/
def radioBoundary (s : State) : State :=
  let watch := s.mode.cur == .watch
  let each (x : OneRadio) : OneRadio := { x with air := [], testUntil := if watch then x.testUntil else none }
  { s with
    radio.a := each s.radio.a
    radio.b := each s.radio.b
    radio.foghornNow := s.p.radio.cfg.foghornFc
    radio.boundaryUse := (s.radio.bins.map fun e => (e.1, usedOf s e.1)).filter fun e => e.2 != 0 }

/-- RADIO_SETTINGS_EFFECT (R437): the pending settings take effect and STARTUP foghorns begin. -/
def opRadioSettingsEffect (s : State) : State :=
  if !running s || s.clk.window != .latch then s else
  match s.p.radio.pendingCfg with
  | none => s
  | some (c, e) =>
    if fcNow s < e then s else
    let cur := s.p.radio.cfg
    let until' := some (fcNow s + 100 * cur.startupS)
    { s with
      p.radio.cfg := { c with foghornFc := cur.foghornFc, startupS := cur.startupS, powerA := cur.powerA, powerB := cur.powerB }
      p.radio.pendingCfg := none
      radio.a.startupUntil := until'
      radio.b.startupUntil := until' }

def execRadioSettingsEffect (s : State) : Host.Outcome State Fault Refusal := .next (opRadioSettingsEffect s)

/-- RADIO_TEST_EXPIRY (R439). -/
def opRadioTestExpiry (s : State) : State :=
  if !running s || s.clk.window != .latch then s else
  let expire (x : OneRadio) : OneRadio := { x with testUntil := if (x.testUntil.map fun u => decide (u ≤ fcNow s)).getD false then none else x.testUntil }
  { s with radio.a := expire s.radio.a, radio.b := expire s.radio.b }

def execRadioTestExpiry (s : State) : Host.Outcome State Fault Refusal := .next (opRadioTestExpiry s)

/-- EV_RADIO_BUDGET, for each cause separately (R440, R579). -/
def emitRadio (s : State) : State :=
  if fcNow s % 100 != 0 then s else
  [1, 2, 3].foldl (fun s cause =>
    let e := s.radio.budgetEvs.getD (cause - 1) (0, 0, 1, 0, 0)
    if e.1 = e.2.2.2.2 then s else
    let band := e.2.2.1 == 2
    let used := if band then bandUsed s ((prof s).bands.getD e.2.2.2.1 []) else usedOf s (hopKhz s e.2.2.2.1)
    raise { s with radio.budgetEvs := lmod s.radio.budgetEvs (cause - 1) fun x => (x.1, x.2.1, x.2.2.1, x.2.2.2.1, x.1) } 0x8A01 .sup
      (le 1 cause ++ le 1 e.2.1 ++ le 1 e.2.2.1 ++ le 1 e.2.2.2.1 ++ le 4 (e.1 - e.2.2.2.2) ++ le 4 used
        ++ le 4 (if band then (prof s).limit else (prof s).dwell))) s

/-! ### RADIO opcodes (R436 to R439) -/

/-- TX_POWER_DBM of a radio. -/
def powerDbm (s : State) (r : Nat) : Int :=
  let w := if r = 0 then s.p.radio.cfg.powerA else s.p.radio.cfg.powerB
  if w = 0 then ((prof s).dbm : Int) else (w : Int) - 1

/-- The 40-byte entry of a radio in RADIO_STATUS. -/
def radioEntry (s : State) (r : Nat) : Bytes :=
  let x := oneRadio s r
  le 1 r ++ le 1 (fogState s r) ++ leI 1 (powerDbm s r) ++ zb 1 ++ le 2 x.notLaunched ++ le 2 (tgetD s.time.launchMissed (3 + r) 0)
    ++ le 4 x.framesTx ++ le 4 x.framesRx ++ le 4 x.fcsFail ++ le 4 x.micFail ++ le 4 x.replay ++ le 4 x.duplicate
    ++ le 4 x.deferred ++ le 2 x.dwellOver ++ le 2 x.fogSkipped

/-- The reply of RADIO_STATUS. -/
def radioReply (s : State) : Bytes :=
  let c := radioCfg s
  le 1 (profileOf s c) ++ le 1 c.phyMode ++ le 1 c.fogMode ++ le 1 c.beaconFc ++ le 2 s.radio.foghornNow ++ le 2 (panId s)
    ++ le 4 (hopSeedOf s c) ++ le 2 (cellLoad s)
    ++ le 2 ((associatedSessions s).filter fun i => (tget s.radio.cells i).isNone).length
    ++ le 2 (s.p.robots.filter fun e => e.2.sstate == .asleep && (robotAt s e.1).wakeMissed).length ++ zb 2
    ++ le 4 s.radio.groupCtr ++ radioEntry s 0 ++ radioEntry s 1

/-- RADIO_STATUS (R436). -/
def opRadioStatus (r : Request) (s : State) : State := readOp s r 0x0A01 radioReply

def execRadioStatus (r : Request) (s : State) : Host.Outcome State Fault Refusal := .next (opRadioStatus r s)

/-- The settings that will be in force: those pending, else those in force. -/
def radioBase (s : State) : RadioConfig := ((s.p.radio.pendingCfg).map (·.1)).getD s.p.radio.cfg

/-- The settings a payload leaves; powers, FOGHORN_FC and FOG_STARTUP_S are those of the settings in force. -/
def radioFrom (s : State) (p : Bytes) : RadioConfig :=
  let b := radioBase s
  let c := s.p.radio.cfg
  { profile := keepIf0 (fld p 0 1) b.profile, phyMode := keepIf0 (fld p 1 1) b.phyMode, fogMode := keepIf0 (fld p 2 1) b.fogMode
    beaconFc := keepIf0 (fld p 3 1) b.beaconFc, foghornFc := keepIf0 (fld p 4 2) c.foghornFc
    startupS := keepIf0 (fld p 6 2) c.startupS, panId := keepIf0 (fld p 8 2) b.panId, powerA := keepIf0 (fld p 10 1) c.powerA
    powerB := keepIf0 (fld p 11 1) c.powerB, hopSeed := keepIf0 (fld p 12 4) b.hopSeed }

/-- The ranges of R437. -/
def radioOk (s : State) (c : RadioConfig) : Bool :=
  let p := profileRec (profileOf s c)
  (profilesOf s.fuse.orderCode).contains (profileOf s c) && p.modes.contains c.phyMode && p.fogModes.contains c.fogMode
    && (c.beaconFc == 5 || c.beaconFc == 10) && [10, 20, 50, 100, 200, 500].contains c.foghornFc
    && decide (10 ≤ c.startupS) && decide (c.startupS ≤ 600) && decide (c.panId ≤ 0xFFFE)
    && decide (c.powerA ≤ p.dbm + 1) && decide (c.powerB ≤ p.dbm + 1)

/-- The payload changes a setting that waits for EFFECT_FC. -/
def radioDeferred (p : Bytes) : Bool := !(zeros p 0 4 && zeros p 8 2 && zeros p 12 4)

/-- The reply of RADIO_CONFIG. -/
def radioCfgReply (s : State) : Bytes :=
  let c := radioBase s
  let cur := s.p.radio.cfg
  let dbm := (profileRec (profileOf s c)).dbm
  le 1 (profileOf s c) ++ le 1 c.phyMode ++ le 1 c.fogMode ++ le 1 c.beaconFc ++ le 2 cur.foghornFc ++ le 2 cur.startupS
    ++ le 2 (panOf s c) ++ le 1 (keepIf0 cur.powerA (dbm + 1)) ++ le 1 (keepIf0 cur.powerB (dbm + 1)) ++ le 4 (hopSeedOf s c)
    ++ le 8 ((s.p.radio.pendingCfg.map (·.2)).getD 0) ++ zb 8

/-- Apply a RADIO_CONFIG: powers, FOGHORN_FC and FOG_STARTUP_S at once, the rest from EFFECT_FC. -/
def applyRadioCfg (p : Bytes) (c : RadioConfig) (s : State) : State :=
  { s with
    p.radio.cfg := { s.p.radio.cfg with foghornFc := c.foghornFc, startupS := c.startupS, powerA := c.powerA, powerB := c.powerB }
    p.radio.pendingCfg := if radioDeferred p then some (c, 10 * cdiv (fcNow s + 200) 10) else s.p.radio.pendingCfg }

/-- RADIO_CONFIG (R437). -/
def opRadioConfig (r : Request) (s : State) : State :=
  let p := r.payload
  let read := allZero p
  runOp s r (p.length == 32) (zeros p 16 16) (read || supOk s r) (edtOr s 0x0A02 read mCfg) fun s =>
  if read then finish s r stOk (radioCfgReply s) else
  let c := radioFrom s p
  need (radioOk s c) s r stBadRange fun s =>
  change1 s r siteObj (applyRadioCfg p c) radioCfgReply

def execRadioConfig (r : Request) (s : State) : Host.Outcome State Fault Refusal := .next (opRadioConfig r s)

/-- The reply of RADIO_BUDGET: the hop channels in index order, then the duty bands. -/
def budgetReply (s : State) : Bytes :=
  let use (khz : Nat) : Nat := tgetD s.radio.boundaryUse khz 0
  let p := prof s
  le 2 (p.n + p.bands.length) ++ zb 6
    ++ (List.range p.n).flatMap (fun k => le 1 1 ++ le 1 k ++ zb 2 ++ le 4 (use (hopKhz s k)) ++ le 4 p.dwell ++ le 4 p.windowS)
    ++ p.bands.zipIdx.flatMap (fun e => le 1 2 ++ le 1 e.2 ++ zb 2 ++ le 4 (e.1.map use).sum ++ le 4 p.limit ++ le 4 p.windowS)

/-- RADIO_BUDGET (R438). -/
def opRadioBudget (r : Request) (s : State) : State := readOp s r 0x0A03 budgetReply

def execRadioBudget (r : Request) (s : State) : Host.Outcome State Fault Refusal := .next (opRadioBudget r s)

/-- A radio named by RADIO_MASK runs a test. -/
def testRunning (s : State) (mask : Nat) : Bool := [0, 1].any fun r => bit mask r && (oneRadio s r).testUntil.isSome

/-- Start or end the test of the radios named. -/
def setTest (s : State) (mask : Nat) (until' : Option Nat) : State :=
  [0, 1].foldl (fun s r => if bit mask r then modOne s r fun x => { x with testFrom := fcNow s + 1, testUntil := until' } else s) s

/-- RADIO_TEST (R439) under one of its two actions. -/
def opRadioTest (r : Request) (s : State) : State :=
  let p := r.payload
  let mask := fld p 0 1
  let act := fld p 1 1
  let d := fld p 2 2
  runOp s r (p.length == 8) (zeros p 4 4 && (act != 2 || d == 0)) (svcOk s r) (inModes s [.watch]) fun s =>
  need (decide (1 ≤ mask) && decide (mask ≤ 3) && (act == 2 || (act == 1 && decide (1 ≤ d) && decide (d ≤ 3600)))) s r stBadRange fun s =>
  if act = 1 then
    need (!testRunning s mask) s r stBusy fun s => finish (setTest s mask (some (fcNow s + 1 + 100 * d))) r stOk []
  else finish (setTest s mask none) r stOk []

/-- Fix ACTION of a RADIO_TEST payload. -/
def withAction (r : Request) (a : Nat) : Request := { r with payload := r.payload.set 1 (BitVec.ofNat 8 a) }

/-- RADIO_TEST with ACTION 0x01. -/
def execRadioTestStart (r : Request) (s : State) : Host.Outcome State Fault Refusal := .next (opRadioTest (withAction r 1) s)

/-- RADIO_TEST with ACTION 0x02. -/
def execRadioTestEnd (r : Request) (s : State) : Host.Outcome State Fault Refusal := .next (opRadioTest (withAction r 2) s)

end Sys2Proof.Machine
end

