-- ==== Sys2Proof/Machine/Sys.lean ====
section
/-! DEFINITION. The SYS opcodes of the identity, the mode, the reset, the supply, enrolment and the end of provisioning
(R124 to R131), and SYS_SESSION_LIST (R57). -/

namespace Sys2Proof.Machine

open Sys2Proof

/-- Reply of SYS_IDENTITY (R124). -/
def identityReply (s : State) : Bytes :=
  le 8 s.fuse.eui64.toNat ++ le 1 s.fuse.orderCode ++ le 1 s.fuse.hwRev ++ le 4 (activeSlot s).pkg.fw
    ++ le 1 (flag s.flash.active 0) ++ le 1 s.p.control.lastResetKind ++ le 4 s.p.control.bootCount
    ++ fit 12 s.fuse.serial ++ fingerprint s.fuse.secret

/-- SYS_IDENTITY (R124). -/
def opSysIdentity (r : Request) (s : State) : State := readOp s r 0x0101 identityReply

def execSysIdentity (r : Request) (s : State) : Host.Outcome State Fault Refusal := .next (opSysIdentity r s)

/-- HOST_LOSS_LEFT_S (R125). -/
def hostLossLeft (s : State) : Nat :=
  if !(openSlots s).isEmpty || !inModes s [.breeze, .drift, .squall] then 0xFFFF
  else cdiv (100 * s.supply.cfg.hostLossS - s.mode.noSessionFc) 100

/-- Reply of SYS_MODE_GET (R125). -/
def modeGetReply (s : State) : Bytes :=
  le 1 (modeCode s.mode.cur) ++ le 1 ((s.mode.ret.map modeCode).getD 0xFF) ++ le 1 s.mode.cause ++ zb 1
    ++ le 4 (condition s) ++ le 8 s.mode.entryFc ++ le 2 s.supply.vinMv ++ le 2 (hostLossLeft s) ++ le 4 (notReady s)

/-- SYS_MODE_GET (R125). -/
def opSysModeGet (r : Request) (s : State) : State := readOp s r 0x0102 modeGetReply

def execSysModeGet (r : Request) (s : State) : Host.Outcome State Fault Refusal := .next (opSysModeGet r s)

/-- The targets SYS_MODE_SET may name from a mode (R110). -/
def setRow : Mode → List Mode
  | .calm => [.tender, .zephyr, .watch, .breeze, .drift]
  | .zephyr => [.calm]
  | .watch => [.calm]
  | .breeze => [.calm]
  | .drift => [.calm]
  | .fog => [.calm]
  | _ => []

/-- Reply of SYS_MODE_SET (R126). -/
def modeSetReply (m : Mode) (nr : Nat) : Bytes := le 1 (modeCode m) ++ zb 3 ++ le 4 nr

/-- The cause of the FOG in force or selected in this FC. -/
def fogCauseSelected (s : State) : Nat :=
  match s.mode.next with
  | some c => if c.target == .fog then c.cause else s.mode.fogCause
  | none => s.mode.fogCause

/-- NOT_READY of a SYS_MODE_SET for its target (R126). -/
def modeSetNotReady (s : State) (base target : Mode) : Nat :=
  if isGo target then notReadyGo s else flag (base == .fog && fogHoldsFor s (fogCauseSelected s)) 7

/-- The mode a granted SYS_MODE_SET leads to (R109, R126). -/
def modeSetEffect (s : State) (base target : Mode) : Mode :=
  if isGo target then refMode s
  else if base == .fog then (if squallCond s then .squall else if lullCond s then .lull else .calm)
  else target

/-- The body of SYS_MODE_SET once its target is a mode code (R107, R110, R126, R144). -/
def modeSetTo (r : Request) (target : Mode) (s : State) : State :=
  let base := modeSelected s
  if !((setRow base).contains target && !s.time.steppedThisFc && !(base == .fog && fogCauseSelected s == 0x0B)) then refuseMode s r else
  let nr := modeSetNotReady s base target
  if nr != 0 then finish s r stNotReady (modeSetReply base nr) else
  let eff := modeSetEffect s base target
  change1 s r siteObj
    (fun s =>
      let s := decideMode s eff 0x02 (some s.com.csn) (some (r.sessionId, r.tag))
      if base == .fog then
        { s with mode.next := s.mode.next.map fun c => { c with ret := if isOver eff then some .calm else none } }
      else s)
    (fun _ => modeSetReply eff 0)

/-- Role condition of SYS_MODE_SET: SUPERVISOR; target TENDER needs SERVICE on L23 (R126). -/
def modeSetRole (s : State) (r : Request) : Bool :=
  if fld r.payload 0 1 = 2 then svcOk s r && r.port == .l23 else supOk s r

/-- SYS_MODE_SET (R126). -/
def opSysModeSet (r : Request) (s : State) : State :=
  runOp s r (r.payload.length == 8) (zeros r.payload 1 7) (modeSetRole s r)
    (inModes s [.calm, .zephyr, .breeze, .drift, .watch, .fog]) fun s =>
  match modeOf (fld r.payload 0 1) with
  | none => finish s r stBadRange []
  | some target => modeSetTo r target s

def execSysModeSet (r : Request) (s : State) : Host.Outcome State Fault Refusal := .next (opSysModeSet r s)

/-- SYS_RESET (R127): the reset follows at the last PCLK of GUARD. -/
def opSysReset (r : Request) (s : State) : State :=
  let kind := fld r.payload 0 1
  runOp s r (r.payload.length == 8) (zeros r.payload 1 3) (if kind = 2 then svcOk s r else supOk s r)
    (inModes s [.tender, .calm, .zephyr, .lull, .squall, .watch, .fog]) fun s =>
  need ((kind == 1 || kind == 2) && fld r.payload 4 4 == 0xC0DE) s r stBadRange fun s =>
  finish { s with mode.resetAt := some (if kind = 1 then 0x03 else 0x04) } r stOk []

def execSysResetWarm (r : Request) (s : State) : Host.Outcome State Fault Refusal := .next (opSysReset (withHead r 1) s)

def execSysResetCold (r : Request) (s : State) : Host.Outcome State Fault Refusal := .next (opSysReset (withHead r 2) s)

/-- The parameters in force as SYS_POWER_CONFIG returns them (R128). -/
def powerReply (s : State) : Bytes :=
  le 2 s.p.power.lullEnter ++ le 2 s.p.power.lullExit ++ le 2 s.p.power.enterFc ++ le 2 s.p.power.exitFc
    ++ le 2 s.p.power.hostLossS ++ le 2 s.p.power.podlKeep ++ le 1 s.p.power.batteryInput ++ zb 3

/-- The parameters a SYS_POWER_CONFIG payload carries. -/
def powerFrom (p : Bytes) : PowerConfig :=
  { lullEnter := fld p 0 2, lullExit := fld p 2 2, enterFc := fld p 4 2, exitFc := fld p 6 2, hostLossS := fld p 8 2,
    podlKeep := fld p 10 2, batteryInput := fld p 12 1 }

/-- The ranges of R120, R121 and R128. -/
def powerOk (c : PowerConfig) : Bool :=
  decide (17000 ≤ c.lullEnter) && decide (c.lullEnter ≤ 24000) && c.lullEnter % 100 == 0
    && decide (c.lullEnter + 1000 ≤ c.lullExit) && decide (c.lullExit ≤ 26000)
    && decide (1 ≤ c.enterFc) && decide (c.enterFc ≤ 500) && decide (100 ≤ c.exitFc) && decide (c.exitFc ≤ 30000)
    && decide (5 ≤ c.hostLossS) && decide (c.hostLossS ≤ 600)
    && (decide (c.batteryInput ≤ 7) || c.batteryInput == 0xFF)

/-- SYS_POWER_CONFIG (R128). -/
def opSysPowerConfig (r : Request) (s : State) : State :=
  runOp s r (r.payload.length == 16) (zeros r.payload 13 3 && decide (fld r.payload 10 2 < 1024)) (supOk s r)
    (inModes s mNorm) fun s =>
  if allZero r.payload then finish s r stOk (powerReply s) else
  need (powerOk (powerFrom r.payload)) s r stBadRange fun s =>
  change1 s r siteObj
    (fun s => { s with p.power := powerFrom r.payload, supply.cfgDue := true })
    powerReply

def execSysPowerConfig (r : Request) (s : State) : Host.Outcome State Fault Refusal := .next (opSysPowerConfig r s)

/-- FCs until a session's lease expires (R53). -/
def leaseLeft (s : State) (e : Session) : Nat := e.renewFc + 100 * e.leaseS + 1 - fcNow s

/-- One entry of SYS_SESSION_LIST (R57). -/
def sessionEntry (s : State) (slot : Nat) : Bytes :=
  match sessionAt s slot with
  | none => zb 24
  | some e =>
    le 2 e.id ++ le 1 e.host ++ le 1 (roleCode e.role) ++ le 1 (portCode e.port) ++ zb 1 ++ le 2 e.outs.length
      ++ le 2 e.leaseS ++ zb 2 ++ le 4 (10 * leaseLeft s e) ++ le 8 e.openedCsn

/-- Reply of SYS_SESSION_LIST: the four slots in order (R57). -/
def sessionsReply (s : State) : Bytes := (List.range 4).flatMap (sessionEntry s)

/-- SYS_SESSION_LIST (R57). -/
def opSysSessionList (r : Request) (s : State) : State :=
  readOp s r 0x0122 sessionsReply

def execSysSessionList (r : Request) (s : State) : Host.Outcome State Fault Refusal := .next (opSysSessionList r s)

/-- SYS_HOST_ENROL (R129, R481). -/
def opSysHostEnrol (r : Request) (s : State) : State :=
  let p := r.payload
  let idx := fld p 0 1
  runOp s r (p.length == 32) (zeros p 2 2 && zeros p 20 12) (svcOk s r) (inModes s [.tender]) fun s =>
  match roleOfCode (fld p 1 1) with
  | none => finish s r stBadRange []
  | some ceiling =>
    need (decide (idx ≤ 15) && nameOk (slice p 4 16)) s r stBadRange fun s =>
    let h := tgetD s.p.control.hosts idx {}
    need (!h.enrolled) s r stHostExists fun s =>
    need (siteValid s) s r stNoSiteKey fun s =>
    change1 s r (okHost, idx)
      (fun s => { s with
        p.control.hosts := tput s.p.control.hosts idx { h with enrolled := true, ceiling := ceiling, name := slice p 4 16 }
        p.keys.hostGen := tput s.p.keys.hostGen idx (nextGen (tgetD s.p.keys.hostGen idx 0)) })
      (fun s => le 1 idx ++ zb 7 ++ hostKey s idx)

def execSysHostEnrol (r : Request) (s : State) : Host.Outcome State Fault Refusal := .next (opSysHostEnrol r s)

/-- SYS_TENDER_CLOSE (R131): the TENDER_CLOSE reset follows, and the provisioning host is refused from then on (R123). -/
def opSysTenderClose (r : Request) (s : State) : State :=
  runOp s r r.payload.isEmpty true (svcOk s r) (inModes s [.tender]) fun s =>
  let nr := notReadyTender s
  if nr != 0 then finish s r stNotReady (le 4 nr) else
  change1 s r siteObj
    (fun s => { s with mode.resetAt := some 0x05, p.control.provRefused := true })
    (fun _ => le 4 0)

def execSysTenderClose (r : Request) (s : State) : Host.Outcome State Fault Refusal := .next (opSysTenderClose r s)

end Sys2Proof.Machine
end

