-- ==== Sys2Proof/Machine/Keys.lean ====
section
/-! DEFINITION. Keys, attestation and tamper (R479 to R506): the KEY and ATTEST opcodes, the flip of a key slot in
PERSIST, the tamper sensors with their policies, and the roll of the group and beacon keys. -/

namespace Sys2Proof.Machine

open Sys2Proof

/-! ### Events (R506) -/

/-- EV_KEY of a slot, by a command or by none. -/
def keyEvent (s : State) (tag : Option (Nat × Nat)) (slot action gen : Nat) : State :=
  raiseWith s s.com.csn tag 0x8C02 .all (le 1 slot ++ le 1 action ++ le 2 gen ++ zb 12)

/-- EV_KEY of a roll, by a command or by none. -/
def rollEvent (s : State) (tag : Option (Nat × Nat)) (action beacon group effect : Nat) : State :=
  raiseWith s s.com.csn tag 0x8C02 .all (le 1 0xFF ++ le 1 action ++ le 2 beacon ++ le 2 group ++ zb 2 ++ le 8 effect)

/-- TIME64 of an RTC reading in 1/32768 s. -/
def rtcTime (rtc : Nat) : Nat := rtc * (ftuPerSec / 32768)

/-- EMIT: EV_TAMPER of the trips latched, and the slot changes found in STILL. -/
def emitKeys (s : State) : State :=
  let s := s.sec.evKeys.foldl (fun s e => keyEvent s none e.1 e.2 (keySlot s e.1).gen) { s with sec.evKeys := [] }
  if s.sec.evBits = 0 then s else
  let s := raise s 0x8C01 .all (le 1 s.sec.evBits ++ le 1 s.bk.policy ++ le 1 s.bk.unreportedAction ++ zb 1 ++ le 4 s.bk.tamperCount
    ++ leTime (rtcTime s.bk.firstTrip))
  let s := if s.bk.unreportedAction = 2 then keyEvent s none 0 3 (keySlot s 0).gen else s
  { s with
    sec.evBits := 0
    bk.unreported := (List.range 5).foldl (fun a i => a + flag (bit s.bk.unreported i && !bit s.sec.evBits i) i) 0 }

/-! ### The key slots (R484 to R489) -/

/-- Cache entries derived from a slot (R487). -/
def childEntries (s : State) (i : Nat) : List Nat :=
  if i = 0 then
    ((List.range 256).filter fun k => (linkSlotOf s (robotRec s k).eui).isNone) ++ (List.range 20).map (· + 256)
  else if i ≤ 10 then [275 + i]
  else ((sessionOfEui s (keySlot s i).binding).map fun k => [k]).getD []

/-- Clear the cache tags that name a slot. -/
def clearTags (s : State) (l : List Nat) : State :=
  { s with bk.tags := s.bk.tags.filter fun e => !l.contains e.1 }

/-- End the association of an EUI-64 in force, or pending (R268 step 5): its SSTATE is left to the changes R266 lists. -/
def endAssocOf (s : State) (eui : BitVec 64) : State :=
  match sessionOfEui s eui with
  | some i => endAssociation s i
  | none => s

/-- The consequences of a slot's destruction (R487), given the slot as it was. -/
def orphan (s : State) (i : Nat) : State :=
  let old := keySlot s i
  let s := clearTags s (childEntries s i)
  if i = 0 then
    { s with
      p.control.hosts := tmap s.p.control.hosts fun _ h => { h with enrolled := false }
      p.control.provRefused := false }
  else if i ≤ 10 then
    match (anchorAt s (i - 1)).state with
    | .unpaired | .syncing | .inSync | .relay => setAnchor s (i - 1) .linkUp 0x08
    | _ => s
  else endAssocOf s old.binding

/-- The record of a slot after its destruction: both areas zero, VALID clear, WIPED set, GEN advanced. -/
def destroyed (k : KeySlot) : KeySlot :=
  { k with
    valid := false
    wiped := true
    shadow := false
    cur := !k.cur
    gen := nextGen k.gen
    val0 := zb 32
    val1 := zb 32 }

/-- The record of a slot after a key is installed in it. -/
def installed (k : KeySlot) (kind len : Nat) (binding : BitVec 64) (key : Bytes) : KeySlot :=
  { k with
    valid := true
    wiped := false
    shadow := false
    cur := !k.cur
    kind := kind
    keyLen := len
    binding := binding
    val0 := if k.cur then fit 32 key else k.val0
    val1 := if k.cur then k.val1 else fit 32 key }

/-- Whether two records hold the same commit word (R485). -/
def sameWord (a b : KeySlot) : Bool :=
  a.valid == b.valid && a.wiped == b.wiped && a.cur == b.cur && a.shadow == b.shadow && a.csnTag == b.csnTag

/-- Step 1 of R488: the new value stands in the other area with SHADOW set; the flip is due in PERSIST. -/
def beginChange (s : State) (r : Request) (i : Nat) (new : KeySlot) (destroy : Bool) (reply : Bytes) : State :=
  let k := { keySlot s i with shadow := true }
  { s with
    bk.slots := tput s.bk.slots i k
    sec.change := s.sec.change ++ [{ slot := i, new := new, expect := k, destroy := destroy, req := r, reply := reply }] }

/-- Step 2 of R488 at the first PCLK of PERSIST: the compare-and-set, the commit, the event and the final reply. -/
def flipSlot (s : State) (c : SlotChange) : State :=
  let k := keySlot s c.slot
  let s := { s with com.cmdCommits := 0 }
  if !sameWord k c.expect then finish s c.req stTampered [] else
  let s := if c.destroy then orphan s c.slot else clearTags s (if c.slot = 0 then [] else childEntries s c.slot)
  let s := commit s okKey c.slot
  let new := { c.new with csnTag := s.com.csn % 2 ^ 28 }
  let s : State := { s with
    bk.slots := tput s.bk.slots c.slot new
    p.keys.sealed := tput s.p.keys.sealed c.slot { slot := new }
    mode.resetAt := if c.destroy && c.slot == 0 then some 0x08 else s.mode.resetAt }
  let s := if c.destroy || c.slot ≤ 10 then s else endAssocOf (clearTags s (childEntries s c.slot)) new.binding
  finish (keyEvent s (tagOf s c.req) c.slot (if c.destroy then 2 else 1) new.gen) c.req stOk c.reply

/-- PERSIST: the flips of the FC, and slot 0 erased after a wipe (R488, R494). -/
def persistKeys (s : State) : State :=
  let s := s.sec.change.foldl flipSlot { s with sec.change := [] }
  if !s.sec.wipeDue then s else
  let s := orphan s 0
  let k := { keySlot s 0 with gen := nextGen (keySlot s 0).gen }
  { s with
    bk.slots := tput s.bk.slots 0 k
    p.keys.sealed := tput s.p.keys.sealed 0 { slot := k, erased := true }
    sec.wipeDue := false
    mode.resetAt := some 0x07 }

/-! ### KEY_STATUS (R497) -/

/-- STATE of a slot entry. -/
def slotState (k : KeySlot) : Nat := if k.valid then 1 else if k.wiped then 2 else 0

/-- MAINT_LEFT_S. -/
def maintLeft (s : State) : Nat := cdiv (s.bk.maintFc - 1) 100

/-- The reply of KEY_STATUS. -/
def keyStatusReply (s : State) : Bytes :=
  le 1 (flag s.bk.latched 0) ++ le 1 s.bk.tsrc ++ le 1 s.bk.enable ++ le 1 s.bk.policy ++ le 4 s.bk.tamperCount
    ++ leTime (if s.bk.latched then rtcTime s.bk.firstTrip else 0) ++ le 2 (keySlot s 0).gen ++ le 2 s.p.keys.groupGen
    ++ le 2 s.p.keys.beaconGen ++ le 2 (maintLeft s) ++ le 1 s.bk.tsrcNow ++ zb 1
    ++ le 2 (s.bk.tags.filter fun e => e.2 != 0).length ++ zb 4
    ++ (List.range 64).flatMap fun i =>
      let k := keySlot s i
      le 1 i ++ le 1 k.kind ++ le 1 (slotState k) ++ zb 1 ++ le 2 k.gen ++ zb 2 ++ le 8 k.binding.toNat

/-- KEY_STATUS (R497). -/
def opKeyStatus (r : Request) (s : State) : State := readOp s r 0x0C01 keyStatusReply

def execKeyStatus (r : Request) (s : State) : Host.Outcome State Fault Refusal := .next (opKeyStatus r s)

/-! ### Installing and destroying (R498 to R500) -/

/-- KEY_SITE_INSTALL (R498). -/
def opKeySiteInstall (r : Request) (s : State) : State :=
  let p := r.payload
  let source := fld p 0 1
  runOp s r (p.length == 40) (zeros p 1 7 && (source != 1 || zeros p 8 32)) (svcOk s r) (inModes s [.tender]) fun s =>
  need ((source == 1 || source == 2) && !(source == 2 && zeros p 8 32)) s r stBadRange fun s =>
  need (!siteValid s) s r stKeyExists fun s =>
  checkCsn s r [(okKey, 0)] fun s =>
  let (key, s) := if source = 1 then freshBytes s 32 else (slice p 8 32, s)
  let k := keySlot s 0
  beginChange s r 0 (installed k 1 32 0 key) false (le 2 k.gen ++ zb 2 ++ (hmac256 key (ascii "KCV")).take 4)

def execKeySiteInstall (r : Request) (s : State) : Host.Outcome State Fault Refusal := .next (opKeySiteInstall r s)

/-- KEY_DESTROY (R499). -/
def opKeyDestroy (r : Request) (s : State) : State :=
  let p := r.payload
  let i := fld p 0 1
  runOp s r (p.length == 8) (zeros p 1 3) (svcOk s r) (inModes s mCfg) fun s =>
  need (decide (i < 64) && (keySlot s i).valid && fld p 4 4 == 0xDE57) s r stBadRange fun s =>
  checkCsn s r [(okKey, i)] fun s => beginChange s r i (destroyed (keySlot s i)) true []

def execKeyDestroy (r : Request) (s : State) : Host.Outcome State Fault Refusal := .next (opKeyDestroy r s)

/-- KEY_ANCHOR_SET (R500). -/
def opKeyAnchorSet (r : Request) (s : State) : State :=
  let p := r.payload
  let i := fld p 0 1 + 1
  runOp s r (p.length == 24) (zeros p 1 7) (svcOk s r) (inModes s mCfg) fun s =>
  need (decide (i ≤ 10)) s r stBadRange fun s =>
  checkCsn s r [(okKey, i)] fun s => beginChange s r i (installed (keySlot s i) 2 16 0 (slice p 8 16)) false []

def execKeyAnchorSet (r : Request) (s : State) : Host.Outcome State Fault Refusal := .next (opKeyAnchorSet r s)

/-- The slot KEY_LINK_SET names: 0xFF is the lowest EMPTY or WIPED one. -/
def linkSlotNamed (s : State) (n : Nat) : Option Nat :=
  if n = 0xFF then ((List.range 53).map (· + 11)).find? fun i => !(keySlot s i).valid else some n

/-- KEY_LINK_SET (R500). -/
def opKeyLinkSet (r : Request) (s : State) : State :=
  let p := r.payload
  let n := fld p 0 1
  let eui := BitVec.ofNat 64 (fld p 8 8)
  runOp s r (p.length == 32) (zeros p 1 7) (svcOk s r) (inModes s mCfg) fun s =>
  need (n == 0xFF || (decide (11 ≤ n) && decide (n ≤ 63))) s r stBadRange fun s =>
  match linkSlotNamed s n with
  | none => finish s r stTableFull []
  | some i =>
    need ((linkSlotOf s eui).all (· == i)) s r stKeyExists fun s =>
    checkCsn s r [(okKey, i)] fun s =>
    beginChange s r i (installed (keySlot s i) 3 16 eui (slice p 16 16)) false (le 1 i ++ zb 3)

def execKeyLinkSet (r : Request) (s : State) : Host.Outcome State Fault Refusal := .next (opKeyLinkSet r s)

/-- KEY_ROBOT_EXPORT (R501). -/
def opKeyRobotExport (r : Request) (s : State) : State :=
  let p := r.payload
  let eui := BitVec.ofNat 64 (fld p 0 8)
  runOp s r (p.length == 8) true (svcOk s r && r.port == .l23) (inModes s mCfg) fun s =>
  need (siteValid s || (linkSlotOf s eui).isSome) s r stNoSiteKey fun s =>
  finish s r stOk (fit 16 (linkKey s eui) ++ le 1 (if (linkSlotOf s eui).isSome then 2 else 1) ++ zb 7
    ++ fingerprint s.fuse.secret)

def execKeyRobotExport (r : Request) (s : State) : Host.Outcome State Fault Refusal := .next (opKeyRobotExport r s)

/-! ### Rolling (R502) -/

/-- EFFECT_FC of a roll committed in an FC. -/
def rollFc (fc : Nat) : Nat := 10 * cdiv (fc + 200) 10

/-- KEY_ROLL (R502). -/
def opKeyRoll (r : Request) (s : State) : State :=
  let p := r.payload
  let what := fld p 0 1
  let e := rollFc (fcNow s)
  let g := if bit what 0 then nextGen s.p.keys.groupGen else s.p.keys.groupGen
  let b := if bit what 1 then nextGen s.p.keys.beaconGen else s.p.keys.beaconGen
  runOp s r (p.length == 4) (decide (what < 4) && zeros p 1 3) (svcOk s r) (inModes s mWork) fun s =>
  need (what != 0) s r stBadRange fun s =>
  need s.p.keys.roll.isNone s r stBusy fun s =>
  need (siteValid s) s r stNoSiteKey fun s =>
  change1 s r siteObj
    (fun s =>
      let s := { s with p.keys.roll := some (what, e) }
      let s := (associatedSessions s).foldl (fun s i => queueMsg s 3 (some i) (keyMessage s true e)) s
      rollEvent s (tagOf s r) 6 b g e)
    fun _ => le 8 e ++ le 2 g ++ le 2 b ++ zb 4

def execKeyRoll (r : Request) (s : State) : Host.Outcome State Fault Refusal := .next (opKeyRoll r s)

/-- The rolled generations come into force. -/
def rollNow (s : State) : State :=
  match s.p.keys.roll with
  | none => s
  | some (what, _) =>
    { s with
      p.keys.roll := none
      p.keys.groupGen := if bit what 0 then nextGen s.p.keys.groupGen else s.p.keys.groupGen
      p.keys.beaconGen := if bit what 1 then nextGen s.p.keys.beaconGen else s.p.keys.beaconGen }

/-- ROLL_EFFECTIVE: from EFFECT_FC on the rolled generations are in force. -/
def opRollEffective (s : State) : State :=
  match s.p.keys.roll with
  | some (_, e) =>
    if !running s || fcNow s < e then s else
    let s := rollNow s
    rollEvent s none 7 s.p.keys.beaconGen s.p.keys.groupGen e
  | none => s

def execRollEffective (s : State) : Host.Outcome State Fault Refusal := .next (opRollEffective s)

/-! ### Tamper (R493 to R496, R503, R504) -/

/-- INVALIDATE_SITE in the backup domain: both areas of slot 0 zeroed, VALID clear, WIPED set. -/
def wipeSite (s : State) : State :=
  let k := { keySlot s 0 with valid := false, wiped := true, shadow := false, val0 := zb 32, val1 := zb 32 }
  { s with bk.slots := tput s.bk.slots 0 k }

/-- A sensor trips (R494, R495). -/
def trip (s : State) (i : Nat) : State :=
  let maint := decide (0 < s.bk.maintFc)
  let invalidate := s.bk.policy == 2 && !maint && siteValid s
  let s : State := { s with
    bk.latched := true
    bk.tsrc := if bit s.bk.tsrc i then s.bk.tsrc else s.bk.tsrc + 2 ^ i
    bk.firstTrip := if s.bk.latched then s.bk.firstTrip else s.bk.rtc
    bk.tamperCount := (s.bk.tamperCount + 1) % 2 ^ 32
    bk.unreported := if bit s.bk.unreported i then s.bk.unreported else s.bk.unreported + 2 ^ i
    bk.unreportedAction := if invalidate then 2 else if s.bk.unreported != 0 then s.bk.unreportedAction else if maint then 3 else 1
    bk.wipedInDark := s.bk.wipedInDark || invalidate }
  if invalidate then wipeSite s else s

/-- TAMPER_CHECK: one check of a sensor at an RTC reading; the second in a row that finds its condition trips it (R493).
BKUP_LOST is checked in phase 5 of STILL alone. -/
def opTamperCheck (i : Nat) (found : Bool) (rtc : Nat) (s : State) : State :=
  let n := if found then min 3 (s.bk.tripRun.getD i 0 + 1) else 0
  let now := (List.range 5).foldl (fun a k => a + flag (if k = i then found else bit s.bk.tsrcNow k) k) 0
  let s : State := { s with
    bk.rtc := rtc
    bk.tsrcNow := now
    bk.tripRun := s.bk.tripRun.set i n }
  if n = 2 && bit s.bk.enable i then trip s i else s

def execTamperCheck (sensor : Nat) (found : Bool) (rtc : Nat) (s : State) : Host.Outcome State Fault Refusal :=
  if sensor < 4 then .next (opTamperCheck sensor found rtc s) else .fault .noSuchUnit

/-- MAINTENANCE_EXPIRY: the window ends MAINT_S after it opened (R495). -/
def opMaintenanceExpiry (s : State) : State := if s.bk.maintFc = 1 then { s with bk.maintFc := 0 } else s

def execMaintenanceExpiry (s : State) : Host.Outcome State Fault Refusal := .next (opMaintenanceExpiry s)

/-- FC_BOUNDARY: trips captured are latched, a wipe asks for the site stop, and the maintenance window runs down (R494, R495). -/
def keysBoundary (s : State) : State :=
  let wiped := s.bk.wipedInDark
  let s : State := { s with
    sec.evBits := s.bk.unreported
    sec.wipeDue := s.sec.wipeDue || wiped
    sec.freshUsed := 0
    bk.wipedInDark := false
    bk.maintFc := if 1 < s.bk.maintFc then s.bk.maintFc - 1 else s.bk.maintFc }
  if wiped then requestStop s 6 else s

/-- The settings as KEY_TAMPER_CONFIG returns them. -/
def tamperReply (s : State) : Bytes := le 1 s.bk.policy ++ le 1 s.bk.enable ++ le 2 (maintLeft s) ++ zb 4

/-- The first PCLK of PLAN: settings reach the backup domain (R503). -/
def applyTamper (s : State) : State :=
  match s.sec.tamperNext with
  | none => s
  | some (policy, enable, maint) =>
    { s with
      sec.tamperNext := none
      bk.policy := policy.getD s.bk.policy
      bk.enable := enable.getD s.bk.enable
      bk.maintFc := if maint = 0xFFFF then 0 else if maint = 0 then s.bk.maintFc else 100 * maint + 1 }

/-- A later change of the same FC adds to one not yet in the backup domain. -/
def mergeTamper (old : Option (Option Nat × Option Nat × Nat)) (policy enable : Option Nat) (maint : Nat) :
    Option (Option Nat × Option Nat × Nat) :=
  match old with
  | none => some (policy, enable, maint)
  | some (a, b, m) => some (policy.or a, enable.or b, if maint = 0 then m else maint)

/-- KEY_TAMPER_CONFIG (R503). -/
def opKeyTamperConfig (r : Request) (s : State) : State :=
  let p := r.payload
  let read := allZero p
  let pol := fld p 0 1
  let en := fld p 1 1
  let maint := fld p 2 2
  runOp s r (p.length == 8) (!bit en 5 && !bit en 6 && (bit en 7 || en == 0) && zeros p 4 4) (read || svcOk s r)
    (edtOr s 0x0C20 read [.tender, .calm, .zephyr, .lull, .squall, .watch]) fun s =>
  if read then finish s r stOk (tamperReply s) else
  need (decide (pol ≤ 2) && (decide (maint ≤ 3600) || maint == 0xFFFF)) s r stBadRange fun s =>
  need (!(pol == 2 && s.bk.latched)) s r stBusy fun s =>
  let policy := if pol = 0 then none else some pol
  let enable := if bit en 7 then some (en % 32) else none
  change1 s r siteObj
    (fun s => { s with
      p.keys.tamperPolicy := policy.getD s.p.keys.tamperPolicy
      p.keys.tamperEnable := enable.getD s.p.keys.tamperEnable
      sec.tamperNext := mergeTamper s.sec.tamperNext policy enable maint })
    fun s => tamperReply (applyTamper s)

def execKeyTamperConfig (r : Request) (s : State) : Host.Outcome State Fault Refusal := .next (opKeyTamperConfig r s)

/-- KEY_TAMPER_CLEAR (R496, R504). -/
def opKeyTamperClear (r : Request) (s : State) : State :=
  let p := r.payload
  runOp s r (p.length == 4) true (svcOk s r) (inModes s mCfg) fun s =>
  need (fld p 0 4 == 0x7A3C && s.bk.latched) s r stBadRange fun s =>
  need ((List.range 5).all fun i => !(bit s.bk.tsrcNow i && bit s.bk.enable i)) s r stNotReady fun s =>
  change1 s r siteObj (fun s => { s with bk.latched := false, bk.tsrc := 0, bk.firstTrip := 0 }) fun _ => []

def execKeyTamperClear (r : Request) (s : State) : Host.Outcome State Fault Refusal := .next (opKeyTamperClear r s)

/-! ### Attestation (R492, R505) -/

/-- AFLAGS. -/
def attFlags (s : State) : Nat :=
  bitsOf [s.bk.latched, s.p.upd.dual, siteValid s, (activeSlot s).state != 3]

/-- The 432 bytes an attestation statement signs. -/
def attBody (s : State) (challenge : Bytes) : Bytes :=
  le 2 1 ++ le 2 496 ++ le 1 s.fuse.orderCode ++ le 1 s.fuse.hwRev ++ le 4 (activeSlot s).pkg.fw ++ le 1 (flag s.flash.active 0)
    ++ le 1 (attFlags s) ++ le 4 s.p.control.bootCount ++ le 8 s.fuse.eui64.toNat ++ fit 12 s.fuse.serial ++ le 4 s.bk.tamperCount
    ++ le 8 s.com.csn ++ leTime (nowTime s) ++ le 2 (eraOf (nowTime s)) ++ le 2 (keySlot s 0).gen ++ zb 4 ++ fit 16 challenge
    ++ attestPub s.fuse.secret ++ fit 240 (fwMeas s)
    ++ fit 48 (Config.configMeas s.com.csn)

/-- An attestation statement. -/
def statement (s : State) (challenge : Bytes) : Bytes :=
  attBody s challenge ++ ecdsaSign (attestKey s.fuse.secret) (attBody s challenge)

/-- SOLVE: the periodic statement every 100 FC, and the fresh ones asked for in the FC before (R492, R505). -/
def signStatements (s : State) : State :=
  let s := if fcNow s % 100 = 0 then { cacheKey s 288 1 with sec.attest := statement s (zb 16), sec.attestFc := fcNow s } else s
  s.sec.fresh.foldl (fun s r => finish s r stOk (statement s r.payload)) { s with sec.fresh := [] }

/-- ATTEST_GET (R505): the fifth fresh statement of an FC is carried. -/
def opAttestGet (r : Request) (s : State) : State :=
  let fresh := !allZero r.payload
  if fresh && r.payload.length == 16 && decide (4 ≤ s.sec.freshUsed) then s else
  runOp s r (r.payload.length == 16) true true (edt s 0x0C30) fun s =>
  if fresh then { s with sec.fresh := s.sec.fresh ++ [r], sec.freshUsed := s.sec.freshUsed + 1 }
  else finish s r stOk (fit 496 s.sec.attest)

def execAttestGet (r : Request) (s : State) : Host.Outcome State Fault Refusal := .next (opAttestGet r s)

end Sys2Proof.Machine
end

