-- ==== Sys2Proof/Machine/Update.lean ====
section
/-! DEFINITION. Firmware update and activation (R507 to R533): the package and its checks, the two slots, the download, the
activation sequence, confirmation and revert. -/

namespace Sys2Proof.Machine

open Sys2Proof

/-! ### The checks of a package (R509 to R512, R529) -/

/-- ROLLBACK_FLOOR: the larger of the two headers' (R512). -/
def rollbackFloor (s : State) : Nat := max s.flash.a.floor s.flash.b.floor

/-- The compatibility rules of R529 step 2. -/
def compatible (s : State) (k : PkgInfo) : Bool :=
  decide (k.hwMin ≤ s.fuse.hwRev) && decide (s.fuse.hwRev ≤ k.hwMax) && bit k.orderMask (s.fuse.orderCode - 8)
    && decide (rollbackFloor s ≤ k.rollback)

/-- The checks of R529 in their order. -/
def verifyPkg (s : State) (b capsule : Bytes) (len : Nat) : Nat :=
  let k := pkgInfo b
  if k.magic != 0x4B504452 || k.ver != 1 || k.len != len then stImageInvalid
  else if !compatible s k then stImageIncompatible
  else if !pkgSigned b || !segmentsOk b len || !segTagsOk s capsule b then stImageInvalid
  else stOk

/-- The package standing in staging. -/
def stagedBytes (s : State) : Bytes := (s.upd.blocks.map (·.2)).flatten

/-! ### Slots and states (R511, R525, R533) -/

/-- Rewrite a slot's header: HDR_COUNT rises (R512). -/
def modSlot (s : State) (b : Bool) (f : ImageSlot → ImageSlot) : State :=
  let g (x : ImageSlot) : ImageSlot := { f x with hdrCount := x.hdrCount + 1 }
  if b then { s with flash.b := g s.flash.b } else { s with flash.a := g s.flash.a }

/-- Change UPD_STATE, reported in EMIT with the current CSN and the command that made the change. -/
def changeUpd (s : State) (tag : Option (Nat × Nat)) (new cause : Nat) : State :=
  { s with
    upd.state := new
    upd.evs := s.upd.evs ++ [{ new := new, old := s.upd.state, cause := cause, csn := s.com.csn, tag := tag }] }

/-- Change UPD_STATE by no commit of a command. -/
def setUpd (s : State) (new cause : Nat) : State := changeUpd s none new cause

/-- Change UPD_STATE by the commit of a command (R58). -/
def setUpdBy (s : State) (r : Request) (new cause : Nat) : State := changeUpd s (tagOf s r) new cause

/-- EV_UPD_STATE of the FC. -/
def emitUpd (s : State) : State :=
  s.upd.evs.foldl (fun s e =>
    raiseWith s e.csn e.tag 0x8D01 .all (le 1 e.new ++ le 1 e.old ++ le 1 e.cause ++ le 1 s.upd.safNew ++ zb 4 ++ le 8 (actFc s)))
    { s with upd.evs := [] }

/-- Blocks not yet received. -/
def blocksLeft (s : State) : Nat := if s.upd.state = 1 then s.upd.blocksEver - s.upd.blocks.length else 0

/-- RESTART of the package that PKG_ID names, or of the activation scheduled (R507, R525). -/
def updRestart (s : State) : Bool :=
  match s.upd.act with
  | some v => v.restart
  | none => if s.upd.state = 3 then bit (otherSlot s).pkg.pflags 0 else s.upd.state = 7 && bit (activeSlot s).pkg.pflags 0

/-- Reply of UPD_STATUS (R525). -/
def updStatusReply (s : State) : Bytes :=
  let fw (x : ImageSlot) : Nat := if x.state = 0 then 0 else x.pkg.fw
  le 1 s.upd.state ++ le 1 (flag s.flash.active 0) ++ le 1 s.flash.a.state ++ le 1 s.flash.b.state ++ le 4 (fw s.flash.a)
    ++ le 4 (fw s.flash.b) ++ le 4 (rollbackFloor s) ++ le 4 (blocksLeft s) ++ le 1 s.upd.safNew
    ++ le 1 (bitsOf [s.p.upd.dual, s.upd.safFailed, updRestart s]) ++ zb 2 ++ le 8 (actFc s)
    ++ fit 16 s.upd.pkgId

/-- UPD_STATUS (R525). -/
def opUpdStatus (r : Request) (s : State) : State := readOp s r 0x0D01 updStatusReply

def execUpdStatus (r : Request) (s : State) : Host.Outcome State Fault Refusal := .next (opUpdStatus r s)

/-! ### Downloading (R526 to R529) -/

/-- The modes of UPD_BEGIN, UPD_DATA, UPD_FINISH and UPD_ABORT. -/
def mDownload : List Mode := mNorm

/-- Blocks of a package. -/
def pkgBlocks (len : Nat) : Nat := cdiv len 1024

/-- The capsule names this device and the package, and unwraps (R526). -/
def capsuleGood (s : State) (pkgId capsule : Bytes) : Bool :=
  fld capsule 0 8 == s.fuse.eui64.toNat && slice capsule 8 16 == pkgId && (packageKey s capsule).isSome

/-- A READY slot's package is discarded. -/
def discardReady (s : State) : State :=
  if s.upd.state = 3 then modSlot s (!s.flash.active) fun x => { x with state := 0, pkg := {}, body := [], capsule := [] } else s

/-- UPD_BEGIN (R526). -/
def opUpdBegin (r : Request) (s : State) : State :=
  let p := r.payload
  let id := slice p 0 16
  let len := fld p 16 8
  let capsule := slice p 24 88
  runOp s r (p.length == 120) (zeros p 60 4 && zeros p 112 8) (svcOk s r) (inModes s mDownload) fun s =>
  let resume := s.upd.state == 1 && s.upd.pkgId == id
  need (decide (1 ≤ len) && decide (len ≤ 67100672) && (!resume || len == s.upd.len)) s r stBadRange fun s =>
  need (resume || s.upd.state == 0 || s.upd.state == 3) s r stBusy fun s =>
  need (capsuleGood s id capsule) s r stImageInvalid fun s =>
  change1 s r siteObj
    (fun s =>
      let s := cacheKey s 287 1
      if resume then { s with upd.capsule := capsule } else
      let s := setUpdBy (discardReady s) r 1 1
      { s with
        upd.pkgId := id
        upd.len := len
        upd.capsule := capsule
        upd.blocks := []
        upd.staged := false
        upd.blocksEver := pkgBlocks len })
    fun s => le 4 (pkgBlocks len) ++ le 4 (blocksLeft s)

def execUpdBegin (r : Request) (s : State) : Host.Outcome State Fault Refusal := .next (opUpdBegin r s)

/-- Length of a block of the download. -/
def blockLen (s : State) (i : Nat) : Nat := if i + 1 = s.upd.blocksEver then s.upd.len - 1024 * i else 1024

/-- UPD_DATA (R527). -/
def opUpdData (r : Request) (s : State) : State :=
  let p := r.payload
  let i := fld p 0 4
  runOp s r (decide (8 ≤ p.length) && p.length == 8 + fld p 4 2) (zeros p 6 2) (svcOk s r) (inModes s mDownload) fun s =>
  need (s.upd.state != 1 || (decide (i < s.upd.blocksEver) && fld p 4 2 == blockLen s i)) s r stBadRange fun s =>
  need (s.upd.state == 1) s r stNotReady fun s =>
  let s : State := { s with upd.blocks := tput s.upd.blocks i (p.drop 8) }
  finish s r stOk (le 4 (blocksLeft s))

def execUpdData (r : Request) (s : State) : Host.Outcome State Fault Refusal := .next (opUpdData r s)

/-- V and W of R529. -/
def verifyFcs (len : Nat) : Nat := cdiv len 1048576
def writeFcs (len : Nat) : Nat := cdiv (len + 8192) 262144

/-- UPD_FINISH (R529): verification and the slot write begin. -/
def opUpdFinish (r : Request) (s : State) : State :=
  runOp s r r.payload.isEmpty true (svcOk s r) (inModes s mDownload) fun s =>
  need (s.upd.state == 1 && blocksLeft s == 0 && s.upd.finish.isNone) s r stNotReady fun s =>
  checkCsn s r [siteObj] fun s =>
  let v := fcNow s + verifyFcs s.upd.len
  accept { s with upd.finish := some (v, v + writeFcs s.upd.len, r) } r 1 []

def execUpdFinish (r : Request) (s : State) : Host.Outcome State Fault Refusal := .next (opUpdFinish r s)

/-- FC_BOUNDARY: the verification of a running UPD_FINISH ends after V FCs; the write follows it. -/
def updBoundary (s : State) : State :=
  match s.upd.finish with
  | none => s
  | some (v, _, _) =>
    if fcNow s < v || s.upd.verified.isSome then s else
    let st := verifyPkg s (stagedBytes s) s.upd.capsule s.upd.len
    let s := { s with upd.verified := some st }
    if st != stOk then s else
    setUpd (modSlot s (!s.flash.active) fun x => { x with state := 0, pkg := {}, body := [], capsule := [] }) 2 2

/-- The slot header a package is written with (R529). -/
def writtenSlot (s : State) (x : ImageSlot) : ImageSlot :=
  let b := stagedBytes s
  { x with
    state := 1
    trial := 0
    seq := max s.flash.a.seq s.flash.b.seq + 1
    floor := rollbackFloor s
    capsule := s.upd.capsule
    pkg := pkgInfo b
    body := b }

/-- Reply of a completed UPD_FINISH. -/
def finishReply (s : State) : Bytes :=
  le 1 (flag (!s.flash.active) 0) ++ le 1 (otherSlot s).pkg.pflags ++ zb 2 ++ le 4 (otherSlot s).pkg.fw

/-- UPD_FINISH_DONE (R529): after V + W FCs the slot is WRITTEN, or the failed check is reported. -/
def opUpdFinishDone (s : State) : State :=
  match s.upd.finish, s.upd.verified with
  | some (_, e, r), some st =>
    if !running s || fcNow s < e then s else
    let s : State := { s with upd.finish := none, upd.verified := none, com.cmdCommits := 0 }
    if st != stOk then finish s r st [] else
    let s := modSlot s (!s.flash.active) (writtenSlot s)
    let s := setUpdBy (commit { s with upd.staged := true, upd.blocks := [] } siteObj.1 siteObj.2) r 3 3
    finish s r stOk (finishReply s)
  | _, _ => s

def execUpdFinishDone (s : State) : Host.Outcome State Fault Refusal := .next (opUpdFinishDone s)

/-- Stop a running UPD_FINISH: WRITING leaves the inactive slot EMPTY (R528). -/
def stopFinish (s : State) : State :=
  let s : State := { s with
    upd.finish := none
    upd.verified := none
    upd.blocks := []
    upd.staged := false }
  if s.upd.state = 2 then modSlot s (!s.flash.active) fun x => { x with state := 0, pkg := {}, body := [], capsule := [] } else s

/-- UPD_ABORT (R528). -/
def opUpdAbort (r : Request) (s : State) : State :=
  runOp s r r.payload.isEmpty true (svcOk s r) (inModes s mDownload) fun s =>
  let late := s.upd.state == 4 && decide (actFc s ≤ fcNow s + 1)
  need (!late && s.upd.state != 5) s r stTooLate fun s =>
  need (s.upd.state == 1 || s.upd.state == 2 || s.upd.state == 4) s r stBusy fun s =>
  checkCsn s r [siteObj] fun s =>
  -- the command that was running ends first, with its own record
  let running := (s.upd.finish.map (·.2.2)).or (s.upd.act.map (·.req))
  let done := if s.upd.state = 4 then 3 else 0
  let s := if s.upd.state = 4 then { s with upd.act := none } else stopFinish s
  let s := match running with
    | some q => finishI s q intNone stInterrupted []
    | none => s
  let s := setUpdBy (commit s siteObj.1 siteObj.2) r done (if done = 3 then 0x0A else 1)
  finish s r stOk []

def execUpdAbort (r : Request) (s : State) : Host.Outcome State Fault Refusal := .next (opUpdAbort r s)

/-! ### Scheduling an activation (R516, R522, R530, R531) -/

/-- The first FC at or after FC n + 10 that begins a whole second. -/
def nextActFc (n : Nat) : Nat := 100 * cdiv (n + 10) 100

/-- The ANCHOR segment of the staged package for a link's head. -/
def anchorImage (s : State) (l : Nat) : Option Nat :=
  ((imageSlot s (!s.flash.active)).pkg.anchors.find? fun x => x.2.1 == (anchorAt s l).model).map (·.1)

/-- A named head holds its image VERIFIED (R522). -/
def headReady (s : State) (l : Nat) : Bool := (anchorAt s l).rstate == 2 && (anchorImage s l).isSome

/-- Schedule an activation or a revert: the first commit and ST_ACCEPTED with ACT_FC. -/
def schedule (r : Request) (v : Activation) (s : State) : State :=
  checkCsn s r [siteObj] fun s =>
  let s := commit s siteObj.1 siteObj.2
  let s := setUpdBy { s with upd.act := some { v with last := s.com.csn } } r 4 1
  accept s r (if v.restart then 2 else 3) (le 8 v.a)

/-- UPD_ACTIVATE (R530, R531). -/
def opUpdActivate (r : Request) (s : State) : State :=
  runOp s r r.payload.isEmpty true (svcOk s r) (inModes s mUpd) fun s =>
  need (s.upd.state == 3) s r stNotReady fun s =>
  let k := otherSlot s
  schedule r { a := nextActFc (fcNow s), n := fcNow s, restart := bit k.pkg.pflags 0, target := !s.flash.active, req := r } s

def execUpdActivate (r : Request) (s : State) : Host.Outcome State Fault Refusal := .next (opUpdActivate r s)

/-- UPD_ACTIVATE_AT (R530, R531). -/
def opUpdActivateAt (r : Request) (s : State) : State :=
  let p := r.payload
  let t := fullOf p 0
  let a := fcOfTime t
  let mask := fld p 12 2
  runOp s r (p.length == 16) (decide (fld p 10 1 < 2) && zeros p 11 1 && decide (mask < 1024) && zeros p 14 2) (svcOk s r)
    (inModes s mUpd) fun s =>
  need (t % ftuPerSec == 0 && decide (a ≤ fcNow s + 259200000)) s r stBadRange fun s =>
  need (s.upd.state == 3 && (maskLinks mask).all (headReady s)) s r stNotReady fun s =>
  need (decide (fcNow s + 200 ≤ a)) s r stTooLate fun s =>
  let k := otherSlot s
  let v : Activation := { a := a, n := fcNow s, restart := bit k.pkg.pflags 0, requireLocked := bit (fld p 10 1) 0, linkMask := mask
                          target := !s.flash.active, req := r }
  schedule r v s

def execUpdActivateAt (r : Request) (s : State) : Host.Outcome State Fault Refusal := .next (opUpdActivateAt r s)

/-- UPD_REVERT (R524, R532). -/
def opUpdRevert (r : Request) (s : State) : State :=
  runOp s r r.payload.isEmpty true (svcOk s r) (inModes s mUpd) fun s =>
  need (s.upd.state != 6) s r stBusy fun s =>
  need (s.upd.state == 7 && (otherSlot s).state == 3) s r stNotReady fun s =>
  let k := activeSlot s
  schedule r { a := nextActFc (fcNow s), n := fcNow s, restart := bit k.pkg.pflags 0, revert := true, target := !s.flash.active, req := r } s

def execUpdRevert (r : Request) (s : State) : Host.Outcome State Fault Refusal := .next (opUpdRevert r s)

/-- ANCHOR_ACTIVATE_SEND (R522): in FC a − 100 the named heads are told the instant. -/
def opAnchorActivateSend (s : State) : State :=
  match s.upd.act with
  | none => s
  | some v =>
    if !running s || s.upd.state != 4 || fcNow s + 100 != v.a then s else
    (maskLinks v.linkMask).foldl (fun s l =>
      match anchorImage s l with
      | some id => activateHeads s (2 ^ l) id (v.a * ftuPerFc)
      | none => s) s

def execAnchorActivateSend (s : State) : Host.Outcome State Fault Refusal := .next (opAnchorActivateSend s)

/-! ### The activation (R516 to R521, R524) -/

/-- The first condition of R516 that fails, with the status it ends the command with. -/
def checkFails (s : State) (v : Activation) (imagesOk : Bool) : Option Nat :=
  if !inModes s mUpd then some stBadMode
  else if !imagesOk then some stImageInvalid
  else if v.requireLocked && s.time.state != .locked then some stNotReady
  else if v.stepped then some stNotReady
  else none

/-- Something else has changed the site configuration since an activation's last commit (R73). -/
def siteChanged (s : State) (v : Activation) : Option (Nat × Nat) :=
  v.req.expect.bind fun _ => changedSince s v.last [siteObj]

/-- The check has passed: the second commit. A restart is due; any other activation is a trigger for VEER (R107, R110). -/
def checkPassed (s : State) (v : Activation) : State :=
  let s := commit s siteObj.1 siteObj.2
  let s : State := { s with upd.act := some { v with passed := true, trialDue := true, last := s.com.csn } }
  if v.restart then record { s with mode.resetAt := some 0x06 } v.req true intNone stOk 2
  else { record s v.req false intNone 0 3 with mode.triggers := s.mode.triggers ++ [.activation] }

/-- ACTIVATION_CHECK (R516, R519, R531): at the first PCLK of COMMAND of FC a − 1, ahead of the triggers and the commands, so it
comes before COMMAND_WINDOW. -/
def opActivationCheck (imagesOk : Bool) (s : State) : State :=
  match s.upd.act with
  | none => s
  | some v =>
    if !running s || s.upd.state != 4 || fcNow s + 1 < v.a || v.passed || s.clk.window != .solve then s else
    let s : State := { s with com.cmdCommits := 0 }
    match checkFails s v imagesOk, siteChanged s v with
    | some st, _ =>
      let s := setUpd { s with upd.act := none } 3 0x0A
      if st = stBadMode then refuseMode s v.req else finish s v.req st []
    | none, some o =>
      finishI (setUpd { s with upd.act := none } 3 0x0A) v.req intCsn stCsnMismatch (mismatchPayload s o)
    | none, none => checkPassed s v

def execActivationCheck (imagesOk : Bool) (s : State) : Host.Outcome State Fault Refusal := .next (opActivationCheck imagesOk s)

/-- PERSIST of FC a − 1: the new slot becomes TRIAL; under a revert the running slot becomes REJECTED (R516, R524). -/
def persistTrial (s : State) : State :=
  match s.upd.act with
  | none => s
  | some v =>
    if !v.trialDue then s else
    let s : State := { s with upd.act := some { v with trialDue := false } }
    if v.revert then modSlot s s.flash.active fun x => { x with state := 4 }
    else modSlot s v.target fun x => { x with state := 2, trial := 0 }

/-- The configuration format an image makes current (R514, R515). -/
def applyFormat (s : State) (new : PkgInfo) (revert : Bool) : State :=
  { s with
    p.upd.oldFormat := if !revert && bit new.pflags 1 then some s.p.upd.format else none
    p.upd.dual := !revert && bit new.pflags 1
    p.upd.format := new.configFormat }

/-- One more reload of a core, lifetime. -/
def countReload (s : State) (core : Nat) : State := { s with p.diag.reloads := lmod s.p.diag.reloads core inc32 }

/-- FCs for which the outputs of POS, LNK and SEC are withheld by a reload (R110). -/
def reloadFcs (core : Nat) : Nat := if core = 5 then 12 else if core = 6 then 4 else if core = 7 then 20 else 1

/-- ACTIVATION (R517): at the boundary of FC a POS, LNK, SEC and the standby FLT begin to reload. -/
def opActivation (s : State) : State :=
  match s.upd.act with
  | none => s
  | some v =>
    if !running s || s.upd.state != 4 || !v.passed || fcNow s != v.a then s else
    let standby := 4 - s.cores.active
    let s := setUpd (applyFormat s (imageSlot s v.target).pkg v.revert) 5 4
    let s := [5, 6, 7, standby].foldl countReload s
    { s with
      cores.standbyReady := false
      cores.reload := s.cores.reload ++ [(5, v.a + 12), (6, v.a + 5), (7, v.a + 20), (standby, v.a + 9)] }

def execActivation (s : State) : Host.Outcome State Fault Refusal := .next (opActivation s)

/-- CORE_RELOAD: a core's reload ends and its outputs resume; VEER entered for it ends (R110, R517). -/
def opCoreReload (core : Nat) (s : State) : State :=
  if !running s || !(s.cores.reload.any fun e => e.1 == core && decide (e.2 ≤ fcNow s)) then s else
  let s : State := { s with cores.reload := s.cores.reload.filter fun e => e.1 != core }
  if s.mode.veerCore == some core then trigger { s with mode.veerCore := none } .veerOver else s

def execCoreReload (core : Nat) (s : State) : Host.Outcome State Fault Refusal :=
  if core < 8 then .next (opCoreReload core s) else .fault .noSuchUnit

/-- FLT_IMAGE_HANDOVER (R517): at the end of GUARD of FC c the new image's FLT is active; the other reloads. -/
def opFltImageHandover (s : State) : State :=
  match s.upd.act with
  | none => s
  | some v =>
    if !running s || s.upd.state != 5 || v.c.isSome || fcNow s < v.a + 9 || v.a + 14 < fcNow s || s.clk.window != .guard then s else
    let old := 3 + s.cores.active
    let s := countReload s old
    { s with
      upd.act := some { v with c := some (fcNow s) }
      flash.active := v.target
      cores.active := 1 - s.cores.active
      cores.resultsFrom := 1 - s.cores.active
      cores.reload := (s.cores.reload.filter fun e => e.1 != 7 - old) ++ [(old, fcNow s + 11)]
      upd.pkgId := (imageSlot s v.target).pkg.pkgId }

def execFltImageHandover (s : State) : Host.Outcome State Fault Refusal := .next (opFltImageHandover s)

/-- The freeze ends at FC c + 11, so VEER is left by a trigger of the FC before. -/
def freezeTrigger (s : State) : State :=
  match s.upd.act.bind (·.c) with
  | some c => if s.upd.state = 5 && fcNow s = c + 10 && s.mode.cur == .veer then trigger s .veerOver else s
  | none => s

/-- Channels still to take the other SAF image: all three, or under a revert those that run the new one. -/
def turnsLeft (s : State) (v : Activation) (after : Nat) : List Nat :=
  (List.range 3).filter fun c => decide (after ≤ c) && (!v.revert || bit s.upd.safNew c)

/-- FREEZE_END (R517): the freeze is over and the safety-channel update begins. -/
def opFreezeEnd (s : State) : State :=
  match s.upd.act with
  | none => s
  | some v =>
    match v.c with
    | none => s
    | some c =>
      if !running s || s.upd.state != 5 || fcNow s < c + 11 then s else
      let s := setUpd s 6 4
      { s with
        cores.standbyReady := true
        cores.reload := s.cores.reload.filter fun e => e.1 != 4 - s.cores.active
        upd.safNext := 0 }

def execFreezeEnd (s : State) : Host.Outcome State Fault Refusal := .next (opFreezeEnd s)

/-- The safety-channel update is over: the third commit, unless the site configuration has been changed by another since the
second (R73), and the final reply (R520, R531). -/
def safOver (s : State) (v : Activation) (failed : Bool) : State :=
  let s : State := { s with
    upd.safTurn := none
    upd.safNext := 3
    upd.safFailed := failed
    upd.act := none
    com.cmdCommits := 0 }
  match siteChanged s v with
  | some o =>
    finishI (if v.revert && !failed then setUpd s 0 9 else setUpd s 7 (if failed then 6 else 5)) v.req intCsn stCsnMismatch
      (mismatchPayload s o)
  | none =>
    let s := commit s siteObj.1 siteObj.2
    let s := if v.revert && !failed then setUpdBy s v.req 0 9 else setUpdBy s v.req 7 (if failed then 6 else 5)
    finish s v.req (if failed then stActivationFailed else stOk) []

/-- Begin the next channel's turn, or end the update when none is left. -/
def nextTurn (s : State) (v : Activation) : State :=
  match (turnsLeft s v s.upd.safNext).head? with
  | none => safOver s v false
  | some c =>
    if votingCount s != 3 then s else
    let s := changeStop s 2 fun s => modSaf (chanState s c .updating 7 0 0) c fun x =>
      { x with planned := true, leftFc := 0, matchFc := 0, testPassed := true }
    passLead { s with upd.safTurn := some (c, fcNow s), upd.safNext := c + 1 }

/-- SAF_UPDATE_TURN (R520): one channel at a time withdraws, loads the image over 2 FC, runs the full self-test for 12 FC
and matches for 10 FC; a channel that fails a test (its TEST_ID) takes the running image back and ends the update. -/
def opSafUpdateTurn (fail : Option Nat) (s : State) : State :=
  match s.upd.act with
  | none => s
  | some v =>
    if !running s || s.upd.state != 6 || s.clk.window != .latch then s else
    match s.upd.safTurn with
    | none => nextTurn s v
    | some (c, t) =>
      match (chanAt s c).state with
      | .updating =>
        if fcNow s < t + 14 then s
        else match fail with
          | none => modSaf (chanState s c .rejoining 7 0 0) c fun x => { x with matchFc := 0 }
          | some testId => safOver (changeStop s 2 (withdraw c 1 testId)) v true
      | .voting =>
        let mark : Nat := if v.revert then s.upd.safNew - flag (bit s.upd.safNew c) c else s.upd.safNew + flag (!bit s.upd.safNew c) c
        nextTurn { s with upd.safTurn := none, upd.safNew := mark } v
      | _ => s

def execSafUpdateTurn (fail : Option Nat) (s : State) : Host.Outcome State Fault Refusal := .next (opSafUpdateTurn fail s)

/-- R521 applies: a reloaded core has failed its start checks before the FC's record is persisted, or c is not reached by the
PERSIST of FC a + 14. -/
def abandons (s : State) (v : Activation) (failed : Bool) : Bool :=
  s.upd.state == 5 && if failed then s.clk.window != .guard else v.c.isNone && decide (v.a + 14 ≤ fcNow s) && s.clk.window == .persist

/-- ACTIVATION_ABANDON (R521): the slot being activated is REJECTED and the device boots the other, which under a revert is TRIAL
again. -/
def opActivationAbandon (failed : Bool) (s : State) : State :=
  match s.upd.act with
  | none => s
  | some v =>
    if !running s || !abandons s v failed then s else
    let s := modSlot s v.target fun x => { x with state := 4 }
    let s := if v.revert then modSlot s (!v.target) fun x => { x with state := 2 } else s
    let s := setUpd { s with upd.act := none, com.cmdCommits := 0, flash.active := !v.target } 0 7
    record { s with mode.resetAt := some 0x06 } v.req true intNone stActivationFailed 0

def execActivationAbandon (failed : Bool) (s : State) : Host.Outcome State Fault Refusal := .next (opActivationAbandon failed s)

/-! ### Confirmation (R523, R532) -/

/-- UPD_CONFIRM (R523, R532). -/
def opUpdConfirm (r : Request) (s : State) : State :=
  runOp s r r.payload.isEmpty true (svcOk s r) (inModes s mUpd) fun s =>
  need (s.upd.state == 7 && !s.upd.safFailed) s r stNotReady fun s =>
  change1 s r siteObj
    (fun s =>
      let floor := (activeSlot s).pkg.rollback
      let s := modSlot s s.flash.active fun x => { x with state := 3, floor := floor }
      let s := modSlot s (!s.flash.active) fun x => { x with floor := floor }
      let s := setUpdBy s r 0 8
      { s with
        p.upd.dual := false
        p.upd.oldFormat := none
        upd.safNew := 0 }) fun _ => []

def execUpdConfirm (r : Request) (s : State) : Host.Outcome State Fault Refusal := .next (opUpdConfirm r s)

end Sys2Proof.Machine
end

