-- ==== Sys2Proof/Machine/Diag.lean ====
section
/-! DEFINITION. Availability counting, self-tests, fault events and the DIAG opcodes (R559 to R572). -/

namespace Sys2Proof.Machine

open Sys2Proof

/-! ### Availability (R559, R560) -/

/-- The mode or RETURN_MODE is BREEZE or DRIFT. -/
def serving (s : State) : Bool := goHeld s

/-- The mode itself stops the fleet and is not counted: LULL, and FOG entered by host loss or reference loss (R559). -/
def modeStops (s : State) : Bool :=
  s.mode.cur == .lull || (s.mode.cur == .fog && (s.mode.fogCause == 8 || s.mode.fogCause == 6))

/-- Cause 0: the FC's beacon carries stop or is not put on air, and every standing cause is one of bits 6 to 11. Where the mode
stops the fleet, only a cause that stands is counted. -/
def deviceStop (s : State) : Bool :=
  let due := decide (0 < fcNow s) && (fcNow s - 1) % s.p.radio.cfg.beaconFc == 0
  let bad := !s.stop.voted || !goPermitted s || s.radio.beaconAsn != some (asnOf s 0)
  let c := causesActive s ||| causesLatched s
  due && bad && !(modeStops s && c == 0) && (c &&& 0x103F#13) == 0 && !(bit c.toNat 6 && (s.mode.fogCause == 8 || s.mode.fogCause == 6))

/-- The lowest cause of R559 that makes the FC unavailable. -/
def unavailCause (s : State) : Option Nat :=
  if serving s && deviceStop s then some 0
  else if serving s && s.upd.state == 5 then some 1
  else if serving s && (s.mode.veerCore == some 5 || s.mode.veerCore == some 6) then some 2
  else if serving s && s.cores.redo then some 3
  else if s.cores.resetCount.isSome then some 4
  else if serving s && mramFog s then some 5
  else none

/-- Count `n` FCs of a cause, for life and in the newest day bin. -/
def addUnavail (s : State) (cause n : Nat) : State :=
  let d := s.p.diag
  let bins := if d.bins.isEmpty then [List.replicate 6 0] else d.bins
  { s with
    p.diag.life := lmod d.life cause fun x => sat 32 (x + n)
    p.diag.bins := lmod bins 0 fun b => lmod b cause (· + n) }

/-- The count of one FC, before PERSIST writes it. -/
def countAvail (s : State) : State :=
  let s := match unavailCause s with
    | some c => addUnavail s c 1
    | none => s
  let d := s.p.diag
  let turn := decide (8640000 ≤ d.dayFc + 1)
  { s with
    p.diag.dayFc := if turn then 0 else d.dayFc + 1
    p.diag.bins := if turn then (List.replicate 6 0 :: d.bins).take 365 else d.bins
    p.diag.elapsedFc := d.elapsedFc + 1
    p.diag.hoursFc := d.hoursFc + 1
    cores.resetCount := if notReady s = 0 then none else s.cores.resetCount }

/-- The rolling count of a cause. -/
def rolling (s : State) (cause : Nat) : Nat := (s.p.diag.bins.map fun b => b.getD cause 0).sum

/-- Rolling counts of every cause together. -/
def unavail365 (s : State) : Nat := ((List.range 6).map (rolling s)).sum

/-- AVAIL_PPB. -/
def availPpb (s : State) : Nat :=
  let e := min s.p.diag.elapsedFc (365 * 8640000)
  if e = 0 then 1000000000 else 1000000000 * (e - min e (unavail365 s)) / e

/-! ### Fault events (R565) -/

/-- Keep the first entry of each key. -/
def firstOf (key : Nat × Nat × Nat × Nat → Nat) : List (Nat × Nat × Nat × Nat) → List (Nat × Nat × Nat × Nat) → List (Nat × Nat × Nat × Nat)
  | [], acc => acc
  | e :: l, acc => firstOf key l (if acc.any fun x => key x == key e then acc else acc ++ [e])

/-- Keep the first memory fault of each block. -/
def firstBlocks : List MemFault → List MemFault → List MemFault
  | [], acc => acc
  | e :: l, acc => firstBlocks l (if acc.any fun x => x.block == e.block then acc else acc ++ [e])

/-- EMIT: EV_WINDOW_OVERRUN and EV_MEMORY_FAULT, each at most once per core or block per FC. -/
def emitFaults (s : State) : State :=
  let o := firstOf (·.1) s.cores.overEvs []
  let m := firstBlocks s.cores.memEvs []
  let s : State := { s with
    cores.overEvs := []
    cores.memEvs := []
    p.diag.lastFault := if o.isEmpty && m.isEmpty then s.p.diag.lastFault else nowTime s % 2 ^ 64 }
  let s := o.foldl (fun s e => raise s 0x8F01 .sup (le 1 e.1 ++ le 1 e.2.1 ++ le 1 e.2.2.1 ++ zb 5 ++ le 8 e.2.2.2)) s
  m.foldl (fun s e => raise s 0x8F02 .sup (le 1 e.block ++ le 1 e.unit ++ le 1 e.outcome ++ zb 1 ++ le 4 e.index)) s

/-! ### DIAG_STATUS, DIAG_COUNTERS, the queues (R566 to R569) -/

/-- The queues as they stand. -/
def queuesNow (s : State) : List (Nat × SpillQueue) :=
  queueIds.filterMap fun q => (qParam q).map fun p => (q, queueAt s q p)

/-- The 64-byte reply of DIAG_STATUS. -/
def diagStatusReply (s : State) : Bytes :=
  le 4 (sat 32 (unavail365 s)) ++ le 4 (sat 32 s.p.diag.life.sum) ++ le 4 (availPpb s) ++ le 4 (s.p.diag.hoursFc / 360000)
    ++ le 2 s.cores.cellMv ++ le 2 s.cores.vbakMv ++ leI 2 s.cores.tAmb ++ leI 2 s.cores.tOcxo ++ leI 2 s.cores.tEncl
    ++ le 2 (sat 16 (s.cores.overrunFcs.filter fun f => decide (fcNow s < f + 8640000)).length) ++ le 4 (sat 32 s.cores.eccReset)
    ++ le 4 (sat 32 (([1, 3, 5, 7, 9].map fun i => s.p.diag.mem.getD i 0).sum)) ++ le 4 (sat 32 s.cores.queueFaults)
    ++ le 1 ((queuesNow s).filter fun e => e.2.overrun).length ++ le 1 ((s.cores.tests.head?.map (·.target)).getD 0xFF) ++ zb 2
    ++ le 4 s.p.diag.failovers ++ le 4 (sat 32 s.p.diag.reloads.sum) ++ le 4 s.p.diag.watchdogs ++ le 8 s.p.diag.lastFault

/-- DIAG_STATUS (R566). -/
def opDiagStatus (r : Request) (s : State) : State := readOp s r 0x0F01 diagStatusReply

def execDiagStatus (r : Request) (s : State) : Host.Outcome State Fault Refusal := .next (opDiagStatus r s)

/-- The values of a counter group (R567). -/
def counterGroup (s : State) (group index : Nat) : Option (List Nat) :=
  match group, index with
  | 1, _ =>
    if 2 < index then none else
    let c := tgetD s.edtor.ports index {}
    some ([c.badSize, c.badHeader, c.noSession, c.authFail, c.replay] ++ c.viol ++ [s.stop.filterReject])
  | 2, 0 => some s.p.diag.mem
  | 3, 0 => some (s.cores.overruns ++ s.p.diag.reloads)
  | 4, 0 => some (s.p.diag.life ++ (List.range 6).map (rolling s))
  | 5, 0 => some [s.edtor.jrnlHold, s.cores.jrnlCarried, s.cores.persistFailed, s.cores.repairs]
  | _, _ => none

/-- DIAG_COUNTERS (R567). -/
def opDiagCounters (r : Request) (s : State) : State :=
  let p := r.payload
  runOp s r (p.length == 4) (zeros p 2 2) true (edt s 0x0F02) fun s =>
  match counterGroup s (fld p 0 1) (fld p 1 1) with
  | none => finish s r stBadRange []
  | some l => finish s r stOk (le 2 l.length ++ zb 2 ++ l.flatMap fun x => le 4 (sat 32 x))

def execDiagCounters (r : Request) (s : State) : Host.Outcome State Fault Refusal := .next (opDiagCounters r s)

/-- The 24-byte entry of a queue (R568). -/
def queueEntry (s : State) (q : Nat) (k : SpillQueue) : Bytes :=
  le 1 q ++ le 1 (bitsOf [k.full, k.overrun, k.dropping]) ++ zb 2 ++ le 4 (occupancy s q k) ++ le 4 k.depth ++ le 4 k.level
    ++ le 4 k.overrunCount ++ le 4 k.faults

/-- The queues a DIAG_QUEUE_STATUS names. -/
def queuesNamed (s : State) (q : Nat) : List (Nat × SpillQueue) :=
  if q = 0xFF then queuesNow s else (queuesNow s).filter fun e => e.1 == q

/-- DIAG_QUEUE_STATUS (R568): the read clears OVERRUN. -/
def opDiagQueueStatus (r : Request) (s : State) : State :=
  let p := r.payload
  runOp s r (p.length == 4) (zeros p 1 3) true (edt s 0x0F03) fun s =>
  let l := queuesNamed s (fld p 0 1)
  need (!l.isEmpty) s r stBadRange fun s =>
  let reply := l.flatMap fun e => queueEntry s e.1 e.2
  finish (l.foldl (fun s e => if e.2.overrun then setQueue s e.1 { e.2 with overrun := false } else s) s) r stOk reply

def execDiagQueueStatus (r : Request) (s : State) : Host.Outcome State Fault Refusal := .next (opDiagQueueStatus r s)

/-- DIAG_QUEUE_CONFIG (R569). -/
def opDiagQueueConfig (r : Request) (s : State) : State :=
  let p := r.payload
  let q := fld p 0 1
  let depth := fld p 4 4
  let level := fld p 8 4
  runOp s r (p.length == 12) (zeros p 1 3) (supOk s r) (inModes s mCfg) fun s =>
  match qParam q with
  | none => finish s r stBadRange []
  | some k =>
    let d := if depth = 0 then depthCfg s q k else depth
    need ((depth == 0 || (k.minDepth != k.maxDepth && decide (k.minDepth ≤ depth) && decide (depth ≤ k.maxDepth)))
        && decide (level ≤ d)) s r stBadRange fun s =>
    change1 s r siteObj
      (fun s =>
        let c := tgetD s.p.queueCfg q {}
        let c := { c with
          depth := if depth = 0 then c.depth else depth
          level := if level = 0 then c.level else level
          levelSet := c.levelSet || level != 0 }
        let s : State := { s with p.queueCfg := tput s.p.queueCfg q c }
        if level = 0 then s else setQueue s q { queueAt s q k with levelNext := some level })
      fun s => queueEntry s q (queueAt s q k)

def execDiagQueueConfig (r : Request) (s : State) : Host.Outcome State Fault Refusal := .next (opDiagQueueConfig r s)

/-! ### Self-tests (R563, R564, R570) -/

/-- Duration of a test in FCs; none for a TARGET that is not one. -/
def testFcs (target : Nat) : Option Nat :=
  if 1 ≤ target ∧ target ≤ 3 then some 23
  else if target = 0x10 then some 0
  else if target = 0x11 then some 128
  else if target = 0x12 then some 600
  else if 0x20 ≤ target ∧ target ≤ 0x23 then some 40
  else none

/-- A test WATCH alone permits. -/
def watchOnly (target : Nat) : Bool := target == 0x12 || target == 0x20 || target == 0x21 || target == 0x22

/-- Final reply of a test. -/
def testReply (failed : Bool) (testId detail : Nat) : Bytes := le 1 (flag failed 0) ++ le 1 testId ++ zb 2 ++ le 4 (sat 32 detail)

/-- The core a core-SRAM test takes. -/
def testCore (s : State) (target : Nat) : Nat := if target = 0x23 then 4 - s.cores.active else target - 0x20 + 5

/-- The STRT scrub: every way read, its CHK checked (R303, R563). -/
def scrubStrt (s : State) : Nat × State :=
  let bad := (s.strt.ways.filter fun e => corruptWay e.2).map (·.1)
  (bad.length, bad.foldl detectWay s)

/-- A channel's test or its update is running. -/
def chanTestBusy (s : State) : Bool :=
  s.upd.state == 6 || (s.cores.tests.any fun t => decide (1 ≤ t.target) && decide (t.target ≤ 3)) || s.stop.chans.any fun c => c.planned

/-- DIAG_SELF_TEST (R570). -/
def opDiagSelfTest (r : Request) (s : State) : State :=
  let p := r.payload
  let target := fld p 0 1
  runOp s r (p.length == 4) (zeros p 1 3) (supOk s r) (inModes s (if watchOnly target then [.watch] else mRun)) fun s =>
  match testFcs target with
  | none => finish s r stBadRange []
  | some d =>
    let chan := decide (target ≤ 3)
    need (!((s.cores.tests.any fun t => t.target == target) || (chan && chanTestBusy s))) s r stBusy fun s =>
    need (!(chan && votingCount s != 3) && !(target == 0x23 && !s.cores.standbyReady)) s r stNotReady fun s =>
    if target = 0x10 then
      let (n, s) := scrubStrt s
      finish s r stOk (testReply (n != 0) 0 n)
    else
      let s : State := { s with cores.tests := s.cores.tests ++ [{ target := target, endFc := fcNow s + d, req := r }] }
      let s := if target = 0x23 then { s with cores.standbyReady := false } else s
      let s : State := if 0x20 ≤ target && target ≤ 0x22 then
          { s with cores.reload := s.cores.reload ++ [(testCore s target, fcNow s + d)] } else s
      accept s r 0 []

def execDiagSelfTest (r : Request) (s : State) : Host.Outcome State Fault Refusal := .next (opDiagSelfTest r s)

/-- FC_BOUNDARY: a requested channel test begins at the boundary of FC n + 1 (R564). -/
def testsBoundary (s : State) : State :=
  s.cores.tests.foldl (fun s t =>
    if t.target ≤ 3 && fcNow s + 22 = t.endFc then plannedTest (t.target - 1) s else s) s

/-- The core a test has had is reloaded: POS, LNK or SEC after every test, the standby FLT after one that failed (R110, R563). -/
def reloadAfter (s : State) (core : Nat) : State :=
  countReload { s with cores.reload := s.cores.reload.filter (fun e => e.1 != core) ++ [(core, fcNow s + reloadFcs core)] } core

/-- SELF_TEST_DONE (R570): a test ends with what it found; a channel's result is whether it has rejoined. -/
def opSelfTestDone (target : Nat) (fail : Bool) (detail : Nat) (s : State) : State :=
  match s.cores.tests.find? fun t => t.target == target with
  | none => s
  | some t =>
    if !running s || fcNow s < t.endFc then s else
    let s : State := { s with cores.tests := s.cores.tests.filter fun x => x.target != target }
    let s : State := { s with com.cmdCommits := 0 }
    if target ≤ 3 then
      let c := chanAt s (target - 1)
      let ok := c.state == .voting
      finish s t.req stOk (testReply (!ok) (if ok then 0 else c.testId) 0)
    else if target = 0x11 then
      finish { s with cores.repairs := sat 32 (s.cores.repairs + detail) } t.req stOk (testReply fail 0 detail)
    else if target = 0x12 then finish s t.req stOk (testReply fail 0 detail)
    else
      finish (if target = 0x23 && !fail then s else reloadAfter s (testCore s target)) t.req stOk (testReply fail 0 detail)

def execSelfTestDone (target : Nat) (fail : Bool) (detail : Nat) (s : State) : Host.Outcome State Fault Refusal :=
  .next (opSelfTestDone target fail detail s)

/-! ### Table DMA (R280, R317, R318, R571, R572) -/

/-- The 16-byte record of a way (R317). -/
def strtRecord (n : StrtSnap) (i : Nat) : Bytes :=
  let w := wayAt n.ways i
  let ahead := if !eValid w || isStanding (eKind w) then 0xFFFF else (eSlot w + 1024 - n.slot % 1024) % 1024
  le 8 w.toNat ++ le 4 i ++ le 2 ahead ++ zb 2

/-- The 16-byte entry of the Robot Presence Table (R275). -/
def rptRecord (s : State) (i : Nat) : Bytes :=
  let e := rptAt s i
  le 4 e.lastHeard ++ le 1 (flag e.spoof 2 + 8 * e.port + flag e.heard 4 + flag e.lock 5 + flag e.enrolled 6 + flag e.valid 7)
    ++ le 1 e.session ++ le 2 e.shortAddr ++ le 8 e.eui.toNat

/-- Records cut into fragments of 86, then 87, under one head. -/
def tableParts (head : Bytes) (recs : List Bytes) : List Bytes :=
  (head ++ (recs.take 86).flatten) :: (((List.range (cdiv (recs.length - 86) 87)).map fun k => ((recs.drop (86 + 87 * k)).take 87).flatten))

/-- Release a table read under the CSN of its snapshot: one reply where the result fits in a packet, else fragments (R63, R571). -/
def sendTable (s : State) (r : Request) (csn : Nat) (parts : List Bytes) : State :=
  let s := record s r true intNone stOk 0
  match parts with
  | [p] => queueReply s r (replyTo r fFinal csn stOk p)
  | _ => modSession s r.slot fun e => { e with streams := e.streams ++ [{ head := replyTo r 0 csn stOk [], frags := fragments 0 parts, perFc := 32 }] }

/-- The snapshot a session reads: one still kept, or a new one. -/
def takeSnap (s : State) (r : Request) (id : Nat) : Option (StrtSnap × State) :=
  if id = 0 then
    let (v, s) := freshNat s
    let n : StrtSnap := { id := 1 + v % (2 ^ 32 - 1), sessionId := r.sessionId, ways := s.strt.ways, slot := slotNow s, csn := s.com.csn, fc := fcNow s }
    some (n, { s with strt.snaps := s.strt.snaps ++ [n], strt.snapFc := some (fcNow s) })
  else
    (s.strt.snaps.find? fun n => n.id == id && n.sessionId == r.sessionId && decide (fcNow s ≤ n.fc + 1000)).map fun n => (n, s)

/-- DIAG_TABLE_READ (R571): at most one STRT snapshot per FC, further ones carried (R317). -/
def opDiagTableRead (r : Request) (s : State) : State :=
  let p := r.payload
  let table := fld p 0 1
  let id := fld p 4 4
  let first := fld p 8 4
  let n := fld p 12 4
  if p.length = 16 && table = 1 && id = 0 && s.strt.snapFc == some (fcNow s) then s else
  runOp s r (p.length == 16) (zeros p 1 3 && (table != 5 || id == 0)) true (edt s 0x0F20) fun s =>
  let size := if table = 1 then 262144 else 4096
  need ((table == 1 || table == 5) && decide (1 ≤ n) && decide (n ≤ 16384) && decide (first + n ≤ size)) s r stBadRange fun s =>
  let idx := (List.range n).map (· + first)
  if table = 5 then
    sendTable s r s.com.csn (tableParts (le 4 0 ++ le 4 n ++ le 8 0) (idx.map (rptRecord s)))
  else
    match takeSnap s r id with
    | none => finish s r stBadRange []
    | some (k, s) => sendTable s r k.csn (tableParts (le 4 k.id ++ le 4 n ++ le 8 k.slot) (idx.map (strtRecord k)))

def execDiagTableRead (r : Request) (s : State) : Host.Outcome State Fault Refusal := .next (opDiagTableRead r s)

/-- Bits 63 to 19 of an entry word. -/
def upperBits (w : BitVec 64) : Nat := w.toNat / 2 ^ 19

/-- The way that holds an expected entry: at its index, or where a probe finds it (R318). -/
def findExpected (s : State) (i : Nat) (w : BitVec 64) : Option Nat :=
  let hit (k : Nat) : Bool := holds (wayAt s.strt.ways k) && upperBits (wayAt s.strt.ways k) == upperBits w
  if hit i then some i else (candidates (eCell w) (eSlot w) (eKind w)).find? hit

/-- One item of a write to the STRT: its result, the object it commits on, and the table after it. -/
def writeStrtItem (s : State) (item : Bytes) : Nat × Option (Nat × Nat) × State :=
  let set := fld item 4 1 == 1
  match findExpected s (fld item 0 4) (BitVec.ofNat 64 (fld item 8 8)) with
  | none => (1, none, s)
  | some i =>
    let w := wayAt s.strt.ways i
    if !isStanding (eKind w) then (2, none, s)
    else if eLock w == set then (4, none, s)
    else if set && decide (4096 ≤ (s.strt.ways.filter fun e => holds e.2 && eLock e.2).length) then (3, none, s)
    else
      (0, some (if eKind w = kDwell then (okPath, eOwner w) else siteObj),
        { s with strt.ways := putWay s.strt.ways i (entry (eCell w) (eSlot w) (eOwner w) (eKind w) (eAge w) set) })

/-- One item of a write to the Robot Presence Table (R280). -/
def writeRptItem (s : State) (item : Bytes) : Nat × Option (Nat × Nat) × State :=
  let i := fld item 0 4
  let e := rptAt s i
  let lock := if fld item 4 1 = 2 then e.lock else fld item 4 1 == 1
  let clear := fld item 5 1 == 1
  if !e.valid || e.eui.toNat != fld item 8 8 then (1, none, s)
  else if lock == e.lock && !(clear && e.spoof) then (4, none, s)
  else (0, some (if e.enrolled then (okRobot, e.session) else siteObj),
    modRpt s i fun e => { e with lock := lock, spoof := e.spoof && !clear })

/-- Apply the items in order; every OK item makes one commit. -/
def writeItems (table : Nat) : List Bytes → List Nat → State → List Nat × State
  | [], acc, s => (acc, s)
  | item :: l, acc, s =>
    let (res, obj, s) := if table = 1 then writeStrtItem s item else writeRptItem s item
    writeItems table l (acc ++ [res]) (match obj with | some o => commit s o.1 o.2 | none => s)

/-- The objects the items' commits name. -/
def itemObjs (table : Nat) : List Bytes → State → List (Nat × Nat)
  | [], _ => []
  | item :: l, s =>
    let (_, obj, s) := if table = 1 then writeStrtItem s item else writeRptItem s item
    obj.toList ++ itemObjs table l s

/-- Reserved bytes and ranges of an item. -/
def itemRsv (table : Nat) (i : Bytes) : Bool := if table = 1 then zeros i 5 3 else zeros i 6 2
def itemOk (table : Nat) (i : Bytes) : Bool :=
  if table = 1 then decide (fld i 0 4 < 262144) && decide (fld i 4 1 ≤ 1)
  else decide (fld i 0 4 < 4096) && decide (fld i 4 1 ≤ 2) && decide (fld i 5 1 ≤ 1)

/-- DIAG_TABLE_WRITE (R572). -/
def opDiagTableWrite (r : Request) (s : State) : State :=
  let p := r.payload
  let table := fld p 0 1
  let n := fld p 1 1
  let id := fld p 4 4
  let items := (List.range n).map fun i => slice p (8 + 16 * i) 16
  runOp s r (p.length == 8 + 16 * n) (zeros p 2 2 && (table != 5 || id == 0) && items.all (itemRsv table)) (supOk s r) (inModes s mNorm) fun s =>
  need ((table == 1 || table == 5) && decide (1 ≤ n) && decide (n ≤ 64) && items.all (itemOk table)
      && (id == 0 || (takeSnap s r id).isSome)) s r stBadRange fun s =>
  checkCsn s r (itemObjs table items s) fun s =>
  let (res, s) := writeItems table items [] s
  finish s r stOk (le 1 n ++ zb 3 ++ fit (4 * cdiv n 4) (res.map fun x => BitVec.ofNat 8 x))

def execDiagTableWrite (r : Request) (s : State) : Host.Outcome State Fault Refusal := .next (opDiagTableWrite r s)

end Sys2Proof.Machine
end

