-- ==== Sys2Proof/Machine/Running.lean ====
section
/-! DEFINITION. Ending commands that go on over several fleet cycles and have made no commit yet: by the closing of their
session (R54), by a mode that withholds them (R100, R109, R110), or by a reset of their queue (R91). -/

namespace Sys2Proof.Machine

open Sys2Proof

/-- How a command is ended before its time: which ones, with the INTERRUPT and the status of their records. -/
structure Ending where
  /-- INTERRUPT (R96). -/
  intr : Nat
  /-- FINAL_STATUS. -/
  status : Nat
deriving DecidableEq, Repr

/-- End one command that had made no commit. -/
def endOne (e : Ending) (s : State) (r : Request) : State := finishI { s with com.cmdCommits := 0 } r e.intr e.status []

/-- A calibration of the GNSS baseband (R190). -/
def endGnssCal (p : Request → Bool) (e : Ending) (s : State) : State :=
  match s.gnss.cal with
  | some c => if p c.req then endOne e { s with gnss.cal := none } c.req else s
  | none => s

/-- A survey-in: BASE_STATE is again as before it (R198). -/
def endSurvey (p : Request → Bool) (e : Ending) (s : State) : State :=
  match s.ref.survey with
  | some v => if p v.req then endOne e { s with ref.survey := none, ref.surveying := false } v.req else s
  | none => s

/-- A relay of anchor firmware: nothing more of it is sent (R251). -/
def endRelayCmd (p : Request → Bool) (e : Ending) (s : State) : State :=
  match s.buoy.relayCmd with
  | some c =>
    if p c.req then
      endOne e { s with
        buoy.relayCmd := none
        buoy.anchors := tmap s.buoy.anchors fun l a => if bit c.mask l then { a with relay := none } else a } c.req
    else s
  | none => s

/-- A calibration of the anchors (R230). -/
def endBuoyCal (p : Request → Bool) (e : Ending) (s : State) : State :=
  match s.buoy.cal with
  | some c => if p c.req then endOne e { s with buoy.cal := none } c.req else s
  | none => s

/-- Self-tests; a core being tested is given back. -/
def endTests (p : Request → Bool) (e : Ending) (s : State) : State :=
  (s.cores.tests.filter fun t => p t.req).foldl (fun s t =>
    let core := testCore s t.target
    let s : State := { s with
      cores.tests := s.cores.tests.filter fun x => x.target != t.target
      cores.reload := if 0x20 ≤ t.target && t.target ≤ 0x22 then s.cores.reload.filter fun x => x.1 != core else s.cores.reload }
    endOne e s t.req) s

/-- Fresh attestation statements not yet signed (R505). -/
def endFresh (p : Request → Bool) (e : Ending) (s : State) : State :=
  (s.sec.fresh.filter p).foldl (endOne e) { s with sec.fresh := s.sec.fresh.filter fun r => !p r }

/-- Key slot changes not yet flipped: SHADOW clears and the other area is of no account (R488). -/
def endChanges (p : Request → Bool) (e : Ending) (s : State) : State :=
  (s.sec.change.filter fun c => p c.req).foldl (fun s c =>
    let s : State := { s with
      bk.slots := tput s.bk.slots c.slot { keySlot s c.slot with shadow := false }
      sec.change := s.sec.change.erase c }
    endOne e s c.req) s

/-- A UPD_FINISH: the download stands as received, and a slot being written is EMPTY (R528, R529). -/
def endUpdFinish (p : Request → Bool) (e : Ending) (s : State) : State :=
  match s.upd.finish with
  | some (_, _, r) =>
    if !p r then s else
    let s : State := { s with upd.finish := none, upd.verified := none }
    let s := if s.upd.state = 2 then
        setUpd (modSlot s (!s.flash.active) fun x => { x with state := 0, pkg := {}, body := [], capsule := [] }) 1 0x0A
      else s
    endOne e s r
  | none => s

/-- The host of a round's request whose reserve is not yet committed. -/
def hostOfReq (p : Request → Bool) (q : PathReq) : Option Request :=
  match q.host with
  | some r => if p r && q.reserveCsn = 0 then some r else none
  | none => none

/-- PATH_REQUEST commands not yet reserved: the request leaves its round (R341, R357). -/
def endPaths (p : Request → Bool) (e : Ending) (s : State) : State :=
  let mine := (s.allot.reqs ++ s.allot.carried).filter fun q => q.stage != .dropped && (hostOfReq p q).isSome
  let hosts := mine.filterMap (hostOfReq p) ++ s.allot.pathReqs.filter p
  let s := mine.foldl (fun s q => modPlan s q.session fun x =>
    { x with state := if x.state == .requested || x.state == .deferred then q.under else x.state }) s
  let s : State := { s with
    allot.reqs := s.allot.reqs.map fun q => if (hostOfReq p q).isSome then { q with stage := .dropped, host := none } else q
    allot.carried := s.allot.carried.filter fun q => !(hostOfReq p q).isSome
    allot.pathReqs := s.allot.pathReqs.filter fun r => !p r }
  hosts.foldl (endOne e) s

/-- End the running commands a condition selects. -/
def endRunning (p : Request → Bool) (e : Ending) (s : State) : State :=
  endPaths p e (endUpdFinish p e (endChanges p e (endFresh p e (endTests p e (endBuoyCal p e (endRelayCmd p e
    (endSurvey p e (endGnssCal p e s))))))))

/-- INTERRUPT MODE with ST_BAD_MODE (R100). -/
def byMode : Ending := ⟨intMode, stBadMode⟩

/-- At a mode change: surveys, calibrations and tests end once the new mode withholds them. SQUALL and VEER are left back
to the mode they hold, so these go on through both (R100, R109, R110). -/
def endByMode (s : State) : State :=
  let held := s.mode.cur == .squall || s.mode.cur == .veer
  let every : Request → Bool := fun _ => true
  let s := if held || inModes s [.watch] then s else endGnssCal every byMode s
  let s := if held || inModes s [.zephyr] then s else endSurvey every byMode s
  let s := if held || inModes s [.zephyr, .watch] then s else endBuoyCal every byMode s
  let s := if held || inModes s mWork then s else endRelayCmd every byMode s
  let watch := s.cores.tests.filter fun t => watchOnly t.target
  let s := if held || inModes s [.watch] then s else endTests (fun r => watch.any fun t => t.req == r) byMode s
  let s := if held || inModes s mRun then s else endTests every byMode s
  if held || inModes s mDownload then s else endUpdFinish every byMode s

end Sys2Proof.Machine
end

