-- ==== Sys2Proof/Machine/Sessions.lean ====
section
/-! DEFINITION. Edtor sessions (R36 to R67, R79): datagrams through their checks to the command queues, credit, the
opening, lease and closing of sessions, and the revocation of hosts. -/

namespace Sys2Proof.Machine

open Sys2Proof

/-! ### Counters (R79) -/

/-- Change the counters of a port. -/
def modPort (s : State) (port : Port) (f : PortCounters → PortCounters) : State :=
  { s with edtor.ports := tmod s.edtor.ports (portCode port) {} f }

/-- Count a failed tag, a replay or a packet bound elsewhere of a session: positions 11 to 13 of its counters. -/
def countSession (s : State) (slot i : Nat) : State := modSession s slot fun e => { e with cnt := lmod e.cnt i inc32 }

/-! ### SEQ (R45) -/

/-- A SEQ the session accepts: above the highest, or within 1,024 below it and not yet seen; SEQ 0 is a replay. -/
def seqFresh (e : Session) (seq : Nat) : Bool :=
  decide (0 < seq) && (decide (e.rxHigh < seq) || (decide (seq < e.rxHigh) && decide (e.rxHigh ≤ seq + 1024) && !e.rxSeen.contains seq))

/-- Note an accepted SEQ. -/
def noteSeq (e : Session) (seq : Nat) : Session :=
  if e.rxHigh < seq then
    { e with
      rxHigh := seq
      rxSeen := (e.rxHigh :: e.rxSeen).filter fun x => decide (0 < x) && decide (seq ≤ x + 1024) }
  else { e with rxSeen := seq :: e.rxSeen }

/-! ### Credit (R66) -/

/-- A is below B in 32-bit serial arithmetic (R66). -/
def serialBelow (a b : Nat) : Bool :=
  let d := (b + 2 ^ 32 - a) % 2 ^ 32
  decide (1 ≤ d) && decide (d < 2 ^ 31)

/-- An EVT_LIMIT a host sends: one below the limit in force leaves it; one more than 65,536 above EVT_SENT is cut. -/
def newLimit (e : Session) (limit : Nat) : Nat :=
  if serialBelow limit e.evLimit then e.evLimit
  else if serialBelow ((e.evSent + 65536) % 2 ^ 32) limit then (e.evSent + 65536) % 2 ^ 32
  else limit

/-- A host credit packet in a session (R66, R79): its limit is latched at the next boundary. -/
def takeCredit (d : Datagram) (slot : Nat) (s : State) : State :=
  let p := hPayload d
  if hLength d != 8 || !zeros p 4 4 || hStatus d != 0 || hOpenHost d != 0 || decide (256 ≤ hFlags d) then countViol s slot d.port 5 false
  else
    modSession s slot fun e => { e with limits := e.limits ++ [fld p 0 4] }

/-- The limits a session has been sent since the last boundary take effect in order; how many were below the one in force. -/
def applyLimits (e : Session) : Session × Nat :=
  e.limits.foldl (fun (x : Session × Nat) l => ({ x.1 with evLimit := newLimit x.1 l }, x.2 + (if serialBelow l x.1.evLimit then 1 else 0)))
    ({ e with limits := [] }, 0)

/-- LATCH: the credit packets captured in the FC before (R25, R66). -/
def latchLimits (s : State) : State :=
  (s.edtor.sessions.filter fun x => !x.2.limits.isEmpty).foldl (fun s x =>
    let (e, n) := applyLimits x.2
    modPort { s with edtor.sessions := tput s.edtor.sessions x.1 e } e.port fun c => { c with evtLow := sat 32 (c.evtLow + n) }) s

/-! ### Acceptance (R59, R64) -/

/-- The request a datagram carries once it is accepted. -/
def requestOf (s : State) (d : Datagram) (slot : Nat) : Request :=
  { slot := slot, sessionId := hSession d, openHost := if slot = 4 then hOpenHost d else 0, port := d.port, addr := d.addr
    udp := d.udp, seq := hSeq d, tag := hTag d, opcode := hOpcode d
    expect := if bit (hFlags d) 1 then some (hCsn d) else none
    accept := s.com.csn, counter := counterAt s d.pclk, header := d.bytes.take 32, desc := edtorDesc s d, payload := hPayload d }

/-- A REJECTED reply, placed in EMIT of the next FC (R59, R71). -/
def reject (s : State) (d : Datagram) (slot viol status : Nat) : State :=
  let s := countViol s slot d.port viol false
  { s with edtor.rejects := s.edtor.rejects ++ [replyTo (requestOf s d slot) (fFinal + fRejected) s.com.csn status []] }

/-- A reply sent again (R64). -/
def resend (s : State) (k : Packet) : State :=
  { s with edtor.rejects := s.edtor.rejects ++ [{ k with resent := true }] }

/-- The command becomes outstanding (R59). -/
def enqueue (s : State) (d : Datagram) (slot : Nat) : State :=
  let s := modSession s slot fun e => { e with outs := e.outs ++ [{ tag := hTag d, opcode := hOpcode d }] }
  noteQueue { s with edtor.inbox := s.edtor.inbox ++ [requestOf s d slot] } slot

/-- A retransmission (R64). -/
def retry (s : State) (d : Datagram) (slot : Nat) (e : Session) : State :=
  match e.outs.find? fun o => o.tag == hTag d with
  | some o =>
    if o.opcode != hOpcode d then reject s d slot 2 stTagInUse else
    match o.lastReply with
    | some k => resend s k
    | none => s
  | none =>
    match e.cache.find? fun k => k.tag == hTag d && k.opcode == hOpcode d with
    | some k => resend s k
    | none => reject s d slot 3 stReplyExpired

/-- The acceptance checks of a packet in a session, in the order of R59. -/
def acceptPacket (s : State) (d : Datagram) (slot : Nat) (e : Session) : State :=
  if hKind d = 4 then takeCredit d slot s
  else if hKind d != 1 then reject s d slot 0 stBadKind
  else if hStatus d != 0 || hOpenHost d != 0 || decide (256 ≤ hFlags d) then reject s d slot 1 stBadReserved
  else if bit (hFlags d) 4 then retry s d slot e
  else if e.outs.any fun o => o.tag == hTag d then reject s d slot 2 stTagInUse
  else if 512 ≤ e.outs.length then reject s d slot 4 stNoCredit
  else enqueue s d slot

/-- The open SEQ stored for a host of the open exchange; none where the host has no key (R51, R123). -/
def openSeqOf (s : State) (host : Nat) : Option Nat :=
  if host = 0xFF then some s.p.control.provSeq
  else match tget s.p.control.hosts host with
    | some h => if h.enrolled && decide (host < 16) then some h.openSeq else none
    | none => none

/-- Store the highest open SEQ of a host. -/
def setOpenSeq (s : State) (host seq : Nat) : State :=
  if host = 0xFF then { s with p.control.provSeq := seq }
  else { s with p.control.hosts := tmod s.p.control.hosts host {} fun h => { h with openSeq := seq } }

/-- The open exchange (R51): authentication, the open SEQ, then the acceptance checks that apply without a session. -/
def receiveOpen (s : State) (d : Datagram) : State :=
  match openSeqOf s (hOpenHost d), openDatagram (hostKey s (hOpenHost d)) d with
  | none, _ => modPort s d.port fun c => { c with authFail := inc32 c.authFail }
  | _, none => modPort s d.port fun c => { c with authFail := inc32 c.authFail }
  | some last, some d =>
    if hSeq d ≤ last then modPort s d.port fun c => { c with replay := inc32 c.replay }
    else
      let s := setOpenSeq s (hOpenHost d) (hSeq d)
      if 256 ≤ hFlags d then reject s d 4 1 stBadReserved
      else if bit (hFlags d) 4 then reject s d 4 3 stReplyExpired
      else { s with edtor.inbox := s.edtor.inbox ++ [requestOf s d 4] }

/-- The open session a datagram names and is bound to (R38). -/
def boundSession (s : State) (d : Datagram) : Option (Nat × Session) :=
  let slot := hSession d % 4
  match sessionAt s slot with
  | some e => if e.id = hSession d && e.port = d.port && e.addr = d.addr && e.udp = d.udp then some (slot, e) else none
  | none => none

/-- A packet of a session after its header checks (R43, R45, R53). -/
def receiveIn (s : State) (d : Datagram) (slot : Nat) (e : Session) : State :=
  match openDatagram e.key d with
  | none => modPort (countSession s slot 11) d.port fun c => { c with authFail := inc32 c.authFail }
  | some d =>
  if !seqFresh e (hSeq d) then modPort (countSession s slot 12) d.port fun c => { c with replay := inc32 c.replay }
  else
    let e := { noteSeq e (hSeq d) with renewFc := fcNow s }
    acceptPacket (modSession s slot fun _ => e) d slot e

/-- A packet that names a session it is not bound to is counted for the session where one is open under its SESSION_ID (R38,
R79). -/
def countElsewhere (s : State) (d : Datagram) : State :=
  match sessionAt s (hSession d % 4) with
  | some e => if e.id = hSession d then countSession s (hSession d % 4) 13 else s
  | none => s

/-- A datagram at port 48230 (R36 to R45, R77, R79). -/
def receive (s : State) (d : Datagram) : State :=
  if !running s || !inFc s d.pclk then s else
  let (passed, s) := portFrame s d.port
  if !passed then s else
  if !toUs s d then portOther s d.port
  else if !sizeOk d then modPort s d.port fun c => { c with badSize := inc32 c.badSize }
  else if !headerOk d then modPort s d.port fun c => { c with badHeader := inc32 c.badHeader }
  else if hSession d = 0 then
    if hKind d = 1 && hOpcode d = 0x0120 then receiveOpen s d
    else modPort s d.port fun c => { c with noSession := inc32 c.noSession }
  else
    match boundSession s d with
    | none => modPort (countElsewhere s d) d.port fun c => { c with noSession := inc32 c.noSession }
    | some (slot, e) => receiveIn s d slot e

/-- COMMAND_RECEIVE: a datagram goes through every check to its session's command queue, or is dropped or rejected. -/
def opCommandReceive (d : Datagram) (s : State) : State := receive s d

def execCommandReceive (d : Datagram) (s : State) : Host.Outcome State Fault Refusal := .next (opCommandReceive d s)

/-- HOST_CREDIT: a credit packet goes through the same checks (R66). -/
def opHostCredit (d : Datagram) (s : State) : State := receive s d

def execHostCredit (d : Datagram) (s : State) : Host.Outcome State Fault Refusal := .next (opHostCredit d s)

/-! ### Closing (R54) -/

/-- INTERRUPT SESSION_CLOSED. -/
def byClosing : Ending := ⟨intClosed, stSessionClosed⟩

/-- Packets take the SEQ values after `seq` (R46). -/
def partWith (seq : Nat) : List Packet → List Packet
  | [] => []
  | k :: l => { k with seq := seq + 1 } :: partWith (seq + 1) l

/-- The last SEQ of a direction (R46). -/
def lastSeq : Nat := 2 ^ 48 - 1

/-- A session ends, and with it what it waits for. `own`: it closes itself, so its replies of the FC are still released, this command's last, sealed before
the keys are discarded (R56). -/
def dropSession (s : State) (slot : Nat) (own : Bool) : State :=
  match sessionAt s slot with
  | none => s
  | some e =>
    let mine : Request → Bool := fun r => r.slot == slot && r.sessionId == e.id
    let last := if own then (partWith e.txSeq (s.com.replies.filter (·.slot == slot))).map (sealPacket e.key) else []
    let waiting := (s.edtor.latched ++ (s.edtor.faulted ++ s.edtor.inbox).map fun (r : Request) => { r with latchFc := fcNow s }).filter mine
    let s := endRunning mine byClosing (waiting.foldl (endOne byClosing) s)
    { s with
      edtor.sessions := tput s.edtor.sessions slot {}
      edtor.inbox := s.edtor.inbox.filter fun r => !mine r
      edtor.latched := s.edtor.latched.filter fun r => !mine r
      edtor.faulted := s.edtor.faulted.filter fun r => !mine r
      edtor.rejects := s.edtor.rejects.filter (·.slot != slot)
      edtor.rejectsDue := s.edtor.rejectsDue.filter (·.slot != slot)
      edtor.parting := s.edtor.parting ++ last
      com.replies := s.com.replies.filter (·.slot != slot)
      stop.filter := tdel s.stop.filter slot
      stop.arms := s.stop.arms.filter fun a => a.sessionId != e.id
      strt.snaps := s.strt.snaps.filter fun a => a.sessionId != e.id }

/-- Close a session, with EV_SESSION_CLOSED. `tag`: the command that closes it (R54, R58). -/
def closeSession (s : State) (slot reason : Nat) (own : Bool) (tag : Option (Nat × Nat)) : State :=
  match sessionAt s slot with
  | none => s
  | some e =>
    let s := dropSession s slot own
    raiseWith s s.com.csn tag 0x8101 .all (le 2 e.id ++ le 1 e.host ++ le 1 reason ++ zb 4)

/-- A close that no command makes: the active FLT commits it on the session (R12, R54). -/
def closeBy (s : State) (slot reason : Nat) : State :=
  if (sessionAt s slot).isNone then s else closeSession (commitBy s orgFlt okSession slot) slot reason false none

/-- The lease has run out: no packet in the last 100 × LEASE_S FCs (R53). -/
def leaseOver (s : State) (e : Session) : Bool := decide (e.renewFc + 100 * e.leaseS < fcNow s)

/-- Every lease is checked at the FC boundary (R53). -/
def checkLeases (s : State) : State :=
  { s with edtor.sessions := tmap s.edtor.sessions fun _ e => { e with leaseDue := e.sopen && leaseOver s e } }

/-- COMMAND is about to begin or has begun: closes of the FC are made (R54). -/
def atCommand (s : State) : Bool := s.clk.window == .solve || s.clk.window == .command

/-- LEASE (R53, R54): a session whose lease the boundary found run out closes in COMMAND. -/
def opLease (slot : Nat) (s : State) : State :=
  match sessionAt s slot with
  | some e => if running s && atCommand s && e.leaseDue && !fltAway s then closeBy s slot 3 else s
  | none => s

def execLease (slot : Nat) (s : State) : Host.Outcome State Fault Refusal :=
  if slot < 4 then .next (opLease slot s) else .fault .noSuchUnit

/-- Sessions whose lease has run out close, SERVICE sessions on H0 and H1 while SERVICE_ENABLE is inactive, and sessions at
their last SEQ (R46, R49, R53). -/
def closeDue (s : State) : State :=
  (openSlots s).foldl (fun s slot =>
    match sessionAt s slot with
    | none => s
    | some e =>
      if e.leaseDue then closeBy s slot 3
      else if !s.ports.svcLatched && isSvc e.role && e.port != .l23 then closeBy s slot 4
      else if lastSeq ≤ e.rxHigh || lastSeq ≤ e.txSeq then closeBy s slot 5
      else s) s

/-! ### SYS_SESSION_OPEN (R55) -/

/-- The ceiling of a host of the open exchange on a port; none where it opens nothing (R48, R123). -/
def ceilingOf (s : State) (host : Nat) (port : Port) : Option Role :=
  if host = 0xFF then (if port = .l23 && !s.p.control.provRefused then some .service else none)
  else match tget s.p.control.hosts host with
    | some h => if h.enrolled then some h.ceiling else none
    | none => none

/-- The role granted: ROLE, up to the ceiling; the provisioning host is granted SERVICE (R55, R123). -/
def roleGranted (s : State) (r : Request) : Option Role :=
  match roleOfCode (fld r.payload 0 1), ceilingOf s r.openHost r.port with
  | some x, some c => if r.openHost = 0xFF then some .service else if roleCode x ≤ roleCode c then some x else none
  | _, _ => none

/-- The lowest free session slot. -/
def freeSlot (s : State) : Option Nat := (List.range 4).find? fun i => (sessionAt s i).isNone

/-- The next generation of a slot: 1 to 0x3FFF (R52). -/
def nextSlotGen (g : Nat) : Nat := if g = 0x3FFF then 1 else g + 1

/-- Open a session in a slot and answer (R51, R52, R55). Its lease counts from the FC in which the open was captured (R53). -/
def openSession (r : Request) (role : Role) (slot : Nat) (s : State) : State :=
  let p := r.payload
  let gen := nextSlotGen (s.p.control.slotGen.getD slot 0)
  let id := slot + 4 * gen
  let lease := if fld p 2 2 = 0 then 5 else fld p 2 2
  let (nonce, s) := freshBytes s 16
  let key := sessionKey s r.openHost (slice p 8 16) nonce id
  let s := commit { s with p.control.slotGen := s.p.control.slotGen.set slot gen } okSession slot
  let e : Session :=
    { sopen := true, id := id, host := r.openHost, role := role, port := r.port, addr := r.addr, udp := r.udp, leaseS := lease
      renewFc := r.latchFc - 1, key := key, evLimit := newLimit {} (fld p 4 4), openedCsn := s.com.csn }
  let s : State := { s with
    edtor.sessions := tput s.edtor.sessions slot e
    stop.filter := tput s.stop.filter slot
      { valid := true, sessionId := id, key := key, port := r.port, addr := r.addr, udp := r.udp, seq := 0 } }
  let s := if r.openHost = 0xFF then s else cacheKey s (256 + r.openHost) (keySlot s 0).gen
  finish s r stOk (le 2 id ++ le 1 (roleCode role) ++ zb 1 ++ le 2 512 ++ le 2 lease ++ nonce ++ le 4 s.p.control.bootCount ++ zb 4)

/-- SYS_SESSION_OPEN (R55): within an open session it ends with ST_BAD_ROLE. -/
def opSysSessionOpen (r : Request) (s : State) : State :=
  let p := r.payload
  let len := p.length == 32
  let rsv := zeros p 1 1 && zeros p 24 8
  if r.slot != 4 then runOp s r len rsv false true id else
  if !edtorRuns s || held s then s else
  let s := takeLatched s r
  if !len then finish s r stBadLength []
  else if !rsv then finish s r stBadReserved []
  else match roleGranted s r with
    | none => finish s r stBadRole []
    | some role =>
      need (decide (fld p 2 2 ≤ 60)) s r stBadRange fun s =>
      need (!(isSvc role && r.port != .l23 && !s.ports.svcLatched)) s r stServiceNotEnabled fun s =>
      match freeSlot s with
      | none => finish s r stNoSession []
      | some slot => checkCsn s r [(okSession, slot)] (openSession r role slot)

def execSysSessionOpen (r : Request) (s : State) : Host.Outcome State Fault Refusal := .next (opSysSessionOpen r s)

/-! ### SYS_SESSION_CLOSE and SYS_HOST_REVOKE (R56, R130) -/

/-- The slot whose open session has a SESSION_ID. -/
def slotById (s : State) (id : Nat) : Option Nat :=
  match sessionAt s (id % 4) with
  | some e => if e.id = id then some (id % 4) else none
  | none => none

/-- SYS_SESSION_CLOSE (R56). -/
def opSysSessionClose (r : Request) (s : State) : State :=
  let p := r.payload
  let target := fld p 0 2
  runOp s r (p.length == 4) (zeros p 2 2) (target == r.sessionId || supOk s r) (edt s 0x0121) fun s =>
  match slotById s target with
  | none => finish s r stNoSession []
  | some slot =>
    checkCsn s r [(okSession, slot)] fun s =>
    let s := commit s okSession slot
    if slot = r.slot then closeSession (finish s r stOk []) slot 1 true none
    else finish (closeOther s r slot) r stOk []
where
  /-- The closing of another session leaves the command's own count of commits alone. -/
  closeOther (s : State) (r : Request) (slot : Nat) : State :=
    let n := s.com.cmdCommits
    { closeSession s slot 2 false (tagOf s r) with com.cmdCommits := n }

def execSysSessionClose (r : Request) (s : State) : Host.Outcome State Fault Refusal := .next (opSysSessionClose r s)

/-- Another enrolled host keeps a ceiling of SUPERVISOR or SERVICE. -/
def othersSup (s : State) (host : Nat) : Bool := (supHosts s).any (· != host)

/-- The slots of a host's open sessions. -/
def slotsOfHost (s : State) (host : Nat) : List Nat :=
  (s.edtor.sessions.filter fun e => e.2.sopen && e.2.host == host).map (·.1)

/-- SYS_HOST_REVOKE (R130): one commit, and the host's sessions close. -/
def opSysHostRevoke (r : Request) (s : State) : State :=
  let p := r.payload
  let host := fld p 0 1
  runOp s r (p.length == 4) (zeros p 1 3) (if s.mode.cur == .tender then svcOk s r else supOk s r) (inModes s [.tender, .calm]) fun s =>
  let h := tgetD s.p.control.hosts host {}
  need (decide (host < 16) && h.enrolled && host != hostOf s r) s r stBadRange fun s =>
  need (othersSup s host) s r stLastSupervisor fun s =>
  checkCsn s r [(okHost, host)] fun s =>
  let s := commit { s with p.control.hosts := tput s.p.control.hosts host { h with enrolled := false } } okHost host
  let n := s.com.cmdCommits
  let s := (slotsOfHost s host).foldl (fun s slot => closeSession s slot 2 false (tagOf s r)) s
  finish { s with com.cmdCommits := n } r stOk []

def execSysHostRevoke (r : Request) (s : State) : Host.Outcome State Fault Refusal := .next (opSysHostRevoke r s)

/-! ### Loss of the hosts (R118) -/

/-- HOST_LOSS: no session has been open for HOST_LOSS_S seconds (R110, R118). -/
def opHostLoss (s : State) : State :=
  if running s && decide (100 * s.supply.cfg.hostLossS ≤ s.mode.noSessionFc) then trigger s .hostLoss else s

def execHostLoss (s : State) : Host.Outcome State Fault Refusal := .next (opHostLoss s)

/-- REFERENCE_LOST: in 100 consecutive FCs of BREEZE or DRIFT neither corrections nor an anchor in sync (R110). -/
def opReferenceLost (s : State) : State :=
  if running s && decide (100 ≤ s.mode.refLossRun) then trigger s .noPosition else s

def execReferenceLost (s : State) : Host.Outcome State Fault Refusal := .next (opReferenceLost s)

end Sys2Proof.Machine
end

