-- ==== Sys2Proof/Machine/Boot.lean ====
section
/-! DEFINITION. Power, resets and STILL (R110, R114 to R117, R122, R147, R312, R486, R489, R511 to R514, R537): what a
reset keeps, how a slot is chosen, and the state in which the first FC after STILL begins. -/

namespace Sys2Proof.Machine

open Sys2Proof

/-! ### Resets (R116, R117) -/

/-- Reset kinds that take the OCXO and PoDL down with them (R116). -/
def isCold (kind : Nat) : Bool := kind == 1 || kind == 4

/-- The pins as they stand outside the device: levels of the I/O, SVC_EN, VIO and TLOOP. -/
def pinsOf (p : Ports) : Ports :=
  { io := tmap p.io fun _ x => { level := x.level, latched := x.level }
    svcEn := p.svcEn
    vio := p.vio
    tloop := p.tloop }

/-- PoDL outputs that a warm reset keeps on; the link and the pairing start again. -/
def podlKept (a : AnchorLive) : AnchorLive :=
  { detected := a.detected
    pdClass := a.pdClass
    granted := a.granted
    podlOn := a.podlOn
    state := if a.podlOn then .enabled else .off }

/-- What every reset keeps: fuses, flash, MRAM as last persisted, the backup domain, the pins, and whatever stands outside
the device (R117). -/
def keptState (s : State) : State :=
  { pending := s.pending
    freeCtr := s.freeCtr
    fuse := s.fuse
    flash := s.flash
    p := s.nv
    nv := s.nv
    bk := { s.bk with maintFc := 0 }
    ports := pinsOf s.ports }

/-- A reset of a kind is asserted and STILL begins (R114, R116, R117). -/
def resetDevice (s : State) (kind : Nat) : State :=
  { keptState s with
    clk.ovenWarming := isCold kind || s.clk.ovenWarming
    time.bridge := s.time.bridge
    buoy.anchors := if isCold kind then [] else tmap s.buoy.anchors fun _ a => podlKept a
    upd.oldState := s.upd.state
    mode.lastKind := kind
    mode.stillPhase := if isCold kind then 1 else 2
    nv.diag.watchdogs := if kind = 2 then inc32 s.nv.diag.watchdogs else s.nv.diag.watchdogs
    p.diag.watchdogs := if kind = 2 then inc32 s.nv.diag.watchdogs else s.nv.diag.watchdogs }

/-- RESET: the reset that is due is asserted, at the last PCLK of GUARD, or at once when cores fail (R116, R127, R131). -/
def opReset (s : State) : State :=
  match s.mode.resetAt with
  | some k => if running s && (k == 2 || s.clk.window == .guard) then resetDevice s k else s
  | none => s

def execReset (s : State) : Host.Outcome State Fault Refusal := .next (opReset s)

/-- POWER_ON (R110): VIN is back; a reset of kind POWER_ON. -/
def opPowerOn (s : State) : State := if s.mode.cur == .doldrums then resetDevice s 1 else s

def execPowerOn (s : State) : Host.Outcome State Fault Refusal := .next (opPowerOn s)

/-- POWER_FAIL (R122): the outputs go off, the backup domain latches POWER_FAIL, nothing is persisted, committed or sent. -/
def opPowerFail (s : State) : State :=
  if s.mode.cur == .doldrums then s else
  { keptState s with
    bk := { s.bk with maintFc := 0, powerFail := some s.bk.rtc }
    time.bridge := s.time.bridge
    upd.oldState := s.upd.state
    mode.cur := .doldrums
    mode.lastKind := s.mode.lastKind
    mode.stillPhase := 0 }

def execPowerFail (s : State) : Host.Outcome State Fault Refusal := .next (opPowerFail s)

/-- BACKUP_DOMAIN_LOSS (R537): without main power the RTC, the key slots, the tamper latch and the event latch are lost. -/
def opBackupDomainLoss (s : State) : State := if s.mode.cur == .doldrums then { s with bk := { lost := true } } else s

def execBackupDomainLoss (s : State) : Host.Outcome State Fault Refusal := .next (opBackupDomainLoss s)

/-! ### Phases 3 and 4: the image slot (R512) -/

/-- The boot ROM may try a slot: its package reaches the floor, and it is CONFIRMED, or TRIAL with TRIAL_COUNT below 3. -/
def bootable (s : State) (b : Bool) : Bool :=
  let x := imageSlot s b
  headerValid x && decide (rollbackFloor s ≤ x.pkg.rollback) && (x.state == 3 || (x.state == 2 && decide (x.trial < 3)))

/-- The slots in the order they are tried: a TRIAL slot first, then the higher SLOT_SEQ. -/
def bootOrder (s : State) : List Bool :=
  let (a, b) := (s.flash.a, s.flash.b)
  let bFirst := if (a.state == 2) != (b.state == 2) then b.state == 2 else decide (a.seq < b.seq)
  (if bFirst then [true, false] else [false, true]).filter (bootable s)

/-- Before a TRIAL slot is loaded after a WATCHDOG reset its TRIAL_COUNT rises; at 3 it is REJECTED. -/
def countTrial (s : State) (b : Bool) : State :=
  if (imageSlot s b).state = 2 && s.mode.lastKind = 2 then
    modSlot s b fun x => { x with trial := x.trial + 1, state := if 2 ≤ x.trial then 4 else x.state }
  else s

/-- Try the slots in turn: the slot that boots, if any. `first`: phase 3 runs for the first time since the reset. -/
def trySlots (i : BootIn) (first : Bool) : List Bool → State → Option Bool × State
  | [], s => (none, s)
  | b :: l, s =>
    let s := if first then countTrial s b else s
    if (imageSlot s b).state != 4 && (if b then i.sigB else i.sigA) then (some b, s) else trySlots i first l s

/-- Both slots have failed: STILL goes on, the failure is counted, and L23 presents the DFU device (R115, R513). -/
def bootFailed (s : State) : State :=
  { s with
    mode.stillPhase := 3
    mode.stillFails := s.mode.stillFails + 1
    bk.bootFails := sat 32 (s.bk.bootFails + 1)
    upd.dfu := true }

/-- The running slot gives UPD_STATE and the configuration format (R514, R515, R526, R533). -/
def slotChosen (b : Bool) (s : State) : State :=
  let s : State := { s with flash.active := b, upd.dfu := false }
  let trialing := (imageSlot s b).state == 2
  let new := if trialing then 7 else if (imageSlot s (!b)).state == 1 then 3 else 0
  let dual := trialing && bit (imageSlot s b).pkg.pflags 1
  { s with
    upd.state := new
    upd.evs := if s.upd.oldState = new then [] else [{ new := new, old := s.upd.oldState, cause := 0x0B, csn := s.p.control.lastCsn }]
    upd.staged := new == 3
    upd.pkgId := if new = 7 then (imageSlot s b).pkg.pkgId else if new = 3 then (imageSlot s (!b)).pkg.pkgId else zb 16
    p.upd := { format := (imageSlot s b).pkg.configFormat, dual := dual
               oldFormat := if dual then some (imageSlot s (!b)).pkg.configFormat else none } }

/-! ### Phase 5: persistent state -/

/-- The journal holds a FINAL record of a KEY command whose LAST_CSN has this CSN_TAG. -/
def flipJournaled (s : State) (tag : Nat) : Bool :=
  s.p.control.journal.any fun j =>
    j.kind == 1 && j.final && decide (0x0C00 ≤ j.opcode) && decide (j.opcode < 0x0D00) && j.lastCsn % 2 ^ 28 == tag

/-- The check of one slot (R489): a flip that no FINAL record covers, or a SHADOW value, is discarded. -/
def checkSlot (s : State) (i : Nat) : State :=
  let k := keySlot s i
  let flipped := k.csnTag != objCsn s okKey i % 2 ^ 28 && !flipJournaled s k.csnTag
  if (i = 0 && s.bk.wipedInDark) || !(flipped || k.shadow) then s else
  { s with
    bk.slots := tput s.bk.slots i (tgetD s.p.keys.sealed i {}).slot
    sec.evKeys := s.sec.evKeys ++ [(i, 5)] }

/-- The backup domain was found lost (R486, R494, R503): settings and slots come back from MRAM, and BKUP_LOST trips. -/
def restoreBackup (s : State) : State :=
  let kept := s.p.keys.sealed.filter fun e => !e.2.erased
  let s : State := { s with
    bk.slots := kept.map fun e => (e.1, e.2.slot)
    bk.policy := s.p.keys.tamperPolicy
    bk.enable := s.p.keys.tamperEnable }
  let s := if bit s.bk.enable 4 then trip s 4 else s
  { s with sec.evKeys := s.sec.evKeys ++
      ((kept.filter fun e => e.2.slot.valid && !(e.1 == 0 && s.bk.wipedInDark)).map fun e => (e.1, 4)) }

/-- Slot 0 was wiped before phase 5: its sealed copy goes, GEN advances, and what it parents is orphaned (R487, R494). -/
def wipedWork (s : State) : State :=
  if !s.bk.wipedInDark then s else
  let s := orphan s 0
  let k := { keySlot s 0 with gen := nextGen (keySlot s 0).gen }
  { s with
    bk.slots := tput s.bk.slots 0 k
    bk.wipedInDark := false
    p.keys.sealed := tput s.p.keys.sealed 0 { slot := k, erased := true } }

/-- The key store in phase 5: BKUP_LOST, the slot checks, a wipe made in the dark, and the sealed copies that differ. -/
def keysStill (s : State) : State :=
  let found := s.bk.lost
  let s := if found then restoreBackup s else (s.bk.slots.map (·.1)).foldl checkSlot s
  let s := wipedWork s
  { s with
    bk.lost := false
    bk.tsrcNow := s.bk.tsrcNow % 16 + flag found 4
    p.keys.tamperPolicy := s.bk.policy
    p.keys.tamperEnable := s.bk.enable
    p.keys.sealed := s.bk.slots.foldl (fun t e =>
      if (tgetD t e.1 {}).slot == e.2 then t else tput t e.1 { slot := e.2, erased := (tgetD t e.1 {}).erased && !e.2.valid }) s.p.keys.sealed }

/-- CSNs and the other counters with a ceiling go on from it (R68, R420). -/
def ceilings (s : State) : State :=
  { s with
    com := { csn := s.p.control.lastCsn, nextCsn := s.p.control.csnCeiling }
    p.control.csnCeiling := s.p.control.csnCeiling + 2 ^ 24
    radio.groupCtr := s.p.radio.groupCeil
    radio.linkDownCtr := s.p.radio.linkCeil
    p.radio.groupCeil := s.p.radio.groupCeil + 2 ^ 20
    p.radio.linkCeil := s.p.radio.linkCeil + 2 ^ 20 }

/-- Unavailable FCs of cause RESET (R559): STILL itself, and every FC until NOT_READY is 0. -/
def countReset (i : BootIn) (s : State) : State :=
  let counted := s.mode.lastKind == 2 || s.mode.lastKind == 6
  let serving := [s.p.control.mode, s.p.control.returnMode].any fun m => m == 5 || m == 6
  if counted && serving then { addUnavail s 4 (cdiv i.stillCycles 384000) with cores.resetCount := some 0 } else s

/-- Tables rebuilt from the persistent configuration. -/
def rebuild (s : State) : State :=
  { s with
    allot.cfg := s.p.taskCfg
    allot.classNow := s.p.classes
    strt.grid := s.p.grid
    buoy.zones := s.p.zones
    buoy.ctx := s.p.anchors
    queues := bootQueues s
    gnss.cfg := s.p.gnssCfg
    gnss.hzInForce := s.p.gnssCfg.epochHz
    time.cfg := s.p.timeCfg
    supply.cfg := s.p.power
    ports.netNow := s.p.net
    ports.auxNow := s.p.aux
    ports.io := (List.range 8).map fun io =>
      let c := tgetD s.p.aux io {}
      (io, { tgetD s.ports.io io {} with out := c.dir == 2 && c.start == 2 })
    radio.foghornNow := s.p.radio.cfg.foghornFc }

/-- A robot session across a reset (R266): entered in the RPT; every state but FREE and LOST becomes ENROLLED. -/
def robotStill (s : State) (i : Nat) : State :=
  let x := robotRec s i
  if x.sstate == .free then s else
  let s := match enrolPlace s x.eui with
    | some k => rptEnrol s k i x.eui
    | none => s
  if x.sstate == .lost || x.sstate == .enrolled then s else lnkSState s i .enrolled 0x0D

/-- Phase 5. -/
def phase5 (i : BootIn) (s : State) : State :=
  let s := keysStill s
  let s := ceilings (countReset i s)
  let s : State := { s with
    p.control.bootCount := (s.p.control.bootCount + 1) % 2 ^ 32
    p.control.lastResetKind := s.mode.lastKind }
  { s with nv := s.p }

/-- Phase 5 with an unreadable control block: the reset is counted and its kind recorded (R116, R117); CSNs stand at the last persisted one (R119). -/
def phase5Fault (s : State) : State :=
  let s := keysStill s
  let n := (s.p.control.bootCount + 1) % 2 ^ 32
  { s with
    p.control.bootCount := n
    p.control.lastResetKind := s.mode.lastKind
    nv.control.bootCount := n
    nv.control.lastResetKind := s.mode.lastKind
    com := { csn := s.p.control.lastCsn, nextCsn := s.p.control.csnCeiling } }

/-! ### Phase 6: the vote (R114, R366, R400) -/

/-- A stop-loop input as phase 6 finds it. -/
def slStill (mode : Nat) (c1 c2 : Bool) : SlInput :=
  { mode := mode, open1 := !c1, open2 := !c2, high1 := c1, high2 := c2, shown1 := c1, shown2 := c2, openCond := !(c1 && c2) }

/-- The channels after their full self-test: those that fail are withdrawn and test again (R389). -/
def chansStill (i : BootIn) : List Channel3 :=
  [0, 1, 2].map fun c => if i.chans.getD c false then { state := .voting } else { state := .withdrawn, leftFc := 12 }

/-- Phase 6: inputs, STARTUP, the test of the switches. -/
def phase6 (i : BootIn) (s : State) : State :=
  let s : State := { s with
    stop.chans := chansStill i
    stop.slA := slStill s.p.stopCfg.modeA i.a1 i.a2
    stop.slB := slStill s.p.stopCfg.modeB i.b1 i.b2 }
  let s := if s.stop.slA.openCond then latchSite 0 true s else s
  let s := if s.stop.slB.openCond then latchSite 1 true s else s
  let s := if s.p.stopCfg.startPolicy = 2 then latchSite 12 false s else s
  if i.slout then s else outputFaulty s

/-! ### Phase 7: reported time (R22, R147) -/

/-- Reported time at the reading, ERR_EST, STATE and REF_SOURCE from the first valid source. -/
def bootTime (i : BootIn) (kind : Nat) (bkLost : Bool) (t : TimeRecord) : Nat × Nat × TimeState × Nat :=
  if !isCold kind && t.recorded then
    let gap := (i.bridge + 2 ^ 48 - t.bridge % 2 ^ 48) % 2 ^ 48 * 1664
    let e := if t.errEst = 0xFFFFFFFF then t.errEst else sat 32 (errGrowth (sat 32 (t.errEst + 26)) 500000 0 (cdiv gap 512))
    (t.time + gap, e, if t.state == .acquiring || t.state == .locked || t.state == .holdover then .holdover else .unaligned, 4)
  else if bkLost then (0, 0xFFFFFFFF, .unaligned, 0)
  else
    let g := cdiv (i.rtc - t.rtc) 32768
    let e := if t.errEst = 0xFFFFFFFF then t.errEst else sat 32 (t.errEst + 31000 + 25000 * g)
    (rtcTime i.rtc, e, .unaligned, 5)

/-- The boundary that ends phase 7 falls on the next whole 10 ms of reported time (R22); no source before it is reported. -/
def phase7 (i : BootIn) (bkLost : Bool) (s : State) : State :=
  let (t0, e, st, src) := bootTime i s.mode.lastKind bkLost s.p.timeRec
  let n := cdiv t0 ftuPerFc
  let t := n * ftuPerFc
  let b := i.counter + BitVec.ofNat 64 (t - t0)
  { s with
    bk.rtc := i.rtc
    clk.running := true
    clk.boundary := b
    clk.fcPhase := b.toNat % ftuPerFc
    clk.fcNumber := n
    clk.fcLen := 1248000
    clk.window := .latch
    clk.firstFc := true
    time.state := st
    time.source := src
    time.errEst := e
    time.entryErr := e
    time.entryAt := b
    time.rtcAt := i.rtc
    time.entryTempMk := i.boardMk
    time.boardTempMk := i.boardMk
    time.phaseDrift := 0
    time.bridge := (i.bridge + 2 ^ 48 - i.counter.toNat / 1664 % 2 ^ 48) % 2 ^ 48
    time.regs := { fc := n, boundary := b, offset := BitVec.ofNat 64 t - b, era := eraOf t, anchor := b, rate := 0
                   state := st, source := src, errNs := e, pending := 0, drift := 0 } }

/-! ### The end of STILL (R110) -/

/-- The mode in which the first FC after STILL begins, and its ENTRY_CAUSE. -/
def firstMode (ctrl : Bool) (s : State) : Mode × Nat :=
  if !ctrl then (.fog, 0x0B) else if siteValid s then (.calm, 0x01) else (.tender, 0x0D)

/-- The mode governs, the vote is established, the lead is taken, and work that needs FC_NUMBER is done (R312, R392). -/
def enterFirst (ctrl : Bool) (s : State) : State :=
  let (m, c) := firstMode ctrl s
  let s : State := { s with
    mode := { cur := m, cause := c, entryFc := fcNow s, fogCause := if m == .fog then c else 0, lastKind := s.mode.lastKind,
              stillPhase := 0, ctrlUnreadable := !ctrl }
    p.unreadable := !ctrl
    com.booting := ctrl
    sec.evBits := s.bk.unreported }
  let s := restoreHolds (rollNow (canStart s))
  let s := (s.p.robots.map (·.1)).foldl robotStill s
  let s := { s with stop.lead := leadFor s }
  driveSwitches { s with stop.voted := voteOf s }

/-- Phases 3 to 7 with the slot that boots. -/
def finishStill (i : BootIn) (b : Bool) (s : State) : State :=
  let lost := s.bk.lost
  let s := slotChosen b s
  let s := if i.ctrl then phase5 i s else phase5Fault s
  enterFirst i.ctrl (phase7 i lost (phase6 i (rebuild s)))

/-- Boot from phase 3 on. -/
def bootFrom (i : BootIn) (first : Bool) (s : State) : State :=
  match trySlots i first (bootOrder s) s with
  | (some b, s) => finishStill i b s
  | (none, s) => bootFailed s

/-- STILL_COMPLETE (R110, R114, R115): what the phases find; the first FC after STILL begins, unless both slots fail. -/
def opStillComplete (i : BootIn) (s : State) : State := if s.mode.cur == .still && !s.upd.dfu then bootFrom i true s else s

def execStillComplete (i : BootIn) (s : State) : Host.Outcome State Fault Refusal := .next (opStillComplete i s)

/-- BOOT_RETRY (R115): with both slots failed, phase 3 is tried again every 10 s. -/
def opBootRetry (i : BootIn) (s : State) : State := if s.mode.cur == .still && s.upd.dfu then bootFrom i false s else s

def execBootRetry (i : BootIn) (s : State) : Host.Outcome State Fault Refusal := .next (opBootRetry i s)

/-- DFU_DOWNLOAD (R513): a package with its capsule appended is checked and written to slot A as TRIAL, and the device resets. -/
def opDfuDownload (p : Bytes) (s : State) : State :=
  let len := p.length - 88
  let b := p.take len
  let capsule := p.drop len
  if s.mode.cur != .still || !s.upd.dfu || p.length < 89 || decide (67100672 < len) then s
  else if verifyPkg s b capsule len != stOk || !capsuleGood s (slice b 40 16) capsule then s
  else
    let floor := rollbackFloor s
    let seq := max s.flash.a.seq s.flash.b.seq + 1
    resetDevice (modSlot s false fun x => { x with
      state := 2
      trial := 0
      seq := seq
      floor := floor
      capsule := capsule
      pkg := pkgInfo b
      body := b }) 6

def execDfuDownload (p : Bytes) (s : State) : Host.Outcome State Fault Refusal := .next (opDfuDownload p s)

end Sys2Proof.Machine
end

