-- ==== Sys2Proof/Machine/Faults.lean ====
section
/-! DEFINITION. Window overruns, core faults, fleet-core failure and uncorrectable memory errors (R33, R34, R394, R565). -/

namespace Sys2Proof.Machine

open Sys2Proof

/-! ### Fleet cores (R33, R394) -/

/-- The standby FLT: core 3 or 4. -/
def standbyCore (s : State) : Nat := 4 - s.cores.active

/-- The active FLT fails in this FC: the standby becomes active at the end of GUARD, and work not yet persisted is redone;
without a ready standby both have failed and a WATCHDOG reset follows (R116, R394). -/
def fltFailed (s : State) : State :=
  if s.cores.nextActive.isSome then s
  else if !s.cores.standbyReady then { s with mode.resetAt := some 2 }
  else
    let s : State := { s with
      cores.nextActive := some (1 - s.cores.active)
      cores.redo := !s.com.persisted
      p.diag.failovers := inc32 s.p.diag.failovers
      stop.evs.flt := s.stop.evs.flt ++ [(1 - s.cores.active, 2, fcNow s + 1)] }
    if s.com.persisted then s
    else { s with com.recs := s.com.recs.map fun j => if j.interrupt = 0 then { j with interrupt := intFailover } else j }

/-! ### The action of an overrun (R33) -/

/-- Positions of the FC are released with the not-valid flag, and POS's other results of the FC are discarded. -/
def voidPositions (s : State) : State :=
  { s with
    sess.robots := tmap s.sess.robots fun _ x => if x.pos.fc = fcNow s then { x with pos := { x.pos with valid := false } } else x
    buoy.fixes := []
    ref.rtcmOut := []
    ref.corrOut := none }

/-- A safety channel withdraws, as for a failed self-test. The token block it has in hand in SAFE goes no further round the ring,
so no beacon is formed (R33, R379). -/
def safOverrun (c : Nat) (s : State) : State :=
  let s : State := if s.clk.window == .safe then { s with stop.token := none } else s
  match (chanAt s c).state with
  | .voting => changeStop s 124802 (withdraw c 3 0)
  | .rejoining => changeStop s 124802 (withdraw c 3 0)
  | _ => modSaf s c fun x => { x with testPassed := false }

/-- The operation SEC has in hand: a fresh statement, then a key change, then an image under verification. -/
def failSec (s : State) : State :=
  let e : Ending := ⟨intNone, stInterrupted⟩
  let only (q : Request) : Request → Bool := fun r => r == q
  match s.sec.fresh, s.sec.change, s.upd.finish with
  | q :: _, _, _ => endFresh (only q) e s
  | [], c :: _, _ => endChanges (only c.req) e s
  | [], [], some (_, _, q) => endUpdFinish (only q) e s
  | _, _, _ => s

/-- SEC retries its chunk in the next FC, and an image under verification takes one FC longer; a second consecutive overrun
fails the operation. -/
def secOverrun (s : State) : Nat × State :=
  if s.cores.secOver then (6, s)
  else if s.cores.secRun = 0 then
    (6, { s with
      cores.secOver := true
      cores.secRun := 1
      upd.finish := s.upd.finish.map fun f => if s.upd.verified.isNone then (f.1 + 1, f.2.1 + 1, f.2.2) else f })
  else (7, failSec { s with cores.secOver := true, cores.secRun := 0 })

/-- ACTION and effect of an overrun of a core (R33, R565). -/
def overrunAction (s : State) (core : Nat) : Nat × State :=
  if core ≤ 2 then (1, safOverrun core s)
  else if core = 3 + s.cores.active then (2, fltFailed s)
  else if core ≤ 4 then (3, { s with cores.standbyReady := false, cores.notReady := true })
  else if core = 5 then (4, voidPositions { s with cores.posInvalid := true })
  else if core = 6 then (5, { s with cores.txSkipped := true })
  else secOverrun s

/-- An overrun of a core in a window: counted, reported and acted on. -/
def overrun (s : State) (core : Nat) (w : Window) : State :=
  let (a, s) := overrunAction s core
  { s with
    cores.overruns := lmod s.cores.overruns core inc32
    cores.overrunFcs := fcNow s :: s.cores.overrunFcs.filter fun f => decide (fcNow s < f + dayFc)
    cores.overEvs := s.cores.overEvs ++ [(core, windowCode w, a, fcNow s)] }

/-- WINDOW_OVERRUN (R33): a core still works when its window ends. -/
def opWindowOverrun (core : Nat) (w : Window) (s : State) : State :=
  if running s && s.clk.window == w then overrun s core w else s

def execWindowOverrun (core : Nat) (window : Window) (s : State) : Host.Outcome State Fault Refusal :=
  if core < 8 then .next (opWindowOverrun core window s) else .fault .noSuchUnit

/-! ### Memory errors (R34) -/

/-- One more uncorrectable error of a block in the order of R567. -/
def countUncorrected (s : State) (k : Nat) : State := { s with p.diag.mem := lmod s.p.diag.mem (2 * k + 1) inc32 }

/-- One more corrected error of a block, in the order of R567; the STRT SRAM has no ECC (R34, R566). -/
def countCorrected (s : State) (block : Nat) : State :=
  let k := if block = 1 then some 0 else if block = 4 then some 1 else if block = 2 then some 2 else if block = 5 then some 3
    else if block = 6 then some 4 else none
  match k with
  | none => s
  | some k => { s with p.diag.mem := lmod s.p.diag.mem (2 * k) inc32, cores.eccReset := inc32 s.cores.eccReset }

/-- EV_MEMORY_FAULT of the FC. -/
def memEvent (s : State) (f : MemFault) : State := { s with cores.memEvs := s.cores.memEvs ++ [f] }

/-- A core faults: handled as its overrun, then reloaded; the second core of an FC resets the device (R34, R110, R116). -/
def coreFault (s : State) (core : Nat) (w : Window) : State :=
  let s := overrun s core w
  let s := countReload { s with cores.faulted := s.cores.faulted.filter (· != core) ++ [core] } core
  if 2 ≤ s.cores.faulted.length then { s with mode.resetAt := some 2 }
  else if core ≤ 2 then s
  else
    let s : State := { s with
      cores.reload := s.cores.reload.filter (fun e => e.1 != core) ++ [(core, fcNow s + reloadFcs core)] }
    if core ≤ 4 then s else trigger { s with mode.veerCore := some core } (.coreReload core)

/-- An entry of the presence table is not valid; one learnt from the air is not restored. -/
def rptFault (s : State) (k : Nat) : State :=
  if (rptAt s k).enrolled then modRpt s k fun x => { x with valid := false } else { s with sess.rpt := tdel s.sess.rpt k }

/-- Mark an entry of a table not valid, by TABLE_ID: 2 robot sessions, 3 tasks, 4 classes, 5 presence, 6 anchor contexts, 7 host
sessions (R34). PRESUMED: R571 numbers the presence table 5; the others follow in the order the memory table lists them. -/
def tableFault (s : State) (table k : Nat) : State :=
  let s : State := if table = 7 then s else { s with cores.restore := s.cores.restore.filter (· != (table, k)) ++ [(table, k)] }
  match table with
  | 2 => { s with p.robots := tdel s.p.robots k, sess.robots := tdel s.sess.robots k }
  | 3 => { s with p.tasks := tdel s.p.tasks k }
  | 4 => { s with p.classes := tdel s.p.classes k, allot.classNow := tdel s.allot.classNow k }
  | 5 => rptFault s k
  | 6 => { s with p.anchors := tdel s.p.anchors k, buoy.ctx := tdel s.buoy.ctx k }
  | _ => dropSession s k false

/-- An entry taken back from the persistent session (R34): what MRAM holds of it. -/
def rptRestored (s : State) (k : Nat) : State :=
  let x := rptAt s k
  if (robotRec s x.session).sstate == .free || x.valid then s
  else { s with sess.rpt := tput s.sess.rpt k { eui := (robotRec s x.session).eui, session := x.session, valid := true, enrolled := true } }

/-- An entry as MRAM holds it. -/
def tback {α : Type} (nv now : Tbl α) (k : Nat) : Tbl α := match tget nv k with | some x => tput now k x | none => now

/-- One entry restored from MRAM: a robot's association is lost with its session, as in a reset (R34, R266). -/
def restoreOne (s : State) (e : Nat × Nat) : State :=
  let k := e.2
  match e.1 with
  | 2 => robotStill { s with p.robots := tback s.nv.robots s.p.robots k } k
  | 3 => { s with p.tasks := tback s.nv.tasks s.p.tasks k }
  | 4 => { s with p.classes := tback s.nv.classes s.p.classes k, allot.classNow := tback s.nv.classes s.allot.classNow k }
  | 5 => rptRestored s k
  | _ => { s with p.anchors := tback s.nv.anchors s.p.anchors k, buoy.ctx := tback s.nv.anchors s.buoy.ctx k }

/-- The boundary restores what the FC before found not valid. -/
def restoreTables (s : State) : State := { s.cores.restore.foldl restoreOne s with cores.restore := [] }

/-- What PERSIST writes: an entry that is not valid leaves what MRAM holds of it. -/
def keepFaulted (s : State) : Mram :=
  s.cores.restore.foldl (fun (p : Mram) e =>
    match e.1 with
    | 2 => { p with robots := tback s.nv.robots p.robots e.2 }
    | 3 => { p with tasks := tback s.nv.tasks p.tasks e.2 }
    | 4 => { p with classes := tback s.nv.classes p.classes e.2 }
    | 6 => { p with anchors := tback s.nv.anchors p.anchors e.2 }
    | _ => p) s.p

/-- The search of a unit fails and is issued again once, in the next FC. -/
def searchFault (s : State) (unit : Nat) : State :=
  { s with allot.reqs := s.allot.reqs.map fun q =>
      if q.stage == .searching && q.unit == unit then
        (if q.lost then { q with stage := .carried } else { q with stage := .queued, lost := true, fromFc := fcNow s + 1 })
      else q }

/-- Table reads served from the capture buffers end with ST_INTERRUPTED. -/
def captureFault (s : State) : State :=
  (openSlots s).foldl (fun s slot =>
    let l := ((sessionAt s slot).map (·.streams)).getD []
    let hit := l.filter fun x => x.head.opcode == 0x0F20
    let s := modSession s slot fun e => { e with streams := e.streams.filter fun x => x.head.opcode != 0x0F20 }
    { s with com.replies := s.com.replies ++ hit.map fun x => { x.head with flags := fFinal, status := stInterrupted, payload := [] } }) s

/-- The image download in staging fails. -/
def stagingFault (s : State) : State :=
  let s := endUpdFinish (fun _ => true) ⟨intNone, stInterrupted⟩ s
  if s.upd.state != 1 then { s with upd.staged := false }
  else setUpd { s with
    upd.blocks := []
    upd.staged := false } 0 0x0A

/-- DRAM: a spilled queue is reset; a capture or a download fails. -/
def dramFault (s : State) (f : MemIn) : State :=
  match qParam f.unit with
  | some p => memEvent (faultQueue s f.unit p 2 f.reading) { block := 5, unit := f.unit, outcome := 4 }
  | none => memEvent (if f.index = 0 then captureFault s else stagingFault s) { block := 5, unit := 0, outcome := 5, index := f.index }

/-- The records of the journal or the event log in a slot that neither copy yields (R119). -/
def markUnread (f : MemIn) (c : Control) : Control :=
  { c with
    badRecs := if f.unit = 1 then c.badRecs ++ ((c.journal.map (·.recId)).filter fun i => i % 40960 == f.index) else c.badRecs
    badLogs := if f.unit = 2 then c.badLogs ++ ((c.eventLog.map (·.logSeq)).filter fun i => i % 12288 == f.index) else c.badLogs }

/-- MRAM: the duplicate is used; a write that fails a second time breaks PERSIST; a record neither copy yields leads to FOG (R34,
R98). -/
def mramFault (s : State) (f : MemIn) : State :=
  if f.writing then persistBroken s else
  let s := countUncorrected s 4
  if f.both then
    memEvent (trigger { s with
      p.unreadable := true
      p.control := markUnread f s.p.control
      nv.control := markUnread f s.nv.control } .mramFault) { block := 6, outcome := 7, index := f.index }
  else memEvent { s with cores.repairs := inc32 s.cores.repairs } { block := 6, outcome := 6, index := f.index }

/-- Write a way as it now reads; the first read of it finds a CHK that fails (R303). -/
def wayFault (s : State) (f : MemIn) : State :=
  { s with strt.ways := putWay s.strt.ways f.index f.word }

/-- MEMORY_FAULT (R34): a single-bit error is corrected and counted; an uncorrectable one has the outcome of its block. -/
def opMemoryFault (f : MemIn) (s : State) : State :=
  if !running s then s
  else if f.corrected then countCorrected s f.block
  else match f.block with
  | 1 => memEvent (countUncorrected (coreFault s f.unit f.window) 0) { block := 1, unit := f.unit, outcome := 1 }
  | 2 => memEvent (countUncorrected (tableFault s f.unit f.index) 2) { block := 2, unit := f.unit, outcome := 2, index := f.index }
  | 3 => wayFault s f
  | 4 => memEvent (countUncorrected (searchFault s f.unit) 1) { block := 4, outcome := 3 }
  | 5 => dramFault (countUncorrected s 3) f
  | _ => mramFault s f

/-- Entries of a table in table SRAM. -/
def tableSize (table : Nat) : Nat :=
  match table with
  | 2 => 256
  | 3 => 4096
  | 4 => 32
  | 5 => 4096
  | 6 => 10
  | 7 => 4
  | _ => 0

/-- The error names a unit the device has. -/
def memUnitOk (f : MemIn) : Bool :=
  match f.block with
  | 1 => decide (f.unit < 8)
  | 2 => decide (f.index < tableSize f.unit)
  | 3 => decide (f.index < 262144)
  | 4 => decide (f.unit < 4)
  | 5 => (qParam f.unit).isSome || f.unit == 0xFF
  | 6 => true
  | _ => false

def execMemoryFault (f : MemIn) (s : State) : Host.Outcome State Fault Refusal :=
  if memUnitOk f then .next (opMemoryFault f s) else .fault .noSuchUnit

end Sys2Proof.Machine
end

