-- ==== Sys2Proof/Machine/Persist.lean ====
section
/-! DEFINITION. What PERSIST writes: the journal of the FC, the control block, and both MRAM copies (R95 to R100, R69, R98). -/

namespace Sys2Proof.Machine

open Sys2Proof

/-! ### The journal (R96 to R100) -/

/-- In the first PERSIST after a reset every LATCHED record of the boot before is finalised (R100). -/
def finalise (s : State) : State :=
  if !s.com.booting then s else
  { s with p.control.journal := s.p.control.journal.map fun j =>
      if j.final then j
      else { j with final := true, interrupt := intReset, status := stInterrupted, finalFc := fcNow s } }

/-- A new record finds a slot of the ring: a free one, or the oldest that may be reused (R99). -/
def slotFree (s : State) : Bool :=
  decide (s.p.control.journal.length < 40960) || ((s.p.control.journal.head?.map (reusable s)).getD false)

/-- A record takes its place: of its command's, or the next slot of the ring (R96, R97). -/
def writeRec (s : State) (j : JournalRec) : State :=
  let (l, id) := mergeRec s.p.control.journal s.p.control.recId j
  { s with p.control.recId := id, p.control.journal := l.drop (l.length - 40960) }

/-- A record can be written now: it rewrites its own, or finds a slot. -/
def canWrite (s : State) (j : JournalRec) : Bool := (s.p.control.journal.any fun x => sameCommand x j) || slotFree s

/-- Write a command's record; without a slot it waits for the next PERSIST. -/
def writeCmdRec (s : State) (j : JournalRec) : State :=
  if canWrite s j then writeRec s j else { s with com.recs := s.com.recs ++ [j] }

/-- Write an origin's record; without a slot it waits for the next PERSIST. -/
def writeInternal (s : State) (e : InternalRec) : State :=
  if slotFree s then writeRec s (internalRecord e) else { s with com.internal := s.com.internal ++ [e] }

/-- Event-log records of the FC: at most 2,048, the rest carried (R97). -/
def writeLogs (s : State) : State :=
  let now := s.com.logs.take 2048
  let rest := s.com.logs.drop 2048
  let s := now.foldl (fun s e =>
    let id := s.p.control.logSeq + 1
    let l := s.p.control.eventLog ++ [{ e with logSeq := id }]
    { s with p.control.logSeq := id, p.control.eventLog := l.drop (l.length - 12288) }) s
  { s with com.logs := rest, cores.jrnlCarried := sat 32 (s.cores.jrnlCarried + rest.length) }

/-- The journal of the FC: the records of commands, of those that wait, and of each origin's commits, then the event log (R97). -/
def writeJournal (s : State) : State :=
  let cmds := s.com.recs ++ (s.edtor.latched.filter (unrecorded s)).map (waitingRec s)
  let own := s.com.internal
  let s := cmds.foldl writeCmdRec { finalise s with com.recs := [], com.internal := [] }
  writeLogs (own.foldl writeInternal s)

/-! ### PERSIST (R12, R68, R69, R98, R147, R393) -/

/-- The control block and the time record of the FC (R68, R95, R147). -/
def writeControl (s : State) : State :=
  { s with
    p.control.mode := modeCode s.mode.cur
    p.control.returnMode := (s.mode.ret.map modeCode).getD 0xFF
    p.control.lastCsn := s.com.csn
    p.control.csnCeiling := if s.p.control.csnCeiling - s.com.nextCsn < 2 ^ 23 then s.p.control.csnCeiling + 2 ^ 24 else s.p.control.csnCeiling
    p.timeRec := { s.p.timeRec with
      recorded := true
      bridge := (s.time.bridge + s.clk.boundary.toNat / 1664) % 2 ^ 48
      time := nowTime s
      rtc := s.time.rtcAt
      state := s.time.state
      errEst := errNow s } }

/-- The standby confirms the state (R393), unless it is away, being tested, or was left not ready. -/
def confirmStandby (s : State) : State :=
  let back := match s.upd.act.bind (·.c) with
    | some c => fcNow s == c + 10
    | none => false
  let away := (reloading s (standbyCore s) && !back) || s.cores.notReady || s.cores.tests.any fun t => t.target == 0x23
  if away then s else { s with cores.lastGood := fcNow s }

/-- Everything persistent reaches both copies; what waited for it is eligible (R69, R413). -/
def completePersist (s : State) : State :=
  let s := confirmStandby (writeControl (writeJournal (persistTrial (raiseAirCeilings s))))
  { s with
    nv := keepFaulted s
    com.persistedFc := fcNow s
    com.persisted := true
    com.persistDue := false
    com.persistFails := 0
    com.booting := false
    com.withheld := false }

/-- PERSIST ends: unless it was broken, or the active FLT failed in it, it has completed (R69, R98, R394). -/
def settlePersist (s : State) : State :=
  if !s.com.persistDue then s
  else if fltAway s then { s with com.persistDue := false, com.withheld := true }
  else completePersist s

end Sys2Proof.Machine
end

