-- ==== Sys2Proof/Machine/Cycle.lean ====
section
/-! DEFINITION. The fleet cycle up to SOLVE: the time step (R143, R145), the FC boundary, SAFE and SOLVE (R21 to R32). -/

namespace Sys2Proof.Machine

open Sys2Proof

/-! ### Windows (R24, R26, R145) -/

/-- Open a window: what firmware asked of the safety channels in the window before takes effect (R26, R365). -/
def openWindow (s : State) (w : Window) : State :=
  let s := { s with clk.window := w }
  applyRequests s (windowStart s w)

/-- A window is entered once, in the order of R24. -/
def entersWindow (s : State) (w : Window) : Bool := running s && decide (windowCode s.clk.window < windowCode w)

/-- In STILL the windows run without firmware work (R24). -/
def passWindow (s : State) (w : Window) : State :=
  if s.mode.cur == .still && decide (windowCode s.clk.window < windowCode w) then { s with clk.window := w } else s

/-! ### Counting over a step (R145, R279)

Durations count fleet cycles. A step changes FC_NUMBER, so each FC_NUMBER kept for a duration is shifted by the change. -/

/-- An FC_NUMBER shifted. -/
def shiftFc (d : Int) (x : Nat) : Nat := ((x : Int) + d).toNat

/-- Sessions, journal timing and self-tests. -/
def shiftSessions (d : Int) (s : State) : State :=
  let f := shiftFc d
  { s with
    edtor.sessions := tmap s.edtor.sessions fun _ e => { e with
      renewFc := f e.renewFc
      rtcmSub := e.rtcmSub.map f
      fixSub := e.fixSub.map f
      canSub := e.canSub.map (·.map f) }
    com.persistedFc := f s.com.persistedFc
    cores.lastGood := f s.cores.lastGood
    cores.reload := s.cores.reload.map fun e => (e.1, f e.2)
    cores.overrunFcs := s.cores.overrunFcs.map f
    cores.tests := s.cores.tests.map fun t => { t with endFc := f t.endFc }
    strt.snaps := s.strt.snaps.map fun x => { x with fc := f x.fc }
    time.triggers := tmap s.time.triggers fun _ g => { g with armedFc := f g.armedFc }
    upd.finish := s.upd.finish.map fun e => (f e.1, f e.2.1, e.2.2)
    upd.act := if s.upd.state = 4 then s.upd.act else s.upd.act.map fun v => { v with a := f v.a, c := v.c.map f } }

/-- Anchor links. -/
def shiftAnchor (f : Nat → Nat) (a : AnchorLive) : AnchorLive :=
  { a with
    faultFc := a.faultFc.map f
    micFcs := a.micFcs.map f
    reportFcs := a.reportFcs.map f
    relayUntil := a.relayUntil.map f
    relay := a.relay.map fun v => { v with ackFc := f v.ackFc } }

/-- References and anchors. -/
def shiftLinks (d : Int) (s : State) : State :=
  let f := shiftFc d
  { s with
    gnss.cal := s.gnss.cal.map fun c => { c with endFc := f c.endFc }
    gnss.chans := tmap s.gnss.chans fun _ x => { x with searchFc := f x.searchFc }
    ref.siteDue := s.ref.siteDue.map f
    ref.survey := s.ref.survey.map fun v => { v with startFc := f v.startFc }
    buoy.anchors := tmap s.buoy.anchors fun _ a => shiftAnchor f a
    buoy.relayCmd := s.buoy.relayCmd.map fun c => { c with doneFc := c.doneFc.map f }
    buoy.reports := s.buoy.reports.map fun b => { b with fc := f b.fc, gotFc := f b.gotFc }
    buoy.periods := s.buoy.periods.map fun e => (e.1, f e.2.1, e.2.2.1, f e.2.2.2)
    buoy.deadlines := s.buoy.deadlines.map fun e => (f e.1, e.2.1, f e.2.2)
    buoy.fixFcs := s.buoy.fixFcs.map f
    buoy.cal := s.buoy.cal.map fun c => { c with endFc := f c.endFc } }

/-- Robots and tasks; LAST_HEARD_FC as R279 says. -/
def shiftRobots (d : Int) (s : State) : State :=
  let f := shiftFc d
  let e := d / 5
  { s with
    sess.robots := tmap s.sess.robots fun _ x => { x with
      respFc := f x.respFc
      lastHeard := f x.lastHeard
      wakeFc := x.wakeFc.map f
      moveFc := x.moveFc.map f
      rtk := x.rtk.map fun v => { v with fc := f v.fc }
      fix := x.fix.map fun v => { v with fc := f v.fc }
      pos := { x.pos with fc := f x.pos.fc, validFc := f x.pos.validFc } }
    sess.rpt := tmap s.sess.rpt fun _ x => { x with lastHeard := (((x.lastHeard : Int) + d) % (2 ^ 32 : Nat)).toNat }
    p.tasks := tmap s.p.tasks fun _ t => { t with stateFc := f t.stateFc }
    allot.plans := tmap s.allot.plans fun _ p => { p with
      haltedFc := p.haltedFc.map f
      evFc := p.evFc.map f
      doneSlot := p.doneSlot.map (shiftFc e) }
    allot.posts := s.allot.posts.map fun q => { q with firstFc := f q.firstFc } }

/-- One radio. -/
def shiftOne (d : Int) (x : OneRadio) : OneRadio :=
  let f := shiftFc d
  { x with
    queue := x.queue.map fun q => { q with slot := shiftFc (4 * d) q.slot, commitFc := f q.commitFc }
    startupUntil := x.startupUntil.map f
    testFrom := f x.testFrom
    testUntil := x.testUntil.map f
    busyUntil := shiftFc (4 * d) x.busyUntil }

/-- Stop path, radio and CAN. -/
def shiftStop (d : Int) (s : State) : State :=
  let f := shiftFc d
  { s with
    stop.chans := s.stop.chans.map fun c => { c with rejoins := c.rejoins.map f }
    stop.arms := s.stop.arms.map fun a => { a with fc := f a.fc }
    stop.stopFrom := shiftFc (4 * d) s.stop.stopFrom
    stop.stopTarget := shiftFc (4 * d) s.stop.stopTarget
    stop.stopUntil := shiftFc (4 * d) s.stop.stopUntil
    radio.a := shiftOne d s.radio.a
    radio.b := shiftOne d s.radio.b
    radio.elements := s.radio.elements.map fun x => { x with fc := f x.fc, commitFc := f x.commitFc }
    can := s.can.map fun c => { c with
      busoffs := c.busoffs.map f
      sleepDue := c.sleepDue.map f
      txq := c.txq.map fun t => { t with releasedFc := t.releasedFc.map f }
      stopBuf := c.stopBuf.map fun t => { t with releasedFc := t.releasedFc.map f } } }

/-- Every FC_NUMBER kept for a duration, shifted by a step's change. -/
def shiftAll (d : Int) (s : State) : State := shiftStop d (shiftRobots d (shiftLinks d (shiftSessions d s)))

/-! ### The step (R143, R145) -/

/-- The boundary that ends the FC in progress. -/
def nextBoundary (s : State) : Counter := counterAt s s.clk.fcLen

/-- The time state after a step (R143): ACQUIRING with the reference it corrected, UNALIGNED after a host's value. -/
def stepState (s : State) (q : StepReq) : State :=
  let g := { s.time.gnss with lastX := s.time.gnss.lastX + q.ftu }
  let p : RefQual := { s.time.pps with
    lastX := s.time.pps.lastX + q.ftu
    lastTime := s.time.pps.lastTime.map fun t => ((t : Int) + q.ftu).toNat }
  let s := { s with
    time.gnss := g
    time.pps := p
    time.pending := 0
    time.nextRate := none
    time.phaseDrift := 0
    time.run := 0
    time.last10 := []
    time.lockedFc := 0 }
  if q.fromPending && s.time.ref.isSome then
    { s with time.state := .acquiring, time.nextState := none, time.errEst := refUnc s.time.ref }
  else if q.fromPending then s
  else { s with
    time.state := .unaligned
    time.nextState := none
    time.source := 3
    time.ref := none
    time.entryErr := q.errNs
    time.entryF0Slow := false
    time.entryAt := nextBoundary s
    time.entryTempMk := s.time.boardTempMk
    time.dTempMk := 0 }

/-- Apply a step at the boundary to come (R145). -/
def applyStep (s : State) (q : StepReq) : State :=
  let b := nextBoundary s
  let s := latchReferences s b
  let t := ((fullTime s.time.regs b : Int) + q.ftu).toNat
  let s := stepState s q
  { s with
    time.step := none
    time.history := (s.time.regs :: s.time.history).take 999
    time.regs := { s.time.regs with
      fc := fcOfTime t
      boundary := b
      anchor := b
      rate := 0
      offset := BitVec.ofNat 64 t - b
      era := eraOf t }
    upd.act := s.upd.act.map fun v => { v with stepped := true } }

/-- STEP (R145): at the boundary after the FC that executed it. -/
def opStep (s : State) : State :=
  match s.time.step with
  | some q => if running s && s.clk.window == .guard then applyStep s q else s
  | none => s

def execStep (s : State) : Host.Outcome State Fault Refusal := .next (opStep s)

/-- Length of a step FC: it ends at a whole 10 ms of the new reported time (R145). -/
def stepFcLen (s : State) : Nat :=
  let t := nowTime s
  min 1871999 (((fcNow s + 1) * ftuPerFc - t + 256) / 512)

/-- The boundary that opens a step FC: the registers are those the step left (R145). -/
def stepBoundary (s : State) (b : Counter) (board encl : Int) : State :=
  let old := fcNow s
  let t := fullTime s.time.regs b
  let s := enterTimeState { s with
    clk.boundary := b
    clk.fcNumber := fcOfTime t
    time.boardTempMk := board
    time.enclTempMk := encl
    time.stepFc := true }
  let s := settleTime s board
  let s := { s with clk.fcLen := stepFcLen s }
  let s := { s with clk.fcPhase := (nextBoundary s).toNat % ftuPerFc }
  selectReference (shiftAll ((fcNow s : Int) - (old + 1)) s)

/-- LATCH of a step FC: every timed entry is freed, every DWELL takes the stamp, and every standing hold begins (R311). -/
def stepTable (s : State) : State :=
  if !s.time.stepFc then s else
  activateHolds { s with
    strt.ways := (s.strt.ways.filter fun e => !holds e.2 || isStanding (eKind e.2)).map fun e =>
      (e.1, if holds e.2 && eKind e.2 == kDwell then reEntry e.2 kDwell (fcNow s % 4096) else e.2)
    holds := tmap s.holds fun _ h =>
      if h.timed || h.active then h else { h with activeSlot := min h.activeSlot (slotNow s) } }

/-! ### The FC boundary (R21 to R25, R29, R30) -/

/-- The hand-over to the standby FLT at the end of GUARD (R394). -/
def handOver (s : State) : State :=
  match s.cores.nextActive with
  | none => s
  | some a =>
    let old := 3 + s.cores.active
    { s with
      cores.active := a
      cores.resultsFrom := a
      cores.standbyReady := false
      cores.nextActive := none
      cores.redo := false
      cores.reload := if s.cores.reload.any fun e => e.1 == old then s.cores.reload else s.cores.reload ++ [(old, fcNow s + 1)] }

/-- What the FC that ends leaves for the next: core states and counts of the FC. -/
def closeFc (s : State) : State :=
  let s := settlePersist s
  let s := handOver { s with cores.standbyReady := s.cores.lastGood == fcNow s && !s.cores.notReady }
  { s with
    cores.posInvalid := false
    cores.txSkipped := false
    cores.notReady := false
    cores.faulted := []
    cores.secRun := if s.cores.secOver then s.cores.secRun else 0
    cores.secOver := false
    com.persisted := false
    edtor.unitsUsed := 0
    strt.holdSets := 0
    clk.firstFc := false }

/-- Supply parameters set in the FC before apply, and the consecutive counts restart (R128). -/
def powerBoundary (s : State) : State :=
  if !s.supply.cfgDue then s else
  { s with supply.cfg := s.p.power, supply.cfgDue := false, supply.below := 0, supply.above := 0, mode.noSessionFc := 0 }

/-- The average of VIN of the FC that ends (R111, R120). -/
def supplyBoundary (s : State) (mv : Nat) : State :=
  let c := s.supply.cfg
  let below := if mv < c.lullEnter then s.supply.below + 1 else 0
  let above := if c.lullExit ≤ mv then s.supply.above + 1 else 0
  { s with
    supply.vinMv := mv
    supply.lastLow := decide (mv < c.lullEnter)
    supply.below := min c.enterFc below
    supply.above := min c.exitFc above
    supply.low := if s.supply.low then decide (above < c.exitFc) else decide (c.enterFc ≤ below) }

/-- Time, FC_NUMBER and the length of the FC that begins (R21 to R23, R133, R145). -/
def clockBoundary (s : State) (i : BoundaryIn) : State :=
  let s := match s.time.step with
    | some q => applyStep s q
    | none => s
  let b := nextBoundary s
  if s.time.regs.boundary = b then stepBoundary s b i.boardMk i.enclMk
  else
    let s := timeBoundary s b i.boardMk i.enclMk
    { s with clk.fcLen := 1248000 }

/-- Latch what the FC before captured: commands, rejections, triggers and events (R24, R25, R32). -/
def latchInputs (s : State) : State :=
  let n := fcNow s
  let mark : Request → Request := fun r => { r with latchFc := n }
  let s := latchLimits s
  { s with
    edtor.latched := s.edtor.latched ++ s.edtor.inbox.map mark
    edtor.faulted := s.edtor.faulted.map mark
    edtor.sessions := tmap s.edtor.sessions fun _ e => { e with
      outs := e.outs.map fun o => { o with latched := true }
      viol := List.replicate 11 0
      violDue := (e.violDue.zip e.viol).map fun v => sat 16 (v.1 + v.2) }
    edtor.ports := tmap s.edtor.ports fun _ c => { c with latched := [c.badSize, c.badHeader, c.noSession, c.authFail, c.replay] }
    edtor.inbox := []
    edtor.rejectsDue := s.edtor.rejectsDue ++ s.edtor.rejects
    edtor.rejects := []
    mode.triggers := s.mode.triggers ++ s.mode.later
    mode.later := []
    com.events := s.com.events ++ s.com.later.map fun v => { v with csn := s.com.csn }
    com.later := []
    mode.noSessionFc := if (openSlots s).isEmpty then s.mode.noSessionFc + 1 else 0
    queues := tmap s.queues fun _ k => { k with level := k.levelNext.getD k.level, levelNext := none } }

/-- The mode recorded takes effect, and ends what it withholds (R30, R100, R106, R109, R121). -/
def modeBoundary (s : State) (lull : Bool) : State :=
  let changed := s.mode.next.isSome
  let s := applyMode s (fcNow s)
  let s := if changed then endByMode s else s
  { s with supply.tenderLull := s.mode.cur == .tender && lull }

/-- T_AMB = T_ENCL - 0.45 K/W x P_INT, in 0.1 degree C (R552). -/
def ambientOf (i : BoundaryIn) : Int := (100 * i.enclMk - 45 * i.intMw) / 10000

/-- Sensors sampled in the FC that ends (R155, R535, R566). -/
def sensorBoundary (s : State) (i : BoundaryIn) : State :=
  { s with
    clk.ovenWarming := s.clk.ovenWarming && !i.oven
    bk.rtc := i.rtc
    time.rtcAt := i.rtc
    cores.cellMv := i.cellMv
    cores.vbakMv := i.vbakMv
    cores.tAmb := ambientOf i
    cores.tOcxo := i.boardMk / 100
    cores.tEncl := i.enclMk / 100
    cores.pInt := i.intMw
    ports.tloop := i.tloop }

/-- Every unit in LATCH. -/
def unitsBoundary (s : State) (i : BoundaryIn) : State :=
  let s := stepTable { s with strt.grid := s.p.grid }
  let s := latchPorts s
  let s : State := { s with supply.battery := decide (s.supply.cfg.batteryInput < 8) && inLevel s s.supply.cfg.batteryInput }
  let wasA := antState s 0
  let wasB := antState s 1
  let s := refBoundary (gnssBoundary s i.streams i.ants) wasA wasB
  let s := zonesBoundary (buoyBoundary s s.cores.tAmb i.podlMa)
  let s := stopBoundary s i.a1 i.a2 i.b1 i.b2 i.voters
  let s := radioBoundary s
  let s := if lnkAway s then s else canBoundary (latchRadio s)
  restoreTables (testsBoundary (updBoundary (keysBoundary s)))

/-- A boundary of STILL: they run from the end of clock lock at a provisional phase, and PROV_FC counts them from 0 (R21, R392). -/
def provBoundary (s : State) : State :=
  if s.mode.stillPhase < 3 then
    { s with mode.stillPhase := 3, stop.provFc := 0, clk.boundary := BitVec.ofNat 64 s.clk.fcPhase, clk.window := .latch }
  else { s with stop.provFc := s.stop.provFc + 1, clk.boundary := s.clk.boundary + BitVec.ofNat 64 ftuPerFc, clk.window := .latch }

/-- FC_BOUNDARY: the FC that runs ends and the next begins with LATCH. -/
def opFcBoundary (i : BoundaryIn) (s : State) : State :=
  if s.mode.cur == .still then provBoundary s else if !running s then s else
  let lull := lullCond s
  let s := closeFc s
  let s := sensorBoundary (clockBoundary s i) i
  let s := powerBoundary (openWindow s .latch)
  let s := supplyBoundary (checkLeases (latchInputs s)) i.vinMv
  noteAll (unitsBoundary (modeBoundary s lull) i)

def execFcBoundary (i : BoundaryIn) (s : State) : Host.Outcome State Fault Refusal := .next (opFcBoundary i s)

/-! ### SAFE -/

/-- SAFE_WINDOW: the safety channels' work of the FC (R24, R379, R387). -/
def opSafeWindow (i : SafeIn) (s : State) : State := if entersWindow s .safe then safeWork i (openWindow s .safe) else passWindow s .safe

def execSafeWindow (i : SafeIn) (s : State) : Host.Outcome State Fault Refusal := .next (opSafeWindow i s)

/-! ### SOLVE -/

/-- LEAP_S and its announced change from the navigation data (R136). -/
def takeLeap (s : State) (i : SolveIn) : State :=
  match i.leap with
  | some (n, next) => { s with p.timeRec.leapS := n, p.timeRec.leapNext := next }
  | none => s

/-- What POS does in SOLVE while it works (R174, R180, R241, R249, R273). -/
def posWork (s : State) (i : SolveIn) : State :=
  let s := solveEpoch (takeLeap s i)
  let s := releasePositions (prunePeriods (solveBlinks s))
  { s with gnss.assignNext := some (granted s i.sky) }

/-- The runs of R110's reference rows, counted in the modes they govern. -/
def countReferences (s : State) : State :=
  let bad := inModes s [.breeze, .drift] && !s.ref.corrValid && goodAnchors s == 0
  let run := if s.ref.corrValid then min 100 (s.mode.corrRun + 1) else 0
  let s := { s with mode.refLossRun := if bad then s.mode.refLossRun + 1 else 0, mode.corrRun := run }
  if s.mode.cur == .drift && timeDecided s == .locked && run == 100 then trigger s .referenceBack else s

/-- SOLVE_WINDOW (R24): LNK takes the reports of the FC, POS solves, and the references are counted. -/
def opSolveWindow (i : SolveIn) (s : State) : State :=
  if !entersWindow s .solve then passWindow s .solve else
  let s := openWindow s .solve
  let s := drainMsgs (drainMsgs s 0x28 applySleep) 0x20 applyReport
  let s := if posAway s then s else posWork s i
  countReferences (if s.cores.posInvalid then voidPositions s else s)

def execSolveWindow (i : SolveIn) (s : State) : Host.Outcome State Fault Refusal := .next (opSolveWindow i s)

end Sys2Proof.Machine
end

