-- ==== Sys2Proof/Machine/Windows.lean ====
section
/-! DEFINITION. COMMAND and PLAN: executing latched commands within their budget (R32, R60), the mode decision (R107), and
the work and commits of PLAN (R12, R97). -/

namespace Sys2Proof.Machine

open Sys2Proof

/-! ### Opcodes (R574) -/

/-- BUOY_RELAY with any ACTION (R259). -/
def opBuoyRelay (r : Request) (s : State) : State :=
  match fld r.payload 0 1 with
  | 1 => opBuoyRelayStart r s
  | 2 => opBuoyRelayActivate r s
  | 3 => opBuoyRelayAbort r s
  | _ => relayOp r s true fun _ s => finish s r stBadRange []

/-- 0x01xx (R574). -/
def opsSys : Nat → Option (Request → State → State)
  | 0x01 => some opSysIdentity
  | 0x02 => some opSysModeGet
  | 0x03 => some opSysModeSet
  | 0x04 => some opSysReset
  | 0x05 => some opSysPowerConfig
  | 0x20 => some opSysSessionOpen
  | 0x21 => some opSysSessionClose
  | 0x22 => some opSysSessionList
  | 0x30 => some opSysHostEnrol
  | 0x31 => some opSysHostRevoke
  | 0x32 => some opSysTenderClose
  | 0x40 => some opSysNetConfig
  | 0x41 => some opSysAuxConfig
  | 0x42 => some opSysAuxSet
  | 0x43 => some opSysPortStatus
  | _ => none

/-- 0x02xx (R574). -/
def opsTime : Nat → Option (Request → State → State)
  | 0x01 => some opTimeGet
  | 0x02 => some opTimeConfig
  | 0x03 => some opTimeStep
  | 0x10 => some opTimeTriggerSet
  | 0x11 => some opTimeTriggerGet
  | _ => none

/-- 0x03xx (R574). -/
def opsGnss : Nat → Option (Request → State → State)
  | 0x01 => some opGnssStatus
  | 0x02 => some opGnssConfig
  | 0x03 => some opGnssMeasRead
  | 0x05 => some opGnssNotchSet
  | 0x10 => some opGnssCalibrate
  | _ => none

/-- 0x04xx (R574). -/
def opsRef : Nat → Option (Request → State → State)
  | 0x01 => some opRefStatus
  | 0x02 => some opRefBaseSet
  | 0x03 => some opRefConfig
  | 0x10 => some opRefSurveyStart
  | 0x20 => some opRefRtcmSubscribe
  | _ => none

/-- 0x05xx (R574). -/
def opsBuoy : Nat → Option (Request → State → State)
  | 0x01 => some opBuoyStatus
  | 0x02 => some opBuoyAnchorSet
  | 0x03 => some opBuoyConfig
  | 0x10 => some opBuoyCalibrate
  | 0x20 => some opBuoyZoneSet
  | 0x30 => some opBuoyFixSubscribe
  | 0x40 => some opBuoyRelay
  | _ => none

/-- 0x06xx (R574). -/
def opsSess : Nat → Option (Request → State → State)
  | 0x02 => some opSessConfig
  | 0x03 => some opSessClassSet
  | 0x04 => some opSessClassGet
  | 0x10 => some opSessEnrol
  | 0x11 => some opSessRevoke
  | 0x12 => some opSessRelease
  | 0x20 => some opSessGet
  | 0x21 => some opSessList
  | _ => none

/-- 0x07xx (R574). -/
def opsTask : Nat → Option (Request → State → State)
  | 0x01 => some opTaskPost
  | 0x02 => some opTaskModify
  | 0x03 => some opTaskCancel
  | 0x10 => some opTaskGet
  | 0x11 => some opTaskList
  | 0x20 => some opTaskConfig
  | _ => none

/-- 0x08xx (R574). -/
def opsStrt : Nat → Option (Request → State → State)
  | 0x01 => some opStrtGridSet
  | 0x02 => some opStrtStatus
  | 0x10 => some opStrtHoldSet
  | 0x11 => some opStrtHoldClear
  | 0x12 => some opStrtHoldList
  | 0x20 => some opStrtReservePath
  | 0x30 => some opPathGet
  | 0x31 => some opPathRequest
  | 0x32 => some opPathStatus
  | _ => none

/-- 0x09xx (R574). -/
def opsStop : Nat → Option (Request → State → State)
  | 0x01 => some opStopAll
  | 0x02 => some opStopRobot
  | 0x03 => some opStopStatus
  | 0x04 => some opStopConfig
  | 0x10 => some opStopReleaseArm
  | 0x11 => some opStopReleaseConfirm
  | _ => none

/-- 0x0Axx (R574). -/
def opsRadio : Nat → Option (Request → State → State)
  | 0x01 => some opRadioStatus
  | 0x02 => some opRadioConfig
  | 0x03 => some opRadioBudget
  | 0x10 => some opRadioTest
  | _ => none

/-- 0x0Bxx (R574). -/
def opsCan : Nat → Option (Request → State → State)
  | 0x01 => some opCanStatus
  | 0x02 => some opCanConfig
  | 0x10 => some opCanRuleSet
  | 0x11 => some opCanNodeSet
  | 0x20 => some opCanSend
  | 0x21 => some opCanSubscribe
  | 0x30 => some opCanSleep
  | _ => none

/-- 0x0Cxx (R574). -/
def opsKey : Nat → Option (Request → State → State)
  | 0x01 => some opKeyStatus
  | 0x10 => some opKeySiteInstall
  | 0x11 => some opKeyDestroy
  | 0x12 => some opKeyAnchorSet
  | 0x13 => some opKeyLinkSet
  | 0x14 => some opKeyRobotExport
  | 0x15 => some opKeyRoll
  | 0x20 => some opKeyTamperConfig
  | 0x21 => some opKeyTamperClear
  | 0x30 => some opAttestGet
  | _ => none

/-- 0x0Dxx (R574). -/
def opsUpd : Nat → Option (Request → State → State)
  | 0x01 => some opUpdStatus
  | 0x10 => some opUpdBegin
  | 0x11 => some opUpdData
  | 0x12 => some opUpdFinish
  | 0x13 => some opUpdAbort
  | 0x20 => some opUpdActivate
  | 0x21 => some opUpdActivateAt
  | 0x22 => some opUpdConfirm
  | 0x23 => some opUpdRevert
  | _ => none

/-- 0x0Exx (R574). -/
def opsJrnl : Nat → Option (Request → State → State)
  | 0x01 => some opJrnlQuery
  | 0x02 => some opJrnlEventRead
  | _ => none

/-- 0x0Fxx (R574). -/
def opsDiag : Nat → Option (Request → State → State)
  | 0x01 => some opDiagStatus
  | 0x02 => some opDiagCounters
  | 0x03 => some opDiagQueueStatus
  | 0x04 => some opDiagQueueConfig
  | 0x10 => some opDiagSelfTest
  | 0x20 => some opDiagTableRead
  | 0x21 => some opDiagTableWrite
  | _ => none

/-- The execution of an assigned opcode (R574). -/
def opByCode (code : Nat) : Option (Request → State → State) :=
  match code / 256 with
  | 0x01 => opsSys (code % 256)
  | 0x02 => opsTime (code % 256)
  | 0x03 => opsGnss (code % 256)
  | 0x04 => opsRef (code % 256)
  | 0x05 => opsBuoy (code % 256)
  | 0x06 => opsSess (code % 256)
  | 0x07 => opsTask (code % 256)
  | 0x08 => opsStrt (code % 256)
  | 0x09 => opsStop (code % 256)
  | 0x0A => opsRadio (code % 256)
  | 0x0B => opsCan (code % 256)
  | 0x0C => opsKey (code % 256)
  | 0x0D => opsUpd (code % 256)
  | 0x0E => opsJrnl (code % 256)
  | 0x0F => opsDiag (code % 256)
  | _ => none

/-- Opcodes that cost 2 command units. -/
def costTwo : List Nat :=
  [0x0103, 0x0105, 0x0131, 0x0132, 0x0140, 0x0141, 0x0202, 0x0203, 0x0302, 0x0303, 0x0310, 0x0402, 0x0403, 0x0410, 0x0501,
   0x0502, 0x0503, 0x0510, 0x0520, 0x0540, 0x0602, 0x0603, 0x0610, 0x0611, 0x0612, 0x0621] ++
  [0x0701, 0x0711, 0x0720, 0x0801, 0x0811, 0x0812, 0x0831, 0x0904, 0x0911, 0x0A02, 0x0B02, 0x0B11, 0x0C11, 0x0C12, 0x0C13,
   0x0C14, 0x0C15, 0x0C30, 0x0D10, 0x0D12, 0x0D20, 0x0D21, 0x0D22, 0x0D23, 0x0E01, 0x0E02]

/-- Cost of a command in units (R32 and the row of its opcode). -/
def opCost (r : Request) : Nat :=
  let p := r.payload
  if r.opcode = 0x0120 || r.opcode = 0x0130 || r.opcode = 0x0C10 then 4
  else if r.opcode = 0x0810 then 8
  else if r.opcode = 0x0820 then
    2 + cdiv (min (((List.range (min 100 (fld p 2 2))).map fun i => runKeys (runAt p i)).sum) 16384) 1024
  else if r.opcode = 0x0F10 then (if fld p 0 1 = 0x10 then 8 else 2)
  else if r.opcode = 0x0F20 then (if fld p 0 1 = 1 && fld p 4 4 = 0 then 8 else 2)
  else if r.opcode = 0x0F21 then 2 + cdiv (fld p 1 1) 16
  else if costTwo.contains r.opcode then 2 else 1

/-- A command whose opcode is not assigned ends with ST_BAD_OPCODE (R32, R79, R574). -/
def badOpcode (r : Request) (s : State) : State :=
  if live s r then finish (takeLatched s r) r stBadOpcode [] else s

/-- Execute one latched command. -/
def runCommand (r : Request) (s : State) : State :=
  match opByCode r.opcode with
  | some f => f r s
  | none => badOpcode r s

/-- UNASSIGNED_OPCODE (R79): a command whose opcode is not among those of R574. -/
def opUnassignedOpcode (r : Request) (s : State) : State :=
  if (opByCode r.opcode).isSome then s else badOpcode r s

def execUnassignedOpcode (r : Request) (s : State) : Host.Outcome State Fault Refusal := .next (opUnassignedOpcode r s)

/-! ### COMMAND -/

/-- Execute latched commands in latch order until one does not fit in the 256 units left or is carried by its own rule. -/
def runLatched : List Request → State → State
  | [], s => s
  | r :: rs, s =>
    if !s.edtor.latched.contains r then runLatched rs s
    else if 256 < s.edtor.unitsUsed + opCost r then s
    else
      let t := runCommand r { s with edtor.unitsUsed := s.edtor.unitsUsed + opCost r }
      if t.edtor.latched.contains r then t else runLatched rs t

/-- Commands execute unless all are held (R99, R100, R145); held for want of journal slots they are counted. -/
def executeCommands (s : State) : State :=
  if !held s then runLatched s.edtor.latched s
  else if journalFull s && !mramFog s then { s with edtor.jrnlHold := sat 32 (s.edtor.jrnlHold + s.edtor.latched.length) }
  else s

/-- Commands lost with a reset of their queue end in COMMAND of the FC that latched the reset (R91). -/
def endFaulted (s : State) : State :=
  let due := s.edtor.faulted.filter fun r => r.latchFc == fcNow s
  due.foldl (fun s r => finishI { s with com.cmdCommits := 0 } r intQueue stQueueFault [])
    { s with edtor.faulted := s.edtor.faulted.filter fun r => r.latchFc != fcNow s }

/-- Posts in progress go on, at most 128 in one FC at 2 units each; the others come first in the next (R32, R352). -/
def goOnPosts (s : State) : State :=
  if held s then s else
  let rest := s.allot.posts.drop 128
  let s := { s with allot.posts := s.allot.posts.take 128 }
  let n := s.allot.posts.length
  let s := stepPosts s
  { s with allot.posts := rest ++ s.allot.posts, edtor.unitsUsed := s.edtor.unitsUsed + 2 * n }

/-- What the active FLT does in COMMAND. -/
def commandWork (s : State) : State :=
  executeCommands (endFaulted (finishRelay (goOnPosts (standingStep (closeDue s)))))

/-- COMMAND_WINDOW (R24, R32, R107). -/
def opCommandWindow (s : State) : State :=
  if !entersWindow s .command then passWindow s .command else
  let s := openWindow (freezeTrigger s) .command
  let s := if s.cores.secOver || reloading s 7 then s else signStatements s
  if fltAway s then s else noteQueue (commandWork (evaluateTriggers s)) 0x40

def execCommandWindow (s : State) : Host.Outcome State Fault Refusal := .next (opCommandWindow s)

/-! ### PLAN -/

/-- Commits submitted by the other cores, made at the start of PLAN grouped by origin (R12, R97). -/
def makeSubmitted (s : State) : State :=
  let due := s.com.submitted
  [orgPos, orgSaf, orgLnk, orgSec].foldl (fun s o =>
    (due.filter fun e => e.1 == o).foldl (fun s e =>
      let s := commitBy s o e.2.1 e.2.2
      if e.2.1 = okRobot then modRobot s e.2.2 fun x => { x with evCsn := s.com.csn } else s) s) { s with com.submitted := [] }

/-- PLAN of a step FC: the end of one robot's path reservation. -/
def endPathAtStep (s : State) (i : Nat) : State :=
  let p := planAt s i
  if p.leg.isNone && p.before.isEmpty && p.next.isNone then s else
  commitBy (modPlan s i fun p => { p with
    leg := none
    before := []
    next := none
    tableOut := false
    state := if p.state == .granted then .halted else p.state }) orgFlt okPath i

/-- PLAN of a step FC: every path reservation and every timed hold ends, with a commit each (R311). -/
def stepEnds (s : State) : State :=
  if !s.time.stepFc then s else
  let s := (planned s).foldl endPathAtStep s
  (s.holds.filter fun e => e.2.timed).foldl (fun s e =>
    raise (commitBy (dropHold s e.1) orgFlt okHold e.1) 0x8801 .all (holdEvent e.1 4 e.2)) s

/-- The reservation table's work in PLAN (R303, R307, R310, R315, R324). -/
def planTable (s : State) : State := refreshDwells (reassert (freeUnlocked (expireHolds (retryHolds s))))

/-- What the active FLT does in PLAN. -/
def planWork (s : State) : State :=
  let s := drainMsgs (drainMsgs (drainMsgs s 0x10 answerAssoc) 0x12 confirmAssoc) 0x21 applyPlanReq
  let s := planTable (revokedWork (lostWork (stepEnds (makeSubmitted s))))
  planFleet s

/-- PLAN_WINDOW (R24): outputs and tamper settings of COMMAND take effect, then the fleet's work. -/
def opPlanWindow (s : State) : State :=
  if !entersWindow s .plan then passWindow s .plan else
  let s := applyAuxSet (applyTamper (openWindow s .plan))
  if fltAway s then s else noteQueue (noteQueue (planWork s) 0x40) 0x41

def execPlanWindow (s : State) : Host.Outcome State Fault Refusal := .next (opPlanWindow s)

end Sys2Proof.Machine
end

