-- ==== Sys2Proof/Machine/Release.lean ====
section
/-! DEFINITION. EMIT, PERSIST and GUARD: events and messages of the FC, the journal, and the release of what each session
receives (R58 to R80, R95 to R102, R112, R113). -/

namespace Sys2Proof.Machine

open Sys2Proof

/-! ### Events of the FC -/

/-- EV_EDTOR_VIOLATION of a session's own violations (R80, R578). -/
def emitViolations (s : State) : State :=
  (openSlots s).foldl (fun s slot =>
    match sessionAt s slot with
    | none => s
    | some e =>
      if e.violDue.all (· == 0) then s else
      raise (modSession s slot fun e => { e with violDue := List.replicate 11 0 }) 0x8102 (.one slot)
        (le 1 (portCode e.port) ++ zb 1 ++ e.violDue.flatMap (le 2))) s

/-- The five drop counts of a port since the last report. -/
def dropsSince (s : State) (port : Nat) : List Nat :=
  let c := tgetD s.edtor.ports port {}
  (c.latched.zip c.reported).map fun x => (x.1 + 2 ^ 32 - x.2) % 2 ^ 32

/-- EV_EDTOR_DROPPED (R80, R578, R579). -/
def emitDropped (s : State) : State :=
  let d := [0, 1, 2].flatMap (dropsSince s)
  if fcNow s % 100 != 0 || d.all (· == 0) then s else
  raise { s with edtor.ports := tmap s.edtor.ports fun _ c => { c with reported := c.latched } } 0x8103 .sup (d.flatMap (le 4))

/-- FC_NUMBER of the FC in which a change decided now takes effect (R113, R145). -/
def effectFc (s : State) : Nat :=
  match s.time.step with
  | some q => stepEffectFc s q.ftu
  | none => fcNow s + 1

/-- EV_MODE_CHANGE of the change recorded for the next boundary (R113). -/
def emitMode (s : State) : State :=
  match s.mode.next with
  | none => s
  | some c =>
    { s with com.events := s.com.events ++
      [{ code := 0x8104, csn := c.csn.getD s.com.csn, time := nowTime s % 2 ^ 64, tag := c.tag
         payload := modeChangePayload s c (effectFc s) }] }

/-- EV_CONDITION (R112). -/
def emitCondition (s : State) : State :=
  if condition s = s.mode.lastCond then s else
  raise { s with mode.lastCond := condition s } 0x8105 .all (le 4 (condition s) ++ zb 4)

/-- The messages to every robot: corrections, the site message and the zone table (R211, R212, R250). -/
def emitBroadcasts (s : State) : State :=
  let s := match s.ref.corrOut with
    | some m => queueCorrection { s with ref.corrOut := none } m
    | none => s
  let s := if siteMessageDue s then queueFragments (siteSent s) false (siteMessage s) else s
  if s.buoy.zonesDirty || fcNow s % 1000 == 0 then
    queueFragments { s with buoy.zonesDirty := false } false (zoneMessage s)
  else s

/-- What every core reports in EMIT. -/
def emitAll (s : State) : State :=
  let s := if fltAway s then s else emitPlans s
  let s := emitStrt (emitSpoof (emitSess s))
  let s := if lnkAway s then s else emitAnchors (emitRelays s)
  let s := emitBlinkRejects (emitFixes s)
  let s := emitBroadcasts (emitRefState (emitRtcm s))
  let s := emitTime (emitPorts s)
  let s := if lnkAway s then s else emitCan s
  let s := emitRadio (emitStop s)
  let s := emitFaults (emitUpd (emitKeys s))
  emitCondition (emitMode (emitDropped (emitViolations s)))

/-! ### Placing replies and events in the transmit queues (R63, R65, R67, R87) -/

/-- A reply of the open exchange takes the next open-reply SEQ of its host and is sealed with the host's key (R43, R51). -/
def placeOpen (s : State) (k : Packet) : State :=
  let part (s : State) (n : Nat) : State :=
    { s with edtor.parting := s.edtor.parting ++ [sealPacket (hostKey s k.openHost) { k with seq := n }] }
  if k.openHost = 0xFF then
    let n := s.p.control.provReplySeq + 1
    part { s with p.control.provReplySeq := n } n
  else
    let h := tgetD s.p.control.hosts k.openHost {}
    part { s with p.control.hosts := tput s.p.control.hosts k.openHost { h with replySeq := h.replySeq + 1 } } (h.replySeq + 1)

/-- A queue has room for a frame. -/
def roomIn (s : State) (q : Nat) : Bool :=
  match qParam q with
  | none => false
  | some p => !fullFor s q p (queueAt s q p) false

/-- Put a packet into a session's reply queue. -/
def putPacket (s : State) (slot : Nat) (k : Packet) : State :=
  let before := occOf s (4 + slot)
  arrived (modSession s slot fun e => { e with replyQ := e.replyQ ++ [k] }) (4 + slot) before

/-- Place one packet of a session; one that finds its queue without room for a frame is carried (R32, R94). -/
def placeReply (s : State) (k : Packet) : State :=
  if k.slot = 4 then placeOpen s k else
  match sessionAt s k.slot with
  | none => s
  | some e =>
    if e.id != k.sessionId then s
    else if roomIn s (4 + k.slot) then putPacket s k.slot k
    else { s with com.replies := s.com.replies ++ [k] }

/-- Place the replies of the FC and the rejections it latched. -/
def placeReplies (s : State) : State :=
  let due := s.com.replies ++ s.edtor.rejectsDue
  due.foldl placeReply { s with com.replies := [], edtor.rejectsDue := [] }

/-- Release fragments of one reply while they find room, at most `n` (R63). -/
def placeFrags (slot : Nat) : Nat → Stream → State → Stream × State
  | 0, x, s => (x, s)
  | n + 1, x, s =>
    match x.frags with
    | [] => (x, s)
    | b :: rest =>
      if !roomIn s (4 + slot) then (x, s)
      else placeFrags slot n { x with frags := rest }
        (putPacket s slot { x.head with payload := b, flags := if rest.isEmpty then fFinal else fMore })

/-- One fragmented reply in one FC: what is left of it stays (R32, R63). -/
def placeStream (slot : Nat) (s : State) (x : Stream) : State :=
  let (x, s) := placeFrags slot x.perFc x s
  if x.frags.isEmpty then s else modSession s slot fun e => { e with streams := e.streams ++ [x] }

/-- Release the fragments of the FC (R63). -/
def placeStreams (s : State) : State :=
  (openSlots s).foldl (fun s slot =>
    let l := ((sessionAt s slot).map (·.streams)).getD []
    if l.isEmpty then s else l.foldl (placeStream slot) (modSession s slot fun e => { e with streams := [] })) s

/-- Credit packets: to every session each 100 FC, and to one whose command was rejected for want of credit (R65). -/
def placeCredits (s : State) (refused : List Nat) : State :=
  (openSlots s).foldl (fun s slot =>
    if fcNow s % 100 != 0 && !refused.contains slot then s else
    match sessionAt s slot with
    | none => s
    | some e => placeReply s { slot := slot, sessionId := e.id, port := e.port, addr := e.addr, udp := e.udp, kind := 4, csn := s.com.csn }) s

/-- The slots an event goes to (R58, R577). -/
def receivers (s : State) : Audience → List Nat
  | .all => openSlots s
  | .sup => (openSlots s).filter fun i => ((sessionAt s i).map fun e => isSup e.role).getD false
  | .one slot => (openSlots s).filter (· == slot)
  | .supAnd slot => (openSlots s).filter fun i => i == slot || ((sessionAt s i).map fun e => isSup e.role).getD false
  | .slots l => (openSlots s).filter fun i => l.contains i

/-- Place an event in one session's event queue; a full queue discards and counts it (R67). -/
def placeEvent (v : Event) (s : State) (slot : Nat) : State :=
  let before := occOf s (8 + slot)
  let (ok, s) := admitFrame s (8 + slot) false
  if !ok then modSession s slot fun e => { e with lost := sat 32 (e.lost + 1) }
  else
    let own := match v.tag, sessionAt s slot with
      | some (id, _), some e => id == e.id
      | _, _ => false
    arrived (modSession s slot fun e => { e with eventQ := e.eventQ ++ [if own then v else { v with tag := none }] }) (8 + slot) before

/-- The SESSION_ID of an event's log record (R102). -/
def logSession (s : State) : Audience → Nat
  | .one slot => ((sessionAt s slot).map (·.id)).getD 0xFFFF
  | _ => 0xFFFF

/-- Insert an event after those of no higher CSN. -/
def insertEvent (v : Event) : List Event → List Event
  | [] => [v]
  | x :: xs => if x.csn ≤ v.csn then x :: insertEvent v xs else v :: x :: xs

/-- Events in rising order of CSN, the order raised kept among equals (R75). -/
def eventsInOrder (l : List Event) : List Event := l.foldl (fun acc v => insertEvent v acc) []

/-- Place the events of the FC, each also for the event log (R67). -/
def placeEvents (s : State) : State :=
  (eventsInOrder s.com.events).foldl (fun s v =>
    let s : State := { s with com.logs := s.com.logs ++
      [{ code := v.code, sessionId := logSession s v.aud, csn := v.csn, time := v.time, head := v.payload.take 28,
         len := 16 + v.payload.length }] }
    (receivers s v.aud).foldl (placeEvent v) s) { s with com.events := [] }

/-- Place everything the FC sends its sessions. -/
def placeAll (s : State) : State :=
  let refused := (s.edtor.rejectsDue.filter fun k => k.status == stNoCredit && bit k.flags 7).map (·.slot)
  placeEvents (placeCredits (placeStreams (placeReplies s)) refused)

/-- EMIT_WINDOW (R24, R69): what the FC has to send is made up; it reaches the transmit queues as EMIT ends (R26). -/
def opEmitWindow (s : State) : State := if !entersWindow s .emit then passWindow s .emit else emitAll (openWindow s .emit)

def execEmitWindow (s : State) : Host.Outcome State Fault Refusal := .next (opEmitWindow s)

/-! ### PERSIST (R12, R68, R69, R98, R147, R393) -/

/-- What the active FLT persists: key slots first, whose replies and events belong to the FC (R488). -/
def persistWork (s : State) : State :=
  let s := if s.cores.secOver then s else placeEvents (placeReplies (persistKeys s))
  { s with com.persistDue := true }

/-- The outputs of EMIT enter the transmit queues (R26); after an overrun of LNK none is filled in the FC, and what the active FLT
left in a failed FC waits for the next (R33, R394). -/
def fillQueues (s : State) : State :=
  let s := if s.cores.txSkipped || fltAway s then s else placeAll s
  if s.cores.txSkipped || lnkAway s then s else releaseCanStop (fillRadio s)

/-- PERSIST_WINDOW (R24, R69, R98, R119). In FOG with cause MRAM_FAULT it does not run, and nothing is held back for it. -/
def opPersistWindow (s : State) : State :=
  if !entersWindow s .persist then passWindow s .persist else
  let s := countAvail (noteAll (fillQueues (openWindow s .persist)))
  if mramFog s then { s with com.withheld := false }
  else if fltAway s then { s with com.withheld := true }
  else persistWork s

def execPersistWindow (s : State) : Host.Outcome State Fault Refusal := .next (opPersistWindow s)

/-! ### GUARD (R46, R65 to R67, R69, R75, R76) -/

/-- EVENT_NUMBER of the next event may still be sent (R66). -/
def mayEvent (e : Session) : Bool := !serialBelow e.evLimit ((e.evSent + 1) % 2 ^ 32)

/-- The packet of an event, with its preamble (R67). -/
def eventPacket (slot : Nat) (e : Session) (v : Event) : Packet :=
  { slot := slot, sessionId := e.id, port := e.port, addr := e.addr, udp := e.udp, kind := 3
    tag := (v.tag.map (·.2)).getD 0, opcode := v.code
    flags := (if e.lost = 0 then 0 else fLost) + (if v.tag.isSome then fTagValid else 0), csn := v.csn
    payload := le 4 ((e.evSent + 1) % 2 ^ 32) ++ le 4 e.lost ++ le 8 v.time ++ v.payload }

/-- Send events in order while the session's credit lasts. -/
def sendEvents (slot : Nat) : List Event → Session → List Packet × Session
  | [], e => ([], { e with eventQ := [] })
  | v :: vs, e =>
    if !mayEvent e then ([], { e with eventQ := v :: vs }) else
    let k := eventPacket slot e v
    let (ks, e) := sendEvents slot vs { e with evSent := (e.evSent + 1) % 2 ^ 32, lost := 0 }
    (k :: ks, e)

/-- A packet whose CSN names an earlier instant (R75). -/
def exempt (k : Packet) : Bool :=
  k.resent || bit k.flags 7 || (k.kind == 2 && !bit k.flags 0 && !bit k.flags 2)

/-- Insert a packet after those of no higher CSN. -/
def insertPacket (k : Packet) : List Packet → List Packet
  | [] => [k]
  | x :: xs => if x.csn ≤ k.csn then x :: insertPacket k xs else k :: x :: xs

/-- The order of SEQ among packets released together (R75). -/
def seqOrder (l : List Packet) : List Packet :=
  l.filter exempt ++ (l.filter fun k => !exempt k).foldl (fun acc k => insertPacket k acc) []

/-- The payload of a credit packet (R65). -/
def creditPayload (e : Session) : Bytes := le 2 e.outs.length ++ le 2 512 ++ le 4 e.evSent ++ le 6 e.rxHigh ++ zb 2

/-- A packet whose CSN orders the host's view: a final reply in one packet, an event or a credit packet (R75). -/
def ordered (k : Packet) : Bool := !exempt k && !k.multi

/-- An event sent after a packet of a higher CSN carries that CSN (R75). -/
def raiseCsn (low : Nat) (k : Packet) : Packet := { k with csn := max low k.csn }

/-- Release one session's packets in rising order of CSN, sealed with its key; none beyond the last SEQ (R43, R46, R75). -/
def releaseSession (slot : Nat) (e : Session) : List Packet × Session :=
  let (evs, e) := sendEvents slot e.eventQ e
  let l := partWith e.txSeq ((seqOrder (e.replyQ ++ evs.map (raiseCsn e.csnSent))).take (lastSeq - e.txSeq))
  let e := { retireTags e l with
    replyQ := []
    txSeq := e.txSeq + l.length
    csnSent := (l.filter ordered).foldl (fun m k => max m k.csn) e.csnSent }
  (l.map fun k => sealPacket e.key (if k.kind = 4 then { k with payload := creditPayload e } else k), e)

/-- Packets leave: when their capture points fall is open, and the completion table takes them (R154). -/
def noteReleased (s : State) (l : List Packet) : State :=
  l.foldl (fun s k => let (t, s) := freshNat s; noteSent s (portLink k.port) (BitVec.ofNat 64 t)) { s with com.packets := s.com.packets ++ l }

/-- Release one slot's packets: those a closed session leaves, then those of the open one (R56). -/
def releaseSlot (s : State) (slot : Nat) : State :=
  let left := s.edtor.parting.filter (·.slot == slot)
  let s := noteReleased { s with edtor.parting := s.edtor.parting.filter (·.slot != slot) } left
  match sessionAt s slot with
  | none => s
  | some e =>
    let (l, e) := releaseSession slot e
    noteReleased { s with edtor.sessions := tput s.edtor.sessions slot e } l

/-- Every slot in order, then the open exchange. -/
def releasePackets (s : State) : State :=
  let s := [0, 1, 2, 3].foldl releaseSlot s
  noteReleased { s with edtor.parting := [] } s.edtor.parting

/-- GUARD_WINDOW (R24, R69, R76). -/
def opGuardWindow (s : State) : State :=
  if !entersWindow s .guard then passWindow s .guard else
  let s := settlePersist { openWindow s .guard with com.packets := [] }
  let s := if lnkAway s then s else releaseCan s
  noteAll (if s.com.withheld || fltAway s || lnkAway s then s else releasePackets s)

def execGuardWindow (s : State) : Host.Outcome State Fault Refusal := .next (opGuardWindow s)

end Sys2Proof.Machine
end

