-- ==== Sys2Proof/Machine/Dispatch.lean ====
section
/-! DEFINITION. The one dispatch from commands to their meanings. -/

namespace Sys2Proof.Machine

open Sys2Proof

/-- The effect of a command on everything but the queue. -/
def exec (i : Instr) (s : State) : Host.Outcome State Fault Refusal :=
  match i with
  | .fcBoundary x => Sys2Proof.Machine.execFcBoundary x s
  | .safeWindow x => Sys2Proof.Machine.execSafeWindow x s
  | .solveWindow x => Sys2Proof.Machine.execSolveWindow x s
  | .commandWindow => Sys2Proof.Machine.execCommandWindow s
  | .planWindow => Sys2Proof.Machine.execPlanWindow s
  | .emitWindow => Sys2Proof.Machine.execEmitWindow s
  | .persistWindow => Sys2Proof.Machine.execPersistWindow s
  | .guardWindow => Sys2Proof.Machine.execGuardWindow s
  | .windowOverrun core window => Sys2Proof.Machine.execWindowOverrun core window s
  | .commandReceive d => Sys2Proof.Machine.execCommandReceive d s
  | .hostCredit d => Sys2Proof.Machine.execHostCredit d s
  | .stopFilter d wait => Sys2Proof.Machine.execStopFilter d wait s
  | .unassignedOpcode r => Sys2Proof.Machine.execUnassignedOpcode r s
  | .lease slot => Sys2Proof.Machine.execLease slot s
  | .sysIdentity r => Sys2Proof.Machine.execSysIdentity r s
  | .sysModeGet r => Sys2Proof.Machine.execSysModeGet r s
  | .sysModeSet r => Sys2Proof.Machine.execSysModeSet r s
  | .sysResetWarm r => Sys2Proof.Machine.execSysResetWarm r s
  | .sysResetCold r => Sys2Proof.Machine.execSysResetCold r s
  | .sysPowerConfig r => Sys2Proof.Machine.execSysPowerConfig r s
  | .sysSessionOpen r => Sys2Proof.Machine.execSysSessionOpen r s
  | .sysSessionClose r => Sys2Proof.Machine.execSysSessionClose r s
  | .sysSessionList r => Sys2Proof.Machine.execSysSessionList r s
  | .sysHostEnrol r => Sys2Proof.Machine.execSysHostEnrol r s
  | .sysHostRevoke r => Sys2Proof.Machine.execSysHostRevoke r s
  | .sysTenderClose r => Sys2Proof.Machine.execSysTenderClose r s
  | .sysNetConfig r => Sys2Proof.Machine.execSysNetConfig r s
  | .sysAuxConfig r => Sys2Proof.Machine.execSysAuxConfig r s
  | .sysAuxSet r => Sys2Proof.Machine.execSysAuxSet r s
  | .sysPortStatus r => Sys2Proof.Machine.execSysPortStatus r s
  | .timeGet r => Sys2Proof.Machine.execTimeGet r s
  | .timeConfig r => Sys2Proof.Machine.execTimeConfig r s
  | .timeStep r => Sys2Proof.Machine.execTimeStep r s
  | .timeTriggerSet r => Sys2Proof.Machine.execTimeTriggerSet r s
  | .timeTriggerGet r => Sys2Proof.Machine.execTimeTriggerGet r s
  | .gnssStatus r => Sys2Proof.Machine.execGnssStatus r s
  | .gnssConfig r => Sys2Proof.Machine.execGnssConfig r s
  | .gnssMeasRead r => Sys2Proof.Machine.execGnssMeasRead r s
  | .gnssNotchSet r => Sys2Proof.Machine.execGnssNotchSet r s
  | .gnssCalibrate r => Sys2Proof.Machine.execGnssCalibrate r s
  | .gnssCalibrationDone delay align => Sys2Proof.Machine.execGnssCalibrationDone delay align s
  | .refStatus r => Sys2Proof.Machine.execRefStatus r s
  | .refBaseSet r => Sys2Proof.Machine.execRefBaseSet r s
  | .refConfig r => Sys2Proof.Machine.execRefConfig r s
  | .refSurveyStart r => Sys2Proof.Machine.execRefSurveyStart r s
  | .refRtcmSubscribe r => Sys2Proof.Machine.execRefRtcmSubscribe r s
  | .buoyStatus r => Sys2Proof.Machine.execBuoyStatus r s
  | .buoyAnchorSet r => Sys2Proof.Machine.execBuoyAnchorSet r s
  | .buoyConfig r => Sys2Proof.Machine.execBuoyConfig r s
  | .buoyCalibrate r => Sys2Proof.Machine.execBuoyCalibrate r s
  | .buoyCalibrationDone fits => Sys2Proof.Machine.execBuoyCalibrationDone fits s
  | .buoyZoneSet r => Sys2Proof.Machine.execBuoyZoneSet r s
  | .buoyFixSubscribe r => Sys2Proof.Machine.execBuoyFixSubscribe r s
  | .buoyRelayStart r => Sys2Proof.Machine.execBuoyRelayStart r s
  | .buoyRelayActivate r => Sys2Proof.Machine.execBuoyRelayActivate r s
  | .buoyRelayAbort r => Sys2Proof.Machine.execBuoyRelayAbort r s
  | .sessConfig r => Sys2Proof.Machine.execSessConfig r s
  | .sessClassSet r => Sys2Proof.Machine.execSessClassSet r s
  | .sessClassGet r => Sys2Proof.Machine.execSessClassGet r s
  | .sessEnrol r => Sys2Proof.Machine.execSessEnrol r s
  | .sessRevoke r => Sys2Proof.Machine.execSessRevoke r s
  | .sessRelease r => Sys2Proof.Machine.execSessRelease r s
  | .sessGet r => Sys2Proof.Machine.execSessGet r s
  | .sessList r => Sys2Proof.Machine.execSessList r s
  | .taskPost r => Sys2Proof.Machine.execTaskPost r s
  | .taskModify r => Sys2Proof.Machine.execTaskModify r s
  | .taskCancel r => Sys2Proof.Machine.execTaskCancel r s
  | .taskGet r => Sys2Proof.Machine.execTaskGet r s
  | .taskList r => Sys2Proof.Machine.execTaskList r s
  | .taskConfig r => Sys2Proof.Machine.execTaskConfig r s
  | .taskDeadline => Sys2Proof.Machine.execTaskDeadline s
  | .terminalKeep => Sys2Proof.Machine.execTerminalKeep s
  | .strtGridSet r => Sys2Proof.Machine.execStrtGridSet r s
  | .strtStatus r => Sys2Proof.Machine.execStrtStatus r s
  | .strtHoldSet r => Sys2Proof.Machine.execStrtHoldSet r s
  | .strtHoldClear r => Sys2Proof.Machine.execStrtHoldClear r s
  | .strtHoldList r => Sys2Proof.Machine.execStrtHoldList r s
  | .strtReservePath r => Sys2Proof.Machine.execStrtReservePath r s
  | .pathGet r => Sys2Proof.Machine.execPathGet r s
  | .pathRequest r => Sys2Proof.Machine.execPathRequest r s
  | .pathStatus r => Sys2Proof.Machine.execPathStatus r s
  | .stopAll r => Sys2Proof.Machine.execStopAll r s
  | .stopRobot r => Sys2Proof.Machine.execStopRobot r s
  | .stopStatus r => Sys2Proof.Machine.execStopStatus r s
  | .stopConfig r => Sys2Proof.Machine.execStopConfig r s
  | .stopReleaseArm r => Sys2Proof.Machine.execStopReleaseArm r s
  | .stopReleaseConfirm r => Sys2Proof.Machine.execStopReleaseConfirm r s
  | .releaseApply => Sys2Proof.Machine.execReleaseApply s
  | .radioStatus r => Sys2Proof.Machine.execRadioStatus r s
  | .radioConfig r => Sys2Proof.Machine.execRadioConfig r s
  | .radioSettingsEffect => Sys2Proof.Machine.execRadioSettingsEffect s
  | .radioBudget r => Sys2Proof.Machine.execRadioBudget r s
  | .radioTestStart r => Sys2Proof.Machine.execRadioTestStart r s
  | .radioTestEnd r => Sys2Proof.Machine.execRadioTestEnd r s
  | .radioTestExpiry => Sys2Proof.Machine.execRadioTestExpiry s
  | .canStatus r => Sys2Proof.Machine.execCanStatus r s
  | .canConfig r => Sys2Proof.Machine.execCanConfig r s
  | .canRuleSet r => Sys2Proof.Machine.execCanRuleSet r s
  | .canNodeSet r => Sys2Proof.Machine.execCanNodeSet r s
  | .canSend r => Sys2Proof.Machine.execCanSend r s
  | .canSubscribe r => Sys2Proof.Machine.execCanSubscribe r s
  | .canSleepSleep r => Sys2Proof.Machine.execCanSleepSleep r s
  | .canSleepWake r => Sys2Proof.Machine.execCanSleepWake r s
  | .keyStatus r => Sys2Proof.Machine.execKeyStatus r s
  | .keySiteInstall r => Sys2Proof.Machine.execKeySiteInstall r s
  | .keyDestroy r => Sys2Proof.Machine.execKeyDestroy r s
  | .keyAnchorSet r => Sys2Proof.Machine.execKeyAnchorSet r s
  | .keyLinkSet r => Sys2Proof.Machine.execKeyLinkSet r s
  | .keyRobotExport r => Sys2Proof.Machine.execKeyRobotExport r s
  | .keyRoll r => Sys2Proof.Machine.execKeyRoll r s
  | .rollEffective => Sys2Proof.Machine.execRollEffective s
  | .keyTamperConfig r => Sys2Proof.Machine.execKeyTamperConfig r s
  | .keyTamperClear r => Sys2Proof.Machine.execKeyTamperClear r s
  | .attestGet r => Sys2Proof.Machine.execAttestGet r s
  | .updStatus r => Sys2Proof.Machine.execUpdStatus r s
  | .updBegin r => Sys2Proof.Machine.execUpdBegin r s
  | .updData r => Sys2Proof.Machine.execUpdData r s
  | .updFinish r => Sys2Proof.Machine.execUpdFinish r s
  | .updFinishDone => Sys2Proof.Machine.execUpdFinishDone s
  | .updAbort r => Sys2Proof.Machine.execUpdAbort r s
  | .updActivate r => Sys2Proof.Machine.execUpdActivate r s
  | .updActivateAt r => Sys2Proof.Machine.execUpdActivateAt r s
  | .updConfirm r => Sys2Proof.Machine.execUpdConfirm r s
  | .updRevert r => Sys2Proof.Machine.execUpdRevert r s
  | .anchorActivateSend => Sys2Proof.Machine.execAnchorActivateSend s
  | .activationCheck imagesOk => Sys2Proof.Machine.execActivationCheck imagesOk s
  | .activation => Sys2Proof.Machine.execActivation s
  | .coreReload core => Sys2Proof.Machine.execCoreReload core s
  | .fltImageHandover => Sys2Proof.Machine.execFltImageHandover s
  | .freezeEnd => Sys2Proof.Machine.execFreezeEnd s
  | .safUpdateTurn fail => Sys2Proof.Machine.execSafUpdateTurn fail s
  | .activationAbandon failed => Sys2Proof.Machine.execActivationAbandon failed s
  | .dfuDownload p => Sys2Proof.Machine.execDfuDownload p s
  | .jrnlQuery r => Sys2Proof.Machine.execJrnlQuery r s
  | .jrnlEventRead r => Sys2Proof.Machine.execJrnlEventRead r s
  | .diagStatus r => Sys2Proof.Machine.execDiagStatus r s
  | .diagCounters r => Sys2Proof.Machine.execDiagCounters r s
  | .diagQueueStatus r => Sys2Proof.Machine.execDiagQueueStatus r s
  | .diagQueueConfig r => Sys2Proof.Machine.execDiagQueueConfig r s
  | .diagSelfTest r => Sys2Proof.Machine.execDiagSelfTest r s
  | .selfTestDone target fail detail => Sys2Proof.Machine.execSelfTestDone target fail detail s
  | .diagTableRead r => Sys2Proof.Machine.execDiagTableRead r s
  | .diagTableWrite r => Sys2Proof.Machine.execDiagTableWrite r s
  | .powerOn => Sys2Proof.Machine.execPowerOn s
  | .powerFail => Sys2Proof.Machine.execPowerFail s
  | .reset => Sys2Proof.Machine.execReset s
  | .stillComplete x => Sys2Proof.Machine.execStillComplete x s
  | .bootRetry x => Sys2Proof.Machine.execBootRetry x s
  | .hostLoss => Sys2Proof.Machine.execHostLoss s
  | .referenceLost => Sys2Proof.Machine.execReferenceLost s
  | .ppsOut pclk => Sys2Proof.Machine.execPpsOut pclk s
  | .zda pclk => Sys2Proof.Machine.execZda pclk s
  | .ppsIn ftu rising wide => Sys2Proof.Machine.execPpsIn ftu rising wide s
  | .step => Sys2Proof.Machine.execStep s
  | .rtcSet pclk => Sys2Proof.Machine.execRtcSet pclk s
  | .timeTrigger id pclk => Sys2Proof.Machine.execTimeTrigger id pclk s
  | .pulseEnd io pclk => Sys2Proof.Machine.execPulseEnd io pclk s
  | .epochLatch e => Sys2Proof.Machine.execEpochLatch e s
  | .acquisitionDone chan pclk => Sys2Proof.Machine.execAcquisitionDone chan pclk s
  | .antShortRetry ant => Sys2Proof.Machine.execAntShortRetry ant s
  | .syncReq => Sys2Proof.Machine.execSyncReq s
  | .syncResp f => Sys2Proof.Machine.execSyncResp f s
  | .hello f => Sys2Proof.Machine.execHello f s
  | .report f => Sys2Proof.Machine.execReport f s
  | .reportDeadline fc period => Sys2Proof.Machine.execReportDeadline fc period s
  | .relayAck f => Sys2Proof.Machine.execRelayAck f s
  | .relayResend link => Sys2Proof.Machine.execRelayResend link s
  | .phyLinkChange link up level24 => Sys2Proof.Machine.execPhyLinkChange link up level24 s
  | .podlDetection link cls => Sys2Proof.Machine.execPodlDetection link cls s
  | .podlOverload link => Sys2Proof.Machine.execPodlOverload link s
  | .podlRestore link => Sys2Proof.Machine.execPodlRestore link s
  | .faultRetry link => Sys2Proof.Machine.execFaultRetry link s
  | .radioRx f => Sys2Proof.Machine.execRadioRx f s
  | .assocReq => Sys2Proof.Machine.execAssocReq s
  | .assocConfirm => Sys2Proof.Machine.execAssocConfirm s
  | .assocTimeout => Sys2Proof.Machine.execAssocTimeout s
  | .positionReport => Sys2Proof.Machine.execPositionReport s
  | .planReq => Sys2Proof.Machine.execPlanReq s
  | .sleep => Sys2Proof.Machine.execSleep s
  | .adrift => Sys2Proof.Machine.execAdrift s
  | .agingSweep => Sys2Proof.Machine.execAgingSweep s
  | .wakeMissed => Sys2Proof.Machine.execWakeMissed s
  | .timeslot k => Sys2Proof.Machine.execTimeslot k s
  | .beaconLaunch => Sys2Proof.Machine.execBeaconLaunch s
  | .stopFrame k => Sys2Proof.Machine.execStopFrame k s
  | .slInput inp line pclk => Sys2Proof.Machine.execSlInput inp line pclk s
  | .inputTestPulse src lows => Sys2Proof.Machine.execInputTestPulse src lows s
  | .sloutTestPulse fell rose => Sys2Proof.Machine.execSloutTestPulse fell rose s
  | .clockLoss chan pclk => Sys2Proof.Machine.execClockLoss chan pclk s
  | .channelRejoin chan => Sys2Proof.Machine.execChannelRejoin chan s
  | .plannedSelfTest => Sys2Proof.Machine.execPlannedSelfTest s
  | .leadChange => Sys2Proof.Machine.execLeadChange s
  | .fltSwap => Sys2Proof.Machine.execFltSwap s
  | .canRx ch f => Sys2Proof.Machine.execCanRx ch f s
  | .canTxOutcome ch stop outcome sof => Sys2Proof.Machine.execCanTxOutcome ch stop outcome sof s
  | .busOff ch head => Sys2Proof.Machine.execBusOff ch head s
  | .busOffRecovery ch => Sys2Proof.Machine.execBusOffRecovery ch s
  | .canWake ch w => Sys2Proof.Machine.execCanWake ch w s
  | .portLink port up speed => Sys2Proof.Machine.execPortLink port up speed s
  | .auxInput io level pclk => Sys2Proof.Machine.execAuxInput io level pclk s
  | .outFault io pclk => Sys2Proof.Machine.execOutFault io pclk s
  | .svcEn active pclk => Sys2Proof.Machine.execSvcEn active pclk s
  | .vioLost present pclk => Sys2Proof.Machine.execVioLost present pclk s
  | .tamperCheck sensor found rtc => Sys2Proof.Machine.execTamperCheck sensor found rtc s
  | .maintenanceExpiry => Sys2Proof.Machine.execMaintenanceExpiry s
  | .allotmentRound => Sys2Proof.Machine.execAllotmentRound s
  | .leadlightRequest => Sys2Proof.Machine.execLeadlightRequest s
  | .searchResult unit tclk => Sys2Proof.Machine.execSearchResult unit tclk s
  | .probe cell slot kind requester => Sys2Proof.Machine.execProbe cell slot kind requester s
  | .legReserve => Sys2Proof.Machine.execLegReserve s
  | .grant => Sys2Proof.Machine.execGrant s
  | .expirySweep => Sys2Proof.Machine.execExpirySweep s
  | .queueWrite q e special => Sys2Proof.Machine.execQueueWrite q e special s
  | .queueRead q => Sys2Proof.Machine.execQueueRead q s
  | .dropRest q => Sys2Proof.Machine.execDropRest q s
  | .headRefill q => Sys2Proof.Machine.execHeadRefill q s
  | .queueFault q dram reading => Sys2Proof.Machine.execQueueFault q dram reading s
  | .memoryFault f => Sys2Proof.Machine.execMemoryFault f s
  | .backupDomainLoss => Sys2Proof.Machine.execBackupDomainLoss s
  | .arpNdpEchoRequest port kind => Sys2Proof.Machine.execArpNdpEchoRequest port kind s
  | .canBusError ch tec rec => Sys2Proof.Machine.execCanBusError ch tec rec s
  | .lossOfLock chan code phase pclk => Sys2Proof.Machine.execLossOfLock chan code phase pclk s
  | .phaseLock chan pclk => Sys2Proof.Machine.execPhaseLock chan pclk s
  | .bitSynchronisation chan message => Sys2Proof.Machine.execBitSynchronisation chan message s
  | .codeLock chan pclk => Sys2Proof.Machine.execCodeLock chan pclk s

end Sys2Proof.Machine
end

