-- ==== Sys2Proof/WellFormed.lean ====
section
/-! DEFINITION. Which commands are well formed: every operand within the width the spec gives it and every unit one the
RD-824 has. What a well-formed command carries out is Machine's; a unit beyond those the spec lists is the one fault. -/

namespace Sys2Proof

/-- A number of at most `bits` bits. -/
def fits (bits n : Nat) : Bool := decide (n < 2 ^ bits)

/-- An accepted Edtor command: session slots 0 to 3 or the open exchange, 16-bit SESSION_ID, TAG, OPCODE and UDP port, 48-bit
SEQ, 64-bit CSNs, an IPv6 address at most, and at most 1,400 bytes of payload (R36, R39, R42, R51). -/
def Request.wf (r : Request) : Bool :=
  decide (r.slot ≤ 4) && fits 16 r.sessionId && fits 16 r.openHost && fits 128 r.addr && fits 16 r.udp && fits 48 r.seq
    && fits 16 r.tag && fits 16 r.opcode && (r.expect.all (fits 64)) && fits 64 r.accept && decide (r.payload.length ≤ 1400)

/-- A datagram of a port: an address of at most 128 bits, and no more bytes than UDP carries (R36, R37). -/
def Datagram.wf (d : Datagram) : Bool := fits 128 d.addr && fits 16 d.udp && decide (d.bytes.length ≤ 65527)

/-- A QUEUE_ID of the queue set (R94). -/
def isQueue (q : Nat) : Bool :=
  decide (q < 0x0C) || (decide (0x10 ≤ q) && decide (q < 0x14)) || (decide (0x20 ≤ q) && decide (q < 0x2A))
    || (decide (0x30 ≤ q) && decide (q < 0x34)) || q == 0x40 || q == 0x41

/-- A queue entry holds 1 to 60 bytes of a frame, 60 unless it ends it; its first entry gives FRAME_ENTRIES in 12 bits, no other
does (R82, R83). -/
def QEntry.wf (e : QEntry) : Bool :=
  decide (1 ≤ e.data.length) && decide (e.data.length ≤ 60) && (e.eop || e.data.length == 60) && fits 12 e.frameEntries
    && (e.sop == (e.frameEntries != 0))

/-- An Ethernet frame on one of the ten BUOY links, of at most 1,500 bytes of data (R219, R222). -/
def BuoyFrame.wf (f : BuoyFrame) : Bool := decide (f.link < 10) && fits 16 f.etherType && decide (f.bytes.length ≤ 1500)

/-- A calibration value is of one of the ten links (R230). -/
def CalFit.wf (f : CalFit) : Bool := decide (f.link < 10)

/-- A CAN frame: an identifier of its format's width and the data lengths of classical CAN and CAN FD (R441, R444). -/
def CanIn.wf (f : CanIn) : Bool := fits (if f.ide then 29 else 11) f.id && decide (f.data.length ≤ 64)

/-- A radio frame of radio A or B in one of the four timeslots, its PSDU without the FCS (R410, R414). -/
def AirIn.wf (f : AirIn) : Bool := decide (f.radio < 2) && decide (f.slot < 4) && fits 8 f.channel && decide (f.psdu.length ≤ 2043)

/-- Entries of each table of table SRAM, by its number: robots, tasks, classes, robot positions, anchors, hosts (R34). -/
def tableEntries (table : Nat) : Nat := [0, 0, 256, 4096, 32, 4096, 10, 4].getD table 0

/-- A memory block of R565 and a unit within it. -/
def MemIn.wf (f : MemIn) : Bool :=
  match f.block with
  | 1 => decide (f.unit < 8)
  | 2 => decide (f.index < tableEntries f.unit)
  | 3 => decide (f.index < 262144)
  | 4 => decide (f.unit < 4)
  | 5 => isQueue f.unit || f.unit == 0xFF
  | 6 => true
  | _ => false

/-- Three safety channels, each with its finding (12_stop_path). -/
def SafeIn.wf (x : SafeIn) : Bool := x.tests.length == 3 && x.differs.length == 3

/-- At most six streams, two antennas and ten links are sampled (R155, 06, 08). -/
def BoundaryIn.wf (x : BoundaryIn) : Bool :=
  decide (x.streams.length ≤ 6) && decide (x.ants.length ≤ 2) && decide (x.podlMa.length ≤ 10) && fits 8 x.tloop

/-- What STILL finds covers three safety channels (R114, 12). -/
def BootIn.wf (x : BootIn) : Bool := x.chans.length == 3

/-- Well-formed commands. -/
def Instr.wf : Instr → Bool
  | .fcBoundary x => x.wf
  | .safeWindow x => x.wf
  | .solveWindow _ | .commandWindow | .planWindow | .emitWindow | .persistWindow | .guardWindow => true
  | .windowOverrun core _ => decide (core < 8)
  | .commandReceive d | .hostCredit d => d.wf
  | .stopFilter d _ => d.wf
  | .lease slot => decide (slot < 4)
  | .unassignedOpcode r | .sysIdentity r | .sysModeGet r | .sysModeSet r | .sysResetWarm r | .sysResetCold r
  | .sysPowerConfig r | .sysSessionOpen r | .sysSessionClose r | .sysSessionList r | .sysHostEnrol r
  | .sysHostRevoke r | .sysTenderClose r | .sysNetConfig r | .sysAuxConfig r | .sysAuxSet r | .sysPortStatus r
  | .timeGet r | .timeConfig r | .timeStep r | .timeTriggerSet r | .timeTriggerGet r | .gnssStatus r | .gnssConfig r
  | .gnssMeasRead r | .gnssNotchSet r | .gnssCalibrate r | .refStatus r | .refBaseSet r | .refConfig r
  | .refSurveyStart r | .refRtcmSubscribe r | .buoyStatus r | .buoyAnchorSet r | .buoyConfig r | .buoyCalibrate r
  | .buoyZoneSet r | .buoyFixSubscribe r | .buoyRelayStart r | .buoyRelayActivate r | .buoyRelayAbort r
  | .sessConfig r | .sessClassSet r | .sessClassGet r | .sessEnrol r | .sessRevoke r | .sessRelease r | .sessGet r
  | .sessList r | .taskPost r | .taskModify r | .taskCancel r | .taskGet r | .taskList r | .taskConfig r
  | .strtGridSet r | .strtStatus r | .strtHoldSet r | .strtHoldClear r | .strtHoldList r | .strtReservePath r
  | .pathGet r | .pathRequest r | .pathStatus r | .stopAll r | .stopRobot r | .stopStatus r | .stopConfig r
  | .stopReleaseArm r | .stopReleaseConfirm r | .radioStatus r | .radioConfig r | .radioBudget r | .radioTestStart r
  | .radioTestEnd r | .canStatus r | .canConfig r | .canRuleSet r | .canNodeSet r | .canSend r | .canSubscribe r
  | .canSleepSleep r | .canSleepWake r | .keyStatus r | .keySiteInstall r | .keyDestroy r | .keyAnchorSet r
  | .keyLinkSet r | .keyRobotExport r | .keyRoll r | .keyTamperConfig r | .keyTamperClear r | .attestGet r
  | .updStatus r | .updBegin r | .updData r | .updFinish r | .updAbort r | .updActivate r | .updActivateAt r
  | .updConfirm r | .updRevert r | .jrnlQuery r | .jrnlEventRead r | .diagStatus r | .diagCounters r
  | .diagQueueStatus r | .diagQueueConfig r | .diagSelfTest r | .diagTableRead r | .diagTableWrite r => r.wf
  | .buoyCalibrationDone l => l.all CalFit.wf
  | .gnssCalibrationDone _ _ | .taskDeadline | .terminalKeep | .releaseApply
  | .radioSettingsEffect | .radioTestExpiry | .rollEffective | .updFinishDone | .anchorActivateSend | .activationCheck _
  | .activation | .fltImageHandover | .freezeEnd | .safUpdateTurn _ | .activationAbandon _ | .selfTestDone _ _ _
  | .powerOn | .powerFail | .reset | .hostLoss | .referenceLost | .step => true
  | .coreReload core => decide (core < 8)
  | .dfuDownload _ => true
  | .stillComplete x | .bootRetry x => x.wf
  | .ppsOut _ | .zda _ | .rtcSet _ | .epochLatch _ | .syncReq => true
  | .ppsIn ftu _ _ => fits 40 ftu
  | .timeTrigger id _ => decide (id < 16)
  | .pulseEnd io _ | .auxInput io _ _ | .outFault io _ => decide (io < 8)
  | .acquisitionDone chan _ | .lossOfLock chan _ _ _ | .phaseLock chan _ | .bitSynchronisation chan _ | .codeLock chan _ =>
    decide (chan < 320)
  | .antShortRetry ant => decide (ant < 2)
  | .syncResp f | .hello f | .report f | .relayAck f => f.wf
  | .reportDeadline _ _ => true
  | .relayResend link | .phyLinkChange link _ _ | .podlDetection link _ | .podlOverload link | .podlRestore link
  | .faultRetry link => decide (link < 10)
  | .radioRx f => f.wf
  | .assocReq | .assocConfirm | .assocTimeout | .positionReport | .planReq | .sleep | .adrift | .agingSweep
  | .wakeMissed => true
  | .timeslot k | .stopFrame k => decide (k < 4)
  | .beaconLaunch => true
  | .slInput inp line _ => decide (inp < 2) && decide (line < 2)
  | .inputTestPulse src lows => decide (src < 4) && lows.length == 4
  | .sloutTestPulse _ _ | .plannedSelfTest | .leadChange | .fltSwap => true
  | .clockLoss chan _ | .channelRejoin chan => decide (chan < 3)
  | .canRx ch f => decide (ch < 2) && f.wf
  | .canTxOutcome ch _ _ _ | .busOff ch _ | .busOffRecovery ch | .canWake ch _ | .canBusError ch _ _ => decide (ch < 2)
  | .portLink _ _ _ | .svcEn _ _ | .vioLost _ _ | .arpNdpEchoRequest _ _ | .maintenanceExpiry => true
  | .tamperCheck sensor _ _ => decide (sensor < 4)
  | .allotmentRound | .leadlightRequest | .legReserve | .grant | .expirySweep | .backupDomainLoss => true
  | .searchResult unit _ => decide (unit < 4)
  | .probe cell _ kind requester => decide (requester < 5) && decide (kind < 5) && fits 24 cell
  | .queueWrite q e _ => isQueue q && e.wf
  | .queueRead q | .dropRest q | .headRefill q | .queueFault q _ _ => isQueue q
  | .memoryFault f => f.wf

end Sys2Proof
end

