-- ==== Sys2Proof/Safety.lean ====
section
/-! DEFINITION. What claims about the RD-824 are stated in: a command carried out, and what every command leaves as it was
made. -/

namespace Sys2Proof.Machine

open Sys2Proof

/-- A command is carried out: the block goes on to a next state. -/
def CarriedOut (c : Instr) (s : State) : Prop := ∃ t, exec c s = .next t

/-- What no command may touch: the queue of commands waiting and the fuses, which are programmed in manufacture (01 Memory). -/
def root (s : State) : List Instr × Fuse := (s.pending, s.fuse)

/-- The state in which a command has made one commit on a set of objects: the commit takes the next CSN, and each object takes it
as its OBJ_CSN (R68, R72). -/
def committed (s : State) (objs : List (Nat × Nat)) : State :=
  { s with
    com.csn := s.com.nextCsn
    com.nextCsn := s.com.nextCsn + 1
    com.cmdCommits := s.com.cmdCommits + 1
    com.cmdLast := s.com.nextCsn
    p.control.objCsn := objs.foldl (fun t o => tput t (objKey o.1 o.2) s.com.nextCsn) s.p.control.objCsn }

/-- The expected-CSN check passes: none is asked for, or no object of the set has changed since (R73). -/
def csnHolds (s : State) (r : Request) (objs : List (Nat × Nat)) : Bool :=
  match r.expect with
  | none => true
  | some e => objs.all fun o => decide (objCsn s o.1 o.2 ≤ e)

/-- A command is carried out and ends. The next state is `u`, with the command's FINAL record among those PERSIST will write and
one final reply that carries the CSN of the command's last commit, or the snapshot CSN where it made none, the status and the
payload (R60, R61, R71). -/
def Ends (c : Instr) (r : Request) (s u : State) (status : Nat) (payload : Bytes) : Prop :=
  ∃ recs,
    exec c s = .next { u with
      com.recs := recs
      com.cmdCommits := 0
      com.replies := u.com.replies ++ [replyTo r fFinal (finalCsn u r) status payload] }
    ∧ ∃ j ∈ recs, recIs r j = true ∧ j.final = true ∧ j.status = status

/-- A command is accepted and goes on. The next state is `u`, with the command's LATCHED record and a reply that is not final,
with ST_ACCEPTED and the acceptance CSN (R61, R71). -/
def GoesOn (c : Instr) (r : Request) (s u : State) (payload : Bytes) : Prop :=
  ∃ recs,
    exec c s = .next { u with
      com.recs := recs
      com.cmdCommits := 0
      com.replies := u.com.replies ++ [replyTo r 0 r.accept stAccepted payload] }
    ∧ ∃ j ∈ recs, recIs r j = true ∧ j.final = false

/-- A command ends and its result leaves as fragments, `perFc` of them in each FC (R63). The next state is `u`, with the
command's FINAL record and the fragments waiting in its session. -/
def Streams (c : Instr) (r : Request) (s u : State) (parts : List Bytes) (perFc : Nat) : Prop :=
  ∃ recs,
    exec c s = .next (modSession { u with
        com.recs := recs
        com.cmdCommits := 0 } r.slot fun e =>
      { e with streams := e.streams ++ [{ head := { replyTo r 0 u.com.csn stOk [] with multi := decide (1 < parts.length) }, frags := fragments 0 parts, perFc := perFc }] })
    ∧ ∃ j ∈ recs, recIs r j = true ∧ j.final = true ∧ j.status = stOk

/-- A row with an empty payload that any session may send in every mode of Edtor: it answers and changes nothing else. -/
def ReadsAs (c : Request → Instr) (opcode : Nat) (reply : State → Bytes) : Prop :=
  ∀ r s, live s r = true → r.payload = [] → edt s opcode = true →
    Ends (c r) r s (takeLatched s r) stOk (reply (takeLatched s r))

/-- An opcode is turned away with one of the statuses of R79 that count a violation: no commit, no change of the site, and one final
reply with the status and an empty payload (R60, R79, R576). -/
def TurnedAway (c : Instr) (r : Request) (s : State) (status : Nat) : Prop :=
  ∃ i recs, exCounter status = some i
    ∧ exec c s = .next { countViol (takeLatched s r) r.slot r.port i true with
      com.recs := recs
      com.cmdCommits := 0
      com.replies := s.com.replies ++ [replyTo r fFinal (finalCsn (takeLatched s r) r) status []] }
    ∧ ∃ j ∈ recs, recIs r j = true ∧ j.final = true ∧ j.status = status

/-- The reservation table stands in its canonical form. -/
def tableWf (s : State) : Bool := waysWf s.strt.ways

/-! ### The opcode rows -/

/-- The request a row for an opcode executes; a row that stands for one form of its opcode fixes the byte that selects it. -/
def opcodeRequest : Instr → Option Request
  | .unassignedOpcode r | .sysIdentity r | .sysModeGet r | .sysModeSet r | .sysPowerConfig r | .sysSessionOpen r
  | .sysSessionClose r | .sysSessionList r | .sysHostEnrol r | .sysHostRevoke r | .sysTenderClose r
  | .sysNetConfig r | .sysAuxConfig r | .sysAuxSet r | .sysPortStatus r | .timeGet r | .timeConfig r | .timeStep r
  | .timeTriggerSet r | .timeTriggerGet r | .gnssStatus r | .gnssConfig r | .gnssMeasRead r | .gnssNotchSet r
  | .gnssCalibrate r | .refStatus r | .refBaseSet r | .refConfig r | .refSurveyStart r | .refRtcmSubscribe r
  | .buoyStatus r | .buoyAnchorSet r | .buoyConfig r | .buoyCalibrate r | .buoyZoneSet r | .buoyFixSubscribe r
  | .sessConfig r | .sessClassSet r | .sessClassGet r | .sessEnrol r | .sessRevoke r | .sessRelease r | .sessGet r
  | .sessList r | .taskPost r | .taskModify r | .taskCancel r | .taskGet r | .taskList r | .taskConfig r
  | .strtGridSet r | .strtStatus r | .strtHoldSet r | .strtHoldClear r | .strtHoldList r | .strtReservePath r
  | .pathGet r | .pathRequest r | .pathStatus r | .stopAll r | .stopRobot r | .stopStatus r | .stopConfig r
  | .stopReleaseArm r | .stopReleaseConfirm r | .radioStatus r | .radioConfig r | .radioBudget r | .canStatus r
  | .canConfig r | .canRuleSet r | .canNodeSet r | .canSend r | .canSubscribe r | .keyStatus r | .keySiteInstall r
  | .keyDestroy r | .keyAnchorSet r | .keyLinkSet r | .keyRobotExport r | .keyRoll r | .keyTamperConfig r
  | .keyTamperClear r | .attestGet r | .updStatus r | .updBegin r | .updData r | .updFinish r | .updAbort r
  | .updActivate r | .updActivateAt r | .updConfirm r | .updRevert r | .jrnlQuery r | .jrnlEventRead r
  | .diagStatus r | .diagCounters r | .diagQueueStatus r | .diagQueueConfig r | .diagSelfTest r | .diagTableRead r
  | .diagTableWrite r => some r
  | .sysResetWarm r | .buoyRelayStart r => some (withHead r 1)
  | .sysResetCold r | .buoyRelayActivate r => some (withHead r 2)
  | .buoyRelayAbort r => some (withHead r 3)
  | .radioTestStart r => some (withAction r 1)
  | .radioTestEnd r => some (withAction r 2)
  | .canSleepSleep r => some (withCanAction r 1)
  | .canSleepWake r => some (withCanAction r 2)
  | _ => none

/-- The payload length of an opcode whose length is fixed and whose checks begin with it. STRT_HOLD_SET, DIAG_TABLE_READ and
ATTEST_GET, which may have to wait first (R314, R571, R505), the stop opcodes, whose reply may carry STOP_FILTER, and SYS_SESSION_OPEN are
stated apart. -/
def fixedLen : Instr → Option Nat
  | .sysIdentity _ | .sysModeGet _ | .sysSessionList _ | .sysTenderClose _ | .sysPortStatus _ | .timeGet _
  | .timeTriggerGet _ | .gnssStatus _ | .refStatus _ | .buoyStatus _ | .sessList _ | .strtStatus _
  | .strtHoldList _ | .pathStatus _ | .stopStatus _ | .radioStatus _ | .radioBudget _ | .keyStatus _ | .updStatus _
  | .updFinish _ | .updAbort _ | .updActivate _ | .updConfirm _ | .updRevert _ | .diagStatus _ => some 0
  | .sysSessionClose _ | .sysHostRevoke _ | .sysAuxSet _ | .refRtcmSubscribe _ | .buoyFixSubscribe _
  | .sessClassGet _ | .sessRevoke _ | .sessRelease _ | .taskCancel _ | .taskGet _ | .taskList _ | .strtHoldClear _
  | .pathGet _ | .canStatus _ | .canSubscribe _ | .canSleepSleep _ | .canSleepWake _ | .keyRoll _
  | .keyTamperClear _ | .diagCounters _ | .diagQueueStatus _ | .diagSelfTest _ => some 4
  | .sysModeSet _ | .sysResetWarm _ | .sysResetCold _ | .gnssMeasRead _ | .buoyCalibrate _ | .pathRequest _
  | .stopReleaseArm _ | .stopReleaseConfirm _ | .radioTestStart _ | .radioTestEnd _ | .keyDestroy _
  | .keyRobotExport _ | .keyTamperConfig _ => some 8
  | .diagQueueConfig _ => some 12
  | .sysPowerConfig _ | .gnssNotchSet _ | .gnssCalibrate _ | .refSurveyStart _ | .sessConfig _ | .sessEnrol _
  | .sessGet _ | .taskConfig _ | .strtGridSet _ | .stopConfig _ | .canNodeSet _ | .updActivateAt _
  | .jrnlEventRead _ => some 16
  | .canRuleSet _ => some 20
  | .timeConfig _ | .timeStep _ | .buoyRelayStart _ | .buoyRelayActivate _ | .buoyRelayAbort _ | .keyAnchorSet _ => some 24
  | .sysHostEnrol _ | .timeTriggerSet _ | .gnssConfig _ | .buoyAnchorSet _ | .buoyConfig _ | .buoyZoneSet _
  | .taskModify _ | .radioConfig _ | .keyLinkSet _ => some 32
  | .canConfig _ | .keySiteInstall _ | .jrnlQuery _ => some 40
  | .sysNetConfig _ | .refBaseSet _ | .sessClassSet _ => some 48
  | .sysAuxConfig _ => some 64
  | .refConfig _ => some 96
  | .updBegin _ => some 120
  | _ => none

/-- The clock's own events: the FC boundary and the windows, which in STILL pass without work (R117). -/
def clockEvent : Instr → Bool
  | .fcBoundary _ | .safeWindow _ | .solveWindow _ | .commandWindow | .planWindow | .emitWindow | .persistWindow | .guardWindow => true
  | _ => false

/-- The events in which the firmware, or what it has running, takes part: they do nothing in DOLDRUMS and STILL (01 Modes). -/
def firmwareEvent : Instr → Bool
  | .windowOverrun _ _ | .commandReceive _ | .hostCredit _ | .stopFilter _ _ | .lease _
  | .taskDeadline | .terminalKeep | .releaseApply | .radioSettingsEffect | .radioTestExpiry | .rollEffective
  | .updFinishDone | .anchorActivateSend | .activationCheck _ | .activation | .coreReload _ | .fltImageHandover
  | .freezeEnd | .safUpdateTurn _ | .activationAbandon _ | .selfTestDone _ _ _ | .reset | .hostLoss | .referenceLost
  | .ppsOut _ | .zda _ | .ppsIn _ _ _ | .step | .rtcSet _ | .timeTrigger _ _ | .pulseEnd _ _ | .epochLatch _
  | .syncReq | .syncResp _ | .hello _ | .report _ | .reportDeadline _ _ | .relayAck _
  | .relayResend _ | .phyLinkChange _ _ _ | .podlDetection _ _ | .podlOverload _ | .podlRestore _ | .faultRetry _
  | .radioRx _ | .assocReq | .assocConfirm | .assocTimeout | .positionReport | .planReq | .sleep | .adrift
  | .agingSweep | .wakeMissed | .timeslot _ | .beaconLaunch | .stopFrame _ | .slInput _ _ _ | .inputTestPulse _ _
  | .sloutTestPulse _ _ | .clockLoss _ _ | .channelRejoin _ | .plannedSelfTest | .leadChange | .fltSwap | .canRx _ _
  | .canTxOutcome _ _ _ _ | .busOff _ _ | .busOffRecovery _ | .canWake _ _ | .expirySweep | .memoryFault _
  | .canBusError _ _ _ => true
  | _ => false

/-- The rows that change something only for a SUPERVISOR or SERVICE session (R48, R574); the read forms of settings are among them. -/
def supervised : Instr → Bool
  | .sysResetWarm _ | .sysPowerConfig _ | .sysModeSet _ | .sysHostRevoke _ | .sysNetConfig _ | .sysAuxConfig _
  | .timeConfig _ | .timeStep _ | .timeTriggerSet _ | .gnssConfig _ | .gnssNotchSet _ | .refBaseSet _
  | .refConfig _ | .refSurveyStart _ | .buoyAnchorSet _ | .buoyConfig _ | .buoyCalibrate _ | .buoyZoneSet _
  | .sessConfig _ | .sessClassSet _ | .sessEnrol _ | .sessRevoke _ | .sessRelease _ | .taskConfig _
  | .strtGridSet _ | .stopConfig _ | .stopReleaseArm _ | .stopReleaseConfirm _ | .radioConfig _ | .canConfig _
  | .canRuleSet _ | .canNodeSet _ | .canSleepSleep _ | .canSleepWake _ | .diagQueueConfig _ | .diagSelfTest _
  | .diagTableWrite _ => true
  | _ => false

/-- The rows that change something only for a SERVICE session (R48, R574). -/
def serviced : Instr → Bool
  | .sysResetCold _ | .sysHostEnrol _ | .sysTenderClose _ | .gnssCalibrate _ | .buoyRelayStart _
  | .buoyRelayActivate _ | .buoyRelayAbort _ | .radioTestStart _ | .radioTestEnd _ | .keySiteInstall _
  | .keyDestroy _ | .keyAnchorSet _ | .keyLinkSet _ | .keyRobotExport _ | .keyRoll _ | .keyTamperConfig _
  | .keyTamperClear _ | .updBegin _ | .updData _ | .updFinish _ | .updAbort _ | .updActivate _ | .updActivateAt _
  | .updConfirm _ | .updRevert _ => true
  | _ => false

/-- An activated anchor head has let the 300 FC of R252 pass without a HELLO. -/
def relayOverdue (s : State) (l : Nat) : Bool :=
  match (anchorAt s l).relayUntil with
  | some f => decide (f < fcNow s)
  | none => false

end Sys2Proof.Machine
end

