-- ==== Sys2Proof/Certificates/Slice0/Obligations.lean ====
section
/-! DEFINITION. The statements about the RD-824 that the provers are asked for. Each docstring names the rules it rests on. -/

open Sys2Proof Sys2Proof.Machine


/-- A step carries out the command at the front of the queue; with an empty queue the block idles. (95_what_each_step_holds) -/
def Obligations.StepRunsTheFrontCommand : Prop :=
  (∀ (c : Instr) (rest : List Instr) (s : State),
        step { s with pending := c :: rest } = exec c { s with pending := rest })
  ∧ (∀ (s : State),
      s.pending = [] →
        step s = .next s)

/-- Every well-formed command is carried out in every state: no fault, no refusal. (20_opcode_and_status_index, 95_what_each_step_holds) -/
def Obligations.WellFormedCommandsAreCarriedOut : Prop :=
  ∀ (c : Instr) (s : State),
      c.wf = true →
        CarriedOut c s

/-- A command that names a unit the RD-824 does not have stops with noSuchUnit, and no command is refused. (01_architecture, 05_time_base, 06_gnss_baseband, 08_indoor_positioning, 12_stop_path, 13_radio_link, 14_can_links, 15_host_and_service_ports, 03_queues_and_journal) -/
def Obligations.AbsentUnitsFault : Prop :=
  (∀ (c : Instr) (s : State),
      c.wf = true →
        exec c s ≠ .fault .noSuchUnit)
  ∧ (∀ (c : Instr) (s : State) (q : Refusal),
        exec c s ≠ .refused q)
  ∧ (∀ (n : Nat) (w : Window) (s : State),
      8 ≤ n →
        exec (.windowOverrun n w) s = .fault .noSuchUnit ∧ exec (.coreReload n) s = .fault .noSuchUnit)
  ∧ (∀ (n : Nat) (s : State),
      4 ≤ n →
        exec (.lease n) s = .fault .noSuchUnit ∧ exec (.timeslot n) s = .fault .noSuchUnit ∧ exec (.stopFrame n) s = .fault .noSuchUnit)
  ∧ (∀ (n p : Nat) (s : State),
      16 ≤ n →
        exec (.timeTrigger n p) s = .fault .noSuchUnit)
  ∧ (∀ (n p : Nat) (b : Bool) (s : State),
      8 ≤ n →
        exec (.pulseEnd n p) s = .fault .noSuchUnit ∧ exec (.auxInput n b p) s = .fault .noSuchUnit ∧ exec (.outFault n p) s = .fault .noSuchUnit)
  ∧ (∀ (n p : Nat) (s : State),
      320 ≤ n →
        exec (.acquisitionDone n p) s = .fault .noSuchUnit ∧ exec (.phaseLock n p) s = .fault .noSuchUnit ∧ exec (.codeLock n p) s = .fault .noSuchUnit)
  ∧ (∀ (n : Nat) (s : State),
      10 ≤ n →
        exec (.relayResend n) s = .fault .noSuchUnit ∧ exec (.podlOverload n) s = .fault .noSuchUnit ∧ exec (.podlRestore n) s = .fault .noSuchUnit ∧ exec (.faultRetry n) s = .fault .noSuchUnit)
  ∧ (∀ (n : Nat) (e : QEntry) (b : Bool) (s : State),
      isQueue n = false →
        exec (.queueWrite n e b) s = .fault .noSuchUnit ∧ exec (.queueRead n) s = .fault .noSuchUnit ∧ exec (.dropRest n) s = .fault .noSuchUnit ∧ exec (.headRefill n) s = .fault .noSuchUnit ∧ exec (.queueFault n b b) s = .fault .noSuchUnit)
  ∧ (∀ (f : MemIn) (s : State),
      f.wf = false →
        exec (.memoryFault f) s = .fault .noSuchUnit)

/-- No step changes a fuse, and a step takes exactly the front command off the queue. (01_architecture, R11) -/
def Obligations.EveryStepKeepsFusesAndPopsTheQueue : Prop :=
  ∀ (s : State) (t : State),
      step s = .next t →
        t.fuse = s.fuse ∧ t.pending = s.pending.tail

/-- Every step keeps the reservation table in its canonical form. (R295, R298, R304, R306, R307) -/
def Obligations.EveryStepKeepsTheReservationTableCanonical : Prop :=
  ∀ (s : State) (t : State),
      tableWf s = true →
      step s = .next t →
        tableWf t = true

/-- The state after manufacture and power-on meets the invariants, with no command waiting. (R114, R116, R117) -/
def Obligations.ResetMeetsTheInvariants : Prop :=
  tableWf State.reset = true ∧ State.reset.pending = [] ∧ State.reset.mode.cur = .still ∧ State.reset.com.csn = 0
  ∧ openSlots State.reset = [] ∧ State.reset.stop.voted = false ∧ State.reset.stop.sw1 = false ∧ State.reset.stop.sw2 = false

/-- In DOLDRUMS nothing the firmware takes part in changes anything; in STILL only the clock passes through its windows. (R103, R112, R117) -/
def Obligations.EventsOfARestingDeviceChangeNothing : Prop :=
  (∀ (c : Instr) (s : State),
      firmwareEvent c = true →
      running s = false →
        exec c s = .next s ∨ exec c s = .fault .noSuchUnit)
  ∧ (∀ (c : Instr) (s : State),
      clockEvent c = true →
      s.mode.cur = .doldrums →
        exec c s = .next s)
  ∧ (∀ (c : Instr) (s : State),
      clockEvent c = true →
      s.mode.cur = .still →
        ∃ t, exec c s = .next t ∧ t = { s with clk := t.clk, mode := { s.mode with stillPhase := t.mode.stillPhase }, stop := { s.stop with provFc := t.stop.provFc } })

/-- A commit takes the next CSN in serial order and gives it to its objects; in FOG with cause MRAM_FAULT none is made. (R68, R72, R97, R119) -/
def Obligations.ACommitTakesTheNextCsn : Prop :=
  (∀ (s : State) (k i : Nat),
      mramFog s = false →
        commit s k i = committed s [(k, i)] ∧ objCsn (commit s k i) k i = s.com.nextCsn)
  ∧ (∀ (s : State) (o : Nat × Nat) (os : List (Nat × Nat)),
      mramFog s = false →
        commitAll s (o :: os) = committed s (o :: os) ∧ ∀ x ∈ o :: os, objCsn (commitAll s (o :: os)) x.1 x.2 = s.com.nextCsn)
  ∧ (∀ (s : State) (g k i : Nat),
      mramFog s = false →
        commitBy s g k i = { committed s [(k, i)] with
          com.cmdCommits := s.com.cmdCommits
          com.cmdLast := s.com.cmdLast
          com.internal := extendInternal s.com.internal g s.com.nextCsn (fcNow s) })
  ∧ (∀ (s : State) (g k i : Nat) (o : List (Nat × Nat)),
      mramFog s = true →
        commit s k i = s ∧ commitBy s g k i = s ∧ commitAll s o = s)

/-- A CSN mismatch is answered with a 16-byte payload that names the first changed object of the set, and nothing is committed. (R74) -/
def Obligations.CsnMismatchNamesTheFirstChangedObject : Prop :=
  (∀ (s : State) (r : Request) (e : Nat) (pre post : List (Nat × Nat)) (o : Nat × Nat) (k : State → State),
      r.expect = some e →
      (∀ x ∈ pre, objCsn s x.1 x.2 ≤ e) →
      e < objCsn s o.1 o.2 →
        let payload := le 2 o.1 ++ zb 2 ++ le 4 o.2 ++ le 8 (objCsn s o.1 o.2)
        let t := checkCsn s r (pre ++ o :: post) k
        t = finishI s r intCsn stCsnMismatch payload ∧ payload.length = 16 ∧ t.p = s.p ∧ t.com.csn = s.com.csn ∧ t.com.nextCsn = s.com.nextCsn)
  ∧ (∀ (s : State) (r : Request) (objs : List (Nat × Nat)) (k : State → State),
      csnHolds s r objs = true →
        checkCsn s r objs k = k s)

/-- An opcode of a session that is not open, in DOLDRUMS or STILL, or held back in its FC, has no effect at all. (R54, R60, R99, R103, R145) -/
def Obligations.ClosedSessionsExecuteNothing : Prop :=
  (∀ (c : Instr) (r : Request) (s : State),
      opcodeRequest c = some r →
      r.slot ≠ 4 →
      edtorRuns s = false ∨ (callerOf s r).isSome = false →
        exec c s = .next s)
  ∧ (∀ (c : Instr) (r : Request) (s : State),
      opcodeRequest c = some r →
      r.slot ≠ 4 →
      held s = true →
        ∃ n, exec c s = .next { s with edtor.jrnlHold := n } ∧ (mramFog s = true ∨ journalFull s = false → n = s.edtor.jrnlHold))
  ∧ (∀ (r : Request) (s : State),
      edtorRuns s = false →
        exec (.sysSessionOpen { r with slot := 4 }) s = .next s)

/-- Every opcode of fixed length whose payload has another length ends with ST_BAD_LENGTH and commits nothing. (R79, R574, R576) -/
def Obligations.WrongLengthsAreTurnedAway : Prop :=
  ∀ (c : Instr) (r : Request) (s : State) (n : Nat),
      opcodeRequest c = some r →
      fixedLen c = some n →
      live s r = true →
      r.payload.length ≠ n →
        TurnedAway c r s stBadLength

/-- An opcode outside the list ends with ST_BAD_OPCODE. (R79, R574) -/
def Obligations.UnassignedOpcodesAreTurnedAway : Prop :=
  (∀ (r : Request) (s : State),
      live s r = true →
      (opByCode r.opcode).isNone = true →
        TurnedAway (.unassignedOpcode r) r s stBadOpcode)
  ∧ (∀ (r : Request) (s : State),
      (opByCode r.opcode).isSome = true →
        exec (.unassignedOpcode r) s = .next s)

/-- An OPERATOR in a SUPERVISOR row, and any lesser role in a SERVICE row, changes nothing of the site. (R48, R574, R576) -/
def Obligations.LesserRolesChangeNothing : Prop :=
  (∀ (c : Instr) (r : Request) (s : State) (t : State),
      opcodeRequest c = some r →
      supervised c = true →
      isSup (roleOf s r) = false →
      exec c s = .next t →
        t.p = s.p ∧ t.bk = s.bk ∧ t.flash = s.flash ∧ t.com.csn = s.com.csn ∧ t.com.nextCsn = s.com.nextCsn ∧ t.mode = s.mode ∧ t.time = s.time
        ∧ t.stop = s.stop ∧ t.allot = s.allot ∧ t.strt = s.strt ∧ t.can = s.can ∧ t.upd = s.upd)
  ∧ (∀ (c : Instr) (r : Request) (s : State) (t : State),
      opcodeRequest c = some r →
      serviced c = true →
      isSvc (roleOf s r) = false →
      exec c s = .next t →
        t.p = s.p ∧ t.bk = s.bk ∧ t.flash = s.flash ∧ t.com.csn = s.com.csn ∧ t.com.nextCsn = s.com.nextCsn ∧ t.mode = s.mode ∧ t.time = s.time
        ∧ t.stop = s.stop ∧ t.allot = s.allot ∧ t.strt = s.strt ∧ t.can = s.can ∧ t.upd = s.upd)

/-- The status rows answer ST_OK with their report and change nothing but the record and the reply. (R70, R71, R574, R124, R125, R163, R192, R213, R320, R399, R436, R566) -/
def Obligations.StatusReadsAnswerAndChangeNothing : Prop :=
  ReadsAs .sysIdentity 0x0101 identityReply ∧ ReadsAs .sysModeGet 0x0102 modeGetReply
  ∧ ReadsAs .sysSessionList 0x0122 sessionsReply ∧ ReadsAs .sysPortStatus 0x0143 portStatusReply
  ∧ ReadsAs .timeTriggerGet 0x0211 triggersReply ∧ ReadsAs .gnssStatus 0x0301 gnssStatusReply
  ∧ ReadsAs .refStatus 0x0401 refStatusReply ∧ ReadsAs .buoyStatus 0x0501 buoyStatusReply
  ∧ ReadsAs .strtStatus 0x0802 strtStatusReply ∧ ReadsAs .pathStatus 0x0832 roundReply
  ∧ ReadsAs .stopStatus 0x0903 stopReply ∧ ReadsAs .radioStatus 0x0A01 radioReply
  ∧ ReadsAs .radioBudget 0x0A03 budgetReply ∧ ReadsAs .keyStatus 0x0C01 keyStatusReply
  ∧ ReadsAs .updStatus 0x0D01 updStatusReply ∧ ReadsAs .diagStatus 0x0F01 diagStatusReply
  ∧ ∀ (r : Request) (s : State), live s r = true → r.payload = [] → edt s 0x0201 = true →
      Ends (.timeGet r) r s (takeLatched s r) stOk (timeGetReply (takeLatched s r) r.counter)

/-- The session list has 24 bytes for each of the four slots, all 0 for a free slot. (R57) -/
def Obligations.SessionListHas24BytesForEachSlot : Prop :=
  (∀ (s : State),
        (sessionsReply s).length = 96 ∧ sessionsReply s = sessionEntry s 0 ++ sessionEntry s 1 ++ sessionEntry s 2 ++ sessionEntry s 3)
  ∧ (∀ (s : State) (n : Nat),
      (sessionAt s n).isNone = true →
        sessionEntry s n = zb 24)

/-- The all-zero form of a settings opcode reports the settings and changes nothing. (R128, R160, R189, R215, R254, R284, R356, R400, R437, R474, R475, R503) -/
def Obligations.SettingsReadsAnswerAndChangeNothing : Prop :=
  (∀ (r : Request) (s : State),
      live s r = true →
      r.payload = zb 24 →
      edt s 0x0202 = true →
        Ends (.timeConfig r) r s (takeLatched s r) stOk (timeCfgBytes s.p.timeCfg))
  ∧ (∀ (r : Request) (s : State),
      live s r = true →
      r.payload = zb 32 →
      edt s 0x0302 = true →
        Ends (.gnssConfig r) r s (takeLatched s r) stOk (gnssCfgBytes (takeLatched s r) 0))
  ∧ (∀ (r : Request) (s : State),
      live s r = true →
      r.payload = zb 96 →
      edt s 0x0403 = true →
        Ends (.refConfig r) r s (takeLatched s r) stOk (refCfgBytes s.p.refCfg))
  ∧ (∀ (r : Request) (s : State),
      live s r = true →
      r.payload = zb 32 →
      edt s 0x0503 = true →
        Ends (.buoyConfig r) r s (takeLatched s r) stOk (buoyCfgBytes s.p.buoyCfg))
  ∧ (∀ (r : Request) (s : State),
      live s r = true →
      r.payload = zb 16 →
      edt s 0x0602 = true →
        Ends (.sessConfig r) r s (takeLatched s r) stOk (sessCfgBytes s.p.sessCfg))
  ∧ (∀ (r : Request) (s : State),
      live s r = true →
      r.payload = zb 16 →
      edt s 0x0720 = true →
        Ends (.taskConfig r) r s (takeLatched s r) stOk (taskCfgBytes s.p.taskCfg))
  ∧ (∀ (r : Request) (s : State),
      live s r = true →
      r.payload = zb 16 →
      edt s 0x0904 = true →
        Ends (.stopConfig r) r s (takeLatched s r) stOk (stopCfgBytes s.p.stopCfg))
  ∧ (∀ (r : Request) (s : State),
      live s r = true →
      r.payload = zb 32 →
      edt s 0x0A02 = true →
        Ends (.radioConfig r) r s (takeLatched s r) stOk (radioCfgReply (takeLatched s r)))
  ∧ (∀ (r : Request) (s : State),
      live s r = true →
      r.payload = zb 8 →
      edt s 0x0C20 = true →
        Ends (.keyTamperConfig r) r s (takeLatched s r) stOk (tamperReply (takeLatched s r)))
  ∧ (∀ (r : Request) (s : State),
      live s r = true →
      r.payload = zb 64 →
      edt s 0x0141 = true →
        Ends (.sysAuxConfig r) r s (takeLatched s r) stOk (auxReply (takeLatched s r)))
  ∧ (∀ (r : Request) (s : State),
      live s r = true →
      r.payload = zb 16 →
      edt s 0x0801 = true →
        Ends (.strtGridSet r) r s (takeLatched s r) stOk (gridBytes s.p.grid))
  ∧ (∀ (r : Request) (s : State),
      live s r = true →
      r.payload = zb 16 →
      supOk s r = true →
      inModes s mNorm = true →
        Ends (.sysPowerConfig r) r s (takeLatched s r) stOk (powerReply s))
  ∧ (∀ (r : Request) (s : State) (h : Nat),
      live s r = true →
      h < 2 →
      r.payload = le 1 h ++ le 1 2 ++ zb 46 →
      edt s 0x0140 = true →
        Ends (.sysNetConfig r) r s (takeLatched s r) stOk (netReply h 2 (tgetD s.p.net h {})))
  ∧ (∀ (r : Request) (s : State),
      live s r = true →
      r.payload = le 1 0xFF ++ zb 31 →
      edt s 0x0520 = true →
        Ends (.buoyZoneSet r) r s (takeLatched s r) stOk (zonesReply s))

/-- SYS_POWER_CONFIG, SYS_NET_CONFIG, SYS_AUX_CONFIG, TIME_CONFIG and STOP_CONFIG write their settings in one commit. (R128, R474, R475, R160, R400, R574, R72, R73) -/
def Obligations.HostSideSettingsTakeEffect : Prop :=
  (∀ (r : Request) (s : State),
      live s r = true →
      csnHolds s r [siteObj] = true →
      r.payload.length = 16 →
      zeros r.payload 13 3 = true →
      fld r.payload 10 2 < 1024 →
      supOk s r = true →
      inModes s mNorm = true →
      allZero r.payload = false →
      powerOk (powerFrom r.payload) = true →
        Ends (.sysPowerConfig r) r s { (commit (takeLatched s r) okSite 0) with
          p.power := powerFrom r.payload
          supply.cfgDue := true } stOk (powerReply { s with p.power := powerFrom r.payload }))
  ∧ (∀ (r : Request) (s : State),
      live s r = true →
      csnHolds s r [siteObj] = true →
      r.payload.length = 48 →
      fld r.payload 1 1 = 1 →
      zeros r.payload 5 3 = true →
      fld r.payload 2 1 < 4 →
      supOk s r = true →
      inModes s mCfg = true →
      fld r.payload 0 1 < 2 →
      netOk (netFrom r.payload) = true →
        Ends (.sysNetConfig r) r s { (commit (takeLatched s r) okSite 0) with p.net := tput s.p.net (fld r.payload 0 1) (netFrom r.payload) } stOk (netReply (fld r.payload 0 1) 1 (netFrom r.payload)))
  ∧ (∀ (r : Request) (s : State),
      live s r = true →
      csnHolds s r [siteObj] = true →
      r.payload.length = 64 →
      (∀ io ∈ List.range 8, auxRsv (auxEntry r.payload io) = true) →
      supOk s r = true →
      inModes s mCfg = true →
      allZero r.payload = false →
      (∀ io ∈ List.range 8, auxOk (auxEntry r.payload io) = true) →
      (∀ io ∈ List.range 8, auxBusy s r.payload io = false) →
        Ends (.sysAuxConfig r) r s { (commit (takeLatched s r) okSite 0) with p.aux := (List.range 8).foldl (fun t io => if fld (auxEntry r.payload io) 0 1 = 0 then t else tput t io (auxFrom (auxEntry r.payload io))) s.p.aux } stOk (auxReply { s with p.aux := (List.range 8).foldl (fun t io => if fld (auxEntry r.payload io) 0 1 = 0 then t else tput t io (auxFrom (auxEntry r.payload io))) s.p.aux }))
  ∧ (∀ (r : Request) (s : State),
      live s r = true →
      csnHolds s r [siteObj] = true →
      r.payload.length = 24 →
      zeros r.payload 19 5 = true →
      supOk s r = true →
      inModes s mCfg = true →
      allZero r.payload = false →
      timeCfgOk r.payload = true →
        Ends (.timeConfig r) r s { (commit (takeLatched s r) okSite 0) with p.timeCfg := timeCfgFrom s.p.timeCfg r.payload } stOk (timeCfgBytes (timeCfgFrom s.p.timeCfg r.payload)))
  ∧ (∀ (r : Request) (s : State),
      live s r = true →
      csnHolds s r [siteObj] = true →
      r.payload.length = 16 →
      zeros r.payload 5 11 = true →
      supOk s r = true →
      inModes s mCfg = true →
      allZero r.payload = false →
      stopCfgOk (stopCfgFrom s.p.stopCfg r.payload) = true →
        Ends (.stopConfig r) r s { (commit (takeLatched s r) okSite 0) with p.stopCfg := stopCfgFrom s.p.stopCfg r.payload } stOk (stopCfgBytes (stopCfgFrom s.p.stopCfg r.payload)))

/-- SYS_MODE_SET decides the transition, SYS_RESET and SYS_TENDER_CLOSE request their reset for the end of the FC. (R110, R126, R127, R131, R574) -/
def Obligations.SysModeAndResetCommandsTakeEffect : Prop :=
  (∀ (r : Request) (s : State) (m : Mode),
      live s r = true →
      csnHolds s r [siteObj] = true →
      r.payload = le 1 (modeCode m) ++ zb 7 →
      modeSetRole s r = true →
      inModes s [.calm, .zephyr, .breeze, .drift, .watch, .fog] = true →
      m ∈ setRow (modeSelected s) →
      s.time.steppedThisFc = false →
      (modeSelected s == .fog && fogCauseSelected s == 0x0B) = false →
      mramFog s = false →
      modeSetNotReady s (modeSelected s) m = 0 →
        let eff := modeSetEffect s (modeSelected s) m
        let t := decideMode (commit (takeLatched s r) okSite 0) eff 0x02 (some s.com.nextCsn) (some (r.sessionId, r.tag))
        Ends (.sysModeSet r) r s (if modeSelected s == .fog then
            { t with mode.next := t.mode.next.map fun c => { c with ret := if isOver eff then some .calm else none } } else t) stOk (modeSetReply eff 0))
  ∧ (∀ (r : Request) (s : State),
      live s r = true →
      r.payload = le 1 1 ++ zb 3 ++ le 4 0xC0DE →
      supOk s r = true →
      inModes s [.tender, .calm, .zephyr, .lull, .squall, .watch, .fog] = true →
        Ends (.sysResetWarm r) (withHead r 1) s { takeLatched s (withHead r 1) with mode.resetAt := some 0x03 } stOk [])
  ∧ (∀ (r : Request) (s : State),
      live s r = true →
      r.payload = le 1 2 ++ zb 3 ++ le 4 0xC0DE →
      svcOk s r = true →
      inModes s [.tender, .calm, .zephyr, .lull, .squall, .watch, .fog] = true →
        Ends (.sysResetCold r) (withHead r 2) s { takeLatched s (withHead r 2) with mode.resetAt := some 0x04 } stOk [])
  ∧ (∀ (r : Request) (s : State),
      live s r = true →
      csnHolds s r [siteObj] = true →
      r.payload = [] →
      svcOk s r = true →
      s.mode.cur = .tender →
      notReadyTender s = 0 →
        Ends (.sysTenderClose r) r s { (commit (takeLatched s r) okSite 0) with
          mode.resetAt := some 0x05
          p.control.provRefused := true } stOk (le 4 0))

/-- SYS_SESSION_OPEN opens the lowest free slot, SYS_SESSION_CLOSE and SYS_HOST_REVOKE close, SYS_HOST_ENROL enrols. (R52, R54, R55, R56, R129, R130) -/
def Obligations.SysHostsAndSessionsOpenAndClose : Prop :=
  (∀ (r : Request) (s : State) (role : Role) (slot : Nat),
      r.slot = 4 →
      edtorRuns s = true →
      held s = false →
      r.payload.length = 32 →
      zeros r.payload 1 1 = true →
      zeros r.payload 24 8 = true →
      roleGranted s r = some role →
      fld r.payload 2 2 ≤ 60 →
      (isSvc role && r.port != .l23 && !s.ports.svcLatched) = false →
      freeSlot s = some slot →
      csnHolds s r [(okSession, slot)] = true →
        ∃ t e, exec (.sysSessionOpen r) s = .next t ∧ sessionAt t slot = some e
          ∧ e.id = slot + 4 * nextSlotGen (s.p.control.slotGen.getD slot 0) ∧ e.host = r.openHost ∧ e.role = role ∧ e.port = r.port
          ∧ e.addr = r.addr ∧ e.udp = r.udp ∧ e.leaseS = (if fld r.payload 2 2 = 0 then 5 else fld r.payload 2 2) ∧ e.renewFc = r.latchFc - 1
          ∧ e.rxHigh = 0 ∧ e.openedCsn = t.com.csn
          ∧ (mramFog s = false → t.com.csn = s.com.nextCsn ∧ objCsn t okSession slot = s.com.nextCsn))
  ∧ (∀ (r : Request) (s : State) (slot : Nat) (e : Session),
      live s r = true →
      r.payload = le 2 e.id ++ zb 2 →
      e.id < 2 ^ 16 →
      slot < 4 →
      e.id % 4 = slot →
      sessionAt s slot = some e →
      (e.id == r.sessionId || supOk s r) = true →
      edt s 0x0121 = true →
      csnHolds s r [(okSession, slot)] = true →
        ∃ t, exec (.sysSessionClose r) s = .next t ∧ (slot = r.slot → sessionAt t slot = none))
  ∧ (∀ (r : Request) (s : State) (slot : Nat) (e : Session),
      live s r = true →
      r.payload = le 2 e.id ++ zb 2 →
      e.id < 2 ^ 16 →
      slot < 4 →
      e.id % 4 = slot →
      slot ≠ r.slot →
      sessionAt s slot = some e →
      supOk s r = true →
      edt s 0x0121 = true →
      csnHolds s r [(okSession, slot)] = true →
        exec (.sysSessionClose r) s = .next (finish (opSysSessionClose.closeOther (commit (takeLatched s r) okSession slot) r slot) r stOk []))
  ∧ (∀ (r : Request) (s : State) (role : Role),
      live s r = true →
      r.payload.length = 32 →
      zeros r.payload 2 2 = true →
      zeros r.payload 20 12 = true →
      svcOk s r = true →
      s.mode.cur = .tender →
      roleOfCode (fld r.payload 1 1) = some role →
      fld r.payload 0 1 ≤ 15 →
      nameOk (slice r.payload 4 16) = true →
      (tgetD s.p.control.hosts (fld r.payload 0 1) {}).enrolled = false →
      siteValid s = true →
      csnHolds s r [(okHost, fld r.payload 0 1)] = true →
        let i := fld r.payload 0 1
        let u := { (committed (takeLatched s r) [(okHost, i)]) with
          p.control.hosts := tput s.p.control.hosts i { tgetD s.p.control.hosts i {} with enrolled := true, ceiling := role, name := slice r.payload 4 16 }
          p.keys.hostGen := tput s.p.keys.hostGen i (nextGen (tgetD s.p.keys.hostGen i 0)) }
        Ends (.sysHostEnrol r) r s u stOk (le 1 i ++ zb 7 ++ hostKey u i))
  ∧ (∀ (r : Request) (s : State),
      live s r = true →
      r.payload.length = 4 →
      zeros r.payload 1 3 = true →
      (if s.mode.cur == .tender then svcOk s r else supOk s r) = true →
      inModes s [.tender, .calm] = true →
      fld r.payload 0 1 < 16 →
      (tgetD s.p.control.hosts (fld r.payload 0 1) {}).enrolled = true →
      fld r.payload 0 1 ≠ hostOf s r →
      othersSup s (fld r.payload 0 1) = true →
      csnHolds s r [(okHost, fld r.payload 0 1)] = true →
        let i := fld r.payload 0 1
        let t := commit { (takeLatched s r) with p.control.hosts := tput s.p.control.hosts i { tgetD s.p.control.hosts i {} with enrolled := false } } okHost i
        exec (.sysHostRevoke r) s = .next (finish { (slotsOfHost s i).foldl (fun s slot => closeSession s slot 2 false (tagOf s r)) t with com.cmdCommits := t.com.cmdCommits } r stOk []))

/-- SYS_AUX_SET names outputs only; they take VALUE at the start of PLAN and one that turns on loses OUT_FAULT. (R476) -/
def Obligations.AuxOutputsAreSetAtPlan : Prop :=
  (∀ (r : Request) (s : State),
      live s r = true →
      r.payload.length = 4 →
      zeros r.payload 2 2 = true →
      inModes s [.calm, .zephyr, .breeze, .drift, .lull, .squall, .watch] = true →
      (∀ io ∈ List.range 8, bit (fld r.payload 0 1) io = true → isOutput s io = true) →
        ∃ u, Ends (.sysAuxSet r) r s u stOk [] ∧ u.com.csn = s.com.csn ∧ u.p = s.p
          ∧ ∀ io < 8, auxLive u io = if bit (fld r.payload 0 1) io then { auxLive s io with setNext := some (bit (fld r.payload 1 1) io) } else auxLive s io)
  ∧ (∀ (s : State) (io : Nat) (v : Bool),
      io < 8 →
      (auxLive s io).setNext = some v →
      isOutput s io = true →
        let x := auxLive (applyAuxSet s) io
        x.out = v ∧ x.setNext = none ∧ (v = true → x.outFault = false))
  ∧ (∀ (s : State) (io : Nat),
      io < 8 →
      (auxLive s io).setNext = none →
        auxLive (applyAuxSet s) io = auxLive s io)

/-- TIME_STEP requests the step for the next boundary and TIME_TRIGGER_SET arms, re-arms or frees a trigger. (R145, R156, R161, R162, R574) -/
def Obligations.TimeCommandsStepAndArmTriggers : Prop :=
  (∀ (r : Request) (s : State),
      live s r = true →
      csnHolds s r [siteObj] = true →
      r.payload.length = 24 →
      zeros r.payload 1 7 = true →
      zeros r.payload 18 2 = true →
      supOk s r = true →
      s.mode.cur = .calm →
      s.time.step = none →
      (fld r.payload 0 1 = 1 ∧ zeros r.payload 8 16 = true ∧ s.time.state = .stepPending) ∨ (fld r.payload 0 1 = 2 ∧ 1 ≤ fld r.payload 20 4 ∧ fld r.payload 20 4 ≤ 10000000 ∧ (s.time.state = .unaligned ∨ s.time.state = .holdover)) →
        let f := stepFtu s r
        let t := requestStep (commit (takeLatched s r) okSite 0) { ftu := f, fromPending := fld r.payload 0 1 == 1, errNs := 1000 * fld r.payload 20 4 }
        Ends (.timeStep r) r s (raiseBy t r 0x8202 .all (stepEvent t f)) stOk (leI 8 f ++ le 8 (stepEffectFc s f)))
  ∧ (∀ (r : Request) (s : State),
      live s r = true →
      csnHolds s r [siteObj] = true →
      r.payload.length = 32 →
      triggerRsv r.payload = true →
      supOk s r = true →
      inModes s [.calm, .zephyr, .breeze, .drift, .lull, .squall, .watch] = true →
      triggerOk s r.payload = true →
      fld r.payload 1 1 ≠ 0 →
      startOfSecondNext s ≤ triggerFirst r.payload →
        Ends (.timeTriggerSet r) r s { (commit (takeLatched s r) okSite 0) with
          time.triggers := tput s.time.triggers (fld r.payload 0 1) { action := fld r.payload 1 1, output := fld r.payload 2 1, flags := fld r.payload 3 1, pulseUs := fld r.payload 4 4, due := triggerFirst r.payload, left := fld r.payload 20 4, period := fld r.payload 24 8, armedFc := fcNow s + 1 } } stOk [])
  ∧ (∀ (r : Request) (s : State),
      live s r = true →
      csnHolds s r [siteObj] = true →
      r.payload.length = 32 →
      triggerRsv r.payload = true →
      supOk s r = true →
      inModes s [.calm, .zephyr, .breeze, .drift, .lull, .squall, .watch] = true →
      triggerOk s r.payload = true →
      fld r.payload 1 1 = 0 →
        Ends (.timeTriggerSet r) r s { (commit (takeLatched s r) okSite 0) with time.triggers := tput s.time.triggers (fld r.payload 0 1) {} } stOk [])

/-- GNSS_CONFIG, GNSS_NOTCH_SET, GNSS_MEAS_READ and GNSS_CALIBRATE carry out their requests. (R189, R190, R191, R193, R574) -/
def Obligations.GnssCommandsTakeEffect : Prop :=
  (∀ (r : Request) (s : State),
      live s r = true →
      csnHolds s r [siteObj] = true →
      r.payload.length = 32 →
      (zeros r.payload 19 13 && decide (fld r.payload 4 4 < 2 ^ 18) && decide (fld r.payload 8 4 < 2 ^ 18) && (fld r.payload 17 1 != 0 || fld r.payload 18 1 == 0)) = true →
      allZero r.payload = false →
      supOk s r = true →
      inModes s mCfg = true →
      gnssCfgOk r.payload = true →
        let t : State := { (commit (takeLatched s r) okSite 0) with p.gnssCfg := gnssCfgFrom s.p.gnssCfg r.payload }
        Ends (.gnssConfig r) r s t stOk (gnssCfgBytes t (fld r.payload 17 1)))
  ∧ (∀ (r : Request) (s : State),
      live s r = true →
      csnHolds s r [siteObj] = true →
      r.payload.length = 16 →
      (zeros r.payload 8 8 && (fld r.payload 2 1 == 2 || zeros r.payload 4 4)) = true →
      supOk s r = true →
      inModes s [.tender, .calm, .zephyr, .breeze, .drift, .watch] = true →
      fld r.payload 0 1 < 6 →
      fld r.payload 1 1 < 4 →
      1 ≤ fld r.payload 2 1 ∧ fld r.payload 2 1 ≤ 3 →
      1 ≤ fld r.payload 3 1 ∧ fld r.payload 3 1 ≤ 4 →
      (fldI r.payload 4 4).natAbs ≤ 30000000 →
        let t : State := { (commit (takeLatched s r) okSite 0) with p.gnssCfg.notchMode := tput s.p.gnssCfg.notchMode (4 * fld r.payload 0 1 + fld r.payload 1 1) (fld r.payload 2 1, fld r.payload 3 1, fldI r.payload 4 4) }
        Ends (.gnssNotchSet r) r s t stOk ([]))
  ∧ (∀ (r : Request) (s : State) (e : Epoch),
      live s r = true →
      r.payload.length = 8 →
      edt s 0x0303 = true →
      (if fld r.payload 0 8 = 0 then s.gnss.epochs.head? else s.gnss.epochs.find? (·.fc == fld r.payload 0 8)) = some e →
        Streams (.gnssMeasRead r) r s (takeLatched s r) (measParts e) 12)
  ∧ (∀ (r : Request) (s : State),
      live s r = true →
      csnHolds s r [siteObj] = true →
      r.payload.length = 16 →
      (zeros r.payload 2 2 && zeros r.payload 8 8) = true →
      fld r.payload 0 1 = 2 →
      svcOk s r = true →
      s.mode.cur = .watch →
      fld r.payload 1 1 < 2 →
      1 ≤ fld r.payload 4 4 ∧ fld r.payload 4 4 ≤ 2000000 →
      s.gnss.cal.isNone = true →
        let t : State := setCable (commit (takeLatched s r) okSite 0) (fld r.payload 1 1) (fld r.payload 4 4)
        Ends (.gnssCalibrate r) r s t stOk (calReply t))
  ∧ (∀ (r : Request) (s : State),
      live s r = true →
      r.payload.length = 16 →
      (zeros r.payload 2 2 && zeros r.payload 8 8 && zeros r.payload 4 4 && (fld r.payload 0 1 != 3 || zeros r.payload 1 1)) = true →
      fld r.payload 0 1 = 1 ∨ fld r.payload 0 1 = 3 →
      fld r.payload 1 1 < 2 →
      svcOk s r = true →
      s.mode.cur = .watch →
      s.gnss.cal.isNone = true →
        GoesOn (.gnssCalibrate r) r s { (takeLatched s r) with gnss.cal := some { kind := fld r.payload 0 1, antenna := fld r.payload 1 1, endFc := fcNow s + (if fld r.payload 0 1 = 1 then 200 else 60000), req := r } } [])

/-- REF_CONFIG, REF_BASE_SET, REF_SURVEY_START and REF_RTCM_SUBSCRIBE carry out their requests. (R214, R215, R216, R217, R574) -/
def Obligations.RefCommandsTakeEffect : Prop :=
  (∀ (r : Request) (s : State),
      live s r = true →
      csnHolds s r [siteObj] = true →
      r.payload.length = 96 →
      (zeros r.payload 19 13 && decide (fld r.payload 4 4 < 2 ^ 18)) = true →
      allZero r.payload = false →
      supOk s r = true →
      inModes s mCfg = true →
      refCfgOk r.payload = true →
        let t : State := { (commit (takeLatched s r) okSite 0) with p.refCfg := refCfgFrom s.p.refCfg r.payload }
        Ends (.refConfig r) r s t stOk (refCfgBytes (refCfgFrom s.p.refCfg r.payload)))
  ∧ (∀ (r : Request) (s : State) (bl : Option (Int × Int × Int)),
      live s r = true →
      csnHolds s r [siteObj] = true →
      r.payload.length = 48 →
      zeros r.payload 37 11 = true →
      fld r.payload 36 1 < 2 →
      supOk s r = true →
      (inModes s [.tender, .calm, .zephyr] && (!bit (fld r.payload 36 1) 0 || inModes s [.tender])) = true →
      baselineFrom r.payload = some bl →
      tieInShell (fldI r.payload 0 8, fldI r.payload 8 8, fldI r.payload 16 8) = true →
      (inModes s [.tender] || tieNear s (fldI r.payload 0 8, fldI r.payload 8 8, fldI r.payload 16 8)) = true →
      s.ref.survey.isNone = true →
        let t : State := setBase (commit (takeLatched s r) okSite 0) (fldI r.payload 0 8, fldI r.payload 8 8, fldI r.payload 16 8) bl (bit (fld r.payload 36 1) 0) 3
        Ends (.refBaseSet r) r s t stOk ([]))
  ∧ (∀ (r : Request) (s : State),
      live s r = true →
      r.payload.length = 16 →
      zeros r.payload 12 4 = true →
      supOk s r = true →
      s.mode.cur = .zephyr →
      60 ≤ fld r.payload 0 4 ∧ fld r.payload 0 4 ≤ 86400 →
      10 ≤ fld r.payload 4 4 ∧ fld r.payload 4 4 ≤ 10000 →
      fld r.payload 0 4 ≤ fld r.payload 8 4 ∧ fld r.payload 8 4 ≤ 604800 →
      s.ref.survey.isNone = true →
        GoesOn (.refSurveyStart r) r s { (takeLatched s r) with
          ref.surveying := true
          ref.survey := some { minS := fld r.payload 0 4, accMm := fld r.payload 4 4, maxS := fld r.payload 8 4, startFc := fcNow s, baseBefore := s.p.refFrame.base, req := r } } [])
  ∧ (∀ (r : Request) (s : State),
      live s r = true →
      csnHolds s r [(okSession, r.slot)] = true →
      r.payload.length = 4 →
      zeros r.payload 1 3 = true →
      edt s 0x0420 = true →
      mramFog s = false →
      fld r.payload 0 1 = 1 ∨ fld r.payload 0 1 = 2 →
        let t : State := modSession (commit (takeLatched s r) okSession r.slot) r.slot fun e => { e with rtcmSub := if fld r.payload 0 1 = 1 then some (fcNow s) else none }
        Ends (.refRtcmSubscribe r) r s t stOk ([]))

/-- BUOY_ANCHOR_SET, BUOY_CONFIG, BUOY_CALIBRATE, BUOY_ZONE_SET and BUOY_FIX_SUBSCRIBE carry out their requests. (R253, R254, R255, R256, R257, R258, R574) -/
def Obligations.BuoyCommandsTakeEffect : Prop :=
  (∀ (r : Request) (s : State),
      live s r = true →
      csnHolds s r [(okAnchor, (fld r.payload 0 1))] = true →
      r.payload.length = 32 →
      zeros r.payload 26 6 = true →
      fld r.payload 1 1 = 1 →
      supOk s r = true →
      inModes s mCfg = true →
      fld r.payload 0 1 < 10 →
      fld r.payload 2 1 ∈ [0, 10, 11, 12] →
      fld r.payload 3 1 ≤ 7 →
      1 ≤ fld r.payload 24 2 ∧ fld r.payload 24 2 ≤ 1000 →
      s.buoy.cal.isNone = true →
      (anchorAt s (fld r.payload 0 1)).relay.isNone = true →
        let t : State := { (commit (takeLatched s r) okAnchor (fld r.payload 0 1)) with
          p.anchors := tput s.p.anchors (fld r.payload 0 1) (anchorFrom (anchorSet s (fld r.payload 0 1)) r.payload)
          buoy.ctxDue := s.buoy.ctxDue ++ [fld r.payload 0 1] }
        Ends (.buoyAnchorSet r) r s t stOk ([]))
  ∧ (∀ (r : Request) (s : State),
      live s r = true →
      csnHolds s r [(okAnchor, (fld r.payload 0 1))] = true →
      r.payload.length = 32 →
      zeros r.payload 26 6 = true →
      zeros r.payload 2 24 = true →
      fld r.payload 1 1 = 2 →
      supOk s r = true →
      inModes s mCfg = true →
      fld r.payload 0 1 < 10 →
      s.buoy.cal.isNone = true →
      (anchorAt s (fld r.payload 0 1)).relay.isNone = true →
        let t : State := { (commit (takeLatched s r) okAnchor (fld r.payload 0 1)) with
          p.anchors := tput s.p.anchors (fld r.payload 0 1) { downCtr := (anchorSet s (fld r.payload 0 1)).downCtr }
          buoy.ctxDue := s.buoy.ctxDue ++ [fld r.payload 0 1] }
        Ends (.buoyAnchorSet r) r s t stOk ([]))
  ∧ (∀ (r : Request) (s : State),
      live s r = true →
      csnHolds s r [siteObj] = true →
      r.payload.length = 32 →
      zeros r.payload 10 2 = true →
      zeros r.payload 28 4 = true →
      allZero r.payload = false →
      supOk s r = true →
      inModes s mCfg = true →
      buoyCfgOk r.payload = true →
        let t : State := applyBuoyCfg (commit (takeLatched s r) okSite 0) (buoyCfgFrom s.p.buoyCfg r.payload)
        Ends (.buoyConfig r) r s t stOk (buoyCfgBytes t.p.buoyCfg))
  ∧ (∀ (r : Request) (s : State),
      live s r = true →
      r.payload.length = 8 →
      zeros r.payload 1 7 = true →
      fld r.payload 0 1 = 1 →
      supOk s r = true →
      inModes s [.zephyr, .watch] = true →
      s.buoy.cal.isNone = true →
      s.buoy.relayCmd.isNone = true →
        let who := links.filter fun l => inSync s l && surveyed s l
        GoesOn (.buoyCalibrate r) r s { startCal (takeLatched s r) who with buoy.cal := some { endFc := fcNow s + 100 * who.length + 100, who := who, req := r } } [])
  ∧ (∀ (r : Request) (s : State),
      live s r = true →
      csnHolds s r [siteObj] = true →
      r.payload.length = 32 →
      (zeros r.payload 2 2 && zeros r.payload 28 4 && (fld r.payload 1 1 != 0 || zeros r.payload 4 24) && (fld r.payload 1 1 != 1 || zeros r.payload 20 4)) = true →
      fld r.payload 0 1 ≠ 0xFF →
      supOk s r = true →
      inModes s mCfg = true →
      zoneOk r.payload = true →
        let t : State := { (commit (takeLatched s r) okSite 0) with
          p.zones := tput s.p.zones (fld r.payload 0 1) (zoneFrom r.payload)
          p.zoneRev := (s.p.zoneRev + 1) % 65536
          p.zoneEffect := effectSecond s
          buoy.zonesNext := s.buoy.zonesNext ++ [(effectSecond s, tput s.p.zones (fld r.payload 0 1) (zoneFrom r.payload))]
          buoy.zonesDirty := true }
        Ends (.buoyZoneSet r) r s t stOk ([]))
  ∧ (∀ (r : Request) (s : State),
      live s r = true →
      csnHolds s r [(okSession, r.slot)] = true →
      r.payload.length = 4 →
      zeros r.payload 1 3 = true →
      edt s 0x0530 = true →
      mramFog s = false →
      fld r.payload 0 1 = 1 ∨ fld r.payload 0 1 = 2 →
        let t : State := modSession (commit (takeLatched s r) okSession r.slot) r.slot fun e => { e with fixSub := if fld r.payload 0 1 = 1 then some (fcNow s) else none }
        Ends (.buoyFixSubscribe r) r s t stOk ([]))

/-- BUOY_RELAY starts, activates and aborts an image relay to the anchors of its mask. (R251, R252, R259, R574) -/
def Obligations.BuoyRelayCarriesOut : Prop :=
  (∀ (r : Request) (q : Request) (s : State) (len : Nat),
      withHead r 1 = q →
      live s q = true →
      q.payload.length = 24 →
      (zeros q.payload 1 1 && zeros q.payload 18 6 && decide (fld q.payload 2 2 < 1024) && zeros q.payload 8 10) = true →
      fld q.payload 2 2 ≠ 0 →
      svcOk s q = true →
      inModes s mWork = true →
      stagedLen s (fld q.payload 4 4) = some len →
      namedInSync s (fld q.payload 2 2) = true →
      s.buoy.relayCmd.isNone = true →
      s.buoy.cal.isNone = true →
        let u := (maskLinks (fld q.payload 2 2)).foldl (fun s l =>
          modAnchor (sendDownNow s l 0x04 (relayCtrl (anchorAt s l) 1 (fld q.payload 4 4) len none)) l fun a =>
            { a with relay := some { imageId := (fld q.payload 4 4), len := len, ackFc := fcNow s }, rstate := 1 }) (takeLatched s q)
        exec (.buoyRelayStart r) s = .next (accept { u with buoy.relayCmd := some { mask := (fld q.payload 2 2), req := q } } q 1 []))
  ∧ (∀ (r : Request) (q : Request) (s : State),
      withHead r 2 = q →
      live s q = true →
      q.payload.length = 24 →
      (zeros q.payload 1 1 && zeros q.payload 18 6 && decide (fld q.payload 2 2 < 1024) && true) = true →
      fld q.payload 2 2 ≠ 0 →
      svcOk s q = true →
      inModes s mWork = true →
      (namedInSync s (fld q.payload 2 2) && (stagedLen s (fld q.payload 4 4)).isSome && (maskLinks (fld q.payload 2 2)).all fun l => (anchorAt s l).rstate == 2) = true →
      startOfSecondNext s ≤ fullOf q.payload 8 →
      s.buoy.relayCmd.isNone = true →
      csnHolds s q (maskObjs (fld q.payload 2 2)) = true →
        exec (.buoyRelayActivate r) s = .next (finish (activateHeads (commitAll (takeLatched s q) (maskObjs (fld q.payload 2 2))) (fld q.payload 2 2) (fld q.payload 4 4) (fullOf q.payload 8)) q stOk (relayReply (fld q.payload 2 2) 0)))
  ∧ (∀ (r : Request) (q : Request) (s : State),
      withHead r 3 = q →
      live s q = true →
      q.payload.length = 24 →
      (zeros q.payload 1 1 && zeros q.payload 18 6 && decide (fld q.payload 2 2 < 1024) && zeros q.payload 8 10) = true →
      fld q.payload 2 2 ≠ 0 →
      svcOk s q = true →
      inModes s mWork = true →
      csnHolds s q (maskObjs (fld q.payload 2 2)) = true →
        let u := (maskLinks (fld q.payload 2 2)).foldl (fun s l =>
          modAnchor (sendDownNow s l 0x04 (relayCtrl (anchorAt s l) 3 (fld q.payload 4 4) 0 none)) l fun a => { a with relay := none, rstate := 0 }) (commitAll (takeLatched s q) (maskObjs (fld q.payload 2 2)))
        exec (.buoyRelayAbort r) s = .next (abortStart (finish u q stOk (relayReply (fld q.payload 2 2) 0)) (fld q.payload 2 2)))

/-- SESS_CONFIG, SESS_CLASS_SET and GET, SESS_ENROL, SESS_REVOKE, SESS_RELEASE, SESS_GET and SESS_LIST carry out their requests. (R284, R285, R286, R287, R288, R289, R290, R291, R574) -/
def Obligations.SessCommandsTakeEffect : Prop :=
  (∀ (r : Request) (s : State),
      live s r = true →
      csnHolds s r [siteObj] = true →
      r.payload.length = 16 →
      zeros r.payload 8 8 = true →
      allZero r.payload = false →
      supOk s r = true →
      inModes s mCfg = true →
      sessCfgOk (sessCfgFrom s.p.sessCfg r.payload) = true →
        let t : State := { (commit (takeLatched s r) okSite 0) with p.sessCfg := sessCfgFrom s.p.sessCfg r.payload }
        Ends (.sessConfig r) r s t stOk (sessCfgBytes (sessCfgFrom s.p.sessCfg r.payload)))
  ∧ (∀ (r : Request) (s : State),
      live s r = true →
      csnHolds s r [(okClass, (fld r.payload 0 1))] = true →
      r.payload.length = 48 →
      classRsv r.payload = true →
      supOk s r = true →
      inModes s (mCfg ++ [.breeze, .drift, .lull, .squall]) = true →
      fld r.payload 0 1 < 32 →
      (!bit (classFrom r.payload).flags 0 || classOk (classFrom r.payload)) = true →
      (!(classUsed s (fld r.payload 0 1) && (!bit (classFrom r.payload).flags 0 || !inModes s mCfg))) = true →
        let t : State := { (commit (takeLatched s r) okClass (fld r.payload 0 1)) with p.classes := tput s.p.classes (fld r.payload 0 1) (classFrom r.payload) }
        Ends (.sessClassSet r) r s t stOk ([]))
  ∧ (∀ (r : Request) (s : State),
      live s r = true →
      r.payload.length = 4 →
      zeros r.payload 1 3 = true →
      edt s 0x0604 = true →
      fld r.payload 0 1 < 32 →
        Ends (.sessClassGet r) r s (takeLatched s r) stOk (classBytes (fld r.payload 0 1) (tgetD s.p.classes (fld r.payload 0 1) {})))
  ∧ (∀ (r : Request) (s : State) (i k : Nat),
      live s r = true →
      csnHolds s r [(okRobot, i)] = true →
      r.payload.length = 16 →
      zeros r.payload 10 6 = true →
      supOk s r = true →
      inModes s mEnrol = true →
      bit (tgetD s.p.classes (fld r.payload 8 1) {}).flags 0 = true →
      (fld r.payload 9 1 == 0xFF || (robotRec s (fld r.payload 9 1)).sstate == .free) = true →
      (sessionOfEui s (BitVec.ofNat 64 (fld r.payload 0 8))).isNone = true →
      enrolAt s (fld r.payload 9 1) = some i →
      enrolPlace s (BitVec.ofNat 64 (fld r.payload 0 8)) = some k →
        let t : State := tagSess (enrolRobot (rptEnrol (commit (takeLatched s r) okRobot i) k i (BitVec.ofNat 64 (fld r.payload 0 8))) i (fld r.payload 8 1) (BitVec.ofNat 64 (fld r.payload 0 8))) i r
        Ends (.sessEnrol r) r s t stOk (le 1 i ++ zb 3))
  ∧ (∀ (r : Request) (s : State),
      live s r = true →
      csnHolds s r [(okRobot, (fld r.payload 0 1))] = true →
      r.payload.length = 4 →
      zeros r.payload 1 3 = true →
      supOk s r = true →
      inModes s mEnrol = true →
      (robotRec s (fld r.payload 0 1)).sstate = .enrolled ∨ (robotRec s (fld r.payload 0 1)).sstate = .lost →
      (robotRec s (fld r.payload 0 1)).lostHold = false →
        let t : State := tagSess (revokeRobot (commit (takeLatched s r) okRobot (fld r.payload 0 1)) (fld r.payload 0 1)) (fld r.payload 0 1) r
        Ends (.sessRevoke r) r s t stOk ([]))
  ∧ (∀ (r : Request) (s : State),
      live s r = true →
      r.payload.length = 4 →
      zeros r.payload 1 3 = true →
      supOk s r = true →
      inModes s [.calm, .zephyr, .breeze, .drift, .lull, .squall, .watch] = true →
      (robotRec s (fld r.payload 0 1)).lostHold = true →
      csnHolds s r [(okRobot, fld r.payload 0 1), (okHold, 256 + fld r.payload 0 1)] = true →
        let i := fld r.payload 0 1
        let t := commitAll (takeLatched s r) [(okRobot, i), (okHold, 256 + i)]
        let u : State := { t with p.robots := tmod t.p.robots i {} fun x => { x with lostHold := false } }
        let u := if (robotRec u i).sstate == .lost then tagSess (setSState u i .enrolled 0x0C) i r else u
        Ends (.sessRelease r) r s (removeHold u r (256 + i)) stOk [])
  ∧ (∀ (r : Request) (s : State) (i : Nat),
      live s r = true →
      r.payload.length = 16 →
      (zeros r.payload 2 6 && (fld r.payload 0 1 != 1 || zeros r.payload 8 8) && (fld r.payload 0 1 != 2 || zeros r.payload 1 1)) = true →
      edt s 0x0620 = true →
      sessNamed s r.payload = some i →
        Ends (.sessGet r) r s (takeLatched s r) stOk (sessReply s i))
  ∧ (∀ (r : Request) (s : State),
      live s r = true →
      r.payload = [] →
      edt s 0x0621 = true →
        Streams (.sessList r) r s (takeLatched s r) [(List.range 174).flatMap (sessEntry s), ((List.range 82).map (· + 174)).flatMap (sessEntry s)] 2)

/-- TASK_POST, TASK_MODIFY, TASK_CANCEL, TASK_GET, TASK_LIST and TASK_CONFIG carry out their requests. (R326, R327, R352, R353, R354, R355, R356, R574) -/
def Obligations.TaskCommandsTakeEffect : Prop :=
  (∀ (r : Request) (s : State) (idx : List Nat),
      live s r = true →
      8 ≤ r.payload.length ∧ r.payload.length = 8 + 160 * fld r.payload 0 1 →
      zeros r.payload 1 7 = true →
      ((List.range (fld r.payload 0 1)).map (postRec r.payload)).all taskRsv = true →
      inModes s mPost = true →
      s.strt.grid.cellMm ≠ 0 →
      1 ≤ fld r.payload 0 1 ∧ fld r.payload 0 1 ≤ 8 →
      (let recs := (List.range (fld r.payload 0 1)).map (postRec r.payload); ((recs.map taskFrom).zip (recs.map fun b => fld b 2 2)).all fun e => taskOk s e.1 e.2) = true →
      (let want := ((List.range (fld r.payload 0 1)).map (postRec r.payload)).map fun b => fld b 2 2; pickTasks s (want.filter (· != 0xFFFF)) (heldTasks s) want) = some idx →
      postBusy s ((((List.range (fld r.payload 0 1)).map (postRec r.payload)).map fun b => fld b 2 2).filter (· != 0xFFFF)) = false →
        exec (.taskPost r) s = .next (postFc (takeLatched s r) { req := r, todo := idx.zip (((List.range (fld r.payload 0 1)).map (postRec r.payload)).map taskFrom), planned := fld r.payload 0 1, firstFc := fcNow s }))
  ∧ (∀ (s : State) (q : PostRun) (j : Nat) (t : Task),
      q.todo = [(j, t)] →
      q.done = [] →
      csnHolds s q.req [(okTask, j)] = true →
        let u := moveTaskBy s q.req j .posted 1 { t with state := (taskAt s j).state }
        postFc s q = finish u q.req stOk (postReply { q with done := [j] }))
  ∧ (∀ (r : Request) (s : State),
      live s r = true →
      csnHolds s r [(okTask, (fld r.payload 0 2))] = true →
      r.payload.length = 32 →
      modifyRsv r.payload = true →
      inModes s mTask = true →
      taskNamed s (fld r.payload 0 2) = true →
      (modified r.payload (taskAt s (fld r.payload 0 2))).valueMs ≤ 3600000 →
      (!bit (fld r.payload 2 1) 4 || maskOk s (modified r.payload (taskAt s (fld r.payload 0 2))).classMask) = true →
      liveTask (modified r.payload (taskAt s (fld r.payload 0 2))).state = true →
      (bit (fld r.payload 2 1) 4 && excludesRobot s (modified r.payload (taskAt s (fld r.payload 0 2)))) = false →
        let t : State := putTask (commit (takeLatched s r) okTask (fld r.payload 0 2)) (fld r.payload 0 2) (modified r.payload (taskAt s (fld r.payload 0 2)))
        Ends (.taskModify r) r s t stOk ([]))
  ∧ (∀ (r : Request) (s : State),
      live s r = true →
      r.payload.length = 4 →
      zeros r.payload 3 1 = true →
      inModes s mTask = true →
      taskNamed s (fld r.payload 0 2) = true →
      fld r.payload 2 1 = 1 ∨ fld r.payload 2 1 = 2 →
      liveTask (taskAt s (fld r.payload 0 2)).state = true →
      csnHolds s r [(okTask, fld r.payload 0 2)] = true →
        let t := taskAt s (fld r.payload 0 2)
        let u := moveTaskBy (takeLatched s r) r (fld r.payload 0 2) .cancelled 6 t
        Ends (.taskCancel r) r s (if t.session = 0xFF then u else cancelRobot u t.session (fld r.payload 2 1 == 2)) stOk [])
  ∧ (∀ (r : Request) (s : State),
      live s r = true →
      r.payload.length = 4 →
      zeros r.payload 2 2 = true →
      edt s 0x0710 = true →
      fld r.payload 0 2 < 4096 →
        Ends (.taskGet r) r s (takeLatched s r) stOk (taskReply s (fld r.payload 0 2)))
  ∧ (∀ (r : Request) (s : State),
      live s r = true →
      r.payload.length = 4 →
      zeros r.payload 1 3 = true →
      edt s 0x0711 = true →
        let sel := (List.range 4096).filter fun j => bit (fld r.payload 0 1) (taskCode (taskAt s j).state)
        let parts := (groups 87 sel.length sel).map fun g => g.flatMap (taskEntry s)
        if parts.length ≤ 1 then Ends (.taskList r) r s (takeLatched s r) stOk parts.flatten else Streams (.taskList r) r s (takeLatched s r) parts 16)
  ∧ (∀ (r : Request) (s : State),
      live s r = true →
      csnHolds s r [siteObj] = true →
      r.payload.length = 16 →
      zeros r.payload 10 6 = true →
      allZero r.payload = false →
      supOk s r = true →
      inModes s mCfg = true →
      taskCfgOk (taskCfgFrom r.payload s.p.taskCfg) = true →
        let t : State := { (commit (takeLatched s r) okSite 0) with p.taskCfg := taskCfgFrom r.payload s.p.taskCfg }
        Ends (.taskConfig r) r s t stOk (taskCfgBytes (taskCfgFrom r.payload s.p.taskCfg)))

/-- STRT_GRID_SET, STRT_HOLD_SET, CLEAR and LIST, STRT_RESERVE_PATH, PATH_GET and PATH_REQUEST carry out their requests. (R319, R321, R322, R323, R324, R357, R358, R574) -/
def Obligations.ReservationCommandsTakeEffect : Prop :=
  (∀ (r : Request) (s : State),
      live s r = true →
      csnHolds s r [siteObj] = true →
      r.payload.length = 16 →
      zeros r.payload 6 2 = true →
      fld r.payload 0 2 ≠ 0 →
      supOk s r = true →
      inModes s mCfg = true →
      gridOk (gridFrom r.payload) = true →
      validEntries s = 0 →
      s.holds.isEmpty = true →
        let t : State := { (commit (takeLatched s r) okSite 0) with p.grid := gridFrom r.payload }
        Ends (.strtGridSet r) r s t stOk (gridBytes (gridFrom r.payload)))
  ∧ (∀ (r : Request) (s : State) (n : Nat),
      live s r = true →
      s.strt.holdSets < 4 →
      r.payload.length = 32 →
      (decide (fld r.payload 1 1 < 2) && zeros r.payload 2 2 && zeros r.payload 28 4) = true →
      (!bit (fld r.payload 1 1) 0 || supOk s r) = true →
      inModes s mHold = true →
      s.strt.grid.cellMm ≠ 0 →
      (rectOk s (fld r.payload 4 2) (fld r.payload 6 2) (fld r.payload 8 2) (fld r.payload 10 2) && nameOk (slice r.payload 12 16)) = true →
      pickHold s (fld r.payload 0 1) = some n →
      (tget s.holds n).isNone = true →
      standingCells s + (rectCells (fld r.payload 4 2, fld r.payload 6 2, fld r.payload 8 2, fld r.payload 10 2)).length ≤ 65536 →
      (!bit (fld r.payload 1 1) 0 || decide ((s.holds.filter fun e => e.2.persistent && !e.2.lost).length < 64)) = true →
      csnHolds s r [(okHold, n)] = true →
        let rect := (fld r.payload 4 2, fld r.payload 6 2, fld r.payload 8 2, fld r.payload 10 2)
        let u : State := { (takeLatched s r) with strt.holdSets := s.strt.holdSets + 1 }
        exec (.strtHoldSet r) s = .next (match reserve u (zoneKeys (rectCells rect)) with
          | (.done, _) =>
            match makeStanding u { present := true, persistent := bit (fld r.payload 1 1) 0, rect := rect, name := slice r.payload 12 16 } with
            | (some h, u) =>
              finish (raiseBy (putHold (commit u okHold n) n h) r 0x8801 .all (holdEvent n 1 h)) r stOk
                (le 2 n ++ le 1 (holdState h) ++ zb 1 ++ le 4 (holdCount h) ++ le 4 (holdPending h).length ++ zb 4 ++ le 8 h.activeSlot)
            | (none, u) => finish u r stTableFull []
          | (_, u) => finish u r stTableFull []))
  ∧ (∀ (r : Request) (s : State),
      4 ≤ s.strt.holdSets →
        exec (.strtHoldSet r) s = .next s)
  ∧ (∀ (r : Request) (s : State),
      live s r = true →
      csnHolds s r [(okHold, (fld r.payload 0 2))] = true →
      r.payload.length = 4 →
      zeros r.payload 2 2 = true →
      (let h := tgetD s.holds (fld r.payload 0 2) {}; h.present && !h.lost && (!h.persistent || supOk s r)) = true →
      inModes s mHold = true →
        let t : State := removeHold (commit (takeLatched s r) okHold (fld r.payload 0 2)) r (fld r.payload 0 2)
        Ends (.strtHoldClear r) r s t stOk ([]))
  ∧ (∀ (r : Request) (s : State),
      live s r = true →
      r.payload = [] →
      edt s 0x0812 = true →
        let parts := (groups 24 s.holds.length s.holds).map fun g => g.flatMap fun e => holdEntry s e.1 e.2
        if parts.length ≤ 1 then Ends (.strtHoldList r) r s (takeLatched s r) stOk parts.flatten else Streams (.strtHoldList r) r s (takeLatched s r) parts parts.length)
  ∧ (∀ (r : Request) (s : State) (runs : List (Nat × Nat × Nat × Nat × Nat × Nat)) (h : Nat),
      live s r = true →
      32 ≤ r.payload.length ∧ r.payload.length = 32 + 12 * fld r.payload 2 2 →
      (zeros r.payload 1 1 && zeros r.payload 4 4) = true →
      inModes s [.calm, .zephyr, .breeze, .drift, .lull, .squall, .watch] = true →
      s.strt.grid.cellMm ≠ 0 →
      1 ≤ fld r.payload 2 2 ∧ fld r.payload 2 2 ≤ 100 →
      runs = (List.range (fld r.payload 2 2)).map (runAt r.payload) →
      (runsOk s runs && nameOk (slice r.payload 16 16)) = true →
      pickHold s (fld r.payload 0 1) = some h →
      (tget s.holds h).isNone = true →
      (∀ q ∈ runs, slotNow s ≤ q.2.2.2.2.1) →
      csnHolds s r [(okHold, h)] = true →
        let keys := runs.flatMap keysOfRun
        match reserve (takeLatched s r) keys with
        | (.conflict pos i w c, u) => Ends (.strtReservePath r) r s u stStrtConflict (conflictPayload (keys.getD pos { cell := 0, kind := 0, owner := 0 }) pos i w c)
        | (.fill pos, u) => Ends (.strtReservePath r) r s u stTableFull (le 1 1 ++ zb 3 ++ le 4 pos)
        | (.chain pos, u) => Ends (.strtReservePath r) r s u stTableFull (le 1 2 ++ zb 3 ++ le 4 pos)
        | (.done, u) => ∃ t, Ends (.strtReservePath r) r s t stOk (le 1 h ++ zb 3 ++ le 4 keys.length)
            ∧ t.strt = u.strt ∧ (tgetD t.holds h {}).present = true ∧ (tgetD t.holds h {}).timed = true ∧ (tgetD t.holds h {}).runs = runs)
  ∧ (∀ (r : Request) (s : State),
      live s r = true →
      r.payload.length = 4 →
      zeros r.payload 1 3 = true →
      edt s 0x0830 = true →
      (robotRec s (fld r.payload 0 1)).sstate ≠ .free →
        Ends (.pathGet r) r s (takeLatched s r) stOk (pathReply s (fld r.payload 0 1)))
  ∧ (∀ (r : Request) (s : State),
      live s r = true →
      r.payload.length = 8 →
      (decide (fld r.payload 1 1 < 2) && zeros r.payload 3 1 && (bit (fld r.payload 1 1) 0 || zeros r.payload 2 1)) = true →
      inModes s [.breeze, .drift] = true →
      (robotRec s (fld r.payload 0 1)).sstate ≠ .free →
      fld r.payload 4 2 < s.strt.grid.nx ∧ fld r.payload 6 2 < s.strt.grid.ny →
      fld r.payload 2 1 < 8 →
      (planAt s (fld r.payload 0 1)).state = .parked →
      (planAt s (fld r.payload 0 1)).task.isNone = true →
      (requesters s).contains (fld r.payload 0 1) = false →
      csnHolds s r [(okPath, fld r.payload 0 1)] = true →
        GoesOn (.pathRequest r) r s { (takeLatched s r) with allot.pathReqs := s.allot.pathReqs ++ [r] } [])

/-- STOP_ALL and STOP_ROBOT request their stop unless the filter has, and the release is armed and confirmed. (R397, R398, R401, R402, R404, R574) -/
def Obligations.StopCommandsTakeEffect : Prop :=
  (∀ (r : Request) (s : State),
      live s r = true →
      r.payload.length = 16 →
      zeros r.payload 2 14 = true →
      edt s 0x0901 = true →
        exec (.stopAll r) s = .next (finishStop (if (filterRec s r).isSome then (takeLatched s r) else requestStop (takeLatched s r) 4) r (filterRec s r) stOk))
  ∧ (∀ (r : Request) (s : State),
      live s r = true →
      r.payload.length = 16 →
      (zeros r.payload 1 1 && zeros r.payload 4 12) = true →
      edt s 0x0902 = true →
      (robotRec s (fld r.payload 0 1)).sstate ≠ .free →
        exec (.stopRobot r) s = .next (finishStop (if (filterRec s r).isSome then (takeLatched s r) else requestRobotStop (takeLatched s r) (fld r.payload 0 1) 1) r (filterRec s r) stOk))
  ∧ (∀ (s : State) (r : Request) (hit : Option FilterRec),
      (callerOf s r).isSome = true →
        ∃ x pre, (finishStop s r hit stOk).com.replies = pre ++ [x] ∧ pre = s.com.replies ∧ x.flags = fFinal + (if hit.isSome then fStopFilter else 0) ∧ x.status = stOk)
  ∧ (∀ (r : Request) (s : State),
      live s r = true →
      r.payload.length = 8 →
      (zeros r.payload 2 6 && (!(fld r.payload 0 1 == 1) || zeros r.payload 1 1)) = true →
      supOk s r = true →
      inModes s mRelease = true →
      fld r.payload 0 1 = 1 ∨ fld r.payload 0 1 = 2 →
      releasable s (fld r.payload 0 1 == 1) (fld r.payload 1 1) = true →
      blocking s (fld r.payload 0 1 == 1) = 0 →
      (∀ a ∈ pendingArms s, a.sessionId = r.sessionId) →
        let id := s.stop.armIds % (2 ^ 32 - 1) + 1
        Ends (.stopReleaseArm r) r s { (takeLatched s r) with
          stop.armIds := id
          stop.arms := s.stop.arms.filter (fun a => a.sessionId != r.sessionId)
            ++ [{ armId := id, sessionId := r.sessionId, site := fld r.payload 0 1 == 1, robot := fld r.payload 1 1, fc := fcNow s }] } stOk (le 4 id ++ zb 4))
  ∧ (∀ (r : Request) (s : State) (a : ReleaseArm),
      live s r = true →
      csnHolds s r [(okRobot, a.robot)] = true →
      r.payload.length = 8 →
      zeros r.payload 4 4 = true →
      supOk s r = true →
      inModes s mRelease = true →
      (s.stop.arms.find? fun a => a.sessionId == r.sessionId && a.armId == fld r.payload 0 4) = some a →
      a.site = false →
      blocking s false = 0 →
      releaseInputOk s = true →
      fcNow s ≤ a.fc + 500 →
        let t : State := { (commit (takeLatched s r) okRobot a.robot) with stop.arms := s.stop.arms.filter (fun x => x.armId != a.armId), stop.release := some (false, a.robot) }
        Ends (.stopReleaseConfirm r) r s t stOk (le 8 (fcNow s + 1)))
  ∧ (∀ (r : Request) (s : State) (a : ReleaseArm),
      live s r = true →
      csnHolds s r [siteObj] = true →
      r.payload.length = 8 →
      zeros r.payload 4 4 = true →
      supOk s r = true →
      inModes s mRelease = true →
      (s.stop.arms.find? fun a => a.sessionId == r.sessionId && a.armId == fld r.payload 0 4) = some a →
      a.site = true →
      blocking s true = 0 →
      releaseInputOk s = true →
      fcNow s ≤ a.fc + 500 →
        let t : State := { (commit (takeLatched s r) okSite 0) with stop.arms := s.stop.arms.filter (fun x => x.armId != a.armId), stop.release := some (true, a.robot) }
        Ends (.stopReleaseConfirm r) r s t stOk (le 8 (fcNow s + 1)))

/-- RADIO_CONFIG, RADIO_TEST and the CAN opcodes carry out their requests. (R437, R439, R443, R455, R456, R457, R458, R459, R460, R461, R574) -/
def Obligations.RadioAndCanCommandsTakeEffect : Prop :=
  (∀ (r : Request) (s : State),
      live s r = true →
      csnHolds s r [siteObj] = true →
      r.payload.length = 32 →
      zeros r.payload 16 16 = true →
      allZero r.payload = false →
      supOk s r = true →
      inModes s mCfg = true →
      radioOk s (radioFrom s r.payload) = true →
        let t : State := applyRadioCfg r.payload (radioFrom s r.payload) (commit (takeLatched s r) okSite 0)
        Ends (.radioConfig r) r s t stOk (radioCfgReply t))
  ∧ (∀ (r : Request) (q : Request) (s : State),
      withAction r 1 = q →
      live s q = true →
      q.payload.length = 8 →
      zeros q.payload 4 4 = true →
      fld q.payload 1 1 = 1 →
      svcOk s q = true →
      s.mode.cur = .watch →
      1 ≤ fld q.payload 0 1 ∧ fld q.payload 0 1 ≤ 3 →
      1 ≤ fld q.payload 2 2 ∧ fld q.payload 2 2 ≤ 3600 →
      testRunning s (fld q.payload 0 1) = false →
        Ends (.radioTestStart r) q s (setTest (takeLatched s q) (fld q.payload 0 1) (some (fcNow s + 1 + 100 * fld q.payload 2 2))) stOk [])
  ∧ (∀ (r : Request) (q : Request) (s : State),
      withAction r 2 = q →
      live s q = true →
      q.payload.length = 8 →
      zeros q.payload 4 4 = true →
      fld q.payload 1 1 = 2 →
      fld q.payload 2 2 = 0 →
      svcOk s q = true →
      s.mode.cur = .watch →
      1 ≤ fld q.payload 0 1 ∧ fld q.payload 0 1 ≤ 3 →
        Ends (.radioTestEnd r) q s (setTest (takeLatched s q) (fld q.payload 0 1) none) stOk [])
  ∧ (∀ (r : Request) (s : State),
      live s r = true →
      r.payload.length = 4 →
      zeros r.payload 1 3 = true →
      edt s 0x0B01 = true →
      fld r.payload 0 1 < 2 →
        Ends (.canStatus r) r s (takeLatched s r) stOk (canStatusReply s (fld r.payload 0 1)))
  ∧ (∀ (r : Request) (s : State),
      live s r = true →
      csnHolds s r [siteObj] = true →
      r.payload.length = 40 →
      (decide ((canCfgFrom r.payload).wakeId < 2 ^ 11) && decide ((canCfgFrom r.payload).wakeIdMask < 2 ^ 11) && zeros r.payload 32 8) = true →
      supOk s r = true →
      inModes s mCfg = true →
      fld r.payload 0 1 < 2 →
      canCfgOk (canCfgFrom r.payload) = true →
      isNodeId (canSet s (fld r.payload 0 1)) false (canCfgFrom r.payload).stopId none = false →
        let t : State := modCan (modCanSet (commit (takeLatched s r) okSite 0) (fld r.payload 0 1) fun x => { x with cfg := canCfgFrom r.payload }) (fld r.payload 0 1) fun x => { x with restart := true }
        Ends (.canConfig r) r s t stOk ([]))
  ∧ (∀ (r : Request) (s : State),
      live s r = true →
      csnHolds s r [siteObj] = true →
      r.payload.length = 20 →
      (zeros r.payload 2 2 && decide ((ruleFrom r.payload).idValue < 2 ^ 29) && decide ((ruleFrom r.payload).idMask < 2 ^ 29) && decide ((ruleFrom r.payload).fmt < 16) && zeros r.payload 16 4) = true →
      (ruleFrom r.payload).action ≤ 3 →
      supOk s r = true →
      inModes s mNorm = true →
      fld r.payload 0 1 < 2 →
      (ruleFrom r.payload).minLen ≤ (ruleFrom r.payload).maxLen ∧ (ruleFrom r.payload).maxLen ≤ 64 →
        let t : State := modCan (modCanSet (commit (takeLatched s r) okSite 0) (fld r.payload 0 1) fun x => { x with rules := tput x.rules (fld r.payload 1 1) (ruleFrom r.payload) }) (fld r.payload 0 1) fun c => { c with hits := tdel c.hits (fld r.payload 1 1) }
        Ends (.canRuleSet r) r s t stOk ([]))
  ∧ (∀ (r : Request) (s : State),
      live s r = true →
      r.payload.length = 20 →
      (ruleFrom r.payload).action = 0xFF →
      (zeros r.payload 2 2 && decide ((ruleFrom r.payload).idValue < 2 ^ 29) && decide ((ruleFrom r.payload).idMask < 2 ^ 29) && decide ((ruleFrom r.payload).fmt < 16) && zeros r.payload 16 4) = true →
      zeros r.payload 0 13 = true →
      zeros r.payload 14 6 = true →
      edt s 0x0B10 = true →
        let part (a n : Nat) : Bytes := ((List.range n).map (· + a)).flatMap fun i => ruleBytes (tgetD (canSet s (fld r.payload 0 1)).rules i {}) (tgetD (canAt s (fld r.payload 0 1)).hits i 0)
        Streams (.canRuleSet r) r s (takeLatched s r) [part 0 87, part 87 87, part 174 82] 3)
  ∧ (∀ (r : Request) (s : State),
      live s r = true →
      csnHolds s r [siteObj] = true →
      r.payload.length = 16 →
      fld r.payload 4 4 < 2 ^ 29 →
      supOk s r = true →
      inModes s mCfg = true →
      fld r.payload 0 1 < 2 ∧ fld r.payload 1 1 < 16 →
      fld r.payload 2 1 = 1 ∨ fld r.payload 2 1 = 2 →
      fld r.payload 3 1 ≤ 1 →
      (fld r.payload 3 1 == 1 || decide (fld r.payload 4 4 < 2 ^ 11)) = true →
      nameOk (slice r.payload 8 8) = true →
      (!(fld r.payload 3 1 == 1) && fld r.payload 4 4 == (canSet s (fld r.payload 0 1)).cfg.stopId) = false →
      isNodeId (canSet s (fld r.payload 0 1)) (fld r.payload 3 1 == 1) (fld r.payload 4 4) (some (fld r.payload 1 1)) = false →
        let t : State := modCanSet (commit (takeLatched s r) okSite 0) (fld r.payload 0 1) fun x => { x with nodes := tput x.nodes (fld r.payload 1 1) { enable := fld r.payload 2 1 == 1, ide := fld r.payload 3 1 == 1, stopId := fld r.payload 4 4, name := slice r.payload 8 8 } }
        Ends (.canNodeSet r) r s t stOk ([]))
  ∧ (∀ (r : Request) (s : State) (l : List Bytes),
      live s r = true →
      4 ≤ r.payload.length →
      sendFrames (fld r.payload 1 1) (r.payload.drop 4) = some l →
      (zeros r.payload 2 2 && l.all sendRsv) = true →
      inModes s mRun = true →
      fld r.payload 0 1 < 2 →
      1 ≤ fld r.payload 1 1 ∧ fld r.payload 1 1 ≤ 8 →
      ((l.map fun f => sendFrame f (canAt s (fld r.payload 0 1)).cfg r.sessionId).all (sendOk (canSet s (fld r.payload 0 1)))) = true →
      (canRoom (takeLatched s r) (fld r.payload 0 1) (l.map fun f => sendFrame f (canAt s (fld r.payload 0 1)).cfg r.sessionId) && (canAt s (fld r.payload 0 1)).state != .asleep && (canAt s (fld r.payload 0 1)).state != .disabled && (canAt s (fld r.payload 0 1)).state != .off) = true →
        let q := 0x31 + 2 * fld r.payload 0 1
        Ends (.canSend r) r s (arrived (modCan (takeLatched s r) (fld r.payload 0 1) fun c => { c with txq := c.txq ++ l.map fun f => sendFrame f (canAt s (fld r.payload 0 1)).cfg r.sessionId }) q (occOf (takeLatched s r) q)) stOk [])
  ∧ (∀ (r : Request) (s : State),
      live s r = true →
      csnHolds s r [(okSession, r.slot)] = true →
      r.payload.length = 4 →
      zeros r.payload 2 2 = true →
      edt s 0x0B21 = true →
      fld r.payload 0 1 < 2 →
      fld r.payload 1 1 = 1 ∨ fld r.payload 1 1 = 2 →
        let t : State := modSession (commit (takeLatched s r) okSession r.slot) r.slot fun e => { e with canSub := e.canSub.set (fld r.payload 0 1) (if fld r.payload 1 1 = 1 then some (fcNow s) else none) }
        Ends (.canSubscribe r) r s t stOk ([]))
  ∧ (∀ (r : Request) (q : Request) (s : State),
      withCanAction r 1 = q →
      live s q = true →
      q.payload.length = 4 →
      zeros q.payload 2 2 = true →
      fld q.payload 1 1 = 1 →
      supOk s q = true →
      inModes s [.calm, .zephyr, .breeze, .drift, .lull, .watch] = true →
      fld q.payload 0 1 < 2 →
      s.stop.voted = true →
      csnHolds s q [siteObj] = true →
        let t := modCan (commit (takeLatched s q) okSite 0) (fld q.payload 0 1) fun c => if canOn c || c.state == .busOff then { c with sleepDue := some (fcNow s) } else c
        Ends (.canSleepSleep r) q s t stOk [])
  ∧ (∀ (r : Request) (q : Request) (s : State),
      withCanAction r 2 = q →
      live s q = true →
      q.payload.length = 4 →
      zeros q.payload 2 2 = true →
      fld q.payload 1 1 = 2 →
      supOk s q = true →
      inModes s [.calm, .zephyr, .breeze, .drift, .lull, .watch] = true →
      fld q.payload 0 1 < 2 →
      csnHolds s q [siteObj] = true →
        let t := modCan (commit (takeLatched s q) okSite 0) (fld q.payload 0 1) (wakeChan (fcNow s) 6 true true)
        Ends (.canSleepWake r) q s t stOk [])

/-- The KEY opcodes and ATTEST_GET carry out their requests for a SERVICE session. (R498, R499, R500, R501, R502, R503, R504, R505, R574) -/
def Obligations.KeyCommandsTakeEffect : Prop :=
  (∀ (r : Request) (s : State),
      live s r = true →
      r.payload.length = 40 →
      zeros r.payload 1 7 = true →
      fld r.payload 0 1 = 2 →
      zeros r.payload 8 32 = false →
      svcOk s r = true →
      s.mode.cur = .tender →
      siteValid s = false →
      csnHolds s r [(okKey, 0)] = true →
        exec (.keySiteInstall r) s = .next (beginChange (takeLatched s r) r 0 (installed (keySlot s 0) 1 32 0 (slice r.payload 8 32)) false (le 2 (keySlot s 0).gen ++ zb 2 ++ (hmac256 (slice r.payload 8 32) (ascii "KCV")).take 4)))
  ∧ (∀ (r : Request) (s : State),
      live s r = true →
      r.payload.length = 40 →
      zeros r.payload 1 7 = true →
      fld r.payload 0 1 = 1 →
      zeros r.payload 8 32 = true →
      svcOk s r = true →
      s.mode.cur = .tender →
      siteValid s = false →
      csnHolds s r [(okKey, 0)] = true →
        ∃ u key, freshBytes (takeLatched s r) 32 = (key, u) ∧ exec (.keySiteInstall r) s = .next (beginChange u r 0 (installed (keySlot s 0) 1 32 0 key) false (le 2 (keySlot s 0).gen ++ zb 2 ++ (hmac256 key (ascii "KCV")).take 4)))
  ∧ (∀ (r : Request) (s : State),
      live s r = true →
      r.payload.length = 8 →
      zeros r.payload 1 3 = true →
      svcOk s r = true →
      inModes s mCfg = true →
      fld r.payload 0 1 < 64 →
      (keySlot s (fld r.payload 0 1)).valid = true →
      fld r.payload 4 4 = 0xDE57 →
      csnHolds s r [(okKey, fld r.payload 0 1)] = true →
        exec (.keyDestroy r) s = .next (beginChange (takeLatched s r) r (fld r.payload 0 1) (destroyed (keySlot s (fld r.payload 0 1))) true []))
  ∧ (∀ (r : Request) (s : State),
      live s r = true →
      r.payload.length = 24 →
      zeros r.payload 1 7 = true →
      svcOk s r = true →
      inModes s mCfg = true →
      fld r.payload 0 1 ≤ 9 →
      csnHolds s r [(okKey, fld r.payload 0 1 + 1)] = true →
        exec (.keyAnchorSet r) s = .next (beginChange (takeLatched s r) r (fld r.payload 0 1 + 1) (installed (keySlot s (fld r.payload 0 1 + 1)) 2 16 0 (slice r.payload 8 16)) false []))
  ∧ (∀ (r : Request) (s : State) (i : Nat),
      live s r = true →
      r.payload.length = 32 →
      zeros r.payload 1 7 = true →
      svcOk s r = true →
      inModes s mCfg = true →
      (fld r.payload 0 1 == 0xFF || (decide (11 ≤ fld r.payload 0 1) && decide (fld r.payload 0 1 ≤ 63))) = true →
      linkSlotNamed s (fld r.payload 0 1) = some i →
      (linkSlotOf s (BitVec.ofNat 64 (fld r.payload 8 8))).all (· == i) = true →
      csnHolds s r [(okKey, i)] = true →
        exec (.keyLinkSet r) s = .next (beginChange (takeLatched s r) r i (installed (keySlot s i) 3 16 (BitVec.ofNat 64 (fld r.payload 8 8)) (slice r.payload 16 16)) false (le 1 i ++ zb 3)))
  ∧ (∀ (s : State) (r : Request) (i : Nat) (new : KeySlot) (destroy : Bool) (reply : Bytes),
        let t := beginChange s r i new destroy reply
        (keySlot t i).shadow = true ∧ (keySlot t i).valid = (keySlot s i).valid ∧ t.com = s.com ∧ t.p = s.p ∧ t.sec.change.length = s.sec.change.length + 1)
  ∧ (∀ (r : Request) (s : State),
      live s r = true →
      r.payload.length = 8 →
      svcOk s r = true →
      r.port = .l23 →
      inModes s mCfg = true →
      (siteValid s || (linkSlotOf s (BitVec.ofNat 64 (fld r.payload 0 8))).isSome) = true →
        let e := BitVec.ofNat 64 (fld r.payload 0 8)
        Ends (.keyRobotExport r) r s (takeLatched s r) stOk (fit 16 (linkKey s e) ++ le 1 (if (linkSlotOf s e).isSome then 2 else 1) ++ zb 7 ++ fingerprint s.fuse.secret))
  ∧ (∀ (r : Request) (s : State),
      live s r = true →
      csnHolds s r [siteObj] = true →
      r.payload.length = 4 →
      fld r.payload 0 1 < 4 →
      zeros r.payload 1 3 = true →
      svcOk s r = true →
      inModes s mWork = true →
      fld r.payload 0 1 ≠ 0 →
      s.p.keys.roll.isNone = true →
      siteValid s = true →
        let t : State := let u : State := { (commit (takeLatched s r) okSite 0) with p.keys.roll := some (fld r.payload 0 1, rollFc (fcNow s)) }
          let u := (associatedSessions u).foldl (fun x i => queueMsg x 3 (some i) (keyMessage x true (rollFc (fcNow s)))) u
          rollEvent u (tagOf u r) 6 (if bit (fld r.payload 0 1) 1 then nextGen s.p.keys.beaconGen else s.p.keys.beaconGen) (if bit (fld r.payload 0 1) 0 then nextGen s.p.keys.groupGen else s.p.keys.groupGen) (rollFc (fcNow s))
        Ends (.keyRoll r) r s t stOk (le 8 (rollFc (fcNow s)) ++ le 2 (if bit (fld r.payload 0 1) 0 then nextGen s.p.keys.groupGen else s.p.keys.groupGen) ++ le 2 (if bit (fld r.payload 0 1) 1 then nextGen s.p.keys.beaconGen else s.p.keys.beaconGen) ++ zb 4))
  ∧ (∀ (r : Request) (s : State),
      live s r = true →
      csnHolds s r [siteObj] = true →
      r.payload.length = 8 →
      (!bit (fld r.payload 1 1) 5 && !bit (fld r.payload 1 1) 6 && (bit (fld r.payload 1 1) 7 || fld r.payload 1 1 == 0) && zeros r.payload 4 4) = true →
      allZero r.payload = false →
      svcOk s r = true →
      inModes s [.tender, .calm, .zephyr, .lull, .squall, .watch] = true →
      (decide (fld r.payload 0 1 ≤ 2) && (decide (fld r.payload 2 2 ≤ 3600) || fld r.payload 2 2 == 0xFFFF)) = true →
      (fld r.payload 0 1 == 2 && s.bk.latched) = false →
        let t : State := let policy := if fld r.payload 0 1 = 0 then none else some (fld r.payload 0 1)
          let enable := if bit (fld r.payload 1 1) 7 then some (fld r.payload 1 1 % 32) else none
          { (commit (takeLatched s r) okSite 0) with
            p.keys.tamperPolicy := policy.getD s.p.keys.tamperPolicy
            p.keys.tamperEnable := enable.getD s.p.keys.tamperEnable
            sec.tamperNext := mergeTamper s.sec.tamperNext policy enable (fld r.payload 2 2) }
        Ends (.keyTamperConfig r) r s t stOk (tamperReply (applyTamper t)))
  ∧ (∀ (r : Request) (s : State),
      live s r = true →
      csnHolds s r [siteObj] = true →
      r.payload.length = 4 →
      svcOk s r = true →
      inModes s mCfg = true →
      fld r.payload 0 4 = 0x7A3C →
      s.bk.latched = true →
      ((List.range 5).all fun i => !(bit s.bk.tsrcNow i && bit s.bk.enable i)) = true →
        let t : State := { (commit (takeLatched s r) okSite 0) with bk.latched := false, bk.tsrc := 0, bk.firstTrip := 0 }
        Ends (.keyTamperClear r) r s t stOk ([]))
  ∧ (∀ (r : Request) (s : State),
      live s r = true →
      r.payload.length = 16 →
      allZero r.payload = true →
      edt s 0x0C30 = true →
        Ends (.attestGet r) r s (takeLatched s r) stOk (fit 496 s.sec.attest))
  ∧ (∀ (r : Request) (s : State),
      live s r = true →
      r.payload.length = 16 →
      allZero r.payload = false →
      edt s 0x0C30 = true →
      s.sec.freshUsed < 4 →
        exec (.attestGet r) s = .next { (takeLatched s r) with sec.fresh := s.sec.fresh ++ [r], sec.freshUsed := s.sec.freshUsed + 1 })

/-- The UPD opcodes carry out their requests for a SERVICE session. (R526, R527, R528, R529, R530, R532, R574) -/
def Obligations.UpdateCommandsTakeEffect : Prop :=
  (∀ (r : Request) (s : State),
      live s r = true →
      r.payload.length = 120 →
      zeros r.payload 60 4 = true →
      zeros r.payload 112 8 = true →
      svcOk s r = true →
      inModes s mDownload = true →
      1 ≤ fld r.payload 16 8 ∧ fld r.payload 16 8 ≤ 67100672 →
      s.upd.state = 0 ∨ s.upd.state = 3 →
      csnHolds s r [siteObj] = true →
        if capsuleGood (takeLatched s r) (slice r.payload 0 16) (slice r.payload 24 88) then
          let t := setUpdBy (discardReady (cacheKey (commit (takeLatched s r) okSite 0) 287 1)) r 1 1
          let t : State := { t with
            upd.pkgId := slice r.payload 0 16
            upd.len := fld r.payload 16 8
            upd.capsule := slice r.payload 24 88
            upd.blocks := []
            upd.staged := false
            upd.blocksEver := pkgBlocks (fld r.payload 16 8) }
          Ends (.updBegin r) r s t stOk (le 4 (pkgBlocks (fld r.payload 16 8)) ++ le 4 (blocksLeft t))
        else Ends (.updBegin r) r s (takeLatched s r) stImageInvalid [])
  ∧ (∀ (r : Request) (s : State),
      live s r = true →
      r.payload.length = 120 →
      zeros r.payload 60 4 = true →
      zeros r.payload 112 8 = true →
      svcOk s r = true →
      inModes s mDownload = true →
      1 ≤ fld r.payload 16 8 ∧ fld r.payload 16 8 ≤ 67100672 →
      s.upd.state = 1 →
      s.upd.pkgId = slice r.payload 0 16 →
      s.upd.len = fld r.payload 16 8 →
      csnHolds s r [siteObj] = true →
        if capsuleGood (takeLatched s r) (slice r.payload 0 16) (slice r.payload 24 88) then
          let t : State := { cacheKey (commit (takeLatched s r) okSite 0) 287 1 with upd.capsule := slice r.payload 24 88 }
          Ends (.updBegin r) r s t stOk (le 4 (pkgBlocks (fld r.payload 16 8)) ++ le 4 (blocksLeft t))
        else Ends (.updBegin r) r s (takeLatched s r) stImageInvalid [])
  ∧ (∀ (r : Request) (s : State),
      live s r = true →
      8 ≤ r.payload.length ∧ r.payload.length = 8 + fld r.payload 4 2 →
      zeros r.payload 6 2 = true →
      svcOk s r = true →
      inModes s mDownload = true →
      s.upd.state = 1 →
      fld r.payload 0 4 < s.upd.blocksEver →
      fld r.payload 4 2 = blockLen s (fld r.payload 0 4) →
        let t : State := { (takeLatched s r) with upd.blocks := tput s.upd.blocks (fld r.payload 0 4) (r.payload.drop 8) }
        Ends (.updData r) r s t stOk (le 4 (blocksLeft t)))
  ∧ (∀ (r : Request) (s : State),
      live s r = true →
      r.payload = [] →
      svcOk s r = true →
      inModes s mDownload = true →
      s.upd.state = 1 →
      blocksLeft s = 0 →
      s.upd.finish.isNone = true →
      csnHolds s r [siteObj] = true →
        GoesOn (.updFinish r) r s { (takeLatched s r) with upd.finish := some (fcNow s + verifyFcs s.upd.len, fcNow s + verifyFcs s.upd.len + writeFcs s.upd.len, r) } [])
  ∧ (∀ (r : Request) (s : State),
      live s r = true →
      r.payload = [] →
      svcOk s r = true →
      inModes s mDownload = true →
      s.upd.state = 1 →
      s.upd.finish.isNone = true →
      s.upd.act.isNone = true →
      csnHolds s r [siteObj] = true →
        Ends (.updAbort r) r s (setUpdBy (commit (stopFinish (takeLatched s r)) okSite 0) r 0 1) stOk [])
  ∧ (∀ (r : Request) (s : State) (x : Activation),
      live s r = true →
      r.payload = [] →
      svcOk s r = true →
      inModes s mDownload = true →
      s.upd.state = 4 →
      fcNow s + 1 < actFc s →
      s.upd.finish.isNone = true →
      s.upd.act = some x →
      csnHolds s r [siteObj] = true →
        Ends (.updAbort r) r s (setUpdBy (commit (finishI { (takeLatched s r) with upd.act := none } x.req intNone stInterrupted []) okSite 0) r 3 0x0A) stOk [])
  ∧ (∀ (r : Request) (s : State),
      live s r = true →
      r.payload = [] →
      svcOk s r = true →
      inModes s mUpd = true →
      s.upd.state = 3 →
      csnHolds s r [siteObj] = true →
        let v : Activation := { a := nextActFc (fcNow s), n := fcNow s, restart := bit (otherSlot s).pkg.pflags 0, target := !s.flash.active, req := r }
        exec (.updActivate r) s = .next (accept (setUpdBy { commit (takeLatched s r) okSite 0 with upd.act := some { v with last := (commit (takeLatched s r) okSite 0).com.csn } } r 4 1) r (if v.restart then 2 else 3) (le 8 v.a)))
  ∧ (∀ (r : Request) (s : State),
      live s r = true →
      r.payload = [] →
      svcOk s r = true →
      inModes s mUpd = true →
      s.upd.state = 7 →
      (otherSlot s).state = 3 →
      csnHolds s r [siteObj] = true →
        let v : Activation := { a := nextActFc (fcNow s), n := fcNow s, restart := bit (activeSlot s).pkg.pflags 0, revert := true, target := !s.flash.active, req := r }
        exec (.updRevert r) s = .next (accept (setUpdBy { commit (takeLatched s r) okSite 0 with upd.act := some { v with last := (commit (takeLatched s r) okSite 0).com.csn } } r 4 1) r (if v.restart then 2 else 3) (le 8 v.a)))
  ∧ (∀ (r : Request) (s : State),
      live s r = true →
      r.payload.length = 16 →
      (decide (fld r.payload 10 1 < 2) && zeros r.payload 11 1 && decide (fld r.payload 12 2 < 1024) && zeros r.payload 14 2) = true →
      svcOk s r = true →
      inModes s mUpd = true →
      fullOf r.payload 0 % ftuPerSec = 0 →
      fcOfTime (fullOf r.payload 0) ≤ fcNow s + 259200000 →
      s.upd.state = 3 →
      (maskLinks (fld r.payload 12 2)).all (headReady s) = true →
      fcNow s + 200 ≤ fcOfTime (fullOf r.payload 0) →
      csnHolds s r [siteObj] = true →
        let v : Activation := { a := fcOfTime (fullOf r.payload 0), n := fcNow s, restart := bit (otherSlot s).pkg.pflags 0, requireLocked := bit (fld r.payload 10 1) 0, linkMask := fld r.payload 12 2, target := !s.flash.active, req := r }
        exec (.updActivateAt r) s = .next (accept (setUpdBy { commit (takeLatched s r) okSite 0 with upd.act := some { v with last := (commit (takeLatched s r) okSite 0).com.csn } } r 4 1) r (if v.restart then 2 else 3) (le 8 v.a)))
  ∧ (∀ (r : Request) (s : State),
      live s r = true →
      csnHolds s r [siteObj] = true →
      r.payload = [] →
      svcOk s r = true →
      inModes s mUpd = true →
      s.upd.state = 7 →
      s.upd.safFailed = false →
        let t : State := let floor := (activeSlot (commit (takeLatched s r) okSite 0)).pkg.rollback
          let u := modSlot (commit (takeLatched s r) okSite 0) s.flash.active fun x => { x with state := 3, floor := floor }
          let u := setUpdBy (modSlot u (!s.flash.active) fun x => { x with floor := floor }) r 0 8
          { u with
            p.upd.dual := false
            p.upd.oldFormat := none
            upd.safNew := 0 }
        Ends (.updConfirm r) r s t stOk ([]))

/-- The JRNL and DIAG opcodes carry out their requests. (R101, R102, R567, R568, R569, R570, R571, R572, R574) -/
def Obligations.JournalAndDiagnosticsCommandsAnswer : Prop :=
  (∀ (r : Request) (s : State),
      live s r = true →
      r.payload.length = 40 →
      (zeros r.payload 1 1 && zeros r.payload 18 6 && queryUnused r.payload) = true →
      (isSup (roleOf s r) || fld r.payload 0 1 != 3) = true →
      edt s 0x0E01 = true →
      queryRange r.payload = true →
        Ends (.jrnlQuery r) r s (takeLatched s r) stOk (queryReply r (takeLatched s r)))
  ∧ (∀ (r : Request) (s : State),
      live s r = true →
      r.payload.length = 16 →
      zeros r.payload 10 6 = true →
      edt s 0x0E02 = true →
      1 ≤ fld r.payload 8 2 ∧ fld r.payload 8 2 ≤ 21 →
        Ends (.jrnlEventRead r) r s (takeLatched s r) stOk (eventReadReply r.payload s))
  ∧ (∀ (r : Request) (s : State) (l : List Nat),
      live s r = true →
      r.payload.length = 4 →
      zeros r.payload 2 2 = true →
      edt s 0x0F02 = true →
      counterGroup s (fld r.payload 0 1) (fld r.payload 1 1) = some l →
        Ends (.diagCounters r) r s (takeLatched s r) stOk (le 2 l.length ++ zb 2 ++ l.flatMap fun x => le 4 (sat 32 x)))
  ∧ (∀ (r : Request) (s : State) (l : List (Nat × SpillQueue)),
      live s r = true →
      r.payload.length = 4 →
      zeros r.payload 1 3 = true →
      edt s 0x0F03 = true →
      l = queuesNamed (takeLatched s r) (fld r.payload 0 1) →
      l ≠ [] →
        Ends (.diagQueueStatus r) r s (l.foldl (fun s e => if e.2.overrun then setQueue s e.1 { e.2 with overrun := false } else s) (takeLatched s r)) stOk (l.flatMap fun e => queueEntry (takeLatched s r) e.1 e.2))
  ∧ (∀ (r : Request) (s : State) (k : QParam),
      live s r = true →
      csnHolds s r [siteObj] = true →
      r.payload.length = 12 →
      zeros r.payload 1 3 = true →
      supOk s r = true →
      inModes s mCfg = true →
      qParam (fld r.payload 0 1) = some k →
      (fld r.payload 4 4 == 0 || (k.minDepth != k.maxDepth && decide (k.minDepth ≤ fld r.payload 4 4) && decide (fld r.payload 4 4 ≤ k.maxDepth))) = true →
      fld r.payload 8 4 ≤ (if fld r.payload 4 4 = 0 then depthCfg s (fld r.payload 0 1) k else fld r.payload 4 4) →
        let t : State := let c := tgetD s.p.queueCfg (fld r.payload 0 1) {}
          let c := { c with
            depth := if fld r.payload 4 4 = 0 then c.depth else fld r.payload 4 4
            level := if fld r.payload 8 4 = 0 then c.level else fld r.payload 8 4
            levelSet := c.levelSet || fld r.payload 8 4 != 0 }
          let u : State := { (commit (takeLatched s r) okSite 0) with p.queueCfg := tput s.p.queueCfg (fld r.payload 0 1) c }
          if fld r.payload 8 4 = 0 then u else setQueue u (fld r.payload 0 1) { queueAt u (fld r.payload 0 1) k with levelNext := some (fld r.payload 8 4) }
        Ends (.diagQueueConfig r) r s t stOk (queueEntry t (fld r.payload 0 1) (queueAt t (fld r.payload 0 1) k)))
  ∧ (∀ (r : Request) (s : State),
      live s r = true →
      r.payload.length = 4 →
      zeros r.payload 1 3 = true →
      fld r.payload 0 1 = 0x10 →
      supOk s r = true →
      inModes s (if watchOnly 0x10 then [.watch] else mRun) = true →
      (s.cores.tests.any fun t => t.target == 0x10) = false →
        Ends (.diagSelfTest r) r s (scrubStrt (takeLatched s r)).2 stOk (testReply ((scrubStrt (takeLatched s r)).1 != 0) 0 (scrubStrt (takeLatched s r)).1))
  ∧ (∀ (r : Request) (s : State) (d : Nat),
      live s r = true →
      r.payload.length = 4 →
      zeros r.payload 1 3 = true →
      supOk s r = true →
      inModes s (if watchOnly (fld r.payload 0 1) then [.watch] else mRun) = true →
      testFcs (fld r.payload 0 1) = some d →
      fld r.payload 0 1 ≠ 0x10 →
      (s.cores.tests.any fun t => t.target == fld r.payload 0 1) = false →
      (decide (fld r.payload 0 1 ≤ 3) && (chanTestBusy s || votingCount s != 3)) = false →
      (fld r.payload 0 1 == 0x23 && !s.cores.standbyReady) = false →
        ∃ t, GoesOn (.diagSelfTest r) r s t [] ∧ t.cores.tests = s.cores.tests ++ [{ target := fld r.payload 0 1, endFc := fcNow s + d, req := r }] ∧ t.p = s.p ∧ t.com.csn = s.com.csn)
  ∧ (∀ (r : Request) (s : State),
      live s r = true →
      r.payload.length = 16 →
      zeros r.payload 1 3 = true →
      fld r.payload 0 1 = 5 →
      fld r.payload 4 4 = 0 →
      edt s 0x0F20 = true →
      1 ≤ fld r.payload 12 4 ∧ fld r.payload 12 4 ≤ 16384 →
      fld r.payload 8 4 + fld r.payload 12 4 ≤ 4096 →
        exec (.diagTableRead r) s = .next (sendTable (takeLatched s r) r s.com.csn (tableParts (le 4 0 ++ le 4 (fld r.payload 12 4) ++ le 8 0) (((List.range (fld r.payload 12 4)).map (· + fld r.payload 8 4)).map (rptRecord s)))))
  ∧ (∀ (r : Request) (s : State),
      live s r = true →
      r.payload.length = 16 →
      zeros r.payload 1 3 = true →
      fld r.payload 0 1 = 1 →
      (fld r.payload 4 4 == 0 && s.strt.snapFc == some (fcNow s)) = false →
      edt s 0x0F20 = true →
      1 ≤ fld r.payload 12 4 ∧ fld r.payload 12 4 ≤ 16384 →
      fld r.payload 8 4 + fld r.payload 12 4 ≤ 262144 →
      (fld r.payload 4 4 == 0 || (takeSnap s r (fld r.payload 4 4)).isSome) = true →
        ∃ k u, takeSnap (takeLatched s r) r (fld r.payload 4 4) = some (k, u)
          ∧ exec (.diagTableRead r) s = .next (sendTable u r k.csn (tableParts (le 4 k.id ++ le 4 (fld r.payload 12 4) ++ le 8 k.slot) (((List.range (fld r.payload 12 4)).map (· + fld r.payload 8 4)).map (strtRecord k)))))
  ∧ (∀ (r : Request) (s : State) (items : List Bytes),
      live s r = true →
      r.payload.length = 8 + 16 * fld r.payload 1 1 →
      items = ((List.range (fld r.payload 1 1)).map fun i => slice r.payload (8 + 16 * i) 16) →
      (zeros r.payload 2 2 && (fld r.payload 0 1 != 5 || fld r.payload 4 4 == 0) && items.all (itemRsv (fld r.payload 0 1))) = true →
      supOk s r = true →
      inModes s mNorm = true →
      fld r.payload 0 1 = 1 ∨ fld r.payload 0 1 = 5 →
      1 ≤ fld r.payload 1 1 ∧ fld r.payload 1 1 ≤ 64 →
      items.all (itemOk (fld r.payload 0 1)) = true →
      fld r.payload 4 4 = 0 →
      csnHolds s r (itemObjs (fld r.payload 0 1) items s) = true →
        ∃ res u, writeItems (fld r.payload 0 1) items [] (takeLatched s r) = (res, u)
          ∧ exec (.diagTableWrite r) s = .next (finish u r stOk (le 1 (fld r.payload 1 1) ++ zb 3 ++ fit (4 * cdiv (fld r.payload 1 1) 4) (res.map fun x => BitVec.ofNat 8 x))))

/-- FC_BOUNDARY opens an FC and each window does its work once, in order, however many windows are left out between. (R21, R22, R23, R24, R27, R69) -/
def Obligations.TheEightWindowsRunInOrder : Prop :=
  (∀ (s : State) (i : BoundaryIn),
      running s = true →
      (s.mode.cur == .still) = false →
        exec (.fcBoundary i) s = .next (
          let b := powerBoundary (openWindow (sensorBoundary (clockBoundary (closeFc s) i) i) .latch)
          noteAll (unitsBoundary (modeBoundary (supplyBoundary (checkLeases (latchInputs b)) i.vinMv) (lullCond s)) i)))
  ∧ (∀ (s : State) (i : BoundaryIn),
      s.time.step = none →
      s.time.regs.boundary ≠ nextBoundary s →
        let t := clockBoundary s i
        fcNow t = fcOfTime (fullTime s.time.regs (nextBoundary s)) ∧ t.clk.boundary = nextBoundary s ∧ t.clk.fcLen = 1248000)
  ∧ (∀ (s : State) (i : SafeIn),
      running s = true →
      windowCode s.clk.window < windowCode .safe →
        exec (.safeWindow i) s = .next (safeWork i (openWindow s .safe)))
  ∧ (∀ (s : State) (i : SolveIn),
      running s = true →
      windowCode s.clk.window < windowCode .solve →
        exec (.solveWindow i) s = .next (
          let t := drainMsgs (drainMsgs (openWindow s .solve) 0x28 applySleep) 0x20 applyReport
          let t := if posAway t then t else posWork t i
          countReferences (if t.cores.posInvalid then voidPositions t else t)))
  ∧ (∀ (s : State),
      running s = true →
      windowCode s.clk.window < windowCode .command →
        exec (.commandWindow) s = .next (
          let t := openWindow (freezeTrigger s) .command
          let t := if t.cores.secOver || reloading t 7 then t else signStatements t
          if fltAway t then t else noteQueue (commandWork (evaluateTriggers t)) 0x40))
  ∧ (∀ (s : State),
      running s = true →
      windowCode s.clk.window < windowCode .plan →
        exec (.planWindow) s = .next (
          let t := applyAuxSet (applyTamper (openWindow s .plan))
          if fltAway t then t else noteQueue (noteQueue (planWork t) 0x40) 0x41))
  ∧ (∀ (s : State),
      running s = true →
      windowCode s.clk.window < windowCode .emit →
        exec (.emitWindow) s = .next (emitAll (openWindow s .emit)))
  ∧ (∀ (s : State),
      running s = true →
      windowCode s.clk.window < windowCode .persist →
        exec (.persistWindow) s = .next (
          let t := countAvail (noteAll (fillQueues (openWindow s .persist)))
          if mramFog t then { t with com.withheld := false } else if fltAway t then { t with com.withheld := true } else persistWork t))
  ∧ (∀ (s : State),
      running s = true →
      windowCode s.clk.window < windowCode .guard →
        exec (.guardWindow) s = .next (
          let t := settlePersist { openWindow s .guard with com.packets := [] }
          let t := if lnkAway t then t else releaseCan t
          noteAll (if t.com.withheld || fltAway t || lnkAway t then t else releasePackets t)))
  ∧ (∀ (s : State) (i : SafeIn) (j : SolveIn) (w : Window),
      s.clk.window = w →
        (windowCode .safe ≤ windowCode w → exec (.safeWindow i) s = .next s) ∧ (windowCode .solve ≤ windowCode w → exec (.solveWindow j) s = .next s)
          ∧ (windowCode .command ≤ windowCode w → exec .commandWindow s = .next s) ∧ (windowCode .plan ≤ windowCode w → exec .planWindow s = .next s)
          ∧ (windowCode .emit ≤ windowCode w → exec .emitWindow s = .next s) ∧ (windowCode .persist ≤ windowCode w → exec .persistWindow s = .next s)
          ∧ (windowCode .guard ≤ windowCode w → exec .guardWindow s = .next s))

/-- A datagram that passes every check enters its session's command queue, and a credit packet brings the event credit. (R36, R38, R43, R45, R53, R59, R66) -/
def Obligations.DatagramsOfASessionAreTakenIn : Prop :=
  (∀ (s : State) (d o : Datagram) (slot : Nat) (e : Session),
      running s = true →
      inFc s d.pclk = true →
      (tgetD s.ports.hosts (portCode d.port) {}).frames < 2048 →
      toUs s d = true →
      sizeOk d = true →
      headerOk d = true →
      hSession d ≠ 0 →
      boundSession s d = some (slot, e) →
      openDatagram e.key d = some o →
      seqFresh e (hSeq o) = true →
      hStatus o = 0 →
      hOpenHost o = 0 →
      hFlags o < 256 →
      hKind o = 1 →
      bit (hFlags o) 4 = false →
      (∀ x ∈ e.outs, x.tag ≠ hTag o) →
      e.outs.length < 512 →
        ∃ t, exec (.commandReceive d) s = .next t ∧ t.edtor.inbox = s.edtor.inbox ++ [requestOf s o slot] ∧ t.p = s.p ∧ t.com.csn = s.com.csn ∧ t.com.replies = s.com.replies
          ∧ ∃ x, sessionAt t slot = some x ∧ x.renewFc = fcNow s ∧ x.rxHigh = max e.rxHigh (hSeq o) ∧ x.outs = e.outs ++ [{ tag := hTag o, opcode := hOpcode o }])
  ∧ (∀ (s : State) (d o : Datagram) (slot : Nat) (e : Session),
      running s = true →
      inFc s d.pclk = true →
      (tgetD s.ports.hosts (portCode d.port) {}).frames < 2048 →
      toUs s d = true →
      sizeOk d = true →
      headerOk d = true →
      hSession d ≠ 0 →
      boundSession s d = some (slot, e) →
      openDatagram e.key d = some o →
      seqFresh e (hSeq o) = true →
      hStatus o = 0 →
      hOpenHost o = 0 →
      hFlags o < 256 →
      hKind o = 4 →
      hLength o = 8 →
      zeros (hPayload o) 4 4 = true →
        ∃ t, exec (.hostCredit d) s = .next t ∧ t.edtor.inbox = s.edtor.inbox ∧ t.p = s.p ∧ t.com.csn = s.com.csn ∧ t.com.replies = s.com.replies ∧ ∃ x, sessionAt t slot = some x ∧ x.renewFc = fcNow s ∧ x.limits = e.limits ++ [fld (hPayload o) 0 4])
  ∧ (∀ (e : Session) (l : Nat),
      e.limits = [l] →
        (applyLimits e).1.evLimit = newLimit e l ∧ (applyLimits e).1.limits = [])
  ∧ (∀ (s : State) (slot : Nat) (e : Session),
      running s = true →
      slot < 4 →
      sessionAt s slot = some e →
      e.leaseDue = true →
      s.clk.window = .solve ∨ s.clk.window = .command →
      fltAway s = false →
        exec (.lease slot) s = .next (closeSession (commitBy s orgFlt okSession slot) slot 3 false none))
  ∧ (∀ (s : State) (slot reason : Nat) (own : Bool) (tag : Option (Nat × Nat)) (e : Session),
      sessionAt s slot = some e →
      slot < 4 →
        sessionAt (closeSession s slot reason own tag) slot = none)

/-- Stop filter, inputs, test pulses, clock loss, releases and channel changes act on the channels at their PCLK. (R20, R369, R370, R373, R374, R375, R389, R390, R391, R393, R396) -/
def Obligations.TheStopPathActs : Prop :=
  (∀ (s : State) (d o : Datagram) (wait slot : Nat) (e : FilterEntry),
      running s = true →
      inFc s d.pclk = true →
      toUs s d = true →
      filterHeader d = true →
      filterHit d s = some (slot, e, o) →
        exec (.stopFilter d wait) s = .next (
          let pclk := o.pclk + 876 + min wait 1724
          changeStop { s with
            stop.filter := tput s.stop.filter slot { e with seq := hSeq o }
            stop.filterRecs := s.stop.filterRecs ++ [{ sessionId := e.sessionId, seq := hSeq o, time := timeAt s pclk }] } pclk
            (if hOpcode o == 0x0901 then latchSite 4 false else latchRobot (fld o.bytes 32 1) 1)))
  ∧ (∀ (s : State) (d : Datagram) (wait : Nat),
      running s = true →
      inFc s d.pclk = true →
      toUs s d = true →
      filterHeader d = false ∨ filterHit d s = none →
        exec (.stopFilter d wait) s = .next ({ s with stop.filterReject := inc32 s.stop.filterReject }))
  ∧ (∀ (s : State) (inp line pclk : Nat),
      running s = true →
      inp < 2 ∧ line < 2 →
      inFc s pclk = true →
        exec (.slInput inp line pclk) s = .next (changeStop (modSl s inp fun x => { x with
            open1 := x.open1 || line == 0
            open2 := x.open2 || line == 1
            openCond := true
            okRun := 0 }) (pclk + 2) (latchSite inp true)))
  ∧ (∀ (s : State) (c pclk : Nat),
      running s = true →
      c < 3 →
      inFc s pclk = true →
        exec (.clockLoss c pclk) s = .next (changeStop s pclk fun s => modSaf s c fun x => { x with clockLost := true, latched := x.latched ||| cause 8, active := x.active ||| cause 8 }))
  ∧ (∀ (s : State) (src : Nat) (lows : List Bool),
      running s = true →
      src < 4 ∧ lows.length = 4 →
      s.clk.window = pulseWindow src →
      (slAt s (src / 2)).mode = 1 →
        exec (.inputTestPulse src lows) s = .next (changeStop s (pulseStart src + 1252) fun s => [0, 1].foldl (checkPulse src lows) s))
  ∧ (∀ (s : State) (fell rose : Bool),
      running s = true →
      s.clk.window = .plan →
      s.stop.voted = true →
      s.stop.sw1 = true →
      fcNow s % 100 = 50 →
      (fell && rose) = false →
        exec (.sloutTestPulse fell rose) s = .next (let t := changeStop s (if fell then 673920 else 649000) outputFaulty
          { t with stop.readback := (!fell, false) }))
  ∧ (∀ (s : State) (c : Nat),
      running s = true →
      c < 3 →
      s.clk.window = .latch →
      (chanAt s c).state = .rejoining →
      (if (chanAt s c).planned then 10 else 100) ≤ (chanAt s c).matchFc →
        exec (.channelRejoin c) s = .next (changeStop s 2 fun s =>
            modSaf (chanState s c .voting 6 0 0) c fun x => { x with
              planned := false
              matchFc := 0
              rejoins := if (chanAt s c).planned then x.rejoins else x.rejoins.filter (fun f => decide (fcNow s < f + dayFc)) ++ [fcNow s] }))
  ∧ (∀ (s : State) (c : Nat),
      running s = true →
      s.clk.window = .latch →
      votingCount s = 3 →
      c < 3 →
      fcNow s % 2880000 = 960000 * c + 30000 →
        exec (.plannedSelfTest) s = .next (plannedTest c s))
  ∧ (∀ (s : State),
      running s = true →
      s.clk.window = .latch →
        exec (.leadChange) s = .next (passLead s))
  ∧ (∀ (s : State) (site : Bool) (robot : Nat),
      running s = true →
      s.clk.window = .safe →
      s.stop.release = some (site, robot) →
        exec (.releaseApply) s = .next (changeStop { s with stop.release := none } 124802 (clearLatches site robot)))
  ∧ (∀ (s : State),
      running s = true →
      s.clk.window = .latch →
      fcNow s % 360000 = 0 →
      s.cores.swapFc ≠ some (fcNow s) →
      s.cores.standbyReady = true →
      s.cores.lastGood + 1 = fcNow s →
        exec (.fltSwap) s = .next ({ s with
            cores.swapFc := some (fcNow s)
            cores.active := 1 - s.cores.active
            cores.resultsFrom := 1 - s.cores.active
            stop.evs.flt := s.stop.evs.flt ++ [(1 - s.cores.active, 1, fcNow s)] }))
  ∧ (∀ (s : State) (pclk : Nat) (f : State → State),
        (changeStop s pclk f).stop.voted = voteOf (f s))

/-- Power, reset, boot and backup-domain events act in the modes that admit them and nowhere else. (R33, R110, R115, R116, R118, R122, R517, R537) -/
def Obligations.PowerAndResetEventsAct : Prop :=
  (∀ (s : State),
      s.mode.cur = .doldrums →
        exec (.powerOn) s = .next (resetDevice s 1))
  ∧ (∀ (s : State),
      s.mode.cur ≠ .doldrums →
        exec (.powerOn) s = .next (s))
  ∧ (∀ (s : State),
      s.mode.cur ≠ .doldrums →
        ∃ t, exec (.powerFail) s = .next t ∧ t.mode.cur = .doldrums ∧ t.p = s.nv ∧ t.nv = s.nv ∧ t.flash = s.flash ∧ t.bk.powerFail = some s.bk.rtc ∧ t.bk.maintFc = 0 ∧ t.bk.slots = s.bk.slots ∧ t.edtor.sessions = [])
  ∧ (∀ (s : State),
      s.mode.cur = .doldrums →
        exec (.powerFail) s = .next (s))
  ∧ (∀ (s : State) (k : Nat),
      running s = true →
      s.mode.resetAt = some k →
      s.clk.window = .guard ∨ k = 2 →
        exec (.reset) s = .next (resetDevice s k))
  ∧ (∀ (s : State),
      s.mode.resetAt = none →
        exec (.reset) s = .next (s))
  ∧ (∀ (s : State) (k : Nat),
      k ≠ 2 →
        let t := resetDevice s k
        t.mode.cur = .still ∧ t.mode.lastKind = k ∧ t.mode.stillPhase = (if isCold k then 1 else 2) ∧ t.nv = s.nv ∧ t.p = s.nv ∧ t.flash = s.flash ∧ t.edtor.sessions = [] ∧ t.pending = s.pending)
  ∧ (∀ (s : State) (i : BootIn),
      s.mode.cur = .still →
      s.upd.dfu = false →
        exec (.stillComplete i) s = .next (bootFrom i true s))
  ∧ (∀ (s : State) (i : BootIn),
      s.mode.cur = .still →
      s.upd.dfu = true →
        exec (.bootRetry i) s = .next (bootFrom i false s))
  ∧ (∀ (s : State) (i : BootIn),
      s.mode.cur ≠ .still →
        exec (.stillComplete i) s = .next s ∧ exec (.bootRetry i) s = .next s)
  ∧ (∀ (s : State),
      s.mode.cur = .doldrums →
        exec (.backupDomainLoss) s = .next ({ s with bk := { lost := true } }))
  ∧ (∀ (s : State),
      running s = true →
      100 * s.supply.cfg.hostLossS ≤ s.mode.noSessionFc →
        exec (.hostLoss) s = .next (trigger s .hostLoss))
  ∧ (∀ (s : State),
      running s = true →
      100 ≤ s.mode.refLossRun →
        exec (.referenceLost) s = .next (trigger s .noPosition))
  ∧ (∀ (s : State) (core : Nat) (w : Window),
      running s = true →
      core < 8 →
      s.clk.window = w →
        exec (.windowOverrun core w) s = .next (overrun s core w))
  ∧ (∀ (s : State) (core : Nat),
      running s = true →
      core < 8 →
      s.cores.reload.any (fun e => e.1 == core && decide (e.2 ≤ fcNow s)) = true →
        exec (.coreReload core) s = .next (let t : State := { s with cores.reload := s.cores.reload.filter fun e => e.1 != core }
          if t.mode.veerCore == some core then trigger { t with mode.veerCore := none } .veerOver else t))

/-- PPS output and input, ZDA, the step, the RTC, triggers and pulse ends act at their instants. (R145, R148, R149, R150, R151, R156) -/
def Obligations.TimeEventsAct : Prop :=
  (∀ (s : State) (pclk : Nat),
      running s = true →
      inFc s pclk = true →
      crosses s pclk ftuPerSec 0 = true →
      ppsApart s (counterAt s pclk) = true →
        exec (.ppsOut pclk) s = .next (if ppsSquelched s then { s with time.ppsSuppressed := true } else { s with
            time.ppsSuppressed := false
            time.ppsPrevOut := some (counterAt s pclk)
            time.ppsFall := some (counterAt s pclk + BitVec.ofNat 64 (63897600 * s.time.cfg.ppsWidth))
            time.ppsTime := timeAt s pclk / ftuPerSec * ftuPerSec
            time.zdaDue := s.time.cfg.zdaEnable == 1 }))
  ∧ (∀ (s : State) (pclk : Nat),
      running s = true →
      inFc s pclk = true →
      s.time.zdaDue = true →
      s.time.ppsTime + zdaDelay ≤ timeAt s pclk →
      timeAt s pclk < s.time.ppsTime + zdaDelay + 513 →
        exec (.zda pclk) s = .next ({ s with time.zda := zdaSentence s s.time.ppsTime, time.zdaDue := false }))
  ∧ (∀ (s : State) (ftu : Nat) (rising wide : Bool),
      running s = true →
      wide = true →
      ftu < 512 * s.clk.fcLen →
      (rising == (s.time.cfg.ppsEdge == 1)) = true →
        exec (.ppsIn ftu rising wide) s = .next { s with time.ppsIn := s.time.ppsIn ++ [s.clk.boundary + BitVec.ofInt 64 (ftu - ppsDelayFtu s)] })
  ∧ (∀ (s : State) (c : Counter) (t0 : Nat),
      s.time.pps.lastTime = some t0 →
        let t := scaledTime s c
        measurePps s c = if !ppsInterval t0 t then
            { s with time.pps := { s.time.pps with lastTime := some t, good := 0 }, time.ppsBad := inc32 s.time.ppsBad }
          else
            let x := ppsOffset t
            let y := counterOffset x c t
            let u := selectReference { s with time.pps :=
              { s.time.pps with lastTime := some t, good := min 10 (s.time.pps.good + 1), qualified := s.time.pps.qualified || decide (9 ≤ s.time.pps.good), lastX := x, lastY := y } }
            if u.time.ref == some 2 then useMeasurement u x (y - s.time.pps.lastY) else u)
  ∧ (∀ (s : State) (q : StepReq),
      running s = true →
      s.time.step = some q →
      s.clk.window = .guard →
        exec (.step) s = .next (applyStep s q))
  ∧ (∀ (s : State) (q : StepReq),
        (applyStep s q).time.step = none ∧ (applyStep s q).time.regs.boundary = nextBoundary s ∧ (applyStep s q).time.regs.rate = 0)
  ∧ (∀ (s : State) (pclk : Nat),
      running s = true →
      inFc s pclk = true →
      crosses s pclk ftuPerSec 0 = true →
        ∃ t, exec (.rtcSet pclk) s = .next t ∧ t.bk.rtc = timeAt s pclk / ftuPerSec * 32768
          ∧ (timeAt s pclk / ftuPerSec % 3600 ≠ 0 → t = { s with bk.rtc := timeAt s pclk / ftuPerSec * 32768 }))
  ∧ (∀ (s : State) (id pclk : Nat) (g : TimeTrigger),
      running s = true →
      id < 16 →
      tget s.time.triggers id = some g →
      inFc s pclk = true →
      firesAt s g pclk = true →
      (List.range id).all (fun j => (tget s.time.triggers j).all fun x => x.output != g.output) = true →
        exec (.timeTrigger id pclk) s = .next (fireTrigger s id g pclk))
  ∧ (∀ (s : State) (io pclk : Nat) (c : Counter),
      running s = true →
      io < 8 →
      (auxLive s io).pulseEnd = some c →
      inFc s pclk = true →
      c ≤ counterAt s pclk →
      pclk = 0 ∨ counterAt s (pclk - 1) < c →
        exec (.pulseEnd io pclk) s = .next (modIo (setOut s io false) io fun x => { x with pulseEnd := none }))

/-- Epochs, acquisition, tracking changes, antenna retries and calibrations act on the receiver. (R172, R176, R179, R180, R183, R184, R190, R230) -/
def Obligations.GnssEventsAct : Prop :=
  (∀ (s : State) (e : EpochIn),
      running s = true →
      isEpochFc s = true →
      s.gnss.captured.isNone = true →
        exec (.epochLatch e) s = .next (let l := epochRecords s e
          assignChannels { s with
            gnss.captured := some (epochOf s l)
            gnss.chans := tmap s.gnss.chans fun _ x => { x with slip := false }
            gnss.ants := tput (tmod s.gnss.ants 0 {} fun x => { x with strong := strongOn l 0 }) 1 { (tgetD s.gnss.ants 1 {}) with strong := strongOn l 1 } }))
  ∧ (∀ (s : State) (c pclk : Nat) (x : Channel),
      c < 320 →
      inFc s pclk = true →
      tget s.gnss.chans c = some x →
      x.searching = true →
        exec (.acquisitionDone c pclk) s = .next (startSearches { s with gnss.chans := tmap s.gnss.chans fun i y =>
            if i = c then { y with codeLock := true, codeAt := counterAt s pclk, ambig := 1, searching := false, active := true }
            else if (sameSat x y) = true then { y with active := true } else y }))
  ∧ (∀ (s : State) (c : Nat) (x : Channel) (pclk : Nat),
      c < 320 →
      inFc s pclk = true →
      tget s.gnss.chans c = some x →
        exec (.codeLock c pclk) s = .next ({ s with gnss.chans := tput s.gnss.chans c (if x.active && !x.codeLock then { x with codeLock := true, codeAt := counterAt s pclk, ambig := 1, searching := false, active := true } else x) }))
  ∧ (∀ (s : State) (c : Nat) (x : Channel) (pclk : Nat),
      c < 320 →
      inFc s pclk = true →
      tget s.gnss.chans c = some x →
        exec (.phaseLock c pclk) s = .next ({ s with gnss.chans := tput s.gnss.chans c (if x.codeLock && !x.phaseLock then { x with phaseLock := true, lockAt := counterAt s pclk, halfCycle := (signalOf x.bit).pilot } else x) }))
  ∧ (∀ (s : State) (c : Nat) (x : Channel) (m : Bool),
      c < 320 →
      tget s.gnss.chans c = some x →
        exec (.bitSynchronisation c m) s = .next ({ s with gnss.chans := tput s.gnss.chans c (if !x.codeLock then x else if !m then (if x.ambig = 1 then { x with ambig := 2 } else x) else if x.ambig = 2 || x.ambig = 0 then { x with ambig := 0, halfCycle := x.halfCycle || (x.phaseLock && !(signalOf x.bit).pilot) } else x) }))
  ∧ (∀ (s : State) (c : Nat) (x : Channel) (code phase : Bool) (pclk : Nat),
      c < 320 →
      inFc s pclk = true →
      tget s.gnss.chans c = some x →
        exec (.lossOfLock c code phase pclk) s = .next (startSearches { s with gnss.chans := tput s.gnss.chans c (if !x.codeLock then x else { x with
            slip := true
            slips := (x.slips + 1) % 65536
            lockAt := counterAt s pclk
            phaseLock := x.phaseLock && !phase && !code
            halfCycle := x.halfCycle && !phase && !code
            codeLock := !code
            ambig := if code then 3 else x.ambig
            active := x.active && !(code && (signalOf x.bit).primary) }) }))
  ∧ (∀ (s : State) (a : Nat),
      a < 2 →
      (tgetD s.gnss.ants a {}).state = 4 →
      (tgetD s.gnss.ants a {}).biasOffFc = 1 →
        exec (.antShortRetry a) s = .next ({ s with
            gnss.ants := tput s.gnss.ants a { (tgetD s.gnss.ants a {}) with biasOffFc := 0, biasOnFc := 10, count := 0 }
            gnss.shortRetries := sat 16 (s.gnss.shortRetries + 1) }))
  ∧ (∀ (s : State) (delay : Option Nat) (align : List Int) (c : GnssCal),
      s.gnss.cal = some c →
      c.endFc ≤ fcNow s →
      c.kind = 1 →
      csnHolds s c.req [siteObj] = true →
        exec (.gnssCalibrationDone delay align) s = .next (let u : State := { s with gnss.cal := none, com.cmdCommits := 0 }
          match delay with
          | none => finish u c.req stCalFailed (calReply u)
          | some d =>
            let t := setCable (commit u okSite 0) c.antenna d
            finish t c.req stOk (calReply t)))
  ∧ (∀ (s : State) (delay : Option Nat) (align : List Int) (c : GnssCal),
      s.gnss.cal = some c →
      c.endFc ≤ fcNow s →
      c.kind = 3 →
      csnHolds s c.req [siteObj] = true →
        exec (.gnssCalibrationDone delay align) s = .next (let u : State := { s with gnss.cal := none, com.cmdCommits := 0 }
          if c.lacked || align.length != 3 then finish u c.req stCalFailed (calReply u) else
            let t : State := { commit u okSite 0 with p.gnssCfg.align := align }
            finish t c.req stOk (calReply t)))
  ∧ (∀ (s : State) (fits : List CalFit) (c : BuoyCal),
      s.buoy.cal = some c →
      c.endFc ≤ fcNow s →
      (links.filterMap (groupHead c)).isEmpty = true →
        exec (.buoyCalibrationDone fits) s = .next (let u : State := { s with buoy.cal := none, com.cmdCommits := 0 }
          finish u c.req stCalFailed (buoyCalReply u { c with heard := [] } [] [])))
  ∧ (∀ (s : State) (fits : List CalFit) (c : BuoyCal),
      s.buoy.cal = some c →
      c.endFc ≤ fcNow s →
      (links.filterMap (groupHead c)).isEmpty = false →
      csnHolds s c.req (maskObjs 0x3FF) = true →
        exec (.buoyCalibrationDone fits) s = .next (let u : State := { s with buoy.cal := none, com.cmdCommits := 0 }
          let asym := fitAsym u c
          let delay := fitDelay u c fits
          let t := links.foldl (fun s l => setContext s l (calibrated c asym delay l (anchorSet s l))) (commitAll u (maskObjs 0x3FF))
          finish t c.req stOk (buoyCalReply t c asym delay)))

/-- Anchor messages pass MIC and counter checks and act on their link; line and supply events move the link state. (R220, R221, R226, R227, R228, R240, R241, R251) -/
def Obligations.BuoyEventsAct : Prop :=
  (∀ (s : State) (f : BuoyFrame),
      running s = true →
      f.link < 10 →
      (anchorAt s f.link).phy = true →
      frameOk s f = false →
        exec (.hello f) s = .next (modAnchor s f.link fun a => { a with badFrames := inc32 a.badFrames })
          ∧ exec (.syncResp f) s = .next (modAnchor s f.link fun a => { a with badFrames := inc32 a.badFrames })
          ∧ exec (.report f) s = .next (modAnchor s f.link fun a => { a with badFrames := inc32 a.badFrames })
          ∧ exec (.relayAck f) s = .next (modAnchor s f.link fun a => { a with badFrames := inc32 a.badFrames }))
  ∧ (∀ (s : State) (f : BuoyFrame),
      running s = true →
      f.link < 10 →
      (anchorAt s f.link).phy = true →
      frameOk s f = true →
      micOk s f = false →
        exec (.hello f) s = .next (anchorMicFail s f.link)
          ∧ exec (.syncResp f) s = .next (anchorMicFail s f.link)
          ∧ exec (.report f) s = .next (anchorMicFail s f.link)
          ∧ exec (.relayAck f) s = .next (anchorMicFail s f.link))
  ∧ (∀ (s : State) (f : BuoyFrame),
      running s = true →
      f.link < 10 →
      (anchorAt s f.link).phy = true →
      frameOk s f = true →
      micOk s f = true →
      bCtr f ≤ lastCtr s f →
        exec (.hello f) s = .next (modAnchor s f.link fun a => { a with replay := inc32 a.replay })
          ∧ exec (.syncResp f) s = .next (modAnchor s f.link fun a => { a with replay := inc32 a.replay })
          ∧ exec (.report f) s = .next (modAnchor s f.link fun a => { a with replay := inc32 a.replay })
          ∧ exec (.relayAck f) s = .next (modAnchor s f.link fun a => { a with replay := inc32 a.replay }))
  ∧ (∀ (s : State) (u : State) (f : BuoyFrame),
      running s = true →
      f.link < 10 →
      (anchorAt s f.link).phy = true →
      frameOk s f = true →
      micOk s f = true →
      lastCtr s f < bCtr f →
      admitFrame (if isHello f then s else modAnchor s f.link fun a => { a with upCtr := bCtr f }) (0x20 + f.link) false = (true, u) →
        exec (.hello f) s = .next (arrived (captureBuoy u (.frame f (buoyDesc u f))) (0x20 + f.link) (occOf (if isHello f then s else modAnchor s f.link fun a => { a with upCtr := bCtr f }) (0x20 + f.link)))
          ∧ exec (.syncResp f) s = .next (arrived (captureBuoy u (.frame f (buoyDesc u f))) (0x20 + f.link) (occOf (if isHello f then s else modAnchor s f.link fun a => { a with upCtr := bCtr f }) (0x20 + f.link)))
          ∧ exec (.report f) s = .next (arrived (captureBuoy u (.frame f (buoyDesc u f))) (0x20 + f.link) (occOf (if isHello f then s else modAnchor s f.link fun a => { a with upCtr := bCtr f }) (0x20 + f.link)))
          ∧ exec (.relayAck f) s = .next (arrived (captureBuoy u (.frame f (buoyDesc u f))) (0x20 + f.link) (occOf (if isHello f then s else modAnchor s f.link fun a => { a with upCtr := bCtr f }) (0x20 + f.link))))
  ∧ (∀ (s : State) (f : BuoyFrame) (t1 : Counter),
      bType f = 0x82 →
      16 ≤ bLen f →
      syncLaunch s f.link = some t1 →
      (anchorAt s f.link).state = .syncing ∨ (anchorAt s f.link).state = .inSync →
        let a := anchorAt s f.link
        let x2 := unwrap (lastLocal a) (fld (bPayload f) 0 5)
        let turn := unwrap x2 (fld (bPayload f) 5 5) - x2
        let d := (((f.stamp - t1).toNat : Int) - turn - turn * modelRate a.pairs / (2 ^ 40 : Nat)) / 2
        let pairs := ((x2, (t1.toNat : Int) + d + (anchorRec s f.link).asym / 2) :: a.pairs).take 16
        takeFrame s f = afterExchange (modAnchor s f.link fun a => { a with
          pairs := pairs
          t1 := none
          missing := 0
          good := min 100 (a.good + 1)
          pathDelay := (ftuToPs d).toNat % 2 ^ 32
          resid := sat 16 (fitResid pairs)
          temp := fldI (bPayload f) 10 1
          astatus := fld (bPayload f) 11 1 }) f.link)
  ∧ (∀ (s : State) (f : BuoyFrame),
      isHello f = true →
      24 ≤ bLen f →
        let t := takeFrame s f
        (anchorAt t f.link).heard = helloEui f ∧ (anchorAt t f.link).fw = fld (bPayload f) 8 4 ∧ (anchorAt t f.link).model = fld (bPayload f) 12 2
          ∧ (anchorAt t f.link).upCtr = bCtr f ∧ tgetD t.p.keys.helloCtr (helloEui f).toNat 0 = bCtr f)
  ∧ (∀ (s : State) (f : BuoyFrame),
      isReport f = true →
      4 + 20 * min 20 (fld (bPayload f) 0 1) ≤ bLen f →
      (fcOfLow s (bFcLow f) = none ∨ ∃ fc, fcOfLow s (bFcLow f) = some fc ∧ reportLate fc (bPeriod f) (fcNow s - 1) f.pclk = true) →
        takeFrame s f = modAnchor s f.link fun a => { a with reportLoss := sat 32 (a.reportLoss + 1) })
  ∧ (∀ (s : State) (f : BuoyFrame) (fc : Nat),
      isReport f = true →
      4 + 20 * min 20 (fld (bPayload f) 0 1) ≤ bLen f →
      fcOfLow s (bFcLow f) = some fc →
      reportLate fc (bPeriod f) (fcNow s - 1) f.pclk = false →
        let t := takeFrame s f
        t.buoy.periods = s.buoy.periods ++ [(f.link, fc, bPeriod f, fcNow s - 1)]
          ∧ ∃ l, t.buoy.reports = s.buoy.reports ++ l ∧ l.length ≤ 20)
  ∧ (∀ (s : State) (f : BuoyFrame) (v : Relay),
      bType f = 0x84 →
      12 ≤ bLen f →
      (anchorAt s f.link).relay = some v →
      v.imageId = fld (bPayload f) 0 4 →
      fld (bPayload f) 8 1 ≠ 2 ∧ fld (bPayload f) 8 1 ≠ 3 →
        let t := takeFrame s f
        (anchorAt t f.link).rstate = fld (bPayload f) 8 1
          ∧ (anchorAt t f.link).relay = some { v with acked := max v.acked (fld (bPayload f) 4 4), sent := max v.sent (fld (bPayload f) 4 4), ackFc := fcNow s })
  ∧ (∀ (s : State),
      running s = true →
      lnkAway s = false →
        exec (.syncReq) s = .next (links.foldl linkSchedule s))
  ∧ (∀ (s : State) (l : Nat),
      scheduled (anchorAt s l) = true →
      s.clk.window = .latch →
        let t := linkSchedule s l
        (anchorAt t l).t1 = some (counterAt s 6240) ∧ (anchorAt t l).downQ.length = (anchorAt s l).downQ.length + 2)
  ∧ (∀ (s : State) (fc period : Nat),
      running s = true →
      period ≤ 9 →
      fc ≤ fcNow s →
      (fcNow s == fc && period == 9) = false →
        exec (.reportDeadline fc period) s = .next ({ s with buoy.deadlines := s.buoy.deadlines ++ [(fc, period, fcNow s)] }))
  ∧ (∀ (s : State) (l : Nat) (v : Relay),
      running s = true →
      l < 10 →
      (anchorAt s l).relay = some v →
      v.ackFc + 10 ≤ fcNow s →
        exec (.relayResend l) s = .next (modAnchor s l fun a => { a with relay := some { v with sent := v.acked, ackFc := fcNow s } }))
  ∧ (∀ (s : State) (l : Nat) (up lv : Bool),
      running s = true →
      l < 10 →
      (anchorAt s l).phy = !up →
        exec (.phyLinkChange l up lv) s = .next (captureBuoy (modAnchor s l fun a => { a with phy := up, level24 := lv }) (.phy l up)))
  ∧ (∀ (s : State) (l : Nat) (up : Bool),
        latchOne s (.phy l up) = (if up then (if (anchorAt s l).state == .enabled then setAnchor s l .linkUp 0x02 else s)
          else if (anchorAt s l).state == .off || (anchorAt s l).state == .fault then s else setAnchor s l .enabled 0x02))
  ∧ (∀ (s : State) (l cls : Nat),
      running s = true →
      l < 10 →
      (anchorAt s l).podlOn = false →
      (anchorAt s l).state ≠ .fault →
        exec (.podlDetection l cls) s = .next (modAnchor s l fun a => { a with
            detected := cls != 0 && !decide (13 ≤ cls)
            pdClass := cls
            classRefused := if 13 ≤ cls then inc32 a.classRefused else a.classRefused }))
  ∧ (∀ (s : State) (l : Nat),
      running s = true →
      l < 10 →
      (anchorAt s l).podlOn = true →
        exec (.podlOverload l) s = .next (captureBuoy (modAnchor s l fun a => { a with podlOn := false, granted := 0, phy := false }) (.overload l)))
  ∧ (∀ (s : State) (l : Nat),
      running s = true →
      l < 10 →
      (anchorAt s l).shed = true →
      1000 ≤ (anchorAt s l).marginFc →
        exec (.podlRestore l) s = .next (modAnchor s l fun a => { a with shed := false, marginFc := 0 }))
  ∧ (∀ (s : State) (l fc : Nat),
      running s = true →
      l < 10 →
      (anchorAt s l).faultFc = some fc →
      (anchorAt s l).state = .fault →
      fc + 1000 ≤ fcNow s →
        exec (.faultRetry l) s = .next (setAnchor (modAnchor s l fun a => { a with faultFc := none, micFcs := [] }) l .off 0x01))

/-- Association, reports, plan requests, sleep and the timeouts of robots act in their windows. (R266, R268, R273, R279, R281, R346, R432, R433) -/
def Obligations.RobotEventsAct : Prop :=
  (∀ (s : State) (m : AirMsg) (u : State),
      running s = true →
      s.clk.window = .command →
      takeMsg s 0x10 = some (m, u) →
        exec (.assocReq) s = .next (answerAssoc u m))
  ∧ (∀ (s : State) (m : AirMsg) (u : State),
      running s = true →
      s.clk.window = .command →
      takeMsg s 0x12 = some (m, u) →
        exec (.assocConfirm) s = .next (confirmAssoc u m))
  ∧ (∀ (s : State) (m : AirMsg) (u : State),
      running s = true →
      s.clk.window = .latch →
      takeMsg s 0x20 = some (m, u) →
        exec (.positionReport) s = .next (applyReport u m))
  ∧ (∀ (s : State) (m : AirMsg) (u : State),
      running s = true →
      s.clk.window = .safe →
      takeMsg s 0x28 = some (m, u) →
        exec (.sleep) s = .next (applySleep u m))
  ∧ (∀ (s : State) (m : AirMsg) (u : State),
      running s = true →
      s.clk.window = .solve →
      takeMsg s 0x21 = some (m, u) →
        exec (.planReq) s = .next (applyPlanReq u m))
  ∧ (∀ (s : State),
      running s = true →
      s.clk.window = .command →
        exec (.assocTimeout) s = .next ((s.p.robots.filter fun e => e.2.sstate == .associating && decide ((robotAt s e.1).respFc + 50 < fcNow s)).foldl
            (fun s e => endAssociation (lnkSState s e.1 .enrolled 4) e.1) s))
  ∧ (∀ (s : State),
      running s = true →
      s.clk.window = .latch →
        exec (.adrift) s = .next ((s.p.robots.filter fun e => e.2.sstate == .associated && decide ((robotAt s e.1).lastHeard + s.p.sessCfg.adrift ≤ fcNow s)).foldl
            (fun s e => lnkSState s e.1 .adrift 6) s))
  ∧ (∀ (s : State),
      running s = true →
      s.clk.window = .latch →
        exec (.agingSweep) s = .next (((List.range 41).map fun j => 41 * (fcNow s % 100) + j).foldl (fun s k => if k < 4096 then ageEntry s k else s) s))
  ∧ (∀ (s : State),
      running s = true →
      s.clk.window = .latch →
        exec (.wakeMissed) s = .next ((s.p.robots.filter fun e => e.2.sstate == .asleep && !(robotAt s e.1).wakeMissed
            && (match (robotAt s e.1).wakeFc with | some w => decide (w + 20 ≤ fcNow s) | none => false)).foldl
            (fun s e => wakeEvent (modRobot s e.1 fun x => { x with wakeMissed := true }) e.1 1) s))

/-- A received frame is checked, counted and queued; slots launch their frame; settings and tests take effect at LATCH. (R384, R410, R417, R435, R437, R439) -/
def Obligations.RadioEventsAct : Prop :=
  (∀ (s : State) (f : AirIn),
      running s = true →
      f.radio < 2 ∧ f.slot < 4 →
      hears s f = true →
        (f.fcsOk = false → exec (.radioRx f) s = .next (modOne s f.radio fun x => { x with fcsFail := inc32 x.fcsFail }))
          ∧ (f.fcsOk = true → headerHolds s f.psdu = false →
              exec (.radioRx f) s = .next (modOne s f.radio fun x => { x with badHeader := inc32 x.badHeader }))
          ∧ (∀ u, f.fcsOk = true → headerHolds s f.psdu = true → admitFrame s (rxQueue f.radio) false = (true, u) →
              let t := modOne u f.radio fun x => { x with framesRx := inc32 x.framesRx }
              exec (.radioRx f) s = .next (arrived { t with radio.rx := t.radio.rx ++ [(f, airDesc t f)] } (rxQueue f.radio) (occOf s (rxQueue f.radio)))))
  ∧ (∀ (s : State) (p : Bytes),
      fld p 0 2 ≠ 0xA941 ∨ fld p 2 2 ≠ panId s ∨ fld p 4 2 ≠ 0 ∨ fld p 8 1 ≠ 4 ∨ fld p 9 1 ≠ 1 →
        headerHolds s p = false)
  ∧ (∀ (s : State) (k : Nat),
      k < 4 →
      slotNowOk s k = true →
      stopInSlot s k = false →
      s.cores.txSkipped = false →
      (foghornFc { s with p.radio.cfg.foghornFc := s.radio.foghornNow } (fcNow s) && decide (k = 2) && decide (asnOf s k % 40 = 30)) = false →
        exec (.timeslot k) s = .next (noteTx (if downlinkCell { s with p.radio.cfg.foghornFc := s.radio.foghornNow } (radioCfg s) (fcNow s) k then launchDown (launchDown s 0 k) 1 k else s)))
  ∧ (∀ (s : State),
      slotNowOk s 0 = true →
        exec (.beaconLaunch) s = .next (noteTx (launchBeacon (launchBeacon s 0) 1)))
  ∧ (∀ (s : State) (k : Nat),
      k < 4 →
      slotNowOk s k = true →
      stopInSlot s k = true →
      s.radio.beaconAsn ≠ some (asnOf s k) →
        exec (.stopFrame k) s = .next (launchStop (launchStop s 0 k) 1 k))
  ∧ (∀ (s : State) (c : RadioConfig) (e : Nat),
      running s = true →
      s.clk.window = .latch →
      s.p.radio.pendingCfg = some (c, e) →
      e ≤ fcNow s →
        exec (.radioSettingsEffect) s = .next (let cur := s.p.radio.cfg
          { s with
            p.radio.cfg := { c with foghornFc := cur.foghornFc, startupS := cur.startupS, powerA := cur.powerA, powerB := cur.powerB }
            p.radio.pendingCfg := none
            radio.a.startupUntil := some (fcNow s + 100 * cur.startupS)
            radio.b.startupUntil := some (fcNow s + 100 * cur.startupS) }))
  ∧ (∀ (s : State),
      running s = true →
      s.clk.window = .latch →
        exec (.radioTestExpiry) s = .next (let expire (x : OneRadio) : OneRadio := { x with testUntil := if (x.testUntil.map fun u => decide (u ≤ fcNow s)).getD false then none else x.testUntil }
          { s with radio.a := expire s.radio.a, radio.b := expire s.radio.b }))

/-- The allotment round opens, searches, reserves and grants in PLAN, and the table is probed and swept. (R301, R309, R328, R336, R337, R338, R341, R342) -/
def Obligations.AllotmentEventsAct : Prop :=
  (∀ (s : State),
      s.clk.window = .plan →
      fcNow s % 10 = 0 →
      isGo (fleetMode s) = true →
      s.strt.grid.cellMm ≠ 0 →
      s.allot.round ≠ some (fcNow s / 10) →
        exec (.allotmentRound) s = .next (noteQueue (openRound s (fcNow s / 10)) 0x41))
  ∧ (∀ (s : State) (age u i : Nat),
      s.clk.window = .plan →
      isGo (fleetMode s) = true →
      roundAge s = some age →
      age ≤ 8 →
      ((List.range 4).find? fun u => !(busyUnits s).contains u) = some u →
      (s.allot.reqs.findIdx? fun q => q.stage == .queued && decide (q.fromFc ≤ fcNow s)) = some i →
        exec (.leadlightRequest) s = .next (noteQueue (modReq s i fun q => { q with stage := .searching, unit := u }) 0x41))
  ∧ (∀ (s : State) (unit tclk age i : Nat),
      unit < 4 →
      roundAge s = some age →
      (s.allot.reqs.findIdx? fun q => q.stage == .searching && q.unit == unit) = some i →
      8 < age ∨ (age = 8 ∧ s.clk.window ≠ .plan) →
        exec (.searchResult unit tclk) s = .next (modReq s i fun q => { q with stage := .carried, result := some { code := .abandoned } }))
  ∧ (∀ (s : State) (unit tclk age i x y h : Nat),
      unit < 4 →
      roundAge s = some age →
      (s.allot.reqs.findIdx? fun q => q.stage == .searching && q.unit == unit) = some i →
      age ≤ 8 →
      s.clk.window = .plan →
      (s.allot.reqs.getD i {}).origin = some (x, y, h) →
        exec (.searchResult unit tclk) s = .next (let q := s.allot.reqs.getD i {}
          enterResult s i q (search (searchCtx s q) (holdSlot s q (fcNow s + 1)) x y h) tclk))
  ∧ (∀ (s : State) (age : Nat),
      roundAge s = some age →
      s.clk.window = .plan →
      isGo (fleetMode s) = true →
      2 ≤ age ∧ age ≤ 9 →
      s.allot.reserveFc ≠ some (fcNow s) →
        exec (.legReserve) s = .next (reserveAll { s with allot.reserveFc := some (fcNow s) } 0 ((s.allot.reqs.zipIdx.filter fun e => e.1.stage == .found && decide (e.1.doneFc < fcNow s)).map (·.2))))
  ∧ (∀ (s : State) (r : Nat),
      s.allot.round = some r →
      s.clk.window = .plan →
      fcNow s = 10 * r + 9 →
      isGo (fleetMode s) = true →
        exec (.grant) s = .next (let later := s.allot.pathReqs
          let t := s.allot.reqs.foldl (settleReq (freeze s) r) { s with allot.reqs := [], allot.round := none, allot.pathReqs := [] }
          let t := haltedRounds { t with allot.pathReqs := t.allot.pathReqs ++ later }
          let t : State := { t with allot.last := t.allot.stats }
          if 0 < t.allot.stats.deferred + t.allot.stats.noPath + t.allot.stats.halts then raise t 0x8703 .sup (roundBytes t.allot.stats) else t))
  ∧ (∀ (s : State) (cell slot kind who : Nat),
      who < 5 ∧ kind < 5 ∧ cell < 2 ^ 24 →
      s.strt.relocating ≠ some (keyInput cell (if isStanding kind then 0 else slot % 1024) kind).toNat →
        let t := detectKeys s [{ cell := cell, slot := slot, kind := kind, owner := 0 }]
        exec (.probe cell slot kind who) s = .next { t with
          strt.reissue := none
          strt.probeOut := some (match probeKey s.strt.ways cell (if isStanding kind then 0 else slot % 1024) kind with
            | .free => (0, 0xFFFFFFFF, 0)
            | .at i w => (1, i, w)
            | .corrupt i w => (2, i, w)) })
  ∧ (∀ (s : State),
      running s = true →
      s.clk.window = .latch →
      fcNow s % 5 = 0 →
      s.strt.sweptSlot ≠ some (slotNow s) →
        ∃ t, exec (.expirySweep) s = .next t ∧ t.strt.sweptSlot = some (slotNow s))
  ∧ (∀ (s : State),
      running s = true →
      s.clk.window = .plan →
        exec (.taskDeadline) s = .next ((s.p.tasks.filter fun e => e.2.state == .posted && e.2.deadlineNow != 0 && decide (e.2.deadlineNow ≤ timeAt s 624000 % 2 ^ 64)).foldl
            (fun s e => moveTask s e.1 .failed 7 id) s))
  ∧ (∀ (s : State),
      running s = true →
      s.clk.window = .plan →
        exec (.terminalKeep) s = .next ((s.p.tasks.filter fun e => terminal e.2.state && decide (e.2.stateFc + 100 * s.allot.cfg.keepS ≤ fcNow s)).foldl
            (fun s e => moveTask s e.1 .free 10 id) s))
  ∧ (∀ (s : State) (j : Nat) (new : TaskState) (cause : Nat) (f : Task → Task),
      mramFog s = false →
        let t := moveTask s j new cause f
        objCsn t okTask j = s.com.nextCsn ∧ t.com.csn = s.com.nextCsn ∧ t.p.robots = s.p.robots ∧ t.bk = s.bk)

/-- The steps of an activation, the end of a verification, a rescue download and the end of a self-test act when due. (R513, R516, R517, R520, R521, R522, R529, R570) -/
def Obligations.UpdateAndSelfTestEventsAct : Prop :=
  (∀ (s : State) (r : Request) (d e st : Nat),
      running s = true →
      s.upd.finish = some (d, e, r) →
      s.upd.verified = some st →
      e ≤ fcNow s →
        let u : State := { s with upd.finish := none, upd.verified := none, com.cmdCommits := 0 }
        exec .updFinishDone s = .next (if st != stOk then finish u r st [] else
          let u := modSlot u (!u.flash.active) (writtenSlot u)
          let u := setUpdBy (commit { u with upd.staged := true, upd.blocks := [] } okSite 0) r 3 3
          finish u r stOk (finishReply u)))
  ∧ (∀ (s : State) (v : Activation),
      running s = true →
      s.upd.act = some v →
      s.upd.state = 4 →
      fcNow s + 100 = v.a →
        exec .anchorActivateSend s = .next ((maskLinks v.linkMask).foldl (fun s l =>
          match anchorImage s l with
          | some id => activateHeads s (2 ^ l) id (v.a * ftuPerFc)
          | none => s) s))
  ∧ (∀ (s : State) (v : Activation) (ok : Bool),
      running s = true →
      s.upd.act = some v →
      s.upd.state = 4 →
      v.a ≤ fcNow s + 1 →
      v.passed = false →
      s.clk.window = .solve →
        let u : State := { s with com.cmdCommits := 0 }
        exec (.activationCheck ok) s = .next (match checkFails u v ok, siteChanged u v with
          | some st, _ =>
            let t := setUpd { u with upd.act := none } 3 0x0A
            if st = stBadMode then refuseMode t v.req else finish t v.req st []
          | none, some o => finishI (setUpd { u with upd.act := none } 3 0x0A) v.req intCsn stCsnMismatch (mismatchPayload u o)
          | none, none =>
            let c := commit u okSite 0
            let t : State := { c with upd.act := some { v with passed := true, trialDue := true, last := c.com.csn } }
            if v.restart then record { t with mode.resetAt := some 0x06 } v.req true intNone stOk 2
            else { record t v.req false intNone 0 3 with mode.triggers := t.mode.triggers ++ [.activation] }))
  ∧ (∀ (s : State) (v : Activation),
      running s = true →
      s.upd.act = some v →
      s.upd.state = 4 →
      v.passed = true →
      fcNow s = v.a →
        ∃ t, exec .activation s = .next t ∧ t.upd.state = 5 ∧ t.cores.standbyReady = false
          ∧ t.cores.reload = s.cores.reload ++ [(5, v.a + 12), (6, v.a + 5), (7, v.a + 20), (4 - s.cores.active, v.a + 9)] ∧ t.com.csn = s.com.csn)
  ∧ (∀ (s : State) (v : Activation),
      running s = true →
      s.upd.act = some v →
      s.upd.state = 5 →
      v.c.isNone = true →
      v.a + 9 ≤ fcNow s ∧ fcNow s ≤ v.a + 14 →
      s.clk.window = .guard →
        ∃ t, exec .fltImageHandover s = .next t ∧ t.flash.active = v.target ∧ t.cores.active = 1 - s.cores.active
          ∧ t.upd.act = some { v with c := some (fcNow s) } ∧ t.upd.pkgId = (imageSlot s v.target).pkg.pkgId ∧ t.p.keys = s.p.keys)
  ∧ (∀ (s : State) (v : Activation) (c : Nat),
      running s = true →
      s.upd.act = some v →
      v.c = some c →
      s.upd.state = 5 →
      c + 11 ≤ fcNow s →
        exec .freezeEnd s = .next { setUpd s 6 4 with
          cores.standbyReady := true
          cores.reload := s.cores.reload.filter fun e => e.1 != 4 - s.cores.active
          upd.safNext := 0 })
  ∧ (∀ (s : State) (v : Activation) (fail : Option Nat),
      running s = true →
      s.upd.act = some v →
      s.upd.state = 6 →
      s.clk.window = .latch →
      s.upd.safTurn = none →
        exec (.safUpdateTurn fail) s = .next (nextTurn s v))
  ∧ (∀ (s : State) (v : Activation) (fail : Option Nat) (c k : Nat),
      running s = true →
      s.upd.act = some v →
      s.upd.state = 6 →
      s.clk.window = .latch →
      s.upd.safTurn = some (c, k) →
      (chanAt s c).state = .updating →
      k + 14 ≤ fcNow s →
        exec (.safUpdateTurn fail) s = .next (match fail with
          | none => modSaf (chanState s c .rejoining 7 0 0) c fun x => { x with matchFc := 0 }
          | some testId => safOver (changeStop s 2 (withdraw c 1 testId)) v true))
  ∧ (∀ (s : State) (v : Activation) (failed : Bool),
      running s = true →
      s.upd.act = some v →
      abandons s v failed = true →
        ∃ t, exec (.activationAbandon failed) s = .next t ∧ t.upd.state = 0 ∧ t.upd.act = none ∧ t.flash.active = !v.target
          ∧ (imageSlot t v.target).state = 4 ∧ t.mode.resetAt = some 6 ∧ t.com.csn = s.com.csn)
  ∧ (∀ (s : State) (p : Bytes),
      s.mode.cur = .still →
      s.upd.dfu = true →
      89 ≤ p.length →
      p.length - 88 ≤ 67100672 →
        let len := p.length - 88
        let b := p.take len
        exec (.dfuDownload p) s = .next (if verifyPkg s b (p.drop len) len != stOk || !capsuleGood s (slice b 40 16) (p.drop len) then s else
          resetDevice (modSlot s false fun x => { x with
            state := 2
            trial := 0
            seq := max s.flash.a.seq s.flash.b.seq + 1
            floor := rollbackFloor s
            capsule := p.drop len
            pkg := pkgInfo b
            body := b }) 6))
  ∧ (∀ (s : State) (target detail : Nat) (fail : Bool) (q : TestRun),
      running s = true →
      (s.cores.tests.find? fun t => t.target == target) = some q →
      q.endFc ≤ fcNow s →
      target = 0x11 ∨ target = 0x12 →
        let u : State := { s with cores.tests := s.cores.tests.filter fun x => x.target != target, com.cmdCommits := 0 }
        exec (.selfTestDone target fail detail) s = .next (finish (if target = 0x11 then { u with cores.repairs := sat 32 (s.cores.repairs + detail) } else u) q.req stOk (testReply fail 0 detail)))
  ∧ (∀ (s : State) (target detail : Nat) (fail : Bool) (q : TestRun),
      running s = true →
      (s.cores.tests.find? fun t => t.target == target) = some q →
      q.endFc ≤ fcNow s →
      target ≤ 3 →
        let u : State := { s with cores.tests := s.cores.tests.filter fun x => x.target != target, com.cmdCommits := 0 }
        let ok := (chanAt s (target - 1)).state == .voting
        exec (.selfTestDone target fail detail) s = .next (finish u q.req stOk (testReply (!ok) (if ok then 0 else (chanAt s (target - 1)).testId) 0)))

/-- Port links, host frames, auxiliary inputs and faults, service enable, VIO, tamper checks and the key roll act on their own part. (R465, R468, R469, R471, R473, R493, R495, R502) -/
def Obligations.PortAndTamperEventsAct : Prop :=
  (∀ (s : State) (port : Port) (up : Bool) (speed : Nat),
      ((tgetD s.ports.hosts (portCode port) {}).link == up && (tgetD s.ports.hosts (portCode port) {}).speed == speed) = false →
        exec (.portLink port up speed) s = .next (let x := tgetD s.ports.hosts (portCode port) {}
          { s with ports.hosts := tput s.ports.hosts (portCode port) { x with link := up, speed := speed, changed := true, losses := if x.link && !up then inc32 x.losses else x.losses } }))
  ∧ (∀ (s : State) (port : Port) (kind : HostFrame) (u : State),
      portFrame s port = (true, u) →
        exec (.arpNdpEchoRequest port kind) s = .next (let x := tgetD u.ports.hosts (portCode port) {}
          match kind with
          | .echo => if x.echoes < 16 then { u with ports.hosts := tput u.ports.hosts (portCode port) { x with echoes := x.echoes + 1 } } else portOther u port
          | .other => portOther u port
          | _ => if x.arps < 64 then { u with ports.hosts := tput u.ports.hosts (portCode port) { x with arps := x.arps + 1 } } else portOther u port))
  ∧ (∀ (s : State) (io pclk : Nat) (level : Bool),
      io < 8 →
      inFc s pclk = true →
      isOutput s io = false →
      (auxLive s io).level = !level →
      (level && !s.ports.vio) = false →
        exec (.auxInput io level pclk) s = .next (modIo s io fun x => { x with
            level := level, changes := x.changes + 1, total := inc32 x.total,
            chatter := x.chatter || decide (64 < x.changes + 1), edge := some (timeAt s pclk, level) }))
  ∧ (∀ (s : State) (io pclk : Nat),
      io < 8 →
      inFc s pclk = true →
      outOn s io = true →
        exec (.outFault io pclk) s = .next (modIo s io fun x => { x with outFault := true, faultEv := some (timeAt s pclk) }))
  ∧ (∀ (s : State) (active : Bool) (pclk : Nat),
      inFc s pclk = true →
      s.ports.svcEn = !active →
        exec (.svcEn active pclk) s = .next ({ s with ports.svcEn := active, ports.svcEdge := some (timeAt s pclk) }))
  ∧ (∀ (s : State) (present : Bool) (pclk : Nat),
      inFc s pclk = true →
      s.ports.vio = !present →
        exec (.vioLost present pclk) s = .next ({ s with
            ports.vio := present
            ports.vioEv := some (present, timeAt s pclk)
            ports.io := if present then s.ports.io else tmap s.ports.io fun _ x => { x with level := false } }))
  ∧ (∀ (s : State) (i rtc : Nat) (found : Bool),
      i < 4 →
        ∃ t, exec (.tamperCheck i found rtc) s = .next t ∧ t.bk.rtc = rtc ∧ (i < s.bk.tripRun.length → t.bk.tripRun.getD i 0 = if found then min 3 (s.bk.tripRun.getD i 0 + 1) else 0)
          ∧ ((if found then min 3 (s.bk.tripRun.getD i 0 + 1) else 0) ≠ 2 ∨ bit s.bk.enable i = false → t.bk.latched = s.bk.latched ∧ t.p = s.p))
  ∧ (∀ (s : State),
      s.bk.maintFc = 1 →
        exec (.maintenanceExpiry) s = .next ({ s with bk.maintFc := 0 }))
  ∧ (∀ (s : State),
      s.bk.maintFc ≠ 1 →
        exec (.maintenanceExpiry) s = .next (s))
  ∧ (∀ (s : State) (what e : Nat),
      running s = true →
      s.p.keys.roll = some (what, e) →
      e ≤ fcNow s →
        exec (.rollEffective) s = .next (let u : State := { s with
            p.keys.roll := none
            p.keys.groupGen := if bit what 0 then nextGen s.p.keys.groupGen else s.p.keys.groupGen
            p.keys.beaconGen := if bit what 1 then nextGen s.p.keys.beaconGen else s.p.keys.beaconGen }
          rollEvent u none 7 u.p.keys.beaconGen u.p.keys.groupGen e))

/-- A CAN frame is counted and queued; outcomes, errors, bus-off, recovery and wake move their channel. (R443, R444, R449, R453) -/
def Obligations.CanEventsAct : Prop :=
  (∀ (s : State) (ch : Nat) (f : CanIn) (k : Nat) (u : State),
      running s = true →
      ch < 2 →
      canOn (canAt s ch) = true →
      canFrameOk f.ide f.fdf f.id f.data.length = true →
      recAfter s (canAt s ch).recCtr = (k, u) →
      f.remote = true →
        exec (.canRx ch f) s = .next (modCan (modCan u ch fun c => byCounters { c with recCtr := k }) ch fun c => { c with rxRemote := inc32 c.rxRemote }))
  ∧ (∀ (s : State) (ch : Nat) (f : CanIn) (k : Nat) (u v : State),
      running s = true →
      ch < 2 →
      canOn (canAt s ch) = true →
      canFrameOk f.ide f.fdf f.id f.data.length = true →
      recAfter s (canAt s ch).recCtr = (k, u) →
      f.remote = false →
      admitFrame (modCan u ch fun c => byCounters { c with recCtr := k }) (0x30 + 2 * ch) false = (true, v) →
        ∃ t, exec (.canRx ch f) s = .next t ∧ ∃ x, (canAt t ch).rx = (canAt v ch).rx ++ [x] ∧ x.id = f.id ∧ x.ide = f.ide ∧ x.fdf = f.fdf ∧ x.brs = f.brs ∧ x.esi = f.esi ∧ x.data = f.data)
  ∧ (∀ (s : State) (ch outcome : Nat) (sof : Option Counter) (x : CanTx) (fc : Nat),
      running s = true →
      ch < 2 →
      (canAt s ch).stopBuf = some x →
      x.releasedFc = some fc →
      outcome = 1 →
      canOn (canAt s ch) = true →
        ∃ t, exec (.canTxOutcome ch true outcome sof) s = .next t ∧ (canAt t ch).stopBuf = none ∧ ∃ n, (canAt t ch).outcomes = (canAt s ch).outcomes ++ [(x, 1, n)])
  ∧ (∀ (s : State) (ch outcome : Nat) (sof : Option Counter) (x : CanTx) (rest : List CanTx) (fc : Nat),
      running s = true →
      ch < 2 →
      (canAt s ch).txq = x :: rest →
      x.releasedFc = some fc →
      (outcome = 1 ∧ canOn (canAt s ch) = true) ∨ ((outcome = 2 ∨ outcome = 3) ∧ canOn (canAt s ch) = true ∧ x.oneShot = true) ∨ (outcome = 5 ∧ fc + (canAt s ch).cfg.ttl ≤ fcNow s) →
        ∃ t, exec (.canTxOutcome ch false outcome sof) s = .next t ∧ (canAt t ch).txq = rest ∧ ∃ n, (canAt t ch).outcomes = (canAt s ch).outcomes ++ [(x, outcome, n)])
  ∧ (∀ (s : State) (ch tec rc : Nat),
      running s = true →
      ch < 2 →
      canOn (canAt s ch) = true →
        ∃ t, exec (.canBusError ch tec rc) s = .next t ∧ (255 < (canAt s ch).tecCtr + tec → ((canAt t ch).state = .busOff ∨ (canAt t ch).state = .disabled) ∧ (canAt t ch).tecCtr = 256)
          ∧ ((canAt s ch).tecCtr + tec ≤ 255 → (canAt t ch).tecCtr = (canAt s ch).tecCtr + tec ∧ (canAt t ch).recCtr = min 255 ((canAt s ch).recCtr + rc)))
  ∧ (∀ (s : State) (ch : Nat) (head : Bool),
      running s = true →
      ch < 2 →
      canOn (canAt s ch) = true →
      248 ≤ (canAt s ch).tecCtr →
        exec (.busOff ch head) s = .next (noteQueue (modCan s ch fun c => goBusOff (fcNow s) head { c with tecCtr := 256 }) (0x31 + 2 * ch)))
  ∧ (∀ (s : State) (ch : Nat),
      running s = true →
      ch < 2 →
      (canAt s ch).state = .busOff →
        ∃ t, exec (.busOffRecovery ch) s = .next t ∧ (canAt t ch).state = .errorActive ∧ (canAt t ch).tecCtr = 0 ∧ (canAt t ch).recCtr = 0 ∧ t.p = s.p)
  ∧ (∀ (s : State) (ch : Nat) (w : CanWakeIn),
      running s = true →
      ch < 2 →
      (canAt s ch).state = .asleep →
      (if (canAt s ch).cfg.wakeMode = 1 then decide (5 ≤ w.dominantUs) else
          match w.frame with
          | none => false
          | some (id, data) => Nat.land (Nat.xor id (canAt s ch).cfg.wakeId) (canAt s ch).cfg.wakeIdMask == 0 && data.length == (canAt s ch).cfg.wakeLen
              && (data.zip (canAt s ch).cfg.wakeData).any fun e => (e.1 &&& e.2) != 0) = true →
        exec (.canWake ch w) s = .next (noteQueue (modCan s ch (wakeChan (fcNow s) 5 false false)) (0x31 + 2 * ch)))

/-- A queue word is written or read, a frame dropped, the head refilled; a broken queue is reset and a memory fault handled. (R34, R86, R88, R89, R90) -/
def Obligations.QueuesAndMemoryFaultsAct : Prop :=
  (∀ (s : State) (q : Nat) (w : QEntry) (sp : Bool) (k : QParam),
      qParam q = some k →
        exec (.queueWrite q w sp) s = .next (if mismatch (queueAt s q k) then faultQueue s q k 1 false else writeWord s q k w sp))
  ∧ (∀ (s : State) (q : Nat) (k : QParam),
      qParam q = some k →
      mismatch (queueAt s q k) = true →
        exec (.queueRead q) s = .next (faultQueue s q k 1 true))
  ∧ (∀ (s : State) (q : Nat) (k : QParam),
      qParam q = some k →
      mismatch (queueAt s q k) = false →
      (queueAt s q k).entries = [] →
        exec (.queueRead q) s = .next (setQueue s q { queueAt s q k with lastRead := some (entryWord { notValid := true }) }))
  ∧ (∀ (s : State) (q : Nat) (k : QParam) (e : QEntry) (rest : List QEntry),
      qParam q = some k →
      mismatch (queueAt s q k) = false →
      (queueAt s q k).entries = e :: rest →
      (queueAt s q k).inHead = 0 →
        exec (.queueRead q) s = .next (setQueue s q { queueAt s q k with refillPending := wantsRefill (queueAt s q k), lastRead := some (entryWord { notValid := true, pending := true }) }))
  ∧ (∀ (s : State) (q : Nat) (k : QParam) (e : QEntry) (rest : List QEntry),
      qParam q = some k →
      mismatch (queueAt s q k) = false →
      (queueAt s q k).entries = e :: rest →
      (queueAt s q k).inHead ≠ 0 →
      ((queueAt s q k).dropping || (queueAt s q k).skipToSop) = false ∨ e.sop = true →
        exec (.queueRead q) s = .next (noteOccupancy (setQueue s q (popHead (queueAt s q k) e rest)) q k (occupancy s q (queueAt s q k))))
  ∧ (∀ (s : State) (q : Nat) (k : QParam),
      qParam q = some k →
      (queueAt s q k).inFrame = true →
        exec (.dropRest q) s = .next (let x := queueAt s q k
          let n := frameRest x.entries
          let y := settle { x with
            entries := x.entries.drop n
            inHead := x.inHead - n
            inMid := x.inMid - (n - x.inHead)
            rptr := (x.rptr + n) % x.depth
            rptrDup := (x.rptr + n) % x.depth
            inFrame := false
            dropping := !eopWritten x.entries
            skipToSop := !eopWritten x.entries }
          noteOccupancy (setQueue s q { y with refillPending := wantsRefill y }) q k (occupancy s q x)))
  ∧ (∀ (s : State) (q : Nat) (k : QParam),
      qParam q = some k →
      (queueAt s q k).refillPending = true →
      (queueAt s q k).inMid ≠ 0 →
        exec (.headRefill q) s = .next (let x := settle { queueAt s q k with inHead := (queueAt s q k).inHead + frontBlock (queueAt s q k), inMid := (queueAt s q k).inMid - frontBlock (queueAt s q k) }
          setQueue s q { x with refillPending := wantsRefill x }))
  ∧ (∀ (k : SpillQueue),
      k.inMid ≠ 0 →
        1 ≤ frontBlock k ∧ frontBlock k ≤ 16 ∧ frontBlock k ≤ k.inMid ∧ (k.inMid - frontBlock k) % 16 = 0)
  ∧ (∀ (s : State) (q : Nat) (dram reading : Bool) (k : QParam),
      qParam q = some k →
        exec (.queueFault q dram reading) s = .next (let t := resetQueue s q k (if dram then 2 else 1) reading
          if q = 0x40 then persistBroken t else t))
  ∧ (∀ (s : State) (f : MemIn),
      running s = true →
      memUnitOk f = true →
      f.corrected = true →
        exec (.memoryFault f) s = .next (countCorrected s f.block))
  ∧ (∀ (s : State) (f : MemIn),
      running s = true →
      memUnitOk f = true →
      f.corrected = false →
        exec (.memoryFault f) s = .next (match f.block with
          | 1 => memEvent (countUncorrected (coreFault s f.unit f.window) 0) { block := 1, unit := f.unit, outcome := 1 }
          | 2 => memEvent (countUncorrected (tableFault s f.unit f.index) 2) { block := 2, unit := f.unit, outcome := 2, index := f.index }
          | 3 => wayFault s f
          | 4 => memEvent (countUncorrected (searchFault s f.unit) 1) { block := 4, outcome := 3 }
          | 5 => dramFault (countUncorrected s 3) f
          | _ => mramFault s f))

/-- A SEQ once accepted or refused is never accepted later, and a forged or replayed packet leaves the session as it was. (R43, R45, R53, R79) -/
def Obligations.NoSequenceNumberIsAcceptedTwice : Prop :=
  (∀ (e : Session) (q : Nat),
      seqFresh e q = true →
        seqFresh (noteSeq e q) q = false)
  ∧ (∀ (e : Session) (q p : Nat),
      seqFresh e q = false →
      seqFresh e p = true →
        seqFresh (noteSeq e p) q = false)
  ∧ (∀ (s : State) (d : Datagram) (slot : Nat) (e : Session),
      running s = true →
      inFc s d.pclk = true →
      (tgetD s.ports.hosts (portCode d.port) {}).frames < 2048 →
      toUs s d = true →
      sizeOk d = true →
      headerOk d = true →
      hSession d ≠ 0 →
      boundSession s d = some (slot, e) →
      openDatagram e.key d = none →
        ∃ t, exec (.commandReceive d) s = .next t ∧ t.edtor.inbox = s.edtor.inbox ∧ t.p = s.p ∧ t.com.csn = s.com.csn ∧ t.com.replies = s.com.replies
          ∧ ∃ x, sessionAt t slot = some x ∧ x.rxHigh = e.rxHigh ∧ x.rxSeen = e.rxSeen ∧ x.renewFc = e.renewFc ∧ x.outs = e.outs)
  ∧ (∀ (s : State) (d o : Datagram) (slot : Nat) (e : Session),
      running s = true →
      inFc s d.pclk = true →
      (tgetD s.ports.hosts (portCode d.port) {}).frames < 2048 →
      toUs s d = true →
      sizeOk d = true →
      headerOk d = true →
      hSession d ≠ 0 →
      boundSession s d = some (slot, e) →
      openDatagram e.key d = some o →
      seqFresh e (hSeq o) = false →
        ∃ t, exec (.commandReceive d) s = .next t ∧ t.edtor.inbox = s.edtor.inbox ∧ t.p = s.p ∧ t.com.csn = s.com.csn ∧ t.com.replies = s.com.replies
          ∧ ∃ x, sessionAt t slot = some x ∧ x.rxHigh = e.rxHigh ∧ x.rxSeen = e.rxSeen ∧ x.renewFc = e.renewFc ∧ x.outs = e.outs)

/-- The register values a boundary brings into force read at that boundary what the values before them read there. (R132, R133, R137) -/
def Obligations.ReportedTimeDoesNotJumpAtARateChange : Prop :=
  (∀ (s : State) (b : Counter) (fc : Nat),
        time64 (nextRegs s b fc) b = time64 s.time.regs b ∧ (nextRegs s b fc).fc = fc ∧ (nextRegs s b fc).boundary = b)
  ∧ (∀ (s : State) (b : Counter) (fc : Nat),
      s.time.state ≠ .acquiring →
      s.time.state ≠ .locked →
        (nextRegs s b fc).rate = 0)

/-- Frames received and sent on radio and CAN, stop frames, settings, tests, bus-off, recovery and wake complete on their own channel. (R384, R410, R415, R417, R435, R437, R439, R443, R444, R449, R452, R453) -/
def Obligations.RadioAndCanEventsComplete : Prop :=
  (∀ (s : State) (f : AirIn),
      running s = true →
      f.radio < 2 ∧ f.slot < 4 →
      hears s f = true →
      f.fcsOk = true →
      headerHolds s f.psdu = true →
      (admitFrame s (rxQueue f.radio) false).1 = true →
        ∃ t, exec (.radioRx f) s = .next t ∧ (∃ d, t.radio.rx = s.radio.rx ++ [(f, d)]) ∧ (oneRadio t f.radio).framesRx = inc32 (oneRadio s f.radio).framesRx
          ∧ (oneRadio t f.radio).badHeader = (oneRadio s f.radio).badHeader ∧ (oneRadio t f.radio).fcsFail = (oneRadio s f.radio).fcsFail ∧ t.radio.msgs = s.radio.msgs ∧ t.p = s.p)
  ∧ (∀ (s : State) (f : AirIn),
      running s = true →
      f.radio < 2 ∧ f.slot < 4 →
      hears s f = true →
      f.fcsOk = true →
      headerHolds s f.psdu = false →
        ∃ t, exec (.radioRx f) s = .next t ∧ (oneRadio t f.radio).badHeader = inc32 (oneRadio s f.radio).badHeader ∧ t.radio.rx = s.radio.rx ∧ t.p = s.p)
  ∧ (∀ (s : State) (f : AirIn),
      running s = true →
      f.radio < 2 ∧ f.slot < 4 →
      hears s f = true →
      f.fcsOk = false →
        ∃ t, exec (.radioRx f) s = .next t ∧ (oneRadio t f.radio).fcsFail = inc32 (oneRadio s f.radio).fcsFail ∧ t.radio.rx = s.radio.rx ∧ t.p = s.p)
  ∧ (∀ (s : State) (k : Nat) (f : SlotFrame),
      k < 4 →
      slotNowOk s k = true →
      stopInSlot s k = false →
      (foghornFc { s with p.radio.cfg.foghornFc := s.radio.foghornNow } (fcNow s) && decide (k = 2) && decide (asnOf s k % 40 = 30)) = false →
      downlinkCell { s with p.radio.cfg.foghornFc := s.radio.foghornNow } (radioCfg s) (fcNow s) k = true →
      ((oneRadio s 0).queue.find? fun g => !g.beacon) = some f →
      f.slot ≤ asnOf s k →
      eligible s f = true →
      4 * (usedOf s (hopKhz s (hopChannel s (radioCfg s) 0 (asnOf s k))) + f.air) ≤ 3 * (prof s).dwell →
        ∃ t, exec (.timeslot k) s = .next t ∧ (oneRadio t 0).queue = (oneRadio s 0).queue.erase f ∧ (oneRadio t 0).framesTx = inc32 (oneRadio s 0).framesTx
          ∧ (oneRadio t 0).air = (oneRadio s 0).air ++ [(hopKhz s (hopChannel s (radioCfg s) 0 (asnOf s k)), f.psdu)] ∧ t.stop = s.stop ∧ t.p = s.p)
  ∧ (∀ (s : State) (f : SlotFrame),
      slotNowOk s 0 = true →
      ((oneRadio s 0).queue.find? fun g => g.beacon && g.slot == asnOf s 0) = some f →
      beaconSuppressed s f.token = false →
        ∃ t, exec (.beaconLaunch) s = .next t ∧ t.stop.beaconOnAir = true ∧ t.radio.beaconAsn = some (asnOf s 0) ∧ (oneRadio t 0).queue = (oneRadio s 0).queue.erase f
          ∧ (oneRadio t 0).framesTx = inc32 (oneRadio s 0).framesTx ∧ t.stop.voted = s.stop.voted ∧ t.p = s.p)
  ∧ (∀ (s : State) (k : Nat),
      k < 4 →
      slotNowOk s k = true →
      stopInSlot s k = true →
      s.radio.beaconAsn ≠ some (asnOf s k) →
        ∃ t, exec (.stopFrame k) s = .next t ∧ (∃ f, (oneRadio t 0).air = (oneRadio s 0).air ++ [f]) ∧ (∃ f, (oneRadio t 1).air = (oneRadio s 1).air ++ [f])
          ∧ (oneRadio t 0).framesTx = inc32 (oneRadio s 0).framesTx ∧ (oneRadio t 1).framesTx = inc32 (oneRadio s 1).framesTx ∧ (oneRadio t 0).queue = (oneRadio s 0).queue ∧ t.stop = s.stop ∧ t.p = s.p)
  ∧ (∀ (s : State) (c : RadioConfig) (e : Nat),
      running s = true →
      s.clk.window = .latch →
      s.p.radio.pendingCfg = some (c, e) →
      e ≤ fcNow s →
        ∃ t, exec (.radioSettingsEffect) s = .next t ∧ t.p.radio.pendingCfg = none ∧ t.p.radio.cfg.phyMode = c.phyMode ∧ t.p.radio.cfg.powerA = s.p.radio.cfg.powerA ∧ t.p.radio.cfg.powerB = s.p.radio.cfg.powerB
          ∧ t.radio.a.startupUntil = some (fcNow s + 100 * s.p.radio.cfg.startupS) ∧ t.radio.b.startupUntil = some (fcNow s + 100 * s.p.radio.cfg.startupS)
          ∧ t.radio.rx = s.radio.rx ∧ t.nv = s.nv)
  ∧ (∀ (s : State),
      running s = true →
      s.clk.window = .latch →
        ∃ t, exec (.radioTestExpiry) s = .next t ∧ (∀ r u, r < 2 → (oneRadio s r).testUntil = some u → (oneRadio t r).testUntil = if u ≤ fcNow s then none else some u)
          ∧ (∀ r, r < 2 → (oneRadio s r).testUntil = none → (oneRadio t r).testUntil = none) ∧ t.radio.a.queue = s.radio.a.queue ∧ t.radio.b.queue = s.radio.b.queue ∧ t.p = s.p)
  ∧ (∀ (s : State) (ch : Nat) (f : CanIn),
      running s = true →
      ch < 2 →
      canOn (canAt s ch) = true →
      canFrameOk f.ide f.fdf f.id f.data.length = true →
      f.remote = false →
      (admitFrame (modCan (recAfter s (canAt s ch).recCtr).2 ch fun c => byCounters { c with recCtr := (recAfter s (canAt s ch).recCtr).1 }) (0x30 + 2 * ch) false).1 = true →
        ∃ t, exec (.canRx ch f) s = .next t ∧ (∃ x, (canAt t ch).rx = (canAt s ch).rx ++ [x] ∧ x.id = f.id ∧ x.ide = f.ide ∧ x.fdf = f.fdf ∧ x.brs = f.brs ∧ x.esi = f.esi ∧ x.data = f.data)
          ∧ (canAt t ch).rxFrames = inc32 (canAt s ch).rxFrames ∧ (canAt t ch).txq = (canAt s ch).txq ∧ (∀ k, k ≠ ch → canAt t k = canAt s k) ∧ t.stop = s.stop ∧ t.p = s.p)
  ∧ (∀ (s : State) (ch : Nat) (sof : Option Counter) (x : CanTx) (rest : List CanTx) (fc : Nat),
      running s = true →
      ch < 2 →
      (canAt s ch).txq = x :: rest →
      x.releasedFc = some fc →
      canOn (canAt s ch) = true →
        ∃ t, exec (.canTxOutcome ch false 1 sof) s = .next t ∧ (canAt t ch).txq = rest ∧ (∃ n, (canAt t ch).outcomes = (canAt s ch).outcomes ++ [(x, 1, n)]) ∧ (canAt t ch).tecCtr = (canAt s ch).tecCtr - 1
          ∧ (canAt t ch).stopBuf = (canAt s ch).stopBuf ∧ (∀ k, k ≠ ch → canAt t k = canAt s k) ∧ t.stop = s.stop ∧ t.p = s.p)
  ∧ (∀ (s : State) (ch tec rc : Nat),
      running s = true →
      ch < 2 →
      canOn (canAt s ch) = true →
        ∃ t, exec (.canBusError ch tec rc) s = .next t ∧ (255 < (canAt s ch).tecCtr + tec → ((canAt t ch).state = .busOff ∨ (canAt t ch).state = .disabled) ∧ (canAt t ch).tecCtr = 256)
          ∧ ((canAt s ch).tecCtr + tec ≤ 255 → (canAt t ch).tecCtr = (canAt s ch).tecCtr + tec ∧ (canAt t ch).recCtr = min 255 ((canAt s ch).recCtr + rc))
          ∧ (∀ k, k ≠ ch → canAt t k = canAt s k) ∧ t.stop = s.stop ∧ t.p = s.p)
  ∧ (∀ (s : State) (ch : Nat) (head : Bool),
      running s = true →
      ch < 2 →
      canOn (canAt s ch) = true →
      248 ≤ (canAt s ch).tecCtr →
        ∃ t, exec (.busOff ch head) s = .next t ∧ ((canAt t ch).state = .busOff ∨ (canAt t ch).state = .disabled) ∧ (canAt t ch).tecCtr = 256 ∧ (canAt t ch).stopBuf = none
          ∧ (canAt t ch).busoffCount = inc32 (canAt s ch).busoffCount ∧ (∀ k, k ≠ ch → canAt t k = canAt s k) ∧ t.stop = s.stop ∧ t.p = s.p)
  ∧ (∀ (s : State) (ch : Nat),
      running s = true →
      ch < 2 →
      (canAt s ch).state = .busOff →
        ∃ t, exec (.busOffRecovery ch) s = .next t ∧ (canAt t ch).state = .errorActive ∧ (canAt t ch).tecCtr = 0 ∧ (canAt t ch).recCtr = 0 ∧ (canAt t ch).txq = (canAt s ch).txq ∧ (∀ k, k ≠ ch → canAt t k = canAt s k) ∧ t.stop = s.stop ∧ t.p = s.p)
  ∧ (∀ (s : State) (ch : Nat) (w : CanWakeIn),
      running s = true →
      ch < 2 →
      (canAt s ch).state = .asleep →
      (canAt s ch).cfg.wakeMode = 1 →
      5 ≤ w.dominantUs →
        ∃ t, exec (.canWake ch w) s = .next t ∧ (canAt t ch).state = .errorActive ∧ (canAt t ch).tecCtr = 0 ∧ (canAt t ch).recCtr = 0 ∧ (canAt t ch).sleepDue = none ∧ (∀ k, k ≠ ch → canAt t k = canAt s k) ∧ t.stop = s.stop ∧ t.p = s.p)

/-- Association, reports, plan requests, sleep and the timeouts of robots complete in their windows with the effect of the rules. (R266, R268, R269, R273, R275, R279, R281, R346) -/
def Obligations.RobotEventsComplete : Prop :=
  (∀ (s : State) (m : AirMsg) (u : State) (i : Nat),
      running s = true →
      s.clk.window = .command →
      takeMsg s 0x10 = some (m, u) →
      s.mode.cur ≠ .tender →
      m.body.length = 24 →
      zeros m.body 2 2 = true →
      sessionOfEui s m.eui = some i →
      fld m.body 1 1 = (robotRec s i).cls →
        ∃ t, exec (.assocReq) s = .next t ∧ (robotRec t i).sstate = .associating ∧ (robotAt t i).respFc = fcNow s
          ∧ (robotAt t i).shortAddr = nextAddrGen (robotRec s i).gen * 256 + i ∧ t.radio.msgs = s.radio.msgs.erase m ∧ t.com.csn = s.com.csn ∧ t.nv = s.nv)
  ∧ (∀ (s : State) (m : AirMsg) (u : State) (i : Nat),
      running s = true →
      s.clk.window = .command →
      takeMsg s 0x12 = some (m, u) →
      sessionOfEui s m.eui = some i →
      m.body.length = 20 →
      zeros m.body 2 2 = true →
      (robotRec s i).sstate = .associating →
      slice m.body 4 16 = (robotAt s i).deviceNonce →
      fld m.body 1 1 = 0 →
      m.kind = 1 →
        ∃ t, exec (.assocConfirm) s = .next t ∧ (robotRec t i).sstate = .associated
          ∧ (planAt t i).planId = 0 ∧ (robotAt t i).assocCount = inc32 (robotAt s i).assocCount ∧ t.radio.msgs = s.radio.msgs.erase m ∧ t.com.csn = s.com.csn ∧ t.nv = s.nv)
  ∧ (∀ (s : State) (m : AirMsg) (u : State) (i : Nat),
      running s = true →
      s.clk.window = .latch ∨ s.clk.window = .safe →
      takeMsg s 0x20 = some (m, u) →
      m.session = some i →
      m.body.length = 32 →
      m.kind = 1 →
      fld m.body 1 1 < 16 →
      associated s i = true →
        ∃ t, exec (.positionReport) s = .next t ∧ (robotAt t i).battery = fld m.body 2 1 ∧ (robotAt t i).heading = fld m.body 18 2 ∧ (robotAt t i).speed = fldI m.body 20 2 ∧ (robotAt t i).lowBattery = bit (fld m.body 1 1) 3
          ∧ (∀ k, k ≠ i → robotAt t k = robotAt s k) ∧ t.radio.msgs = s.radio.msgs.erase m ∧ t.p = s.p)
  ∧ (∀ (s : State) (m : AirMsg) (u : State) (i : Nat),
      running s = true →
      windowCode s.clk.window ≤ 3 →
      takeMsg s 0x21 = some (m, u) →
      m.session = some i →
        ∃ t, exec (.planReq) s = .next t ∧ t.radio.msgs = s.radio.msgs.erase m ∧ t.allot.plans = s.allot.plans ∧ t.p = s.p
          ∧ ((planAt s i).state ≠ .halted → (planAt s i).state ≠ .parked → t.allot.ignored = inc32 s.allot.ignored)
          ∧ ((planAt s i).state = .halted → m.body.length = 16 → (requesters s).contains i = false → t.allot.ignored = s.allot.ignored))
  ∧ (∀ (s : State) (m : AirMsg) (u : State) (i : Nat),
      running s = true →
      s.clk.window = .latch ∨ s.clk.window = .safe →
      takeMsg s 0x28 = some (m, u) →
      m.session = some i →
      m.body.length = 16 →
      m.kind = 1 →
      0 < fld m.body 2 2 ∧ fld m.body 2 2 ≤ 1200 →
      (robotRec s i).sstate = .associated →
        ∃ t, exec (.sleep) s = .next t ∧ (robotRec t i).sstate = .asleep ∧ (robotAt t i).wakeFc = some (fld m.body 8 8) ∧ (∀ k, k ≠ i → robotRec t k = robotRec s k)
          ∧ t.radio.msgs = s.radio.msgs.erase m ∧ t.com.csn = s.com.csn)
  ∧ (∀ (s : State),
      running s = true →
      s.clk.window = .command →
        ∃ t, exec (.assocTimeout) s = .next t ∧ (∀ i x, tget s.p.robots i = some x → x.sstate = .associating → (robotAt s i).respFc + 50 < fcNow s → (robotRec t i).sstate = .enrolled) ∧ t.com.csn = s.com.csn ∧ t.nv = s.nv ∧ t.clk = s.clk)
  ∧ (∀ (s : State),
      running s = true →
      s.clk.window = .latch →
        ∃ t, exec (.adrift) s = .next t ∧ (∀ i x, tget s.p.robots i = some x → x.sstate = .associated → (robotAt s i).lastHeard + s.p.sessCfg.adrift ≤ fcNow s → (robotRec t i).sstate = .adrift) ∧ t.com.csn = s.com.csn ∧ t.nv = s.nv)
  ∧ (∀ (s : State) (k : Nat),
      running s = true →
      s.clk.window = .latch →
      k < 4096 →
      k / 41 = fcNow s % 100 →
      (rptAt s k).valid = true →
      (rptAt s k).lock = false →
      (rptAt s k).enrolled = false →
      100 * s.p.sessCfg.rptAge ≤ rptAge s k →
      (s.sess.rpt.all fun e => e.1 == k || !e.2.valid) = true →
        ∃ t, exec (.agingSweep) s = .next t ∧ t.sess.rpt = tdel s.sess.rpt k ∧ t.p = s.p ∧ t.com = s.com)
  ∧ (∀ (s : State),
      running s = true →
      s.clk.window = .latch →
        ∃ t, exec (.wakeMissed) s = .next t ∧ (∀ i x w, tget s.p.robots i = some x → x.sstate = .asleep → (robotAt s i).wakeFc = some w → w + 20 ≤ fcNow s → (robotAt t i).wakeMissed = true) ∧ t.p = s.p ∧ t.nv = s.nv)

/-- Stop inputs, filter hits, test pulses, clock loss, rejoin, self-test, lead, swap and release each complete with their effect. (R20, R369, R370, R373, R374, R375, R389, R390, R391, R393, R396) -/
def Obligations.StopPathEventsTakeEffect : Prop :=
  (∀ (s : State) (inp line pclk : Nat),
      running s = true →
      inp < 2 ∧ line < 2 →
      inFc s pclk = true →
        ∃ t, exec (.slInput inp line pclk) s = .next t ∧ t.stop.chans = s.stop.chans.map (fun c => { c with latched := c.latched ||| cause inp, active := c.active ||| cause inp })
          ∧ (slAt t inp).openCond = true ∧ (slAt t inp).okRun = 0 ∧ t.stop.sw1 = t.stop.sw2 ∧ (t.stop.sw1 = true → t.stop.voted = true) ∧ t.p = s.p)
  ∧ (∀ (s : State) (c pclk : Nat),
      running s = true →
      c < 3 →
      c < s.stop.chans.length →
      inFc s pclk = true →
        ∃ t, exec (.clockLoss c pclk) s = .next t ∧ chanAt t c = { chanAt s c with clockLost := true, latched := (chanAt s c).latched ||| cause 8, active := (chanAt s c).active ||| cause 8 }
          ∧ (∀ k, k ≠ c → chanAt t k = chanAt s k) ∧ t.stop.sw1 = false ∧ t.stop.sw2 = false ∧ t.p = s.p)
  ∧ (∀ (s : State) (d o : Datagram) (wait slot : Nat) (e : FilterEntry),
      running s = true →
      inFc s d.pclk = true →
      toUs s d = true →
      filterHeader d = true →
      filterHit d s = some (slot, e, o) →
        ∃ t, exec (.stopFilter d wait) s = .next t ∧ t.stop.filterRecs = s.stop.filterRecs ++ [{ sessionId := e.sessionId, seq := hSeq o, time := timeAt s (o.pclk + 876 + min wait 1724) }]
          ∧ tget t.stop.filter slot = some { e with seq := hSeq o } ∧ t.stop.filterReject = s.stop.filterReject
          ∧ (hOpcode o = 0x0901 → t.stop.chans = s.stop.chans.map (fun c => { c with latched := c.latched ||| cause 4 }))
          ∧ (hOpcode o ≠ 0x0901 → t.stop.chans = s.stop.chans.map (fun c => { c with robotStop := c.robotStop ||| BitVec.ofNat 256 (2 ^ fld o.bytes 32 1) })))
  ∧ (∀ (s : State) (d : Datagram) (wait : Nat),
      running s = true →
      inFc s d.pclk = true →
      toUs s d = true →
      filterHeader d = false ∨ filterHit d s = none →
        ∃ t, exec (.stopFilter d wait) s = .next t ∧ t.stop.filterReject = inc32 s.stop.filterReject ∧ t.stop.chans = s.stop.chans ∧ t.stop.filterRecs = s.stop.filterRecs ∧ t.stop.filter = s.stop.filter)
  ∧ (∀ (s : State) (src : Nat) (lows : List Bool),
      running s = true →
      src < 4 ∧ lows.length = 4 →
      s.clk.window = pulseWindow src →
      (slAt s (src / 2)).mode = 1 →
        ∃ t, exec (.inputTestPulse src lows) s = .next t ∧ (∀ i, i < 2 → slAt t i =
              if (slAt s i).mode = 1 ∧ (pulsePasses (slAt s i).high1 (src == 2 * i) (lows.getD (2 * i) false) && pulsePasses (slAt s i).high2 (src == 2 * i + 1) (lows.getD (2 * i + 1) false)) = false
              then { slAt s i with pulseOk := false, fault := true, sawOpen := false } else slAt s i)
          ∧ t.stop.sw1 = t.stop.sw2 ∧ t.p = s.p)
  ∧ (∀ (s : State) (fell rose : Bool),
      running s = true →
      s.clk.window = .plan →
      s.stop.voted = true →
      s.stop.sw1 = true →
      fcNow s % 100 = 50 →
      (fell && rose) = false →
        ∃ t, exec (.sloutTestPulse fell rose) s = .next t ∧ t.stop.outputFault = true ∧ t.stop.sw1 = false ∧ t.stop.sw2 = false ∧ t.stop.readback = (!fell, false)
          ∧ t.stop.chans = s.stop.chans.map (fun c => { c with latched := c.latched ||| cause 10, active := c.active ||| cause 10 }))
  ∧ (∀ (s : State) (c : Nat),
      running s = true →
      c < 3 →
      c < s.stop.chans.length →
      s.clk.window = .latch →
      (chanAt s c).state = .rejoining →
      (if (chanAt s c).planned then 10 else 100) ≤ (chanAt s c).matchFc →
        ∃ t, exec (.channelRejoin c) s = .next t ∧ (chanAt t c).state = .voting ∧ (chanAt t c).matchFc = 0 ∧ (chanAt t c).planned = false ∧ (∀ k, k ≠ c → chanAt t k = chanAt s k)
          ∧ t.stop.sw1 = t.stop.sw2 ∧ t.p = s.p)
  ∧ (∀ (s : State) (c : Nat),
      running s = true →
      s.clk.window = .latch →
      votingCount s = 3 →
      c < 3 →
      c < s.stop.chans.length →
      fcNow s % 2880000 = 960000 * c + 30000 →
        ∃ t, exec (.plannedSelfTest) s = .next t ∧ (chanAt t c).state = .testing ∧ (chanAt t c).planned = true ∧ (chanAt t c).leftFc = 12 ∧ (∀ k, k ≠ c → chanAt t k = chanAt s k)
          ∧ t.stop.lead = leadFor t ∧ t.p = s.p)
  ∧ (∀ (s : State),
      running s = true →
      s.clk.window = .latch →
        ∃ t, exec (.leadChange) s = .next t ∧ t.stop.lead = leadFor s ∧ t.stop.chans = s.stop.chans ∧ t.stop.voted = s.stop.voted ∧ t.stop.sw1 = s.stop.sw1 ∧ t.p = s.p)
  ∧ (∀ (s : State) (site : Bool) (robot : Nat),
      running s = true →
      s.clk.window = .safe →
      s.stop.release = some (site, robot) →
        ∃ t, exec (.releaseApply) s = .next t ∧ t.stop.release = none ∧ t.stop.sw1 = t.stop.sw2
          ∧ (site = true → t.stop.chans = s.stop.chans.map (fun c => { c with latched := c.latched &&& (c.active ||| cause 10) }))
          ∧ (site = false → t.stop.chans = s.stop.chans.map (fun c => { c with robotStop := c.robotStop &&& ~~~(BitVec.ofNat 256 (2 ^ robot)) })))
  ∧ (∀ (s : State),
      running s = true →
      s.clk.window = .latch →
      fcNow s % 360000 = 0 →
      s.cores.swapFc ≠ some (fcNow s) →
        ∃ t, exec (.fltSwap) s = .next t ∧ t.cores.swapFc = some (fcNow s) ∧ t.cores.resultsFrom = t.cores.active ∧ t.stop.voted = s.stop.voted
          ∧ (s.cores.standbyReady = true → s.cores.lastGood + 1 = fcNow s → t.cores.active = 1 - s.cores.active)
          ∧ (s.cores.standbyReady = false ∨ s.cores.lastGood + 1 ≠ fcNow s → t.cores.active = s.cores.active))

/-- PPS output and input, ZDA, the step, the RTC, triggers and pulse ends complete at their instants with the effect of the rules. (R136, R137, R145, R148, R149, R150, R151, R156, R157, R158) -/
def Obligations.TimeEventsComplete : Prop :=
  (∀ (s : State) (pclk : Nat),
      running s = true →
      inFc s pclk = true →
      crosses s pclk ftuPerSec 0 = true →
      ppsApart s (counterAt s pclk) = true →
      ppsSquelched s = false →
        ∃ t, exec (.ppsOut pclk) s = .next t ∧ t.time.ppsSuppressed = false ∧ t.time.ppsPrevOut = some (counterAt s pclk)
          ∧ t.time.ppsFall = some (counterAt s pclk + BitVec.ofNat 64 (63897600 * s.time.cfg.ppsWidth)) ∧ t.time.ppsTime % ftuPerSec = 0
          ∧ t.time.ppsTime ≤ timeAt s pclk ∧ timeAt s pclk < t.time.ppsTime + ftuPerSec ∧ t.time.zdaDue = (s.time.cfg.zdaEnable == 1)
          ∧ t.time.regs = s.time.regs ∧ t.p = s.p)
  ∧ (∀ (s : State) (pclk : Nat),
      running s = true →
      inFc s pclk = true →
      crosses s pclk ftuPerSec 0 = true →
      ppsApart s (counterAt s pclk) = true →
      ppsSquelched s = true →
        ∃ t, exec (.ppsOut pclk) s = .next t ∧ t.time.ppsSuppressed = true ∧ t.time.ppsPrevOut = s.time.ppsPrevOut ∧ t.time.ppsFall = s.time.ppsFall
          ∧ t.time.ppsTime = s.time.ppsTime ∧ t.time.zdaDue = s.time.zdaDue ∧ t.p = s.p)
  ∧ (∀ (s : State) (pclk : Nat),
      running s = true →
      inFc s pclk = true →
      s.time.zdaDue = true →
      s.time.ppsTime + zdaDelay ≤ timeAt s pclk →
      timeAt s pclk < s.time.ppsTime + zdaDelay + 513 →
        ∃ t, exec (.zda pclk) s = .next t ∧ t.time.zda = zdaSentence s s.time.ppsTime ∧ t.time.zdaDue = false ∧ t.time.regs = s.time.regs ∧ t.p = s.p)
  ∧ (∀ (s : State) (ftu : Nat) (rising wide : Bool),
      running s = true →
      wide = true →
      ftu < 512 * s.clk.fcLen →
      (rising == (s.time.cfg.ppsEdge == 1)) = true →
        ∃ t, exec (.ppsIn ftu rising wide) s = .next t ∧ t.time.ppsIn = s.time.ppsIn ++ [s.clk.boundary + BitVec.ofInt 64 (ftu - ppsDelayFtu s)] ∧ t.time.state = s.time.state
          ∧ t.time.ref = s.time.ref ∧ t.time.pps = s.time.pps ∧ t.time.regs = s.time.regs ∧ t.p = s.p)
  ∧ (∀ (s : State) (q : StepReq),
      running s = true →
      s.time.step = some q →
      s.clk.window = .guard →
        ∃ t, exec (.step) s = .next t ∧ t.time.step = none ∧ t.time.regs.boundary = nextBoundary s ∧ t.time.regs.rate = 0 ∧ t.clk = s.clk
          ∧ t.time.regs.offset + nextBoundary s = BitVec.ofNat 64 ((fullTime s.time.regs (nextBoundary s) : Int) + q.ftu).toNat ∧ t.p = s.p)
  ∧ (∀ (s : State) (pclk : Nat),
      running s = true →
      inFc s pclk = true →
      crosses s pclk ftuPerSec 0 = true →
        ∃ t, exec (.rtcSet pclk) s = .next t ∧ t.bk.rtc = timeAt s pclk / ftuPerSec * 32768 ∧ t.bk.slots = s.bk.slots ∧ t.bk.latched = s.bk.latched ∧ t.time = s.time ∧ t.p = s.p
          ∧ (timeAt s pclk / ftuPerSec % 3600 ≠ 0 → t.bk.rtcTrim = s.bk.rtcTrim))
  ∧ (∀ (s : State) (id pclk : Nat) (g : TimeTrigger),
      running s = true →
      id < 16 →
      tget s.time.triggers id = some g →
      inFc s pclk = true →
      firesAt s g pclk = true →
      (List.range id).all (fun j => (tget s.time.triggers j).all fun x => x.output != g.output) = true →
        ∃ t, exec (.timeTrigger id pclk) s = .next t ∧ (∀ j, j ≠ id → tget t.time.triggers j = tget s.time.triggers j)
          ∧ (g.period = 0 ∨ g.left = 1 → (tgetD t.time.triggers id {}).action = 0)
          ∧ (g.period ≠ 0 → g.left ≠ 1 → (tgetD t.time.triggers id {}).action = g.action ∧ (tgetD t.time.triggers id {}).left = g.left - 1 ∧ timeAt s pclk < (tgetD t.time.triggers id {}).due)
          ∧ (bit g.flags 1 = false ∨ s.stop.voted = true → g.action = 1 ∨ g.action = 3 → (auxLive t g.output).out = true)
          ∧ (bit g.flags 1 = false ∨ s.stop.voted = true → g.action = 2 → (auxLive t g.output).out = false)
          ∧ (bit g.flags 1 = true → s.stop.voted = false → t.ports = s.ports) ∧ t.p = s.p)
  ∧ (∀ (s : State) (io pclk : Nat) (c : Counter),
      running s = true →
      io < 8 →
      (auxLive s io).pulseEnd = some c →
      inFc s pclk = true →
      c ≤ counterAt s pclk →
      pclk = 0 ∨ counterAt s (pclk - 1) < c →
        ∃ t, exec (.pulseEnd io pclk) s = .next t ∧ (auxLive t io).out = false ∧ (auxLive t io).pulseEnd = none ∧ (∀ k, k ≠ io → auxLive t k = auxLive s k) ∧ t.time = s.time ∧ t.p = s.p)

/-- The epoch latch, the lock events, the antenna retry and the ends of the calibrations complete, each on its own channel or unit. (R172, R174, R176, R177, R179, R183, R184, R190, R230) -/
def Obligations.GnssEventsComplete : Prop :=
  (∀ (s : State) (e : EpochIn),
      running s = true →
      isEpochFc s = true →
      s.gnss.captured = none →
        ∃ t, exec (.epochLatch e) s = .next t ∧ (∃ x, t.gnss.captured = some x ∧ x.fc = fcNow s ∧ x.counter = latchEdge s ∧ x.records = epochRecords s e ∧ x.frozen = freeze s)
          ∧ t.gnss.assignNext = none ∧ (s.gnss.assignNext = none → ∀ v ∈ t.gnss.chans, v.2.slip = false) ∧ t.p = s.p)
  ∧ (∀ (s : State) (c pclk : Nat) (x : Channel),
      c < 320 →
      inFc s pclk = true →
      tget s.gnss.chans c = some x →
      x.searching = true →
        ∃ t, exec (.acquisitionDone c pclk) s = .next t ∧ (∃ y, tget t.gnss.chans c = some y ∧ y.codeLock = true ∧ y.codeAt = counterAt s pclk ∧ y.ambig = 1 ∧ y.active = true ∧ y.bit = x.bit)
          ∧ (∀ k z, tget s.gnss.chans k = some z → k ≠ c → sameSat x z = true → ∃ y, tget t.gnss.chans k = some y ∧ y.active = true ∧ y.codeLock = z.codeLock) ∧ t.p = s.p)
  ∧ (∀ (s : State) (c pclk : Nat) (x : Channel),
      c < 320 →
      inFc s pclk = true →
      tget s.gnss.chans c = some x →
      x.active = true →
      x.codeLock = false →
        ∃ t, exec (.codeLock c pclk) s = .next t ∧ tget t.gnss.chans c = some { x with codeLock := true, codeAt := counterAt s pclk, ambig := 1, searching := false }
          ∧ (∀ k, k ≠ c → tget t.gnss.chans k = tget s.gnss.chans k) ∧ t.p = s.p)
  ∧ (∀ (s : State) (c pclk : Nat) (x : Channel),
      c < 320 →
      inFc s pclk = true →
      tget s.gnss.chans c = some x →
      x.codeLock = true →
      x.phaseLock = false →
        ∃ t, exec (.phaseLock c pclk) s = .next t ∧ tget t.gnss.chans c = some { x with phaseLock := true, lockAt := counterAt s pclk, halfCycle := (signalOf x.bit).pilot }
          ∧ (∀ k, k ≠ c → tget t.gnss.chans k = tget s.gnss.chans k) ∧ t.p = s.p)
  ∧ (∀ (s : State) (c : Nat) (x : Channel),
      c < 320 →
      tget s.gnss.chans c = some x →
      x.codeLock = true →
      x.ambig = 1 →
        ∃ t, exec (.bitSynchronisation c false) s = .next t ∧ tget t.gnss.chans c = some { x with ambig := 2 }
          ∧ (∀ k, k ≠ c → tget t.gnss.chans k = tget s.gnss.chans k) ∧ t.p = s.p)
  ∧ (∀ (s : State) (c : Nat) (x : Channel),
      c < 320 →
      tget s.gnss.chans c = some x →
      x.codeLock = true →
      x.ambig = 2 →
        ∃ t, exec (.bitSynchronisation c true) s = .next t ∧ tget t.gnss.chans c = some { x with ambig := 0, halfCycle := x.halfCycle || (x.phaseLock && !(signalOf x.bit).pilot) }
          ∧ (∀ k, k ≠ c → tget t.gnss.chans k = tget s.gnss.chans k) ∧ t.p = s.p)
  ∧ (∀ (s : State) (c pclk : Nat) (code phase : Bool) (x : Channel),
      c < 320 →
      inFc s pclk = true →
      tget s.gnss.chans c = some x →
      x.codeLock = true →
        ∃ t, exec (.lossOfLock c code phase pclk) s = .next t ∧ (∃ y, tget t.gnss.chans c = some y ∧ y.slip = true ∧ y.slips = (x.slips + 1) % 65536 ∧ y.lockAt = counterAt s pclk ∧ y.codeLock = !code ∧ (code = true → y.ambig = 3 ∧ y.phaseLock = false)
            ∧ (code = false → y.ambig = x.ambig ∧ y.active = x.active) ∧ (phase = true → y.phaseLock = false ∧ y.halfCycle = false)) ∧ t.p = s.p)
  ∧ (∀ (s : State) (a : Nat),
      a < 2 →
      (tgetD s.gnss.ants a {}).state = 4 →
      (tgetD s.gnss.ants a {}).biasOffFc = 1 →
        ∃ t, exec (.antShortRetry a) s = .next t ∧ (tgetD t.gnss.ants a {}).biasOffFc = 0 ∧ (tgetD t.gnss.ants a {}).biasOnFc = 10 ∧ (tgetD t.gnss.ants a {}).state = 4
          ∧ t.gnss.shortRetries = sat 16 (s.gnss.shortRetries + 1) ∧ tgetD t.gnss.ants (1 - a) {} = tgetD s.gnss.ants (1 - a) {} ∧ t.p = s.p)
  ∧ (∀ (s : State) (align : List Int) (c : GnssCal),
      s.gnss.cal = some c →
      c.endFc ≤ fcNow s →
      c.kind = 1 →
        ∃ t, exec (.gnssCalibrationDone none align) s = .next t ∧ t.gnss.cal = none ∧ t.p = s.p ∧ t.com.csn = s.com.csn)
  ∧ (∀ (s : State) (d : Nat) (align : List Int) (c : GnssCal),
      s.gnss.cal = some c →
      c.endFc ≤ fcNow s →
      c.kind = 1 →
      csnHolds s c.req [siteObj] = true →
      mramFog s = false →
        ∃ t, exec (.gnssCalibrationDone (some d) align) s = .next t ∧ t.gnss.cal = none ∧ t.com.csn = s.com.nextCsn ∧ objCsn t okSite 0 = s.com.nextCsn
          ∧ (c.antenna = 0 → t.p.gnssCfg.cableA = d ∧ t.p.gnssCfg.cableB = s.p.gnssCfg.cableB) ∧ (c.antenna ≠ 0 → t.p.gnssCfg.cableB = d ∧ t.p.gnssCfg.cableA = s.p.gnssCfg.cableA))
  ∧ (∀ (s : State) (delay : Option Nat) (align : List Int) (c : GnssCal),
      s.gnss.cal = some c →
      c.endFc ≤ fcNow s →
      c.kind = 3 →
      c.lacked = false →
      align.length = 3 →
      csnHolds s c.req [siteObj] = true →
      mramFog s = false →
        ∃ t, exec (.gnssCalibrationDone delay align) s = .next t ∧ t.gnss.cal = none ∧ t.com.csn = s.com.nextCsn ∧ t.p.gnssCfg.align = align ∧ t.p.gnssCfg.cableA = s.p.gnssCfg.cableA ∧ t.p.gnssCfg.cableB = s.p.gnssCfg.cableB)
  ∧ (∀ (s : State) (fits : List CalFit) (c : BuoyCal),
      s.buoy.cal = some c →
      c.endFc ≤ fcNow s →
      (links.filterMap (groupHead c)).isEmpty = true →
        ∃ t, exec (.buoyCalibrationDone fits) s = .next t ∧ t.buoy.cal = none ∧ t.p = s.p ∧ t.com.csn = s.com.csn)
  ∧ (∀ (s : State) (fits : List CalFit) (c : BuoyCal),
      s.buoy.cal = some c →
      c.endFc ≤ fcNow s →
      (links.filterMap (groupHead c)).isEmpty = false →
      csnHolds s c.req (maskObjs 0x3FF) = true →
      mramFog s = false →
        ∃ t, exec (.buoyCalibrationDone fits) s = .next t ∧ t.buoy.cal = none ∧ t.com.csn = s.com.nextCsn ∧ (∀ l, l < 10 → objCsn t okAnchor l = s.com.nextCsn)
          ∧ (∀ l, l < 10 → (anchorSet t l).eui = (anchorSet s l).eui))

/-- The boundary opens an FC and takes the inputs in; each window opens in its turn and leaves alone what belongs to another window. (R21, R22, R23, R24, R25, R69, R98) -/
def Obligations.EachWindowOpensAndCommitsNothingElsewhere : Prop :=
  (∀ (s : State) (i : BoundaryIn),
      running s = true →
      (s.mode.cur == .still) = false →
      s.time.step = none →
        ∃ t, exec (.fcBoundary i) s = .next t ∧ t.clk.window = .latch ∧ t.clk.boundary = nextBoundary s ∧ t.clk.firstFc = false ∧ t.edtor.inbox = [] ∧ t.edtor.unitsUsed = 0
          ∧ t.edtor.latched.length = s.edtor.latched.length + s.edtor.inbox.length ∧ t.fuse = s.fuse)
  ∧ (∀ (s : State) (i : SafeIn),
      running s = true →
      windowCode s.clk.window < windowCode .safe →
        ∃ t, exec (.safeWindow i) s = .next t ∧ t.clk = { s.clk with window := .safe } ∧ t.p = s.p ∧ t.nv = s.nv ∧ t.edtor = s.edtor ∧ t.com = s.com)
  ∧ (∀ (s : State) (i : SolveIn),
      running s = true →
      windowCode s.clk.window < windowCode .solve →
        ∃ t, exec (.solveWindow i) s = .next t ∧ t.clk = { s.clk with window := .solve } ∧ t.nv = s.nv ∧ t.flash = s.flash ∧ t.bk = s.bk ∧ t.queues = s.queues)
  ∧ (∀ (s : State),
      running s = true →
      windowCode s.clk.window < windowCode .command →
        ∃ t, exec (.commandWindow) s = .next t ∧ t.clk = { s.clk with window := .command } ∧ t.nv = s.nv ∧ t.fuse = s.fuse)
  ∧ (∀ (s : State),
      running s = true →
      windowCode s.clk.window < windowCode .plan →
        ∃ t, exec (.planWindow) s = .next t ∧ t.clk = { s.clk with window := .plan } ∧ t.nv = s.nv ∧ t.flash = s.flash ∧ t.gnss = s.gnss ∧ t.supply = s.supply)
  ∧ (∀ (s : State),
      running s = true →
      windowCode s.clk.window < windowCode .emit →
        ∃ t, exec (.emitWindow) s = .next t ∧ t.clk = { s.clk with window := .emit } ∧ t.nv = s.nv ∧ t.flash = s.flash ∧ t.com.csn = s.com.csn ∧ t.com.replies = s.com.replies ∧ t.holds = s.holds)
  ∧ (∀ (s : State),
      running s = true →
      windowCode s.clk.window < windowCode .persist →
        ∃ t, exec (.persistWindow) s = .next t ∧ t.clk = { s.clk with window := .persist } ∧ t.nv = s.nv ∧ t.holds = s.holds ∧ t.strt = s.strt ∧ (mramFog s = true → t.com.withheld = false))
  ∧ (∀ (s : State),
      running s = true →
      windowCode s.clk.window < windowCode .guard →
        ∃ t, exec (.guardWindow) s = .next t ∧ t.clk = { s.clk with window := .guard } ∧ t.com.csn = s.com.csn ∧ t.com.persistDue = false ∧ t.bk = s.bk ∧ t.holds = s.holds ∧ t.strt = s.strt)

/-- Power, reset, start-up, supervision, reload and lease expiry complete, each in the mode and window the spec gives it. (R33, R53, R54, R107, R110, R115, R116, R117, R118, R122, R517) -/
def Obligations.PowerResetAndSupervisionEventsComplete : Prop :=
  (∀ (s : State),
      s.mode.cur = .doldrums →
        ∃ t, exec (.powerOn) s = .next t ∧ t.mode.cur = .still ∧ t.mode.lastKind = 1 ∧ t.mode.stillPhase = 1 ∧ t.p = s.nv ∧ t.nv = s.nv ∧ t.flash = s.flash ∧ t.edtor.sessions = [] ∧ t.holds = [] ∧ t.clk.running = false)
  ∧ (∀ (s : State),
      s.mode.cur ≠ .doldrums →
        ∃ t, exec (.powerFail) s = .next t ∧ t.mode.cur = .doldrums ∧ t.p = s.nv ∧ t.nv = s.nv ∧ t.flash = s.flash ∧ t.bk.powerFail = some s.bk.rtc ∧ t.bk.slots = s.bk.slots ∧ t.edtor.sessions = [] ∧ t.holds = [])
  ∧ (∀ (s : State) (k : Nat),
      running s = true →
      s.mode.resetAt = some k →
      k ≠ 2 →
      s.clk.window = .guard →
        ∃ t, exec (.reset) s = .next t ∧ t.mode.cur = .still ∧ t.mode.lastKind = k ∧ t.mode.stillPhase = (if isCold k then 1 else 2) ∧ t.mode.resetAt = none ∧ t.p = s.nv ∧ t.nv = s.nv ∧ t.flash = s.flash ∧ t.edtor.sessions = [])
  ∧ (∀ (s : State) (i : BootIn) (b : Bool),
      s.mode.cur = .still →
      s.upd.dfu = false →
      (trySlots i true (bootOrder s) s).1 = some b →
        ∃ t, exec (.stillComplete i) s = .next t ∧ t.mode.stillPhase = 0 ∧ t.flash.active = b ∧ t.upd.dfu = false ∧ t.clk.running = true ∧ t.clk.window = .latch ∧ t.clk.firstFc = true
          ∧ t.clk.fcLen = 1248000 ∧ t.p.unreadable = !i.ctrl ∧ t.stop.voted = voteOf t ∧ t.stop.sw1 = t.stop.sw2 ∧ t.edtor = s.edtor ∧ t.fuse = s.fuse)
  ∧ (∀ (s : State) (i : BootIn),
      s.mode.cur = .still →
      s.upd.dfu = false →
      (trySlots i true (bootOrder s) s).1 = none →
        ∃ t, exec (.stillComplete i) s = .next t ∧ t.mode.cur = .still ∧ t.mode.stillPhase = 3 ∧ t.mode.stillFails = s.mode.stillFails + 1 ∧ t.upd.dfu = true
          ∧ t.bk.bootFails = sat 32 (s.bk.bootFails + 1) ∧ t.p = s.p ∧ t.nv = s.nv ∧ t.edtor = s.edtor)
  ∧ (∀ (s : State) (i : BootIn) (b : Bool),
      s.mode.cur = .still →
      s.upd.dfu = true →
      (trySlots i false (bootOrder s) s).1 = some b →
        ∃ t, exec (.bootRetry i) s = .next t ∧ t.mode.stillPhase = 0 ∧ t.flash.active = b ∧ t.upd.dfu = false ∧ t.clk.running = true ∧ t.clk.window = .latch ∧ t.clk.firstFc = true
          ∧ t.clk.fcLen = 1248000 ∧ t.p.unreadable = !i.ctrl ∧ t.stop.voted = voteOf t ∧ t.stop.sw1 = t.stop.sw2 ∧ t.edtor = s.edtor ∧ t.fuse = s.fuse)
  ∧ (∀ (s : State) (i : BootIn),
      s.mode.cur = .still →
      s.upd.dfu = true →
      (trySlots i false (bootOrder s) s).1 = none →
        ∃ t, exec (.bootRetry i) s = .next t ∧ t.mode.cur = .still ∧ t.mode.stillPhase = 3 ∧ t.mode.stillFails = s.mode.stillFails + 1 ∧ t.upd.dfu = true
          ∧ t.bk.bootFails = sat 32 (s.bk.bootFails + 1) ∧ t.p = s.p ∧ t.nv = s.nv ∧ t.edtor = s.edtor)
  ∧ (∀ (s : State),
      s.mode.cur = .doldrums →
        ∃ t, exec (.backupDomainLoss) s = .next t ∧ t.bk.lost = true ∧ t.bk.slots = [] ∧ t.bk.powerFail = none ∧ t.p = s.p ∧ t.nv = s.nv ∧ t.flash = s.flash)
  ∧ (∀ (s : State),
      running s = true →
      100 * s.supply.cfg.hostLossS ≤ s.mode.noSessionFc →
        ∃ t, exec (.hostLoss) s = .next t ∧ t.p = s.p ∧ t.mode.cur = s.mode.cur
          ∧ (windowCode s.clk.window ≤ 2 → t.mode.triggers = s.mode.triggers ++ [.hostLoss] ∧ t.mode.later = s.mode.later)
          ∧ (2 < windowCode s.clk.window → t.mode.triggers = s.mode.triggers ∧ t.mode.later = s.mode.later ++ [.hostLoss]))
  ∧ (∀ (s : State),
      running s = true →
      100 ≤ s.mode.refLossRun →
        ∃ t, exec (.referenceLost) s = .next t ∧ t.p = s.p ∧ t.mode.cur = s.mode.cur
          ∧ (windowCode s.clk.window ≤ 2 → t.mode.triggers = s.mode.triggers ++ [.noPosition] ∧ t.mode.later = s.mode.later)
          ∧ (2 < windowCode s.clk.window → t.mode.triggers = s.mode.triggers ∧ t.mode.later = s.mode.later ++ [.noPosition]))
  ∧ (∀ (s : State) (core : Nat) (w : Window),
      running s = true →
      core < 8 →
      s.clk.window = w →
        ∃ t, exec (.windowOverrun core w) s = .next t ∧ t.cores.overruns = lmod s.cores.overruns core inc32 ∧ (∃ a, t.cores.overEvs = s.cores.overEvs ++ [(core, windowCode w, a, fcNow s)] ∧ 1 ≤ a ∧ a ≤ 7)
          ∧ (s.cores.active < 2 → core = 5 → t.cores.posInvalid = true) ∧ (s.cores.active < 2 → core = 6 → t.cores.txSkipped = true)
          ∧ (core = 3 ∨ core = 4 → core ≠ 3 + s.cores.active → t.cores.standbyReady = false) ∧ t.nv = s.nv ∧ t.clk = s.clk)
  ∧ (∀ (s : State) (core : Nat),
      running s = true →
      core < 8 →
      s.cores.reload.any (fun e => e.1 == core && decide (e.2 ≤ fcNow s)) = true →
        ∃ t, exec (.coreReload core) s = .next t ∧ (∀ e ∈ t.cores.reload, e.1 ≠ core) ∧ (∀ e ∈ s.cores.reload, e.1 ≠ core → e ∈ t.cores.reload) ∧ t.p = s.p
          ∧ (s.mode.veerCore = some core → t.mode.veerCore = none ∧ Trigger.veerOver ∈ t.mode.triggers ++ t.mode.later)
          ∧ (s.mode.veerCore ≠ some core → t.mode = s.mode))
  ∧ (∀ (s : State) (slot : Nat) (e : Session),
      running s = true →
      slot < 4 →
      sessionAt s slot = some e →
      e.leaseDue = true →
      s.clk.window = .solve ∨ s.clk.window = .command →
      fltAway s = false →
        ∃ t, exec (.lease slot) s = .next t ∧ sessionAt t slot = none ∧ (∀ k ∈ t.com.replies, k.slot ≠ slot) ∧ (∀ r ∈ t.edtor.latched, r.slot = slot → r.sessionId ≠ e.id)
          ∧ t.nv = s.nv ∧ t.clk = s.clk ∧ t.mode = s.mode)

/-- The allotment round, its searches and reservations, the grant, probes, the expiry sweep and the task timeouts complete. (R301, R309, R328, R336, R337, R338, R341, R342) -/
def Obligations.AllotmentAndTaskEventsComplete : Prop :=
  (∀ (s : State),
      s.clk.window = .plan →
      fcNow s % 10 = 0 →
      isGo (fleetMode s) = true →
      s.strt.grid.cellMm ≠ 0 →
      s.allot.round ≠ some (fcNow s / 10) →
        ∃ t, exec (.allotmentRound) s = .next t ∧ t.allot.round = some (fcNow s / 10) ∧ t.allot.pathReqs = [] ∧ t.allot.stats.round = fcNow s / 10
          ∧ t.allot.stats.requests = t.allot.reqs.length ∧ t.clk = s.clk ∧ t.nv = s.nv)
  ∧ (∀ (s : State) (age u i : Nat),
      s.clk.window = .plan →
      isGo (fleetMode s) = true →
      roundAge s = some age →
      age ≤ 8 →
      ((List.range 4).find? fun u => !(busyUnits s).contains u) = some u →
      (s.allot.reqs.findIdx? fun q => q.stage == .queued && decide (q.fromFc ≤ fcNow s)) = some i →
        ∃ t, exec (.leadlightRequest) s = .next t ∧ t.allot.reqs = lmod s.allot.reqs i (fun q => { q with stage := .searching, unit := u }) ∧ t.strt = s.strt ∧ t.p = s.p)
  ∧ (∀ (s : State) (unit tclk age i : Nat),
      unit < 4 →
      roundAge s = some age →
      (s.allot.reqs.findIdx? fun q => q.stage == .searching && q.unit == unit) = some i →
      8 < age →
        ∃ t, exec (.searchResult unit tclk) s = .next t ∧ t.allot.reqs = lmod s.allot.reqs i (fun q => { q with stage := .carried, result := some { code := .abandoned } }) ∧ t.strt = s.strt ∧ t.p = s.p ∧ t.com = s.com)
  ∧ (∀ (s : State) (unit tclk age i x y h : Nat),
      unit < 4 →
      roundAge s = some age →
      (s.allot.reqs.findIdx? fun q => q.stage == .searching && q.unit == unit) = some i →
      age ≤ 8 →
      s.clk.window = .plan →
      (s.allot.reqs.getD i {}).origin = some (x, y, h) →
        ∃ t, exec (.searchResult unit tclk) s = .next t ∧ (∃ res, res = search (searchCtx s (s.allot.reqs.getD i {})) (holdSlot s (s.allot.reqs.getD i {}) (fcNow s + 1)) x y h
            ∧ t.allot.reqs = lmod s.allot.reqs i (fun q => { q with result := some res, doneFc := fcNow s, stage := if res.code = .noPath then .failed else .found }))
          ∧ t.strt = s.strt ∧ t.p = s.p ∧ t.com = s.com)
  ∧ (∀ (s : State) (age : Nat),
      roundAge s = some age →
      s.clk.window = .plan →
      isGo (fleetMode s) = true →
      2 ≤ age ∧ age ≤ 9 →
      s.allot.reserveFc ≠ some (fcNow s) →
        ∃ t, exec (.legReserve) s = .next t ∧ t.allot.reserveFc = some (fcNow s) ∧ t.nv = s.nv ∧ t.clk = s.clk
          ∧ ((∀ q ∈ s.allot.reqs, q.stage ≠ .found) → t.strt = s.strt ∧ t.com = s.com ∧ t.allot.reqs = s.allot.reqs))
  ∧ (∀ (s : State) (r : Nat),
      s.allot.round = some r →
      s.clk.window = .plan →
      fcNow s = 10 * r + 9 →
      isGo (fleetMode s) = true →
        ∃ t, exec (.grant) s = .next t ∧ t.allot.round = none ∧ t.allot.reqs = [] ∧ t.allot.last = t.allot.stats ∧ t.nv = s.nv ∧ t.clk = s.clk)
  ∧ (∀ (s : State) (cell slot kind who : Nat),
      who < 5 ∧ kind < 5 ∧ cell < 2 ^ 24 →
      s.strt.relocating ≠ some (keyInput cell (if isStanding kind then 0 else slot % 1024) kind).toNat →
        ∃ t, exec (.probe cell slot kind who) s = .next t ∧ t.strt.reissue = none ∧ t.strt.ways = s.strt.ways ∧ t.holds = s.holds ∧ t.com = s.com
          ∧ (∀ i w, probeKey s.strt.ways cell (if isStanding kind then 0 else slot % 1024) kind = .at i w → t.strt.probeOut = some (1, i, w))
          ∧ (probeKey s.strt.ways cell (if isStanding kind then 0 else slot % 1024) kind = .free → t.strt.probeOut = some (0, 0xFFFFFFFF, 0)))
  ∧ (∀ (s : State),
      running s = true →
      s.clk.window = .latch →
      fcNow s % 5 = 0 →
      s.strt.sweptSlot ≠ some (slotNow s) →
        ∃ t, exec (.expirySweep) s = .next t ∧ t.strt.sweptSlot = some (slotNow s) ∧ (∀ e ∈ t.strt.ways, e ∈ s.strt.ways)
          ∧ (∀ e ∈ t.strt.ways, holds e.2 = true → isStanding (eKind e.2) = false → eLock e.2 = false → eSlot e.2 ≠ (slotNow s + 1023) % 1024) ∧ t.com.csn = s.com.csn ∧ t.nv = s.nv)
  ∧ (∀ (s : State),
      running s = true →
      s.clk.window = .plan →
      mramFog s = false →
        ∃ t, exec (.taskDeadline) s = .next t ∧ (∀ j x, tget s.p.tasks j = some x → x.state = .posted → x.deadlineNow ≠ 0 → x.deadlineNow ≤ timeAt s 624000 % 2 ^ 64 → (taskAt t j).state = .failed ∧ (taskAt t j).cause = 7)
          ∧ t.p.robots = s.p.robots ∧ t.nv = s.nv)
  ∧ (∀ (s : State),
      running s = true →
      s.clk.window = .plan →
      mramFog s = false →
        ∃ t, exec (.terminalKeep) s = .next t ∧ (∀ j, (∀ e ∈ s.p.tasks, e.1 = j → terminal e.2.state = true ∧ e.2.stateFc + 100 * s.allot.cfg.keepS ≤ fcNow s) → tget t.p.tasks j = none)
          ∧ t.p.robots = s.p.robots ∧ t.nv = s.nv)

/-- The end of a verification, each step of an activation, a rescue download and the end of a self-test complete when they are due. (R513, R516, R517, R520, R521, R522, R529, R570) -/
def Obligations.UpdateAndSelfTestEventsComplete : Prop :=
  (∀ (s : State) (r : Request) (d e : Nat),
      running s = true →
      s.upd.finish = some (d, e, r) →
      s.upd.verified = some stOk →
      e ≤ fcNow s →
      mramFog s = false →
        ∃ t, exec (.updFinishDone) s = .next t ∧ t.upd.finish = none ∧ t.upd.verified = none ∧ t.upd.staged = true ∧ t.upd.blocks = [] ∧ t.upd.state = 3 ∧ t.com.csn = s.com.nextCsn
          ∧ (imageSlot t (!s.flash.active)).state = 1 ∧ imageSlot t s.flash.active = imageSlot s s.flash.active ∧ t.flash.active = s.flash.active)
  ∧ (∀ (s : State) (r : Request) (d e st : Nat),
      running s = true →
      s.upd.finish = some (d, e, r) →
      s.upd.verified = some st →
      st ≠ stOk →
      e ≤ fcNow s →
        ∃ t, exec (.updFinishDone) s = .next t ∧ t.upd.finish = none ∧ t.upd.verified = none ∧ t.com.csn = s.com.csn ∧ t.flash = s.flash ∧ t.p = s.p)
  ∧ (∀ (s : State) (v : Activation),
      running s = true →
      s.upd.act = some v →
      s.upd.state = 4 →
      fcNow s + 100 = v.a →
        ∃ t, exec .anchorActivateSend s = .next t ∧ (∀ l id, l < 10 → bit v.linkMask l = true → anchorImage s l = some id → (anchorAt t l).activate = some (id, v.a * ftuPerFc) ∧ (anchorAt t l).relay = none)
          ∧ (∀ l, bit v.linkMask l = false → anchorAt t l = anchorAt s l) ∧ t.upd = s.upd ∧ t.com = s.com)
  ∧ (∀ (s : State) (v : Activation) (ok : Bool),
      running s = true →
      s.upd.act = some v →
      s.upd.state = 4 →
      v.a ≤ fcNow s + 1 →
      v.passed = false →
      s.clk.window = .solve →
      mramFog s = false →
      checkFails { s with com.cmdCommits := 0 } v ok = none →
      siteChanged { s with com.cmdCommits := 0 } v = none →
        ∃ t, exec (.activationCheck ok) s = .next t ∧ (∃ w, t.upd.act = some w ∧ w.passed = true ∧ w.a = v.a ∧ w.target = v.target) ∧ t.com.csn = s.com.nextCsn ∧ t.upd.state = 4
          ∧ (v.restart = true → t.mode.resetAt = some 6 ∧ t.mode.triggers = s.mode.triggers) ∧ (v.restart = false → t.mode.triggers = s.mode.triggers ++ [.activation] ∧ t.mode.resetAt = s.mode.resetAt))
  ∧ (∀ (s : State) (v : Activation) (ok : Bool) (st : Nat),
      running s = true →
      s.upd.act = some v →
      s.upd.state = 4 →
      v.a ≤ fcNow s + 1 →
      v.passed = false →
      s.clk.window = .solve →
      checkFails { s with com.cmdCommits := 0 } v ok = some st →
        ∃ t, exec (.activationCheck ok) s = .next t ∧ t.upd.act = none ∧ t.upd.state = 3 ∧ t.com.csn = s.com.csn ∧ t.flash = s.flash ∧ t.mode.resetAt = s.mode.resetAt ∧ t.p = s.p)
  ∧ (∀ (s : State) (v : Activation),
      running s = true →
      s.upd.act = some v →
      s.upd.state = 4 →
      v.passed = true →
      fcNow s = v.a →
        ∃ t, exec .activation s = .next t ∧ t.upd.state = 5 ∧ t.cores.standbyReady = false ∧ t.cores.active = s.cores.active ∧ t.flash = s.flash
          ∧ t.cores.reload = s.cores.reload ++ [(5, v.a + 12), (6, v.a + 5), (7, v.a + 20), (4 - s.cores.active, v.a + 9)] ∧ t.com.csn = s.com.csn)
  ∧ (∀ (s : State) (v : Activation),
      running s = true →
      s.upd.act = some v →
      s.upd.state = 5 →
      v.c.isNone = true →
      v.a + 9 ≤ fcNow s ∧ fcNow s ≤ v.a + 14 →
      s.clk.window = .guard →
        ∃ t, exec .fltImageHandover s = .next t ∧ t.flash.active = v.target ∧ t.cores.active = 1 - s.cores.active ∧ t.cores.resultsFrom = 1 - s.cores.active
          ∧ t.upd.act = some { v with c := some (fcNow s) } ∧ t.upd.pkgId = (imageSlot s v.target).pkg.pkgId ∧ t.p.keys = s.p.keys)
  ∧ (∀ (s : State) (v : Activation) (c : Nat),
      running s = true →
      s.upd.act = some v →
      v.c = some c →
      s.upd.state = 5 →
      c + 11 ≤ fcNow s →
        ∃ t, exec .freezeEnd s = .next t ∧ t.upd.state = 6 ∧ t.upd.safNext = 0 ∧ t.cores.standbyReady = true ∧ (∀ e ∈ t.cores.reload, e.1 ≠ 4 - s.cores.active)
          ∧ t.upd.act = s.upd.act ∧ t.flash = s.flash ∧ t.p = s.p)
  ∧ (∀ (s : State) (v : Activation) (fail : Option Nat) (c : Nat),
      running s = true →
      s.upd.act = some v →
      s.upd.state = 6 →
      s.clk.window = .latch →
      s.upd.safTurn = none →
      (turnsLeft s v s.upd.safNext).head? = some c →
      votingCount s = 3 →
      c < s.stop.chans.length →
        ∃ t, exec (.safUpdateTurn fail) s = .next t ∧ t.upd.safTurn = some (c, fcNow s) ∧ t.upd.safNext = c + 1
          ∧ (chanAt t c).state = .updating ∧ (∀ k, k ≠ c → chanAt t k = chanAt s k) ∧ t.stop.sw1 = t.stop.sw2 ∧ t.p = s.p)
  ∧ (∀ (s : State) (v : Activation) (c k : Nat),
      running s = true →
      s.upd.act = some v →
      s.upd.state = 6 →
      s.clk.window = .latch →
      s.upd.safTurn = some (c, k) →
      (chanAt s c).state = .updating →
      c < s.stop.chans.length →
      k + 14 ≤ fcNow s →
        ∃ t, exec (.safUpdateTurn none) s = .next t ∧ (chanAt t c).state = .rejoining ∧ (chanAt t c).matchFc = 0 ∧ t.upd = s.upd ∧ t.p = s.p)
  ∧ (∀ (s : State) (v : Activation) (failed : Bool),
      running s = true →
      s.upd.act = some v →
      abandons s v failed = true →
        ∃ t, exec (.activationAbandon failed) s = .next t ∧ t.upd.state = 0 ∧ t.upd.act = none ∧ t.flash.active = !v.target
          ∧ (imageSlot t v.target).state = 4 ∧ t.mode.resetAt = some 6 ∧ t.com.csn = s.com.csn ∧ t.p = s.p)
  ∧ (∀ (s : State) (p : Bytes),
      s.mode.cur = .still →
      s.upd.dfu = true →
      89 ≤ p.length →
      p.length - 88 ≤ 67100672 →
        let b := p.take (p.length - 88)
        let c := p.drop (p.length - 88)
        ∃ t, exec (.dfuDownload p) s = .next t ∧ t.nv = s.nv
          ∧ (verifyPkg s b c (p.length - 88) ≠ stOk ∨ capsuleGood s (slice b 40 16) c = false → t = s)
          ∧ (verifyPkg s b c (p.length - 88) = stOk → capsuleGood s (slice b 40 16) c = true →
              t.mode.cur = .still ∧ t.mode.lastKind = 6 ∧ (imageSlot t false).state = 2 ∧ (imageSlot t false).body = b ∧ (imageSlot t false).capsule = c ∧ imageSlot t true = imageSlot s true))
  ∧ (∀ (s : State) (target detail : Nat) (fail : Bool) (q : TestRun),
      running s = true →
      (s.cores.tests.find? fun t => t.target == target) = some q →
      q.endFc ≤ fcNow s →
      target = 0x11 ∨ target = 0x12 ∨ target ≤ 3 →
        ∃ t, exec (.selfTestDone target fail detail) s = .next t ∧ (∀ x ∈ t.cores.tests, x.target ≠ target) ∧ (∀ x ∈ s.cores.tests, x.target ≠ target → x ∈ t.cores.tests)
          ∧ (target = 0x11 → t.cores.repairs = sat 32 (s.cores.repairs + detail)) ∧ (target ≠ 0x11 → t.cores.repairs = s.cores.repairs) ∧ t.com.csn = s.com.csn ∧ t.p = s.p)

/-- Frames of the heads, the sync schedule, PHY and PoDL events and the deadlines of the links complete, each on its own link. (R220, R221, R222, R223, R225, R226, R227, R228, R240, R241, R251) -/
def Obligations.BuoyEventsComplete : Prop :=
  (∀ (s : State) (f : BuoyFrame),
      running s = true →
      f.link < 10 →
      (anchorAt s f.link).phy = true →
      frameOk s f = true →
      micOk s f = true →
      lastCtr s f < bCtr f →
      (admitFrame (if isHello f then s else modAnchor s f.link fun a => { a with upCtr := bCtr f }) (0x20 + f.link) false).1 = true →
        ∃ t, exec (.hello f) s = .next t ∧ (∃ d, t.buoy.ins = s.buoy.ins ++ [.frame f d]) ∧ (isHello f = false → (anchorAt t f.link).upCtr = bCtr f)
          ∧ (anchorAt t f.link).state = (anchorAt s f.link).state ∧ t.buoy.reports = s.buoy.reports ∧ (∀ k, k ≠ f.link → anchorAt t k = anchorAt s k) ∧ t.p = s.p)
  ∧ (∀ (s : State) (f : BuoyFrame),
      running s = true →
      f.link < 10 →
      (anchorAt s f.link).phy = true →
      frameOk s f = true →
      micOk s f = true →
      lastCtr s f < bCtr f →
      (admitFrame (if isHello f then s else modAnchor s f.link fun a => { a with upCtr := bCtr f }) (0x20 + f.link) false).1 = true →
        ∃ t, exec (.syncResp f) s = .next t ∧ (∃ d, t.buoy.ins = s.buoy.ins ++ [.frame f d]) ∧ (isHello f = false → (anchorAt t f.link).upCtr = bCtr f)
          ∧ (anchorAt t f.link).state = (anchorAt s f.link).state ∧ t.buoy.reports = s.buoy.reports ∧ (∀ k, k ≠ f.link → anchorAt t k = anchorAt s k) ∧ t.p = s.p)
  ∧ (∀ (s : State) (f : BuoyFrame),
      running s = true →
      f.link < 10 →
      (anchorAt s f.link).phy = true →
      frameOk s f = true →
      micOk s f = true →
      lastCtr s f < bCtr f →
      (admitFrame (if isHello f then s else modAnchor s f.link fun a => { a with upCtr := bCtr f }) (0x20 + f.link) false).1 = true →
        ∃ t, exec (.report f) s = .next t ∧ (∃ d, t.buoy.ins = s.buoy.ins ++ [.frame f d]) ∧ (isHello f = false → (anchorAt t f.link).upCtr = bCtr f)
          ∧ (anchorAt t f.link).state = (anchorAt s f.link).state ∧ t.buoy.reports = s.buoy.reports ∧ (∀ k, k ≠ f.link → anchorAt t k = anchorAt s k) ∧ t.p = s.p)
  ∧ (∀ (s : State) (f : BuoyFrame),
      running s = true →
      f.link < 10 →
      (anchorAt s f.link).phy = true →
      frameOk s f = true →
      micOk s f = true →
      lastCtr s f < bCtr f →
      (admitFrame (if isHello f then s else modAnchor s f.link fun a => { a with upCtr := bCtr f }) (0x20 + f.link) false).1 = true →
        ∃ t, exec (.relayAck f) s = .next t ∧ (∃ d, t.buoy.ins = s.buoy.ins ++ [.frame f d]) ∧ (isHello f = false → (anchorAt t f.link).upCtr = bCtr f)
          ∧ (anchorAt t f.link).state = (anchorAt s f.link).state ∧ t.buoy.reports = s.buoy.reports ∧ (∀ k, k ≠ f.link → anchorAt t k = anchorAt s k) ∧ t.p = s.p)
  ∧ (∀ (s : State),
      running s = true →
      s.clk.window = .latch →
      lnkAway s = false →
        ∃ t, exec (.syncReq) s = .next t ∧ (∀ l, l < 10 → scheduled (anchorAt s l) = true → (anchorAt t l).t1 = some (counterAt s 6240) ∧ (anchorAt t l).downQ.length = (anchorAt s l).downQ.length + 2)
          ∧ (∀ l, l < 10 → scheduled (anchorAt s l) = false → anchorAt t l = anchorAt s l) ∧ t.buoy.ins = s.buoy.ins ∧ t.com = s.com)
  ∧ (∀ (s : State) (fc period : Nat),
      running s = true →
      period ≤ 9 →
      fc ≤ fcNow s →
      (fcNow s == fc && period == 9) = false →
        ∃ t, exec (.reportDeadline fc period) s = .next t ∧ t.buoy.deadlines = s.buoy.deadlines ++ [(fc, period, fcNow s)] ∧ t.buoy.reports = s.buoy.reports ∧ t.p = s.p)
  ∧ (∀ (s : State) (l : Nat) (v : Relay),
      running s = true →
      l < 10 →
      (anchorAt s l).relay = some v →
      v.ackFc + 10 ≤ fcNow s →
        ∃ t, exec (.relayResend l) s = .next t ∧ (anchorAt t l).relay = some { v with sent := v.acked, ackFc := fcNow s } ∧ (anchorAt t l).state = (anchorAt s l).state
          ∧ (∀ k, k ≠ l → anchorAt t k = anchorAt s k) ∧ t.p = s.p)
  ∧ (∀ (s : State) (l : Nat) (up lv : Bool),
      running s = true →
      l < 10 →
      (anchorAt s l).phy = !up →
        ∃ t, exec (.phyLinkChange l up lv) s = .next t ∧ (anchorAt t l).phy = up ∧ (anchorAt t l).level24 = lv ∧ (anchorAt t l).state = (anchorAt s l).state ∧ t.buoy.ins = s.buoy.ins ++ [.phy l up]
          ∧ (∀ k, k ≠ l → anchorAt t k = anchorAt s k) ∧ t.p = s.p)
  ∧ (∀ (s : State) (l cls : Nat),
      running s = true →
      l < 10 →
      (anchorAt s l).podlOn = false →
      (anchorAt s l).state ≠ .fault →
        ∃ t, exec (.podlDetection l cls) s = .next t ∧ (anchorAt t l).pdClass = cls ∧ (anchorAt t l).podlOn = false ∧ ((anchorAt t l).detected = true ↔ cls ≠ 0 ∧ cls < 13)
          ∧ (anchorAt t l).classRefused = (if 13 ≤ cls then inc32 (anchorAt s l).classRefused else (anchorAt s l).classRefused)
          ∧ (∀ k, k ≠ l → anchorAt t k = anchorAt s k) ∧ t.p = s.p)
  ∧ (∀ (s : State) (l : Nat),
      running s = true →
      l < 10 →
      (anchorAt s l).podlOn = true →
        ∃ t, exec (.podlOverload l) s = .next t ∧ (anchorAt t l).podlOn = false ∧ (anchorAt t l).granted = 0 ∧ (anchorAt t l).phy = false ∧ t.buoy.ins = s.buoy.ins ++ [.overload l]
          ∧ (∀ k, k ≠ l → anchorAt t k = anchorAt s k) ∧ t.p = s.p)
  ∧ (∀ (s : State) (l : Nat),
      running s = true →
      l < 10 →
      (anchorAt s l).shed = true →
      1000 ≤ (anchorAt s l).marginFc →
        ∃ t, exec (.podlRestore l) s = .next t ∧ (anchorAt t l).shed = false ∧ (anchorAt t l).marginFc = 0 ∧ (anchorAt t l).state = (anchorAt s l).state
          ∧ (∀ k, k ≠ l → anchorAt t k = anchorAt s k) ∧ t.p = s.p)
  ∧ (∀ (s : State) (l fc : Nat),
      running s = true →
      l < 10 →
      (anchorAt s l).faultFc = some fc →
      (anchorAt s l).state = .fault →
      fc + 1000 ≤ fcNow s →
        ∃ t, exec (.faultRetry l) s = .next t ∧ (anchorAt t l).state = .off ∧ (anchorAt t l).faultFc = none ∧ (anchorAt t l).micFcs = [] ∧ (anchorAt t l).pairs = []
          ∧ (∀ k, k ≠ l → anchorAt t k = anchorAt s k) ∧ t.p = s.p)

/-- Port, auxiliary, service and tamper events, the key roll, the queue words and the memory faults complete, each on its own unit. (R34, R84, R85, R86, R90, R465, R468, R471, R473, R493, R495, R502) -/
def Obligations.PortKeyAndQueueEventsComplete : Prop :=
  (∀ (s : State) (port : Port) (up : Bool) (speed : Nat),
      ((tgetD s.ports.hosts (portCode port) {}).link == up && (tgetD s.ports.hosts (portCode port) {}).speed == speed) = false →
        ∃ t, exec (.portLink port up speed) s = .next t ∧ (tgetD t.ports.hosts (portCode port) {}).link = up ∧ (tgetD t.ports.hosts (portCode port) {}).speed = speed ∧ (tgetD t.ports.hosts (portCode port) {}).changed = true
          ∧ (tgetD t.ports.hosts (portCode port) {}).losses = (if (tgetD s.ports.hosts (portCode port) {}).link = true ∧ up = false then inc32 (tgetD s.ports.hosts (portCode port) {}).losses else (tgetD s.ports.hosts (portCode port) {}).losses) ∧ (∀ j, j ≠ portCode port → tget t.ports.hosts j = tget s.ports.hosts j) ∧ t.p = s.p)
  ∧ (∀ (s : State) (port : Port) (kind : HostFrame),
      (tgetD s.ports.hosts (portCode port) {}).frames < 2048 →
        ∃ t, exec (.arpNdpEchoRequest port kind) s = .next t ∧ (tgetD t.ports.hosts (portCode port) {}).frames = (tgetD s.ports.hosts (portCode port) {}).frames + 1 ∧ (kind = .echo → (tgetD s.ports.hosts (portCode port) {}).echoes < 16 → (tgetD t.ports.hosts (portCode port) {}).echoes = (tgetD s.ports.hosts (portCode port) {}).echoes + 1 ∧ (tgetD t.ports.hosts (portCode port) {}).other = (tgetD s.ports.hosts (portCode port) {}).other)
          ∧ (kind = .arp ∨ kind = .ndp → (tgetD s.ports.hosts (portCode port) {}).arps < 64 → (tgetD t.ports.hosts (portCode port) {}).arps = (tgetD s.ports.hosts (portCode port) {}).arps + 1 ∧ (tgetD t.ports.hosts (portCode port) {}).other = (tgetD s.ports.hosts (portCode port) {}).other)
          ∧ (kind = .other → (tgetD t.ports.hosts (portCode port) {}).other = inc32 (tgetD s.ports.hosts (portCode port) {}).other) ∧ (∀ j, j ≠ portCode port → tget t.ports.hosts j = tget s.ports.hosts j) ∧ t.p = s.p)
  ∧ (∀ (s : State) (io pclk : Nat) (level : Bool),
      io < 8 →
      inFc s pclk = true →
      isOutput s io = false →
      (auxLive s io).level = !level →
      (level && !s.ports.vio) = false →
        ∃ t, exec (.auxInput io level pclk) s = .next t ∧ (auxLive t io).level = level ∧ (auxLive t io).edge = some (timeAt s pclk, level) ∧ (auxLive t io).total = inc32 (auxLive s io).total
          ∧ (auxLive t io).changes = (auxLive s io).changes + 1 ∧ (∀ k, k ≠ io → auxLive t k = auxLive s k) ∧ t.stop = s.stop ∧ t.p = s.p)
  ∧ (∀ (s : State) (io pclk : Nat),
      io < 8 →
      inFc s pclk = true →
      outOn s io = true →
        ∃ t, exec (.outFault io pclk) s = .next t ∧ (auxLive t io).outFault = true ∧ (auxLive t io).faultEv = some (timeAt s pclk) ∧ (auxLive t io).out = (auxLive s io).out ∧ (∀ k, k ≠ io → auxLive t k = auxLive s k) ∧ t.stop = s.stop ∧ t.p = s.p)
  ∧ (∀ (s : State) (active : Bool) (pclk : Nat),
      inFc s pclk = true →
      s.ports.svcEn = !active →
        ∃ t, exec (.svcEn active pclk) s = .next t ∧ t.ports.svcEn = active ∧ t.ports.svcEdge = some (timeAt s pclk) ∧ t.ports.hosts = s.ports.hosts ∧ t.edtor = s.edtor ∧ t.p = s.p)
  ∧ (∀ (s : State) (present : Bool) (pclk : Nat),
      inFc s pclk = true →
      s.ports.vio = !present →
        ∃ t, exec (.vioLost present pclk) s = .next t ∧ t.ports.vio = present ∧ t.ports.vioEv = some (present, timeAt s pclk) ∧ (present = false → ∀ k, (auxLive t k).level = false) ∧ (present = true → t.ports.io = s.ports.io) ∧ t.p = s.p)
  ∧ (∀ (s : State) (i rtc : Nat) (found : Bool),
      i < 4 →
        ∃ t, exec (.tamperCheck i found rtc) s = .next t ∧ t.bk.rtc = rtc ∧ t.bk.enable = s.bk.enable
          ∧ ((found = true ∧ s.bk.tripRun.getD i 0 = 1 ∧ bit s.bk.enable i = true) → t.bk.latched = true ∧ t.bk.tamperCount = (s.bk.tamperCount + 1) % 2 ^ 32)
          ∧ (¬(found = true ∧ s.bk.tripRun.getD i 0 = 1 ∧ bit s.bk.enable i = true) → t.bk.latched = s.bk.latched ∧ t.bk.tamperCount = s.bk.tamperCount ∧ t.bk.slots = s.bk.slots ∧ t.p = s.p))
  ∧ (∀ (s : State),
      s.bk.maintFc = 1 →
        ∃ t, exec (.maintenanceExpiry) s = .next t ∧ t.bk.maintFc = 0 ∧ t.bk.slots = s.bk.slots ∧ t.bk.enable = s.bk.enable ∧ t.p = s.p)
  ∧ (∀ (s : State) (what e : Nat),
      running s = true →
      s.p.keys.roll = some (what, e) →
      e ≤ fcNow s →
        ∃ t, exec (.rollEffective) s = .next t ∧ t.p.keys.roll = none ∧ t.p.keys.groupGen = (if bit what 0 then nextGen s.p.keys.groupGen else s.p.keys.groupGen)
          ∧ t.p.keys.beaconGen = (if bit what 1 then nextGen s.p.keys.beaconGen else s.p.keys.beaconGen) ∧ t.com.csn = s.com.csn ∧ t.bk = s.bk ∧ t.nv = s.nv)
  ∧ (∀ (s : State) (q : Nat) (w : QEntry) (sp : Bool) (k : QParam),
      qParam q = some k →
      mismatch (queueAt s q k) = false →
      w.sop = true →
      fullFor s q k (queueAt s q k) sp = false →
      w.frameEntries ≤ freeEntries s q (queueAt s q k) →
      w.frameEntries ≠ 0 →
        ∃ t, exec (.queueWrite q w sp) s = .next t ∧ (queueAt t q k).entries.length = (queueAt s q k).entries.length + 1 ∧ (w.eop = true → (queueAt t q k).entries = (queueAt s q k).entries ++ [w] ∧ (queueAt t q k).resv = 0)
          ∧ (w.eop = false → w.frameEntries ≠ 1 → (queueAt t q k).resv = w.frameEntries - 1 ∧ (queueAt t q k).writing = true) ∧ (∀ j, j ≠ q → tget t.queues j = tget s.queues j) ∧ t.p = s.p)
  ∧ (∀ (s : State) (q : Nat) (w : QEntry) (sp : Bool) (k : QParam),
      qParam q = some k →
      mismatch (queueAt s q k) = false →
      w.sop = true →
      fullFor s q k (queueAt s q k) sp = true →
        ∃ t, exec (.queueWrite q w sp) s = .next t ∧ (queueAt t q k).entries = (queueAt s q k).entries ∧ (queueAt t q k).overrun = true ∧ (queueAt t q k).overrunCount = inc32 (queueAt s q k).overrunCount ∧ (queueAt t q k).refused = (!w.eop) ∧ (∀ j, j ≠ q → tget t.queues j = tget s.queues j) ∧ t.p = s.p)
  ∧ (∀ (s : State) (q : Nat) (k : QParam) (e : QEntry) (rest : List QEntry),
      qParam q = some k →
      mismatch (queueAt s q k) = false →
      (queueAt s q k).entries = e :: rest →
      (queueAt s q k).inHead ≠ 0 →
      ((queueAt s q k).dropping || (queueAt s q k).skipToSop) = false ∨ e.sop = true →
        ∃ t, exec (.queueRead q) s = .next t ∧ (queueAt t q k).entries = rest ∧ (queueAt t q k).lastRead = some (entryWord e) ∧ (queueAt t q k).inFrame = (!e.eop)
          ∧ (queueAt t q k).rptr = ((queueAt s q k).rptr + 1) % (queueAt s q k).depth ∧ mismatch (queueAt t q k) = false ∧ (∀ j, j ≠ q → tget t.queues j = tget s.queues j) ∧ t.p = s.p)
  ∧ (∀ (s : State) (q : Nat) (k : QParam),
      qParam q = some k →
      (queueAt s q k).inFrame = true →
        ∃ t, exec (.dropRest q) s = .next t ∧ (queueAt t q k).entries = (queueAt s q k).entries.drop (frameRest (queueAt s q k).entries) ∧ (queueAt t q k).inFrame = false ∧ (queueAt t q k).lastRead = (queueAt s q k).lastRead ∧ (∀ j, j ≠ q → tget t.queues j = tget s.queues j) ∧ t.p = s.p)
  ∧ (∀ (s : State) (q : Nat) (k : QParam),
      qParam q = some k →
      (queueAt s q k).refillPending = true →
      (queueAt s q k).inMid ≠ 0 →
        ∃ t, exec (.headRefill q) s = .next t ∧ (queueAt s q k).inHead + frontBlock (queueAt s q k) ≤ (queueAt t q k).inHead ∧ (queueAt t q k).entries = (queueAt s q k).entries
          ∧ (queueAt t q k).refillPending = wantsRefill (queueAt t q k) ∧ (∀ j, j ≠ q → tget t.queues j = tget s.queues j) ∧ t.p = s.p)
  ∧ (∀ (s : State) (q : Nat) (dram reading : Bool) (k : QParam),
      qParam q = some k →
        ∃ t, exec (.queueFault q dram reading) s = .next t ∧ (queueAt t q k).entries = [] ∧ (queueAt t q k).faults = inc32 (queueAt s q k).faults ∧ mismatch (queueAt t q k) = false ∧ (queueAt t q k).overrunCount = (queueAt s q k).overrunCount
          ∧ (queueAt t q k).depth = (queueAt s q k).depth ∧ t.cores.queueFaults = inc32 s.cores.queueFaults ∧ t.com.csn = s.com.csn)
  ∧ (∀ (s : State) (f : MemIn),
      running s = true →
      memUnitOk f = true →
      f.corrected = true →
      f.block ≠ 3 →
        ∃ t, exec (.memoryFault f) s = .next t ∧ t.cores.eccReset = inc32 s.cores.eccReset ∧ t.cores.memEvs = s.cores.memEvs ∧ t.strt = s.strt ∧ t.edtor = s.edtor ∧ t.mode = s.mode)
  ∧ (∀ (s : State) (f : MemIn),
      running s = true →
      memUnitOk f = true →
      f.corrected = false →
      f.block = 1 →
        ∃ t, exec (.memoryFault f) s = .next t ∧ t.cores.memEvs = s.cores.memEvs ++ [{ block := 1, unit := f.unit, outcome := 1 }] ∧ f.unit ∈ t.cores.faulted ∧ t.nv = s.nv ∧ t.strt = s.strt)
  ∧ (∀ (s : State) (f : MemIn),
      running s = true →
      memUnitOk f = true →
      f.corrected = false →
      f.block = 4 →
        ∃ t, exec (.memoryFault f) s = .next t ∧ t.cores.memEvs = s.cores.memEvs ++ [{ block := 4, outcome := 3 }] ∧ t.strt = s.strt ∧ (∀ q ∈ t.allot.reqs, q.unit = f.unit → q.stage ≠ .searching))
end

