-- ==== Sys2Proof/Laws/Ops.lean ====
section
/-! SUPPORT. What the shared operations over commands do, once for each: records, replies, commits and the checks every
opcode goes through. -/

namespace Sys2Proof.Machine

open Sys2Proof

/-! ### Records -/

/-- A command's record stands among those of the FC once it has been entered. -/
theorem upsertRec_mem (l : List JournalRec) (r : Request) (j : JournalRec) : j ∈ upsertRec l r j := by
  unfold upsertRec
  split
  · next ha =>
    obtain ⟨x, hx, hr⟩ := List.any_eq_true.mp ha
    exact List.mem_map.mpr ⟨x, hx, by simp [hr]⟩
  · simp

/-- The record found for a command is one of that command. -/
theorem findRec_recIs {s : State} {r : Request} {j : JournalRec} (h : findRec s r = some j) : recIs r j = true := by
  unfold findRec at h
  split at h
  · next k hk => cases h; exact List.find?_some hk
  · next hk =>
    have := List.find?_some h
    simp only [Bool.and_eq_true] at this
    exact this.1

/-- The record of a command names it. -/
theorem recOf_recIs (s : State) (r : Request) (f : Bool) (i st n : Nat) : recIs r (recOf s r f i st n) = true := by
  unfold recOf
  cases h : findRec s r with
  | none => simp [recIs]
  | some j =>
    have := findRec_recIs h
    simpa [recIs] using this

@[simp] theorem recOf_final (s : State) (r : Request) (f : Bool) (i st n : Nat) : (recOf s r f i st n).final = f := rfl
@[simp] theorem recOf_status (s : State) (r : Request) (i st n : Nat) : (recOf s r true i st n).status = st := rfl

/-! ### Ending a command -/

/-- A command whose session stays open, or which came by the open exchange, is answered. -/
def Answerable (s : State) (r : Request) : Prop := r.slot = 4 ∨ (callerOf s r).isSome = true

theorem live_answerable {s : State} {r : Request} (h : live s r = true) : Answerable s r := by
  simp only [live, Bool.and_eq_true] at h
  exact .inr h.1.2

/-- What finishing a command does for a status that counts no violation. -/
theorem ends_of_finish {c : Instr} {r : Request} {s u : State} {status : Nat} {payload : Bytes}
    (h : exec c s = .next (finish u r status payload)) (hx : exCounter status = none) (ha : Answerable u r) :
    Ends c r s u status payload := by
  refine ⟨_, h.trans ?_, _, upsertRec_mem u.com.recs r (recOf u r true intNone status 0), recOf_recIs .., rfl, rfl⟩
  have hb : (r.slot = 4 || (callerOf u r).isSome) = true := by
    rcases ha with h | h <;> simp [h]
  have e : finish u r status payload = queueReply (record u r true intNone status 0) r
      (replyTo r fFinal (finalCsn u r) status payload) := by
    simp only [finish, finishI, countStatus, hx, if_true]
  rw [e]
  exact congrArg Host.Outcome.next (if_pos hb)

/-- The session of a request as it stands after its violation count. -/
theorem callerOf_modSession (s : State) (slot : Nat) (f : Session → Session) (r : Request) (hf : ∀ e, (f e).sopen = e.sopen ∧ (f e).id = e.id) :
    (callerOf (modSession s slot f) r).isSome = (callerOf s r).isSome := by
  have key : ∀ (l : Tbl Session) (i : Nat),
      tget (l.map fun e => if e.1 = slot then (e.1, f e.2) else e) i = (tget l i).map fun x => if i = slot then f x else x := by
    intro l i
    induction l with
    | nil => rfl
    | cons a l ih =>
      obtain ⟨k, v⟩ := a
      by_cases hk : k = slot <;> by_cases hi : k = i <;> simp_all [tget]
  unfold callerOf sessionAt modSession
  simp only [key]
  cases h : tget s.edtor.sessions r.slot with
  | none => simp
  | some e =>
    by_cases hs : r.slot = slot <;> by_cases ho : e.sopen <;> by_cases hi : e.id = r.sessionId <;> simp [hs, ho, hi, hf e]

/-- What finishing a command with a status that counts a violation does. -/
theorem turnedAway_of_finish {c : Instr} {r : Request} {s : State} {status i : Nat}
    (h : exec c s = .next (finish (takeLatched s r) r status [])) (hx : exCounter status = some i) (hl : live s r = true) :
    TurnedAway c r s status := by
  refine ⟨i, _, hx, h.trans ?_, _, upsertRec_mem s.com.recs r (recOf (takeLatched s r) r true intNone status 0), recOf_recIs .., rfl, rfl⟩
  have e : finish (takeLatched s r) r status [] = queueReply (countViol (record (takeLatched s r) r true intNone status 0) r.slot r.port i true) r
      (replyTo r fFinal (finalCsn (takeLatched s r) r) status []) := by
    simp only [finish, finishI, countStatus, hx, if_true]
  rw [e]
  have hc : (callerOf (countViol (record (takeLatched s r) r true intNone status 0) r.slot r.port i true) r).isSome = true := by
    have a := callerOf_modSession (record (takeLatched s r) r true intNone status 0) r.slot
      (fun e : Session => { e with
        viol := if true then e.viol else lmod e.viol i (fun x => sat 16 (x + 1))
        violDue := if true then lmod e.violDue i (fun x => sat 16 (x + 1)) else e.violDue
        cnt := lmod e.cnt i inc32 }) r (fun e => ⟨rfl, rfl⟩)
    have b : (callerOf s r).isSome = true := by
      simp only [live, Bool.and_eq_true] at hl
      exact hl.1.2
    exact a.trans b
  exact congrArg Host.Outcome.next (if_pos (by simp [hc]))

/-- A command's count of commits is spent in its record. -/
theorem GoesOn.of_count {c : Instr} {r : Request} {s u : State} {payload : Bytes} (n : Nat)
    (h : GoesOn c r s { u with com.cmdCommits := n } payload) : GoesOn c r s u payload := h

/-- What accepting a command does. -/
theorem goesOn_of_accept {c : Instr} {r : Request} {s u : State} {n : Nat} {payload : Bytes}
    (h : exec c s = .next (accept u r n payload)) (ha : Answerable u r) : GoesOn c r s u payload := by
  refine ⟨_, h.trans ?_, _, upsertRec_mem u.com.recs r (recOf u r false intNone 0 n), recOf_recIs .., rfl⟩
  have hb : (r.slot = 4 || (callerOf u r).isSome) = true := by
    rcases ha with h | h <;> simp [h]
  exact congrArg Host.Outcome.next (if_pos hb)

/-- What finishing with fragments does. -/
theorem streams_of_finishFrags {c : Instr} {r : Request} {s u : State} {parts : List Bytes} {n : Nat}
    (h : exec c s = .next (finishFrags u r parts n)) : Streams c r s u parts n :=
  ⟨_, h, _, upsertRec_mem u.com.recs r (recOf u r true intNone stOk 0), recOf_recIs .., rfl, rfl⟩

/-! ### The checks every opcode goes through -/

/-- An opcode whose checks all pass goes on to its body. -/
theorem runOp_passes {s : State} {r : Request} {a b c d : Bool} (body : State → State) (hl : live s r = true)
    (ha : a = true) (hb : b = true) (hc : c = true) (hd : d = true) : runOp s r a b c d body = body (takeLatched s r) := by
  simp [runOp, hl, ha, hb, hc, hd]

/-- An opcode that does not execute changes at most the count of those held for want of journal slots. -/
theorem runOp_dead {s : State} {r : Request} (a b c d : Bool) (body : State → State) (hl : live s r = false) :
    runOp s r a b c d body = carry s r := by
  simp [runOp, hl]

/-- A command of a session that is not open, or in a mode without Edtor, is not held either. -/
theorem carry_closed {s : State} {r : Request} (h : edtorRuns s = false ∨ (callerOf s r).isSome = false) : carry s r = s := by
  rcases h with h | h <;> simp [carry, h]

/-- A command of an open session counts no hold while the journal has room. -/
theorem live_eq (s : State) (r : Request) : live s r = (edtorRuns s && (callerOf s r).isSome && !held s) := rfl

theorem need_passes {c : Bool} {s : State} {r : Request} {st : Nat} (k : State → State) (h : c = true) : need c s r st k = k s := by
  simp [need, h]

/-- The expected-CSN check lets a command on where it holds. -/
theorem checkCsn_passes {s : State} {r : Request} {objs : List (Nat × Nat)} (k : State → State) (h : csnHolds s r objs = true) :
    checkCsn s r objs k = k s := by
  unfold checkCsn
  unfold csnHolds at h
  split at h
  · next he => simp [he]
  · next e he =>
    have : changedSince s e objs = none := by
      unfold changedSince
      rw [List.find?_eq_none]
      intro o ho
      have := List.all_eq_true.mp h o ho
      simp only [decide_eq_true_eq] at this ⊢
      omega
    simp [he, this]

/-! ### Commits -/

/-- One commit, where commits are made. -/
theorem commit_eq {s : State} (k i : Nat) (h : mramFog s = false) :
    commit s k i = committed s [(k, i)] := by
  simp [commit, h, committed]

/-- One commit on several objects, where commits are made. -/
theorem commitAll_eq {s : State} (o : Nat × Nat) (os : List (Nat × Nat)) (h : mramFog s = false) :
    commitAll s (o :: os) = committed s (o :: os) := by
  simp [commitAll, h, commit, committed]

/-- What a one-commit change of one object does. -/
theorem ends_of_change1 {c : Instr} {r : Request} {s : State} {obj : Nat × Nat} {f : State → State} {reply : State → Bytes}
    (h : exec c s = .next (change1 (takeLatched s r) r obj f reply)) (hc : csnHolds s r [obj] = true) (hm : mramFog s = false)
    (ha : Answerable (f (committed (takeLatched s r) [obj])) r) :
    Ends c r s (f (committed (takeLatched s r) [obj])) stOk
      (reply (f (committed (takeLatched s r) [obj]))) := by
  refine ends_of_finish (h.trans ?_) rfl ha
  rw [change1, checkCsn_passes (s := takeLatched s r) _ hc, commit_eq (s := takeLatched s r) _ _ hm]

/-- What a one-commit change of several objects does. -/
theorem ends_of_changeAll {c : Instr} {r : Request} {s : State} {o : Nat × Nat} {os : List (Nat × Nat)} {f : State → State}
    {status : Nat} {reply : State → Bytes} (h : exec c s = .next (changeAll (takeLatched s r) r (o :: os) f status reply))
    (hc : csnHolds s r (o :: os) = true) (hm : mramFog s = false) (hx : exCounter status = none)
    (ha : Answerable (f (committed (takeLatched s r) (o :: os))) r) :
    Ends c r s (f (committed (takeLatched s r) (o :: os))) status
      (reply (f (committed (takeLatched s r) (o :: os)))) := by
  refine ends_of_finish (h.trans ?_) hx ha
  rw [changeAll, checkCsn_passes (s := takeLatched s r) _ hc, commitAll_eq (s := takeLatched s r) _ _ hm]

/-- Modes without FOG make commits. -/
theorem mramFog_of_inModes {s : State} {l : List Mode} (h : inModes s l = true) (hf : l.contains .fog = false) : mramFog s = false := by
  unfold mramFog
  unfold inModes at h
  cases hm : s.mode.cur <;> simp_all

end Sys2Proof.Machine
end

