-- ==== Sys2Proof/Laws/State.lean ====
section
/-! SUPPORT. What each basic update of the state leaves as it was, field by field: one lemma per field per update. -/

namespace Sys2Proof.Machine

open Sys2Proof

@[simp] theorem modSession_pending (s : State) (slot : Nat) (f : Session → Session) :
    (modSession s slot f).pending = s.pending := rfl
@[simp] theorem modSession_freeCtr (s : State) (slot : Nat) (f : Session → Session) :
    (modSession s slot f).freeCtr = s.freeCtr := rfl
@[simp] theorem modSession_fuse (s : State) (slot : Nat) (f : Session → Session) :
    (modSession s slot f).fuse = s.fuse := rfl
@[simp] theorem modSession_flash (s : State) (slot : Nat) (f : Session → Session) :
    (modSession s slot f).flash = s.flash := rfl
@[simp] theorem modSession_p (s : State) (slot : Nat) (f : Session → Session) :
    (modSession s slot f).p = s.p := rfl
@[simp] theorem modSession_nv (s : State) (slot : Nat) (f : Session → Session) :
    (modSession s slot f).nv = s.nv := rfl
@[simp] theorem modSession_bk (s : State) (slot : Nat) (f : Session → Session) :
    (modSession s slot f).bk = s.bk := rfl
@[simp] theorem modSession_clk (s : State) (slot : Nat) (f : Session → Session) :
    (modSession s slot f).clk = s.clk := rfl
@[simp] theorem modSession_cores (s : State) (slot : Nat) (f : Session → Session) :
    (modSession s slot f).cores = s.cores := rfl
@[simp] theorem modSession_mode (s : State) (slot : Nat) (f : Session → Session) :
    (modSession s slot f).mode = s.mode := rfl
@[simp] theorem modSession_supply (s : State) (slot : Nat) (f : Session → Session) :
    (modSession s slot f).supply = s.supply := rfl
@[simp] theorem modSession_com (s : State) (slot : Nat) (f : Session → Session) :
    (modSession s slot f).com = s.com := rfl
@[simp] theorem modSession_queues (s : State) (slot : Nat) (f : Session → Session) :
    (modSession s slot f).queues = s.queues := rfl
@[simp] theorem modSession_time (s : State) (slot : Nat) (f : Session → Session) :
    (modSession s slot f).time = s.time := rfl
@[simp] theorem modSession_gnss (s : State) (slot : Nat) (f : Session → Session) :
    (modSession s slot f).gnss = s.gnss := rfl
@[simp] theorem modSession_ref (s : State) (slot : Nat) (f : Session → Session) :
    (modSession s slot f).ref = s.ref := rfl
@[simp] theorem modSession_buoy (s : State) (slot : Nat) (f : Session → Session) :
    (modSession s slot f).buoy = s.buoy := rfl
@[simp] theorem modSession_sess (s : State) (slot : Nat) (f : Session → Session) :
    (modSession s slot f).sess = s.sess := rfl
@[simp] theorem modSession_strt (s : State) (slot : Nat) (f : Session → Session) :
    (modSession s slot f).strt = s.strt := rfl
@[simp] theorem modSession_holds (s : State) (slot : Nat) (f : Session → Session) :
    (modSession s slot f).holds = s.holds := rfl
@[simp] theorem modSession_allot (s : State) (slot : Nat) (f : Session → Session) :
    (modSession s slot f).allot = s.allot := rfl
@[simp] theorem modSession_stop (s : State) (slot : Nat) (f : Session → Session) :
    (modSession s slot f).stop = s.stop := rfl
@[simp] theorem modSession_radio (s : State) (slot : Nat) (f : Session → Session) :
    (modSession s slot f).radio = s.radio := rfl
@[simp] theorem modSession_can (s : State) (slot : Nat) (f : Session → Session) :
    (modSession s slot f).can = s.can := rfl
@[simp] theorem modSession_ports (s : State) (slot : Nat) (f : Session → Session) :
    (modSession s slot f).ports = s.ports := rfl
@[simp] theorem modSession_sec (s : State) (slot : Nat) (f : Session → Session) :
    (modSession s slot f).sec = s.sec := rfl
@[simp] theorem modSession_upd (s : State) (slot : Nat) (f : Session → Session) :
    (modSession s slot f).upd = s.upd := rfl
@[simp] theorem modSession_edtor_inbox (s : State) (slot : Nat) (f : Session → Session) :
    (modSession s slot f).edtor.inbox = s.edtor.inbox := rfl
@[simp] theorem modSession_edtor_latched (s : State) (slot : Nat) (f : Session → Session) :
    (modSession s slot f).edtor.latched = s.edtor.latched := rfl
@[simp] theorem modSession_edtor_rejects (s : State) (slot : Nat) (f : Session → Session) :
    (modSession s slot f).edtor.rejects = s.edtor.rejects := rfl
@[simp] theorem modSession_edtor_faulted (s : State) (slot : Nat) (f : Session → Session) :
    (modSession s slot f).edtor.faulted = s.edtor.faulted := rfl
@[simp] theorem modSession_edtor_ports (s : State) (slot : Nat) (f : Session → Session) :
    (modSession s slot f).edtor.ports = s.edtor.ports := rfl
@[simp] theorem modSession_edtor_rejectsDue (s : State) (slot : Nat) (f : Session → Session) :
    (modSession s slot f).edtor.rejectsDue = s.edtor.rejectsDue := rfl
@[simp] theorem modSession_edtor_parting (s : State) (slot : Nat) (f : Session → Session) :
    (modSession s slot f).edtor.parting = s.edtor.parting := rfl
@[simp] theorem modSession_edtor_jrnlHold (s : State) (slot : Nat) (f : Session → Session) :
    (modSession s slot f).edtor.jrnlHold = s.edtor.jrnlHold := rfl
@[simp] theorem modSession_edtor_unitsUsed (s : State) (slot : Nat) (f : Session → Session) :
    (modSession s slot f).edtor.unitsUsed = s.edtor.unitsUsed := rfl
@[simp] theorem modPort_pending (s : State) (port : Port) (f : PortCounters → PortCounters) :
    (modPort s port f).pending = s.pending := rfl
@[simp] theorem modPort_freeCtr (s : State) (port : Port) (f : PortCounters → PortCounters) :
    (modPort s port f).freeCtr = s.freeCtr := rfl
@[simp] theorem modPort_fuse (s : State) (port : Port) (f : PortCounters → PortCounters) :
    (modPort s port f).fuse = s.fuse := rfl
@[simp] theorem modPort_flash (s : State) (port : Port) (f : PortCounters → PortCounters) :
    (modPort s port f).flash = s.flash := rfl
@[simp] theorem modPort_p (s : State) (port : Port) (f : PortCounters → PortCounters) :
    (modPort s port f).p = s.p := rfl
@[simp] theorem modPort_nv (s : State) (port : Port) (f : PortCounters → PortCounters) :
    (modPort s port f).nv = s.nv := rfl
@[simp] theorem modPort_bk (s : State) (port : Port) (f : PortCounters → PortCounters) :
    (modPort s port f).bk = s.bk := rfl
@[simp] theorem modPort_clk (s : State) (port : Port) (f : PortCounters → PortCounters) :
    (modPort s port f).clk = s.clk := rfl
@[simp] theorem modPort_cores (s : State) (port : Port) (f : PortCounters → PortCounters) :
    (modPort s port f).cores = s.cores := rfl
@[simp] theorem modPort_mode (s : State) (port : Port) (f : PortCounters → PortCounters) :
    (modPort s port f).mode = s.mode := rfl
@[simp] theorem modPort_supply (s : State) (port : Port) (f : PortCounters → PortCounters) :
    (modPort s port f).supply = s.supply := rfl
@[simp] theorem modPort_com (s : State) (port : Port) (f : PortCounters → PortCounters) :
    (modPort s port f).com = s.com := rfl
@[simp] theorem modPort_queues (s : State) (port : Port) (f : PortCounters → PortCounters) :
    (modPort s port f).queues = s.queues := rfl
@[simp] theorem modPort_time (s : State) (port : Port) (f : PortCounters → PortCounters) :
    (modPort s port f).time = s.time := rfl
@[simp] theorem modPort_gnss (s : State) (port : Port) (f : PortCounters → PortCounters) :
    (modPort s port f).gnss = s.gnss := rfl
@[simp] theorem modPort_ref (s : State) (port : Port) (f : PortCounters → PortCounters) :
    (modPort s port f).ref = s.ref := rfl
@[simp] theorem modPort_buoy (s : State) (port : Port) (f : PortCounters → PortCounters) :
    (modPort s port f).buoy = s.buoy := rfl
@[simp] theorem modPort_sess (s : State) (port : Port) (f : PortCounters → PortCounters) :
    (modPort s port f).sess = s.sess := rfl
@[simp] theorem modPort_strt (s : State) (port : Port) (f : PortCounters → PortCounters) :
    (modPort s port f).strt = s.strt := rfl
@[simp] theorem modPort_holds (s : State) (port : Port) (f : PortCounters → PortCounters) :
    (modPort s port f).holds = s.holds := rfl
@[simp] theorem modPort_allot (s : State) (port : Port) (f : PortCounters → PortCounters) :
    (modPort s port f).allot = s.allot := rfl
@[simp] theorem modPort_stop (s : State) (port : Port) (f : PortCounters → PortCounters) :
    (modPort s port f).stop = s.stop := rfl
@[simp] theorem modPort_radio (s : State) (port : Port) (f : PortCounters → PortCounters) :
    (modPort s port f).radio = s.radio := rfl
@[simp] theorem modPort_can (s : State) (port : Port) (f : PortCounters → PortCounters) :
    (modPort s port f).can = s.can := rfl
@[simp] theorem modPort_ports (s : State) (port : Port) (f : PortCounters → PortCounters) :
    (modPort s port f).ports = s.ports := rfl
@[simp] theorem modPort_sec (s : State) (port : Port) (f : PortCounters → PortCounters) :
    (modPort s port f).sec = s.sec := rfl
@[simp] theorem modPort_upd (s : State) (port : Port) (f : PortCounters → PortCounters) :
    (modPort s port f).upd = s.upd := rfl
@[simp] theorem modPort_edtor_sessions (s : State) (port : Port) (f : PortCounters → PortCounters) :
    (modPort s port f).edtor.sessions = s.edtor.sessions := rfl
@[simp] theorem modPort_edtor_inbox (s : State) (port : Port) (f : PortCounters → PortCounters) :
    (modPort s port f).edtor.inbox = s.edtor.inbox := rfl
@[simp] theorem modPort_edtor_latched (s : State) (port : Port) (f : PortCounters → PortCounters) :
    (modPort s port f).edtor.latched = s.edtor.latched := rfl
@[simp] theorem modPort_edtor_rejects (s : State) (port : Port) (f : PortCounters → PortCounters) :
    (modPort s port f).edtor.rejects = s.edtor.rejects := rfl
@[simp] theorem modPort_edtor_faulted (s : State) (port : Port) (f : PortCounters → PortCounters) :
    (modPort s port f).edtor.faulted = s.edtor.faulted := rfl
@[simp] theorem modPort_edtor_rejectsDue (s : State) (port : Port) (f : PortCounters → PortCounters) :
    (modPort s port f).edtor.rejectsDue = s.edtor.rejectsDue := rfl
@[simp] theorem modPort_edtor_parting (s : State) (port : Port) (f : PortCounters → PortCounters) :
    (modPort s port f).edtor.parting = s.edtor.parting := rfl
@[simp] theorem modPort_edtor_jrnlHold (s : State) (port : Port) (f : PortCounters → PortCounters) :
    (modPort s port f).edtor.jrnlHold = s.edtor.jrnlHold := rfl
@[simp] theorem modPort_edtor_unitsUsed (s : State) (port : Port) (f : PortCounters → PortCounters) :
    (modPort s port f).edtor.unitsUsed = s.edtor.unitsUsed := rfl
@[simp] theorem raiseAt_pending (s : State) (code : Nat) (aud : Audience) (t : Nat) (payload : Bytes) :
    (raiseAt s code aud t payload).pending = s.pending := rfl
@[simp] theorem raiseAt_freeCtr (s : State) (code : Nat) (aud : Audience) (t : Nat) (payload : Bytes) :
    (raiseAt s code aud t payload).freeCtr = s.freeCtr := rfl
@[simp] theorem raiseAt_fuse (s : State) (code : Nat) (aud : Audience) (t : Nat) (payload : Bytes) :
    (raiseAt s code aud t payload).fuse = s.fuse := rfl
@[simp] theorem raiseAt_flash (s : State) (code : Nat) (aud : Audience) (t : Nat) (payload : Bytes) :
    (raiseAt s code aud t payload).flash = s.flash := rfl
@[simp] theorem raiseAt_p (s : State) (code : Nat) (aud : Audience) (t : Nat) (payload : Bytes) :
    (raiseAt s code aud t payload).p = s.p := rfl
@[simp] theorem raiseAt_nv (s : State) (code : Nat) (aud : Audience) (t : Nat) (payload : Bytes) :
    (raiseAt s code aud t payload).nv = s.nv := rfl
@[simp] theorem raiseAt_bk (s : State) (code : Nat) (aud : Audience) (t : Nat) (payload : Bytes) :
    (raiseAt s code aud t payload).bk = s.bk := rfl
@[simp] theorem raiseAt_clk (s : State) (code : Nat) (aud : Audience) (t : Nat) (payload : Bytes) :
    (raiseAt s code aud t payload).clk = s.clk := rfl
@[simp] theorem raiseAt_cores (s : State) (code : Nat) (aud : Audience) (t : Nat) (payload : Bytes) :
    (raiseAt s code aud t payload).cores = s.cores := rfl
@[simp] theorem raiseAt_mode (s : State) (code : Nat) (aud : Audience) (t : Nat) (payload : Bytes) :
    (raiseAt s code aud t payload).mode = s.mode := rfl
@[simp] theorem raiseAt_supply (s : State) (code : Nat) (aud : Audience) (t : Nat) (payload : Bytes) :
    (raiseAt s code aud t payload).supply = s.supply := rfl
@[simp] theorem raiseAt_edtor (s : State) (code : Nat) (aud : Audience) (t : Nat) (payload : Bytes) :
    (raiseAt s code aud t payload).edtor = s.edtor := rfl
@[simp] theorem raiseAt_queues (s : State) (code : Nat) (aud : Audience) (t : Nat) (payload : Bytes) :
    (raiseAt s code aud t payload).queues = s.queues := rfl
@[simp] theorem raiseAt_time (s : State) (code : Nat) (aud : Audience) (t : Nat) (payload : Bytes) :
    (raiseAt s code aud t payload).time = s.time := rfl
@[simp] theorem raiseAt_gnss (s : State) (code : Nat) (aud : Audience) (t : Nat) (payload : Bytes) :
    (raiseAt s code aud t payload).gnss = s.gnss := rfl
@[simp] theorem raiseAt_ref (s : State) (code : Nat) (aud : Audience) (t : Nat) (payload : Bytes) :
    (raiseAt s code aud t payload).ref = s.ref := rfl
@[simp] theorem raiseAt_buoy (s : State) (code : Nat) (aud : Audience) (t : Nat) (payload : Bytes) :
    (raiseAt s code aud t payload).buoy = s.buoy := rfl
@[simp] theorem raiseAt_sess (s : State) (code : Nat) (aud : Audience) (t : Nat) (payload : Bytes) :
    (raiseAt s code aud t payload).sess = s.sess := rfl
@[simp] theorem raiseAt_strt (s : State) (code : Nat) (aud : Audience) (t : Nat) (payload : Bytes) :
    (raiseAt s code aud t payload).strt = s.strt := rfl
@[simp] theorem raiseAt_holds (s : State) (code : Nat) (aud : Audience) (t : Nat) (payload : Bytes) :
    (raiseAt s code aud t payload).holds = s.holds := rfl
@[simp] theorem raiseAt_allot (s : State) (code : Nat) (aud : Audience) (t : Nat) (payload : Bytes) :
    (raiseAt s code aud t payload).allot = s.allot := rfl
@[simp] theorem raiseAt_stop (s : State) (code : Nat) (aud : Audience) (t : Nat) (payload : Bytes) :
    (raiseAt s code aud t payload).stop = s.stop := rfl
@[simp] theorem raiseAt_radio (s : State) (code : Nat) (aud : Audience) (t : Nat) (payload : Bytes) :
    (raiseAt s code aud t payload).radio = s.radio := rfl
@[simp] theorem raiseAt_can (s : State) (code : Nat) (aud : Audience) (t : Nat) (payload : Bytes) :
    (raiseAt s code aud t payload).can = s.can := rfl
@[simp] theorem raiseAt_ports (s : State) (code : Nat) (aud : Audience) (t : Nat) (payload : Bytes) :
    (raiseAt s code aud t payload).ports = s.ports := rfl
@[simp] theorem raiseAt_sec (s : State) (code : Nat) (aud : Audience) (t : Nat) (payload : Bytes) :
    (raiseAt s code aud t payload).sec = s.sec := rfl
@[simp] theorem raiseAt_upd (s : State) (code : Nat) (aud : Audience) (t : Nat) (payload : Bytes) :
    (raiseAt s code aud t payload).upd = s.upd := rfl
@[simp] theorem raiseAt_com_csn (s : State) (code : Nat) (aud : Audience) (t : Nat) (payload : Bytes) :
    (raiseAt s code aud t payload).com.csn = s.com.csn := rfl
@[simp] theorem raiseAt_com_nextCsn (s : State) (code : Nat) (aud : Audience) (t : Nat) (payload : Bytes) :
    (raiseAt s code aud t payload).com.nextCsn = s.com.nextCsn := rfl
@[simp] theorem raiseAt_com_submitted (s : State) (code : Nat) (aud : Audience) (t : Nat) (payload : Bytes) :
    (raiseAt s code aud t payload).com.submitted = s.com.submitted := rfl
@[simp] theorem raiseAt_com_internal (s : State) (code : Nat) (aud : Audience) (t : Nat) (payload : Bytes) :
    (raiseAt s code aud t payload).com.internal = s.com.internal := rfl
@[simp] theorem raiseAt_com_recs (s : State) (code : Nat) (aud : Audience) (t : Nat) (payload : Bytes) :
    (raiseAt s code aud t payload).com.recs = s.com.recs := rfl
@[simp] theorem raiseAt_com_logs (s : State) (code : Nat) (aud : Audience) (t : Nat) (payload : Bytes) :
    (raiseAt s code aud t payload).com.logs = s.com.logs := rfl
@[simp] theorem raiseAt_com_later (s : State) (code : Nat) (aud : Audience) (t : Nat) (payload : Bytes) :
    (raiseAt s code aud t payload).com.later = s.com.later := rfl
@[simp] theorem raiseAt_com_replies (s : State) (code : Nat) (aud : Audience) (t : Nat) (payload : Bytes) :
    (raiseAt s code aud t payload).com.replies = s.com.replies := rfl
@[simp] theorem raiseAt_com_cmdCommits (s : State) (code : Nat) (aud : Audience) (t : Nat) (payload : Bytes) :
    (raiseAt s code aud t payload).com.cmdCommits = s.com.cmdCommits := rfl
@[simp] theorem raiseAt_com_cmdLast (s : State) (code : Nat) (aud : Audience) (t : Nat) (payload : Bytes) :
    (raiseAt s code aud t payload).com.cmdLast = s.com.cmdLast := rfl
@[simp] theorem raiseAt_com_booting (s : State) (code : Nat) (aud : Audience) (t : Nat) (payload : Bytes) :
    (raiseAt s code aud t payload).com.booting = s.com.booting := rfl
@[simp] theorem raiseAt_com_persistDue (s : State) (code : Nat) (aud : Audience) (t : Nat) (payload : Bytes) :
    (raiseAt s code aud t payload).com.persistDue = s.com.persistDue := rfl
@[simp] theorem raiseAt_com_persistFails (s : State) (code : Nat) (aud : Audience) (t : Nat) (payload : Bytes) :
    (raiseAt s code aud t payload).com.persistFails = s.com.persistFails := rfl
@[simp] theorem raiseAt_com_withheld (s : State) (code : Nat) (aud : Audience) (t : Nat) (payload : Bytes) :
    (raiseAt s code aud t payload).com.withheld = s.com.withheld := rfl
@[simp] theorem raiseAt_com_persistedFc (s : State) (code : Nat) (aud : Audience) (t : Nat) (payload : Bytes) :
    (raiseAt s code aud t payload).com.persistedFc = s.com.persistedFc := rfl
@[simp] theorem raiseAt_com_persisted (s : State) (code : Nat) (aud : Audience) (t : Nat) (payload : Bytes) :
    (raiseAt s code aud t payload).com.persisted = s.com.persisted := rfl
@[simp] theorem raiseAt_com_packets (s : State) (code : Nat) (aud : Audience) (t : Nat) (payload : Bytes) :
    (raiseAt s code aud t payload).com.packets = s.com.packets := rfl
@[simp] theorem raise_pending (s : State) (code : Nat) (aud : Audience) (payload : Bytes) :
    (raise s code aud payload).pending = s.pending := rfl
@[simp] theorem raise_freeCtr (s : State) (code : Nat) (aud : Audience) (payload : Bytes) :
    (raise s code aud payload).freeCtr = s.freeCtr := rfl
@[simp] theorem raise_fuse (s : State) (code : Nat) (aud : Audience) (payload : Bytes) :
    (raise s code aud payload).fuse = s.fuse := rfl
@[simp] theorem raise_flash (s : State) (code : Nat) (aud : Audience) (payload : Bytes) :
    (raise s code aud payload).flash = s.flash := rfl
@[simp] theorem raise_p (s : State) (code : Nat) (aud : Audience) (payload : Bytes) :
    (raise s code aud payload).p = s.p := rfl
@[simp] theorem raise_nv (s : State) (code : Nat) (aud : Audience) (payload : Bytes) :
    (raise s code aud payload).nv = s.nv := rfl
@[simp] theorem raise_bk (s : State) (code : Nat) (aud : Audience) (payload : Bytes) :
    (raise s code aud payload).bk = s.bk := rfl
@[simp] theorem raise_clk (s : State) (code : Nat) (aud : Audience) (payload : Bytes) :
    (raise s code aud payload).clk = s.clk := rfl
@[simp] theorem raise_cores (s : State) (code : Nat) (aud : Audience) (payload : Bytes) :
    (raise s code aud payload).cores = s.cores := rfl
@[simp] theorem raise_mode (s : State) (code : Nat) (aud : Audience) (payload : Bytes) :
    (raise s code aud payload).mode = s.mode := rfl
@[simp] theorem raise_supply (s : State) (code : Nat) (aud : Audience) (payload : Bytes) :
    (raise s code aud payload).supply = s.supply := rfl
@[simp] theorem raise_edtor (s : State) (code : Nat) (aud : Audience) (payload : Bytes) :
    (raise s code aud payload).edtor = s.edtor := rfl
@[simp] theorem raise_queues (s : State) (code : Nat) (aud : Audience) (payload : Bytes) :
    (raise s code aud payload).queues = s.queues := rfl
@[simp] theorem raise_time (s : State) (code : Nat) (aud : Audience) (payload : Bytes) :
    (raise s code aud payload).time = s.time := rfl
@[simp] theorem raise_gnss (s : State) (code : Nat) (aud : Audience) (payload : Bytes) :
    (raise s code aud payload).gnss = s.gnss := rfl
@[simp] theorem raise_ref (s : State) (code : Nat) (aud : Audience) (payload : Bytes) :
    (raise s code aud payload).ref = s.ref := rfl
@[simp] theorem raise_buoy (s : State) (code : Nat) (aud : Audience) (payload : Bytes) :
    (raise s code aud payload).buoy = s.buoy := rfl
@[simp] theorem raise_sess (s : State) (code : Nat) (aud : Audience) (payload : Bytes) :
    (raise s code aud payload).sess = s.sess := rfl
@[simp] theorem raise_strt (s : State) (code : Nat) (aud : Audience) (payload : Bytes) :
    (raise s code aud payload).strt = s.strt := rfl
@[simp] theorem raise_holds (s : State) (code : Nat) (aud : Audience) (payload : Bytes) :
    (raise s code aud payload).holds = s.holds := rfl
@[simp] theorem raise_allot (s : State) (code : Nat) (aud : Audience) (payload : Bytes) :
    (raise s code aud payload).allot = s.allot := rfl
@[simp] theorem raise_stop (s : State) (code : Nat) (aud : Audience) (payload : Bytes) :
    (raise s code aud payload).stop = s.stop := rfl
@[simp] theorem raise_radio (s : State) (code : Nat) (aud : Audience) (payload : Bytes) :
    (raise s code aud payload).radio = s.radio := rfl
@[simp] theorem raise_can (s : State) (code : Nat) (aud : Audience) (payload : Bytes) :
    (raise s code aud payload).can = s.can := rfl
@[simp] theorem raise_ports (s : State) (code : Nat) (aud : Audience) (payload : Bytes) :
    (raise s code aud payload).ports = s.ports := rfl
@[simp] theorem raise_sec (s : State) (code : Nat) (aud : Audience) (payload : Bytes) :
    (raise s code aud payload).sec = s.sec := rfl
@[simp] theorem raise_upd (s : State) (code : Nat) (aud : Audience) (payload : Bytes) :
    (raise s code aud payload).upd = s.upd := rfl
@[simp] theorem raise_com_csn (s : State) (code : Nat) (aud : Audience) (payload : Bytes) :
    (raise s code aud payload).com.csn = s.com.csn := rfl
@[simp] theorem raise_com_nextCsn (s : State) (code : Nat) (aud : Audience) (payload : Bytes) :
    (raise s code aud payload).com.nextCsn = s.com.nextCsn := rfl
@[simp] theorem raise_com_submitted (s : State) (code : Nat) (aud : Audience) (payload : Bytes) :
    (raise s code aud payload).com.submitted = s.com.submitted := rfl
@[simp] theorem raise_com_internal (s : State) (code : Nat) (aud : Audience) (payload : Bytes) :
    (raise s code aud payload).com.internal = s.com.internal := rfl
@[simp] theorem raise_com_recs (s : State) (code : Nat) (aud : Audience) (payload : Bytes) :
    (raise s code aud payload).com.recs = s.com.recs := rfl
@[simp] theorem raise_com_logs (s : State) (code : Nat) (aud : Audience) (payload : Bytes) :
    (raise s code aud payload).com.logs = s.com.logs := rfl
@[simp] theorem raise_com_later (s : State) (code : Nat) (aud : Audience) (payload : Bytes) :
    (raise s code aud payload).com.later = s.com.later := rfl
@[simp] theorem raise_com_replies (s : State) (code : Nat) (aud : Audience) (payload : Bytes) :
    (raise s code aud payload).com.replies = s.com.replies := rfl
@[simp] theorem raise_com_cmdCommits (s : State) (code : Nat) (aud : Audience) (payload : Bytes) :
    (raise s code aud payload).com.cmdCommits = s.com.cmdCommits := rfl
@[simp] theorem raise_com_cmdLast (s : State) (code : Nat) (aud : Audience) (payload : Bytes) :
    (raise s code aud payload).com.cmdLast = s.com.cmdLast := rfl
@[simp] theorem raise_com_booting (s : State) (code : Nat) (aud : Audience) (payload : Bytes) :
    (raise s code aud payload).com.booting = s.com.booting := rfl
@[simp] theorem raise_com_persistDue (s : State) (code : Nat) (aud : Audience) (payload : Bytes) :
    (raise s code aud payload).com.persistDue = s.com.persistDue := rfl
@[simp] theorem raise_com_persistFails (s : State) (code : Nat) (aud : Audience) (payload : Bytes) :
    (raise s code aud payload).com.persistFails = s.com.persistFails := rfl
@[simp] theorem raise_com_withheld (s : State) (code : Nat) (aud : Audience) (payload : Bytes) :
    (raise s code aud payload).com.withheld = s.com.withheld := rfl
@[simp] theorem raise_com_persistedFc (s : State) (code : Nat) (aud : Audience) (payload : Bytes) :
    (raise s code aud payload).com.persistedFc = s.com.persistedFc := rfl
@[simp] theorem raise_com_persisted (s : State) (code : Nat) (aud : Audience) (payload : Bytes) :
    (raise s code aud payload).com.persisted = s.com.persisted := rfl
@[simp] theorem raise_com_packets (s : State) (code : Nat) (aud : Audience) (payload : Bytes) :
    (raise s code aud payload).com.packets = s.com.packets := rfl
@[simp] theorem raiseLater_pending (s : State) (code : Nat) (aud : Audience) (t : Nat) (payload : Bytes) :
    (raiseLater s code aud t payload).pending = s.pending := rfl
@[simp] theorem raiseLater_freeCtr (s : State) (code : Nat) (aud : Audience) (t : Nat) (payload : Bytes) :
    (raiseLater s code aud t payload).freeCtr = s.freeCtr := rfl
@[simp] theorem raiseLater_fuse (s : State) (code : Nat) (aud : Audience) (t : Nat) (payload : Bytes) :
    (raiseLater s code aud t payload).fuse = s.fuse := rfl
@[simp] theorem raiseLater_flash (s : State) (code : Nat) (aud : Audience) (t : Nat) (payload : Bytes) :
    (raiseLater s code aud t payload).flash = s.flash := rfl
@[simp] theorem raiseLater_p (s : State) (code : Nat) (aud : Audience) (t : Nat) (payload : Bytes) :
    (raiseLater s code aud t payload).p = s.p := rfl
@[simp] theorem raiseLater_nv (s : State) (code : Nat) (aud : Audience) (t : Nat) (payload : Bytes) :
    (raiseLater s code aud t payload).nv = s.nv := rfl
@[simp] theorem raiseLater_bk (s : State) (code : Nat) (aud : Audience) (t : Nat) (payload : Bytes) :
    (raiseLater s code aud t payload).bk = s.bk := rfl
@[simp] theorem raiseLater_clk (s : State) (code : Nat) (aud : Audience) (t : Nat) (payload : Bytes) :
    (raiseLater s code aud t payload).clk = s.clk := rfl
@[simp] theorem raiseLater_cores (s : State) (code : Nat) (aud : Audience) (t : Nat) (payload : Bytes) :
    (raiseLater s code aud t payload).cores = s.cores := rfl
@[simp] theorem raiseLater_mode (s : State) (code : Nat) (aud : Audience) (t : Nat) (payload : Bytes) :
    (raiseLater s code aud t payload).mode = s.mode := rfl
@[simp] theorem raiseLater_supply (s : State) (code : Nat) (aud : Audience) (t : Nat) (payload : Bytes) :
    (raiseLater s code aud t payload).supply = s.supply := rfl
@[simp] theorem raiseLater_edtor (s : State) (code : Nat) (aud : Audience) (t : Nat) (payload : Bytes) :
    (raiseLater s code aud t payload).edtor = s.edtor := rfl
@[simp] theorem raiseLater_queues (s : State) (code : Nat) (aud : Audience) (t : Nat) (payload : Bytes) :
    (raiseLater s code aud t payload).queues = s.queues := rfl
@[simp] theorem raiseLater_time (s : State) (code : Nat) (aud : Audience) (t : Nat) (payload : Bytes) :
    (raiseLater s code aud t payload).time = s.time := rfl
@[simp] theorem raiseLater_gnss (s : State) (code : Nat) (aud : Audience) (t : Nat) (payload : Bytes) :
    (raiseLater s code aud t payload).gnss = s.gnss := rfl
@[simp] theorem raiseLater_ref (s : State) (code : Nat) (aud : Audience) (t : Nat) (payload : Bytes) :
    (raiseLater s code aud t payload).ref = s.ref := rfl
@[simp] theorem raiseLater_buoy (s : State) (code : Nat) (aud : Audience) (t : Nat) (payload : Bytes) :
    (raiseLater s code aud t payload).buoy = s.buoy := rfl
@[simp] theorem raiseLater_sess (s : State) (code : Nat) (aud : Audience) (t : Nat) (payload : Bytes) :
    (raiseLater s code aud t payload).sess = s.sess := rfl
@[simp] theorem raiseLater_strt (s : State) (code : Nat) (aud : Audience) (t : Nat) (payload : Bytes) :
    (raiseLater s code aud t payload).strt = s.strt := rfl
@[simp] theorem raiseLater_holds (s : State) (code : Nat) (aud : Audience) (t : Nat) (payload : Bytes) :
    (raiseLater s code aud t payload).holds = s.holds := rfl
@[simp] theorem raiseLater_allot (s : State) (code : Nat) (aud : Audience) (t : Nat) (payload : Bytes) :
    (raiseLater s code aud t payload).allot = s.allot := rfl
@[simp] theorem raiseLater_stop (s : State) (code : Nat) (aud : Audience) (t : Nat) (payload : Bytes) :
    (raiseLater s code aud t payload).stop = s.stop := rfl
@[simp] theorem raiseLater_radio (s : State) (code : Nat) (aud : Audience) (t : Nat) (payload : Bytes) :
    (raiseLater s code aud t payload).radio = s.radio := rfl
@[simp] theorem raiseLater_can (s : State) (code : Nat) (aud : Audience) (t : Nat) (payload : Bytes) :
    (raiseLater s code aud t payload).can = s.can := rfl
@[simp] theorem raiseLater_ports (s : State) (code : Nat) (aud : Audience) (t : Nat) (payload : Bytes) :
    (raiseLater s code aud t payload).ports = s.ports := rfl
@[simp] theorem raiseLater_sec (s : State) (code : Nat) (aud : Audience) (t : Nat) (payload : Bytes) :
    (raiseLater s code aud t payload).sec = s.sec := rfl
@[simp] theorem raiseLater_upd (s : State) (code : Nat) (aud : Audience) (t : Nat) (payload : Bytes) :
    (raiseLater s code aud t payload).upd = s.upd := rfl
@[simp] theorem raiseLater_com_csn (s : State) (code : Nat) (aud : Audience) (t : Nat) (payload : Bytes) :
    (raiseLater s code aud t payload).com.csn = s.com.csn := rfl
@[simp] theorem raiseLater_com_nextCsn (s : State) (code : Nat) (aud : Audience) (t : Nat) (payload : Bytes) :
    (raiseLater s code aud t payload).com.nextCsn = s.com.nextCsn := rfl
@[simp] theorem raiseLater_com_submitted (s : State) (code : Nat) (aud : Audience) (t : Nat) (payload : Bytes) :
    (raiseLater s code aud t payload).com.submitted = s.com.submitted := rfl
@[simp] theorem raiseLater_com_internal (s : State) (code : Nat) (aud : Audience) (t : Nat) (payload : Bytes) :
    (raiseLater s code aud t payload).com.internal = s.com.internal := rfl
@[simp] theorem raiseLater_com_recs (s : State) (code : Nat) (aud : Audience) (t : Nat) (payload : Bytes) :
    (raiseLater s code aud t payload).com.recs = s.com.recs := rfl
@[simp] theorem raiseLater_com_logs (s : State) (code : Nat) (aud : Audience) (t : Nat) (payload : Bytes) :
    (raiseLater s code aud t payload).com.logs = s.com.logs := rfl
@[simp] theorem raiseLater_com_events (s : State) (code : Nat) (aud : Audience) (t : Nat) (payload : Bytes) :
    (raiseLater s code aud t payload).com.events = s.com.events := rfl
@[simp] theorem raiseLater_com_replies (s : State) (code : Nat) (aud : Audience) (t : Nat) (payload : Bytes) :
    (raiseLater s code aud t payload).com.replies = s.com.replies := rfl
@[simp] theorem raiseLater_com_cmdCommits (s : State) (code : Nat) (aud : Audience) (t : Nat) (payload : Bytes) :
    (raiseLater s code aud t payload).com.cmdCommits = s.com.cmdCommits := rfl
@[simp] theorem raiseLater_com_cmdLast (s : State) (code : Nat) (aud : Audience) (t : Nat) (payload : Bytes) :
    (raiseLater s code aud t payload).com.cmdLast = s.com.cmdLast := rfl
@[simp] theorem raiseLater_com_booting (s : State) (code : Nat) (aud : Audience) (t : Nat) (payload : Bytes) :
    (raiseLater s code aud t payload).com.booting = s.com.booting := rfl
@[simp] theorem raiseLater_com_persistDue (s : State) (code : Nat) (aud : Audience) (t : Nat) (payload : Bytes) :
    (raiseLater s code aud t payload).com.persistDue = s.com.persistDue := rfl
@[simp] theorem raiseLater_com_persistFails (s : State) (code : Nat) (aud : Audience) (t : Nat) (payload : Bytes) :
    (raiseLater s code aud t payload).com.persistFails = s.com.persistFails := rfl
@[simp] theorem raiseLater_com_withheld (s : State) (code : Nat) (aud : Audience) (t : Nat) (payload : Bytes) :
    (raiseLater s code aud t payload).com.withheld = s.com.withheld := rfl
@[simp] theorem raiseLater_com_persistedFc (s : State) (code : Nat) (aud : Audience) (t : Nat) (payload : Bytes) :
    (raiseLater s code aud t payload).com.persistedFc = s.com.persistedFc := rfl
@[simp] theorem raiseLater_com_persisted (s : State) (code : Nat) (aud : Audience) (t : Nat) (payload : Bytes) :
    (raiseLater s code aud t payload).com.persisted = s.com.persisted := rfl
@[simp] theorem raiseLater_com_packets (s : State) (code : Nat) (aud : Audience) (t : Nat) (payload : Bytes) :
    (raiseLater s code aud t payload).com.packets = s.com.packets := rfl
@[simp] theorem raiseBy_pending (s : State) (r : Request) (code : Nat) (aud : Audience) (payload : Bytes) :
    (raiseBy s r code aud payload).pending = s.pending := rfl
@[simp] theorem raiseBy_freeCtr (s : State) (r : Request) (code : Nat) (aud : Audience) (payload : Bytes) :
    (raiseBy s r code aud payload).freeCtr = s.freeCtr := rfl
@[simp] theorem raiseBy_fuse (s : State) (r : Request) (code : Nat) (aud : Audience) (payload : Bytes) :
    (raiseBy s r code aud payload).fuse = s.fuse := rfl
@[simp] theorem raiseBy_flash (s : State) (r : Request) (code : Nat) (aud : Audience) (payload : Bytes) :
    (raiseBy s r code aud payload).flash = s.flash := rfl
@[simp] theorem raiseBy_p (s : State) (r : Request) (code : Nat) (aud : Audience) (payload : Bytes) :
    (raiseBy s r code aud payload).p = s.p := rfl
@[simp] theorem raiseBy_nv (s : State) (r : Request) (code : Nat) (aud : Audience) (payload : Bytes) :
    (raiseBy s r code aud payload).nv = s.nv := rfl
@[simp] theorem raiseBy_bk (s : State) (r : Request) (code : Nat) (aud : Audience) (payload : Bytes) :
    (raiseBy s r code aud payload).bk = s.bk := rfl
@[simp] theorem raiseBy_clk (s : State) (r : Request) (code : Nat) (aud : Audience) (payload : Bytes) :
    (raiseBy s r code aud payload).clk = s.clk := rfl
@[simp] theorem raiseBy_cores (s : State) (r : Request) (code : Nat) (aud : Audience) (payload : Bytes) :
    (raiseBy s r code aud payload).cores = s.cores := rfl
@[simp] theorem raiseBy_mode (s : State) (r : Request) (code : Nat) (aud : Audience) (payload : Bytes) :
    (raiseBy s r code aud payload).mode = s.mode := rfl
@[simp] theorem raiseBy_supply (s : State) (r : Request) (code : Nat) (aud : Audience) (payload : Bytes) :
    (raiseBy s r code aud payload).supply = s.supply := rfl
@[simp] theorem raiseBy_edtor (s : State) (r : Request) (code : Nat) (aud : Audience) (payload : Bytes) :
    (raiseBy s r code aud payload).edtor = s.edtor := rfl
@[simp] theorem raiseBy_queues (s : State) (r : Request) (code : Nat) (aud : Audience) (payload : Bytes) :
    (raiseBy s r code aud payload).queues = s.queues := rfl
@[simp] theorem raiseBy_time (s : State) (r : Request) (code : Nat) (aud : Audience) (payload : Bytes) :
    (raiseBy s r code aud payload).time = s.time := rfl
@[simp] theorem raiseBy_gnss (s : State) (r : Request) (code : Nat) (aud : Audience) (payload : Bytes) :
    (raiseBy s r code aud payload).gnss = s.gnss := rfl
@[simp] theorem raiseBy_ref (s : State) (r : Request) (code : Nat) (aud : Audience) (payload : Bytes) :
    (raiseBy s r code aud payload).ref = s.ref := rfl
@[simp] theorem raiseBy_buoy (s : State) (r : Request) (code : Nat) (aud : Audience) (payload : Bytes) :
    (raiseBy s r code aud payload).buoy = s.buoy := rfl
@[simp] theorem raiseBy_sess (s : State) (r : Request) (code : Nat) (aud : Audience) (payload : Bytes) :
    (raiseBy s r code aud payload).sess = s.sess := rfl
@[simp] theorem raiseBy_strt (s : State) (r : Request) (code : Nat) (aud : Audience) (payload : Bytes) :
    (raiseBy s r code aud payload).strt = s.strt := rfl
@[simp] theorem raiseBy_holds (s : State) (r : Request) (code : Nat) (aud : Audience) (payload : Bytes) :
    (raiseBy s r code aud payload).holds = s.holds := rfl
@[simp] theorem raiseBy_allot (s : State) (r : Request) (code : Nat) (aud : Audience) (payload : Bytes) :
    (raiseBy s r code aud payload).allot = s.allot := rfl
@[simp] theorem raiseBy_stop (s : State) (r : Request) (code : Nat) (aud : Audience) (payload : Bytes) :
    (raiseBy s r code aud payload).stop = s.stop := rfl
@[simp] theorem raiseBy_radio (s : State) (r : Request) (code : Nat) (aud : Audience) (payload : Bytes) :
    (raiseBy s r code aud payload).radio = s.radio := rfl
@[simp] theorem raiseBy_can (s : State) (r : Request) (code : Nat) (aud : Audience) (payload : Bytes) :
    (raiseBy s r code aud payload).can = s.can := rfl
@[simp] theorem raiseBy_ports (s : State) (r : Request) (code : Nat) (aud : Audience) (payload : Bytes) :
    (raiseBy s r code aud payload).ports = s.ports := rfl
@[simp] theorem raiseBy_sec (s : State) (r : Request) (code : Nat) (aud : Audience) (payload : Bytes) :
    (raiseBy s r code aud payload).sec = s.sec := rfl
@[simp] theorem raiseBy_upd (s : State) (r : Request) (code : Nat) (aud : Audience) (payload : Bytes) :
    (raiseBy s r code aud payload).upd = s.upd := rfl
@[simp] theorem raiseBy_com_csn (s : State) (r : Request) (code : Nat) (aud : Audience) (payload : Bytes) :
    (raiseBy s r code aud payload).com.csn = s.com.csn := rfl
@[simp] theorem raiseBy_com_nextCsn (s : State) (r : Request) (code : Nat) (aud : Audience) (payload : Bytes) :
    (raiseBy s r code aud payload).com.nextCsn = s.com.nextCsn := rfl
@[simp] theorem raiseBy_com_submitted (s : State) (r : Request) (code : Nat) (aud : Audience) (payload : Bytes) :
    (raiseBy s r code aud payload).com.submitted = s.com.submitted := rfl
@[simp] theorem raiseBy_com_internal (s : State) (r : Request) (code : Nat) (aud : Audience) (payload : Bytes) :
    (raiseBy s r code aud payload).com.internal = s.com.internal := rfl
@[simp] theorem raiseBy_com_recs (s : State) (r : Request) (code : Nat) (aud : Audience) (payload : Bytes) :
    (raiseBy s r code aud payload).com.recs = s.com.recs := rfl
@[simp] theorem raiseBy_com_logs (s : State) (r : Request) (code : Nat) (aud : Audience) (payload : Bytes) :
    (raiseBy s r code aud payload).com.logs = s.com.logs := rfl
@[simp] theorem raiseBy_com_later (s : State) (r : Request) (code : Nat) (aud : Audience) (payload : Bytes) :
    (raiseBy s r code aud payload).com.later = s.com.later := rfl
@[simp] theorem raiseBy_com_replies (s : State) (r : Request) (code : Nat) (aud : Audience) (payload : Bytes) :
    (raiseBy s r code aud payload).com.replies = s.com.replies := rfl
@[simp] theorem raiseBy_com_cmdCommits (s : State) (r : Request) (code : Nat) (aud : Audience) (payload : Bytes) :
    (raiseBy s r code aud payload).com.cmdCommits = s.com.cmdCommits := rfl
@[simp] theorem raiseBy_com_cmdLast (s : State) (r : Request) (code : Nat) (aud : Audience) (payload : Bytes) :
    (raiseBy s r code aud payload).com.cmdLast = s.com.cmdLast := rfl
@[simp] theorem raiseBy_com_booting (s : State) (r : Request) (code : Nat) (aud : Audience) (payload : Bytes) :
    (raiseBy s r code aud payload).com.booting = s.com.booting := rfl
@[simp] theorem raiseBy_com_persistDue (s : State) (r : Request) (code : Nat) (aud : Audience) (payload : Bytes) :
    (raiseBy s r code aud payload).com.persistDue = s.com.persistDue := rfl
@[simp] theorem raiseBy_com_persistFails (s : State) (r : Request) (code : Nat) (aud : Audience) (payload : Bytes) :
    (raiseBy s r code aud payload).com.persistFails = s.com.persistFails := rfl
@[simp] theorem raiseBy_com_withheld (s : State) (r : Request) (code : Nat) (aud : Audience) (payload : Bytes) :
    (raiseBy s r code aud payload).com.withheld = s.com.withheld := rfl
@[simp] theorem raiseBy_com_persistedFc (s : State) (r : Request) (code : Nat) (aud : Audience) (payload : Bytes) :
    (raiseBy s r code aud payload).com.persistedFc = s.com.persistedFc := rfl
@[simp] theorem raiseBy_com_persisted (s : State) (r : Request) (code : Nat) (aud : Audience) (payload : Bytes) :
    (raiseBy s r code aud payload).com.persisted = s.com.persisted := rfl
@[simp] theorem raiseBy_com_packets (s : State) (r : Request) (code : Nat) (aud : Audience) (payload : Bytes) :
    (raiseBy s r code aud payload).com.packets = s.com.packets := rfl
@[simp] theorem requestStop_pending (s : State) (bit : Nat) :
    (requestStop s bit).pending = s.pending := rfl
@[simp] theorem requestStop_freeCtr (s : State) (bit : Nat) :
    (requestStop s bit).freeCtr = s.freeCtr := rfl
@[simp] theorem requestStop_fuse (s : State) (bit : Nat) :
    (requestStop s bit).fuse = s.fuse := rfl
@[simp] theorem requestStop_flash (s : State) (bit : Nat) :
    (requestStop s bit).flash = s.flash := rfl
@[simp] theorem requestStop_p (s : State) (bit : Nat) :
    (requestStop s bit).p = s.p := rfl
@[simp] theorem requestStop_nv (s : State) (bit : Nat) :
    (requestStop s bit).nv = s.nv := rfl
@[simp] theorem requestStop_bk (s : State) (bit : Nat) :
    (requestStop s bit).bk = s.bk := rfl
@[simp] theorem requestStop_clk (s : State) (bit : Nat) :
    (requestStop s bit).clk = s.clk := rfl
@[simp] theorem requestStop_cores (s : State) (bit : Nat) :
    (requestStop s bit).cores = s.cores := rfl
@[simp] theorem requestStop_mode (s : State) (bit : Nat) :
    (requestStop s bit).mode = s.mode := rfl
@[simp] theorem requestStop_supply (s : State) (bit : Nat) :
    (requestStop s bit).supply = s.supply := rfl
@[simp] theorem requestStop_edtor (s : State) (bit : Nat) :
    (requestStop s bit).edtor = s.edtor := rfl
@[simp] theorem requestStop_com (s : State) (bit : Nat) :
    (requestStop s bit).com = s.com := rfl
@[simp] theorem requestStop_queues (s : State) (bit : Nat) :
    (requestStop s bit).queues = s.queues := rfl
@[simp] theorem requestStop_time (s : State) (bit : Nat) :
    (requestStop s bit).time = s.time := rfl
@[simp] theorem requestStop_gnss (s : State) (bit : Nat) :
    (requestStop s bit).gnss = s.gnss := rfl
@[simp] theorem requestStop_ref (s : State) (bit : Nat) :
    (requestStop s bit).ref = s.ref := rfl
@[simp] theorem requestStop_buoy (s : State) (bit : Nat) :
    (requestStop s bit).buoy = s.buoy := rfl
@[simp] theorem requestStop_sess (s : State) (bit : Nat) :
    (requestStop s bit).sess = s.sess := rfl
@[simp] theorem requestStop_strt (s : State) (bit : Nat) :
    (requestStop s bit).strt = s.strt := rfl
@[simp] theorem requestStop_holds (s : State) (bit : Nat) :
    (requestStop s bit).holds = s.holds := rfl
@[simp] theorem requestStop_allot (s : State) (bit : Nat) :
    (requestStop s bit).allot = s.allot := rfl
@[simp] theorem requestStop_radio (s : State) (bit : Nat) :
    (requestStop s bit).radio = s.radio := rfl
@[simp] theorem requestStop_can (s : State) (bit : Nat) :
    (requestStop s bit).can = s.can := rfl
@[simp] theorem requestStop_ports (s : State) (bit : Nat) :
    (requestStop s bit).ports = s.ports := rfl
@[simp] theorem requestStop_sec (s : State) (bit : Nat) :
    (requestStop s bit).sec = s.sec := rfl
@[simp] theorem requestStop_upd (s : State) (bit : Nat) :
    (requestStop s bit).upd = s.upd := rfl
@[simp] theorem requestStop_stop_chans (s : State) (bit : Nat) :
    (requestStop s bit).stop.chans = s.stop.chans := rfl
@[simp] theorem requestStop_stop_slA (s : State) (bit : Nat) :
    (requestStop s bit).stop.slA = s.stop.slA := rfl
@[simp] theorem requestStop_stop_slB (s : State) (bit : Nat) :
    (requestStop s bit).stop.slB = s.stop.slB := rfl
@[simp] theorem requestStop_stop_lead (s : State) (bit : Nat) :
    (requestStop s bit).stop.lead = s.stop.lead := rfl
@[simp] theorem requestStop_stop_voted (s : State) (bit : Nat) :
    (requestStop s bit).stop.voted = s.stop.voted := rfl
@[simp] theorem requestStop_stop_sw1 (s : State) (bit : Nat) :
    (requestStop s bit).stop.sw1 = s.stop.sw1 := rfl
@[simp] theorem requestStop_stop_sw2 (s : State) (bit : Nat) :
    (requestStop s bit).stop.sw2 = s.stop.sw2 := rfl
@[simp] theorem requestStop_stop_outputFault (s : State) (bit : Nat) :
    (requestStop s bit).stop.outputFault = s.stop.outputFault := rfl
@[simp] theorem requestStop_stop_voterDiff (s : State) (bit : Nat) :
    (requestStop s bit).stop.voterDiff = s.stop.voterDiff := rfl
@[simp] theorem requestStop_stop_internalCause (s : State) (bit : Nat) :
    (requestStop s bit).stop.internalCause = s.stop.internalCause := rfl
@[simp] theorem requestStop_stop_filter (s : State) (bit : Nat) :
    (requestStop s bit).stop.filter = s.stop.filter := rfl
@[simp] theorem requestStop_stop_filterRecs (s : State) (bit : Nat) :
    (requestStop s bit).stop.filterRecs = s.stop.filterRecs := rfl
@[simp] theorem requestStop_stop_filterReject (s : State) (bit : Nat) :
    (requestStop s bit).stop.filterReject = s.stop.filterReject := rfl
@[simp] theorem requestStop_stop_beaconMisses (s : State) (bit : Nat) :
    (requestStop s bit).stop.beaconMisses = s.stop.beaconMisses := rfl
@[simp] theorem requestStop_stop_beaconOnAir (s : State) (bit : Nat) :
    (requestStop s bit).stop.beaconOnAir = s.stop.beaconOnAir := rfl
@[simp] theorem requestStop_stop_beaconSent (s : State) (bit : Nat) :
    (requestStop s bit).stop.beaconSent = s.stop.beaconSent := rfl
@[simp] theorem requestStop_stop_token (s : State) (bit : Nat) :
    (requestStop s bit).stop.token = s.stop.token := rfl
@[simp] theorem requestStop_stop_stopFrom (s : State) (bit : Nat) :
    (requestStop s bit).stop.stopFrom = s.stop.stopFrom := rfl
@[simp] theorem requestStop_stop_stopTarget (s : State) (bit : Nat) :
    (requestStop s bit).stop.stopTarget = s.stop.stopTarget := rfl
@[simp] theorem requestStop_stop_stopUntil (s : State) (bit : Nat) :
    (requestStop s bit).stop.stopUntil = s.stop.stopUntil := rfl
@[simp] theorem requestStop_stop_stopWas (s : State) (bit : Nat) :
    (requestStop s bit).stop.stopWas = s.stop.stopWas := rfl
@[simp] theorem requestStop_stop_robotCause (s : State) (bit : Nat) :
    (requestStop s bit).stop.robotCause = s.stop.robotCause := rfl
@[simp] theorem requestStop_stop_canStopNext (s : State) (bit : Nat) :
    (requestStop s bit).stop.canStopNext = s.stop.canStopNext := rfl
@[simp] theorem requestStop_stop_canStopDue (s : State) (bit : Nat) :
    (requestStop s bit).stop.canStopDue = s.stop.canStopDue := rfl
@[simp] theorem requestStop_stop_arms (s : State) (bit : Nat) :
    (requestStop s bit).stop.arms = s.stop.arms := rfl
@[simp] theorem requestStop_stop_armIds (s : State) (bit : Nat) :
    (requestStop s bit).stop.armIds = s.stop.armIds := rfl
@[simp] theorem requestStop_stop_release (s : State) (bit : Nat) :
    (requestStop s bit).stop.release = s.stop.release := rfl
@[simp] theorem requestStop_stop_lastStop (s : State) (bit : Nat) :
    (requestStop s bit).stop.lastStop = s.stop.lastStop := rfl
@[simp] theorem requestStop_stop_lastRelease (s : State) (bit : Nat) :
    (requestStop s bit).stop.lastRelease = s.stop.lastRelease := rfl
@[simp] theorem requestStop_stop_voteTime (s : State) (bit : Nat) :
    (requestStop s bit).stop.voteTime = s.stop.voteTime := rfl
@[simp] theorem requestStop_stop_evs (s : State) (bit : Nat) :
    (requestStop s bit).stop.evs = s.stop.evs := rfl
@[simp] theorem requestStop_stop_evsNext (s : State) (bit : Nat) :
    (requestStop s bit).stop.evsNext = s.stop.evsNext := rfl
@[simp] theorem requestStop_stop_readback (s : State) (bit : Nat) :
    (requestStop s bit).stop.readback = s.stop.readback := rfl
@[simp] theorem requestStop_stop_provFc (s : State) (bit : Nat) :
    (requestStop s bit).stop.provFc = s.stop.provFc := rfl
@[simp] theorem requestStop_stop_allDiffer (s : State) (bit : Nat) :
    (requestStop s bit).stop.allDiffer = s.stop.allDiffer := rfl
@[simp] theorem requestRobotStop_pending (s : State) (session cause : Nat) :
    (requestRobotStop s session cause).pending = s.pending := rfl
@[simp] theorem requestRobotStop_freeCtr (s : State) (session cause : Nat) :
    (requestRobotStop s session cause).freeCtr = s.freeCtr := rfl
@[simp] theorem requestRobotStop_fuse (s : State) (session cause : Nat) :
    (requestRobotStop s session cause).fuse = s.fuse := rfl
@[simp] theorem requestRobotStop_flash (s : State) (session cause : Nat) :
    (requestRobotStop s session cause).flash = s.flash := rfl
@[simp] theorem requestRobotStop_p (s : State) (session cause : Nat) :
    (requestRobotStop s session cause).p = s.p := rfl
@[simp] theorem requestRobotStop_nv (s : State) (session cause : Nat) :
    (requestRobotStop s session cause).nv = s.nv := rfl
@[simp] theorem requestRobotStop_bk (s : State) (session cause : Nat) :
    (requestRobotStop s session cause).bk = s.bk := rfl
@[simp] theorem requestRobotStop_clk (s : State) (session cause : Nat) :
    (requestRobotStop s session cause).clk = s.clk := rfl
@[simp] theorem requestRobotStop_cores (s : State) (session cause : Nat) :
    (requestRobotStop s session cause).cores = s.cores := rfl
@[simp] theorem requestRobotStop_mode (s : State) (session cause : Nat) :
    (requestRobotStop s session cause).mode = s.mode := rfl
@[simp] theorem requestRobotStop_supply (s : State) (session cause : Nat) :
    (requestRobotStop s session cause).supply = s.supply := rfl
@[simp] theorem requestRobotStop_edtor (s : State) (session cause : Nat) :
    (requestRobotStop s session cause).edtor = s.edtor := rfl
@[simp] theorem requestRobotStop_com (s : State) (session cause : Nat) :
    (requestRobotStop s session cause).com = s.com := rfl
@[simp] theorem requestRobotStop_queues (s : State) (session cause : Nat) :
    (requestRobotStop s session cause).queues = s.queues := rfl
@[simp] theorem requestRobotStop_time (s : State) (session cause : Nat) :
    (requestRobotStop s session cause).time = s.time := rfl
@[simp] theorem requestRobotStop_gnss (s : State) (session cause : Nat) :
    (requestRobotStop s session cause).gnss = s.gnss := rfl
@[simp] theorem requestRobotStop_ref (s : State) (session cause : Nat) :
    (requestRobotStop s session cause).ref = s.ref := rfl
@[simp] theorem requestRobotStop_buoy (s : State) (session cause : Nat) :
    (requestRobotStop s session cause).buoy = s.buoy := rfl
@[simp] theorem requestRobotStop_sess (s : State) (session cause : Nat) :
    (requestRobotStop s session cause).sess = s.sess := rfl
@[simp] theorem requestRobotStop_strt (s : State) (session cause : Nat) :
    (requestRobotStop s session cause).strt = s.strt := rfl
@[simp] theorem requestRobotStop_holds (s : State) (session cause : Nat) :
    (requestRobotStop s session cause).holds = s.holds := rfl
@[simp] theorem requestRobotStop_allot (s : State) (session cause : Nat) :
    (requestRobotStop s session cause).allot = s.allot := rfl
@[simp] theorem requestRobotStop_radio (s : State) (session cause : Nat) :
    (requestRobotStop s session cause).radio = s.radio := rfl
@[simp] theorem requestRobotStop_can (s : State) (session cause : Nat) :
    (requestRobotStop s session cause).can = s.can := rfl
@[simp] theorem requestRobotStop_ports (s : State) (session cause : Nat) :
    (requestRobotStop s session cause).ports = s.ports := rfl
@[simp] theorem requestRobotStop_sec (s : State) (session cause : Nat) :
    (requestRobotStop s session cause).sec = s.sec := rfl
@[simp] theorem requestRobotStop_upd (s : State) (session cause : Nat) :
    (requestRobotStop s session cause).upd = s.upd := rfl
@[simp] theorem requestRobotStop_stop_chans (s : State) (session cause : Nat) :
    (requestRobotStop s session cause).stop.chans = s.stop.chans := rfl
@[simp] theorem requestRobotStop_stop_slA (s : State) (session cause : Nat) :
    (requestRobotStop s session cause).stop.slA = s.stop.slA := rfl
@[simp] theorem requestRobotStop_stop_slB (s : State) (session cause : Nat) :
    (requestRobotStop s session cause).stop.slB = s.stop.slB := rfl
@[simp] theorem requestRobotStop_stop_lead (s : State) (session cause : Nat) :
    (requestRobotStop s session cause).stop.lead = s.stop.lead := rfl
@[simp] theorem requestRobotStop_stop_voted (s : State) (session cause : Nat) :
    (requestRobotStop s session cause).stop.voted = s.stop.voted := rfl
@[simp] theorem requestRobotStop_stop_sw1 (s : State) (session cause : Nat) :
    (requestRobotStop s session cause).stop.sw1 = s.stop.sw1 := rfl
@[simp] theorem requestRobotStop_stop_sw2 (s : State) (session cause : Nat) :
    (requestRobotStop s session cause).stop.sw2 = s.stop.sw2 := rfl
@[simp] theorem requestRobotStop_stop_outputFault (s : State) (session cause : Nat) :
    (requestRobotStop s session cause).stop.outputFault = s.stop.outputFault := rfl
@[simp] theorem requestRobotStop_stop_voterDiff (s : State) (session cause : Nat) :
    (requestRobotStop s session cause).stop.voterDiff = s.stop.voterDiff := rfl
@[simp] theorem requestRobotStop_stop_internalCause (s : State) (session cause : Nat) :
    (requestRobotStop s session cause).stop.internalCause = s.stop.internalCause := rfl
@[simp] theorem requestRobotStop_stop_filter (s : State) (session cause : Nat) :
    (requestRobotStop s session cause).stop.filter = s.stop.filter := rfl
@[simp] theorem requestRobotStop_stop_filterRecs (s : State) (session cause : Nat) :
    (requestRobotStop s session cause).stop.filterRecs = s.stop.filterRecs := rfl
@[simp] theorem requestRobotStop_stop_filterReject (s : State) (session cause : Nat) :
    (requestRobotStop s session cause).stop.filterReject = s.stop.filterReject := rfl
@[simp] theorem requestRobotStop_stop_beaconMisses (s : State) (session cause : Nat) :
    (requestRobotStop s session cause).stop.beaconMisses = s.stop.beaconMisses := rfl
@[simp] theorem requestRobotStop_stop_beaconOnAir (s : State) (session cause : Nat) :
    (requestRobotStop s session cause).stop.beaconOnAir = s.stop.beaconOnAir := rfl
@[simp] theorem requestRobotStop_stop_beaconSent (s : State) (session cause : Nat) :
    (requestRobotStop s session cause).stop.beaconSent = s.stop.beaconSent := rfl
@[simp] theorem requestRobotStop_stop_token (s : State) (session cause : Nat) :
    (requestRobotStop s session cause).stop.token = s.stop.token := rfl
@[simp] theorem requestRobotStop_stop_stopFrom (s : State) (session cause : Nat) :
    (requestRobotStop s session cause).stop.stopFrom = s.stop.stopFrom := rfl
@[simp] theorem requestRobotStop_stop_stopTarget (s : State) (session cause : Nat) :
    (requestRobotStop s session cause).stop.stopTarget = s.stop.stopTarget := rfl
@[simp] theorem requestRobotStop_stop_stopUntil (s : State) (session cause : Nat) :
    (requestRobotStop s session cause).stop.stopUntil = s.stop.stopUntil := rfl
@[simp] theorem requestRobotStop_stop_stopWas (s : State) (session cause : Nat) :
    (requestRobotStop s session cause).stop.stopWas = s.stop.stopWas := rfl
@[simp] theorem requestRobotStop_stop_robotCause (s : State) (session cause : Nat) :
    (requestRobotStop s session cause).stop.robotCause = s.stop.robotCause := rfl
@[simp] theorem requestRobotStop_stop_canStopNext (s : State) (session cause : Nat) :
    (requestRobotStop s session cause).stop.canStopNext = s.stop.canStopNext := rfl
@[simp] theorem requestRobotStop_stop_canStopDue (s : State) (session cause : Nat) :
    (requestRobotStop s session cause).stop.canStopDue = s.stop.canStopDue := rfl
@[simp] theorem requestRobotStop_stop_arms (s : State) (session cause : Nat) :
    (requestRobotStop s session cause).stop.arms = s.stop.arms := rfl
@[simp] theorem requestRobotStop_stop_armIds (s : State) (session cause : Nat) :
    (requestRobotStop s session cause).stop.armIds = s.stop.armIds := rfl
@[simp] theorem requestRobotStop_stop_release (s : State) (session cause : Nat) :
    (requestRobotStop s session cause).stop.release = s.stop.release := rfl
@[simp] theorem requestRobotStop_stop_lastStop (s : State) (session cause : Nat) :
    (requestRobotStop s session cause).stop.lastStop = s.stop.lastStop := rfl
@[simp] theorem requestRobotStop_stop_lastRelease (s : State) (session cause : Nat) :
    (requestRobotStop s session cause).stop.lastRelease = s.stop.lastRelease := rfl
@[simp] theorem requestRobotStop_stop_voteTime (s : State) (session cause : Nat) :
    (requestRobotStop s session cause).stop.voteTime = s.stop.voteTime := rfl
@[simp] theorem requestRobotStop_stop_evs (s : State) (session cause : Nat) :
    (requestRobotStop s session cause).stop.evs = s.stop.evs := rfl
@[simp] theorem requestRobotStop_stop_evsNext (s : State) (session cause : Nat) :
    (requestRobotStop s session cause).stop.evsNext = s.stop.evsNext := rfl
@[simp] theorem requestRobotStop_stop_readback (s : State) (session cause : Nat) :
    (requestRobotStop s session cause).stop.readback = s.stop.readback := rfl
@[simp] theorem requestRobotStop_stop_provFc (s : State) (session cause : Nat) :
    (requestRobotStop s session cause).stop.provFc = s.stop.provFc := rfl
@[simp] theorem requestRobotStop_stop_allDiffer (s : State) (session cause : Nat) :
    (requestRobotStop s session cause).stop.allDiffer = s.stop.allDiffer := rfl
@[simp] theorem takeLatched_pending (s : State) (r : Request) :
    (takeLatched s r).pending = s.pending := rfl
@[simp] theorem takeLatched_freeCtr (s : State) (r : Request) :
    (takeLatched s r).freeCtr = s.freeCtr := rfl
@[simp] theorem takeLatched_fuse (s : State) (r : Request) :
    (takeLatched s r).fuse = s.fuse := rfl
@[simp] theorem takeLatched_flash (s : State) (r : Request) :
    (takeLatched s r).flash = s.flash := rfl
@[simp] theorem takeLatched_p (s : State) (r : Request) :
    (takeLatched s r).p = s.p := rfl
@[simp] theorem takeLatched_nv (s : State) (r : Request) :
    (takeLatched s r).nv = s.nv := rfl
@[simp] theorem takeLatched_bk (s : State) (r : Request) :
    (takeLatched s r).bk = s.bk := rfl
@[simp] theorem takeLatched_clk (s : State) (r : Request) :
    (takeLatched s r).clk = s.clk := rfl
@[simp] theorem takeLatched_cores (s : State) (r : Request) :
    (takeLatched s r).cores = s.cores := rfl
@[simp] theorem takeLatched_mode (s : State) (r : Request) :
    (takeLatched s r).mode = s.mode := rfl
@[simp] theorem takeLatched_supply (s : State) (r : Request) :
    (takeLatched s r).supply = s.supply := rfl
@[simp] theorem takeLatched_queues (s : State) (r : Request) :
    (takeLatched s r).queues = s.queues := rfl
@[simp] theorem takeLatched_time (s : State) (r : Request) :
    (takeLatched s r).time = s.time := rfl
@[simp] theorem takeLatched_gnss (s : State) (r : Request) :
    (takeLatched s r).gnss = s.gnss := rfl
@[simp] theorem takeLatched_ref (s : State) (r : Request) :
    (takeLatched s r).ref = s.ref := rfl
@[simp] theorem takeLatched_buoy (s : State) (r : Request) :
    (takeLatched s r).buoy = s.buoy := rfl
@[simp] theorem takeLatched_sess (s : State) (r : Request) :
    (takeLatched s r).sess = s.sess := rfl
@[simp] theorem takeLatched_strt (s : State) (r : Request) :
    (takeLatched s r).strt = s.strt := rfl
@[simp] theorem takeLatched_holds (s : State) (r : Request) :
    (takeLatched s r).holds = s.holds := rfl
@[simp] theorem takeLatched_allot (s : State) (r : Request) :
    (takeLatched s r).allot = s.allot := rfl
@[simp] theorem takeLatched_stop (s : State) (r : Request) :
    (takeLatched s r).stop = s.stop := rfl
@[simp] theorem takeLatched_radio (s : State) (r : Request) :
    (takeLatched s r).radio = s.radio := rfl
@[simp] theorem takeLatched_can (s : State) (r : Request) :
    (takeLatched s r).can = s.can := rfl
@[simp] theorem takeLatched_ports (s : State) (r : Request) :
    (takeLatched s r).ports = s.ports := rfl
@[simp] theorem takeLatched_sec (s : State) (r : Request) :
    (takeLatched s r).sec = s.sec := rfl
@[simp] theorem takeLatched_upd (s : State) (r : Request) :
    (takeLatched s r).upd = s.upd := rfl
@[simp] theorem takeLatched_edtor_sessions (s : State) (r : Request) :
    (takeLatched s r).edtor.sessions = s.edtor.sessions := rfl
@[simp] theorem takeLatched_edtor_inbox (s : State) (r : Request) :
    (takeLatched s r).edtor.inbox = s.edtor.inbox := rfl
@[simp] theorem takeLatched_edtor_rejects (s : State) (r : Request) :
    (takeLatched s r).edtor.rejects = s.edtor.rejects := rfl
@[simp] theorem takeLatched_edtor_faulted (s : State) (r : Request) :
    (takeLatched s r).edtor.faulted = s.edtor.faulted := rfl
@[simp] theorem takeLatched_edtor_ports (s : State) (r : Request) :
    (takeLatched s r).edtor.ports = s.edtor.ports := rfl
@[simp] theorem takeLatched_edtor_rejectsDue (s : State) (r : Request) :
    (takeLatched s r).edtor.rejectsDue = s.edtor.rejectsDue := rfl
@[simp] theorem takeLatched_edtor_parting (s : State) (r : Request) :
    (takeLatched s r).edtor.parting = s.edtor.parting := rfl
@[simp] theorem takeLatched_edtor_jrnlHold (s : State) (r : Request) :
    (takeLatched s r).edtor.jrnlHold = s.edtor.jrnlHold := rfl
@[simp] theorem takeLatched_edtor_unitsUsed (s : State) (r : Request) :
    (takeLatched s r).edtor.unitsUsed = s.edtor.unitsUsed := rfl
@[simp] theorem takeLatched_com_csn (s : State) (r : Request) :
    (takeLatched s r).com.csn = s.com.csn := rfl
@[simp] theorem takeLatched_com_nextCsn (s : State) (r : Request) :
    (takeLatched s r).com.nextCsn = s.com.nextCsn := rfl
@[simp] theorem takeLatched_com_submitted (s : State) (r : Request) :
    (takeLatched s r).com.submitted = s.com.submitted := rfl
@[simp] theorem takeLatched_com_internal (s : State) (r : Request) :
    (takeLatched s r).com.internal = s.com.internal := rfl
@[simp] theorem takeLatched_com_recs (s : State) (r : Request) :
    (takeLatched s r).com.recs = s.com.recs := rfl
@[simp] theorem takeLatched_com_logs (s : State) (r : Request) :
    (takeLatched s r).com.logs = s.com.logs := rfl
@[simp] theorem takeLatched_com_events (s : State) (r : Request) :
    (takeLatched s r).com.events = s.com.events := rfl
@[simp] theorem takeLatched_com_later (s : State) (r : Request) :
    (takeLatched s r).com.later = s.com.later := rfl
@[simp] theorem takeLatched_com_replies (s : State) (r : Request) :
    (takeLatched s r).com.replies = s.com.replies := rfl
@[simp] theorem takeLatched_com_cmdLast (s : State) (r : Request) :
    (takeLatched s r).com.cmdLast = s.com.cmdLast := rfl
@[simp] theorem takeLatched_com_booting (s : State) (r : Request) :
    (takeLatched s r).com.booting = s.com.booting := rfl
@[simp] theorem takeLatched_com_persistDue (s : State) (r : Request) :
    (takeLatched s r).com.persistDue = s.com.persistDue := rfl
@[simp] theorem takeLatched_com_persistFails (s : State) (r : Request) :
    (takeLatched s r).com.persistFails = s.com.persistFails := rfl
@[simp] theorem takeLatched_com_withheld (s : State) (r : Request) :
    (takeLatched s r).com.withheld = s.com.withheld := rfl
@[simp] theorem takeLatched_com_persistedFc (s : State) (r : Request) :
    (takeLatched s r).com.persistedFc = s.com.persistedFc := rfl
@[simp] theorem takeLatched_com_persisted (s : State) (r : Request) :
    (takeLatched s r).com.persisted = s.com.persisted := rfl
@[simp] theorem takeLatched_com_packets (s : State) (r : Request) :
    (takeLatched s r).com.packets = s.com.packets := rfl
@[simp] theorem triggerLater_pending (s : State) (t : Trigger) :
    (triggerLater s t).pending = s.pending := rfl
@[simp] theorem triggerLater_freeCtr (s : State) (t : Trigger) :
    (triggerLater s t).freeCtr = s.freeCtr := rfl
@[simp] theorem triggerLater_fuse (s : State) (t : Trigger) :
    (triggerLater s t).fuse = s.fuse := rfl
@[simp] theorem triggerLater_flash (s : State) (t : Trigger) :
    (triggerLater s t).flash = s.flash := rfl
@[simp] theorem triggerLater_p (s : State) (t : Trigger) :
    (triggerLater s t).p = s.p := rfl
@[simp] theorem triggerLater_nv (s : State) (t : Trigger) :
    (triggerLater s t).nv = s.nv := rfl
@[simp] theorem triggerLater_bk (s : State) (t : Trigger) :
    (triggerLater s t).bk = s.bk := rfl
@[simp] theorem triggerLater_clk (s : State) (t : Trigger) :
    (triggerLater s t).clk = s.clk := rfl
@[simp] theorem triggerLater_cores (s : State) (t : Trigger) :
    (triggerLater s t).cores = s.cores := rfl
@[simp] theorem triggerLater_supply (s : State) (t : Trigger) :
    (triggerLater s t).supply = s.supply := rfl
@[simp] theorem triggerLater_edtor (s : State) (t : Trigger) :
    (triggerLater s t).edtor = s.edtor := rfl
@[simp] theorem triggerLater_com (s : State) (t : Trigger) :
    (triggerLater s t).com = s.com := rfl
@[simp] theorem triggerLater_queues (s : State) (t : Trigger) :
    (triggerLater s t).queues = s.queues := rfl
@[simp] theorem triggerLater_time (s : State) (t : Trigger) :
    (triggerLater s t).time = s.time := rfl
@[simp] theorem triggerLater_gnss (s : State) (t : Trigger) :
    (triggerLater s t).gnss = s.gnss := rfl
@[simp] theorem triggerLater_ref (s : State) (t : Trigger) :
    (triggerLater s t).ref = s.ref := rfl
@[simp] theorem triggerLater_buoy (s : State) (t : Trigger) :
    (triggerLater s t).buoy = s.buoy := rfl
@[simp] theorem triggerLater_sess (s : State) (t : Trigger) :
    (triggerLater s t).sess = s.sess := rfl
@[simp] theorem triggerLater_strt (s : State) (t : Trigger) :
    (triggerLater s t).strt = s.strt := rfl
@[simp] theorem triggerLater_holds (s : State) (t : Trigger) :
    (triggerLater s t).holds = s.holds := rfl
@[simp] theorem triggerLater_allot (s : State) (t : Trigger) :
    (triggerLater s t).allot = s.allot := rfl
@[simp] theorem triggerLater_stop (s : State) (t : Trigger) :
    (triggerLater s t).stop = s.stop := rfl
@[simp] theorem triggerLater_radio (s : State) (t : Trigger) :
    (triggerLater s t).radio = s.radio := rfl
@[simp] theorem triggerLater_can (s : State) (t : Trigger) :
    (triggerLater s t).can = s.can := rfl
@[simp] theorem triggerLater_ports (s : State) (t : Trigger) :
    (triggerLater s t).ports = s.ports := rfl
@[simp] theorem triggerLater_sec (s : State) (t : Trigger) :
    (triggerLater s t).sec = s.sec := rfl
@[simp] theorem triggerLater_upd (s : State) (t : Trigger) :
    (triggerLater s t).upd = s.upd := rfl
@[simp] theorem setQueue_pending (s : State) (q : Nat) (k : SpillQueue) :
    (setQueue s q k).pending = s.pending := rfl
@[simp] theorem setQueue_freeCtr (s : State) (q : Nat) (k : SpillQueue) :
    (setQueue s q k).freeCtr = s.freeCtr := rfl
@[simp] theorem setQueue_fuse (s : State) (q : Nat) (k : SpillQueue) :
    (setQueue s q k).fuse = s.fuse := rfl
@[simp] theorem setQueue_flash (s : State) (q : Nat) (k : SpillQueue) :
    (setQueue s q k).flash = s.flash := rfl
@[simp] theorem setQueue_p (s : State) (q : Nat) (k : SpillQueue) :
    (setQueue s q k).p = s.p := rfl
@[simp] theorem setQueue_nv (s : State) (q : Nat) (k : SpillQueue) :
    (setQueue s q k).nv = s.nv := rfl
@[simp] theorem setQueue_bk (s : State) (q : Nat) (k : SpillQueue) :
    (setQueue s q k).bk = s.bk := rfl
@[simp] theorem setQueue_clk (s : State) (q : Nat) (k : SpillQueue) :
    (setQueue s q k).clk = s.clk := rfl
@[simp] theorem setQueue_cores (s : State) (q : Nat) (k : SpillQueue) :
    (setQueue s q k).cores = s.cores := rfl
@[simp] theorem setQueue_mode (s : State) (q : Nat) (k : SpillQueue) :
    (setQueue s q k).mode = s.mode := rfl
@[simp] theorem setQueue_supply (s : State) (q : Nat) (k : SpillQueue) :
    (setQueue s q k).supply = s.supply := rfl
@[simp] theorem setQueue_edtor (s : State) (q : Nat) (k : SpillQueue) :
    (setQueue s q k).edtor = s.edtor := rfl
@[simp] theorem setQueue_com (s : State) (q : Nat) (k : SpillQueue) :
    (setQueue s q k).com = s.com := rfl
@[simp] theorem setQueue_time (s : State) (q : Nat) (k : SpillQueue) :
    (setQueue s q k).time = s.time := rfl
@[simp] theorem setQueue_gnss (s : State) (q : Nat) (k : SpillQueue) :
    (setQueue s q k).gnss = s.gnss := rfl
@[simp] theorem setQueue_ref (s : State) (q : Nat) (k : SpillQueue) :
    (setQueue s q k).ref = s.ref := rfl
@[simp] theorem setQueue_buoy (s : State) (q : Nat) (k : SpillQueue) :
    (setQueue s q k).buoy = s.buoy := rfl
@[simp] theorem setQueue_sess (s : State) (q : Nat) (k : SpillQueue) :
    (setQueue s q k).sess = s.sess := rfl
@[simp] theorem setQueue_strt (s : State) (q : Nat) (k : SpillQueue) :
    (setQueue s q k).strt = s.strt := rfl
@[simp] theorem setQueue_holds (s : State) (q : Nat) (k : SpillQueue) :
    (setQueue s q k).holds = s.holds := rfl
@[simp] theorem setQueue_allot (s : State) (q : Nat) (k : SpillQueue) :
    (setQueue s q k).allot = s.allot := rfl
@[simp] theorem setQueue_stop (s : State) (q : Nat) (k : SpillQueue) :
    (setQueue s q k).stop = s.stop := rfl
@[simp] theorem setQueue_radio (s : State) (q : Nat) (k : SpillQueue) :
    (setQueue s q k).radio = s.radio := rfl
@[simp] theorem setQueue_can (s : State) (q : Nat) (k : SpillQueue) :
    (setQueue s q k).can = s.can := rfl
@[simp] theorem setQueue_ports (s : State) (q : Nat) (k : SpillQueue) :
    (setQueue s q k).ports = s.ports := rfl
@[simp] theorem setQueue_sec (s : State) (q : Nat) (k : SpillQueue) :
    (setQueue s q k).sec = s.sec := rfl
@[simp] theorem setQueue_upd (s : State) (q : Nat) (k : SpillQueue) :
    (setQueue s q k).upd = s.upd := rfl
@[simp] theorem modIo_pending (s : State) (io : Nat) (f : AuxLive → AuxLive) :
    (modIo s io f).pending = s.pending := rfl
@[simp] theorem modIo_freeCtr (s : State) (io : Nat) (f : AuxLive → AuxLive) :
    (modIo s io f).freeCtr = s.freeCtr := rfl
@[simp] theorem modIo_fuse (s : State) (io : Nat) (f : AuxLive → AuxLive) :
    (modIo s io f).fuse = s.fuse := rfl
@[simp] theorem modIo_flash (s : State) (io : Nat) (f : AuxLive → AuxLive) :
    (modIo s io f).flash = s.flash := rfl
@[simp] theorem modIo_p (s : State) (io : Nat) (f : AuxLive → AuxLive) :
    (modIo s io f).p = s.p := rfl
@[simp] theorem modIo_nv (s : State) (io : Nat) (f : AuxLive → AuxLive) :
    (modIo s io f).nv = s.nv := rfl
@[simp] theorem modIo_bk (s : State) (io : Nat) (f : AuxLive → AuxLive) :
    (modIo s io f).bk = s.bk := rfl
@[simp] theorem modIo_clk (s : State) (io : Nat) (f : AuxLive → AuxLive) :
    (modIo s io f).clk = s.clk := rfl
@[simp] theorem modIo_cores (s : State) (io : Nat) (f : AuxLive → AuxLive) :
    (modIo s io f).cores = s.cores := rfl
@[simp] theorem modIo_mode (s : State) (io : Nat) (f : AuxLive → AuxLive) :
    (modIo s io f).mode = s.mode := rfl
@[simp] theorem modIo_supply (s : State) (io : Nat) (f : AuxLive → AuxLive) :
    (modIo s io f).supply = s.supply := rfl
@[simp] theorem modIo_edtor (s : State) (io : Nat) (f : AuxLive → AuxLive) :
    (modIo s io f).edtor = s.edtor := rfl
@[simp] theorem modIo_com (s : State) (io : Nat) (f : AuxLive → AuxLive) :
    (modIo s io f).com = s.com := rfl
@[simp] theorem modIo_queues (s : State) (io : Nat) (f : AuxLive → AuxLive) :
    (modIo s io f).queues = s.queues := rfl
@[simp] theorem modIo_time (s : State) (io : Nat) (f : AuxLive → AuxLive) :
    (modIo s io f).time = s.time := rfl
@[simp] theorem modIo_gnss (s : State) (io : Nat) (f : AuxLive → AuxLive) :
    (modIo s io f).gnss = s.gnss := rfl
@[simp] theorem modIo_ref (s : State) (io : Nat) (f : AuxLive → AuxLive) :
    (modIo s io f).ref = s.ref := rfl
@[simp] theorem modIo_buoy (s : State) (io : Nat) (f : AuxLive → AuxLive) :
    (modIo s io f).buoy = s.buoy := rfl
@[simp] theorem modIo_sess (s : State) (io : Nat) (f : AuxLive → AuxLive) :
    (modIo s io f).sess = s.sess := rfl
@[simp] theorem modIo_strt (s : State) (io : Nat) (f : AuxLive → AuxLive) :
    (modIo s io f).strt = s.strt := rfl
@[simp] theorem modIo_holds (s : State) (io : Nat) (f : AuxLive → AuxLive) :
    (modIo s io f).holds = s.holds := rfl
@[simp] theorem modIo_allot (s : State) (io : Nat) (f : AuxLive → AuxLive) :
    (modIo s io f).allot = s.allot := rfl
@[simp] theorem modIo_stop (s : State) (io : Nat) (f : AuxLive → AuxLive) :
    (modIo s io f).stop = s.stop := rfl
@[simp] theorem modIo_radio (s : State) (io : Nat) (f : AuxLive → AuxLive) :
    (modIo s io f).radio = s.radio := rfl
@[simp] theorem modIo_can (s : State) (io : Nat) (f : AuxLive → AuxLive) :
    (modIo s io f).can = s.can := rfl
@[simp] theorem modIo_sec (s : State) (io : Nat) (f : AuxLive → AuxLive) :
    (modIo s io f).sec = s.sec := rfl
@[simp] theorem modIo_upd (s : State) (io : Nat) (f : AuxLive → AuxLive) :
    (modIo s io f).upd = s.upd := rfl
@[simp] theorem modReq_pending (s : State) (i : Nat) (f : PathReq → PathReq) :
    (modReq s i f).pending = s.pending := rfl
@[simp] theorem modReq_freeCtr (s : State) (i : Nat) (f : PathReq → PathReq) :
    (modReq s i f).freeCtr = s.freeCtr := rfl
@[simp] theorem modReq_fuse (s : State) (i : Nat) (f : PathReq → PathReq) :
    (modReq s i f).fuse = s.fuse := rfl
@[simp] theorem modReq_flash (s : State) (i : Nat) (f : PathReq → PathReq) :
    (modReq s i f).flash = s.flash := rfl
@[simp] theorem modReq_p (s : State) (i : Nat) (f : PathReq → PathReq) :
    (modReq s i f).p = s.p := rfl
@[simp] theorem modReq_nv (s : State) (i : Nat) (f : PathReq → PathReq) :
    (modReq s i f).nv = s.nv := rfl
@[simp] theorem modReq_bk (s : State) (i : Nat) (f : PathReq → PathReq) :
    (modReq s i f).bk = s.bk := rfl
@[simp] theorem modReq_clk (s : State) (i : Nat) (f : PathReq → PathReq) :
    (modReq s i f).clk = s.clk := rfl
@[simp] theorem modReq_cores (s : State) (i : Nat) (f : PathReq → PathReq) :
    (modReq s i f).cores = s.cores := rfl
@[simp] theorem modReq_mode (s : State) (i : Nat) (f : PathReq → PathReq) :
    (modReq s i f).mode = s.mode := rfl
@[simp] theorem modReq_supply (s : State) (i : Nat) (f : PathReq → PathReq) :
    (modReq s i f).supply = s.supply := rfl
@[simp] theorem modReq_edtor (s : State) (i : Nat) (f : PathReq → PathReq) :
    (modReq s i f).edtor = s.edtor := rfl
@[simp] theorem modReq_com (s : State) (i : Nat) (f : PathReq → PathReq) :
    (modReq s i f).com = s.com := rfl
@[simp] theorem modReq_queues (s : State) (i : Nat) (f : PathReq → PathReq) :
    (modReq s i f).queues = s.queues := rfl
@[simp] theorem modReq_time (s : State) (i : Nat) (f : PathReq → PathReq) :
    (modReq s i f).time = s.time := rfl
@[simp] theorem modReq_gnss (s : State) (i : Nat) (f : PathReq → PathReq) :
    (modReq s i f).gnss = s.gnss := rfl
@[simp] theorem modReq_ref (s : State) (i : Nat) (f : PathReq → PathReq) :
    (modReq s i f).ref = s.ref := rfl
@[simp] theorem modReq_buoy (s : State) (i : Nat) (f : PathReq → PathReq) :
    (modReq s i f).buoy = s.buoy := rfl
@[simp] theorem modReq_sess (s : State) (i : Nat) (f : PathReq → PathReq) :
    (modReq s i f).sess = s.sess := rfl
@[simp] theorem modReq_strt (s : State) (i : Nat) (f : PathReq → PathReq) :
    (modReq s i f).strt = s.strt := rfl
@[simp] theorem modReq_holds (s : State) (i : Nat) (f : PathReq → PathReq) :
    (modReq s i f).holds = s.holds := rfl
@[simp] theorem modReq_stop (s : State) (i : Nat) (f : PathReq → PathReq) :
    (modReq s i f).stop = s.stop := rfl
@[simp] theorem modReq_radio (s : State) (i : Nat) (f : PathReq → PathReq) :
    (modReq s i f).radio = s.radio := rfl
@[simp] theorem modReq_can (s : State) (i : Nat) (f : PathReq → PathReq) :
    (modReq s i f).can = s.can := rfl
@[simp] theorem modReq_ports (s : State) (i : Nat) (f : PathReq → PathReq) :
    (modReq s i f).ports = s.ports := rfl
@[simp] theorem modReq_sec (s : State) (i : Nat) (f : PathReq → PathReq) :
    (modReq s i f).sec = s.sec := rfl
@[simp] theorem modReq_upd (s : State) (i : Nat) (f : PathReq → PathReq) :
    (modReq s i f).upd = s.upd := rfl
@[simp] theorem modAnchor_pending (s : State) (l : Nat) (f : AnchorLive → AnchorLive) :
    (modAnchor s l f).pending = s.pending := rfl
@[simp] theorem modAnchor_freeCtr (s : State) (l : Nat) (f : AnchorLive → AnchorLive) :
    (modAnchor s l f).freeCtr = s.freeCtr := rfl
@[simp] theorem modAnchor_fuse (s : State) (l : Nat) (f : AnchorLive → AnchorLive) :
    (modAnchor s l f).fuse = s.fuse := rfl
@[simp] theorem modAnchor_flash (s : State) (l : Nat) (f : AnchorLive → AnchorLive) :
    (modAnchor s l f).flash = s.flash := rfl
@[simp] theorem modAnchor_p (s : State) (l : Nat) (f : AnchorLive → AnchorLive) :
    (modAnchor s l f).p = s.p := rfl
@[simp] theorem modAnchor_nv (s : State) (l : Nat) (f : AnchorLive → AnchorLive) :
    (modAnchor s l f).nv = s.nv := rfl
@[simp] theorem modAnchor_bk (s : State) (l : Nat) (f : AnchorLive → AnchorLive) :
    (modAnchor s l f).bk = s.bk := rfl
@[simp] theorem modAnchor_clk (s : State) (l : Nat) (f : AnchorLive → AnchorLive) :
    (modAnchor s l f).clk = s.clk := rfl
@[simp] theorem modAnchor_cores (s : State) (l : Nat) (f : AnchorLive → AnchorLive) :
    (modAnchor s l f).cores = s.cores := rfl
@[simp] theorem modAnchor_mode (s : State) (l : Nat) (f : AnchorLive → AnchorLive) :
    (modAnchor s l f).mode = s.mode := rfl
@[simp] theorem modAnchor_supply (s : State) (l : Nat) (f : AnchorLive → AnchorLive) :
    (modAnchor s l f).supply = s.supply := rfl
@[simp] theorem modAnchor_edtor (s : State) (l : Nat) (f : AnchorLive → AnchorLive) :
    (modAnchor s l f).edtor = s.edtor := rfl
@[simp] theorem modAnchor_com (s : State) (l : Nat) (f : AnchorLive → AnchorLive) :
    (modAnchor s l f).com = s.com := rfl
@[simp] theorem modAnchor_queues (s : State) (l : Nat) (f : AnchorLive → AnchorLive) :
    (modAnchor s l f).queues = s.queues := rfl
@[simp] theorem modAnchor_time (s : State) (l : Nat) (f : AnchorLive → AnchorLive) :
    (modAnchor s l f).time = s.time := rfl
@[simp] theorem modAnchor_gnss (s : State) (l : Nat) (f : AnchorLive → AnchorLive) :
    (modAnchor s l f).gnss = s.gnss := rfl
@[simp] theorem modAnchor_ref (s : State) (l : Nat) (f : AnchorLive → AnchorLive) :
    (modAnchor s l f).ref = s.ref := rfl
@[simp] theorem modAnchor_sess (s : State) (l : Nat) (f : AnchorLive → AnchorLive) :
    (modAnchor s l f).sess = s.sess := rfl
@[simp] theorem modAnchor_strt (s : State) (l : Nat) (f : AnchorLive → AnchorLive) :
    (modAnchor s l f).strt = s.strt := rfl
@[simp] theorem modAnchor_holds (s : State) (l : Nat) (f : AnchorLive → AnchorLive) :
    (modAnchor s l f).holds = s.holds := rfl
@[simp] theorem modAnchor_allot (s : State) (l : Nat) (f : AnchorLive → AnchorLive) :
    (modAnchor s l f).allot = s.allot := rfl
@[simp] theorem modAnchor_stop (s : State) (l : Nat) (f : AnchorLive → AnchorLive) :
    (modAnchor s l f).stop = s.stop := rfl
@[simp] theorem modAnchor_radio (s : State) (l : Nat) (f : AnchorLive → AnchorLive) :
    (modAnchor s l f).radio = s.radio := rfl
@[simp] theorem modAnchor_can (s : State) (l : Nat) (f : AnchorLive → AnchorLive) :
    (modAnchor s l f).can = s.can := rfl
@[simp] theorem modAnchor_ports (s : State) (l : Nat) (f : AnchorLive → AnchorLive) :
    (modAnchor s l f).ports = s.ports := rfl
@[simp] theorem modAnchor_sec (s : State) (l : Nat) (f : AnchorLive → AnchorLive) :
    (modAnchor s l f).sec = s.sec := rfl
@[simp] theorem modAnchor_upd (s : State) (l : Nat) (f : AnchorLive → AnchorLive) :
    (modAnchor s l f).upd = s.upd := rfl
@[simp] theorem modCan_pending (s : State) (ch : Nat) (f : CanChan → CanChan) :
    (modCan s ch f).pending = s.pending := rfl
@[simp] theorem modCan_freeCtr (s : State) (ch : Nat) (f : CanChan → CanChan) :
    (modCan s ch f).freeCtr = s.freeCtr := rfl
@[simp] theorem modCan_fuse (s : State) (ch : Nat) (f : CanChan → CanChan) :
    (modCan s ch f).fuse = s.fuse := rfl
@[simp] theorem modCan_flash (s : State) (ch : Nat) (f : CanChan → CanChan) :
    (modCan s ch f).flash = s.flash := rfl
@[simp] theorem modCan_p (s : State) (ch : Nat) (f : CanChan → CanChan) :
    (modCan s ch f).p = s.p := rfl
@[simp] theorem modCan_nv (s : State) (ch : Nat) (f : CanChan → CanChan) :
    (modCan s ch f).nv = s.nv := rfl
@[simp] theorem modCan_bk (s : State) (ch : Nat) (f : CanChan → CanChan) :
    (modCan s ch f).bk = s.bk := rfl
@[simp] theorem modCan_clk (s : State) (ch : Nat) (f : CanChan → CanChan) :
    (modCan s ch f).clk = s.clk := rfl
@[simp] theorem modCan_cores (s : State) (ch : Nat) (f : CanChan → CanChan) :
    (modCan s ch f).cores = s.cores := rfl
@[simp] theorem modCan_mode (s : State) (ch : Nat) (f : CanChan → CanChan) :
    (modCan s ch f).mode = s.mode := rfl
@[simp] theorem modCan_supply (s : State) (ch : Nat) (f : CanChan → CanChan) :
    (modCan s ch f).supply = s.supply := rfl
@[simp] theorem modCan_edtor (s : State) (ch : Nat) (f : CanChan → CanChan) :
    (modCan s ch f).edtor = s.edtor := rfl
@[simp] theorem modCan_com (s : State) (ch : Nat) (f : CanChan → CanChan) :
    (modCan s ch f).com = s.com := rfl
@[simp] theorem modCan_queues (s : State) (ch : Nat) (f : CanChan → CanChan) :
    (modCan s ch f).queues = s.queues := rfl
@[simp] theorem modCan_time (s : State) (ch : Nat) (f : CanChan → CanChan) :
    (modCan s ch f).time = s.time := rfl
@[simp] theorem modCan_gnss (s : State) (ch : Nat) (f : CanChan → CanChan) :
    (modCan s ch f).gnss = s.gnss := rfl
@[simp] theorem modCan_ref (s : State) (ch : Nat) (f : CanChan → CanChan) :
    (modCan s ch f).ref = s.ref := rfl
@[simp] theorem modCan_buoy (s : State) (ch : Nat) (f : CanChan → CanChan) :
    (modCan s ch f).buoy = s.buoy := rfl
@[simp] theorem modCan_sess (s : State) (ch : Nat) (f : CanChan → CanChan) :
    (modCan s ch f).sess = s.sess := rfl
@[simp] theorem modCan_strt (s : State) (ch : Nat) (f : CanChan → CanChan) :
    (modCan s ch f).strt = s.strt := rfl
@[simp] theorem modCan_holds (s : State) (ch : Nat) (f : CanChan → CanChan) :
    (modCan s ch f).holds = s.holds := rfl
@[simp] theorem modCan_allot (s : State) (ch : Nat) (f : CanChan → CanChan) :
    (modCan s ch f).allot = s.allot := rfl
@[simp] theorem modCan_stop (s : State) (ch : Nat) (f : CanChan → CanChan) :
    (modCan s ch f).stop = s.stop := rfl
@[simp] theorem modCan_radio (s : State) (ch : Nat) (f : CanChan → CanChan) :
    (modCan s ch f).radio = s.radio := rfl
@[simp] theorem modCan_ports (s : State) (ch : Nat) (f : CanChan → CanChan) :
    (modCan s ch f).ports = s.ports := rfl
@[simp] theorem modCan_sec (s : State) (ch : Nat) (f : CanChan → CanChan) :
    (modCan s ch f).sec = s.sec := rfl
@[simp] theorem modCan_upd (s : State) (ch : Nat) (f : CanChan → CanChan) :
    (modCan s ch f).upd = s.upd := rfl
@[simp] theorem modCanSet_pending (s : State) (ch : Nat) (f : CanPersist → CanPersist) :
    (modCanSet s ch f).pending = s.pending := rfl
@[simp] theorem modCanSet_freeCtr (s : State) (ch : Nat) (f : CanPersist → CanPersist) :
    (modCanSet s ch f).freeCtr = s.freeCtr := rfl
@[simp] theorem modCanSet_fuse (s : State) (ch : Nat) (f : CanPersist → CanPersist) :
    (modCanSet s ch f).fuse = s.fuse := rfl
@[simp] theorem modCanSet_flash (s : State) (ch : Nat) (f : CanPersist → CanPersist) :
    (modCanSet s ch f).flash = s.flash := rfl
@[simp] theorem modCanSet_nv (s : State) (ch : Nat) (f : CanPersist → CanPersist) :
    (modCanSet s ch f).nv = s.nv := rfl
@[simp] theorem modCanSet_bk (s : State) (ch : Nat) (f : CanPersist → CanPersist) :
    (modCanSet s ch f).bk = s.bk := rfl
@[simp] theorem modCanSet_clk (s : State) (ch : Nat) (f : CanPersist → CanPersist) :
    (modCanSet s ch f).clk = s.clk := rfl
@[simp] theorem modCanSet_cores (s : State) (ch : Nat) (f : CanPersist → CanPersist) :
    (modCanSet s ch f).cores = s.cores := rfl
@[simp] theorem modCanSet_mode (s : State) (ch : Nat) (f : CanPersist → CanPersist) :
    (modCanSet s ch f).mode = s.mode := rfl
@[simp] theorem modCanSet_supply (s : State) (ch : Nat) (f : CanPersist → CanPersist) :
    (modCanSet s ch f).supply = s.supply := rfl
@[simp] theorem modCanSet_edtor (s : State) (ch : Nat) (f : CanPersist → CanPersist) :
    (modCanSet s ch f).edtor = s.edtor := rfl
@[simp] theorem modCanSet_com (s : State) (ch : Nat) (f : CanPersist → CanPersist) :
    (modCanSet s ch f).com = s.com := rfl
@[simp] theorem modCanSet_queues (s : State) (ch : Nat) (f : CanPersist → CanPersist) :
    (modCanSet s ch f).queues = s.queues := rfl
@[simp] theorem modCanSet_time (s : State) (ch : Nat) (f : CanPersist → CanPersist) :
    (modCanSet s ch f).time = s.time := rfl
@[simp] theorem modCanSet_gnss (s : State) (ch : Nat) (f : CanPersist → CanPersist) :
    (modCanSet s ch f).gnss = s.gnss := rfl
@[simp] theorem modCanSet_ref (s : State) (ch : Nat) (f : CanPersist → CanPersist) :
    (modCanSet s ch f).ref = s.ref := rfl
@[simp] theorem modCanSet_buoy (s : State) (ch : Nat) (f : CanPersist → CanPersist) :
    (modCanSet s ch f).buoy = s.buoy := rfl
@[simp] theorem modCanSet_sess (s : State) (ch : Nat) (f : CanPersist → CanPersist) :
    (modCanSet s ch f).sess = s.sess := rfl
@[simp] theorem modCanSet_strt (s : State) (ch : Nat) (f : CanPersist → CanPersist) :
    (modCanSet s ch f).strt = s.strt := rfl
@[simp] theorem modCanSet_holds (s : State) (ch : Nat) (f : CanPersist → CanPersist) :
    (modCanSet s ch f).holds = s.holds := rfl
@[simp] theorem modCanSet_allot (s : State) (ch : Nat) (f : CanPersist → CanPersist) :
    (modCanSet s ch f).allot = s.allot := rfl
@[simp] theorem modCanSet_stop (s : State) (ch : Nat) (f : CanPersist → CanPersist) :
    (modCanSet s ch f).stop = s.stop := rfl
@[simp] theorem modCanSet_radio (s : State) (ch : Nat) (f : CanPersist → CanPersist) :
    (modCanSet s ch f).radio = s.radio := rfl
@[simp] theorem modCanSet_can (s : State) (ch : Nat) (f : CanPersist → CanPersist) :
    (modCanSet s ch f).can = s.can := rfl
@[simp] theorem modCanSet_ports (s : State) (ch : Nat) (f : CanPersist → CanPersist) :
    (modCanSet s ch f).ports = s.ports := rfl
@[simp] theorem modCanSet_sec (s : State) (ch : Nat) (f : CanPersist → CanPersist) :
    (modCanSet s ch f).sec = s.sec := rfl
@[simp] theorem modCanSet_upd (s : State) (ch : Nat) (f : CanPersist → CanPersist) :
    (modCanSet s ch f).upd = s.upd := rfl
@[simp] theorem modCanSet_p_control (s : State) (ch : Nat) (f : CanPersist → CanPersist) :
    (modCanSet s ch f).p.control = s.p.control := rfl
@[simp] theorem modCanSet_p_power (s : State) (ch : Nat) (f : CanPersist → CanPersist) :
    (modCanSet s ch f).p.power = s.p.power := rfl
@[simp] theorem modCanSet_p_timeCfg (s : State) (ch : Nat) (f : CanPersist → CanPersist) :
    (modCanSet s ch f).p.timeCfg = s.p.timeCfg := rfl
@[simp] theorem modCanSet_p_timeRec (s : State) (ch : Nat) (f : CanPersist → CanPersist) :
    (modCanSet s ch f).p.timeRec = s.p.timeRec := rfl
@[simp] theorem modCanSet_p_gnssCfg (s : State) (ch : Nat) (f : CanPersist → CanPersist) :
    (modCanSet s ch f).p.gnssCfg = s.p.gnssCfg := rfl
@[simp] theorem modCanSet_p_refCfg (s : State) (ch : Nat) (f : CanPersist → CanPersist) :
    (modCanSet s ch f).p.refCfg = s.p.refCfg := rfl
@[simp] theorem modCanSet_p_refFrame (s : State) (ch : Nat) (f : CanPersist → CanPersist) :
    (modCanSet s ch f).p.refFrame = s.p.refFrame := rfl
@[simp] theorem modCanSet_p_buoyCfg (s : State) (ch : Nat) (f : CanPersist → CanPersist) :
    (modCanSet s ch f).p.buoyCfg = s.p.buoyCfg := rfl
@[simp] theorem modCanSet_p_anchors (s : State) (ch : Nat) (f : CanPersist → CanPersist) :
    (modCanSet s ch f).p.anchors = s.p.anchors := rfl
@[simp] theorem modCanSet_p_zones (s : State) (ch : Nat) (f : CanPersist → CanPersist) :
    (modCanSet s ch f).p.zones = s.p.zones := rfl
@[simp] theorem modCanSet_p_zoneRev (s : State) (ch : Nat) (f : CanPersist → CanPersist) :
    (modCanSet s ch f).p.zoneRev = s.p.zoneRev := rfl
@[simp] theorem modCanSet_p_zoneEffect (s : State) (ch : Nat) (f : CanPersist → CanPersist) :
    (modCanSet s ch f).p.zoneEffect = s.p.zoneEffect := rfl
@[simp] theorem modCanSet_p_classes (s : State) (ch : Nat) (f : CanPersist → CanPersist) :
    (modCanSet s ch f).p.classes = s.p.classes := rfl
@[simp] theorem modCanSet_p_robots (s : State) (ch : Nat) (f : CanPersist → CanPersist) :
    (modCanSet s ch f).p.robots = s.p.robots := rfl
@[simp] theorem modCanSet_p_sessCfg (s : State) (ch : Nat) (f : CanPersist → CanPersist) :
    (modCanSet s ch f).p.sessCfg = s.p.sessCfg := rfl
@[simp] theorem modCanSet_p_grid (s : State) (ch : Nat) (f : CanPersist → CanPersist) :
    (modCanSet s ch f).p.grid = s.p.grid := rfl
@[simp] theorem modCanSet_p_holds (s : State) (ch : Nat) (f : CanPersist → CanPersist) :
    (modCanSet s ch f).p.holds = s.p.holds := rfl
@[simp] theorem modCanSet_p_tasks (s : State) (ch : Nat) (f : CanPersist → CanPersist) :
    (modCanSet s ch f).p.tasks = s.p.tasks := rfl
@[simp] theorem modCanSet_p_taskCfg (s : State) (ch : Nat) (f : CanPersist → CanPersist) :
    (modCanSet s ch f).p.taskCfg = s.p.taskCfg := rfl
@[simp] theorem modCanSet_p_stopCfg (s : State) (ch : Nat) (f : CanPersist → CanPersist) :
    (modCanSet s ch f).p.stopCfg = s.p.stopCfg := rfl
@[simp] theorem modCanSet_p_radio (s : State) (ch : Nat) (f : CanPersist → CanPersist) :
    (modCanSet s ch f).p.radio = s.p.radio := rfl
@[simp] theorem modCanSet_p_net (s : State) (ch : Nat) (f : CanPersist → CanPersist) :
    (modCanSet s ch f).p.net = s.p.net := rfl
@[simp] theorem modCanSet_p_aux (s : State) (ch : Nat) (f : CanPersist → CanPersist) :
    (modCanSet s ch f).p.aux = s.p.aux := rfl
@[simp] theorem modCanSet_p_keys (s : State) (ch : Nat) (f : CanPersist → CanPersist) :
    (modCanSet s ch f).p.keys = s.p.keys := rfl
@[simp] theorem modCanSet_p_upd (s : State) (ch : Nat) (f : CanPersist → CanPersist) :
    (modCanSet s ch f).p.upd = s.p.upd := rfl
@[simp] theorem modCanSet_p_diag (s : State) (ch : Nat) (f : CanPersist → CanPersist) :
    (modCanSet s ch f).p.diag = s.p.diag := rfl
@[simp] theorem modCanSet_p_queueCfg (s : State) (ch : Nat) (f : CanPersist → CanPersist) :
    (modCanSet s ch f).p.queueCfg = s.p.queueCfg := rfl
@[simp] theorem modCanSet_p_unreadable (s : State) (ch : Nat) (f : CanPersist → CanPersist) :
    (modCanSet s ch f).p.unreadable = s.p.unreadable := rfl
@[simp] theorem cacheKey_pending (s : State) (entry gen : Nat) :
    (cacheKey s entry gen).pending = s.pending := rfl
@[simp] theorem cacheKey_freeCtr (s : State) (entry gen : Nat) :
    (cacheKey s entry gen).freeCtr = s.freeCtr := rfl
@[simp] theorem cacheKey_fuse (s : State) (entry gen : Nat) :
    (cacheKey s entry gen).fuse = s.fuse := rfl
@[simp] theorem cacheKey_flash (s : State) (entry gen : Nat) :
    (cacheKey s entry gen).flash = s.flash := rfl
@[simp] theorem cacheKey_p (s : State) (entry gen : Nat) :
    (cacheKey s entry gen).p = s.p := rfl
@[simp] theorem cacheKey_nv (s : State) (entry gen : Nat) :
    (cacheKey s entry gen).nv = s.nv := rfl
@[simp] theorem cacheKey_clk (s : State) (entry gen : Nat) :
    (cacheKey s entry gen).clk = s.clk := rfl
@[simp] theorem cacheKey_cores (s : State) (entry gen : Nat) :
    (cacheKey s entry gen).cores = s.cores := rfl
@[simp] theorem cacheKey_mode (s : State) (entry gen : Nat) :
    (cacheKey s entry gen).mode = s.mode := rfl
@[simp] theorem cacheKey_supply (s : State) (entry gen : Nat) :
    (cacheKey s entry gen).supply = s.supply := rfl
@[simp] theorem cacheKey_edtor (s : State) (entry gen : Nat) :
    (cacheKey s entry gen).edtor = s.edtor := rfl
@[simp] theorem cacheKey_com (s : State) (entry gen : Nat) :
    (cacheKey s entry gen).com = s.com := rfl
@[simp] theorem cacheKey_queues (s : State) (entry gen : Nat) :
    (cacheKey s entry gen).queues = s.queues := rfl
@[simp] theorem cacheKey_time (s : State) (entry gen : Nat) :
    (cacheKey s entry gen).time = s.time := rfl
@[simp] theorem cacheKey_gnss (s : State) (entry gen : Nat) :
    (cacheKey s entry gen).gnss = s.gnss := rfl
@[simp] theorem cacheKey_ref (s : State) (entry gen : Nat) :
    (cacheKey s entry gen).ref = s.ref := rfl
@[simp] theorem cacheKey_buoy (s : State) (entry gen : Nat) :
    (cacheKey s entry gen).buoy = s.buoy := rfl
@[simp] theorem cacheKey_sess (s : State) (entry gen : Nat) :
    (cacheKey s entry gen).sess = s.sess := rfl
@[simp] theorem cacheKey_strt (s : State) (entry gen : Nat) :
    (cacheKey s entry gen).strt = s.strt := rfl
@[simp] theorem cacheKey_holds (s : State) (entry gen : Nat) :
    (cacheKey s entry gen).holds = s.holds := rfl
@[simp] theorem cacheKey_allot (s : State) (entry gen : Nat) :
    (cacheKey s entry gen).allot = s.allot := rfl
@[simp] theorem cacheKey_stop (s : State) (entry gen : Nat) :
    (cacheKey s entry gen).stop = s.stop := rfl
@[simp] theorem cacheKey_radio (s : State) (entry gen : Nat) :
    (cacheKey s entry gen).radio = s.radio := rfl
@[simp] theorem cacheKey_can (s : State) (entry gen : Nat) :
    (cacheKey s entry gen).can = s.can := rfl
@[simp] theorem cacheKey_ports (s : State) (entry gen : Nat) :
    (cacheKey s entry gen).ports = s.ports := rfl
@[simp] theorem cacheKey_sec (s : State) (entry gen : Nat) :
    (cacheKey s entry gen).sec = s.sec := rfl
@[simp] theorem cacheKey_upd (s : State) (entry gen : Nat) :
    (cacheKey s entry gen).upd = s.upd := rfl
@[simp] theorem modPlan_pending (s : State) (i : Nat) (f : Plan → Plan) :
    (modPlan s i f).pending = s.pending := rfl
@[simp] theorem modPlan_freeCtr (s : State) (i : Nat) (f : Plan → Plan) :
    (modPlan s i f).freeCtr = s.freeCtr := rfl
@[simp] theorem modPlan_fuse (s : State) (i : Nat) (f : Plan → Plan) :
    (modPlan s i f).fuse = s.fuse := rfl
@[simp] theorem modPlan_flash (s : State) (i : Nat) (f : Plan → Plan) :
    (modPlan s i f).flash = s.flash := rfl
@[simp] theorem modPlan_p (s : State) (i : Nat) (f : Plan → Plan) :
    (modPlan s i f).p = s.p := rfl
@[simp] theorem modPlan_nv (s : State) (i : Nat) (f : Plan → Plan) :
    (modPlan s i f).nv = s.nv := rfl
@[simp] theorem modPlan_bk (s : State) (i : Nat) (f : Plan → Plan) :
    (modPlan s i f).bk = s.bk := rfl
@[simp] theorem modPlan_clk (s : State) (i : Nat) (f : Plan → Plan) :
    (modPlan s i f).clk = s.clk := rfl
@[simp] theorem modPlan_cores (s : State) (i : Nat) (f : Plan → Plan) :
    (modPlan s i f).cores = s.cores := rfl
@[simp] theorem modPlan_mode (s : State) (i : Nat) (f : Plan → Plan) :
    (modPlan s i f).mode = s.mode := rfl
@[simp] theorem modPlan_supply (s : State) (i : Nat) (f : Plan → Plan) :
    (modPlan s i f).supply = s.supply := rfl
@[simp] theorem modPlan_edtor (s : State) (i : Nat) (f : Plan → Plan) :
    (modPlan s i f).edtor = s.edtor := rfl
@[simp] theorem modPlan_com (s : State) (i : Nat) (f : Plan → Plan) :
    (modPlan s i f).com = s.com := rfl
@[simp] theorem modPlan_queues (s : State) (i : Nat) (f : Plan → Plan) :
    (modPlan s i f).queues = s.queues := rfl
@[simp] theorem modPlan_time (s : State) (i : Nat) (f : Plan → Plan) :
    (modPlan s i f).time = s.time := rfl
@[simp] theorem modPlan_gnss (s : State) (i : Nat) (f : Plan → Plan) :
    (modPlan s i f).gnss = s.gnss := rfl
@[simp] theorem modPlan_ref (s : State) (i : Nat) (f : Plan → Plan) :
    (modPlan s i f).ref = s.ref := rfl
@[simp] theorem modPlan_buoy (s : State) (i : Nat) (f : Plan → Plan) :
    (modPlan s i f).buoy = s.buoy := rfl
@[simp] theorem modPlan_sess (s : State) (i : Nat) (f : Plan → Plan) :
    (modPlan s i f).sess = s.sess := rfl
@[simp] theorem modPlan_strt (s : State) (i : Nat) (f : Plan → Plan) :
    (modPlan s i f).strt = s.strt := rfl
@[simp] theorem modPlan_holds (s : State) (i : Nat) (f : Plan → Plan) :
    (modPlan s i f).holds = s.holds := rfl
@[simp] theorem modPlan_stop (s : State) (i : Nat) (f : Plan → Plan) :
    (modPlan s i f).stop = s.stop := rfl
@[simp] theorem modPlan_radio (s : State) (i : Nat) (f : Plan → Plan) :
    (modPlan s i f).radio = s.radio := rfl
@[simp] theorem modPlan_can (s : State) (i : Nat) (f : Plan → Plan) :
    (modPlan s i f).can = s.can := rfl
@[simp] theorem modPlan_ports (s : State) (i : Nat) (f : Plan → Plan) :
    (modPlan s i f).ports = s.ports := rfl
@[simp] theorem modPlan_sec (s : State) (i : Nat) (f : Plan → Plan) :
    (modPlan s i f).sec = s.sec := rfl
@[simp] theorem modPlan_upd (s : State) (i : Nat) (f : Plan → Plan) :
    (modPlan s i f).upd = s.upd := rfl
@[simp] theorem modChans_pending (s : State) (f : Channel3 → Channel3) :
    (modChans s f).pending = s.pending := rfl
@[simp] theorem modChans_freeCtr (s : State) (f : Channel3 → Channel3) :
    (modChans s f).freeCtr = s.freeCtr := rfl
@[simp] theorem modChans_fuse (s : State) (f : Channel3 → Channel3) :
    (modChans s f).fuse = s.fuse := rfl
@[simp] theorem modChans_flash (s : State) (f : Channel3 → Channel3) :
    (modChans s f).flash = s.flash := rfl
@[simp] theorem modChans_p (s : State) (f : Channel3 → Channel3) :
    (modChans s f).p = s.p := rfl
@[simp] theorem modChans_nv (s : State) (f : Channel3 → Channel3) :
    (modChans s f).nv = s.nv := rfl
@[simp] theorem modChans_bk (s : State) (f : Channel3 → Channel3) :
    (modChans s f).bk = s.bk := rfl
@[simp] theorem modChans_clk (s : State) (f : Channel3 → Channel3) :
    (modChans s f).clk = s.clk := rfl
@[simp] theorem modChans_cores (s : State) (f : Channel3 → Channel3) :
    (modChans s f).cores = s.cores := rfl
@[simp] theorem modChans_mode (s : State) (f : Channel3 → Channel3) :
    (modChans s f).mode = s.mode := rfl
@[simp] theorem modChans_supply (s : State) (f : Channel3 → Channel3) :
    (modChans s f).supply = s.supply := rfl
@[simp] theorem modChans_edtor (s : State) (f : Channel3 → Channel3) :
    (modChans s f).edtor = s.edtor := rfl
@[simp] theorem modChans_com (s : State) (f : Channel3 → Channel3) :
    (modChans s f).com = s.com := rfl
@[simp] theorem modChans_queues (s : State) (f : Channel3 → Channel3) :
    (modChans s f).queues = s.queues := rfl
@[simp] theorem modChans_time (s : State) (f : Channel3 → Channel3) :
    (modChans s f).time = s.time := rfl
@[simp] theorem modChans_gnss (s : State) (f : Channel3 → Channel3) :
    (modChans s f).gnss = s.gnss := rfl
@[simp] theorem modChans_ref (s : State) (f : Channel3 → Channel3) :
    (modChans s f).ref = s.ref := rfl
@[simp] theorem modChans_buoy (s : State) (f : Channel3 → Channel3) :
    (modChans s f).buoy = s.buoy := rfl
@[simp] theorem modChans_sess (s : State) (f : Channel3 → Channel3) :
    (modChans s f).sess = s.sess := rfl
@[simp] theorem modChans_strt (s : State) (f : Channel3 → Channel3) :
    (modChans s f).strt = s.strt := rfl
@[simp] theorem modChans_holds (s : State) (f : Channel3 → Channel3) :
    (modChans s f).holds = s.holds := rfl
@[simp] theorem modChans_allot (s : State) (f : Channel3 → Channel3) :
    (modChans s f).allot = s.allot := rfl
@[simp] theorem modChans_radio (s : State) (f : Channel3 → Channel3) :
    (modChans s f).radio = s.radio := rfl
@[simp] theorem modChans_can (s : State) (f : Channel3 → Channel3) :
    (modChans s f).can = s.can := rfl
@[simp] theorem modChans_ports (s : State) (f : Channel3 → Channel3) :
    (modChans s f).ports = s.ports := rfl
@[simp] theorem modChans_sec (s : State) (f : Channel3 → Channel3) :
    (modChans s f).sec = s.sec := rfl
@[simp] theorem modChans_upd (s : State) (f : Channel3 → Channel3) :
    (modChans s f).upd = s.upd := rfl
@[simp] theorem modChans_stop_slA (s : State) (f : Channel3 → Channel3) :
    (modChans s f).stop.slA = s.stop.slA := rfl
@[simp] theorem modChans_stop_slB (s : State) (f : Channel3 → Channel3) :
    (modChans s f).stop.slB = s.stop.slB := rfl
@[simp] theorem modChans_stop_lead (s : State) (f : Channel3 → Channel3) :
    (modChans s f).stop.lead = s.stop.lead := rfl
@[simp] theorem modChans_stop_voted (s : State) (f : Channel3 → Channel3) :
    (modChans s f).stop.voted = s.stop.voted := rfl
@[simp] theorem modChans_stop_sw1 (s : State) (f : Channel3 → Channel3) :
    (modChans s f).stop.sw1 = s.stop.sw1 := rfl
@[simp] theorem modChans_stop_sw2 (s : State) (f : Channel3 → Channel3) :
    (modChans s f).stop.sw2 = s.stop.sw2 := rfl
@[simp] theorem modChans_stop_outputFault (s : State) (f : Channel3 → Channel3) :
    (modChans s f).stop.outputFault = s.stop.outputFault := rfl
@[simp] theorem modChans_stop_voterDiff (s : State) (f : Channel3 → Channel3) :
    (modChans s f).stop.voterDiff = s.stop.voterDiff := rfl
@[simp] theorem modChans_stop_requests (s : State) (f : Channel3 → Channel3) :
    (modChans s f).stop.requests = s.stop.requests := rfl
@[simp] theorem modChans_stop_internalCause (s : State) (f : Channel3 → Channel3) :
    (modChans s f).stop.internalCause = s.stop.internalCause := rfl
@[simp] theorem modChans_stop_filter (s : State) (f : Channel3 → Channel3) :
    (modChans s f).stop.filter = s.stop.filter := rfl
@[simp] theorem modChans_stop_filterRecs (s : State) (f : Channel3 → Channel3) :
    (modChans s f).stop.filterRecs = s.stop.filterRecs := rfl
@[simp] theorem modChans_stop_filterReject (s : State) (f : Channel3 → Channel3) :
    (modChans s f).stop.filterReject = s.stop.filterReject := rfl
@[simp] theorem modChans_stop_beaconMisses (s : State) (f : Channel3 → Channel3) :
    (modChans s f).stop.beaconMisses = s.stop.beaconMisses := rfl
@[simp] theorem modChans_stop_beaconOnAir (s : State) (f : Channel3 → Channel3) :
    (modChans s f).stop.beaconOnAir = s.stop.beaconOnAir := rfl
@[simp] theorem modChans_stop_beaconSent (s : State) (f : Channel3 → Channel3) :
    (modChans s f).stop.beaconSent = s.stop.beaconSent := rfl
@[simp] theorem modChans_stop_token (s : State) (f : Channel3 → Channel3) :
    (modChans s f).stop.token = s.stop.token := rfl
@[simp] theorem modChans_stop_stopFrom (s : State) (f : Channel3 → Channel3) :
    (modChans s f).stop.stopFrom = s.stop.stopFrom := rfl
@[simp] theorem modChans_stop_stopTarget (s : State) (f : Channel3 → Channel3) :
    (modChans s f).stop.stopTarget = s.stop.stopTarget := rfl
@[simp] theorem modChans_stop_stopUntil (s : State) (f : Channel3 → Channel3) :
    (modChans s f).stop.stopUntil = s.stop.stopUntil := rfl
@[simp] theorem modChans_stop_stopWas (s : State) (f : Channel3 → Channel3) :
    (modChans s f).stop.stopWas = s.stop.stopWas := rfl
@[simp] theorem modChans_stop_robotCause (s : State) (f : Channel3 → Channel3) :
    (modChans s f).stop.robotCause = s.stop.robotCause := rfl
@[simp] theorem modChans_stop_canStopNext (s : State) (f : Channel3 → Channel3) :
    (modChans s f).stop.canStopNext = s.stop.canStopNext := rfl
@[simp] theorem modChans_stop_canStopDue (s : State) (f : Channel3 → Channel3) :
    (modChans s f).stop.canStopDue = s.stop.canStopDue := rfl
@[simp] theorem modChans_stop_arms (s : State) (f : Channel3 → Channel3) :
    (modChans s f).stop.arms = s.stop.arms := rfl
@[simp] theorem modChans_stop_armIds (s : State) (f : Channel3 → Channel3) :
    (modChans s f).stop.armIds = s.stop.armIds := rfl
@[simp] theorem modChans_stop_release (s : State) (f : Channel3 → Channel3) :
    (modChans s f).stop.release = s.stop.release := rfl
@[simp] theorem modChans_stop_lastStop (s : State) (f : Channel3 → Channel3) :
    (modChans s f).stop.lastStop = s.stop.lastStop := rfl
@[simp] theorem modChans_stop_lastRelease (s : State) (f : Channel3 → Channel3) :
    (modChans s f).stop.lastRelease = s.stop.lastRelease := rfl
@[simp] theorem modChans_stop_voteTime (s : State) (f : Channel3 → Channel3) :
    (modChans s f).stop.voteTime = s.stop.voteTime := rfl
@[simp] theorem modChans_stop_evs (s : State) (f : Channel3 → Channel3) :
    (modChans s f).stop.evs = s.stop.evs := rfl
@[simp] theorem modChans_stop_evsNext (s : State) (f : Channel3 → Channel3) :
    (modChans s f).stop.evsNext = s.stop.evsNext := rfl
@[simp] theorem modChans_stop_readback (s : State) (f : Channel3 → Channel3) :
    (modChans s f).stop.readback = s.stop.readback := rfl
@[simp] theorem modChans_stop_provFc (s : State) (f : Channel3 → Channel3) :
    (modChans s f).stop.provFc = s.stop.provFc := rfl
@[simp] theorem modChans_stop_allDiffer (s : State) (f : Channel3 → Channel3) :
    (modChans s f).stop.allDiffer = s.stop.allDiffer := rfl
@[simp] theorem modSaf_pending (s : State) (c : Nat) (f : Channel3 → Channel3) :
    (modSaf s c f).pending = s.pending := rfl
@[simp] theorem modSaf_freeCtr (s : State) (c : Nat) (f : Channel3 → Channel3) :
    (modSaf s c f).freeCtr = s.freeCtr := rfl
@[simp] theorem modSaf_fuse (s : State) (c : Nat) (f : Channel3 → Channel3) :
    (modSaf s c f).fuse = s.fuse := rfl
@[simp] theorem modSaf_flash (s : State) (c : Nat) (f : Channel3 → Channel3) :
    (modSaf s c f).flash = s.flash := rfl
@[simp] theorem modSaf_p (s : State) (c : Nat) (f : Channel3 → Channel3) :
    (modSaf s c f).p = s.p := rfl
@[simp] theorem modSaf_nv (s : State) (c : Nat) (f : Channel3 → Channel3) :
    (modSaf s c f).nv = s.nv := rfl
@[simp] theorem modSaf_bk (s : State) (c : Nat) (f : Channel3 → Channel3) :
    (modSaf s c f).bk = s.bk := rfl
@[simp] theorem modSaf_clk (s : State) (c : Nat) (f : Channel3 → Channel3) :
    (modSaf s c f).clk = s.clk := rfl
@[simp] theorem modSaf_cores (s : State) (c : Nat) (f : Channel3 → Channel3) :
    (modSaf s c f).cores = s.cores := rfl
@[simp] theorem modSaf_mode (s : State) (c : Nat) (f : Channel3 → Channel3) :
    (modSaf s c f).mode = s.mode := rfl
@[simp] theorem modSaf_supply (s : State) (c : Nat) (f : Channel3 → Channel3) :
    (modSaf s c f).supply = s.supply := rfl
@[simp] theorem modSaf_edtor (s : State) (c : Nat) (f : Channel3 → Channel3) :
    (modSaf s c f).edtor = s.edtor := rfl
@[simp] theorem modSaf_com (s : State) (c : Nat) (f : Channel3 → Channel3) :
    (modSaf s c f).com = s.com := rfl
@[simp] theorem modSaf_queues (s : State) (c : Nat) (f : Channel3 → Channel3) :
    (modSaf s c f).queues = s.queues := rfl
@[simp] theorem modSaf_time (s : State) (c : Nat) (f : Channel3 → Channel3) :
    (modSaf s c f).time = s.time := rfl
@[simp] theorem modSaf_gnss (s : State) (c : Nat) (f : Channel3 → Channel3) :
    (modSaf s c f).gnss = s.gnss := rfl
@[simp] theorem modSaf_ref (s : State) (c : Nat) (f : Channel3 → Channel3) :
    (modSaf s c f).ref = s.ref := rfl
@[simp] theorem modSaf_buoy (s : State) (c : Nat) (f : Channel3 → Channel3) :
    (modSaf s c f).buoy = s.buoy := rfl
@[simp] theorem modSaf_sess (s : State) (c : Nat) (f : Channel3 → Channel3) :
    (modSaf s c f).sess = s.sess := rfl
@[simp] theorem modSaf_strt (s : State) (c : Nat) (f : Channel3 → Channel3) :
    (modSaf s c f).strt = s.strt := rfl
@[simp] theorem modSaf_holds (s : State) (c : Nat) (f : Channel3 → Channel3) :
    (modSaf s c f).holds = s.holds := rfl
@[simp] theorem modSaf_allot (s : State) (c : Nat) (f : Channel3 → Channel3) :
    (modSaf s c f).allot = s.allot := rfl
@[simp] theorem modSaf_radio (s : State) (c : Nat) (f : Channel3 → Channel3) :
    (modSaf s c f).radio = s.radio := rfl
@[simp] theorem modSaf_can (s : State) (c : Nat) (f : Channel3 → Channel3) :
    (modSaf s c f).can = s.can := rfl
@[simp] theorem modSaf_ports (s : State) (c : Nat) (f : Channel3 → Channel3) :
    (modSaf s c f).ports = s.ports := rfl
@[simp] theorem modSaf_sec (s : State) (c : Nat) (f : Channel3 → Channel3) :
    (modSaf s c f).sec = s.sec := rfl
@[simp] theorem modSaf_upd (s : State) (c : Nat) (f : Channel3 → Channel3) :
    (modSaf s c f).upd = s.upd := rfl
@[simp] theorem modSaf_stop_slA (s : State) (c : Nat) (f : Channel3 → Channel3) :
    (modSaf s c f).stop.slA = s.stop.slA := rfl
@[simp] theorem modSaf_stop_slB (s : State) (c : Nat) (f : Channel3 → Channel3) :
    (modSaf s c f).stop.slB = s.stop.slB := rfl
@[simp] theorem modSaf_stop_lead (s : State) (c : Nat) (f : Channel3 → Channel3) :
    (modSaf s c f).stop.lead = s.stop.lead := rfl
@[simp] theorem modSaf_stop_voted (s : State) (c : Nat) (f : Channel3 → Channel3) :
    (modSaf s c f).stop.voted = s.stop.voted := rfl
@[simp] theorem modSaf_stop_sw1 (s : State) (c : Nat) (f : Channel3 → Channel3) :
    (modSaf s c f).stop.sw1 = s.stop.sw1 := rfl
@[simp] theorem modSaf_stop_sw2 (s : State) (c : Nat) (f : Channel3 → Channel3) :
    (modSaf s c f).stop.sw2 = s.stop.sw2 := rfl
@[simp] theorem modSaf_stop_outputFault (s : State) (c : Nat) (f : Channel3 → Channel3) :
    (modSaf s c f).stop.outputFault = s.stop.outputFault := rfl
@[simp] theorem modSaf_stop_voterDiff (s : State) (c : Nat) (f : Channel3 → Channel3) :
    (modSaf s c f).stop.voterDiff = s.stop.voterDiff := rfl
@[simp] theorem modSaf_stop_requests (s : State) (c : Nat) (f : Channel3 → Channel3) :
    (modSaf s c f).stop.requests = s.stop.requests := rfl
@[simp] theorem modSaf_stop_internalCause (s : State) (c : Nat) (f : Channel3 → Channel3) :
    (modSaf s c f).stop.internalCause = s.stop.internalCause := rfl
@[simp] theorem modSaf_stop_filter (s : State) (c : Nat) (f : Channel3 → Channel3) :
    (modSaf s c f).stop.filter = s.stop.filter := rfl
@[simp] theorem modSaf_stop_filterRecs (s : State) (c : Nat) (f : Channel3 → Channel3) :
    (modSaf s c f).stop.filterRecs = s.stop.filterRecs := rfl
@[simp] theorem modSaf_stop_filterReject (s : State) (c : Nat) (f : Channel3 → Channel3) :
    (modSaf s c f).stop.filterReject = s.stop.filterReject := rfl
@[simp] theorem modSaf_stop_beaconMisses (s : State) (c : Nat) (f : Channel3 → Channel3) :
    (modSaf s c f).stop.beaconMisses = s.stop.beaconMisses := rfl
@[simp] theorem modSaf_stop_beaconOnAir (s : State) (c : Nat) (f : Channel3 → Channel3) :
    (modSaf s c f).stop.beaconOnAir = s.stop.beaconOnAir := rfl
@[simp] theorem modSaf_stop_beaconSent (s : State) (c : Nat) (f : Channel3 → Channel3) :
    (modSaf s c f).stop.beaconSent = s.stop.beaconSent := rfl
@[simp] theorem modSaf_stop_token (s : State) (c : Nat) (f : Channel3 → Channel3) :
    (modSaf s c f).stop.token = s.stop.token := rfl
@[simp] theorem modSaf_stop_stopFrom (s : State) (c : Nat) (f : Channel3 → Channel3) :
    (modSaf s c f).stop.stopFrom = s.stop.stopFrom := rfl
@[simp] theorem modSaf_stop_stopTarget (s : State) (c : Nat) (f : Channel3 → Channel3) :
    (modSaf s c f).stop.stopTarget = s.stop.stopTarget := rfl
@[simp] theorem modSaf_stop_stopUntil (s : State) (c : Nat) (f : Channel3 → Channel3) :
    (modSaf s c f).stop.stopUntil = s.stop.stopUntil := rfl
@[simp] theorem modSaf_stop_stopWas (s : State) (c : Nat) (f : Channel3 → Channel3) :
    (modSaf s c f).stop.stopWas = s.stop.stopWas := rfl
@[simp] theorem modSaf_stop_robotCause (s : State) (c : Nat) (f : Channel3 → Channel3) :
    (modSaf s c f).stop.robotCause = s.stop.robotCause := rfl
@[simp] theorem modSaf_stop_canStopNext (s : State) (c : Nat) (f : Channel3 → Channel3) :
    (modSaf s c f).stop.canStopNext = s.stop.canStopNext := rfl
@[simp] theorem modSaf_stop_canStopDue (s : State) (c : Nat) (f : Channel3 → Channel3) :
    (modSaf s c f).stop.canStopDue = s.stop.canStopDue := rfl
@[simp] theorem modSaf_stop_arms (s : State) (c : Nat) (f : Channel3 → Channel3) :
    (modSaf s c f).stop.arms = s.stop.arms := rfl
@[simp] theorem modSaf_stop_armIds (s : State) (c : Nat) (f : Channel3 → Channel3) :
    (modSaf s c f).stop.armIds = s.stop.armIds := rfl
@[simp] theorem modSaf_stop_release (s : State) (c : Nat) (f : Channel3 → Channel3) :
    (modSaf s c f).stop.release = s.stop.release := rfl
@[simp] theorem modSaf_stop_lastStop (s : State) (c : Nat) (f : Channel3 → Channel3) :
    (modSaf s c f).stop.lastStop = s.stop.lastStop := rfl
@[simp] theorem modSaf_stop_lastRelease (s : State) (c : Nat) (f : Channel3 → Channel3) :
    (modSaf s c f).stop.lastRelease = s.stop.lastRelease := rfl
@[simp] theorem modSaf_stop_voteTime (s : State) (c : Nat) (f : Channel3 → Channel3) :
    (modSaf s c f).stop.voteTime = s.stop.voteTime := rfl
@[simp] theorem modSaf_stop_evs (s : State) (c : Nat) (f : Channel3 → Channel3) :
    (modSaf s c f).stop.evs = s.stop.evs := rfl
@[simp] theorem modSaf_stop_evsNext (s : State) (c : Nat) (f : Channel3 → Channel3) :
    (modSaf s c f).stop.evsNext = s.stop.evsNext := rfl
@[simp] theorem modSaf_stop_readback (s : State) (c : Nat) (f : Channel3 → Channel3) :
    (modSaf s c f).stop.readback = s.stop.readback := rfl
@[simp] theorem modSaf_stop_provFc (s : State) (c : Nat) (f : Channel3 → Channel3) :
    (modSaf s c f).stop.provFc = s.stop.provFc := rfl
@[simp] theorem modSaf_stop_allDiffer (s : State) (c : Nat) (f : Channel3 → Channel3) :
    (modSaf s c f).stop.allDiffer = s.stop.allDiffer := rfl
@[simp] theorem modRpt_pending (s : State) (k : Nat) (f : RptEntry → RptEntry) :
    (modRpt s k f).pending = s.pending := rfl
@[simp] theorem modRpt_freeCtr (s : State) (k : Nat) (f : RptEntry → RptEntry) :
    (modRpt s k f).freeCtr = s.freeCtr := rfl
@[simp] theorem modRpt_fuse (s : State) (k : Nat) (f : RptEntry → RptEntry) :
    (modRpt s k f).fuse = s.fuse := rfl
@[simp] theorem modRpt_flash (s : State) (k : Nat) (f : RptEntry → RptEntry) :
    (modRpt s k f).flash = s.flash := rfl
@[simp] theorem modRpt_p (s : State) (k : Nat) (f : RptEntry → RptEntry) :
    (modRpt s k f).p = s.p := rfl
@[simp] theorem modRpt_nv (s : State) (k : Nat) (f : RptEntry → RptEntry) :
    (modRpt s k f).nv = s.nv := rfl
@[simp] theorem modRpt_bk (s : State) (k : Nat) (f : RptEntry → RptEntry) :
    (modRpt s k f).bk = s.bk := rfl
@[simp] theorem modRpt_clk (s : State) (k : Nat) (f : RptEntry → RptEntry) :
    (modRpt s k f).clk = s.clk := rfl
@[simp] theorem modRpt_cores (s : State) (k : Nat) (f : RptEntry → RptEntry) :
    (modRpt s k f).cores = s.cores := rfl
@[simp] theorem modRpt_mode (s : State) (k : Nat) (f : RptEntry → RptEntry) :
    (modRpt s k f).mode = s.mode := rfl
@[simp] theorem modRpt_supply (s : State) (k : Nat) (f : RptEntry → RptEntry) :
    (modRpt s k f).supply = s.supply := rfl
@[simp] theorem modRpt_edtor (s : State) (k : Nat) (f : RptEntry → RptEntry) :
    (modRpt s k f).edtor = s.edtor := rfl
@[simp] theorem modRpt_com (s : State) (k : Nat) (f : RptEntry → RptEntry) :
    (modRpt s k f).com = s.com := rfl
@[simp] theorem modRpt_queues (s : State) (k : Nat) (f : RptEntry → RptEntry) :
    (modRpt s k f).queues = s.queues := rfl
@[simp] theorem modRpt_time (s : State) (k : Nat) (f : RptEntry → RptEntry) :
    (modRpt s k f).time = s.time := rfl
@[simp] theorem modRpt_gnss (s : State) (k : Nat) (f : RptEntry → RptEntry) :
    (modRpt s k f).gnss = s.gnss := rfl
@[simp] theorem modRpt_ref (s : State) (k : Nat) (f : RptEntry → RptEntry) :
    (modRpt s k f).ref = s.ref := rfl
@[simp] theorem modRpt_buoy (s : State) (k : Nat) (f : RptEntry → RptEntry) :
    (modRpt s k f).buoy = s.buoy := rfl
@[simp] theorem modRpt_strt (s : State) (k : Nat) (f : RptEntry → RptEntry) :
    (modRpt s k f).strt = s.strt := rfl
@[simp] theorem modRpt_holds (s : State) (k : Nat) (f : RptEntry → RptEntry) :
    (modRpt s k f).holds = s.holds := rfl
@[simp] theorem modRpt_allot (s : State) (k : Nat) (f : RptEntry → RptEntry) :
    (modRpt s k f).allot = s.allot := rfl
@[simp] theorem modRpt_stop (s : State) (k : Nat) (f : RptEntry → RptEntry) :
    (modRpt s k f).stop = s.stop := rfl
@[simp] theorem modRpt_radio (s : State) (k : Nat) (f : RptEntry → RptEntry) :
    (modRpt s k f).radio = s.radio := rfl
@[simp] theorem modRpt_can (s : State) (k : Nat) (f : RptEntry → RptEntry) :
    (modRpt s k f).can = s.can := rfl
@[simp] theorem modRpt_ports (s : State) (k : Nat) (f : RptEntry → RptEntry) :
    (modRpt s k f).ports = s.ports := rfl
@[simp] theorem modRpt_sec (s : State) (k : Nat) (f : RptEntry → RptEntry) :
    (modRpt s k f).sec = s.sec := rfl
@[simp] theorem modRpt_upd (s : State) (k : Nat) (f : RptEntry → RptEntry) :
    (modRpt s k f).upd = s.upd := rfl
@[simp] theorem modRobot_pending (s : State) (i : Nat) (f : Robot → Robot) :
    (modRobot s i f).pending = s.pending := rfl
@[simp] theorem modRobot_freeCtr (s : State) (i : Nat) (f : Robot → Robot) :
    (modRobot s i f).freeCtr = s.freeCtr := rfl
@[simp] theorem modRobot_fuse (s : State) (i : Nat) (f : Robot → Robot) :
    (modRobot s i f).fuse = s.fuse := rfl
@[simp] theorem modRobot_flash (s : State) (i : Nat) (f : Robot → Robot) :
    (modRobot s i f).flash = s.flash := rfl
@[simp] theorem modRobot_p (s : State) (i : Nat) (f : Robot → Robot) :
    (modRobot s i f).p = s.p := rfl
@[simp] theorem modRobot_nv (s : State) (i : Nat) (f : Robot → Robot) :
    (modRobot s i f).nv = s.nv := rfl
@[simp] theorem modRobot_bk (s : State) (i : Nat) (f : Robot → Robot) :
    (modRobot s i f).bk = s.bk := rfl
@[simp] theorem modRobot_clk (s : State) (i : Nat) (f : Robot → Robot) :
    (modRobot s i f).clk = s.clk := rfl
@[simp] theorem modRobot_cores (s : State) (i : Nat) (f : Robot → Robot) :
    (modRobot s i f).cores = s.cores := rfl
@[simp] theorem modRobot_mode (s : State) (i : Nat) (f : Robot → Robot) :
    (modRobot s i f).mode = s.mode := rfl
@[simp] theorem modRobot_supply (s : State) (i : Nat) (f : Robot → Robot) :
    (modRobot s i f).supply = s.supply := rfl
@[simp] theorem modRobot_edtor (s : State) (i : Nat) (f : Robot → Robot) :
    (modRobot s i f).edtor = s.edtor := rfl
@[simp] theorem modRobot_com (s : State) (i : Nat) (f : Robot → Robot) :
    (modRobot s i f).com = s.com := rfl
@[simp] theorem modRobot_queues (s : State) (i : Nat) (f : Robot → Robot) :
    (modRobot s i f).queues = s.queues := rfl
@[simp] theorem modRobot_time (s : State) (i : Nat) (f : Robot → Robot) :
    (modRobot s i f).time = s.time := rfl
@[simp] theorem modRobot_gnss (s : State) (i : Nat) (f : Robot → Robot) :
    (modRobot s i f).gnss = s.gnss := rfl
@[simp] theorem modRobot_ref (s : State) (i : Nat) (f : Robot → Robot) :
    (modRobot s i f).ref = s.ref := rfl
@[simp] theorem modRobot_buoy (s : State) (i : Nat) (f : Robot → Robot) :
    (modRobot s i f).buoy = s.buoy := rfl
@[simp] theorem modRobot_strt (s : State) (i : Nat) (f : Robot → Robot) :
    (modRobot s i f).strt = s.strt := rfl
@[simp] theorem modRobot_holds (s : State) (i : Nat) (f : Robot → Robot) :
    (modRobot s i f).holds = s.holds := rfl
@[simp] theorem modRobot_allot (s : State) (i : Nat) (f : Robot → Robot) :
    (modRobot s i f).allot = s.allot := rfl
@[simp] theorem modRobot_stop (s : State) (i : Nat) (f : Robot → Robot) :
    (modRobot s i f).stop = s.stop := rfl
@[simp] theorem modRobot_radio (s : State) (i : Nat) (f : Robot → Robot) :
    (modRobot s i f).radio = s.radio := rfl
@[simp] theorem modRobot_can (s : State) (i : Nat) (f : Robot → Robot) :
    (modRobot s i f).can = s.can := rfl
@[simp] theorem modRobot_ports (s : State) (i : Nat) (f : Robot → Robot) :
    (modRobot s i f).ports = s.ports := rfl
@[simp] theorem modRobot_sec (s : State) (i : Nat) (f : Robot → Robot) :
    (modRobot s i f).sec = s.sec := rfl
@[simp] theorem modRobot_upd (s : State) (i : Nat) (f : Robot → Robot) :
    (modRobot s i f).upd = s.upd := rfl
@[simp] theorem putHold_pending (s : State) (n : Nat) (h : HoldRec) :
    (putHold s n h).pending = s.pending := rfl
@[simp] theorem putHold_freeCtr (s : State) (n : Nat) (h : HoldRec) :
    (putHold s n h).freeCtr = s.freeCtr := rfl
@[simp] theorem putHold_fuse (s : State) (n : Nat) (h : HoldRec) :
    (putHold s n h).fuse = s.fuse := rfl
@[simp] theorem putHold_flash (s : State) (n : Nat) (h : HoldRec) :
    (putHold s n h).flash = s.flash := rfl
@[simp] theorem putHold_nv (s : State) (n : Nat) (h : HoldRec) :
    (putHold s n h).nv = s.nv := rfl
@[simp] theorem putHold_bk (s : State) (n : Nat) (h : HoldRec) :
    (putHold s n h).bk = s.bk := rfl
@[simp] theorem putHold_clk (s : State) (n : Nat) (h : HoldRec) :
    (putHold s n h).clk = s.clk := rfl
@[simp] theorem putHold_cores (s : State) (n : Nat) (h : HoldRec) :
    (putHold s n h).cores = s.cores := rfl
@[simp] theorem putHold_mode (s : State) (n : Nat) (h : HoldRec) :
    (putHold s n h).mode = s.mode := rfl
@[simp] theorem putHold_supply (s : State) (n : Nat) (h : HoldRec) :
    (putHold s n h).supply = s.supply := rfl
@[simp] theorem putHold_edtor (s : State) (n : Nat) (h : HoldRec) :
    (putHold s n h).edtor = s.edtor := rfl
@[simp] theorem putHold_com (s : State) (n : Nat) (h : HoldRec) :
    (putHold s n h).com = s.com := rfl
@[simp] theorem putHold_queues (s : State) (n : Nat) (h : HoldRec) :
    (putHold s n h).queues = s.queues := rfl
@[simp] theorem putHold_time (s : State) (n : Nat) (h : HoldRec) :
    (putHold s n h).time = s.time := rfl
@[simp] theorem putHold_gnss (s : State) (n : Nat) (h : HoldRec) :
    (putHold s n h).gnss = s.gnss := rfl
@[simp] theorem putHold_ref (s : State) (n : Nat) (h : HoldRec) :
    (putHold s n h).ref = s.ref := rfl
@[simp] theorem putHold_buoy (s : State) (n : Nat) (h : HoldRec) :
    (putHold s n h).buoy = s.buoy := rfl
@[simp] theorem putHold_sess (s : State) (n : Nat) (h : HoldRec) :
    (putHold s n h).sess = s.sess := rfl
@[simp] theorem putHold_strt (s : State) (n : Nat) (h : HoldRec) :
    (putHold s n h).strt = s.strt := rfl
@[simp] theorem putHold_allot (s : State) (n : Nat) (h : HoldRec) :
    (putHold s n h).allot = s.allot := rfl
@[simp] theorem putHold_stop (s : State) (n : Nat) (h : HoldRec) :
    (putHold s n h).stop = s.stop := rfl
@[simp] theorem putHold_radio (s : State) (n : Nat) (h : HoldRec) :
    (putHold s n h).radio = s.radio := rfl
@[simp] theorem putHold_can (s : State) (n : Nat) (h : HoldRec) :
    (putHold s n h).can = s.can := rfl
@[simp] theorem putHold_ports (s : State) (n : Nat) (h : HoldRec) :
    (putHold s n h).ports = s.ports := rfl
@[simp] theorem putHold_sec (s : State) (n : Nat) (h : HoldRec) :
    (putHold s n h).sec = s.sec := rfl
@[simp] theorem putHold_upd (s : State) (n : Nat) (h : HoldRec) :
    (putHold s n h).upd = s.upd := rfl
@[simp] theorem putHold_p_control (s : State) (n : Nat) (h : HoldRec) :
    (putHold s n h).p.control = s.p.control := rfl
@[simp] theorem putHold_p_power (s : State) (n : Nat) (h : HoldRec) :
    (putHold s n h).p.power = s.p.power := rfl
@[simp] theorem putHold_p_timeCfg (s : State) (n : Nat) (h : HoldRec) :
    (putHold s n h).p.timeCfg = s.p.timeCfg := rfl
@[simp] theorem putHold_p_timeRec (s : State) (n : Nat) (h : HoldRec) :
    (putHold s n h).p.timeRec = s.p.timeRec := rfl
@[simp] theorem putHold_p_gnssCfg (s : State) (n : Nat) (h : HoldRec) :
    (putHold s n h).p.gnssCfg = s.p.gnssCfg := rfl
@[simp] theorem putHold_p_refCfg (s : State) (n : Nat) (h : HoldRec) :
    (putHold s n h).p.refCfg = s.p.refCfg := rfl
@[simp] theorem putHold_p_refFrame (s : State) (n : Nat) (h : HoldRec) :
    (putHold s n h).p.refFrame = s.p.refFrame := rfl
@[simp] theorem putHold_p_buoyCfg (s : State) (n : Nat) (h : HoldRec) :
    (putHold s n h).p.buoyCfg = s.p.buoyCfg := rfl
@[simp] theorem putHold_p_anchors (s : State) (n : Nat) (h : HoldRec) :
    (putHold s n h).p.anchors = s.p.anchors := rfl
@[simp] theorem putHold_p_zones (s : State) (n : Nat) (h : HoldRec) :
    (putHold s n h).p.zones = s.p.zones := rfl
@[simp] theorem putHold_p_zoneRev (s : State) (n : Nat) (h : HoldRec) :
    (putHold s n h).p.zoneRev = s.p.zoneRev := rfl
@[simp] theorem putHold_p_zoneEffect (s : State) (n : Nat) (h : HoldRec) :
    (putHold s n h).p.zoneEffect = s.p.zoneEffect := rfl
@[simp] theorem putHold_p_classes (s : State) (n : Nat) (h : HoldRec) :
    (putHold s n h).p.classes = s.p.classes := rfl
@[simp] theorem putHold_p_robots (s : State) (n : Nat) (h : HoldRec) :
    (putHold s n h).p.robots = s.p.robots := rfl
@[simp] theorem putHold_p_sessCfg (s : State) (n : Nat) (h : HoldRec) :
    (putHold s n h).p.sessCfg = s.p.sessCfg := rfl
@[simp] theorem putHold_p_grid (s : State) (n : Nat) (h : HoldRec) :
    (putHold s n h).p.grid = s.p.grid := rfl
@[simp] theorem putHold_p_tasks (s : State) (n : Nat) (h : HoldRec) :
    (putHold s n h).p.tasks = s.p.tasks := rfl
@[simp] theorem putHold_p_taskCfg (s : State) (n : Nat) (h : HoldRec) :
    (putHold s n h).p.taskCfg = s.p.taskCfg := rfl
@[simp] theorem putHold_p_stopCfg (s : State) (n : Nat) (h : HoldRec) :
    (putHold s n h).p.stopCfg = s.p.stopCfg := rfl
@[simp] theorem putHold_p_radio (s : State) (n : Nat) (h : HoldRec) :
    (putHold s n h).p.radio = s.p.radio := rfl
@[simp] theorem putHold_p_can (s : State) (n : Nat) (h : HoldRec) :
    (putHold s n h).p.can = s.p.can := rfl
@[simp] theorem putHold_p_net (s : State) (n : Nat) (h : HoldRec) :
    (putHold s n h).p.net = s.p.net := rfl
@[simp] theorem putHold_p_aux (s : State) (n : Nat) (h : HoldRec) :
    (putHold s n h).p.aux = s.p.aux := rfl
@[simp] theorem putHold_p_keys (s : State) (n : Nat) (h : HoldRec) :
    (putHold s n h).p.keys = s.p.keys := rfl
@[simp] theorem putHold_p_upd (s : State) (n : Nat) (h : HoldRec) :
    (putHold s n h).p.upd = s.p.upd := rfl
@[simp] theorem putHold_p_diag (s : State) (n : Nat) (h : HoldRec) :
    (putHold s n h).p.diag = s.p.diag := rfl
@[simp] theorem putHold_p_queueCfg (s : State) (n : Nat) (h : HoldRec) :
    (putHold s n h).p.queueCfg = s.p.queueCfg := rfl
@[simp] theorem putHold_p_unreadable (s : State) (n : Nat) (h : HoldRec) :
    (putHold s n h).p.unreadable = s.p.unreadable := rfl
@[simp] theorem dropHold_pending (s : State) (n : Nat) :
    (dropHold s n).pending = s.pending := rfl
@[simp] theorem dropHold_freeCtr (s : State) (n : Nat) :
    (dropHold s n).freeCtr = s.freeCtr := rfl
@[simp] theorem dropHold_fuse (s : State) (n : Nat) :
    (dropHold s n).fuse = s.fuse := rfl
@[simp] theorem dropHold_flash (s : State) (n : Nat) :
    (dropHold s n).flash = s.flash := rfl
@[simp] theorem dropHold_nv (s : State) (n : Nat) :
    (dropHold s n).nv = s.nv := rfl
@[simp] theorem dropHold_bk (s : State) (n : Nat) :
    (dropHold s n).bk = s.bk := rfl
@[simp] theorem dropHold_clk (s : State) (n : Nat) :
    (dropHold s n).clk = s.clk := rfl
@[simp] theorem dropHold_cores (s : State) (n : Nat) :
    (dropHold s n).cores = s.cores := rfl
@[simp] theorem dropHold_mode (s : State) (n : Nat) :
    (dropHold s n).mode = s.mode := rfl
@[simp] theorem dropHold_supply (s : State) (n : Nat) :
    (dropHold s n).supply = s.supply := rfl
@[simp] theorem dropHold_edtor (s : State) (n : Nat) :
    (dropHold s n).edtor = s.edtor := rfl
@[simp] theorem dropHold_com (s : State) (n : Nat) :
    (dropHold s n).com = s.com := rfl
@[simp] theorem dropHold_queues (s : State) (n : Nat) :
    (dropHold s n).queues = s.queues := rfl
@[simp] theorem dropHold_time (s : State) (n : Nat) :
    (dropHold s n).time = s.time := rfl
@[simp] theorem dropHold_gnss (s : State) (n : Nat) :
    (dropHold s n).gnss = s.gnss := rfl
@[simp] theorem dropHold_ref (s : State) (n : Nat) :
    (dropHold s n).ref = s.ref := rfl
@[simp] theorem dropHold_buoy (s : State) (n : Nat) :
    (dropHold s n).buoy = s.buoy := rfl
@[simp] theorem dropHold_sess (s : State) (n : Nat) :
    (dropHold s n).sess = s.sess := rfl
@[simp] theorem dropHold_strt (s : State) (n : Nat) :
    (dropHold s n).strt = s.strt := rfl
@[simp] theorem dropHold_allot (s : State) (n : Nat) :
    (dropHold s n).allot = s.allot := rfl
@[simp] theorem dropHold_stop (s : State) (n : Nat) :
    (dropHold s n).stop = s.stop := rfl
@[simp] theorem dropHold_radio (s : State) (n : Nat) :
    (dropHold s n).radio = s.radio := rfl
@[simp] theorem dropHold_can (s : State) (n : Nat) :
    (dropHold s n).can = s.can := rfl
@[simp] theorem dropHold_ports (s : State) (n : Nat) :
    (dropHold s n).ports = s.ports := rfl
@[simp] theorem dropHold_sec (s : State) (n : Nat) :
    (dropHold s n).sec = s.sec := rfl
@[simp] theorem dropHold_upd (s : State) (n : Nat) :
    (dropHold s n).upd = s.upd := rfl
@[simp] theorem dropHold_p_control (s : State) (n : Nat) :
    (dropHold s n).p.control = s.p.control := rfl
@[simp] theorem dropHold_p_power (s : State) (n : Nat) :
    (dropHold s n).p.power = s.p.power := rfl
@[simp] theorem dropHold_p_timeCfg (s : State) (n : Nat) :
    (dropHold s n).p.timeCfg = s.p.timeCfg := rfl
@[simp] theorem dropHold_p_timeRec (s : State) (n : Nat) :
    (dropHold s n).p.timeRec = s.p.timeRec := rfl
@[simp] theorem dropHold_p_gnssCfg (s : State) (n : Nat) :
    (dropHold s n).p.gnssCfg = s.p.gnssCfg := rfl
@[simp] theorem dropHold_p_refCfg (s : State) (n : Nat) :
    (dropHold s n).p.refCfg = s.p.refCfg := rfl
@[simp] theorem dropHold_p_refFrame (s : State) (n : Nat) :
    (dropHold s n).p.refFrame = s.p.refFrame := rfl
@[simp] theorem dropHold_p_buoyCfg (s : State) (n : Nat) :
    (dropHold s n).p.buoyCfg = s.p.buoyCfg := rfl
@[simp] theorem dropHold_p_anchors (s : State) (n : Nat) :
    (dropHold s n).p.anchors = s.p.anchors := rfl
@[simp] theorem dropHold_p_zones (s : State) (n : Nat) :
    (dropHold s n).p.zones = s.p.zones := rfl
@[simp] theorem dropHold_p_zoneRev (s : State) (n : Nat) :
    (dropHold s n).p.zoneRev = s.p.zoneRev := rfl
@[simp] theorem dropHold_p_zoneEffect (s : State) (n : Nat) :
    (dropHold s n).p.zoneEffect = s.p.zoneEffect := rfl
@[simp] theorem dropHold_p_classes (s : State) (n : Nat) :
    (dropHold s n).p.classes = s.p.classes := rfl
@[simp] theorem dropHold_p_robots (s : State) (n : Nat) :
    (dropHold s n).p.robots = s.p.robots := rfl
@[simp] theorem dropHold_p_sessCfg (s : State) (n : Nat) :
    (dropHold s n).p.sessCfg = s.p.sessCfg := rfl
@[simp] theorem dropHold_p_grid (s : State) (n : Nat) :
    (dropHold s n).p.grid = s.p.grid := rfl
@[simp] theorem dropHold_p_tasks (s : State) (n : Nat) :
    (dropHold s n).p.tasks = s.p.tasks := rfl
@[simp] theorem dropHold_p_taskCfg (s : State) (n : Nat) :
    (dropHold s n).p.taskCfg = s.p.taskCfg := rfl
@[simp] theorem dropHold_p_stopCfg (s : State) (n : Nat) :
    (dropHold s n).p.stopCfg = s.p.stopCfg := rfl
@[simp] theorem dropHold_p_radio (s : State) (n : Nat) :
    (dropHold s n).p.radio = s.p.radio := rfl
@[simp] theorem dropHold_p_can (s : State) (n : Nat) :
    (dropHold s n).p.can = s.p.can := rfl
@[simp] theorem dropHold_p_net (s : State) (n : Nat) :
    (dropHold s n).p.net = s.p.net := rfl
@[simp] theorem dropHold_p_aux (s : State) (n : Nat) :
    (dropHold s n).p.aux = s.p.aux := rfl
@[simp] theorem dropHold_p_keys (s : State) (n : Nat) :
    (dropHold s n).p.keys = s.p.keys := rfl
@[simp] theorem dropHold_p_upd (s : State) (n : Nat) :
    (dropHold s n).p.upd = s.p.upd := rfl
@[simp] theorem dropHold_p_diag (s : State) (n : Nat) :
    (dropHold s n).p.diag = s.p.diag := rfl
@[simp] theorem dropHold_p_queueCfg (s : State) (n : Nat) :
    (dropHold s n).p.queueCfg = s.p.queueCfg := rfl
@[simp] theorem dropHold_p_unreadable (s : State) (n : Nat) :
    (dropHold s n).p.unreadable = s.p.unreadable := rfl
@[simp] theorem setUpd_pending (s : State) (new cause : Nat) :
    (setUpd s new cause).pending = s.pending := rfl
@[simp] theorem setUpd_freeCtr (s : State) (new cause : Nat) :
    (setUpd s new cause).freeCtr = s.freeCtr := rfl
@[simp] theorem setUpd_fuse (s : State) (new cause : Nat) :
    (setUpd s new cause).fuse = s.fuse := rfl
@[simp] theorem setUpd_flash (s : State) (new cause : Nat) :
    (setUpd s new cause).flash = s.flash := rfl
@[simp] theorem setUpd_p (s : State) (new cause : Nat) :
    (setUpd s new cause).p = s.p := rfl
@[simp] theorem setUpd_nv (s : State) (new cause : Nat) :
    (setUpd s new cause).nv = s.nv := rfl
@[simp] theorem setUpd_bk (s : State) (new cause : Nat) :
    (setUpd s new cause).bk = s.bk := rfl
@[simp] theorem setUpd_clk (s : State) (new cause : Nat) :
    (setUpd s new cause).clk = s.clk := rfl
@[simp] theorem setUpd_cores (s : State) (new cause : Nat) :
    (setUpd s new cause).cores = s.cores := rfl
@[simp] theorem setUpd_mode (s : State) (new cause : Nat) :
    (setUpd s new cause).mode = s.mode := rfl
@[simp] theorem setUpd_supply (s : State) (new cause : Nat) :
    (setUpd s new cause).supply = s.supply := rfl
@[simp] theorem setUpd_edtor (s : State) (new cause : Nat) :
    (setUpd s new cause).edtor = s.edtor := rfl
@[simp] theorem setUpd_com (s : State) (new cause : Nat) :
    (setUpd s new cause).com = s.com := rfl
@[simp] theorem setUpd_queues (s : State) (new cause : Nat) :
    (setUpd s new cause).queues = s.queues := rfl
@[simp] theorem setUpd_time (s : State) (new cause : Nat) :
    (setUpd s new cause).time = s.time := rfl
@[simp] theorem setUpd_gnss (s : State) (new cause : Nat) :
    (setUpd s new cause).gnss = s.gnss := rfl
@[simp] theorem setUpd_ref (s : State) (new cause : Nat) :
    (setUpd s new cause).ref = s.ref := rfl
@[simp] theorem setUpd_buoy (s : State) (new cause : Nat) :
    (setUpd s new cause).buoy = s.buoy := rfl
@[simp] theorem setUpd_sess (s : State) (new cause : Nat) :
    (setUpd s new cause).sess = s.sess := rfl
@[simp] theorem setUpd_strt (s : State) (new cause : Nat) :
    (setUpd s new cause).strt = s.strt := rfl
@[simp] theorem setUpd_holds (s : State) (new cause : Nat) :
    (setUpd s new cause).holds = s.holds := rfl
@[simp] theorem setUpd_allot (s : State) (new cause : Nat) :
    (setUpd s new cause).allot = s.allot := rfl
@[simp] theorem setUpd_stop (s : State) (new cause : Nat) :
    (setUpd s new cause).stop = s.stop := rfl
@[simp] theorem setUpd_radio (s : State) (new cause : Nat) :
    (setUpd s new cause).radio = s.radio := rfl
@[simp] theorem setUpd_can (s : State) (new cause : Nat) :
    (setUpd s new cause).can = s.can := rfl
@[simp] theorem setUpd_ports (s : State) (new cause : Nat) :
    (setUpd s new cause).ports = s.ports := rfl
@[simp] theorem setUpd_sec (s : State) (new cause : Nat) :
    (setUpd s new cause).sec = s.sec := rfl
@[simp] theorem setUpd_upd_oldState (s : State) (new cause : Nat) :
    (setUpd s new cause).upd.oldState = s.upd.oldState := rfl
@[simp] theorem setUpd_upd_pkgId (s : State) (new cause : Nat) :
    (setUpd s new cause).upd.pkgId = s.upd.pkgId := rfl
@[simp] theorem setUpd_upd_len (s : State) (new cause : Nat) :
    (setUpd s new cause).upd.len = s.upd.len := rfl
@[simp] theorem setUpd_upd_capsule (s : State) (new cause : Nat) :
    (setUpd s new cause).upd.capsule = s.upd.capsule := rfl
@[simp] theorem setUpd_upd_blocks (s : State) (new cause : Nat) :
    (setUpd s new cause).upd.blocks = s.upd.blocks := rfl
@[simp] theorem setUpd_upd_staged (s : State) (new cause : Nat) :
    (setUpd s new cause).upd.staged = s.upd.staged := rfl
@[simp] theorem setUpd_upd_finish (s : State) (new cause : Nat) :
    (setUpd s new cause).upd.finish = s.upd.finish := rfl
@[simp] theorem setUpd_upd_verified (s : State) (new cause : Nat) :
    (setUpd s new cause).upd.verified = s.upd.verified := rfl
@[simp] theorem setUpd_upd_act (s : State) (new cause : Nat) :
    (setUpd s new cause).upd.act = s.upd.act := rfl
@[simp] theorem setUpd_upd_safTurn (s : State) (new cause : Nat) :
    (setUpd s new cause).upd.safTurn = s.upd.safTurn := rfl
@[simp] theorem setUpd_upd_safNext (s : State) (new cause : Nat) :
    (setUpd s new cause).upd.safNext = s.upd.safNext := rfl
@[simp] theorem setUpd_upd_safNew (s : State) (new cause : Nat) :
    (setUpd s new cause).upd.safNew = s.upd.safNew := rfl
@[simp] theorem setUpd_upd_safFailed (s : State) (new cause : Nat) :
    (setUpd s new cause).upd.safFailed = s.upd.safFailed := rfl
@[simp] theorem setUpd_upd_dfu (s : State) (new cause : Nat) :
    (setUpd s new cause).upd.dfu = s.upd.dfu := rfl
@[simp] theorem setUpd_upd_blocksEver (s : State) (new cause : Nat) :
    (setUpd s new cause).upd.blocksEver = s.upd.blocksEver := rfl
@[simp] theorem countReload_pending (s : State) (core : Nat) :
    (countReload s core).pending = s.pending := rfl
@[simp] theorem countReload_freeCtr (s : State) (core : Nat) :
    (countReload s core).freeCtr = s.freeCtr := rfl
@[simp] theorem countReload_fuse (s : State) (core : Nat) :
    (countReload s core).fuse = s.fuse := rfl
@[simp] theorem countReload_flash (s : State) (core : Nat) :
    (countReload s core).flash = s.flash := rfl
@[simp] theorem countReload_nv (s : State) (core : Nat) :
    (countReload s core).nv = s.nv := rfl
@[simp] theorem countReload_bk (s : State) (core : Nat) :
    (countReload s core).bk = s.bk := rfl
@[simp] theorem countReload_clk (s : State) (core : Nat) :
    (countReload s core).clk = s.clk := rfl
@[simp] theorem countReload_cores (s : State) (core : Nat) :
    (countReload s core).cores = s.cores := rfl
@[simp] theorem countReload_mode (s : State) (core : Nat) :
    (countReload s core).mode = s.mode := rfl
@[simp] theorem countReload_supply (s : State) (core : Nat) :
    (countReload s core).supply = s.supply := rfl
@[simp] theorem countReload_edtor (s : State) (core : Nat) :
    (countReload s core).edtor = s.edtor := rfl
@[simp] theorem countReload_com (s : State) (core : Nat) :
    (countReload s core).com = s.com := rfl
@[simp] theorem countReload_queues (s : State) (core : Nat) :
    (countReload s core).queues = s.queues := rfl
@[simp] theorem countReload_time (s : State) (core : Nat) :
    (countReload s core).time = s.time := rfl
@[simp] theorem countReload_gnss (s : State) (core : Nat) :
    (countReload s core).gnss = s.gnss := rfl
@[simp] theorem countReload_ref (s : State) (core : Nat) :
    (countReload s core).ref = s.ref := rfl
@[simp] theorem countReload_buoy (s : State) (core : Nat) :
    (countReload s core).buoy = s.buoy := rfl
@[simp] theorem countReload_sess (s : State) (core : Nat) :
    (countReload s core).sess = s.sess := rfl
@[simp] theorem countReload_strt (s : State) (core : Nat) :
    (countReload s core).strt = s.strt := rfl
@[simp] theorem countReload_holds (s : State) (core : Nat) :
    (countReload s core).holds = s.holds := rfl
@[simp] theorem countReload_allot (s : State) (core : Nat) :
    (countReload s core).allot = s.allot := rfl
@[simp] theorem countReload_stop (s : State) (core : Nat) :
    (countReload s core).stop = s.stop := rfl
@[simp] theorem countReload_radio (s : State) (core : Nat) :
    (countReload s core).radio = s.radio := rfl
@[simp] theorem countReload_can (s : State) (core : Nat) :
    (countReload s core).can = s.can := rfl
@[simp] theorem countReload_ports (s : State) (core : Nat) :
    (countReload s core).ports = s.ports := rfl
@[simp] theorem countReload_sec (s : State) (core : Nat) :
    (countReload s core).sec = s.sec := rfl
@[simp] theorem countReload_upd (s : State) (core : Nat) :
    (countReload s core).upd = s.upd := rfl
@[simp] theorem countReload_p_control (s : State) (core : Nat) :
    (countReload s core).p.control = s.p.control := rfl
@[simp] theorem countReload_p_power (s : State) (core : Nat) :
    (countReload s core).p.power = s.p.power := rfl
@[simp] theorem countReload_p_timeCfg (s : State) (core : Nat) :
    (countReload s core).p.timeCfg = s.p.timeCfg := rfl
@[simp] theorem countReload_p_timeRec (s : State) (core : Nat) :
    (countReload s core).p.timeRec = s.p.timeRec := rfl
@[simp] theorem countReload_p_gnssCfg (s : State) (core : Nat) :
    (countReload s core).p.gnssCfg = s.p.gnssCfg := rfl
@[simp] theorem countReload_p_refCfg (s : State) (core : Nat) :
    (countReload s core).p.refCfg = s.p.refCfg := rfl
@[simp] theorem countReload_p_refFrame (s : State) (core : Nat) :
    (countReload s core).p.refFrame = s.p.refFrame := rfl
@[simp] theorem countReload_p_buoyCfg (s : State) (core : Nat) :
    (countReload s core).p.buoyCfg = s.p.buoyCfg := rfl
@[simp] theorem countReload_p_anchors (s : State) (core : Nat) :
    (countReload s core).p.anchors = s.p.anchors := rfl
@[simp] theorem countReload_p_zones (s : State) (core : Nat) :
    (countReload s core).p.zones = s.p.zones := rfl
@[simp] theorem countReload_p_zoneRev (s : State) (core : Nat) :
    (countReload s core).p.zoneRev = s.p.zoneRev := rfl
@[simp] theorem countReload_p_zoneEffect (s : State) (core : Nat) :
    (countReload s core).p.zoneEffect = s.p.zoneEffect := rfl
@[simp] theorem countReload_p_classes (s : State) (core : Nat) :
    (countReload s core).p.classes = s.p.classes := rfl
@[simp] theorem countReload_p_robots (s : State) (core : Nat) :
    (countReload s core).p.robots = s.p.robots := rfl
@[simp] theorem countReload_p_sessCfg (s : State) (core : Nat) :
    (countReload s core).p.sessCfg = s.p.sessCfg := rfl
@[simp] theorem countReload_p_grid (s : State) (core : Nat) :
    (countReload s core).p.grid = s.p.grid := rfl
@[simp] theorem countReload_p_holds (s : State) (core : Nat) :
    (countReload s core).p.holds = s.p.holds := rfl
@[simp] theorem countReload_p_tasks (s : State) (core : Nat) :
    (countReload s core).p.tasks = s.p.tasks := rfl
@[simp] theorem countReload_p_taskCfg (s : State) (core : Nat) :
    (countReload s core).p.taskCfg = s.p.taskCfg := rfl
@[simp] theorem countReload_p_stopCfg (s : State) (core : Nat) :
    (countReload s core).p.stopCfg = s.p.stopCfg := rfl
@[simp] theorem countReload_p_radio (s : State) (core : Nat) :
    (countReload s core).p.radio = s.p.radio := rfl
@[simp] theorem countReload_p_can (s : State) (core : Nat) :
    (countReload s core).p.can = s.p.can := rfl
@[simp] theorem countReload_p_net (s : State) (core : Nat) :
    (countReload s core).p.net = s.p.net := rfl
@[simp] theorem countReload_p_aux (s : State) (core : Nat) :
    (countReload s core).p.aux = s.p.aux := rfl
@[simp] theorem countReload_p_keys (s : State) (core : Nat) :
    (countReload s core).p.keys = s.p.keys := rfl
@[simp] theorem countReload_p_upd (s : State) (core : Nat) :
    (countReload s core).p.upd = s.p.upd := rfl
@[simp] theorem countReload_p_queueCfg (s : State) (core : Nat) :
    (countReload s core).p.queueCfg = s.p.queueCfg := rfl
@[simp] theorem countReload_p_unreadable (s : State) (core : Nat) :
    (countReload s core).p.unreadable = s.p.unreadable := rfl
@[simp] theorem countReject_pending (s : State) (i n : Nat) :
    (countReject s i n).pending = s.pending := rfl
@[simp] theorem countReject_freeCtr (s : State) (i n : Nat) :
    (countReject s i n).freeCtr = s.freeCtr := rfl
@[simp] theorem countReject_fuse (s : State) (i n : Nat) :
    (countReject s i n).fuse = s.fuse := rfl
@[simp] theorem countReject_flash (s : State) (i n : Nat) :
    (countReject s i n).flash = s.flash := rfl
@[simp] theorem countReject_p (s : State) (i n : Nat) :
    (countReject s i n).p = s.p := rfl
@[simp] theorem countReject_nv (s : State) (i n : Nat) :
    (countReject s i n).nv = s.nv := rfl
@[simp] theorem countReject_bk (s : State) (i n : Nat) :
    (countReject s i n).bk = s.bk := rfl
@[simp] theorem countReject_clk (s : State) (i n : Nat) :
    (countReject s i n).clk = s.clk := rfl
@[simp] theorem countReject_cores (s : State) (i n : Nat) :
    (countReject s i n).cores = s.cores := rfl
@[simp] theorem countReject_mode (s : State) (i n : Nat) :
    (countReject s i n).mode = s.mode := rfl
@[simp] theorem countReject_supply (s : State) (i n : Nat) :
    (countReject s i n).supply = s.supply := rfl
@[simp] theorem countReject_edtor (s : State) (i n : Nat) :
    (countReject s i n).edtor = s.edtor := rfl
@[simp] theorem countReject_com (s : State) (i n : Nat) :
    (countReject s i n).com = s.com := rfl
@[simp] theorem countReject_queues (s : State) (i n : Nat) :
    (countReject s i n).queues = s.queues := rfl
@[simp] theorem countReject_time (s : State) (i n : Nat) :
    (countReject s i n).time = s.time := rfl
@[simp] theorem countReject_gnss (s : State) (i n : Nat) :
    (countReject s i n).gnss = s.gnss := rfl
@[simp] theorem countReject_ref (s : State) (i n : Nat) :
    (countReject s i n).ref = s.ref := rfl
@[simp] theorem countReject_sess (s : State) (i n : Nat) :
    (countReject s i n).sess = s.sess := rfl
@[simp] theorem countReject_strt (s : State) (i n : Nat) :
    (countReject s i n).strt = s.strt := rfl
@[simp] theorem countReject_holds (s : State) (i n : Nat) :
    (countReject s i n).holds = s.holds := rfl
@[simp] theorem countReject_allot (s : State) (i n : Nat) :
    (countReject s i n).allot = s.allot := rfl
@[simp] theorem countReject_stop (s : State) (i n : Nat) :
    (countReject s i n).stop = s.stop := rfl
@[simp] theorem countReject_radio (s : State) (i n : Nat) :
    (countReject s i n).radio = s.radio := rfl
@[simp] theorem countReject_can (s : State) (i n : Nat) :
    (countReject s i n).can = s.can := rfl
@[simp] theorem countReject_ports (s : State) (i n : Nat) :
    (countReject s i n).ports = s.ports := rfl
@[simp] theorem countReject_sec (s : State) (i n : Nat) :
    (countReject s i n).sec = s.sec := rfl
@[simp] theorem countReject_upd (s : State) (i n : Nat) :
    (countReject s i n).upd = s.upd := rfl
@[simp] theorem chanState_pending (s : State) (c : Nat) (new : ChState) (reason testId pclk : Nat) :
    (chanState s c new reason testId pclk).pending = s.pending := rfl
@[simp] theorem chanState_freeCtr (s : State) (c : Nat) (new : ChState) (reason testId pclk : Nat) :
    (chanState s c new reason testId pclk).freeCtr = s.freeCtr := rfl
@[simp] theorem chanState_fuse (s : State) (c : Nat) (new : ChState) (reason testId pclk : Nat) :
    (chanState s c new reason testId pclk).fuse = s.fuse := rfl
@[simp] theorem chanState_flash (s : State) (c : Nat) (new : ChState) (reason testId pclk : Nat) :
    (chanState s c new reason testId pclk).flash = s.flash := rfl
@[simp] theorem chanState_p (s : State) (c : Nat) (new : ChState) (reason testId pclk : Nat) :
    (chanState s c new reason testId pclk).p = s.p := rfl
@[simp] theorem chanState_nv (s : State) (c : Nat) (new : ChState) (reason testId pclk : Nat) :
    (chanState s c new reason testId pclk).nv = s.nv := rfl
@[simp] theorem chanState_bk (s : State) (c : Nat) (new : ChState) (reason testId pclk : Nat) :
    (chanState s c new reason testId pclk).bk = s.bk := rfl
@[simp] theorem chanState_clk (s : State) (c : Nat) (new : ChState) (reason testId pclk : Nat) :
    (chanState s c new reason testId pclk).clk = s.clk := rfl
@[simp] theorem chanState_cores (s : State) (c : Nat) (new : ChState) (reason testId pclk : Nat) :
    (chanState s c new reason testId pclk).cores = s.cores := rfl
@[simp] theorem chanState_mode (s : State) (c : Nat) (new : ChState) (reason testId pclk : Nat) :
    (chanState s c new reason testId pclk).mode = s.mode := rfl
@[simp] theorem chanState_supply (s : State) (c : Nat) (new : ChState) (reason testId pclk : Nat) :
    (chanState s c new reason testId pclk).supply = s.supply := rfl
@[simp] theorem chanState_edtor (s : State) (c : Nat) (new : ChState) (reason testId pclk : Nat) :
    (chanState s c new reason testId pclk).edtor = s.edtor := rfl
@[simp] theorem chanState_com (s : State) (c : Nat) (new : ChState) (reason testId pclk : Nat) :
    (chanState s c new reason testId pclk).com = s.com := rfl
@[simp] theorem chanState_queues (s : State) (c : Nat) (new : ChState) (reason testId pclk : Nat) :
    (chanState s c new reason testId pclk).queues = s.queues := rfl
@[simp] theorem chanState_time (s : State) (c : Nat) (new : ChState) (reason testId pclk : Nat) :
    (chanState s c new reason testId pclk).time = s.time := rfl
@[simp] theorem chanState_gnss (s : State) (c : Nat) (new : ChState) (reason testId pclk : Nat) :
    (chanState s c new reason testId pclk).gnss = s.gnss := rfl
@[simp] theorem chanState_ref (s : State) (c : Nat) (new : ChState) (reason testId pclk : Nat) :
    (chanState s c new reason testId pclk).ref = s.ref := rfl
@[simp] theorem chanState_buoy (s : State) (c : Nat) (new : ChState) (reason testId pclk : Nat) :
    (chanState s c new reason testId pclk).buoy = s.buoy := rfl
@[simp] theorem chanState_sess (s : State) (c : Nat) (new : ChState) (reason testId pclk : Nat) :
    (chanState s c new reason testId pclk).sess = s.sess := rfl
@[simp] theorem chanState_strt (s : State) (c : Nat) (new : ChState) (reason testId pclk : Nat) :
    (chanState s c new reason testId pclk).strt = s.strt := rfl
@[simp] theorem chanState_holds (s : State) (c : Nat) (new : ChState) (reason testId pclk : Nat) :
    (chanState s c new reason testId pclk).holds = s.holds := rfl
@[simp] theorem chanState_allot (s : State) (c : Nat) (new : ChState) (reason testId pclk : Nat) :
    (chanState s c new reason testId pclk).allot = s.allot := rfl
@[simp] theorem chanState_radio (s : State) (c : Nat) (new : ChState) (reason testId pclk : Nat) :
    (chanState s c new reason testId pclk).radio = s.radio := rfl
@[simp] theorem chanState_can (s : State) (c : Nat) (new : ChState) (reason testId pclk : Nat) :
    (chanState s c new reason testId pclk).can = s.can := rfl
@[simp] theorem chanState_ports (s : State) (c : Nat) (new : ChState) (reason testId pclk : Nat) :
    (chanState s c new reason testId pclk).ports = s.ports := rfl
@[simp] theorem chanState_sec (s : State) (c : Nat) (new : ChState) (reason testId pclk : Nat) :
    (chanState s c new reason testId pclk).sec = s.sec := rfl
@[simp] theorem chanState_upd (s : State) (c : Nat) (new : ChState) (reason testId pclk : Nat) :
    (chanState s c new reason testId pclk).upd = s.upd := rfl
@[simp] theorem noteChan_pending (s : State) (c : Nat) (new old : ChState) (reason testId time : Nat) :
    (noteChan s c new old reason testId time).pending = s.pending := rfl
@[simp] theorem noteChan_freeCtr (s : State) (c : Nat) (new old : ChState) (reason testId time : Nat) :
    (noteChan s c new old reason testId time).freeCtr = s.freeCtr := rfl
@[simp] theorem noteChan_fuse (s : State) (c : Nat) (new old : ChState) (reason testId time : Nat) :
    (noteChan s c new old reason testId time).fuse = s.fuse := rfl
@[simp] theorem noteChan_flash (s : State) (c : Nat) (new old : ChState) (reason testId time : Nat) :
    (noteChan s c new old reason testId time).flash = s.flash := rfl
@[simp] theorem noteChan_p (s : State) (c : Nat) (new old : ChState) (reason testId time : Nat) :
    (noteChan s c new old reason testId time).p = s.p := rfl
@[simp] theorem noteChan_nv (s : State) (c : Nat) (new old : ChState) (reason testId time : Nat) :
    (noteChan s c new old reason testId time).nv = s.nv := rfl
@[simp] theorem noteChan_bk (s : State) (c : Nat) (new old : ChState) (reason testId time : Nat) :
    (noteChan s c new old reason testId time).bk = s.bk := rfl
@[simp] theorem noteChan_clk (s : State) (c : Nat) (new old : ChState) (reason testId time : Nat) :
    (noteChan s c new old reason testId time).clk = s.clk := rfl
@[simp] theorem noteChan_cores (s : State) (c : Nat) (new old : ChState) (reason testId time : Nat) :
    (noteChan s c new old reason testId time).cores = s.cores := rfl
@[simp] theorem noteChan_mode (s : State) (c : Nat) (new old : ChState) (reason testId time : Nat) :
    (noteChan s c new old reason testId time).mode = s.mode := rfl
@[simp] theorem noteChan_supply (s : State) (c : Nat) (new old : ChState) (reason testId time : Nat) :
    (noteChan s c new old reason testId time).supply = s.supply := rfl
@[simp] theorem noteChan_edtor (s : State) (c : Nat) (new old : ChState) (reason testId time : Nat) :
    (noteChan s c new old reason testId time).edtor = s.edtor := rfl
@[simp] theorem noteChan_com (s : State) (c : Nat) (new old : ChState) (reason testId time : Nat) :
    (noteChan s c new old reason testId time).com = s.com := rfl
@[simp] theorem noteChan_queues (s : State) (c : Nat) (new old : ChState) (reason testId time : Nat) :
    (noteChan s c new old reason testId time).queues = s.queues := rfl
@[simp] theorem noteChan_time (s : State) (c : Nat) (new old : ChState) (reason testId time : Nat) :
    (noteChan s c new old reason testId time).time = s.time := rfl
@[simp] theorem noteChan_gnss (s : State) (c : Nat) (new old : ChState) (reason testId time : Nat) :
    (noteChan s c new old reason testId time).gnss = s.gnss := rfl
@[simp] theorem noteChan_ref (s : State) (c : Nat) (new old : ChState) (reason testId time : Nat) :
    (noteChan s c new old reason testId time).ref = s.ref := rfl
@[simp] theorem noteChan_buoy (s : State) (c : Nat) (new old : ChState) (reason testId time : Nat) :
    (noteChan s c new old reason testId time).buoy = s.buoy := rfl
@[simp] theorem noteChan_sess (s : State) (c : Nat) (new old : ChState) (reason testId time : Nat) :
    (noteChan s c new old reason testId time).sess = s.sess := rfl
@[simp] theorem noteChan_strt (s : State) (c : Nat) (new old : ChState) (reason testId time : Nat) :
    (noteChan s c new old reason testId time).strt = s.strt := rfl
@[simp] theorem noteChan_holds (s : State) (c : Nat) (new old : ChState) (reason testId time : Nat) :
    (noteChan s c new old reason testId time).holds = s.holds := rfl
@[simp] theorem noteChan_allot (s : State) (c : Nat) (new old : ChState) (reason testId time : Nat) :
    (noteChan s c new old reason testId time).allot = s.allot := rfl
@[simp] theorem noteChan_radio (s : State) (c : Nat) (new old : ChState) (reason testId time : Nat) :
    (noteChan s c new old reason testId time).radio = s.radio := rfl
@[simp] theorem noteChan_can (s : State) (c : Nat) (new old : ChState) (reason testId time : Nat) :
    (noteChan s c new old reason testId time).can = s.can := rfl
@[simp] theorem noteChan_ports (s : State) (c : Nat) (new old : ChState) (reason testId time : Nat) :
    (noteChan s c new old reason testId time).ports = s.ports := rfl
@[simp] theorem noteChan_sec (s : State) (c : Nat) (new old : ChState) (reason testId time : Nat) :
    (noteChan s c new old reason testId time).sec = s.sec := rfl
@[simp] theorem noteChan_upd (s : State) (c : Nat) (new old : ChState) (reason testId time : Nat) :
    (noteChan s c new old reason testId time).upd = s.upd := rfl
@[simp] theorem driveSwitches_pending (s : State) :
    (driveSwitches s).pending = s.pending := rfl
@[simp] theorem driveSwitches_freeCtr (s : State) :
    (driveSwitches s).freeCtr = s.freeCtr := rfl
@[simp] theorem driveSwitches_fuse (s : State) :
    (driveSwitches s).fuse = s.fuse := rfl
@[simp] theorem driveSwitches_flash (s : State) :
    (driveSwitches s).flash = s.flash := rfl
@[simp] theorem driveSwitches_p (s : State) :
    (driveSwitches s).p = s.p := rfl
@[simp] theorem driveSwitches_nv (s : State) :
    (driveSwitches s).nv = s.nv := rfl
@[simp] theorem driveSwitches_bk (s : State) :
    (driveSwitches s).bk = s.bk := rfl
@[simp] theorem driveSwitches_clk (s : State) :
    (driveSwitches s).clk = s.clk := rfl
@[simp] theorem driveSwitches_cores (s : State) :
    (driveSwitches s).cores = s.cores := rfl
@[simp] theorem driveSwitches_mode (s : State) :
    (driveSwitches s).mode = s.mode := rfl
@[simp] theorem driveSwitches_supply (s : State) :
    (driveSwitches s).supply = s.supply := rfl
@[simp] theorem driveSwitches_edtor (s : State) :
    (driveSwitches s).edtor = s.edtor := rfl
@[simp] theorem driveSwitches_com (s : State) :
    (driveSwitches s).com = s.com := rfl
@[simp] theorem driveSwitches_queues (s : State) :
    (driveSwitches s).queues = s.queues := rfl
@[simp] theorem driveSwitches_time (s : State) :
    (driveSwitches s).time = s.time := rfl
@[simp] theorem driveSwitches_gnss (s : State) :
    (driveSwitches s).gnss = s.gnss := rfl
@[simp] theorem driveSwitches_ref (s : State) :
    (driveSwitches s).ref = s.ref := rfl
@[simp] theorem driveSwitches_buoy (s : State) :
    (driveSwitches s).buoy = s.buoy := rfl
@[simp] theorem driveSwitches_sess (s : State) :
    (driveSwitches s).sess = s.sess := rfl
@[simp] theorem driveSwitches_strt (s : State) :
    (driveSwitches s).strt = s.strt := rfl
@[simp] theorem driveSwitches_holds (s : State) :
    (driveSwitches s).holds = s.holds := rfl
@[simp] theorem driveSwitches_allot (s : State) :
    (driveSwitches s).allot = s.allot := rfl
@[simp] theorem driveSwitches_radio (s : State) :
    (driveSwitches s).radio = s.radio := rfl
@[simp] theorem driveSwitches_can (s : State) :
    (driveSwitches s).can = s.can := rfl
@[simp] theorem driveSwitches_ports (s : State) :
    (driveSwitches s).ports = s.ports := rfl
@[simp] theorem driveSwitches_sec (s : State) :
    (driveSwitches s).sec = s.sec := rfl
@[simp] theorem driveSwitches_upd (s : State) :
    (driveSwitches s).upd = s.upd := rfl
@[simp] theorem countUncorrected_pending (s : State) (k : Nat) :
    (countUncorrected s k).pending = s.pending := rfl
@[simp] theorem countUncorrected_freeCtr (s : State) (k : Nat) :
    (countUncorrected s k).freeCtr = s.freeCtr := rfl
@[simp] theorem countUncorrected_fuse (s : State) (k : Nat) :
    (countUncorrected s k).fuse = s.fuse := rfl
@[simp] theorem countUncorrected_flash (s : State) (k : Nat) :
    (countUncorrected s k).flash = s.flash := rfl
@[simp] theorem countUncorrected_nv (s : State) (k : Nat) :
    (countUncorrected s k).nv = s.nv := rfl
@[simp] theorem countUncorrected_bk (s : State) (k : Nat) :
    (countUncorrected s k).bk = s.bk := rfl
@[simp] theorem countUncorrected_clk (s : State) (k : Nat) :
    (countUncorrected s k).clk = s.clk := rfl
@[simp] theorem countUncorrected_cores (s : State) (k : Nat) :
    (countUncorrected s k).cores = s.cores := rfl
@[simp] theorem countUncorrected_mode (s : State) (k : Nat) :
    (countUncorrected s k).mode = s.mode := rfl
@[simp] theorem countUncorrected_supply (s : State) (k : Nat) :
    (countUncorrected s k).supply = s.supply := rfl
@[simp] theorem countUncorrected_edtor (s : State) (k : Nat) :
    (countUncorrected s k).edtor = s.edtor := rfl
@[simp] theorem countUncorrected_com (s : State) (k : Nat) :
    (countUncorrected s k).com = s.com := rfl
@[simp] theorem countUncorrected_queues (s : State) (k : Nat) :
    (countUncorrected s k).queues = s.queues := rfl
@[simp] theorem countUncorrected_time (s : State) (k : Nat) :
    (countUncorrected s k).time = s.time := rfl
@[simp] theorem countUncorrected_gnss (s : State) (k : Nat) :
    (countUncorrected s k).gnss = s.gnss := rfl
@[simp] theorem countUncorrected_ref (s : State) (k : Nat) :
    (countUncorrected s k).ref = s.ref := rfl
@[simp] theorem countUncorrected_buoy (s : State) (k : Nat) :
    (countUncorrected s k).buoy = s.buoy := rfl
@[simp] theorem countUncorrected_sess (s : State) (k : Nat) :
    (countUncorrected s k).sess = s.sess := rfl
@[simp] theorem countUncorrected_strt (s : State) (k : Nat) :
    (countUncorrected s k).strt = s.strt := rfl
@[simp] theorem countUncorrected_holds (s : State) (k : Nat) :
    (countUncorrected s k).holds = s.holds := rfl
@[simp] theorem countUncorrected_allot (s : State) (k : Nat) :
    (countUncorrected s k).allot = s.allot := rfl
@[simp] theorem countUncorrected_stop (s : State) (k : Nat) :
    (countUncorrected s k).stop = s.stop := rfl
@[simp] theorem countUncorrected_radio (s : State) (k : Nat) :
    (countUncorrected s k).radio = s.radio := rfl
@[simp] theorem countUncorrected_can (s : State) (k : Nat) :
    (countUncorrected s k).can = s.can := rfl
@[simp] theorem countUncorrected_ports (s : State) (k : Nat) :
    (countUncorrected s k).ports = s.ports := rfl
@[simp] theorem countUncorrected_sec (s : State) (k : Nat) :
    (countUncorrected s k).sec = s.sec := rfl
@[simp] theorem countUncorrected_upd (s : State) (k : Nat) :
    (countUncorrected s k).upd = s.upd := rfl
@[simp] theorem countUncorrected_p_control (s : State) (k : Nat) :
    (countUncorrected s k).p.control = s.p.control := rfl
@[simp] theorem countUncorrected_p_power (s : State) (k : Nat) :
    (countUncorrected s k).p.power = s.p.power := rfl
@[simp] theorem countUncorrected_p_timeCfg (s : State) (k : Nat) :
    (countUncorrected s k).p.timeCfg = s.p.timeCfg := rfl
@[simp] theorem countUncorrected_p_timeRec (s : State) (k : Nat) :
    (countUncorrected s k).p.timeRec = s.p.timeRec := rfl
@[simp] theorem countUncorrected_p_gnssCfg (s : State) (k : Nat) :
    (countUncorrected s k).p.gnssCfg = s.p.gnssCfg := rfl
@[simp] theorem countUncorrected_p_refCfg (s : State) (k : Nat) :
    (countUncorrected s k).p.refCfg = s.p.refCfg := rfl
@[simp] theorem countUncorrected_p_refFrame (s : State) (k : Nat) :
    (countUncorrected s k).p.refFrame = s.p.refFrame := rfl
@[simp] theorem countUncorrected_p_buoyCfg (s : State) (k : Nat) :
    (countUncorrected s k).p.buoyCfg = s.p.buoyCfg := rfl
@[simp] theorem countUncorrected_p_anchors (s : State) (k : Nat) :
    (countUncorrected s k).p.anchors = s.p.anchors := rfl
@[simp] theorem countUncorrected_p_zones (s : State) (k : Nat) :
    (countUncorrected s k).p.zones = s.p.zones := rfl
@[simp] theorem countUncorrected_p_zoneRev (s : State) (k : Nat) :
    (countUncorrected s k).p.zoneRev = s.p.zoneRev := rfl
@[simp] theorem countUncorrected_p_zoneEffect (s : State) (k : Nat) :
    (countUncorrected s k).p.zoneEffect = s.p.zoneEffect := rfl
@[simp] theorem countUncorrected_p_classes (s : State) (k : Nat) :
    (countUncorrected s k).p.classes = s.p.classes := rfl
@[simp] theorem countUncorrected_p_robots (s : State) (k : Nat) :
    (countUncorrected s k).p.robots = s.p.robots := rfl
@[simp] theorem countUncorrected_p_sessCfg (s : State) (k : Nat) :
    (countUncorrected s k).p.sessCfg = s.p.sessCfg := rfl
@[simp] theorem countUncorrected_p_grid (s : State) (k : Nat) :
    (countUncorrected s k).p.grid = s.p.grid := rfl
@[simp] theorem countUncorrected_p_holds (s : State) (k : Nat) :
    (countUncorrected s k).p.holds = s.p.holds := rfl
@[simp] theorem countUncorrected_p_tasks (s : State) (k : Nat) :
    (countUncorrected s k).p.tasks = s.p.tasks := rfl
@[simp] theorem countUncorrected_p_taskCfg (s : State) (k : Nat) :
    (countUncorrected s k).p.taskCfg = s.p.taskCfg := rfl
@[simp] theorem countUncorrected_p_stopCfg (s : State) (k : Nat) :
    (countUncorrected s k).p.stopCfg = s.p.stopCfg := rfl
@[simp] theorem countUncorrected_p_radio (s : State) (k : Nat) :
    (countUncorrected s k).p.radio = s.p.radio := rfl
@[simp] theorem countUncorrected_p_can (s : State) (k : Nat) :
    (countUncorrected s k).p.can = s.p.can := rfl
@[simp] theorem countUncorrected_p_net (s : State) (k : Nat) :
    (countUncorrected s k).p.net = s.p.net := rfl
@[simp] theorem countUncorrected_p_aux (s : State) (k : Nat) :
    (countUncorrected s k).p.aux = s.p.aux := rfl
@[simp] theorem countUncorrected_p_keys (s : State) (k : Nat) :
    (countUncorrected s k).p.keys = s.p.keys := rfl
@[simp] theorem countUncorrected_p_upd (s : State) (k : Nat) :
    (countUncorrected s k).p.upd = s.p.upd := rfl
@[simp] theorem countUncorrected_p_queueCfg (s : State) (k : Nat) :
    (countUncorrected s k).p.queueCfg = s.p.queueCfg := rfl
@[simp] theorem countUncorrected_p_unreadable (s : State) (k : Nat) :
    (countUncorrected s k).p.unreadable = s.p.unreadable := rfl

end Sys2Proof.Machine
end

