-- ==== Sys2Proof/Laws/Stop.lean ====
section
/-! SUPPORT. What a change of the stop path can do (R370, R372): one lemma for `changeStop`. -/

namespace Sys2Proof.Laws

open Sys2Proof Sys2Proof.Machine

/-- The second state differs from the first by nothing but the vote and what announces it: the switches, the stop frames, the
events noted for the FC and the mode triggers. -/
structure StopSame (a b : State) : Prop where
  rest : b = { a with stop := b.stop, mode := { a.mode with later := b.mode.later } }
  chans : b.stop.chans = a.stop.chans
  slA : b.stop.slA = a.stop.slA
  slB : b.stop.slB = a.stop.slB
  lead : b.stop.lead = a.stop.lead
  release : b.stop.release = a.stop.release
  filter : b.stop.filter = a.stop.filter
  filterRecs : b.stop.filterRecs = a.stop.filterRecs
  filterReject : b.stop.filterReject = a.stop.filterReject
  outputFault : b.stop.outputFault = a.stop.outputFault
  evs : b.stop.evs = a.stop.evs

/-- The vote drives both switches alike, and only while no output is faulty and every channel has its clock. -/
structure Driven (t : State) : Prop where
  same : t.stop.sw1 = t.stop.sw2
  on : t.stop.sw1 = (t.stop.voted && !t.stop.outputFault && !(t.stop.chans.any (·.clockLost)))

theorem StopSame.refl (s : State) : StopSame s s := ⟨rfl, rfl, rfl, rfl, rfl, rfl, rfl, rfl, rfl, rfl, rfl⟩

theorem StopSame.trans {a b c : State} (h : StopSame a b) (k : StopSame b c) : StopSame a c := by
  obtain ⟨r, h1, h2, h3, h4, h5, h6, h7, h8, h9, h10⟩ := h
  obtain ⟨q, k1, k2, k3, k4, k5, k6, k7, k8, k9, k10⟩ := k
  refine ⟨?_, k1.trans h1, k2.trans h2, k3.trans h3, k4.trans h4, k5.trans h5, k6.trans h6, k7.trans h7, k8.trans h8, k9.trans h9, k10.trans h10⟩
  rw [r] at q; exact q

/-- Whether the firmware runs is the mode's. -/
theorem running_same {a b : State} (h : StopSame a b) : running b = running a := by
  have hm : b.mode.cur = a.mode.cur := by rw [h.rest]
  simp [running, edtorRuns, hm]

/-- An announcement: everything but the queue of announcements, the vote and the switches stays too. -/
structure Announced (a b : State) : Prop extends StopSame a b where
  voted : b.stop.voted = a.stop.voted
  sw1 : b.stop.sw1 = a.stop.sw1
  sw2 : b.stop.sw2 = a.stop.sw2

theorem Announced.trans {a b c : State} (h : Announced a b) (k : Announced b c) : Announced a c :=
  ⟨h.toStopSame.trans k.toStopSame, k.voted.trans h.voted, k.sw1.trans h.sw1, k.sw2.trans h.sw2⟩

theorem Announced.refl (s : State) : Announced s s := ⟨.refl s, rfl, rfl, rfl⟩

theorem noteRobot_announced (s : State) (e : Nat × Nat × Nat × Nat) : Announced s (noteRobot s e) :=
  ⟨⟨rfl, rfl, rfl, rfl, rfl, rfl, rfl, rfl, rfl, rfl, rfl⟩, rfl, rfl, rfl⟩

theorem noteRobots_announced {β : Type} (l : List β) (e : State → β → Nat × Nat × Nat × Nat) (s : State) :
    Announced s (l.foldl (fun t i => noteRobot t (e t i)) s) := by
  induction l generalizing s with
  | nil => exact .refl s
  | cons x l ih => exact (noteRobot_announced s (e s x)).trans (ih _)

theorem stopFrames_announced (s t : State) (pclk : Nat) : Announced t (stopFrames s t pclk) := by
  have key : ∀ (g : Nat) (w : Bool × BitVec 256) (u : State), u = { t with stop.stopTarget := g, stop.stopWas := w } →
      Announced t (if u.stop.voted && robotStops u == 0 then { u with stop.stopUntil := min u.stop.stopUntil g }
        else { u with
          stop.stopFrom := if u.stop.stopUntil ≤ g then g else u.stop.stopFrom
          stop.stopUntil := g + 80 }) := by
    intro g w u hu
    have h : Announced t u := by subst hu; exact ⟨⟨rfl, rfl, rfl, rfl, rfl, rfl, rfl, rfl, rfl, rfl, rfl⟩, rfl, rfl, rfl⟩
    refine h.trans ?_
    clear h hu
    split <;> exact ⟨⟨rfl, rfl, rfl, rfl, rfl, rfl, rfl, rfl, rfl, rfl, rfl⟩, rfl, rfl, rfl⟩
  exact key _ _ _ rfl

theorem voteChanged_announced (s : State) (time : Nat) : Announced s (voteChanged s time) := by
  unfold voteChanged
  extract_lets u
  split <;> exact ⟨⟨rfl, rfl, rfl, rfl, rfl, rfl, rfl, rfl, rfl, rfl, rfl⟩, rfl, rfl, rfl⟩

/-- What `changeStop` does beside the change itself: the vote is taken again, the switches follow it, and it is announced. -/
theorem changeStop_announced (s : State) (pclk : Nat) (f : State → State) :
    Announced (driveSwitches { f s with stop.voted := voteOf (f s) }) (changeStop s pclk f) := by
  unfold changeStop
  simp only
  split
  · exact .refl _
  · refine Announced.trans ?_ (noteRobots_announced _ _ _)
    refine (stopFrames_announced s _ pclk).trans ?_
    split
    · exact .refl _
    · exact voteChanged_announced _ _

/-- After a change of the stop path: nothing but the change and what announces it, the vote that of the channels, and both
switches driven by the vote while no output is faulty and no channel has lost its clock (R370, R373). -/
theorem changeStop_same (s : State) (pclk : Nat) (f : State → State) :
    StopSame (f s) (changeStop s pclk f) ∧ Driven (changeStop s pclk f)
      ∧ (changeStop s pclk f).stop.voted = voteOf (changeStop s pclk f) := by
  have h := changeStop_announced s pclk f
  have a : StopSame (f s) (driveSwitches { f s with stop.voted := voteOf (f s) }) :=
    ⟨rfl, rfl, rfl, rfl, rfl, rfl, rfl, rfl, rfl, rfl, rfl⟩
  have hs := a.trans h.toStopSame
  refine ⟨hs, ⟨by rw [h.sw1, h.sw2]; rfl, ?_⟩, ?_⟩
  · rw [h.sw1, h.voted, h.outputFault, h.chans]; rfl
  · rw [h.voted]; simp [voteOf, running_same hs, hs.chans, driveSwitches]

end Sys2Proof.Laws
end

