-- ==== Sys2Proof/Laws/Table.lean ====
section
/-! SUPPORT. Reading what was written in a table of objects, and the canonical form that every table operation keeps. -/

namespace Sys2Proof.Machine

open Sys2Proof

variable {α : Type}

/-! ### Reads after writes -/

@[simp] theorem tget_tput_same (t : Tbl α) (i : Nat) (x : α) : tget (tput t i x) i = some x := by
  induction t with
  | nil => simp [tput, tget]
  | cons e t ih =>
    obtain ⟨k, v⟩ := e
    simp only [tput]
    split
    · simp [tget]
    · split
      · simp [tget]
      · next h => simp [tget, Ne.symm h, ih]

theorem tget_tput_other (t : Tbl α) {i j : Nat} (x : α) (h : j ≠ i) : tget (tput t i x) j = tget t j := by
  induction t with
  | nil => simp [tput, tget, Ne.symm h]
  | cons e t ih =>
    obtain ⟨k, v⟩ := e
    simp only [tput]
    split
    · simp [tget, Ne.symm h]
    · split
      · next hk => subst hk; simp [tget, Ne.symm h]
      · simp [tget, ih]

@[simp] theorem tgetD_tput_same (t : Tbl α) (i : Nat) (x d : α) : tgetD (tput t i x) i d = x := by simp [tgetD]

theorem tgetD_tput_other (t : Tbl α) {i j : Nat} (x d : α) (h : j ≠ i) : tgetD (tput t i x) j d = tgetD t j d := by
  simp [tgetD, tget_tput_other t x h]

@[simp] theorem tgetD_tmod_same (t : Tbl α) (i : Nat) (d : α) (f : α → α) : tgetD (tmod t i d f) i d = f (tgetD t i d) := by
  simp [tmod]

theorem tgetD_tmod_other (t : Tbl α) {i j : Nat} (d : α) (f : α → α) (h : j ≠ i) : tgetD (tmod t i d f) j d = tgetD t j d := by
  simp [tmod, tgetD_tput_other t _ d h]

theorem tget_tdel_other (t : Tbl α) {i j : Nat} (h : j ≠ i) : tget (tdel t i) j = tget t j := by
  induction t with
  | nil => rfl
  | cons e t ih =>
    obtain ⟨k, v⟩ := e
    simp only [tdel]
    split
    · next hk => subst hk; simp [tget, Ne.symm h]
    · simp [tget, ih]

theorem tget_tmap (t : Tbl α) (f : Nat → α → α) (i : Nat) : tget (tmap t f) i = (tget t i).map (f i) := by
  induction t with
  | nil => rfl
  | cons e t ih =>
    obtain ⟨k, v⟩ := e
    have ih' : tget (List.map (fun e => (e.1, f e.1 e.2)) t) i = (tget t i).map (f i) := ih
    simp only [tmap, List.map_cons, tget, ih']
    split
    · next hk => subst hk; rfl
    · rfl

/-! ### The order of the indexes -/

/-- Rising indexes, as a statement about any two entries. -/
theorem sorted_iff (t : Tbl α) : Tbl.sorted t = true ↔ t.Pairwise fun a b => a.1 < b.1 := by
  induction t with
  | nil => simp [Tbl.sorted]
  | cons a t ih =>
    cases t with
    | nil => simp [Tbl.sorted]
    | cons b t =>
      obtain ⟨k, v⟩ := a
      obtain ⟨k', v'⟩ := b
      have ih' : Tbl.sorted ((k', v') :: t) = true ↔ ((k', v') :: t).Pairwise fun a b => a.1 < b.1 := ih
      simp only [Tbl.sorted, Bool.and_eq_true, decide_eq_true_eq, ih', List.pairwise_cons]
      constructor
      · rintro ⟨h, h', hp⟩
        refine ⟨?_, h', hp⟩
        intro c hc
        rcases List.mem_cons.mp hc with rfl | hc
        · exact h
        · exact Nat.lt_trans h (h' c hc)
      · rintro ⟨h, h', hp⟩
        exact ⟨h (k', v') (List.mem_cons_self ..), h', hp⟩

theorem mem_tput {t : Tbl α} {i : Nat} {x : α} {e : Nat × α} (h : e ∈ tput t i x) : e = (i, x) ∨ e ∈ t := by
  induction t with
  | nil => simpa [tput] using h
  | cons a t ih =>
    obtain ⟨k, v⟩ := a
    simp only [tput] at h
    split at h
    · simpa using h
    · split at h
      · rcases List.mem_cons.mp h with h | h <;> simp [h]
      · rcases List.mem_cons.mp h with h | h
        · simp [h]
        · rcases ih h with h | h <;> simp [h]

theorem mem_tdel {t : Tbl α} {i : Nat} {e : Nat × α} (h : e ∈ tdel t i) : e ∈ t := by
  induction t with
  | nil => simp [tdel] at h
  | cons a t ih =>
    obtain ⟨k, v⟩ := a
    simp only [tdel] at h
    split at h
    · simp [h]
    · rcases List.mem_cons.mp h with h | h
      · simp [h]
      · simp [ih h]

theorem tput_sorted {t : Tbl α} (h : Tbl.sorted t = true) (i : Nat) (x : α) : Tbl.sorted (tput t i x) = true := by
  rw [sorted_iff] at h ⊢
  induction t with
  | nil => simp [tput]
  | cons a t ih =>
    obtain ⟨k, v⟩ := a
    rw [List.pairwise_cons] at h
    simp only [tput]
    split
    · next hi =>
      refine List.pairwise_cons.mpr ⟨?_, List.pairwise_cons.mpr h⟩
      intro c hc
      rcases List.mem_cons.mp hc with rfl | hc
      · exact hi
      · exact Nat.lt_trans hi (h.1 c hc)
    · split
      · next hk => subst hk; exact List.pairwise_cons.mpr h
      · next hlt hne =>
        refine List.pairwise_cons.mpr ⟨?_, ih h.2⟩
        intro c hc
        rcases mem_tput hc with rfl | hc
        · simp only at hlt hne ⊢; omega
        · exact h.1 c hc

theorem tdel_sorted {t : Tbl α} (h : Tbl.sorted t = true) (i : Nat) : Tbl.sorted (tdel t i) = true := by
  rw [sorted_iff] at h ⊢
  induction t with
  | nil => simp [tdel]
  | cons a t ih =>
    obtain ⟨k, v⟩ := a
    rw [List.pairwise_cons] at h
    simp only [tdel]
    split
    · exact h.2
    · exact List.pairwise_cons.mpr ⟨fun c hc => h.1 c (mem_tdel hc), ih h.2⟩

theorem filter_sorted {t : Tbl α} (h : Tbl.sorted t = true) (p : Nat × α → Bool) : Tbl.sorted (t.filter p) = true := by
  rw [sorted_iff] at h ⊢
  exact h.filter p

theorem map_sorted {t : Tbl α} (h : Tbl.sorted t = true) (f : Nat × α → α) : Tbl.sorted (t.map fun e => (e.1, f e)) = true := by
  rw [sorted_iff] at h ⊢
  exact List.pairwise_map.mpr h

/-! ### The reservation table (R298) -/

theorem waysWf_iff (t : Tbl (BitVec 64)) : waysWf t = true ↔ Tbl.sorted t = true ∧ ∀ e ∈ t, e.2 ≠ freeWord := by
  simp [waysWf, List.all_eq_true]

/-- Writing a way keeps the canonical form. -/
theorem putWay_wf {t : Tbl (BitVec 64)} (h : waysWf t = true) (i : Nat) (w : BitVec 64) : waysWf (putWay t i w) = true := by
  rw [waysWf_iff] at h ⊢
  unfold putWay
  split
  · exact ⟨tdel_sorted h.1 i, fun e he => h.2 e (mem_tdel he)⟩
  · next hw =>
    refine ⟨tput_sorted h.1 i w, fun e he => ?_⟩
    rcases mem_tput he with rfl | he
    · exact hw
    · exact h.2 e he

/-- Freeing a way keeps the canonical form. -/
theorem tdel_wf {t : Tbl (BitVec 64)} (h : waysWf t = true) (i : Nat) : waysWf (tdel t i) = true := by
  rw [waysWf_iff] at h ⊢
  exact ⟨tdel_sorted h.1 i, fun e he => h.2 e (mem_tdel he)⟩

/-- Freeing several ways at once keeps the canonical form. -/
theorem filter_wf {t : Tbl (BitVec 64)} (h : waysWf t = true) (p : Nat × BitVec 64 → Bool) : waysWf (t.filter p) = true := by
  rw [waysWf_iff] at h ⊢
  exact ⟨filter_sorted h.1 p, fun e he => h.2 e (List.mem_of_mem_filter he)⟩

/-- Rewriting the words of ways keeps the canonical form where no word becomes that of a free way. -/
theorem map_wf {t : Tbl (BitVec 64)} (h : waysWf t = true) (f : Nat × BitVec 64 → BitVec 64)
    (hf : ∀ e ∈ t, f e ≠ freeWord) : waysWf (t.map fun e => (e.1, f e)) = true := by
  rw [waysWf_iff] at h ⊢
  refine ⟨map_sorted h.1 f, fun e he => ?_⟩
  obtain ⟨a, ha, rfl⟩ := List.mem_map.mp he
  exact hf a ha

/-- A way not written reads as before. -/
theorem wayAt_putWay_other (t : Tbl (BitVec 64)) {i j : Nat} (w : BitVec 64) (h : j ≠ i) : wayAt (putWay t i w) j = wayAt t j := by
  unfold wayAt putWay tgetD
  split
  · rw [tget_tdel_other t h]
  · rw [tget_tput_other t w h]

end Sys2Proof.Machine
end

