-- ==== Sys2Proof/Tests/Slice0.lean ====
section
/-! SUPPORT. Tests: states and operands that meet the hypotheses of the statements, ill-formed commands that the check
refuses, and single commands whose result the specification gives as numbers. -/

set_option Elab.async false

namespace Sys2Proof.Tests

open Sys2Proof Sys2Proof.Machine

/-! ### Small states -/

/-- A SERVICE session of slot 0 on L23. -/
def sess0 : Session := { sopen := true, id := 0x0104, role := .service, port := .l23, key := zb 32 }
/-- A mode with that session open. -/
def stIn (m : Mode) : State := { State.reset with mode.cur := m, edtor.sessions := [(0, sess0)] }
/-- A command of the session. -/
def rq (op : Nat) (p : Bytes) : Request := { slot := 0, sessionId := 0x0104, port := .l23, opcode := op, payload := p }
/-- FOG with a cause. -/
def fogSt (cause : Nat) : State := { stIn .fog with mode.fogCause := cause }
/-- The session is an OPERATOR's. -/
def opSt : State := { stIn .calm with edtor.sessions := [(0, { sess0 with role := .operator })] }
/-- TENDER with everything SYS_TENDER_CLOSE asks for. -/
def readyTender : State :=
  { stIn .tender with
    bk.slots := [(0, { valid := true })], p.refFrame.frameSet := true, p.grid := { cellMm := 500, nx := 100, ny := 100 }
    p.control.hosts := [(0, { enrolled := true, ceiling := .supervisor })] }
/-- A second session in slot 1. -/
def twoSessions : State := { stIn .calm with edtor.sessions := [(0, sess0), (1, { sess0 with id := 0x0105 })] }
/-- Two enrolled hosts, the session belonging to host 0. -/
def twoHosts : State :=
  { stIn .calm with
    p.control.hosts := [(0, { enrolled := true, ceiling := .supervisor }), (1, { enrolled := true, ceiling := .supervisor })] }
/-- WATCH, anchor 0 in sync with a staged image. -/
def relaySt : State :=
  { stIn .watch with
    buoy.anchors := [(0, { state := .inSync, rstate := 2 })], upd.staged := true
    flash.a := { pkg := { anchors := [(0xA0, 0, 0, 5)] } } }
/-- Robot class 0 is defined. -/
def classSt : State := { stIn .calm with p.classes := [(0, { flags := 1 })] }
/-- A grid of 100 by 100 cells. -/
def gridSt : State :=
  { classSt with p.grid := { cellMm := 500, nx := 100, ny := 100 }, strt.grid := { cellMm := 500, nx := 100, ny := 100 } }
/-- A task record: KIND 5, one waypoint, the lowest free index. -/
def taskRecord : Bytes := le 1 5 ++ le 1 0 ++ le 2 0xFFFF ++ le 4 1 ++ le 4 1000 ++ le 1 1 ++ zb 3 ++ zb 16 ++ (zb 4 ++ le 1 0xFF ++ zb 3) ++ zb 120
/-- Task 3 is POSTED. -/
def taskSt : State := { gridSt with p.tasks := [(3, { state := .posted, classMask := 1 })] }
/-- Two voting channels, robot 7 stopped. -/
def stoppedSt : State :=
  { stIn .calm with stop.chans := [{ state := .voting, robotStop := 2 ^ 7 }, { state := .voting, robotStop := 2 ^ 7 }, {}] }
/-- An arm of the session. -/
def armOf (site : Bool) : ReleaseArm := { armId := 5, sessionId := 0x0104, site := site, robot := 7 }
/-- It is armed. -/
def armedSt : State := { stoppedSt with stop.arms := [armOf false] }
/-- CAN_CONFIG of channel 1. -/
def canReq : Request :=
  rq 0x0B02 (le 1 1 ++ le 1 2 ++ le 2 500 ++ le 2 2000 ++ le 1 80 ++ le 1 75 ++ le 1 1 ++ le 1 2 ++ le 2 0x010 ++ le 1 0 ++ le 1 100
    ++ le 1 1 ++ le 1 0 ++ zb 24)
/-- CAN_RULE_SET reading channel 1's rules. -/
def ruleRead : Bytes := zb 13 ++ le 1 0xFF ++ zb 6
/-- CAN_SEND of one frame of one byte on channel 1. -/
def canFrame : Bytes := le 1 1 ++ le 1 1 ++ zb 2 ++ (le 4 0x123 ++ le 1 1 ++ zb 3 ++ le 1 0xAB ++ zb 3)
/-- Channel 1 is on. -/
def canSt : State := { stIn .calm with can := [{}, { state := .errorActive }] }
/-- A download of one byte has begun. -/
def loadSt : State := { stIn .calm with upd.state := 1, upd.len := 1, upd.blocksEver := 1 }
/-- A scheduled activation. -/
def planned : Activation := { a := 50 }
/-- It is SCHEDULED. -/
def plannedSt : State := { stIn .calm with upd.state := 4, upd.act := some planned }
/-- JRNL_QUERY by CSN range. -/
def queryReq : Request := rq 0x0E01 (le 1 3 ++ zb 23 ++ le 8 1 ++ le 8 2)
/-- DIAG_TABLE_WRITE of one RPT entry. -/
def writeReq : Request := rq 0x0F21 (le 1 5 ++ le 1 1 ++ zb 6 ++ (le 4 7 ++ le 1 1 ++ zb 11))
/-- The session as a datagram finds it. -/
def sessL : Session := sess0
/-- CALM in an FC of 10 ms. -/
def linkSt : State := stIn .calm
/-- The key of the session's links. -/
def key0 : Bytes := zb 32
/-- An Edtor header (R39). -/
def headOf (kind seq op len : Nat) : Bytes :=
  le 2 0x4544 ++ le 1 3 ++ le 1 kind ++ le 2 0x0104 ++ le 6 seq ++ le 2 9 ++ le 2 op ++ zb 2 ++ le 2 len ++ zb 12
/-- An Edtor datagram sealed with that key (R43). -/
def packetOf (kind seq op : Nat) (p : Bytes) : Datagram :=
  let head := headOf kind seq op p.length
  let (c, t) := gcmSeal key0 (edtorNonce 0x0104 0 0 seq) head p
  { port := .l23, mac := portMac linkSt .l23, dst := .v4 0xC0A8F801, bytes := head ++ c ++ t }
/-- The same datagram opened. -/
def clearOf (kind seq op : Nat) (p : Bytes) : Datagram := (openDatagram key0 (packetOf kind seq op p)).getD {}
/-- A command. -/
def cmdPacket : Datagram := packetOf 1 1 0x0101 []
/-- The command with its tag spoiled. -/
def badPacket : Datagram := { cmdPacket with bytes := cmdPacket.bytes.take 32 ++ zb 16 }
/-- A credit packet. -/
def creditPacket : Datagram := packetOf 4 1 0 (le 4 100 ++ zb 4)
/-- STOP_ALL. -/
def stopPacket : Datagram := packetOf 1 1 0x0901 (zb 16)
/-- The stop filter's entry of the session. -/
def filterE : FilterEntry := { valid := true, sessionId := 0x0104, port := .l23, key := key0 }
/-- It is loaded. -/
def filterSt : State := { stIn .calm with stop.filter := [(0, filterE)] }
/-- SOLVE, the window of the first test pulse. -/
def pulseSt : State := { stIn .calm with clk.window := .solve }
/-- Channel 0 has matched for 100 FCs. -/
def rejoinSt : State := { stIn .calm with stop.chans := [{ state := .rejoining, matchFc := 100 }, {}, {}] }
/-- A whole second of reported time begins 100 FTU after the boundary. -/
def secondSt : State := { stIn .calm with time.regs.offset := BitVec.ofNat 64 (ftuPerSec - 100) }
/-- A time trigger that is due. -/
def trigOf : TimeTrigger := { action := 1, left := 1, due := 3500 }
/-- In entry 15. -/
def trigSt : State := { stIn .calm with time.triggers := [(15, trigOf)] }
/-- An anchor whose exchange is open. -/
def anchorUp : AnchorLive := { phy := true, state := .inSync, t1 := some 0, key := zb 16 }
/-- On link 0. -/
def anchorSt : State := { stIn .calm with buoy.anchors := [(0, anchorUp)] }
/-- The link key of link 0 is installed. -/
def helloSt : State := { anchorSt with bk.slots := [(1, { valid := true, val0 := zb 32 })] }
/-- An uplink frame of the anchor on link 0 with its MIC. -/
def frameUp (ty ctr : Nat) (p : Bytes) : BuoyFrame :=
  let head := le 1 ty ++ le 1 1 ++ le 2 p.length ++ le 4 ctr ++ zb 8
  { dest := linkMac anchorSt 0, bytes := head ++ p ++ buoyMic (zb 16) 0 ctr 1 (head ++ p) }
/-- One whose MIC does not hold. -/
def frameBad : BuoyFrame := { frameUp 0x82 1 (zb 16) with bytes := (frameUp 0x82 1 (zb 16)).bytes.take 32 ++ zb 8 }
/-- A frame to the link's own address passes the checks of its header (R222): the address is the opaque one of the device. -/
theorem frameOk_of {s : State} {f : BuoyFrame} (h1 : (f.etherType == 0x88B5) = true) (h2 : f.dest = linkMac s f.link)
    (h3 : (bVer f == 1) = true) (h4 : decide (24 + bLen f ≤ f.bytes.length) = true) : frameOk s f = true := by
  simp [frameOk, h1, h2, h3, h4]
/-- A calibration in which links 0 and 1 have heard each other. -/
def calRun : BuoyCal := { heard := List.replicate 80 (0, 1) ++ List.replicate 80 (1, 0) }
/-- A latched message of a type. -/
def msgOf (ty : Nat) : AirMsg := { body := le 1 ty }
/-- An association request of the robot whose EUI is 0. -/
def assocMsg : AirMsg := { body := le 1 0x10 ++ zb 23 }
/-- Its confirmation. -/
def confirmMsg : AirMsg := { body := le 1 0x12 ++ zb 19, kind := 1 }
/-- A position report of session 0. -/
def reportMsg : AirMsg := { body := le 1 0x20 ++ zb 31, kind := 1, session := some 0 }
/-- A plan request of session 0. -/
def planMsg : AirMsg := { body := le 1 0x21 ++ zb 15, kind := 1, session := some 0 }
/-- A sleep message of session 0. -/
def sleepMsg : AirMsg := { body := le 1 0x28 ++ zb 1 ++ le 2 100 ++ zb 12, kind := 1, session := some 0 }
/-- FC 5: an uplink cell. -/
def airSt : State := { stIn .breeze with clk.fcNumber := 5 }
/-- A frame in that cell, on the channel of radio A. -/
def airFrame : AirIn := { channel := hopChannel airSt (radioCfg airSt) 0 (asnOf airSt 0), phy := (radioCfg airSt).phyMode }
/-- One whose header is an uplink's. -/
def airGood : AirIn := { airFrame with psdu := le 2 0xA941 ++ le 2 (panId airSt) ++ zb 4 ++ le 1 4 ++ le 1 1 ++ zb 4 }
/-- SOLVE, the window of slot 1. -/
def radioSt : State := { stIn .calm with clk.window := .solve }
/-- LATCH, the window of slot 0. -/
def radioSt0 : State := stIn .calm
/-- A frame for a downlink cell. -/
def slotFrame : SlotFrame := { psdu := zb 14 }
/-- It waits for slot 1 of FC 0. -/
def slotSt : State := { radioSt with radio.a.queue := [slotFrame] }
/-- The beacon of slot 0 of FC 0. -/
def beaconFrame : SlotFrame := { beacon := true, psdu := zb 14, token := zb 48 }
/-- It waits. -/
def beaconSt : State := { radioSt0 with radio.a.queue := [beaconFrame], stop.voted := true }
/-- A requested test that ends. -/
def testOf (t : Nat) : TestRun := { target := t }
/-- A CAN frame from the bus. -/
def canIn0 : CanIn := { id := 0x123, data := le 1 7 }
/-- A released CAN frame. -/
def stopTx : CanTx := { frame := { id := 0x010 }, releasedFc := some 0 }
/-- A memory fault of core 0. -/
def memIn0 : MemIn := {}

/-! ### States and operands that meet the hypotheses of the statements -/

theorem test_met_StepRunsTheFrontCommand_2 : ∃ (s : State),
    s.pending = [] :=
  ⟨State.reset, by decide +kernel⟩

theorem test_met_WellFormedCommandsAreCarriedOut_1 : ∃ (c : Instr),
    c.wf = true :=
  ⟨(.sysIdentity {}), by decide +kernel⟩

theorem test_met_AbsentUnitsFault_1 : ∃ (c : Instr),
    c.wf = true :=
  ⟨(.lease 3), by decide +kernel⟩

theorem test_met_AbsentUnitsFault_3 : ∃ (n : Nat),
    8 ≤ n :=
  ⟨8, by decide +kernel⟩

theorem test_met_AbsentUnitsFault_4 : ∃ (n : Nat),
    4 ≤ n :=
  ⟨4, by decide +kernel⟩

theorem test_met_AbsentUnitsFault_5 : ∃ (n : Nat),
    16 ≤ n :=
  ⟨16, by decide +kernel⟩

theorem test_met_AbsentUnitsFault_6 : ∃ (n : Nat),
    8 ≤ n :=
  ⟨8, by decide +kernel⟩

theorem test_met_AbsentUnitsFault_7 : ∃ (n : Nat),
    320 ≤ n :=
  ⟨320, by decide +kernel⟩

theorem test_met_AbsentUnitsFault_8 : ∃ (n : Nat),
    10 ≤ n :=
  ⟨10, by decide +kernel⟩

theorem test_met_AbsentUnitsFault_9 : ∃ (n : Nat),
    isQueue n = false :=
  ⟨0x42, by decide +kernel⟩

theorem test_met_AbsentUnitsFault_10 : ∃ (f : MemIn),
    f.wf = false :=
  ⟨(({ block := 7 } : MemIn)), by decide +kernel⟩

theorem test_met_EveryStepKeepsFusesAndPopsTheQueue_1 : ∃ (s : State) (t : State),
    step s = .next t :=
  ⟨State.reset, State.reset, by first | decide +kernel | rfl⟩

theorem test_met_EveryStepKeepsTheReservationTableCanonical_1 : ∃ (s : State) (t : State),
    tableWf s = true
    ∧ step s = .next t :=
  ⟨State.reset, State.reset, by and_intros <;> first | decide +kernel | rfl⟩

theorem test_met_EventsOfARestingDeviceChangeNothing_1 : ∃ (c : Instr) (s : State),
    firmwareEvent c = true
    ∧ running s = false :=
  ⟨.planReq, State.reset, by and_intros <;> decide +kernel⟩

theorem test_met_EventsOfARestingDeviceChangeNothing_2 : ∃ (c : Instr) (s : State),
    clockEvent c = true
    ∧ s.mode.cur = .doldrums :=
  ⟨.commandWindow, { State.reset with mode.cur := .doldrums }, by and_intros <;> decide +kernel⟩

theorem test_met_EventsOfARestingDeviceChangeNothing_3 : ∃ (c : Instr) (s : State),
    clockEvent c = true
    ∧ s.mode.cur = .still :=
  ⟨.commandWindow, State.reset, by and_intros <;> decide +kernel⟩

theorem test_met_ACommitTakesTheNextCsn_1 : ∃ (s : State),
    mramFog s = false :=
  ⟨(stIn .calm), by decide +kernel⟩

theorem test_met_ACommitTakesTheNextCsn_2 : ∃ (s : State),
    mramFog s = false :=
  ⟨(stIn .calm), by decide +kernel⟩

theorem test_met_ACommitTakesTheNextCsn_3 : ∃ (s : State),
    mramFog s = false :=
  ⟨(stIn .calm), by decide +kernel⟩

theorem test_met_ACommitTakesTheNextCsn_4 : ∃ (s : State),
    mramFog s = true :=
  ⟨(fogSt 0x0B), by decide +kernel⟩

theorem test_met_CsnMismatchNamesTheFirstChangedObject_1 : ∃ (s : State) (r : Request) (e : Nat) (pre : List (Nat × Nat)) (o : Nat × Nat),
    r.expect = some e
    ∧ (∀ x ∈ pre, objCsn s x.1 x.2 ≤ e)
    ∧ e < objCsn s o.1 o.2 :=
  ⟨{ stIn .calm with p.control.objCsn := [(objKey 9 0, 7)] }, { rq 0x0202 [] with expect := some 5 }, 5, (([] : List (Nat × Nat))), (((9, 0) : Nat × Nat)), by and_intros <;> decide +kernel⟩

theorem test_met_CsnMismatchNamesTheFirstChangedObject_2 : ∃ (s : State) (r : Request) (objs : List (Nat × Nat)),
    csnHolds s r objs = true :=
  ⟨(stIn .calm), { rq 0x0202 [] with expect := some 5 }, ([(9, 0)]), by decide +kernel⟩

theorem test_met_ClosedSessionsExecuteNothing_1 : ∃ (c : Instr) (r : Request) (s : State),
    opcodeRequest c = some r
    ∧ r.slot ≠ 4
    ∧ (edtorRuns s = false ∨ (callerOf s r).isSome = false) :=
  ⟨(.sysIdentity (rq 0x0101 [])), (rq 0x0101 []), State.reset, by and_intros <;> decide +kernel⟩

theorem test_met_ClosedSessionsExecuteNothing_2 : ∃ (c : Instr) (r : Request) (s : State),
    opcodeRequest c = some r
    ∧ r.slot ≠ 4
    ∧ held s = true :=
  ⟨(.sysIdentity (rq 0x0101 [])), (rq 0x0101 []), { stIn .calm with time.stepFc := true }, by and_intros <;> decide +kernel⟩

theorem test_met_ClosedSessionsExecuteNothing_3 : ∃ (s : State),
    edtorRuns s = false :=
  ⟨State.reset, by decide +kernel⟩

theorem test_met_WrongLengthsAreTurnedAway_1 : ∃ (c : Instr) (r : Request) (s : State) (n : Nat),
    opcodeRequest c = some r
    ∧ fixedLen c = some n
    ∧ live s r = true
    ∧ r.payload.length ≠ n :=
  ⟨(.timeConfig (rq 0x0202 [])), (rq 0x0202 []), (stIn .calm), 24, by and_intros <;> decide +kernel⟩

theorem test_met_UnassignedOpcodesAreTurnedAway_1 : ∃ (r : Request) (s : State),
    live s r = true
    ∧ (opByCode r.opcode).isNone = true :=
  ⟨(rq 0x0199 []), (stIn .calm), by and_intros <;> decide +kernel⟩

theorem test_met_UnassignedOpcodesAreTurnedAway_2 : ∃ (r : Request),
    (opByCode r.opcode).isSome = true :=
  ⟨(rq 0x0101 []), by decide +kernel⟩

theorem test_met_LesserRolesChangeNothing_1 : ∃ (c : Instr) (r : Request) (s : State) (t : State),
    opcodeRequest c = some r
    ∧ supervised c = true
    ∧ isSup (roleOf s r) = false
    ∧ exec c s = .next t :=
  ⟨(.timeConfig (rq 0x0202 [])), (rq 0x0202 []), opSt, (opTimeConfig (rq 0x0202 []) opSt), by and_intros <;> first | decide +kernel | rfl⟩

theorem test_met_LesserRolesChangeNothing_2 : ∃ (c : Instr) (r : Request) (s : State) (t : State),
    opcodeRequest c = some r
    ∧ serviced c = true
    ∧ isSvc (roleOf s r) = false
    ∧ exec c s = .next t :=
  ⟨(.keyDestroy (rq 0x0C11 [])), (rq 0x0C11 []), opSt, (opKeyDestroy (rq 0x0C11 []) opSt), by and_intros <;> first | decide +kernel | rfl⟩

theorem test_met_SessionListHas24BytesForEachSlot_2 : ∃ (s : State) (n : Nat),
    (sessionAt s n).isNone = true :=
  ⟨State.reset, 0, by decide +kernel⟩

theorem test_met_SettingsReadsAnswerAndChangeNothing_1 : ∃ (r : Request) (s : State),
    live s r = true
    ∧ r.payload = zb 24
    ∧ edt s 0x0202 = true :=
  ⟨(rq 0x0202 (zb 24)), (stIn .calm), by and_intros <;> decide +kernel⟩

theorem test_met_SettingsReadsAnswerAndChangeNothing_2 : ∃ (r : Request) (s : State),
    live s r = true
    ∧ r.payload = zb 32
    ∧ edt s 0x0302 = true :=
  ⟨(rq 0x0302 (zb 32)), (stIn .calm), by and_intros <;> decide +kernel⟩

theorem test_met_SettingsReadsAnswerAndChangeNothing_3 : ∃ (r : Request) (s : State),
    live s r = true
    ∧ r.payload = zb 96
    ∧ edt s 0x0403 = true :=
  ⟨(rq 0x0403 (zb 96)), (stIn .calm), by and_intros <;> decide +kernel⟩

theorem test_met_SettingsReadsAnswerAndChangeNothing_4 : ∃ (r : Request) (s : State),
    live s r = true
    ∧ r.payload = zb 32
    ∧ edt s 0x0503 = true :=
  ⟨(rq 0x0503 (zb 32)), (stIn .calm), by and_intros <;> decide +kernel⟩

theorem test_met_SettingsReadsAnswerAndChangeNothing_5 : ∃ (r : Request) (s : State),
    live s r = true
    ∧ r.payload = zb 16
    ∧ edt s 0x0602 = true :=
  ⟨(rq 0x0602 (zb 16)), (stIn .calm), by and_intros <;> decide +kernel⟩

theorem test_met_SettingsReadsAnswerAndChangeNothing_6 : ∃ (r : Request) (s : State),
    live s r = true
    ∧ r.payload = zb 16
    ∧ edt s 0x0720 = true :=
  ⟨(rq 0x0720 (zb 16)), (stIn .calm), by and_intros <;> decide +kernel⟩

theorem test_met_SettingsReadsAnswerAndChangeNothing_7 : ∃ (r : Request) (s : State),
    live s r = true
    ∧ r.payload = zb 16
    ∧ edt s 0x0904 = true :=
  ⟨(rq 0x0904 (zb 16)), (stIn .calm), by and_intros <;> decide +kernel⟩

theorem test_met_SettingsReadsAnswerAndChangeNothing_8 : ∃ (r : Request) (s : State),
    live s r = true
    ∧ r.payload = zb 32
    ∧ edt s 0x0A02 = true :=
  ⟨(rq 0x0A02 (zb 32)), (stIn .calm), by and_intros <;> decide +kernel⟩

theorem test_met_SettingsReadsAnswerAndChangeNothing_9 : ∃ (r : Request) (s : State),
    live s r = true
    ∧ r.payload = zb 8
    ∧ edt s 0x0C20 = true :=
  ⟨(rq 0x0C20 (zb 8)), (stIn .calm), by and_intros <;> decide +kernel⟩

theorem test_met_SettingsReadsAnswerAndChangeNothing_10 : ∃ (r : Request) (s : State),
    live s r = true
    ∧ r.payload = zb 64
    ∧ edt s 0x0141 = true :=
  ⟨(rq 0x0141 (zb 64)), (stIn .calm), by and_intros <;> decide +kernel⟩

theorem test_met_SettingsReadsAnswerAndChangeNothing_11 : ∃ (r : Request) (s : State),
    live s r = true
    ∧ r.payload = zb 16
    ∧ edt s 0x0801 = true :=
  ⟨(rq 0x0801 (zb 16)), (stIn .calm), by and_intros <;> decide +kernel⟩

theorem test_met_SettingsReadsAnswerAndChangeNothing_12 : ∃ (r : Request) (s : State),
    live s r = true
    ∧ r.payload = zb 16
    ∧ supOk s r = true
    ∧ inModes s mNorm = true :=
  ⟨(rq 0x0105 (zb 16)), (stIn .calm), by and_intros <;> decide +kernel⟩

theorem test_met_SettingsReadsAnswerAndChangeNothing_13 : ∃ (r : Request) (s : State) (h : Nat),
    live s r = true
    ∧ h < 2
    ∧ r.payload = le 1 h ++ le 1 2 ++ zb 46
    ∧ edt s 0x0140 = true :=
  ⟨(rq 0x0140 (le 1 1 ++ le 1 2 ++ zb 46)), (stIn .calm), 1, by and_intros <;> decide +kernel⟩

theorem test_met_SettingsReadsAnswerAndChangeNothing_14 : ∃ (r : Request) (s : State),
    live s r = true
    ∧ r.payload = le 1 0xFF ++ zb 31
    ∧ edt s 0x0520 = true :=
  ⟨(rq 0x0520 (le 1 0xFF ++ zb 31)), (stIn .calm), by and_intros <;> decide +kernel⟩

theorem test_met_HostSideSettingsTakeEffect_1 : ∃ (r : Request) (s : State),
    live s r = true
    ∧ csnHolds s r [siteObj] = true
    ∧ r.payload.length = 16
    ∧ zeros r.payload 13 3 = true
    ∧ fld r.payload 10 2 < 1024
    ∧ supOk s r = true
    ∧ inModes s mNorm = true
    ∧ allZero r.payload = false
    ∧ powerOk (powerFrom r.payload) = true :=
  ⟨(rq 0x0105 (le 2 18000 ++ le 2 20000 ++ le 2 10 ++ le 2 1000 ++ le 2 30 ++ le 2 0 ++ le 1 0xFF ++ zb 3)), (stIn .calm), by and_intros <;> decide +kernel⟩

theorem test_met_HostSideSettingsTakeEffect_2 : ∃ (r : Request) (s : State),
    live s r = true
    ∧ csnHolds s r [siteObj] = true
    ∧ r.payload.length = 48
    ∧ fld r.payload 1 1 = 1
    ∧ zeros r.payload 5 3 = true
    ∧ fld r.payload 2 1 < 4
    ∧ supOk s r = true
    ∧ inModes s mCfg = true
    ∧ fld r.payload 0 1 < 2
    ∧ netOk (netFrom r.payload) = true :=
  ⟨(rq 0x0140 (le 1 0 ++ le 1 1 ++ le 1 1 ++ le 1 24 ++ le 1 64 ++ zb 43)), (stIn .calm), by and_intros <;> decide +kernel⟩

theorem test_met_HostSideSettingsTakeEffect_3 : ∃ (r : Request) (s : State),
    live s r = true
    ∧ csnHolds s r [siteObj] = true
    ∧ r.payload.length = 64
    ∧ (∀ io ∈ List.range 8, auxRsv (auxEntry r.payload io) = true)
    ∧ supOk s r = true
    ∧ inModes s mCfg = true
    ∧ allZero r.payload = false
    ∧ (∀ io ∈ List.range 8, auxOk (auxEntry r.payload io) = true)
    ∧ (∀ io ∈ List.range 8, auxBusy s r.payload io = false) :=
  ⟨(rq 0x0141 (le 1 1 ++ le 1 0 ++ le 2 5 ++ zb 60)), (stIn .calm), by and_intros <;> decide +kernel⟩

theorem test_met_HostSideSettingsTakeEffect_4 : ∃ (r : Request) (s : State),
    live s r = true
    ∧ csnHolds s r [siteObj] = true
    ∧ r.payload.length = 24
    ∧ zeros r.payload 19 5 = true
    ∧ supOk s r = true
    ∧ inModes s mCfg = true
    ∧ allZero r.payload = false
    ∧ timeCfgOk r.payload = true :=
  ⟨(rq 0x0202 (le 1 2 ++ zb 23)), (stIn .calm), by and_intros <;> decide +kernel⟩

theorem test_met_HostSideSettingsTakeEffect_5 : ∃ (r : Request) (s : State),
    live s r = true
    ∧ csnHolds s r [siteObj] = true
    ∧ r.payload.length = 16
    ∧ zeros r.payload 5 11 = true
    ∧ supOk s r = true
    ∧ inModes s mCfg = true
    ∧ allZero r.payload = false
    ∧ stopCfgOk (stopCfgFrom s.p.stopCfg r.payload) = true :=
  ⟨(rq 0x0904 (le 1 2 ++ zb 15)), (stIn .calm), by and_intros <;> decide +kernel⟩

theorem test_met_SysModeAndResetCommandsTakeEffect_1 : ∃ (r : Request) (s : State) (m : Mode),
    live s r = true
    ∧ csnHolds s r [siteObj] = true
    ∧ r.payload = le 1 (modeCode m) ++ zb 7
    ∧ modeSetRole s r = true
    ∧ inModes s [.calm, .zephyr, .breeze, .drift, .watch, .fog] = true
    ∧ m ∈ setRow (modeSelected s)
    ∧ s.time.steppedThisFc = false
    ∧ (modeSelected s == .fog && fogCauseSelected s == 0x0B) = false
    ∧ mramFog s = false
    ∧ modeSetNotReady s (modeSelected s) m = 0 :=
  ⟨(rq 0x0103 (le 1 4 ++ zb 7)), (stIn .calm), Mode.zephyr, by and_intros <;> decide +kernel⟩

theorem test_met_SysModeAndResetCommandsTakeEffect_2 : ∃ (r : Request) (s : State),
    live s r = true
    ∧ r.payload = le 1 1 ++ zb 3 ++ le 4 0xC0DE
    ∧ supOk s r = true
    ∧ inModes s [.tender, .calm, .zephyr, .lull, .squall, .watch, .fog] = true :=
  ⟨(rq 0x0104 (le 1 1 ++ zb 3 ++ le 4 0xC0DE)), (stIn .calm), by and_intros <;> decide +kernel⟩

theorem test_met_SysModeAndResetCommandsTakeEffect_3 : ∃ (r : Request) (s : State),
    live s r = true
    ∧ r.payload = le 1 2 ++ zb 3 ++ le 4 0xC0DE
    ∧ svcOk s r = true
    ∧ inModes s [.tender, .calm, .zephyr, .lull, .squall, .watch, .fog] = true :=
  ⟨(rq 0x0104 (le 1 2 ++ zb 3 ++ le 4 0xC0DE)), (stIn .calm), by and_intros <;> decide +kernel⟩

theorem test_met_SysModeAndResetCommandsTakeEffect_4 : ∃ (r : Request) (s : State),
    live s r = true
    ∧ csnHolds s r [siteObj] = true
    ∧ r.payload = []
    ∧ svcOk s r = true
    ∧ s.mode.cur = .tender
    ∧ notReadyTender s = 0 :=
  ⟨(rq 0x0132 []), readyTender, by and_intros <;> decide +kernel⟩

theorem test_met_SysHostsAndSessionsOpenAndClose_1 : ∃ (r : Request) (s : State) (role : Role) (slot : Nat),
    r.slot = 4
    ∧ edtorRuns s = true
    ∧ held s = false
    ∧ r.payload.length = 32
    ∧ zeros r.payload 1 1 = true
    ∧ zeros r.payload 24 8 = true
    ∧ roleGranted s r = some role
    ∧ fld r.payload 2 2 ≤ 60
    ∧ (isSvc role && r.port != .l23 && !s.ports.svcLatched) = false
    ∧ freeSlot s = some slot
    ∧ csnHolds s r [(okSession, slot)] = true :=
  ⟨{ slot := 4, openHost := 0xFF, port := .l23, opcode := 0x0120, payload := le 1 3 ++ zb 31 }, { stIn .calm with edtor.sessions := [] }, Role.service, 0, by and_intros <;> decide +kernel⟩

theorem test_met_SysHostsAndSessionsOpenAndClose_2 : ∃ (r : Request) (s : State) (slot : Nat) (e : Session),
    live s r = true
    ∧ r.payload = le 2 e.id ++ zb 2
    ∧ e.id < 2 ^ 16
    ∧ slot < 4
    ∧ e.id % 4 = slot
    ∧ sessionAt s slot = some e
    ∧ (e.id == r.sessionId || supOk s r) = true
    ∧ edt s 0x0121 = true
    ∧ csnHolds s r [(okSession, slot)] = true :=
  ⟨(rq 0x0121 (le 2 0x0104 ++ zb 2)), (stIn .calm), 0, sess0, by and_intros <;> decide +kernel⟩

theorem test_met_SysHostsAndSessionsOpenAndClose_3 : ∃ (r : Request) (s : State) (slot : Nat) (e : Session),
    live s r = true
    ∧ r.payload = le 2 e.id ++ zb 2
    ∧ e.id < 2 ^ 16
    ∧ slot < 4
    ∧ e.id % 4 = slot
    ∧ slot ≠ r.slot
    ∧ sessionAt s slot = some e
    ∧ supOk s r = true
    ∧ edt s 0x0121 = true
    ∧ csnHolds s r [(okSession, slot)] = true :=
  ⟨(rq 0x0121 (le 2 0x0105 ++ zb 2)), twoSessions, 1, { sess0 with id := 0x0105 }, by and_intros <;> decide +kernel⟩

theorem test_met_SysHostsAndSessionsOpenAndClose_4 : ∃ (r : Request) (s : State) (role : Role),
    live s r = true
    ∧ r.payload.length = 32
    ∧ zeros r.payload 2 2 = true
    ∧ zeros r.payload 20 12 = true
    ∧ svcOk s r = true
    ∧ s.mode.cur = .tender
    ∧ roleOfCode (fld r.payload 1 1) = some role
    ∧ fld r.payload 0 1 ≤ 15
    ∧ nameOk (slice r.payload 4 16) = true
    ∧ (tgetD s.p.control.hosts (fld r.payload 0 1) {}).enrolled = false
    ∧ siteValid s = true
    ∧ csnHolds s r [(okHost, fld r.payload 0 1)] = true :=
  ⟨(rq 0x0130 (le 1 1 ++ le 1 2 ++ zb 30)), readyTender, Role.supervisor, by and_intros <;> decide +kernel⟩

theorem test_met_SysHostsAndSessionsOpenAndClose_5 : ∃ (r : Request) (s : State),
    live s r = true
    ∧ r.payload.length = 4
    ∧ zeros r.payload 1 3 = true
    ∧ ((if s.mode.cur == .tender then svcOk s r else supOk s r) = true)
    ∧ inModes s [.tender, .calm] = true
    ∧ fld r.payload 0 1 < 16
    ∧ (tgetD s.p.control.hosts (fld r.payload 0 1) {}).enrolled = true
    ∧ fld r.payload 0 1 ≠ hostOf s r
    ∧ othersSup s (fld r.payload 0 1) = true
    ∧ csnHolds s r [(okHost, fld r.payload 0 1)] = true :=
  ⟨(rq 0x0131 (le 1 1 ++ zb 3)), twoHosts, by and_intros <;> decide +kernel⟩

theorem test_met_AuxOutputsAreSetAtPlan_1 : ∃ (r : Request) (s : State),
    live s r = true
    ∧ r.payload.length = 4
    ∧ zeros r.payload 2 2 = true
    ∧ inModes s [.calm, .zephyr, .breeze, .drift, .lull, .squall, .watch] = true
    ∧ (∀ io ∈ List.range 8, bit (fld r.payload 0 1) io = true → isOutput s io = true) :=
  ⟨(rq 0x0142 (le 1 1 ++ le 1 1 ++ zb 2)), { stIn .calm with ports.auxNow := [(0, { dir := 2 })] }, by and_intros <;> decide +kernel⟩

theorem test_met_AuxOutputsAreSetAtPlan_2 : ∃ (s : State) (io : Nat) (v : Bool),
    io < 8
    ∧ (auxLive s io).setNext = some v
    ∧ isOutput s io = true :=
  ⟨{ stIn .calm with ports.auxNow := [(0, { dir := 2 })], ports.io := [(0, { setNext := some true })] }, 0, true, by and_intros <;> decide +kernel⟩

theorem test_met_AuxOutputsAreSetAtPlan_3 : ∃ (s : State) (io : Nat),
    io < 8
    ∧ (auxLive s io).setNext = none :=
  ⟨(stIn .calm), 0, by and_intros <;> decide +kernel⟩

theorem test_met_TimeCommandsStepAndArmTriggers_1 : ∃ (r : Request) (s : State),
    live s r = true
    ∧ csnHolds s r [siteObj] = true
    ∧ r.payload.length = 24
    ∧ zeros r.payload 1 7 = true
    ∧ zeros r.payload 18 2 = true
    ∧ supOk s r = true
    ∧ s.mode.cur = .calm
    ∧ s.time.step = none
    ∧ ((fld r.payload 0 1 = 1 ∧ zeros r.payload 8 16 = true ∧ s.time.state = .stepPending) ∨ (fld r.payload 0 1 = 2 ∧ 1 ≤ fld r.payload 20 4 ∧ fld r.payload 20 4 ≤ 10000000 ∧ (s.time.state = .unaligned ∨ s.time.state = .holdover))) :=
  ⟨(rq 0x0203 (le 1 2 ++ zb 19 ++ le 4 5)), (stIn .calm), by and_intros <;> decide +kernel⟩

theorem test_met_TimeCommandsStepAndArmTriggers_2 : ∃ (r : Request) (s : State),
    live s r = true
    ∧ csnHolds s r [siteObj] = true
    ∧ r.payload.length = 32
    ∧ triggerRsv r.payload = true
    ∧ supOk s r = true
    ∧ inModes s [.calm, .zephyr, .breeze, .drift, .lull, .squall, .watch] = true
    ∧ triggerOk s r.payload = true
    ∧ fld r.payload 1 1 ≠ 0
    ∧ startOfSecondNext s ≤ triggerFirst r.payload :=
  ⟨(rq 0x0210 (le 1 3 ++ le 1 5 ++ zb 6 ++ le 8 (2 ^ 50) ++ zb 4 ++ le 4 1 ++ zb 8)), (stIn .calm), by and_intros <;> decide +kernel⟩

theorem test_met_TimeCommandsStepAndArmTriggers_3 : ∃ (r : Request) (s : State),
    live s r = true
    ∧ csnHolds s r [siteObj] = true
    ∧ r.payload.length = 32
    ∧ triggerRsv r.payload = true
    ∧ supOk s r = true
    ∧ inModes s [.calm, .zephyr, .breeze, .drift, .lull, .squall, .watch] = true
    ∧ triggerOk s r.payload = true
    ∧ fld r.payload 1 1 = 0 :=
  ⟨(rq 0x0210 (le 1 3 ++ zb 31)), (stIn .calm), by and_intros <;> decide +kernel⟩

theorem test_met_GnssCommandsTakeEffect_1 : ∃ (r : Request) (s : State),
    live s r = true
    ∧ csnHolds s r [siteObj] = true
    ∧ r.payload.length = 32
    ∧ (zeros r.payload 19 13 && decide (fld r.payload 4 4 < 2 ^ 18) && decide (fld r.payload 8 4 < 2 ^ 18) && (fld r.payload 17 1 != 0 || fld r.payload 18 1 == 0)) = true
    ∧ allZero r.payload = false
    ∧ supOk s r = true
    ∧ inModes s mCfg = true
    ∧ gnssCfgOk r.payload = true :=
  ⟨(rq 0x0302 (le 1 1 ++ zb 31)), (stIn .calm), by and_intros <;> decide +kernel⟩

theorem test_met_GnssCommandsTakeEffect_2 : ∃ (r : Request) (s : State),
    live s r = true
    ∧ csnHolds s r [siteObj] = true
    ∧ r.payload.length = 16
    ∧ (zeros r.payload 8 8 && (fld r.payload 2 1 == 2 || zeros r.payload 4 4)) = true
    ∧ supOk s r = true
    ∧ inModes s [.tender, .calm, .zephyr, .breeze, .drift, .watch] = true
    ∧ fld r.payload 0 1 < 6
    ∧ fld r.payload 1 1 < 4
    ∧ (1 ≤ fld r.payload 2 1 ∧ fld r.payload 2 1 ≤ 3)
    ∧ (1 ≤ fld r.payload 3 1 ∧ fld r.payload 3 1 ≤ 4)
    ∧ (fldI r.payload 4 4).natAbs ≤ 30000000 :=
  ⟨(rq 0x0304 (le 1 5 ++ le 1 3 ++ le 1 3 ++ le 1 4 ++ zb 12)), (stIn .calm), by and_intros <;> decide +kernel⟩

theorem test_met_GnssCommandsTakeEffect_3 : ∃ (r : Request) (s : State) (e : Epoch),
    live s r = true
    ∧ r.payload.length = 8
    ∧ edt s 0x0303 = true
    ∧ ((if fld r.payload 0 8 = 0 then s.gnss.epochs.head? else s.gnss.epochs.find? (·.fc == fld r.payload 0 8)) = some e) :=
  ⟨(rq 0x0303 (zb 8)), { stIn .calm with gnss.epochs := [{}] }, (({} : Epoch)), by and_intros <;> decide +kernel⟩

theorem test_met_GnssCommandsTakeEffect_4 : ∃ (r : Request) (s : State),
    live s r = true
    ∧ csnHolds s r [siteObj] = true
    ∧ r.payload.length = 16
    ∧ (zeros r.payload 2 2 && zeros r.payload 8 8) = true
    ∧ fld r.payload 0 1 = 2
    ∧ svcOk s r = true
    ∧ s.mode.cur = .watch
    ∧ fld r.payload 1 1 < 2
    ∧ (1 ≤ fld r.payload 4 4 ∧ fld r.payload 4 4 ≤ 2000000)
    ∧ s.gnss.cal.isNone = true :=
  ⟨(rq 0x0305 (le 1 2 ++ zb 3 ++ le 4 5 ++ zb 8)), (stIn .watch), by and_intros <;> decide +kernel⟩

theorem test_met_GnssCommandsTakeEffect_5 : ∃ (r : Request) (s : State),
    live s r = true
    ∧ r.payload.length = 16
    ∧ (zeros r.payload 2 2 && zeros r.payload 8 8 && zeros r.payload 4 4 && (fld r.payload 0 1 != 3 || zeros r.payload 1 1)) = true
    ∧ (fld r.payload 0 1 = 1 ∨ fld r.payload 0 1 = 3)
    ∧ fld r.payload 1 1 < 2
    ∧ svcOk s r = true
    ∧ s.mode.cur = .watch
    ∧ s.gnss.cal.isNone = true :=
  ⟨(rq 0x0305 (le 1 1 ++ zb 15)), (stIn .watch), by and_intros <;> decide +kernel⟩

theorem test_met_RefCommandsTakeEffect_1 : ∃ (r : Request) (s : State),
    live s r = true
    ∧ csnHolds s r [siteObj] = true
    ∧ r.payload.length = 96
    ∧ (zeros r.payload 19 13 && decide (fld r.payload 4 4 < 2 ^ 18)) = true
    ∧ allZero r.payload = false
    ∧ supOk s r = true
    ∧ inModes s mCfg = true
    ∧ refCfgOk r.payload = true :=
  ⟨(rq 0x0403 (le 1 1 ++ zb 95)), (stIn .calm), by and_intros <;> decide +kernel⟩

theorem test_met_RefCommandsTakeEffect_2 : ∃ (r : Request) (s : State) (bl : Option (Int × Int × Int)),
    live s r = true
    ∧ csnHolds s r [siteObj] = true
    ∧ r.payload.length = 48
    ∧ zeros r.payload 37 11 = true
    ∧ fld r.payload 36 1 < 2
    ∧ supOk s r = true
    ∧ (inModes s [.tender, .calm, .zephyr] && (!bit (fld r.payload 36 1) 0 || inModes s [.tender])) = true
    ∧ baselineFrom r.payload = some bl
    ∧ tieInShell (fldI r.payload 0 8, fldI r.payload 8 8, fldI r.payload 16 8) = true
    ∧ (inModes s [.tender] || tieNear s (fldI r.payload 0 8, fldI r.payload 8 8, fldI r.payload 16 8)) = true
    ∧ s.ref.survey.isNone = true :=
  ⟨(rq 0x0402 (le 8 63781370000 ++ zb 40)), (stIn .tender), ((some (0, 0, 0) : Option (Int × Int × Int))), by and_intros <;> decide +kernel⟩

theorem test_met_RefCommandsTakeEffect_3 : ∃ (r : Request) (s : State),
    live s r = true
    ∧ r.payload.length = 16
    ∧ zeros r.payload 12 4 = true
    ∧ supOk s r = true
    ∧ s.mode.cur = .zephyr
    ∧ (60 ≤ fld r.payload 0 4 ∧ fld r.payload 0 4 ≤ 86400)
    ∧ (10 ≤ fld r.payload 4 4 ∧ fld r.payload 4 4 ≤ 10000)
    ∧ (fld r.payload 0 4 ≤ fld r.payload 8 4 ∧ fld r.payload 8 4 ≤ 604800)
    ∧ s.ref.survey.isNone = true :=
  ⟨(rq 0x0410 (le 4 60 ++ le 4 10 ++ le 4 60 ++ zb 4)), (stIn .zephyr), by and_intros <;> decide +kernel⟩

theorem test_met_RefCommandsTakeEffect_4 : ∃ (r : Request) (s : State),
    live s r = true
    ∧ csnHolds s r [(okSession, r.slot)] = true
    ∧ r.payload.length = 4
    ∧ zeros r.payload 1 3 = true
    ∧ edt s 0x0420 = true
    ∧ mramFog s = false
    ∧ (fld r.payload 0 1 = 1 ∨ fld r.payload 0 1 = 2) :=
  ⟨(rq 0x0420 (le 1 1 ++ zb 3)), (stIn .calm), by and_intros <;> decide +kernel⟩

theorem test_met_BuoyCommandsTakeEffect_1 : ∃ (r : Request) (s : State),
    live s r = true
    ∧ csnHolds s r [(okAnchor, (fld r.payload 0 1))] = true
    ∧ r.payload.length = 32
    ∧ zeros r.payload 26 6 = true
    ∧ fld r.payload 1 1 = 1
    ∧ supOk s r = true
    ∧ inModes s mCfg = true
    ∧ fld r.payload 0 1 < 10
    ∧ fld r.payload 2 1 ∈ [0, 10, 11, 12]
    ∧ fld r.payload 3 1 ≤ 7
    ∧ (1 ≤ fld r.payload 24 2 ∧ fld r.payload 24 2 ≤ 1000)
    ∧ s.buoy.cal.isNone = true
    ∧ (anchorAt s (fld r.payload 0 1)).relay.isNone = true :=
  ⟨(rq 0x0502 (le 1 9 ++ le 1 1 ++ le 1 12 ++ le 1 7 ++ zb 20 ++ le 2 1000 ++ zb 6)), (stIn .calm), by and_intros <;> decide +kernel⟩

theorem test_met_BuoyCommandsTakeEffect_2 : ∃ (r : Request) (s : State),
    live s r = true
    ∧ csnHolds s r [(okAnchor, (fld r.payload 0 1))] = true
    ∧ r.payload.length = 32
    ∧ zeros r.payload 26 6 = true
    ∧ zeros r.payload 2 24 = true
    ∧ fld r.payload 1 1 = 2
    ∧ supOk s r = true
    ∧ inModes s mCfg = true
    ∧ fld r.payload 0 1 < 10
    ∧ s.buoy.cal.isNone = true
    ∧ (anchorAt s (fld r.payload 0 1)).relay.isNone = true :=
  ⟨(rq 0x0502 (le 1 9 ++ le 1 2 ++ zb 30)), (stIn .calm), by and_intros <;> decide +kernel⟩

theorem test_met_BuoyCommandsTakeEffect_3 : ∃ (r : Request) (s : State),
    live s r = true
    ∧ csnHolds s r [siteObj] = true
    ∧ r.payload.length = 32
    ∧ zeros r.payload 10 2 = true
    ∧ zeros r.payload 28 4 = true
    ∧ allZero r.payload = false
    ∧ supOk s r = true
    ∧ inModes s mCfg = true
    ∧ buoyCfgOk r.payload = true :=
  ⟨(rq 0x0503 (le 1 9 ++ le 1 12 ++ zb 30)), (stIn .calm), by and_intros <;> decide +kernel⟩

theorem test_met_BuoyCommandsTakeEffect_4 : ∃ (r : Request) (s : State),
    live s r = true
    ∧ r.payload.length = 8
    ∧ zeros r.payload 1 7 = true
    ∧ fld r.payload 0 1 = 1
    ∧ supOk s r = true
    ∧ inModes s [.zephyr, .watch] = true
    ∧ s.buoy.cal.isNone = true
    ∧ s.buoy.relayCmd.isNone = true :=
  ⟨(rq 0x0510 (le 1 1 ++ zb 7)), (stIn .watch), by and_intros <;> decide +kernel⟩

theorem test_met_BuoyCommandsTakeEffect_5 : ∃ (r : Request) (s : State),
    live s r = true
    ∧ csnHolds s r [siteObj] = true
    ∧ r.payload.length = 32
    ∧ (zeros r.payload 2 2 && zeros r.payload 28 4 && (fld r.payload 1 1 != 0 || zeros r.payload 4 24) && (fld r.payload 1 1 != 1 || zeros r.payload 20 4)) = true
    ∧ fld r.payload 0 1 ≠ 0xFF
    ∧ supOk s r = true
    ∧ inModes s mCfg = true
    ∧ zoneOk r.payload = true :=
  ⟨(rq 0x0520 (le 1 7 ++ zb 31)), (stIn .calm), by and_intros <;> decide +kernel⟩

theorem test_met_BuoyCommandsTakeEffect_6 : ∃ (r : Request) (s : State),
    live s r = true
    ∧ csnHolds s r [(okSession, r.slot)] = true
    ∧ r.payload.length = 4
    ∧ zeros r.payload 1 3 = true
    ∧ edt s 0x0530 = true
    ∧ mramFog s = false
    ∧ (fld r.payload 0 1 = 1 ∨ fld r.payload 0 1 = 2) :=
  ⟨(rq 0x0530 (le 1 2 ++ zb 3)), (stIn .calm), by and_intros <;> decide +kernel⟩

theorem test_met_BuoyRelayCarriesOut_1 : ∃ (r : Request) (q : Request) (s : State) (len : Nat),
    withHead r 1 = q
    ∧ live s q = true
    ∧ q.payload.length = 24
    ∧ (zeros q.payload 1 1 && zeros q.payload 18 6 && decide (fld q.payload 2 2 < 1024) && zeros q.payload 8 10) = true
    ∧ fld q.payload 2 2 ≠ 0
    ∧ svcOk s q = true
    ∧ inModes s mWork = true
    ∧ stagedLen s (fld q.payload 4 4) = some len
    ∧ namedInSync s (fld q.payload 2 2) = true
    ∧ s.buoy.relayCmd.isNone = true
    ∧ s.buoy.cal.isNone = true :=
  ⟨(rq 0x0540 (le 1 1 ++ zb 1 ++ le 2 1 ++ le 4 0xA0 ++ zb 16)), (withHead (rq 0x0540 (le 1 1 ++ zb 1 ++ le 2 1 ++ le 4 0xA0 ++ zb 16)) 1), relaySt, 5, by and_intros <;> decide +kernel⟩

theorem test_met_BuoyRelayCarriesOut_2 : ∃ (r : Request) (q : Request) (s : State),
    withHead r 2 = q
    ∧ live s q = true
    ∧ q.payload.length = 24
    ∧ (zeros q.payload 1 1 && zeros q.payload 18 6 && decide (fld q.payload 2 2 < 1024) && true) = true
    ∧ fld q.payload 2 2 ≠ 0
    ∧ svcOk s q = true
    ∧ inModes s mWork = true
    ∧ ((namedInSync s (fld q.payload 2 2) && (stagedLen s (fld q.payload 4 4)).isSome && (maskLinks (fld q.payload 2 2)).all fun l => (anchorAt s l).rstate == 2) = true)
    ∧ startOfSecondNext s ≤ fullOf q.payload 8
    ∧ s.buoy.relayCmd.isNone = true
    ∧ csnHolds s q (maskObjs (fld q.payload 2 2)) = true :=
  ⟨(rq 0x0540 (le 1 2 ++ zb 1 ++ le 2 1 ++ le 4 0xA0 ++ le 8 (2 ^ 50) ++ zb 8)), (withHead (rq 0x0540 (le 1 2 ++ zb 1 ++ le 2 1 ++ le 4 0xA0 ++ le 8 (2 ^ 50) ++ zb 8)) 2), relaySt, by and_intros <;> decide +kernel⟩

theorem test_met_BuoyRelayCarriesOut_3 : ∃ (r : Request) (q : Request) (s : State),
    withHead r 3 = q
    ∧ live s q = true
    ∧ q.payload.length = 24
    ∧ (zeros q.payload 1 1 && zeros q.payload 18 6 && decide (fld q.payload 2 2 < 1024) && zeros q.payload 8 10) = true
    ∧ fld q.payload 2 2 ≠ 0
    ∧ svcOk s q = true
    ∧ inModes s mWork = true
    ∧ csnHolds s q (maskObjs (fld q.payload 2 2)) = true :=
  ⟨(rq 0x0540 (le 1 3 ++ zb 1 ++ le 2 1 ++ le 4 0xA0 ++ zb 16)), (withHead (rq 0x0540 (le 1 3 ++ zb 1 ++ le 2 1 ++ le 4 0xA0 ++ zb 16)) 3), (stIn .watch), by and_intros <;> decide +kernel⟩

theorem test_met_SessCommandsTakeEffect_1 : ∃ (r : Request) (s : State),
    live s r = true
    ∧ csnHolds s r [siteObj] = true
    ∧ r.payload.length = 16
    ∧ zeros r.payload 8 8 = true
    ∧ allZero r.payload = false
    ∧ supOk s r = true
    ∧ inModes s mCfg = true
    ∧ sessCfgOk (sessCfgFrom s.p.sessCfg r.payload) = true :=
  ⟨(rq 0x0602 (le 1 0 ++ le 1 0 ++ le 2 60 ++ zb 12)), (stIn .calm), by and_intros <;> decide +kernel⟩

theorem test_met_SessCommandsTakeEffect_2 : ∃ (r : Request) (s : State),
    live s r = true
    ∧ csnHolds s r [(okClass, (fld r.payload 0 1))] = true
    ∧ r.payload.length = 48
    ∧ classRsv r.payload = true
    ∧ supOk s r = true
    ∧ inModes s (mCfg ++ [.breeze, .drift, .lull, .squall]) = true
    ∧ fld r.payload 0 1 < 32
    ∧ (!bit (classFrom r.payload).flags 0 || classOk (classFrom r.payload)) = true
    ∧ (!(classUsed s (fld r.payload 0 1) && (!bit (classFrom r.payload).flags 0 || !inModes s mCfg))) = true :=
  ⟨(rq 0x0603 (le 1 31 ++ zb 47)), (stIn .calm), by and_intros <;> decide +kernel⟩

theorem test_met_SessCommandsTakeEffect_3 : ∃ (r : Request) (s : State),
    live s r = true
    ∧ r.payload.length = 4
    ∧ zeros r.payload 1 3 = true
    ∧ edt s 0x0604 = true
    ∧ fld r.payload 0 1 < 32 :=
  ⟨(rq 0x0604 (le 1 31 ++ zb 3)), (stIn .calm), by and_intros <;> decide +kernel⟩

theorem test_met_SessCommandsTakeEffect_4 : ∃ (r : Request) (s : State) (i : Nat) (k : Nat),
    live s r = true
    ∧ csnHolds s r [(okRobot, i)] = true
    ∧ r.payload.length = 16
    ∧ zeros r.payload 10 6 = true
    ∧ supOk s r = true
    ∧ inModes s mEnrol = true
    ∧ bit (tgetD s.p.classes (fld r.payload 8 1) {}).flags 0 = true
    ∧ (fld r.payload 9 1 == 0xFF || (robotRec s (fld r.payload 9 1)).sstate == .free) = true
    ∧ (sessionOfEui s (BitVec.ofNat 64 (fld r.payload 0 8))).isNone = true
    ∧ enrolAt s (fld r.payload 9 1) = some i
    ∧ enrolPlace s (BitVec.ofNat 64 (fld r.payload 0 8)) = some k :=
  ⟨(rq 0x0610 (le 8 5 ++ le 1 0 ++ le 1 0xFF ++ zb 6)), classSt, 0, ((enrolPlace classSt 5).getD 0), by and_intros <;> decide +kernel⟩

theorem test_met_SessCommandsTakeEffect_5 : ∃ (r : Request) (s : State),
    live s r = true
    ∧ csnHolds s r [(okRobot, (fld r.payload 0 1))] = true
    ∧ r.payload.length = 4
    ∧ zeros r.payload 1 3 = true
    ∧ supOk s r = true
    ∧ inModes s mEnrol = true
    ∧ ((robotRec s (fld r.payload 0 1)).sstate = .enrolled ∨ (robotRec s (fld r.payload 0 1)).sstate = .lost)
    ∧ (robotRec s (fld r.payload 0 1)).lostHold = false :=
  ⟨(rq 0x0611 (le 1 7 ++ zb 3)), { stIn .calm with p.robots := [(7, { sstate := .lost })] }, by and_intros <;> decide +kernel⟩

theorem test_met_SessCommandsTakeEffect_6 : ∃ (r : Request) (s : State),
    live s r = true
    ∧ r.payload.length = 4
    ∧ zeros r.payload 1 3 = true
    ∧ supOk s r = true
    ∧ inModes s [.calm, .zephyr, .breeze, .drift, .lull, .squall, .watch] = true
    ∧ (robotRec s (fld r.payload 0 1)).lostHold = true
    ∧ csnHolds s r [(okRobot, fld r.payload 0 1), (okHold, 256 + fld r.payload 0 1)] = true :=
  ⟨(rq 0x0612 (le 1 7 ++ zb 3)), { stIn .calm with p.robots := [(7, { sstate := .lost, lostHold := true })] }, by and_intros <;> decide +kernel⟩

theorem test_met_SessCommandsTakeEffect_7 : ∃ (r : Request) (s : State) (i : Nat),
    live s r = true
    ∧ r.payload.length = 16
    ∧ (zeros r.payload 2 6 && (fld r.payload 0 1 != 1 || zeros r.payload 8 8) && (fld r.payload 0 1 != 2 || zeros r.payload 1 1)) = true
    ∧ edt s 0x0620 = true
    ∧ sessNamed s r.payload = some i :=
  ⟨(rq 0x0620 (le 1 1 ++ le 1 7 ++ zb 14)), { stIn .calm with p.robots := [(7, { sstate := .lost })] }, 7, by and_intros <;> decide +kernel⟩

theorem test_met_SessCommandsTakeEffect_8 : ∃ (r : Request) (s : State),
    live s r = true
    ∧ r.payload = []
    ∧ edt s 0x0621 = true :=
  ⟨(rq 0x0621 []), (stIn .calm), by and_intros <;> decide +kernel⟩

theorem test_met_TaskCommandsTakeEffect_1 : ∃ (r : Request) (s : State) (idx : List Nat),
    live s r = true
    ∧ (8 ≤ r.payload.length ∧ r.payload.length = 8 + 160 * fld r.payload 0 1)
    ∧ zeros r.payload 1 7 = true
    ∧ ((List.range (fld r.payload 0 1)).map (postRec r.payload)).all taskRsv = true
    ∧ inModes s mPost = true
    ∧ s.strt.grid.cellMm ≠ 0
    ∧ (1 ≤ fld r.payload 0 1 ∧ fld r.payload 0 1 ≤ 8)
    ∧ ((let recs := (List.range (fld r.payload 0 1)).map (postRec r.payload); ((recs.map taskFrom).zip (recs.map fun b => fld b 2 2)).all fun e => taskOk s e.1 e.2) = true)
    ∧ ((let want := ((List.range (fld r.payload 0 1)).map (postRec r.payload)).map fun b => fld b 2 2; pickTasks s (want.filter (· != 0xFFFF)) (heldTasks s) want) = some idx)
    ∧ (postBusy s ((((List.range (fld r.payload 0 1)).map (postRec r.payload)).map fun b => fld b 2 2).filter (· != 0xFFFF)) = false) :=
  ⟨(rq 0x0701 (le 1 1 ++ zb 7 ++ taskRecord)), gridSt, [0], by and_intros <;> decide +kernel⟩

theorem test_met_TaskCommandsTakeEffect_2 : ∃ (s : State) (q : PostRun) (j : Nat) (t : Task),
    q.todo = [(j, t)]
    ∧ q.done = []
    ∧ csnHolds s q.req [(okTask, j)] = true :=
  ⟨gridSt, { req := rq 0x0701 [], todo := [(3, {})] }, 3, (({} : Task)), by and_intros <;> decide +kernel⟩

theorem test_met_TaskCommandsTakeEffect_3 : ∃ (r : Request) (s : State),
    live s r = true
    ∧ csnHolds s r [(okTask, (fld r.payload 0 2))] = true
    ∧ r.payload.length = 32
    ∧ modifyRsv r.payload = true
    ∧ inModes s mTask = true
    ∧ taskNamed s (fld r.payload 0 2) = true
    ∧ (modified r.payload (taskAt s (fld r.payload 0 2))).valueMs ≤ 3600000
    ∧ (!bit (fld r.payload 2 1) 4 || maskOk s (modified r.payload (taskAt s (fld r.payload 0 2))).classMask) = true
    ∧ liveTask (modified r.payload (taskAt s (fld r.payload 0 2))).state = true
    ∧ (bit (fld r.payload 2 1) 4 && excludesRobot s (modified r.payload (taskAt s (fld r.payload 0 2)))) = false :=
  ⟨(rq 0x0702 (le 2 3 ++ le 1 1 ++ zb 29)), taskSt, by and_intros <;> decide +kernel⟩

theorem test_met_TaskCommandsTakeEffect_4 : ∃ (r : Request) (s : State),
    live s r = true
    ∧ r.payload.length = 4
    ∧ zeros r.payload 3 1 = true
    ∧ inModes s mTask = true
    ∧ taskNamed s (fld r.payload 0 2) = true
    ∧ (fld r.payload 2 1 = 1 ∨ fld r.payload 2 1 = 2)
    ∧ liveTask (taskAt s (fld r.payload 0 2)).state = true
    ∧ csnHolds s r [(okTask, fld r.payload 0 2)] = true :=
  ⟨(rq 0x0703 (le 2 3 ++ le 1 2 ++ zb 1)), taskSt, by and_intros <;> decide +kernel⟩

theorem test_met_TaskCommandsTakeEffect_5 : ∃ (r : Request) (s : State),
    live s r = true
    ∧ r.payload.length = 4
    ∧ zeros r.payload 2 2 = true
    ∧ edt s 0x0710 = true
    ∧ fld r.payload 0 2 < 4096 :=
  ⟨(rq 0x0710 (le 2 4095 ++ zb 2)), (stIn .calm), by and_intros <;> decide +kernel⟩

theorem test_met_TaskCommandsTakeEffect_6 : ∃ (r : Request) (s : State),
    live s r = true
    ∧ r.payload.length = 4
    ∧ zeros r.payload 1 3 = true
    ∧ edt s 0x0711 = true :=
  ⟨(rq 0x0711 (le 1 0x10 ++ zb 3)), (stIn .calm), by and_intros <;> decide +kernel⟩

theorem test_met_TaskCommandsTakeEffect_7 : ∃ (r : Request) (s : State),
    live s r = true
    ∧ csnHolds s r [siteObj] = true
    ∧ r.payload.length = 16
    ∧ zeros r.payload 10 6 = true
    ∧ allZero r.payload = false
    ∧ supOk s r = true
    ∧ inModes s mCfg = true
    ∧ taskCfgOk (taskCfgFrom r.payload s.p.taskCfg) = true :=
  ⟨(rq 0x0720 (le 2 400 ++ zb 14)), (stIn .calm), by and_intros <;> decide +kernel⟩

theorem test_met_ReservationCommandsTakeEffect_1 : ∃ (r : Request) (s : State),
    live s r = true
    ∧ csnHolds s r [siteObj] = true
    ∧ r.payload.length = 16
    ∧ zeros r.payload 6 2 = true
    ∧ fld r.payload 0 2 ≠ 0
    ∧ supOk s r = true
    ∧ inModes s mCfg = true
    ∧ gridOk (gridFrom r.payload) = true
    ∧ validEntries s = 0
    ∧ s.holds.isEmpty = true :=
  ⟨(rq 0x0801 (le 2 500 ++ le 2 100 ++ le 2 100 ++ zb 10)), (stIn .calm), by and_intros <;> decide +kernel⟩

theorem test_met_ReservationCommandsTakeEffect_2 : ∃ (r : Request) (s : State) (n : Nat),
    live s r = true
    ∧ s.strt.holdSets < 4
    ∧ r.payload.length = 32
    ∧ (decide (fld r.payload 1 1 < 2) && zeros r.payload 2 2 && zeros r.payload 28 4) = true
    ∧ (!bit (fld r.payload 1 1) 0 || supOk s r) = true
    ∧ inModes s mHold = true
    ∧ s.strt.grid.cellMm ≠ 0
    ∧ (rectOk s (fld r.payload 4 2) (fld r.payload 6 2) (fld r.payload 8 2) (fld r.payload 10 2) && nameOk (slice r.payload 12 16)) = true
    ∧ pickHold s (fld r.payload 0 1) = some n
    ∧ (tget s.holds n).isNone = true
    ∧ standingCells s + (rectCells (fld r.payload 4 2, fld r.payload 6 2, fld r.payload 8 2, fld r.payload 10 2)).length ≤ 65536
    ∧ ((!bit (fld r.payload 1 1) 0 || decide ((s.holds.filter fun e => e.2.persistent && !e.2.lost).length < 64)) = true)
    ∧ csnHolds s r [(okHold, n)] = true :=
  ⟨(rq 0x0810 (le 1 7 ++ zb 31)), gridSt, 7, by and_intros <;> decide +kernel⟩

theorem test_met_ReservationCommandsTakeEffect_3 : ∃ (s : State),
    4 ≤ s.strt.holdSets :=
  ⟨{ gridSt with strt.holdSets := 4 }, by decide +kernel⟩

theorem test_met_ReservationCommandsTakeEffect_4 : ∃ (r : Request) (s : State),
    live s r = true
    ∧ csnHolds s r [(okHold, (fld r.payload 0 2))] = true
    ∧ r.payload.length = 4
    ∧ zeros r.payload 2 2 = true
    ∧ ((let h := tgetD s.holds (fld r.payload 0 2) {}; h.present && !h.lost && (!h.persistent || supOk s r)) = true)
    ∧ inModes s mHold = true :=
  ⟨(rq 0x0811 (le 2 7 ++ zb 2)), { gridSt with holds := [(7, { present := true })] }, by and_intros <;> decide +kernel⟩

theorem test_met_ReservationCommandsTakeEffect_5 : ∃ (r : Request) (s : State),
    live s r = true
    ∧ r.payload = []
    ∧ edt s 0x0812 = true :=
  ⟨(rq 0x0812 []), (stIn .calm), by and_intros <;> decide +kernel⟩

theorem test_met_ReservationCommandsTakeEffect_6 : ∃ (r : Request) (s : State) (runs : List (Nat × Nat × Nat × Nat × Nat × Nat)) (h : Nat),
    live s r = true
    ∧ (32 ≤ r.payload.length ∧ r.payload.length = 32 + 12 * fld r.payload 2 2)
    ∧ (zeros r.payload 1 1 && zeros r.payload 4 4) = true
    ∧ inModes s [.calm, .zephyr, .breeze, .drift, .lull, .squall, .watch] = true
    ∧ s.strt.grid.cellMm ≠ 0
    ∧ (1 ≤ fld r.payload 2 2 ∧ fld r.payload 2 2 ≤ 100)
    ∧ runs = (List.range (fld r.payload 2 2)).map (runAt r.payload)
    ∧ (runsOk s runs && nameOk (slice r.payload 16 16)) = true
    ∧ pickHold s (fld r.payload 0 1) = some h
    ∧ (tget s.holds h).isNone = true
    ∧ (∀ q ∈ runs, slotNow s ≤ q.2.2.2.2.1)
    ∧ csnHolds s r [(okHold, h)] = true :=
  ⟨(rq 0x0820 (le 1 7 ++ zb 1 ++ le 2 1 ++ zb 28 ++ zb 11 ++ le 1 1)), gridSt, ((List.range 1).map (runAt (le 1 7 ++ zb 1 ++ le 2 1 ++ zb 28 ++ zb 11 ++ le 1 1))), 7, by and_intros <;> decide +kernel⟩

theorem test_met_ReservationCommandsTakeEffect_7 : ∃ (r : Request) (s : State),
    live s r = true
    ∧ r.payload.length = 4
    ∧ zeros r.payload 1 3 = true
    ∧ edt s 0x0830 = true
    ∧ (robotRec s (fld r.payload 0 1)).sstate ≠ .free :=
  ⟨(rq 0x0830 (le 1 7 ++ zb 3)), { stIn .calm with p.robots := [(7, { sstate := .lost })] }, by and_intros <;> decide +kernel⟩

theorem test_met_ReservationCommandsTakeEffect_8 : ∃ (r : Request) (s : State),
    live s r = true
    ∧ r.payload.length = 8
    ∧ (decide (fld r.payload 1 1 < 2) && zeros r.payload 3 1 && (bit (fld r.payload 1 1) 0 || zeros r.payload 2 1)) = true
    ∧ inModes s [.breeze, .drift] = true
    ∧ (robotRec s (fld r.payload 0 1)).sstate ≠ .free
    ∧ (fld r.payload 4 2 < s.strt.grid.nx ∧ fld r.payload 6 2 < s.strt.grid.ny)
    ∧ fld r.payload 2 1 < 8
    ∧ (planAt s (fld r.payload 0 1)).state = .parked
    ∧ (planAt s (fld r.payload 0 1)).task.isNone = true
    ∧ (requesters s).contains (fld r.payload 0 1) = false
    ∧ csnHolds s r [(okPath, fld r.payload 0 1)] = true :=
  ⟨(rq 0x0831 (le 1 7 ++ zb 7)), { gridSt with mode.cur := .breeze, p.robots := [(7, { sstate := .associated })], allot.plans := [(7, { state := .parked })] }, by and_intros <;> decide +kernel⟩

theorem test_met_StopCommandsTakeEffect_1 : ∃ (r : Request) (s : State),
    live s r = true
    ∧ r.payload.length = 16
    ∧ zeros r.payload 2 14 = true
    ∧ edt s 0x0901 = true :=
  ⟨(rq 0x0901 (zb 16)), { stIn .calm with p.robots := [(7, { sstate := .lost })] }, by and_intros <;> decide +kernel⟩

theorem test_met_StopCommandsTakeEffect_2 : ∃ (r : Request) (s : State),
    live s r = true
    ∧ r.payload.length = 16
    ∧ (zeros r.payload 1 1 && zeros r.payload 4 12) = true
    ∧ edt s 0x0902 = true
    ∧ (robotRec s (fld r.payload 0 1)).sstate ≠ .free :=
  ⟨(rq 0x0902 (le 1 7 ++ zb 15)), { stIn .calm with p.robots := [(7, { sstate := .lost })] }, by and_intros <;> decide +kernel⟩

theorem test_met_StopCommandsTakeEffect_3 : ∃ (s : State) (r : Request),
    (callerOf s r).isSome = true :=
  ⟨(stIn .calm), (rq 0x0101 []), by decide +kernel⟩

theorem test_met_StopCommandsTakeEffect_4 : ∃ (r : Request) (s : State),
    live s r = true
    ∧ r.payload.length = 8
    ∧ (zeros r.payload 2 6 && (!(fld r.payload 0 1 == 1) || zeros r.payload 1 1)) = true
    ∧ supOk s r = true
    ∧ inModes s mRelease = true
    ∧ (fld r.payload 0 1 = 1 ∨ fld r.payload 0 1 = 2)
    ∧ releasable s (fld r.payload 0 1 == 1) (fld r.payload 1 1) = true
    ∧ blocking s (fld r.payload 0 1 == 1) = 0
    ∧ (∀ a ∈ pendingArms s, a.sessionId = r.sessionId) :=
  ⟨(rq 0x0910 (le 1 2 ++ le 1 7 ++ zb 6)), stoppedSt, by and_intros <;> decide +kernel⟩

theorem test_met_StopCommandsTakeEffect_5 : ∃ (r : Request) (s : State) (a : ReleaseArm),
    live s r = true
    ∧ csnHolds s r [(okRobot, a.robot)] = true
    ∧ r.payload.length = 8
    ∧ zeros r.payload 4 4 = true
    ∧ supOk s r = true
    ∧ inModes s mRelease = true
    ∧ ((s.stop.arms.find? fun a => a.sessionId == r.sessionId && a.armId == fld r.payload 0 4) = some a)
    ∧ a.site = false
    ∧ blocking s false = 0
    ∧ releaseInputOk s = true
    ∧ fcNow s ≤ a.fc + 500 :=
  ⟨(rq 0x0911 (le 4 5 ++ zb 4)), armedSt, (armOf false), by and_intros <;> decide +kernel⟩

theorem test_met_StopCommandsTakeEffect_6 : ∃ (r : Request) (s : State) (a : ReleaseArm),
    live s r = true
    ∧ csnHolds s r [siteObj] = true
    ∧ r.payload.length = 8
    ∧ zeros r.payload 4 4 = true
    ∧ supOk s r = true
    ∧ inModes s mRelease = true
    ∧ ((s.stop.arms.find? fun a => a.sessionId == r.sessionId && a.armId == fld r.payload 0 4) = some a)
    ∧ a.site = true
    ∧ blocking s true = 0
    ∧ releaseInputOk s = true
    ∧ fcNow s ≤ a.fc + 500 :=
  ⟨(rq 0x0911 (le 4 5 ++ zb 4)), { armedSt with stop.arms := [armOf true] }, (armOf true), by and_intros <;> decide +kernel⟩

theorem test_met_RadioAndCanCommandsTakeEffect_1 : ∃ (r : Request) (s : State),
    live s r = true
    ∧ csnHolds s r [siteObj] = true
    ∧ r.payload.length = 32
    ∧ zeros r.payload 16 16 = true
    ∧ allZero r.payload = false
    ∧ supOk s r = true
    ∧ inModes s mCfg = true
    ∧ radioOk s (radioFrom s r.payload) = true :=
  ⟨(rq 0x0A02 (zb 6 ++ le 2 60 ++ zb 24)), (stIn .calm), by and_intros <;> decide +kernel⟩

theorem test_met_RadioAndCanCommandsTakeEffect_2 : ∃ (r : Request) (q : Request) (s : State),
    withAction r 1 = q
    ∧ live s q = true
    ∧ q.payload.length = 8
    ∧ zeros q.payload 4 4 = true
    ∧ fld q.payload 1 1 = 1
    ∧ svcOk s q = true
    ∧ s.mode.cur = .watch
    ∧ (1 ≤ fld q.payload 0 1 ∧ fld q.payload 0 1 ≤ 3)
    ∧ (1 ≤ fld q.payload 2 2 ∧ fld q.payload 2 2 ≤ 3600)
    ∧ testRunning s (fld q.payload 0 1) = false :=
  ⟨(rq 0x0A10 (le 1 3 ++ le 1 1 ++ le 2 3600 ++ zb 4)), (withAction (rq 0x0A10 (le 1 3 ++ le 1 1 ++ le 2 3600 ++ zb 4)) 1), (stIn .watch), by and_intros <;> decide +kernel⟩

theorem test_met_RadioAndCanCommandsTakeEffect_3 : ∃ (r : Request) (q : Request) (s : State),
    withAction r 2 = q
    ∧ live s q = true
    ∧ q.payload.length = 8
    ∧ zeros q.payload 4 4 = true
    ∧ fld q.payload 1 1 = 2
    ∧ fld q.payload 2 2 = 0
    ∧ svcOk s q = true
    ∧ s.mode.cur = .watch
    ∧ (1 ≤ fld q.payload 0 1 ∧ fld q.payload 0 1 ≤ 3) :=
  ⟨(rq 0x0A10 (le 1 3 ++ le 1 2 ++ zb 6)), (withAction (rq 0x0A10 (le 1 3 ++ le 1 2 ++ zb 6)) 2), (stIn .watch), by and_intros <;> decide +kernel⟩

theorem test_met_RadioAndCanCommandsTakeEffect_4 : ∃ (r : Request) (s : State),
    live s r = true
    ∧ r.payload.length = 4
    ∧ zeros r.payload 1 3 = true
    ∧ edt s 0x0B01 = true
    ∧ fld r.payload 0 1 < 2 :=
  ⟨(rq 0x0B01 (le 1 1 ++ zb 3)), (stIn .calm), by and_intros <;> decide +kernel⟩

theorem test_met_RadioAndCanCommandsTakeEffect_5 : ∃ (r : Request) (s : State),
    live s r = true
    ∧ csnHolds s r [siteObj] = true
    ∧ r.payload.length = 40
    ∧ (decide ((canCfgFrom r.payload).wakeId < 2 ^ 11) && decide ((canCfgFrom r.payload).wakeIdMask < 2 ^ 11) && zeros r.payload 32 8) = true
    ∧ supOk s r = true
    ∧ inModes s mCfg = true
    ∧ fld r.payload 0 1 < 2
    ∧ canCfgOk (canCfgFrom r.payload) = true
    ∧ isNodeId (canSet s (fld r.payload 0 1)) false (canCfgFrom r.payload).stopId none = false :=
  ⟨canReq, (stIn .calm), by and_intros <;> decide +kernel⟩

theorem test_met_RadioAndCanCommandsTakeEffect_6 : ∃ (r : Request) (s : State),
    live s r = true
    ∧ csnHolds s r [siteObj] = true
    ∧ r.payload.length = 20
    ∧ (zeros r.payload 2 2 && decide ((ruleFrom r.payload).idValue < 2 ^ 29) && decide ((ruleFrom r.payload).idMask < 2 ^ 29) && decide ((ruleFrom r.payload).fmt < 16) && zeros r.payload 16 4) = true
    ∧ (ruleFrom r.payload).action ≤ 3
    ∧ supOk s r = true
    ∧ inModes s mNorm = true
    ∧ fld r.payload 0 1 < 2
    ∧ ((ruleFrom r.payload).minLen ≤ (ruleFrom r.payload).maxLen ∧ (ruleFrom r.payload).maxLen ≤ 64) :=
  ⟨(rq 0x0B10 (le 1 1 ++ le 1 255 ++ zb 18)), (stIn .calm), by and_intros <;> decide +kernel⟩

theorem test_met_RadioAndCanCommandsTakeEffect_7 : ∃ (r : Request) (s : State),
    live s r = true
    ∧ r.payload.length = 20
    ∧ (ruleFrom r.payload).action = 0xFF
    ∧ (zeros r.payload 2 2 && decide ((ruleFrom r.payload).idValue < 2 ^ 29) && decide ((ruleFrom r.payload).idMask < 2 ^ 29) && decide ((ruleFrom r.payload).fmt < 16) && zeros r.payload 16 4) = true
    ∧ zeros r.payload 0 13 = true
    ∧ zeros r.payload 14 6 = true
    ∧ edt s 0x0B10 = true :=
  ⟨(rq 0x0B10 ruleRead), (stIn .calm), by and_intros <;> decide +kernel⟩

theorem test_met_RadioAndCanCommandsTakeEffect_8 : ∃ (r : Request) (s : State),
    live s r = true
    ∧ csnHolds s r [siteObj] = true
    ∧ r.payload.length = 16
    ∧ fld r.payload 4 4 < 2 ^ 29
    ∧ supOk s r = true
    ∧ inModes s mCfg = true
    ∧ (fld r.payload 0 1 < 2 ∧ fld r.payload 1 1 < 16)
    ∧ (fld r.payload 2 1 = 1 ∨ fld r.payload 2 1 = 2)
    ∧ fld r.payload 3 1 ≤ 1
    ∧ (fld r.payload 3 1 == 1 || decide (fld r.payload 4 4 < 2 ^ 11)) = true
    ∧ nameOk (slice r.payload 8 8) = true
    ∧ (!(fld r.payload 3 1 == 1) && fld r.payload 4 4 == (canSet s (fld r.payload 0 1)).cfg.stopId) = false
    ∧ isNodeId (canSet s (fld r.payload 0 1)) (fld r.payload 3 1 == 1) (fld r.payload 4 4) (some (fld r.payload 1 1)) = false :=
  ⟨(rq 0x0B11 (le 1 1 ++ le 1 15 ++ le 1 1 ++ le 1 1 ++ le 4 (2 ^ 29 - 1) ++ zb 8)), (stIn .calm), by and_intros <;> decide +kernel⟩

theorem test_met_RadioAndCanCommandsTakeEffect_9 : ∃ (r : Request) (s : State) (l : List Bytes),
    live s r = true
    ∧ 4 ≤ r.payload.length
    ∧ sendFrames (fld r.payload 1 1) (r.payload.drop 4) = some l
    ∧ (zeros r.payload 2 2 && l.all sendRsv) = true
    ∧ inModes s mRun = true
    ∧ fld r.payload 0 1 < 2
    ∧ (1 ≤ fld r.payload 1 1 ∧ fld r.payload 1 1 ≤ 8)
    ∧ (((l.map fun f => sendFrame f (canAt s (fld r.payload 0 1)).cfg r.sessionId).all (sendOk (canSet s (fld r.payload 0 1)))) = true)
    ∧ ((canRoom (takeLatched s r) (fld r.payload 0 1) (l.map fun f => sendFrame f (canAt s (fld r.payload 0 1)).cfg r.sessionId) && (canAt s (fld r.payload 0 1)).state != .asleep && (canAt s (fld r.payload 0 1)).state != .disabled && (canAt s (fld r.payload 0 1)).state != .off) = true) :=
  ⟨(rq 0x0B20 canFrame), canSt, ((sendFrames 1 (canFrame.drop 4)).getD []), by and_intros <;> decide +kernel⟩

theorem test_met_RadioAndCanCommandsTakeEffect_10 : ∃ (r : Request) (s : State),
    live s r = true
    ∧ csnHolds s r [(okSession, r.slot)] = true
    ∧ r.payload.length = 4
    ∧ zeros r.payload 2 2 = true
    ∧ edt s 0x0B21 = true
    ∧ fld r.payload 0 1 < 2
    ∧ (fld r.payload 1 1 = 1 ∨ fld r.payload 1 1 = 2) :=
  ⟨(rq 0x0B21 (le 1 1 ++ le 1 1 ++ zb 2)), (stIn .calm), by and_intros <;> decide +kernel⟩

theorem test_met_RadioAndCanCommandsTakeEffect_11 : ∃ (r : Request) (q : Request) (s : State),
    withCanAction r 1 = q
    ∧ live s q = true
    ∧ q.payload.length = 4
    ∧ zeros q.payload 2 2 = true
    ∧ fld q.payload 1 1 = 1
    ∧ supOk s q = true
    ∧ inModes s [.calm, .zephyr, .breeze, .drift, .lull, .watch] = true
    ∧ fld q.payload 0 1 < 2
    ∧ s.stop.voted = true
    ∧ csnHolds s q [siteObj] = true :=
  ⟨(rq 0x0B30 (le 1 1 ++ le 1 1 ++ zb 2)), (withCanAction (rq 0x0B30 (le 1 1 ++ le 1 1 ++ zb 2)) 1), { stIn .calm with stop.voted := true }, by and_intros <;> decide +kernel⟩

theorem test_met_RadioAndCanCommandsTakeEffect_12 : ∃ (r : Request) (q : Request) (s : State),
    withCanAction r 2 = q
    ∧ live s q = true
    ∧ q.payload.length = 4
    ∧ zeros q.payload 2 2 = true
    ∧ fld q.payload 1 1 = 2
    ∧ supOk s q = true
    ∧ inModes s [.calm, .zephyr, .breeze, .drift, .lull, .watch] = true
    ∧ fld q.payload 0 1 < 2
    ∧ csnHolds s q [siteObj] = true :=
  ⟨(rq 0x0B30 (le 1 1 ++ le 1 2 ++ zb 2)), (withCanAction (rq 0x0B30 (le 1 1 ++ le 1 2 ++ zb 2)) 2), (stIn .calm), by and_intros <;> decide +kernel⟩

theorem test_met_KeyCommandsTakeEffect_1 : ∃ (r : Request) (s : State),
    live s r = true
    ∧ r.payload.length = 40
    ∧ zeros r.payload 1 7 = true
    ∧ fld r.payload 0 1 = 2
    ∧ zeros r.payload 8 32 = false
    ∧ svcOk s r = true
    ∧ s.mode.cur = .tender
    ∧ siteValid s = false
    ∧ csnHolds s r [(okKey, 0)] = true :=
  ⟨(rq 0x0C10 (le 1 2 ++ zb 7 ++ le 1 1 ++ zb 31)), (stIn .tender), by and_intros <;> decide +kernel⟩

theorem test_met_KeyCommandsTakeEffect_2 : ∃ (r : Request) (s : State),
    live s r = true
    ∧ r.payload.length = 40
    ∧ zeros r.payload 1 7 = true
    ∧ fld r.payload 0 1 = 1
    ∧ zeros r.payload 8 32 = true
    ∧ svcOk s r = true
    ∧ s.mode.cur = .tender
    ∧ siteValid s = false
    ∧ csnHolds s r [(okKey, 0)] = true :=
  ⟨(rq 0x0C10 (le 1 1 ++ zb 39)), (stIn .tender), by and_intros <;> decide +kernel⟩

theorem test_met_KeyCommandsTakeEffect_3 : ∃ (r : Request) (s : State),
    live s r = true
    ∧ r.payload.length = 8
    ∧ zeros r.payload 1 3 = true
    ∧ svcOk s r = true
    ∧ inModes s mCfg = true
    ∧ fld r.payload 0 1 < 64
    ∧ (keySlot s (fld r.payload 0 1)).valid = true
    ∧ fld r.payload 4 4 = 0xDE57
    ∧ csnHolds s r [(okKey, fld r.payload 0 1)] = true :=
  ⟨(rq 0x0C11 (le 1 63 ++ zb 3 ++ le 4 0xDE57)), { stIn .calm with bk.slots := [(63, { valid := true })] }, by and_intros <;> decide +kernel⟩

theorem test_met_KeyCommandsTakeEffect_4 : ∃ (r : Request) (s : State),
    live s r = true
    ∧ r.payload.length = 24
    ∧ zeros r.payload 1 7 = true
    ∧ svcOk s r = true
    ∧ inModes s mCfg = true
    ∧ fld r.payload 0 1 ≤ 9
    ∧ csnHolds s r [(okKey, fld r.payload 0 1 + 1)] = true :=
  ⟨(rq 0x0C12 (le 1 9 ++ zb 23)), (stIn .calm), by and_intros <;> decide +kernel⟩

theorem test_met_KeyCommandsTakeEffect_5 : ∃ (r : Request) (s : State) (i : Nat),
    live s r = true
    ∧ r.payload.length = 32
    ∧ zeros r.payload 1 7 = true
    ∧ svcOk s r = true
    ∧ inModes s mCfg = true
    ∧ (fld r.payload 0 1 == 0xFF || (decide (11 ≤ fld r.payload 0 1) && decide (fld r.payload 0 1 ≤ 63))) = true
    ∧ linkSlotNamed s (fld r.payload 0 1) = some i
    ∧ (linkSlotOf s (BitVec.ofNat 64 (fld r.payload 8 8))).all (· == i) = true
    ∧ csnHolds s r [(okKey, i)] = true :=
  ⟨(rq 0x0C13 (le 1 63 ++ zb 31)), (stIn .calm), 63, by and_intros <;> decide +kernel⟩

theorem test_met_KeyCommandsTakeEffect_7 : ∃ (r : Request) (s : State),
    live s r = true
    ∧ r.payload.length = 8
    ∧ svcOk s r = true
    ∧ r.port = .l23
    ∧ inModes s mCfg = true
    ∧ (siteValid s || (linkSlotOf s (BitVec.ofNat 64 (fld r.payload 0 8))).isSome) = true :=
  ⟨(rq 0x0C14 (zb 8)), readyTender, by and_intros <;> decide +kernel⟩

theorem test_met_KeyCommandsTakeEffect_8 : ∃ (r : Request) (s : State),
    live s r = true
    ∧ csnHolds s r [siteObj] = true
    ∧ r.payload.length = 4
    ∧ fld r.payload 0 1 < 4
    ∧ zeros r.payload 1 3 = true
    ∧ svcOk s r = true
    ∧ inModes s mWork = true
    ∧ fld r.payload 0 1 ≠ 0
    ∧ s.p.keys.roll.isNone = true
    ∧ siteValid s = true :=
  ⟨(rq 0x0C15 (le 1 3 ++ zb 3)), { readyTender with mode.cur := .zephyr }, by and_intros <;> decide +kernel⟩

theorem test_met_KeyCommandsTakeEffect_9 : ∃ (r : Request) (s : State),
    live s r = true
    ∧ csnHolds s r [siteObj] = true
    ∧ r.payload.length = 8
    ∧ (!bit (fld r.payload 1 1) 5 && !bit (fld r.payload 1 1) 6 && (bit (fld r.payload 1 1) 7 || fld r.payload 1 1 == 0) && zeros r.payload 4 4) = true
    ∧ allZero r.payload = false
    ∧ svcOk s r = true
    ∧ inModes s [.tender, .calm, .zephyr, .lull, .squall, .watch] = true
    ∧ (decide (fld r.payload 0 1 ≤ 2) && (decide (fld r.payload 2 2 ≤ 3600) || fld r.payload 2 2 == 0xFFFF)) = true
    ∧ (fld r.payload 0 1 == 2 && s.bk.latched) = false :=
  ⟨(rq 0x0C20 (le 1 1 ++ le 1 0x9F ++ zb 6)), (stIn .calm), by and_intros <;> decide +kernel⟩

theorem test_met_KeyCommandsTakeEffect_10 : ∃ (r : Request) (s : State),
    live s r = true
    ∧ csnHolds s r [siteObj] = true
    ∧ r.payload.length = 4
    ∧ svcOk s r = true
    ∧ inModes s mCfg = true
    ∧ fld r.payload 0 4 = 0x7A3C
    ∧ s.bk.latched = true
    ∧ (((List.range 5).all fun i => !(bit s.bk.tsrcNow i && bit s.bk.enable i)) = true) :=
  ⟨(rq 0x0C21 (le 4 0x7A3C)), { stIn .calm with bk.latched := true }, by and_intros <;> decide +kernel⟩

theorem test_met_KeyCommandsTakeEffect_11 : ∃ (r : Request) (s : State),
    live s r = true
    ∧ r.payload.length = 16
    ∧ allZero r.payload = true
    ∧ edt s 0x0C30 = true :=
  ⟨(rq 0x0C30 (zb 16)), (stIn .calm), by and_intros <;> decide +kernel⟩

theorem test_met_KeyCommandsTakeEffect_12 : ∃ (r : Request) (s : State),
    live s r = true
    ∧ r.payload.length = 16
    ∧ allZero r.payload = false
    ∧ edt s 0x0C30 = true
    ∧ s.sec.freshUsed < 4 :=
  ⟨(rq 0x0C30 (le 1 1 ++ zb 15)), (stIn .calm), by and_intros <;> decide +kernel⟩

theorem test_met_UpdateCommandsTakeEffect_1 : ∃ (r : Request) (s : State),
    live s r = true
    ∧ r.payload.length = 120
    ∧ zeros r.payload 60 4 = true
    ∧ zeros r.payload 112 8 = true
    ∧ svcOk s r = true
    ∧ inModes s mDownload = true
    ∧ (1 ≤ fld r.payload 16 8 ∧ fld r.payload 16 8 ≤ 67100672)
    ∧ (s.upd.state = 0 ∨ s.upd.state = 3)
    ∧ csnHolds s r [siteObj] = true :=
  ⟨(rq 0x0D02 (zb 16 ++ le 8 67100672 ++ zb 96)), (stIn .calm), by and_intros <;> decide +kernel⟩

theorem test_met_UpdateCommandsTakeEffect_2 : ∃ (r : Request) (s : State),
    live s r = true
    ∧ r.payload.length = 120
    ∧ zeros r.payload 60 4 = true
    ∧ zeros r.payload 112 8 = true
    ∧ svcOk s r = true
    ∧ inModes s mDownload = true
    ∧ (1 ≤ fld r.payload 16 8 ∧ fld r.payload 16 8 ≤ 67100672)
    ∧ s.upd.state = 1
    ∧ s.upd.pkgId = slice r.payload 0 16
    ∧ s.upd.len = fld r.payload 16 8
    ∧ csnHolds s r [siteObj] = true :=
  ⟨(rq 0x0D02 (zb 16 ++ le 8 1 ++ zb 96)), { stIn .calm with upd.state := 1, upd.pkgId := zb 16, upd.len := 1 }, by and_intros <;> decide +kernel⟩

theorem test_met_UpdateCommandsTakeEffect_3 : ∃ (r : Request) (s : State),
    live s r = true
    ∧ (8 ≤ r.payload.length ∧ r.payload.length = 8 + fld r.payload 4 2)
    ∧ zeros r.payload 6 2 = true
    ∧ svcOk s r = true
    ∧ inModes s mDownload = true
    ∧ s.upd.state = 1
    ∧ fld r.payload 0 4 < s.upd.blocksEver
    ∧ fld r.payload 4 2 = blockLen s (fld r.payload 0 4) :=
  ⟨(rq 0x0D03 (le 4 0 ++ le 2 1 ++ zb 2 ++ le 1 7)), loadSt, by and_intros <;> decide +kernel⟩

theorem test_met_UpdateCommandsTakeEffect_4 : ∃ (r : Request) (s : State),
    live s r = true
    ∧ r.payload = []
    ∧ svcOk s r = true
    ∧ inModes s mDownload = true
    ∧ s.upd.state = 1
    ∧ blocksLeft s = 0
    ∧ s.upd.finish.isNone = true
    ∧ csnHolds s r [siteObj] = true :=
  ⟨(rq 0x0D04 []), { loadSt with upd.blocks := [(0, le 1 7)] }, by and_intros <;> decide +kernel⟩

theorem test_met_UpdateCommandsTakeEffect_5 : ∃ (r : Request) (s : State),
    live s r = true
    ∧ r.payload = []
    ∧ svcOk s r = true
    ∧ inModes s mDownload = true
    ∧ s.upd.state = 1
    ∧ s.upd.finish.isNone = true
    ∧ s.upd.act.isNone = true
    ∧ csnHolds s r [siteObj] = true :=
  ⟨(rq 0x0D05 []), loadSt, by and_intros <;> decide +kernel⟩

theorem test_met_UpdateCommandsTakeEffect_6 : ∃ (r : Request) (s : State) (x : Activation),
    live s r = true
    ∧ r.payload = []
    ∧ svcOk s r = true
    ∧ inModes s mDownload = true
    ∧ s.upd.state = 4
    ∧ fcNow s + 1 < actFc s
    ∧ s.upd.finish.isNone = true
    ∧ s.upd.act = some x
    ∧ csnHolds s r [siteObj] = true :=
  ⟨(rq 0x0D05 []), plannedSt, planned, by and_intros <;> decide +kernel⟩

theorem test_met_UpdateCommandsTakeEffect_7 : ∃ (r : Request) (s : State),
    live s r = true
    ∧ r.payload = []
    ∧ svcOk s r = true
    ∧ inModes s mUpd = true
    ∧ s.upd.state = 3
    ∧ csnHolds s r [siteObj] = true :=
  ⟨(rq 0x0D06 []), { stIn .calm with upd.state := 3 }, by and_intros <;> decide +kernel⟩

theorem test_met_UpdateCommandsTakeEffect_8 : ∃ (r : Request) (s : State),
    live s r = true
    ∧ r.payload = []
    ∧ svcOk s r = true
    ∧ inModes s mUpd = true
    ∧ s.upd.state = 7
    ∧ (otherSlot s).state = 3
    ∧ csnHolds s r [siteObj] = true :=
  ⟨(rq 0x0D09 []), { stIn .calm with upd.state := 7, flash.a.state := 3, flash.b.state := 3 }, by and_intros <;> decide +kernel⟩

theorem test_met_UpdateCommandsTakeEffect_9 : ∃ (r : Request) (s : State),
    live s r = true
    ∧ r.payload.length = 16
    ∧ (decide (fld r.payload 10 1 < 2) && zeros r.payload 11 1 && decide (fld r.payload 12 2 < 1024) && zeros r.payload 14 2) = true
    ∧ svcOk s r = true
    ∧ inModes s mUpd = true
    ∧ fullOf r.payload 0 % ftuPerSec = 0
    ∧ fcOfTime (fullOf r.payload 0) ≤ fcNow s + 259200000
    ∧ s.upd.state = 3
    ∧ (maskLinks (fld r.payload 12 2)).all (headReady s) = true
    ∧ fcNow s + 200 ≤ fcOfTime (fullOf r.payload 0)
    ∧ csnHolds s r [siteObj] = true :=
  ⟨(rq 0x0D07 (le 8 (ftuPerSec * 10) ++ zb 8)), { stIn .calm with upd.state := 3 }, by and_intros <;> decide +kernel⟩

theorem test_met_UpdateCommandsTakeEffect_10 : ∃ (r : Request) (s : State),
    live s r = true
    ∧ csnHolds s r [siteObj] = true
    ∧ r.payload = []
    ∧ svcOk s r = true
    ∧ inModes s mUpd = true
    ∧ s.upd.state = 7
    ∧ s.upd.safFailed = false :=
  ⟨(rq 0x0D08 []), { stIn .calm with upd.state := 7 }, by and_intros <;> decide +kernel⟩

theorem test_met_JournalAndDiagnosticsCommandsAnswer_1 : ∃ (r : Request) (s : State),
    live s r = true
    ∧ r.payload.length = 40
    ∧ (zeros r.payload 1 1 && zeros r.payload 18 6 && queryUnused r.payload) = true
    ∧ (isSup (roleOf s r) || fld r.payload 0 1 != 3) = true
    ∧ edt s 0x0E01 = true
    ∧ queryRange r.payload = true :=
  ⟨queryReq, (stIn .calm), by and_intros <;> decide +kernel⟩

theorem test_met_JournalAndDiagnosticsCommandsAnswer_2 : ∃ (r : Request) (s : State),
    live s r = true
    ∧ r.payload.length = 16
    ∧ zeros r.payload 10 6 = true
    ∧ edt s 0x0E02 = true
    ∧ (1 ≤ fld r.payload 8 2 ∧ fld r.payload 8 2 ≤ 21) :=
  ⟨(rq 0x0E02 (zb 8 ++ le 2 21 ++ zb 6)), (stIn .calm), by and_intros <;> decide +kernel⟩

theorem test_met_JournalAndDiagnosticsCommandsAnswer_3 : ∃ (r : Request) (s : State) (l : List Nat),
    live s r = true
    ∧ r.payload.length = 4
    ∧ zeros r.payload 2 2 = true
    ∧ edt s 0x0F02 = true
    ∧ counterGroup s (fld r.payload 0 1) (fld r.payload 1 1) = some l :=
  ⟨(rq 0x0F02 (le 1 1 ++ zb 3)), (stIn .calm), ((counterGroup (stIn .calm) 1 0).getD []), by and_intros <;> decide +kernel⟩

theorem test_met_JournalAndDiagnosticsCommandsAnswer_4 : ∃ (r : Request) (s : State) (l : List (Nat × SpillQueue)),
    live s r = true
    ∧ r.payload.length = 4
    ∧ zeros r.payload 1 3 = true
    ∧ edt s 0x0F03 = true
    ∧ l = queuesNamed (takeLatched s r) (fld r.payload 0 1)
    ∧ l ≠ [] :=
  ⟨(rq 0x0F03 (le 1 0x40 ++ zb 3)), (stIn .calm), (queuesNamed (takeLatched (stIn .calm) (rq 0x0F03 (le 1 0x40 ++ zb 3))) 0x40), by and_intros <;> decide +kernel⟩

theorem test_met_JournalAndDiagnosticsCommandsAnswer_5 : ∃ (r : Request) (s : State) (k : QParam),
    live s r = true
    ∧ csnHolds s r [siteObj] = true
    ∧ r.payload.length = 12
    ∧ zeros r.payload 1 3 = true
    ∧ supOk s r = true
    ∧ inModes s mCfg = true
    ∧ qParam (fld r.payload 0 1) = some k
    ∧ (fld r.payload 4 4 == 0 || (k.minDepth != k.maxDepth && decide (k.minDepth ≤ fld r.payload 4 4) && decide (fld r.payload 4 4 ≤ k.maxDepth))) = true
    ∧ (fld r.payload 8 4 ≤ (if fld r.payload 4 4 = 0 then depthCfg s (fld r.payload 0 1) k else fld r.payload 4 4)) :=
  ⟨(rq 0x0F04 (le 1 0 ++ zb 7 ++ le 4 1)), (stIn .calm), ((qParam 0).get rfl), by and_intros <;> decide +kernel⟩

theorem test_met_JournalAndDiagnosticsCommandsAnswer_6 : ∃ (r : Request) (s : State),
    live s r = true
    ∧ r.payload.length = 4
    ∧ zeros r.payload 1 3 = true
    ∧ fld r.payload 0 1 = 0x10
    ∧ supOk s r = true
    ∧ (inModes s (if watchOnly 0x10 then [.watch] else mRun) = true)
    ∧ ((s.cores.tests.any fun t => t.target == 0x10) = false) :=
  ⟨(rq 0x0F10 (le 1 0x10 ++ zb 3)), (stIn .watch), by and_intros <;> decide +kernel⟩

theorem test_met_JournalAndDiagnosticsCommandsAnswer_7 : ∃ (r : Request) (s : State) (d : Nat),
    live s r = true
    ∧ r.payload.length = 4
    ∧ zeros r.payload 1 3 = true
    ∧ supOk s r = true
    ∧ (inModes s (if watchOnly (fld r.payload 0 1) then [.watch] else mRun) = true)
    ∧ testFcs (fld r.payload 0 1) = some d
    ∧ fld r.payload 0 1 ≠ 0x10
    ∧ ((s.cores.tests.any fun t => t.target == fld r.payload 0 1) = false)
    ∧ (decide (fld r.payload 0 1 ≤ 3) && (chanTestBusy s || votingCount s != 3)) = false
    ∧ (fld r.payload 0 1 == 0x23 && !s.cores.standbyReady) = false :=
  ⟨(rq 0x0F10 (le 1 0x22 ++ zb 3)), (stIn .watch), ((testFcs 0x22).getD 0), by and_intros <;> decide +kernel⟩

theorem test_met_JournalAndDiagnosticsCommandsAnswer_8 : ∃ (r : Request) (s : State),
    live s r = true
    ∧ r.payload.length = 16
    ∧ zeros r.payload 1 3 = true
    ∧ fld r.payload 0 1 = 5
    ∧ fld r.payload 4 4 = 0
    ∧ edt s 0x0F20 = true
    ∧ (1 ≤ fld r.payload 12 4 ∧ fld r.payload 12 4 ≤ 16384)
    ∧ fld r.payload 8 4 + fld r.payload 12 4 ≤ 4096 :=
  ⟨(rq 0x0F20 (le 1 5 ++ zb 7 ++ le 4 4095 ++ le 4 1)), (stIn .calm), by and_intros <;> decide +kernel⟩

theorem test_met_JournalAndDiagnosticsCommandsAnswer_9 : ∃ (r : Request) (s : State),
    live s r = true
    ∧ r.payload.length = 16
    ∧ zeros r.payload 1 3 = true
    ∧ fld r.payload 0 1 = 1
    ∧ (fld r.payload 4 4 == 0 && s.strt.snapFc == some (fcNow s)) = false
    ∧ edt s 0x0F20 = true
    ∧ (1 ≤ fld r.payload 12 4 ∧ fld r.payload 12 4 ≤ 16384)
    ∧ fld r.payload 8 4 + fld r.payload 12 4 ≤ 262144
    ∧ (fld r.payload 4 4 == 0 || (takeSnap s r (fld r.payload 4 4)).isSome) = true :=
  ⟨(rq 0x0F20 (le 1 1 ++ zb 7 ++ le 4 262143 ++ le 4 1)), (stIn .calm), by and_intros <;> decide +kernel⟩

theorem test_met_JournalAndDiagnosticsCommandsAnswer_10 : ∃ (r : Request) (s : State) (items : List Bytes),
    live s r = true
    ∧ r.payload.length = 8 + 16 * fld r.payload 1 1
    ∧ (items = ((List.range (fld r.payload 1 1)).map fun i => slice r.payload (8 + 16 * i) 16))
    ∧ (zeros r.payload 2 2 && (fld r.payload 0 1 != 5 || fld r.payload 4 4 == 0) && items.all (itemRsv (fld r.payload 0 1))) = true
    ∧ supOk s r = true
    ∧ inModes s mNorm = true
    ∧ (fld r.payload 0 1 = 1 ∨ fld r.payload 0 1 = 5)
    ∧ (1 ≤ fld r.payload 1 1 ∧ fld r.payload 1 1 ≤ 64)
    ∧ items.all (itemOk (fld r.payload 0 1)) = true
    ∧ fld r.payload 4 4 = 0
    ∧ csnHolds s r (itemObjs (fld r.payload 0 1) items s) = true :=
  ⟨writeReq, (stIn .calm), ([slice writeReq.payload 8 16]), by and_intros <;> decide +kernel⟩

theorem test_met_TheEightWindowsRunInOrder_1 : ∃ (s : State),
    running s = true
    ∧ (s.mode.cur == .still) = false :=
  ⟨(stIn .calm), by and_intros <;> decide +kernel⟩

theorem test_met_TheEightWindowsRunInOrder_2 : ∃ (s : State),
    s.time.step = none
    ∧ s.time.regs.boundary ≠ nextBoundary s :=
  ⟨{ stIn .calm with clk.fcLen := 1248000, clk.boundary := 5, time.regs.boundary := 5 }, by and_intros <;> decide +kernel⟩

theorem test_met_TheEightWindowsRunInOrder_3 : ∃ (s : State),
    running s = true
    ∧ windowCode s.clk.window < windowCode .safe :=
  ⟨(stIn .calm), by and_intros <;> decide +kernel⟩

theorem test_met_TheEightWindowsRunInOrder_4 : ∃ (s : State),
    running s = true
    ∧ windowCode s.clk.window < windowCode .solve :=
  ⟨(stIn .calm), by and_intros <;> decide +kernel⟩

theorem test_met_TheEightWindowsRunInOrder_5 : ∃ (s : State),
    running s = true
    ∧ windowCode s.clk.window < windowCode .command :=
  ⟨(stIn .calm), by and_intros <;> decide +kernel⟩

theorem test_met_TheEightWindowsRunInOrder_6 : ∃ (s : State),
    running s = true
    ∧ windowCode s.clk.window < windowCode .plan :=
  ⟨(stIn .calm), by and_intros <;> decide +kernel⟩

theorem test_met_TheEightWindowsRunInOrder_7 : ∃ (s : State),
    running s = true
    ∧ windowCode s.clk.window < windowCode .emit :=
  ⟨(stIn .calm), by and_intros <;> decide +kernel⟩

theorem test_met_TheEightWindowsRunInOrder_8 : ∃ (s : State),
    running s = true
    ∧ windowCode s.clk.window < windowCode .persist :=
  ⟨(stIn .calm), by and_intros <;> decide +kernel⟩

theorem test_met_TheEightWindowsRunInOrder_9 : ∃ (s : State),
    running s = true
    ∧ windowCode s.clk.window < windowCode .guard :=
  ⟨(stIn .calm), by and_intros <;> decide +kernel⟩

theorem test_met_TheEightWindowsRunInOrder_10 : ∃ (s : State) (w : Window),
    s.clk.window = w :=
  ⟨(stIn .calm), Window.latch, by decide +kernel⟩

theorem test_met_DatagramsOfASessionAreTakenIn_1 : ∃ (s : State) (d : Datagram) (o : Datagram) (slot : Nat) (e : Session),
    running s = true
    ∧ inFc s d.pclk = true
    ∧ (tgetD s.ports.hosts (portCode d.port) {}).frames < 2048
    ∧ toUs s d = true
    ∧ sizeOk d = true
    ∧ headerOk d = true
    ∧ hSession d ≠ 0
    ∧ boundSession s d = some (slot, e)
    ∧ openDatagram e.key d = some o
    ∧ seqFresh e (hSeq o) = true
    ∧ hStatus o = 0
    ∧ hOpenHost o = 0
    ∧ hFlags o < 256
    ∧ hKind o = 1
    ∧ bit (hFlags o) 4 = false
    ∧ (∀ x ∈ e.outs, x.tag ≠ hTag o)
    ∧ e.outs.length < 512 :=
  ⟨linkSt, cmdPacket, (clearOf 1 1 0x0101 []), 0, sessL, by and_intros <;> decide +kernel⟩

theorem test_met_DatagramsOfASessionAreTakenIn_2 : ∃ (s : State) (d : Datagram) (o : Datagram) (slot : Nat) (e : Session),
    running s = true
    ∧ inFc s d.pclk = true
    ∧ (tgetD s.ports.hosts (portCode d.port) {}).frames < 2048
    ∧ toUs s d = true
    ∧ sizeOk d = true
    ∧ headerOk d = true
    ∧ hSession d ≠ 0
    ∧ boundSession s d = some (slot, e)
    ∧ openDatagram e.key d = some o
    ∧ seqFresh e (hSeq o) = true
    ∧ hStatus o = 0
    ∧ hOpenHost o = 0
    ∧ hFlags o < 256
    ∧ hKind o = 4
    ∧ hLength o = 8
    ∧ zeros (hPayload o) 4 4 = true :=
  ⟨linkSt, creditPacket, (clearOf 4 1 0 (le 4 100 ++ zb 4)), 0, sessL, by and_intros <;> decide +kernel⟩

theorem test_met_DatagramsOfASessionAreTakenIn_3 : ∃ (e : Session) (l : Nat),
    e.limits = [l] :=
  ⟨(({ limits := [65536] } : Session)), 65536, by decide +kernel⟩

theorem test_met_DatagramsOfASessionAreTakenIn_4 : ∃ (s : State) (slot : Nat) (e : Session),
    running s = true
    ∧ slot < 4
    ∧ sessionAt s slot = some e
    ∧ e.leaseDue = true
    ∧ (s.clk.window = .solve ∨ s.clk.window = .command)
    ∧ fltAway s = false :=
  ⟨{ stIn .calm with clk.window := .solve, edtor.sessions := [(0, { sess0 with leaseDue := true })] }, 0, { sess0 with leaseDue := true }, by and_intros <;> decide +kernel⟩

theorem test_met_DatagramsOfASessionAreTakenIn_5 : ∃ (s : State) (slot : Nat) (e : Session),
    sessionAt s slot = some e
    ∧ slot < 4 :=
  ⟨(stIn .calm), 0, sess0, by and_intros <;> decide +kernel⟩

theorem test_met_TheStopPathActs_1 : ∃ (s : State) (d : Datagram) (o : Datagram) (slot : Nat) (e : FilterEntry),
    running s = true
    ∧ inFc s d.pclk = true
    ∧ toUs s d = true
    ∧ filterHeader d = true
    ∧ filterHit d s = some (slot, e, o) :=
  ⟨filterSt, stopPacket, (clearOf 1 1 0x0901 (zb 16)), 0, filterE, by and_intros <;> decide +kernel⟩

theorem test_met_TheStopPathActs_2 : ∃ (s : State) (d : Datagram),
    running s = true
    ∧ inFc s d.pclk = true
    ∧ toUs s d = true
    ∧ (filterHeader d = false ∨ filterHit d s = none) :=
  ⟨filterSt, cmdPacket, by and_intros <;> decide +kernel⟩

theorem test_met_TheStopPathActs_3 : ∃ (s : State) (inp : Nat) (line : Nat) (pclk : Nat),
    running s = true
    ∧ (inp < 2 ∧ line < 2)
    ∧ inFc s pclk = true :=
  ⟨(stIn .calm), 1, 0, 7, by and_intros <;> decide +kernel⟩

theorem test_met_TheStopPathActs_4 : ∃ (s : State) (c : Nat) (pclk : Nat),
    running s = true
    ∧ c < 3
    ∧ inFc s pclk = true :=
  ⟨(stIn .calm), 2, 7, by and_intros <;> decide +kernel⟩

theorem test_met_TheStopPathActs_5 : ∃ (s : State) (src : Nat) (lows : List Bool),
    running s = true
    ∧ (src < 4 ∧ lows.length = 4)
    ∧ s.clk.window = pulseWindow src
    ∧ (slAt s (src / 2)).mode = 1 :=
  ⟨pulseSt, 0, ([true, true, true, true]), by and_intros <;> decide +kernel⟩

theorem test_met_TheStopPathActs_6 : ∃ (s : State) (fell : Bool) (rose : Bool),
    running s = true
    ∧ s.clk.window = .plan
    ∧ s.stop.voted = true
    ∧ s.stop.sw1 = true
    ∧ fcNow s % 100 = 50
    ∧ (fell && rose) = false :=
  ⟨{ stIn .calm with clk.window := .plan, clk.fcNumber := 50, stop.voted := true, stop.sw1 := true }, true, false, by and_intros <;> decide +kernel⟩

theorem test_met_TheStopPathActs_7 : ∃ (s : State) (c : Nat),
    running s = true
    ∧ c < 3
    ∧ s.clk.window = .latch
    ∧ (chanAt s c).state = .rejoining
    ∧ ((if (chanAt s c).planned then 10 else 100) ≤ (chanAt s c).matchFc) :=
  ⟨rejoinSt, 0, by and_intros <;> decide +kernel⟩

theorem test_met_TheStopPathActs_8 : ∃ (s : State) (c : Nat),
    running s = true
    ∧ s.clk.window = .latch
    ∧ votingCount s = 3
    ∧ c < 3
    ∧ fcNow s % 2880000 = 960000 * c + 30000 :=
  ⟨{ stIn .calm with clk.fcNumber := 990000, stop.chans := List.replicate 3 { state := .voting } }, 1, by and_intros <;> decide +kernel⟩

theorem test_met_TheStopPathActs_9 : ∃ (s : State),
    running s = true
    ∧ s.clk.window = .latch :=
  ⟨(stIn .calm), by and_intros <;> decide +kernel⟩

theorem test_met_TheStopPathActs_10 : ∃ (s : State) (site : Bool) (robot : Nat),
    running s = true
    ∧ s.clk.window = .safe
    ∧ s.stop.release = some (site, robot) :=
  ⟨{ stIn .calm with clk.window := .safe, stop.release := some (true, 0) }, true, 0, by and_intros <;> decide +kernel⟩

theorem test_met_TheStopPathActs_11 : ∃ (s : State),
    running s = true
    ∧ s.clk.window = .latch
    ∧ fcNow s % 360000 = 0
    ∧ s.cores.swapFc ≠ some (fcNow s)
    ∧ s.cores.standbyReady = true
    ∧ s.cores.lastGood + 1 = fcNow s :=
  ⟨{ stIn .calm with clk.fcNumber := 360000, cores.standbyReady := true, cores.lastGood := 359999 }, by and_intros <;> decide +kernel⟩

theorem test_met_PowerAndResetEventsAct_1 : ∃ (s : State),
    s.mode.cur = .doldrums :=
  ⟨{ stIn .calm with mode.cur := .doldrums }, by decide +kernel⟩

theorem test_met_PowerAndResetEventsAct_2 : ∃ (s : State),
    s.mode.cur ≠ .doldrums :=
  ⟨(stIn .calm), by decide +kernel⟩

theorem test_met_PowerAndResetEventsAct_3 : ∃ (s : State),
    s.mode.cur ≠ .doldrums :=
  ⟨(stIn .calm), by decide +kernel⟩

theorem test_met_PowerAndResetEventsAct_4 : ∃ (s : State),
    s.mode.cur = .doldrums :=
  ⟨{ stIn .calm with mode.cur := .doldrums }, by decide +kernel⟩

theorem test_met_PowerAndResetEventsAct_5 : ∃ (s : State) (k : Nat),
    running s = true
    ∧ s.mode.resetAt = some k
    ∧ (s.clk.window = .guard ∨ k = 2) :=
  ⟨{ stIn .calm with clk.window := .guard, mode.resetAt := some 3 }, 3, by and_intros <;> decide +kernel⟩

theorem test_met_PowerAndResetEventsAct_6 : ∃ (s : State),
    s.mode.resetAt = none :=
  ⟨(stIn .calm), by decide +kernel⟩

theorem test_met_PowerAndResetEventsAct_7 : ∃ (k : Nat),
    k ≠ 2 :=
  ⟨4, by decide +kernel⟩

theorem test_met_PowerAndResetEventsAct_8 : ∃ (s : State),
    s.mode.cur = .still
    ∧ s.upd.dfu = false :=
  ⟨(stIn .still), by and_intros <;> decide +kernel⟩

theorem test_met_PowerAndResetEventsAct_9 : ∃ (s : State),
    s.mode.cur = .still
    ∧ s.upd.dfu = true :=
  ⟨{ stIn .still with upd.dfu := true }, by and_intros <;> decide +kernel⟩

theorem test_met_PowerAndResetEventsAct_10 : ∃ (s : State),
    s.mode.cur ≠ .still :=
  ⟨(stIn .calm), by decide +kernel⟩

theorem test_met_PowerAndResetEventsAct_11 : ∃ (s : State),
    s.mode.cur = .doldrums :=
  ⟨{ stIn .calm with mode.cur := .doldrums }, by decide +kernel⟩

theorem test_met_PowerAndResetEventsAct_12 : ∃ (s : State),
    running s = true
    ∧ 100 * s.supply.cfg.hostLossS ≤ s.mode.noSessionFc :=
  ⟨{ stIn .calm with mode.noSessionFc := 2 ^ 20 }, by and_intros <;> decide +kernel⟩

theorem test_met_PowerAndResetEventsAct_13 : ∃ (s : State),
    running s = true
    ∧ 100 ≤ s.mode.refLossRun :=
  ⟨{ stIn .calm with mode.refLossRun := 100 }, by and_intros <;> decide +kernel⟩

theorem test_met_PowerAndResetEventsAct_14 : ∃ (s : State) (core : Nat) (w : Window),
    running s = true
    ∧ core < 8
    ∧ s.clk.window = w :=
  ⟨(stIn .calm), 7, Window.latch, by and_intros <;> decide +kernel⟩

theorem test_met_PowerAndResetEventsAct_15 : ∃ (s : State) (core : Nat),
    running s = true
    ∧ core < 8
    ∧ (s.cores.reload.any (fun e => e.1 == core && decide (e.2 ≤ fcNow s)) = true) :=
  ⟨{ stIn .calm with cores.reload := [(7, 0)] }, 7, by and_intros <;> decide +kernel⟩

theorem test_met_TimeEventsAct_1 : ∃ (s : State) (pclk : Nat),
    running s = true
    ∧ inFc s pclk = true
    ∧ crosses s pclk ftuPerSec 0 = true
    ∧ ppsApart s (counterAt s pclk) = true :=
  ⟨secondSt, 1, by and_intros <;> decide +kernel⟩

theorem test_met_TimeEventsAct_2 : ∃ (s : State) (pclk : Nat),
    running s = true
    ∧ inFc s pclk = true
    ∧ s.time.zdaDue = true
    ∧ s.time.ppsTime + zdaDelay ≤ timeAt s pclk
    ∧ timeAt s pclk < s.time.ppsTime + zdaDelay + 513 :=
  ⟨{ stIn .calm with clk.fcLen := 1248000, time.zdaDue := true, time.regs.offset := BitVec.ofNat 64 zdaDelay }, 0, by and_intros <;> decide +kernel⟩

theorem test_met_TimeEventsAct_3 : ∃ (s : State) (ftu : Nat) (rising : Bool) (wide : Bool),
    running s = true
    ∧ wide = true
    ∧ ftu < 512 * s.clk.fcLen
    ∧ (rising == (s.time.cfg.ppsEdge == 1)) = true :=
  ⟨{ stIn .calm with clk.fcLen := 1248000, time.cfg.ppsEdge := 1 }, 7, true, true, by and_intros <;> decide +kernel⟩

theorem test_met_TimeEventsAct_4 : ∃ (s : State) (t0 : Nat),
    s.time.pps.lastTime = some t0 :=
  ⟨{ stIn .calm with clk.fcLen := 1248000, time.pps.lastTime := some 5 }, 5, by decide +kernel⟩

theorem test_met_TimeEventsAct_5 : ∃ (s : State) (q : StepReq),
    running s = true
    ∧ s.time.step = some q
    ∧ s.clk.window = .guard :=
  ⟨{ stIn .calm with clk.window := .guard, time.step := some {} }, (({} : StepReq)), by and_intros <;> decide +kernel⟩

theorem test_met_TimeEventsAct_7 : ∃ (s : State) (pclk : Nat),
    running s = true
    ∧ inFc s pclk = true
    ∧ crosses s pclk ftuPerSec 0 = true :=
  ⟨secondSt, 1, by and_intros <;> decide +kernel⟩

theorem test_met_TimeEventsAct_8 : ∃ (s : State) (id : Nat) (pclk : Nat) (g : TimeTrigger),
    running s = true
    ∧ id < 16
    ∧ tget s.time.triggers id = some g
    ∧ inFc s pclk = true
    ∧ firesAt s g pclk = true
    ∧ ((List.range id).all (fun j => (tget s.time.triggers j).all fun x => x.output != g.output) = true) :=
  ⟨trigSt, 15, 7, trigOf, by and_intros <;> decide +kernel⟩

theorem test_met_TimeEventsAct_9 : ∃ (s : State) (io : Nat) (pclk : Nat) (c : Counter),
    running s = true
    ∧ io < 8
    ∧ (auxLive s io).pulseEnd = some c
    ∧ inFc s pclk = true
    ∧ c ≤ counterAt s pclk
    ∧ (pclk = 0 ∨ counterAt s (pclk - 1) < c) :=
  ⟨{ stIn .calm with clk.fcLen := 1248000, ports.io := [(7, { pulseEnd := some 3584 })] }, 7, 7, 3584, by and_intros <;> decide +kernel⟩

theorem test_met_GnssEventsAct_1 : ∃ (s : State),
    running s = true
    ∧ isEpochFc s = true
    ∧ s.gnss.captured.isNone = true :=
  ⟨{ stIn .calm with gnss.hzInForce := 10 }, by and_intros <;> decide +kernel⟩

theorem test_met_GnssEventsAct_2 : ∃ (s : State) (c : Nat) (pclk : Nat) (x : Channel),
    c < 320
    ∧ inFc s pclk = true
    ∧ tget s.gnss.chans c = some x
    ∧ x.searching = true :=
  ⟨{ stIn .calm with gnss.chans := [(3, { searching := true })] }, 3, 7, (({ searching := true } : Channel)), by and_intros <;> decide +kernel⟩

theorem test_met_GnssEventsAct_3 : ∃ (s : State) (c : Nat) (x : Channel) (pclk : Nat),
    c < 320
    ∧ inFc s pclk = true
    ∧ tget s.gnss.chans c = some x :=
  ⟨{ stIn .calm with gnss.chans := [(3, {  })] }, 3, (({  } : Channel)), 7, by and_intros <;> decide +kernel⟩

theorem test_met_GnssEventsAct_4 : ∃ (s : State) (c : Nat) (x : Channel) (pclk : Nat),
    c < 320
    ∧ inFc s pclk = true
    ∧ tget s.gnss.chans c = some x :=
  ⟨{ stIn .calm with gnss.chans := [(3, {  })] }, 3, (({  } : Channel)), 7, by and_intros <;> decide +kernel⟩

theorem test_met_GnssEventsAct_5 : ∃ (s : State) (c : Nat) (x : Channel),
    c < 320
    ∧ tget s.gnss.chans c = some x :=
  ⟨{ stIn .calm with gnss.chans := [(3, {  })] }, 3, (({  } : Channel)), by and_intros <;> decide +kernel⟩

theorem test_met_GnssEventsAct_6 : ∃ (s : State) (c : Nat) (x : Channel) (pclk : Nat),
    c < 320
    ∧ inFc s pclk = true
    ∧ tget s.gnss.chans c = some x :=
  ⟨{ stIn .calm with gnss.chans := [(3, {  })] }, 3, (({  } : Channel)), 7, by and_intros <;> decide +kernel⟩

theorem test_met_GnssEventsAct_7 : ∃ (s : State) (a : Nat),
    a < 2
    ∧ (tgetD s.gnss.ants a {}).state = 4
    ∧ (tgetD s.gnss.ants a {}).biasOffFc = 1 :=
  ⟨{ stIn .calm with gnss.ants := [(1, { state := 4, biasOffFc := 1 })] }, 1, by and_intros <;> decide +kernel⟩

theorem test_met_GnssEventsAct_8 : ∃ (s : State) (c : GnssCal),
    s.gnss.cal = some c
    ∧ c.endFc ≤ fcNow s
    ∧ c.kind = 1
    ∧ csnHolds s c.req [siteObj] = true :=
  ⟨{ stIn .calm with gnss.cal := some { kind := 1, antenna := 0, endFc := 0, req := rq 0x0305 [] } }, { kind := 1, antenna := 0, endFc := 0, req := rq 0x0305 [] }, by and_intros <;> decide +kernel⟩

theorem test_met_GnssEventsAct_9 : ∃ (s : State) (c : GnssCal),
    s.gnss.cal = some c
    ∧ c.endFc ≤ fcNow s
    ∧ c.kind = 3
    ∧ csnHolds s c.req [siteObj] = true :=
  ⟨{ stIn .calm with gnss.cal := some { kind := 3, antenna := 0, endFc := 0, req := rq 0x0305 [] } }, { kind := 3, antenna := 0, endFc := 0, req := rq 0x0305 [] }, by and_intros <;> decide +kernel⟩

theorem test_met_GnssEventsAct_10 : ∃ (s : State) (c : BuoyCal),
    s.buoy.cal = some c
    ∧ c.endFc ≤ fcNow s
    ∧ (links.filterMap (groupHead c)).isEmpty = true :=
  ⟨{ stIn .calm with buoy.cal := some { endFc := 0, req := rq 0x0510 [] } }, { endFc := 0, req := rq 0x0510 [] }, by and_intros <;> decide +kernel⟩

theorem test_met_GnssEventsAct_11 : ∃ (s : State) (c : BuoyCal),
    s.buoy.cal = some c
    ∧ c.endFc ≤ fcNow s
    ∧ (links.filterMap (groupHead c)).isEmpty = false
    ∧ csnHolds s c.req (maskObjs 0x3FF) = true :=
  ⟨{ stIn .calm with buoy.cal := some calRun }, calRun, by and_intros <;> decide +kernel⟩

theorem test_met_BuoyEventsAct_1 : ∃ (s : State) (f : BuoyFrame),
    running s = true
    ∧ f.link < 10
    ∧ (anchorAt s f.link).phy = true
    ∧ frameOk s f = false :=
  ⟨anchorSt, { etherType := 0 }, by and_intros <;> decide +kernel⟩

theorem test_met_BuoyEventsAct_2 : ∃ (s : State) (f : BuoyFrame),
    running s = true
    ∧ f.link < 10
    ∧ (anchorAt s f.link).phy = true
    ∧ frameOk s f = true
    ∧ micOk s f = false :=
  ⟨anchorSt, frameBad, by and_intros <;> first | decide +kernel | exact frameOk_of (by decide +kernel) rfl (by decide +kernel) (by decide +kernel)⟩

theorem test_met_BuoyEventsAct_3 : ∃ (s : State) (f : BuoyFrame),
    running s = true
    ∧ f.link < 10
    ∧ (anchorAt s f.link).phy = true
    ∧ frameOk s f = true
    ∧ micOk s f = true
    ∧ bCtr f ≤ lastCtr s f :=
  ⟨anchorSt, (frameUp 0x82 0 (zb 16)), by and_intros <;> first | decide +kernel | exact frameOk_of (by decide +kernel) rfl (by decide +kernel) (by decide +kernel)⟩

theorem test_met_BuoyEventsAct_4 : ∃ (s : State) (u : State) (f : BuoyFrame),
    running s = true
    ∧ f.link < 10
    ∧ (anchorAt s f.link).phy = true
    ∧ frameOk s f = true
    ∧ micOk s f = true
    ∧ lastCtr s f < bCtr f
    ∧ (admitFrame (if isHello f then s else modAnchor s f.link fun a => { a with upCtr := bCtr f }) (0x20 + f.link) false = (true, u)) :=
  ⟨anchorSt, ((admitFrame (modAnchor anchorSt 0 fun a => { a with upCtr := 1 }) 0x20 false).2), (frameUp 0x82 1 (zb 16)), by and_intros <;> first | decide +kernel | exact frameOk_of (by decide +kernel) rfl (by decide +kernel) (by decide +kernel)⟩

theorem test_met_BuoyEventsAct_5 : ∃ (s : State) (f : BuoyFrame) (t1 : Counter),
    bType f = 0x82
    ∧ 16 ≤ bLen f
    ∧ syncLaunch s f.link = some t1
    ∧ ((anchorAt s f.link).state = .syncing ∨ (anchorAt s f.link).state = .inSync) :=
  ⟨{ anchorSt with time.completions := [(7, [0])] }, (frameUp 0x82 1 (zb 16)), 0, by and_intros <;> decide +kernel⟩

theorem test_met_BuoyEventsAct_6 : ∃ (f : BuoyFrame),
    isHello f = true
    ∧ 24 ≤ bLen f :=
  ⟨(frameUp 0x81 1 (zb 24)), by and_intros <;> decide +kernel⟩

theorem test_met_BuoyEventsAct_7 : ∃ (s : State) (f : BuoyFrame),
    isReport f = true
    ∧ 4 + 20 * min 20 (fld (bPayload f) 0 1) ≤ bLen f
    ∧ (fcOfLow s (bFcLow f) = none ∨ ∃ fc, fcOfLow s (bFcLow f) = some fc ∧ reportLate fc (bPeriod f) (fcNow s - 1) f.pclk = true) :=
  ⟨{ anchorSt with time.regs.fc := 9 }, (frameUp 0x83 1 (zb 4)), by and_intros <;> decide +kernel⟩

theorem test_met_BuoyEventsAct_8 : ∃ (s : State) (f : BuoyFrame) (fc : Nat),
    isReport f = true
    ∧ 4 + 20 * min 20 (fld (bPayload f) 0 1) ≤ bLen f
    ∧ fcOfLow s (bFcLow f) = some fc
    ∧ reportLate fc (bPeriod f) (fcNow s - 1) f.pclk = false :=
  ⟨anchorSt, (frameUp 0x83 1 (zb 4)), 0, by and_intros <;> decide +kernel⟩

theorem test_met_BuoyEventsAct_9 : ∃ (s : State) (f : BuoyFrame) (v : Relay),
    bType f = 0x84
    ∧ 12 ≤ bLen f
    ∧ (anchorAt s f.link).relay = some v
    ∧ v.imageId = fld (bPayload f) 0 4
    ∧ (fld (bPayload f) 8 1 ≠ 2 ∧ fld (bPayload f) 8 1 ≠ 3) :=
  ⟨{ anchorSt with buoy.anchors := [(0, { anchorUp with relay := some {  } })] }, (frameUp 0x84 1 (zb 12)), (({  } : Relay)), by and_intros <;> decide +kernel⟩

theorem test_met_BuoyEventsAct_10 : ∃ (s : State),
    running s = true
    ∧ lnkAway s = false :=
  ⟨(stIn .calm), by and_intros <;> decide +kernel⟩

theorem test_met_BuoyEventsAct_11 : ∃ (s : State) (l : Nat),
    scheduled (anchorAt s l) = true
    ∧ s.clk.window = .latch :=
  ⟨anchorSt, 0, by and_intros <;> decide +kernel⟩

theorem test_met_BuoyEventsAct_12 : ∃ (s : State) (fc : Nat) (period : Nat),
    running s = true
    ∧ period ≤ 9
    ∧ fc ≤ fcNow s
    ∧ (fcNow s == fc && period == 9) = false :=
  ⟨{ stIn .calm with clk.fcNumber := 5 }, 5, 8, by and_intros <;> decide +kernel⟩

theorem test_met_BuoyEventsAct_13 : ∃ (s : State) (l : Nat) (v : Relay),
    running s = true
    ∧ l < 10
    ∧ (anchorAt s l).relay = some v
    ∧ v.ackFc + 10 ≤ fcNow s :=
  ⟨{ stIn .calm with clk.fcNumber := 10, buoy.anchors := [(9, { relay := some {  } })] }, 9, (({  } : Relay)), by and_intros <;> decide +kernel⟩

theorem test_met_BuoyEventsAct_14 : ∃ (s : State) (l : Nat) (up : Bool),
    running s = true
    ∧ l < 10
    ∧ (anchorAt s l).phy = !up :=
  ⟨(stIn .calm), 9, true, by and_intros <;> decide +kernel⟩

theorem test_met_BuoyEventsAct_16 : ∃ (s : State) (l : Nat),
    running s = true
    ∧ l < 10
    ∧ (anchorAt s l).podlOn = false
    ∧ (anchorAt s l).state ≠ .fault :=
  ⟨(stIn .calm), 9, by and_intros <;> decide +kernel⟩

theorem test_met_BuoyEventsAct_17 : ∃ (s : State) (l : Nat),
    running s = true
    ∧ l < 10
    ∧ (anchorAt s l).podlOn = true :=
  ⟨{ stIn .calm with buoy.anchors := [(9, { podlOn := true })] }, 9, by and_intros <;> decide +kernel⟩

theorem test_met_BuoyEventsAct_18 : ∃ (s : State) (l : Nat),
    running s = true
    ∧ l < 10
    ∧ (anchorAt s l).shed = true
    ∧ 1000 ≤ (anchorAt s l).marginFc :=
  ⟨{ stIn .calm with buoy.anchors := [(9, { shed := true, marginFc := 1000 })] }, 9, by and_intros <;> decide +kernel⟩

theorem test_met_BuoyEventsAct_19 : ∃ (s : State) (l : Nat) (fc : Nat),
    running s = true
    ∧ l < 10
    ∧ (anchorAt s l).faultFc = some fc
    ∧ (anchorAt s l).state = .fault
    ∧ fc + 1000 ≤ fcNow s :=
  ⟨{ stIn .calm with clk.fcNumber := 1000, buoy.anchors := [(9, { state := .fault, faultFc := some 0 })] }, 9, 0, by and_intros <;> decide +kernel⟩

theorem test_met_RobotEventsAct_1 : ∃ (s : State) (m : AirMsg) (u : State),
    running s = true
    ∧ s.clk.window = .command
    ∧ takeMsg s 0x10 = some (m, u) :=
  ⟨{ stIn .breeze with clk.window := .command, radio.msgs := [msgOf 0x10] }, (msgOf 0x10), { stIn .breeze with clk.window := .command }, by and_intros <;> decide +kernel⟩

theorem test_met_RobotEventsAct_2 : ∃ (s : State) (m : AirMsg) (u : State),
    running s = true
    ∧ s.clk.window = .command
    ∧ takeMsg s 0x12 = some (m, u) :=
  ⟨{ stIn .breeze with clk.window := .command, radio.msgs := [msgOf 0x12] }, (msgOf 0x12), { stIn .breeze with clk.window := .command }, by and_intros <;> decide +kernel⟩

theorem test_met_RobotEventsAct_3 : ∃ (s : State) (m : AirMsg) (u : State),
    running s = true
    ∧ s.clk.window = .latch
    ∧ takeMsg s 0x20 = some (m, u) :=
  ⟨{ stIn .breeze with clk.window := .latch, radio.msgs := [msgOf 0x20] }, (msgOf 0x20), { stIn .breeze with clk.window := .latch }, by and_intros <;> decide +kernel⟩

theorem test_met_RobotEventsAct_4 : ∃ (s : State) (m : AirMsg) (u : State),
    running s = true
    ∧ s.clk.window = .safe
    ∧ takeMsg s 0x28 = some (m, u) :=
  ⟨{ stIn .breeze with clk.window := .safe, radio.msgs := [msgOf 0x28] }, (msgOf 0x28), { stIn .breeze with clk.window := .safe }, by and_intros <;> decide +kernel⟩

theorem test_met_RobotEventsAct_5 : ∃ (s : State) (m : AirMsg) (u : State),
    running s = true
    ∧ s.clk.window = .solve
    ∧ takeMsg s 0x21 = some (m, u) :=
  ⟨{ stIn .breeze with clk.window := .solve, radio.msgs := [msgOf 0x21] }, (msgOf 0x21), { stIn .breeze with clk.window := .solve }, by and_intros <;> decide +kernel⟩

theorem test_met_RobotEventsAct_6 : ∃ (s : State),
    running s = true
    ∧ s.clk.window = .command :=
  ⟨{ stIn .breeze with clk.window := .command }, by and_intros <;> decide +kernel⟩

theorem test_met_RobotEventsAct_7 : ∃ (s : State),
    running s = true
    ∧ s.clk.window = .latch :=
  ⟨{ stIn .breeze with clk.window := .latch }, by and_intros <;> decide +kernel⟩

theorem test_met_RobotEventsAct_8 : ∃ (s : State),
    running s = true
    ∧ s.clk.window = .latch :=
  ⟨{ stIn .breeze with clk.window := .latch }, by and_intros <;> decide +kernel⟩

theorem test_met_RobotEventsAct_9 : ∃ (s : State),
    running s = true
    ∧ s.clk.window = .latch :=
  ⟨{ stIn .breeze with clk.window := .latch }, by and_intros <;> decide +kernel⟩

theorem test_met_RadioEventsAct_1 : ∃ (s : State) (f : AirIn),
    running s = true
    ∧ (f.radio < 2 ∧ f.slot < 4)
    ∧ hears s f = true :=
  ⟨{ stIn .breeze with clk.fcNumber := 5 }, airFrame, by and_intros <;> decide +kernel⟩

theorem test_met_RadioEventsAct_2 : ∃ (s : State) (p : Bytes),
    (fld p 0 2 ≠ 0xA941 ∨ fld p 2 2 ≠ panId s ∨ fld p 4 2 ≠ 0 ∨ fld p 8 1 ≠ 4 ∨ fld p 9 1 ≠ 1) :=
  ⟨(stIn .calm), (([] : Bytes)), by decide +kernel⟩

theorem test_met_RadioEventsAct_3 : ∃ (s : State) (k : Nat),
    k < 4
    ∧ slotNowOk s k = true
    ∧ stopInSlot s k = false
    ∧ s.cores.txSkipped = false
    ∧ (foghornFc { s with p.radio.cfg.foghornFc := s.radio.foghornNow } (fcNow s) && decide (k = 2) && decide (asnOf s k % 40 = 30)) = false :=
  ⟨radioSt, 1, by and_intros <;> decide +kernel⟩

theorem test_met_RadioEventsAct_4 : ∃ (s : State),
    slotNowOk s 0 = true :=
  ⟨radioSt0, by decide +kernel⟩

theorem test_met_RadioEventsAct_5 : ∃ (s : State) (k : Nat),
    k < 4
    ∧ slotNowOk s k = true
    ∧ stopInSlot s k = true
    ∧ s.radio.beaconAsn ≠ some (asnOf s k) :=
  ⟨{ radioSt with stop.stopUntil := 2 ^ 40 }, 1, by and_intros <;> decide +kernel⟩

theorem test_met_RadioEventsAct_6 : ∃ (s : State) (c : RadioConfig) (e : Nat),
    running s = true
    ∧ s.clk.window = .latch
    ∧ s.p.radio.pendingCfg = some (c, e)
    ∧ e ≤ fcNow s :=
  ⟨{ stIn .calm with p.radio.pendingCfg := some ({}, 0) }, (({} : RadioConfig)), 0, by and_intros <;> decide +kernel⟩

theorem test_met_RadioEventsAct_7 : ∃ (s : State),
    running s = true
    ∧ s.clk.window = .latch :=
  ⟨(stIn .calm), by and_intros <;> decide +kernel⟩

theorem test_met_AllotmentEventsAct_1 : ∃ (s : State),
    s.clk.window = .plan
    ∧ fcNow s % 10 = 0
    ∧ isGo (fleetMode s) = true
    ∧ s.strt.grid.cellMm ≠ 0
    ∧ s.allot.round ≠ some (fcNow s / 10) :=
  ⟨{ gridSt with mode.cur := .breeze, clk.window := .plan }, by and_intros <;> decide +kernel⟩

theorem test_met_AllotmentEventsAct_2 : ∃ (s : State) (age : Nat) (u : Nat) (i : Nat),
    s.clk.window = .plan
    ∧ isGo (fleetMode s) = true
    ∧ roundAge s = some age
    ∧ age ≤ 8
    ∧ (((List.range 4).find? fun u => !(busyUnits s).contains u) = some u)
    ∧ ((s.allot.reqs.findIdx? fun q => q.stage == .queued && decide (q.fromFc ≤ fcNow s)) = some i) :=
  ⟨{ { gridSt with mode.cur := .breeze, clk.window := .plan, allot.round := some 0 } with allot.reqs := [{ stage := .queued }] }, 0, 0, 0, by and_intros <;> decide +kernel⟩

theorem test_met_AllotmentEventsAct_3 : ∃ (s : State) (unit : Nat) (age : Nat) (i : Nat),
    unit < 4
    ∧ roundAge s = some age
    ∧ ((s.allot.reqs.findIdx? fun q => q.stage == .searching && q.unit == unit) = some i)
    ∧ (8 < age ∨ (age = 8 ∧ s.clk.window ≠ .plan)) :=
  ⟨{ { gridSt with mode.cur := .breeze, clk.window := .plan, allot.round := some 0 } with clk.fcNumber := 9, allot.reqs := [{ stage := .searching, unit := 3 }] }, 3, 9, 0, by and_intros <;> decide +kernel⟩

theorem test_met_AllotmentEventsAct_4 : ∃ (s : State) (unit : Nat) (age : Nat) (i : Nat) (x : Nat) (y : Nat) (h : Nat),
    unit < 4
    ∧ roundAge s = some age
    ∧ ((s.allot.reqs.findIdx? fun q => q.stage == .searching && q.unit == unit) = some i)
    ∧ age ≤ 8
    ∧ s.clk.window = .plan
    ∧ (s.allot.reqs.getD i {}).origin = some (x, y, h) :=
  ⟨{ { gridSt with mode.cur := .breeze, clk.window := .plan, allot.round := some 0 } with allot.reqs := [{ stage := .searching, unit := 3, origin := some (0, 0, 0) }] }, 3, 0, 0, 0, 0, 0, by and_intros <;> decide +kernel⟩

theorem test_met_AllotmentEventsAct_5 : ∃ (s : State) (age : Nat),
    roundAge s = some age
    ∧ s.clk.window = .plan
    ∧ isGo (fleetMode s) = true
    ∧ (2 ≤ age ∧ age ≤ 9)
    ∧ s.allot.reserveFc ≠ some (fcNow s) :=
  ⟨{ { gridSt with mode.cur := .breeze, clk.window := .plan, allot.round := some 0 } with clk.fcNumber := 2 }, 2, by and_intros <;> decide +kernel⟩

theorem test_met_AllotmentEventsAct_6 : ∃ (s : State) (r : Nat),
    s.allot.round = some r
    ∧ s.clk.window = .plan
    ∧ fcNow s = 10 * r + 9
    ∧ isGo (fleetMode s) = true :=
  ⟨{ { gridSt with mode.cur := .breeze, clk.window := .plan, allot.round := some 0 } with clk.fcNumber := 9 }, 0, by and_intros <;> decide +kernel⟩

theorem test_met_AllotmentEventsAct_7 : ∃ (s : State) (cell : Nat) (slot : Nat) (kind : Nat) (who : Nat),
    (who < 5 ∧ kind < 5 ∧ cell < 2 ^ 24)
    ∧ (s.strt.relocating ≠ some (keyInput cell (if isStanding kind then 0 else slot % 1024) kind).toNat) :=
  ⟨(stIn .calm), 7, 1, 0, 4, by and_intros <;> decide +kernel⟩

theorem test_met_AllotmentEventsAct_8 : ∃ (s : State),
    running s = true
    ∧ s.clk.window = .latch
    ∧ fcNow s % 5 = 0
    ∧ s.strt.sweptSlot ≠ some (slotNow s) :=
  ⟨(stIn .calm), by and_intros <;> decide +kernel⟩

theorem test_met_AllotmentEventsAct_9 : ∃ (s : State),
    running s = true
    ∧ s.clk.window = .plan :=
  ⟨{ stIn .breeze with clk.window := .plan }, by and_intros <;> decide +kernel⟩

theorem test_met_AllotmentEventsAct_10 : ∃ (s : State),
    running s = true
    ∧ s.clk.window = .plan :=
  ⟨{ stIn .breeze with clk.window := .plan }, by and_intros <;> decide +kernel⟩

theorem test_met_AllotmentEventsAct_11 : ∃ (s : State),
    mramFog s = false :=
  ⟨(stIn .calm), by decide +kernel⟩

theorem test_met_UpdateAndSelfTestEventsAct_1 : ∃ (s : State) (r : Request) (d : Nat) (e : Nat) (st : Nat),
    running s = true
    ∧ s.upd.finish = some (d, e, r)
    ∧ s.upd.verified = some st
    ∧ e ≤ fcNow s :=
  ⟨{ stIn .calm with upd.finish := some (0, 0, rq 0x0D04 []), upd.verified := some 0 }, (rq 0x0D04 []), 0, 0, 0, by and_intros <;> decide +kernel⟩

theorem test_met_UpdateAndSelfTestEventsAct_2 : ∃ (s : State) (v : Activation),
    running s = true
    ∧ s.upd.act = some v
    ∧ s.upd.state = 4
    ∧ fcNow s + 100 = v.a :=
  ⟨{ stIn .calm with upd.state := 4, upd.act := some { a := 100, n := 0, restart := true, req := rq 0x0D06 [] } }, (({ a := 100, n := 0, restart := true, req := rq 0x0D06 [] } : Activation)), by and_intros <;> decide +kernel⟩

theorem test_met_UpdateAndSelfTestEventsAct_3 : ∃ (s : State) (v : Activation),
    running s = true
    ∧ s.upd.act = some v
    ∧ s.upd.state = 4
    ∧ v.a ≤ fcNow s + 1
    ∧ v.passed = false
    ∧ s.clk.window = .solve :=
  ⟨{ stIn .calm with clk.window := .solve, upd.state := 4, upd.act := some { a := 1, n := 0, restart := true, req := rq 0x0D06 [] } }, (({ a := 1, n := 0, restart := true, req := rq 0x0D06 [] } : Activation)), by and_intros <;> decide +kernel⟩

theorem test_met_UpdateAndSelfTestEventsAct_4 : ∃ (s : State) (v : Activation),
    running s = true
    ∧ s.upd.act = some v
    ∧ s.upd.state = 4
    ∧ v.passed = true
    ∧ fcNow s = v.a :=
  ⟨{ stIn .calm with upd.state := 4, upd.act := some { a := 0, n := 0, restart := false, req := rq 0x0D06 [], passed := true } }, (({ a := 0, n := 0, restart := false, req := rq 0x0D06 [], passed := true } : Activation)), by and_intros <;> decide +kernel⟩

theorem test_met_UpdateAndSelfTestEventsAct_5 : ∃ (s : State) (v : Activation),
    running s = true
    ∧ s.upd.act = some v
    ∧ s.upd.state = 5
    ∧ v.c.isNone = true
    ∧ (v.a + 9 ≤ fcNow s ∧ fcNow s ≤ v.a + 14)
    ∧ s.clk.window = .guard :=
  ⟨{ stIn .calm with clk.window := .guard, clk.fcNumber := 9, upd.state := 5, upd.act := some { a := 0, n := 0, restart := false, req := rq 0x0D06 [] } }, (({ a := 0, n := 0, restart := false, req := rq 0x0D06 [] } : Activation)), by and_intros <;> decide +kernel⟩

theorem test_met_UpdateAndSelfTestEventsAct_6 : ∃ (s : State) (v : Activation) (c : Nat),
    running s = true
    ∧ s.upd.act = some v
    ∧ v.c = some c
    ∧ s.upd.state = 5
    ∧ c + 11 ≤ fcNow s :=
  ⟨{ stIn .calm with clk.fcNumber := 11, upd.state := 5, upd.act := some { a := 0, n := 0, restart := false, req := rq 0x0D06 [], c := some 0 } }, (({ a := 0, n := 0, restart := false, req := rq 0x0D06 [], c := some 0 } : Activation)), 0, by and_intros <;> decide +kernel⟩

theorem test_met_UpdateAndSelfTestEventsAct_7 : ∃ (s : State) (v : Activation),
    running s = true
    ∧ s.upd.act = some v
    ∧ s.upd.state = 6
    ∧ s.clk.window = .latch
    ∧ s.upd.safTurn = none :=
  ⟨{ stIn .calm with upd.state := 6, upd.act := some { a := 0, n := 0, restart := false, req := rq 0x0D06 [] } }, (({ a := 0, n := 0, restart := false, req := rq 0x0D06 [] } : Activation)), by and_intros <;> decide +kernel⟩

theorem test_met_UpdateAndSelfTestEventsAct_8 : ∃ (s : State) (v : Activation) (c : Nat) (k : Nat),
    running s = true
    ∧ s.upd.act = some v
    ∧ s.upd.state = 6
    ∧ s.clk.window = .latch
    ∧ s.upd.safTurn = some (c, k)
    ∧ (chanAt s c).state = .updating
    ∧ k + 14 ≤ fcNow s :=
  ⟨{ stIn .calm with clk.fcNumber := 14, upd.safTurn := some (0, 0), stop.chans := [{ state := .updating }, {}, {}], upd.state := 6, upd.act := some { a := 0, n := 0, restart := false, req := rq 0x0D06 [] } }, (({ a := 0, n := 0, restart := false, req := rq 0x0D06 [] } : Activation)), 0, 0, by and_intros <;> decide +kernel⟩

theorem test_met_UpdateAndSelfTestEventsAct_9 : ∃ (s : State) (v : Activation) (failed : Bool),
    running s = true
    ∧ s.upd.act = some v
    ∧ abandons s v failed = true :=
  ⟨{ stIn .calm with upd.state := 5, upd.act := some { a := 0, n := 0, restart := false, req := rq 0x0D06 [] } }, (({ a := 0, n := 0, restart := false, req := rq 0x0D06 [] } : Activation)), true, by and_intros <;> decide +kernel⟩

theorem test_met_UpdateAndSelfTestEventsAct_10 : ∃ (s : State) (p : Bytes),
    s.mode.cur = .still
    ∧ s.upd.dfu = true
    ∧ 89 ≤ p.length
    ∧ p.length - 88 ≤ 67100672 :=
  ⟨{ stIn .still with upd.dfu := true }, (zb 89), by and_intros <;> decide +kernel⟩

theorem test_met_UpdateAndSelfTestEventsAct_11 : ∃ (s : State) (target : Nat) (q : TestRun),
    running s = true
    ∧ ((s.cores.tests.find? fun t => t.target == target) = some q)
    ∧ q.endFc ≤ fcNow s
    ∧ (target = 0x11 ∨ target = 0x12) :=
  ⟨{ stIn .calm with cores.tests := [testOf 0x12] }, 0x12, (testOf 0x12), by and_intros <;> decide +kernel⟩

theorem test_met_UpdateAndSelfTestEventsAct_12 : ∃ (s : State) (target : Nat) (q : TestRun),
    running s = true
    ∧ ((s.cores.tests.find? fun t => t.target == target) = some q)
    ∧ q.endFc ≤ fcNow s
    ∧ target ≤ 3 :=
  ⟨{ stIn .calm with cores.tests := [testOf 1] }, 1, (testOf 1), by and_intros <;> decide +kernel⟩

theorem test_met_PortAndTamperEventsAct_1 : ∃ (s : State) (port : Port) (up : Bool) (speed : Nat),
    ((tgetD s.ports.hosts (portCode port) {}).link == up && (tgetD s.ports.hosts (portCode port) {}).speed == speed) = false :=
  ⟨(stIn .calm), Port.l23, true, 7, by decide +kernel⟩

theorem test_met_PortAndTamperEventsAct_2 : ∃ (s : State) (port : Port) (u : State),
    portFrame s port = (true, u) :=
  ⟨(stIn .calm), Port.l23, ((portFrame (stIn .calm) .l23).2), by decide +kernel⟩

theorem test_met_PortAndTamperEventsAct_3 : ∃ (s : State) (io : Nat) (pclk : Nat) (level : Bool),
    io < 8
    ∧ inFc s pclk = true
    ∧ isOutput s io = false
    ∧ (auxLive s io).level = !level
    ∧ (level && !s.ports.vio) = false :=
  ⟨{ stIn .calm with ports.vio := true }, 7, 7, true, by and_intros <;> decide +kernel⟩

theorem test_met_PortAndTamperEventsAct_4 : ∃ (s : State) (io : Nat) (pclk : Nat),
    io < 8
    ∧ inFc s pclk = true
    ∧ outOn s io = true :=
  ⟨{ stIn .calm with ports.vio := true, ports.auxNow := [(7, { dir := 2 })], ports.io := [(7, { out := true })] }, 7, 7, by and_intros <;> decide +kernel⟩

theorem test_met_PortAndTamperEventsAct_5 : ∃ (s : State) (active : Bool) (pclk : Nat),
    inFc s pclk = true
    ∧ s.ports.svcEn = !active :=
  ⟨(stIn .calm), (!((stIn .calm).ports.svcEn)), 7, by and_intros <;> decide +kernel⟩

theorem test_met_PortAndTamperEventsAct_6 : ∃ (s : State) (present : Bool) (pclk : Nat),
    inFc s pclk = true
    ∧ s.ports.vio = !present :=
  ⟨(stIn .calm), (!((stIn .calm).ports.vio)), 7, by and_intros <;> decide +kernel⟩

theorem test_met_PortAndTamperEventsAct_7 : ∃ (i : Nat),
    i < 4 :=
  ⟨3, by decide +kernel⟩

theorem test_met_PortAndTamperEventsAct_8 : ∃ (s : State),
    s.bk.maintFc = 1 :=
  ⟨{ stIn .calm with bk.maintFc := 1 }, by decide +kernel⟩

theorem test_met_PortAndTamperEventsAct_9 : ∃ (s : State),
    s.bk.maintFc ≠ 1 :=
  ⟨{ stIn .calm with bk.maintFc := 2 }, by decide +kernel⟩

theorem test_met_PortAndTamperEventsAct_10 : ∃ (s : State) (what : Nat) (e : Nat),
    running s = true
    ∧ s.p.keys.roll = some (what, e)
    ∧ e ≤ fcNow s :=
  ⟨{ stIn .calm with p.keys.roll := some (3, 0) }, 3, 0, by and_intros <;> decide +kernel⟩

theorem test_met_CanEventsAct_1 : ∃ (s : State) (ch : Nat) (f : CanIn) (k : Nat) (u : State),
    running s = true
    ∧ ch < 2
    ∧ canOn (canAt s ch) = true
    ∧ canFrameOk f.ide f.fdf f.id f.data.length = true
    ∧ recAfter s (canAt s ch).recCtr = (k, u)
    ∧ f.remote = true :=
  ⟨{ stIn .calm with can := [{}, { state := .errorActive }] }, 1, { canIn0 with remote := true }, 0, { stIn .calm with can := [{}, { state := .errorActive }] }, by and_intros <;> decide +kernel⟩

theorem test_met_CanEventsAct_2 : ∃ (s : State) (ch : Nat) (f : CanIn) (k : Nat) (u : State) (v : State),
    running s = true
    ∧ ch < 2
    ∧ canOn (canAt s ch) = true
    ∧ canFrameOk f.ide f.fdf f.id f.data.length = true
    ∧ recAfter s (canAt s ch).recCtr = (k, u)
    ∧ f.remote = false
    ∧ (admitFrame (modCan u ch fun c => byCounters { c with recCtr := k }) (0x30 + 2 * ch) false = (true, v)) :=
  ⟨{ stIn .calm with can := [{}, { state := .errorActive }] }, 1, canIn0, 0, { stIn .calm with can := [{}, { state := .errorActive }] }, ((admitFrame (modCan ({ stIn .calm with can := [{}, { state := .errorActive }] }) 1 fun c => byCounters { c with recCtr := 0 }) 0x32 false).2), by and_intros <;> decide +kernel⟩

theorem test_met_CanEventsAct_3 : ∃ (s : State) (ch : Nat) (outcome : Nat) (x : CanTx) (fc : Nat),
    running s = true
    ∧ ch < 2
    ∧ (canAt s ch).stopBuf = some x
    ∧ x.releasedFc = some fc
    ∧ outcome = 1
    ∧ canOn (canAt s ch) = true :=
  ⟨{ stIn .calm with can := [{}, { state := .errorActive, stopBuf := some stopTx }] }, 1, 1, stopTx, 0, by and_intros <;> decide +kernel⟩

theorem test_met_CanEventsAct_4 : ∃ (s : State) (ch : Nat) (outcome : Nat) (x : CanTx) (rest : List CanTx) (fc : Nat),
    running s = true
    ∧ ch < 2
    ∧ (canAt s ch).txq = x :: rest
    ∧ x.releasedFc = some fc
    ∧ ((outcome = 1 ∧ canOn (canAt s ch) = true) ∨ ((outcome = 2 ∨ outcome = 3) ∧ canOn (canAt s ch) = true ∧ x.oneShot = true) ∨ (outcome = 5 ∧ fc + (canAt s ch).cfg.ttl ≤ fcNow s)) :=
  ⟨{ stIn .calm with can := [{}, { state := .errorActive, txq := [stopTx] }] }, 1, 1, stopTx, (([] : List CanTx)), 0, by and_intros <;> decide +kernel⟩

theorem test_met_CanEventsAct_5 : ∃ (s : State) (ch : Nat),
    running s = true
    ∧ ch < 2
    ∧ canOn (canAt s ch) = true :=
  ⟨{ stIn .calm with can := [{}, { state := .errorActive }] }, 1, by and_intros <;> decide +kernel⟩

theorem test_met_CanEventsAct_6 : ∃ (s : State) (ch : Nat),
    running s = true
    ∧ ch < 2
    ∧ canOn (canAt s ch) = true
    ∧ 248 ≤ (canAt s ch).tecCtr :=
  ⟨{ stIn .calm with can := [{}, { state := .errorActive, tecCtr := 248 }] }, 1, by and_intros <;> decide +kernel⟩

theorem test_met_CanEventsAct_7 : ∃ (s : State) (ch : Nat),
    running s = true
    ∧ ch < 2
    ∧ (canAt s ch).state = .busOff :=
  ⟨{ stIn .calm with can := [{}, { state := .busOff }] }, 1, by and_intros <;> decide +kernel⟩

theorem test_met_CanEventsAct_8 : ∃ (s : State) (ch : Nat) (w : CanWakeIn),
    running s = true
    ∧ ch < 2
    ∧ (canAt s ch).state = .asleep
    ∧ ((if (canAt s ch).cfg.wakeMode = 1 then decide (5 ≤ w.dominantUs) else
          match w.frame with
          | none => false
          | some (id, data) => Nat.land (Nat.xor id (canAt s ch).cfg.wakeId) (canAt s ch).cfg.wakeIdMask == 0 && data.length == (canAt s ch).cfg.wakeLen
              && (data.zip (canAt s ch).cfg.wakeData).any fun e => (e.1 &&& e.2) != 0) = true) :=
  ⟨{ stIn .calm with can := [{}, { state := .asleep, cfg := { wakeMode := 1 } }] }, 1, { dominantUs := 5, frame := none }, by and_intros <;> decide +kernel⟩

theorem test_met_QueuesAndMemoryFaultsAct_1 : ∃ (q : Nat) (k : QParam),
    qParam q = some k :=
  ⟨0x40, ((qParam 0x40).get rfl), by decide +kernel⟩

theorem test_met_QueuesAndMemoryFaultsAct_2 : ∃ (s : State) (q : Nat) (k : QParam),
    qParam q = some k
    ∧ mismatch (queueAt s q k) = true :=
  ⟨{ stIn .calm with queues := [(0x40, { rptr := 1 })] }, 0x40, ((qParam 0x40).get rfl), by and_intros <;> decide +kernel⟩

theorem test_met_QueuesAndMemoryFaultsAct_3 : ∃ (s : State) (q : Nat) (k : QParam),
    qParam q = some k
    ∧ mismatch (queueAt s q k) = false
    ∧ (queueAt s q k).entries = [] :=
  ⟨(stIn .calm), 0x40, ((qParam 0x40).get rfl), by and_intros <;> decide +kernel⟩

theorem test_met_QueuesAndMemoryFaultsAct_4 : ∃ (s : State) (q : Nat) (k : QParam) (e : QEntry) (rest : List QEntry),
    qParam q = some k
    ∧ mismatch (queueAt s q k) = false
    ∧ (queueAt s q k).entries = e :: rest
    ∧ (queueAt s q k).inHead = 0 :=
  ⟨{ stIn .calm with queues := [(0x40, { entries := [{  }] })] }, 0x40, ((qParam 0x40).get rfl), (({  } : QEntry)), (([] : List QEntry)), by and_intros <;> decide +kernel⟩

theorem test_met_QueuesAndMemoryFaultsAct_5 : ∃ (s : State) (q : Nat) (k : QParam) (e : QEntry) (rest : List QEntry),
    qParam q = some k
    ∧ mismatch (queueAt s q k) = false
    ∧ (queueAt s q k).entries = e :: rest
    ∧ (queueAt s q k).inHead ≠ 0
    ∧ (((queueAt s q k).dropping || (queueAt s q k).skipToSop) = false ∨ e.sop = true) :=
  ⟨{ stIn .calm with queues := [(0x40, { entries := [{  }], inHead := 1 })] }, 0x40, ((qParam 0x40).get rfl), (({  } : QEntry)), (([] : List QEntry)), by and_intros <;> decide +kernel⟩

theorem test_met_QueuesAndMemoryFaultsAct_6 : ∃ (s : State) (q : Nat) (k : QParam),
    qParam q = some k
    ∧ (queueAt s q k).inFrame = true :=
  ⟨{ stIn .calm with queues := [(0x40, { inFrame := true })] }, 0x40, ((qParam 0x40).get rfl), by and_intros <;> decide +kernel⟩

theorem test_met_QueuesAndMemoryFaultsAct_7 : ∃ (s : State) (q : Nat) (k : QParam),
    qParam q = some k
    ∧ (queueAt s q k).refillPending = true
    ∧ (queueAt s q k).inMid ≠ 0 :=
  ⟨{ stIn .calm with queues := [(0x40, { refillPending := true, inMid := 16 })] }, 0x40, ((qParam 0x40).get rfl), by and_intros <;> decide +kernel⟩

theorem test_met_QueuesAndMemoryFaultsAct_8 : ∃ (k : SpillQueue),
    k.inMid ≠ 0 :=
  ⟨(({ inMid := 16 } : SpillQueue)), by decide +kernel⟩

theorem test_met_QueuesAndMemoryFaultsAct_9 : ∃ (q : Nat) (k : QParam),
    qParam q = some k :=
  ⟨0x40, ((qParam 0x40).get rfl), by decide +kernel⟩

theorem test_met_QueuesAndMemoryFaultsAct_10 : ∃ (s : State) (f : MemIn),
    running s = true
    ∧ memUnitOk f = true
    ∧ f.corrected = true :=
  ⟨(stIn .calm), { memIn0 with corrected := true }, by and_intros <;> decide +kernel⟩

theorem test_met_QueuesAndMemoryFaultsAct_11 : ∃ (s : State) (f : MemIn),
    running s = true
    ∧ memUnitOk f = true
    ∧ f.corrected = false :=
  ⟨(stIn .calm), memIn0, by and_intros <;> decide +kernel⟩

theorem test_met_NoSequenceNumberIsAcceptedTwice_1 : ∃ (e : Session) (q : Nat),
    seqFresh e q = true :=
  ⟨sess0, 1, by decide +kernel⟩

theorem test_met_NoSequenceNumberIsAcceptedTwice_2 : ∃ (e : Session) (q : Nat) (p : Nat),
    seqFresh e q = false
    ∧ seqFresh e p = true :=
  ⟨{ sess0 with rxHigh := 7 }, 7, 8, by and_intros <;> decide +kernel⟩

theorem test_met_NoSequenceNumberIsAcceptedTwice_3 : ∃ (s : State) (d : Datagram) (slot : Nat) (e : Session),
    running s = true
    ∧ inFc s d.pclk = true
    ∧ (tgetD s.ports.hosts (portCode d.port) {}).frames < 2048
    ∧ toUs s d = true
    ∧ sizeOk d = true
    ∧ headerOk d = true
    ∧ hSession d ≠ 0
    ∧ boundSession s d = some (slot, e)
    ∧ openDatagram e.key d = none :=
  ⟨linkSt, badPacket, 0, sessL, by and_intros <;> decide +kernel⟩

theorem test_met_NoSequenceNumberIsAcceptedTwice_4 : ∃ (s : State) (d : Datagram) (o : Datagram) (slot : Nat) (e : Session),
    running s = true
    ∧ inFc s d.pclk = true
    ∧ (tgetD s.ports.hosts (portCode d.port) {}).frames < 2048
    ∧ toUs s d = true
    ∧ sizeOk d = true
    ∧ headerOk d = true
    ∧ hSession d ≠ 0
    ∧ boundSession s d = some (slot, e)
    ∧ openDatagram e.key d = some o
    ∧ seqFresh e (hSeq o) = false :=
  ⟨linkSt, (packetOf 1 0 0x0101 []), (clearOf 1 0 0x0101 []), 0, sessL, by and_intros <;> decide +kernel⟩

theorem test_met_ReportedTimeDoesNotJumpAtARateChange_2 : ∃ (s : State),
    s.time.state ≠ .acquiring
    ∧ s.time.state ≠ .locked :=
  ⟨(stIn .calm), by and_intros <;> decide +kernel⟩

theorem test_met_RadioAndCanEventsComplete_1 : ∃ (s : State) (f : AirIn),
    running s = true
    ∧ (f.radio < 2 ∧ f.slot < 4)
    ∧ hears s f = true
    ∧ f.fcsOk = true
    ∧ headerHolds s f.psdu = true
    ∧ (admitFrame s (rxQueue f.radio) false).1 = true :=
  ⟨airSt, airGood, by and_intros <;> decide +kernel⟩

theorem test_met_RadioAndCanEventsComplete_2 : ∃ (s : State) (f : AirIn),
    running s = true
    ∧ (f.radio < 2 ∧ f.slot < 4)
    ∧ hears s f = true
    ∧ f.fcsOk = true
    ∧ headerHolds s f.psdu = false :=
  ⟨airSt, airFrame, by and_intros <;> decide +kernel⟩

theorem test_met_RadioAndCanEventsComplete_3 : ∃ (s : State) (f : AirIn),
    running s = true
    ∧ (f.radio < 2 ∧ f.slot < 4)
    ∧ hears s f = true
    ∧ f.fcsOk = false :=
  ⟨airSt, { airFrame with fcsOk := false }, by and_intros <;> decide +kernel⟩

theorem test_met_RadioAndCanEventsComplete_4 : ∃ (s : State) (k : Nat) (f : SlotFrame),
    k < 4
    ∧ slotNowOk s k = true
    ∧ stopInSlot s k = false
    ∧ (foghornFc { s with p.radio.cfg.foghornFc := s.radio.foghornNow } (fcNow s) && decide (k = 2) && decide (asnOf s k % 40 = 30)) = false
    ∧ downlinkCell { s with p.radio.cfg.foghornFc := s.radio.foghornNow } (radioCfg s) (fcNow s) k = true
    ∧ (((oneRadio s 0).queue.find? fun g => !g.beacon) = some f)
    ∧ f.slot ≤ asnOf s k
    ∧ eligible s f = true
    ∧ 4 * (usedOf s (hopKhz s (hopChannel s (radioCfg s) 0 (asnOf s k))) + f.air) ≤ 3 * (prof s).dwell :=
  ⟨slotSt, 1, slotFrame, by and_intros <;> decide +kernel⟩

theorem test_met_RadioAndCanEventsComplete_5 : ∃ (s : State) (f : SlotFrame),
    slotNowOk s 0 = true
    ∧ (((oneRadio s 0).queue.find? fun g => g.beacon && g.slot == asnOf s 0) = some f)
    ∧ beaconSuppressed s f.token = false :=
  ⟨beaconSt, beaconFrame, by and_intros <;> decide +kernel⟩

theorem test_met_RadioAndCanEventsComplete_6 : ∃ (s : State) (k : Nat),
    k < 4
    ∧ slotNowOk s k = true
    ∧ stopInSlot s k = true
    ∧ s.radio.beaconAsn ≠ some (asnOf s k) :=
  ⟨{ radioSt with stop.stopUntil := 2 ^ 40 }, 1, by and_intros <;> decide +kernel⟩

theorem test_met_RadioAndCanEventsComplete_7 : ∃ (s : State) (c : RadioConfig) (e : Nat),
    running s = true
    ∧ s.clk.window = .latch
    ∧ s.p.radio.pendingCfg = some (c, e)
    ∧ e ≤ fcNow s :=
  ⟨{ stIn .calm with p.radio.pendingCfg := some ({}, 0) }, (({} : RadioConfig)), 0, by and_intros <;> decide +kernel⟩

theorem test_met_RadioAndCanEventsComplete_8 : ∃ (s : State),
    running s = true
    ∧ s.clk.window = .latch :=
  ⟨(stIn .calm), by and_intros <;> decide +kernel⟩

theorem test_met_RadioAndCanEventsComplete_9 : ∃ (s : State) (ch : Nat) (f : CanIn),
    running s = true
    ∧ ch < 2
    ∧ canOn (canAt s ch) = true
    ∧ canFrameOk f.ide f.fdf f.id f.data.length = true
    ∧ f.remote = false
    ∧ ((admitFrame (modCan (recAfter s (canAt s ch).recCtr).2 ch fun c => byCounters { c with recCtr := (recAfter s (canAt s ch).recCtr).1 }) (0x30 + 2 * ch) false).1 = true) :=
  ⟨{ stIn .calm with can := [{}, { state := .errorActive }] }, 1, canIn0, by and_intros <;> decide +kernel⟩

theorem test_met_RadioAndCanEventsComplete_10 : ∃ (s : State) (ch : Nat) (x : CanTx) (rest : List CanTx) (fc : Nat),
    running s = true
    ∧ ch < 2
    ∧ (canAt s ch).txq = x :: rest
    ∧ x.releasedFc = some fc
    ∧ canOn (canAt s ch) = true :=
  ⟨{ stIn .calm with can := [{}, { state := .errorActive, txq := [stopTx] }] }, 1, stopTx, (([] : List CanTx)), 0, by and_intros <;> decide +kernel⟩

theorem test_met_RadioAndCanEventsComplete_11 : ∃ (s : State) (ch : Nat),
    running s = true
    ∧ ch < 2
    ∧ canOn (canAt s ch) = true :=
  ⟨{ stIn .calm with can := [{}, { state := .errorActive }] }, 1, by and_intros <;> decide +kernel⟩

theorem test_met_RadioAndCanEventsComplete_12 : ∃ (s : State) (ch : Nat),
    running s = true
    ∧ ch < 2
    ∧ canOn (canAt s ch) = true
    ∧ 248 ≤ (canAt s ch).tecCtr :=
  ⟨{ stIn .calm with can := [{}, { state := .errorActive, tecCtr := 248 }] }, 1, by and_intros <;> decide +kernel⟩

theorem test_met_RadioAndCanEventsComplete_13 : ∃ (s : State) (ch : Nat),
    running s = true
    ∧ ch < 2
    ∧ (canAt s ch).state = .busOff :=
  ⟨{ stIn .calm with can := [{}, { state := .busOff }] }, 1, by and_intros <;> decide +kernel⟩

theorem test_met_RadioAndCanEventsComplete_14 : ∃ (s : State) (ch : Nat) (w : CanWakeIn),
    running s = true
    ∧ ch < 2
    ∧ (canAt s ch).state = .asleep
    ∧ (canAt s ch).cfg.wakeMode = 1
    ∧ 5 ≤ w.dominantUs :=
  ⟨{ stIn .calm with can := [{}, { state := .asleep, cfg := { wakeMode := 1 } }] }, 1, { dominantUs := 5, frame := none }, by and_intros <;> decide +kernel⟩

theorem test_met_RobotEventsComplete_1 : ∃ (s : State) (m : AirMsg) (u : State) (i : Nat),
    running s = true
    ∧ s.clk.window = .command
    ∧ takeMsg s 0x10 = some (m, u)
    ∧ s.mode.cur ≠ .tender
    ∧ m.body.length = 24
    ∧ zeros m.body 2 2 = true
    ∧ sessionOfEui s m.eui = some i
    ∧ fld m.body 1 1 = (robotRec s i).cls :=
  ⟨{ stIn .breeze with clk.window := .command, radio.msgs := [assocMsg], p.robots := [(0, { sstate := .enrolled })] }, assocMsg, { stIn .breeze with clk.window := .command, radio.msgs := [], p.robots := [(0, { sstate := .enrolled })] }, 0, by and_intros <;> decide +kernel⟩

theorem test_met_RobotEventsComplete_2 : ∃ (s : State) (m : AirMsg) (u : State) (i : Nat),
    running s = true
    ∧ s.clk.window = .command
    ∧ takeMsg s 0x12 = some (m, u)
    ∧ sessionOfEui s m.eui = some i
    ∧ m.body.length = 20
    ∧ zeros m.body 2 2 = true
    ∧ (robotRec s i).sstate = .associating
    ∧ slice m.body 4 16 = (robotAt s i).deviceNonce
    ∧ fld m.body 1 1 = 0
    ∧ m.kind = 1 :=
  ⟨{ stIn .breeze with clk.window := .command, radio.msgs := [confirmMsg], p.robots := [(0, { sstate := .associating })], sess.robots := [(0, { deviceNonce := zb 16 })] }, confirmMsg, { stIn .breeze with clk.window := .command, radio.msgs := [], p.robots := [(0, { sstate := .associating })], sess.robots := [(0, { deviceNonce := zb 16 })] }, 0, by and_intros <;> decide +kernel⟩

theorem test_met_RobotEventsComplete_3 : ∃ (s : State) (m : AirMsg) (u : State) (i : Nat),
    running s = true
    ∧ (s.clk.window = .latch ∨ s.clk.window = .safe)
    ∧ takeMsg s 0x20 = some (m, u)
    ∧ m.session = some i
    ∧ m.body.length = 32
    ∧ m.kind = 1
    ∧ fld m.body 1 1 < 16
    ∧ associated s i = true :=
  ⟨{ stIn .breeze with clk.window := .latch, radio.msgs := [reportMsg], p.robots := [(0, { sstate := .associated })] }, reportMsg, { stIn .breeze with clk.window := .latch, radio.msgs := [], p.robots := [(0, { sstate := .associated })] }, 0, by and_intros <;> decide +kernel⟩

theorem test_met_RobotEventsComplete_4 : ∃ (s : State) (m : AirMsg) (u : State) (i : Nat),
    running s = true
    ∧ windowCode s.clk.window ≤ 3
    ∧ takeMsg s 0x21 = some (m, u)
    ∧ m.session = some i :=
  ⟨{ stIn .breeze with clk.window := .solve, radio.msgs := [planMsg] }, planMsg, { stIn .breeze with clk.window := .solve, radio.msgs := [] }, 0, by and_intros <;> decide +kernel⟩

theorem test_met_RobotEventsComplete_5 : ∃ (s : State) (m : AirMsg) (u : State) (i : Nat),
    running s = true
    ∧ (s.clk.window = .latch ∨ s.clk.window = .safe)
    ∧ takeMsg s 0x28 = some (m, u)
    ∧ m.session = some i
    ∧ m.body.length = 16
    ∧ m.kind = 1
    ∧ (0 < fld m.body 2 2 ∧ fld m.body 2 2 ≤ 1200)
    ∧ (robotRec s i).sstate = .associated :=
  ⟨{ stIn .breeze with clk.window := .safe, radio.msgs := [sleepMsg], p.robots := [(0, { sstate := .associated })] }, sleepMsg, { stIn .breeze with clk.window := .safe, radio.msgs := [], p.robots := [(0, { sstate := .associated })] }, 0, by and_intros <;> decide +kernel⟩

theorem test_met_RobotEventsComplete_6 : ∃ (s : State),
    running s = true
    ∧ s.clk.window = .command :=
  ⟨{ stIn .breeze with clk.window := .command }, by and_intros <;> decide +kernel⟩

theorem test_met_RobotEventsComplete_7 : ∃ (s : State),
    running s = true
    ∧ s.clk.window = .latch :=
  ⟨{ stIn .breeze with clk.window := .latch }, by and_intros <;> decide +kernel⟩

theorem test_met_RobotEventsComplete_8 : ∃ (s : State) (k : Nat),
    running s = true
    ∧ s.clk.window = .latch
    ∧ k < 4096
    ∧ k / 41 = fcNow s % 100
    ∧ (rptAt s k).valid = true
    ∧ (rptAt s k).lock = false
    ∧ (rptAt s k).enrolled = false
    ∧ 100 * s.p.sessCfg.rptAge ≤ rptAge s k
    ∧ ((s.sess.rpt.all fun e => e.1 == k || !e.2.valid) = true) :=
  ⟨{ stIn .breeze with p.sessCfg.rptAge := 0, sess.rpt := [(7, { valid := true })] }, 7, by and_intros <;> decide +kernel⟩

theorem test_met_RobotEventsComplete_9 : ∃ (s : State),
    running s = true
    ∧ s.clk.window = .latch :=
  ⟨{ stIn .breeze with clk.window := .latch }, by and_intros <;> decide +kernel⟩

theorem test_met_StopPathEventsTakeEffect_1 : ∃ (s : State) (inp : Nat) (line : Nat) (pclk : Nat),
    running s = true
    ∧ (inp < 2 ∧ line < 2)
    ∧ inFc s pclk = true :=
  ⟨{ stIn .calm with stop.chans := [{}, {}, {}] }, 1, 0, 7, by and_intros <;> decide +kernel⟩

theorem test_met_StopPathEventsTakeEffect_2 : ∃ (s : State) (c : Nat) (pclk : Nat),
    running s = true
    ∧ c < 3
    ∧ c < s.stop.chans.length
    ∧ inFc s pclk = true :=
  ⟨{ stIn .calm with stop.chans := [{}, {}, {}] }, 2, 7, by and_intros <;> decide +kernel⟩

theorem test_met_StopPathEventsTakeEffect_3 : ∃ (s : State) (d : Datagram) (o : Datagram) (slot : Nat) (e : FilterEntry),
    running s = true
    ∧ inFc s d.pclk = true
    ∧ toUs s d = true
    ∧ filterHeader d = true
    ∧ filterHit d s = some (slot, e, o) :=
  ⟨filterSt, stopPacket, (clearOf 1 1 0x0901 (zb 16)), 0, filterE, by and_intros <;> decide +kernel⟩

theorem test_met_StopPathEventsTakeEffect_4 : ∃ (s : State) (d : Datagram),
    running s = true
    ∧ inFc s d.pclk = true
    ∧ toUs s d = true
    ∧ (filterHeader d = false ∨ filterHit d s = none) :=
  ⟨filterSt, cmdPacket, by and_intros <;> decide +kernel⟩

theorem test_met_StopPathEventsTakeEffect_5 : ∃ (s : State) (src : Nat) (lows : List Bool),
    running s = true
    ∧ (src < 4 ∧ lows.length = 4)
    ∧ s.clk.window = pulseWindow src
    ∧ (slAt s (src / 2)).mode = 1 :=
  ⟨pulseSt, 0, ([true, true, true, true]), by and_intros <;> decide +kernel⟩

theorem test_met_StopPathEventsTakeEffect_6 : ∃ (s : State) (fell : Bool) (rose : Bool),
    running s = true
    ∧ s.clk.window = .plan
    ∧ s.stop.voted = true
    ∧ s.stop.sw1 = true
    ∧ fcNow s % 100 = 50
    ∧ (fell && rose) = false :=
  ⟨{ stIn .calm with clk.window := .plan, clk.fcNumber := 50, stop.voted := true, stop.sw1 := true }, true, false, by and_intros <;> decide +kernel⟩

theorem test_met_StopPathEventsTakeEffect_7 : ∃ (s : State) (c : Nat),
    running s = true
    ∧ c < 3
    ∧ c < s.stop.chans.length
    ∧ s.clk.window = .latch
    ∧ (chanAt s c).state = .rejoining
    ∧ ((if (chanAt s c).planned then 10 else 100) ≤ (chanAt s c).matchFc) :=
  ⟨rejoinSt, 0, by and_intros <;> decide +kernel⟩

theorem test_met_StopPathEventsTakeEffect_8 : ∃ (s : State) (c : Nat),
    running s = true
    ∧ s.clk.window = .latch
    ∧ votingCount s = 3
    ∧ c < 3
    ∧ c < s.stop.chans.length
    ∧ fcNow s % 2880000 = 960000 * c + 30000 :=
  ⟨{ stIn .calm with clk.fcNumber := 990000, stop.chans := List.replicate 3 { state := .voting } }, 1, by and_intros <;> decide +kernel⟩

theorem test_met_StopPathEventsTakeEffect_9 : ∃ (s : State),
    running s = true
    ∧ s.clk.window = .latch :=
  ⟨(stIn .calm), by and_intros <;> decide +kernel⟩

theorem test_met_StopPathEventsTakeEffect_10 : ∃ (s : State) (site : Bool) (robot : Nat),
    running s = true
    ∧ s.clk.window = .safe
    ∧ s.stop.release = some (site, robot) :=
  ⟨{ stIn .calm with clk.window := .safe, stop.release := some (true, 0) }, true, 0, by and_intros <;> decide +kernel⟩

theorem test_met_StopPathEventsTakeEffect_11 : ∃ (s : State),
    running s = true
    ∧ s.clk.window = .latch
    ∧ fcNow s % 360000 = 0
    ∧ s.cores.swapFc ≠ some (fcNow s) :=
  ⟨{ stIn .calm with clk.fcNumber := 360000, cores.standbyReady := true, cores.lastGood := 359999 }, by and_intros <;> decide +kernel⟩

theorem test_met_TimeEventsComplete_1 : ∃ (s : State) (pclk : Nat),
    running s = true
    ∧ inFc s pclk = true
    ∧ crosses s pclk ftuPerSec 0 = true
    ∧ ppsApart s (counterAt s pclk) = true
    ∧ ppsSquelched s = false :=
  ⟨{ secondSt with time.cfg.squelch := 1 }, 1, by and_intros <;> decide +kernel⟩

theorem test_met_TimeEventsComplete_2 : ∃ (s : State) (pclk : Nat),
    running s = true
    ∧ inFc s pclk = true
    ∧ crosses s pclk ftuPerSec 0 = true
    ∧ ppsApart s (counterAt s pclk) = true
    ∧ ppsSquelched s = true :=
  ⟨{ secondSt with time.cfg.squelch := 2, time.state := .stepPending }, 1, by and_intros <;> decide +kernel⟩

theorem test_met_TimeEventsComplete_3 : ∃ (s : State) (pclk : Nat),
    running s = true
    ∧ inFc s pclk = true
    ∧ s.time.zdaDue = true
    ∧ s.time.ppsTime + zdaDelay ≤ timeAt s pclk
    ∧ timeAt s pclk < s.time.ppsTime + zdaDelay + 513 :=
  ⟨{ stIn .calm with clk.fcLen := 1248000, time.zdaDue := true, time.regs.offset := BitVec.ofNat 64 zdaDelay }, 0, by and_intros <;> decide +kernel⟩

theorem test_met_TimeEventsComplete_4 : ∃ (s : State) (ftu : Nat) (rising : Bool) (wide : Bool),
    running s = true
    ∧ wide = true
    ∧ ftu < 512 * s.clk.fcLen
    ∧ (rising == (s.time.cfg.ppsEdge == 1)) = true :=
  ⟨{ stIn .calm with clk.fcLen := 1248000, time.cfg.ppsEdge := 1 }, 7, true, true, by and_intros <;> decide +kernel⟩

theorem test_met_TimeEventsComplete_5 : ∃ (s : State) (q : StepReq),
    running s = true
    ∧ s.time.step = some q
    ∧ s.clk.window = .guard :=
  ⟨{ stIn .calm with clk.window := .guard, time.step := some {} }, (({} : StepReq)), by and_intros <;> decide +kernel⟩

theorem test_met_TimeEventsComplete_6 : ∃ (s : State) (pclk : Nat),
    running s = true
    ∧ inFc s pclk = true
    ∧ crosses s pclk ftuPerSec 0 = true :=
  ⟨secondSt, 1, by and_intros <;> decide +kernel⟩

theorem test_met_TimeEventsComplete_7 : ∃ (s : State) (id : Nat) (pclk : Nat) (g : TimeTrigger),
    running s = true
    ∧ id < 16
    ∧ tget s.time.triggers id = some g
    ∧ inFc s pclk = true
    ∧ firesAt s g pclk = true
    ∧ ((List.range id).all (fun j => (tget s.time.triggers j).all fun x => x.output != g.output) = true) :=
  ⟨trigSt, 15, 7, trigOf, by and_intros <;> decide +kernel⟩

theorem test_met_TimeEventsComplete_8 : ∃ (s : State) (io : Nat) (pclk : Nat) (c : Counter),
    running s = true
    ∧ io < 8
    ∧ (auxLive s io).pulseEnd = some c
    ∧ inFc s pclk = true
    ∧ c ≤ counterAt s pclk
    ∧ (pclk = 0 ∨ counterAt s (pclk - 1) < c) :=
  ⟨{ stIn .calm with clk.fcLen := 1248000, ports.io := [(7, { pulseEnd := some 3584 })] }, 7, 7, 3584, by and_intros <;> decide +kernel⟩

theorem test_met_GnssEventsComplete_1 : ∃ (s : State),
    running s = true
    ∧ isEpochFc s = true
    ∧ s.gnss.captured = none :=
  ⟨{ stIn .calm with gnss.hzInForce := 10 }, by and_intros <;> decide +kernel⟩

theorem test_met_GnssEventsComplete_2 : ∃ (s : State) (c : Nat) (pclk : Nat) (x : Channel),
    c < 320
    ∧ inFc s pclk = true
    ∧ tget s.gnss.chans c = some x
    ∧ x.searching = true :=
  ⟨{ stIn .calm with gnss.chans := [(3, { searching := true })] }, 3, 7, (({ searching := true } : Channel)), by and_intros <;> decide +kernel⟩

theorem test_met_GnssEventsComplete_3 : ∃ (s : State) (c : Nat) (pclk : Nat) (x : Channel),
    c < 320
    ∧ inFc s pclk = true
    ∧ tget s.gnss.chans c = some x
    ∧ x.active = true
    ∧ x.codeLock = false :=
  ⟨{ stIn .calm with gnss.chans := [(3, ({ active := true } : Channel))] }, 3, 7, (({ active := true } : Channel)), by and_intros <;> decide +kernel⟩

theorem test_met_GnssEventsComplete_4 : ∃ (s : State) (c : Nat) (pclk : Nat) (x : Channel),
    c < 320
    ∧ inFc s pclk = true
    ∧ tget s.gnss.chans c = some x
    ∧ x.codeLock = true
    ∧ x.phaseLock = false :=
  ⟨{ stIn .calm with gnss.chans := [(3, { codeLock := true })] }, 3, 7, (({ codeLock := true } : Channel)), by and_intros <;> decide +kernel⟩

theorem test_met_GnssEventsComplete_5 : ∃ (s : State) (c : Nat) (x : Channel),
    c < 320
    ∧ tget s.gnss.chans c = some x
    ∧ x.codeLock = true
    ∧ x.ambig = 1 :=
  ⟨{ stIn .calm with gnss.chans := [(3, { codeLock := true, ambig := 1 })] }, 3, (({ codeLock := true, ambig := 1 } : Channel)), by and_intros <;> decide +kernel⟩

theorem test_met_GnssEventsComplete_6 : ∃ (s : State) (c : Nat) (x : Channel),
    c < 320
    ∧ tget s.gnss.chans c = some x
    ∧ x.codeLock = true
    ∧ x.ambig = 2 :=
  ⟨{ stIn .calm with gnss.chans := [(3, { codeLock := true, ambig := 2 })] }, 3, (({ codeLock := true, ambig := 2 } : Channel)), by and_intros <;> decide +kernel⟩

theorem test_met_GnssEventsComplete_7 : ∃ (s : State) (c : Nat) (pclk : Nat) (x : Channel),
    c < 320
    ∧ inFc s pclk = true
    ∧ tget s.gnss.chans c = some x
    ∧ x.codeLock = true :=
  ⟨{ stIn .calm with gnss.chans := [(3, { codeLock := true, active := true })] }, 3, 7, (({ codeLock := true, active := true } : Channel)), by and_intros <;> decide +kernel⟩

theorem test_met_GnssEventsComplete_8 : ∃ (s : State) (a : Nat),
    a < 2
    ∧ (tgetD s.gnss.ants a {}).state = 4
    ∧ (tgetD s.gnss.ants a {}).biasOffFc = 1 :=
  ⟨{ stIn .calm with gnss.ants := [(1, { state := 4, biasOffFc := 1 })] }, 1, by and_intros <;> decide +kernel⟩

theorem test_met_GnssEventsComplete_9 : ∃ (s : State) (c : GnssCal),
    s.gnss.cal = some c
    ∧ c.endFc ≤ fcNow s
    ∧ c.kind = 1 :=
  ⟨{ stIn .calm with gnss.cal := some { kind := 1, antenna := 0, endFc := 0, req := rq 0x0305 [] } }, { kind := 1, antenna := 0, endFc := 0, req := rq 0x0305 [] }, by and_intros <;> decide +kernel⟩

theorem test_met_GnssEventsComplete_10 : ∃ (s : State) (c : GnssCal),
    s.gnss.cal = some c
    ∧ c.endFc ≤ fcNow s
    ∧ c.kind = 1
    ∧ csnHolds s c.req [siteObj] = true
    ∧ mramFog s = false :=
  ⟨{ stIn .calm with gnss.cal := some { kind := 1, antenna := 0, endFc := 0, req := rq 0x0305 [] } }, { kind := 1, antenna := 0, endFc := 0, req := rq 0x0305 [] }, by and_intros <;> decide +kernel⟩

theorem test_met_GnssEventsComplete_11 : ∃ (s : State) (align : List Int) (c : GnssCal),
    s.gnss.cal = some c
    ∧ c.endFc ≤ fcNow s
    ∧ c.kind = 3
    ∧ c.lacked = false
    ∧ align.length = 3
    ∧ csnHolds s c.req [siteObj] = true
    ∧ mramFog s = false :=
  ⟨{ stIn .calm with gnss.cal := some { kind := 3, antenna := 0, endFc := 0, req := rq 0x0305 [] } }, ([0, 0, 0]), { kind := 3, antenna := 0, endFc := 0, req := rq 0x0305 [] }, by and_intros <;> decide +kernel⟩

theorem test_met_GnssEventsComplete_12 : ∃ (s : State) (c : BuoyCal),
    s.buoy.cal = some c
    ∧ c.endFc ≤ fcNow s
    ∧ (links.filterMap (groupHead c)).isEmpty = true :=
  ⟨{ stIn .calm with buoy.cal := some { endFc := 0, req := rq 0x0510 [] } }, { endFc := 0, req := rq 0x0510 [] }, by and_intros <;> decide +kernel⟩

theorem test_met_GnssEventsComplete_13 : ∃ (s : State) (c : BuoyCal),
    s.buoy.cal = some c
    ∧ c.endFc ≤ fcNow s
    ∧ (links.filterMap (groupHead c)).isEmpty = false
    ∧ csnHolds s c.req (maskObjs 0x3FF) = true
    ∧ mramFog s = false :=
  ⟨{ stIn .calm with buoy.cal := some calRun }, calRun, by and_intros <;> decide +kernel⟩

theorem test_met_EachWindowOpensAndCommitsNothingElsewhere_1 : ∃ (s : State),
    running s = true
    ∧ (s.mode.cur == .still) = false
    ∧ s.time.step = none :=
  ⟨(stIn .calm), by and_intros <;> decide +kernel⟩

theorem test_met_EachWindowOpensAndCommitsNothingElsewhere_2 : ∃ (s : State),
    running s = true
    ∧ windowCode s.clk.window < windowCode .safe :=
  ⟨(stIn .calm), by and_intros <;> decide +kernel⟩

theorem test_met_EachWindowOpensAndCommitsNothingElsewhere_3 : ∃ (s : State),
    running s = true
    ∧ windowCode s.clk.window < windowCode .solve :=
  ⟨(stIn .calm), by and_intros <;> decide +kernel⟩

theorem test_met_EachWindowOpensAndCommitsNothingElsewhere_4 : ∃ (s : State),
    running s = true
    ∧ windowCode s.clk.window < windowCode .command :=
  ⟨(stIn .calm), by and_intros <;> decide +kernel⟩

theorem test_met_EachWindowOpensAndCommitsNothingElsewhere_5 : ∃ (s : State),
    running s = true
    ∧ windowCode s.clk.window < windowCode .plan :=
  ⟨(stIn .calm), by and_intros <;> decide +kernel⟩

theorem test_met_EachWindowOpensAndCommitsNothingElsewhere_6 : ∃ (s : State),
    running s = true
    ∧ windowCode s.clk.window < windowCode .emit :=
  ⟨(stIn .calm), by and_intros <;> decide +kernel⟩

theorem test_met_EachWindowOpensAndCommitsNothingElsewhere_7 : ∃ (s : State),
    running s = true
    ∧ windowCode s.clk.window < windowCode .persist :=
  ⟨(stIn .calm), by and_intros <;> decide +kernel⟩

theorem test_met_EachWindowOpensAndCommitsNothingElsewhere_8 : ∃ (s : State),
    running s = true
    ∧ windowCode s.clk.window < windowCode .guard :=
  ⟨(stIn .calm), by and_intros <;> decide +kernel⟩

theorem test_met_PowerResetAndSupervisionEventsComplete_1 : ∃ (s : State),
    s.mode.cur = .doldrums :=
  ⟨{ stIn .calm with mode.cur := .doldrums }, by decide +kernel⟩

theorem test_met_PowerResetAndSupervisionEventsComplete_2 : ∃ (s : State),
    s.mode.cur ≠ .doldrums :=
  ⟨(stIn .calm), by decide +kernel⟩

theorem test_met_PowerResetAndSupervisionEventsComplete_3 : ∃ (s : State) (k : Nat),
    running s = true
    ∧ s.mode.resetAt = some k
    ∧ k ≠ 2
    ∧ s.clk.window = .guard :=
  ⟨{ stIn .calm with clk.window := .guard, mode.resetAt := some 3 }, 3, by and_intros <;> decide +kernel⟩

theorem test_met_PowerResetAndSupervisionEventsComplete_4 : ∃ (s : State) (i : BootIn) (b : Bool),
    s.mode.cur = .still
    ∧ s.upd.dfu = false
    ∧ (trySlots i true (bootOrder s) s).1 = some b :=
  ⟨(stIn .still), (({} : BootIn)), false, by and_intros <;> decide +kernel⟩

theorem test_met_PowerResetAndSupervisionEventsComplete_5 : ∃ (s : State) (i : BootIn),
    s.mode.cur = .still
    ∧ s.upd.dfu = false
    ∧ (trySlots i true (bootOrder s) s).1 = none :=
  ⟨(stIn .still), { sigA := false, sigB := false }, by and_intros <;> decide +kernel⟩

theorem test_met_PowerResetAndSupervisionEventsComplete_6 : ∃ (s : State) (i : BootIn) (b : Bool),
    s.mode.cur = .still
    ∧ s.upd.dfu = true
    ∧ (trySlots i false (bootOrder s) s).1 = some b :=
  ⟨{ stIn .still with upd.dfu := true }, (({} : BootIn)), false, by and_intros <;> decide +kernel⟩

theorem test_met_PowerResetAndSupervisionEventsComplete_7 : ∃ (s : State) (i : BootIn),
    s.mode.cur = .still
    ∧ s.upd.dfu = true
    ∧ (trySlots i false (bootOrder s) s).1 = none :=
  ⟨{ stIn .still with upd.dfu := true }, { sigA := false, sigB := false }, by and_intros <;> decide +kernel⟩

theorem test_met_PowerResetAndSupervisionEventsComplete_8 : ∃ (s : State),
    s.mode.cur = .doldrums :=
  ⟨{ stIn .calm with mode.cur := .doldrums }, by decide +kernel⟩

theorem test_met_PowerResetAndSupervisionEventsComplete_9 : ∃ (s : State),
    running s = true
    ∧ 100 * s.supply.cfg.hostLossS ≤ s.mode.noSessionFc :=
  ⟨{ stIn .calm with mode.noSessionFc := 2 ^ 20 }, by and_intros <;> decide +kernel⟩

theorem test_met_PowerResetAndSupervisionEventsComplete_10 : ∃ (s : State),
    running s = true
    ∧ 100 ≤ s.mode.refLossRun :=
  ⟨{ stIn .calm with mode.refLossRun := 100 }, by and_intros <;> decide +kernel⟩

theorem test_met_PowerResetAndSupervisionEventsComplete_11 : ∃ (s : State) (core : Nat) (w : Window),
    running s = true
    ∧ core < 8
    ∧ s.clk.window = w :=
  ⟨(stIn .calm), 7, Window.latch, by and_intros <;> decide +kernel⟩

theorem test_met_PowerResetAndSupervisionEventsComplete_12 : ∃ (s : State) (core : Nat),
    running s = true
    ∧ core < 8
    ∧ (s.cores.reload.any (fun e => e.1 == core && decide (e.2 ≤ fcNow s)) = true) :=
  ⟨{ stIn .calm with cores.reload := [(7, 0)] }, 7, by and_intros <;> decide +kernel⟩

theorem test_met_PowerResetAndSupervisionEventsComplete_13 : ∃ (s : State) (slot : Nat) (e : Session),
    running s = true
    ∧ slot < 4
    ∧ sessionAt s slot = some e
    ∧ e.leaseDue = true
    ∧ (s.clk.window = .solve ∨ s.clk.window = .command)
    ∧ fltAway s = false :=
  ⟨{ stIn .calm with clk.window := .solve, edtor.sessions := [(0, { sess0 with leaseDue := true })] }, 0, { sess0 with leaseDue := true }, by and_intros <;> decide +kernel⟩

theorem test_met_AllotmentAndTaskEventsComplete_1 : ∃ (s : State),
    s.clk.window = .plan
    ∧ fcNow s % 10 = 0
    ∧ isGo (fleetMode s) = true
    ∧ s.strt.grid.cellMm ≠ 0
    ∧ s.allot.round ≠ some (fcNow s / 10) :=
  ⟨{ gridSt with mode.cur := .breeze, clk.window := .plan }, by and_intros <;> decide +kernel⟩

theorem test_met_AllotmentAndTaskEventsComplete_2 : ∃ (s : State) (age : Nat) (u : Nat) (i : Nat),
    s.clk.window = .plan
    ∧ isGo (fleetMode s) = true
    ∧ roundAge s = some age
    ∧ age ≤ 8
    ∧ (((List.range 4).find? fun u => !(busyUnits s).contains u) = some u)
    ∧ ((s.allot.reqs.findIdx? fun q => q.stage == .queued && decide (q.fromFc ≤ fcNow s)) = some i) :=
  ⟨{ { gridSt with mode.cur := .breeze, clk.window := .plan, allot.round := some 0 } with allot.reqs := [{ stage := .queued }] }, 0, 0, 0, by and_intros <;> decide +kernel⟩

theorem test_met_AllotmentAndTaskEventsComplete_3 : ∃ (s : State) (unit : Nat) (age : Nat) (i : Nat),
    unit < 4
    ∧ roundAge s = some age
    ∧ ((s.allot.reqs.findIdx? fun q => q.stage == .searching && q.unit == unit) = some i)
    ∧ 8 < age :=
  ⟨{ { gridSt with mode.cur := .breeze, clk.window := .plan, allot.round := some 0 } with clk.fcNumber := 9, allot.reqs := [{ stage := .searching, unit := 3 }] }, 3, 9, 0, by and_intros <;> decide +kernel⟩

theorem test_met_AllotmentAndTaskEventsComplete_4 : ∃ (s : State) (unit : Nat) (age : Nat) (i : Nat) (x : Nat) (y : Nat) (h : Nat),
    unit < 4
    ∧ roundAge s = some age
    ∧ ((s.allot.reqs.findIdx? fun q => q.stage == .searching && q.unit == unit) = some i)
    ∧ age ≤ 8
    ∧ s.clk.window = .plan
    ∧ (s.allot.reqs.getD i {}).origin = some (x, y, h) :=
  ⟨{ { gridSt with mode.cur := .breeze, clk.window := .plan, allot.round := some 0 } with allot.reqs := [{ stage := .searching, unit := 3, origin := some (0, 0, 0) }] }, 3, 0, 0, 0, 0, 0, by and_intros <;> decide +kernel⟩

theorem test_met_AllotmentAndTaskEventsComplete_5 : ∃ (s : State) (age : Nat),
    roundAge s = some age
    ∧ s.clk.window = .plan
    ∧ isGo (fleetMode s) = true
    ∧ (2 ≤ age ∧ age ≤ 9)
    ∧ s.allot.reserveFc ≠ some (fcNow s) :=
  ⟨{ { gridSt with mode.cur := .breeze, clk.window := .plan, allot.round := some 0 } with clk.fcNumber := 2 }, 2, by and_intros <;> decide +kernel⟩

theorem test_met_AllotmentAndTaskEventsComplete_6 : ∃ (s : State) (r : Nat),
    s.allot.round = some r
    ∧ s.clk.window = .plan
    ∧ fcNow s = 10 * r + 9
    ∧ isGo (fleetMode s) = true :=
  ⟨{ { gridSt with mode.cur := .breeze, clk.window := .plan, allot.round := some 0 } with clk.fcNumber := 9 }, 0, by and_intros <;> decide +kernel⟩

theorem test_met_AllotmentAndTaskEventsComplete_7 : ∃ (s : State) (cell : Nat) (slot : Nat) (kind : Nat) (who : Nat),
    (who < 5 ∧ kind < 5 ∧ cell < 2 ^ 24)
    ∧ (s.strt.relocating ≠ some (keyInput cell (if isStanding kind then 0 else slot % 1024) kind).toNat) :=
  ⟨(stIn .calm), 7, 1, 0, 4, by and_intros <;> decide +kernel⟩

theorem test_met_AllotmentAndTaskEventsComplete_8 : ∃ (s : State),
    running s = true
    ∧ s.clk.window = .latch
    ∧ fcNow s % 5 = 0
    ∧ s.strt.sweptSlot ≠ some (slotNow s) :=
  ⟨(stIn .calm), by and_intros <;> decide +kernel⟩

theorem test_met_AllotmentAndTaskEventsComplete_9 : ∃ (s : State),
    running s = true
    ∧ s.clk.window = .plan
    ∧ mramFog s = false :=
  ⟨{ stIn .breeze with clk.window := .plan, p.tasks := [(3, { state := .posted, deadlineNow := 1 })], time.regs.offset := 5 }, by and_intros <;> decide +kernel⟩

theorem test_met_AllotmentAndTaskEventsComplete_10 : ∃ (s : State),
    running s = true
    ∧ s.clk.window = .plan
    ∧ mramFog s = false :=
  ⟨{ stIn .breeze with clk.window := .plan, clk.fcNumber := 10 ^ 9, p.tasks := [(3, { state := .failed })] }, by and_intros <;> decide +kernel⟩

theorem test_met_UpdateAndSelfTestEventsComplete_1 : ∃ (s : State) (r : Request) (d : Nat) (e : Nat),
    running s = true
    ∧ s.upd.finish = some (d, e, r)
    ∧ s.upd.verified = some stOk
    ∧ e ≤ fcNow s
    ∧ mramFog s = false :=
  ⟨{ stIn .calm with upd.finish := some (0, 0, rq 0x0D04 []), upd.verified := some 0 }, (rq 0x0D04 []), 0, 0, by and_intros <;> decide +kernel⟩

theorem test_met_UpdateAndSelfTestEventsComplete_2 : ∃ (s : State) (r : Request) (d : Nat) (e : Nat) (st : Nat),
    running s = true
    ∧ s.upd.finish = some (d, e, r)
    ∧ s.upd.verified = some st
    ∧ st ≠ stOk
    ∧ e ≤ fcNow s :=
  ⟨{ stIn .calm with upd.finish := some (0, 0, rq 0x0D04 []), upd.verified := some 1 }, (rq 0x0D04 []), 0, 0, 1, by and_intros <;> decide +kernel⟩

theorem test_met_UpdateAndSelfTestEventsComplete_3 : ∃ (s : State) (v : Activation),
    running s = true
    ∧ s.upd.act = some v
    ∧ s.upd.state = 4
    ∧ fcNow s + 100 = v.a :=
  ⟨{ stIn .calm with upd.state := 4, upd.act := some { a := 100, n := 0, restart := true, req := rq 0x0D06 [] } }, (({ a := 100, n := 0, restart := true, req := rq 0x0D06 [] } : Activation)), by and_intros <;> decide +kernel⟩

theorem test_met_UpdateAndSelfTestEventsComplete_4 : ∃ (s : State) (v : Activation) (ok : Bool),
    running s = true
    ∧ s.upd.act = some v
    ∧ s.upd.state = 4
    ∧ v.a ≤ fcNow s + 1
    ∧ v.passed = false
    ∧ s.clk.window = .solve
    ∧ mramFog s = false
    ∧ checkFails { s with com.cmdCommits := 0 } v ok = none
    ∧ siteChanged { s with com.cmdCommits := 0 } v = none :=
  ⟨{ stIn .calm with clk.window := .solve, upd.state := 4, upd.act := some { a := 1, n := 0, restart := true, req := rq 0x0D06 [] } }, (({ a := 1, n := 0, restart := true, req := rq 0x0D06 [] } : Activation)), true, by and_intros <;> decide +kernel⟩

theorem test_met_UpdateAndSelfTestEventsComplete_5 : ∃ (s : State) (v : Activation) (ok : Bool) (st : Nat),
    running s = true
    ∧ s.upd.act = some v
    ∧ s.upd.state = 4
    ∧ v.a ≤ fcNow s + 1
    ∧ v.passed = false
    ∧ s.clk.window = .solve
    ∧ checkFails { s with com.cmdCommits := 0 } v ok = some st :=
  ⟨{ stIn .calm with clk.window := .solve, upd.state := 4, upd.act := some { a := 1, n := 0, restart := true, req := rq 0x0D06 [] } }, (({ a := 1, n := 0, restart := true, req := rq 0x0D06 [] } : Activation)), false, stImageInvalid, by and_intros <;> decide +kernel⟩

theorem test_met_UpdateAndSelfTestEventsComplete_6 : ∃ (s : State) (v : Activation),
    running s = true
    ∧ s.upd.act = some v
    ∧ s.upd.state = 4
    ∧ v.passed = true
    ∧ fcNow s = v.a :=
  ⟨{ stIn .calm with upd.state := 4, upd.act := some { a := 0, n := 0, restart := false, req := rq 0x0D06 [], passed := true } }, (({ a := 0, n := 0, restart := false, req := rq 0x0D06 [], passed := true } : Activation)), by and_intros <;> decide +kernel⟩

theorem test_met_UpdateAndSelfTestEventsComplete_7 : ∃ (s : State) (v : Activation),
    running s = true
    ∧ s.upd.act = some v
    ∧ s.upd.state = 5
    ∧ v.c.isNone = true
    ∧ (v.a + 9 ≤ fcNow s ∧ fcNow s ≤ v.a + 14)
    ∧ s.clk.window = .guard :=
  ⟨{ stIn .calm with clk.window := .guard, clk.fcNumber := 9, upd.state := 5, upd.act := some { a := 0, n := 0, restart := false, req := rq 0x0D06 [] } }, (({ a := 0, n := 0, restart := false, req := rq 0x0D06 [] } : Activation)), by and_intros <;> decide +kernel⟩

theorem test_met_UpdateAndSelfTestEventsComplete_8 : ∃ (s : State) (v : Activation) (c : Nat),
    running s = true
    ∧ s.upd.act = some v
    ∧ v.c = some c
    ∧ s.upd.state = 5
    ∧ c + 11 ≤ fcNow s :=
  ⟨{ stIn .calm with clk.fcNumber := 11, upd.state := 5, upd.act := some { a := 0, n := 0, restart := false, req := rq 0x0D06 [], c := some 0 } }, (({ a := 0, n := 0, restart := false, req := rq 0x0D06 [], c := some 0 } : Activation)), 0, by and_intros <;> decide +kernel⟩

theorem test_met_UpdateAndSelfTestEventsComplete_9 : ∃ (s : State) (v : Activation) (c : Nat),
    running s = true
    ∧ s.upd.act = some v
    ∧ s.upd.state = 6
    ∧ s.clk.window = .latch
    ∧ s.upd.safTurn = none
    ∧ (turnsLeft s v s.upd.safNext).head? = some c
    ∧ votingCount s = 3
    ∧ c < s.stop.chans.length :=
  ⟨{ stIn .calm with stop.chans := List.replicate 3 { state := .voting }, upd.safNext := 0, upd.state := 6, upd.act := some { a := 0, n := 0, restart := false, req := rq 0x0D06 [] } }, (({ a := 0, n := 0, restart := false, req := rq 0x0D06 [] } : Activation)), 0, by and_intros <;> decide +kernel⟩

theorem test_met_UpdateAndSelfTestEventsComplete_10 : ∃ (s : State) (v : Activation) (c : Nat) (k : Nat),
    running s = true
    ∧ s.upd.act = some v
    ∧ s.upd.state = 6
    ∧ s.clk.window = .latch
    ∧ s.upd.safTurn = some (c, k)
    ∧ (chanAt s c).state = .updating
    ∧ c < s.stop.chans.length
    ∧ k + 14 ≤ fcNow s :=
  ⟨{ stIn .calm with clk.fcNumber := 14, upd.safTurn := some (0, 0), stop.chans := [{ state := .updating }, {}, {}], upd.state := 6, upd.act := some { a := 0, n := 0, restart := false, req := rq 0x0D06 [] } }, (({ a := 0, n := 0, restart := false, req := rq 0x0D06 [] } : Activation)), 0, 0, by and_intros <;> decide +kernel⟩

theorem test_met_UpdateAndSelfTestEventsComplete_11 : ∃ (s : State) (v : Activation) (failed : Bool),
    running s = true
    ∧ s.upd.act = some v
    ∧ abandons s v failed = true :=
  ⟨{ stIn .calm with upd.state := 5, upd.act := some { a := 0, n := 0, restart := false, req := rq 0x0D06 [] } }, (({ a := 0, n := 0, restart := false, req := rq 0x0D06 [] } : Activation)), true, by and_intros <;> decide +kernel⟩

theorem test_met_UpdateAndSelfTestEventsComplete_12 : ∃ (s : State) (p : Bytes),
    s.mode.cur = .still
    ∧ s.upd.dfu = true
    ∧ 89 ≤ p.length
    ∧ p.length - 88 ≤ 67100672 :=
  ⟨{ stIn .still with upd.dfu := true }, (zb 89), by and_intros <;> decide +kernel⟩

theorem test_met_UpdateAndSelfTestEventsComplete_13 : ∃ (s : State) (target : Nat) (q : TestRun),
    running s = true
    ∧ ((s.cores.tests.find? fun t => t.target == target) = some q)
    ∧ q.endFc ≤ fcNow s
    ∧ (target = 0x11 ∨ target = 0x12 ∨ target ≤ 3) :=
  ⟨{ stIn .calm with cores.tests := [testOf 0x12] }, 0x12, (testOf 0x12), by and_intros <;> decide +kernel⟩

theorem test_met_BuoyEventsComplete_1 : ∃ (s : State) (f : BuoyFrame),
    running s = true
    ∧ f.link < 10
    ∧ (anchorAt s f.link).phy = true
    ∧ frameOk s f = true
    ∧ micOk s f = true
    ∧ lastCtr s f < bCtr f
    ∧ ((admitFrame (if isHello f then s else modAnchor s f.link fun a => { a with upCtr := bCtr f }) (0x20 + f.link) false).1 = true) :=
  ⟨helloSt, (frameUp 0x81 1 (zb 24)), by and_intros <;> first | decide +kernel | exact frameOk_of (by decide +kernel) rfl (by decide +kernel) (by decide +kernel)⟩

theorem test_met_BuoyEventsComplete_2 : ∃ (s : State) (f : BuoyFrame),
    running s = true
    ∧ f.link < 10
    ∧ (anchorAt s f.link).phy = true
    ∧ frameOk s f = true
    ∧ micOk s f = true
    ∧ lastCtr s f < bCtr f
    ∧ ((admitFrame (if isHello f then s else modAnchor s f.link fun a => { a with upCtr := bCtr f }) (0x20 + f.link) false).1 = true) :=
  ⟨anchorSt, (frameUp 0x82 1 (zb 16)), by and_intros <;> first | decide +kernel | exact frameOk_of (by decide +kernel) rfl (by decide +kernel) (by decide +kernel)⟩

theorem test_met_BuoyEventsComplete_3 : ∃ (s : State) (f : BuoyFrame),
    running s = true
    ∧ f.link < 10
    ∧ (anchorAt s f.link).phy = true
    ∧ frameOk s f = true
    ∧ micOk s f = true
    ∧ lastCtr s f < bCtr f
    ∧ ((admitFrame (if isHello f then s else modAnchor s f.link fun a => { a with upCtr := bCtr f }) (0x20 + f.link) false).1 = true) :=
  ⟨anchorSt, (frameUp 0x83 1 (zb 4)), by and_intros <;> first | decide +kernel | exact frameOk_of (by decide +kernel) rfl (by decide +kernel) (by decide +kernel)⟩

theorem test_met_BuoyEventsComplete_4 : ∃ (s : State) (f : BuoyFrame),
    running s = true
    ∧ f.link < 10
    ∧ (anchorAt s f.link).phy = true
    ∧ frameOk s f = true
    ∧ micOk s f = true
    ∧ lastCtr s f < bCtr f
    ∧ ((admitFrame (if isHello f then s else modAnchor s f.link fun a => { a with upCtr := bCtr f }) (0x20 + f.link) false).1 = true) :=
  ⟨anchorSt, (frameUp 0x84 1 (zb 12)), by and_intros <;> first | decide +kernel | exact frameOk_of (by decide +kernel) rfl (by decide +kernel) (by decide +kernel)⟩

theorem test_met_BuoyEventsComplete_5 : ∃ (s : State),
    running s = true
    ∧ s.clk.window = .latch
    ∧ lnkAway s = false :=
  ⟨anchorSt, by and_intros <;> decide +kernel⟩

theorem test_met_BuoyEventsComplete_6 : ∃ (s : State) (fc : Nat) (period : Nat),
    running s = true
    ∧ period ≤ 9
    ∧ fc ≤ fcNow s
    ∧ (fcNow s == fc && period == 9) = false :=
  ⟨{ stIn .calm with clk.fcNumber := 5 }, 5, 8, by and_intros <;> decide +kernel⟩

theorem test_met_BuoyEventsComplete_7 : ∃ (s : State) (l : Nat) (v : Relay),
    running s = true
    ∧ l < 10
    ∧ (anchorAt s l).relay = some v
    ∧ v.ackFc + 10 ≤ fcNow s :=
  ⟨{ stIn .calm with clk.fcNumber := 10, buoy.anchors := [(9, { relay := some {  } })] }, 9, (({  } : Relay)), by and_intros <;> decide +kernel⟩

theorem test_met_BuoyEventsComplete_8 : ∃ (s : State) (l : Nat) (up : Bool),
    running s = true
    ∧ l < 10
    ∧ (anchorAt s l).phy = !up :=
  ⟨(stIn .calm), 9, true, by and_intros <;> decide +kernel⟩

theorem test_met_BuoyEventsComplete_9 : ∃ (s : State) (l : Nat),
    running s = true
    ∧ l < 10
    ∧ (anchorAt s l).podlOn = false
    ∧ (anchorAt s l).state ≠ .fault :=
  ⟨(stIn .calm), 9, by and_intros <;> decide +kernel⟩

theorem test_met_BuoyEventsComplete_10 : ∃ (s : State) (l : Nat),
    running s = true
    ∧ l < 10
    ∧ (anchorAt s l).podlOn = true :=
  ⟨{ stIn .calm with buoy.anchors := [(9, { podlOn := true })] }, 9, by and_intros <;> decide +kernel⟩

theorem test_met_BuoyEventsComplete_11 : ∃ (s : State) (l : Nat),
    running s = true
    ∧ l < 10
    ∧ (anchorAt s l).shed = true
    ∧ 1000 ≤ (anchorAt s l).marginFc :=
  ⟨{ stIn .calm with buoy.anchors := [(9, { shed := true, marginFc := 1000 })] }, 9, by and_intros <;> decide +kernel⟩

theorem test_met_BuoyEventsComplete_12 : ∃ (s : State) (l : Nat) (fc : Nat),
    running s = true
    ∧ l < 10
    ∧ (anchorAt s l).faultFc = some fc
    ∧ (anchorAt s l).state = .fault
    ∧ fc + 1000 ≤ fcNow s :=
  ⟨{ stIn .calm with clk.fcNumber := 1000, buoy.anchors := [(9, { state := .fault, faultFc := some 0 })] }, 9, 0, by and_intros <;> decide +kernel⟩

theorem test_met_PortKeyAndQueueEventsComplete_1 : ∃ (s : State) (port : Port) (up : Bool) (speed : Nat),
    ((tgetD s.ports.hosts (portCode port) {}).link == up && (tgetD s.ports.hosts (portCode port) {}).speed == speed) = false :=
  ⟨(stIn .calm), Port.l23, true, 7, by decide +kernel⟩

theorem test_met_PortKeyAndQueueEventsComplete_2 : ∃ (s : State) (port : Port),
    (tgetD s.ports.hosts (portCode port) {}).frames < 2048 :=
  ⟨(stIn .calm), Port.l23, by decide +kernel⟩

theorem test_met_PortKeyAndQueueEventsComplete_3 : ∃ (s : State) (io : Nat) (pclk : Nat) (level : Bool),
    io < 8
    ∧ inFc s pclk = true
    ∧ isOutput s io = false
    ∧ (auxLive s io).level = !level
    ∧ (level && !s.ports.vio) = false :=
  ⟨{ stIn .calm with ports.vio := true }, 7, 7, true, by and_intros <;> decide +kernel⟩

theorem test_met_PortKeyAndQueueEventsComplete_4 : ∃ (s : State) (io : Nat) (pclk : Nat),
    io < 8
    ∧ inFc s pclk = true
    ∧ outOn s io = true :=
  ⟨{ stIn .calm with ports.vio := true, ports.auxNow := [(7, { dir := 2 })], ports.io := [(7, { out := true })] }, 7, 7, by and_intros <;> decide +kernel⟩

theorem test_met_PortKeyAndQueueEventsComplete_5 : ∃ (s : State) (active : Bool) (pclk : Nat),
    inFc s pclk = true
    ∧ s.ports.svcEn = !active :=
  ⟨(stIn .calm), (!((stIn .calm).ports.svcEn)), 7, by and_intros <;> decide +kernel⟩

theorem test_met_PortKeyAndQueueEventsComplete_6 : ∃ (s : State) (present : Bool) (pclk : Nat),
    inFc s pclk = true
    ∧ s.ports.vio = !present :=
  ⟨(stIn .calm), (!((stIn .calm).ports.vio)), 7, by and_intros <;> decide +kernel⟩

theorem test_met_PortKeyAndQueueEventsComplete_7 : ∃ (i : Nat),
    i < 4 :=
  ⟨3, by decide +kernel⟩

theorem test_met_PortKeyAndQueueEventsComplete_8 : ∃ (s : State),
    s.bk.maintFc = 1 :=
  ⟨{ stIn .calm with bk.maintFc := 1 }, by decide +kernel⟩

theorem test_met_PortKeyAndQueueEventsComplete_9 : ∃ (s : State) (what : Nat) (e : Nat),
    running s = true
    ∧ s.p.keys.roll = some (what, e)
    ∧ e ≤ fcNow s :=
  ⟨{ stIn .calm with p.keys.roll := some (3, 0) }, 3, 0, by and_intros <;> decide +kernel⟩

theorem test_met_PortKeyAndQueueEventsComplete_10 : ∃ (s : State) (q : Nat) (w : QEntry) (sp : Bool) (k : QParam),
    qParam q = some k
    ∧ mismatch (queueAt s q k) = false
    ∧ w.sop = true
    ∧ fullFor s q k (queueAt s q k) sp = false
    ∧ w.frameEntries ≤ freeEntries s q (queueAt s q k)
    ∧ w.frameEntries ≠ 0 :=
  ⟨(stIn .calm), 0x40, { sop := true, eop := true, frameEntries := 1 }, false, ((qParam 0x40).get rfl), by and_intros <;> decide +kernel⟩

theorem test_met_PortKeyAndQueueEventsComplete_11 : ∃ (s : State) (q : Nat) (w : QEntry) (sp : Bool) (k : QParam),
    qParam q = some k
    ∧ mismatch (queueAt s q k) = false
    ∧ w.sop = true
    ∧ fullFor s q k (queueAt s q k) sp = true :=
  ⟨{ stIn .calm with queues := [(0x40, { depth := 0 })] }, 0x40, { sop := true, eop := true, frameEntries := 1 }, false, ((qParam 0x40).get rfl), by and_intros <;> decide +kernel⟩

theorem test_met_PortKeyAndQueueEventsComplete_12 : ∃ (s : State) (q : Nat) (k : QParam) (e : QEntry) (rest : List QEntry),
    qParam q = some k
    ∧ mismatch (queueAt s q k) = false
    ∧ (queueAt s q k).entries = e :: rest
    ∧ (queueAt s q k).inHead ≠ 0
    ∧ (((queueAt s q k).dropping || (queueAt s q k).skipToSop) = false ∨ e.sop = true) :=
  ⟨{ stIn .calm with queues := [(0x40, { entries := [{  }], inHead := 1 })] }, 0x40, ((qParam 0x40).get rfl), (({  } : QEntry)), (([] : List QEntry)), by and_intros <;> decide +kernel⟩

theorem test_met_PortKeyAndQueueEventsComplete_13 : ∃ (s : State) (q : Nat) (k : QParam),
    qParam q = some k
    ∧ (queueAt s q k).inFrame = true :=
  ⟨{ stIn .calm with queues := [(0x40, { inFrame := true })] }, 0x40, ((qParam 0x40).get rfl), by and_intros <;> decide +kernel⟩

theorem test_met_PortKeyAndQueueEventsComplete_14 : ∃ (s : State) (q : Nat) (k : QParam),
    qParam q = some k
    ∧ (queueAt s q k).refillPending = true
    ∧ (queueAt s q k).inMid ≠ 0 :=
  ⟨{ stIn .calm with queues := [(0x40, { refillPending := true, inMid := 16 })] }, 0x40, ((qParam 0x40).get rfl), by and_intros <;> decide +kernel⟩

theorem test_met_PortKeyAndQueueEventsComplete_15 : ∃ (q : Nat) (k : QParam),
    qParam q = some k :=
  ⟨0x40, ((qParam 0x40).get rfl), by decide +kernel⟩

theorem test_met_PortKeyAndQueueEventsComplete_16 : ∃ (s : State) (f : MemIn),
    running s = true
    ∧ memUnitOk f = true
    ∧ f.corrected = true
    ∧ f.block ≠ 3 :=
  ⟨(stIn .calm), { memIn0 with corrected := true }, by and_intros <;> decide +kernel⟩

theorem test_met_PortKeyAndQueueEventsComplete_17 : ∃ (s : State) (f : MemIn),
    running s = true
    ∧ memUnitOk f = true
    ∧ f.corrected = false
    ∧ f.block = 1 :=
  ⟨(stIn .calm), { memIn0 with block := 1 }, by and_intros <;> decide +kernel⟩

theorem test_met_PortKeyAndQueueEventsComplete_18 : ∃ (s : State) (f : MemIn),
    running s = true
    ∧ memUnitOk f = true
    ∧ f.corrected = false
    ∧ f.block = 4 :=
  ⟨(stIn .calm), { memIn0 with block := 4 }, by and_intros <;> decide +kernel⟩

/-- A request that meets what every status read asks for. -/
theorem test_met_StatusReadsAnswerAndChangeNothing :
    ∀ op ∈ [0x0101, 0x0102, 0x0122, 0x0143, 0x0201, 0x0211, 0x0301, 0x0401, 0x0501, 0x0802, 0x0832, 0x0903, 0x0A01, 0x0A03, 0x0C01,
        0x0D01, 0x0F01],
      live (stIn .calm) (rq op []) = true ∧ (rq op []).payload = [] ∧ edt (stIn .calm) op = true := by
  decide +kernel

/-! ### Ill-formed commands are refused by the check -/

/-- A request field outside its width (R36, R39, R42, R51). -/
theorem test_illformed_requests :
    ∀ r ∈ ([{ slot := 5 }, { sessionId := 65536 }, { openHost := 65536 }, { addr := 2 ^ 128 }, { udp := 65536 }, { seq := 2 ^ 48 },
        { tag := 65536 }, { opcode := 65536 }, { expect := some (2 ^ 64) }, { accept := 2 ^ 64 }, { payload := zb 1401 }] : List Request),
      (Instr.timeGet r).wf = false := by
  decide +kernel

/-- A datagram, frame or queue entry outside its bounds. -/
theorem test_illformed_frames :
    ∀ c ∈ [Instr.commandReceive { addr := 2 ^ 128 }, .hostCredit { udp := 65536 }, .stopFilter { udp := 65536 } 0,
        .canRx 2 {}, .canRx 0 { id := 2048 }, .canRx 0 { ide := true, id := 2 ^ 29 }, .canRx 0 { data := zb 65 },
        .radioRx { radio := 2 }, .radioRx { slot := 4 }, .queueWrite 0x42 {} false, .queueWrite 0 { data := zb 61 } false,
        .queueWrite 0 { frameEntries := 4096 } false, .queueWrite 0 { data := [] } false, .queueWrite 0 { eop := false, data := zb 59 } false,
        .queueRead 0x0C, .dropRest 0x14, .headRefill 0x2A, .queueFault 0x34 false false],
      c.wf = false := by
  decide +kernel

/-- A unit the RD-824 does not have. -/
theorem test_illformed_units :
    ∀ c ∈ [Instr.windowOverrun 8 .latch, .coreReload 8, .lease 4, .timeTrigger 16 0, .pulseEnd 8 0, .auxInput 8 true 0, .outFault 8 0,
        .acquisitionDone 320 0, .lossOfLock 320 true true 0, .phaseLock 320 0, .bitSynchronisation 320 true, .codeLock 320 0, .antShortRetry 2,
        .syncResp { link := 10 }, .hello { link := 10 }, .report { link := 10 }, .relayAck { link := 10 },
        .relayResend 10, .phyLinkChange 10 true true, .podlDetection 10 10, .podlOverload 10, .podlRestore 10, .faultRetry 10,
        .timeslot 4, .stopFrame 4, .slInput 2 0 0, .slInput 0 2 0, .inputTestPulse 4 [], .inputTestPulse 0 [true], .clockLoss 3 0,
        .channelRejoin 3, .canTxOutcome 2 false 1 none, .busOff 2 true, .busOffRecovery 2, .canWake 2 {}, .canBusError 2 0 0,
        .tamperCheck 4 true 0, .searchResult 4 0, .probe 0 0 0 5, .probe 0 0 5 0, .probe (2 ^ 24) 0 0 0, .ppsIn (2 ^ 40) true true],
      c.wf = false := by
  decide +kernel

/-- Samples and memory faults of units there are not. -/
theorem test_illformed_inputs :
    ∀ c ∈ [Instr.fcBoundary { streams := List.replicate 7 {} }, .fcBoundary { ants := [{}, {}, {}] }, .fcBoundary { podlMa := List.replicate 11 0 },
        .fcBoundary { tloop := 256 }, .safeWindow { tests := [] }, .safeWindow { differs := [] }, .stillComplete { chans := [] },
        .bootRetry { chans := [true] }, .memoryFault { block := 1, unit := 8 }, .memoryFault { block := 2, unit := 5, index := 4096 },
        .memoryFault { block := 3, index := 262144 }, .memoryFault { block := 4, unit := 4 }, .memoryFault { block := 5, unit := 0x42 },
        .memoryFault { block := 7 }],
      c.wf = false := by
  decide +kernel

/-- The opcode table gives no row bits: no word spells a command. -/
theorem test_no_word_is_a_command : decodeTableWord 16 0x0101 = none ∧ State.reset.withFetchWord 16 0x0101 = State.reset := by
  exact ⟨rfl, rfl⟩

/-! ### The worked examples of the specification -/

/-- Zone 0 of the example at the North Barn door (R248). -/
def doorZone : Zone := { kind := 2, aE := -42000, aN := 61500, bE := -42000, bN := 49500, half := 3000 }

/-- The feed wagon is inside the zone with weight 550 (R249). -/
theorem test_blend_weight : inBlend doorZone (-41300) 56100 = true ∧ blendWeight doorZone (-41300) 56100 = 550 := by
  decide +kernel

/-- Its released position is E −41,298, N 56,047, σ 26 (R249). -/
theorem test_blend_position :
    (let q := posBlend State.reset 550 { e := -41312, n := 56030, sigma := 30 } { e := -41280, n := 56068, sigma := 20 } 0
     (q.e, q.n, q.sigma)) = (-41298, 56047, 26) := by
  decide +kernel

/-- The feed pusher of the examples. -/
def pusher : ClassRec :=
  { flags := 1, scale := 1, clear := 1, footprint := 0x01F3E7CF9F00, vmax := 600, amax := 400, dmax := 800, yaw := 4500 }

/-- A run of 8 cells of 250 mm takes 90 slots (R330). -/
theorem test_run_takes_90_slots : runSlots pusher 250 8 0 = 90 := by decide +kernel

/-- Its footprint covers 5 by 5 cells and the ring 24 more (R329, R332). -/
theorem test_pusher_mask : (mask pusher 0).length = 25 ∧ (ringOf pusher (mask pusher 0)).length = 24 := by decide +kernel

/-- The first crossing, 0.791 s after the start, lies in slot 15, which holds two reference cells (R331). -/
theorem test_crossing_slot :
    (runCells pusher 250 8 0 14).length = 1 ∧ (runCells pusher 250 8 0 15).length = 2 ∧ (runCells pusher 250 8 0 16).length = 1 := by
  decide +kernel

/-- The auction of two pushers: 5 takes 417 and 3 takes 418 after three bids (R339). -/
theorem test_auction :
    (let bids : Nat → Bids := fun i => if i = 3 then [(417, 42000), (418, 12000)] else [(417, 37000)]
     let a := auctionLoop bids 256 20 [3, 5] {}
     (a.owner, a.bids, a.price)) = ([(417, 5), (418, 3)], 3, [(417, 37001), (418, 7002)]) := by
  decide +kernel

/-- The vote that falls at PCLK 413,255 has its first stop frame in slot 2 of its FC (R384). -/
theorem test_first_stop_slot : stopSlotAfter { stIn .breeze with clk.fcNumber := 3 } 413255 = 14 := by decide +kernel

/-- A foghorn of PSDU 32 takes 1.76 ms of air (R416). -/
theorem test_foghorn_air : airOf 8 32 = 1760 := by decide +kernel

/-- After manufacture, with no SITE key, STILL ends in TENDER (R110). -/
theorem test_first_boot_ends_in_tender :
    (match exec (.stillComplete {}) State.reset with | .next t => t.mode.cur == .tender && t.clk.firstFc | _ => false) = true := by
  decide +kernel

/-- The front command leaves the queue as it is carried out. -/
theorem test_step_pops :
    step { State.reset with pending := [.leadChange, .powerFail] } = exec .leadChange { State.reset with pending := [.powerFail] } := by
  rfl

/-- The CRC-16 of the journal's check value (polynomial 0x1021, initial value 0xFFFF) over "123456789" is 0x29B1 (R96). -/
theorem test_crc16 : crc16 (ascii "123456789") = 0x29B1 := by decide +kernel

end Sys2Proof.Tests
end

section
/-! PROOFS. What the commands leave alone. A view of the state is a function of it; a function of the model keeps a view when
the view of what it answers is the view of what it was given. One lemma for each function of the model says that it keeps the
view `bedrock` (the queue, the fuses, the MRAM as last persisted, the clock); each follows from those of the functions it
calls. -/

namespace Sys2Proof.Machine

open Sys2Proof

/-! ### Views of the state -/

/-- A fold whose steps each keep a view of the state keeps it. -/
theorem foldl_keeps {α β : Type} (π : State → α) (f : State → β → State) (l : List β) (s : State)
    (h : ∀ u b, π (f u b) = π u) : π (l.foldl f s) = π s := by
  induction l generalizing s with
  | nil => rfl
  | cons b l ih => exact (ih _).trans (h s b)

/-- The same for a fold that carries a value beside the state. -/
theorem foldl_snd_keeps {α β γ : Type} (π : State → γ) (f : α × State → β → α × State) (l : List β) (a : α × State)
    (h : ∀ a b, π (f a b).2 = π a.2) : π (l.foldl f a).2 = π a.2 := by
  induction l generalizing a with
  | nil => rfl
  | cons b l ih => exact (ih _).trans (h a b)

/-- The state of a pair as it is matched. -/
theorem snd_keeps {α γ : Type} {π : State → γ} {p : α × State} {x : α} {s t : State} (h : p = (x, t)) (hp : π p.2 = π s) :
    π t = π s := by
  subst h
  exact hp

theorem ite_eq_of_both {α : Type} {c : Prop} [Decidable c] {x y z : α} (h : x = z) (k : y = z) : (if c then x else y) = z := by
  rw [h, k, ite_self]

/-! ### The bedrock -/

/-- What the commands of a running device leave alone: the queue, the fuses, the MRAM as last persisted, and the clock. -/
def bedrock (s : State) : List Instr × Fuse × Mram × Clock := (s.pending, s.fuse, s.nv, s.clk)

theorem bedrock_mk (pending freeCtr fuse flash p nv bk clk cores mode supply edtor com queues time gnss ref buoy sess strt
    holds allot stop radio can ports sec upd) :
    bedrock (State.mk pending freeCtr fuse flash p nv bk clk cores mode supply edtor com queues time gnss ref buoy sess strt
      holds allot stop radio can ports sec upd) = (pending, fuse, nv, clk) := by unfold bedrock; rfl

theorem bedrock_fold (s : State) : (s.pending, s.fuse, s.nv, s.clk) = bedrock s := by unfold bedrock; rfl

/-! #### Shared operations -/

theorem commit_bedrock (s : State) (kind idx : Nat) : bedrock (commit s kind idx) = bedrock s := by
  simp only [commit, ↓bedrock_mk, ↓bedrock_fold, ↓apply_ite bedrock, ite_self]

theorem commitAll_bedrock (s : State) (objs : List (Nat × Nat)) : bedrock (commitAll s objs) = bedrock s := by
  simp only [commitAll]
  split <;> simp only [↓bedrock_mk, ↓bedrock_fold, ↓apply_ite bedrock, ite_self, ↓commit_bedrock]

theorem commitBy_bedrock (s : State) (origin kind idx : Nat) : bedrock (commitBy s origin kind idx) = bedrock s := by
  simp only [commitBy, ↓bedrock_mk, ↓bedrock_fold, ↓apply_ite bedrock, ite_self, ↓commit_bedrock]

theorem commitAllBy_bedrock (s : State) (origin : Nat) (objs : List (Nat × Nat)) :
    bedrock (commitAllBy s origin objs) = bedrock s := by
  simp only [commitAllBy, ↓bedrock_mk, ↓bedrock_fold, ↓apply_ite bedrock, ite_self, ↓commitAll_bedrock]

theorem submit_bedrock (s : State) (origin kind idx : Nat) : bedrock (submit s origin kind idx) = bedrock s := by
  simp only [submit, ↓bedrock_mk, ↓bedrock_fold]

theorem freshNat_bedrock (s : State) : bedrock (freshNat s).2 = bedrock s := by
  simp only [freshNat, ↓bedrock_mk, ↓bedrock_fold]

theorem freshBytes_bedrock (s : State) (n : Nat) : bedrock (freshBytes s n).2 = bedrock s := by
  simp only [freshBytes, ↓bedrock_mk, ↓bedrock_fold]

theorem raiseAt_bedrock (s : State) (code : Nat) (aud : Audience) (t : Nat) (payload : Bytes) :
    bedrock (raiseAt s code aud t payload) = bedrock s := by
  simp only [raiseAt, ↓bedrock_mk, ↓bedrock_fold]

theorem raise_bedrock (s : State) (code : Nat) (aud : Audience) (payload : Bytes) :
    bedrock (raise s code aud payload) = bedrock s := by
  simp only [raise, ↓raiseAt_bedrock]

theorem raiseLater_bedrock (s : State) (code : Nat) (aud : Audience) (t : Nat) (payload : Bytes) :
    bedrock (raiseLater s code aud t payload) = bedrock s := by
  simp only [raiseLater, ↓bedrock_mk, ↓bedrock_fold]

theorem raiseBy_bedrock (s : State) (r : Request) (code : Nat) (aud : Audience) (payload : Bytes) :
    bedrock (raiseBy s r code aud payload) = bedrock s := by
  simp only [raiseBy, ↓bedrock_mk, ↓bedrock_fold]

theorem modSession_bedrock (s : State) (slot : Nat) (f : Session → Session) : bedrock (modSession s slot f) = bedrock s := by
  simp only [modSession, ↓bedrock_mk, ↓bedrock_fold]

theorem record_bedrock (s : State) (r : Request) (final : Bool) (intr status planned : Nat) :
    bedrock (record s r final intr status planned) = bedrock s := by
  simp only [record, ↓bedrock_mk, ↓bedrock_fold]

theorem raiseWith_bedrock (s : State) (csn : Nat) (tag : Option (Nat × Nat)) (code : Nat) (aud : Audience) (payload : Bytes) :
    bedrock (raiseWith s csn tag code aud payload) = bedrock s := by
  simp only [raiseWith, ↓bedrock_mk, ↓bedrock_fold]

theorem countViol_bedrock (s : State) (slot : Nat) (port : Port) (i : Nat) (executing : Bool) :
    bedrock (countViol s slot port i executing) = bedrock s := by
  simp only [countViol, ↓bedrock_mk, ↓bedrock_fold, ↓modSession_bedrock]

theorem countStatus_bedrock (s : State) (r : Request) (status : Nat) : bedrock (countStatus s r status) = bedrock s := by
  simp only [countStatus]
  split <;> simp only [↓countViol_bedrock]

theorem queueReply_bedrock (s : State) (r : Request) (k : Packet) : bedrock (queueReply s r k) = bedrock s := by
  simp only [queueReply, ↓bedrock_mk, ↓bedrock_fold, ↓apply_ite bedrock, ite_self]

theorem finishI_bedrock (s : State) (r : Request) (intr status : Nat) (payload : Bytes) :
    bedrock (finishI s r intr status payload) = bedrock s := by
  simp only [finishI, ↓apply_ite bedrock, ite_self, ↓countStatus_bedrock, ↓queueReply_bedrock, ↓record_bedrock]

theorem refuseMode_bedrock (s : State) (r : Request) : bedrock (refuseMode s r) = bedrock s := by
  simp only [refuseMode, ↓queueReply_bedrock, ↓record_bedrock]

theorem finish_bedrock (s : State) (r : Request) (status : Nat) (payload : Bytes) :
    bedrock (finish s r status payload) = bedrock s := by
  simp only [finish, ↓finishI_bedrock]

theorem accept_bedrock (s : State) (r : Request) (planned : Nat) (payload : Bytes) :
    bedrock (accept s r planned payload) = bedrock s := by
  simp only [accept, ↓queueReply_bedrock, ↓record_bedrock]

theorem deferred_bedrock (s : State) (r : Request) (payload : Bytes) : bedrock (deferred s r payload) = bedrock s := by
  simp only [deferred, ↓queueReply_bedrock, ↓record_bedrock]

theorem finishFrags_bedrock (s : State) (r : Request) (parts : List Bytes) (perFc : Nat) :
    bedrock (finishFrags s r parts perFc) = bedrock s := by
  simp only [finishFrags, ↓modSession_bedrock, ↓record_bedrock]

theorem checkCsn_bedrock (s : State) (r : Request) (objs : List (Nat × Nat)) (k : State → State) :
    bedrock (checkCsn s r objs k) = if (r.expect.bind fun e => changedSince s e objs).isNone then bedrock (k s)
      else bedrock s := by
  unfold checkCsn
  split
  · next h => simp only [h, Option.bind_none, Option.isNone_none, if_true]
  · next e h =>
    rw [h, Option.bind_some]
    split
    · next h => simp only [h, Option.isNone_none, if_true]
    · next o h => simp only [h, Option.isNone_some, Bool.false_eq_true, if_false, ↓finishI_bedrock]

theorem trigger_bedrock (s : State) (t : Trigger) : bedrock (trigger s t) = bedrock s := by
  simp only [trigger, ↓bedrock_mk, ↓bedrock_fold, ↓apply_ite bedrock, ite_self]

theorem triggerLater_bedrock (s : State) (t : Trigger) : bedrock (triggerLater s t) = bedrock s := by
  simp only [triggerLater, ↓bedrock_mk, ↓bedrock_fold]

/-! #### The shape in which an opcode is executed -/

theorem carry_bedrock (s : State) (r : Request) : bedrock (carry s r) = bedrock s := by
  simp only [carry, ↓bedrock_mk, ↓bedrock_fold, ↓apply_ite bedrock, ite_self]

theorem takeLatched_bedrock (s : State) (r : Request) : bedrock (takeLatched s r) = bedrock s := by
  simp only [takeLatched, ↓bedrock_mk, ↓bedrock_fold]

theorem runOp_bedrock (s : State) (r : Request) (lenOk rsvOk roleOk modeOk : Bool) (body : State → State) :
    bedrock (runOp s r lenOk rsvOk roleOk modeOk body) =
      if live s r && lenOk && rsvOk && roleOk && modeOk then bedrock (body (takeLatched s r)) else bedrock s := by
  simp only [runOp, ↓apply_ite bedrock, ↓carry_bedrock, ↓finish_bedrock]
  cases live s r <;> cases lenOk <;> cases rsvOk <;> cases roleOk <;> cases modeOk <;> rfl

theorem readOp_bedrock (s : State) (r : Request) (opcode : Nat) (reply : State → Bytes) :
    bedrock (readOp s r opcode reply) = bedrock s := by
  simp only [readOp, ite_self, ↓finish_bedrock, ↓runOp_bedrock, ↓takeLatched_bedrock]

theorem need_bedrock (c : Bool) (s : State) (r : Request) (status : Nat) (k : State → State) :
    bedrock (need c s r status k) = if c then bedrock (k s) else bedrock s := by
  simp only [need, ↓apply_ite bedrock, ↓finish_bedrock]

theorem change1_bedrock (s : State) (r : Request) (obj : Nat × Nat) (f : State → State) (reply : State → Bytes) :
    bedrock (change1 s r obj f reply) =
      if (r.expect.bind fun e => changedSince s e [obj]).isNone then bedrock (f (commit s obj.1 obj.2)) else bedrock s := by
  simp only [change1, ↓checkCsn_bedrock, ↓finish_bedrock]

theorem changeAll_bedrock (s : State) (r : Request) (objs : List (Nat × Nat)) (f : State → State) (status : Nat)
    (reply : State → Bytes) :
    bedrock (changeAll s r objs f status reply) =
      if (r.expect.bind fun e => changedSince s e objs).isNone then bedrock (f (commitAll s objs)) else bedrock s := by
  simp only [changeAll, ↓checkCsn_bedrock, ↓finish_bedrock]

/-! #### Air -/

theorem queueMsg_bedrock (s : State) (cls : Nat) (session : Option Nat) (body : Bytes) :
    bedrock (queueMsg s cls session body) = bedrock s := by
  simp only [queueMsg, ↓bedrock_mk, ↓bedrock_fold]

theorem queueFragments_bedrock (s : State) (corr : Bool) (p : Bytes) : bedrock (queueFragments s corr p) = bedrock s := by
  simp only [queueFragments, ↓bedrock_mk, ↓bedrock_fold]

theorem noteSent_bedrock (s : State) (link : Nat) (capture : Counter) : bedrock (noteSent s link capture) = bedrock s := by
  simp only [noteSent, ↓bedrock_mk, ↓bedrock_fold]

/-! #### Modes -/

theorem requestStop_bedrock (s : State) (bit : Nat) : bedrock (requestStop s bit) = bedrock s := by
  simp only [requestStop, ↓bedrock_mk, ↓bedrock_fold]

theorem requestRobotStop_bedrock (s : State) (session cause : Nat) :
    bedrock (requestRobotStop s session cause) = bedrock s := by
  simp only [requestRobotStop, ↓bedrock_mk, ↓bedrock_fold]

theorem decideMode_bedrock (s : State) (target : Mode) (cause : Nat) (csn : Option Nat) (tag : Option (Nat × Nat)) :
    bedrock (decideMode s target cause csn tag) = bedrock s := by
  simp only [decideMode, ↓bedrock_mk, ↓bedrock_fold, ↓apply_ite bedrock, ite_self, ↓requestStop_bedrock]

theorem evaluateTriggers_bedrock (s : State) : bedrock (evaluateTriggers s) = bedrock s := by
  simp only [evaluateTriggers]
  split <;> simp only [↓bedrock_mk, ↓bedrock_fold, ↓apply_ite bedrock, ite_self, ↓decideMode_bedrock]

theorem applyMode_bedrock (s : State) (fc : Nat) : bedrock (applyMode s fc) = bedrock s := by
  simp only [applyMode]
  split <;> simp only [↓bedrock_mk, ↓bedrock_fold, ↓apply_ite bedrock, ite_self]

/-! #### Crypto -/

theorem cacheKey_bedrock (s : State) (entry gen : Nat) : bedrock (cacheKey s entry gen) = bedrock s := by
  simp only [cacheKey, ↓bedrock_mk, ↓bedrock_fold]

/-! #### Journal -/

theorem opJrnlQuery_bedrock (r : Request) (s : State) : bedrock (opJrnlQuery r s) = bedrock s := by
  simp only [opJrnlQuery, ite_self, ↓finish_bedrock, ↓need_bedrock, ↓runOp_bedrock, ↓takeLatched_bedrock]

theorem opJrnlEventRead_bedrock (r : Request) (s : State) : bedrock (opJrnlEventRead r s) = bedrock s := by
  simp only [opJrnlEventRead, ite_self, ↓finish_bedrock, ↓need_bedrock, ↓runOp_bedrock, ↓takeLatched_bedrock]

/-! #### Queues -/

theorem setQueue_bedrock (s : State) (q : Nat) (k : SpillQueue) : bedrock (setQueue s q k) = bedrock s := by
  simp only [setQueue, ↓bedrock_mk, ↓bedrock_fold]

theorem noteOccupancy_bedrock (s : State) (q : Nat) (p : QParam) (before : Nat) :
    bedrock (noteOccupancy s q p before) = bedrock s := by
  simp only [noteOccupancy, ↓apply_ite bedrock, ite_self, ↓raiseLater_bedrock, ↓setQueue_bedrock]

theorem noteOverrun_bedrock (s : State) (q : Nat) (p : QParam) : bedrock (noteOverrun s q p) = bedrock s := by
  simp only [noteOverrun, ↓setQueue_bedrock]

theorem admitFrame_bedrock (s : State) (q : Nat) (special : Bool) : bedrock (admitFrame s q special).2 = bedrock s := by
  simp only [admitFrame]
  (repeat' split) <;> simp only [↓noteOverrun_bedrock]

theorem arrived_bedrock (s : State) (q before : Nat) : bedrock (arrived s q before) = bedrock s := by
  simp only [arrived]
  split <;> simp only [↓noteOccupancy_bedrock]

theorem noteQueue_bedrock (s : State) (q : Nat) : bedrock (noteQueue s q) = bedrock s := by
  simp only [noteQueue]
  split <;> simp only [↓apply_ite bedrock, ite_self, ↓noteOccupancy_bedrock]

theorem noteAll_bedrock (s : State) : bedrock (noteAll s) = bedrock s := by
  simp only [noteAll, ↓foldl_keeps bedrock, implies_true, ↓noteQueue_bedrock]

theorem resetCommandQueue_bedrock (s : State) (slot : Nat) : bedrock (resetCommandQueue s slot) = bedrock s := by
  simp only [resetCommandQueue, ↓bedrock_mk, ↓bedrock_fold]

theorem resetReplyQueue_bedrock (s : State) (slot : Nat) : bedrock (resetReplyQueue s slot) = bedrock s := by
  simp only [resetReplyQueue, ↓modSession_bedrock]

theorem resetEventQueue_bedrock (s : State) (slot : Nat) : bedrock (resetEventQueue s slot) = bedrock s := by
  simp only [resetEventQueue, ↓modSession_bedrock]

theorem resetCanTx_bedrock (s : State) (ch : Nat) : bedrock (resetCanTx s ch) = bedrock s := by
  simp only [resetCanTx, ↓bedrock_mk, ↓bedrock_fold]

theorem discardWork_bedrock (s : State) (q : Nat) : bedrock (discardWork s q) = bedrock s := by
  simp only [discardWork, ↓bedrock_mk, ↓bedrock_fold, ↓apply_ite bedrock, ite_self, ↓resetCanTx_bedrock,
    ↓resetCommandQueue_bedrock, ↓resetEventQueue_bedrock, ↓resetReplyQueue_bedrock]

theorem resetQueue_bedrock (s : State) (q : Nat) (p : QParam) (cause : Nat) (reading : Bool) :
    bedrock (resetQueue s q p cause reading) = bedrock s := by
  simp only [resetQueue, ↓bedrock_mk, ↓bedrock_fold, ↓discardWork_bedrock, ↓raiseLater_bedrock, ↓setQueue_bedrock]

theorem persistBroken_bedrock (s : State) : bedrock (persistBroken s) = bedrock s := by
  simp only [persistBroken, ↓bedrock_mk, ↓bedrock_fold, ↓apply_ite bedrock, ite_self, ↓triggerLater_bedrock]

theorem faultQueue_bedrock (s : State) (q : Nat) (p : QParam) (cause : Nat) (reading : Bool) :
    bedrock (faultQueue s q p cause reading) = bedrock s := by
  simp only [faultQueue, ↓apply_ite bedrock, ite_self, ↓persistBroken_bedrock, ↓resetQueue_bedrock]

theorem writeRest_bedrock (s : State) (q : Nat) (p : QParam) (e : QEntry) (k : SpillQueue) :
    bedrock (writeRest s q p e k) = bedrock s := by
  simp only [writeRest, ↓noteOccupancy_bedrock, ↓setQueue_bedrock]

theorem writeSop_bedrock (s : State) (q : Nat) (p : QParam) (e : QEntry) (special : Bool) (k : SpillQueue) :
    bedrock (writeSop s q p e special k) = bedrock s := by
  simp only [writeSop, ↓apply_ite bedrock, ite_self, ↓noteOccupancy_bedrock, ↓setQueue_bedrock]

theorem writeWord_bedrock (s : State) (q : Nat) (p : QParam) (e : QEntry) (special : Bool) :
    bedrock (writeWord s q p e special) = bedrock s := by
  simp only [writeWord, ↓apply_ite bedrock, ite_self, ↓setQueue_bedrock, ↓writeRest_bedrock, ↓writeSop_bedrock]

theorem opQueueWrite_bedrock (q : Nat) (e : QEntry) (special : Bool) (p : QParam) (s : State) :
    bedrock (opQueueWrite q e special p s) = bedrock s := by
  simp only [opQueueWrite, ↓apply_ite bedrock, ite_self, ↓faultQueue_bedrock, ↓writeWord_bedrock]

theorem opQueueRead_bedrock (q : Nat) (p : QParam) (s : State) : bedrock (opQueueRead q p s) = bedrock s := by
  simp only [opQueueRead]
  (repeat' split) <;> simp only [↓faultQueue_bedrock, ↓noteOccupancy_bedrock, ↓setQueue_bedrock]

theorem opDropRest_bedrock (q : Nat) (p : QParam) (s : State) : bedrock (opDropRest q p s) = bedrock s := by
  simp only [opDropRest, ↓apply_ite bedrock, ite_self, ↓noteOccupancy_bedrock, ↓setQueue_bedrock]

theorem opHeadRefill_bedrock (q : Nat) (p : QParam) (s : State) : bedrock (opHeadRefill q p s) = bedrock s := by
  simp only [opHeadRefill, ↓apply_ite bedrock, ite_self, ↓setQueue_bedrock]

theorem opQueueFault_bedrock (q : Nat) (dram reading : Bool) (p : QParam) (s : State) :
    bedrock (opQueueFault q dram reading p s) = bedrock s := by
  simp only [opQueueFault, ↓faultQueue_bedrock]

/-! #### Ports -/

theorem modIo_bedrock (s : State) (io : Nat) (f : AuxLive → AuxLive) : bedrock (modIo s io f) = bedrock s := by
  simp only [modIo, ↓bedrock_mk, ↓bedrock_fold]

theorem setOut_bedrock (s : State) (io : Nat) (v : Bool) : bedrock (setOut s io v) = bedrock s := by
  simp only [setOut, ↓modIo_bedrock]

theorem applyAuxSet_bedrock (s : State) : bedrock (applyAuxSet s) = bedrock s := by
  simp only [applyAuxSet, ↓bedrock_mk, ↓bedrock_fold]

theorem opAuxInput_bedrock (io : Nat) (level : Bool) (pclk : Nat) (s : State) :
    bedrock (opAuxInput io level pclk s) = bedrock s := by
  simp only [opAuxInput, ↓apply_ite bedrock, ite_self, ↓modIo_bedrock]

theorem opOutFault_bedrock (io pclk : Nat) (s : State) : bedrock (opOutFault io pclk s) = bedrock s := by
  simp only [opOutFault, ↓apply_ite bedrock, ite_self, ↓modIo_bedrock]

theorem opSvcEn_bedrock (active : Bool) (pclk : Nat) (s : State) : bedrock (opSvcEn active pclk s) = bedrock s := by
  simp only [opSvcEn, ↓bedrock_mk, ↓bedrock_fold, ↓apply_ite bedrock, ite_self]

theorem opVioLost_bedrock (present : Bool) (pclk : Nat) (s : State) : bedrock (opVioLost present pclk s) = bedrock s := by
  simp only [opVioLost, ↓bedrock_mk, ↓bedrock_fold, ↓apply_ite bedrock, ite_self]

theorem opPortLink_bedrock (port : Port) (up : Bool) (speed : Nat) (s : State) :
    bedrock (opPortLink port up speed s) = bedrock s := by
  simp only [opPortLink, ↓bedrock_mk, ↓bedrock_fold, ↓apply_ite bedrock, ite_self]

theorem portFrame_bedrock (s : State) (port : Port) : bedrock (portFrame s port).2 = bedrock s := by
  simp only [portFrame]
  split <;> simp only [↓bedrock_mk, ↓bedrock_fold]

theorem portOther_bedrock (s : State) (port : Port) : bedrock (portOther s port) = bedrock s := by
  simp only [portOther, ↓bedrock_mk, ↓bedrock_fold]

theorem opArpNdpEchoRequest_bedrock (port : Port) (kind : HostFrame) (s : State) :
    bedrock (opArpNdpEchoRequest port kind s) = bedrock s := by
  simp only [opArpNdpEchoRequest]
  (repeat' split) <;> simp only [↓bedrock_mk, ↓bedrock_fold, ↓portFrame_bedrock, ↓portOther_bedrock]

theorem latchPorts_bedrock (s : State) : bedrock (latchPorts s) = bedrock s := by
  simp only [latchPorts, ↓bedrock_mk, ↓bedrock_fold]

theorem emitIo_bedrock (s : State) (io : Nat) (x : AuxLive) : bedrock (emitIo s io x) = bedrock s := by
  simp only [emitIo]
  split <;> simp only [↓apply_ite bedrock, ite_self, ↓raiseAt_bedrock]

theorem emitPort_bedrock (s : State) (port : Nat) (x : PortLive) : bedrock (emitPort s port x) = bedrock s := by
  simp only [emitPort, ↓apply_ite bedrock, ite_self, ↓raise_bedrock]

theorem emitPorts_bedrock (s : State) : bedrock (emitPorts s) = bedrock s := by
  simp only [emitPorts]
  (repeat' split) <;> simp only [↓bedrock_mk, ↓bedrock_fold, ↓foldl_keeps bedrock, implies_true, ↓emitIo_bedrock,
    ↓emitPort_bedrock, ↓raiseAt_bedrock]

theorem opSysNetConfig_bedrock (r : Request) (s : State) : bedrock (opSysNetConfig r s) = bedrock s := by
  simp only [opSysNetConfig, ↓bedrock_mk, ↓bedrock_fold, ↓apply_ite bedrock, ite_self, ↓change1_bedrock, ↓finish_bedrock,
    ↓need_bedrock, ↓runOp_bedrock, ↓commit_bedrock, ↓takeLatched_bedrock]

theorem opSysAuxConfig_bedrock (r : Request) (s : State) : bedrock (opSysAuxConfig r s) = bedrock s := by
  simp only [opSysAuxConfig, ↓bedrock_mk, ↓bedrock_fold, ↓apply_ite bedrock, ite_self, ↓change1_bedrock, ↓finish_bedrock,
    ↓need_bedrock, ↓runOp_bedrock, ↓commit_bedrock, ↓takeLatched_bedrock]

theorem opSysAuxSet_bedrock (r : Request) (s : State) : bedrock (opSysAuxSet r s) = bedrock s := by
  simp only [opSysAuxSet, ↓apply_ite bedrock, ite_self, ↓foldl_keeps bedrock, implies_true, ↓finish_bedrock, ↓modIo_bedrock,
    ↓need_bedrock, ↓runOp_bedrock, ↓takeLatched_bedrock]

theorem opSysPortStatus_bedrock (r : Request) (s : State) : bedrock (opSysPortStatus r s) = bedrock s := by
  simp only [opSysPortStatus, ↓readOp_bedrock]

/-! #### Time -/

theorem leaveLocked_bedrock (s : State) : bedrock (leaveLocked s) = bedrock s := by
  simp only [leaveLocked, ↓apply_ite bedrock, ite_self, ↓trigger_bedrock]

theorem loseReference_bedrock (s : State) : bedrock (loseReference s) = bedrock s := by
  simp only [loseReference]
  split <;> simp only [↓bedrock_mk, ↓bedrock_fold, ↓leaveLocked_bedrock]

theorem acquireReference_bedrock (s : State) (ref : Nat) (x : Int) : bedrock (acquireReference s ref x) = bedrock s := by
  simp only [acquireReference, ↓bedrock_mk, ↓bedrock_fold, ↓apply_ite bedrock, ite_self, ↓leaveLocked_bedrock]

theorem selectReference_bedrock (s : State) : bedrock (selectReference s) = bedrock s := by
  simp only [selectReference]
  (repeat' split) <;> simp only [↓acquireReference_bedrock, ↓loseReference_bedrock]

theorem useMeasurement_bedrock (s : State) (x dy : Int) : bedrock (useMeasurement s x dy) = bedrock s := by
  simp only [useMeasurement, ↓bedrock_mk, ↓bedrock_fold, ↓apply_ite bedrock, ite_self]

theorem gnssMeasure_bedrock (s : State) (valid : Bool) (x : Int) (c : Counter) :
    bedrock (gnssMeasure s valid x c) = bedrock s := by
  simp only [gnssMeasure, ↓bedrock_mk, ↓bedrock_fold, ↓apply_ite bedrock, ite_self, ↓selectReference_bedrock,
    ↓useMeasurement_bedrock]

theorem measurePps_bedrock (s : State) (c : Counter) : bedrock (measurePps s c) = bedrock s := by
  simp only [measurePps]
  split <;> simp only [↓bedrock_mk, ↓bedrock_fold, ↓apply_ite bedrock, ite_self, ↓selectReference_bedrock,
    ↓useMeasurement_bedrock]

theorem latchPps_bedrock (s : State) : bedrock (latchPps s) = bedrock s := by
  simp only [latchPps, ↓bedrock_mk, ↓bedrock_fold, ↓foldl_keeps bedrock, implies_true, ↓measurePps_bedrock]

theorem opPpsIn_bedrock (ftu : Nat) (rising wide : Bool) (s : State) : bedrock (opPpsIn ftu rising wide s) = bedrock s := by
  simp only [opPpsIn, ↓bedrock_mk, ↓bedrock_fold, ↓apply_ite bedrock, ite_self]

theorem enterTimeState_bedrock (s : State) : bedrock (enterTimeState s) = bedrock s := by
  simp only [enterTimeState]
  split <;> simp only [↓bedrock_mk, ↓bedrock_fold, ↓apply_ite bedrock, ite_self]

theorem ppsLoss_bedrock (s : State) (now : Nat) : bedrock (ppsLoss s now) = bedrock s := by
  simp only [ppsLoss]
  split <;> simp only [↓bedrock_mk, ↓bedrock_fold, ↓apply_ite bedrock, ite_self]

theorem latchReferences_bedrock (s : State) (b : Counter) : bedrock (latchReferences s b) = bedrock s := by
  simp only [latchReferences, ↓bedrock_mk, ↓bedrock_fold, ↓latchPps_bedrock, ↓ppsLoss_bedrock, ↓selectReference_bedrock]

theorem settleTime_bedrock (s : State) (board : Int) : bedrock (settleTime s board) = bedrock s := by
  simp only [settleTime, ↓bedrock_mk, ↓bedrock_fold]

theorem emitTime_bedrock (s : State) : bedrock (emitTime s) = bedrock s := by
  simp only [emitTime, ↓bedrock_mk, ↓bedrock_fold, ↓apply_ite bedrock, ite_self, ↓raise_bedrock]

theorem requestStep_bedrock (s : State) (q : StepReq) : bedrock (requestStep s q) = bedrock s := by
  simp only [requestStep, ↓bedrock_mk, ↓bedrock_fold]

theorem standingStep_bedrock (s : State) : bedrock (standingStep s) = bedrock s := by
  simp only [standingStep, ↓apply_ite bedrock, ite_self, ↓commitBy_bedrock, ↓raise_bedrock, ↓requestStep_bedrock]

theorem opTimeStep_bedrock (r : Request) (s : State) : bedrock (opTimeStep r s) = bedrock s := by
  simp only [opTimeStep, ite_self, ↓checkCsn_bedrock, ↓commit_bedrock, ↓finish_bedrock, ↓need_bedrock, ↓raiseBy_bedrock,
    ↓requestStep_bedrock, ↓runOp_bedrock, ↓takeLatched_bedrock]

theorem opTimeGet_bedrock (r : Request) (s : State) : bedrock (opTimeGet r s) = bedrock s := by
  simp only [opTimeGet, ↓readOp_bedrock]

theorem opTimeConfig_bedrock (r : Request) (s : State) : bedrock (opTimeConfig r s) = bedrock s := by
  simp only [opTimeConfig, ↓bedrock_mk, ↓bedrock_fold, ↓apply_ite bedrock, ite_self, ↓change1_bedrock, ↓finish_bedrock,
    ↓need_bedrock, ↓runOp_bedrock, ↓commit_bedrock, ↓takeLatched_bedrock]

theorem opPpsOut_bedrock (pclk : Nat) (s : State) : bedrock (opPpsOut pclk s) = bedrock s := by
  simp only [opPpsOut, ↓bedrock_mk, ↓bedrock_fold, ↓apply_ite bedrock, ite_self]

theorem opRtcSet_bedrock (pclk : Nat) (s : State) : bedrock (opRtcSet pclk s) = bedrock s := by
  simp only [opRtcSet, ↓bedrock_mk, ↓bedrock_fold, ↓apply_ite bedrock, ite_self, ↓freshNat_bedrock]

theorem opZda_bedrock (pclk : Nat) (s : State) : bedrock (opZda pclk s) = bedrock s := by
  simp only [opZda, ↓bedrock_mk, ↓bedrock_fold, ↓apply_ite bedrock, ite_self]

theorem triggerAction_bedrock (s : State) (g : TimeTrigger) (c : Counter) : bedrock (triggerAction s g c) = bedrock s := by
  simp only [triggerAction, ↓apply_ite bedrock, ite_self, ↓modIo_bedrock, ↓setOut_bedrock]

theorem fireTrigger_bedrock (s : State) (id : Nat) (g : TimeTrigger) (pclk : Nat) :
    bedrock (fireTrigger s id g pclk) = bedrock s := by
  simp only [fireTrigger, ↓bedrock_mk, ↓bedrock_fold, ↓apply_ite bedrock, ite_self, ↓raiseLater_bedrock, ↓triggerAction_bedrock]

theorem tryFire_bedrock (s : State) (id pclk : Nat) : bedrock (tryFire s id pclk) = bedrock s := by
  simp only [tryFire]
  split <;> simp only [↓apply_ite bedrock, ite_self, ↓fireTrigger_bedrock]

theorem opTimeTrigger_bedrock (id pclk : Nat) (s : State) : bedrock (opTimeTrigger id pclk s) = bedrock s := by
  simp only [opTimeTrigger]
  split <;> simp only [↓apply_ite bedrock, ite_self, ↓foldl_keeps bedrock, implies_true, ↓tryFire_bedrock]

theorem opPulseEnd_bedrock (io pclk : Nat) (s : State) : bedrock (opPulseEnd io pclk s) = bedrock s := by
  simp only [opPulseEnd]
  split <;> simp only [↓apply_ite bedrock, ite_self, ↓modIo_bedrock, ↓setOut_bedrock]

theorem opTimeTriggerSet_bedrock (r : Request) (s : State) : bedrock (opTimeTriggerSet r s) = bedrock s := by
  simp only [opTimeTriggerSet, ↓bedrock_mk, ↓bedrock_fold, ite_self, ↓change1_bedrock, ↓need_bedrock, ↓runOp_bedrock,
    ↓commit_bedrock, ↓takeLatched_bedrock]

theorem opTimeTriggerGet_bedrock (r : Request) (s : State) : bedrock (opTimeTriggerGet r s) = bedrock s := by
  simp only [opTimeTriggerGet, ↓readOp_bedrock]

/-! #### Gnss -/

theorem streamBoundary_bedrock (s : State) (stream : Nat) (i : StreamIn) :
    bedrock (streamBoundary s stream i) = bedrock s := by
  simp only [streamBoundary, ↓bedrock_mk, ↓bedrock_fold, ↓apply_ite bedrock, ite_self, ↓raise_bedrock]

theorem antBoundary_bedrock (s : State) (a : Nat) (i : AntIn) : bedrock (antBoundary s a i) = bedrock s := by
  simp only [antBoundary, ↓bedrock_mk, ↓bedrock_fold, ↓apply_ite bedrock, ite_self, ↓raise_bedrock]

theorem opAntShortRetry_bedrock (ant : Nat) (s : State) : bedrock (opAntShortRetry ant s) = bedrock s := by
  simp only [opAntShortRetry, ↓bedrock_mk, ↓bedrock_fold, ↓apply_ite bedrock, ite_self]

theorem modChan_bedrock (s : State) (c : Nat) (f : Channel → Channel) : bedrock (modChan s c f) = bedrock s := by
  simp only [modChan]
  split <;> simp only [↓bedrock_mk, ↓bedrock_fold]

theorem startSearches_bedrock (s : State) : bedrock (startSearches s) = bedrock s := by
  simp only [startSearches]
  refine (foldl_keeps bedrock _ _ _ fun u b => ?_).trans ?_ <;> simp only [↓apply_ite bedrock]
  (repeat' split) <;> simp only [↓modChan_bedrock]

theorem endSearches_bedrock (s : State) : bedrock (endSearches s) = bedrock s := by
  simp only [endSearches, ↓bedrock_mk, ↓bedrock_fold]

theorem opAcquisitionDone_bedrock (c pclk : Nat) (s : State) : bedrock (opAcquisitionDone c pclk s) = bedrock s := by
  simp only [opAcquisitionDone]
  split <;> simp only [↓bedrock_mk, ↓bedrock_fold, ↓apply_ite bedrock, ite_self, ↓startSearches_bedrock]

theorem opCodeLock_bedrock (c pclk : Nat) (s : State) : bedrock (opCodeLock c pclk s) = bedrock s := by
  simp only [opCodeLock, ↓modChan_bedrock]

theorem opPhaseLock_bedrock (c pclk : Nat) (s : State) : bedrock (opPhaseLock c pclk s) = bedrock s := by
  simp only [opPhaseLock, ↓modChan_bedrock]

theorem opBitSynchronisation_bedrock (c : Nat) (message : Bool) (s : State) :
    bedrock (opBitSynchronisation c message s) = bedrock s := by
  simp only [opBitSynchronisation, ↓modChan_bedrock]

theorem opLossOfLock_bedrock (c : Nat) (code phase : Bool) (pclk : Nat) (s : State) :
    bedrock (opLossOfLock c code phase pclk s) = bedrock s := by
  simp only [opLossOfLock, ↓apply_ite bedrock, ite_self, ↓modChan_bedrock, ↓startSearches_bedrock]

theorem assignChannels_bedrock (s : State) : bedrock (assignChannels s) = bedrock s := by
  simp only [assignChannels]
  split <;> simp only [↓bedrock_mk, ↓bedrock_fold, ↓startSearches_bedrock]

theorem opEpochLatch_bedrock (e : EpochIn) (s : State) : bedrock (opEpochLatch e s) = bedrock s := by
  simp only [opEpochLatch, ↓bedrock_mk, ↓bedrock_fold, ↓apply_ite bedrock, ite_self, ↓assignChannels_bedrock]

theorem gnssBoundary_bedrock (s : State) (streams : List StreamIn) (ants : List AntIn) :
    bedrock (gnssBoundary s streams ants) = bedrock s := by
  simp only [gnssBoundary, ↓bedrock_mk, ↓bedrock_fold, ↓apply_ite bedrock, ite_self, ↓foldl_keeps bedrock, implies_true,
    ↓antBoundary_bedrock, ↓assignChannels_bedrock, ↓endSearches_bedrock, ↓startSearches_bedrock, ↓streamBoundary_bedrock]

theorem opGnssConfig_bedrock (r : Request) (s : State) : bedrock (opGnssConfig r s) = bedrock s := by
  simp only [opGnssConfig, ↓bedrock_mk, ↓bedrock_fold, ↓apply_ite bedrock, ite_self, ↓change1_bedrock, ↓finish_bedrock,
    ↓need_bedrock, ↓runOp_bedrock, ↓commit_bedrock, ↓takeLatched_bedrock]

theorem setCable_bedrock (s : State) (ant d : Nat) : bedrock (setCable s ant d) = bedrock s := by
  simp only [setCable, ↓bedrock_mk, ↓bedrock_fold, ↓apply_ite bedrock, ite_self]

theorem opGnssCalibrate_bedrock (r : Request) (s : State) : bedrock (opGnssCalibrate r s) = bedrock s := by
  simp only [opGnssCalibrate, ↓bedrock_mk, ↓bedrock_fold, ↓apply_ite bedrock, ite_self, ↓accept_bedrock, ↓change1_bedrock,
    ↓need_bedrock, ↓runOp_bedrock, ↓setCable_bedrock, ↓commit_bedrock, ↓takeLatched_bedrock]

theorem opGnssCalibrationDone_bedrock (delay : Option Nat) (align : List Int) (s : State) :
    bedrock (opGnssCalibrationDone delay align s) = bedrock s := by
  simp only [opGnssCalibrationDone]
  (repeat' split) <;> simp only [↓bedrock_mk, ↓bedrock_fold, ite_self, ↓change1_bedrock, ↓finish_bedrock, ↓setCable_bedrock,
    ↓commit_bedrock]

theorem opGnssMeasRead_bedrock (r : Request) (s : State) : bedrock (opGnssMeasRead r s) = bedrock s := by
  simp only [opGnssMeasRead, ↓runOp_bedrock]
  (repeat' split) <;> simp only [↓finish_bedrock, ↓finishFrags_bedrock, ↓takeLatched_bedrock]

theorem opGnssStatus_bedrock (r : Request) (s : State) : bedrock (opGnssStatus r s) = bedrock s := by
  simp only [opGnssStatus, ↓readOp_bedrock]

theorem opGnssNotchSet_bedrock (r : Request) (s : State) : bedrock (opGnssNotchSet r s) = bedrock s := by
  simp only [opGnssNotchSet, ↓bedrock_mk, ↓bedrock_fold, ite_self, ↓change1_bedrock, ↓need_bedrock, ↓runOp_bedrock,
    ↓commit_bedrock, ↓takeLatched_bedrock]

/-! #### Ref -/

theorem crossCheck_bedrock (s : State) (e : Epoch) : bedrock (crossCheck s e) = bedrock s := by
  simp only [crossCheck, ↓bedrock_mk, ↓bedrock_fold]

theorem sendEpoch_bedrock (s : State) (e : Epoch) (ant : Nat) : bedrock (sendEpoch s e ant) = bedrock s := by
  simp only [sendEpoch, ↓bedrock_mk, ↓bedrock_fold, ↓apply_ite bedrock, ite_self]

theorem afterCells_bedrock (s : State) (e : Epoch) (ant : Nat) (sent : List Nat) :
    bedrock (afterCells s e ant sent) = bedrock s := by
  simp only [afterCells, ↓bedrock_mk, ↓bedrock_fold]

theorem correctionEpoch_bedrock (s : State) (e : Epoch) (ant tsol : Nat) :
    bedrock (correctionEpoch s e ant tsol) = bedrock s := by
  simp only [correctionEpoch, ↓bedrock_mk, ↓bedrock_fold, ↓apply_ite bedrock, ite_self, ↓afterCells_bedrock, ↓sendEpoch_bedrock,
    ↓trigger_bedrock]

theorem setBase_bedrock (s : State) (t : Vec) (bl : Option Vec) (reorient : Bool) (base : Nat) :
    bedrock (setBase s t bl reorient base) = bedrock s := by
  simp only [setBase, ↓bedrock_mk, ↓bedrock_fold]

theorem surveyEnd_bedrock (s : State) (v : Survey) (cause : Nat) (bl : Option Vec) :
    bedrock (surveyEnd s v cause bl) = bedrock s := by
  simp only [surveyEnd, ↓bedrock_mk, ↓bedrock_fold, ↓apply_ite bedrock, ite_self, ↓change1_bedrock, ↓finish_bedrock,
    ↓setBase_bedrock, ↓commit_bedrock]

theorem surveyEpoch_bedrock (s : State) (e : Epoch) : bedrock (surveyEpoch s e) = bedrock s := by
  simp only [surveyEpoch]
  split <;> simp only [↓bedrock_mk, ↓bedrock_fold, ↓apply_ite bedrock, ite_self, ↓surveyEnd_bedrock]

theorem solveEpoch_bedrock (s : State) : bedrock (solveEpoch s) = bedrock s := by
  simp only [solveEpoch]
  split <;> simp only [↓bedrock_mk, ↓bedrock_fold, ↓apply_ite bedrock, ite_self, ↓correctionEpoch_bedrock, ↓crossCheck_bedrock,
    ↓gnssMeasure_bedrock, ↓surveyEpoch_bedrock]

theorem refBoundary_bedrock (s : State) (wasA wasB : Nat) : bedrock (refBoundary s wasA wasB) = bedrock s := by
  simp only [refBoundary, ↓bedrock_mk, ↓bedrock_fold]

theorem emitRefState_bedrock (s : State) : bedrock (emitRefState s) = bedrock s := by
  simp only [emitRefState, ↓bedrock_mk, ↓bedrock_fold, ↓apply_ite bedrock, ite_self, ↓raise_bedrock]

theorem emitRtcm_bedrock (s : State) : bedrock (emitRtcm s) = bedrock s := by
  simp only [emitRtcm, ↓bedrock_mk, ↓bedrock_fold, ↓foldl_keeps bedrock, implies_true, ↓raise_bedrock]

theorem siteSent_bedrock (s : State) : bedrock (siteSent s) = bedrock s := by
  simp only [siteSent, ↓bedrock_mk, ↓bedrock_fold]

theorem opRefStatus_bedrock (r : Request) (s : State) : bedrock (opRefStatus r s) = bedrock s := by
  simp only [opRefStatus, ↓readOp_bedrock]

theorem opRefBaseSet_bedrock (r : Request) (s : State) : bedrock (opRefBaseSet r s) = bedrock s := by
  simp only [opRefBaseSet]
  (repeat' split) <;> simp only [↓apply_ite bedrock, ite_self, ↓change1_bedrock, ↓finish_bedrock, ↓need_bedrock,
    ↓refuseMode_bedrock, ↓runOp_bedrock, ↓setBase_bedrock, ↓commit_bedrock, ↓takeLatched_bedrock]

theorem opRefConfig_bedrock (r : Request) (s : State) : bedrock (opRefConfig r s) = bedrock s := by
  simp only [opRefConfig, ↓bedrock_mk, ↓bedrock_fold, ↓apply_ite bedrock, ite_self, ↓change1_bedrock, ↓finish_bedrock,
    ↓need_bedrock, ↓runOp_bedrock, ↓commit_bedrock, ↓takeLatched_bedrock]

theorem opRefSurveyStart_bedrock (r : Request) (s : State) : bedrock (opRefSurveyStart r s) = bedrock s := by
  simp only [opRefSurveyStart, ↓bedrock_mk, ↓bedrock_fold, ite_self, ↓accept_bedrock, ↓need_bedrock, ↓runOp_bedrock,
    ↓takeLatched_bedrock]

theorem subscribeOp_bedrock (r : Request) (s : State) (opcode : Nat) (f : Session → Option Nat → Session) :
    bedrock (subscribeOp r s opcode f) = bedrock s := by
  simp only [subscribeOp, ite_self, ↓change1_bedrock, ↓modSession_bedrock, ↓need_bedrock, ↓runOp_bedrock, ↓commit_bedrock,
    ↓takeLatched_bedrock]

theorem opRefRtcmSubscribe_bedrock (r : Request) (s : State) : bedrock (opRefRtcmSubscribe r s) = bedrock s := by
  simp only [opRefRtcmSubscribe, ↓subscribeOp_bedrock]

/-! #### Buoy -/

theorem modAnchor_bedrock (s : State) (l : Nat) (f : AnchorLive → AnchorLive) : bedrock (modAnchor s l f) = bedrock s := by
  simp only [modAnchor, ↓bedrock_mk, ↓bedrock_fold]

theorem setAnchor_bedrock (s : State) (l : Nat) (st : AnchorState) (cause : Nat) :
    bedrock (setAnchor s l st cause) = bedrock s := by
  simp only [setAnchor, ↓apply_ite bedrock, ite_self, ↓modAnchor_bedrock]

theorem emitAnchors_bedrock (s : State) : bedrock (emitAnchors s) = bedrock s := by
  unfold emitAnchors
  refine foldl_keeps bedrock _ _ _ fun u l => ?_
  dsimp only
  split
  · rfl
  · simp only [↓apply_ite bedrock, ↓raise_bedrock, ↓modAnchor_bedrock, ite_self]

theorem enableLink_bedrock (s : State) (l : Nat) : bedrock (enableLink s l) = bedrock s := by
  simp only [enableLink, ↓apply_ite bedrock, ite_self, ↓modAnchor_bedrock, ↓setAnchor_bedrock]

theorem enableLinks_bedrock (s : State) : bedrock (enableLinks s) = bedrock s := by
  have key : ∀ (l : List Nat) (e : Bool × State), bedrock (l.foldl (fun (e : Bool × State) l =>
      let t := enableLink e.2 l
      let on := (anchorAt t l).podlOn && !(anchorAt e.2 l).podlOn
      if on && e.1 then e else (e.1 || on, t)) e).2 = bedrock e.2 := by
    intro l
    induction l with
    | nil => intro e; rfl
    | cons x l ih =>
      intro e
      refine (ih _).trans ?_
      dsimp only
      split
      · rfl
      · exact enableLink_bedrock e.2 x
  exact key _ _

theorem unpower_bedrock (s : State) (l cause : Nat) : bedrock (unpower s l cause) = bedrock s := by
  simp only [unpower, ↓modAnchor_bedrock, ↓setAnchor_bedrock]

theorem shedLinks_bedrock (s : State) : bedrock (shedLinks s) = bedrock s := by
  simp only [shedLinks, ↓apply_ite bedrock, ite_self, ↓foldl_keeps bedrock, implies_true, ↓modAnchor_bedrock, ↓unpower_bedrock]

theorem keepLinks_bedrock (s : State) : bedrock (keepLinks s) = bedrock s := by
  simp only [keepLinks, ↓apply_ite bedrock, ite_self, ↓foldl_keeps bedrock, implies_true, ↓unpower_bedrock]

theorem opPodlDetection_bedrock (l cls : Nat) (s : State) : bedrock (opPodlDetection l cls s) = bedrock s := by
  simp only [opPodlDetection, ↓apply_ite bedrock, ite_self, ↓modAnchor_bedrock]

theorem captureBuoy_bedrock (s : State) (x : BuoyIn) : bedrock (captureBuoy s x) = bedrock s := by
  simp only [captureBuoy, ↓bedrock_mk, ↓bedrock_fold]

theorem opPodlOverload_bedrock (l : Nat) (s : State) : bedrock (opPodlOverload l s) = bedrock s := by
  simp only [opPodlOverload, ↓apply_ite bedrock, ite_self, ↓captureBuoy_bedrock, ↓modAnchor_bedrock]

theorem opPodlRestore_bedrock (l : Nat) (s : State) : bedrock (opPodlRestore l s) = bedrock s := by
  simp only [opPodlRestore, ↓apply_ite bedrock, ite_self, ↓modAnchor_bedrock]

theorem opFaultRetry_bedrock (l : Nat) (s : State) : bedrock (opFaultRetry l s) = bedrock s := by
  simp only [opFaultRetry]
  split <;> simp only [↓apply_ite bedrock, ite_self, ↓modAnchor_bedrock, ↓setAnchor_bedrock]

theorem opPhyLinkChange_bedrock (l : Nat) (up level24 : Bool) (s : State) :
    bedrock (opPhyLinkChange l up level24 s) = bedrock s := by
  simp only [opPhyLinkChange, ↓apply_ite bedrock, ite_self, ↓captureBuoy_bedrock, ↓modAnchor_bedrock]

theorem takePhy_bedrock (s : State) (l : Nat) (up : Bool) : bedrock (takePhy s l up) = bedrock s := by
  simp only [takePhy, ↓apply_ite bedrock, ite_self, ↓setAnchor_bedrock]

theorem faultAnchor_bedrock (s : State) (l cause : Nat) : bedrock (faultAnchor s l cause) = bedrock s := by
  simp only [faultAnchor, ↓modAnchor_bedrock, ↓setAnchor_bedrock]

theorem anchorMicFail_bedrock (s : State) (l : Nat) : bedrock (anchorMicFail s l) = bedrock s := by
  simp only [anchorMicFail, ↓modAnchor_bedrock]

theorem receiveBuoy_bedrock (f : BuoyFrame) (s : State) : bedrock (receiveBuoy f s) = bedrock s := by
  have hs : bedrock (if isHello f then s else modAnchor s f.link fun a => { a with upCtr := bCtr f }) = bedrock s := by
    simp only [↓apply_ite bedrock, ↓modAnchor_bedrock, ite_self]
  unfold receiveBuoy
  dsimp only
  split
  · rfl
  split
  · exact modAnchor_bedrock ..
  split
  · exact anchorMicFail_bedrock ..
  split
  · exact modAnchor_bedrock ..
  · split <;> next h =>
      have ha := (snd_keeps h (admitFrame_bedrock ..)).trans hs
      simp only [↓arrived_bedrock, ↓captureBuoy_bedrock, ha]

theorem badFrame_bedrock (s : State) (l : Nat) : bedrock (badFrame s l) = bedrock s := by
  simp only [badFrame, ↓modAnchor_bedrock]

theorem takeHello_bedrock (s : State) (f : BuoyFrame) : bedrock (takeHello s f) = bedrock s := by
  simp only [takeHello]
  split <;> simp only [↓bedrock_mk, ↓bedrock_fold, ↓apply_ite bedrock, ite_self, ↓cacheKey_bedrock, ↓modAnchor_bedrock,
    ↓setAnchor_bedrock]

theorem afterExchange_bedrock (s : State) (l : Nat) : bedrock (afterExchange s l) = bedrock s := by
  simp only [afterExchange, ↓apply_ite bedrock, ite_self, ↓setAnchor_bedrock]

theorem takeSyncResp_bedrock (s : State) (f : BuoyFrame) : bedrock (takeSyncResp s f) = bedrock s := by
  simp only [takeSyncResp]
  split <;> simp only [↓apply_ite bedrock, ite_self, ↓afterExchange_bedrock, ↓modAnchor_bedrock]

theorem sendDown_bedrock (s : State) (l btype : Nat) (payload : Bytes) :
    bedrock (sendDown s l btype payload) = bedrock s := by
  simp only [sendDown, ↓bedrock_mk, ↓bedrock_fold, ↓modAnchor_bedrock]

theorem sendDownNow_bedrock (s : State) (l btype : Nat) (payload : Bytes) :
    bedrock (sendDownNow s l btype payload) = bedrock s := by
  simp only [sendDownNow, ↓freshNat_bedrock, ↓noteSent_bedrock, ↓sendDown_bedrock]

theorem linkSchedule_bedrock (s : State) (l : Nat) : bedrock (linkSchedule s l) = bedrock s := by
  simp only [linkSchedule, ↓bedrock_mk, ↓bedrock_fold, ↓apply_ite bedrock, ite_self, ↓modAnchor_bedrock, ↓noteSent_bedrock,
    ↓sendDown_bedrock, ↓sendDownNow_bedrock]

theorem opSyncReq_bedrock (s : State) : bedrock (opSyncReq s) = bedrock s := by
  simp only [opSyncReq, ↓apply_ite bedrock, ite_self, ↓foldl_keeps bedrock, implies_true, ↓linkSchedule_bedrock]

theorem calHeard_bedrock (s : State) (l : Nat) (blinks : List BlinkReport) : bedrock (calHeard s l blinks) = bedrock s := by
  simp only [calHeard, ↓bedrock_mk, ↓bedrock_fold]

theorem takeReport_bedrock (s : State) (f : BuoyFrame) : bedrock (takeReport s f) = bedrock s := by
  simp only [takeReport]
  split <;> simp only [↓bedrock_mk, ↓bedrock_fold, ↓apply_ite bedrock, ite_self, ↓calHeard_bedrock, ↓modAnchor_bedrock]

theorem opReportDeadline_bedrock (fc period : Nat) (s : State) : bedrock (opReportDeadline fc period s) = bedrock s := by
  simp only [opReportDeadline, ↓bedrock_mk, ↓bedrock_fold, ↓apply_ite bedrock, ite_self]

theorem relayData_bedrock (s : State) (l : Nat) : bedrock (relayData s l) = bedrock s := by
  simp only [relayData]
  split <;> simp only [↓foldl_keeps bedrock, implies_true, ↓modAnchor_bedrock, ↓sendDownNow_bedrock]

theorem emitRelays_bedrock (s : State) : bedrock (emitRelays s) = bedrock s := by
  simp only [emitRelays, ↓foldl_keeps bedrock, implies_true, ↓relayData_bedrock]

theorem relayReported_bedrock (s : State) (l rstate : Nat) : bedrock (relayReported s l rstate) = bedrock s := by
  simp only [relayReported, ↓bedrock_mk, ↓bedrock_fold]

theorem takeRelayAck_bedrock (s : State) (f : BuoyFrame) : bedrock (takeRelayAck s f) = bedrock s := by
  simp only [takeRelayAck]
  split <;> simp only [↓apply_ite bedrock, ite_self, ↓modAnchor_bedrock, ↓relayReported_bedrock]

theorem opRelayResend_bedrock (l : Nat) (s : State) : bedrock (opRelayResend l s) = bedrock s := by
  simp only [opRelayResend]
  split <;> simp only [↓apply_ite bedrock, ite_self, ↓modAnchor_bedrock]

theorem finishRelay_bedrock (s : State) : bedrock (finishRelay s) = bedrock s := by
  unfold finishRelay
  split
  · rfl
  · split
    · rfl
    · simp only [↓apply_ite bedrock, ↓changeAll_bedrock, id_eq, ↓commitAll_bedrock, ↓bedrock_mk, ↓bedrock_fold, ite_self]

theorem relayOp_bedrock (r : Request) (s : State) (rsv : Bool) (body : Nat → State → State)
    (h : ∀ u, bedrock (body (fld r.payload 2 2) u) = bedrock u) : bedrock (relayOp r s rsv body) = bedrock s := by
  simp only [relayOp, ↓runOp_bedrock, ↓need_bedrock, ↓takeLatched_bedrock, ↓h, ite_self]

theorem opBuoyRelayStart_bedrock (r : Request) (s : State) : bedrock (opBuoyRelayStart r s) = bedrock s := by
  unfold opBuoyRelayStart
  refine relayOp_bedrock _ _ _ _ fun u => ?_
  dsimp only
  (repeat' split) <;> simp only [↓bedrock_mk, ↓bedrock_fold, ite_self, ↓foldl_keeps bedrock, implies_true, ↓accept_bedrock,
    ↓finish_bedrock, ↓modAnchor_bedrock, ↓need_bedrock, ↓sendDownNow_bedrock]

theorem activateHeads_bedrock (s : State) (mask id t : Nat) : bedrock (activateHeads s mask id t) = bedrock s := by
  simp only [activateHeads, ↓foldl_keeps bedrock, implies_true, ↓modAnchor_bedrock, ↓sendDownNow_bedrock]

theorem opBuoyRelayActivate_bedrock (r : Request) (s : State) : bedrock (opBuoyRelayActivate r s) = bedrock s := by
  simp only [opBuoyRelayActivate, ite_self, implies_true, ↓activateHeads_bedrock, ↓changeAll_bedrock, ↓need_bedrock,
    ↓relayOp_bedrock, ↓commitAll_bedrock]

theorem abortStart_bedrock (s : State) (mask : Nat) : bedrock (abortStart s mask) = bedrock s := by
  simp only [abortStart]
  split <;> simp only [↓bedrock_mk, ↓bedrock_fold, ↓apply_ite bedrock, ite_self, ↓finish_bedrock]

theorem opBuoyRelayAbort_bedrock (r : Request) (s : State) : bedrock (opBuoyRelayAbort r s) = bedrock s := by
  simp only [opBuoyRelayAbort, ite_self, ↓foldl_keeps bedrock, implies_true, ↓abortStart_bedrock, ↓checkCsn_bedrock,
    ↓commitAll_bedrock, ↓finish_bedrock, ↓modAnchor_bedrock, ↓relayOp_bedrock, ↓sendDownNow_bedrock]

theorem takeFrame_bedrock (s : State) (f : BuoyFrame) : bedrock (takeFrame s f) = bedrock s := by
  simp only [takeFrame]
  split <;> simp only [↓apply_ite bedrock, ite_self, ↓badFrame_bedrock, ↓takeHello_bedrock, ↓takeRelayAck_bedrock,
    ↓takeReport_bedrock, ↓takeSyncResp_bedrock]

theorem latchOne_bedrock (s : State) (x : BuoyIn) : bedrock (latchOne s x) = bedrock s := by
  simp only [latchOne]
  split <;> simp only [↓faultAnchor_bedrock, ↓takeFrame_bedrock, ↓takePhy_bedrock]

theorem micFault_bedrock (s : State) (l : Nat) : bedrock (micFault s l) = bedrock s := by
  simp only [micFault, ↓apply_ite bedrock, ite_self, ↓faultAnchor_bedrock]

theorem latchBuoy_bedrock (s : State) : bedrock (latchBuoy s) = bedrock s := by
  simp only [latchBuoy, ↓bedrock_mk, ↓bedrock_fold, ↓apply_ite bedrock, ite_self, ↓foldl_keeps bedrock, implies_true,
    ↓latchOne_bedrock, ↓micFault_bedrock]

theorem missedExchange_bedrock (s : State) (l : Nat) : bedrock (missedExchange s l) = bedrock s := by
  simp only [missedExchange, ↓apply_ite bedrock, ite_self, ↓modAnchor_bedrock, ↓setAnchor_bedrock]

theorem ctxActs_bedrock (s : State) (l : Nat) : bedrock (ctxActs s l) = bedrock s := by
  simp only [ctxActs]
  (repeat' split) <;> simp only [↓setAnchor_bedrock, ↓unpower_bedrock]

theorem ctxBoundary_bedrock (s : State) : bedrock (ctxBoundary s) = bedrock s := by
  simp only [ctxBoundary, ↓bedrock_mk, ↓bedrock_fold, ↓foldl_keeps bedrock, implies_true, ↓ctxActs_bedrock]

theorem activateBoundary_bedrock (s : State) (l : Nat) : bedrock (activateBoundary s l) = bedrock s := by
  simp only [activateBoundary]
  split <;> simp only [↓apply_ite bedrock, ite_self, ↓modAnchor_bedrock, ↓setAnchor_bedrock]

theorem pruneUwb_bedrock (s : State) : bedrock (pruneUwb s) = bedrock s := by
  simp only [pruneUwb, ↓bedrock_mk, ↓bedrock_fold]

theorem buoyBoundary_bedrock (s : State) (tAmb : Int) (podlMa : List Nat) :
    bedrock (buoyBoundary s tAmb podlMa) = bedrock s := by
  simp only [buoyBoundary, ↓bedrock_mk, ↓bedrock_fold, ↓apply_ite bedrock, ite_self, ↓foldl_keeps bedrock, implies_true,
    ↓activateBoundary_bedrock, ↓ctxBoundary_bedrock, ↓enableLinks_bedrock, ↓keepLinks_bedrock, ↓latchBuoy_bedrock,
    ↓missedExchange_bedrock, ↓pruneUwb_bedrock, ↓shedLinks_bedrock]

theorem setZone_bedrock (s : State) (z : Nat) (v : Zone) : bedrock (setZone s z v) = bedrock s := by
  simp only [setZone, ↓bedrock_mk, ↓bedrock_fold]

theorem opBuoyZoneSet_bedrock (r : Request) (s : State) : bedrock (opBuoyZoneSet r s) = bedrock s := by
  simp only [opBuoyZoneSet, ↓apply_ite bedrock, ite_self, ↓change1_bedrock, ↓finish_bedrock, ↓need_bedrock, ↓runOp_bedrock,
    ↓setZone_bedrock, ↓commit_bedrock, ↓takeLatched_bedrock]

theorem zonesBoundary_bedrock (s : State) : bedrock (zonesBoundary s) = bedrock s := by
  simp only [zonesBoundary]
  split <;> simp only [↓bedrock_mk, ↓bedrock_fold]

theorem assignBlinks_bedrock (s : State) (i t : Nat) (was : List (Nat × Nat × Nat)) :
    bedrock (assignBlinks s i t was) = bedrock s := by
  simp only [assignBlinks]
  split <;> simp only [↓bedrock_mk, ↓bedrock_fold, ↓queueMsg_bedrock]

theorem reassignBlinks_bedrock (s : State) : bedrock (reassignBlinks s) = bedrock s := by
  simp only [reassignBlinks, ↓bedrock_mk, ↓bedrock_fold, ↓foldl_keeps bedrock, implies_true, ↓assignBlinks_bedrock]

theorem opBuoyStatus_bedrock (r : Request) (s : State) : bedrock (opBuoyStatus r s) = bedrock s := by
  simp only [opBuoyStatus, ↓readOp_bedrock]

theorem applyBuoyCfg_bedrock (s : State) (c : BuoyConfig) : bedrock (applyBuoyCfg s c) = bedrock s := by
  simp only [applyBuoyCfg, ↓bedrock_mk, ↓bedrock_fold, ↓apply_ite bedrock, ite_self, ↓reassignBlinks_bedrock]

theorem opBuoyConfig_bedrock (r : Request) (s : State) : bedrock (opBuoyConfig r s) = bedrock s := by
  simp only [opBuoyConfig, ↓apply_ite bedrock, ite_self, ↓applyBuoyCfg_bedrock, ↓change1_bedrock, ↓finish_bedrock, ↓need_bedrock,
    ↓runOp_bedrock, ↓commit_bedrock, ↓takeLatched_bedrock]

theorem setContext_bedrock (s : State) (l : Nat) (c : AnchorRec) : bedrock (setContext s l c) = bedrock s := by
  simp only [setContext, ↓bedrock_mk, ↓bedrock_fold]

theorem opBuoyAnchorSet_bedrock (r : Request) (s : State) : bedrock (opBuoyAnchorSet r s) = bedrock s := by
  simp only [opBuoyAnchorSet, ite_self, ↓change1_bedrock, ↓need_bedrock, ↓runOp_bedrock, ↓setContext_bedrock, ↓commit_bedrock,
    ↓takeLatched_bedrock]

theorem startCal_bedrock (s : State) (who : List Nat) : bedrock (startCal s who) = bedrock s := by
  simp only [startCal, ↓foldl_keeps bedrock, implies_true, ↓sendDownNow_bedrock]

theorem opBuoyCalibrate_bedrock (r : Request) (s : State) : bedrock (opBuoyCalibrate r s) = bedrock s := by
  simp only [opBuoyCalibrate, ↓bedrock_mk, ↓bedrock_fold, ite_self, ↓accept_bedrock, ↓need_bedrock, ↓runOp_bedrock,
    ↓startCal_bedrock, ↓takeLatched_bedrock]

theorem opBuoyCalibrationDone_bedrock (fits : List CalFit) (s : State) :
    bedrock (opBuoyCalibrationDone fits s) = bedrock s := by
  simp only [opBuoyCalibrationDone]
  split <;> simp only [↓bedrock_mk, ↓bedrock_fold, ↓apply_ite bedrock, ite_self, ↓foldl_keeps bedrock, implies_true,
    ↓changeAll_bedrock, ↓finish_bedrock, ↓setContext_bedrock, ↓commitAll_bedrock]

theorem opBuoyFixSubscribe_bedrock (r : Request) (s : State) : bedrock (opBuoyFixSubscribe r s) = bedrock s := by
  simp only [opBuoyFixSubscribe, ↓subscribeOp_bedrock]

/-! #### Tdoa -/

theorem modRobot_bedrock (s : State) (i : Nat) (f : Robot → Robot) : bedrock (modRobot s i f) = bedrock s := by
  simp only [modRobot, ↓bedrock_mk, ↓bedrock_fold]

theorem countReject_bedrock (s : State) (i n : Nat) : bedrock (countReject s i n) = bedrock s := by
  simp only [countReject, ↓bedrock_mk, ↓bedrock_fold]

theorem openFix_bedrock (s : State) (i : Nat) (used : List BlinkReport) (flags group : Nat) :
    bedrock (openFix s i used flags group).2 = bedrock s := by
  simp only [openFix, ↓freshNat_bedrock]

theorem releaseFix_bedrock (s : State) (i : Nat) (used : List BlinkReport) (v : Option TdoaSol) (flags group : Nat) :
    bedrock (releaseFix s i used v flags group).2 = bedrock s := by
  simp only [releaseFix]
  split <;> simp only [↓openFix_bedrock]

theorem solveFor_bedrock (s : State) (i : Nat) (l : List BlinkReport) (deadline : Bool) :
    bedrock (solveFor s i l deadline).2 = bedrock s := by
  simp only [solveFor]
  (repeat' split) <;> simp only [↓openFix_bedrock, ↓releaseFix_bedrock]

theorem enterFix_bedrock (s : State) (f : Fix) : bedrock (enterFix s f) = bedrock s := by
  simp only [enterFix, ↓bedrock_mk, ↓bedrock_fold, ↓apply_ite bedrock, ite_self, ↓modRobot_bedrock]

theorem takeGroup_bedrock (s : State) (h : BlinkReport) : bedrock (takeGroup s h) = bedrock s := by
  simp only [takeGroup]
  (repeat' split) <;> simp only [↓bedrock_mk, ↓bedrock_fold, ↓countReject_bedrock, ↓enterFix_bedrock, ↓modRobot_bedrock,
    ↓solveFor_bedrock]

theorem solveBlinks_bedrock (s : State) : bedrock (solveBlinks s) = bedrock s := by
  simp only [solveBlinks, ↓foldl_keeps bedrock, implies_true, ↓takeGroup_bedrock]

theorem prunePeriods_bedrock (s : State) : bedrock (prunePeriods s) = bedrock s := by
  simp only [prunePeriods, ↓bedrock_mk, ↓bedrock_fold]

theorem selectPos_bedrock (s : State) (x : Robot) : bedrock (selectPos s x).2 = bedrock s := by
  simp only [selectPos]
  (repeat' split) <;> simp only [↓freshNat_bedrock]

theorem releasePos_bedrock (s : State) (i : Nat) : bedrock (releasePos s i) = bedrock s := by
  simp only [releasePos, ↓modRobot_bedrock, ↓selectPos_bedrock]

theorem releasePositions_bedrock (s : State) : bedrock (releasePositions s) = bedrock s := by
  simp only [releasePositions, ↓foldl_keeps bedrock, implies_true, ↓releasePos_bedrock]

theorem emitFixes_bedrock (s : State) : bedrock (emitFixes s) = bedrock s := by
  simp only [emitFixes, ↓bedrock_mk, ↓bedrock_fold, ↓apply_ite bedrock, ite_self, ↓foldl_keeps bedrock, implies_true,
    ↓queueMsg_bedrock, ↓raise_bedrock]

theorem emitBlinkRejects_bedrock (s : State) : bedrock (emitBlinkRejects s) = bedrock s := by
  simp only [emitBlinkRejects, ↓bedrock_mk, ↓bedrock_fold, ↓apply_ite bedrock, ite_self, ↓raise_bedrock]

/-! #### Strt -/

theorem strtAlarm_bedrock (s : State) (cause owner kind index : Nat) :
    bedrock (strtAlarm s cause owner kind index) = bedrock s := by
  simp only [strtAlarm, ↓bedrock_mk, ↓bedrock_fold]

theorem detectWay_bedrock (s : State) (i : Nat) : bedrock (detectWay s i) = bedrock s := by
  simp only [detectWay, ↓bedrock_mk, ↓bedrock_fold, ↓apply_ite bedrock, ite_self, ↓strtAlarm_bedrock]

theorem detectKeys_bedrock (s : State) (keys : List Key) : bedrock (detectKeys s keys) = bedrock s := by
  simp only [detectKeys, ↓apply_ite bedrock, ite_self, ↓foldl_keeps bedrock, implies_true, ↓detectWay_bedrock]

theorem noteFill_bedrock (s : State) : bedrock (noteFill s) = bedrock s := by
  simp only [noteFill, ↓bedrock_mk, ↓bedrock_fold, ↓apply_ite bedrock, ite_self, ↓strtAlarm_bedrock]

theorem chainFailed_bedrock (s : State) (k : Key) : bedrock (chainFailed s k) = bedrock s := by
  simp only [chainFailed, ↓bedrock_mk, ↓bedrock_fold, ↓strtAlarm_bedrock]

theorem reserve_bedrock (s : State) (keys : List Key) : bedrock (reserve s keys).2 = bedrock s := by
  simp only [reserve]
  (repeat' split) <;> simp only [↓bedrock_mk, ↓bedrock_fold, ↓chainFailed_bedrock, ↓detectKeys_bedrock, ↓noteFill_bedrock]

theorem removeKey_bedrock (s : State) (k : Key) : bedrock (removeKey s k) = bedrock s := by
  unfold removeKey
  split
  · simp only [↓apply_ite bedrock, ↓bedrock_mk, ↓bedrock_fold, ite_self]
  · rfl

theorem removeKeys_bedrock (s : State) (keys : List Key) : bedrock (removeKeys s keys) = bedrock s := by
  simp only [removeKeys, ↓bedrock_mk, ↓bedrock_fold, ↓foldl_keeps bedrock, implies_true, ↓detectKeys_bedrock,
    ↓removeKey_bedrock]

theorem removeTimed_bedrock (s : State) (owner : Nat) (f : BitVec 64 → Bool) :
    bedrock (removeTimed s owner f) = bedrock s := by
  simp only [removeTimed, ↓bedrock_mk, ↓bedrock_fold]

theorem putHold_bedrock (s : State) (n : Nat) (h : HoldRec) : bedrock (putHold s n h) = bedrock s := by
  simp only [putHold, ↓bedrock_mk, ↓bedrock_fold]

theorem dropHold_bedrock (s : State) (n : Nat) : bedrock (dropHold s n) = bedrock s := by
  simp only [dropHold, ↓bedrock_mk, ↓bedrock_fold]

theorem lockCells_bedrock (s : State) (h : HoldRec) (cells : List Nat) : bedrock (lockCells s h cells).2 = bedrock s := by
  unfold lockCells
  refine foldl_snd_keeps bedrock _ _ (h, s) fun a c => ?_
  dsimp only
  split
  · split <;> next hr => exact snd_keeps hr (reserve_bedrock ..)
  · rfl

theorem makeStanding_bedrock (s : State) (h : HoldRec) : bedrock (makeStanding s h).2 = bedrock s := by
  unfold makeStanding
  dsimp only
  split
  · next hr => exact snd_keeps hr (reserve_bedrock ..)
  · next hr =>
    have ht := snd_keeps hr (reserve_bedrock ..)
    split
    · exact (lockCells_bedrock ..).trans ht
    · exact ht

theorem dwellRemoved_bedrock (s : State) (cells : List Nat) : bedrock (dwellRemoved s cells) = bedrock s := by
  simp only [dwellRemoved, ↓apply_ite bedrock, ite_self, ↓foldl_keeps bedrock, implies_true, ↓lockCells_bedrock,
    ↓putHold_bedrock, ↓raise_bedrock]

theorem removeDwell_bedrock (s : State) (owner : Nat) (cells : List Nat) :
    bedrock (removeDwell s owner cells) = bedrock s := by
  simp only [removeDwell, ↓apply_ite bedrock, ite_self, ↓dwellRemoved_bedrock, ↓removeKeys_bedrock]

theorem unlockHold_bedrock (s : State) (h : HoldRec) : bedrock (unlockHold s h) = bedrock s := by
  simp only [unlockHold, ↓bedrock_mk, ↓bedrock_fold, ↓apply_ite bedrock, ite_self, ↓removeKeys_bedrock]

theorem makeLostHold_bedrock (s : State) (session : Nat) (cells : List Nat) :
    bedrock (makeLostHold s session cells) = bedrock s := by
  unfold makeLostHold
  have hs : bedrock (match tget s.holds (256 + session) with
      | some h => dropHold (unlockHold s h) (256 + session) | none => s) = bedrock s := by
    split
    · exact (dropHold_bedrock ..).trans (unlockHold_bedrock ..)
    · rfl
  dsimp only
  split <;> next hm =>
    have ht := (snd_keeps hm (makeStanding_bedrock ..)).trans hs
    simp only [↓raise_bedrock, ↓commitBy_bedrock, ↓putHold_bedrock, ht]

theorem removeHold_bedrock (s : State) (r : Request) (n : Nat) : bedrock (removeHold s r n) = bedrock s := by
  simp only [removeHold]
  split <;> simp only [↓dropHold_bedrock, ↓raiseBy_bedrock, ↓unlockHold_bedrock]

theorem retryHolds_bedrock (s : State) : bedrock (retryHolds s) = bedrock s := by
  simp only [retryHolds, ↓apply_ite bedrock, ite_self, ↓foldl_keeps bedrock, implies_true, ↓lockCells_bedrock, ↓putHold_bedrock,
    ↓raise_bedrock]

theorem expireHolds_bedrock (s : State) : bedrock (expireHolds s) = bedrock s := by
  simp only [expireHolds, ↓foldl_keeps bedrock, implies_true, ↓commitBy_bedrock, ↓dropHold_bedrock, ↓raise_bedrock]

theorem freeUnlocked_bedrock (s : State) : bedrock (freeUnlocked s) = bedrock s := by
  simp only [freeUnlocked, ↓bedrock_mk, ↓bedrock_fold, ↓apply_ite bedrock, ite_self, ↓dwellRemoved_bedrock]

theorem dwellUnwritten_bedrock (s : State) (session : Nat) : bedrock (dwellUnwritten s session) = bedrock s := by
  simp only [dwellUnwritten, ↓requestRobotStop_bedrock]

theorem reassert_bedrock (s : State) : bedrock (reassert s) = bedrock s := by
  unfold reassert
  split
  · rfl
  · refine (noteFill_bedrock _).trans ((foldl_keeps bedrock _ _ _ fun u c => ?_).trans (foldl_keeps bedrock _ _ _ fun u e => ?_))
    · dsimp only
      split
      · rfl
      · exact chainFailed_bedrock ..
    · refine foldl_keeps bedrock _ _ _ fun v c => ?_
      dsimp only
      cases insertEntry v.strt.ways (entry c 0 e.1 kDwell (fcNow v % 4096) false) with
      | some t => rfl
      | none => exact (dwellUnwritten_bedrock ..).trans (chainFailed_bedrock ..)

theorem refreshDwells_bedrock (s : State) : bedrock (refreshDwells s) = bedrock s := by
  simp only [refreshDwells, ↓bedrock_mk, ↓bedrock_fold, ↓foldl_keeps bedrock, implies_true, ↓removeDwell_bedrock]

theorem restoreHolds_bedrock (s : State) : bedrock (restoreHolds s) = bedrock s := by
  unfold restoreHolds
  refine (foldl_keeps bedrock _ _ _ fun u e => ?_).trans rfl
  dsimp only
  split <;> next hm =>
    have ht := snd_keeps hm (makeStanding_bedrock ..)
    simp only [↓raise_bedrock, ↓putHold_bedrock, ht]

theorem emitStrt_bedrock (s : State) : bedrock (emitStrt s) = bedrock s := by
  simp only [emitStrt, ↓bedrock_mk, ↓bedrock_fold, ↓foldl_keeps bedrock, implies_true, ↓raise_bedrock]

theorem opProbe_bedrock (cell slot kind : Nat) (s : State) : bedrock (opProbe cell slot kind s) = bedrock s := by
  simp only [opProbe, ↓bedrock_mk, ↓bedrock_fold, ↓apply_ite bedrock, ite_self, ↓detectKeys_bedrock]

theorem activateHolds_bedrock (s : State) : bedrock (activateHolds s) = bedrock s := by
  simp only [activateHolds, ↓foldl_keeps bedrock, implies_true, ↓putHold_bedrock, ↓raise_bedrock]

theorem opExpirySweep_bedrock (s : State) : bedrock (opExpirySweep s) = bedrock s := by
  simp only [opExpirySweep, ↓bedrock_mk, ↓bedrock_fold, ↓apply_ite bedrock, ite_self, ↓foldl_keeps bedrock, implies_true,
    ↓activateHolds_bedrock, ↓detectWay_bedrock, ↓strtAlarm_bedrock]

theorem opStrtGridSet_bedrock (r : Request) (s : State) : bedrock (opStrtGridSet r s) = bedrock s := by
  simp only [opStrtGridSet, ↓bedrock_mk, ↓bedrock_fold, ↓apply_ite bedrock, ite_self, ↓change1_bedrock, ↓finish_bedrock,
    ↓need_bedrock, ↓runOp_bedrock, ↓commit_bedrock, ↓takeLatched_bedrock]

theorem opStrtStatus_bedrock (r : Request) (s : State) : bedrock (opStrtStatus r s) = bedrock s := by
  simp only [opStrtStatus, ↓readOp_bedrock]

theorem withHold_bedrock (s : State) (r : Request) (h : Nat) (k : Nat → State → State)
    (hk : ∀ n u, bedrock (k n u) = bedrock u) : bedrock (withHold s r h k) = bedrock s := by
  unfold withHold
  split <;> simp only [↓finish_bedrock, ↓need_bedrock, ↓hk, ite_self]

theorem opStrtHoldSet_bedrock (r : Request) (s : State) : bedrock (opStrtHoldSet r s) = bedrock s := by
  unfold opStrtHoldSet
  dsimp only
  split
  · rfl
  · rw [runOp_bedrock]
    simp only [↓need_bedrock]
    rw [withHold_bedrock]
    · simp only [↓bedrock_mk, ↓bedrock_fold, ↓takeLatched_bedrock, ite_self]
    · intro n u
      simp only [↓need_bedrock, ↓checkCsn_bedrock]
      split
      · split
        · split
          · split <;> next hm =>
              have ht := snd_keeps hm (makeStanding_bedrock ..)
              simp only [↓finish_bedrock, ↓raiseBy_bedrock, ↓putHold_bedrock, ↓commit_bedrock, ht]
          · next hr => exact (finish_bedrock ..).trans (snd_keeps hr (reserve_bedrock ..))
        · rfl
      · rfl

theorem opStrtHoldClear_bedrock (r : Request) (s : State) : bedrock (opStrtHoldClear r s) = bedrock s := by
  simp only [opStrtHoldClear, ite_self, ↓change1_bedrock, ↓need_bedrock, ↓removeHold_bedrock, ↓runOp_bedrock, ↓commit_bedrock,
    ↓takeLatched_bedrock]

theorem opStrtHoldList_bedrock (r : Request) (s : State) : bedrock (opStrtHoldList r s) = bedrock s := by
  simp only [opStrtHoldList, ↓apply_ite bedrock, ite_self, ↓finish_bedrock, ↓finishFrags_bedrock, ↓runOp_bedrock,
    ↓takeLatched_bedrock]

theorem opStrtReservePath_bedrock (r : Request) (s : State) : bedrock (opStrtReservePath r s) = bedrock s := by
  simp only [opStrtReservePath, ↓runOp_bedrock, ↓need_bedrock]
  refine ite_eq_of_both (ite_eq_of_both (ite_eq_of_both (ite_eq_of_both (ite_eq_of_both ?_ rfl) rfl) rfl) rfl) rfl
  split
  · exact (finish_bedrock ..).trans (takeLatched_bedrock ..)
  · simp only [↓checkCsn_bedrock]
    refine ite_eq_of_both ?_ (takeLatched_bedrock ..)
    split <;> next hr =>
      have ht := (snd_keeps hr (reserve_bedrock ..)).trans (takeLatched_bedrock s r)
      simp only [↓finish_bedrock, ↓raiseBy_bedrock, ↓putHold_bedrock, ↓commit_bedrock, ht]

/-! #### Task -/

theorem putTask_bedrock (s : State) (j : Nat) (t : Task) : bedrock (putTask s j t) = bedrock s := by
  simp only [putTask, ↓bedrock_mk, ↓bedrock_fold]

theorem moveTask_bedrock (s : State) (j : Nat) (new : TaskState) (cause : Nat) (f : Task → Task) :
    bedrock (moveTask s j new cause f) = bedrock s := by
  simp only [moveTask, ↓apply_ite bedrock, ite_self, ↓commitBy_bedrock, ↓putTask_bedrock, ↓raise_bedrock]

theorem moveTaskBy_bedrock (s : State) (r : Request) (j : Nat) (new : TaskState) (cause : Nat) (t : Task) :
    bedrock (moveTaskBy s r j new cause t) = bedrock s := by
  simp only [moveTaskBy, ↓commit_bedrock, ↓putTask_bedrock, ↓raiseBy_bedrock]

theorem postOne_bedrock (s : State) (q : PostRun) : bedrock (postOne s q).2 = bedrock s := by
  simp only [postOne]
  split <;> simp only [↓moveTaskBy_bedrock]

theorem postSome_bedrock (n : Nat) (q : PostRun) (s : State) : bedrock (postSome n q s).2.1 = bedrock s := by
  induction n generalizing q s with
  | zero => rfl
  | succ n ih =>
    simp only [postSome]
    split
    · rfl
    · split
      · rfl
      · exact (ih _ _).trans (postOne_bedrock s q)

theorem postFc_bedrock (s : State) (q : PostRun) : bedrock (postFc s q) = bedrock s := by
  simp only [postFc]
  split <;> simp only [↓bedrock_mk, ↓bedrock_fold, ↓apply_ite bedrock, ite_self, ↓accept_bedrock, ↓finish_bedrock,
    ↓finishI_bedrock, ↓postSome_bedrock, ↓record_bedrock]

theorem postEnd_bedrock (s : State) (q : PostRun) : bedrock (postEnd s q) = bedrock s := by
  simp only [postEnd, ↓apply_ite bedrock, ite_self, ↓finishI_bedrock]

theorem stepPosts_bedrock (s : State) : bedrock (stepPosts s) = bedrock s := by
  simp only [stepPosts, ↓bedrock_mk, ↓bedrock_fold, ↓apply_ite bedrock, ite_self, ↓foldl_keeps bedrock, implies_true,
    ↓postEnd_bedrock, ↓postFc_bedrock]

theorem opTaskPost_bedrock (r : Request) (s : State) : bedrock (opTaskPost r s) = bedrock s := by
  simp only [opTaskPost, ↓need_bedrock, ↓runOp_bedrock]
  (repeat' split) <;> simp only [ite_self, ↓finish_bedrock, ↓need_bedrock, ↓postFc_bedrock, ↓takeLatched_bedrock]

theorem opTaskModify_bedrock (r : Request) (s : State) : bedrock (opTaskModify r s) = bedrock s := by
  simp only [opTaskModify, ite_self, ↓change1_bedrock, ↓need_bedrock, ↓putTask_bedrock, ↓runOp_bedrock, ↓commit_bedrock,
    ↓takeLatched_bedrock]

theorem opTaskGet_bedrock (r : Request) (s : State) : bedrock (opTaskGet r s) = bedrock s := by
  simp only [opTaskGet, ite_self, ↓finish_bedrock, ↓need_bedrock, ↓runOp_bedrock, ↓takeLatched_bedrock]

theorem opTaskList_bedrock (r : Request) (s : State) : bedrock (opTaskList r s) = bedrock s := by
  simp only [opTaskList, ↓apply_ite bedrock, ite_self, ↓finish_bedrock, ↓finishFrags_bedrock, ↓runOp_bedrock,
    ↓takeLatched_bedrock]

theorem opTaskConfig_bedrock (r : Request) (s : State) : bedrock (opTaskConfig r s) = bedrock s := by
  simp only [opTaskConfig, ↓bedrock_mk, ↓bedrock_fold, ↓apply_ite bedrock, ite_self, ↓change1_bedrock, ↓finish_bedrock,
    ↓need_bedrock, ↓runOp_bedrock, ↓commit_bedrock, ↓takeLatched_bedrock]

theorem opTaskDeadline_bedrock (s : State) : bedrock (opTaskDeadline s) = bedrock s := by
  simp only [opTaskDeadline, ↓apply_ite bedrock, ite_self, ↓foldl_keeps bedrock, implies_true, ↓moveTask_bedrock]

theorem opTerminalKeep_bedrock (s : State) : bedrock (opTerminalKeep s) = bedrock s := by
  simp only [opTerminalKeep, ↓apply_ite bedrock, ite_self, ↓foldl_keeps bedrock, implies_true, ↓moveTask_bedrock]

theorem reopenTasks_bedrock (s : State) : bedrock (reopenTasks s) = bedrock s := by
  simp only [reopenTasks, ↓apply_ite bedrock, ite_self, ↓foldl_keeps bedrock, implies_true, ↓moveTask_bedrock]

/-! #### Guard -/

theorem modPlan_bedrock (s : State) (i : Nat) (f : Plan → Plan) : bedrock (modPlan s i f) = bedrock s := by
  simp only [modPlan, ↓bedrock_mk, ↓bedrock_fold]

theorem tryDwell_bedrock (n : Nat) (s : State) (session : Nat) (cells : List Nat) :
    bedrock (tryDwell n s session cells).2 = bedrock s := by
  induction n generalizing s cells with
  | zero => rfl
  | succ n ih =>
    simp only [tryDwell]
    split
    · next hr => exact snd_keeps hr (reserve_bedrock ..)
    · next hr => exact (ih _ _).trans (snd_keeps hr (reserve_bedrock ..))
    · next hr => exact snd_keeps hr (reserve_bedrock ..)

theorem putDwell_bedrock (s : State) (session : Nat) (cells : List Nat) (after : Option Nat) :
    bedrock (putDwell s session cells after).2 = bedrock s := by
  unfold putDwell
  dsimp only
  split <;> next hr =>
    have ht := snd_keeps hr (tryDwell_bedrock ..)
    cases after <;> simp only [↓dwellUnwritten_bedrock, ↓modPlan_bedrock, ↓removeDwell_bedrock, ↓removeTimed_bedrock, ht]

theorem commitDwell_bedrock (s : State) (i : Nat) (written : Bool) (more : List (Nat × Nat)) :
    bedrock (commitDwell s i written more) = bedrock s := by
  simp only [commitDwell, ↓commitAllBy_bedrock]

theorem conformanceEvent_bedrock (s : State) (i cause dev : Nat) : bedrock (conformanceEvent s i cause dev) = bedrock s := by
  simp only [conformanceEvent, ↓apply_ite bedrock, ite_self, ↓modPlan_bedrock, ↓raise_bedrock]

theorem dropNext_bedrock (s : State) (i : Nat) : bedrock (dropNext s i) = bedrock s := by
  simp only [dropNext]
  split <;> simp only [↓modPlan_bedrock, ↓removeKeys_bedrock]

theorem haltOne_bedrock (s : State) (i : Nat) (keepLeg : Bool) : bedrock (haltOne s i keepLeg).2 = bedrock s := by
  simp only [haltOne]
  split <;> simp only [↓bedrock_mk, ↓bedrock_fold, ↓commitDwell_bedrock, ↓dropNext_bedrock, ↓modPlan_bedrock, ↓modRobot_bedrock,
    ↓putDwell_bedrock]

theorem haltChain_bedrock (n : Nat) (s : State) (l : List Nat) : bedrock (haltChain n s l) = bedrock s := by
  induction n generalizing s l with
  | zero => cases l <;> rfl
  | succ n ih =>
    cases l with
    | nil => rfl
    | cons i l =>
      simp only [haltChain, ↓ih, ↓apply_ite bedrock, ↓conformanceEvent_bedrock, ↓haltOne_bedrock, ite_self]

theorem haltRobot_bedrock (s : State) (i : Nat) (cause : Option Nat) (dev : Nat) (keepLeg : Bool) :
    bedrock (haltRobot s i cause dev keepLeg) = bedrock s := by
  simp only [haltRobot]
  (repeat' split) <;> simp only [↓conformanceEvent_bedrock, ↓haltChain_bedrock, ↓haltOne_bedrock]

theorem putRest_bedrock (s : State) (i x y h : Nat) (more : List (Nat × Nat)) :
    bedrock (putRest s i x y h more) = bedrock s := by
  simp only [putRest, ↓commitDwell_bedrock, ↓haltChain_bedrock, ↓putDwell_bedrock]

theorem loseTask_bedrock (s : State) (i cause : Nat) : bedrock (loseTask s i cause) = bedrock s := by
  simp only [loseTask]
  (repeat' split) <;> simp only [↓modPlan_bedrock, ↓moveTask_bedrock]

theorem stopHard_bedrock (s : State) (i cause dev : Nat) : bedrock (stopHard s i cause dev) = bedrock s := by
  simp only [stopHard]
  split <;> simp only [↓commitDwell_bedrock, ↓conformanceEvent_bedrock, ↓haltChain_bedrock, ↓loseTask_bedrock, ↓modPlan_bedrock,
    ↓putDwell_bedrock, ↓requestRobotStop_bedrock]

theorem checkRobot_bedrock (s : State) (i : Nat) : bedrock (checkRobot s i) = bedrock s := by
  simp only [checkRobot]
  split <;> simp only [↓apply_ite bedrock, ite_self, ↓haltRobot_bedrock, ↓modPlan_bedrock, ↓stopHard_bedrock]

theorem conformance_bedrock (s : State) : bedrock (conformance s) = bedrock s := by
  simp only [conformance, ↓apply_ite bedrock, ite_self, ↓foldl_keeps bedrock, implies_true, ↓checkRobot_bedrock]

theorem restDue_bedrock (s : State) (i : Nat) : bedrock (restDue s i) = bedrock s := by
  simp only [restDue]
  split <;> simp only [↓apply_ite bedrock, ite_self, ↓modPlan_bedrock, ↓putRest_bedrock]

theorem initialDue_bedrock (s : State) (i : Nat) : bedrock (initialDue s i) = bedrock s := by
  simp only [initialDue]
  (repeat' split) <;> simp only [↓modPlan_bedrock, ↓putRest_bedrock]

theorem adriftDue_bedrock (s : State) (i : Nat) : bedrock (adriftDue s i) = bedrock s := by
  simp only [adriftDue, ↓apply_ite bedrock, ite_self, ↓commitDwell_bedrock, ↓haltChain_bedrock, ↓loseTask_bedrock,
    ↓modPlan_bedrock, ↓putDwell_bedrock]

theorem heardDue_bedrock (s : State) (i : Nat) : bedrock (heardDue s i) = bedrock s := by
  simp only [heardDue, ↓apply_ite bedrock, ite_self, ↓modPlan_bedrock]

theorem stopReleased_bedrock (s : State) (i : Nat) : bedrock (stopReleased s i) = bedrock s := by
  simp only [stopReleased, ↓apply_ite bedrock, ite_self, ↓modPlan_bedrock]

theorem dwellsDue_bedrock (s : State) : bedrock (dwellsDue s) = bedrock s := by
  simp only [dwellsDue, ↓foldl_keeps bedrock, implies_true, ↓adriftDue_bedrock, ↓heardDue_bedrock, ↓initialDue_bedrock,
    ↓restDue_bedrock, ↓stopReleased_bedrock]

theorem modeHalts_bedrock (s : State) : bedrock (modeHalts s) = bedrock s := by
  simp only [modeHalts, ↓bedrock_mk, ↓bedrock_fold, ↓apply_ite bedrock, ite_self, ↓foldl_keeps bedrock, implies_true,
    ↓haltRobot_bedrock, ↓modPlan_bedrock]

theorem driftHalts_bedrock (s : State) : bedrock (driftHalts s) = bedrock s := by
  simp only [driftHalts, ↓bedrock_mk, ↓bedrock_fold, ↓apply_ite bedrock, ite_self, ↓foldl_keeps bedrock, implies_true,
    ↓haltRobot_bedrock]

theorem queueRobotFragments_bedrock (s : State) (session : Nat) (p : Bytes) :
    bedrock (queueRobotFragments s session p) = bedrock s := by
  simp only [queueRobotFragments, ↓bedrock_mk, ↓bedrock_fold]

theorem emitPlan_bedrock (s : State) (i : Nat) : bedrock (emitPlan s i) = bedrock s := by
  simp only [emitPlan]
  (repeat' split) <;> simp only [↓modPlan_bedrock, ↓queueMsg_bedrock, ↓queueRobotFragments_bedrock]

theorem emitPlans_bedrock (s : State) : bedrock (emitPlans s) = bedrock s := by
  simp only [emitPlans, ↓foldl_keeps bedrock, implies_true, ↓emitPlan_bedrock]

/-! #### Allot -/

theorem modReq_bedrock (s : State) (i : Nat) (f : PathReq → PathReq) : bedrock (modReq s i f) = bedrock s := by
  simp only [modReq, ↓bedrock_mk, ↓bedrock_fold]

theorem queueReq_bedrock (s : State) (q : PathReq) : bedrock (queueReq s q) = bedrock s := by
  unfold queueReq
  split
  · rfl
  · split <;> next h =>
      have ht := snd_keeps h (admitFrame_bedrock ..)
      exact ht

theorem openRound_bedrock (s : State) (r : Nat) : bedrock (openRound s r) = bedrock s := by
  simp only [openRound, ↓bedrock_mk, ↓bedrock_fold, ↓apply_ite bedrock, ite_self, ↓foldl_keeps bedrock, implies_true,
    ↓driftHalts_bedrock, ↓modPlan_bedrock, ↓queueReq_bedrock]

theorem opAllotmentRound_bedrock (s : State) : bedrock (opAllotmentRound s) = bedrock s := by
  simp only [opAllotmentRound, ↓apply_ite bedrock, ite_self, ↓noteQueue_bedrock, ↓openRound_bedrock]

theorem opLeadlightRequest_bedrock (s : State) : bedrock (opLeadlightRequest s) = bedrock s := by
  simp only [opLeadlightRequest]
  (repeat' split) <;> simp only [↓modReq_bedrock, ↓noteQueue_bedrock]

theorem excludePair_bedrock (s : State) (q : PathReq) : bedrock (excludePair s q) = bedrock s := by
  simp only [excludePair]
  split <;> simp only [↓bedrock_mk, ↓bedrock_fold]

theorem enterResult_bedrock (s : State) (i : Nat) (q : PathReq) (res : SearchResult) (tclk : Nat) :
    bedrock (enterResult s i q res tclk) = bedrock s := by
  simp only [enterResult, ↓bedrock_mk, ↓bedrock_fold, ↓apply_ite bedrock, ite_self, ↓excludePair_bedrock, ↓modReq_bedrock]

theorem opSearchResult_bedrock (unit tclk : Nat) (s : State) : bedrock (opSearchResult unit tclk s) = bedrock s := by
  simp only [opSearchResult]
  (repeat' split) <;> simp only [↓enterResult_bedrock, ↓modReq_bedrock]

theorem commitPath_bedrock (s : State) (q : PathReq) (kind : Nat) : bedrock (commitPath s q kind) = bedrock s := by
  simp only [commitPath]
  split <;> simp only [↓bedrock_mk, ↓bedrock_fold, ↓commit_bedrock, ↓commitBy_bedrock, ↓record_bedrock]

theorem reserveConflict_bedrock (s : State) (i : Nat) (q : PathReq) (k : Key) (w : BitVec 64) :
    bedrock (reserveConflict s i q k w) = bedrock s := by
  simp only [reserveConflict, ↓bedrock_mk, ↓bedrock_fold, ↓apply_ite bedrock, ite_self, ↓excludePair_bedrock, ↓modReq_bedrock]

theorem reserveDone_bedrock (s : State) (i : Nat) (q : PathReq) (l : Leg) : bedrock (reserveDone s i q l) = bedrock s := by
  simp only [reserveDone]
  split <;> simp only [↓commitPath_bedrock, ↓modPlan_bedrock, ↓modReq_bedrock, ↓moveTask_bedrock, ↓removeDwell_bedrock]

theorem reserveOne_bedrock (s : State) (spent i : Nat) : bedrock (reserveOne s spent i).2 = bedrock s := by
  unfold reserveOne
  dsimp only
  split
  · exact modReq_bedrock ..
  split
  · exact modReq_bedrock ..
  split
  · rfl
  split
  · simp only [↓finishI_bedrock, ↓bedrock_mk, ↓bedrock_fold, ↓modPlan_bedrock, ↓modReq_bedrock]
  · split <;> next hr =>
      have ht := snd_keeps hr (reserve_bedrock ..)
      simp only [↓reserveDone_bedrock, ↓reserveConflict_bedrock, ↓modReq_bedrock, ↓apply_ite bedrock, ↓excludePair_bedrock,
        ite_self, ht]

theorem reserveAll_bedrock (s : State) (spent : Nat) (l : List Nat) : bedrock (reserveAll s spent l) = bedrock s := by
  induction l generalizing s spent with
  | nil => rfl
  | cons i l ih =>
    simp only [reserveAll]
    split
    · next h => exact snd_keeps h (reserveOne_bedrock ..)
    · next h => exact (ih _ _).trans (snd_keeps h (reserveOne_bedrock ..))

theorem opLegReserve_bedrock (s : State) : bedrock (opLegReserve s) = bedrock s := by
  simp only [opLegReserve]
  split <;> simp only [↓bedrock_mk, ↓bedrock_fold, ↓apply_ite bedrock, ite_self, ↓reserveAll_bedrock]

theorem abandonLeg_bedrock (s : State) (i : Nat) : bedrock (abandonLeg s i) = bedrock s := by
  simp only [abandonLeg]
  split <;> simp only [↓commitBy_bedrock, ↓dropNext_bedrock, ↓haltChain_bedrock, ↓putDwell_bedrock]

theorem releaseReq_bedrock (s : State) (q : PathReq) : bedrock (releaseReq s q) = bedrock s := by
  simp only [releaseReq, ↓apply_ite bedrock, ite_self, ↓abandonLeg_bedrock, ↓loseTask_bedrock, ↓modPlan_bedrock]

theorem dropRequests_bedrock (s : State) (i intr status : Nat) : bedrock (dropRequests s i intr status) = bedrock s := by
  simp only [dropRequests, ↓bedrock_mk, ↓bedrock_fold, ↓foldl_keeps bedrock, implies_true, ↓finishI_bedrock,
    ↓releaseReq_bedrock]

theorem dropLeft_bedrock (s : State) : bedrock (dropLeft s) = bedrock s := by
  simp only [dropLeft, ↓apply_ite bedrock, ite_self, ↓foldl_keeps bedrock, implies_true, ↓dropRequests_bedrock]

theorem endRound_bedrock (s : State) : bedrock (endRound s) = bedrock s := by
  simp only [endRound, ↓bedrock_mk, ↓bedrock_fold, ↓apply_ite bedrock, ite_self, ↓foldl_keeps bedrock, implies_true,
    ↓dropRequests_bedrock]

theorem tell_bedrock (s : State) (i status pos r : Nat) : bedrock (tell s i status pos r) = bedrock s := by
  simp only [tell, ↓modPlan_bedrock]

theorem grantLeg_bedrock (s : State) (r : Nat) (q : PathReq) (l : Leg) : bedrock (grantLeg s r q l) = bedrock s := by
  simp only [grantLeg]
  (repeat' split) <;> simp only [↓bedrock_mk, ↓bedrock_fold, ↓commitPath_bedrock, ↓finish_bedrock, ↓modPlan_bedrock,
    ↓moveTask_bedrock, ↓putTask_bedrock, ↓tell_bedrock]

theorem deferReq_bedrock (s : State) (r : Nat) (q : PathReq) : bedrock (deferReq s r q) = bedrock s := by
  unfold deferReq
  cases q.queuePos <;> cases q.host <;>
    simp only [↓bedrock_mk, ↓bedrock_fold, ↓deferred_bedrock, ↓tell_bedrock, ↓modPlan_bedrock, ↓apply_ite bedrock,
      ↓loseTask_bedrock, ↓abandonLeg_bedrock, ↓freshNat_bedrock, ite_self]

theorem refuseReq_bedrock (s : State) (r : Nat) (q : PathReq) : bedrock (refuseReq s r q) = bedrock s := by
  simp only [refuseReq]
  split <;> simp only [↓bedrock_mk, ↓bedrock_fold, ↓finish_bedrock, ↓modPlan_bedrock, ↓tell_bedrock]

theorem settleReq_bedrock (frozen : Bool) (r : Nat) (s : State) (q : PathReq) :
    bedrock (settleReq frozen r s q) = bedrock s := by
  simp only [settleReq]
  (repeat' split) <;> simp only [↓bedrock_mk, ↓bedrock_fold, ↓deferReq_bedrock, ↓finishI_bedrock, ↓grantLeg_bedrock,
    ↓modPlan_bedrock, ↓refuseReq_bedrock, ↓releaseReq_bedrock]

theorem haltedRounds_bedrock (s : State) : bedrock (haltedRounds s) = bedrock s := by
  simp only [haltedRounds, ↓apply_ite bedrock, ite_self, ↓foldl_keeps bedrock, implies_true, ↓loseTask_bedrock,
    ↓modPlan_bedrock]

theorem opGrant_bedrock (s : State) : bedrock (opGrant s) = bedrock s := by
  simp only [opGrant]
  split <;> simp only [↓bedrock_mk, ↓bedrock_fold, ↓apply_ite bedrock, ite_self, ↓foldl_keeps bedrock, implies_true,
    ↓haltedRounds_bedrock, ↓raise_bedrock, ↓settleReq_bedrock]

theorem reachEnd_bedrock (s : State) (i : Nat) (l : Leg) : bedrock (reachEnd s i l) = bedrock s := by
  simp only [reachEnd]
  split <;> simp only [↓apply_ite bedrock, ite_self, ↓modPlan_bedrock, ↓moveTask_bedrock]

theorem arriveRobot_bedrock (s : State) (i : Nat) : bedrock (arriveRobot s i) = bedrock s := by
  simp only [arriveRobot, ↓bedrock_mk, ↓bedrock_fold, ↓apply_ite bedrock, ite_self, ↓foldl_keeps bedrock, implies_true,
    ↓modPlan_bedrock, ↓reachEnd_bedrock]

theorem doneRobot_bedrock (s : State) (i : Nat) : bedrock (doneRobot s i) = bedrock s := by
  simp only [doneRobot]
  split <;> simp only [↓apply_ite bedrock, ite_self, ↓modPlan_bedrock, ↓moveTask_bedrock]

theorem takeOver_bedrock (s : State) : bedrock (takeOver s) = bedrock s := by
  simp only [takeOver, ↓bedrock_mk, ↓bedrock_fold, ↓apply_ite bedrock, ite_self]

theorem abandonCancelled_bedrock (s : State) : bedrock (abandonCancelled s) = bedrock s := by
  simp only [abandonCancelled, ↓foldl_keeps bedrock, implies_true, ↓abandonLeg_bedrock]

theorem planFleet_bedrock (s : State) : bedrock (planFleet s) = bedrock s := by
  simp only [planFleet, ↓foldl_keeps bedrock, implies_true, ↓abandonCancelled_bedrock, ↓arriveRobot_bedrock,
    ↓conformance_bedrock, ↓doneRobot_bedrock, ↓dropLeft_bedrock, ↓dwellsDue_bedrock, ↓endRound_bedrock, ↓modeHalts_bedrock,
    ↓reopenTasks_bedrock, ↓takeOver_bedrock]

theorem cancelRobot_bedrock (s : State) (i : Nat) (halt : Bool) : bedrock (cancelRobot s i halt) = bedrock s := by
  simp only [cancelRobot, ↓bedrock_mk, ↓bedrock_fold, ↓modPlan_bedrock]

theorem opTaskCancel_bedrock (r : Request) (s : State) : bedrock (opTaskCancel r s) = bedrock s := by
  simp only [opTaskCancel, ↓apply_ite bedrock, ite_self, ↓cancelRobot_bedrock, ↓checkCsn_bedrock, ↓finish_bedrock,
    ↓moveTaskBy_bedrock, ↓need_bedrock, ↓runOp_bedrock, ↓takeLatched_bedrock]

theorem opPathRequest_bedrock (r : Request) (s : State) : bedrock (opPathRequest r s) = bedrock s := by
  simp only [opPathRequest, ↓bedrock_mk, ↓bedrock_fold, ite_self, ↓accept_bedrock, ↓checkCsn_bedrock, ↓need_bedrock,
    ↓runOp_bedrock, ↓takeLatched_bedrock]

theorem opPathGet_bedrock (r : Request) (s : State) : bedrock (opPathGet r s) = bedrock s := by
  simp only [opPathGet, ite_self, ↓finish_bedrock, ↓need_bedrock, ↓runOp_bedrock, ↓takeLatched_bedrock]

theorem opPathStatus_bedrock (r : Request) (s : State) : bedrock (opPathStatus r s) = bedrock s := by
  simp only [opPathStatus, ↓readOp_bedrock]

/-! #### Can -/

theorem modCan_bedrock (s : State) (ch : Nat) (f : CanChan → CanChan) : bedrock (modCan s ch f) = bedrock s := by
  simp only [modCan, ↓bedrock_mk, ↓bedrock_fold]

theorem opBusOff_bedrock (ch : Nat) (head : Bool) (s : State) : bedrock (opBusOff ch head s) = bedrock s := by
  simp only [opBusOff, ↓apply_ite bedrock, ite_self, ↓modCan_bedrock]

theorem opBusOffRecovery_bedrock (ch : Nat) (s : State) : bedrock (opBusOffRecovery ch s) = bedrock s := by
  simp only [opBusOffRecovery, ↓apply_ite bedrock, ite_self, ↓modCan_bedrock]

theorem opCanBusError_bedrock (ch tec rec' : Nat) (s : State) : bedrock (opCanBusError ch tec rec' s) = bedrock s := by
  simp only [opCanBusError, ↓apply_ite bedrock, ite_self, ↓modCan_bedrock]

theorem recAfter_bedrock (s : State) (rec' : Nat) : bedrock (recAfter s rec').2 = bedrock s := by
  simp only [recAfter]
  split <;> simp only [↓freshNat_bedrock]

theorem opCanRx_bedrock (ch : Nat) (f : CanIn) (s : State) : bedrock (opCanRx ch f s) = bedrock s := by
  simp only [opCanRx, ↓apply_ite bedrock, ite_self, ↓admitFrame_bedrock, ↓arrived_bedrock, ↓modCan_bedrock, ↓recAfter_bedrock]

theorem takeCan_bedrock (s : State) (ch : Nat) (f : CanFrame) : bedrock (takeCan s ch f) = bedrock s := by
  simp only [takeCan]
  split <;> simp only [↓apply_ite bedrock, ite_self, ↓freshNat_bedrock, ↓modCan_bedrock, ↓requestStop_bedrock]

theorem latchRx_bedrock (s : State) (ch : Nat) : bedrock (latchRx s ch) = bedrock s := by
  simp only [latchRx, ↓foldl_keeps bedrock, implies_true, ↓modCan_bedrock, ↓takeCan_bedrock]

theorem canLatch_bedrock (s : State) (ch : Nat) : bedrock (canLatch s ch) = bedrock s := by
  simp only [canLatch, ↓latchRx_bedrock, ↓modCan_bedrock]

theorem canBoundary_bedrock (s : State) : bedrock (canBoundary s) = bedrock s := by
  simp only [canBoundary, ↓canLatch_bedrock]

theorem canStart_bedrock (s : State) : bedrock (canStart s) = bedrock s := by
  simp only [canStart, ↓bedrock_mk, ↓bedrock_fold]

theorem measureDelay_bedrock (s : State) (ch : Nat) : bedrock (measureDelay s ch) = bedrock s := by
  simp only [measureDelay, ↓freshNat_bedrock, ↓modCan_bedrock]

theorem opCanTxOutcome_bedrock (ch : Nat) (stop : Bool) (outcome : Nat) (sof : Option Counter) (s : State) :
    bedrock (opCanTxOutcome ch stop outcome sof s) = bedrock s := by
  unfold opCanTxOutcome
  dsimp only
  split
  · rfl
  · simp only [↓apply_ite bedrock, ↓modCan_bedrock, ↓measureDelay_bedrock]
    cases sof <;> simp only [↓apply_ite bedrock, ↓noteSent_bedrock, ite_self]

theorem opCanWake_bedrock (ch : Nat) (w : CanWakeIn) (s : State) : bedrock (opCanWake ch w s) = bedrock s := by
  simp only [opCanWake, ↓apply_ite bedrock, ite_self, ↓modCan_bedrock]

theorem queueCanStop_bedrock (s : State) : bedrock (queueCanStop s) = bedrock s := by
  simp only [queueCanStop, ↓bedrock_mk, ↓bedrock_fold]

theorem emitCanChan_bedrock (s : State) (ch : Nat) : bedrock (emitCanChan s ch) = bedrock s := by
  simp only [emitCanChan]
  split <;> simp only [↓apply_ite bedrock, ite_self, ↓foldl_keeps bedrock, implies_true, ↓modCan_bedrock, ↓raise_bedrock]

theorem emitCan_bedrock (s : State) : bedrock (emitCan s) = bedrock s := by
  simp only [emitCan, ↓emitCanChan_bedrock, ↓queueCanStop_bedrock]

theorem releaseCanStop_bedrock (s : State) : bedrock (releaseCanStop s) = bedrock s := by
  simp only [releaseCanStop, ↓bedrock_mk, ↓bedrock_fold]

theorem releaseCan_bedrock (s : State) : bedrock (releaseCan s) = bedrock s := by
  simp only [releaseCan, ↓bedrock_mk, ↓bedrock_fold, ↓apply_ite bedrock, ite_self]

theorem modCanSet_bedrock (s : State) (ch : Nat) (f : CanPersist → CanPersist) : bedrock (modCanSet s ch f) = bedrock s := by
  simp only [modCanSet, ↓bedrock_mk, ↓bedrock_fold]

theorem opCanConfig_bedrock (r : Request) (s : State) : bedrock (opCanConfig r s) = bedrock s := by
  simp only [opCanConfig, ite_self, ↓change1_bedrock, ↓modCan_bedrock, ↓modCanSet_bedrock, ↓need_bedrock, ↓runOp_bedrock,
    ↓commit_bedrock, ↓takeLatched_bedrock]

theorem opCanStatus_bedrock (r : Request) (s : State) : bedrock (opCanStatus r s) = bedrock s := by
  simp only [opCanStatus, ite_self, ↓finish_bedrock, ↓need_bedrock, ↓runOp_bedrock, ↓takeLatched_bedrock]

theorem opCanRuleSet_bedrock (r : Request) (s : State) : bedrock (opCanRuleSet r s) = bedrock s := by
  simp only [opCanRuleSet, ↓apply_ite bedrock, ite_self, ↓change1_bedrock, ↓finishFrags_bedrock, ↓modCan_bedrock,
    ↓modCanSet_bedrock, ↓need_bedrock, ↓runOp_bedrock, ↓commit_bedrock, ↓takeLatched_bedrock]

theorem opCanNodeSet_bedrock (r : Request) (s : State) : bedrock (opCanNodeSet r s) = bedrock s := by
  simp only [opCanNodeSet, ite_self, ↓change1_bedrock, ↓modCanSet_bedrock, ↓need_bedrock, ↓runOp_bedrock, ↓commit_bedrock,
    ↓takeLatched_bedrock]

theorem opCanSend_bedrock (r : Request) (s : State) : bedrock (opCanSend r s) = bedrock s := by
  simp only [opCanSend, ite_self, ↓arrived_bedrock, ↓finish_bedrock, ↓modCan_bedrock, ↓need_bedrock, ↓runOp_bedrock,
    ↓takeLatched_bedrock]

theorem opCanSubscribe_bedrock (r : Request) (s : State) : bedrock (opCanSubscribe r s) = bedrock s := by
  simp only [opCanSubscribe, ite_self, ↓change1_bedrock, ↓modSession_bedrock, ↓need_bedrock, ↓runOp_bedrock, ↓commit_bedrock,
    ↓takeLatched_bedrock]

theorem opCanSleep_bedrock (r : Request) (s : State) : bedrock (opCanSleep r s) = bedrock s := by
  simp only [opCanSleep, ite_self, ↓change1_bedrock, ↓modCan_bedrock, ↓need_bedrock, ↓runOp_bedrock, ↓commit_bedrock,
    ↓takeLatched_bedrock]

/-! #### Robots -/

theorem setSState_bedrock (s : State) (i : Nat) (new : SState) (cause : Nat) :
    bedrock (setSState s i new cause) = bedrock s := by
  simp only [setSState, ↓bedrock_mk, ↓bedrock_fold, ↓modRobot_bedrock]

theorem tagSess_bedrock (s : State) (i : Nat) (r : Request) : bedrock (tagSess s i r) = bedrock s := by
  simp only [tagSess, ↓modRobot_bedrock]

theorem lnkSState_bedrock (s : State) (i : Nat) (new : SState) (cause : Nat) :
    bedrock (lnkSState s i new cause) = bedrock s := by
  simp only [lnkSState, ↓setSState_bedrock, ↓submit_bedrock]

theorem emitSess_bedrock (s : State) : bedrock (emitSess s) = bedrock s := by
  simp only [emitSess, ↓foldl_keeps bedrock, implies_true, ↓modRobot_bedrock, ↓raiseWith_bedrock]

theorem emitSpoof_bedrock (s : State) : bedrock (emitSpoof s) = bedrock s := by
  simp only [emitSpoof, ↓bedrock_mk, ↓bedrock_fold, ↓apply_ite bedrock, ite_self, ↓raise_bedrock]

theorem modRpt_bedrock (s : State) (k : Nat) (f : RptEntry → RptEntry) : bedrock (modRpt s k f) = bedrock s := by
  simp only [modRpt, ↓bedrock_mk, ↓bedrock_fold]

theorem rptAddr_bedrock (s : State) (eui : BitVec 64) (addr : Nat) : bedrock (rptAddr s eui addr) = bedrock s := by
  simp only [rptAddr]
  split <;> simp only [↓modRpt_bedrock]

theorem cellEvent_bedrock (s : State) (i cause : Nat) (q : Option (Nat × Nat × Nat)) :
    bedrock (cellEvent s i cause q) = bedrock s := by
  simp only [cellEvent, ↓raise_bedrock]

theorem assignCell_bedrock (s : State) (i : Nat) : bedrock (assignCell s i) = bedrock s := by
  simp only [assignCell, ↓bedrock_mk, ↓bedrock_fold, ↓cellEvent_bedrock, ↓queueMsg_bedrock]

theorem releaseCell_bedrock (s : State) (i : Nat) : bedrock (releaseCell s i) = bedrock s := by
  simp only [releaseCell]
  split <;> simp only [↓bedrock_mk, ↓bedrock_fold, ↓cellEvent_bedrock]

theorem endAssociation_bedrock (s : State) (i : Nat) : bedrock (endAssociation s i) = bedrock s := by
  simp only [endAssociation, ↓bedrock_mk, ↓bedrock_fold, ↓modRobot_bedrock, ↓releaseCell_bedrock, ↓rptAddr_bedrock]

theorem queueKeys_bedrock (s : State) (i : Nat) : bedrock (queueKeys s i) = bedrock s := by
  simp only [queueKeys]
  split <;> simp only [↓queueMsg_bedrock]

theorem queueLinkFragments_bedrock (s : State) (session : Option Nat) (eui : BitVec 64) (p : Bytes) :
    bedrock (queueLinkFragments s session eui p) = bedrock s := by
  simp only [queueLinkFragments, ↓bedrock_mk, ↓bedrock_fold]

theorem acceptAssoc_bedrock (s : State) (i : Nat) (m : AirMsg) : bedrock (acceptAssoc s i m) = bedrock s := by
  simp only [acceptAssoc, ↓bedrock_mk, ↓bedrock_fold, ↓cacheKey_bedrock, ↓endAssociation_bedrock, ↓freshBytes_bedrock,
    ↓lnkSState_bedrock, ↓modRobot_bedrock, ↓queueLinkFragments_bedrock, ↓rptAddr_bedrock]

theorem answerAssoc_bedrock (s : State) (m : AirMsg) : bedrock (answerAssoc s m) = bedrock s := by
  simp only [answerAssoc]
  (repeat' split) <;> simp only [↓acceptAssoc_bedrock, ↓queueLinkFragments_bedrock]

theorem confirmAssoc_bedrock (s : State) (m : AirMsg) : bedrock (confirmAssoc s m) = bedrock s := by
  simp only [confirmAssoc]
  split <;> simp only [↓bedrock_mk, ↓bedrock_fold, ↓apply_ite bedrock, ite_self, ↓assignBlinks_bedrock, ↓assignCell_bedrock,
    ↓endAssociation_bedrock, ↓lnkSState_bedrock, ↓modPlan_bedrock, ↓modRobot_bedrock, ↓queueKeys_bedrock]

theorem modOne_bedrock (s : State) (r : Nat) (f : OneRadio → OneRadio) : bedrock (modOne s r f) = bedrock s := by
  simp only [modOne, ↓bedrock_mk, ↓bedrock_fold, ↓apply_ite bedrock, ite_self]

theorem elementMicFail_bedrock (s : State) (radio : Nat) (eui : BitVec 64) :
    bedrock (elementMicFail s radio eui) = bedrock s := by
  simp only [elementMicFail]
  split <;> simp only [↓bedrock_mk, ↓bedrock_fold, ↓modOne_bedrock, ↓modRpt_bedrock]

theorem elementDuplicate_bedrock (s : State) (radio : Nat) : bedrock (elementDuplicate s radio) = bedrock s := by
  simp only [elementDuplicate, ↓bedrock_mk, ↓bedrock_fold, ↓modOne_bedrock]

theorem elementReplay_bedrock (s : State) (radio : Nat) : bedrock (elementReplay s radio) = bedrock s := by
  simp only [elementReplay, ↓bedrock_mk, ↓bedrock_fold, ↓modOne_bedrock]

theorem latchMsg_bedrock (s : State) (frag : Bool) (m : AirMsg) : bedrock (latchMsg s frag m) = bedrock s := by
  simp only [latchMsg, ↓bedrock_mk, ↓bedrock_fold, ↓apply_ite bedrock, ite_self]

theorem chainElement_bedrock (s : State) (i : Nat) (radio : Nat) (e : Element) (eui : BitVec 64) :
    bedrock (chainElement s i radio e eui) = bedrock s := by
  simp only [chainElement, ↓apply_ite bedrock, ite_self, ↓latchMsg_bedrock, ↓modRobot_bedrock]

theorem takeAssoc_bedrock (s : State) (radio : Nat) (e : Element) : bedrock (takeAssoc s radio e).2 = bedrock s := by
  simp only [takeAssoc]
  (repeat' split) <;> simp only [↓chainElement_bedrock, ↓elementDuplicate_bedrock, ↓elementMicFail_bedrock,
    ↓elementReplay_bedrock, ↓modRobot_bedrock]

theorem learnUnenrolled_bedrock (s : State) (radio : Nat) (eui : BitVec 64) :
    bedrock (learnUnenrolled s radio eui) = bedrock s := by
  simp only [learnUnenrolled]
  (repeat' split) <;> simp only [↓bedrock_mk, ↓bedrock_fold, ↓modRpt_bedrock]

theorem takeLink_bedrock (s : State) (radio : Nat) (e : Element) : bedrock (takeLink s radio e).2 = bedrock s := by
  simp only [takeLink]
  (repeat' split) <;> simp only [↓bedrock_mk, ↓bedrock_fold, ↓chainElement_bedrock, ↓elementDuplicate_bedrock,
    ↓elementMicFail_bedrock, ↓elementReplay_bedrock, ↓latchMsg_bedrock, ↓learnUnenrolled_bedrock]

theorem portMoved_bedrock (s : State) (i radio ctr gap : Nat) : bedrock (portMoved s i radio ctr gap) = bedrock s := by
  simp only [portMoved, ↓apply_ite bedrock, ite_self, ↓modRobot_bedrock, ↓raise_bedrock]

theorem learnFrame_bedrock (s : State) (i radio ctr high t : Nat) (link : Bool) :
    bedrock (learnFrame s i radio ctr high t link) = bedrock s := by
  simp only [learnFrame]
  (repeat' split) <;> simp only [↓bedrock_mk, ↓bedrock_fold, ↓modRobot_bedrock, ↓modRpt_bedrock, ↓portMoved_bedrock]

theorem wakeEvent_bedrock (s : State) (i cause : Nat) : bedrock (wakeEvent s i cause) = bedrock s := by
  simp only [wakeEvent, ↓raise_bedrock]

theorem heardAgain_bedrock (s : State) (i : Nat) (sleepOnly : Bool) : bedrock (heardAgain s i sleepOnly) = bedrock s := by
  simp only [heardAgain, ↓apply_ite bedrock, ite_self, ↓lnkSState_bedrock, ↓modRobot_bedrock, ↓wakeEvent_bedrock]

theorem applyFrame_bedrock (s : State) (f : AirIn × Bytes) : bedrock (applyFrame s f) = bedrock s := by
  have hf := foldl_snd_keeps bedrock (fun (a : List (Nat × Nat × Bool × Bool) × State) (e : Element) =>
      let (r, s') := if e.kind = 1 then takeAssoc a.2 f.1.radio e else if e.kind = 3 then takeLink a.2 f.1.radio e else (none,
        a.2)
      match r with
      | some (i, c, sl) => (a.1 ++ [(i, c, e.kind == 3, sl)], s')
      | none => (a.1, s')) (elementsOf f.1) ([], s) fun a e => by
    have hp : bedrock (if e.kind = 1 then takeAssoc a.2 f.1.radio e else if e.kind = 3 then takeLink a.2 f.1.radio e
        else (none, a.2)).2 = bedrock a.2 := by
      split
      · exact takeAssoc_bedrock ..
      · split
        · exact takeLink_bedrock ..
        · rfl
    dsimp only
    split <;> exact hp
  unfold applyFrame
  dsimp only at hf ⊢
  split
  · exact hf
  · simp only [↓apply_ite bedrock, ↓heardAgain_bedrock, ↓learnFrame_bedrock, ite_self]
    exact hf

theorem latchRadio_bedrock (s : State) : bedrock (latchRadio s) = bedrock s := by
  simp only [latchRadio, ↓bedrock_mk, ↓bedrock_fold, ↓foldl_keeps bedrock, implies_true, ↓applyFrame_bedrock]

theorem takeMsg_bedrock {s u : State} {t : Nat} {m : AirMsg} (h : takeMsg s t = some (m, u)) : bedrock u = bedrock s := by
  obtain ⟨_, _, h⟩ := Option.map_eq_some_iff.mp h
  cases h
  rfl

theorem opAssocReq_bedrock (s : State) : bedrock (opAssocReq s) = bedrock s := by
  unfold opAssocReq
  split
  · rfl
  · split
    · next h => exact (answerAssoc_bedrock ..).trans (takeMsg_bedrock h)
    · rfl

theorem opAssocConfirm_bedrock (s : State) : bedrock (opAssocConfirm s) = bedrock s := by
  unfold opAssocConfirm
  split
  · rfl
  · split
    · next h => exact (confirmAssoc_bedrock ..).trans (takeMsg_bedrock h)
    · rfl

theorem applyReport_bedrock (s : State) (m : AirMsg) : bedrock (applyReport s m) = bedrock s := by
  simp only [applyReport]
  split <;> simp only [↓apply_ite bedrock, ite_self, ↓modRobot_bedrock]

theorem opPositionReport_bedrock (s : State) : bedrock (opPositionReport s) = bedrock s := by
  unfold opPositionReport
  split
  · rfl
  · split
    · next h => exact (applyReport_bedrock ..).trans (takeMsg_bedrock h)
    · rfl

theorem applyPlanReq_bedrock (s : State) (m : AirMsg) : bedrock (applyPlanReq s m) = bedrock s := by
  simp only [applyPlanReq]
  split <;> simp only [↓bedrock_mk, ↓bedrock_fold, ↓apply_ite bedrock, ite_self]

theorem opPlanReq_bedrock (s : State) : bedrock (opPlanReq s) = bedrock s := by
  unfold opPlanReq
  split
  · rfl
  · split
    · next h => exact (applyPlanReq_bedrock ..).trans (takeMsg_bedrock h)
    · rfl

theorem applySleep_bedrock (s : State) (m : AirMsg) : bedrock (applySleep s m) = bedrock s := by
  simp only [applySleep]
  split <;> simp only [↓apply_ite bedrock, ite_self, ↓lnkSState_bedrock, ↓modRobot_bedrock]

theorem opSleep_bedrock (s : State) : bedrock (opSleep s) = bedrock s := by
  unfold opSleep
  split
  · rfl
  · split
    · next h => exact (applySleep_bedrock ..).trans (takeMsg_bedrock h)
    · rfl

theorem drainMsgs_bedrock (s : State) (t : Nat) (f : State → AirMsg → State) (hf : ∀ u m, bedrock (f u m) = bedrock u) :
    bedrock (drainMsgs s t f) = bedrock s := foldl_keeps bedrock f _ _ hf

theorem opAssocTimeout_bedrock (s : State) : bedrock (opAssocTimeout s) = bedrock s := by
  simp only [opAssocTimeout, ↓apply_ite bedrock, ite_self, ↓foldl_keeps bedrock, implies_true, ↓endAssociation_bedrock,
    ↓lnkSState_bedrock]

theorem opAdrift_bedrock (s : State) : bedrock (opAdrift s) = bedrock s := by
  simp only [opAdrift, ↓apply_ite bedrock, ite_self, ↓foldl_keeps bedrock, implies_true, ↓lnkSState_bedrock]

theorem becomeLost_bedrock (s : State) (i : Nat) : bedrock (becomeLost s i) = bedrock s := by
  simp only [becomeLost, ↓endAssociation_bedrock, ↓lnkSState_bedrock, ↓modRobot_bedrock]

theorem ageEntry_bedrock (s : State) (k : Nat) : bedrock (ageEntry s k) = bedrock s := by
  simp only [ageEntry, ↓bedrock_mk, ↓bedrock_fold, ↓apply_ite bedrock, ite_self, ↓becomeLost_bedrock, ↓modRpt_bedrock]

theorem opAgingSweep_bedrock (s : State) : bedrock (opAgingSweep s) = bedrock s := by
  simp only [opAgingSweep, ↓apply_ite bedrock, ite_self, ↓foldl_keeps bedrock, implies_true, ↓ageEntry_bedrock]

theorem opWakeMissed_bedrock (s : State) : bedrock (opWakeMissed s) = bedrock s := by
  simp only [opWakeMissed, ↓apply_ite bedrock, ite_self, ↓foldl_keeps bedrock, implies_true, ↓modRobot_bedrock,
    ↓wakeEvent_bedrock]

theorem clearPlan_bedrock (s : State) (i : Nat) : bedrock (clearPlan s i) = bedrock s := by
  simp only [clearPlan, ↓bedrock_mk, ↓bedrock_fold, ↓apply_ite bedrock, ite_self, ↓commitBy_bedrock, ↓removeDwell_bedrock,
    ↓removeTimed_bedrock]

theorem lostWork_bedrock (s : State) : bedrock (lostWork s) = bedrock s := by
  unfold lostWork
  refine foldl_keeps bedrock _ _ _ fun u e => ?_
  dsimp only
  split <;> simp only [↓makeLostHold_bedrock, ↓bedrock_mk, ↓bedrock_fold, ↓clearPlan_bedrock, ↓loseTask_bedrock,
    ↓dropRequests_bedrock, ↓modRobot_bedrock]

/-! #### Sess -/

theorem opSessConfig_bedrock (r : Request) (s : State) : bedrock (opSessConfig r s) = bedrock s := by
  simp only [opSessConfig, ↓bedrock_mk, ↓bedrock_fold, ↓apply_ite bedrock, ite_self, ↓change1_bedrock, ↓finish_bedrock,
    ↓need_bedrock, ↓runOp_bedrock, ↓commit_bedrock, ↓takeLatched_bedrock]

theorem opSessClassSet_bedrock (r : Request) (s : State) : bedrock (opSessClassSet r s) = bedrock s := by
  simp only [opSessClassSet, ↓bedrock_mk, ↓bedrock_fold, ite_self, ↓change1_bedrock, ↓need_bedrock, ↓runOp_bedrock,
    ↓commit_bedrock, ↓takeLatched_bedrock]

theorem opSessClassGet_bedrock (r : Request) (s : State) : bedrock (opSessClassGet r s) = bedrock s := by
  simp only [opSessClassGet, ite_self, ↓finish_bedrock, ↓need_bedrock, ↓runOp_bedrock, ↓takeLatched_bedrock]

theorem rptEnrol_bedrock (s : State) (k i : Nat) (eui : BitVec 64) : bedrock (rptEnrol s k i eui) = bedrock s := by
  simp only [rptEnrol, ↓bedrock_mk, ↓bedrock_fold]

theorem enrolRobot_bedrock (s : State) (i cls : Nat) (eui : BitVec 64) : bedrock (enrolRobot s i cls eui) = bedrock s := by
  simp only [enrolRobot, ↓bedrock_mk, ↓bedrock_fold, ↓setSState_bedrock]

theorem opSessEnrol_bedrock (r : Request) (s : State) : bedrock (opSessEnrol r s) = bedrock s := by
  simp only [opSessEnrol, ↓need_bedrock, ↓runOp_bedrock]
  (repeat' split) <;> simp only [ite_self, ↓change1_bedrock, ↓enrolRobot_bedrock, ↓finish_bedrock, ↓rptEnrol_bedrock,
    ↓tagSess_bedrock, ↓commit_bedrock, ↓takeLatched_bedrock]

theorem revokeRobot_bedrock (s : State) (i : Nat) : bedrock (revokeRobot s i) = bedrock s := by
  simp only [revokeRobot]
  split <;> simp only [↓bedrock_mk, ↓bedrock_fold, ↓modRpt_bedrock, ↓setSState_bedrock]

theorem opSessRevoke_bedrock (r : Request) (s : State) : bedrock (opSessRevoke r s) = bedrock s := by
  simp only [opSessRevoke, ite_self, ↓change1_bedrock, ↓need_bedrock, ↓revokeRobot_bedrock, ↓runOp_bedrock, ↓tagSess_bedrock,
    ↓commit_bedrock, ↓takeLatched_bedrock]

theorem revokedWork_bedrock (s : State) : bedrock (revokedWork s) = bedrock s := by
  simp only [revokedWork, ↓bedrock_mk, ↓bedrock_fold, ↓foldl_keeps bedrock, implies_true, ↓loseTask_bedrock]

theorem opSessRelease_bedrock (r : Request) (s : State) : bedrock (opSessRelease r s) = bedrock s := by
  simp only [opSessRelease, ↓bedrock_mk, ↓bedrock_fold, ↓apply_ite bedrock, ite_self, ↓changeAll_bedrock, ↓need_bedrock,
    ↓removeHold_bedrock, ↓runOp_bedrock, ↓setSState_bedrock, ↓tagSess_bedrock, ↓commitAll_bedrock, ↓takeLatched_bedrock]

theorem opSessGet_bedrock (r : Request) (s : State) : bedrock (opSessGet r s) = bedrock s := by
  simp only [opSessGet, ↓runOp_bedrock]
  (repeat' split) <;> simp only [↓finish_bedrock, ↓takeLatched_bedrock]

theorem opSessList_bedrock (r : Request) (s : State) : bedrock (opSessList r s) = bedrock s := by
  simp only [opSessList, ite_self, ↓finishFrags_bedrock, ↓runOp_bedrock, ↓takeLatched_bedrock]

/-! #### Stop -/

theorem driveSwitches_bedrock (s : State) : bedrock (driveSwitches s) = bedrock s := by
  simp only [driveSwitches, ↓bedrock_mk, ↓bedrock_fold]

theorem changeStop_bedrock (s : State) (pclk : Nat) (f : State → State) : bedrock (changeStop s pclk f) = bedrock (f s) :=
  (congrArg bedrock (Laws.changeStop_same s pclk f).1.rest).trans rfl

theorem modChans_bedrock (s : State) (f : Channel3 → Channel3) : bedrock (modChans s f) = bedrock s := by
  simp only [modChans, ↓bedrock_mk, ↓bedrock_fold]

theorem modSaf_bedrock (s : State) (c : Nat) (f : Channel3 → Channel3) : bedrock (modSaf s c f) = bedrock s := by
  simp only [modSaf, ↓bedrock_mk, ↓bedrock_fold]

theorem latchSite_bedrock (bit : Nat) (active : Bool) (s : State) : bedrock (latchSite bit active s) = bedrock s := by
  simp only [latchSite, ↓modChans_bedrock]

theorem clearSite_bedrock (bit : Nat) (s : State) : bedrock (clearSite bit s) = bedrock s := by
  simp only [clearSite, ↓modChans_bedrock]

theorem latchRobot_bedrock (i why : Nat) (s : State) : bedrock (latchRobot i why s) = bedrock s := by
  simp only [latchRobot, ↓bedrock_mk, ↓bedrock_fold, ↓modChans_bedrock]

theorem applyRequests_bedrock (s : State) (start : Nat) : bedrock (applyRequests s start) = bedrock s := by
  unfold applyRequests
  split
  · rfl
  · refine (changeStop_bedrock ..).trans ((foldl_keeps bedrock _ _ _ fun u q => ?_).trans rfl)
    split
    · exact latchRobot_bedrock ..
    · exact latchSite_bedrock ..

theorem outputFaulty_bedrock (s : State) : bedrock (outputFaulty s) = bedrock s := by
  simp only [outputFaulty, ↓bedrock_mk, ↓bedrock_fold, ↓latchSite_bedrock]

theorem modSl_bedrock (s : State) (i : Nat) (f : SlInput → SlInput) : bedrock (modSl s i f) = bedrock s := by
  simp only [modSl, ↓bedrock_mk, ↓bedrock_fold, ↓apply_ite bedrock, ite_self]

theorem opSlInput_bedrock (inp line pclk : Nat) (s : State) : bedrock (opSlInput inp line pclk s) = bedrock s := by
  simp only [opSlInput, ↓apply_ite bedrock, ite_self, ↓changeStop_bedrock, ↓latchSite_bedrock, ↓modSl_bedrock]

theorem slFault_bedrock (i : Nat) (s : State) : bedrock (slFault i s) = bedrock s := by
  simp only [slFault, ↓latchSite_bedrock, ↓modSl_bedrock]

theorem checkPulse_bedrock (src : Nat) (lows : List Bool) (s : State) (i : Nat) :
    bedrock (checkPulse src lows s i) = bedrock s := by
  simp only [checkPulse, ↓apply_ite bedrock, ite_self, ↓modSl_bedrock, ↓slFault_bedrock]

theorem opInputTestPulse_bedrock (src : Nat) (lows : List Bool) (s : State) :
    bedrock (opInputTestPulse src lows s) = bedrock s := by
  simp only [opInputTestPulse, ↓apply_ite bedrock, ite_self, ↓foldl_keeps bedrock, implies_true, ↓changeStop_bedrock,
    ↓checkPulse_bedrock]

theorem slFaultStep_bedrock (s : State) (i : Nat) (h1 h2 : Bool) : bedrock (slFaultStep s i h1 h2) = bedrock s := by
  simp only [slFaultStep, ↓apply_ite bedrock, ite_self, ↓clearSite_bedrock, ↓modSl_bedrock, ↓slFault_bedrock]

theorem slBoundary_bedrock (s : State) (i : Nat) (h1 h2 : Bool) : bedrock (slBoundary s i h1 h2) = bedrock s := by
  simp only [slBoundary, ↓apply_ite bedrock, ite_self, ↓clearSite_bedrock, ↓latchSite_bedrock, ↓modSl_bedrock,
    ↓slFaultStep_bedrock]

theorem noteChan_bedrock (s : State) (c : Nat) (new old : ChState) (reason testId time : Nat) :
    bedrock (noteChan s c new old reason testId time) = bedrock s := by
  simp only [noteChan, ↓bedrock_mk, ↓bedrock_fold]

theorem chanState_bedrock (s : State) (c : Nat) (new : ChState) (reason testId pclk : Nat) :
    bedrock (chanState s c new reason testId pclk) = bedrock s := by
  simp only [chanState, ↓modSaf_bedrock, ↓noteChan_bedrock]

theorem withdraw_bedrock (c reason testId : Nat) (s : State) : bedrock (withdraw c reason testId s) = bedrock s := by
  simp only [withdraw, ↓chanState_bedrock, ↓modSaf_bedrock]

theorem passLead_bedrock (s : State) : bedrock (passLead s) = bedrock s := by
  simp only [passLead, ↓bedrock_mk, ↓bedrock_fold, ↓apply_ite bedrock, ite_self]

theorem opLeadChange_bedrock (s : State) : bedrock (opLeadChange s) = bedrock s := by
  simp only [opLeadChange, ↓apply_ite bedrock, ite_self, ↓passLead_bedrock]

theorem noteDiffer_bedrock (differ : Bool) (s : State) : bedrock (noteDiffer differ s) = bedrock s := by
  simp only [noteDiffer, ↓bedrock_mk, ↓bedrock_fold, ↓apply_ite bedrock, ite_self, ↓clearSite_bedrock, ↓latchSite_bedrock]

theorem crossCompare_bedrock (i : SafeIn) (s : State) : bedrock (crossCompare i s) = bedrock s := by
  simp only [crossCompare, ↓bedrock_mk, ↓bedrock_fold, ↓apply_ite bedrock, ite_self, ↓foldl_keeps bedrock, implies_true,
    ↓modChans_bedrock, ↓noteDiffer_bedrock, ↓withdraw_bedrock]

theorem safeChannel_bedrock (i : SafeIn) (s : State) (c : Nat) : bedrock (safeChannel i s c) = bedrock s := by
  simp only [safeChannel]
  (repeat' split) <;> simp only [↓modSaf_bedrock, ↓withdraw_bedrock]

theorem chanBoundary_bedrock (s : State) (c : Nat) : bedrock (chanBoundary s c) = bedrock s := by
  simp only [chanBoundary, ↓apply_ite bedrock, ite_self, ↓chanState_bedrock, ↓modSaf_bedrock]

theorem opChannelRejoin_bedrock (c : Nat) (s : State) : bedrock (opChannelRejoin c s) = bedrock s := by
  simp only [opChannelRejoin, ↓apply_ite bedrock, ite_self, ↓chanState_bedrock, ↓changeStop_bedrock, ↓modSaf_bedrock,
    ↓passLead_bedrock]

theorem plannedTest_bedrock (c : Nat) (s : State) : bedrock (plannedTest c s) = bedrock s := by
  simp only [plannedTest, ↓chanState_bedrock, ↓changeStop_bedrock, ↓modSaf_bedrock, ↓passLead_bedrock]

theorem opPlannedSelfTest_bedrock (s : State) : bedrock (opPlannedSelfTest s) = bedrock s := by
  simp only [opPlannedSelfTest]
  (repeat' split) <;> simp only [↓plannedTest_bedrock]

theorem opClockLoss_bedrock (c pclk : Nat) (s : State) : bedrock (opClockLoss c pclk s) = bedrock s := by
  simp only [opClockLoss, ↓apply_ite bedrock, ite_self, ↓changeStop_bedrock, ↓modSaf_bedrock]

theorem opSloutTestPulse_bedrock (fell rose : Bool) (s : State) : bedrock (opSloutTestPulse fell rose s) = bedrock s := by
  simp only [opSloutTestPulse, ↓bedrock_mk, ↓bedrock_fold, ↓apply_ite bedrock, ite_self, ↓changeStop_bedrock,
    ↓outputFaulty_bedrock]

theorem countBeacon_bedrock (s : State) : bedrock (countBeacon s) = bedrock s := by
  simp only [countBeacon, ↓bedrock_mk, ↓bedrock_fold, ↓apply_ite bedrock, ite_self, ↓changeStop_bedrock, ↓clearSite_bedrock,
    ↓latchSite_bedrock, ↓trigger_bedrock]

theorem safeWork_bedrock (i : SafeIn) (s : State) : bedrock (safeWork i s) = bedrock s := by
  simp only [safeWork]
  split <;> simp only [↓bedrock_mk, ↓bedrock_fold, ↓apply_ite bedrock, ite_self, ↓foldl_keeps bedrock, implies_true,
    ↓changeStop_bedrock, ↓countBeacon_bedrock, ↓crossCompare_bedrock, ↓modChans_bedrock, ↓outputFaulty_bedrock,
    ↓safeChannel_bedrock]

theorem stopBoundary_bedrock (s : State) (a1 a2 b1 b2 voters : Bool) :
    bedrock (stopBoundary s a1 a2 b1 b2 voters) = bedrock s := by
  simp only [stopBoundary, ↓bedrock_mk, ↓bedrock_fold, ↓apply_ite bedrock, ite_self, ↓foldl_keeps bedrock, implies_true,
    ↓chanBoundary_bedrock, ↓changeStop_bedrock, ↓clearSite_bedrock, ↓outputFaulty_bedrock, ↓passLead_bedrock,
    ↓slBoundary_bedrock]

theorem opStopFilter_bedrock (d : Datagram) (wait : Nat) (s : State) : bedrock (opStopFilter d wait s) = bedrock s := by
  simp only [opStopFilter]
  (repeat' split) <;> simp only [↓bedrock_mk, ↓bedrock_fold, ↓changeStop_bedrock, ↓latchRobot_bedrock, ↓latchSite_bedrock]

theorem finishStop_bedrock (s : State) (r : Request) (hit : Option FilterRec) (status : Nat) :
    bedrock (finishStop s r hit status) = bedrock s := by
  simp only [finishStop, ↓bedrock_mk, ↓bedrock_fold, ↓countStatus_bedrock, ↓queueReply_bedrock, ↓record_bedrock]

theorem stopOp_bedrock (r : Request) (s : State) (opcode : Nat) (rsv ok : Bool) (req : State → State)
    (h : ∀ u, bedrock (req u) = bedrock u) : bedrock (stopOp r s opcode rsv ok req) = bedrock s := by
  simp only [stopOp, ↓apply_ite bedrock, ↓carry_bedrock, ↓finishStop_bedrock, ↓takeLatched_bedrock, ↓h, ite_self]

theorem opStopAll_bedrock (r : Request) (s : State) : bedrock (opStopAll r s) = bedrock s := by
  simp only [opStopAll, implies_true, ↓requestStop_bedrock, ↓stopOp_bedrock]

theorem opStopRobot_bedrock (r : Request) (s : State) : bedrock (opStopRobot r s) = bedrock s := by
  simp only [opStopRobot, implies_true, ↓requestRobotStop_bedrock, ↓stopOp_bedrock]

theorem opStopStatus_bedrock (r : Request) (s : State) : bedrock (opStopStatus r s) = bedrock s := by
  simp only [opStopStatus, ↓readOp_bedrock]

theorem opStopConfig_bedrock (r : Request) (s : State) : bedrock (opStopConfig r s) = bedrock s := by
  simp only [opStopConfig, ↓bedrock_mk, ↓bedrock_fold, ↓apply_ite bedrock, ite_self, ↓change1_bedrock, ↓finish_bedrock,
    ↓need_bedrock, ↓runOp_bedrock, ↓commit_bedrock, ↓takeLatched_bedrock]

theorem opStopReleaseArm_bedrock (r : Request) (s : State) : bedrock (opStopReleaseArm r s) = bedrock s := by
  simp only [opStopReleaseArm, ↓bedrock_mk, ↓bedrock_fold, ↓apply_ite bedrock, ite_self, ↓finish_bedrock, ↓need_bedrock,
    ↓runOp_bedrock, ↓takeLatched_bedrock]

theorem opStopReleaseConfirm_bedrock (r : Request) (s : State) : bedrock (opStopReleaseConfirm r s) = bedrock s := by
  simp only [opStopReleaseConfirm, ↓runOp_bedrock]
  (repeat' split) <;> simp only [↓bedrock_mk, ↓bedrock_fold, ite_self, ↓change1_bedrock, ↓finish_bedrock, ↓need_bedrock,
    ↓commit_bedrock, ↓takeLatched_bedrock]

theorem clearLatches_bedrock (site : Bool) (robot : Nat) (s : State) : bedrock (clearLatches site robot s) = bedrock s := by
  simp only [clearLatches, ↓apply_ite bedrock, ite_self, ↓modChans_bedrock]

theorem opReleaseApply_bedrock (s : State) : bedrock (opReleaseApply s) = bedrock s := by
  simp only [opReleaseApply]
  (repeat' split) <;> simp only [↓bedrock_mk, ↓bedrock_fold, ↓changeStop_bedrock, ↓clearLatches_bedrock]

theorem opFltSwap_bedrock (s : State) : bedrock (opFltSwap s) = bedrock s := by
  simp only [opFltSwap, ↓bedrock_mk, ↓bedrock_fold, ↓apply_ite bedrock, ite_self]

theorem emitStop_bedrock (s : State) : bedrock (emitStop s) = bedrock s := by
  simp only [emitStop, ↓bedrock_mk, ↓bedrock_fold, ↓apply_ite bedrock, ite_self, ↓foldl_keeps bedrock, implies_true,
    ↓raise_bedrock, ↓raiseAt_bedrock]

/-! #### Radio -/

theorem opRadioRx_bedrock (f : AirIn) (s : State) : bedrock (opRadioRx f s) = bedrock s := by
  unfold opRadioRx
  split
  · rfl
  split
  · exact modOne_bedrock ..
  split
  · exact modOne_bedrock ..
  · dsimp only
    split <;> next h =>
      have ha := snd_keeps h (admitFrame_bedrock ..)
      simp only [↓arrived_bedrock, ↓bedrock_mk, ↓bedrock_fold, ↓modOne_bedrock, ha]

theorem addAir_bedrock (s : State) (khz us : Nat) : bedrock (addAir s khz us) = bedrock s := by
  simp only [addAir, ↓bedrock_mk, ↓bedrock_fold]

theorem cutAir_bedrock (s : State) (khz us : Nat) : bedrock (cutAir s khz us) = bedrock s := by
  simp only [cutAir, ↓bedrock_mk, ↓bedrock_fold]

theorem budgetEvent_bedrock (s : State) (cause r kind index : Nat) :
    bedrock (budgetEvent s cause r kind index) = bedrock s := by
  simp only [budgetEvent, ↓bedrock_mk, ↓bedrock_fold]

theorem onAir_bedrock (s : State) (r k khz us phy : Nat) (psdu : Bytes) :
    bedrock (onAir s r k khz us phy psdu) = bedrock s := by
  simp only [onAir, ↓addAir_bedrock, ↓modOne_bedrock, ↓noteSent_bedrock]

theorem elementBytes_bedrock (s : State) (f : AirFrame) (piece : Bytes) (more : Bool) :
    bedrock (elementBytes s f piece more).2 = bedrock s := by
  simp only [elementBytes]
  (repeat' split) <;> simp only [↓bedrock_mk, ↓bedrock_fold, ↓cacheKey_bedrock, ↓modRobot_bedrock]

theorem placeMessage_bedrock (r space j n : Nat) (w : Filling) : bedrock (placeMessage r space j n w).st = bedrock w.st := by
  induction n generalizing w with
  | zero => rfl
  | succ n ih =>
    simp only [placeMessage]
    split
    · rfl
    · split
      · rfl
      · split
        · exact (ih _).trans (elementBytes_bedrock ..)
        · exact elementBytes_bedrock ..

theorem fillFrame_bedrock (s : State) (r space : Nat) : bedrock (fillFrame s r space).st = bedrock s := by
  have key : ∀ (l : List Nat) (w : Filling), bedrock (l.foldl (fun (w : Filling) j =>
      if w.closed then w else
      match w.st.radio.elements[j]? with
      | none => w
      | some f =>
        if leftOn f r = 0 || !(routes w.st f).contains r || !deliverable w.st f || chainBlocked w.st r j f then w
        else placeMessage r space j 64 w) w).st = bedrock w.st := by
    intro l
    induction l with
    | nil => intro w; rfl
    | cons j l ih =>
      intro w
      refine (ih _).trans ?_
      dsimp only
      split
      · rfl
      · split
        · rfl
        · split
          · rfl
          · exact placeMessage_bedrock ..
  exact key _ _

theorem fillSlot_bedrock (s : State) (r k : Nat) : bedrock (fillSlot s r k) = bedrock s := by
  simp only [fillSlot, ↓apply_ite bedrock, ↓arrived_bedrock, ↓modOne_bedrock, ↓fillFrame_bedrock, ↓admitFrame_bedrock, ite_self]

theorem fillBeacons_bedrock (s : State) : bedrock (fillBeacons s) = bedrock s := by
  unfold fillBeacons
  split
  · rfl
  · simp only [↓bedrock_mk, ↓bedrock_fold]
    split <;> next h =>
      have h := snd_keeps h (admitFrame_bedrock ..)
      simp only [↓arrived_bedrock, ↓modOne_bedrock, h]
      split <;> next k =>
        have k := snd_keeps k (admitFrame_bedrock ..)
        simp only [↓arrived_bedrock, ↓modOne_bedrock, k, ↓apply_ite bedrock, ↓bedrock_mk, ↓bedrock_fold, ite_self]

theorem noteTx_bedrock (s : State) : bedrock (noteTx s) = bedrock s := by
  simp only [noteTx, ↓noteQueue_bedrock]

theorem queueCorrection_bedrock (s : State) (p : Bytes) : bedrock (queueCorrection s p) = bedrock s := by
  simp only [queueCorrection, ↓bedrock_mk, ↓bedrock_fold, ↓noteTx_bedrock, ↓queueFragments_bedrock]

theorem dropOldBeacons_bedrock (s : State) : bedrock (dropOldBeacons s) = bedrock s := by
  simp only [dropOldBeacons, ↓bedrock_mk, ↓bedrock_fold, ↓apply_ite bedrock, ite_self, ↓foldl_keeps bedrock, implies_true,
    ↓modOne_bedrock]

theorem dropOldFixes_bedrock (s : State) : bedrock (dropOldFixes s) = bedrock s := by
  simp only [dropOldFixes, ↓bedrock_mk, ↓bedrock_fold]

theorem fillRadio_bedrock (s : State) : bedrock (fillRadio s) = bedrock s := by
  simp only [fillRadio, ↓bedrock_mk, ↓bedrock_fold, ↓apply_ite bedrock, ite_self, ↓foldl_keeps bedrock, implies_true,
    ↓dropOldBeacons_bedrock, ↓dropOldFixes_bedrock, ↓fillBeacons_bedrock, ↓fillSlot_bedrock]

theorem raiseAirCeilings_bedrock (s : State) : bedrock (raiseAirCeilings s) = bedrock s := by
  simp only [raiseAirCeilings, ↓bedrock_mk, ↓bedrock_fold]

theorem launchDown_bedrock (s : State) (r k : Nat) : bedrock (launchDown s r k) = bedrock s := by
  simp only [launchDown]
  split <;> simp only [↓apply_ite bedrock, ite_self, ↓budgetEvent_bedrock, ↓modOne_bedrock, ↓onAir_bedrock]

theorem launchFoghorn_bedrock (s : State) (r : Nat) : bedrock (launchFoghorn s r) = bedrock s := by
  simp only [launchFoghorn, ↓apply_ite bedrock, ite_self, ↓budgetEvent_bedrock, ↓modOne_bedrock, ↓onAir_bedrock]

theorem opTimeslot_bedrock (k : Nat) (s : State) : bedrock (opTimeslot k s) = bedrock s := by
  simp only [opTimeslot, ↓apply_ite bedrock, ite_self, ↓launchDown_bedrock, ↓launchFoghorn_bedrock]

theorem launchAlways_bedrock (s : State) (r k : Nat) (psdu : Bytes) (us : Nat) :
    bedrock (launchAlways s r k psdu us) = bedrock s := by
  simp only [launchAlways, ↓apply_ite bedrock, ite_self, ↓budgetEvent_bedrock, ↓modOne_bedrock, ↓onAir_bedrock]

theorem launchBeacon_bedrock (s : State) (r : Nat) : bedrock (launchBeacon s r) = bedrock s := by
  simp only [launchBeacon]
  split <;> simp only [↓bedrock_mk, ↓bedrock_fold, ↓apply_ite bedrock, ite_self, ↓launchAlways_bedrock, ↓modOne_bedrock]

theorem opBeaconLaunch_bedrock (s : State) : bedrock (opBeaconLaunch s) = bedrock s := by
  simp only [opBeaconLaunch, ↓apply_ite bedrock, ite_self, ↓launchBeacon_bedrock]

theorem launchStop_bedrock (s : State) (r k : Nat) : bedrock (launchStop s r k) = bedrock s := by
  simp only [launchStop, ↓apply_ite bedrock, ite_self, ↓cutAir_bedrock, ↓launchAlways_bedrock, ↓modOne_bedrock]

theorem opStopFrame_bedrock (k : Nat) (s : State) : bedrock (opStopFrame k s) = bedrock s := by
  simp only [opStopFrame, ↓apply_ite bedrock, ite_self, ↓launchStop_bedrock]

theorem radioBoundary_bedrock (s : State) : bedrock (radioBoundary s) = bedrock s := by
  simp only [radioBoundary, ↓bedrock_mk, ↓bedrock_fold]

theorem opRadioSettingsEffect_bedrock (s : State) : bedrock (opRadioSettingsEffect s) = bedrock s := by
  simp only [opRadioSettingsEffect]
  (repeat' split) <;> simp only [↓bedrock_mk, ↓bedrock_fold]

theorem opRadioTestExpiry_bedrock (s : State) : bedrock (opRadioTestExpiry s) = bedrock s := by
  simp only [opRadioTestExpiry, ↓bedrock_mk, ↓bedrock_fold, ↓apply_ite bedrock, ite_self]

theorem emitRadio_bedrock (s : State) : bedrock (emitRadio s) = bedrock s := by
  simp only [emitRadio, ↓bedrock_mk, ↓bedrock_fold, ↓apply_ite bedrock, ite_self, ↓foldl_keeps bedrock, implies_true,
    ↓raise_bedrock]

theorem opRadioStatus_bedrock (r : Request) (s : State) : bedrock (opRadioStatus r s) = bedrock s := by
  simp only [opRadioStatus, ↓readOp_bedrock]

theorem applyRadioCfg_bedrock (p : Bytes) (c : RadioConfig) (s : State) : bedrock (applyRadioCfg p c s) = bedrock s := by
  simp only [applyRadioCfg, ↓bedrock_mk, ↓bedrock_fold]

theorem opRadioConfig_bedrock (r : Request) (s : State) : bedrock (opRadioConfig r s) = bedrock s := by
  simp only [opRadioConfig, ↓apply_ite bedrock, ite_self, ↓applyRadioCfg_bedrock, ↓change1_bedrock, ↓finish_bedrock,
    ↓need_bedrock, ↓runOp_bedrock, ↓commit_bedrock, ↓takeLatched_bedrock]

theorem opRadioBudget_bedrock (r : Request) (s : State) : bedrock (opRadioBudget r s) = bedrock s := by
  simp only [opRadioBudget, ↓readOp_bedrock]

theorem setTest_bedrock (s : State) (mask : Nat) (until' : Option Nat) : bedrock (setTest s mask until') = bedrock s := by
  simp only [setTest, ↓apply_ite bedrock, ite_self, ↓foldl_keeps bedrock, implies_true, ↓modOne_bedrock]

theorem opRadioTest_bedrock (r : Request) (s : State) : bedrock (opRadioTest r s) = bedrock s := by
  simp only [opRadioTest, ↓apply_ite bedrock, ite_self, ↓finish_bedrock, ↓need_bedrock, ↓runOp_bedrock, ↓setTest_bedrock,
    ↓takeLatched_bedrock]

/-! #### Sys -/

theorem opSysIdentity_bedrock (r : Request) (s : State) : bedrock (opSysIdentity r s) = bedrock s := by
  simp only [opSysIdentity, ↓readOp_bedrock]

theorem opSysModeGet_bedrock (r : Request) (s : State) : bedrock (opSysModeGet r s) = bedrock s := by
  simp only [opSysModeGet, ↓readOp_bedrock]

theorem modeSetTo_bedrock (r : Request) (target : Mode) (s : State) : bedrock (modeSetTo r target s) = bedrock s := by
  simp only [modeSetTo, ↓bedrock_mk, ↓bedrock_fold, ↓apply_ite bedrock, ite_self, ↓change1_bedrock, ↓decideMode_bedrock,
    ↓finish_bedrock, ↓refuseMode_bedrock, ↓commit_bedrock]

theorem opSysModeSet_bedrock (r : Request) (s : State) : bedrock (opSysModeSet r s) = bedrock s := by
  unfold opSysModeSet
  split <;> simp only [ite_self, ↓finish_bedrock, ↓modeSetTo_bedrock, ↓runOp_bedrock, ↓takeLatched_bedrock]

theorem opSysReset_bedrock (r : Request) (s : State) : bedrock (opSysReset r s) = bedrock s := by
  simp only [opSysReset, ↓bedrock_mk, ↓bedrock_fold, ite_self, ↓finish_bedrock, ↓need_bedrock, ↓runOp_bedrock,
    ↓takeLatched_bedrock]

theorem opSysPowerConfig_bedrock (r : Request) (s : State) : bedrock (opSysPowerConfig r s) = bedrock s := by
  simp only [opSysPowerConfig, ↓bedrock_mk, ↓bedrock_fold, ↓apply_ite bedrock, ite_self, ↓change1_bedrock, ↓finish_bedrock,
    ↓need_bedrock, ↓runOp_bedrock, ↓commit_bedrock, ↓takeLatched_bedrock]

theorem opSysSessionList_bedrock (r : Request) (s : State) : bedrock (opSysSessionList r s) = bedrock s := by
  simp only [opSysSessionList, ↓readOp_bedrock]

theorem opSysHostEnrol_bedrock (r : Request) (s : State) : bedrock (opSysHostEnrol r s) = bedrock s := by
  simp only [opSysHostEnrol]
  (repeat' split) <;> simp only [↓bedrock_mk, ↓bedrock_fold, ite_self, ↓change1_bedrock, ↓finish_bedrock, ↓need_bedrock,
    ↓runOp_bedrock, ↓commit_bedrock, ↓takeLatched_bedrock]

theorem opSysTenderClose_bedrock (r : Request) (s : State) : bedrock (opSysTenderClose r s) = bedrock s := by
  simp only [opSysTenderClose, ↓bedrock_mk, ↓bedrock_fold, ↓apply_ite bedrock, ite_self, ↓change1_bedrock, ↓finish_bedrock,
    ↓runOp_bedrock, ↓commit_bedrock, ↓takeLatched_bedrock]

/-! #### Keys -/

theorem keyEvent_bedrock (s : State) (tag : Option (Nat × Nat)) (slot action gen : Nat) :
    bedrock (keyEvent s tag slot action gen) = bedrock s := by
  simp only [keyEvent, ↓raiseWith_bedrock]

theorem rollEvent_bedrock (s : State) (tag : Option (Nat × Nat)) (action beacon group effect : Nat) :
    bedrock (rollEvent s tag action beacon group effect) = bedrock s := by
  simp only [rollEvent, ↓raiseWith_bedrock]

theorem emitKeys_bedrock (s : State) : bedrock (emitKeys s) = bedrock s := by
  simp only [emitKeys, ↓bedrock_mk, ↓bedrock_fold, ↓apply_ite bedrock, ite_self, ↓foldl_keeps bedrock, implies_true,
    ↓keyEvent_bedrock, ↓raise_bedrock]

theorem clearTags_bedrock (s : State) (l : List Nat) : bedrock (clearTags s l) = bedrock s := by
  simp only [clearTags, ↓bedrock_mk, ↓bedrock_fold]

theorem endAssocOf_bedrock (s : State) (eui : BitVec 64) : bedrock (endAssocOf s eui) = bedrock s := by
  simp only [endAssocOf]
  split <;> simp only [↓endAssociation_bedrock]

theorem orphan_bedrock (s : State) (i : Nat) : bedrock (orphan s i) = bedrock s := by
  simp only [orphan]
  (repeat' split) <;> simp only [↓bedrock_mk, ↓bedrock_fold, ↓clearTags_bedrock, ↓endAssocOf_bedrock, ↓setAnchor_bedrock]

theorem beginChange_bedrock (s : State) (r : Request) (i : Nat) (new : KeySlot) (destroy : Bool) (reply : Bytes) :
    bedrock (beginChange s r i new destroy reply) = bedrock s := by
  simp only [beginChange, ↓bedrock_mk, ↓bedrock_fold]

theorem flipSlot_bedrock (s : State) (c : SlotChange) : bedrock (flipSlot s c) = bedrock s := by
  simp only [flipSlot, ↓bedrock_mk, ↓bedrock_fold, ↓apply_ite bedrock, ite_self, ↓clearTags_bedrock, ↓commit_bedrock,
    ↓endAssocOf_bedrock, ↓finish_bedrock, ↓keyEvent_bedrock, ↓orphan_bedrock]

theorem persistKeys_bedrock (s : State) : bedrock (persistKeys s) = bedrock s := by
  simp only [persistKeys, ↓bedrock_mk, ↓bedrock_fold, ↓apply_ite bedrock, ite_self, ↓foldl_keeps bedrock, implies_true,
    ↓flipSlot_bedrock, ↓orphan_bedrock]

theorem opKeyStatus_bedrock (r : Request) (s : State) : bedrock (opKeyStatus r s) = bedrock s := by
  simp only [opKeyStatus, ↓readOp_bedrock]

theorem opKeySiteInstall_bedrock (r : Request) (s : State) : bedrock (opKeySiteInstall r s) = bedrock s := by
  simp only [opKeySiteInstall]
  (repeat' split) <;> simp only [ite_self, ↓beginChange_bedrock, ↓checkCsn_bedrock, ↓freshBytes_bedrock, ↓need_bedrock,
    ↓runOp_bedrock, ↓takeLatched_bedrock]

theorem opKeyDestroy_bedrock (r : Request) (s : State) : bedrock (opKeyDestroy r s) = bedrock s := by
  simp only [opKeyDestroy, ite_self, ↓beginChange_bedrock, ↓checkCsn_bedrock, ↓need_bedrock, ↓runOp_bedrock,
    ↓takeLatched_bedrock]

theorem opKeyAnchorSet_bedrock (r : Request) (s : State) : bedrock (opKeyAnchorSet r s) = bedrock s := by
  simp only [opKeyAnchorSet, ite_self, ↓beginChange_bedrock, ↓checkCsn_bedrock, ↓need_bedrock, ↓runOp_bedrock,
    ↓takeLatched_bedrock]

theorem opKeyLinkSet_bedrock (r : Request) (s : State) : bedrock (opKeyLinkSet r s) = bedrock s := by
  simp only [opKeyLinkSet, ↓need_bedrock, ↓runOp_bedrock]
  (repeat' split) <;> simp only [ite_self, ↓beginChange_bedrock, ↓checkCsn_bedrock, ↓finish_bedrock, ↓need_bedrock,
    ↓takeLatched_bedrock]

theorem opKeyRobotExport_bedrock (r : Request) (s : State) : bedrock (opKeyRobotExport r s) = bedrock s := by
  simp only [opKeyRobotExport, ite_self, ↓finish_bedrock, ↓need_bedrock, ↓runOp_bedrock, ↓takeLatched_bedrock]

theorem opKeyRoll_bedrock (r : Request) (s : State) : bedrock (opKeyRoll r s) = bedrock s := by
  simp only [opKeyRoll, ↓bedrock_mk, ↓bedrock_fold, ite_self, ↓foldl_keeps bedrock, implies_true, ↓change1_bedrock,
    ↓need_bedrock, ↓queueMsg_bedrock, ↓rollEvent_bedrock, ↓runOp_bedrock, ↓commit_bedrock, ↓takeLatched_bedrock]

theorem rollNow_bedrock (s : State) : bedrock (rollNow s) = bedrock s := by
  simp only [rollNow]
  split <;> simp only [↓bedrock_mk, ↓bedrock_fold]

theorem opRollEffective_bedrock (s : State) : bedrock (opRollEffective s) = bedrock s := by
  simp only [opRollEffective]
  split <;> simp only [↓apply_ite bedrock, ite_self, ↓rollEvent_bedrock, ↓rollNow_bedrock]

theorem wipeSite_bedrock (s : State) : bedrock (wipeSite s) = bedrock s := by
  simp only [wipeSite, ↓bedrock_mk, ↓bedrock_fold]

theorem trip_bedrock (s : State) (i : Nat) : bedrock (trip s i) = bedrock s := by
  simp only [trip, ↓bedrock_mk, ↓bedrock_fold, ↓apply_ite bedrock, ite_self, ↓wipeSite_bedrock]

theorem opTamperCheck_bedrock (i : Nat) (found : Bool) (rtc : Nat) (s : State) :
    bedrock (opTamperCheck i found rtc s) = bedrock s := by
  simp only [opTamperCheck, ↓bedrock_mk, ↓bedrock_fold, ↓apply_ite bedrock, ite_self, ↓trip_bedrock]

theorem opMaintenanceExpiry_bedrock (s : State) : bedrock (opMaintenanceExpiry s) = bedrock s := by
  simp only [opMaintenanceExpiry, ↓bedrock_mk, ↓bedrock_fold, ↓apply_ite bedrock, ite_self]

theorem keysBoundary_bedrock (s : State) : bedrock (keysBoundary s) = bedrock s := by
  simp only [keysBoundary, ↓bedrock_mk, ↓bedrock_fold, ↓apply_ite bedrock, ite_self, ↓requestStop_bedrock]

theorem applyTamper_bedrock (s : State) : bedrock (applyTamper s) = bedrock s := by
  simp only [applyTamper]
  split <;> simp only [↓bedrock_mk, ↓bedrock_fold]

theorem opKeyTamperConfig_bedrock (r : Request) (s : State) : bedrock (opKeyTamperConfig r s) = bedrock s := by
  simp only [opKeyTamperConfig, ↓bedrock_mk, ↓bedrock_fold, ↓apply_ite bedrock, ite_self, ↓change1_bedrock, ↓finish_bedrock,
    ↓need_bedrock, ↓runOp_bedrock, ↓commit_bedrock, ↓takeLatched_bedrock]

theorem opKeyTamperClear_bedrock (r : Request) (s : State) : bedrock (opKeyTamperClear r s) = bedrock s := by
  simp only [opKeyTamperClear, ↓bedrock_mk, ↓bedrock_fold, ite_self, ↓change1_bedrock, ↓need_bedrock, ↓runOp_bedrock,
    ↓commit_bedrock, ↓takeLatched_bedrock]

theorem signStatements_bedrock (s : State) : bedrock (signStatements s) = bedrock s := by
  simp only [signStatements, ↓bedrock_mk, ↓bedrock_fold, ↓apply_ite bedrock, ite_self, ↓foldl_keeps bedrock, implies_true,
    ↓cacheKey_bedrock, ↓finish_bedrock]

theorem opAttestGet_bedrock (r : Request) (s : State) : bedrock (opAttestGet r s) = bedrock s := by
  simp only [opAttestGet, ↓bedrock_mk, ↓bedrock_fold, ↓apply_ite bedrock, ite_self, ↓finish_bedrock, ↓runOp_bedrock,
    ↓takeLatched_bedrock]

/-! #### Update -/

theorem modSlot_bedrock (s : State) (b : Bool) (f : ImageSlot → ImageSlot) : bedrock (modSlot s b f) = bedrock s := by
  simp only [modSlot, ↓bedrock_mk, ↓bedrock_fold, ↓apply_ite bedrock, ite_self]

theorem changeUpd_bedrock (s : State) (tag : Option (Nat × Nat)) (new cause : Nat) :
    bedrock (changeUpd s tag new cause) = bedrock s := by
  simp only [changeUpd, ↓bedrock_mk, ↓bedrock_fold]

theorem setUpd_bedrock (s : State) (new cause : Nat) : bedrock (setUpd s new cause) = bedrock s := by
  simp only [setUpd, ↓changeUpd_bedrock]

theorem setUpdBy_bedrock (s : State) (r : Request) (new cause : Nat) : bedrock (setUpdBy s r new cause) = bedrock s := by
  simp only [setUpdBy, ↓changeUpd_bedrock]

theorem emitUpd_bedrock (s : State) : bedrock (emitUpd s) = bedrock s := by
  simp only [emitUpd, ↓bedrock_mk, ↓bedrock_fold, ↓foldl_keeps bedrock, implies_true, ↓raiseWith_bedrock]

theorem opUpdStatus_bedrock (r : Request) (s : State) : bedrock (opUpdStatus r s) = bedrock s := by
  simp only [opUpdStatus, ↓readOp_bedrock]

theorem discardReady_bedrock (s : State) : bedrock (discardReady s) = bedrock s := by
  simp only [discardReady, ↓apply_ite bedrock, ite_self, ↓modSlot_bedrock]

theorem opUpdBegin_bedrock (r : Request) (s : State) : bedrock (opUpdBegin r s) = bedrock s := by
  simp only [opUpdBegin, ↓bedrock_mk, ↓bedrock_fold, ↓apply_ite bedrock, ite_self, ↓cacheKey_bedrock, ↓change1_bedrock,
    ↓discardReady_bedrock, ↓need_bedrock, ↓runOp_bedrock, ↓setUpdBy_bedrock, ↓commit_bedrock, ↓takeLatched_bedrock]

theorem opUpdData_bedrock (r : Request) (s : State) : bedrock (opUpdData r s) = bedrock s := by
  simp only [opUpdData, ↓bedrock_mk, ↓bedrock_fold, ite_self, ↓finish_bedrock, ↓need_bedrock, ↓runOp_bedrock,
    ↓takeLatched_bedrock]

theorem opUpdFinish_bedrock (r : Request) (s : State) : bedrock (opUpdFinish r s) = bedrock s := by
  simp only [opUpdFinish, ↓bedrock_mk, ↓bedrock_fold, ite_self, ↓accept_bedrock, ↓checkCsn_bedrock, ↓need_bedrock,
    ↓runOp_bedrock, ↓takeLatched_bedrock]

theorem updBoundary_bedrock (s : State) : bedrock (updBoundary s) = bedrock s := by
  simp only [updBoundary]
  split <;> simp only [↓bedrock_mk, ↓bedrock_fold, ↓apply_ite bedrock, ite_self, ↓modSlot_bedrock, ↓setUpd_bedrock]

theorem opUpdFinishDone_bedrock (s : State) : bedrock (opUpdFinishDone s) = bedrock s := by
  simp only [opUpdFinishDone]
  split <;> simp only [↓bedrock_mk, ↓bedrock_fold, ↓apply_ite bedrock, ite_self, ↓commit_bedrock, ↓finish_bedrock,
    ↓modSlot_bedrock, ↓setUpdBy_bedrock]

theorem stopFinish_bedrock (s : State) : bedrock (stopFinish s) = bedrock s := by
  simp only [stopFinish, ↓bedrock_mk, ↓bedrock_fold, ↓apply_ite bedrock, ite_self, ↓modSlot_bedrock]

theorem opUpdAbort_bedrock (r : Request) (s : State) : bedrock (opUpdAbort r s) = bedrock s := by
  simp only [opUpdAbort, ↓checkCsn_bedrock, ↓need_bedrock, ↓runOp_bedrock]
  (repeat' split) <;> simp only [↓bedrock_mk, ↓bedrock_fold, ↓commit_bedrock, ↓finish_bedrock, ↓finishI_bedrock,
    ↓setUpdBy_bedrock, ↓stopFinish_bedrock, ↓takeLatched_bedrock]

theorem schedule_bedrock (r : Request) (v : Activation) (s : State) : bedrock (schedule r v s) = bedrock s := by
  simp only [schedule, ↓bedrock_mk, ↓bedrock_fold, ite_self, ↓accept_bedrock, ↓checkCsn_bedrock, ↓commit_bedrock,
    ↓setUpdBy_bedrock]

theorem opUpdActivate_bedrock (r : Request) (s : State) : bedrock (opUpdActivate r s) = bedrock s := by
  simp only [opUpdActivate, ite_self, ↓need_bedrock, ↓runOp_bedrock, ↓schedule_bedrock, ↓takeLatched_bedrock]

theorem opUpdActivateAt_bedrock (r : Request) (s : State) : bedrock (opUpdActivateAt r s) = bedrock s := by
  simp only [opUpdActivateAt, ite_self, ↓need_bedrock, ↓runOp_bedrock, ↓schedule_bedrock, ↓takeLatched_bedrock]

theorem opUpdRevert_bedrock (r : Request) (s : State) : bedrock (opUpdRevert r s) = bedrock s := by
  simp only [opUpdRevert, ite_self, ↓need_bedrock, ↓runOp_bedrock, ↓schedule_bedrock, ↓takeLatched_bedrock]

theorem opAnchorActivateSend_bedrock (s : State) : bedrock (opAnchorActivateSend s) = bedrock s := by
  unfold opAnchorActivateSend
  split
  · rfl
  · split
    · rfl
    · refine foldl_keeps bedrock _ _ _ fun u l => ?_
      split
      · exact activateHeads_bedrock ..
      · rfl

theorem checkPassed_bedrock (s : State) (v : Activation) : bedrock (checkPassed s v) = bedrock s := by
  simp only [checkPassed, ↓bedrock_mk, ↓bedrock_fold, ↓apply_ite bedrock, ite_self, ↓commit_bedrock, ↓record_bedrock]

theorem opActivationCheck_bedrock (imagesOk : Bool) (s : State) : bedrock (opActivationCheck imagesOk s) = bedrock s := by
  simp only [opActivationCheck]
  (repeat' split) <;> simp only [↓bedrock_mk, ↓bedrock_fold, ↓checkPassed_bedrock, ↓finish_bedrock, ↓finishI_bedrock,
    ↓refuseMode_bedrock, ↓setUpd_bedrock]

theorem persistTrial_bedrock (s : State) : bedrock (persistTrial s) = bedrock s := by
  simp only [persistTrial]
  split <;> simp only [↓bedrock_mk, ↓bedrock_fold, ↓apply_ite bedrock, ite_self, ↓modSlot_bedrock]

theorem applyFormat_bedrock (s : State) (new : PkgInfo) (revert : Bool) :
    bedrock (applyFormat s new revert) = bedrock s := by
  simp only [applyFormat, ↓bedrock_mk, ↓bedrock_fold]

theorem countReload_bedrock (s : State) (core : Nat) : bedrock (countReload s core) = bedrock s := by
  simp only [countReload, ↓bedrock_mk, ↓bedrock_fold]

theorem opActivation_bedrock (s : State) : bedrock (opActivation s) = bedrock s := by
  simp only [opActivation]
  split <;> simp only [↓bedrock_mk, ↓bedrock_fold, ↓apply_ite bedrock, ite_self, ↓foldl_keeps bedrock, implies_true,
    ↓applyFormat_bedrock, ↓countReload_bedrock, ↓setUpd_bedrock]

theorem opCoreReload_bedrock (core : Nat) (s : State) : bedrock (opCoreReload core s) = bedrock s := by
  simp only [opCoreReload, ↓bedrock_mk, ↓bedrock_fold, ↓apply_ite bedrock, ite_self, ↓trigger_bedrock]

theorem opFltImageHandover_bedrock (s : State) : bedrock (opFltImageHandover s) = bedrock s := by
  simp only [opFltImageHandover]
  split <;> simp only [↓bedrock_mk, ↓bedrock_fold, ↓apply_ite bedrock, ite_self, ↓countReload_bedrock]

theorem freezeTrigger_bedrock (s : State) : bedrock (freezeTrigger s) = bedrock s := by
  simp only [freezeTrigger]
  split <;> simp only [↓apply_ite bedrock, ite_self, ↓trigger_bedrock]

theorem opFreezeEnd_bedrock (s : State) : bedrock (opFreezeEnd s) = bedrock s := by
  simp only [opFreezeEnd]
  (repeat' split) <;> simp only [↓bedrock_mk, ↓bedrock_fold, ↓setUpd_bedrock]

theorem safOver_bedrock (s : State) (v : Activation) (failed : Bool) : bedrock (safOver s v failed) = bedrock s := by
  simp only [safOver]
  split <;> simp only [↓bedrock_mk, ↓bedrock_fold, ↓apply_ite bedrock, ite_self, ↓commit_bedrock, ↓finish_bedrock,
    ↓finishI_bedrock, ↓setUpd_bedrock, ↓setUpdBy_bedrock]

theorem nextTurn_bedrock (s : State) (v : Activation) : bedrock (nextTurn s v) = bedrock s := by
  simp only [nextTurn]
  split <;> simp only [↓bedrock_mk, ↓bedrock_fold, ↓apply_ite bedrock, ite_self, ↓chanState_bedrock, ↓changeStop_bedrock,
    ↓modSaf_bedrock, ↓passLead_bedrock, ↓safOver_bedrock]

theorem opSafUpdateTurn_bedrock (fail : Option Nat) (s : State) : bedrock (opSafUpdateTurn fail s) = bedrock s := by
  simp only [opSafUpdateTurn]
  (repeat' split) <;> simp only [↓bedrock_mk, ↓bedrock_fold, ↓chanState_bedrock, ↓changeStop_bedrock, ↓modSaf_bedrock,
    ↓nextTurn_bedrock, ↓safOver_bedrock, ↓withdraw_bedrock]

theorem opActivationAbandon_bedrock (failed : Bool) (s : State) : bedrock (opActivationAbandon failed s) = bedrock s := by
  simp only [opActivationAbandon]
  split <;> simp only [↓bedrock_mk, ↓bedrock_fold, ↓apply_ite bedrock, ite_self, ↓modSlot_bedrock, ↓record_bedrock,
    ↓setUpd_bedrock]

theorem opUpdConfirm_bedrock (r : Request) (s : State) : bedrock (opUpdConfirm r s) = bedrock s := by
  simp only [opUpdConfirm, ↓bedrock_mk, ↓bedrock_fold, ite_self, ↓change1_bedrock, ↓modSlot_bedrock, ↓need_bedrock,
    ↓runOp_bedrock, ↓setUpdBy_bedrock, ↓commit_bedrock, ↓takeLatched_bedrock]

/-! #### Diag -/

theorem addUnavail_bedrock (s : State) (cause n : Nat) : bedrock (addUnavail s cause n) = bedrock s := by
  simp only [addUnavail, ↓bedrock_mk, ↓bedrock_fold]

theorem countAvail_bedrock (s : State) : bedrock (countAvail s) = bedrock s := by
  simp only [countAvail]
  split <;> simp only [↓bedrock_mk, ↓bedrock_fold, ↓addUnavail_bedrock]

theorem emitFaults_bedrock (s : State) : bedrock (emitFaults s) = bedrock s := by
  simp only [emitFaults, ↓bedrock_mk, ↓bedrock_fold, ↓foldl_keeps bedrock, implies_true, ↓raise_bedrock]

theorem opDiagStatus_bedrock (r : Request) (s : State) : bedrock (opDiagStatus r s) = bedrock s := by
  simp only [opDiagStatus, ↓readOp_bedrock]

theorem opDiagCounters_bedrock (r : Request) (s : State) : bedrock (opDiagCounters r s) = bedrock s := by
  simp only [opDiagCounters, ↓runOp_bedrock]
  (repeat' split) <;> simp only [↓finish_bedrock, ↓takeLatched_bedrock]

theorem opDiagQueueStatus_bedrock (r : Request) (s : State) : bedrock (opDiagQueueStatus r s) = bedrock s := by
  simp only [opDiagQueueStatus, ↓apply_ite bedrock, ite_self, ↓foldl_keeps bedrock, implies_true, ↓finish_bedrock, ↓need_bedrock,
    ↓runOp_bedrock, ↓setQueue_bedrock, ↓takeLatched_bedrock]

theorem opDiagQueueConfig_bedrock (r : Request) (s : State) : bedrock (opDiagQueueConfig r s) = bedrock s := by
  simp only [opDiagQueueConfig]
  (repeat' split) <;> simp only [↓bedrock_mk, ↓bedrock_fold, ite_self, ↓change1_bedrock, ↓finish_bedrock, ↓need_bedrock,
    ↓runOp_bedrock, ↓setQueue_bedrock, ↓commit_bedrock, ↓takeLatched_bedrock]

theorem scrubStrt_bedrock (s : State) : bedrock (scrubStrt s).2 = bedrock s := by
  simp only [scrubStrt, ↓foldl_keeps bedrock, implies_true, ↓detectWay_bedrock]

theorem opDiagSelfTest_bedrock (r : Request) (s : State) : bedrock (opDiagSelfTest r s) = bedrock s := by
  simp only [opDiagSelfTest]
  (repeat' split) <;> simp only [↓bedrock_mk, ↓bedrock_fold, ite_self, ↓accept_bedrock, ↓finish_bedrock, ↓need_bedrock,
    ↓runOp_bedrock, ↓scrubStrt_bedrock, ↓takeLatched_bedrock]

theorem testsBoundary_bedrock (s : State) : bedrock (testsBoundary s) = bedrock s := by
  simp only [testsBoundary, ↓apply_ite bedrock, ite_self, ↓foldl_keeps bedrock, implies_true, ↓plannedTest_bedrock]

theorem reloadAfter_bedrock (s : State) (core : Nat) : bedrock (reloadAfter s core) = bedrock s := by
  simp only [reloadAfter, ↓bedrock_mk, ↓bedrock_fold, ↓countReload_bedrock]

theorem opSelfTestDone_bedrock (target : Nat) (fail : Bool) (detail : Nat) (s : State) :
    bedrock (opSelfTestDone target fail detail s) = bedrock s := by
  simp only [opSelfTestDone]
  split <;> simp only [↓bedrock_mk, ↓bedrock_fold, ↓apply_ite bedrock, ite_self, ↓finish_bedrock, ↓reloadAfter_bedrock]

theorem sendTable_bedrock (s : State) (r : Request) (csn : Nat) (parts : List Bytes) :
    bedrock (sendTable s r csn parts) = bedrock s := by
  simp only [sendTable]
  split <;> simp only [↓modSession_bedrock, ↓queueReply_bedrock, ↓record_bedrock]

theorem takeSnap_bedrock {s u : State} {r : Request} {id : Nat} {k : StrtSnap} (h : takeSnap s r id = some (k, u)) :
    bedrock u = bedrock s := by
  unfold takeSnap at h
  split at h
  · cases h
    exact freshNat_bedrock s
  · obtain ⟨_, _, h⟩ := Option.map_eq_some_iff.mp h
    cases h
    rfl

theorem opDiagTableRead_bedrock (r : Request) (s : State) : bedrock (opDiagTableRead r s) = bedrock s := by
  simp only [opDiagTableRead, ↓apply_ite bedrock, ↓runOp_bedrock, ↓need_bedrock, ↓sendTable_bedrock]
  split
  · rfl
  · refine ite_eq_of_both (ite_eq_of_both (ite_eq_of_both rfl ?_) rfl) rfl
    split
    · exact (finish_bedrock ..).trans (takeLatched_bedrock ..)
    · next h => exact (sendTable_bedrock ..).trans ((takeSnap_bedrock h).trans (takeLatched_bedrock ..))

theorem writeStrtItem_bedrock (s : State) (item : Bytes) : bedrock (writeStrtItem s item).2.2 = bedrock s := by
  unfold writeStrtItem
  dsimp only
  split
  · rfl
  · simp only [↓apply_ite Prod.snd, ↓apply_ite bedrock, ↓bedrock_mk, ↓bedrock_fold, ite_self]

theorem writeRptItem_bedrock (s : State) (item : Bytes) : bedrock (writeRptItem s item).2.2 = bedrock s := by
  simp only [writeRptItem]
  (repeat' split) <;> simp only [↓modRpt_bedrock]

theorem writeItems_bedrock (table : Nat) (l : List Bytes) (acc : List Nat) (s : State) :
    bedrock (writeItems table l acc s).2 = bedrock s := by
  induction l generalizing acc s with
  | nil => rfl
  | cons item l ih =>
    have hw : bedrock (if table = 1 then writeStrtItem s item else writeRptItem s item).2.2 = bedrock s := by
      split
      · exact writeStrtItem_bedrock ..
      · exact writeRptItem_bedrock ..
    simp only [writeItems]
    refine (ih _ _).trans ?_
    split
    · exact (commit_bedrock ..).trans hw
    · exact hw

theorem opDiagTableWrite_bedrock (r : Request) (s : State) : bedrock (opDiagTableWrite r s) = bedrock s := by
  simp only [opDiagTableWrite, ite_self, ↓checkCsn_bedrock, ↓finish_bedrock, ↓need_bedrock, ↓runOp_bedrock, ↓writeItems_bedrock,
    ↓takeLatched_bedrock]

/-! #### Running -/

theorem endOne_bedrock (e : Ending) (s : State) (r : Request) : bedrock (endOne e s r) = bedrock s := by
  simp only [endOne, ↓bedrock_mk, ↓bedrock_fold, ↓finishI_bedrock]

theorem endGnssCal_bedrock (p : Request → Bool) (e : Ending) (s : State) : bedrock (endGnssCal p e s) = bedrock s := by
  simp only [endGnssCal]
  split <;> simp only [↓bedrock_mk, ↓bedrock_fold, ↓apply_ite bedrock, ite_self, ↓endOne_bedrock]

theorem endSurvey_bedrock (p : Request → Bool) (e : Ending) (s : State) : bedrock (endSurvey p e s) = bedrock s := by
  simp only [endSurvey]
  split <;> simp only [↓bedrock_mk, ↓bedrock_fold, ↓apply_ite bedrock, ite_self, ↓endOne_bedrock]

theorem endRelayCmd_bedrock (p : Request → Bool) (e : Ending) (s : State) : bedrock (endRelayCmd p e s) = bedrock s := by
  simp only [endRelayCmd]
  split <;> simp only [↓bedrock_mk, ↓bedrock_fold, ↓apply_ite bedrock, ite_self, ↓endOne_bedrock]

theorem endBuoyCal_bedrock (p : Request → Bool) (e : Ending) (s : State) : bedrock (endBuoyCal p e s) = bedrock s := by
  simp only [endBuoyCal]
  split <;> simp only [↓bedrock_mk, ↓bedrock_fold, ↓apply_ite bedrock, ite_self, ↓endOne_bedrock]

theorem endTests_bedrock (p : Request → Bool) (e : Ending) (s : State) : bedrock (endTests p e s) = bedrock s := by
  simp only [endTests, ↓bedrock_mk, ↓bedrock_fold, ↓foldl_keeps bedrock, implies_true, ↓endOne_bedrock]

theorem endFresh_bedrock (p : Request → Bool) (e : Ending) (s : State) : bedrock (endFresh p e s) = bedrock s := by
  simp only [endFresh, ↓bedrock_mk, ↓bedrock_fold, ↓foldl_keeps bedrock, implies_true, ↓endOne_bedrock]

theorem endChanges_bedrock (p : Request → Bool) (e : Ending) (s : State) : bedrock (endChanges p e s) = bedrock s := by
  simp only [endChanges, ↓bedrock_mk, ↓bedrock_fold, ↓foldl_keeps bedrock, implies_true, ↓endOne_bedrock]

theorem endUpdFinish_bedrock (p : Request → Bool) (e : Ending) (s : State) : bedrock (endUpdFinish p e s) = bedrock s := by
  simp only [endUpdFinish]
  split <;> simp only [↓bedrock_mk, ↓bedrock_fold, ↓apply_ite bedrock, ite_self, ↓endOne_bedrock, ↓modSlot_bedrock,
    ↓setUpd_bedrock]

theorem endPaths_bedrock (p : Request → Bool) (e : Ending) (s : State) : bedrock (endPaths p e s) = bedrock s := by
  simp only [endPaths, ↓bedrock_mk, ↓bedrock_fold, ↓foldl_keeps bedrock, implies_true, ↓endOne_bedrock, ↓modPlan_bedrock]

theorem endRunning_bedrock (p : Request → Bool) (e : Ending) (s : State) : bedrock (endRunning p e s) = bedrock s := by
  simp only [endRunning, ↓endBuoyCal_bedrock, ↓endChanges_bedrock, ↓endFresh_bedrock, ↓endGnssCal_bedrock, ↓endPaths_bedrock,
    ↓endRelayCmd_bedrock, ↓endSurvey_bedrock, ↓endTests_bedrock, ↓endUpdFinish_bedrock]

theorem endByMode_bedrock (s : State) : bedrock (endByMode s) = bedrock s := by
  simp only [endByMode, ↓apply_ite bedrock, ite_self, ↓endBuoyCal_bedrock, ↓endGnssCal_bedrock, ↓endRelayCmd_bedrock,
    ↓endSurvey_bedrock, ↓endTests_bedrock, ↓endUpdFinish_bedrock]

/-! #### Sessions -/

theorem modPort_bedrock (s : State) (port : Port) (f : PortCounters → PortCounters) :
    bedrock (modPort s port f) = bedrock s := by
  simp only [modPort, ↓bedrock_mk, ↓bedrock_fold]

theorem countSession_bedrock (s : State) (slot i : Nat) : bedrock (countSession s slot i) = bedrock s := by
  simp only [countSession, ↓modSession_bedrock]

theorem takeCredit_bedrock (d : Datagram) (slot : Nat) (s : State) : bedrock (takeCredit d slot s) = bedrock s := by
  simp only [takeCredit, ↓apply_ite bedrock, ite_self, ↓countViol_bedrock, ↓modSession_bedrock]

theorem latchLimits_bedrock (s : State) : bedrock (latchLimits s) = bedrock s := by
  simp only [latchLimits, ↓bedrock_mk, ↓bedrock_fold, ↓foldl_keeps bedrock, implies_true, ↓modPort_bedrock]

theorem reject_bedrock (s : State) (d : Datagram) (slot viol status : Nat) :
    bedrock (reject s d slot viol status) = bedrock s := by
  simp only [reject, ↓bedrock_mk, ↓bedrock_fold, ↓countViol_bedrock]

theorem resend_bedrock (s : State) (k : Packet) : bedrock (resend s k) = bedrock s := by
  simp only [resend, ↓bedrock_mk, ↓bedrock_fold]

theorem enqueue_bedrock (s : State) (d : Datagram) (slot : Nat) : bedrock (enqueue s d slot) = bedrock s := by
  simp only [enqueue, ↓bedrock_mk, ↓bedrock_fold, ↓modSession_bedrock, ↓noteQueue_bedrock]

theorem retry_bedrock (s : State) (d : Datagram) (slot : Nat) (e : Session) : bedrock (retry s d slot e) = bedrock s := by
  simp only [retry]
  (repeat' split) <;> simp only [↓reject_bedrock, ↓resend_bedrock]

theorem acceptPacket_bedrock (s : State) (d : Datagram) (slot : Nat) (e : Session) :
    bedrock (acceptPacket s d slot e) = bedrock s := by
  simp only [acceptPacket, ↓apply_ite bedrock, ite_self, ↓enqueue_bedrock, ↓reject_bedrock, ↓retry_bedrock, ↓takeCredit_bedrock]

theorem setOpenSeq_bedrock (s : State) (host seq : Nat) : bedrock (setOpenSeq s host seq) = bedrock s := by
  simp only [setOpenSeq, ↓bedrock_mk, ↓bedrock_fold, ↓apply_ite bedrock, ite_self]

theorem receiveOpen_bedrock (s : State) (d : Datagram) : bedrock (receiveOpen s d) = bedrock s := by
  simp only [receiveOpen]
  split <;> simp only [↓bedrock_mk, ↓bedrock_fold, ↓apply_ite bedrock, ite_self, ↓modPort_bedrock, ↓reject_bedrock,
    ↓setOpenSeq_bedrock]

theorem receiveIn_bedrock (s : State) (d : Datagram) (slot : Nat) (e : Session) :
    bedrock (receiveIn s d slot e) = bedrock s := by
  simp only [receiveIn]
  split <;> simp only [↓apply_ite bedrock, ite_self, ↓acceptPacket_bedrock, ↓countSession_bedrock, ↓modPort_bedrock,
    ↓modSession_bedrock]

theorem countElsewhere_bedrock (s : State) (d : Datagram) : bedrock (countElsewhere s d) = bedrock s := by
  simp only [countElsewhere]
  split <;> simp only [↓apply_ite bedrock, ite_self, ↓countSession_bedrock]

theorem receive_bedrock (s : State) (d : Datagram) : bedrock (receive s d) = bedrock s := by
  simp only [receive]
  (repeat' split) <;> simp only [↓countElsewhere_bedrock, ↓modPort_bedrock, ↓portFrame_bedrock, ↓portOther_bedrock,
    ↓receiveIn_bedrock, ↓receiveOpen_bedrock]

theorem opCommandReceive_bedrock (d : Datagram) (s : State) : bedrock (opCommandReceive d s) = bedrock s := by
  simp only [opCommandReceive, ↓receive_bedrock]

theorem opHostCredit_bedrock (d : Datagram) (s : State) : bedrock (opHostCredit d s) = bedrock s := by
  simp only [opHostCredit, ↓receive_bedrock]

theorem dropSession_bedrock (s : State) (slot : Nat) (own : Bool) : bedrock (dropSession s slot own) = bedrock s := by
  simp only [dropSession]
  split <;> simp only [↓bedrock_mk, ↓bedrock_fold, ↓foldl_keeps bedrock, implies_true, ↓endOne_bedrock, ↓endRunning_bedrock]

theorem closeSession_bedrock (s : State) (slot reason : Nat) (own : Bool) (tag : Option (Nat × Nat)) :
    bedrock (closeSession s slot reason own tag) = bedrock s := by
  simp only [closeSession]
  split <;> simp only [↓dropSession_bedrock, ↓raiseWith_bedrock]

theorem closeBy_bedrock (s : State) (slot reason : Nat) : bedrock (closeBy s slot reason) = bedrock s := by
  simp only [closeBy, ↓apply_ite bedrock, ite_self, ↓closeSession_bedrock, ↓commitBy_bedrock]

theorem checkLeases_bedrock (s : State) : bedrock (checkLeases s) = bedrock s := by
  simp only [checkLeases, ↓bedrock_mk, ↓bedrock_fold]

theorem opLease_bedrock (slot : Nat) (s : State) : bedrock (opLease slot s) = bedrock s := by
  simp only [opLease]
  split <;> simp only [↓apply_ite bedrock, ite_self, ↓closeBy_bedrock]

theorem closeDue_bedrock (s : State) : bedrock (closeDue s) = bedrock s := by
  unfold closeDue
  refine (foldl_keeps bedrock _ _ _ fun u b => ?_).trans ?_
  · (repeat' split) <;> simp only [↓closeBy_bedrock]
  · dsimp only

theorem openSession_bedrock (r : Request) (role : Role) (slot : Nat) (s : State) :
    bedrock (openSession r role slot s) = bedrock s := by
  simp only [openSession, ↓bedrock_mk, ↓bedrock_fold, ↓apply_ite bedrock, ite_self, ↓cacheKey_bedrock, ↓commit_bedrock,
    ↓finish_bedrock, ↓freshBytes_bedrock]

theorem opSysSessionOpen_bedrock (r : Request) (s : State) : bedrock (opSysSessionOpen r s) = bedrock s := by
  unfold opSysSessionOpen
  dsimp only
  split
  · simp only [↓runOp_bedrock, id_eq, ↓takeLatched_bedrock, ite_self]
  · split
    · rfl
    · simp only [↓apply_ite bedrock, ↓finish_bedrock]
      split
      · rfl
      · split
        · rfl
        · split
          · exact (finish_bedrock ..).trans (takeLatched_bedrock ..)
          · simp only [↓need_bedrock]
            split
            · split
              · split
                · exact (finish_bedrock ..).trans (takeLatched_bedrock ..)
                · simp only [↓checkCsn_bedrock, ↓openSession_bedrock, ↓takeLatched_bedrock, ite_self]
              · rfl
            · rfl

theorem opSysSessionClose_bedrock (r : Request) (s : State) : bedrock (opSysSessionClose r s) = bedrock s := by
  simp only [opSysSessionClose, ↓runOp_bedrock]
  split
  · split
    · exact (finish_bedrock ..).trans (takeLatched_bedrock ..)
    · simp only [↓checkCsn_bedrock, ↓apply_ite bedrock, opSysSessionClose.closeOther, ↓closeSession_bedrock, ↓finish_bedrock,
      ↓bedrock_mk, ↓bedrock_fold, ↓commit_bedrock, ↓takeLatched_bedrock, ite_self]
  · rfl

theorem opSysHostRevoke_bedrock (r : Request) (s : State) : bedrock (opSysHostRevoke r s) = bedrock s := by
  simp only [opSysHostRevoke, ↓bedrock_mk, ↓bedrock_fold, ite_self, ↓foldl_keeps bedrock, implies_true, ↓checkCsn_bedrock,
    ↓closeSession_bedrock, ↓commit_bedrock, ↓finish_bedrock, ↓need_bedrock, ↓runOp_bedrock, ↓takeLatched_bedrock]

theorem opHostLoss_bedrock (s : State) : bedrock (opHostLoss s) = bedrock s := by
  simp only [opHostLoss, ↓apply_ite bedrock, ite_self, ↓trigger_bedrock]

theorem opReferenceLost_bedrock (s : State) : bedrock (opReferenceLost s) = bedrock s := by
  simp only [opReferenceLost, ↓apply_ite bedrock, ite_self, ↓trigger_bedrock]

/-! #### Boot -/

theorem opBackupDomainLoss_bedrock (s : State) : bedrock (opBackupDomainLoss s) = bedrock s := by
  simp only [opBackupDomainLoss, ↓bedrock_mk, ↓bedrock_fold, ↓apply_ite bedrock, ite_self]

theorem countTrial_bedrock (s : State) (b : Bool) : bedrock (countTrial s b) = bedrock s := by
  simp only [countTrial, ↓apply_ite bedrock, ite_self, ↓modSlot_bedrock]

theorem trySlots_bedrock (i : BootIn) (first : Bool) (l : List Bool) (s : State) :
    bedrock (trySlots i first l s).2 = bedrock s := by
  induction l generalizing s with
  | nil => rfl
  | cons b l ih =>
    simp only [trySlots, ↓apply_ite Prod.snd, ↓apply_ite bedrock, ↓ih, ↓countTrial_bedrock, ite_self]

theorem bootFailed_bedrock (s : State) : bedrock (bootFailed s) = bedrock s := by
  simp only [bootFailed, ↓bedrock_mk, ↓bedrock_fold]

theorem slotChosen_bedrock (b : Bool) (s : State) : bedrock (slotChosen b s) = bedrock s := by
  simp only [slotChosen, ↓bedrock_mk, ↓bedrock_fold]

theorem checkSlot_bedrock (s : State) (i : Nat) : bedrock (checkSlot s i) = bedrock s := by
  simp only [checkSlot, ↓bedrock_mk, ↓bedrock_fold, ↓apply_ite bedrock, ite_self]

theorem restoreBackup_bedrock (s : State) : bedrock (restoreBackup s) = bedrock s := by
  simp only [restoreBackup, ↓bedrock_mk, ↓bedrock_fold, ↓apply_ite bedrock, ite_self, ↓trip_bedrock]

theorem wipedWork_bedrock (s : State) : bedrock (wipedWork s) = bedrock s := by
  simp only [wipedWork, ↓bedrock_mk, ↓bedrock_fold, ↓apply_ite bedrock, ite_self, ↓orphan_bedrock]

theorem keysStill_bedrock (s : State) : bedrock (keysStill s) = bedrock s := by
  simp only [keysStill, ↓bedrock_mk, ↓bedrock_fold, ↓apply_ite bedrock, ite_self, ↓foldl_keeps bedrock, implies_true,
    ↓checkSlot_bedrock, ↓restoreBackup_bedrock, ↓wipedWork_bedrock]

theorem ceilings_bedrock (s : State) : bedrock (ceilings s) = bedrock s := by
  simp only [ceilings, ↓bedrock_mk, ↓bedrock_fold]

theorem countReset_bedrock (i : BootIn) (s : State) : bedrock (countReset i s) = bedrock s := by
  simp only [countReset, ↓bedrock_mk, ↓bedrock_fold, ↓apply_ite bedrock, ite_self, ↓addUnavail_bedrock]

theorem rebuild_bedrock (s : State) : bedrock (rebuild s) = bedrock s := by
  simp only [rebuild, ↓bedrock_mk, ↓bedrock_fold]

theorem robotStill_bedrock (s : State) (i : Nat) : bedrock (robotStill s i) = bedrock s := by
  simp only [robotStill]
  (repeat' split) <;> simp only [↓lnkSState_bedrock, ↓rptEnrol_bedrock]

theorem phase6_bedrock (i : BootIn) (s : State) : bedrock (phase6 i s) = bedrock s := by
  simp only [phase6, ↓bedrock_mk, ↓bedrock_fold, ↓apply_ite bedrock, ite_self, ↓latchSite_bedrock, ↓outputFaulty_bedrock]

theorem enterFirst_bedrock (ctrl : Bool) (s : State) : bedrock (enterFirst ctrl s) = bedrock s := by
  simp only [enterFirst, ↓bedrock_mk, ↓bedrock_fold, ↓foldl_keeps bedrock, implies_true, ↓canStart_bedrock,
    ↓driveSwitches_bedrock, ↓restoreHolds_bedrock, ↓robotStill_bedrock, ↓rollNow_bedrock]

/-! #### Faults -/

theorem fltFailed_bedrock (s : State) : bedrock (fltFailed s) = bedrock s := by
  simp only [fltFailed, ↓bedrock_mk, ↓bedrock_fold, ↓apply_ite bedrock, ite_self]

theorem voidPositions_bedrock (s : State) : bedrock (voidPositions s) = bedrock s := by
  simp only [voidPositions, ↓bedrock_mk, ↓bedrock_fold]

theorem safOverrun_bedrock (c : Nat) (s : State) : bedrock (safOverrun c s) = bedrock s := by
  simp only [safOverrun]
  split <;> simp only [↓bedrock_mk, ↓bedrock_fold, ↓apply_ite bedrock, ite_self, ↓changeStop_bedrock, ↓modSaf_bedrock,
    ↓withdraw_bedrock]

theorem failSec_bedrock (s : State) : bedrock (failSec s) = bedrock s := by
  simp only [failSec]
  split <;> simp only [↓endChanges_bedrock, ↓endFresh_bedrock, ↓endUpdFinish_bedrock]

theorem secOverrun_bedrock (s : State) : bedrock (secOverrun s).2 = bedrock s := by
  simp only [secOverrun]
  (repeat' split) <;> simp only [↓bedrock_mk, ↓bedrock_fold, ↓failSec_bedrock]

theorem overrunAction_bedrock (s : State) (core : Nat) : bedrock (overrunAction s core).2 = bedrock s := by
  simp only [overrunAction]
  (repeat' split) <;> simp only [↓bedrock_mk, ↓bedrock_fold, ↓fltFailed_bedrock, ↓safOverrun_bedrock, ↓secOverrun_bedrock,
    ↓voidPositions_bedrock]

theorem overrun_bedrock (s : State) (core : Nat) (w : Window) : bedrock (overrun s core w) = bedrock s := by
  simp only [overrun, ↓bedrock_mk, ↓bedrock_fold, ↓overrunAction_bedrock]

theorem opWindowOverrun_bedrock (core : Nat) (w : Window) (s : State) : bedrock (opWindowOverrun core w s) = bedrock s := by
  simp only [opWindowOverrun, ↓apply_ite bedrock, ite_self, ↓overrun_bedrock]

theorem countUncorrected_bedrock (s : State) (k : Nat) : bedrock (countUncorrected s k) = bedrock s := by
  simp only [countUncorrected, ↓bedrock_mk, ↓bedrock_fold]

theorem countCorrected_bedrock (s : State) (block : Nat) : bedrock (countCorrected s block) = bedrock s := by
  simp only [countCorrected]
  split <;> simp only [↓bedrock_mk, ↓bedrock_fold]

theorem memEvent_bedrock (s : State) (f : MemFault) : bedrock (memEvent s f) = bedrock s := by
  simp only [memEvent, ↓bedrock_mk, ↓bedrock_fold]

theorem coreFault_bedrock (s : State) (core : Nat) (w : Window) : bedrock (coreFault s core w) = bedrock s := by
  simp only [coreFault, ↓bedrock_mk, ↓bedrock_fold, ↓apply_ite bedrock, ite_self, ↓countReload_bedrock, ↓overrun_bedrock,
    ↓trigger_bedrock]

theorem rptFault_bedrock (s : State) (k : Nat) : bedrock (rptFault s k) = bedrock s := by
  simp only [rptFault, ↓bedrock_mk, ↓bedrock_fold, ↓apply_ite bedrock, ite_self, ↓modRpt_bedrock]

theorem tableFault_bedrock (s : State) (table k : Nat) : bedrock (tableFault s table k) = bedrock s := by
  simp only [tableFault]
  split <;> simp only [↓bedrock_mk, ↓bedrock_fold, ↓apply_ite bedrock, ite_self, ↓dropSession_bedrock, ↓rptFault_bedrock]

theorem rptRestored_bedrock (s : State) (k : Nat) : bedrock (rptRestored s k) = bedrock s := by
  simp only [rptRestored, ↓bedrock_mk, ↓bedrock_fold, ↓apply_ite bedrock, ite_self]

theorem restoreOne_bedrock (s : State) (e : Nat × Nat) : bedrock (restoreOne s e) = bedrock s := by
  simp only [restoreOne]
  split <;> simp only [↓bedrock_mk, ↓bedrock_fold, ↓robotStill_bedrock, ↓rptRestored_bedrock]

theorem restoreTables_bedrock (s : State) : bedrock (restoreTables s) = bedrock s := by
  simp only [restoreTables, ↓bedrock_mk, ↓bedrock_fold, ↓foldl_keeps bedrock, implies_true, ↓restoreOne_bedrock]

theorem searchFault_bedrock (s : State) (unit : Nat) : bedrock (searchFault s unit) = bedrock s := by
  simp only [searchFault, ↓bedrock_mk, ↓bedrock_fold]

theorem captureFault_bedrock (s : State) : bedrock (captureFault s) = bedrock s := by
  simp only [captureFault, ↓bedrock_mk, ↓bedrock_fold, ↓foldl_keeps bedrock, implies_true, ↓modSession_bedrock]

theorem stagingFault_bedrock (s : State) : bedrock (stagingFault s) = bedrock s := by
  simp only [stagingFault, ↓bedrock_mk, ↓bedrock_fold, ↓apply_ite bedrock, ite_self, ↓endUpdFinish_bedrock, ↓setUpd_bedrock]

theorem dramFault_bedrock (s : State) (f : MemIn) : bedrock (dramFault s f) = bedrock s := by
  simp only [dramFault]
  split <;> simp only [↓apply_ite bedrock, ite_self, ↓captureFault_bedrock, ↓faultQueue_bedrock, ↓memEvent_bedrock,
    ↓stagingFault_bedrock]

theorem wayFault_bedrock (s : State) (f : MemIn) : bedrock (wayFault s f) = bedrock s := by
  simp only [wayFault, ↓bedrock_mk, ↓bedrock_fold]

/-! #### Persist -/

theorem finalise_bedrock (s : State) : bedrock (finalise s) = bedrock s := by
  simp only [finalise, ↓bedrock_mk, ↓bedrock_fold, ↓apply_ite bedrock, ite_self]

theorem writeRec_bedrock (s : State) (j : JournalRec) : bedrock (writeRec s j) = bedrock s := by
  simp only [writeRec, ↓bedrock_mk, ↓bedrock_fold]

theorem writeCmdRec_bedrock (s : State) (j : JournalRec) : bedrock (writeCmdRec s j) = bedrock s := by
  simp only [writeCmdRec, ↓bedrock_mk, ↓bedrock_fold, ↓apply_ite bedrock, ite_self, ↓writeRec_bedrock]

theorem writeInternal_bedrock (s : State) (e : InternalRec) : bedrock (writeInternal s e) = bedrock s := by
  simp only [writeInternal, ↓bedrock_mk, ↓bedrock_fold, ↓apply_ite bedrock, ite_self, ↓writeRec_bedrock]

theorem writeLogs_bedrock (s : State) : bedrock (writeLogs s) = bedrock s := by
  simp only [writeLogs, ↓bedrock_mk, ↓bedrock_fold, ↓foldl_keeps bedrock, implies_true]

theorem writeJournal_bedrock (s : State) : bedrock (writeJournal s) = bedrock s := by
  simp only [writeJournal, ↓bedrock_mk, ↓bedrock_fold, ↓foldl_keeps bedrock, implies_true, ↓finalise_bedrock,
    ↓writeCmdRec_bedrock, ↓writeInternal_bedrock, ↓writeLogs_bedrock]

theorem writeControl_bedrock (s : State) : bedrock (writeControl s) = bedrock s := by
  simp only [writeControl, ↓bedrock_mk, ↓bedrock_fold]

theorem confirmStandby_bedrock (s : State) : bedrock (confirmStandby s) = bedrock s := by
  simp only [confirmStandby, ↓bedrock_mk, ↓bedrock_fold, ↓apply_ite bedrock, ite_self]

/-! #### Cycle -/

theorem shiftSessions_bedrock (d : Int) (s : State) : bedrock (shiftSessions d s) = bedrock s := by
  simp only [shiftSessions, ↓bedrock_mk, ↓bedrock_fold]

theorem shiftLinks_bedrock (d : Int) (s : State) : bedrock (shiftLinks d s) = bedrock s := by
  simp only [shiftLinks, ↓bedrock_mk, ↓bedrock_fold]

theorem shiftRobots_bedrock (d : Int) (s : State) : bedrock (shiftRobots d s) = bedrock s := by
  simp only [shiftRobots, ↓bedrock_mk, ↓bedrock_fold]

theorem shiftStop_bedrock (d : Int) (s : State) : bedrock (shiftStop d s) = bedrock s := by
  simp only [shiftStop, ↓bedrock_mk, ↓bedrock_fold]

theorem shiftAll_bedrock (d : Int) (s : State) : bedrock (shiftAll d s) = bedrock s := by
  simp only [shiftAll, ↓shiftLinks_bedrock, ↓shiftRobots_bedrock, ↓shiftSessions_bedrock, ↓shiftStop_bedrock]

theorem stepState_bedrock (s : State) (q : StepReq) : bedrock (stepState s q) = bedrock s := by
  simp only [stepState, ↓bedrock_mk, ↓bedrock_fold, ↓apply_ite bedrock, ite_self]

theorem applyStep_bedrock (s : State) (q : StepReq) : bedrock (applyStep s q) = bedrock s := by
  simp only [applyStep, ↓bedrock_mk, ↓bedrock_fold, ↓stepState_bedrock, ↓latchReferences_bedrock]

theorem opStep_bedrock (s : State) : bedrock (opStep s) = bedrock s := by
  simp only [opStep]
  split <;> simp only [↓apply_ite bedrock, ite_self, ↓applyStep_bedrock]

theorem stepTable_bedrock (s : State) : bedrock (stepTable s) = bedrock s := by
  simp only [stepTable, ↓bedrock_mk, ↓bedrock_fold, ↓apply_ite bedrock, ite_self, ↓activateHolds_bedrock]

theorem handOver_bedrock (s : State) : bedrock (handOver s) = bedrock s := by
  simp only [handOver]
  split <;> simp only [↓bedrock_mk, ↓bedrock_fold]

theorem powerBoundary_bedrock (s : State) : bedrock (powerBoundary s) = bedrock s := by
  simp only [powerBoundary, ↓bedrock_mk, ↓bedrock_fold, ↓apply_ite bedrock, ite_self]

theorem supplyBoundary_bedrock (s : State) (mv : Nat) : bedrock (supplyBoundary s mv) = bedrock s := by
  simp only [supplyBoundary, ↓bedrock_mk, ↓bedrock_fold]

theorem latchInputs_bedrock (s : State) : bedrock (latchInputs s) = bedrock s := by
  simp only [latchInputs, ↓bedrock_mk, ↓bedrock_fold, ↓latchLimits_bedrock]

theorem modeBoundary_bedrock (s : State) (lull : Bool) : bedrock (modeBoundary s lull) = bedrock s := by
  simp only [modeBoundary, ↓bedrock_mk, ↓bedrock_fold, ↓apply_ite bedrock, ite_self, ↓applyMode_bedrock, ↓endByMode_bedrock]

theorem unitsBoundary_bedrock (s : State) (i : BoundaryIn) : bedrock (unitsBoundary s i) = bedrock s := by
  simp only [unitsBoundary, ↓bedrock_mk, ↓bedrock_fold, ↓apply_ite bedrock, ite_self, ↓buoyBoundary_bedrock,
    ↓canBoundary_bedrock, ↓gnssBoundary_bedrock, ↓keysBoundary_bedrock, ↓latchPorts_bedrock, ↓latchRadio_bedrock,
    ↓radioBoundary_bedrock, ↓refBoundary_bedrock, ↓restoreTables_bedrock, ↓stepTable_bedrock, ↓stopBoundary_bedrock,
    ↓testsBoundary_bedrock, ↓updBoundary_bedrock, ↓zonesBoundary_bedrock]

theorem takeLeap_bedrock (s : State) (i : SolveIn) : bedrock (takeLeap s i) = bedrock s := by
  simp only [takeLeap]
  split <;> simp only [↓bedrock_mk, ↓bedrock_fold]

theorem posWork_bedrock (s : State) (i : SolveIn) : bedrock (posWork s i) = bedrock s := by
  simp only [posWork, ↓bedrock_mk, ↓bedrock_fold, ↓prunePeriods_bedrock, ↓releasePositions_bedrock, ↓solveBlinks_bedrock,
    ↓solveEpoch_bedrock, ↓takeLeap_bedrock]

theorem countReferences_bedrock (s : State) : bedrock (countReferences s) = bedrock s := by
  simp only [countReferences, ↓bedrock_mk, ↓bedrock_fold, ↓apply_ite bedrock, ite_self, ↓trigger_bedrock]

/-! #### Windows -/

theorem opBuoyRelay_bedrock (r : Request) (s : State) : bedrock (opBuoyRelay r s) = bedrock s := by
  simp only [opBuoyRelay]
  split <;> simp only [implies_true, ↓finish_bedrock, ↓opBuoyRelayAbort_bedrock, ↓opBuoyRelayActivate_bedrock,
    ↓opBuoyRelayStart_bedrock, ↓relayOp_bedrock]

theorem badOpcode_bedrock (r : Request) (s : State) : bedrock (badOpcode r s) = bedrock s := by
  simp only [badOpcode, ↓apply_ite bedrock, ite_self, ↓finish_bedrock, ↓takeLatched_bedrock]

theorem opsSys_bedrock {n : Nat} {f : Request → State → State} (h : opsSys n = some f) (r : Request) (s : State) :
    bedrock (f r s) = bedrock s := by
  unfold opsSys at h
  split at h <;> simp only [Option.some.injEq, reduceCtorEq] at h <;> subst h <;>
    simp only [↓opSysIdentity_bedrock, ↓opSysModeGet_bedrock, ↓opSysModeSet_bedrock, ↓opSysReset_bedrock,
      ↓opSysPowerConfig_bedrock, ↓opSysSessionOpen_bedrock, ↓opSysSessionClose_bedrock, ↓opSysSessionList_bedrock,
      ↓opSysHostEnrol_bedrock, ↓opSysHostRevoke_bedrock, ↓opSysTenderClose_bedrock, ↓opSysNetConfig_bedrock,
      ↓opSysAuxConfig_bedrock, ↓opSysAuxSet_bedrock, ↓opSysPortStatus_bedrock]

theorem opsTime_bedrock {n : Nat} {f : Request → State → State} (h : opsTime n = some f) (r : Request) (s : State) :
    bedrock (f r s) = bedrock s := by
  unfold opsTime at h
  split at h <;> simp only [Option.some.injEq, reduceCtorEq] at h <;> subst h <;>
    simp only [↓opTimeGet_bedrock, ↓opTimeConfig_bedrock, ↓opTimeStep_bedrock, ↓opTimeTriggerSet_bedrock,
      ↓opTimeTriggerGet_bedrock]

theorem opsGnss_bedrock {n : Nat} {f : Request → State → State} (h : opsGnss n = some f) (r : Request) (s : State) :
    bedrock (f r s) = bedrock s := by
  unfold opsGnss at h
  split at h <;> simp only [Option.some.injEq, reduceCtorEq] at h <;> subst h <;>
    simp only [↓opGnssStatus_bedrock, ↓opGnssConfig_bedrock, ↓opGnssMeasRead_bedrock, ↓opGnssNotchSet_bedrock,
      ↓opGnssCalibrate_bedrock]

theorem opsRef_bedrock {n : Nat} {f : Request → State → State} (h : opsRef n = some f) (r : Request) (s : State) :
    bedrock (f r s) = bedrock s := by
  unfold opsRef at h
  split at h <;> simp only [Option.some.injEq, reduceCtorEq] at h <;> subst h <;>
    simp only [↓opRefStatus_bedrock, ↓opRefBaseSet_bedrock, ↓opRefConfig_bedrock, ↓opRefSurveyStart_bedrock,
      ↓opRefRtcmSubscribe_bedrock]

theorem opsBuoy_bedrock {n : Nat} {f : Request → State → State} (h : opsBuoy n = some f) (r : Request) (s : State) :
    bedrock (f r s) = bedrock s := by
  unfold opsBuoy at h
  split at h <;> simp only [Option.some.injEq, reduceCtorEq] at h <;> subst h <;>
    simp only [↓opBuoyStatus_bedrock, ↓opBuoyAnchorSet_bedrock, ↓opBuoyConfig_bedrock, ↓opBuoyCalibrate_bedrock,
      ↓opBuoyZoneSet_bedrock, ↓opBuoyFixSubscribe_bedrock, ↓opBuoyRelay_bedrock]

theorem opsSess_bedrock {n : Nat} {f : Request → State → State} (h : opsSess n = some f) (r : Request) (s : State) :
    bedrock (f r s) = bedrock s := by
  unfold opsSess at h
  split at h <;> simp only [Option.some.injEq, reduceCtorEq] at h <;> subst h <;>
    simp only [↓opSessConfig_bedrock, ↓opSessClassSet_bedrock, ↓opSessClassGet_bedrock, ↓opSessEnrol_bedrock,
      ↓opSessRevoke_bedrock, ↓opSessRelease_bedrock, ↓opSessGet_bedrock, ↓opSessList_bedrock]

theorem opsTask_bedrock {n : Nat} {f : Request → State → State} (h : opsTask n = some f) (r : Request) (s : State) :
    bedrock (f r s) = bedrock s := by
  unfold opsTask at h
  split at h <;> simp only [Option.some.injEq, reduceCtorEq] at h <;> subst h <;>
    simp only [↓opTaskPost_bedrock, ↓opTaskModify_bedrock, ↓opTaskCancel_bedrock, ↓opTaskGet_bedrock, ↓opTaskList_bedrock,
      ↓opTaskConfig_bedrock]

theorem opsStrt_bedrock {n : Nat} {f : Request → State → State} (h : opsStrt n = some f) (r : Request) (s : State) :
    bedrock (f r s) = bedrock s := by
  unfold opsStrt at h
  split at h <;> simp only [Option.some.injEq, reduceCtorEq] at h <;> subst h <;>
    simp only [↓opStrtGridSet_bedrock, ↓opStrtStatus_bedrock, ↓opStrtHoldSet_bedrock, ↓opStrtHoldClear_bedrock,
      ↓opStrtHoldList_bedrock, ↓opStrtReservePath_bedrock, ↓opPathGet_bedrock, ↓opPathRequest_bedrock, ↓opPathStatus_bedrock]

theorem opsStop_bedrock {n : Nat} {f : Request → State → State} (h : opsStop n = some f) (r : Request) (s : State) :
    bedrock (f r s) = bedrock s := by
  unfold opsStop at h
  split at h <;> simp only [Option.some.injEq, reduceCtorEq] at h <;> subst h <;>
    simp only [↓opStopAll_bedrock, ↓opStopRobot_bedrock, ↓opStopStatus_bedrock, ↓opStopConfig_bedrock, ↓opStopReleaseArm_bedrock,
      ↓opStopReleaseConfirm_bedrock]

theorem opsRadio_bedrock {n : Nat} {f : Request → State → State} (h : opsRadio n = some f) (r : Request) (s : State) :
    bedrock (f r s) = bedrock s := by
  unfold opsRadio at h
  split at h <;> simp only [Option.some.injEq, reduceCtorEq] at h <;> subst h <;>
    simp only [↓opRadioStatus_bedrock, ↓opRadioConfig_bedrock, ↓opRadioBudget_bedrock, ↓opRadioTest_bedrock]

theorem opsCan_bedrock {n : Nat} {f : Request → State → State} (h : opsCan n = some f) (r : Request) (s : State) :
    bedrock (f r s) = bedrock s := by
  unfold opsCan at h
  split at h <;> simp only [Option.some.injEq, reduceCtorEq] at h <;> subst h <;>
    simp only [↓opCanStatus_bedrock, ↓opCanConfig_bedrock, ↓opCanRuleSet_bedrock, ↓opCanNodeSet_bedrock, ↓opCanSend_bedrock,
      ↓opCanSubscribe_bedrock, ↓opCanSleep_bedrock]

theorem opsKey_bedrock {n : Nat} {f : Request → State → State} (h : opsKey n = some f) (r : Request) (s : State) :
    bedrock (f r s) = bedrock s := by
  unfold opsKey at h
  split at h <;> simp only [Option.some.injEq, reduceCtorEq] at h <;> subst h <;>
    simp only [↓opKeyStatus_bedrock, ↓opKeySiteInstall_bedrock, ↓opKeyDestroy_bedrock, ↓opKeyAnchorSet_bedrock,
      ↓opKeyLinkSet_bedrock, ↓opKeyRobotExport_bedrock, ↓opKeyRoll_bedrock, ↓opKeyTamperConfig_bedrock,
      ↓opKeyTamperClear_bedrock, ↓opAttestGet_bedrock]

theorem opsUpd_bedrock {n : Nat} {f : Request → State → State} (h : opsUpd n = some f) (r : Request) (s : State) :
    bedrock (f r s) = bedrock s := by
  unfold opsUpd at h
  split at h <;> simp only [Option.some.injEq, reduceCtorEq] at h <;> subst h <;>
    simp only [↓opUpdStatus_bedrock, ↓opUpdBegin_bedrock, ↓opUpdData_bedrock, ↓opUpdFinish_bedrock, ↓opUpdAbort_bedrock,
      ↓opUpdActivate_bedrock, ↓opUpdActivateAt_bedrock, ↓opUpdConfirm_bedrock, ↓opUpdRevert_bedrock]

theorem opsJrnl_bedrock {n : Nat} {f : Request → State → State} (h : opsJrnl n = some f) (r : Request) (s : State) :
    bedrock (f r s) = bedrock s := by
  unfold opsJrnl at h
  split at h <;> simp only [Option.some.injEq, reduceCtorEq] at h <;> subst h <;>
    simp only [↓opJrnlQuery_bedrock, ↓opJrnlEventRead_bedrock]

theorem opsDiag_bedrock {n : Nat} {f : Request → State → State} (h : opsDiag n = some f) (r : Request) (s : State) :
    bedrock (f r s) = bedrock s := by
  unfold opsDiag at h
  split at h <;> simp only [Option.some.injEq, reduceCtorEq] at h <;> subst h <;>
    simp only [↓opDiagStatus_bedrock, ↓opDiagCounters_bedrock, ↓opDiagQueueStatus_bedrock, ↓opDiagQueueConfig_bedrock,
      ↓opDiagSelfTest_bedrock, ↓opDiagTableRead_bedrock, ↓opDiagTableWrite_bedrock]

theorem opByCode_bedrock {code : Nat} {f : Request → State → State} (h : opByCode code = some f) (r : Request) (s : State) :
    bedrock (f r s) = bedrock s := by
  unfold opByCode at h
  split at h
  · exact opsSys_bedrock h r s
  · exact opsTime_bedrock h r s
  · exact opsGnss_bedrock h r s
  · exact opsRef_bedrock h r s
  · exact opsBuoy_bedrock h r s
  · exact opsSess_bedrock h r s
  · exact opsTask_bedrock h r s
  · exact opsStrt_bedrock h r s
  · exact opsStop_bedrock h r s
  · exact opsRadio_bedrock h r s
  · exact opsCan_bedrock h r s
  · exact opsKey_bedrock h r s
  · exact opsUpd_bedrock h r s
  · exact opsJrnl_bedrock h r s
  · exact opsDiag_bedrock h r s
  · cases h

theorem runCommand_bedrock (r : Request) (s : State) : bedrock (runCommand r s) = bedrock s := by
  unfold runCommand
  split
  · next h => exact opByCode_bedrock h r s
  · exact badOpcode_bedrock r s

theorem opUnassignedOpcode_bedrock (r : Request) (s : State) : bedrock (opUnassignedOpcode r s) = bedrock s := by
  simp only [opUnassignedOpcode, ↓apply_ite bedrock, ite_self, ↓badOpcode_bedrock]

theorem runLatched_bedrock (l : List Request) (s : State) : bedrock (runLatched l s) = bedrock s := by
  induction l generalizing s with
  | nil => rfl
  | cons r l ih =>
    simp only [runLatched, ↓apply_ite bedrock, ↓ih, ↓runCommand_bedrock, ↓bedrock_mk, ↓bedrock_fold, ite_self]

theorem executeCommands_bedrock (s : State) : bedrock (executeCommands s) = bedrock s := by
  simp only [executeCommands, ↓bedrock_mk, ↓bedrock_fold, ↓apply_ite bedrock, ite_self, ↓runLatched_bedrock]

theorem endFaulted_bedrock (s : State) : bedrock (endFaulted s) = bedrock s := by
  simp only [endFaulted, ↓bedrock_mk, ↓bedrock_fold, ↓foldl_keeps bedrock, implies_true, ↓finishI_bedrock]

theorem goOnPosts_bedrock (s : State) : bedrock (goOnPosts s) = bedrock s := by
  simp only [goOnPosts, ↓bedrock_mk, ↓bedrock_fold, ↓apply_ite bedrock, ite_self, ↓stepPosts_bedrock]

theorem commandWork_bedrock (s : State) : bedrock (commandWork s) = bedrock s := by
  simp only [commandWork, ↓closeDue_bedrock, ↓endFaulted_bedrock, ↓executeCommands_bedrock, ↓finishRelay_bedrock,
    ↓goOnPosts_bedrock, ↓standingStep_bedrock]

theorem makeSubmitted_bedrock (s : State) : bedrock (makeSubmitted s) = bedrock s := by
  simp only [makeSubmitted, ↓bedrock_mk, ↓bedrock_fold, ↓apply_ite bedrock, ite_self, ↓foldl_keeps bedrock, implies_true,
    ↓commitBy_bedrock, ↓modRobot_bedrock]

theorem endPathAtStep_bedrock (s : State) (i : Nat) : bedrock (endPathAtStep s i) = bedrock s := by
  simp only [endPathAtStep, ↓apply_ite bedrock, ite_self, ↓commitBy_bedrock, ↓modPlan_bedrock]

theorem stepEnds_bedrock (s : State) : bedrock (stepEnds s) = bedrock s := by
  simp only [stepEnds, ↓apply_ite bedrock, ite_self, ↓foldl_keeps bedrock, implies_true, ↓commitBy_bedrock, ↓dropHold_bedrock,
    ↓endPathAtStep_bedrock, ↓raise_bedrock]

theorem planTable_bedrock (s : State) : bedrock (planTable s) = bedrock s := by
  simp only [planTable, ↓expireHolds_bedrock, ↓freeUnlocked_bedrock, ↓reassert_bedrock, ↓refreshDwells_bedrock,
    ↓retryHolds_bedrock]

theorem planWork_bedrock (s : State) : bedrock (planWork s) = bedrock s := by
  simp only [planWork, implies_true, ↓answerAssoc_bedrock, ↓applyPlanReq_bedrock, ↓confirmAssoc_bedrock, ↓drainMsgs_bedrock,
    ↓lostWork_bedrock, ↓makeSubmitted_bedrock, ↓planFleet_bedrock, ↓planTable_bedrock, ↓revokedWork_bedrock, ↓stepEnds_bedrock]

/-! #### Release -/

theorem emitViolations_bedrock (s : State) : bedrock (emitViolations s) = bedrock s := by
  unfold emitViolations
  refine (foldl_keeps bedrock _ _ _ fun u b => ?_).trans ?_
  · (repeat' split) <;> simp only [↓modSession_bedrock, ↓raise_bedrock]
  · dsimp only

theorem emitDropped_bedrock (s : State) : bedrock (emitDropped s) = bedrock s := by
  simp only [emitDropped, ↓bedrock_mk, ↓bedrock_fold, ↓apply_ite bedrock, ite_self, ↓raise_bedrock]

theorem emitMode_bedrock (s : State) : bedrock (emitMode s) = bedrock s := by
  simp only [emitMode]
  split <;> simp only [↓bedrock_mk, ↓bedrock_fold]

theorem emitCondition_bedrock (s : State) : bedrock (emitCondition s) = bedrock s := by
  simp only [emitCondition, ↓bedrock_mk, ↓bedrock_fold, ↓apply_ite bedrock, ite_self, ↓raise_bedrock]

theorem emitBroadcasts_bedrock (s : State) : bedrock (emitBroadcasts s) = bedrock s := by
  simp only [emitBroadcasts]
  split <;> simp only [↓bedrock_mk, ↓bedrock_fold, ↓apply_ite bedrock, ite_self, ↓queueCorrection_bedrock,
    ↓queueFragments_bedrock, ↓siteSent_bedrock]

theorem emitAll_bedrock (s : State) : bedrock (emitAll s) = bedrock s := by
  simp only [emitAll, ↓apply_ite bedrock, ite_self, ↓emitAnchors_bedrock, ↓emitBlinkRejects_bedrock, ↓emitBroadcasts_bedrock,
    ↓emitCan_bedrock, ↓emitCondition_bedrock, ↓emitDropped_bedrock, ↓emitFaults_bedrock, ↓emitFixes_bedrock, ↓emitKeys_bedrock,
    ↓emitMode_bedrock, ↓emitPlans_bedrock, ↓emitPorts_bedrock, ↓emitRadio_bedrock, ↓emitRefState_bedrock, ↓emitRelays_bedrock,
    ↓emitRtcm_bedrock, ↓emitSess_bedrock, ↓emitSpoof_bedrock, ↓emitStop_bedrock, ↓emitStrt_bedrock, ↓emitTime_bedrock,
    ↓emitUpd_bedrock, ↓emitViolations_bedrock]

theorem placeOpen_bedrock (s : State) (k : Packet) : bedrock (placeOpen s k) = bedrock s := by
  simp only [placeOpen, ↓bedrock_mk, ↓bedrock_fold, ↓apply_ite bedrock, ite_self]

theorem putPacket_bedrock (s : State) (slot : Nat) (k : Packet) : bedrock (putPacket s slot k) = bedrock s := by
  simp only [putPacket, ↓arrived_bedrock, ↓modSession_bedrock]

theorem placeReply_bedrock (s : State) (k : Packet) : bedrock (placeReply s k) = bedrock s := by
  simp only [placeReply]
  (repeat' split) <;> simp only [↓bedrock_mk, ↓bedrock_fold, ↓placeOpen_bedrock, ↓putPacket_bedrock]

theorem placeReplies_bedrock (s : State) : bedrock (placeReplies s) = bedrock s := by
  simp only [placeReplies, ↓bedrock_mk, ↓bedrock_fold, ↓foldl_keeps bedrock, implies_true, ↓placeReply_bedrock]

theorem placeFrags_bedrock (slot n : Nat) (x : Stream) (s : State) : bedrock (placeFrags slot n x s).2 = bedrock s := by
  induction n generalizing x s with
  | zero => rfl
  | succ n ih =>
    simp only [placeFrags]
    split
    · rfl
    · simp only [↓apply_ite Prod.snd, ↓apply_ite bedrock, ↓ih, ↓putPacket_bedrock, ite_self]

theorem placeStream_bedrock (slot : Nat) (s : State) (x : Stream) : bedrock (placeStream slot s x) = bedrock s := by
  simp only [placeStream, ↓apply_ite bedrock, ite_self, ↓modSession_bedrock, ↓placeFrags_bedrock]

theorem placeStreams_bedrock (s : State) : bedrock (placeStreams s) = bedrock s := by
  simp only [placeStreams, ↓apply_ite bedrock, ite_self, ↓foldl_keeps bedrock, implies_true, ↓modSession_bedrock,
    ↓placeStream_bedrock]

theorem placeCredits_bedrock (s : State) (refused : List Nat) : bedrock (placeCredits s refused) = bedrock s := by
  simp only [placeCredits]
  refine (foldl_keeps bedrock _ _ _ fun u b => ?_).trans ?_ <;> simp only [↓apply_ite bedrock]
  (repeat' split) <;> simp only [↓placeReply_bedrock]

theorem placeEvent_bedrock (v : Event) (s : State) (slot : Nat) : bedrock (placeEvent v s slot) = bedrock s := by
  simp only [placeEvent, ↓apply_ite bedrock, ite_self, ↓admitFrame_bedrock, ↓arrived_bedrock, ↓modSession_bedrock]

theorem placeEvents_bedrock (s : State) : bedrock (placeEvents s) = bedrock s := by
  simp only [placeEvents, ↓bedrock_mk, ↓bedrock_fold, ↓foldl_keeps bedrock, implies_true, ↓placeEvent_bedrock]

theorem placeAll_bedrock (s : State) : bedrock (placeAll s) = bedrock s := by
  simp only [placeAll, ↓placeCredits_bedrock, ↓placeEvents_bedrock, ↓placeReplies_bedrock, ↓placeStreams_bedrock]

theorem persistWork_bedrock (s : State) : bedrock (persistWork s) = bedrock s := by
  simp only [persistWork, ↓bedrock_mk, ↓bedrock_fold, ↓apply_ite bedrock, ite_self, ↓persistKeys_bedrock, ↓placeEvents_bedrock,
    ↓placeReplies_bedrock]

theorem fillQueues_bedrock (s : State) : bedrock (fillQueues s) = bedrock s := by
  simp only [fillQueues, ↓apply_ite bedrock, ite_self, ↓fillRadio_bedrock, ↓placeAll_bedrock, ↓releaseCanStop_bedrock]

theorem noteReleased_bedrock (s : State) (l : List Packet) : bedrock (noteReleased s l) = bedrock s := by
  simp only [noteReleased, ↓bedrock_mk, ↓bedrock_fold, ↓foldl_keeps bedrock, implies_true, ↓freshNat_bedrock, ↓noteSent_bedrock]

theorem releaseSlot_bedrock (s : State) (slot : Nat) : bedrock (releaseSlot s slot) = bedrock s := by
  simp only [releaseSlot]
  split <;> simp only [↓bedrock_mk, ↓bedrock_fold, ↓noteReleased_bedrock]

theorem releasePackets_bedrock (s : State) : bedrock (releasePackets s) = bedrock s := by
  simp only [releasePackets, ↓bedrock_mk, ↓bedrock_fold, ↓foldl_keeps bedrock, implies_true, ↓noteReleased_bedrock,
    ↓releaseSlot_bedrock]

/-! ### The root: what not even the clock and a reset touch -/

theorem root_mk (pending freeCtr fuse flash p nv bk clk cores mode supply edtor com queues time gnss ref buoy sess strt
    holds allot stop radio can ports sec upd) :
    root (State.mk pending freeCtr fuse flash p nv bk clk cores mode supply edtor com queues time gnss ref buoy sess strt
      holds allot stop radio can ports sec upd) = (pending, fuse) := by unfold root; rfl

theorem root_fold (s : State) : (s.pending, s.fuse) = root s := by unfold root; rfl

/-- What stands on the bedrock keeps its root. -/
theorem root_of_bedrock {s t : State} (h : bedrock t = bedrock s) : root t = root s :=
  congrArg (fun b => (b.1, b.2.1)) h

/-! ### The functions that move the clock or write what MRAM holds -/

theorem openWindow_bedrock (s : State) (w : Window) : bedrock (openWindow s w) = bedrock { s with clk.window := w } :=
  applyRequests_bedrock ..

theorem openWindow_root (s : State) (w : Window) : root (openWindow s w) = root s := by
  rw [root_of_bedrock (openWindow_bedrock s w), root_mk, root_fold]

theorem passWindow_root (s : State) (w : Window) : root (passWindow s w) = root s := by
  simp only [passWindow, ↓apply_ite root, ↓root_mk, ↓root_fold, ite_self]

theorem timeBoundary_root (s : State) (b : Counter) (board encl : Int) : root (timeBoundary s b board encl) = root s := by
  unfold timeBoundary
  rw [root_of_bedrock (settleTime_bedrock _ _), root_mk, root_fold, root_of_bedrock (enterTimeState_bedrock _), root_mk,
    root_fold, root_of_bedrock (latchReferences_bedrock _ _)]

theorem stepBoundary_root (s : State) (b : Counter) (board encl : Int) : root (stepBoundary s b board encl) = root s := by
  unfold stepBoundary
  rw [root_of_bedrock (selectReference_bedrock _), root_of_bedrock (shiftAll_bedrock _ _), root_mk, root_fold, root_mk, root_fold,
    root_of_bedrock (settleTime_bedrock _ _), root_of_bedrock (enterTimeState_bedrock _), root_mk, root_fold]

theorem clockBoundary_root (s : State) (i : BoundaryIn) : root (clockBoundary s i) = root s := by
  unfold clockBoundary
  cases s.time.step with
  | none => simp only [↓apply_ite root, ↓stepBoundary_root, ↓root_mk, ↓root_fold, ↓timeBoundary_root, ite_self]
  | some q =>
    simp only [↓apply_ite root, ↓stepBoundary_root, ↓root_mk, ↓root_fold, ↓timeBoundary_root, ite_self,
      ↓root_of_bedrock (applyStep_bedrock _ _)]

theorem completePersist_root (s : State) : root (completePersist s) = root s := by
  simp only [completePersist, ↓root_mk, ↓root_fold, ↓root_of_bedrock (confirmStandby_bedrock _),
    ↓root_of_bedrock (writeControl_bedrock _), ↓root_of_bedrock (writeJournal_bedrock _),
    ↓root_of_bedrock (persistTrial_bedrock _), ↓root_of_bedrock (raiseAirCeilings_bedrock _)]

theorem settlePersist_root (s : State) : root (settlePersist s) = root s := by
  simp only [settlePersist, ↓apply_ite root, ↓root_mk, ↓root_fold, ↓completePersist_root, ite_self]

theorem closeFc_root (s : State) : root (closeFc s) = root s := by
  simp only [closeFc, ↓root_mk, ↓root_fold, ↓root_of_bedrock (handOver_bedrock _), ↓settlePersist_root]

theorem sensorBoundary_root (s : State) (i : BoundaryIn) : root (sensorBoundary s i) = root s := by
  simp only [sensorBoundary, ↓root_mk, ↓root_fold]

theorem provBoundary_root (s : State) : root (provBoundary s) = root s := by
  simp only [provBoundary, ↓apply_ite root, ↓root_mk, ↓root_fold, ite_self]

theorem mramFault_root (s : State) (f : MemIn) : root (mramFault s f) = root s := by
  simp only [mramFault, ↓apply_ite root, ↓root_of_bedrock (persistBroken_bedrock _), ↓root_of_bedrock (memEvent_bedrock _ _),
    ↓root_of_bedrock (trigger_bedrock _ _), ↓root_mk, ↓root_fold, ↓root_of_bedrock (countUncorrected_bedrock _ _), ite_self]

/-! ### Resets and start-up -/

theorem keptState_root (s : State) : root (keptState s) = root s := by
  simp only [keptState, ↓root_mk, ↓root_fold]

theorem resetDevice_root (s : State) (kind : Nat) : root (resetDevice s kind) = root s := by
  simp only [resetDevice, ↓root_mk, ↓root_fold, ↓keptState_root]

theorem phase5_root (i : BootIn) (s : State) : root (phase5 i s) = root s := by
  simp only [phase5, ↓root_mk, ↓root_fold, ↓root_of_bedrock (ceilings_bedrock _), ↓root_of_bedrock (countReset_bedrock _ _),
    ↓root_of_bedrock (keysStill_bedrock _)]

theorem phase5Fault_root (s : State) : root (phase5Fault s) = root s := by
  simp only [phase5Fault, ↓root_mk, ↓root_fold, ↓root_of_bedrock (keysStill_bedrock _)]

theorem phase7_root (i : BootIn) (bkLost : Bool) (s : State) : root (phase7 i bkLost s) = root s := by
  simp only [phase7, ↓root_mk, ↓root_fold]

theorem finishStill_root (i : BootIn) (b : Bool) (s : State) : root (finishStill i b s) = root s := by
  simp only [finishStill, ↓root_of_bedrock (enterFirst_bedrock _ _), ↓phase7_root, ↓root_of_bedrock (phase6_bedrock _ _),
    ↓root_of_bedrock (rebuild_bedrock _), ↓apply_ite root, ↓phase5_root, ↓phase5Fault_root,
    ↓root_of_bedrock (slotChosen_bedrock _ _), ite_self]

theorem bootFrom_root (i : BootIn) (first : Bool) (s : State) : root (bootFrom i first s) = root s := by
  unfold bootFrom
  split <;> next h =>
    have ht := root_of_bedrock (snd_keeps h (trySlots_bedrock ..))
    simp only [↓finishStill_root, ↓root_of_bedrock (bootFailed_bedrock _), ht]

/-! ### The clock's own commands -/

theorem opFcBoundary_root (i : BoundaryIn) (s : State) : root (opFcBoundary i s) = root s := by
  simp only [opFcBoundary, ↓apply_ite root, ↓provBoundary_root, ↓root_of_bedrock (noteAll_bedrock _),
    ↓root_of_bedrock (unitsBoundary_bedrock _ _), ↓root_of_bedrock (modeBoundary_bedrock _ _),
    ↓root_of_bedrock (supplyBoundary_bedrock _ _), ↓root_of_bedrock (checkLeases_bedrock _),
    ↓root_of_bedrock (latchInputs_bedrock _), ↓root_of_bedrock (powerBoundary_bedrock _), ↓openWindow_root,
    ↓sensorBoundary_root, ↓clockBoundary_root, ↓closeFc_root, ite_self]

theorem opSafeWindow_root (i : SafeIn) (s : State) : root (opSafeWindow i s) = root s := by
  simp only [opSafeWindow, ↓apply_ite root, ↓root_of_bedrock (safeWork_bedrock _ _), ↓openWindow_root, ↓passWindow_root, ite_self]

theorem opSolveWindow_root (i : SolveIn) (s : State) : root (opSolveWindow i s) = root s := by
  have hd : root (drainMsgs (drainMsgs (openWindow s .solve) 0x28 applySleep) 0x20 applyReport) = root s := by
    rw [root_of_bedrock (drainMsgs_bedrock _ _ _ applyReport_bedrock),
      root_of_bedrock (drainMsgs_bedrock _ _ _ applySleep_bedrock),
      openWindow_root]
  simp only [opSolveWindow, ↓apply_ite root, ↓root_of_bedrock (countReferences_bedrock _),
    ↓root_of_bedrock (voidPositions_bedrock _),
    ↓root_of_bedrock (posWork_bedrock _ _), ↓hd, ↓passWindow_root, ite_self]

theorem opCommandWindow_root (s : State) : root (opCommandWindow s) = root s := by
  simp only [opCommandWindow, ↓apply_ite root, ↓root_of_bedrock (noteQueue_bedrock _ _), ↓root_of_bedrock (commandWork_bedrock _),
    ↓root_of_bedrock (evaluateTriggers_bedrock _), ↓root_of_bedrock (signStatements_bedrock _), ↓openWindow_root,
    ↓root_of_bedrock (freezeTrigger_bedrock _), ↓passWindow_root, ite_self]

theorem opPlanWindow_root (s : State) : root (opPlanWindow s) = root s := by
  simp only [opPlanWindow, ↓apply_ite root, ↓root_of_bedrock (noteQueue_bedrock _ _), ↓root_of_bedrock (planWork_bedrock _),
    ↓root_of_bedrock (applyAuxSet_bedrock _), ↓root_of_bedrock (applyTamper_bedrock _), ↓openWindow_root, ↓passWindow_root,
      ite_self]

theorem opEmitWindow_root (s : State) : root (opEmitWindow s) = root s := by
  simp only [opEmitWindow, ↓apply_ite root, ↓root_of_bedrock (emitAll_bedrock _), ↓openWindow_root, ↓passWindow_root, ite_self]

theorem opPersistWindow_root (s : State) : root (opPersistWindow s) = root s := by
  simp only [opPersistWindow, ↓apply_ite root, ↓root_mk, ↓root_fold, ↓root_of_bedrock (persistWork_bedrock _),
    ↓root_of_bedrock (countAvail_bedrock _), ↓root_of_bedrock (noteAll_bedrock _), ↓root_of_bedrock (fillQueues_bedrock _),
    ↓openWindow_root, ↓passWindow_root, ite_self]

theorem opGuardWindow_root (s : State) : root (opGuardWindow s) = root s := by
  simp only [opGuardWindow, ↓apply_ite root, ↓root_of_bedrock (noteAll_bedrock _), ↓root_of_bedrock (releasePackets_bedrock _),
    ↓root_of_bedrock (releaseCan_bedrock _), ↓settlePersist_root, ↓root_mk, ↓root_fold, ↓openWindow_root, ↓passWindow_root,
      ite_self]

/-! ### The other commands that reset, start or write MRAM -/

theorem opReset_root (s : State) : root (opReset s) = root s := by
  unfold opReset
  split <;> simp only [↓apply_ite root, ↓resetDevice_root, ite_self]

theorem opPowerOn_root (s : State) : root (opPowerOn s) = root s := by
  simp only [opPowerOn, ↓apply_ite root, ↓resetDevice_root, ite_self]

theorem opPowerFail_root (s : State) : root (opPowerFail s) = root s := by
  simp only [opPowerFail, ↓apply_ite root, ↓root_mk, ↓root_fold, ↓keptState_root, ite_self]

theorem opStillComplete_root (i : BootIn) (s : State) : root (opStillComplete i s) = root s := by
  simp only [opStillComplete, ↓apply_ite root, ↓bootFrom_root, ite_self]

theorem opBootRetry_root (i : BootIn) (s : State) : root (opBootRetry i s) = root s := by
  simp only [opBootRetry, ↓apply_ite root, ↓bootFrom_root, ite_self]

theorem opDfuDownload_root (p : Bytes) (s : State) : root (opDfuDownload p s) = root s := by
  simp only [opDfuDownload, ↓apply_ite root, ↓resetDevice_root, ↓root_of_bedrock (modSlot_bedrock _ _ _), ite_self]

theorem opMemoryFault_root (f : MemIn) (s : State) : root (opMemoryFault f s) = root s := by
  unfold opMemoryFault
  split
  · rfl
  split
  · exact root_of_bedrock (countCorrected_bedrock ..)
  split <;> simp only [↓root_of_bedrock (memEvent_bedrock _ _), ↓root_of_bedrock (countUncorrected_bedrock _ _),
    ↓root_of_bedrock (coreFault_bedrock _ _ _), ↓root_of_bedrock (tableFault_bedrock _ _ _),
      ↓root_of_bedrock (wayFault_bedrock _ _),
    ↓root_of_bedrock (searchFault_bedrock _ _), ↓root_of_bedrock (dramFault_bedrock _ _), ↓mramFault_root]

/-! ### Every command -/

theorem next_root {s t u : State} (h : (Host.Outcome.next u : Host.Outcome State Fault Refusal) = .next t)
    (hu : root u = root s) : root t = root s := by
  cases h
  exact hu

theorem guarded_root {c : Prop} [Decidable c] {s t u : State} {r : Fault}
    (h : (if c then Host.Outcome.next u else .fault r : Host.Outcome State Fault Refusal) = .next t)
    (hu : root u = root s) : root t = root s := by
  split at h
  · exact next_root h hu
  · cases h

/-- A command on a queue the device does not have stops; on one it has it keeps the root where its operation does. -/
theorem onQueue_root {q : Nat} {f : QParam → State → State} {s t : State}
    (h : (match qParam q with
      | none => .fault .noSuchUnit
      | some p => .next (f p s) : Host.Outcome State Fault Refusal) = .next t)
    (hf : ∀ p, root (f p s) = root s) : root t = root s := by
  cases hq : qParam q with
  | none => rw [hq] at h; cases h
  | some p => rw [hq] at h; exact next_root h (hf p)

/-- No command touches the queue it is taken from, nor a fuse. -/
theorem exec_root (c : Instr) (s t : State) (h : exec c s = .next t) : root t = root s := by
  cases c with
  | fcBoundary x => exact next_root h (opFcBoundary_root x s)
  | safeWindow x => exact next_root h (opSafeWindow_root x s)
  | solveWindow x => exact next_root h (opSolveWindow_root x s)
  | commandWindow => exact next_root h (opCommandWindow_root s)
  | planWindow => exact next_root h (opPlanWindow_root s)
  | emitWindow => exact next_root h (opEmitWindow_root s)
  | persistWindow => exact next_root h (opPersistWindow_root s)
  | guardWindow => exact next_root h (opGuardWindow_root s)
  | windowOverrun core window => exact guarded_root h (root_of_bedrock (opWindowOverrun_bedrock core window s))
  | commandReceive d => exact next_root h (root_of_bedrock (opCommandReceive_bedrock d s))
  | hostCredit d => exact next_root h (root_of_bedrock (opHostCredit_bedrock d s))
  | stopFilter d wait => exact next_root h (root_of_bedrock (opStopFilter_bedrock d wait s))
  | unassignedOpcode r => exact next_root h (root_of_bedrock (opUnassignedOpcode_bedrock r s))
  | lease slot => exact guarded_root h (root_of_bedrock (opLease_bedrock slot s))
  | sysIdentity r => exact next_root h (root_of_bedrock (opSysIdentity_bedrock r s))
  | sysModeGet r => exact next_root h (root_of_bedrock (opSysModeGet_bedrock r s))
  | sysModeSet r => exact next_root h (root_of_bedrock (opSysModeSet_bedrock r s))
  | sysResetWarm r => exact next_root h (root_of_bedrock (opSysReset_bedrock (withHead r 1) s))
  | sysResetCold r => exact next_root h (root_of_bedrock (opSysReset_bedrock (withHead r 2) s))
  | sysPowerConfig r => exact next_root h (root_of_bedrock (opSysPowerConfig_bedrock r s))
  | sysSessionOpen r => exact next_root h (root_of_bedrock (opSysSessionOpen_bedrock r s))
  | sysSessionClose r => exact next_root h (root_of_bedrock (opSysSessionClose_bedrock r s))
  | sysSessionList r => exact next_root h (root_of_bedrock (opSysSessionList_bedrock r s))
  | sysHostEnrol r => exact next_root h (root_of_bedrock (opSysHostEnrol_bedrock r s))
  | sysHostRevoke r => exact next_root h (root_of_bedrock (opSysHostRevoke_bedrock r s))
  | sysTenderClose r => exact next_root h (root_of_bedrock (opSysTenderClose_bedrock r s))
  | sysNetConfig r => exact next_root h (root_of_bedrock (opSysNetConfig_bedrock r s))
  | sysAuxConfig r => exact next_root h (root_of_bedrock (opSysAuxConfig_bedrock r s))
  | sysAuxSet r => exact next_root h (root_of_bedrock (opSysAuxSet_bedrock r s))
  | sysPortStatus r => exact next_root h (root_of_bedrock (opSysPortStatus_bedrock r s))
  | timeGet r => exact next_root h (root_of_bedrock (opTimeGet_bedrock r s))
  | timeConfig r => exact next_root h (root_of_bedrock (opTimeConfig_bedrock r s))
  | timeStep r => exact next_root h (root_of_bedrock (opTimeStep_bedrock r s))
  | timeTriggerSet r => exact next_root h (root_of_bedrock (opTimeTriggerSet_bedrock r s))
  | timeTriggerGet r => exact next_root h (root_of_bedrock (opTimeTriggerGet_bedrock r s))
  | gnssStatus r => exact next_root h (root_of_bedrock (opGnssStatus_bedrock r s))
  | gnssConfig r => exact next_root h (root_of_bedrock (opGnssConfig_bedrock r s))
  | gnssMeasRead r => exact next_root h (root_of_bedrock (opGnssMeasRead_bedrock r s))
  | gnssNotchSet r => exact next_root h (root_of_bedrock (opGnssNotchSet_bedrock r s))
  | gnssCalibrate r => exact next_root h (root_of_bedrock (opGnssCalibrate_bedrock r s))
  | gnssCalibrationDone delay align => exact next_root h (root_of_bedrock (opGnssCalibrationDone_bedrock delay align s))
  | refStatus r => exact next_root h (root_of_bedrock (opRefStatus_bedrock r s))
  | refBaseSet r => exact next_root h (root_of_bedrock (opRefBaseSet_bedrock r s))
  | refConfig r => exact next_root h (root_of_bedrock (opRefConfig_bedrock r s))
  | refSurveyStart r => exact next_root h (root_of_bedrock (opRefSurveyStart_bedrock r s))
  | refRtcmSubscribe r => exact next_root h (root_of_bedrock (opRefRtcmSubscribe_bedrock r s))
  | buoyStatus r => exact next_root h (root_of_bedrock (opBuoyStatus_bedrock r s))
  | buoyAnchorSet r => exact next_root h (root_of_bedrock (opBuoyAnchorSet_bedrock r s))
  | buoyConfig r => exact next_root h (root_of_bedrock (opBuoyConfig_bedrock r s))
  | buoyCalibrate r => exact next_root h (root_of_bedrock (opBuoyCalibrate_bedrock r s))
  | buoyCalibrationDone fits => exact next_root h (root_of_bedrock (opBuoyCalibrationDone_bedrock fits s))
  | buoyZoneSet r => exact next_root h (root_of_bedrock (opBuoyZoneSet_bedrock r s))
  | buoyFixSubscribe r => exact next_root h (root_of_bedrock (opBuoyFixSubscribe_bedrock r s))
  | buoyRelayStart r => exact next_root h (root_of_bedrock (opBuoyRelayStart_bedrock (withHead r 1) s))
  | buoyRelayActivate r => exact next_root h (root_of_bedrock (opBuoyRelayActivate_bedrock (withHead r 2) s))
  | buoyRelayAbort r => exact next_root h (root_of_bedrock (opBuoyRelayAbort_bedrock (withHead r 3) s))
  | sessConfig r => exact next_root h (root_of_bedrock (opSessConfig_bedrock r s))
  | sessClassSet r => exact next_root h (root_of_bedrock (opSessClassSet_bedrock r s))
  | sessClassGet r => exact next_root h (root_of_bedrock (opSessClassGet_bedrock r s))
  | sessEnrol r => exact next_root h (root_of_bedrock (opSessEnrol_bedrock r s))
  | sessRevoke r => exact next_root h (root_of_bedrock (opSessRevoke_bedrock r s))
  | sessRelease r => exact next_root h (root_of_bedrock (opSessRelease_bedrock r s))
  | sessGet r => exact next_root h (root_of_bedrock (opSessGet_bedrock r s))
  | sessList r => exact next_root h (root_of_bedrock (opSessList_bedrock r s))
  | taskPost r => exact next_root h (root_of_bedrock (opTaskPost_bedrock r s))
  | taskModify r => exact next_root h (root_of_bedrock (opTaskModify_bedrock r s))
  | taskCancel r => exact next_root h (root_of_bedrock (opTaskCancel_bedrock r s))
  | taskGet r => exact next_root h (root_of_bedrock (opTaskGet_bedrock r s))
  | taskList r => exact next_root h (root_of_bedrock (opTaskList_bedrock r s))
  | taskConfig r => exact next_root h (root_of_bedrock (opTaskConfig_bedrock r s))
  | taskDeadline => exact next_root h (root_of_bedrock (opTaskDeadline_bedrock s))
  | terminalKeep => exact next_root h (root_of_bedrock (opTerminalKeep_bedrock s))
  | strtGridSet r => exact next_root h (root_of_bedrock (opStrtGridSet_bedrock r s))
  | strtStatus r => exact next_root h (root_of_bedrock (opStrtStatus_bedrock r s))
  | strtHoldSet r => exact next_root h (root_of_bedrock (opStrtHoldSet_bedrock r s))
  | strtHoldClear r => exact next_root h (root_of_bedrock (opStrtHoldClear_bedrock r s))
  | strtHoldList r => exact next_root h (root_of_bedrock (opStrtHoldList_bedrock r s))
  | strtReservePath r => exact next_root h (root_of_bedrock (opStrtReservePath_bedrock r s))
  | pathGet r => exact next_root h (root_of_bedrock (opPathGet_bedrock r s))
  | pathRequest r => exact next_root h (root_of_bedrock (opPathRequest_bedrock r s))
  | pathStatus r => exact next_root h (root_of_bedrock (opPathStatus_bedrock r s))
  | stopAll r => exact next_root h (root_of_bedrock (opStopAll_bedrock r s))
  | stopRobot r => exact next_root h (root_of_bedrock (opStopRobot_bedrock r s))
  | stopStatus r => exact next_root h (root_of_bedrock (opStopStatus_bedrock r s))
  | stopConfig r => exact next_root h (root_of_bedrock (opStopConfig_bedrock r s))
  | stopReleaseArm r => exact next_root h (root_of_bedrock (opStopReleaseArm_bedrock r s))
  | stopReleaseConfirm r => exact next_root h (root_of_bedrock (opStopReleaseConfirm_bedrock r s))
  | releaseApply => exact next_root h (root_of_bedrock (opReleaseApply_bedrock s))
  | radioStatus r => exact next_root h (root_of_bedrock (opRadioStatus_bedrock r s))
  | radioConfig r => exact next_root h (root_of_bedrock (opRadioConfig_bedrock r s))
  | radioSettingsEffect => exact next_root h (root_of_bedrock (opRadioSettingsEffect_bedrock s))
  | radioBudget r => exact next_root h (root_of_bedrock (opRadioBudget_bedrock r s))
  | radioTestStart r => exact next_root h (root_of_bedrock (opRadioTest_bedrock (withAction r 1) s))
  | radioTestEnd r => exact next_root h (root_of_bedrock (opRadioTest_bedrock (withAction r 2) s))
  | radioTestExpiry => exact next_root h (root_of_bedrock (opRadioTestExpiry_bedrock s))
  | canStatus r => exact next_root h (root_of_bedrock (opCanStatus_bedrock r s))
  | canConfig r => exact next_root h (root_of_bedrock (opCanConfig_bedrock r s))
  | canRuleSet r => exact next_root h (root_of_bedrock (opCanRuleSet_bedrock r s))
  | canNodeSet r => exact next_root h (root_of_bedrock (opCanNodeSet_bedrock r s))
  | canSend r => exact next_root h (root_of_bedrock (opCanSend_bedrock r s))
  | canSubscribe r => exact next_root h (root_of_bedrock (opCanSubscribe_bedrock r s))
  | canSleepSleep r => exact next_root h (root_of_bedrock (opCanSleep_bedrock (withCanAction r 1) s))
  | canSleepWake r => exact next_root h (root_of_bedrock (opCanSleep_bedrock (withCanAction r 2) s))
  | keyStatus r => exact next_root h (root_of_bedrock (opKeyStatus_bedrock r s))
  | keySiteInstall r => exact next_root h (root_of_bedrock (opKeySiteInstall_bedrock r s))
  | keyDestroy r => exact next_root h (root_of_bedrock (opKeyDestroy_bedrock r s))
  | keyAnchorSet r => exact next_root h (root_of_bedrock (opKeyAnchorSet_bedrock r s))
  | keyLinkSet r => exact next_root h (root_of_bedrock (opKeyLinkSet_bedrock r s))
  | keyRobotExport r => exact next_root h (root_of_bedrock (opKeyRobotExport_bedrock r s))
  | keyRoll r => exact next_root h (root_of_bedrock (opKeyRoll_bedrock r s))
  | rollEffective => exact next_root h (root_of_bedrock (opRollEffective_bedrock s))
  | keyTamperConfig r => exact next_root h (root_of_bedrock (opKeyTamperConfig_bedrock r s))
  | keyTamperClear r => exact next_root h (root_of_bedrock (opKeyTamperClear_bedrock r s))
  | attestGet r => exact next_root h (root_of_bedrock (opAttestGet_bedrock r s))
  | updStatus r => exact next_root h (root_of_bedrock (opUpdStatus_bedrock r s))
  | updBegin r => exact next_root h (root_of_bedrock (opUpdBegin_bedrock r s))
  | updData r => exact next_root h (root_of_bedrock (opUpdData_bedrock r s))
  | updFinish r => exact next_root h (root_of_bedrock (opUpdFinish_bedrock r s))
  | updFinishDone => exact next_root h (root_of_bedrock (opUpdFinishDone_bedrock s))
  | updAbort r => exact next_root h (root_of_bedrock (opUpdAbort_bedrock r s))
  | updActivate r => exact next_root h (root_of_bedrock (opUpdActivate_bedrock r s))
  | updActivateAt r => exact next_root h (root_of_bedrock (opUpdActivateAt_bedrock r s))
  | updConfirm r => exact next_root h (root_of_bedrock (opUpdConfirm_bedrock r s))
  | updRevert r => exact next_root h (root_of_bedrock (opUpdRevert_bedrock r s))
  | anchorActivateSend => exact next_root h (root_of_bedrock (opAnchorActivateSend_bedrock s))
  | activationCheck imagesOk => exact next_root h (root_of_bedrock (opActivationCheck_bedrock imagesOk s))
  | activation => exact next_root h (root_of_bedrock (opActivation_bedrock s))
  | coreReload core => exact guarded_root h (root_of_bedrock (opCoreReload_bedrock core s))
  | fltImageHandover => exact next_root h (root_of_bedrock (opFltImageHandover_bedrock s))
  | freezeEnd => exact next_root h (root_of_bedrock (opFreezeEnd_bedrock s))
  | safUpdateTurn fail => exact next_root h (root_of_bedrock (opSafUpdateTurn_bedrock fail s))
  | activationAbandon failed => exact next_root h (root_of_bedrock (opActivationAbandon_bedrock failed s))
  | dfuDownload p => exact next_root h (opDfuDownload_root p s)
  | jrnlQuery r => exact next_root h (root_of_bedrock (opJrnlQuery_bedrock r s))
  | jrnlEventRead r => exact next_root h (root_of_bedrock (opJrnlEventRead_bedrock r s))
  | diagStatus r => exact next_root h (root_of_bedrock (opDiagStatus_bedrock r s))
  | diagCounters r => exact next_root h (root_of_bedrock (opDiagCounters_bedrock r s))
  | diagQueueStatus r => exact next_root h (root_of_bedrock (opDiagQueueStatus_bedrock r s))
  | diagQueueConfig r => exact next_root h (root_of_bedrock (opDiagQueueConfig_bedrock r s))
  | diagSelfTest r => exact next_root h (root_of_bedrock (opDiagSelfTest_bedrock r s))
  | selfTestDone target fail detail => exact next_root h (root_of_bedrock (opSelfTestDone_bedrock target fail detail s))
  | diagTableRead r => exact next_root h (root_of_bedrock (opDiagTableRead_bedrock r s))
  | diagTableWrite r => exact next_root h (root_of_bedrock (opDiagTableWrite_bedrock r s))
  | powerOn => exact next_root h (opPowerOn_root s)
  | powerFail => exact next_root h (opPowerFail_root s)
  | reset => exact next_root h (opReset_root s)
  | stillComplete x => exact next_root h (opStillComplete_root x s)
  | bootRetry x => exact next_root h (opBootRetry_root x s)
  | hostLoss => exact next_root h (root_of_bedrock (opHostLoss_bedrock s))
  | referenceLost => exact next_root h (root_of_bedrock (opReferenceLost_bedrock s))
  | ppsOut pclk => exact next_root h (root_of_bedrock (opPpsOut_bedrock pclk s))
  | zda pclk => exact next_root h (root_of_bedrock (opZda_bedrock pclk s))
  | ppsIn ftu rising wide => exact next_root h (root_of_bedrock (opPpsIn_bedrock ftu rising wide s))
  | step => exact next_root h (root_of_bedrock (opStep_bedrock s))
  | rtcSet pclk => exact next_root h (root_of_bedrock (opRtcSet_bedrock pclk s))
  | timeTrigger id pclk => exact guarded_root h (root_of_bedrock (opTimeTrigger_bedrock id pclk s))
  | pulseEnd io pclk => exact guarded_root h (root_of_bedrock (opPulseEnd_bedrock io pclk s))
  | epochLatch e => exact next_root h (root_of_bedrock (opEpochLatch_bedrock e s))
  | acquisitionDone chan pclk => exact guarded_root h (root_of_bedrock (opAcquisitionDone_bedrock chan pclk s))
  | antShortRetry ant => exact guarded_root h (root_of_bedrock (opAntShortRetry_bedrock ant s))
  | syncReq => exact next_root h (root_of_bedrock (opSyncReq_bedrock s))
  | syncResp f => exact guarded_root h (root_of_bedrock (receiveBuoy_bedrock f s))
  | hello f => exact guarded_root h (root_of_bedrock (receiveBuoy_bedrock f s))
  | report f => exact guarded_root h (root_of_bedrock (receiveBuoy_bedrock f s))
  | reportDeadline fc period => exact next_root h (root_of_bedrock (opReportDeadline_bedrock fc period s))
  | relayAck f => exact guarded_root h (root_of_bedrock (receiveBuoy_bedrock f s))
  | relayResend link => exact guarded_root h (root_of_bedrock (opRelayResend_bedrock link s))
  | phyLinkChange link up level24 => exact guarded_root h (root_of_bedrock (opPhyLinkChange_bedrock link up level24 s))
  | podlDetection link cls => exact guarded_root h (root_of_bedrock (opPodlDetection_bedrock link cls s))
  | podlOverload link => exact guarded_root h (root_of_bedrock (opPodlOverload_bedrock link s))
  | podlRestore link => exact guarded_root h (root_of_bedrock (opPodlRestore_bedrock link s))
  | faultRetry link => exact guarded_root h (root_of_bedrock (opFaultRetry_bedrock link s))
  | radioRx f => exact guarded_root h (root_of_bedrock (opRadioRx_bedrock f s))
  | assocReq => exact next_root h (root_of_bedrock (opAssocReq_bedrock s))
  | assocConfirm => exact next_root h (root_of_bedrock (opAssocConfirm_bedrock s))
  | assocTimeout => exact next_root h (root_of_bedrock (opAssocTimeout_bedrock s))
  | positionReport => exact next_root h (root_of_bedrock (opPositionReport_bedrock s))
  | planReq => exact next_root h (root_of_bedrock (opPlanReq_bedrock s))
  | sleep => exact next_root h (root_of_bedrock (opSleep_bedrock s))
  | adrift => exact next_root h (root_of_bedrock (opAdrift_bedrock s))
  | agingSweep => exact next_root h (root_of_bedrock (opAgingSweep_bedrock s))
  | wakeMissed => exact next_root h (root_of_bedrock (opWakeMissed_bedrock s))
  | timeslot k => exact guarded_root h ((root_of_bedrock (noteTx_bedrock ..)).trans (root_of_bedrock (opTimeslot_bedrock k s)))
  | beaconLaunch => exact next_root h ((root_of_bedrock (noteTx_bedrock ..)).trans (root_of_bedrock (opBeaconLaunch_bedrock s)))
  | stopFrame k => exact guarded_root h (root_of_bedrock (opStopFrame_bedrock k s))
  | slInput inp line pclk => exact guarded_root h (root_of_bedrock (opSlInput_bedrock inp line pclk s))
  | inputTestPulse src lows => exact guarded_root h (root_of_bedrock (opInputTestPulse_bedrock src lows s))
  | sloutTestPulse fell rose => exact next_root h (root_of_bedrock (opSloutTestPulse_bedrock fell rose s))
  | clockLoss chan pclk => exact guarded_root h (root_of_bedrock (opClockLoss_bedrock chan pclk s))
  | channelRejoin chan => exact guarded_root h (root_of_bedrock (opChannelRejoin_bedrock chan s))
  | plannedSelfTest => exact next_root h (root_of_bedrock (opPlannedSelfTest_bedrock s))
  | leadChange => exact next_root h (root_of_bedrock (opLeadChange_bedrock s))
  | fltSwap => exact next_root h (root_of_bedrock (opFltSwap_bedrock s))
  | canRx ch f => exact guarded_root h (root_of_bedrock (opCanRx_bedrock ch f s))
  | canTxOutcome ch stop outcome sof =>
    exact guarded_root h ((root_of_bedrock (noteQueue_bedrock ..)).trans (root_of_bedrock (opCanTxOutcome_bedrock ch stop outcome sof s)))
  | busOff ch head =>
    exact guarded_root h ((root_of_bedrock (noteQueue_bedrock ..)).trans (root_of_bedrock (opBusOff_bedrock ch head s)))
  | busOffRecovery ch => exact guarded_root h (root_of_bedrock (opBusOffRecovery_bedrock ch s))
  | canWake ch w =>
    exact guarded_root h ((root_of_bedrock (noteQueue_bedrock ..)).trans (root_of_bedrock (opCanWake_bedrock ch w s)))
  | portLink port up speed => exact next_root h (root_of_bedrock (opPortLink_bedrock port up speed s))
  | auxInput io level pclk => exact guarded_root h (root_of_bedrock (opAuxInput_bedrock io level pclk s))
  | outFault io pclk => exact guarded_root h (root_of_bedrock (opOutFault_bedrock io pclk s))
  | svcEn active pclk => exact next_root h (root_of_bedrock (opSvcEn_bedrock active pclk s))
  | vioLost present pclk => exact next_root h (root_of_bedrock (opVioLost_bedrock present pclk s))
  | tamperCheck sensor found rtc => exact guarded_root h (root_of_bedrock (opTamperCheck_bedrock sensor found rtc s))
  | maintenanceExpiry => exact next_root h (root_of_bedrock (opMaintenanceExpiry_bedrock s))
  | allotmentRound => exact next_root h (root_of_bedrock (opAllotmentRound_bedrock s))
  | leadlightRequest => exact next_root h (root_of_bedrock (opLeadlightRequest_bedrock s))
  | searchResult unit tclk => exact guarded_root h (root_of_bedrock (opSearchResult_bedrock unit tclk s))
  | probe cell slot kind _ => exact guarded_root h (root_of_bedrock (opProbe_bedrock cell slot kind s))
  | legReserve => exact next_root h (root_of_bedrock (opLegReserve_bedrock s))
  | grant => exact next_root h (root_of_bedrock (opGrant_bedrock s))
  | expirySweep => exact next_root h (root_of_bedrock (opExpirySweep_bedrock s))
  | queueWrite q e special => exact onQueue_root h (fun p => root_of_bedrock (opQueueWrite_bedrock q e special p s))
  | queueRead q => exact onQueue_root h (fun p => root_of_bedrock (opQueueRead_bedrock q p s))
  | dropRest q => exact onQueue_root h (fun p => root_of_bedrock (opDropRest_bedrock q p s))
  | headRefill q => exact onQueue_root h (fun p => root_of_bedrock (opHeadRefill_bedrock q p s))
  | queueFault q dram reading => exact onQueue_root h (fun p => root_of_bedrock (opQueueFault_bedrock q dram reading p s))
  | memoryFault f => exact guarded_root h (opMemoryFault_root f s)
  | backupDomainLoss => exact next_root h (root_of_bedrock (opBackupDomainLoss_bedrock s))
  | arpNdpEchoRequest port kind => exact next_root h (root_of_bedrock (opArpNdpEchoRequest_bedrock port kind s))
  | canBusError ch tec rec =>
    exact guarded_root h ((root_of_bedrock (noteQueue_bedrock ..)).trans (root_of_bedrock (opCanBusError_bedrock ch tec rec s)))
  | lossOfLock chan code phase pclk => exact guarded_root h (root_of_bedrock (opLossOfLock_bedrock chan code phase pclk s))
  | phaseLock chan pclk => exact guarded_root h (root_of_bedrock (opPhaseLock_bedrock chan pclk s))
  | bitSynchronisation chan message => exact guarded_root h (root_of_bedrock (opBitSynchronisation_bedrock chan message s))
  | codeLock chan pclk => exact guarded_root h (root_of_bedrock (opCodeLock_bedrock chan pclk s))

/-- Settles O4: a step takes the front command off the queue and carries it out on what is left, and no command touches that
queue or a fuse (`exec_root`). -/
theorem everyStepKeepsFusesAndPopsTheQueue : Obligations.EveryStepKeepsFusesAndPopsTheQueue := by
  intro s t h
  unfold step at h
  split at h
  · next hp =>
    cases h
    exact ⟨rfl, by rw [hp]; rfl⟩
  · next c rest hp =>
    have hr := exec_root c _ t h
    rw [root_mk] at hr
    obtain ⟨hq, hf⟩ := Prod.ext_iff.mp hr
    exact ⟨hf, by rw [hp]; exact hq⟩

end Sys2Proof.Machine
end

section
/-! PROOFS. What each window leaves alone, in the manner of `bedrock`: a view of the state for each window, and a lemma for
every function of the model the window runs. -/

namespace Sys2Proof.Machine

open Sys2Proof

/-! ### What a window boundary keeps -/

/-- The commands received, those latched and the command units used: what closing an FC and the boundary work of the units keep. -/
def boundaryKept (s : State) : List Request × List Request × Nat := (s.edtor.inbox, s.edtor.latched, s.edtor.unitsUsed)

theorem boundaryKept_mk (pending freeCtr fuse flash p nv bk clk cores mode supply edtor com queues time gnss ref buoy sess strt
    holds allot stop radio can ports sec upd) :
    boundaryKept (State.mk pending freeCtr fuse flash p nv bk clk cores mode supply edtor com queues time gnss ref buoy sess strt
      holds allot stop radio can ports sec upd) = (edtor.inbox, edtor.latched, edtor.unitsUsed) := by unfold boundaryKept; rfl

theorem boundaryKept_fold (s : State) :
    (s.edtor.inbox, s.edtor.latched, s.edtor.unitsUsed) = boundaryKept s := by unfold boundaryKept; rfl

theorem submit_boundaryKept (s : State) (origin kind idx : Nat) :
    boundaryKept (submit s origin kind idx) = boundaryKept s := by
  simp only [submit, ↓boundaryKept_mk, ↓boundaryKept_fold]

theorem freshNat_boundaryKept (s : State) : boundaryKept (freshNat s).2 = boundaryKept s := by
  simp only [freshNat, ↓boundaryKept_mk, ↓boundaryKept_fold]

theorem raiseAt_boundaryKept (s : State) (code : Nat) (aud : Audience) (t : Nat) (payload : Bytes) :
    boundaryKept (raiseAt s code aud t payload) = boundaryKept s := by
  simp only [raiseAt, ↓boundaryKept_mk, ↓boundaryKept_fold]

theorem raise_boundaryKept (s : State) (code : Nat) (aud : Audience) (payload : Bytes) :
    boundaryKept (raise s code aud payload) = boundaryKept s := by
  simp only [raise, ↓raiseAt_boundaryKept]

theorem raiseLater_boundaryKept (s : State) (code : Nat) (aud : Audience) (t : Nat) (payload : Bytes) :
    boundaryKept (raiseLater s code aud t payload) = boundaryKept s := by
  simp only [raiseLater, ↓boundaryKept_mk, ↓boundaryKept_fold]

theorem modSession_boundaryKept (s : State) (slot : Nat) (f : Session → Session) :
    boundaryKept (modSession s slot f) = boundaryKept s := by
  simp only [modSession, ↓boundaryKept_mk, ↓boundaryKept_fold]

theorem record_boundaryKept (s : State) (r : Request) (final : Bool) (intr status planned : Nat) :
    boundaryKept (record s r final intr status planned) = boundaryKept s := by
  simp only [record, ↓boundaryKept_mk, ↓boundaryKept_fold]

theorem countViol_boundaryKept (s : State) (slot : Nat) (port : Port) (i : Nat) (executing : Bool) :
    boundaryKept (countViol s slot port i executing) = boundaryKept s := by
  simp only [countViol, ↓boundaryKept_mk, ↓boundaryKept_fold, ↓modSession_boundaryKept]

theorem countStatus_boundaryKept (s : State) (r : Request) (status : Nat) :
    boundaryKept (countStatus s r status) = boundaryKept s := by
  simp only [countStatus]
  split <;> simp only [↓countViol_boundaryKept]

theorem queueReply_boundaryKept (s : State) (r : Request) (k : Packet) :
    boundaryKept (queueReply s r k) = boundaryKept s := by
  simp only [queueReply, ↓boundaryKept_mk, ↓boundaryKept_fold, ↓apply_ite boundaryKept, ite_self]

theorem finishI_boundaryKept (s : State) (r : Request) (intr status : Nat) (payload : Bytes) :
    boundaryKept (finishI s r intr status payload) = boundaryKept s := by
  simp only [finishI, ↓apply_ite boundaryKept, ite_self, ↓countStatus_boundaryKept, ↓queueReply_boundaryKept,
    ↓record_boundaryKept]

theorem trigger_boundaryKept (s : State) (t : Trigger) : boundaryKept (trigger s t) = boundaryKept s := by
  simp only [trigger, ↓boundaryKept_mk, ↓boundaryKept_fold, ↓apply_ite boundaryKept, ite_self]

theorem requestStop_boundaryKept (s : State) (bit : Nat) : boundaryKept (requestStop s bit) = boundaryKept s := by
  simp only [requestStop, ↓boundaryKept_mk, ↓boundaryKept_fold]

theorem applyMode_boundaryKept (s : State) (fc : Nat) : boundaryKept (applyMode s fc) = boundaryKept s := by
  simp only [applyMode]
  split <;> simp only [↓boundaryKept_mk, ↓boundaryKept_fold, ↓apply_ite boundaryKept, ite_self]

theorem cacheKey_boundaryKept (s : State) (entry gen : Nat) : boundaryKept (cacheKey s entry gen) = boundaryKept s := by
  simp only [cacheKey, ↓boundaryKept_mk, ↓boundaryKept_fold]

theorem setQueue_boundaryKept (s : State) (q : Nat) (k : SpillQueue) : boundaryKept (setQueue s q k) = boundaryKept s := by
  simp only [setQueue, ↓boundaryKept_mk, ↓boundaryKept_fold]

theorem noteOccupancy_boundaryKept (s : State) (q : Nat) (p : QParam) (before : Nat) :
    boundaryKept (noteOccupancy s q p before) = boundaryKept s := by
  simp only [noteOccupancy, ↓apply_ite boundaryKept, ite_self, ↓raiseLater_boundaryKept, ↓setQueue_boundaryKept]

theorem noteQueue_boundaryKept (s : State) (q : Nat) : boundaryKept (noteQueue s q) = boundaryKept s := by
  simp only [noteQueue]
  split <;> simp only [↓apply_ite boundaryKept, ite_self, ↓noteOccupancy_boundaryKept]

theorem noteAll_boundaryKept (s : State) : boundaryKept (noteAll s) = boundaryKept s := by
  simp only [noteAll, ↓foldl_keeps boundaryKept, implies_true, ↓noteQueue_boundaryKept]

theorem latchPorts_boundaryKept (s : State) : boundaryKept (latchPorts s) = boundaryKept s := by
  simp only [latchPorts, ↓boundaryKept_mk, ↓boundaryKept_fold]

theorem leaveLocked_boundaryKept (s : State) : boundaryKept (leaveLocked s) = boundaryKept s := by
  simp only [leaveLocked, ↓apply_ite boundaryKept, ite_self, ↓trigger_boundaryKept]

theorem loseReference_boundaryKept (s : State) : boundaryKept (loseReference s) = boundaryKept s := by
  simp only [loseReference]
  split <;> simp only [↓boundaryKept_mk, ↓boundaryKept_fold, ↓leaveLocked_boundaryKept]

theorem acquireReference_boundaryKept (s : State) (ref : Nat) (x : Int) :
    boundaryKept (acquireReference s ref x) = boundaryKept s := by
  simp only [acquireReference, ↓boundaryKept_mk, ↓boundaryKept_fold, ↓apply_ite boundaryKept, ite_self,
    ↓leaveLocked_boundaryKept]

theorem selectReference_boundaryKept (s : State) : boundaryKept (selectReference s) = boundaryKept s := by
  simp only [selectReference]
  (repeat' split) <;> simp only [↓acquireReference_boundaryKept, ↓loseReference_boundaryKept]

theorem useMeasurement_boundaryKept (s : State) (x dy : Int) : boundaryKept (useMeasurement s x dy) = boundaryKept s := by
  simp only [useMeasurement, ↓boundaryKept_mk, ↓boundaryKept_fold, ↓apply_ite boundaryKept, ite_self]

theorem measurePps_boundaryKept (s : State) (c : Counter) : boundaryKept (measurePps s c) = boundaryKept s := by
  simp only [measurePps]
  split <;> simp only [↓boundaryKept_mk, ↓boundaryKept_fold, ↓apply_ite boundaryKept, ite_self, ↓selectReference_boundaryKept,
    ↓useMeasurement_boundaryKept]

theorem latchPps_boundaryKept (s : State) : boundaryKept (latchPps s) = boundaryKept s := by
  simp only [latchPps, ↓boundaryKept_mk, ↓boundaryKept_fold, ↓foldl_keeps boundaryKept, implies_true, ↓measurePps_boundaryKept]

theorem enterTimeState_boundaryKept (s : State) : boundaryKept (enterTimeState s) = boundaryKept s := by
  simp only [enterTimeState]
  split <;> simp only [↓boundaryKept_mk, ↓boundaryKept_fold, ↓apply_ite boundaryKept, ite_self]

theorem ppsLoss_boundaryKept (s : State) (now : Nat) : boundaryKept (ppsLoss s now) = boundaryKept s := by
  simp only [ppsLoss]
  split <;> simp only [↓boundaryKept_mk, ↓boundaryKept_fold, ↓apply_ite boundaryKept, ite_self]

theorem latchReferences_boundaryKept (s : State) (b : Counter) : boundaryKept (latchReferences s b) = boundaryKept s := by
  simp only [latchReferences, ↓boundaryKept_mk, ↓boundaryKept_fold, ↓latchPps_boundaryKept, ↓ppsLoss_boundaryKept,
    ↓selectReference_boundaryKept]

theorem settleTime_boundaryKept (s : State) (board : Int) : boundaryKept (settleTime s board) = boundaryKept s := by
  simp only [settleTime, ↓boundaryKept_mk, ↓boundaryKept_fold]

theorem timeBoundary_boundaryKept (s : State) (b : Counter) (board encl : Int) :
    boundaryKept (timeBoundary s b board encl) = boundaryKept s := by
  simp only [timeBoundary, ↓boundaryKept_mk, ↓boundaryKept_fold, ↓enterTimeState_boundaryKept, ↓latchReferences_boundaryKept,
    ↓settleTime_boundaryKept]

theorem streamBoundary_boundaryKept (s : State) (stream : Nat) (i : StreamIn) :
    boundaryKept (streamBoundary s stream i) = boundaryKept s := by
  simp only [streamBoundary, ↓boundaryKept_mk, ↓boundaryKept_fold, ↓apply_ite boundaryKept, ite_self, ↓raise_boundaryKept]

theorem antBoundary_boundaryKept (s : State) (a : Nat) (i : AntIn) : boundaryKept (antBoundary s a i) = boundaryKept s := by
  simp only [antBoundary, ↓boundaryKept_mk, ↓boundaryKept_fold, ↓apply_ite boundaryKept, ite_self, ↓raise_boundaryKept]

theorem modChan_boundaryKept (s : State) (c : Nat) (f : Channel → Channel) :
    boundaryKept (modChan s c f) = boundaryKept s := by
  simp only [modChan]
  split <;> simp only [↓boundaryKept_mk, ↓boundaryKept_fold]

theorem startSearches_boundaryKept (s : State) : boundaryKept (startSearches s) = boundaryKept s := by
  simp only [startSearches]
  refine (foldl_keeps boundaryKept _ _ _ fun u b => ?_).trans ?_ <;> simp only [↓apply_ite boundaryKept]
  (repeat' split) <;> simp only [↓modChan_boundaryKept]

theorem endSearches_boundaryKept (s : State) : boundaryKept (endSearches s) = boundaryKept s := by
  simp only [endSearches, ↓boundaryKept_mk, ↓boundaryKept_fold]

theorem assignChannels_boundaryKept (s : State) : boundaryKept (assignChannels s) = boundaryKept s := by
  simp only [assignChannels]
  split <;> simp only [↓boundaryKept_mk, ↓boundaryKept_fold, ↓startSearches_boundaryKept]

theorem gnssBoundary_boundaryKept (s : State) (streams : List StreamIn) (ants : List AntIn) :
    boundaryKept (gnssBoundary s streams ants) = boundaryKept s := by
  simp only [gnssBoundary, ↓boundaryKept_mk, ↓boundaryKept_fold, ↓apply_ite boundaryKept, ite_self, ↓foldl_keeps boundaryKept,
    implies_true, ↓antBoundary_boundaryKept, ↓assignChannels_boundaryKept, ↓endSearches_boundaryKept,
    ↓startSearches_boundaryKept, ↓streamBoundary_boundaryKept]

theorem refBoundary_boundaryKept (s : State) (wasA wasB : Nat) :
    boundaryKept (refBoundary s wasA wasB) = boundaryKept s := by
  simp only [refBoundary, ↓boundaryKept_mk, ↓boundaryKept_fold]

theorem modAnchor_boundaryKept (s : State) (l : Nat) (f : AnchorLive → AnchorLive) :
    boundaryKept (modAnchor s l f) = boundaryKept s := by
  simp only [modAnchor, ↓boundaryKept_mk, ↓boundaryKept_fold]

theorem setAnchor_boundaryKept (s : State) (l : Nat) (st : AnchorState) (cause : Nat) :
    boundaryKept (setAnchor s l st cause) = boundaryKept s := by
  simp only [setAnchor, ↓apply_ite boundaryKept, ite_self, ↓modAnchor_boundaryKept]

theorem enableLink_boundaryKept (s : State) (l : Nat) : boundaryKept (enableLink s l) = boundaryKept s := by
  simp only [enableLink, ↓apply_ite boundaryKept, ite_self, ↓modAnchor_boundaryKept, ↓setAnchor_boundaryKept]

theorem enableLinks_boundaryKept (s : State) : boundaryKept (enableLinks s) = boundaryKept s := by
  have key : ∀ (l : List Nat) (e : Bool × State), boundaryKept (l.foldl (fun (e : Bool × State) l =>
      let t := enableLink e.2 l
      let on := (anchorAt t l).podlOn && !(anchorAt e.2 l).podlOn
      if on && e.1 then e else (e.1 || on, t)) e).2 = boundaryKept e.2 := by
    intro l
    induction l with
    | nil => intro e; rfl
    | cons x l ih =>
      intro e
      refine (ih _).trans ?_
      dsimp only
      split
      · rfl
      · exact enableLink_boundaryKept e.2 x
  exact key _ _

theorem unpower_boundaryKept (s : State) (l cause : Nat) : boundaryKept (unpower s l cause) = boundaryKept s := by
  simp only [unpower, ↓modAnchor_boundaryKept, ↓setAnchor_boundaryKept]

theorem shedLinks_boundaryKept (s : State) : boundaryKept (shedLinks s) = boundaryKept s := by
  simp only [shedLinks, ↓apply_ite boundaryKept, ite_self, ↓foldl_keeps boundaryKept, implies_true, ↓modAnchor_boundaryKept,
    ↓unpower_boundaryKept]

theorem keepLinks_boundaryKept (s : State) : boundaryKept (keepLinks s) = boundaryKept s := by
  simp only [keepLinks, ↓apply_ite boundaryKept, ite_self, ↓foldl_keeps boundaryKept, implies_true, ↓unpower_boundaryKept]

theorem takePhy_boundaryKept (s : State) (l : Nat) (up : Bool) : boundaryKept (takePhy s l up) = boundaryKept s := by
  simp only [takePhy, ↓apply_ite boundaryKept, ite_self, ↓setAnchor_boundaryKept]

theorem faultAnchor_boundaryKept (s : State) (l cause : Nat) : boundaryKept (faultAnchor s l cause) = boundaryKept s := by
  simp only [faultAnchor, ↓modAnchor_boundaryKept, ↓setAnchor_boundaryKept]

theorem badFrame_boundaryKept (s : State) (l : Nat) : boundaryKept (badFrame s l) = boundaryKept s := by
  simp only [badFrame, ↓modAnchor_boundaryKept]

theorem takeHello_boundaryKept (s : State) (f : BuoyFrame) : boundaryKept (takeHello s f) = boundaryKept s := by
  simp only [takeHello]
  split <;> simp only [↓boundaryKept_mk, ↓boundaryKept_fold, ↓apply_ite boundaryKept, ite_self, ↓cacheKey_boundaryKept,
    ↓modAnchor_boundaryKept, ↓setAnchor_boundaryKept]

theorem afterExchange_boundaryKept (s : State) (l : Nat) : boundaryKept (afterExchange s l) = boundaryKept s := by
  simp only [afterExchange, ↓apply_ite boundaryKept, ite_self, ↓setAnchor_boundaryKept]

theorem takeSyncResp_boundaryKept (s : State) (f : BuoyFrame) : boundaryKept (takeSyncResp s f) = boundaryKept s := by
  simp only [takeSyncResp]
  split <;> simp only [↓apply_ite boundaryKept, ite_self, ↓afterExchange_boundaryKept, ↓modAnchor_boundaryKept]

theorem calHeard_boundaryKept (s : State) (l : Nat) (blinks : List BlinkReport) :
    boundaryKept (calHeard s l blinks) = boundaryKept s := by
  simp only [calHeard, ↓boundaryKept_mk, ↓boundaryKept_fold]

theorem takeReport_boundaryKept (s : State) (f : BuoyFrame) : boundaryKept (takeReport s f) = boundaryKept s := by
  simp only [takeReport]
  split <;> simp only [↓boundaryKept_mk, ↓boundaryKept_fold, ↓apply_ite boundaryKept, ite_self, ↓calHeard_boundaryKept,
    ↓modAnchor_boundaryKept]

theorem relayReported_boundaryKept (s : State) (l rstate : Nat) :
    boundaryKept (relayReported s l rstate) = boundaryKept s := by
  simp only [relayReported, ↓boundaryKept_mk, ↓boundaryKept_fold]

theorem takeRelayAck_boundaryKept (s : State) (f : BuoyFrame) : boundaryKept (takeRelayAck s f) = boundaryKept s := by
  simp only [takeRelayAck]
  split <;> simp only [↓apply_ite boundaryKept, ite_self, ↓modAnchor_boundaryKept, ↓relayReported_boundaryKept]

theorem takeFrame_boundaryKept (s : State) (f : BuoyFrame) : boundaryKept (takeFrame s f) = boundaryKept s := by
  simp only [takeFrame]
  split <;> simp only [↓apply_ite boundaryKept, ite_self, ↓badFrame_boundaryKept, ↓takeHello_boundaryKept,
    ↓takeRelayAck_boundaryKept, ↓takeReport_boundaryKept, ↓takeSyncResp_boundaryKept]

theorem latchOne_boundaryKept (s : State) (x : BuoyIn) : boundaryKept (latchOne s x) = boundaryKept s := by
  simp only [latchOne]
  split <;> simp only [↓faultAnchor_boundaryKept, ↓takeFrame_boundaryKept, ↓takePhy_boundaryKept]

theorem micFault_boundaryKept (s : State) (l : Nat) : boundaryKept (micFault s l) = boundaryKept s := by
  simp only [micFault, ↓apply_ite boundaryKept, ite_self, ↓faultAnchor_boundaryKept]

theorem latchBuoy_boundaryKept (s : State) : boundaryKept (latchBuoy s) = boundaryKept s := by
  simp only [latchBuoy, ↓boundaryKept_mk, ↓boundaryKept_fold, ↓apply_ite boundaryKept, ite_self, ↓foldl_keeps boundaryKept,
    implies_true, ↓latchOne_boundaryKept, ↓micFault_boundaryKept]

theorem missedExchange_boundaryKept (s : State) (l : Nat) : boundaryKept (missedExchange s l) = boundaryKept s := by
  simp only [missedExchange, ↓apply_ite boundaryKept, ite_self, ↓modAnchor_boundaryKept, ↓setAnchor_boundaryKept]

theorem ctxActs_boundaryKept (s : State) (l : Nat) : boundaryKept (ctxActs s l) = boundaryKept s := by
  simp only [ctxActs]
  (repeat' split) <;> simp only [↓setAnchor_boundaryKept, ↓unpower_boundaryKept]

theorem ctxBoundary_boundaryKept (s : State) : boundaryKept (ctxBoundary s) = boundaryKept s := by
  simp only [ctxBoundary, ↓boundaryKept_mk, ↓boundaryKept_fold, ↓foldl_keeps boundaryKept, implies_true, ↓ctxActs_boundaryKept]

theorem activateBoundary_boundaryKept (s : State) (l : Nat) : boundaryKept (activateBoundary s l) = boundaryKept s := by
  simp only [activateBoundary]
  split <;> simp only [↓apply_ite boundaryKept, ite_self, ↓modAnchor_boundaryKept, ↓setAnchor_boundaryKept]

theorem pruneUwb_boundaryKept (s : State) : boundaryKept (pruneUwb s) = boundaryKept s := by
  simp only [pruneUwb, ↓boundaryKept_mk, ↓boundaryKept_fold]

theorem buoyBoundary_boundaryKept (s : State) (tAmb : Int) (podlMa : List Nat) :
    boundaryKept (buoyBoundary s tAmb podlMa) = boundaryKept s := by
  simp only [buoyBoundary, ↓boundaryKept_mk, ↓boundaryKept_fold, ↓apply_ite boundaryKept, ite_self, ↓foldl_keeps boundaryKept,
    implies_true, ↓activateBoundary_boundaryKept, ↓ctxBoundary_boundaryKept, ↓enableLinks_boundaryKept, ↓keepLinks_boundaryKept,
    ↓latchBuoy_boundaryKept, ↓missedExchange_boundaryKept, ↓pruneUwb_boundaryKept, ↓shedLinks_boundaryKept]

theorem zonesBoundary_boundaryKept (s : State) : boundaryKept (zonesBoundary s) = boundaryKept s := by
  simp only [zonesBoundary]
  split <;> simp only [↓boundaryKept_mk, ↓boundaryKept_fold]

theorem modRobot_boundaryKept (s : State) (i : Nat) (f : Robot → Robot) :
    boundaryKept (modRobot s i f) = boundaryKept s := by
  simp only [modRobot, ↓boundaryKept_mk, ↓boundaryKept_fold]

theorem putHold_boundaryKept (s : State) (n : Nat) (h : HoldRec) : boundaryKept (putHold s n h) = boundaryKept s := by
  simp only [putHold, ↓boundaryKept_mk, ↓boundaryKept_fold]

theorem activateHolds_boundaryKept (s : State) : boundaryKept (activateHolds s) = boundaryKept s := by
  simp only [activateHolds, ↓foldl_keeps boundaryKept, implies_true, ↓putHold_boundaryKept, ↓raise_boundaryKept]

theorem modCan_boundaryKept (s : State) (ch : Nat) (f : CanChan → CanChan) :
    boundaryKept (modCan s ch f) = boundaryKept s := by
  simp only [modCan, ↓boundaryKept_mk, ↓boundaryKept_fold]

theorem takeCan_boundaryKept (s : State) (ch : Nat) (f : CanFrame) : boundaryKept (takeCan s ch f) = boundaryKept s := by
  simp only [takeCan]
  split <;> simp only [↓apply_ite boundaryKept, ite_self, ↓freshNat_boundaryKept, ↓modCan_boundaryKept,
    ↓requestStop_boundaryKept]

theorem latchRx_boundaryKept (s : State) (ch : Nat) : boundaryKept (latchRx s ch) = boundaryKept s := by
  simp only [latchRx, ↓foldl_keeps boundaryKept, implies_true, ↓modCan_boundaryKept, ↓takeCan_boundaryKept]

theorem canLatch_boundaryKept (s : State) (ch : Nat) : boundaryKept (canLatch s ch) = boundaryKept s := by
  simp only [canLatch, ↓latchRx_boundaryKept, ↓modCan_boundaryKept]

theorem canBoundary_boundaryKept (s : State) : boundaryKept (canBoundary s) = boundaryKept s := by
  simp only [canBoundary, ↓canLatch_boundaryKept]

theorem setSState_boundaryKept (s : State) (i : Nat) (new : SState) (cause : Nat) :
    boundaryKept (setSState s i new cause) = boundaryKept s := by
  simp only [setSState, ↓boundaryKept_mk, ↓boundaryKept_fold, ↓modRobot_boundaryKept]

theorem lnkSState_boundaryKept (s : State) (i : Nat) (new : SState) (cause : Nat) :
    boundaryKept (lnkSState s i new cause) = boundaryKept s := by
  simp only [lnkSState, ↓setSState_boundaryKept, ↓submit_boundaryKept]

theorem modRpt_boundaryKept (s : State) (k : Nat) (f : RptEntry → RptEntry) :
    boundaryKept (modRpt s k f) = boundaryKept s := by
  simp only [modRpt, ↓boundaryKept_mk, ↓boundaryKept_fold]

theorem modOne_boundaryKept (s : State) (r : Nat) (f : OneRadio → OneRadio) :
    boundaryKept (modOne s r f) = boundaryKept s := by
  simp only [modOne, ↓boundaryKept_mk, ↓boundaryKept_fold, ↓apply_ite boundaryKept, ite_self]

theorem elementMicFail_boundaryKept (s : State) (radio : Nat) (eui : BitVec 64) :
    boundaryKept (elementMicFail s radio eui) = boundaryKept s := by
  simp only [elementMicFail]
  split <;> simp only [↓boundaryKept_mk, ↓boundaryKept_fold, ↓modOne_boundaryKept, ↓modRpt_boundaryKept]

theorem elementDuplicate_boundaryKept (s : State) (radio : Nat) :
    boundaryKept (elementDuplicate s radio) = boundaryKept s := by
  simp only [elementDuplicate, ↓boundaryKept_mk, ↓boundaryKept_fold, ↓modOne_boundaryKept]

theorem elementReplay_boundaryKept (s : State) (radio : Nat) : boundaryKept (elementReplay s radio) = boundaryKept s := by
  simp only [elementReplay, ↓boundaryKept_mk, ↓boundaryKept_fold, ↓modOne_boundaryKept]

theorem latchMsg_boundaryKept (s : State) (frag : Bool) (m : AirMsg) :
    boundaryKept (latchMsg s frag m) = boundaryKept s := by
  simp only [latchMsg, ↓boundaryKept_mk, ↓boundaryKept_fold, ↓apply_ite boundaryKept, ite_self]

theorem chainElement_boundaryKept (s : State) (i : Nat) (radio : Nat) (e : Element) (eui : BitVec 64) :
    boundaryKept (chainElement s i radio e eui) = boundaryKept s := by
  simp only [chainElement, ↓apply_ite boundaryKept, ite_self, ↓latchMsg_boundaryKept, ↓modRobot_boundaryKept]

theorem takeAssoc_boundaryKept (s : State) (radio : Nat) (e : Element) :
    boundaryKept (takeAssoc s radio e).2 = boundaryKept s := by
  simp only [takeAssoc]
  (repeat' split) <;> simp only [↓chainElement_boundaryKept, ↓elementDuplicate_boundaryKept, ↓elementMicFail_boundaryKept,
    ↓elementReplay_boundaryKept, ↓modRobot_boundaryKept]

theorem learnUnenrolled_boundaryKept (s : State) (radio : Nat) (eui : BitVec 64) :
    boundaryKept (learnUnenrolled s radio eui) = boundaryKept s := by
  simp only [learnUnenrolled]
  (repeat' split) <;> simp only [↓boundaryKept_mk, ↓boundaryKept_fold, ↓modRpt_boundaryKept]

theorem takeLink_boundaryKept (s : State) (radio : Nat) (e : Element) :
    boundaryKept (takeLink s radio e).2 = boundaryKept s := by
  simp only [takeLink]
  (repeat' split) <;> simp only [↓boundaryKept_mk, ↓boundaryKept_fold, ↓chainElement_boundaryKept,
    ↓elementDuplicate_boundaryKept, ↓elementMicFail_boundaryKept, ↓elementReplay_boundaryKept, ↓latchMsg_boundaryKept,
    ↓learnUnenrolled_boundaryKept]

theorem portMoved_boundaryKept (s : State) (i radio ctr gap : Nat) :
    boundaryKept (portMoved s i radio ctr gap) = boundaryKept s := by
  simp only [portMoved, ↓apply_ite boundaryKept, ite_self, ↓modRobot_boundaryKept, ↓raise_boundaryKept]

theorem learnFrame_boundaryKept (s : State) (i radio ctr high t : Nat) (link : Bool) :
    boundaryKept (learnFrame s i radio ctr high t link) = boundaryKept s := by
  simp only [learnFrame]
  (repeat' split) <;> simp only [↓boundaryKept_mk, ↓boundaryKept_fold, ↓modRobot_boundaryKept, ↓modRpt_boundaryKept,
    ↓portMoved_boundaryKept]

theorem wakeEvent_boundaryKept (s : State) (i cause : Nat) : boundaryKept (wakeEvent s i cause) = boundaryKept s := by
  simp only [wakeEvent, ↓raise_boundaryKept]

theorem heardAgain_boundaryKept (s : State) (i : Nat) (sleepOnly : Bool) :
    boundaryKept (heardAgain s i sleepOnly) = boundaryKept s := by
  simp only [heardAgain, ↓apply_ite boundaryKept, ite_self, ↓lnkSState_boundaryKept, ↓modRobot_boundaryKept,
    ↓wakeEvent_boundaryKept]

theorem applyFrame_boundaryKept (s : State) (f : AirIn × Bytes) : boundaryKept (applyFrame s f) = boundaryKept s := by
  have hf := foldl_snd_keeps boundaryKept (fun (a : List (Nat × Nat × Bool × Bool) × State) (e : Element) =>
      let (r, s') := if e.kind = 1 then takeAssoc a.2 f.1.radio e else if e.kind = 3 then takeLink a.2 f.1.radio e else (none,
        a.2)
      match r with
      | some (i, c, sl) => (a.1 ++ [(i, c, e.kind == 3, sl)], s')
      | none => (a.1, s')) (elementsOf f.1) ([], s) fun a e => by
    have hp : boundaryKept (if e.kind = 1 then takeAssoc a.2 f.1.radio e else if e.kind = 3 then takeLink a.2 f.1.radio e
        else (none, a.2)).2 = boundaryKept a.2 := by
      split
      · exact takeAssoc_boundaryKept ..
      · split
        · exact takeLink_boundaryKept ..
        · rfl
    dsimp only
    split <;> exact hp
  unfold applyFrame
  dsimp only at hf ⊢
  split
  · exact hf
  · simp only [↓apply_ite boundaryKept, ↓heardAgain_boundaryKept, ↓learnFrame_boundaryKept, ite_self]
    exact hf

theorem latchRadio_boundaryKept (s : State) : boundaryKept (latchRadio s) = boundaryKept s := by
  simp only [latchRadio, ↓boundaryKept_mk, ↓boundaryKept_fold, ↓foldl_keeps boundaryKept, implies_true,
    ↓applyFrame_boundaryKept]

theorem rptEnrol_boundaryKept (s : State) (k i : Nat) (eui : BitVec 64) :
    boundaryKept (rptEnrol s k i eui) = boundaryKept s := by
  simp only [rptEnrol, ↓boundaryKept_mk, ↓boundaryKept_fold]

theorem changeStop_boundaryKept (s : State) (pclk : Nat) (f : State → State) :
    boundaryKept (changeStop s pclk f) = boundaryKept (f s) :=
  (congrArg boundaryKept (Laws.changeStop_same s pclk f).1.rest).trans rfl

theorem modChans_boundaryKept (s : State) (f : Channel3 → Channel3) : boundaryKept (modChans s f) = boundaryKept s := by
  simp only [modChans, ↓boundaryKept_mk, ↓boundaryKept_fold]

theorem modSaf_boundaryKept (s : State) (c : Nat) (f : Channel3 → Channel3) :
    boundaryKept (modSaf s c f) = boundaryKept s := by
  simp only [modSaf, ↓boundaryKept_mk, ↓boundaryKept_fold]

theorem latchSite_boundaryKept (bit : Nat) (active : Bool) (s : State) :
    boundaryKept (latchSite bit active s) = boundaryKept s := by
  simp only [latchSite, ↓modChans_boundaryKept]

theorem clearSite_boundaryKept (bit : Nat) (s : State) : boundaryKept (clearSite bit s) = boundaryKept s := by
  simp only [clearSite, ↓modChans_boundaryKept]

theorem latchRobot_boundaryKept (i why : Nat) (s : State) : boundaryKept (latchRobot i why s) = boundaryKept s := by
  simp only [latchRobot, ↓boundaryKept_mk, ↓boundaryKept_fold, ↓modChans_boundaryKept]

theorem applyRequests_boundaryKept (s : State) (start : Nat) : boundaryKept (applyRequests s start) = boundaryKept s := by
  unfold applyRequests
  split
  · rfl
  · refine (changeStop_boundaryKept ..).trans ((foldl_keeps boundaryKept _ _ _ fun u q => ?_).trans rfl)
    split
    · exact latchRobot_boundaryKept ..
    · exact latchSite_boundaryKept ..

theorem outputFaulty_boundaryKept (s : State) : boundaryKept (outputFaulty s) = boundaryKept s := by
  simp only [outputFaulty, ↓boundaryKept_mk, ↓boundaryKept_fold, ↓latchSite_boundaryKept]

theorem modSl_boundaryKept (s : State) (i : Nat) (f : SlInput → SlInput) : boundaryKept (modSl s i f) = boundaryKept s := by
  simp only [modSl, ↓boundaryKept_mk, ↓boundaryKept_fold, ↓apply_ite boundaryKept, ite_self]

theorem slFault_boundaryKept (i : Nat) (s : State) : boundaryKept (slFault i s) = boundaryKept s := by
  simp only [slFault, ↓latchSite_boundaryKept, ↓modSl_boundaryKept]

theorem slFaultStep_boundaryKept (s : State) (i : Nat) (h1 h2 : Bool) :
    boundaryKept (slFaultStep s i h1 h2) = boundaryKept s := by
  simp only [slFaultStep, ↓apply_ite boundaryKept, ite_self, ↓clearSite_boundaryKept, ↓modSl_boundaryKept,
    ↓slFault_boundaryKept]

theorem slBoundary_boundaryKept (s : State) (i : Nat) (h1 h2 : Bool) :
    boundaryKept (slBoundary s i h1 h2) = boundaryKept s := by
  simp only [slBoundary, ↓apply_ite boundaryKept, ite_self, ↓clearSite_boundaryKept, ↓latchSite_boundaryKept,
    ↓modSl_boundaryKept, ↓slFaultStep_boundaryKept]

theorem noteChan_boundaryKept (s : State) (c : Nat) (new old : ChState) (reason testId time : Nat) :
    boundaryKept (noteChan s c new old reason testId time) = boundaryKept s := by
  simp only [noteChan, ↓boundaryKept_mk, ↓boundaryKept_fold]

theorem chanState_boundaryKept (s : State) (c : Nat) (new : ChState) (reason testId pclk : Nat) :
    boundaryKept (chanState s c new reason testId pclk) = boundaryKept s := by
  simp only [chanState, ↓modSaf_boundaryKept, ↓noteChan_boundaryKept]

theorem passLead_boundaryKept (s : State) : boundaryKept (passLead s) = boundaryKept s := by
  simp only [passLead, ↓boundaryKept_mk, ↓boundaryKept_fold, ↓apply_ite boundaryKept, ite_self]

theorem chanBoundary_boundaryKept (s : State) (c : Nat) : boundaryKept (chanBoundary s c) = boundaryKept s := by
  simp only [chanBoundary, ↓apply_ite boundaryKept, ite_self, ↓chanState_boundaryKept, ↓modSaf_boundaryKept]

theorem plannedTest_boundaryKept (c : Nat) (s : State) : boundaryKept (plannedTest c s) = boundaryKept s := by
  simp only [plannedTest, ↓chanState_boundaryKept, ↓changeStop_boundaryKept, ↓modSaf_boundaryKept, ↓passLead_boundaryKept]

theorem stopBoundary_boundaryKept (s : State) (a1 a2 b1 b2 voters : Bool) :
    boundaryKept (stopBoundary s a1 a2 b1 b2 voters) = boundaryKept s := by
  simp only [stopBoundary, ↓boundaryKept_mk, ↓boundaryKept_fold, ↓apply_ite boundaryKept, ite_self, ↓foldl_keeps boundaryKept,
    implies_true, ↓chanBoundary_boundaryKept, ↓changeStop_boundaryKept, ↓clearSite_boundaryKept, ↓outputFaulty_boundaryKept,
    ↓passLead_boundaryKept, ↓slBoundary_boundaryKept]

theorem raiseAirCeilings_boundaryKept (s : State) : boundaryKept (raiseAirCeilings s) = boundaryKept s := by
  simp only [raiseAirCeilings, ↓boundaryKept_mk, ↓boundaryKept_fold]

theorem radioBoundary_boundaryKept (s : State) : boundaryKept (radioBoundary s) = boundaryKept s := by
  simp only [radioBoundary, ↓boundaryKept_mk, ↓boundaryKept_fold]

theorem keysBoundary_boundaryKept (s : State) : boundaryKept (keysBoundary s) = boundaryKept s := by
  simp only [keysBoundary, ↓boundaryKept_mk, ↓boundaryKept_fold, ↓apply_ite boundaryKept, ite_self, ↓requestStop_boundaryKept]

theorem modSlot_boundaryKept (s : State) (b : Bool) (f : ImageSlot → ImageSlot) :
    boundaryKept (modSlot s b f) = boundaryKept s := by
  simp only [modSlot, ↓boundaryKept_mk, ↓boundaryKept_fold, ↓apply_ite boundaryKept, ite_self]

theorem changeUpd_boundaryKept (s : State) (tag : Option (Nat × Nat)) (new cause : Nat) :
    boundaryKept (changeUpd s tag new cause) = boundaryKept s := by
  simp only [changeUpd, ↓boundaryKept_mk, ↓boundaryKept_fold]

theorem setUpd_boundaryKept (s : State) (new cause : Nat) : boundaryKept (setUpd s new cause) = boundaryKept s := by
  simp only [setUpd, ↓changeUpd_boundaryKept]

theorem updBoundary_boundaryKept (s : State) : boundaryKept (updBoundary s) = boundaryKept s := by
  simp only [updBoundary]
  split <;> simp only [↓boundaryKept_mk, ↓boundaryKept_fold, ↓apply_ite boundaryKept, ite_self, ↓modSlot_boundaryKept,
    ↓setUpd_boundaryKept]

theorem persistTrial_boundaryKept (s : State) : boundaryKept (persistTrial s) = boundaryKept s := by
  simp only [persistTrial]
  split <;> simp only [↓boundaryKept_mk, ↓boundaryKept_fold, ↓apply_ite boundaryKept, ite_self, ↓modSlot_boundaryKept]

theorem testsBoundary_boundaryKept (s : State) : boundaryKept (testsBoundary s) = boundaryKept s := by
  simp only [testsBoundary, ↓apply_ite boundaryKept, ite_self, ↓foldl_keeps boundaryKept, implies_true,
    ↓plannedTest_boundaryKept]

theorem endOne_boundaryKept (e : Ending) (s : State) (r : Request) : boundaryKept (endOne e s r) = boundaryKept s := by
  simp only [endOne, ↓boundaryKept_mk, ↓boundaryKept_fold, ↓finishI_boundaryKept]

theorem endGnssCal_boundaryKept (p : Request → Bool) (e : Ending) (s : State) :
    boundaryKept (endGnssCal p e s) = boundaryKept s := by
  simp only [endGnssCal]
  split <;> simp only [↓boundaryKept_mk, ↓boundaryKept_fold, ↓apply_ite boundaryKept, ite_self, ↓endOne_boundaryKept]

theorem endSurvey_boundaryKept (p : Request → Bool) (e : Ending) (s : State) :
    boundaryKept (endSurvey p e s) = boundaryKept s := by
  simp only [endSurvey]
  split <;> simp only [↓boundaryKept_mk, ↓boundaryKept_fold, ↓apply_ite boundaryKept, ite_self, ↓endOne_boundaryKept]

theorem endRelayCmd_boundaryKept (p : Request → Bool) (e : Ending) (s : State) :
    boundaryKept (endRelayCmd p e s) = boundaryKept s := by
  simp only [endRelayCmd]
  split <;> simp only [↓boundaryKept_mk, ↓boundaryKept_fold, ↓apply_ite boundaryKept, ite_self, ↓endOne_boundaryKept]

theorem endBuoyCal_boundaryKept (p : Request → Bool) (e : Ending) (s : State) :
    boundaryKept (endBuoyCal p e s) = boundaryKept s := by
  simp only [endBuoyCal]
  split <;> simp only [↓boundaryKept_mk, ↓boundaryKept_fold, ↓apply_ite boundaryKept, ite_self, ↓endOne_boundaryKept]

theorem endTests_boundaryKept (p : Request → Bool) (e : Ending) (s : State) :
    boundaryKept (endTests p e s) = boundaryKept s := by
  simp only [endTests, ↓boundaryKept_mk, ↓boundaryKept_fold, ↓foldl_keeps boundaryKept, implies_true, ↓endOne_boundaryKept]

theorem endUpdFinish_boundaryKept (p : Request → Bool) (e : Ending) (s : State) :
    boundaryKept (endUpdFinish p e s) = boundaryKept s := by
  simp only [endUpdFinish]
  split <;> simp only [↓boundaryKept_mk, ↓boundaryKept_fold, ↓apply_ite boundaryKept, ite_self, ↓endOne_boundaryKept,
    ↓modSlot_boundaryKept, ↓setUpd_boundaryKept]

theorem endByMode_boundaryKept (s : State) : boundaryKept (endByMode s) = boundaryKept s := by
  simp only [endByMode, ↓apply_ite boundaryKept, ite_self, ↓endBuoyCal_boundaryKept, ↓endGnssCal_boundaryKept,
    ↓endRelayCmd_boundaryKept, ↓endSurvey_boundaryKept, ↓endTests_boundaryKept, ↓endUpdFinish_boundaryKept]

theorem checkLeases_boundaryKept (s : State) : boundaryKept (checkLeases s) = boundaryKept s := by
  simp only [checkLeases, ↓boundaryKept_mk, ↓boundaryKept_fold]

theorem robotStill_boundaryKept (s : State) (i : Nat) : boundaryKept (robotStill s i) = boundaryKept s := by
  simp only [robotStill]
  (repeat' split) <;> simp only [↓lnkSState_boundaryKept, ↓rptEnrol_boundaryKept]

theorem rptRestored_boundaryKept (s : State) (k : Nat) : boundaryKept (rptRestored s k) = boundaryKept s := by
  simp only [rptRestored, ↓boundaryKept_mk, ↓boundaryKept_fold, ↓apply_ite boundaryKept, ite_self]

theorem restoreOne_boundaryKept (s : State) (e : Nat × Nat) : boundaryKept (restoreOne s e) = boundaryKept s := by
  simp only [restoreOne]
  split <;> simp only [↓boundaryKept_mk, ↓boundaryKept_fold, ↓robotStill_boundaryKept, ↓rptRestored_boundaryKept]

theorem restoreTables_boundaryKept (s : State) : boundaryKept (restoreTables s) = boundaryKept s := by
  simp only [restoreTables, ↓boundaryKept_mk, ↓boundaryKept_fold, ↓foldl_keeps boundaryKept, implies_true,
    ↓restoreOne_boundaryKept]

theorem finalise_boundaryKept (s : State) : boundaryKept (finalise s) = boundaryKept s := by
  simp only [finalise, ↓boundaryKept_mk, ↓boundaryKept_fold, ↓apply_ite boundaryKept, ite_self]

theorem writeRec_boundaryKept (s : State) (j : JournalRec) : boundaryKept (writeRec s j) = boundaryKept s := by
  simp only [writeRec, ↓boundaryKept_mk, ↓boundaryKept_fold]

theorem writeCmdRec_boundaryKept (s : State) (j : JournalRec) : boundaryKept (writeCmdRec s j) = boundaryKept s := by
  simp only [writeCmdRec, ↓boundaryKept_mk, ↓boundaryKept_fold, ↓apply_ite boundaryKept, ite_self, ↓writeRec_boundaryKept]

theorem writeInternal_boundaryKept (s : State) (e : InternalRec) : boundaryKept (writeInternal s e) = boundaryKept s := by
  simp only [writeInternal, ↓boundaryKept_mk, ↓boundaryKept_fold, ↓apply_ite boundaryKept, ite_self, ↓writeRec_boundaryKept]

theorem writeLogs_boundaryKept (s : State) : boundaryKept (writeLogs s) = boundaryKept s := by
  simp only [writeLogs, ↓boundaryKept_mk, ↓boundaryKept_fold, ↓foldl_keeps boundaryKept, implies_true]

theorem writeJournal_boundaryKept (s : State) : boundaryKept (writeJournal s) = boundaryKept s := by
  simp only [writeJournal, ↓boundaryKept_mk, ↓boundaryKept_fold, ↓foldl_keeps boundaryKept, implies_true, ↓finalise_boundaryKept,
    ↓writeCmdRec_boundaryKept, ↓writeInternal_boundaryKept, ↓writeLogs_boundaryKept]

theorem writeControl_boundaryKept (s : State) : boundaryKept (writeControl s) = boundaryKept s := by
  simp only [writeControl, ↓boundaryKept_mk, ↓boundaryKept_fold]

theorem confirmStandby_boundaryKept (s : State) : boundaryKept (confirmStandby s) = boundaryKept s := by
  simp only [confirmStandby, ↓boundaryKept_mk, ↓boundaryKept_fold, ↓apply_ite boundaryKept, ite_self]

theorem completePersist_boundaryKept (s : State) : boundaryKept (completePersist s) = boundaryKept s := by
  simp only [completePersist, ↓boundaryKept_mk, ↓boundaryKept_fold, ↓confirmStandby_boundaryKept, ↓persistTrial_boundaryKept,
    ↓raiseAirCeilings_boundaryKept, ↓writeControl_boundaryKept, ↓writeJournal_boundaryKept]

theorem settlePersist_boundaryKept (s : State) : boundaryKept (settlePersist s) = boundaryKept s := by
  simp only [settlePersist, ↓boundaryKept_mk, ↓boundaryKept_fold, ↓apply_ite boundaryKept, ite_self,
    ↓completePersist_boundaryKept]

theorem openWindow_boundaryKept (s : State) (w : Window) : boundaryKept (openWindow s w) = boundaryKept s := by
  simp only [openWindow, ↓boundaryKept_mk, ↓boundaryKept_fold, ↓applyRequests_boundaryKept]

theorem shiftSessions_boundaryKept (d : Int) (s : State) : boundaryKept (shiftSessions d s) = boundaryKept s := by
  simp only [shiftSessions, ↓boundaryKept_mk, ↓boundaryKept_fold]

theorem shiftLinks_boundaryKept (d : Int) (s : State) : boundaryKept (shiftLinks d s) = boundaryKept s := by
  simp only [shiftLinks, ↓boundaryKept_mk, ↓boundaryKept_fold]

theorem shiftRobots_boundaryKept (d : Int) (s : State) : boundaryKept (shiftRobots d s) = boundaryKept s := by
  simp only [shiftRobots, ↓boundaryKept_mk, ↓boundaryKept_fold]

theorem shiftStop_boundaryKept (d : Int) (s : State) : boundaryKept (shiftStop d s) = boundaryKept s := by
  simp only [shiftStop, ↓boundaryKept_mk, ↓boundaryKept_fold]

theorem shiftAll_boundaryKept (d : Int) (s : State) : boundaryKept (shiftAll d s) = boundaryKept s := by
  simp only [shiftAll, ↓shiftLinks_boundaryKept, ↓shiftRobots_boundaryKept, ↓shiftSessions_boundaryKept,
    ↓shiftStop_boundaryKept]

theorem stepState_boundaryKept (s : State) (q : StepReq) : boundaryKept (stepState s q) = boundaryKept s := by
  simp only [stepState, ↓boundaryKept_mk, ↓boundaryKept_fold, ↓apply_ite boundaryKept, ite_self]

theorem applyStep_boundaryKept (s : State) (q : StepReq) : boundaryKept (applyStep s q) = boundaryKept s := by
  simp only [applyStep, ↓boundaryKept_mk, ↓boundaryKept_fold, ↓stepState_boundaryKept, ↓latchReferences_boundaryKept]

theorem stepBoundary_boundaryKept (s : State) (b : Counter) (board encl : Int) :
    boundaryKept (stepBoundary s b board encl) = boundaryKept s := by
  unfold stepBoundary
  simp only [↓boundaryKept_mk, ↓boundaryKept_fold, ↓enterTimeState_boundaryKept,
    ↓selectReference_boundaryKept, ↓settleTime_boundaryKept, ↓shiftAll_boundaryKept]

theorem stepTable_boundaryKept (s : State) : boundaryKept (stepTable s) = boundaryKept s := by
  simp only [stepTable, ↓boundaryKept_mk, ↓boundaryKept_fold, ↓apply_ite boundaryKept, ite_self, ↓activateHolds_boundaryKept]

theorem handOver_boundaryKept (s : State) : boundaryKept (handOver s) = boundaryKept s := by
  simp only [handOver]
  split <;> simp only [↓boundaryKept_mk, ↓boundaryKept_fold]

theorem powerBoundary_boundaryKept (s : State) : boundaryKept (powerBoundary s) = boundaryKept s := by
  simp only [powerBoundary, ↓boundaryKept_mk, ↓boundaryKept_fold, ↓apply_ite boundaryKept, ite_self]

theorem supplyBoundary_boundaryKept (s : State) (mv : Nat) : boundaryKept (supplyBoundary s mv) = boundaryKept s := by
  simp only [supplyBoundary, ↓boundaryKept_mk, ↓boundaryKept_fold]

theorem clockBoundary_boundaryKept (s : State) (i : BoundaryIn) : boundaryKept (clockBoundary s i) = boundaryKept s := by
  simp only [clockBoundary]
  split <;> simp only [↓boundaryKept_mk, ↓boundaryKept_fold, ↓apply_ite boundaryKept, ite_self, ↓applyStep_boundaryKept,
    ↓stepBoundary_boundaryKept, ↓timeBoundary_boundaryKept]

theorem modeBoundary_boundaryKept (s : State) (lull : Bool) : boundaryKept (modeBoundary s lull) = boundaryKept s := by
  simp only [modeBoundary, ↓boundaryKept_mk, ↓boundaryKept_fold, ↓apply_ite boundaryKept, ite_self, ↓applyMode_boundaryKept,
    ↓endByMode_boundaryKept]

theorem sensorBoundary_boundaryKept (s : State) (i : BoundaryIn) : boundaryKept (sensorBoundary s i) = boundaryKept s := by
  simp only [sensorBoundary, ↓boundaryKept_mk, ↓boundaryKept_fold]

theorem unitsBoundary_boundaryKept (s : State) (i : BoundaryIn) : boundaryKept (unitsBoundary s i) = boundaryKept s := by
  simp only [unitsBoundary, ↓boundaryKept_mk, ↓boundaryKept_fold, ↓apply_ite boundaryKept, ite_self, ↓buoyBoundary_boundaryKept,
    ↓canBoundary_boundaryKept, ↓gnssBoundary_boundaryKept, ↓keysBoundary_boundaryKept, ↓latchPorts_boundaryKept,
    ↓latchRadio_boundaryKept, ↓radioBoundary_boundaryKept, ↓refBoundary_boundaryKept, ↓restoreTables_boundaryKept,
    ↓stepTable_boundaryKept, ↓stopBoundary_boundaryKept, ↓testsBoundary_boundaryKept, ↓updBoundary_boundaryKept,
    ↓zonesBoundary_boundaryKept]

/-! ### What SAFE keeps -/

/-- The persistent state, the sessions and the commits. -/
def safeKept (s : State) : Mram × Edtor × Commits := (s.p, s.edtor, s.com)

theorem safeKept_mk (pending freeCtr fuse flash p nv bk clk cores mode supply edtor com queues time gnss ref buoy sess strt
    holds allot stop radio can ports sec upd) :
    safeKept (State.mk pending freeCtr fuse flash p nv bk clk cores mode supply edtor com queues time gnss ref buoy sess strt
      holds allot stop radio can ports sec upd) = (p, edtor, com) := by unfold safeKept; rfl

theorem safeKept_fold (s : State) : (s.p, s.edtor, s.com) = safeKept s := by unfold safeKept; rfl

theorem trigger_safeKept (s : State) (t : Trigger) : safeKept (trigger s t) = safeKept s := by
  simp only [trigger, ↓safeKept_mk, ↓safeKept_fold, ↓apply_ite safeKept, ite_self]

theorem changeStop_safeKept (s : State) (pclk : Nat) (f : State → State) : safeKept (changeStop s pclk f) = safeKept (f s) :=
  (congrArg safeKept (Laws.changeStop_same s pclk f).1.rest).trans rfl

theorem modChans_safeKept (s : State) (f : Channel3 → Channel3) : safeKept (modChans s f) = safeKept s := by
  simp only [modChans, ↓safeKept_mk, ↓safeKept_fold]

theorem modSaf_safeKept (s : State) (c : Nat) (f : Channel3 → Channel3) : safeKept (modSaf s c f) = safeKept s := by
  simp only [modSaf, ↓safeKept_mk, ↓safeKept_fold]

theorem latchSite_safeKept (bit : Nat) (active : Bool) (s : State) : safeKept (latchSite bit active s) = safeKept s := by
  simp only [latchSite, ↓modChans_safeKept]

theorem clearSite_safeKept (bit : Nat) (s : State) : safeKept (clearSite bit s) = safeKept s := by
  simp only [clearSite, ↓modChans_safeKept]

theorem latchRobot_safeKept (i why : Nat) (s : State) : safeKept (latchRobot i why s) = safeKept s := by
  simp only [latchRobot, ↓safeKept_mk, ↓safeKept_fold, ↓modChans_safeKept]

theorem applyRequests_safeKept (s : State) (start : Nat) : safeKept (applyRequests s start) = safeKept s := by
  unfold applyRequests
  split
  · rfl
  · refine (changeStop_safeKept ..).trans ((foldl_keeps safeKept _ _ _ fun u q => ?_).trans rfl)
    split
    · exact latchRobot_safeKept ..
    · exact latchSite_safeKept ..

theorem outputFaulty_safeKept (s : State) : safeKept (outputFaulty s) = safeKept s := by
  simp only [outputFaulty, ↓safeKept_mk, ↓safeKept_fold, ↓latchSite_safeKept]

theorem noteChan_safeKept (s : State) (c : Nat) (new old : ChState) (reason testId time : Nat) :
    safeKept (noteChan s c new old reason testId time) = safeKept s := by
  simp only [noteChan, ↓safeKept_mk, ↓safeKept_fold]

theorem chanState_safeKept (s : State) (c : Nat) (new : ChState) (reason testId pclk : Nat) :
    safeKept (chanState s c new reason testId pclk) = safeKept s := by
  simp only [chanState, ↓modSaf_safeKept, ↓noteChan_safeKept]

theorem withdraw_safeKept (c reason testId : Nat) (s : State) : safeKept (withdraw c reason testId s) = safeKept s := by
  simp only [withdraw, ↓chanState_safeKept, ↓modSaf_safeKept]

theorem noteDiffer_safeKept (differ : Bool) (s : State) : safeKept (noteDiffer differ s) = safeKept s := by
  simp only [noteDiffer, ↓safeKept_mk, ↓safeKept_fold, ↓apply_ite safeKept, ite_self, ↓clearSite_safeKept, ↓latchSite_safeKept]

theorem crossCompare_safeKept (i : SafeIn) (s : State) : safeKept (crossCompare i s) = safeKept s := by
  simp only [crossCompare, ↓safeKept_mk, ↓safeKept_fold, ↓apply_ite safeKept, ite_self, ↓foldl_keeps safeKept, implies_true,
    ↓modChans_safeKept, ↓noteDiffer_safeKept, ↓withdraw_safeKept]

theorem safeChannel_safeKept (i : SafeIn) (s : State) (c : Nat) : safeKept (safeChannel i s c) = safeKept s := by
  simp only [safeChannel]
  (repeat' split) <;> simp only [↓modSaf_safeKept, ↓withdraw_safeKept]

theorem countBeacon_safeKept (s : State) : safeKept (countBeacon s) = safeKept s := by
  simp only [countBeacon, ↓safeKept_mk, ↓safeKept_fold, ↓apply_ite safeKept, ite_self, ↓changeStop_safeKept, ↓clearSite_safeKept,
    ↓latchSite_safeKept, ↓trigger_safeKept]

theorem safeWork_safeKept (i : SafeIn) (s : State) : safeKept (safeWork i s) = safeKept s := by
  simp only [safeWork]
  split <;> simp only [↓safeKept_mk, ↓safeKept_fold, ↓apply_ite safeKept, ite_self, ↓foldl_keeps safeKept, implies_true,
    ↓changeStop_safeKept, ↓countBeacon_safeKept, ↓crossCompare_safeKept, ↓modChans_safeKept, ↓outputFaulty_safeKept,
    ↓safeChannel_safeKept]

theorem openWindow_safeKept (s : State) (w : Window) : safeKept (openWindow s w) = safeKept s := by
  simp only [openWindow, ↓safeKept_mk, ↓safeKept_fold, ↓applyRequests_safeKept]

/-! ### What SOLVE keeps -/

/-- The image flash, the backup domain and the queues. -/
def solveKept (s : State) : Flash × Backup × Tbl SpillQueue := (s.flash, s.bk, s.queues)

theorem solveKept_mk (pending freeCtr fuse flash p nv bk clk cores mode supply edtor com queues time gnss ref buoy sess strt
    holds allot stop radio can ports sec upd) :
    solveKept (State.mk pending freeCtr fuse flash p nv bk clk cores mode supply edtor com queues time gnss ref buoy sess strt
      holds allot stop radio can ports sec upd) = (flash, bk, queues) := by unfold solveKept; rfl

theorem solveKept_fold (s : State) : (s.flash, s.bk, s.queues) = solveKept s := by unfold solveKept; rfl

theorem commit_solveKept (s : State) (kind idx : Nat) : solveKept (commit s kind idx) = solveKept s := by
  simp only [commit, ↓solveKept_mk, ↓solveKept_fold, ↓apply_ite solveKept, ite_self]

theorem submit_solveKept (s : State) (origin kind idx : Nat) : solveKept (submit s origin kind idx) = solveKept s := by
  simp only [submit, ↓solveKept_mk, ↓solveKept_fold]

theorem freshNat_solveKept (s : State) : solveKept (freshNat s).2 = solveKept s := by
  simp only [freshNat, ↓solveKept_mk, ↓solveKept_fold]

theorem modSession_solveKept (s : State) (slot : Nat) (f : Session → Session) :
    solveKept (modSession s slot f) = solveKept s := by
  simp only [modSession, ↓solveKept_mk, ↓solveKept_fold]

theorem record_solveKept (s : State) (r : Request) (final : Bool) (intr status planned : Nat) :
    solveKept (record s r final intr status planned) = solveKept s := by
  simp only [record, ↓solveKept_mk, ↓solveKept_fold]

theorem countViol_solveKept (s : State) (slot : Nat) (port : Port) (i : Nat) (executing : Bool) :
    solveKept (countViol s slot port i executing) = solveKept s := by
  simp only [countViol, ↓solveKept_mk, ↓solveKept_fold, ↓modSession_solveKept]

theorem countStatus_solveKept (s : State) (r : Request) (status : Nat) :
    solveKept (countStatus s r status) = solveKept s := by
  simp only [countStatus]
  split <;> simp only [↓countViol_solveKept]

theorem queueReply_solveKept (s : State) (r : Request) (k : Packet) : solveKept (queueReply s r k) = solveKept s := by
  simp only [queueReply, ↓solveKept_mk, ↓solveKept_fold, ↓apply_ite solveKept, ite_self]

theorem finishI_solveKept (s : State) (r : Request) (intr status : Nat) (payload : Bytes) :
    solveKept (finishI s r intr status payload) = solveKept s := by
  simp only [finishI, ↓apply_ite solveKept, ite_self, ↓countStatus_solveKept, ↓queueReply_solveKept, ↓record_solveKept]

theorem finish_solveKept (s : State) (r : Request) (status : Nat) (payload : Bytes) :
    solveKept (finish s r status payload) = solveKept s := by
  simp only [finish, ↓finishI_solveKept]

theorem checkCsn_solveKept (s : State) (r : Request) (objs : List (Nat × Nat)) (k : State → State) :
    solveKept (checkCsn s r objs k) = if (r.expect.bind fun e => changedSince s e objs).isNone then solveKept (k s)
      else solveKept s := by
  unfold checkCsn
  split
  · next h => simp only [h, Option.bind_none, Option.isNone_none, if_true]
  · next e h =>
    rw [h, Option.bind_some]
    split
    · next h => simp only [h, Option.isNone_none, if_true]
    · next o h => simp only [h, Option.isNone_some, Bool.false_eq_true, if_false, ↓finishI_solveKept]

theorem trigger_solveKept (s : State) (t : Trigger) : solveKept (trigger s t) = solveKept s := by
  simp only [trigger, ↓solveKept_mk, ↓solveKept_fold, ↓apply_ite solveKept, ite_self]

theorem change1_solveKept (s : State) (r : Request) (obj : Nat × Nat) (f : State → State) (reply : State → Bytes) :
    solveKept (change1 s r obj f reply) =
      if (r.expect.bind fun e => changedSince s e [obj]).isNone then solveKept (f (commit s obj.1 obj.2)) else solveKept s := by
  simp only [change1, ↓checkCsn_solveKept, ↓finish_solveKept]

theorem leaveLocked_solveKept (s : State) : solveKept (leaveLocked s) = solveKept s := by
  simp only [leaveLocked, ↓apply_ite solveKept, ite_self, ↓trigger_solveKept]

theorem loseReference_solveKept (s : State) : solveKept (loseReference s) = solveKept s := by
  simp only [loseReference]
  split <;> simp only [↓solveKept_mk, ↓solveKept_fold, ↓leaveLocked_solveKept]

theorem acquireReference_solveKept (s : State) (ref : Nat) (x : Int) :
    solveKept (acquireReference s ref x) = solveKept s := by
  simp only [acquireReference, ↓solveKept_mk, ↓solveKept_fold, ↓apply_ite solveKept, ite_self, ↓leaveLocked_solveKept]

theorem selectReference_solveKept (s : State) : solveKept (selectReference s) = solveKept s := by
  simp only [selectReference]
  (repeat' split) <;> simp only [↓acquireReference_solveKept, ↓loseReference_solveKept]

theorem useMeasurement_solveKept (s : State) (x dy : Int) : solveKept (useMeasurement s x dy) = solveKept s := by
  simp only [useMeasurement, ↓solveKept_mk, ↓solveKept_fold, ↓apply_ite solveKept, ite_self]

theorem gnssMeasure_solveKept (s : State) (valid : Bool) (x : Int) (c : Counter) :
    solveKept (gnssMeasure s valid x c) = solveKept s := by
  simp only [gnssMeasure, ↓solveKept_mk, ↓solveKept_fold, ↓apply_ite solveKept, ite_self, ↓selectReference_solveKept,
    ↓useMeasurement_solveKept]

theorem crossCheck_solveKept (s : State) (e : Epoch) : solveKept (crossCheck s e) = solveKept s := by
  simp only [crossCheck, ↓solveKept_mk, ↓solveKept_fold]

theorem sendEpoch_solveKept (s : State) (e : Epoch) (ant : Nat) : solveKept (sendEpoch s e ant) = solveKept s := by
  simp only [sendEpoch, ↓solveKept_mk, ↓solveKept_fold, ↓apply_ite solveKept, ite_self]

theorem afterCells_solveKept (s : State) (e : Epoch) (ant : Nat) (sent : List Nat) :
    solveKept (afterCells s e ant sent) = solveKept s := by
  simp only [afterCells, ↓solveKept_mk, ↓solveKept_fold]

theorem correctionEpoch_solveKept (s : State) (e : Epoch) (ant tsol : Nat) :
    solveKept (correctionEpoch s e ant tsol) = solveKept s := by
  simp only [correctionEpoch, ↓solveKept_mk, ↓solveKept_fold, ↓apply_ite solveKept, ite_self, ↓afterCells_solveKept,
    ↓sendEpoch_solveKept, ↓trigger_solveKept]

theorem setBase_solveKept (s : State) (t : Vec) (bl : Option Vec) (reorient : Bool) (base : Nat) :
    solveKept (setBase s t bl reorient base) = solveKept s := by
  simp only [setBase, ↓solveKept_mk, ↓solveKept_fold]

theorem surveyEnd_solveKept (s : State) (v : Survey) (cause : Nat) (bl : Option Vec) :
    solveKept (surveyEnd s v cause bl) = solveKept s := by
  simp only [surveyEnd, ↓solveKept_mk, ↓solveKept_fold, ↓apply_ite solveKept, ite_self, ↓change1_solveKept, ↓finish_solveKept,
    ↓setBase_solveKept, ↓commit_solveKept]

theorem surveyEpoch_solveKept (s : State) (e : Epoch) : solveKept (surveyEpoch s e) = solveKept s := by
  simp only [surveyEpoch]
  split <;> simp only [↓solveKept_mk, ↓solveKept_fold, ↓apply_ite solveKept, ite_self, ↓surveyEnd_solveKept]

theorem solveEpoch_solveKept (s : State) : solveKept (solveEpoch s) = solveKept s := by
  simp only [solveEpoch]
  split <;> simp only [↓solveKept_mk, ↓solveKept_fold, ↓apply_ite solveKept, ite_self, ↓correctionEpoch_solveKept,
    ↓crossCheck_solveKept, ↓gnssMeasure_solveKept, ↓surveyEpoch_solveKept]

theorem modRobot_solveKept (s : State) (i : Nat) (f : Robot → Robot) : solveKept (modRobot s i f) = solveKept s := by
  simp only [modRobot, ↓solveKept_mk, ↓solveKept_fold]

theorem countReject_solveKept (s : State) (i n : Nat) : solveKept (countReject s i n) = solveKept s := by
  simp only [countReject, ↓solveKept_mk, ↓solveKept_fold]

theorem openFix_solveKept (s : State) (i : Nat) (used : List BlinkReport) (flags group : Nat) :
    solveKept (openFix s i used flags group).2 = solveKept s := by
  simp only [openFix, ↓freshNat_solveKept]

theorem releaseFix_solveKept (s : State) (i : Nat) (used : List BlinkReport) (v : Option TdoaSol) (flags group : Nat) :
    solveKept (releaseFix s i used v flags group).2 = solveKept s := by
  simp only [releaseFix]
  split <;> simp only [↓openFix_solveKept]

theorem solveFor_solveKept (s : State) (i : Nat) (l : List BlinkReport) (deadline : Bool) :
    solveKept (solveFor s i l deadline).2 = solveKept s := by
  simp only [solveFor]
  (repeat' split) <;> simp only [↓openFix_solveKept, ↓releaseFix_solveKept]

theorem enterFix_solveKept (s : State) (f : Fix) : solveKept (enterFix s f) = solveKept s := by
  simp only [enterFix, ↓solveKept_mk, ↓solveKept_fold, ↓apply_ite solveKept, ite_self, ↓modRobot_solveKept]

theorem takeGroup_solveKept (s : State) (h : BlinkReport) : solveKept (takeGroup s h) = solveKept s := by
  simp only [takeGroup]
  (repeat' split) <;> simp only [↓solveKept_mk, ↓solveKept_fold, ↓countReject_solveKept, ↓enterFix_solveKept,
    ↓modRobot_solveKept, ↓solveFor_solveKept]

theorem solveBlinks_solveKept (s : State) : solveKept (solveBlinks s) = solveKept s := by
  simp only [solveBlinks, ↓foldl_keeps solveKept, implies_true, ↓takeGroup_solveKept]

theorem prunePeriods_solveKept (s : State) : solveKept (prunePeriods s) = solveKept s := by
  simp only [prunePeriods, ↓solveKept_mk, ↓solveKept_fold]

theorem selectPos_solveKept (s : State) (x : Robot) : solveKept (selectPos s x).2 = solveKept s := by
  simp only [selectPos]
  (repeat' split) <;> simp only [↓freshNat_solveKept]

theorem releasePos_solveKept (s : State) (i : Nat) : solveKept (releasePos s i) = solveKept s := by
  simp only [releasePos, ↓modRobot_solveKept, ↓selectPos_solveKept]

theorem releasePositions_solveKept (s : State) : solveKept (releasePositions s) = solveKept s := by
  simp only [releasePositions, ↓foldl_keeps solveKept, implies_true, ↓releasePos_solveKept]

theorem setSState_solveKept (s : State) (i : Nat) (new : SState) (cause : Nat) :
    solveKept (setSState s i new cause) = solveKept s := by
  simp only [setSState, ↓solveKept_mk, ↓solveKept_fold, ↓modRobot_solveKept]

theorem lnkSState_solveKept (s : State) (i : Nat) (new : SState) (cause : Nat) :
    solveKept (lnkSState s i new cause) = solveKept s := by
  simp only [lnkSState, ↓setSState_solveKept, ↓submit_solveKept]

theorem applyReport_solveKept (s : State) (m : AirMsg) : solveKept (applyReport s m) = solveKept s := by
  simp only [applyReport]
  split <;> simp only [↓apply_ite solveKept, ite_self, ↓modRobot_solveKept]

theorem applySleep_solveKept (s : State) (m : AirMsg) : solveKept (applySleep s m) = solveKept s := by
  simp only [applySleep]
  split <;> simp only [↓apply_ite solveKept, ite_self, ↓lnkSState_solveKept, ↓modRobot_solveKept]

theorem drainMsgs_solveKept (s : State) (t : Nat) (f : State → AirMsg → State) (hf : ∀ u m, solveKept (f u m) = solveKept u) :
    solveKept (drainMsgs s t f) = solveKept s := foldl_keeps solveKept f _ _ hf

theorem changeStop_solveKept (s : State) (pclk : Nat) (f : State → State) : solveKept (changeStop s pclk f) = solveKept (f s) :=
  (congrArg solveKept (Laws.changeStop_same s pclk f).1.rest).trans rfl

theorem modChans_solveKept (s : State) (f : Channel3 → Channel3) : solveKept (modChans s f) = solveKept s := by
  simp only [modChans, ↓solveKept_mk, ↓solveKept_fold]

theorem latchSite_solveKept (bit : Nat) (active : Bool) (s : State) : solveKept (latchSite bit active s) = solveKept s := by
  simp only [latchSite, ↓modChans_solveKept]

theorem latchRobot_solveKept (i why : Nat) (s : State) : solveKept (latchRobot i why s) = solveKept s := by
  simp only [latchRobot, ↓solveKept_mk, ↓solveKept_fold, ↓modChans_solveKept]

theorem applyRequests_solveKept (s : State) (start : Nat) : solveKept (applyRequests s start) = solveKept s := by
  unfold applyRequests
  split
  · rfl
  · refine (changeStop_solveKept ..).trans ((foldl_keeps solveKept _ _ _ fun u q => ?_).trans rfl)
    split
    · exact latchRobot_solveKept ..
    · exact latchSite_solveKept ..

theorem voidPositions_solveKept (s : State) : solveKept (voidPositions s) = solveKept s := by
  simp only [voidPositions, ↓solveKept_mk, ↓solveKept_fold]

theorem openWindow_solveKept (s : State) (w : Window) : solveKept (openWindow s w) = solveKept s := by
  simp only [openWindow, ↓solveKept_mk, ↓solveKept_fold, ↓applyRequests_solveKept]

theorem takeLeap_solveKept (s : State) (i : SolveIn) : solveKept (takeLeap s i) = solveKept s := by
  simp only [takeLeap]
  split <;> simp only [↓solveKept_mk, ↓solveKept_fold]

theorem posWork_solveKept (s : State) (i : SolveIn) : solveKept (posWork s i) = solveKept s := by
  simp only [posWork, ↓solveKept_mk, ↓solveKept_fold, ↓prunePeriods_solveKept, ↓releasePositions_solveKept,
    ↓solveBlinks_solveKept, ↓solveEpoch_solveKept, ↓takeLeap_solveKept]

theorem countReferences_solveKept (s : State) : solveKept (countReferences s) = solveKept s := by
  simp only [countReferences, ↓solveKept_mk, ↓solveKept_fold, ↓apply_ite solveKept, ite_self, ↓trigger_solveKept]

/-! ### What PLAN keeps -/

/-- The image flash, the receivers and the supply. -/
def planKept (s : State) : Flash × Gnss × Supply := (s.flash, s.gnss, s.supply)

theorem planKept_mk (pending freeCtr fuse flash p nv bk clk cores mode supply edtor com queues time gnss ref buoy sess strt
    holds allot stop radio can ports sec upd) :
    planKept (State.mk pending freeCtr fuse flash p nv bk clk cores mode supply edtor com queues time gnss ref buoy sess strt
      holds allot stop radio can ports sec upd) = (flash, gnss, supply) := by unfold planKept; rfl

theorem planKept_fold (s : State) : (s.flash, s.gnss, s.supply) = planKept s := by unfold planKept; rfl

theorem commit_planKept (s : State) (kind idx : Nat) : planKept (commit s kind idx) = planKept s := by
  simp only [commit, ↓planKept_mk, ↓planKept_fold, ↓apply_ite planKept, ite_self]

theorem commitAll_planKept (s : State) (x1 : List (Nat × Nat)) : planKept (commitAll s x1) = planKept s := by
  simp only [commitAll]
  split <;> simp only [↓planKept_mk, ↓planKept_fold, ↓apply_ite planKept, ite_self, ↓commit_planKept]

theorem commitBy_planKept (s : State) (origin kind idx : Nat) : planKept (commitBy s origin kind idx) = planKept s := by
  simp only [commitBy, ↓planKept_mk, ↓planKept_fold, ↓apply_ite planKept, ite_self, ↓commit_planKept]

theorem commitAllBy_planKept (s : State) (origin : Nat) (objs : List (Nat × Nat)) :
    planKept (commitAllBy s origin objs) = planKept s := by
  simp only [commitAllBy, ↓planKept_mk, ↓planKept_fold, ↓apply_ite planKept, ite_self, ↓commitAll_planKept]

theorem submit_planKept (s : State) (origin kind idx : Nat) : planKept (submit s origin kind idx) = planKept s := by
  simp only [submit, ↓planKept_mk, ↓planKept_fold]

theorem freshBytes_planKept (s : State) (n : Nat) : planKept (freshBytes s n).2 = planKept s := by
  simp only [freshBytes, ↓planKept_mk, ↓planKept_fold]

theorem raiseAt_planKept (s : State) (code : Nat) (aud : Audience) (t : Nat) (payload : Bytes) :
    planKept (raiseAt s code aud t payload) = planKept s := by
  simp only [raiseAt, ↓planKept_mk, ↓planKept_fold]

theorem raise_planKept (s : State) (code : Nat) (aud : Audience) (payload : Bytes) :
    planKept (raise s code aud payload) = planKept s := by
  simp only [raise, ↓raiseAt_planKept]

theorem raiseLater_planKept (s : State) (code : Nat) (aud : Audience) (t : Nat) (payload : Bytes) :
    planKept (raiseLater s code aud t payload) = planKept s := by
  simp only [raiseLater, ↓planKept_mk, ↓planKept_fold]

theorem modSession_planKept (s : State) (slot : Nat) (f : Session → Session) :
    planKept (modSession s slot f) = planKept s := by
  simp only [modSession, ↓planKept_mk, ↓planKept_fold]

theorem record_planKept (s : State) (r : Request) (final : Bool) (intr status planned : Nat) :
    planKept (record s r final intr status planned) = planKept s := by
  simp only [record, ↓planKept_mk, ↓planKept_fold]

theorem countViol_planKept (s : State) (slot : Nat) (port : Port) (i : Nat) (executing : Bool) :
    planKept (countViol s slot port i executing) = planKept s := by
  simp only [countViol, ↓planKept_mk, ↓planKept_fold, ↓modSession_planKept]

theorem countStatus_planKept (s : State) (r : Request) (status : Nat) : planKept (countStatus s r status) = planKept s := by
  simp only [countStatus]
  split <;> simp only [↓countViol_planKept]

theorem queueReply_planKept (s : State) (r : Request) (k : Packet) : planKept (queueReply s r k) = planKept s := by
  simp only [queueReply, ↓planKept_mk, ↓planKept_fold, ↓apply_ite planKept, ite_self]

theorem finishI_planKept (s : State) (r : Request) (intr status : Nat) (payload : Bytes) :
    planKept (finishI s r intr status payload) = planKept s := by
  simp only [finishI, ↓apply_ite planKept, ite_self, ↓countStatus_planKept, ↓queueReply_planKept, ↓record_planKept]

theorem queueMsg_planKept (s : State) (cls : Nat) (session : Option Nat) (body : Bytes) :
    planKept (queueMsg s cls session body) = planKept s := by
  simp only [queueMsg, ↓planKept_mk, ↓planKept_fold]

theorem requestRobotStop_planKept (s : State) (session cause : Nat) :
    planKept (requestRobotStop s session cause) = planKept s := by
  simp only [requestRobotStop, ↓planKept_mk, ↓planKept_fold]

theorem cacheKey_planKept (s : State) (entry gen : Nat) : planKept (cacheKey s entry gen) = planKept s := by
  simp only [cacheKey, ↓planKept_mk, ↓planKept_fold]

theorem setQueue_planKept (s : State) (q : Nat) (k : SpillQueue) : planKept (setQueue s q k) = planKept s := by
  simp only [setQueue, ↓planKept_mk, ↓planKept_fold]

theorem noteOccupancy_planKept (s : State) (q : Nat) (p : QParam) (before : Nat) :
    planKept (noteOccupancy s q p before) = planKept s := by
  simp only [noteOccupancy, ↓apply_ite planKept, ite_self, ↓raiseLater_planKept, ↓setQueue_planKept]

theorem noteQueue_planKept (s : State) (q : Nat) : planKept (noteQueue s q) = planKept s := by
  simp only [noteQueue]
  split <;> simp only [↓apply_ite planKept, ite_self, ↓noteOccupancy_planKept]

theorem applyAuxSet_planKept (s : State) : planKept (applyAuxSet s) = planKept s := by
  simp only [applyAuxSet, ↓planKept_mk, ↓planKept_fold]

theorem assignBlinks_planKept (s : State) (i t : Nat) (was : List (Nat × Nat × Nat)) :
    planKept (assignBlinks s i t was) = planKept s := by
  simp only [assignBlinks]
  split <;> simp only [↓planKept_mk, ↓planKept_fold, ↓queueMsg_planKept]

theorem modRobot_planKept (s : State) (i : Nat) (f : Robot → Robot) : planKept (modRobot s i f) = planKept s := by
  simp only [modRobot, ↓planKept_mk, ↓planKept_fold]

theorem strtAlarm_planKept (s : State) (cause owner kind index : Nat) :
    planKept (strtAlarm s cause owner kind index) = planKept s := by
  simp only [strtAlarm, ↓planKept_mk, ↓planKept_fold]

theorem detectWay_planKept (s : State) (i : Nat) : planKept (detectWay s i) = planKept s := by
  simp only [detectWay, ↓planKept_mk, ↓planKept_fold, ↓apply_ite planKept, ite_self, ↓strtAlarm_planKept]

theorem detectKeys_planKept (s : State) (keys : List Key) : planKept (detectKeys s keys) = planKept s := by
  simp only [detectKeys, ↓apply_ite planKept, ite_self, ↓foldl_keeps planKept, implies_true, ↓detectWay_planKept]

theorem noteFill_planKept (s : State) : planKept (noteFill s) = planKept s := by
  simp only [noteFill, ↓planKept_mk, ↓planKept_fold, ↓apply_ite planKept, ite_self, ↓strtAlarm_planKept]

theorem chainFailed_planKept (s : State) (k : Key) : planKept (chainFailed s k) = planKept s := by
  simp only [chainFailed, ↓planKept_mk, ↓planKept_fold, ↓strtAlarm_planKept]

theorem reserve_planKept (s : State) (keys : List Key) : planKept (reserve s keys).2 = planKept s := by
  simp only [reserve]
  (repeat' split) <;> simp only [↓planKept_mk, ↓planKept_fold, ↓chainFailed_planKept, ↓detectKeys_planKept, ↓noteFill_planKept]

theorem removeKey_planKept (s : State) (k : Key) : planKept (removeKey s k) = planKept s := by
  unfold removeKey
  split
  · simp only [↓apply_ite planKept, ↓planKept_mk, ↓planKept_fold, ite_self]
  · rfl

theorem removeKeys_planKept (s : State) (keys : List Key) : planKept (removeKeys s keys) = planKept s := by
  simp only [removeKeys, ↓planKept_mk, ↓planKept_fold, ↓foldl_keeps planKept, implies_true, ↓detectKeys_planKept,
    ↓removeKey_planKept]

theorem removeTimed_planKept (s : State) (owner : Nat) (f : BitVec 64 → Bool) :
    planKept (removeTimed s owner f) = planKept s := by
  simp only [removeTimed, ↓planKept_mk, ↓planKept_fold]

theorem putHold_planKept (s : State) (n : Nat) (h : HoldRec) : planKept (putHold s n h) = planKept s := by
  simp only [putHold, ↓planKept_mk, ↓planKept_fold]

theorem dropHold_planKept (s : State) (n : Nat) : planKept (dropHold s n) = planKept s := by
  simp only [dropHold, ↓planKept_mk, ↓planKept_fold]

theorem lockCells_planKept (s : State) (h : HoldRec) (cells : List Nat) : planKept (lockCells s h cells).2 = planKept s := by
  unfold lockCells
  refine foldl_snd_keeps planKept _ _ (h, s) fun a c => ?_
  dsimp only
  split
  · split <;> next hr => exact snd_keeps hr (reserve_planKept ..)
  · rfl

theorem makeStanding_planKept (s : State) (h : HoldRec) : planKept (makeStanding s h).2 = planKept s := by
  unfold makeStanding
  dsimp only
  split
  · next hr => exact snd_keeps hr (reserve_planKept ..)
  · next hr =>
    have ht := snd_keeps hr (reserve_planKept ..)
    split
    · exact (lockCells_planKept ..).trans ht
    · exact ht

theorem dwellRemoved_planKept (s : State) (cells : List Nat) : planKept (dwellRemoved s cells) = planKept s := by
  simp only [dwellRemoved, ↓apply_ite planKept, ite_self, ↓foldl_keeps planKept, implies_true, ↓lockCells_planKept,
    ↓putHold_planKept, ↓raise_planKept]

theorem removeDwell_planKept (s : State) (owner : Nat) (cells : List Nat) :
    planKept (removeDwell s owner cells) = planKept s := by
  simp only [removeDwell, ↓apply_ite planKept, ite_self, ↓dwellRemoved_planKept, ↓removeKeys_planKept]

theorem unlockHold_planKept (s : State) (h : HoldRec) : planKept (unlockHold s h) = planKept s := by
  simp only [unlockHold, ↓planKept_mk, ↓planKept_fold, ↓apply_ite planKept, ite_self, ↓removeKeys_planKept]

theorem makeLostHold_planKept (s : State) (session : Nat) (cells : List Nat) :
    planKept (makeLostHold s session cells) = planKept s := by
  unfold makeLostHold
  have hs : planKept (match tget s.holds (256 + session) with
      | some h => dropHold (unlockHold s h) (256 + session) | none => s) = planKept s := by
    split
    · exact (dropHold_planKept ..).trans (unlockHold_planKept ..)
    · rfl
  dsimp only
  split <;> next hm =>
    have ht := (snd_keeps hm (makeStanding_planKept ..)).trans hs
    simp only [↓raise_planKept, ↓commitBy_planKept, ↓putHold_planKept, ht]

theorem retryHolds_planKept (s : State) : planKept (retryHolds s) = planKept s := by
  simp only [retryHolds, ↓apply_ite planKept, ite_self, ↓foldl_keeps planKept, implies_true, ↓lockCells_planKept,
    ↓putHold_planKept, ↓raise_planKept]

theorem expireHolds_planKept (s : State) : planKept (expireHolds s) = planKept s := by
  simp only [expireHolds, ↓foldl_keeps planKept, implies_true, ↓commitBy_planKept, ↓dropHold_planKept, ↓raise_planKept]

theorem freeUnlocked_planKept (s : State) : planKept (freeUnlocked s) = planKept s := by
  simp only [freeUnlocked, ↓planKept_mk, ↓planKept_fold, ↓apply_ite planKept, ite_self, ↓dwellRemoved_planKept]

theorem dwellUnwritten_planKept (s : State) (session : Nat) : planKept (dwellUnwritten s session) = planKept s := by
  simp only [dwellUnwritten, ↓requestRobotStop_planKept]

theorem reassert_planKept (s : State) : planKept (reassert s) = planKept s := by
  unfold reassert
  split
  · rfl
  · refine (noteFill_planKept _).trans ((foldl_keeps planKept _ _ _ fun u c => ?_).trans
      (foldl_keeps planKept _ _ _ fun u e => ?_))
    · dsimp only
      split
      · rfl
      · exact chainFailed_planKept ..
    · refine foldl_keeps planKept _ _ _ fun v c => ?_
      dsimp only
      cases insertEntry v.strt.ways (entry c 0 e.1 kDwell (fcNow v % 4096) false) with
      | some t => rfl
      | none => exact (dwellUnwritten_planKept ..).trans (chainFailed_planKept ..)

theorem refreshDwells_planKept (s : State) : planKept (refreshDwells s) = planKept s := by
  simp only [refreshDwells, ↓planKept_mk, ↓planKept_fold, ↓foldl_keeps planKept, implies_true, ↓removeDwell_planKept]

theorem putTask_planKept (s : State) (j : Nat) (t : Task) : planKept (putTask s j t) = planKept s := by
  simp only [putTask, ↓planKept_mk, ↓planKept_fold]

theorem moveTask_planKept (s : State) (j : Nat) (new : TaskState) (cause : Nat) (f : Task → Task) :
    planKept (moveTask s j new cause f) = planKept s := by
  simp only [moveTask, ↓apply_ite planKept, ite_self, ↓commitBy_planKept, ↓putTask_planKept, ↓raise_planKept]

theorem reopenTasks_planKept (s : State) : planKept (reopenTasks s) = planKept s := by
  simp only [reopenTasks, ↓apply_ite planKept, ite_self, ↓foldl_keeps planKept, implies_true, ↓moveTask_planKept]

theorem modPlan_planKept (s : State) (i : Nat) (f : Plan → Plan) : planKept (modPlan s i f) = planKept s := by
  simp only [modPlan, ↓planKept_mk, ↓planKept_fold]

theorem tryDwell_planKept (n : Nat) (s : State) (session : Nat) (cells : List Nat) :
    planKept (tryDwell n s session cells).2 = planKept s := by
  induction n generalizing s cells with
  | zero => rfl
  | succ n ih =>
    simp only [tryDwell]
    split
    · next hr => exact snd_keeps hr (reserve_planKept ..)
    · next hr => exact (ih _ _).trans (snd_keeps hr (reserve_planKept ..))
    · next hr => exact snd_keeps hr (reserve_planKept ..)

theorem putDwell_planKept (s : State) (session : Nat) (cells : List Nat) (after : Option Nat) :
    planKept (putDwell s session cells after).2 = planKept s := by
  unfold putDwell
  dsimp only
  split <;> next hr =>
    have ht := snd_keeps hr (tryDwell_planKept ..)
    cases after <;> simp only [↓dwellUnwritten_planKept, ↓modPlan_planKept, ↓removeDwell_planKept, ↓removeTimed_planKept, ht]

theorem commitDwell_planKept (s : State) (i : Nat) (written : Bool) (more : List (Nat × Nat)) :
    planKept (commitDwell s i written more) = planKept s := by
  simp only [commitDwell, ↓commitAllBy_planKept]

theorem conformanceEvent_planKept (s : State) (i cause dev : Nat) :
    planKept (conformanceEvent s i cause dev) = planKept s := by
  simp only [conformanceEvent, ↓apply_ite planKept, ite_self, ↓modPlan_planKept, ↓raise_planKept]

theorem dropNext_planKept (s : State) (i : Nat) : planKept (dropNext s i) = planKept s := by
  simp only [dropNext]
  split <;> simp only [↓modPlan_planKept, ↓removeKeys_planKept]

theorem haltOne_planKept (s : State) (i : Nat) (keepLeg : Bool) : planKept (haltOne s i keepLeg).2 = planKept s := by
  simp only [haltOne]
  split <;> simp only [↓planKept_mk, ↓planKept_fold, ↓commitDwell_planKept, ↓dropNext_planKept, ↓modPlan_planKept,
    ↓modRobot_planKept, ↓putDwell_planKept]

theorem haltChain_planKept (n : Nat) (s : State) (l : List Nat) : planKept (haltChain n s l) = planKept s := by
  induction n generalizing s l with
  | zero => cases l <;> rfl
  | succ n ih =>
    cases l with
    | nil => rfl
    | cons i l =>
      simp only [haltChain, ↓ih, ↓apply_ite planKept, ↓conformanceEvent_planKept, ↓haltOne_planKept, ite_self]

theorem haltRobot_planKept (s : State) (i : Nat) (cause : Option Nat) (dev : Nat) (keepLeg : Bool) :
    planKept (haltRobot s i cause dev keepLeg) = planKept s := by
  simp only [haltRobot]
  (repeat' split) <;> simp only [↓conformanceEvent_planKept, ↓haltChain_planKept, ↓haltOne_planKept]

theorem putRest_planKept (s : State) (i x y h : Nat) (more : List (Nat × Nat)) :
    planKept (putRest s i x y h more) = planKept s := by
  simp only [putRest, ↓commitDwell_planKept, ↓haltChain_planKept, ↓putDwell_planKept]

theorem loseTask_planKept (s : State) (i cause : Nat) : planKept (loseTask s i cause) = planKept s := by
  simp only [loseTask]
  (repeat' split) <;> simp only [↓modPlan_planKept, ↓moveTask_planKept]

theorem stopHard_planKept (s : State) (i cause dev : Nat) : planKept (stopHard s i cause dev) = planKept s := by
  simp only [stopHard]
  split <;> simp only [↓commitDwell_planKept, ↓conformanceEvent_planKept, ↓haltChain_planKept, ↓loseTask_planKept,
    ↓modPlan_planKept, ↓putDwell_planKept, ↓requestRobotStop_planKept]

theorem checkRobot_planKept (s : State) (i : Nat) : planKept (checkRobot s i) = planKept s := by
  simp only [checkRobot]
  split <;> simp only [↓apply_ite planKept, ite_self, ↓haltRobot_planKept, ↓modPlan_planKept, ↓stopHard_planKept]

theorem conformance_planKept (s : State) : planKept (conformance s) = planKept s := by
  simp only [conformance, ↓apply_ite planKept, ite_self, ↓foldl_keeps planKept, implies_true, ↓checkRobot_planKept]

theorem restDue_planKept (s : State) (i : Nat) : planKept (restDue s i) = planKept s := by
  simp only [restDue]
  split <;> simp only [↓apply_ite planKept, ite_self, ↓modPlan_planKept, ↓putRest_planKept]

theorem initialDue_planKept (s : State) (i : Nat) : planKept (initialDue s i) = planKept s := by
  simp only [initialDue]
  (repeat' split) <;> simp only [↓modPlan_planKept, ↓putRest_planKept]

theorem adriftDue_planKept (s : State) (i : Nat) : planKept (adriftDue s i) = planKept s := by
  simp only [adriftDue, ↓apply_ite planKept, ite_self, ↓commitDwell_planKept, ↓haltChain_planKept, ↓loseTask_planKept,
    ↓modPlan_planKept, ↓putDwell_planKept]

theorem heardDue_planKept (s : State) (i : Nat) : planKept (heardDue s i) = planKept s := by
  simp only [heardDue, ↓apply_ite planKept, ite_self, ↓modPlan_planKept]

theorem stopReleased_planKept (s : State) (i : Nat) : planKept (stopReleased s i) = planKept s := by
  simp only [stopReleased, ↓apply_ite planKept, ite_self, ↓modPlan_planKept]

theorem dwellsDue_planKept (s : State) : planKept (dwellsDue s) = planKept s := by
  simp only [dwellsDue, ↓foldl_keeps planKept, implies_true, ↓adriftDue_planKept, ↓heardDue_planKept, ↓initialDue_planKept,
    ↓restDue_planKept, ↓stopReleased_planKept]

theorem modeHalts_planKept (s : State) : planKept (modeHalts s) = planKept s := by
  simp only [modeHalts, ↓planKept_mk, ↓planKept_fold, ↓apply_ite planKept, ite_self, ↓foldl_keeps planKept, implies_true,
    ↓haltRobot_planKept, ↓modPlan_planKept]

theorem abandonLeg_planKept (s : State) (i : Nat) : planKept (abandonLeg s i) = planKept s := by
  simp only [abandonLeg]
  split <;> simp only [↓commitBy_planKept, ↓dropNext_planKept, ↓haltChain_planKept, ↓putDwell_planKept]

theorem releaseReq_planKept (s : State) (q : PathReq) : planKept (releaseReq s q) = planKept s := by
  simp only [releaseReq, ↓apply_ite planKept, ite_self, ↓abandonLeg_planKept, ↓loseTask_planKept, ↓modPlan_planKept]

theorem dropRequests_planKept (s : State) (i intr status : Nat) : planKept (dropRequests s i intr status) = planKept s := by
  simp only [dropRequests, ↓planKept_mk, ↓planKept_fold, ↓foldl_keeps planKept, implies_true, ↓finishI_planKept,
    ↓releaseReq_planKept]

theorem dropLeft_planKept (s : State) : planKept (dropLeft s) = planKept s := by
  simp only [dropLeft, ↓apply_ite planKept, ite_self, ↓foldl_keeps planKept, implies_true, ↓dropRequests_planKept]

theorem endRound_planKept (s : State) : planKept (endRound s) = planKept s := by
  simp only [endRound, ↓planKept_mk, ↓planKept_fold, ↓apply_ite planKept, ite_self, ↓foldl_keeps planKept, implies_true,
    ↓dropRequests_planKept]

theorem reachEnd_planKept (s : State) (i : Nat) (l : Leg) : planKept (reachEnd s i l) = planKept s := by
  simp only [reachEnd]
  split <;> simp only [↓apply_ite planKept, ite_self, ↓modPlan_planKept, ↓moveTask_planKept]

theorem arriveRobot_planKept (s : State) (i : Nat) : planKept (arriveRobot s i) = planKept s := by
  simp only [arriveRobot, ↓planKept_mk, ↓planKept_fold, ↓apply_ite planKept, ite_self, ↓foldl_keeps planKept, implies_true,
    ↓modPlan_planKept, ↓reachEnd_planKept]

theorem doneRobot_planKept (s : State) (i : Nat) : planKept (doneRobot s i) = planKept s := by
  simp only [doneRobot]
  split <;> simp only [↓apply_ite planKept, ite_self, ↓modPlan_planKept, ↓moveTask_planKept]

theorem takeOver_planKept (s : State) : planKept (takeOver s) = planKept s := by
  simp only [takeOver, ↓planKept_mk, ↓planKept_fold, ↓apply_ite planKept, ite_self]

theorem abandonCancelled_planKept (s : State) : planKept (abandonCancelled s) = planKept s := by
  simp only [abandonCancelled, ↓foldl_keeps planKept, implies_true, ↓abandonLeg_planKept]

theorem planFleet_planKept (s : State) : planKept (planFleet s) = planKept s := by
  simp only [planFleet, ↓foldl_keeps planKept, implies_true, ↓abandonCancelled_planKept, ↓arriveRobot_planKept,
    ↓conformance_planKept, ↓doneRobot_planKept, ↓dropLeft_planKept, ↓dwellsDue_planKept, ↓endRound_planKept, ↓modeHalts_planKept,
    ↓reopenTasks_planKept, ↓takeOver_planKept]

theorem setSState_planKept (s : State) (i : Nat) (new : SState) (cause : Nat) :
    planKept (setSState s i new cause) = planKept s := by
  simp only [setSState, ↓planKept_mk, ↓planKept_fold, ↓modRobot_planKept]

theorem lnkSState_planKept (s : State) (i : Nat) (new : SState) (cause : Nat) :
    planKept (lnkSState s i new cause) = planKept s := by
  simp only [lnkSState, ↓setSState_planKept, ↓submit_planKept]

theorem modRpt_planKept (s : State) (k : Nat) (f : RptEntry → RptEntry) : planKept (modRpt s k f) = planKept s := by
  simp only [modRpt, ↓planKept_mk, ↓planKept_fold]

theorem rptAddr_planKept (s : State) (eui : BitVec 64) (addr : Nat) : planKept (rptAddr s eui addr) = planKept s := by
  simp only [rptAddr]
  split <;> simp only [↓modRpt_planKept]

theorem cellEvent_planKept (s : State) (i cause : Nat) (q : Option (Nat × Nat × Nat)) :
    planKept (cellEvent s i cause q) = planKept s := by
  simp only [cellEvent, ↓raise_planKept]

theorem assignCell_planKept (s : State) (i : Nat) : planKept (assignCell s i) = planKept s := by
  simp only [assignCell, ↓planKept_mk, ↓planKept_fold, ↓cellEvent_planKept, ↓queueMsg_planKept]

theorem releaseCell_planKept (s : State) (i : Nat) : planKept (releaseCell s i) = planKept s := by
  simp only [releaseCell]
  split <;> simp only [↓planKept_mk, ↓planKept_fold, ↓cellEvent_planKept]

theorem endAssociation_planKept (s : State) (i : Nat) : planKept (endAssociation s i) = planKept s := by
  simp only [endAssociation, ↓planKept_mk, ↓planKept_fold, ↓modRobot_planKept, ↓releaseCell_planKept, ↓rptAddr_planKept]

theorem queueKeys_planKept (s : State) (i : Nat) : planKept (queueKeys s i) = planKept s := by
  simp only [queueKeys]
  split <;> simp only [↓queueMsg_planKept]

theorem queueLinkFragments_planKept (s : State) (session : Option Nat) (eui : BitVec 64) (p : Bytes) :
    planKept (queueLinkFragments s session eui p) = planKept s := by
  simp only [queueLinkFragments, ↓planKept_mk, ↓planKept_fold]

theorem acceptAssoc_planKept (s : State) (i : Nat) (m : AirMsg) : planKept (acceptAssoc s i m) = planKept s := by
  simp only [acceptAssoc, ↓planKept_mk, ↓planKept_fold, ↓cacheKey_planKept, ↓endAssociation_planKept, ↓freshBytes_planKept,
    ↓lnkSState_planKept, ↓modRobot_planKept, ↓queueLinkFragments_planKept, ↓rptAddr_planKept]

theorem answerAssoc_planKept (s : State) (m : AirMsg) : planKept (answerAssoc s m) = planKept s := by
  simp only [answerAssoc]
  (repeat' split) <;> simp only [↓acceptAssoc_planKept, ↓queueLinkFragments_planKept]

theorem confirmAssoc_planKept (s : State) (m : AirMsg) : planKept (confirmAssoc s m) = planKept s := by
  simp only [confirmAssoc]
  split <;> simp only [↓planKept_mk, ↓planKept_fold, ↓apply_ite planKept, ite_self, ↓assignBlinks_planKept, ↓assignCell_planKept,
    ↓endAssociation_planKept, ↓lnkSState_planKept, ↓modPlan_planKept, ↓modRobot_planKept, ↓queueKeys_planKept]

theorem applyPlanReq_planKept (s : State) (m : AirMsg) : planKept (applyPlanReq s m) = planKept s := by
  simp only [applyPlanReq]
  split <;> simp only [↓planKept_mk, ↓planKept_fold, ↓apply_ite planKept, ite_self]

theorem drainMsgs_planKept (s : State) (t : Nat) (f : State → AirMsg → State) (hf : ∀ u m, planKept (f u m) = planKept u) :
    planKept (drainMsgs s t f) = planKept s := foldl_keeps planKept f _ _ hf

theorem clearPlan_planKept (s : State) (i : Nat) : planKept (clearPlan s i) = planKept s := by
  simp only [clearPlan, ↓planKept_mk, ↓planKept_fold, ↓apply_ite planKept, ite_self, ↓commitBy_planKept, ↓removeDwell_planKept,
    ↓removeTimed_planKept]

theorem lostWork_planKept (s : State) : planKept (lostWork s) = planKept s := by
  unfold lostWork
  refine foldl_keeps planKept _ _ _ fun u e => ?_
  dsimp only
  split <;> simp only [↓makeLostHold_planKept, ↓planKept_mk, ↓planKept_fold, ↓clearPlan_planKept, ↓loseTask_planKept,
    ↓dropRequests_planKept, ↓modRobot_planKept]

theorem revokedWork_planKept (s : State) : planKept (revokedWork s) = planKept s := by
  simp only [revokedWork, ↓planKept_mk, ↓planKept_fold, ↓foldl_keeps planKept, implies_true, ↓loseTask_planKept]

theorem changeStop_planKept (s : State) (pclk : Nat) (f : State → State) : planKept (changeStop s pclk f) = planKept (f s) :=
  (congrArg planKept (Laws.changeStop_same s pclk f).1.rest).trans rfl

theorem modChans_planKept (s : State) (f : Channel3 → Channel3) : planKept (modChans s f) = planKept s := by
  simp only [modChans, ↓planKept_mk, ↓planKept_fold]

theorem latchSite_planKept (bit : Nat) (active : Bool) (s : State) : planKept (latchSite bit active s) = planKept s := by
  simp only [latchSite, ↓modChans_planKept]

theorem latchRobot_planKept (i why : Nat) (s : State) : planKept (latchRobot i why s) = planKept s := by
  simp only [latchRobot, ↓planKept_mk, ↓planKept_fold, ↓modChans_planKept]

theorem applyRequests_planKept (s : State) (start : Nat) : planKept (applyRequests s start) = planKept s := by
  unfold applyRequests
  split
  · rfl
  · refine (changeStop_planKept ..).trans ((foldl_keeps planKept _ _ _ fun u q => ?_).trans rfl)
    split
    · exact latchRobot_planKept ..
    · exact latchSite_planKept ..

theorem applyTamper_planKept (s : State) : planKept (applyTamper s) = planKept s := by
  simp only [applyTamper]
  split <;> simp only [↓planKept_mk, ↓planKept_fold]

theorem openWindow_planKept (s : State) (w : Window) : planKept (openWindow s w) = planKept s := by
  simp only [openWindow, ↓planKept_mk, ↓planKept_fold, ↓applyRequests_planKept]

theorem makeSubmitted_planKept (s : State) : planKept (makeSubmitted s) = planKept s := by
  simp only [makeSubmitted, ↓planKept_mk, ↓planKept_fold, ↓apply_ite planKept, ite_self, ↓foldl_keeps planKept, implies_true,
    ↓commitBy_planKept, ↓modRobot_planKept]

theorem endPathAtStep_planKept (s : State) (i : Nat) : planKept (endPathAtStep s i) = planKept s := by
  simp only [endPathAtStep, ↓apply_ite planKept, ite_self, ↓commitBy_planKept, ↓modPlan_planKept]

theorem stepEnds_planKept (s : State) : planKept (stepEnds s) = planKept s := by
  simp only [stepEnds, ↓apply_ite planKept, ite_self, ↓foldl_keeps planKept, implies_true, ↓commitBy_planKept,
    ↓dropHold_planKept, ↓endPathAtStep_planKept, ↓raise_planKept]

theorem planTable_planKept (s : State) : planKept (planTable s) = planKept s := by
  simp only [planTable, ↓expireHolds_planKept, ↓freeUnlocked_planKept, ↓reassert_planKept, ↓refreshDwells_planKept,
    ↓retryHolds_planKept]

theorem planWork_planKept (s : State) : planKept (planWork s) = planKept s := by
  simp only [planWork, implies_true, ↓answerAssoc_planKept, ↓applyPlanReq_planKept, ↓confirmAssoc_planKept, ↓drainMsgs_planKept,
    ↓lostWork_planKept, ↓makeSubmitted_planKept, ↓planFleet_planKept, ↓planTable_planKept, ↓revokedWork_planKept,
    ↓stepEnds_planKept]

/-! ### What EMIT keeps -/

/-- The image flash, the CSN, the replies and the holds. -/
def emitKept (s : State) : Flash × Nat × List Packet × Tbl HoldRec := (s.flash, s.com.csn, s.com.replies, s.holds)

theorem emitKept_mk (pending freeCtr fuse flash p nv bk clk cores mode supply edtor com queues time gnss ref buoy sess strt
    holds allot stop radio can ports sec upd) :
    emitKept (State.mk pending freeCtr fuse flash p nv bk clk cores mode supply edtor com queues time gnss ref buoy sess strt
      holds allot stop radio can ports sec upd) = (flash, com.csn, com.replies, holds) := by unfold emitKept; rfl

theorem emitKept_fold (s : State) : (s.flash, s.com.csn, s.com.replies, s.holds) = emitKept s := by unfold emitKept; rfl

theorem freshNat_emitKept (s : State) : emitKept (freshNat s).2 = emitKept s := by
  simp only [freshNat, ↓emitKept_mk, ↓emitKept_fold]

theorem raiseAt_emitKept (s : State) (code : Nat) (aud : Audience) (t : Nat) (payload : Bytes) :
    emitKept (raiseAt s code aud t payload) = emitKept s := by
  simp only [raiseAt, ↓emitKept_mk, ↓emitKept_fold]

theorem raise_emitKept (s : State) (code : Nat) (aud : Audience) (payload : Bytes) :
    emitKept (raise s code aud payload) = emitKept s := by
  simp only [raise, ↓raiseAt_emitKept]

theorem raiseLater_emitKept (s : State) (code : Nat) (aud : Audience) (t : Nat) (payload : Bytes) :
    emitKept (raiseLater s code aud t payload) = emitKept s := by
  simp only [raiseLater, ↓emitKept_mk, ↓emitKept_fold]

theorem modSession_emitKept (s : State) (slot : Nat) (f : Session → Session) :
    emitKept (modSession s slot f) = emitKept s := by
  simp only [modSession, ↓emitKept_mk, ↓emitKept_fold]

theorem raiseWith_emitKept (s : State) (csn : Nat) (tag : Option (Nat × Nat)) (code : Nat) (aud : Audience) (payload : Bytes) :
    emitKept (raiseWith s csn tag code aud payload) = emitKept s := by
  simp only [raiseWith, ↓emitKept_mk, ↓emitKept_fold]

theorem queueMsg_emitKept (s : State) (cls : Nat) (session : Option Nat) (body : Bytes) :
    emitKept (queueMsg s cls session body) = emitKept s := by
  simp only [queueMsg, ↓emitKept_mk, ↓emitKept_fold]

theorem queueFragments_emitKept (s : State) (corr : Bool) (p : Bytes) : emitKept (queueFragments s corr p) = emitKept s := by
  simp only [queueFragments, ↓emitKept_mk, ↓emitKept_fold]

theorem noteSent_emitKept (s : State) (link : Nat) (capture : Counter) :
    emitKept (noteSent s link capture) = emitKept s := by
  simp only [noteSent, ↓emitKept_mk, ↓emitKept_fold]

theorem setQueue_emitKept (s : State) (q : Nat) (k : SpillQueue) : emitKept (setQueue s q k) = emitKept s := by
  simp only [setQueue, ↓emitKept_mk, ↓emitKept_fold]

theorem noteOccupancy_emitKept (s : State) (q : Nat) (p : QParam) (before : Nat) :
    emitKept (noteOccupancy s q p before) = emitKept s := by
  simp only [noteOccupancy, ↓apply_ite emitKept, ite_self, ↓raiseLater_emitKept, ↓setQueue_emitKept]

theorem noteQueue_emitKept (s : State) (q : Nat) : emitKept (noteQueue s q) = emitKept s := by
  simp only [noteQueue]
  split <;> simp only [↓apply_ite emitKept, ite_self, ↓noteOccupancy_emitKept]

theorem emitIo_emitKept (s : State) (io : Nat) (x : AuxLive) : emitKept (emitIo s io x) = emitKept s := by
  simp only [emitIo]
  split <;> simp only [↓apply_ite emitKept, ite_self, ↓raiseAt_emitKept]

theorem emitPort_emitKept (s : State) (port : Nat) (x : PortLive) : emitKept (emitPort s port x) = emitKept s := by
  simp only [emitPort, ↓apply_ite emitKept, ite_self, ↓raise_emitKept]

theorem emitPorts_emitKept (s : State) : emitKept (emitPorts s) = emitKept s := by
  simp only [emitPorts]
  (repeat' split) <;> simp only [↓emitKept_mk, ↓emitKept_fold, ↓foldl_keeps emitKept, implies_true, ↓emitIo_emitKept,
    ↓emitPort_emitKept, ↓raiseAt_emitKept]

theorem emitTime_emitKept (s : State) : emitKept (emitTime s) = emitKept s := by
  simp only [emitTime, ↓emitKept_mk, ↓emitKept_fold, ↓apply_ite emitKept, ite_self, ↓raise_emitKept]

theorem emitRefState_emitKept (s : State) : emitKept (emitRefState s) = emitKept s := by
  simp only [emitRefState, ↓emitKept_mk, ↓emitKept_fold, ↓apply_ite emitKept, ite_self, ↓raise_emitKept]

theorem emitRtcm_emitKept (s : State) : emitKept (emitRtcm s) = emitKept s := by
  simp only [emitRtcm, ↓emitKept_mk, ↓emitKept_fold, ↓foldl_keeps emitKept, implies_true, ↓raise_emitKept]

theorem siteSent_emitKept (s : State) : emitKept (siteSent s) = emitKept s := by
  simp only [siteSent, ↓emitKept_mk, ↓emitKept_fold]

theorem modAnchor_emitKept (s : State) (l : Nat) (f : AnchorLive → AnchorLive) :
    emitKept (modAnchor s l f) = emitKept s := by
  simp only [modAnchor, ↓emitKept_mk, ↓emitKept_fold]

theorem emitAnchors_emitKept (s : State) : emitKept (emitAnchors s) = emitKept s := by
  unfold emitAnchors
  refine foldl_keeps emitKept _ _ _ fun u l => ?_
  dsimp only
  split
  · rfl
  · simp only [↓apply_ite emitKept, ↓raise_emitKept, ↓modAnchor_emitKept, ite_self]

theorem sendDown_emitKept (s : State) (l btype : Nat) (payload : Bytes) :
    emitKept (sendDown s l btype payload) = emitKept s := by
  simp only [sendDown, ↓emitKept_mk, ↓emitKept_fold, ↓modAnchor_emitKept]

theorem sendDownNow_emitKept (s : State) (l btype : Nat) (payload : Bytes) :
    emitKept (sendDownNow s l btype payload) = emitKept s := by
  simp only [sendDownNow, ↓freshNat_emitKept, ↓noteSent_emitKept, ↓sendDown_emitKept]

theorem relayData_emitKept (s : State) (l : Nat) : emitKept (relayData s l) = emitKept s := by
  simp only [relayData]
  split <;> simp only [↓foldl_keeps emitKept, implies_true, ↓modAnchor_emitKept, ↓sendDownNow_emitKept]

theorem emitRelays_emitKept (s : State) : emitKept (emitRelays s) = emitKept s := by
  simp only [emitRelays, ↓foldl_keeps emitKept, implies_true, ↓relayData_emitKept]

theorem modRobot_emitKept (s : State) (i : Nat) (f : Robot → Robot) : emitKept (modRobot s i f) = emitKept s := by
  simp only [modRobot, ↓emitKept_mk, ↓emitKept_fold]

theorem emitFixes_emitKept (s : State) : emitKept (emitFixes s) = emitKept s := by
  simp only [emitFixes, ↓emitKept_mk, ↓emitKept_fold, ↓apply_ite emitKept, ite_self, ↓foldl_keeps emitKept, implies_true,
    ↓queueMsg_emitKept, ↓raise_emitKept]

theorem emitBlinkRejects_emitKept (s : State) : emitKept (emitBlinkRejects s) = emitKept s := by
  simp only [emitBlinkRejects, ↓emitKept_mk, ↓emitKept_fold, ↓apply_ite emitKept, ite_self, ↓raise_emitKept]

theorem emitStrt_emitKept (s : State) : emitKept (emitStrt s) = emitKept s := by
  simp only [emitStrt, ↓emitKept_mk, ↓emitKept_fold, ↓foldl_keeps emitKept, implies_true, ↓raise_emitKept]

theorem modPlan_emitKept (s : State) (i : Nat) (f : Plan → Plan) : emitKept (modPlan s i f) = emitKept s := by
  simp only [modPlan, ↓emitKept_mk, ↓emitKept_fold]

theorem queueRobotFragments_emitKept (s : State) (session : Nat) (p : Bytes) :
    emitKept (queueRobotFragments s session p) = emitKept s := by
  simp only [queueRobotFragments, ↓emitKept_mk, ↓emitKept_fold]

theorem emitPlan_emitKept (s : State) (i : Nat) : emitKept (emitPlan s i) = emitKept s := by
  simp only [emitPlan]
  (repeat' split) <;> simp only [↓modPlan_emitKept, ↓queueMsg_emitKept, ↓queueRobotFragments_emitKept]

theorem emitPlans_emitKept (s : State) : emitKept (emitPlans s) = emitKept s := by
  simp only [emitPlans, ↓foldl_keeps emitKept, implies_true, ↓emitPlan_emitKept]

theorem modCan_emitKept (s : State) (ch : Nat) (f : CanChan → CanChan) : emitKept (modCan s ch f) = emitKept s := by
  simp only [modCan, ↓emitKept_mk, ↓emitKept_fold]

theorem queueCanStop_emitKept (s : State) : emitKept (queueCanStop s) = emitKept s := by
  simp only [queueCanStop, ↓emitKept_mk, ↓emitKept_fold]

theorem emitCanChan_emitKept (s : State) (ch : Nat) : emitKept (emitCanChan s ch) = emitKept s := by
  simp only [emitCanChan]
  split <;> simp only [↓apply_ite emitKept, ite_self, ↓foldl_keeps emitKept, implies_true, ↓modCan_emitKept, ↓raise_emitKept]

theorem emitCan_emitKept (s : State) : emitKept (emitCan s) = emitKept s := by
  simp only [emitCan, ↓emitCanChan_emitKept, ↓queueCanStop_emitKept]

theorem emitSess_emitKept (s : State) : emitKept (emitSess s) = emitKept s := by
  simp only [emitSess, ↓foldl_keeps emitKept, implies_true, ↓modRobot_emitKept, ↓raiseWith_emitKept]

theorem emitSpoof_emitKept (s : State) : emitKept (emitSpoof s) = emitKept s := by
  simp only [emitSpoof, ↓emitKept_mk, ↓emitKept_fold, ↓apply_ite emitKept, ite_self, ↓raise_emitKept]

theorem changeStop_emitKept (s : State) (pclk : Nat) (f : State → State) : emitKept (changeStop s pclk f) = emitKept (f s) :=
  (congrArg emitKept (Laws.changeStop_same s pclk f).1.rest).trans rfl

theorem modChans_emitKept (s : State) (f : Channel3 → Channel3) : emitKept (modChans s f) = emitKept s := by
  simp only [modChans, ↓emitKept_mk, ↓emitKept_fold]

theorem latchSite_emitKept (bit : Nat) (active : Bool) (s : State) : emitKept (latchSite bit active s) = emitKept s := by
  simp only [latchSite, ↓modChans_emitKept]

theorem latchRobot_emitKept (i why : Nat) (s : State) : emitKept (latchRobot i why s) = emitKept s := by
  simp only [latchRobot, ↓emitKept_mk, ↓emitKept_fold, ↓modChans_emitKept]

theorem applyRequests_emitKept (s : State) (start : Nat) : emitKept (applyRequests s start) = emitKept s := by
  unfold applyRequests
  split
  · rfl
  · refine (changeStop_emitKept ..).trans ((foldl_keeps emitKept _ _ _ fun u q => ?_).trans rfl)
    split
    · exact latchRobot_emitKept ..
    · exact latchSite_emitKept ..

theorem emitStop_emitKept (s : State) : emitKept (emitStop s) = emitKept s := by
  simp only [emitStop, ↓emitKept_mk, ↓emitKept_fold, ↓apply_ite emitKept, ite_self, ↓foldl_keeps emitKept, implies_true,
    ↓raise_emitKept, ↓raiseAt_emitKept]

theorem noteTx_emitKept (s : State) : emitKept (noteTx s) = emitKept s := by
  simp only [noteTx, ↓noteQueue_emitKept]

theorem queueCorrection_emitKept (s : State) (p : Bytes) : emitKept (queueCorrection s p) = emitKept s := by
  simp only [queueCorrection, ↓emitKept_mk, ↓emitKept_fold, ↓noteTx_emitKept, ↓queueFragments_emitKept]

theorem emitRadio_emitKept (s : State) : emitKept (emitRadio s) = emitKept s := by
  simp only [emitRadio, ↓emitKept_mk, ↓emitKept_fold, ↓apply_ite emitKept, ite_self, ↓foldl_keeps emitKept, implies_true,
    ↓raise_emitKept]

theorem keyEvent_emitKept (s : State) (tag : Option (Nat × Nat)) (slot action gen : Nat) :
    emitKept (keyEvent s tag slot action gen) = emitKept s := by
  simp only [keyEvent, ↓raiseWith_emitKept]

theorem emitKeys_emitKept (s : State) : emitKept (emitKeys s) = emitKept s := by
  simp only [emitKeys, ↓emitKept_mk, ↓emitKept_fold, ↓apply_ite emitKept, ite_self, ↓foldl_keeps emitKept, implies_true,
    ↓keyEvent_emitKept, ↓raise_emitKept]

theorem emitUpd_emitKept (s : State) : emitKept (emitUpd s) = emitKept s := by
  simp only [emitUpd, ↓emitKept_mk, ↓emitKept_fold, ↓foldl_keeps emitKept, implies_true, ↓raiseWith_emitKept]

theorem emitFaults_emitKept (s : State) : emitKept (emitFaults s) = emitKept s := by
  simp only [emitFaults, ↓emitKept_mk, ↓emitKept_fold, ↓foldl_keeps emitKept, implies_true, ↓raise_emitKept]

theorem openWindow_emitKept (s : State) (w : Window) : emitKept (openWindow s w) = emitKept s := by
  simp only [openWindow, ↓emitKept_mk, ↓emitKept_fold, ↓applyRequests_emitKept]

theorem emitViolations_emitKept (s : State) : emitKept (emitViolations s) = emitKept s := by
  unfold emitViolations
  refine (foldl_keeps emitKept _ _ _ fun u b => ?_).trans ?_
  · (repeat' split) <;> simp only [↓modSession_emitKept, ↓raise_emitKept]
  · dsimp only

theorem emitDropped_emitKept (s : State) : emitKept (emitDropped s) = emitKept s := by
  simp only [emitDropped, ↓emitKept_mk, ↓emitKept_fold, ↓apply_ite emitKept, ite_self, ↓raise_emitKept]

theorem emitMode_emitKept (s : State) : emitKept (emitMode s) = emitKept s := by
  simp only [emitMode]
  split <;> simp only [↓emitKept_mk, ↓emitKept_fold]

theorem emitCondition_emitKept (s : State) : emitKept (emitCondition s) = emitKept s := by
  simp only [emitCondition, ↓emitKept_mk, ↓emitKept_fold, ↓apply_ite emitKept, ite_self, ↓raise_emitKept]

theorem emitBroadcasts_emitKept (s : State) : emitKept (emitBroadcasts s) = emitKept s := by
  simp only [emitBroadcasts]
  split <;> simp only [↓emitKept_mk, ↓emitKept_fold, ↓apply_ite emitKept, ite_self, ↓queueCorrection_emitKept,
    ↓queueFragments_emitKept, ↓siteSent_emitKept]

theorem emitAll_emitKept (s : State) : emitKept (emitAll s) = emitKept s := by
  simp only [emitAll, ↓apply_ite emitKept, ite_self, ↓emitAnchors_emitKept, ↓emitBlinkRejects_emitKept, ↓emitBroadcasts_emitKept,
    ↓emitCan_emitKept, ↓emitCondition_emitKept, ↓emitDropped_emitKept, ↓emitFaults_emitKept, ↓emitFixes_emitKept,
    ↓emitKeys_emitKept, ↓emitMode_emitKept, ↓emitPlans_emitKept, ↓emitPorts_emitKept, ↓emitRadio_emitKept,
    ↓emitRefState_emitKept, ↓emitRelays_emitKept, ↓emitRtcm_emitKept, ↓emitSess_emitKept, ↓emitSpoof_emitKept,
    ↓emitStop_emitKept, ↓emitStrt_emitKept, ↓emitTime_emitKept, ↓emitUpd_emitKept, ↓emitViolations_emitKept]

/-! ### What PERSIST keeps -/

/-- The holds, the reservations, the mode and the cause of FOG. -/
def persistKept (s : State) : Tbl HoldRec × Strt × Mode × Nat := (s.holds, s.strt, s.mode.cur, s.mode.fogCause)

theorem persistKept_mk (pending freeCtr fuse flash p nv bk clk cores mode supply edtor com queues time gnss ref buoy sess strt
    holds allot stop radio can ports sec upd) :
    persistKept (State.mk pending freeCtr fuse flash p nv bk clk cores mode supply edtor com queues time gnss ref buoy sess strt
      holds allot stop radio can ports sec upd) = (holds, strt, mode.cur, mode.fogCause) := by unfold persistKept; rfl

theorem persistKept_fold (s : State) :
    (s.holds, s.strt, s.mode.cur, s.mode.fogCause) = persistKept s := by unfold persistKept; rfl

theorem commit_persistKept (s : State) (kind idx : Nat) : persistKept (commit s kind idx) = persistKept s := by
  simp only [commit, ↓persistKept_mk, ↓persistKept_fold, ↓apply_ite persistKept, ite_self]

theorem raiseAt_persistKept (s : State) (code : Nat) (aud : Audience) (t : Nat) (payload : Bytes) :
    persistKept (raiseAt s code aud t payload) = persistKept s := by
  simp only [raiseAt, ↓persistKept_mk, ↓persistKept_fold]

theorem raise_persistKept (s : State) (code : Nat) (aud : Audience) (payload : Bytes) :
    persistKept (raise s code aud payload) = persistKept s := by
  simp only [raise, ↓raiseAt_persistKept]

theorem raiseLater_persistKept (s : State) (code : Nat) (aud : Audience) (t : Nat) (payload : Bytes) :
    persistKept (raiseLater s code aud t payload) = persistKept s := by
  simp only [raiseLater, ↓persistKept_mk, ↓persistKept_fold]

theorem modSession_persistKept (s : State) (slot : Nat) (f : Session → Session) :
    persistKept (modSession s slot f) = persistKept s := by
  simp only [modSession, ↓persistKept_mk, ↓persistKept_fold]

theorem record_persistKept (s : State) (r : Request) (final : Bool) (intr status planned : Nat) :
    persistKept (record s r final intr status planned) = persistKept s := by
  simp only [record, ↓persistKept_mk, ↓persistKept_fold]

theorem raiseWith_persistKept (s : State) (csn : Nat) (tag : Option (Nat × Nat)) (code : Nat) (aud : Audience) (payload : Bytes) :
    persistKept (raiseWith s csn tag code aud payload) = persistKept s := by
  simp only [raiseWith, ↓persistKept_mk, ↓persistKept_fold]

theorem countViol_persistKept (s : State) (slot : Nat) (port : Port) (i : Nat) (executing : Bool) :
    persistKept (countViol s slot port i executing) = persistKept s := by
  simp only [countViol, ↓persistKept_mk, ↓persistKept_fold, ↓modSession_persistKept]

theorem countStatus_persistKept (s : State) (r : Request) (status : Nat) :
    persistKept (countStatus s r status) = persistKept s := by
  simp only [countStatus]
  split <;> simp only [↓countViol_persistKept]

theorem queueReply_persistKept (s : State) (r : Request) (k : Packet) : persistKept (queueReply s r k) = persistKept s := by
  simp only [queueReply, ↓persistKept_mk, ↓persistKept_fold, ↓apply_ite persistKept, ite_self]

theorem finishI_persistKept (s : State) (r : Request) (intr status : Nat) (payload : Bytes) :
    persistKept (finishI s r intr status payload) = persistKept s := by
  simp only [finishI, ↓apply_ite persistKept, ite_self, ↓countStatus_persistKept, ↓queueReply_persistKept, ↓record_persistKept]

theorem finish_persistKept (s : State) (r : Request) (status : Nat) (payload : Bytes) :
    persistKept (finish s r status payload) = persistKept s := by
  simp only [finish, ↓finishI_persistKept]

theorem cacheKey_persistKept (s : State) (entry gen : Nat) : persistKept (cacheKey s entry gen) = persistKept s := by
  simp only [cacheKey, ↓persistKept_mk, ↓persistKept_fold]

theorem setQueue_persistKept (s : State) (q : Nat) (k : SpillQueue) : persistKept (setQueue s q k) = persistKept s := by
  simp only [setQueue, ↓persistKept_mk, ↓persistKept_fold]

theorem noteOccupancy_persistKept (s : State) (q : Nat) (p : QParam) (before : Nat) :
    persistKept (noteOccupancy s q p before) = persistKept s := by
  simp only [noteOccupancy, ↓apply_ite persistKept, ite_self, ↓raiseLater_persistKept, ↓setQueue_persistKept]

theorem noteOverrun_persistKept (s : State) (q : Nat) (p : QParam) : persistKept (noteOverrun s q p) = persistKept s := by
  simp only [noteOverrun, ↓setQueue_persistKept]

theorem admitFrame_persistKept (s : State) (q : Nat) (special : Bool) :
    persistKept (admitFrame s q special).2 = persistKept s := by
  simp only [admitFrame]
  (repeat' split) <;> simp only [↓noteOverrun_persistKept]

theorem arrived_persistKept (s : State) (q before : Nat) : persistKept (arrived s q before) = persistKept s := by
  simp only [arrived]
  split <;> simp only [↓noteOccupancy_persistKept]

theorem noteQueue_persistKept (s : State) (q : Nat) : persistKept (noteQueue s q) = persistKept s := by
  simp only [noteQueue]
  split <;> simp only [↓apply_ite persistKept, ite_self, ↓noteOccupancy_persistKept]

theorem noteAll_persistKept (s : State) : persistKept (noteAll s) = persistKept s := by
  simp only [noteAll, ↓foldl_keeps persistKept, implies_true, ↓noteQueue_persistKept]

theorem modAnchor_persistKept (s : State) (l : Nat) (f : AnchorLive → AnchorLive) :
    persistKept (modAnchor s l f) = persistKept s := by
  simp only [modAnchor, ↓persistKept_mk, ↓persistKept_fold]

theorem setAnchor_persistKept (s : State) (l : Nat) (st : AnchorState) (cause : Nat) :
    persistKept (setAnchor s l st cause) = persistKept s := by
  simp only [setAnchor, ↓apply_ite persistKept, ite_self, ↓modAnchor_persistKept]

theorem modRobot_persistKept (s : State) (i : Nat) (f : Robot → Robot) : persistKept (modRobot s i f) = persistKept s := by
  simp only [modRobot, ↓persistKept_mk, ↓persistKept_fold]

theorem releaseCanStop_persistKept (s : State) : persistKept (releaseCanStop s) = persistKept s := by
  simp only [releaseCanStop, ↓persistKept_mk, ↓persistKept_fold]

theorem modRpt_persistKept (s : State) (k : Nat) (f : RptEntry → RptEntry) : persistKept (modRpt s k f) = persistKept s := by
  simp only [modRpt, ↓persistKept_mk, ↓persistKept_fold]

theorem rptAddr_persistKept (s : State) (eui : BitVec 64) (addr : Nat) :
    persistKept (rptAddr s eui addr) = persistKept s := by
  simp only [rptAddr]
  split <;> simp only [↓modRpt_persistKept]

theorem cellEvent_persistKept (s : State) (i cause : Nat) (q : Option (Nat × Nat × Nat)) :
    persistKept (cellEvent s i cause q) = persistKept s := by
  simp only [cellEvent, ↓raise_persistKept]

theorem releaseCell_persistKept (s : State) (i : Nat) : persistKept (releaseCell s i) = persistKept s := by
  simp only [releaseCell]
  split <;> simp only [↓persistKept_mk, ↓persistKept_fold, ↓cellEvent_persistKept]

theorem endAssociation_persistKept (s : State) (i : Nat) : persistKept (endAssociation s i) = persistKept s := by
  simp only [endAssociation, ↓persistKept_mk, ↓persistKept_fold, ↓modRobot_persistKept, ↓releaseCell_persistKept,
    ↓rptAddr_persistKept]

theorem modOne_persistKept (s : State) (r : Nat) (f : OneRadio → OneRadio) : persistKept (modOne s r f) = persistKept s := by
  simp only [modOne, ↓persistKept_mk, ↓persistKept_fold, ↓apply_ite persistKept, ite_self]

theorem changeStop_persistKept (s : State) (pclk : Nat) (f : State → State) :
    persistKept (changeStop s pclk f) = persistKept (f s) :=
  (congrArg persistKept (Laws.changeStop_same s pclk f).1.rest).trans rfl

theorem modChans_persistKept (s : State) (f : Channel3 → Channel3) : persistKept (modChans s f) = persistKept s := by
  simp only [modChans, ↓persistKept_mk, ↓persistKept_fold]

theorem latchSite_persistKept (bit : Nat) (active : Bool) (s : State) :
    persistKept (latchSite bit active s) = persistKept s := by
  simp only [latchSite, ↓modChans_persistKept]

theorem latchRobot_persistKept (i why : Nat) (s : State) : persistKept (latchRobot i why s) = persistKept s := by
  simp only [latchRobot, ↓persistKept_mk, ↓persistKept_fold, ↓modChans_persistKept]

theorem applyRequests_persistKept (s : State) (start : Nat) : persistKept (applyRequests s start) = persistKept s := by
  unfold applyRequests
  split
  · rfl
  · refine (changeStop_persistKept ..).trans ((foldl_keeps persistKept _ _ _ fun u q => ?_).trans rfl)
    split
    · exact latchRobot_persistKept ..
    · exact latchSite_persistKept ..

theorem elementBytes_persistKept (s : State) (f : AirFrame) (piece : Bytes) (more : Bool) :
    persistKept (elementBytes s f piece more).2 = persistKept s := by
  simp only [elementBytes]
  (repeat' split) <;> simp only [↓persistKept_mk, ↓persistKept_fold, ↓cacheKey_persistKept, ↓modRobot_persistKept]

theorem placeMessage_persistKept (r space j n : Nat) (w : Filling) :
    persistKept (placeMessage r space j n w).st = persistKept w.st := by
  induction n generalizing w with
  | zero => rfl
  | succ n ih =>
    simp only [placeMessage]
    split
    · rfl
    · split
      · rfl
      · split
        · exact (ih _).trans (elementBytes_persistKept ..)
        · exact elementBytes_persistKept ..

theorem fillFrame_persistKept (s : State) (r space : Nat) : persistKept (fillFrame s r space).st = persistKept s := by
  have key : ∀ (l : List Nat) (w : Filling), persistKept (l.foldl (fun (w : Filling) j =>
      if w.closed then w else
      match w.st.radio.elements[j]? with
      | none => w
      | some f =>
        if leftOn f r = 0 || !(routes w.st f).contains r || !deliverable w.st f || chainBlocked w.st r j f then w
        else placeMessage r space j 64 w) w).st = persistKept w.st := by
    intro l
    induction l with
    | nil => intro w; rfl
    | cons j l ih =>
      intro w
      refine (ih _).trans ?_
      dsimp only
      split
      · rfl
      · split
        · rfl
        · split
          · rfl
          · exact placeMessage_persistKept ..
  exact key _ _

theorem fillSlot_persistKept (s : State) (r k : Nat) : persistKept (fillSlot s r k) = persistKept s := by
  simp only [fillSlot, ↓apply_ite persistKept, ↓arrived_persistKept, ↓modOne_persistKept, ↓fillFrame_persistKept,
    ↓admitFrame_persistKept, ite_self]

theorem fillBeacons_persistKept (s : State) : persistKept (fillBeacons s) = persistKept s := by
  unfold fillBeacons
  split
  · rfl
  · simp only [↓persistKept_mk, ↓persistKept_fold]
    split <;> next h =>
      have h := snd_keeps h (admitFrame_persistKept ..)
      simp only [↓arrived_persistKept, ↓modOne_persistKept, h]
      split <;> next k =>
        have k := snd_keeps k (admitFrame_persistKept ..)
        simp only [↓arrived_persistKept, ↓modOne_persistKept, k, ↓apply_ite persistKept, ↓persistKept_mk, ↓persistKept_fold,
          ite_self]

theorem dropOldBeacons_persistKept (s : State) : persistKept (dropOldBeacons s) = persistKept s := by
  simp only [dropOldBeacons, ↓persistKept_mk, ↓persistKept_fold, ↓apply_ite persistKept, ite_self, ↓foldl_keeps persistKept,
    implies_true, ↓modOne_persistKept]

theorem dropOldFixes_persistKept (s : State) : persistKept (dropOldFixes s) = persistKept s := by
  simp only [dropOldFixes, ↓persistKept_mk, ↓persistKept_fold]

theorem fillRadio_persistKept (s : State) : persistKept (fillRadio s) = persistKept s := by
  simp only [fillRadio, ↓persistKept_mk, ↓persistKept_fold, ↓apply_ite persistKept, ite_self, ↓foldl_keeps persistKept,
    implies_true, ↓dropOldBeacons_persistKept, ↓dropOldFixes_persistKept, ↓fillBeacons_persistKept, ↓fillSlot_persistKept]

theorem keyEvent_persistKept (s : State) (tag : Option (Nat × Nat)) (slot action gen : Nat) :
    persistKept (keyEvent s tag slot action gen) = persistKept s := by
  simp only [keyEvent, ↓raiseWith_persistKept]

theorem clearTags_persistKept (s : State) (l : List Nat) : persistKept (clearTags s l) = persistKept s := by
  simp only [clearTags, ↓persistKept_mk, ↓persistKept_fold]

theorem endAssocOf_persistKept (s : State) (eui : BitVec 64) : persistKept (endAssocOf s eui) = persistKept s := by
  simp only [endAssocOf]
  split <;> simp only [↓endAssociation_persistKept]

theorem orphan_persistKept (s : State) (i : Nat) : persistKept (orphan s i) = persistKept s := by
  simp only [orphan]
  (repeat' split) <;> simp only [↓persistKept_mk, ↓persistKept_fold, ↓clearTags_persistKept, ↓endAssocOf_persistKept,
    ↓setAnchor_persistKept]

theorem flipSlot_persistKept (s : State) (c : SlotChange) : persistKept (flipSlot s c) = persistKept s := by
  simp only [flipSlot, ↓persistKept_mk, ↓persistKept_fold, ↓apply_ite persistKept, ite_self, ↓clearTags_persistKept,
    ↓commit_persistKept, ↓endAssocOf_persistKept, ↓finish_persistKept, ↓keyEvent_persistKept, ↓orphan_persistKept]

theorem persistKeys_persistKept (s : State) : persistKept (persistKeys s) = persistKept s := by
  simp only [persistKeys, ↓persistKept_mk, ↓persistKept_fold, ↓apply_ite persistKept, ite_self, ↓foldl_keeps persistKept,
    implies_true, ↓flipSlot_persistKept, ↓orphan_persistKept]

theorem addUnavail_persistKept (s : State) (cause n : Nat) : persistKept (addUnavail s cause n) = persistKept s := by
  simp only [addUnavail, ↓persistKept_mk, ↓persistKept_fold]

theorem countAvail_persistKept (s : State) : persistKept (countAvail s) = persistKept s := by
  simp only [countAvail]
  split <;> simp only [↓persistKept_mk, ↓persistKept_fold, ↓addUnavail_persistKept]

theorem openWindow_persistKept (s : State) (w : Window) : persistKept (openWindow s w) = persistKept s := by
  simp only [openWindow, ↓persistKept_mk, ↓persistKept_fold, ↓applyRequests_persistKept]

theorem placeOpen_persistKept (s : State) (k : Packet) : persistKept (placeOpen s k) = persistKept s := by
  simp only [placeOpen, ↓persistKept_mk, ↓persistKept_fold, ↓apply_ite persistKept, ite_self]

theorem putPacket_persistKept (s : State) (slot : Nat) (k : Packet) : persistKept (putPacket s slot k) = persistKept s := by
  simp only [putPacket, ↓arrived_persistKept, ↓modSession_persistKept]

theorem placeReply_persistKept (s : State) (k : Packet) : persistKept (placeReply s k) = persistKept s := by
  simp only [placeReply]
  (repeat' split) <;> simp only [↓persistKept_mk, ↓persistKept_fold, ↓placeOpen_persistKept, ↓putPacket_persistKept]

theorem placeReplies_persistKept (s : State) : persistKept (placeReplies s) = persistKept s := by
  simp only [placeReplies, ↓persistKept_mk, ↓persistKept_fold, ↓foldl_keeps persistKept, implies_true, ↓placeReply_persistKept]

theorem placeFrags_persistKept (slot n : Nat) (x : Stream) (s : State) :
    persistKept (placeFrags slot n x s).2 = persistKept s := by
  induction n generalizing x s with
  | zero => rfl
  | succ n ih =>
    simp only [placeFrags]
    split
    · rfl
    · simp only [↓apply_ite Prod.snd, ↓apply_ite persistKept, ↓ih, ↓putPacket_persistKept, ite_self]

theorem placeStream_persistKept (slot : Nat) (s : State) (x : Stream) :
    persistKept (placeStream slot s x) = persistKept s := by
  simp only [placeStream, ↓apply_ite persistKept, ite_self, ↓modSession_persistKept, ↓placeFrags_persistKept]

theorem placeStreams_persistKept (s : State) : persistKept (placeStreams s) = persistKept s := by
  simp only [placeStreams, ↓apply_ite persistKept, ite_self, ↓foldl_keeps persistKept, implies_true, ↓modSession_persistKept,
    ↓placeStream_persistKept]

theorem placeCredits_persistKept (s : State) (refused : List Nat) :
    persistKept (placeCredits s refused) = persistKept s := by
  simp only [placeCredits]
  refine (foldl_keeps persistKept _ _ _ fun u b => ?_).trans ?_ <;> simp only [↓apply_ite persistKept]
  (repeat' split) <;> simp only [↓placeReply_persistKept]

theorem placeEvent_persistKept (v : Event) (s : State) (slot : Nat) : persistKept (placeEvent v s slot) = persistKept s := by
  simp only [placeEvent, ↓apply_ite persistKept, ite_self, ↓admitFrame_persistKept, ↓arrived_persistKept,
    ↓modSession_persistKept]

theorem placeEvents_persistKept (s : State) : persistKept (placeEvents s) = persistKept s := by
  simp only [placeEvents, ↓persistKept_mk, ↓persistKept_fold, ↓foldl_keeps persistKept, implies_true, ↓placeEvent_persistKept]

theorem placeAll_persistKept (s : State) : persistKept (placeAll s) = persistKept s := by
  simp only [placeAll, ↓placeCredits_persistKept, ↓placeEvents_persistKept, ↓placeReplies_persistKept,
    ↓placeStreams_persistKept]

theorem persistWork_persistKept (s : State) : persistKept (persistWork s) = persistKept s := by
  simp only [persistWork, ↓persistKept_mk, ↓persistKept_fold, ↓apply_ite persistKept, ite_self, ↓persistKeys_persistKept,
    ↓placeEvents_persistKept, ↓placeReplies_persistKept]

theorem fillQueues_persistKept (s : State) : persistKept (fillQueues s) = persistKept s := by
  simp only [fillQueues, ↓apply_ite persistKept, ite_self, ↓fillRadio_persistKept, ↓placeAll_persistKept,
    ↓releaseCanStop_persistKept]

/-! ### What closing an FC keeps -/

/-- The time base. -/
def timeKept (s : State) : TimeBase := s.time

theorem timeKept_mk (pending freeCtr fuse flash p nv bk clk cores mode supply edtor com queues time gnss ref buoy sess strt
    holds allot stop radio can ports sec upd) :
    timeKept (State.mk pending freeCtr fuse flash p nv bk clk cores mode supply edtor com queues time gnss ref buoy sess strt
      holds allot stop radio can ports sec upd) = time := by unfold timeKept; rfl

theorem timeKept_fold (s : State) : s.time = timeKept s := by unfold timeKept; rfl

theorem raiseAirCeilings_timeKept (s : State) : timeKept (raiseAirCeilings s) = timeKept s := by
  simp only [raiseAirCeilings, ↓timeKept_mk, ↓timeKept_fold]

theorem modSlot_timeKept (s : State) (b : Bool) (f : ImageSlot → ImageSlot) : timeKept (modSlot s b f) = timeKept s := by
  simp only [modSlot, ↓timeKept_mk, ↓timeKept_fold, ↓apply_ite timeKept, ite_self]

theorem persistTrial_timeKept (s : State) : timeKept (persistTrial s) = timeKept s := by
  simp only [persistTrial]
  split <;> simp only [↓timeKept_mk, ↓timeKept_fold, ↓apply_ite timeKept, ite_self, ↓modSlot_timeKept]

theorem finalise_timeKept (s : State) : timeKept (finalise s) = timeKept s := by
  simp only [finalise, ↓timeKept_mk, ↓timeKept_fold, ↓apply_ite timeKept, ite_self]

theorem writeRec_timeKept (s : State) (j : JournalRec) : timeKept (writeRec s j) = timeKept s := by
  simp only [writeRec, ↓timeKept_mk, ↓timeKept_fold]

theorem writeCmdRec_timeKept (s : State) (j : JournalRec) : timeKept (writeCmdRec s j) = timeKept s := by
  simp only [writeCmdRec, ↓timeKept_mk, ↓timeKept_fold, ↓apply_ite timeKept, ite_self, ↓writeRec_timeKept]

theorem writeInternal_timeKept (s : State) (e : InternalRec) : timeKept (writeInternal s e) = timeKept s := by
  simp only [writeInternal, ↓timeKept_mk, ↓timeKept_fold, ↓apply_ite timeKept, ite_self, ↓writeRec_timeKept]

theorem writeLogs_timeKept (s : State) : timeKept (writeLogs s) = timeKept s := by
  simp only [writeLogs, ↓timeKept_mk, ↓timeKept_fold, ↓foldl_keeps timeKept, implies_true]

theorem writeJournal_timeKept (s : State) : timeKept (writeJournal s) = timeKept s := by
  simp only [writeJournal, ↓timeKept_mk, ↓timeKept_fold, ↓foldl_keeps timeKept, implies_true, ↓finalise_timeKept,
    ↓writeCmdRec_timeKept, ↓writeInternal_timeKept, ↓writeLogs_timeKept]

theorem writeControl_timeKept (s : State) : timeKept (writeControl s) = timeKept s := by
  simp only [writeControl, ↓timeKept_mk, ↓timeKept_fold]

theorem confirmStandby_timeKept (s : State) : timeKept (confirmStandby s) = timeKept s := by
  simp only [confirmStandby, ↓timeKept_mk, ↓timeKept_fold, ↓apply_ite timeKept, ite_self]

theorem completePersist_timeKept (s : State) : timeKept (completePersist s) = timeKept s := by
  simp only [completePersist, ↓timeKept_mk, ↓timeKept_fold, ↓confirmStandby_timeKept, ↓persistTrial_timeKept,
    ↓raiseAirCeilings_timeKept, ↓writeControl_timeKept, ↓writeJournal_timeKept]

theorem settlePersist_timeKept (s : State) : timeKept (settlePersist s) = timeKept s := by
  simp only [settlePersist, ↓timeKept_mk, ↓timeKept_fold, ↓apply_ite timeKept, ite_self, ↓completePersist_timeKept]

theorem handOver_timeKept (s : State) : timeKept (handOver s) = timeKept s := by
  simp only [handOver]
  split <;> simp only [↓timeKept_mk, ↓timeKept_fold]

/-! ### What the release of packets keeps -/

/-- Whether a PERSIST is open. -/
def persistOwed (s : State) : Bool := s.com.persistDue

theorem persistOwed_mk (pending freeCtr fuse flash p nv bk clk cores mode supply edtor com queues time gnss ref buoy sess strt
    holds allot stop radio can ports sec upd) :
    persistOwed (State.mk pending freeCtr fuse flash p nv bk clk cores mode supply edtor com queues time gnss ref buoy sess strt
      holds allot stop radio can ports sec upd) = com.persistDue := by unfold persistOwed; rfl

theorem persistOwed_fold (s : State) : s.com.persistDue = persistOwed s := by unfold persistOwed; rfl

theorem freshNat_persistOwed (s : State) : persistOwed (freshNat s).2 = persistOwed s := by
  simp only [freshNat, ↓persistOwed_mk, ↓persistOwed_fold]

theorem raiseLater_persistOwed (s : State) (code : Nat) (aud : Audience) (t : Nat) (payload : Bytes) :
    persistOwed (raiseLater s code aud t payload) = persistOwed s := by
  simp only [raiseLater, ↓persistOwed_mk, ↓persistOwed_fold]

theorem noteSent_persistOwed (s : State) (link : Nat) (capture : Counter) :
    persistOwed (noteSent s link capture) = persistOwed s := by
  simp only [noteSent, ↓persistOwed_mk, ↓persistOwed_fold]

theorem setQueue_persistOwed (s : State) (q : Nat) (k : SpillQueue) : persistOwed (setQueue s q k) = persistOwed s := by
  simp only [setQueue, ↓persistOwed_mk, ↓persistOwed_fold]

theorem noteOccupancy_persistOwed (s : State) (q : Nat) (p : QParam) (before : Nat) :
    persistOwed (noteOccupancy s q p before) = persistOwed s := by
  simp only [noteOccupancy, ↓apply_ite persistOwed, ite_self, ↓raiseLater_persistOwed, ↓setQueue_persistOwed]

theorem noteQueue_persistOwed (s : State) (q : Nat) : persistOwed (noteQueue s q) = persistOwed s := by
  simp only [noteQueue]
  split <;> simp only [↓apply_ite persistOwed, ite_self, ↓noteOccupancy_persistOwed]

theorem noteAll_persistOwed (s : State) : persistOwed (noteAll s) = persistOwed s := by
  simp only [noteAll, ↓foldl_keeps persistOwed, implies_true, ↓noteQueue_persistOwed]

theorem releaseCan_persistOwed (s : State) : persistOwed (releaseCan s) = persistOwed s := by
  simp only [releaseCan, ↓persistOwed_mk, ↓persistOwed_fold, ↓apply_ite persistOwed, ite_self]

theorem noteReleased_persistOwed (s : State) (l : List Packet) : persistOwed (noteReleased s l) = persistOwed s := by
  simp only [noteReleased, ↓persistOwed_mk, ↓persistOwed_fold, ↓foldl_keeps persistOwed, implies_true, ↓freshNat_persistOwed,
    ↓noteSent_persistOwed]

theorem releaseSlot_persistOwed (s : State) (slot : Nat) : persistOwed (releaseSlot s slot) = persistOwed s := by
  simp only [releaseSlot]
  split <;> simp only [↓persistOwed_mk, ↓persistOwed_fold, ↓noteReleased_persistOwed]

theorem releasePackets_persistOwed (s : State) : persistOwed (releasePackets s) = persistOwed s := by
  simp only [releasePackets, ↓persistOwed_mk, ↓persistOwed_fold, ↓foldl_keeps persistOwed, implies_true,
    ↓noteReleased_persistOwed, ↓releaseSlot_persistOwed]

/-! ### What GUARD keeps -/

/-- The CSN, the backup domain, the holds and the reservations. -/
def guardKept (s : State) : Nat × Backup × Tbl HoldRec × Strt := (s.com.csn, s.bk, s.holds, s.strt)

theorem guardKept_mk (pending freeCtr fuse flash p nv bk clk cores mode supply edtor com queues time gnss ref buoy sess strt
    holds allot stop radio can ports sec upd) :
    guardKept (State.mk pending freeCtr fuse flash p nv bk clk cores mode supply edtor com queues time gnss ref buoy sess strt
      holds allot stop radio can ports sec upd) = (com.csn, bk, holds, strt) := by unfold guardKept; rfl

theorem guardKept_fold (s : State) : (s.com.csn, s.bk, s.holds, s.strt) = guardKept s := by unfold guardKept; rfl

theorem freshNat_guardKept (s : State) : guardKept (freshNat s).2 = guardKept s := by
  simp only [freshNat, ↓guardKept_mk, ↓guardKept_fold]

theorem raiseLater_guardKept (s : State) (code : Nat) (aud : Audience) (t : Nat) (payload : Bytes) :
    guardKept (raiseLater s code aud t payload) = guardKept s := by
  simp only [raiseLater, ↓guardKept_mk, ↓guardKept_fold]

theorem noteSent_guardKept (s : State) (link : Nat) (capture : Counter) :
    guardKept (noteSent s link capture) = guardKept s := by
  simp only [noteSent, ↓guardKept_mk, ↓guardKept_fold]

theorem setQueue_guardKept (s : State) (q : Nat) (k : SpillQueue) : guardKept (setQueue s q k) = guardKept s := by
  simp only [setQueue, ↓guardKept_mk, ↓guardKept_fold]

theorem noteOccupancy_guardKept (s : State) (q : Nat) (p : QParam) (before : Nat) :
    guardKept (noteOccupancy s q p before) = guardKept s := by
  simp only [noteOccupancy, ↓apply_ite guardKept, ite_self, ↓raiseLater_guardKept, ↓setQueue_guardKept]

theorem noteQueue_guardKept (s : State) (q : Nat) : guardKept (noteQueue s q) = guardKept s := by
  simp only [noteQueue]
  split <;> simp only [↓apply_ite guardKept, ite_self, ↓noteOccupancy_guardKept]

theorem noteAll_guardKept (s : State) : guardKept (noteAll s) = guardKept s := by
  simp only [noteAll, ↓foldl_keeps guardKept, implies_true, ↓noteQueue_guardKept]

theorem releaseCan_guardKept (s : State) : guardKept (releaseCan s) = guardKept s := by
  simp only [releaseCan, ↓guardKept_mk, ↓guardKept_fold, ↓apply_ite guardKept, ite_self]

theorem changeStop_guardKept (s : State) (pclk : Nat) (f : State → State) : guardKept (changeStop s pclk f) = guardKept (f s) :=
  (congrArg guardKept (Laws.changeStop_same s pclk f).1.rest).trans rfl

theorem modChans_guardKept (s : State) (f : Channel3 → Channel3) : guardKept (modChans s f) = guardKept s := by
  simp only [modChans, ↓guardKept_mk, ↓guardKept_fold]

theorem latchSite_guardKept (bit : Nat) (active : Bool) (s : State) : guardKept (latchSite bit active s) = guardKept s := by
  simp only [latchSite, ↓modChans_guardKept]

theorem latchRobot_guardKept (i why : Nat) (s : State) : guardKept (latchRobot i why s) = guardKept s := by
  simp only [latchRobot, ↓guardKept_mk, ↓guardKept_fold, ↓modChans_guardKept]

theorem applyRequests_guardKept (s : State) (start : Nat) : guardKept (applyRequests s start) = guardKept s := by
  unfold applyRequests
  split
  · rfl
  · refine (changeStop_guardKept ..).trans ((foldl_keeps guardKept _ _ _ fun u q => ?_).trans rfl)
    split
    · exact latchRobot_guardKept ..
    · exact latchSite_guardKept ..

theorem raiseAirCeilings_guardKept (s : State) : guardKept (raiseAirCeilings s) = guardKept s := by
  simp only [raiseAirCeilings, ↓guardKept_mk, ↓guardKept_fold]

theorem modSlot_guardKept (s : State) (b : Bool) (f : ImageSlot → ImageSlot) : guardKept (modSlot s b f) = guardKept s := by
  simp only [modSlot, ↓guardKept_mk, ↓guardKept_fold, ↓apply_ite guardKept, ite_self]

theorem persistTrial_guardKept (s : State) : guardKept (persistTrial s) = guardKept s := by
  simp only [persistTrial]
  split <;> simp only [↓guardKept_mk, ↓guardKept_fold, ↓apply_ite guardKept, ite_self, ↓modSlot_guardKept]

theorem finalise_guardKept (s : State) : guardKept (finalise s) = guardKept s := by
  simp only [finalise, ↓guardKept_mk, ↓guardKept_fold, ↓apply_ite guardKept, ite_self]

theorem writeRec_guardKept (s : State) (j : JournalRec) : guardKept (writeRec s j) = guardKept s := by
  simp only [writeRec, ↓guardKept_mk, ↓guardKept_fold]

theorem writeCmdRec_guardKept (s : State) (j : JournalRec) : guardKept (writeCmdRec s j) = guardKept s := by
  simp only [writeCmdRec, ↓guardKept_mk, ↓guardKept_fold, ↓apply_ite guardKept, ite_self, ↓writeRec_guardKept]

theorem writeInternal_guardKept (s : State) (e : InternalRec) : guardKept (writeInternal s e) = guardKept s := by
  simp only [writeInternal, ↓guardKept_mk, ↓guardKept_fold, ↓apply_ite guardKept, ite_self, ↓writeRec_guardKept]

theorem writeLogs_guardKept (s : State) : guardKept (writeLogs s) = guardKept s := by
  simp only [writeLogs, ↓guardKept_mk, ↓guardKept_fold, ↓foldl_keeps guardKept, implies_true]

theorem writeJournal_guardKept (s : State) : guardKept (writeJournal s) = guardKept s := by
  simp only [writeJournal, ↓guardKept_mk, ↓guardKept_fold, ↓foldl_keeps guardKept, implies_true, ↓finalise_guardKept,
    ↓writeCmdRec_guardKept, ↓writeInternal_guardKept, ↓writeLogs_guardKept]

theorem writeControl_guardKept (s : State) : guardKept (writeControl s) = guardKept s := by
  simp only [writeControl, ↓guardKept_mk, ↓guardKept_fold]

theorem confirmStandby_guardKept (s : State) : guardKept (confirmStandby s) = guardKept s := by
  simp only [confirmStandby, ↓guardKept_mk, ↓guardKept_fold, ↓apply_ite guardKept, ite_self]

theorem completePersist_guardKept (s : State) : guardKept (completePersist s) = guardKept s := by
  simp only [completePersist, ↓guardKept_mk, ↓guardKept_fold, ↓confirmStandby_guardKept, ↓persistTrial_guardKept,
    ↓raiseAirCeilings_guardKept, ↓writeControl_guardKept, ↓writeJournal_guardKept]

theorem settlePersist_guardKept (s : State) : guardKept (settlePersist s) = guardKept s := by
  simp only [settlePersist, ↓guardKept_mk, ↓guardKept_fold, ↓apply_ite guardKept, ite_self, ↓completePersist_guardKept]

theorem openWindow_guardKept (s : State) (w : Window) : guardKept (openWindow s w) = guardKept s := by
  simp only [openWindow, ↓guardKept_mk, ↓guardKept_fold, ↓applyRequests_guardKept]

theorem noteReleased_guardKept (s : State) (l : List Packet) : guardKept (noteReleased s l) = guardKept s := by
  simp only [noteReleased, ↓guardKept_mk, ↓guardKept_fold, ↓foldl_keeps guardKept, implies_true, ↓freshNat_guardKept,
    ↓noteSent_guardKept]

theorem releaseSlot_guardKept (s : State) (slot : Nat) : guardKept (releaseSlot s slot) = guardKept s := by
  simp only [releaseSlot]
  split <;> simp only [↓guardKept_mk, ↓guardKept_fold, ↓noteReleased_guardKept]

theorem releasePackets_guardKept (s : State) : guardKept (releasePackets s) = guardKept s := by
  simp only [releasePackets, ↓guardKept_mk, ↓guardKept_fold, ↓foldl_keeps guardKept, implies_true, ↓noteReleased_guardKept,
    ↓releaseSlot_guardKept]

end Sys2Proof.Machine
end

section
/-! PROOFS. The boundary and the eight windows. -/

namespace Sys2Proof.Machine

open Sys2Proof

/-! ### What the bedrock holds -/

theorem clk_of_bedrock {s t : State} (h : bedrock t = bedrock s) : t.clk = s.clk := congrArg (fun b => b.2.2.2) h

theorem nv_of_bedrock {s t : State} (h : bedrock t = bedrock s) : t.nv = s.nv := congrArg (fun b => b.2.2.1) h

theorem fuse_of_root {s t : State} (h : root t = root s) : t.fuse = s.fuse := congrArg (fun b => b.2) h

theorem inbox_of_boundaryKept {s t : State} (h : boundaryKept t = boundaryKept s) : t.edtor.inbox = s.edtor.inbox :=
  congrArg (·.1) h

theorem latched_of_boundaryKept {s t : State} (h : boundaryKept t = boundaryKept s) : t.edtor.latched = s.edtor.latched :=
  congrArg (·.2.1) h

theorem unitsUsed_of_boundaryKept {s t : State} (h : boundaryKept t = boundaryKept s) : t.edtor.unitsUsed = s.edtor.unitsUsed :=
  congrArg (·.2.2) h

/-! ### The windows -/

theorem entersWindow_of_running {s : State} {w : Window} (hr : running s = true)
    (hw : windowCode s.clk.window < windowCode w) : entersWindow s w = true := by
  simp [entersWindow, hr, hw]

theorem openWindow_clk (s : State) (w : Window) : (openWindow s w).clk = { s.clk with window := w } :=
  (clk_of_bedrock (openWindow_bedrock s w) :)

/-! ### Closing an FC -/

theorem completePersist_clk (s : State) : (completePersist s).clk = s.clk := by
  simp only [completePersist, clk_of_bedrock (confirmStandby_bedrock _), clk_of_bedrock (writeControl_bedrock _),
    clk_of_bedrock (writeJournal_bedrock _), clk_of_bedrock (persistTrial_bedrock _), clk_of_bedrock (raiseAirCeilings_bedrock _)]

theorem settlePersist_clk (s : State) : (settlePersist s).clk = s.clk := by
  unfold settlePersist
  split
  · rfl
  split
  · rfl
  · exact completePersist_clk s

theorem closeFc_clk (s : State) : (closeFc s).clk = { s.clk with firstFc := false } := by
  simp only [closeFc, clk_of_bedrock (handOver_bedrock _), settlePersist_clk]

theorem closeFc_timeKept (s : State) : timeKept (closeFc s) = timeKept s := by
  simp only [closeFc, ↓timeKept_mk, ↓timeKept_fold, ↓handOver_timeKept, ↓settlePersist_timeKept]

theorem closeFc_boundaryKept (s : State) : boundaryKept (closeFc s) = (s.edtor.inbox, s.edtor.latched, 0) := by
  simp only [closeFc, ↓boundaryKept_mk, inbox_of_boundaryKept (handOver_boundaryKept _),
    latched_of_boundaryKept (handOver_boundaryKept _), inbox_of_boundaryKept (settlePersist_boundaryKept _),
    latched_of_boundaryKept (settlePersist_boundaryKept _)]

/-! ### The clock at a boundary -/

/-- Where the clock stands and whether this is its first FC. -/
def tick (s : State) : Counter × Bool := (s.clk.boundary, s.clk.firstFc)

theorem tick_mk (pending freeCtr fuse flash p nv bk clk cores mode supply edtor com queues time gnss ref buoy sess strt
    holds allot stop radio can ports sec upd) :
    tick (State.mk pending freeCtr fuse flash p nv bk clk cores mode supply edtor com queues time gnss ref buoy sess strt
      holds allot stop radio can ports sec upd) = (clk.boundary, clk.firstFc) := by unfold tick; rfl

theorem tick_fold (s : State) : (s.clk.boundary, s.clk.firstFc) = tick s := by unfold tick; rfl

theorem tick_of_bedrock {s t : State} (h : bedrock t = bedrock s) : tick t = tick s :=
  congrArg (fun c : Clock => (c.boundary, c.firstFc)) (clk_of_bedrock h)

theorem tick_fcPhase (s : State) (n : Nat) : tick { s with clk.fcPhase := n } = tick s := by
  rw [tick_mk, tick_fold]

theorem tick_fcLen (s : State) (n : Nat) : tick { s with clk.fcLen := n } = tick s := by
  rw [tick_mk, tick_fold]

theorem stepBoundary_tick (s : State) (b : Counter) (board encl : Int) :
    tick (stepBoundary s b board encl) = (b, s.clk.firstFc) :=
  calc
    _ = _ := tick_of_bedrock (selectReference_bedrock _)
    _ = _ := tick_of_bedrock (shiftAll_bedrock _ _)
    _ = _ := tick_fcPhase _ _
    _ = _ := tick_fcLen _ _
    _ = _ := tick_of_bedrock (settleTime_bedrock _ _)
    _ = _ := tick_of_bedrock (enterTimeState_bedrock _)
    _ = _ := tick_mk ..

theorem stepBoundary_clk (s : State) (b : Counter) (board encl : Int) :
    (stepBoundary s b board encl).clk.boundary = b ∧ (stepBoundary s b board encl).clk.firstFc = s.clk.firstFc :=
  Prod.mk.inj (stepBoundary_tick s b board encl)

theorem timeBoundary_clk (s : State) (b : Counter) (board encl : Int) :
    (timeBoundary s b board encl).clk = { s.clk with boundary := b, fcNumber := fcOfTime (fullTime s.time.regs b) } := by
  simp only [timeBoundary, clk_of_bedrock (settleTime_bedrock _ _), clk_of_bedrock (enterTimeState_bedrock _),
    clk_of_bedrock (latchReferences_bedrock _ _)]

theorem clockBoundary_clk {s : State} (i : BoundaryIn) (h : s.time.step = none) :
    (clockBoundary s i).clk.boundary = nextBoundary s ∧ (clockBoundary s i).clk.firstFc = s.clk.firstFc := by
  simp only [clockBoundary, h]
  split
  · exact stepBoundary_clk ..
  · simp only [timeBoundary_clk, and_self]

/-! ### The inputs latched -/

theorem modPort_boundaryKept (s : State) (p : Port) (f : PortCounters → PortCounters) :
    boundaryKept (modPort s p f) = boundaryKept s := by
  simp only [modPort, ↓boundaryKept_mk, ↓boundaryKept_fold]

theorem latchLimits_boundaryKept (s : State) : boundaryKept (latchLimits s) = boundaryKept s := by
  simp only [latchLimits, ↓foldl_keeps boundaryKept, implies_true, ↓modPort_boundaryKept, ↓boundaryKept_mk, ↓boundaryKept_fold]

/-- The inputs latched leave no command in the inbox, and each that was there is latched. -/
theorem latchInputs_edtor (s : State) :
    (latchInputs s).edtor.inbox = [] ∧ (latchInputs s).edtor.unitsUsed = s.edtor.unitsUsed
      ∧ (latchInputs s).edtor.latched.length = s.edtor.latched.length + s.edtor.inbox.length := by
  simp only [latchInputs, inbox_of_boundaryKept (latchLimits_boundaryKept s),
    latched_of_boundaryKept (latchLimits_boundaryKept s),
    unitsUsed_of_boundaryKept (latchLimits_boundaryKept s), List.length_append, List.length_map, and_self]

/-! ### FC_BOUNDARY -/

/-- The boundary's path from the FC closed to the inputs latched. -/
theorem opFcBoundary_latchInputs (s : State) (i : BoundaryIn) (hs : s.time.step = none) :
    let t := latchInputs (powerBoundary (openWindow (sensorBoundary (clockBoundary (closeFc s) i) i) .latch))
    t.clk.window = .latch ∧ t.clk.boundary = nextBoundary s ∧ t.clk.firstFc = false ∧ t.edtor.inbox = [] ∧ t.edtor.unitsUsed = 0
      ∧ t.edtor.latched.length = s.edtor.latched.length + s.edtor.inbox.length := by
  have hc : (closeFc s).time.step = none := by rw [show (closeFc s).time = s.time from closeFc_timeKept s, hs]
  obtain ⟨hb, hf⟩ := clockBoundary_clk i hc
  have hn : nextBoundary (closeFc s) = nextBoundary s := by simp only [nextBoundary, counterAt, closeFc_clk]
  have hk : boundaryKept (powerBoundary (openWindow (sensorBoundary (clockBoundary (closeFc s) i) i) .latch))
      = (s.edtor.inbox, s.edtor.latched, 0) := by
    rw [powerBoundary_boundaryKept, openWindow_boundaryKept, sensorBoundary_boundaryKept, clockBoundary_boundaryKept,
      closeFc_boundaryKept]
  have ho : (powerBoundary (openWindow (sensorBoundary (clockBoundary (closeFc s) i) i) .latch)).clk
      = { (sensorBoundary (clockBoundary (closeFc s) i) i).clk with window := .latch } := by
    rw [clk_of_bedrock (powerBoundary_bedrock _), openWindow_clk]
  generalize powerBoundary _ = u at hk ho ⊢
  obtain ⟨hi, hu, hl⟩ := latchInputs_edtor u
  simp only [boundaryKept, Prod.mk.injEq] at hk
  obtain ⟨ki, kl, ku⟩ := hk
  intro t
  rw [show t.clk = u.clk from clk_of_bedrock (latchInputs_bedrock u), ho]
  refine ⟨rfl, ?_, ?_, hi, hu.trans ku, by rw [hl, ki, kl]⟩
  · simp only [sensorBoundary, hb, hn]
  · simp only [sensorBoundary, hf, closeFc_clk]

/-- FC_BOUNDARY without a pending step: LATCH of the FC that begins one FC length on, with the inputs taken in. -/
theorem opFcBoundary_latches {s : State} (i : BoundaryIn) (hr : running s = true) (hm : (s.mode.cur == .still) = false)
    (hs : s.time.step = none) :
    let t := opFcBoundary i s
    t.clk.window = .latch ∧ t.clk.boundary = nextBoundary s ∧ t.clk.firstFc = false ∧ t.edtor.inbox = [] ∧ t.edtor.unitsUsed = 0
      ∧ t.edtor.latched.length = s.edtor.latched.length + s.edtor.inbox.length := by
  have h := opFcBoundary_latchInputs s i hs
  generalize hu : latchInputs _ = u at h
  have ho : opFcBoundary i s
      = noteAll (unitsBoundary (modeBoundary (supplyBoundary (checkLeases u) i.vinMv) (lullCond s)) i) := by
    simp only [opFcBoundary, hr, hm, ← hu, Bool.false_eq_true, ↓reduceIte, Bool.not_true]
  have hb : bedrock (opFcBoundary i s) = bedrock u := by
    rw [ho, noteAll_bedrock, unitsBoundary_bedrock, modeBoundary_bedrock, supplyBoundary_bedrock, checkLeases_bedrock]
  have hk : boundaryKept (opFcBoundary i s) = boundaryKept u := by
    rw [ho, noteAll_boundaryKept, unitsBoundary_boundaryKept, modeBoundary_boundaryKept, supplyBoundary_boundaryKept,
      checkLeases_boundaryKept]
  intro t
  rw [show t.clk = u.clk from clk_of_bedrock hb, show t.edtor.inbox = u.edtor.inbox from inbox_of_boundaryKept hk,
    show t.edtor.latched = u.edtor.latched from latched_of_boundaryKept hk,
    show t.edtor.unitsUsed = u.edtor.unitsUsed from unitsUsed_of_boundaryKept hk]
  exact h

/-! ### The work of a window that is entered -/

section
variable {s : State}

theorem opSafeWindow_entered (i : SafeIn) (h : entersWindow s .safe = true) :
    opSafeWindow i s = safeWork i (openWindow s .safe) := by
  simp only [opSafeWindow, h, ↓reduceIte]

theorem opSolveWindow_entered (i : SolveIn) (h : entersWindow s .solve = true) :
    opSolveWindow i s =
      let t := drainMsgs (drainMsgs (openWindow s .solve) 0x28 applySleep) 0x20 applyReport
      let t := if posAway t then t else posWork t i
      countReferences (if t.cores.posInvalid then voidPositions t else t) := by
  simp only [opSolveWindow, h, Bool.not_true, Bool.false_eq_true, ↓reduceIte]

theorem opCommandWindow_entered (h : entersWindow s .command = true) :
    opCommandWindow s =
      let t := openWindow (freezeTrigger s) .command
      let t := if t.cores.secOver || reloading t 7 then t else signStatements t
      if fltAway t then t else noteQueue (commandWork (evaluateTriggers t)) 0x40 := by
  simp only [opCommandWindow, h, Bool.not_true, Bool.false_eq_true, ↓reduceIte]

theorem opPlanWindow_entered (h : entersWindow s .plan = true) :
    opPlanWindow s =
      let t := applyAuxSet (applyTamper (openWindow s .plan))
      if fltAway t then t else noteQueue (noteQueue (planWork t) 0x40) 0x41 := by
  simp only [opPlanWindow, h, Bool.not_true, Bool.false_eq_true, ↓reduceIte]

theorem opEmitWindow_entered (h : entersWindow s .emit = true) : opEmitWindow s = emitAll (openWindow s .emit) := by
  simp only [opEmitWindow, h, Bool.not_true, Bool.false_eq_true, ↓reduceIte]

theorem opPersistWindow_entered (h : entersWindow s .persist = true) :
    opPersistWindow s =
      let t := countAvail (noteAll (fillQueues (openWindow s .persist)))
      if mramFog t then { t with com.withheld := false }
      else if fltAway t then { t with com.withheld := true }
      else persistWork t := by
  simp only [opPersistWindow, h, Bool.not_true, Bool.false_eq_true, ↓reduceIte]

theorem opGuardWindow_entered (h : entersWindow s .guard = true) :
    opGuardWindow s =
      let t := settlePersist { openWindow s .guard with com.packets := [] }
      let t := if lnkAway t then t else releaseCan t
      noteAll (if t.com.withheld || fltAway t || lnkAway t then t else releasePackets t) := by
  simp only [opGuardWindow, h, Bool.not_true, Bool.false_eq_true, ↓reduceIte]

end

/-! ### What stands on the bedrock of a window -/

theorem window_of_bedrock {s t : State} {w : Window} (h : bedrock t = bedrock { s with clk.window := w }) :
    t.clk = { s.clk with window := w } ∧ t.nv = s.nv ∧ t.fuse = s.fuse :=
  ⟨(clk_of_bedrock h :), (nv_of_bedrock h :), (fuse_of_root (root_of_bedrock h) :)⟩

theorem bedrock_window {s t : State} (w : Window) (h : bedrock t = bedrock s) :
    bedrock { t with clk.window := w } = bedrock { s with clk.window := w } := by
  rw [bedrock_mk, bedrock_mk]
  exact congrArg (fun b => (b.1, b.2.1, b.2.2.1, { b.2.2.2 with window := w })) h

section
variable {s : State}

theorem opSafeWindow_kept (i : SafeIn) (h : entersWindow s .safe = true) :
    bedrock (opSafeWindow i s) = bedrock { s with clk.window := .safe } ∧ safeKept (opSafeWindow i s) = safeKept s := by
  rw [opSafeWindow_entered i h, safeWork_bedrock, openWindow_bedrock, safeWork_safeKept, openWindow_safeKept]
  exact ⟨rfl, rfl⟩

theorem opSolveWindow_kept (i : SolveIn) (h : entersWindow s .solve = true) :
    bedrock (opSolveWindow i s) = bedrock { s with clk.window := .solve } ∧ solveKept (opSolveWindow i s) = solveKept s := by
  rw [opSolveWindow_entered i h, ← openWindow_bedrock s .solve, ← openWindow_solveKept s .solve]
  constructor
  · simp only [↓apply_ite bedrock, ↓countReferences_bedrock, ↓voidPositions_bedrock, ↓posWork_bedrock,
      ↓drainMsgs_bedrock _ _ _ applyReport_bedrock, ↓drainMsgs_bedrock _ _ _ applySleep_bedrock, ite_self]
  · simp only [↓apply_ite solveKept, ↓countReferences_solveKept, ↓voidPositions_solveKept, ↓posWork_solveKept,
      ↓drainMsgs_solveKept _ _ _ applyReport_solveKept, ↓drainMsgs_solveKept _ _ _ applySleep_solveKept, ite_self]

theorem opCommandWindow_kept (h : entersWindow s .command = true) :
    bedrock (opCommandWindow s) = bedrock { s with clk.window := .command } := by
  have hf : bedrock (openWindow (freezeTrigger s) .command) = bedrock { s with clk.window := .command } :=
    (openWindow_bedrock ..).trans (bedrock_window .command (freezeTrigger_bedrock s))
  rw [opCommandWindow_entered h, ← hf]
  simp only [↓apply_ite bedrock, ↓noteQueue_bedrock, ↓commandWork_bedrock, ↓evaluateTriggers_bedrock, ↓signStatements_bedrock,
    ite_self]

theorem opPlanWindow_kept (h : entersWindow s .plan = true) :
    bedrock (opPlanWindow s) = bedrock { s with clk.window := .plan } ∧ planKept (opPlanWindow s) = planKept s := by
  rw [opPlanWindow_entered h, ← openWindow_bedrock s .plan, ← openWindow_planKept s .plan]
  constructor
  · simp only [↓apply_ite bedrock, ↓noteQueue_bedrock, ↓planWork_bedrock, ↓applyAuxSet_bedrock, ↓applyTamper_bedrock, ite_self]
  · simp only [↓apply_ite planKept, ↓noteQueue_planKept, ↓planWork_planKept, ↓applyAuxSet_planKept, ↓applyTamper_planKept,
      ite_self]

theorem opEmitWindow_kept (h : entersWindow s .emit = true) :
    bedrock (opEmitWindow s) = bedrock { s with clk.window := .emit } ∧ emitKept (opEmitWindow s) = emitKept s := by
  rw [opEmitWindow_entered h, emitAll_bedrock, openWindow_bedrock, emitAll_emitKept, openWindow_emitKept]
  exact ⟨rfl, rfl⟩

theorem opPersistWindow_kept (h : entersWindow s .persist = true) :
    bedrock (opPersistWindow s) = bedrock { s with clk.window := .persist }
      ∧ persistKept (opPersistWindow s) = persistKept s := by
  rw [opPersistWindow_entered h, ← openWindow_bedrock s .persist, ← openWindow_persistKept s .persist]
  constructor
  · simp only [↓apply_ite bedrock, ↓bedrock_mk, ↓bedrock_fold, ↓persistWork_bedrock, ↓countAvail_bedrock, ↓noteAll_bedrock,
      ↓fillQueues_bedrock,
      ite_self]
  · simp only [↓apply_ite persistKept, ↓persistKept_mk, ↓persistKept_fold, ↓persistWork_persistKept, ↓countAvail_persistKept,
      ↓noteAll_persistKept, ↓fillQueues_persistKept, ite_self]

/-- In MRAM-fault FOG the FC is not withheld. -/
theorem opPersistWindow_withheld (h : entersWindow s .persist = true) (hf : mramFog s = true) :
    (opPersistWindow s).com.withheld = false := by
  have hk : persistKept (countAvail (noteAll (fillQueues (openWindow s .persist)))) = persistKept s := by
    rw [countAvail_persistKept, noteAll_persistKept, fillQueues_persistKept, openWindow_persistKept]
  have hm : mramFog (countAvail (noteAll (fillQueues (openWindow s .persist)))) = true := by
    simp only [persistKept, Prod.mk.injEq] at hk
    obtain ⟨-, -, hc, hg⟩ := hk
    rw [← hf]
    simp only [mramFog, hc, hg]
  rw [opPersistWindow_entered h]
  simp only [hm, ↓reduceIte]

theorem settlePersist_owed (s : State) : persistOwed (settlePersist s) = false := by
  unfold settlePersist
  split
  · next h => simpa [persistOwed] using h
  split
  · rw [persistOwed_mk]
  · simp only [completePersist, ↓persistOwed_mk]

theorem opGuardWindow_kept (h : entersWindow s .guard = true) :
    (opGuardWindow s).clk = { s.clk with window := .guard } ∧ persistOwed (opGuardWindow s) = false
      ∧ guardKept (opGuardWindow s) = guardKept s := by
  rw [opGuardWindow_entered h]
  refine ⟨?_, ?_, ?_⟩
  · simp only [apply_ite State.clk, clk_of_bedrock (noteAll_bedrock _), clk_of_bedrock (releasePackets_bedrock _),
      clk_of_bedrock (releaseCan_bedrock _), settlePersist_clk, openWindow_clk, ite_self]
  · simp only [↓apply_ite persistOwed, ↓noteAll_persistOwed, ↓releasePackets_persistOwed, ↓releaseCan_persistOwed,
      settlePersist_owed,
      ite_self]
  · simp only [↓apply_ite guardKept, ↓noteAll_guardKept, ↓releasePackets_guardKept, ↓releaseCan_guardKept,
      ↓settlePersist_guardKept,
      ↓guardKept_mk, ↓guardKept_fold, ↓openWindow_guardKept, ite_self]

end

/-- Settles O55: each window's work keeps the view of its window, and all but FC_BOUNDARY and GUARD keep the bedrock. -/
theorem eachWindowOpensAndCommitsNothingElsewhere : Obligations.EachWindowOpensAndCommitsNothingElsewhere := by
  unfold Obligations.EachWindowOpensAndCommitsNothingElsewhere
  refine ⟨fun s i hr hm hs => ?_, fun s i hr hw => ?_, fun s i hr hw => ?_, fun s hr hw => ?_, fun s hr hw => ?_,
    fun s hr hw => ?_,
    fun s hr hw => ?_, fun s hr hw => ?_⟩
  · obtain ⟨hwin, hb, hf, hi, hu, hl⟩ := opFcBoundary_latches i hr hm hs
    exact ⟨_, rfl, hwin, hb, hf, hi, hu, hl, fuse_of_root (opFcBoundary_root i s)⟩
  · obtain ⟨hb, hk⟩ := opSafeWindow_kept i (entersWindow_of_running hr hw)
    obtain ⟨hc, hn, -⟩ := window_of_bedrock hb
    simp only [safeKept, Prod.mk.injEq] at hk
    obtain ⟨hp, he, hm⟩ := hk
    exact ⟨_, rfl, hc, hp, hn, he, hm⟩
  · obtain ⟨hb, hk⟩ := opSolveWindow_kept i (entersWindow_of_running hr hw)
    obtain ⟨hc, hn, -⟩ := window_of_bedrock hb
    simp only [solveKept, Prod.mk.injEq] at hk
    exact ⟨_, rfl, hc, hn, hk⟩
  · exact ⟨_, rfl, window_of_bedrock (opCommandWindow_kept (entersWindow_of_running hr hw))⟩
  · obtain ⟨hb, hk⟩ := opPlanWindow_kept (entersWindow_of_running hr hw)
    obtain ⟨hc, hn, -⟩ := window_of_bedrock hb
    simp only [planKept, Prod.mk.injEq] at hk
    exact ⟨_, rfl, hc, hn, hk⟩
  · obtain ⟨hb, hk⟩ := opEmitWindow_kept (entersWindow_of_running hr hw)
    obtain ⟨hc, hn, -⟩ := window_of_bedrock hb
    simp only [emitKept, Prod.mk.injEq] at hk
    exact ⟨_, rfl, hc, hn, hk⟩
  · have he := entersWindow_of_running hr hw
    obtain ⟨hb, hk⟩ := opPersistWindow_kept he
    obtain ⟨hc, hn, -⟩ := window_of_bedrock hb
    simp only [persistKept, Prod.mk.injEq] at hk
    obtain ⟨hh, ht, -⟩ := hk
    exact ⟨_, rfl, hc, hn, hh, ht, opPersistWindow_withheld he⟩
  · obtain ⟨hc, ho, hk⟩ := opGuardWindow_kept (entersWindow_of_running hr hw)
    simp only [guardKept, Prod.mk.injEq] at hk
    obtain ⟨hcsn, hbk, hh, ht⟩ := hk
    exact ⟨_, rfl, hc, hcsn, ho, hbk, hh, ht⟩

theorem entersWindow_of_late {s : State} {w : Window} (hw : windowCode w ≤ windowCode s.clk.window) :
    entersWindow s w = false := by
  simp [entersWindow, hw]

theorem passWindow_of_late {s : State} {w : Window} (hw : windowCode w ≤ windowCode s.clk.window) : passWindow s w = s := by
  simp [passWindow, Nat.not_lt.mpr hw]

/-- Settles O34: a window command looks at the window the FC stands in, and at nothing else, to do its work or none. -/
theorem theEightWindowsRunInOrder : Obligations.TheEightWindowsRunInOrder := by
  unfold Obligations.TheEightWindowsRunInOrder
  refine ⟨fun s i hr hm => ?_, fun s i hs hb => ?_, fun s i hr hw => ?_, fun s i hr hw => ?_, fun s hr hw => ?_,
    fun s hr hw => ?_,
    fun s hr hw => ?_, fun s hr hw => ?_, fun s hr hw => ?_, fun s i j w h => ?_⟩
  · refine congrArg Host.Outcome.next ?_
    simp only [opFcBoundary, hr, hm, Bool.false_eq_true, ↓reduceIte, Bool.not_true]
  · simp only [clockBoundary, hs, hb, ↓reduceIte, fcNow, timeBoundary_clk, and_self]
  · exact congrArg Host.Outcome.next (opSafeWindow_entered i (entersWindow_of_running hr hw))
  · exact congrArg Host.Outcome.next (opSolveWindow_entered i (entersWindow_of_running hr hw))
  · exact congrArg Host.Outcome.next (opCommandWindow_entered (entersWindow_of_running hr hw))
  · exact congrArg Host.Outcome.next (opPlanWindow_entered (entersWindow_of_running hr hw))
  · exact congrArg Host.Outcome.next (opEmitWindow_entered (entersWindow_of_running hr hw))
  · exact congrArg Host.Outcome.next (opPersistWindow_entered (entersWindow_of_running hr hw))
  · exact congrArg Host.Outcome.next (opGuardWindow_entered (entersWindow_of_running hr hw))
  · subst h
    refine ⟨fun hw => congrArg Host.Outcome.next ?_, fun hw => congrArg Host.Outcome.next ?_,
      fun hw => congrArg Host.Outcome.next ?_,
      fun hw => congrArg Host.Outcome.next ?_, fun hw => congrArg Host.Outcome.next ?_, fun hw => congrArg Host.Outcome.next ?_,
      fun hw => congrArg Host.Outcome.next ?_⟩
    · simp only [opSafeWindow, entersWindow_of_late hw, passWindow_of_late hw, Bool.false_eq_true, ↓reduceIte]
    · simp only [opSolveWindow, entersWindow_of_late hw, passWindow_of_late hw, Bool.not_false, ↓reduceIte]
    · simp only [opCommandWindow, entersWindow_of_late hw, passWindow_of_late hw, Bool.not_false, ↓reduceIte]
    · simp only [opPlanWindow, entersWindow_of_late hw, passWindow_of_late hw, Bool.not_false, ↓reduceIte]
    · simp only [opEmitWindow, entersWindow_of_late hw, passWindow_of_late hw, Bool.not_false, ↓reduceIte]
    · simp only [opPersistWindow, entersWindow_of_late hw, passWindow_of_late hw, Bool.not_false, ↓reduceIte]
    · simp only [opGuardWindow, entersWindow_of_late hw, passWindow_of_late hw, Bool.not_false, ↓reduceIte]

end Sys2Proof.Machine
end

section
/-! PROOFS. The stop path. What `changeStop` leaves behind (`Laws.changeStop_same`), read field by field, gives the effect of
every event that changes the channels. -/

namespace Sys2Proof.Machine

open Sys2Proof

/-! ### After a change of the stop path -/

section
variable (s : State) (pclk : Nat) (f : State → State)

theorem changeStop_p : (changeStop s pclk f).p = (f s).p := by rw [(Laws.changeStop_same s pclk f).1.rest]

theorem changeStop_chans : (changeStop s pclk f).stop.chans = (f s).stop.chans := (Laws.changeStop_same s pclk f).1.chans

theorem changeStop_chanAt (k : Nat) : chanAt (changeStop s pclk f) k = chanAt (f s) k := by
  simp only [chanAt, changeStop_chans]

theorem changeStop_slAt (i : Nat) : slAt (changeStop s pclk f) i = slAt (f s) i := by
  simp only [slAt, (Laws.changeStop_same s pclk f).1.slA, (Laws.changeStop_same s pclk f).1.slB]

theorem changeStop_switches : (changeStop s pclk f).stop.sw1 = (changeStop s pclk f).stop.sw2 :=
  (Laws.changeStop_same s pclk f).2.1.same

theorem voted_of_changeStop_sw1 (h : (changeStop s pclk f).stop.sw1 = true) : (changeStop s pclk f).stop.voted = true := by
  rw [(Laws.changeStop_same s pclk f).2.1.on, Bool.and_eq_true, Bool.and_eq_true] at h
  exact h.1.1

theorem changeStop_leadFor : leadFor (changeStop s pclk f) = leadFor (f s) := by
  have hc : fcNow (changeStop s pclk f) = fcNow (f s) := by
    unfold fcNow
    rw [(Laws.changeStop_same s pclk f).1.rest]
  simp only [leadFor, hc, changeStop_chanAt]

/-- Both switches stand open where an output is faulty or a channel has lost its clock. -/
theorem changeStop_open (h : (f s).stop.outputFault = true ∨ (f s).stop.chans.any (·.clockLost) = true) :
    (changeStop s pclk f).stop.sw1 = false ∧ (changeStop s pclk f).stop.sw2 = false := by
  have h1 : (changeStop s pclk f).stop.sw1 = false := by
    rw [(Laws.changeStop_same s pclk f).2.1.on, (Laws.changeStop_same s pclk f).1.outputFault, changeStop_chans]
    rcases h with h | h <;> simp [h]
  exact ⟨h1, changeStop_switches s pclk f ▸ h1⟩

end

/-! ### One channel, one input, the lead -/

theorem chanAt_modSaf_same {s : State} {c : Nat} (f : Channel3 → Channel3) (h : c < s.stop.chans.length) :
    chanAt (modSaf s c f) c = f (chanAt s c) := by
  simp [chanAt, modSaf, lmod, List.getD_eq_getElem?_getD, h]

theorem chanAt_modSaf_other (s : State) {c k : Nat} (f : Channel3 → Channel3) (h : k ≠ c) :
    chanAt (modSaf s c f) k = chanAt s k := by
  simp [chanAt, modSaf, lmod, List.getD_eq_getElem?_getD, Ne.symm h]

theorem modSaf_chans_length (s : State) (c : Nat) (f : Channel3 → Channel3) :
    (modSaf s c f).stop.chans.length = s.stop.chans.length := by
  simp [modSaf, lmod]

theorem chanAt_mem {s : State} {c : Nat} (h : c < s.stop.chans.length) : chanAt s c ∈ s.stop.chans := by
  simp [chanAt, List.getD_eq_getElem?_getD, h]

theorem chanState_chans (s : State) (c : Nat) (new : ChState) (reason testId pclk : Nat) :
    (chanState s c new reason testId pclk).stop.chans = (modSaf s c fun x => { x with state := new }).stop.chans := rfl

/-- The channel has lost its clock: what CLOCK_LOSS does before the vote is taken. -/
def loseClock (c : Nat) (s : State) : State :=
  modSaf s c fun x => { x with clockLost := true, latched := x.latched ||| cause 8, active := x.active ||| cause 8 }

theorem loseClock_clockLost {s : State} {c : Nat} (hl : c < s.stop.chans.length) :
    (loseClock c s).stop.chans.any (·.clockLost) = true := by
  refine List.any_eq_true.mpr ⟨chanAt (loseClock c s) c, chanAt_mem ?_, ?_⟩
  · rwa [loseClock, modSaf_chans_length]
  · rw [loseClock, chanAt_modSaf_same _ hl]

/-- The channel votes again: what CHANNEL_REJOIN does before the vote is taken. -/
def rejoin (c : Nat) (s : State) : State :=
  modSaf (chanState s c .voting 6 0 0) c fun x => { x with
    planned := false
    matchFc := 0
    rejoins := if x.planned then x.rejoins else x.rejoins.filter (fun f => decide (fcNow s < f + dayFc)) ++ [fcNow s] }

/-- The channel leaves the vote for its planned test. -/
def leaveForTest (c : Nat) (s : State) : State :=
  modSaf (chanState s c .testing 5 0 0) c fun x => { x with planned := true, leftFc := 12, matchFc := 0, testPassed := true }

/-- A channel whose state is noted and that is changed then: that one changes, the others stay. -/
theorem chanAt_modSaf_chanState {s : State} {c : Nat} (hl : c < s.stop.chans.length) (new : ChState) (reason : Nat)
    (f : Channel3 → Channel3) :
    chanAt (modSaf (chanState s c new reason 0 0) c f) c = f { chanAt s c with state := new }
      ∧ ∀ k, k ≠ c → chanAt (modSaf (chanState s c new reason 0 0) c f) k = chanAt s k := by
  have hc : ∀ k, chanAt (chanState s c new reason 0 0) k = chanAt (modSaf s c fun x => { x with state := new }) k := fun k => rfl
  refine ⟨?_, fun k hk => ?_⟩
  · rw [chanAt_modSaf_same _ (by rwa [chanState_chans, modSaf_chans_length]), hc, chanAt_modSaf_same _ hl]
  · rw [chanAt_modSaf_other _ _ hk, hc, chanAt_modSaf_other _ _ hk]

theorem rejoin_chanAt {s : State} {c : Nat} (hl : c < s.stop.chans.length) :
    (chanAt (rejoin c s) c).state = .voting ∧ (chanAt (rejoin c s) c).matchFc = 0 ∧ (chanAt (rejoin c s) c).planned = false
      ∧ ∀ k, k ≠ c → chanAt (rejoin c s) k = chanAt s k := by
  obtain ⟨hsame, hother⟩ := chanAt_modSaf_chanState hl .voting 6 _
  exact ⟨congrArg Channel3.state hsame, congrArg Channel3.matchFc hsame, congrArg Channel3.planned hsame, hother⟩

theorem leaveForTest_chanAt {s : State} {c : Nat} (hl : c < s.stop.chans.length) :
    (chanAt (leaveForTest c s) c).state = .testing ∧ (chanAt (leaveForTest c s) c).planned = true
      ∧ (chanAt (leaveForTest c s) c).leftFc = 12 ∧ ∀ k, k ≠ c → chanAt (leaveForTest c s) k = chanAt s k := by
  obtain ⟨hsame, hother⟩ := chanAt_modSaf_chanState hl .testing 5 _
  exact ⟨congrArg Channel3.state hsame, congrArg Channel3.planned hsame, congrArg Channel3.leftFc hsame, hother⟩

theorem passLead_lead (s : State) : (passLead s).stop.lead = leadFor s := by
  unfold passLead
  extract_lets l
  split
  · next h => exact h.symm
  · rfl

theorem passLead_other (s : State) :
    (passLead s).stop.chans = s.stop.chans ∧ (passLead s).stop.voted = s.stop.voted ∧ (passLead s).stop.sw1 = s.stop.sw1
      ∧ (passLead s).stop.sw2 = s.stop.sw2 ∧ (passLead s).p = s.p ∧ (passLead s).clk = s.clk := by
  unfold passLead
  extract_lets l
  split <;> exact ⟨rfl, rfl, rfl, rfl, rfl, rfl⟩

theorem passLead_leadFor (s : State) : leadFor (passLead s) = leadFor s := by
  obtain ⟨hc, -, -, -, -, hk⟩ := passLead_other s
  simp only [leadFor, fcNow, chanAt, hc, hk]

theorem passLead_changeStop (s : State) (pclk : Nat) (f : State → State) :
    let t := passLead (changeStop s pclk f)
    (∀ k, chanAt t k = chanAt (f s) k) ∧ t.stop.sw1 = t.stop.sw2 ∧ t.p = (f s).p := by
  obtain ⟨hch, -, h1, h2, hp, -⟩ := passLead_other (changeStop s pclk f)
  refine ⟨fun k => ?_, by rw [h1, h2, changeStop_switches], hp.trans (changeStop_p s pclk f)⟩
  rw [← changeStop_chanAt s pclk f]
  simp only [chanAt, hch]

theorem slAt_modSl_same (s : State) (i : Nat) (f : SlInput → SlInput) : slAt (modSl s i f) i = f (slAt s i) := by
  unfold slAt modSl
  split <;> rfl

theorem slAt_modSl_other (s : State) {i k : Nat} (hi : i < 2) (hk : k < 2) (h : k ≠ i) (f : SlInput → SlInput) :
    slAt (modSl s i f) k = slAt s k := by
  obtain ⟨rfl, rfl⟩ | ⟨rfl, rfl⟩ : (i = 0 ∧ k = 1) ∨ (i = 1 ∧ k = 0) := by omega
  all_goals rfl

theorem slAt_latchSite (s : State) (b : Nat) (a : Bool) (i : Nat) : slAt (latchSite b a s) i = slAt s i := rfl

/-- What a test pulse leaves of the input it is checked on. -/
def pulsed (src : Nat) (lows : List Bool) (i : Nat) (x : SlInput) : SlInput :=
  if x.mode = 1 ∧ (pulsePasses x.high1 (src == 2 * i) (lows.getD (2 * i) false)
      && pulsePasses x.high2 (src == 2 * i + 1) (lows.getD (2 * i + 1) false)) = false
  then { x with pulseOk := false, fault := true, sawOpen := false } else x

theorem checkPulse_same (src : Nat) (lows : List Bool) (s : State) (i : Nat) :
    slAt (checkPulse src lows s i) i = pulsed src lows i (slAt s i) := by
  unfold checkPulse pulsed
  extract_lets x
  split
  · next h => rw [if_neg (fun hc => by simp [x, hc.1] at h)]
  split
  · next h => rw [if_neg (fun hc => by rw [hc.2] at h; cases h)]
  · next hm h =>
    rw [if_pos ⟨by simpa [x] using hm, by simpa [x] using h⟩, slFault, slAt_latchSite, slAt_modSl_same, slAt_modSl_same]

theorem checkPulse_other (src : Nat) (lows : List Bool) (s : State) {i k : Nat} (hi : i < 2) (hk : k < 2) (h : k ≠ i) :
    slAt (checkPulse src lows s i) k = slAt s k := by
  unfold checkPulse
  extract_lets x
  split
  · rfl
  split
  · rfl
  · rw [slFault, slAt_latchSite, slAt_modSl_other _ hi hk h, slAt_modSl_other _ hi hk h]

theorem checkPulses_slAt (src : Nat) (lows : List Bool) (s : State) {i : Nat} (hi : i < 2) :
    slAt ([0, 1].foldl (checkPulse src lows) s) i = pulsed src lows i (slAt s i) := by
  simp only [List.foldl_cons, List.foldl_nil]
  obtain rfl | rfl : i = 0 ∨ i = 1 := by omega
  · rw [checkPulse_other _ _ _ (by decide) (by decide) (by decide), checkPulse_same]
  · rw [checkPulse_same, checkPulse_other _ _ _ (by decide) (by decide) (by decide)]

theorem checkPulse_p (src : Nat) (lows : List Bool) (s : State) (i : Nat) : (checkPulse src lows s i).p = s.p := by
  unfold checkPulse slFault modSl
  extract_lets x
  split
  · rfl
  split
  · rfl
  · split <;> rfl

/-- The SEQ and the record that a stop datagram leaves in the filter. -/
def notedStop (s : State) (wait slot : Nat) (e : FilterEntry) (o : Datagram) : State :=
  { s with
    stop.filter := tput s.stop.filter slot { e with seq := hSeq o }
    stop.filterRecs := s.stop.filterRecs
      ++ [{ sessionId := e.sessionId, seq := hSeq o, time := timeAt s (o.pclk + 876 + min wait 1724) }] }

/-! ### Each event while the firmware runs -/

section
variable {s : State}

theorem opSlInput_running {pclk : Nat} (inp line : Nat) (hr : running s = true) (hp : inFc s pclk = true) :
    opSlInput inp line pclk s = changeStop (modSl s inp fun x => { x with
      open1 := x.open1 || line == 0
      open2 := x.open2 || line == 1
      openCond := true
      okRun := 0 }) (pclk + 2) (latchSite inp true) := by
  simp only [opSlInput, hr, hp, Bool.not_true, Bool.or_self, Bool.false_eq_true, ↓reduceIte]

theorem opClockLoss_running {pclk : Nat} (c : Nat) (hr : running s = true) (hp : inFc s pclk = true) :
    opClockLoss c pclk s = changeStop s pclk (loseClock c) := by
  simp only [opClockLoss, hr, hp, Bool.not_true, Bool.or_self, Bool.false_eq_true, ↓reduceIte]
  rfl

theorem opStopFilter_hit {d o : Datagram} {slot : Nat} {e : FilterEntry} (wait : Nat) (hr : running s = true)
    (hp : inFc s d.pclk = true) (hu : toUs s d = true) (hh : filterHeader d = true) (he : filterHit d s = some (slot, e, o)) :
    opStopFilter d wait s = changeStop (notedStop s wait slot e o) (o.pclk + 876 + min wait 1724)
      (if hOpcode o == 0x0901 then latchSite 4 false else latchRobot (fld o.bytes 32 1) 1) := by
  simp only [opStopFilter, hr, hp, hu, hh, he, Bool.not_true, Bool.or_self, Bool.false_eq_true, ↓reduceIte]
  rfl

theorem opStopFilter_miss {d : Datagram} (wait : Nat) (hr : running s = true) (hp : inFc s d.pclk = true) (hu : toUs s d = true)
    (h : filterHeader d = false ∨ filterHit d s = none) :
    opStopFilter d wait s = { s with stop.filterReject := inc32 s.stop.filterReject } := by
  have hn : (if filterHeader d then filterHit d s else none) = none := by
    rcases h with h | h <;> simp [h]
  simp only [opStopFilter, hr, hp, hu, hn, Bool.not_true, Bool.or_self, Bool.false_eq_true, ↓reduceIte]

theorem opInputTestPulse_running {src : Nat} (lows : List Bool) (hr : running s = true) (hw : s.clk.window = pulseWindow src)
    (hm : (slAt s (src / 2)).mode = 1) :
    opInputTestPulse src lows s = changeStop s (pulseStart src + 1252) fun s => [0, 1].foldl (checkPulse src lows) s := by
  simp [opInputTestPulse, hr, hw, hm]

theorem opSloutTestPulse_first {fell rose : Bool} (hr : running s = true) (hw : s.clk.window = .plan) (hv : s.stop.voted = true)
    (h1 : s.stop.sw1 = true) (hf : fcNow s % 100 = 50) (hp : (fell && rose) = false) :
    opSloutTestPulse fell rose s =
      { changeStop s (if fell then 673920 else 649000) outputFaulty with stop.readback := (!fell, false) } := by
  simp [opSloutTestPulse, hr, hw, hv, h1, hf, hp]

theorem opChannelRejoin_ready {c : Nat} (hr : running s = true) (hw : s.clk.window = .latch)
    (hs : (chanAt s c).state = .rejoining)
    (hm : (if (chanAt s c).planned then 10 else 100) ≤ (chanAt s c).matchFc) :
    opChannelRejoin c s = passLead (changeStop s 2 (rejoin c)) := by
  simp only [opChannelRejoin, hr, hw, hs, Nat.not_lt.mpr hm, Bool.not_true, bne_self_eq_false, Bool.or_self, decide_false,
    Bool.false_eq_true, ↓reduceIte]
  rfl

theorem opPlannedSelfTest_turn {c : Nat} (hr : running s = true) (hw : s.clk.window = .latch) (hv : votingCount s = 3)
    (hc : c < 3)
    (hf : fcNow s % 2880000 = 960000 * c + 30000) : opPlannedSelfTest s = plannedTest c s := by
  have hfind : ((List.range 3).find? fun c => fcNow s % 2880000 == 960000 * c + 30000) = some c := by
    rw [hf]
    obtain rfl | rfl | rfl : c = 0 ∨ c = 1 ∨ c = 2 := by omega
    all_goals rfl
  simp [opPlannedSelfTest, hr, hw, hv, hfind]

theorem opLeadChange_running (hr : running s = true) (hw : s.clk.window = .latch) : opLeadChange s = passLead s := by
  simp [opLeadChange, hr, hw]

theorem opReleaseApply_confirmed {site : Bool} {robot : Nat} (hr : running s = true) (hw : s.clk.window = .safe)
    (h : s.stop.release = some (site, robot)) :
    opReleaseApply s = changeStop { s with stop.release := none } 124802 (clearLatches site robot) := by
  simp [opReleaseApply, hr, hw, h]

theorem opFltSwap_hour (hr : running s = true) (hw : s.clk.window = .latch) (hh : fcNow s % 360000 = 0)
    (hs : s.cores.swapFc ≠ some (fcNow s)) :
    opFltSwap s =
      let ok := s.cores.standbyReady && s.cores.lastGood + 1 == fcNow s
      let new := if ok then 1 - s.cores.active else s.cores.active
      { s with
        cores.swapFc := some (fcNow s)
        cores.active := new
        cores.resultsFrom := new
        stop.evs.flt := s.stop.evs.flt ++ [(new, if ok then 1 else 3, fcNow s)] } := by
  simp [opFltSwap, hr, hw, hh, hs]

end

/-- Settles O52, event by event: the equation of the event while the firmware runs, and what `changeStop` leaves behind. -/
theorem stopPathEventsTakeEffect : Obligations.StopPathEventsTakeEffect := by
  unfold Obligations.StopPathEventsTakeEffect
  refine ⟨fun s inp line pclk hr hin hp => ?_, fun s c pclk hr hc hl hp => ?_, fun s d o wait slot e hr hp hu hh he => ?_,
    fun s d wait hr hp hu hm => ?_, fun s src lows hr hs hw hm => ?_, fun s fell rose hr hw hv h1 hf hp => ?_,
    fun s c hr hc hl hw hs hm => ?_, fun s c hr hw hv hc hl hf => ?_, fun s hr hw => ?_, fun s site robot hr hw h => ?_,
    fun s hr hw hh hs => ?_⟩
  · refine ⟨opSlInput inp line pclk s, by simp [exec, execSlInput, hin], ?_⟩
    rw [opSlInput_running inp line hr hp]
    refine ⟨?_, ?_, ?_, changeStop_switches .., voted_of_changeStop_sw1 _ _ _, ?_⟩
    · rw [changeStop_chans]
      unfold modSl
      split <;> rfl
    · rw [changeStop_slAt, slAt_latchSite, slAt_modSl_same]
    · rw [changeStop_slAt, slAt_latchSite, slAt_modSl_same]
    · rw [changeStop_p]
      unfold modSl
      split <;> rfl
  · refine ⟨opClockLoss c pclk s, by simp [exec, execClockLoss, hc], ?_⟩
    rw [opClockLoss_running c hr hp]
    obtain ⟨hs1, hs2⟩ := changeStop_open s pclk (loseClock c) (.inr (loseClock_clockLost hl))
    refine ⟨?_, fun k hk => ?_, hs1, hs2, changeStop_p ..⟩
    · rw [changeStop_chanAt, loseClock, chanAt_modSaf_same _ hl]
    · rw [changeStop_chanAt, loseClock, chanAt_modSaf_other _ _ hk]
  · refine ⟨opStopFilter d wait s, rfl, ?_⟩
    rw [opStopFilter_hit wait hr hp hu hh he]
    by_cases hop : hOpcode o = 0x0901
    · rw [if_pos (beq_iff_eq.mpr hop)]
      obtain ⟨hsame, -, -⟩ := Laws.changeStop_same (notedStop s wait slot e o) (o.pclk + 876 + min wait 1724) (latchSite 4 false)
      exact ⟨hsame.filterRecs, hsame.filter ▸ tget_tput_same .., hsame.filterReject, fun _ => hsame.chans,
        fun hn => absurd hop hn⟩
    · rw [if_neg (mt beq_iff_eq.mp hop)]
      obtain ⟨hsame, -, -⟩ := Laws.changeStop_same (notedStop s wait slot e o) (o.pclk + 876 + min wait 1724)
        (latchRobot (fld o.bytes 32 1) 1)
      exact ⟨hsame.filterRecs, hsame.filter ▸ tget_tput_same .., hsame.filterReject, fun hn => absurd hn hop,
        fun _ => hsame.chans⟩
  · refine ⟨opStopFilter d wait s, rfl, ?_⟩
    rw [opStopFilter_miss wait hr hp hu hm]
    exact ⟨rfl, rfl, rfl, rfl⟩
  · refine ⟨opInputTestPulse src lows s, by simp [exec, execInputTestPulse, hs], ?_⟩
    rw [opInputTestPulse_running lows hr hw hm]
    refine ⟨fun i hi => ?_, changeStop_switches .., ?_⟩
    · rw [changeStop_slAt, checkPulses_slAt _ _ _ hi]
      rfl
    · rw [changeStop_p]
      simp only [List.foldl_cons, List.foldl_nil, checkPulse_p]
  · refine ⟨opSloutTestPulse fell rose s, rfl, ?_⟩
    rw [opSloutTestPulse_first hr hw hv h1 hf hp]
    obtain ⟨hs1, hs2⟩ := changeStop_open s (if fell then 673920 else 649000) outputFaulty (.inl rfl)
    exact ⟨(Laws.changeStop_same ..).1.outputFault, hs1, hs2, rfl, changeStop_chans ..⟩
  · refine ⟨opChannelRejoin c s, by simp [exec, execChannelRejoin, hc], ?_⟩
    rw [opChannelRejoin_ready hr hw hs hm]
    obtain ⟨hstate, hmatch, hplan, hother⟩ := rejoin_chanAt hl
    obtain ⟨hat, hsw, hp⟩ := passLead_changeStop s 2 (rejoin c)
    rw [hat]
    exact ⟨hstate, hmatch, hplan, fun k hk => (hat k).trans (hother k hk), hsw, hp⟩
  · refine ⟨opPlannedSelfTest s, rfl, ?_⟩
    rw [opPlannedSelfTest_turn hr hw hv hc hf]
    obtain ⟨hstate, hplan, hleft, hother⟩ := leaveForTest_chanAt hl
    obtain ⟨hat, -, hp⟩ := passLead_changeStop s 2 (leaveForTest c)
    refine ⟨?_, ?_, ?_, fun k hk => (hat k).trans (hother k hk), (passLead_lead _).trans (passLead_leadFor _).symm, hp⟩
    · exact (congrArg Channel3.state (hat c)).trans hstate
    · exact (congrArg Channel3.planned (hat c)).trans hplan
    · exact (congrArg Channel3.leftFc (hat c)).trans hleft
  · refine ⟨opLeadChange s, rfl, ?_⟩
    rw [opLeadChange_running hr hw]
    obtain ⟨hc, hv, h1, -, hp, -⟩ := passLead_other s
    exact ⟨passLead_lead s, hc, hv, h1, hp⟩
  · refine ⟨opReleaseApply s, rfl, ?_⟩
    rw [opReleaseApply_confirmed hr hw h]
    refine ⟨?_, changeStop_switches .., fun hs => ?_, fun hs => ?_⟩
    · rw [(Laws.changeStop_same ..).1.release, clearLatches]
      split <;> rfl
    · subst hs
      exact changeStop_chans ..
    · subst hs
      exact changeStop_chans ..
  · refine ⟨opFltSwap s, rfl, ?_⟩
    rw [opFltSwap_hour hr hw hh hs]
    refine ⟨rfl, rfl, rfl, fun hb hg => ?_, fun hn => ?_⟩
    · simp [hb, hg]
    · simp only [Bool.and_eq_true, beq_iff_eq]
      rw [if_neg]
      rintro ⟨hb, hg⟩
      rcases hn with hn | hn
      · rw [hb] at hn; cases hn
      · exact hn hg

/-! ### The lead that CHANNEL_REJOIN passes on -/

/-- Channel 0 may rejoin; the base lead of the FC is channel 0 and channel 1 leads in its stead. -/
def rejoiningLead : State :=
  { State.reset with
    mode.cur := .calm
    stop.lead := 1
    stop.chans := [{ state := .rejoining, matchFc := 100 }, { state := .voting }, { state := .voting }] }

/-- With channel 0 voting again the lead is channel 0's. -/
theorem rejoiningLead_leadFor : leadFor (rejoin 0 rejoiningLead) = 0 := by decide

/-- Refutes O36: CHANNEL_REJOIN passes the lead on (R391) once the channel votes, so in `rejoiningLead` it leaves channel 0 as
lead, where the `changeStop` of the statement leaves channel 1. -/
theorem not_theStopPathActs : ¬ Obligations.TheStopPathActs := by
  unfold Obligations.TheStopPathActs
  rintro ⟨-, -, -, -, -, -, hrejoin, -⟩
  have heq : opChannelRejoin 0 rejoiningLead = _ :=
    Host.Outcome.next.inj (hrejoin rejoiningLead 0 rfl (by decide) rfl rfl (by decide))
  have hop : (opChannelRejoin 0 rejoiningLead).stop.lead = 0 := by
    rw [opChannelRejoin_ready rfl rfl rfl (by decide), passLead_lead, changeStop_leadFor, rejoiningLead_leadFor]
  rw [heq, (Laws.changeStop_same ..).1.lead] at hop
  exact absurd hop (by decide)

end Sys2Proof.Machine
end

section
/-! PROOFS. Power, resets, start-up and supervision. -/

namespace Sys2Proof.Machine

open Sys2Proof

/-! ### Each event in the mode that admits it -/

section
variable {s : State}

theorem opPowerOn_doldrums (h : s.mode.cur = .doldrums) : opPowerOn s = resetDevice s 1 := by
  simp only [opPowerOn, h, beq_self_eq_true, ↓reduceIte]

theorem opPowerFail_elsewhere (h : s.mode.cur ≠ .doldrums) :
    opPowerFail s = { keptState s with
      bk := { s.bk with maintFc := 0, powerFail := some s.bk.rtc }
      time.bridge := s.time.bridge
      upd.oldState := s.upd.state
      mode.cur := .doldrums
      mode.lastKind := s.mode.lastKind
      mode.stillPhase := 0 } := by
  simp only [opPowerFail, beq_iff_eq, h, ↓reduceIte]

theorem opReset_due {k : Nat} (hr : running s = true) (h : s.mode.resetAt = some k) (hw : s.clk.window = .guard ∨ k = 2) :
    opReset s = resetDevice s k := by
  have hc : (running s && (k == 2 || s.clk.window == .guard)) = true := by
    rcases hw with hw | hw <;> simp [hr, hw]
  simp only [opReset, h, hc, ↓reduceIte]

theorem opStillComplete_still (i : BootIn) (h : s.mode.cur = .still) (hd : s.upd.dfu = false) :
    opStillComplete i s = bootFrom i true s := by
  simp only [opStillComplete, h, hd, beq_self_eq_true, Bool.not_false, Bool.and_self, ↓reduceIte]

theorem opBootRetry_awaiting (i : BootIn) (h : s.mode.cur = .still) (hd : s.upd.dfu = true) :
    opBootRetry i s = bootFrom i false s := by
  simp only [opBootRetry, h, hd, beq_self_eq_true, Bool.and_self, ↓reduceIte]

theorem opBackupDomainLoss_doldrums (h : s.mode.cur = .doldrums) : opBackupDomainLoss s = { s with bk := { lost := true } } := by
  simp only [opBackupDomainLoss, h, beq_self_eq_true, ↓reduceIte]

theorem opHostLoss_due (hr : running s = true) (h : 100 * s.supply.cfg.hostLossS ≤ s.mode.noSessionFc) :
    opHostLoss s = trigger s .hostLoss := by
  simp only [opHostLoss, hr, h, decide_true, Bool.and_self, ↓reduceIte]

theorem opReferenceLost_due (hr : running s = true) (h : 100 ≤ s.mode.refLossRun) :
    opReferenceLost s = trigger s .noPosition := by
  simp only [opReferenceLost, hr, h, decide_true, Bool.and_self, ↓reduceIte]

theorem opWindowOverrun_running (core : Nat) (hr : running s = true) :
    opWindowOverrun core s.clk.window s = overrun s core s.clk.window := by
  simp only [opWindowOverrun, hr, beq_self_eq_true, Bool.and_self, ↓reduceIte]

theorem opCoreReload_due {core : Nat} (hr : running s = true)
    (h : s.cores.reload.any (fun e => e.1 == core && decide (e.2 ≤ fcNow s)) = true) :
    opCoreReload core s =
      let t : State := { s with cores.reload := s.cores.reload.filter fun e => e.1 != core }
      if t.mode.veerCore == some core then trigger { t with mode.veerCore := none } .veerOver else t := by
  simp only [opCoreReload, hr, h, Bool.not_true, Bool.or_self, Bool.false_eq_true, ↓reduceIte]

end

/-- What a reset other than a WATCHDOG leaves: STILL in its first phase, with what MRAM and image flash hold and no session. -/
theorem resetDevice_kept (s : State) {k : Nat} (hk : k ≠ 2) :
    let t := resetDevice s k
    t.mode.cur = .still ∧ t.mode.lastKind = k ∧ t.mode.stillPhase = (if isCold k then 1 else 2) ∧ t.nv = s.nv ∧ t.p = s.nv
      ∧ t.flash = s.flash ∧ t.edtor.sessions = [] ∧ t.pending = s.pending := by
  refine ⟨rfl, rfl, rfl, ?_, ?_, rfl, rfl, rfl⟩
  · simp only [resetDevice, if_neg hk, keptState]
  · simp only [resetDevice, if_neg hk, keptState]

/-- Settles O37 by the equation of each event in the mode that admits it; elsewhere its guard fails. -/
theorem powerAndResetEventsAct : Obligations.PowerAndResetEventsAct := by
  unfold Obligations.PowerAndResetEventsAct
  refine ⟨fun s h => congrArg Host.Outcome.next (opPowerOn_doldrums h), fun s h => congrArg Host.Outcome.next ?_, fun s h => ?_,
    fun s h => congrArg Host.Outcome.next ?_, fun s k hr h hw => congrArg Host.Outcome.next (opReset_due hr h hw),
    fun s h => congrArg Host.Outcome.next ?_, fun s k hk => resetDevice_kept s hk,
    fun s i h hd => congrArg Host.Outcome.next (opStillComplete_still i h hd),
    fun s i h hd => congrArg Host.Outcome.next (opBootRetry_awaiting i h hd), fun s i h => ⟨?_, ?_⟩,
    fun s h => congrArg Host.Outcome.next (opBackupDomainLoss_doldrums h),
    fun s hr h => congrArg Host.Outcome.next (opHostLoss_due hr h),
    fun s hr h => congrArg Host.Outcome.next (opReferenceLost_due hr h),
    fun s core w hr hc hw => ?_, fun s core hr hc h => ?_⟩
  · simp only [opPowerOn, beq_iff_eq, h, ↓reduceIte]
  · exact ⟨_, congrArg Host.Outcome.next (opPowerFail_elsewhere h), rfl, rfl, rfl, rfl, rfl, rfl, rfl, rfl⟩
  · simp only [opPowerFail, h, beq_self_eq_true, ↓reduceIte]
  · simp only [opReset, h]
  · refine congrArg Host.Outcome.next ?_
    simp only [opStillComplete, beq_eq_false_iff_ne.mpr h, Bool.false_and, Bool.false_eq_true, ↓reduceIte]
  · refine congrArg Host.Outcome.next ?_
    simp only [opBootRetry, beq_eq_false_iff_ne.mpr h, Bool.false_and, Bool.false_eq_true, ↓reduceIte]
  · subst hw
    exact (if_pos hc).trans (congrArg Host.Outcome.next (opWindowOverrun_running core hr))
  · exact (if_pos hc).trans (congrArg Host.Outcome.next (opCoreReload_due hr h))

end Sys2Proof.Machine
end

section
/-! PROOFS. The queues and the memory faults. -/

namespace Sys2Proof.Machine

open Sys2Proof

/-! ### The queue commands, case by case -/

section
variable {s : State} {q : Nat} {p : QParam}

/-- A command on a queue that exists carries its operation out. -/
theorem exec_onQueue (hq : qParam q = some p) :
    (∀ w sp, exec (.queueWrite q w sp) s = .next (opQueueWrite q w sp p s)) ∧ exec (.queueRead q) s = .next (opQueueRead q p s)
      ∧ exec (.dropRest q) s = .next (opDropRest q p s) ∧ exec (.headRefill q) s = .next (opHeadRefill q p s)
      ∧ ∀ dram reading, exec (.queueFault q dram reading) s = .next (opQueueFault q dram reading p s) := by
  refine ⟨fun w sp => ?_, ?_, ?_, ?_, fun dram reading => ?_⟩
  · simp only [exec, execQueueWrite, hq]
  · simp only [exec, execQueueRead, hq]
  · simp only [exec, execDropRest, hq]
  · simp only [exec, execHeadRefill, hq]
  · simp only [exec, execQueueFault, hq]

theorem opQueueRead_empty (hm : mismatch (queueAt s q p) = false) (he : (queueAt s q p).entries = []) :
    opQueueRead q p s = setQueue s q { queueAt s q p with lastRead := some (entryWord { notValid := true }) } := by
  simp only [opQueueRead, hm, he, Bool.false_eq_true, ↓reduceIte]

theorem opQueueRead_headEmpty {e : QEntry} {rest : List QEntry} (hm : mismatch (queueAt s q p) = false)
    (he : (queueAt s q p).entries = e :: rest) (hh : (queueAt s q p).inHead = 0) :
    opQueueRead q p s = setQueue s q { queueAt s q p with
      refillPending := wantsRefill (queueAt s q p), lastRead := some (entryWord { notValid := true, pending := true }) } := by
  simp only [opQueueRead, hm, he, hh, Bool.false_eq_true, ↓reduceIte]

theorem opQueueRead_word {e : QEntry} {rest : List QEntry} (hm : mismatch (queueAt s q p) = false)
    (he : (queueAt s q p).entries = e :: rest) (hh : (queueAt s q p).inHead ≠ 0)
    (hs : ((queueAt s q p).dropping || (queueAt s q p).skipToSop) = false ∨ e.sop = true) :
    opQueueRead q p s = noteOccupancy (setQueue s q (popHead (queueAt s q p) e rest)) q p (occupancy s q (queueAt s q p)) := by
  have hg : (((queueAt s q p).dropping || (queueAt s q p).skipToSop) && !e.sop) = false := by
    rcases hs with hs | hs <;> simp [hs]
  simp only [opQueueRead, hm, he, hh, hg, Bool.false_eq_true, ↓reduceIte]

/-- The queue after DROP_REST. -/
def dropped (x : SpillQueue) : SpillQueue :=
  let n := frameRest x.entries
  settle { x with
    entries := x.entries.drop n
    inHead := x.inHead - n
    inMid := x.inMid - (n - x.inHead)
    rptr := (x.rptr + n) % x.depth
    rptrDup := (x.rptr + n) % x.depth
    inFrame := false
    dropping := !eopWritten x.entries
    skipToSop := !eopWritten x.entries }

theorem opDropRest_inFrame (h : (queueAt s q p).inFrame = true) :
    opDropRest q p s = noteOccupancy
      (setQueue s q { dropped (queueAt s q p) with refillPending := wantsRefill (dropped (queueAt s q p)) }) q p
      (occupancy s q (queueAt s q p)) := by
  have hc : ¬(!(queueAt s q p).inFrame) = true := by simp [h]
  exact if_neg hc

/-- The queue after a head refill. -/
def refilled (x : SpillQueue) : SpillQueue :=
  settle { x with inHead := x.inHead + frontBlock x, inMid := x.inMid - frontBlock x }

theorem opHeadRefill_pending (hp : (queueAt s q p).refillPending = true) (hm : (queueAt s q p).inMid ≠ 0) :
    opHeadRefill q p s =
      setQueue s q { refilled (queueAt s q p) with refillPending := wantsRefill (refilled (queueAt s q p)) } := by
  have hc : ¬(!(queueAt s q p).refillPending || decide ((queueAt s q p).inMid = 0)) = true := by simp [hp, hm]
  exact if_neg hc

end

/-- A refill moves a block that the middle holds, and leaves whole blocks behind it. -/
theorem frontBlock_bounds {k : SpillQueue} (h : k.inMid ≠ 0) :
    1 ≤ frontBlock k ∧ frontBlock k ≤ 16 ∧ frontBlock k ≤ k.inMid ∧ (k.inMid - frontBlock k) % 16 = 0 := by
  unfold frontBlock
  split <;> omega

/-! ### Memory faults -/

theorem opMemoryFault_corrected {s : State} {f : MemIn} (hr : running s = true) (hc : f.corrected = true) :
    opMemoryFault f s = countCorrected s f.block := by
  simp only [opMemoryFault, hr, hc, Bool.not_true, Bool.false_eq_true, ↓reduceIte]

theorem opMemoryFault_core {s : State} {f : MemIn} (hr : running s = true) (hc : f.corrected = false) (hb : f.block = 1) :
    opMemoryFault f s
      = memEvent (countUncorrected (coreFault s f.unit f.window) 0) { block := 1, unit := f.unit, outcome := 1 } := by
  simp only [opMemoryFault, hr, hc, hb, Bool.not_true, Bool.false_eq_true, ↓reduceIte]

theorem opMemoryFault_search {s : State} {f : MemIn} (hr : running s = true) (hc : f.corrected = false) (hb : f.block = 4) :
    opMemoryFault f s = memEvent (countUncorrected (searchFault s f.unit) 1) { block := 4, outcome := 3 } := by
  simp only [opMemoryFault, hr, hc, hb, Bool.not_true, Bool.false_eq_true, ↓reduceIte]

/-- A memory fault of a unit the device has is handled. -/
theorem exec_memoryFault {f : MemIn} (s : State) (h : memUnitOk f = true) : exec (.memoryFault f) s = .next (opMemoryFault f s) :=
  if_pos h

/-- Settles O47 by the case equations of the queue commands. -/
theorem queuesAndMemoryFaultsAct : Obligations.QueuesAndMemoryFaultsAct := by
  unfold Obligations.QueuesAndMemoryFaultsAct
  refine ⟨fun s q w sp k hq => (exec_onQueue hq).1 w sp, fun s q k hq hm => ?_, fun s q k hq hm he => ?_,
    fun s q k e rest hq hm he hh => ?_, fun s q k e rest hq hm he hh hs => ?_, fun s q k hq h => ?_, fun s q k hq hp hm => ?_,
    fun k h => frontBlock_bounds h, fun s q dram reading k hq => (exec_onQueue hq).2.2.2.2 dram reading, fun s f hr hu hc => ?_,
    fun s f hr hu hc => ?_⟩
  · obtain ⟨-, hread, -⟩ := exec_onQueue (s := s) hq
    rw [hread, opQueueRead, if_pos hm]
  · obtain ⟨-, hread, -⟩ := exec_onQueue (s := s) hq
    rw [hread, opQueueRead_empty hm he]
  · obtain ⟨-, hread, -⟩ := exec_onQueue (s := s) hq
    rw [hread, opQueueRead_headEmpty hm he hh]
  · obtain ⟨-, hread, -⟩ := exec_onQueue (s := s) hq
    rw [hread, opQueueRead_word hm he hh hs]
  · obtain ⟨-, -, hdrop, -⟩ := exec_onQueue (s := s) hq
    rw [hdrop, opDropRest_inFrame h]
    rfl
  · obtain ⟨-, -, -, hrefill, -⟩ := exec_onQueue (s := s) hq
    rw [hrefill, opHeadRefill_pending hp hm]
    rfl
  · rw [exec_memoryFault s hu, opMemoryFault_corrected hr hc]
  · refine (exec_memoryFault s hu).trans (congrArg Host.Outcome.next ?_)
    simp only [opMemoryFault, hr, hc, Bool.not_true, Bool.false_eq_true, ↓reduceIte] <;> rfl

end Sys2Proof.Machine
end

section
/-! PROOFS. What overruns, the start-up and the close of a session leave alone, in the manner of `bedrock`. -/

namespace Sys2Proof.Machine

open Sys2Proof

/-! ### What the action on an overrun keeps -/

/-- The counts and events of overruns, the memory events and the reservations. -/
def overrunKept (s : State) :
    List Nat × List (Nat × Nat × Nat × Nat) × List MemFault × Strt :=
  (s.cores.overruns, s.cores.overEvs, s.cores.memEvs, s.strt)

theorem overrunKept_mk (pending freeCtr fuse flash p nv bk clk cores mode supply edtor com queues time gnss ref buoy sess strt
    holds allot stop radio can ports sec upd) :
    overrunKept (State.mk pending freeCtr fuse flash p nv bk clk cores mode supply edtor com queues time gnss ref buoy sess strt
      holds allot stop radio can ports sec upd) = (cores.overruns, cores.overEvs, cores.memEvs, strt) := by
  unfold overrunKept; rfl

theorem overrunKept_fold (s : State) :
    (s.cores.overruns, s.cores.overEvs, s.cores.memEvs, s.strt) = overrunKept s := by unfold overrunKept; rfl

theorem modSession_overrunKept (s : State) (slot : Nat) (f : Session → Session) :
    overrunKept (modSession s slot f) = overrunKept s := by
  simp only [modSession, ↓overrunKept_mk, ↓overrunKept_fold]

theorem record_overrunKept (s : State) (r : Request) (final : Bool) (intr status planned : Nat) :
    overrunKept (record s r final intr status planned) = overrunKept s := by
  simp only [record, ↓overrunKept_mk, ↓overrunKept_fold]

theorem countViol_overrunKept (s : State) (slot : Nat) (port : Port) (i : Nat) (executing : Bool) :
    overrunKept (countViol s slot port i executing) = overrunKept s := by
  simp only [countViol, ↓overrunKept_mk, ↓overrunKept_fold, ↓modSession_overrunKept]

theorem countStatus_overrunKept (s : State) (r : Request) (status : Nat) :
    overrunKept (countStatus s r status) = overrunKept s := by
  simp only [countStatus]
  split <;> simp only [↓countViol_overrunKept]

theorem queueReply_overrunKept (s : State) (r : Request) (k : Packet) : overrunKept (queueReply s r k) = overrunKept s := by
  simp only [queueReply, ↓overrunKept_mk, ↓overrunKept_fold, ↓apply_ite overrunKept, ite_self]

theorem finishI_overrunKept (s : State) (r : Request) (intr status : Nat) (payload : Bytes) :
    overrunKept (finishI s r intr status payload) = overrunKept s := by
  simp only [finishI, ↓apply_ite overrunKept, ite_self, ↓countStatus_overrunKept, ↓queueReply_overrunKept, ↓record_overrunKept]

theorem changeStop_overrunKept (s : State) (pclk : Nat) (f : State → State) :
    overrunKept (changeStop s pclk f) = overrunKept (f s) :=
  (congrArg overrunKept (Laws.changeStop_same s pclk f).1.rest).trans rfl

theorem modSaf_overrunKept (s : State) (c : Nat) (f : Channel3 → Channel3) : overrunKept (modSaf s c f) = overrunKept s := by
  simp only [modSaf, ↓overrunKept_mk, ↓overrunKept_fold]

theorem noteChan_overrunKept (s : State) (c : Nat) (new old : ChState) (reason testId time : Nat) :
    overrunKept (noteChan s c new old reason testId time) = overrunKept s := by
  simp only [noteChan, ↓overrunKept_mk, ↓overrunKept_fold]

theorem chanState_overrunKept (s : State) (c : Nat) (new : ChState) (reason testId pclk : Nat) :
    overrunKept (chanState s c new reason testId pclk) = overrunKept s := by
  simp only [chanState, ↓modSaf_overrunKept, ↓noteChan_overrunKept]

theorem withdraw_overrunKept (c reason testId : Nat) (s : State) :
    overrunKept (withdraw c reason testId s) = overrunKept s := by
  simp only [withdraw, ↓chanState_overrunKept, ↓modSaf_overrunKept]

theorem modSlot_overrunKept (s : State) (b : Bool) (f : ImageSlot → ImageSlot) :
    overrunKept (modSlot s b f) = overrunKept s := by
  simp only [modSlot, ↓overrunKept_mk, ↓overrunKept_fold, ↓apply_ite overrunKept, ite_self]

theorem changeUpd_overrunKept (s : State) (tag : Option (Nat × Nat)) (new cause : Nat) :
    overrunKept (changeUpd s tag new cause) = overrunKept s := by
  simp only [changeUpd, ↓overrunKept_mk, ↓overrunKept_fold]

theorem setUpd_overrunKept (s : State) (new cause : Nat) : overrunKept (setUpd s new cause) = overrunKept s := by
  simp only [setUpd, ↓changeUpd_overrunKept]

theorem endOne_overrunKept (e : Ending) (s : State) (r : Request) : overrunKept (endOne e s r) = overrunKept s := by
  simp only [endOne, ↓overrunKept_mk, ↓overrunKept_fold, ↓finishI_overrunKept]

theorem endFresh_overrunKept (p : Request → Bool) (e : Ending) (s : State) :
    overrunKept (endFresh p e s) = overrunKept s := by
  simp only [endFresh, ↓overrunKept_mk, ↓overrunKept_fold, ↓foldl_keeps overrunKept, implies_true, ↓endOne_overrunKept]

theorem endChanges_overrunKept (p : Request → Bool) (e : Ending) (s : State) :
    overrunKept (endChanges p e s) = overrunKept s := by
  simp only [endChanges, ↓overrunKept_mk, ↓overrunKept_fold, ↓foldl_keeps overrunKept, implies_true, ↓endOne_overrunKept]

theorem endUpdFinish_overrunKept (p : Request → Bool) (e : Ending) (s : State) :
    overrunKept (endUpdFinish p e s) = overrunKept s := by
  simp only [endUpdFinish]
  split <;> simp only [↓overrunKept_mk, ↓overrunKept_fold, ↓apply_ite overrunKept, ite_self, ↓endOne_overrunKept,
    ↓modSlot_overrunKept, ↓setUpd_overrunKept]

theorem fltFailed_overrunKept (s : State) : overrunKept (fltFailed s) = overrunKept s := by
  simp only [fltFailed, ↓overrunKept_mk, ↓overrunKept_fold, ↓apply_ite overrunKept, ite_self]

theorem voidPositions_overrunKept (s : State) : overrunKept (voidPositions s) = overrunKept s := by
  simp only [voidPositions, ↓overrunKept_mk, ↓overrunKept_fold]

theorem safOverrun_overrunKept (c : Nat) (s : State) : overrunKept (safOverrun c s) = overrunKept s := by
  simp only [safOverrun]
  split <;> simp only [↓overrunKept_mk, ↓overrunKept_fold, ↓apply_ite overrunKept, ite_self, ↓changeStop_overrunKept,
    ↓modSaf_overrunKept, ↓withdraw_overrunKept]

theorem failSec_overrunKept (s : State) : overrunKept (failSec s) = overrunKept s := by
  simp only [failSec]
  split <;> simp only [↓endChanges_overrunKept, ↓endFresh_overrunKept, ↓endUpdFinish_overrunKept]

theorem secOverrun_overrunKept (s : State) : overrunKept (secOverrun s).2 = overrunKept s := by
  simp only [secOverrun]
  (repeat' split) <;> simp only [↓overrunKept_mk, ↓overrunKept_fold, ↓failSec_overrunKept]

theorem overrunAction_overrunKept (s : State) (core : Nat) : overrunKept (overrunAction s core).2 = overrunKept s := by
  simp only [overrunAction]
  (repeat' split) <;> simp only [↓overrunKept_mk, ↓overrunKept_fold, ↓fltFailed_overrunKept, ↓safOverrun_overrunKept,
    ↓secOverrun_overrunKept, ↓voidPositions_overrunKept]

/-! ### What the start-up keeps -/

/-- The sessions and the image flash, and whether an image is awaited. -/
def startKept (s : State) : Edtor × Flash × Bool := (s.edtor, s.flash, s.upd.dfu)

theorem startKept_mk (pending freeCtr fuse flash p nv bk clk cores mode supply edtor com queues time gnss ref buoy sess strt
    holds allot stop radio can ports sec upd) :
    startKept (State.mk pending freeCtr fuse flash p nv bk clk cores mode supply edtor com queues time gnss ref buoy sess strt
      holds allot stop radio can ports sec upd) = (edtor, flash, upd.dfu) := by unfold startKept; rfl

theorem startKept_fold (s : State) : (s.edtor, s.flash, s.upd.dfu) = startKept s := by unfold startKept; rfl

theorem submit_startKept (s : State) (origin kind idx : Nat) : startKept (submit s origin kind idx) = startKept s := by
  simp only [submit, ↓startKept_mk, ↓startKept_fold]

theorem raiseAt_startKept (s : State) (code : Nat) (aud : Audience) (t : Nat) (payload : Bytes) :
    startKept (raiseAt s code aud t payload) = startKept s := by
  simp only [raiseAt, ↓startKept_mk, ↓startKept_fold]

theorem raise_startKept (s : State) (code : Nat) (aud : Audience) (payload : Bytes) :
    startKept (raise s code aud payload) = startKept s := by
  simp only [raise, ↓raiseAt_startKept]

theorem modAnchor_startKept (s : State) (l : Nat) (f : AnchorLive → AnchorLive) :
    startKept (modAnchor s l f) = startKept s := by
  simp only [modAnchor, ↓startKept_mk, ↓startKept_fold]

theorem setAnchor_startKept (s : State) (l : Nat) (st : AnchorState) (cause : Nat) :
    startKept (setAnchor s l st cause) = startKept s := by
  simp only [setAnchor, ↓apply_ite startKept, ite_self, ↓modAnchor_startKept]

theorem modRobot_startKept (s : State) (i : Nat) (f : Robot → Robot) : startKept (modRobot s i f) = startKept s := by
  simp only [modRobot, ↓startKept_mk, ↓startKept_fold]

theorem strtAlarm_startKept (s : State) (cause owner kind index : Nat) :
    startKept (strtAlarm s cause owner kind index) = startKept s := by
  simp only [strtAlarm, ↓startKept_mk, ↓startKept_fold]

theorem detectWay_startKept (s : State) (i : Nat) : startKept (detectWay s i) = startKept s := by
  simp only [detectWay, ↓startKept_mk, ↓startKept_fold, ↓apply_ite startKept, ite_self, ↓strtAlarm_startKept]

theorem detectKeys_startKept (s : State) (keys : List Key) : startKept (detectKeys s keys) = startKept s := by
  simp only [detectKeys, ↓apply_ite startKept, ite_self, ↓foldl_keeps startKept, implies_true, ↓detectWay_startKept]

theorem noteFill_startKept (s : State) : startKept (noteFill s) = startKept s := by
  simp only [noteFill, ↓startKept_mk, ↓startKept_fold, ↓apply_ite startKept, ite_self, ↓strtAlarm_startKept]

theorem chainFailed_startKept (s : State) (k : Key) : startKept (chainFailed s k) = startKept s := by
  simp only [chainFailed, ↓startKept_mk, ↓startKept_fold, ↓strtAlarm_startKept]

theorem reserve_startKept (s : State) (keys : List Key) : startKept (reserve s keys).2 = startKept s := by
  simp only [reserve]
  (repeat' split) <;> simp only [↓startKept_mk, ↓startKept_fold, ↓chainFailed_startKept, ↓detectKeys_startKept,
    ↓noteFill_startKept]

theorem putHold_startKept (s : State) (n : Nat) (h : HoldRec) : startKept (putHold s n h) = startKept s := by
  simp only [putHold, ↓startKept_mk, ↓startKept_fold]

theorem lockCells_startKept (s : State) (h : HoldRec) (cells : List Nat) : startKept (lockCells s h cells).2 = startKept s := by
  unfold lockCells
  refine foldl_snd_keeps startKept _ _ (h, s) fun a c => ?_
  dsimp only
  split
  · split <;> next hr => exact snd_keeps hr (reserve_startKept ..)
  · rfl

theorem makeStanding_startKept (s : State) (h : HoldRec) : startKept (makeStanding s h).2 = startKept s := by
  unfold makeStanding
  dsimp only
  split
  · next hr => exact snd_keeps hr (reserve_startKept ..)
  · next hr =>
    have ht := snd_keeps hr (reserve_startKept ..)
    split
    · exact (lockCells_startKept ..).trans ht
    · exact ht

theorem restoreHolds_startKept (s : State) : startKept (restoreHolds s) = startKept s := by
  unfold restoreHolds
  refine (foldl_keeps startKept _ _ _ fun u e => ?_).trans rfl
  dsimp only
  split <;> next hm =>
    have ht := snd_keeps hm (makeStanding_startKept ..)
    simp only [↓raise_startKept, ↓putHold_startKept, ht]

theorem canStart_startKept (s : State) : startKept (canStart s) = startKept s := by
  simp only [canStart, ↓startKept_mk, ↓startKept_fold]

theorem setSState_startKept (s : State) (i : Nat) (new : SState) (cause : Nat) :
    startKept (setSState s i new cause) = startKept s := by
  simp only [setSState, ↓startKept_mk, ↓startKept_fold, ↓modRobot_startKept]

theorem lnkSState_startKept (s : State) (i : Nat) (new : SState) (cause : Nat) :
    startKept (lnkSState s i new cause) = startKept s := by
  simp only [lnkSState, ↓setSState_startKept, ↓submit_startKept]

theorem modRpt_startKept (s : State) (k : Nat) (f : RptEntry → RptEntry) : startKept (modRpt s k f) = startKept s := by
  simp only [modRpt, ↓startKept_mk, ↓startKept_fold]

theorem rptAddr_startKept (s : State) (eui : BitVec 64) (addr : Nat) : startKept (rptAddr s eui addr) = startKept s := by
  simp only [rptAddr]
  split <;> simp only [↓modRpt_startKept]

theorem cellEvent_startKept (s : State) (i cause : Nat) (q : Option (Nat × Nat × Nat)) :
    startKept (cellEvent s i cause q) = startKept s := by
  simp only [cellEvent, ↓raise_startKept]

theorem releaseCell_startKept (s : State) (i : Nat) : startKept (releaseCell s i) = startKept s := by
  simp only [releaseCell]
  split <;> simp only [↓startKept_mk, ↓startKept_fold, ↓cellEvent_startKept]

theorem endAssociation_startKept (s : State) (i : Nat) : startKept (endAssociation s i) = startKept s := by
  simp only [endAssociation, ↓startKept_mk, ↓startKept_fold, ↓modRobot_startKept, ↓releaseCell_startKept, ↓rptAddr_startKept]

theorem rptEnrol_startKept (s : State) (k i : Nat) (eui : BitVec 64) : startKept (rptEnrol s k i eui) = startKept s := by
  simp only [rptEnrol, ↓startKept_mk, ↓startKept_fold]

theorem driveSwitches_startKept (s : State) : startKept (driveSwitches s) = startKept s := by
  simp only [driveSwitches, ↓startKept_mk, ↓startKept_fold]

theorem modChans_startKept (s : State) (f : Channel3 → Channel3) : startKept (modChans s f) = startKept s := by
  simp only [modChans, ↓startKept_mk, ↓startKept_fold]

theorem latchSite_startKept (bit : Nat) (active : Bool) (s : State) : startKept (latchSite bit active s) = startKept s := by
  simp only [latchSite, ↓modChans_startKept]

theorem outputFaulty_startKept (s : State) : startKept (outputFaulty s) = startKept s := by
  simp only [outputFaulty, ↓startKept_mk, ↓startKept_fold, ↓latchSite_startKept]

theorem clearTags_startKept (s : State) (l : List Nat) : startKept (clearTags s l) = startKept s := by
  simp only [clearTags, ↓startKept_mk, ↓startKept_fold]

theorem endAssocOf_startKept (s : State) (eui : BitVec 64) : startKept (endAssocOf s eui) = startKept s := by
  simp only [endAssocOf]
  split <;> simp only [↓endAssociation_startKept]

theorem orphan_startKept (s : State) (i : Nat) : startKept (orphan s i) = startKept s := by
  simp only [orphan]
  (repeat' split) <;> simp only [↓startKept_mk, ↓startKept_fold, ↓clearTags_startKept, ↓endAssocOf_startKept,
    ↓setAnchor_startKept]

theorem rollNow_startKept (s : State) : startKept (rollNow s) = startKept s := by
  simp only [rollNow]
  split <;> simp only [↓startKept_mk, ↓startKept_fold]

theorem wipeSite_startKept (s : State) : startKept (wipeSite s) = startKept s := by
  simp only [wipeSite, ↓startKept_mk, ↓startKept_fold]

theorem trip_startKept (s : State) (i : Nat) : startKept (trip s i) = startKept s := by
  simp only [trip, ↓startKept_mk, ↓startKept_fold, ↓apply_ite startKept, ite_self, ↓wipeSite_startKept]

theorem addUnavail_startKept (s : State) (cause n : Nat) : startKept (addUnavail s cause n) = startKept s := by
  simp only [addUnavail, ↓startKept_mk, ↓startKept_fold]

theorem checkSlot_startKept (s : State) (i : Nat) : startKept (checkSlot s i) = startKept s := by
  simp only [checkSlot, ↓startKept_mk, ↓startKept_fold, ↓apply_ite startKept, ite_self]

theorem restoreBackup_startKept (s : State) : startKept (restoreBackup s) = startKept s := by
  simp only [restoreBackup, ↓startKept_mk, ↓startKept_fold, ↓apply_ite startKept, ite_self, ↓trip_startKept]

theorem wipedWork_startKept (s : State) : startKept (wipedWork s) = startKept s := by
  simp only [wipedWork, ↓startKept_mk, ↓startKept_fold, ↓apply_ite startKept, ite_self, ↓orphan_startKept]

theorem keysStill_startKept (s : State) : startKept (keysStill s) = startKept s := by
  simp only [keysStill, ↓startKept_mk, ↓startKept_fold, ↓apply_ite startKept, ite_self, ↓foldl_keeps startKept, implies_true,
    ↓checkSlot_startKept, ↓restoreBackup_startKept, ↓wipedWork_startKept]

theorem ceilings_startKept (s : State) : startKept (ceilings s) = startKept s := by
  simp only [ceilings, ↓startKept_mk, ↓startKept_fold]

theorem countReset_startKept (i : BootIn) (s : State) : startKept (countReset i s) = startKept s := by
  simp only [countReset, ↓startKept_mk, ↓startKept_fold, ↓apply_ite startKept, ite_self, ↓addUnavail_startKept]

theorem rebuild_startKept (s : State) : startKept (rebuild s) = startKept s := by
  simp only [rebuild, ↓startKept_mk, ↓startKept_fold]

theorem robotStill_startKept (s : State) (i : Nat) : startKept (robotStill s i) = startKept s := by
  simp only [robotStill]
  (repeat' split) <;> simp only [↓lnkSState_startKept, ↓rptEnrol_startKept]

theorem phase5_startKept (i : BootIn) (s : State) : startKept (phase5 i s) = startKept s := by
  simp only [phase5, ↓startKept_mk, ↓startKept_fold, ↓ceilings_startKept, ↓countReset_startKept, ↓keysStill_startKept]

theorem phase5Fault_startKept (s : State) : startKept (phase5Fault s) = startKept s := by
  simp only [phase5Fault, ↓startKept_mk, ↓startKept_fold, ↓keysStill_startKept]

theorem phase6_startKept (i : BootIn) (s : State) : startKept (phase6 i s) = startKept s := by
  simp only [phase6, ↓startKept_mk, ↓startKept_fold, ↓apply_ite startKept, ite_self, ↓latchSite_startKept,
    ↓outputFaulty_startKept]

theorem phase7_startKept (i : BootIn) (bkLost : Bool) (s : State) : startKept (phase7 i bkLost s) = startKept s := by
  simp only [phase7, ↓startKept_mk, ↓startKept_fold]

theorem enterFirst_startKept (ctrl : Bool) (s : State) : startKept (enterFirst ctrl s) = startKept s := by
  simp only [enterFirst, ↓startKept_mk, ↓startKept_fold, ↓foldl_keeps startKept, implies_true, ↓canStart_startKept,
    ↓driveSwitches_startKept, ↓restoreHolds_startKept, ↓robotStill_startKept, ↓rollNow_startKept]

/-! ### What the first mode's work keeps -/

/-- The phase of STILL and whether MRAM is unreadable. -/
def firstKept (s : State) : Nat × Bool := (s.mode.stillPhase, s.p.unreadable)

theorem firstKept_mk (pending freeCtr fuse flash p nv bk clk cores mode supply edtor com queues time gnss ref buoy sess strt
    holds allot stop radio can ports sec upd) :
    firstKept (State.mk pending freeCtr fuse flash p nv bk clk cores mode supply edtor com queues time gnss ref buoy sess strt
      holds allot stop radio can ports sec upd) = (mode.stillPhase, p.unreadable) := by unfold firstKept; rfl

theorem firstKept_fold (s : State) : (s.mode.stillPhase, s.p.unreadable) = firstKept s := by unfold firstKept; rfl

theorem submit_firstKept (s : State) (origin kind idx : Nat) : firstKept (submit s origin kind idx) = firstKept s := by
  simp only [submit, ↓firstKept_mk, ↓firstKept_fold]

theorem raiseAt_firstKept (s : State) (code : Nat) (aud : Audience) (t : Nat) (payload : Bytes) :
    firstKept (raiseAt s code aud t payload) = firstKept s := by
  simp only [raiseAt, ↓firstKept_mk, ↓firstKept_fold]

theorem raise_firstKept (s : State) (code : Nat) (aud : Audience) (payload : Bytes) :
    firstKept (raise s code aud payload) = firstKept s := by
  simp only [raise, ↓raiseAt_firstKept]

theorem modRobot_firstKept (s : State) (i : Nat) (f : Robot → Robot) : firstKept (modRobot s i f) = firstKept s := by
  simp only [modRobot, ↓firstKept_mk, ↓firstKept_fold]

theorem strtAlarm_firstKept (s : State) (cause owner kind index : Nat) :
    firstKept (strtAlarm s cause owner kind index) = firstKept s := by
  simp only [strtAlarm, ↓firstKept_mk, ↓firstKept_fold]

theorem detectWay_firstKept (s : State) (i : Nat) : firstKept (detectWay s i) = firstKept s := by
  simp only [detectWay, ↓firstKept_mk, ↓firstKept_fold, ↓apply_ite firstKept, ite_self, ↓strtAlarm_firstKept]

theorem detectKeys_firstKept (s : State) (keys : List Key) : firstKept (detectKeys s keys) = firstKept s := by
  simp only [detectKeys, ↓apply_ite firstKept, ite_self, ↓foldl_keeps firstKept, implies_true, ↓detectWay_firstKept]

theorem noteFill_firstKept (s : State) : firstKept (noteFill s) = firstKept s := by
  simp only [noteFill, ↓firstKept_mk, ↓firstKept_fold, ↓apply_ite firstKept, ite_self, ↓strtAlarm_firstKept]

theorem chainFailed_firstKept (s : State) (k : Key) : firstKept (chainFailed s k) = firstKept s := by
  simp only [chainFailed, ↓firstKept_mk, ↓firstKept_fold, ↓strtAlarm_firstKept]

theorem reserve_firstKept (s : State) (keys : List Key) : firstKept (reserve s keys).2 = firstKept s := by
  simp only [reserve]
  (repeat' split) <;> simp only [↓firstKept_mk, ↓firstKept_fold, ↓chainFailed_firstKept, ↓detectKeys_firstKept,
    ↓noteFill_firstKept]

theorem putHold_firstKept (s : State) (n : Nat) (h : HoldRec) : firstKept (putHold s n h) = firstKept s := by
  simp only [putHold, ↓firstKept_mk, ↓firstKept_fold]

theorem lockCells_firstKept (s : State) (h : HoldRec) (cells : List Nat) : firstKept (lockCells s h cells).2 = firstKept s := by
  unfold lockCells
  refine foldl_snd_keeps firstKept _ _ (h, s) fun a c => ?_
  dsimp only
  split
  · split <;> next hr => exact snd_keeps hr (reserve_firstKept ..)
  · rfl

theorem makeStanding_firstKept (s : State) (h : HoldRec) : firstKept (makeStanding s h).2 = firstKept s := by
  unfold makeStanding
  dsimp only
  split
  · next hr => exact snd_keeps hr (reserve_firstKept ..)
  · next hr =>
    have ht := snd_keeps hr (reserve_firstKept ..)
    split
    · exact (lockCells_firstKept ..).trans ht
    · exact ht

theorem restoreHolds_firstKept (s : State) : firstKept (restoreHolds s) = firstKept s := by
  unfold restoreHolds
  refine (foldl_keeps firstKept _ _ _ fun u e => ?_).trans rfl
  dsimp only
  split <;> next hm =>
    have ht := snd_keeps hm (makeStanding_firstKept ..)
    simp only [↓raise_firstKept, ↓putHold_firstKept, ht]

theorem canStart_firstKept (s : State) : firstKept (canStart s) = firstKept s := by
  simp only [canStart, ↓firstKept_mk, ↓firstKept_fold]

theorem setSState_firstKept (s : State) (i : Nat) (new : SState) (cause : Nat) :
    firstKept (setSState s i new cause) = firstKept s := by
  simp only [setSState, ↓firstKept_mk, ↓firstKept_fold, ↓modRobot_firstKept]

theorem lnkSState_firstKept (s : State) (i : Nat) (new : SState) (cause : Nat) :
    firstKept (lnkSState s i new cause) = firstKept s := by
  simp only [lnkSState, ↓setSState_firstKept, ↓submit_firstKept]

theorem rptEnrol_firstKept (s : State) (k i : Nat) (eui : BitVec 64) : firstKept (rptEnrol s k i eui) = firstKept s := by
  simp only [rptEnrol, ↓firstKept_mk, ↓firstKept_fold]

theorem rollNow_firstKept (s : State) : firstKept (rollNow s) = firstKept s := by
  simp only [rollNow]
  split <;> simp only [↓firstKept_mk, ↓firstKept_fold]

theorem robotStill_firstKept (s : State) (i : Nat) : firstKept (robotStill s i) = firstKept s := by
  simp only [robotStill]
  (repeat' split) <;> simp only [↓lnkSState_firstKept, ↓rptEnrol_firstKept]

/-! ### What the close of a session keeps -/

/-- The mode. -/
def modeKept (s : State) : ModeState := s.mode

theorem modeKept_mk (pending freeCtr fuse flash p nv bk clk cores mode supply edtor com queues time gnss ref buoy sess strt
    holds allot stop radio can ports sec upd) :
    modeKept (State.mk pending freeCtr fuse flash p nv bk clk cores mode supply edtor com queues time gnss ref buoy sess strt
      holds allot stop radio can ports sec upd) = mode := by unfold modeKept; rfl

theorem modeKept_fold (s : State) : s.mode = modeKept s := by unfold modeKept; rfl

theorem commit_modeKept (s : State) (kind idx : Nat) : modeKept (commit s kind idx) = modeKept s := by
  simp only [commit, ↓modeKept_mk, ↓modeKept_fold, ↓apply_ite modeKept, ite_self]

theorem commitBy_modeKept (s : State) (origin kind idx : Nat) : modeKept (commitBy s origin kind idx) = modeKept s := by
  simp only [commitBy, ↓modeKept_mk, ↓modeKept_fold, ↓apply_ite modeKept, ite_self, ↓commit_modeKept]

theorem modSession_modeKept (s : State) (slot : Nat) (f : Session → Session) :
    modeKept (modSession s slot f) = modeKept s := by
  simp only [modSession, ↓modeKept_mk, ↓modeKept_fold]

theorem record_modeKept (s : State) (r : Request) (final : Bool) (intr status planned : Nat) :
    modeKept (record s r final intr status planned) = modeKept s := by
  simp only [record, ↓modeKept_mk, ↓modeKept_fold]

theorem raiseWith_modeKept (s : State) (csn : Nat) (tag : Option (Nat × Nat)) (code : Nat) (aud : Audience) (payload : Bytes) :
    modeKept (raiseWith s csn tag code aud payload) = modeKept s := by
  simp only [raiseWith, ↓modeKept_mk, ↓modeKept_fold]

theorem countViol_modeKept (s : State) (slot : Nat) (port : Port) (i : Nat) (executing : Bool) :
    modeKept (countViol s slot port i executing) = modeKept s := by
  simp only [countViol, ↓modeKept_mk, ↓modeKept_fold, ↓modSession_modeKept]

theorem countStatus_modeKept (s : State) (r : Request) (status : Nat) : modeKept (countStatus s r status) = modeKept s := by
  simp only [countStatus]
  split <;> simp only [↓countViol_modeKept]

theorem queueReply_modeKept (s : State) (r : Request) (k : Packet) : modeKept (queueReply s r k) = modeKept s := by
  simp only [queueReply, ↓modeKept_mk, ↓modeKept_fold, ↓apply_ite modeKept, ite_self]

theorem finishI_modeKept (s : State) (r : Request) (intr status : Nat) (payload : Bytes) :
    modeKept (finishI s r intr status payload) = modeKept s := by
  simp only [finishI, ↓apply_ite modeKept, ite_self, ↓countStatus_modeKept, ↓queueReply_modeKept, ↓record_modeKept]

theorem modPlan_modeKept (s : State) (i : Nat) (f : Plan → Plan) : modeKept (modPlan s i f) = modeKept s := by
  simp only [modPlan, ↓modeKept_mk, ↓modeKept_fold]

theorem modSlot_modeKept (s : State) (b : Bool) (f : ImageSlot → ImageSlot) : modeKept (modSlot s b f) = modeKept s := by
  simp only [modSlot, ↓modeKept_mk, ↓modeKept_fold, ↓apply_ite modeKept, ite_self]

theorem changeUpd_modeKept (s : State) (tag : Option (Nat × Nat)) (new cause : Nat) :
    modeKept (changeUpd s tag new cause) = modeKept s := by
  simp only [changeUpd, ↓modeKept_mk, ↓modeKept_fold]

theorem setUpd_modeKept (s : State) (new cause : Nat) : modeKept (setUpd s new cause) = modeKept s := by
  simp only [setUpd, ↓changeUpd_modeKept]

theorem endOne_modeKept (e : Ending) (s : State) (r : Request) : modeKept (endOne e s r) = modeKept s := by
  simp only [endOne, ↓modeKept_mk, ↓modeKept_fold, ↓finishI_modeKept]

theorem endGnssCal_modeKept (p : Request → Bool) (e : Ending) (s : State) : modeKept (endGnssCal p e s) = modeKept s := by
  simp only [endGnssCal]
  split <;> simp only [↓modeKept_mk, ↓modeKept_fold, ↓apply_ite modeKept, ite_self, ↓endOne_modeKept]

theorem endSurvey_modeKept (p : Request → Bool) (e : Ending) (s : State) : modeKept (endSurvey p e s) = modeKept s := by
  simp only [endSurvey]
  split <;> simp only [↓modeKept_mk, ↓modeKept_fold, ↓apply_ite modeKept, ite_self, ↓endOne_modeKept]

theorem endRelayCmd_modeKept (p : Request → Bool) (e : Ending) (s : State) : modeKept (endRelayCmd p e s) = modeKept s := by
  simp only [endRelayCmd]
  split <;> simp only [↓modeKept_mk, ↓modeKept_fold, ↓apply_ite modeKept, ite_self, ↓endOne_modeKept]

theorem endBuoyCal_modeKept (p : Request → Bool) (e : Ending) (s : State) : modeKept (endBuoyCal p e s) = modeKept s := by
  simp only [endBuoyCal]
  split <;> simp only [↓modeKept_mk, ↓modeKept_fold, ↓apply_ite modeKept, ite_self, ↓endOne_modeKept]

theorem endTests_modeKept (p : Request → Bool) (e : Ending) (s : State) : modeKept (endTests p e s) = modeKept s := by
  simp only [endTests, ↓modeKept_mk, ↓modeKept_fold, ↓foldl_keeps modeKept, implies_true, ↓endOne_modeKept]

theorem endFresh_modeKept (p : Request → Bool) (e : Ending) (s : State) : modeKept (endFresh p e s) = modeKept s := by
  simp only [endFresh, ↓modeKept_mk, ↓modeKept_fold, ↓foldl_keeps modeKept, implies_true, ↓endOne_modeKept]

theorem endChanges_modeKept (p : Request → Bool) (e : Ending) (s : State) : modeKept (endChanges p e s) = modeKept s := by
  simp only [endChanges, ↓modeKept_mk, ↓modeKept_fold, ↓foldl_keeps modeKept, implies_true, ↓endOne_modeKept]

theorem endUpdFinish_modeKept (p : Request → Bool) (e : Ending) (s : State) :
    modeKept (endUpdFinish p e s) = modeKept s := by
  simp only [endUpdFinish]
  split <;> simp only [↓modeKept_mk, ↓modeKept_fold, ↓apply_ite modeKept, ite_self, ↓endOne_modeKept, ↓modSlot_modeKept,
    ↓setUpd_modeKept]

theorem endPaths_modeKept (p : Request → Bool) (e : Ending) (s : State) : modeKept (endPaths p e s) = modeKept s := by
  simp only [endPaths, ↓modeKept_mk, ↓modeKept_fold, ↓foldl_keeps modeKept, implies_true, ↓endOne_modeKept, ↓modPlan_modeKept]

theorem endRunning_modeKept (p : Request → Bool) (e : Ending) (s : State) : modeKept (endRunning p e s) = modeKept s := by
  simp only [endRunning, ↓endBuoyCal_modeKept, ↓endChanges_modeKept, ↓endFresh_modeKept, ↓endGnssCal_modeKept,
    ↓endPaths_modeKept, ↓endRelayCmd_modeKept, ↓endSurvey_modeKept, ↓endTests_modeKept, ↓endUpdFinish_modeKept]

theorem dropSession_modeKept (s : State) (slot : Nat) (own : Bool) : modeKept (dropSession s slot own) = modeKept s := by
  simp only [dropSession]
  split <;> simp only [↓modeKept_mk, ↓modeKept_fold, ↓foldl_keeps modeKept, implies_true, ↓endOne_modeKept,
    ↓endRunning_modeKept]

theorem closeSession_modeKept (s : State) (slot reason : Nat) (own : Bool) (tag : Option (Nat × Nat)) :
    modeKept (closeSession s slot reason own tag) = modeKept s := by
  simp only [closeSession]
  split <;> simp only [↓dropSession_modeKept, ↓raiseWith_modeKept]

end Sys2Proof.Machine
end

section
/-! PROOFS. What power, reset, start-up and supervision leave behind. -/

namespace Sys2Proof.Machine

open Sys2Proof

/-! ### Start-up -/

theorem countTrial_flash (s : State) (b : Bool) : countTrial s b = { s with flash := (countTrial s b).flash } := by
  unfold countTrial modSlot
  split
  · split <;> rfl
  · rfl

/-- The trials counted on the way to an image stand in the image flash and nowhere else. -/
theorem trySlots_flash (i : BootIn) (first : Bool) (l : List Bool) (s : State) :
    (trySlots i first l s).2 = { s with flash := (trySlots i first l s).2.flash } := by
  induction l generalizing s with
  | nil => rfl
  | cons b l ih =>
    unfold trySlots
    extract_lets u
    have hu : u = { s with flash := u.flash } := by
      unfold u
      split
      · exact countTrial_flash s b
      · rfl
    by_cases hv : ((imageSlot u b).state != 4 && (if b then i.sigB else i.sigA)) = true
    · rw [if_pos hv]
      exact hu
    · rw [if_neg hv]
      exact (ih u).trans (congrArg (fun v : State => { v with flash := (trySlots i first l u).2.flash }) hu)

theorem driveSwitches_voteOf (s : State) :
    let t := driveSwitches { s with stop.voted := voteOf s }
    t.stop.voted = voteOf t ∧ t.stop.sw1 = t.stop.sw2 := ⟨rfl, rfl⟩

/-- The vote drives the switches in the first mode. -/
theorem enterFirst_vote (ctrl : Bool) (s : State) :
    (enterFirst ctrl s).stop.voted = voteOf (enterFirst ctrl s)
      ∧ (enterFirst ctrl s).stop.sw1 = (enterFirst ctrl s).stop.sw2 := driveSwitches_voteOf _

theorem driveSwitches_firstKept (s : State) : firstKept (driveSwitches s) = firstKept s := by
  simp only [driveSwitches, ↓firstKept_mk, ↓firstKept_fold]

theorem enterFirst_firstKept (ctrl : Bool) (s : State) : firstKept (enterFirst ctrl s) = (0, !ctrl) := by
  simp only [enterFirst, ↓firstKept_mk, ↓firstKept_fold, ↓driveSwitches_firstKept, ↓foldl_keeps firstKept, implies_true,
    ↓robotStill_firstKept, ↓restoreHolds_firstKept, ↓rollNow_firstKept, ↓canStart_firstKept]

theorem finishStill_startKept (i : BootIn) (b : Bool) (s : State) :
    (finishStill i b s).edtor = s.edtor ∧ (finishStill i b s).flash.active = b ∧ (finishStill i b s).upd.dfu = false := by
  have h : startKept (finishStill i b s) = startKept (slotChosen b s) := by
    simp only [finishStill, ↓enterFirst_startKept, ↓phase7_startKept, ↓phase6_startKept, ↓rebuild_startKept, ↓apply_ite startKept,
      ↓phase5_startKept, ↓phase5Fault_startKept, ite_self]
  simp only [startKept, Prod.mk.injEq] at h
  obtain ⟨he, hf, hd⟩ := h
  rw [he, hf, hd]
  exact ⟨rfl, rfl, rfl⟩

theorem finishStill_clk (i : BootIn) (b : Bool) (s : State) :
    let t := finishStill i b s
    t.clk.running = true ∧ t.clk.window = .latch ∧ t.clk.firstFc = true ∧ t.clk.fcLen = 1248000 := by
  intro t
  have h : t.clk = _ := clk_of_bedrock (enterFirst_bedrock _ _)
  rw [h]
  exact ⟨rfl, rfl, rfl, rfl⟩

/-- The firmware started from an image. -/
theorem finishStill_starts (i : BootIn) (b : Bool) (s : State) :
    let t := finishStill i b s
    t.mode.stillPhase = 0 ∧ t.flash.active = b ∧ t.upd.dfu = false ∧ t.clk.running = true ∧ t.clk.window = .latch
      ∧ t.clk.firstFc = true ∧ t.clk.fcLen = 1248000 ∧ t.p.unreadable = !i.ctrl ∧ t.stop.voted = voteOf t
      ∧ t.stop.sw1 = t.stop.sw2 ∧ t.edtor = s.edtor ∧ t.fuse = s.fuse := by
  intro t
  obtain ⟨he, hf, hd⟩ := finishStill_startKept i b s
  obtain ⟨hr, hw, hfc, hl⟩ := finishStill_clk i b s
  have hk : firstKept t = (0, !i.ctrl) := enterFirst_firstKept ..
  simp only [firstKept, Prod.mk.injEq] at hk
  obtain ⟨hv, hsw⟩ : t.stop.voted = voteOf t ∧ t.stop.sw1 = t.stop.sw2 := enterFirst_vote ..
  exact ⟨hk.1, hf, hd, hr, hw, hfc, hl, hk.2, hv, hsw, he, fuse_of_root (finishStill_root i b s)⟩

theorem bootFrom_verified {i : BootIn} {first b : Bool} {s : State} (h : (trySlots i first (bootOrder s) s).1 = some b) :
    bootFrom i first s = finishStill i b (trySlots i first (bootOrder s) s).2 := by
  unfold bootFrom
  generalize trySlots i first (bootOrder s) s = r at h ⊢
  obtain ⟨o, u⟩ := r
  subst h
  rfl

theorem bootFrom_failed {i : BootIn} {first : Bool} {s : State} (h : (trySlots i first (bootOrder s) s).1 = none) :
    bootFrom i first s = bootFailed (trySlots i first (bootOrder s) s).2 := by
  unfold bootFrom
  generalize trySlots i first (bootOrder s) s = r at h ⊢
  obtain ⟨o, u⟩ := r
  subst h
  rfl

/-- What a start from an image that verifies leaves. -/
theorem bootFrom_starts {i : BootIn} {first b : Bool} {s : State} (h : (trySlots i first (bootOrder s) s).1 = some b) :
    let t := bootFrom i first s
    t.mode.stillPhase = 0 ∧ t.flash.active = b ∧ t.upd.dfu = false ∧ t.clk.running = true ∧ t.clk.window = .latch
      ∧ t.clk.firstFc = true ∧ t.clk.fcLen = 1248000 ∧ t.p.unreadable = !i.ctrl ∧ t.stop.voted = voteOf t
      ∧ t.stop.sw1 = t.stop.sw2 ∧ t.edtor = s.edtor ∧ t.fuse = s.fuse := by
  rw [bootFrom_verified h]
  have hk := finishStill_starts i b (trySlots i first (bootOrder s) s).2
  rw [show (trySlots i first (bootOrder s) s).2.edtor = s.edtor by rw [trySlots_flash],
    show (trySlots i first (bootOrder s) s).2.fuse = s.fuse by rw [trySlots_flash]] at hk
  exact hk

/-- Without an image that verifies the failure is counted and an image awaited. -/
theorem bootFrom_waits {i : BootIn} {first : Bool} {s : State} (hm : s.mode.cur = .still)
    (h : (trySlots i first (bootOrder s) s).1 = none) :
    let t := bootFrom i first s
    t.mode.cur = .still ∧ t.mode.stillPhase = 3 ∧ t.mode.stillFails = s.mode.stillFails + 1 ∧ t.upd.dfu = true
      ∧ t.bk.bootFails = sat 32 (s.bk.bootFails + 1) ∧ t.p = s.p ∧ t.nv = s.nv ∧ t.edtor = s.edtor := by
  rw [bootFrom_failed h, trySlots_flash]
  exact ⟨hm, rfl, rfl, rfl, rfl, rfl, rfl, rfl⟩

/-! ### Triggers -/

theorem trigger_early {s : State} (x : Trigger) (h : windowCode s.clk.window ≤ 2) :
    trigger s x = { s with mode.triggers := s.mode.triggers ++ [x] } := by
  unfold trigger
  refine if_pos ?_
  cases hw : s.clk.window <;> simp [hw, windowCode] at h ⊢

theorem trigger_late {s : State} (x : Trigger) (h : 2 < windowCode s.clk.window) :
    trigger s x = { s with mode.later := s.mode.later ++ [x] } := by
  unfold trigger
  refine if_neg ?_
  cases hw : s.clk.window <;> simp [hw, windowCode] at h ⊢

/-- A trigger is for the decision of this FC before COMMAND and for that of the next after. -/
theorem trigger_raised (s : State) (x : Trigger) :
    let t := trigger s x
    t.p = s.p ∧ t.mode.cur = s.mode.cur
      ∧ (windowCode s.clk.window ≤ 2 → t.mode.triggers = s.mode.triggers ++ [x] ∧ t.mode.later = s.mode.later)
      ∧ (2 < windowCode s.clk.window → t.mode.triggers = s.mode.triggers ∧ t.mode.later = s.mode.later ++ [x]) := by
  by_cases h : windowCode s.clk.window ≤ 2
  · rw [trigger_early x h]
    exact ⟨rfl, rfl, fun _ => ⟨rfl, rfl⟩, fun hn => absurd hn (Nat.not_lt.mpr h)⟩
  · rw [trigger_late x (Nat.lt_of_not_le h)]
    exact ⟨rfl, rfl, fun hn => absurd hn h, fun _ => ⟨rfl, rfl⟩⟩

theorem trigger_cores (s : State) (x : Trigger) : (trigger s x).cores = s.cores := by
  unfold trigger
  split <;> rfl

theorem trigger_veerCore (s : State) (x : Trigger) : (trigger s x).mode.veerCore = s.mode.veerCore := by
  unfold trigger
  split <;> rfl

theorem mem_trigger (s : State) (x : Trigger) : x ∈ (trigger s x).mode.triggers ++ (trigger s x).mode.later := by
  unfold trigger
  split <;> simp

/-! ### Overruns -/

theorem overrun_eq (s : State) (core : Nat) (w : Window) :
    overrun s core w = { (overrunAction s core).2 with
      cores.overruns := lmod s.cores.overruns core inc32
      cores.overrunFcs := fcNow s :: (overrunAction s core).2.cores.overrunFcs.filter fun f => decide (fcNow s < f + dayFc)
      cores.overEvs := s.cores.overEvs ++ [(core, windowCode w, (overrunAction s core).1, fcNow s)] } := by
  have hk := overrunAction_overrunKept s core
  have hc : fcNow (overrunAction s core).2 = fcNow s := congrArg Clock.fcNumber (clk_of_bedrock (overrunAction_bedrock s core))
  simp only [overrunKept, Prod.mk.injEq] at hk
  obtain ⟨ho, he, -, -⟩ := hk
  unfold overrun
  simp only [ho, he, hc]

theorem overrunAction_code (s : State) {core : Nat} :
    1 ≤ (overrunAction s core).1 ∧ (overrunAction s core).1 ≤ 7 := by
  unfold overrunAction secOverrun
  (repeat' split) <;> simp

/-- The POS and LNK cores mark their work void; the standby FLT is not ready. -/
theorem overrunAction_marks (s : State) (core : Nat) :
    let t := (overrunAction s core).2
    (s.cores.active < 2 → core = 5 → t.cores.posInvalid = true) ∧ (s.cores.active < 2 → core = 6 → t.cores.txSkipped = true)
      ∧ (core = 3 ∨ core = 4 → core ≠ 3 + s.cores.active → t.cores.standbyReady = false) := by
  refine ⟨fun ha hc => ?_, fun ha hc => ?_, fun hc hn => ?_⟩
  · have hn : ¬5 = 3 + s.cores.active := by omega
    subst hc
    simp [overrunAction, hn, voidPositions]
  · have hn : ¬6 = 3 + s.cores.active := by omega
    subst hc
    simp [overrunAction, hn]
  · have h2 : ¬core ≤ 2 := by omega
    have h4 : core ≤ 4 := by omega
    simp only [overrunAction, h2, hn, h4, ↓reduceIte]

/-! ### Reload and lease -/

theorem opCoreReload_effect {s : State} {core : Nat} (hr : running s = true)
    (h : s.cores.reload.any (fun e => e.1 == core && decide (e.2 ≤ fcNow s)) = true) :
    let t := opCoreReload core s
    (∀ e ∈ t.cores.reload, e.1 ≠ core) ∧ (∀ e ∈ s.cores.reload, e.1 ≠ core → e ∈ t.cores.reload) ∧ t.p = s.p
      ∧ (s.mode.veerCore = some core → t.mode.veerCore = none ∧ Trigger.veerOver ∈ t.mode.triggers ++ t.mode.later)
      ∧ (s.mode.veerCore ≠ some core → t.mode = s.mode) := by
  have hout : ∀ e ∈ s.cores.reload.filter (fun e => e.1 != core), e.1 ≠ core := fun e he => by
    simpa using (List.mem_filter.mp he).2
  have hin : ∀ e ∈ s.cores.reload, e.1 ≠ core → e ∈ s.cores.reload.filter (fun e => e.1 != core) := fun e he hn =>
    List.mem_filter.mpr ⟨he, by simpa using hn⟩
  have hdue := opCoreReload_due hr h
  by_cases hv : s.mode.veerCore = some core
  · rw [hdue.trans (if_pos (beq_iff_eq.mpr hv))]
    extract_lets t
    rw [trigger_cores, trigger_veerCore]
    exact ⟨hout, hin, (trigger_raised _ _).1, fun _ => ⟨rfl, mem_trigger _ _⟩, fun hn => absurd hv hn⟩
  · rw [hdue.trans (if_neg (mt beq_iff_eq.mp hv))]
    exact ⟨hout, hin, rfl, fun hs => absurd hs hv, fun _ => rfl⟩

theorem sessionAt_commitBy (s : State) (origin kind idx slot : Nat) :
    sessionAt (commitBy s origin kind idx) slot = sessionAt s slot := by
  unfold commitBy commit
  split
  · rfl
  · rfl

/-- A session dropped is no longer open, and no reply of its slot and no command of its own is left. -/
theorem dropSession_gone {s : State} {slot : Nat} {e : Session} (own : Bool) (h : sessionAt s slot = some e) :
    let t := dropSession s slot own
    sessionAt t slot = none ∧ (∀ k ∈ t.com.replies, k.slot ≠ slot)
      ∧ (∀ r ∈ t.edtor.latched, r.slot = slot → r.sessionId ≠ e.id) := by
  simp only [dropSession, h]
  refine ⟨?_, fun k hk => ?_, fun r hr hs hi => ?_⟩
  · simp only [sessionAt, tget_tput_same, Bool.false_eq_true, ↓reduceIte]
  · simpa using (List.mem_filter.mp hk).2
  · simpa [hs, hi] using (List.mem_filter.mp hr).2

theorem closeSession_gone {s : State} {slot : Nat} {e : Session} (reason : Nat) (own : Bool) (tag : Option (Nat × Nat))
    (h : sessionAt s slot = some e) :
    let t := closeSession s slot reason own tag
    sessionAt t slot = none ∧ (∀ k ∈ t.com.replies, k.slot ≠ slot)
      ∧ (∀ r ∈ t.edtor.latched, r.slot = slot → r.sessionId ≠ e.id) := by
  have hg := dropSession_gone own h
  simp only [closeSession, h]
  exact hg

theorem opLease_due {s : State} {slot : Nat} {e : Session} (hr : running s = true) (h : sessionAt s slot = some e)
    (hd : e.leaseDue = true) (hw : s.clk.window = .solve ∨ s.clk.window = .command) (hf : fltAway s = false) :
    opLease slot s = closeSession (commitBy s orgFlt okSession slot) slot 3 false none := by
  have ha : atCommand s = true := by
    rcases hw with hw | hw <;> simp [atCommand, hw]
  simp only [opLease, closeBy, h, hr, ha, hd, hf, Bool.not_false, Bool.and_self, ↓reduceIte, Option.isNone_some,
    Bool.false_eq_true]

/-- Settles O56, event by event: the equation of the event in the mode that admits it, and what it leaves behind. -/
theorem powerResetAndSupervisionEventsComplete : Obligations.PowerResetAndSupervisionEventsComplete := by
  unfold Obligations.PowerResetAndSupervisionEventsComplete
  refine ⟨fun s h => ⟨_, congrArg Host.Outcome.next (opPowerOn_doldrums h), ?_⟩,
    fun s h => ⟨_, congrArg Host.Outcome.next (opPowerFail_elsewhere h), rfl, rfl, rfl, rfl, rfl, rfl, rfl, rfl⟩,
    fun s k hr h hk hw => ⟨_, congrArg Host.Outcome.next (opReset_due hr h (.inl hw)), ?_⟩,
    fun s i b h hd hs => ⟨_, congrArg Host.Outcome.next (opStillComplete_still i h hd), bootFrom_starts hs⟩,
    fun s i h hd hs => ⟨_, congrArg Host.Outcome.next (opStillComplete_still i h hd), bootFrom_waits h hs⟩,
    fun s i b h hd hs => ⟨_, congrArg Host.Outcome.next (opBootRetry_awaiting i h hd), bootFrom_starts hs⟩,
    fun s i h hd hs => ⟨_, congrArg Host.Outcome.next (opBootRetry_awaiting i h hd), bootFrom_waits h hs⟩,
    fun s h => ⟨_, congrArg Host.Outcome.next (opBackupDomainLoss_doldrums h), rfl, rfl, rfl, rfl, rfl, rfl⟩,
    fun s hr h => ⟨_, congrArg Host.Outcome.next (opHostLoss_due hr h), trigger_raised s .hostLoss⟩,
    fun s hr h => ⟨_, congrArg Host.Outcome.next (opReferenceLost_due hr h), trigger_raised s .noPosition⟩,
    fun s core w hr hc hw => ?_, fun s core hr hc h => ⟨_, if_pos hc, opCoreReload_effect hr h⟩,
    fun s slot e hr hslot he hd hw hf => ?_⟩
  · obtain ⟨hm, hl, hp, hn, hpn, hf, hs, -⟩ := resetDevice_kept s (k := 1) (by decide)
    exact ⟨hm, hl, hp, hpn, hn, hf, hs, rfl, rfl⟩
  · obtain ⟨hm, hl, hp, hn, hpn, hf, hs, -⟩ := resetDevice_kept s hk
    exact ⟨hm, hl, hp, rfl, hpn, hn, hf, hs⟩
  · subst hw
    refine ⟨_, (if_pos hc).trans (congrArg Host.Outcome.next (opWindowOverrun_running core hr)), ?_⟩
    obtain ⟨h1, h7⟩ := overrunAction_code s (core := core)
    obtain ⟨hpos, htx, hsb⟩ := overrunAction_marks s core
    have hb := overrunAction_bedrock s core
    rw [overrun_eq]
    exact ⟨rfl, ⟨_, rfl, h1, h7⟩, hpos, htx, hsb, nv_of_bedrock hb, clk_of_bedrock hb⟩
  · refine ⟨_, (if_pos hslot).trans (congrArg Host.Outcome.next (opLease_due hr he hd hw hf)), ?_⟩
    have he' : sessionAt (commitBy s orgFlt okSession slot) slot = some e := by rw [sessionAt_commitBy, he]
    obtain ⟨hn, hrep, hlat⟩ := closeSession_gone 3 false none he'
    have hb : bedrock (closeSession (commitBy s orgFlt okSession slot) slot 3 false none) = bedrock s := by
      rw [closeSession_bedrock, commitBy_bedrock]
    have hm : modeKept (closeSession (commitBy s orgFlt okSession slot) slot 3 false none) = modeKept s := by
      rw [closeSession_modeKept, commitBy_modeKept]
    exact ⟨hn, hrep, hlat, nv_of_bedrock hb, clk_of_bedrock hb, hm⟩

end Sys2Proof.Machine
end

section
/-! PROOFS. What port, auxiliary, key and queue events leave behind. -/

namespace Sys2Proof.Machine

open Sys2Proof

/-! ### What is on a queue -/

/-- What stands in a queue and what is said of the frame at its ends: all that its levels and counts do not touch. -/
def onQueue (x : SpillQueue) :=
  (x.entries, x.resv, x.writing, x.lastRead, x.inFrame, x.ptr, x.ptrDup, x.rptr, x.rptrDup)

theorem settle_onQueue (x : SpillQueue) : onQueue (settle x) = onQueue x := by
  unfold settle
  extract_lets tail m rest
  split <;> rfl

/-- Settling takes no word out of the head. -/
theorem settle_inHead (x : SpillQueue) : x.inHead ≤ (settle x).inHead := by
  unfold settle
  extract_lets tail m rest
  split
  · exact Nat.le_add_right ..
  · exact Nat.le_refl _

section
variable (s : State) (q : Nat) (p : QParam) (x : SpillQueue)

theorem queueAt_setQueue : queueAt (setQueue s q x) q p = x := by
  simp only [queueAt, setQueue, tget_tput_same, Option.getD_some]

theorem setQueue_other {j : Nat} (h : j ≠ q) : tget (setQueue s q x).queues j = tget s.queues j := tget_tput_other _ _ h

theorem noteOccupancy_onQueue (before : Nat) : onQueue (queueAt (noteOccupancy s q p before) q p) = onQueue (queueAt s q p) := by
  unfold noteOccupancy
  extract_lets k occ crossed k' u
  have hu : onQueue (queueAt u q p) = onQueue k := by
    simp only [u, queueAt_setQueue, k']
    rfl
  split <;> exact hu

theorem noteOccupancy_other (before : Nat) {j : Nat} (h : j ≠ q) :
    tget (noteOccupancy s q p before).queues j = tget s.queues j := by
  unfold noteOccupancy
  extract_lets k occ crossed k' u
  split <;> exact tget_tput_other _ _ h

theorem noteOccupancy_p (before : Nat) : (noteOccupancy s q p before).p = s.p := by
  unfold noteOccupancy
  extract_lets k occ crossed k' u
  split <;> rfl

end

/-- A queue stored and its occupancy noted: that queue holds it, and no other queue and no setting changes. -/
theorem noteOccupancy_setQueue (s : State) (q : Nat) (p : QParam) (x : SpillQueue) (before : Nat) :
    let t := noteOccupancy (setQueue s q x) q p before
    onQueue (queueAt t q p) = onQueue x ∧ (∀ j, j ≠ q → tget t.queues j = tget s.queues j) ∧ t.p = s.p := by
  refine ⟨?_, fun j hj => ?_, noteOccupancy_p ..⟩
  · rw [noteOccupancy_onQueue, queueAt_setQueue]
  · rw [noteOccupancy_other _ _ _ _ hj, setQueue_other _ _ _ hj]

theorem push_entries (k : SpillQueue) (e : QEntry) : (push k e).entries = k.entries ++ [e] :=
  congrArg (·.1) (settle_onQueue _)

/-- The queue with the first word of a frame stored, which is the last one too where the frame has one entry (R84). -/
def firstStored (k : SpillQueue) (w : QEntry) : SpillQueue :=
  let overlong := w.frameEntries == 1 && !w.eop
  let last := w.frameEntries == 1 || w.eop
  { push k { w with eop := last, trunc := w.trunc || overlong } with
    resv := if last then 0 else w.frameEntries - 1
    writing := !last
    refused := overlong
    dropping := false
    skipToSop := false
    truncated := if overlong then inc32 k.truncated else k.truncated }

theorem firstStored_length (k : SpillQueue) (w : QEntry) : (firstStored k w).entries.length = k.entries.length + 1 :=
  (congrArg List.length (push_entries _ _)).trans (by simp)

theorem firstStored_last (k : SpillQueue) {w : QEntry} (h : w.eop = true) :
    (firstStored k w).entries = k.entries ++ [w] ∧ (firstStored k w).resv = 0 := by
  have hw : { w with eop := w.frameEntries == 1 || w.eop, trunc := w.trunc || (w.frameEntries == 1 && !w.eop) } = w := by
    cases w
    simp only at h
    simp [h]
  refine ⟨(push_entries _ _).trans (by rw [hw]), ?_⟩
  simp [firstStored, h]

theorem firstStored_more (k : SpillQueue) {w : QEntry} (h : w.eop = false) (hn : w.frameEntries ≠ 1) :
    (firstStored k w).resv = w.frameEntries - 1 ∧ (firstStored k w).writing = true := by
  simp [firstStored, h, hn]

section
variable {s : State} {q : Nat} {p : QParam} {w : QEntry} {sp : Bool}

theorem opQueueWrite_accepted (hm : mismatch (queueAt s q p) = false) (hs : w.sop = true)
    (hf : fullFor s q p (queueAt s q p) sp = false) (hr : w.frameEntries ≤ freeEntries s q (queueAt s q p))
    (hn : w.frameEntries ≠ 0) :
    opQueueWrite q w sp p s
      = noteOccupancy (setQueue s q (firstStored (queueAt s q p) w)) q p (occupancy s q (queueAt s q p)) := by
  have hc : (fullFor s q p (queueAt s q p) sp || decide (freeEntries s q (queueAt s q p) < w.frameEntries)
      || decide (w.frameEntries = 0)) = false := by
    simp [hf, hr, hn]
  rw [opQueueWrite, if_neg (by rw [hm]; decide), writeWord, if_pos hs, writeSop, if_neg (by rw [hc]; decide)]
  rfl

/-- The first word of a frame for which there is no room is refused and counted. -/
theorem opQueueWrite_refused (hm : mismatch (queueAt s q p) = false) (hs : w.sop = true)
    (hf : fullFor s q p (queueAt s q p) sp = true) :
    opQueueWrite q w sp p s = setQueue s q { queueAt s q p with
      overrun := true, overrunCount := inc32 (queueAt s q p).overrunCount, refused := !w.eop, writing := false, resv := 0 } := by
  simp only [opQueueWrite, writeWord, writeSop, hm, hs, hf, Bool.false_eq_true, Bool.true_or, ↓reduceIte]

end

theorem popHead_onQueue (k : SpillQueue) (e : QEntry) (rest : List QEntry) :
    onQueue (popHead k e rest) = (rest, k.resv, k.writing, some (entryWord e), !e.eop, k.ptr, k.ptrDup,
      (k.rptr + 1) % k.depth, (k.rptr + 1) % k.depth) := by
  have h := settle_onQueue { k with
    entries := rest, inHead := k.inHead - 1, rptr := (k.rptr + 1) % k.depth, rptrDup := (k.rptr + 1) % k.depth }
  simp only [onQueue, Prod.mk.injEq] at h ⊢
  obtain ⟨he, hr, hw, -, -, hp, hpd, hrp, hrd⟩ := h
  exact ⟨he, hr, hw, rfl, rfl, hp, hpd, hrp, hrd⟩

theorem dropped_onQueue (k : SpillQueue) :
    (dropped k).entries = k.entries.drop (frameRest k.entries) ∧ (dropped k).inFrame = false
      ∧ (dropped k).lastRead = k.lastRead := by
  have h : onQueue (dropped k) = _ := settle_onQueue _
  simp only [onQueue, Prod.mk.injEq] at h
  obtain ⟨he, -, -, hl, hf, -⟩ := h
  exact ⟨he, hf, hl⟩

theorem refilled_onQueue (k : SpillQueue) :
    (refilled k).entries = k.entries ∧ k.inHead + frontBlock k ≤ (refilled k).inHead :=
  ⟨congrArg (·.1) (settle_onQueue _), settle_inHead { k with inHead := k.inHead + frontBlock k, inMid := k.inMid - frontBlock k }⟩

/-! ### A queue that is reset -/

theorem discardWork_kept (s : State) (q : Nat) :
    (discardWork s q).cores = s.cores ∧ (discardWork s q).com = s.com := by
  constructor
  · simp only [discardWork, apply_ite State.cores, resetCommandQueue, resetReplyQueue, resetEventQueue, resetCanTx, modSession,
      ite_self]
  · simp only [discardWork, apply_ite State.com, resetCommandQueue, resetReplyQueue, resetEventQueue, resetCanTx, modSession,
      ite_self]

/-- A broken PERSIST touches neither a queue nor the CSN nor the count of queue faults. -/
theorem persistBroken_kept (s : State) :
    (persistBroken s).queues = s.queues ∧ (persistBroken s).com.csn = s.com.csn
      ∧ (persistBroken s).cores.queueFaults = s.cores.queueFaults := by
  unfold persistBroken triggerLater
  split
  · exact ⟨rfl, rfl, rfl⟩
  · extract_lets u
    split <;> exact ⟨rfl, rfl, rfl⟩

theorem resetQueue_effect (s : State) (q : Nat) (p : QParam) (cause : Nat) (reading : Bool) :
    let t := resetQueue s q p cause reading
    (queueAt t q p).entries = [] ∧ (queueAt t q p).faults = inc32 (queueAt s q p).faults ∧ mismatch (queueAt t q p) = false
      ∧ (queueAt t q p).overrunCount = (queueAt s q p).overrunCount ∧ (queueAt t q p).depth = (queueAt s q p).depth
      ∧ t.cores.queueFaults = inc32 s.cores.queueFaults ∧ t.com.csn = s.com.csn := by
  obtain ⟨hc, hm⟩ := discardWork_kept s q
  intro t
  have hq : queueAt t q p = _ := queueAt_setQueue (discardWork s q) q p _
  have hf : t.cores.queueFaults = inc32 (discardWork s q).cores.queueFaults := rfl
  have hn : t.com.csn = (discardWork s q).com.csn := rfl
  rw [hq, hf, hn, hc, hm]
  exact ⟨rfl, rfl, rfl, rfl, rfl, rfl, rfl⟩

theorem faultQueue_effect (s : State) (q : Nat) (p : QParam) (cause : Nat) (reading : Bool) :
    let t := faultQueue s q p cause reading
    (queueAt t q p).entries = [] ∧ (queueAt t q p).faults = inc32 (queueAt s q p).faults ∧ mismatch (queueAt t q p) = false
      ∧ (queueAt t q p).overrunCount = (queueAt s q p).overrunCount ∧ (queueAt t q p).depth = (queueAt s q p).depth
      ∧ t.cores.queueFaults = inc32 s.cores.queueFaults ∧ t.com.csn = s.com.csn := by
  have hr := resetQueue_effect s q p cause reading
  unfold faultQueue
  generalize resetQueue s q p cause reading = u at hr ⊢
  split
  · obtain ⟨hq, hcsn, hf⟩ := persistBroken_kept u
    simp only [queueAt, hq, hcsn, hf]
    exact hr
  · exact hr

/-! ### Auxiliary inputs and outputs -/

theorem auxLive_modIo_same (s : State) (io : Nat) (f : AuxLive → AuxLive) : auxLive (modIo s io f) io = f (auxLive s io) :=
  tgetD_tmod_same ..

theorem auxLive_modIo_other (s : State) {io k : Nat} (f : AuxLive → AuxLive) (h : k ≠ io) :
    auxLive (modIo s io f) k = auxLive s k := tgetD_tmod_other _ _ _ h

section
variable {s : State} {io pclk : Nat}

theorem opAuxInput_edge {level : Bool} (hp : inFc s pclk = true) (ho : isOutput s io = false)
    (hl : (auxLive s io).level = !level) (hv : (level && !s.ports.vio) = false) :
    opAuxInput io level pclk s = modIo s io fun x => { x with
      level := level, changes := x.changes + 1, total := inc32 x.total,
      chatter := x.chatter || decide (64 < x.changes + 1), edge := some (timeAt s pclk, level) } := by
  have hc : ¬(!inFc s pclk || isOutput s io || (auxLive s io).level == level || (level && !s.ports.vio)) = true := by
    simp [hp, ho, hl, hv]
  exact if_neg hc

theorem opOutFault_on (hp : inFc s pclk = true) (ho : outOn s io = true) :
    opOutFault io pclk s = modIo s io fun x => { x with outFault := true, faultEv := some (timeAt s pclk) } := by
  have hc : ¬(!inFc s pclk || !outOn s io) = true := by simp [hp, ho]
  exact if_neg hc

theorem opSvcEn_change {active : Bool} (hp : inFc s pclk = true) (h : s.ports.svcEn = !active) :
    opSvcEn active pclk s = { s with ports.svcEn := active, ports.svcEdge := some (timeAt s pclk) } := by
  have hc : ¬(!inFc s pclk || s.ports.svcEn == active) = true := by simp [hp, h]
  exact if_neg hc

theorem opVioLost_change {present : Bool} (hp : inFc s pclk = true) (h : s.ports.vio = !present) :
    opVioLost present pclk s = { s with
      ports.vio := present
      ports.vioEv := some (present, timeAt s pclk)
      ports.io := if present then s.ports.io else tmap s.ports.io fun _ x => { x with level := false } } := by
  have hc : ¬(!inFc s pclk || s.ports.vio == present) = true := by simp [hp, h]
  exact if_neg hc

end

theorem tgetD_low (t : Tbl AuxLive) (k : Nat) : (tgetD (tmap t fun _ x => { x with level := false }) k {}).level = false := by
  rw [tgetD, tget_tmap]
  cases tget t k <;> rfl

/-! ### Host ports -/

/-- The counters of a host port. -/
def hostAt (s : State) (port : Port) : PortLive := tgetD s.ports.hosts (portCode port) {}

/-- Change the counters of a host port. -/
def modHost (s : State) (port : Port) (f : PortLive → PortLive) : State :=
  { s with ports.hosts := tmod s.ports.hosts (portCode port) {} f }

theorem hostAt_modHost (s : State) (port : Port) (f : PortLive → PortLive) : hostAt (modHost s port f) port = f (hostAt s port) :=
  tgetD_tmod_same ..

theorem modHost_other (s : State) (port : Port) (f : PortLive → PortLive) {j : Nat} (h : j ≠ portCode port) :
    tget (modHost s port f).ports.hosts j = tget s.ports.hosts j := tget_tput_other _ _ h

theorem opPortLink_change {s : State} {port : Port} {up : Bool} {speed : Nat}
    (h : ((hostAt s port).link == up && (hostAt s port).speed == speed) = false) :
    opPortLink port up speed s = modHost s port fun x => { x with
      link := up, speed := speed, changed := true, losses := if x.link && !up then inc32 x.losses else x.losses } := by
  have hc : ¬((hostAt s port).link == up && (hostAt s port).speed == speed) = true := by
    rw [h]
    decide
  exact if_neg hc

/-- A change of a port's link is noted, and its loss counted, on that port alone. -/
theorem opPortLink_effect {s : State} {port : Port} {up : Bool} {speed : Nat}
    (h : ((hostAt s port).link == up && (hostAt s port).speed == speed) = false) :
    let t := opPortLink port up speed s
    (hostAt t port).link = up ∧ (hostAt t port).speed = speed ∧ (hostAt t port).changed = true
      ∧ (hostAt t port).losses
          = (if (hostAt s port).link = true ∧ up = false then inc32 (hostAt s port).losses else (hostAt s port).losses)
      ∧ (∀ j, j ≠ portCode port → tget t.ports.hosts j = tget s.ports.hosts j) ∧ t.p = s.p := by
  rw [opPortLink_change h]
  extract_lets t
  rw [hostAt_modHost]
  exact ⟨rfl, rfl, rfl, by simp, fun j hj => modHost_other _ _ _ hj, rfl⟩

/-- How a port counts a frame it has passed on: answered within the limit of its kind, or as other. -/
def countFrame (kind : HostFrame) (x : PortLive) : PortLive :=
  match kind with
  | .echo => if x.echoes < 16 then { x with echoes := x.echoes + 1 } else { x with other := inc32 x.other }
  | .other => { x with other := inc32 x.other }
  | _ => if x.arps < 64 then { x with arps := x.arps + 1 } else { x with other := inc32 x.other }

theorem countFrame_frames (kind : HostFrame) (x : PortLive) : (countFrame kind x).frames = x.frames := by
  unfold countFrame
  (repeat' split) <;> rfl

theorem opArpNdpEchoRequest_passed {s : State} {port : Port} (kind : HostFrame) (h : (hostAt s port).frames < 2048) :
    opArpNdpEchoRequest port kind s
      = modHost (modHost s port fun x => { x with frames := x.frames + 1 }) port (countFrame kind) := by
  have hp : portFrame s port = (true, modHost s port fun x => { x with frames := x.frames + 1 }) := if_pos h
  unfold opArpNdpEchoRequest
  rw [hp]
  generalize modHost s port _ = u
  cases kind with
  | other => rfl
  | echo =>
    simp only [modHost, tmod, countFrame, portOther, Bool.not_true, Bool.false_eq_true, ↓reduceIte]
    split <;> rfl
  | arp =>
    simp only [modHost, tmod, countFrame, portOther, Bool.not_true, Bool.false_eq_true, ↓reduceIte]
    split <;> rfl
  | ndp =>
    simp only [modHost, tmod, countFrame, portOther, Bool.not_true, Bool.false_eq_true, ↓reduceIte]
    split <;> rfl

theorem opArpNdpEchoRequest_effect {s : State} {port : Port} (kind : HostFrame) (h : (hostAt s port).frames < 2048) :
    let t := opArpNdpEchoRequest port kind s
    (hostAt t port).frames = (hostAt s port).frames + 1
      ∧ (kind = .echo → (hostAt s port).echoes < 16 →
          (hostAt t port).echoes = (hostAt s port).echoes + 1 ∧ (hostAt t port).other = (hostAt s port).other)
      ∧ (kind = .arp ∨ kind = .ndp → (hostAt s port).arps < 64 →
          (hostAt t port).arps = (hostAt s port).arps + 1 ∧ (hostAt t port).other = (hostAt s port).other)
      ∧ (kind = .other → (hostAt t port).other = inc32 (hostAt s port).other)
      ∧ (∀ j, j ≠ portCode port → tget t.ports.hosts j = tget s.ports.hosts j) ∧ t.p = s.p := by
  intro t
  have hat : hostAt t port = countFrame kind { hostAt s port with frames := (hostAt s port).frames + 1 } := by
    rw [show t = _ from opArpNdpEchoRequest_passed kind h, hostAt_modHost, hostAt_modHost]
  rw [hat, show t = _ from opArpNdpEchoRequest_passed kind h]
  refine ⟨countFrame_frames .., fun hk he => ?_, fun hk ha => ?_, fun hk => ?_, fun j hj => ?_, rfl⟩
  · subst hk
    simp only [countFrame, he, ↓reduceIte, and_self]
  · rcases hk with rfl | rfl <;> simp only [countFrame, ha, ↓reduceIte, and_self]
  · subst hk
    rfl
  · rw [modHost_other _ _ _ hj, modHost_other _ _ _ hj]

/-! ### Tamper, rolls -/

theorem trip_effect (s : State) (i : Nat) :
    (trip s i).bk.rtc = s.bk.rtc ∧ (trip s i).bk.enable = s.bk.enable ∧ (trip s i).bk.latched = true
      ∧ (trip s i).bk.tamperCount = (s.bk.tamperCount + 1) % 2 ^ 32 := by
  unfold trip wipeSite
  extract_lets maint invalidate u
  split <;> exact ⟨rfl, rfl, rfl, rfl⟩

/-- A check that finds its source for the second time running trips an enabled sensor, and no other check does. -/
theorem opTamperCheck_effect (s : State) (i rtc : Nat) (found : Bool) :
    let t := opTamperCheck i found rtc s
    t.bk.rtc = rtc ∧ t.bk.enable = s.bk.enable
      ∧ ((found = true ∧ s.bk.tripRun.getD i 0 = 1 ∧ bit s.bk.enable i = true) →
          t.bk.latched = true ∧ t.bk.tamperCount = (s.bk.tamperCount + 1) % 2 ^ 32)
      ∧ (¬(found = true ∧ s.bk.tripRun.getD i 0 = 1 ∧ bit s.bk.enable i = true) →
          t.bk.latched = s.bk.latched ∧ t.bk.tamperCount = s.bk.tamperCount ∧ t.bk.slots = s.bk.slots ∧ t.p = s.p) := by
  unfold opTamperCheck
  extract_lets n now bk u t
  have hn : (decide (n = 2) && bit u.bk.enable i) = true ↔
      found = true ∧ s.bk.tripRun.getD i 0 = 1 ∧ bit s.bk.enable i = true := by
    rw [Bool.and_eq_true, decide_eq_true_iff, ← and_assoc]
    refine and_congr_left' ?_
    unfold n
    cases found
    · simp
    · simp only [↓reduceIte, true_and]
      omega
  by_cases h : (decide (n = 2) && bit u.bk.enable i) = true
  · rw [show t = trip u i from if_pos h]
    obtain ⟨hr, he, hl, hc⟩ := trip_effect u i
    exact ⟨hr, he, fun _ => ⟨hl, hc⟩, fun hne => absurd (hn.mp h) hne⟩
  · rw [show t = u from if_neg h]
    exact ⟨rfl, rfl, fun hy => absurd (hn.mpr hy) h, fun _ => ⟨rfl, rfl, rfl, rfl⟩⟩

theorem opRollEffective_due {s : State} {what e : Nat} (hr : running s = true) (h : s.p.keys.roll = some (what, e))
    (he : e ≤ fcNow s) :
    opRollEffective s = rollEvent (rollNow s) none 7 (rollNow s).p.keys.beaconGen (rollNow s).p.keys.groupGen e := by
  simp only [opRollEffective, h, hr, Nat.not_lt.mpr he, Bool.not_true, Bool.false_or, decide_false, Bool.false_eq_true,
    ↓reduceIte]

/-! ### Memory faults -/

theorem memEvent_countUncorrected (u : State) (k : Nat) (m : MemFault) :
    (memEvent (countUncorrected u k) m).cores.memEvs = u.cores.memEvs ++ [m]
      ∧ (memEvent (countUncorrected u k) m).cores.faulted = u.cores.faulted ∧ (memEvent (countUncorrected u k) m).strt = u.strt :=
  ⟨rfl, rfl, rfl⟩

theorem countCorrected_effect (s : State) {f : MemIn} (hu : memUnitOk f = true) (hb : f.block ≠ 3) :
    let t := countCorrected s f.block
    t.cores.eccReset = inc32 s.cores.eccReset ∧ t.cores.memEvs = s.cores.memEvs ∧ t.strt = s.strt ∧ t.edtor = s.edtor
      ∧ t.mode = s.mode := by
  obtain h | h | h | h | h : f.block = 1 ∨ f.block = 2 ∨ f.block = 4 ∨ f.block = 5 ∨ f.block = 6 := by
    unfold memUnitOk at hu
    split at hu <;> simp_all
  all_goals
    rw [h]
    exact ⟨rfl, rfl, rfl, rfl, rfl⟩

theorem trigger_strt (s : State) (x : Trigger) : (trigger s x).strt = s.strt := by
  unfold trigger
  split <;> rfl

/-- A core's fault is noted beside what its overrun does. -/
theorem coreFault_notes (s : State) (core : Nat) (w : Window) :
    (coreFault s core w).cores.memEvs = (overrun s core w).cores.memEvs ∧ core ∈ (coreFault s core w).cores.faulted
      ∧ (coreFault s core w).strt = (overrun s core w).strt := by
  have hmem : core ∈ (overrun s core w).cores.faulted.filter (· != core) ++ [core] :=
    List.mem_append_right _ (List.mem_singleton_self core)
  unfold coreFault
  generalize overrun s core w = x at hmem ⊢
  dsimp only [countReload]
  split
  · exact ⟨rfl, hmem, rfl⟩
  split
  · exact ⟨rfl, hmem, rfl⟩
  split
  · exact ⟨rfl, hmem, rfl⟩
  · rw [trigger_cores, trigger_strt]
    exact ⟨rfl, hmem, rfl⟩

theorem coreFault_effect (s : State) (core : Nat) (w : Window) :
    (coreFault s core w).cores.memEvs = s.cores.memEvs ∧ core ∈ (coreFault s core w).cores.faulted
      ∧ (coreFault s core w).strt = s.strt := by
  have hk := overrunAction_overrunKept s core
  simp only [overrunKept, Prod.mk.injEq] at hk
  obtain ⟨-, -, hm, ht⟩ := hk
  obtain ⟨hcm, hmem, hct⟩ := coreFault_notes s core w
  rw [overrun_eq] at hcm hct
  exact ⟨hcm.trans hm, hmem, hct.trans ht⟩

theorem searchFault_effect (s : State) (unit : Nat) :
    ∀ q ∈ (searchFault s unit).allot.reqs, q.unit = unit → q.stage ≠ .searching := by
  intro q hq hu
  obtain ⟨x, hx, rfl⟩ := List.mem_map.mp hq
  by_cases hs : x.stage = .searching ∧ x.unit = unit
  · simp only [hs.1, hs.2, beq_self_eq_true, Bool.and_self, ↓reduceIte]
    split <;> simp
  · have hc : ¬(x.stage == .searching && x.unit == unit) = true := by simpa using hs
    simp only [hc, Bool.false_eq_true, ↓reduceIte] at hu ⊢
    exact fun hst => hs ⟨hst, hu⟩

/-- Settles O60, event by event: the equation of the event under its condition, and the lemma on what its unit holds then. -/
theorem portKeyAndQueueEventsComplete : Obligations.PortKeyAndQueueEventsComplete := by
  unfold Obligations.PortKeyAndQueueEventsComplete
  refine ⟨fun s port up speed h => ⟨_, rfl, opPortLink_effect h⟩,
    fun s port kind h => ⟨_, rfl, opArpNdpEchoRequest_effect kind h⟩, fun s io pclk level hio hp ho hl hv => ?_,
    fun s io pclk hio hp ho => ?_,
    fun s active pclk hp h => ⟨_, congrArg Host.Outcome.next (opSvcEn_change hp h), rfl, rfl, rfl, rfl, rfl⟩,
    fun s present pclk hp h => ?_, fun s i rtc found hi => ⟨_, if_pos hi, opTamperCheck_effect s i rtc found⟩,
    fun s h => ⟨_, congrArg Host.Outcome.next (if_pos h), rfl, rfl, rfl, rfl⟩, fun s what e hr h he => ?_,
    fun s q w sp k hq hm hs hf hr hn => ?_, fun s q w sp k hq hm hs hf => ?_, fun s q k e rest hq hm he hh hs => ?_,
    fun s q k hq h => ?_,
    fun s q k hq hp hm => ?_, fun s q dram reading k hq => ?_, fun s f hr hu hc hb => ?_, fun s f hr hu hc hb => ?_,
    fun s f hr hu hc hb => ?_⟩
  · refine ⟨_, (if_pos hio).trans (congrArg Host.Outcome.next (opAuxInput_edge hp ho hl hv)), ?_⟩
    rw [auxLive_modIo_same]
    exact ⟨rfl, rfl, rfl, rfl, fun k hk => auxLive_modIo_other s _ hk, rfl, rfl⟩
  · refine ⟨_, (if_pos hio).trans (congrArg Host.Outcome.next (opOutFault_on hp ho)), ?_⟩
    rw [auxLive_modIo_same]
    exact ⟨rfl, rfl, rfl, fun k hk => auxLive_modIo_other s _ hk, rfl, rfl⟩
  · refine ⟨_, congrArg Host.Outcome.next (opVioLost_change hp h), rfl, rfl, fun hf k => ?_, fun ht => ?_, rfl⟩
    · subst hf
      exact tgetD_low s.ports.io k
    · subst ht
      rfl
  · refine ⟨_, congrArg Host.Outcome.next (opRollEffective_due hr h he), ?_⟩
    simp only [rollNow, h]
    exact ⟨rfl, rfl, rfl, rfl, rfl, rfl⟩
  · obtain ⟨hw, -⟩ := exec_onQueue (s := s) hq
    refine ⟨_, hw w sp, ?_⟩
    rw [opQueueWrite_accepted hm hs hf hr hn]
    obtain ⟨hx, hj, hp⟩ := noteOccupancy_setQueue s q k (firstStored (queueAt s q k) w) (occupancy s q (queueAt s q k))
    simp only [onQueue, Prod.mk.injEq] at hx
    obtain ⟨he, hv, hwr, -⟩ := hx
    rw [he, hv, hwr]
    exact ⟨firstStored_length _ _, firstStored_last _, firstStored_more _, hj, hp⟩
  · obtain ⟨hw, -⟩ := exec_onQueue (s := s) hq
    refine ⟨_, (hw w sp).trans (congrArg Host.Outcome.next (opQueueWrite_refused hm hs hf)), ?_⟩
    rw [queueAt_setQueue]
    exact ⟨rfl, rfl, rfl, rfl, fun j hj => setQueue_other s q _ hj, rfl⟩
  · obtain ⟨-, hread, -⟩ := exec_onQueue (s := s) hq
    refine ⟨_, hread, ?_⟩
    rw [opQueueRead_word hm he hh hs]
    obtain ⟨hx, hj, hp⟩ := noteOccupancy_setQueue s q k (popHead (queueAt s q k) e rest) (occupancy s q (queueAt s q k))
    rw [popHead_onQueue] at hx
    simp only [onQueue, Prod.mk.injEq] at hx
    obtain ⟨hen, -, -, hl, hf, hpt, hpd, hrp, hrd⟩ := hx
    have hm' := hm
    simp only [mismatch, Bool.or_eq_false_iff] at hm'
    refine ⟨hen, hl, hf, hrp, ?_, hj, hp⟩
    simp only [mismatch, hpt, hpd, hrp, hrd, hm'.1, bne_self_eq_false, Bool.or_self]
  · obtain ⟨-, -, hdrop, -⟩ := exec_onQueue (s := s) hq
    refine ⟨_, hdrop, ?_⟩
    rw [opDropRest_inFrame h]
    obtain ⟨he, hf, hl⟩ := dropped_onQueue (queueAt s q k)
    obtain ⟨hx, hj, hp⟩ := noteOccupancy_setQueue s q k
      { dropped (queueAt s q k) with refillPending := wantsRefill (dropped (queueAt s q k)) } (occupancy s q (queueAt s q k))
    simp only [onQueue, Prod.mk.injEq] at hx
    obtain ⟨hxe, -, -, hxl, hxf, -⟩ := hx
    exact ⟨hxe.trans he, hxf.trans hf, hxl.trans hl, hj, hp⟩
  · obtain ⟨-, -, -, hrefill, -⟩ := exec_onQueue (s := s) hq
    refine ⟨_, hrefill.trans (congrArg Host.Outcome.next (opHeadRefill_pending hp hm)), ?_⟩
    rw [queueAt_setQueue]
    obtain ⟨he, hh⟩ := refilled_onQueue (queueAt s q k)
    exact ⟨hh, he, rfl, fun j hj => setQueue_other s q _ hj, rfl⟩
  · obtain ⟨-, -, -, -, hfault⟩ := exec_onQueue (s := s) hq
    exact ⟨_, hfault dram reading, faultQueue_effect ..⟩
  · exact ⟨_, (exec_memoryFault s hu).trans (congrArg Host.Outcome.next (opMemoryFault_corrected hr hc)),
      countCorrected_effect s hu hb⟩
  · refine ⟨_, (exec_memoryFault s hu).trans (congrArg Host.Outcome.next (opMemoryFault_core hr hc hb)), ?_⟩
    obtain ⟨hm, hmem, ht⟩ := coreFault_effect s f.unit f.window
    have hn : bedrock (memEvent (countUncorrected (coreFault s f.unit f.window) 0) { block := 1, unit := f.unit, outcome := 1 })
        = bedrock s := by
      rw [memEvent_bedrock, countUncorrected_bedrock, coreFault_bedrock]
    obtain ⟨hme, hfe, hte⟩ := memEvent_countUncorrected (coreFault s f.unit f.window) 0
      { block := 1, unit := f.unit, outcome := 1 }
    rw [hme, hfe, hte, hm]
    exact ⟨rfl, hmem, nv_of_bedrock hn, ht⟩
  · refine ⟨_, (exec_memoryFault s hu).trans (congrArg Host.Outcome.next (opMemoryFault_search hr hc hb)), ?_⟩
    exact ⟨rfl, rfl, searchFault_effect s f.unit⟩

end Sys2Proof.Machine
end

section
/-! PROOFS. Commits and the expected-CSN check, opcodes outside the list, and the session list. -/

namespace Sys2Proof.Machine

open Sys2Proof

/-! ### Commits -/

/-- A fold that writes one value at each of its keys leaves it there, and at every key that held it before. -/
theorem tgetD_foldl_tput {α β : Type} (key : β → Nat) (v d : α) (l : List β) (t : Tbl α) (k : Nat)
    (h : k ∈ l.map key ∨ tgetD t k d = v) : tgetD (l.foldl (fun t o => tput t (key o) v) t) k d = v := by
  induction l generalizing t with
  | nil => simpa using h
  | cons o l ih =>
    refine ih _ ?_
    by_cases hk : k = key o
    · exact .inr (by rw [hk, tgetD_tput_same])
    · rw [tgetD_tput_other _ _ _ hk]
      simpa [hk] using h

/-- Every object of the set takes the CSN of the commit (R72). -/
theorem objCsn_committed (s : State) {objs : List (Nat × Nat)} {o : Nat × Nat} (h : o ∈ objs) :
    objCsn (committed s objs) o.1 o.2 = s.com.nextCsn :=
  tgetD_foldl_tput (fun o : Nat × Nat => objKey o.1 o.2) _ _ objs _ _ (.inl (List.mem_map_of_mem h))

/-- A commit that no command causes leaves the command's own count and is entered under its origin (R97). -/
theorem commitBy_eq {s : State} (g k i : Nat) (h : mramFog s = false) :
    commitBy s g k i = { committed s [(k, i)] with
      com.cmdCommits := s.com.cmdCommits
      com.cmdLast := s.com.cmdLast
      com.internal := extendInternal s.com.internal g s.com.nextCsn (fcNow s) } := by
  simp only [commitBy, h, Bool.false_eq_true, ↓reduceIte, commit_eq k i h]
  rfl

theorem commit_mramFog {s : State} (k i : Nat) (h : mramFog s = true) : commit s k i = s := if_pos h

theorem commitBy_mramFog {s : State} (g k i : Nat) (h : mramFog s = true) : commitBy s g k i = s := if_pos h

theorem commitAll_mramFog {s : State} (objs : List (Nat × Nat)) (h : mramFog s = true) : commitAll s objs = s := by
  cases objs with
  | nil => rfl
  | cons o os => exact if_pos h

/-- Settles O8: the commits as equations (`commit_eq`, `commitAll_eq`, `commitBy_eq`), and each object of the set under the new
CSN. -/
theorem aCommitTakesTheNextCsn : Obligations.ACommitTakesTheNextCsn := by
  unfold Obligations.ACommitTakesTheNextCsn
  refine ⟨fun s k i h => ⟨commit_eq k i h, ?_⟩, fun s o os h => ⟨commitAll_eq o os h, fun x hx => ?_⟩,
    fun s g k i h => commitBy_eq g k i h,
    fun s g k i o h => ⟨commit_mramFog k i h, commitBy_mramFog g k i h, commitAll_mramFog o h⟩⟩
  · rw [commit_eq k i h]
    exact objCsn_committed s (o := (k, i)) (List.mem_singleton_self _)
  · rw [commitAll_eq o os h]
    exact objCsn_committed s hx

/-! ### The expected-CSN check -/

@[simp] theorem le_length (n x : Nat) : (le n x).length = n := by
  induction n generalizing x with
  | zero => rfl
  | succ n ih => simp only [le, List.length_cons, ih]

@[simp] theorem zb_length (n : Nat) : (zb n).length = n := List.length_replicate

theorem mismatchPayload_length (s : State) (o : Nat × Nat) : (mismatchPayload s o).length = 16 := by
  simp [mismatchPayload]

/-- The first object of a set that has changed since E is the one found. -/
theorem changedSince_first {s : State} {e : Nat} {pre : List (Nat × Nat)} (post : List (Nat × Nat)) {o : Nat × Nat}
    (hpre : ∀ x ∈ pre, objCsn s x.1 x.2 ≤ e) (ho : e < objCsn s o.1 o.2) : changedSince s e (pre ++ o :: post) = some o := by
  have hnone : pre.find? (fun x => decide (e < objCsn s x.1 x.2)) = none :=
    List.find?_eq_none.mpr fun x hx => by simpa using hpre x hx
  simp [changedSince, List.find?_append, hnone, ho]

/-- What a command has to be allowed to change: the site's memories, the CSNs, and what the modes, the time base, the stop path,
the rounds, the reservations, the CAN channels and the update hold. The end of a command by itself leaves it alone. -/
def site (s : State) : Mram × Backup × Flash × Nat × Nat × ModeState × TimeBase × Stop × Allot × Strt × List CanChan ×
    Upd :=
  (s.p, s.bk, s.flash, s.com.csn, s.com.nextCsn, s.mode, s.time, s.stop, s.allot, s.strt, s.can, s.upd)

theorem takeLatched_site (s : State) (r : Request) : site (takeLatched s r) = site s := rfl

theorem record_site (s : State) (r : Request) (final : Bool) (intr status planned : Nat) :
    site (record s r final intr status planned) = site s := rfl

theorem countViol_site (s : State) (slot : Nat) (port : Port) (i : Nat) (executing : Bool) :
    site (countViol s slot port i executing) = site s := rfl

theorem countStatus_site (s : State) (r : Request) (status : Nat) : site (countStatus s r status) = site s := by
  unfold countStatus
  split
  · exact countViol_site ..
  · rfl

theorem queueReply_site (s : State) (r : Request) (k : Packet) : site (queueReply s r k) = site s := by
  unfold queueReply
  split <;> rfl

theorem finishI_site (s : State) (r : Request) (intr status : Nat) (payload : Bytes) :
    site (finishI s r intr status payload) = site s := by
  rw [finishI, queueReply_site]
  split
  · rw [countStatus_site, record_site]
  · exact record_site ..

theorem finish_site (s : State) (r : Request) (status : Nat) (payload : Bytes) : site (finish s r status payload) = site s :=
  finishI_site ..

theorem finishFrags_site (s : State) (r : Request) (parts : List Bytes) (perFc : Nat) :
    site (finishFrags s r parts perFc) = site s := rfl

theorem carry_site (s : State) (r : Request) : site (carry s r) = site s := by
  unfold carry
  split <;> rfl

/-- Settles O9: the object found is the first changed one, and the end of the command leaves the site as it is. -/
theorem csnMismatchNamesTheFirstChangedObject : Obligations.CsnMismatchNamesTheFirstChangedObject := by
  unfold Obligations.CsnMismatchNamesTheFirstChangedObject
  refine ⟨fun s r e pre post o k he hpre ho => ?_, fun s r objs k h => checkCsn_passes k h⟩
  have ht : checkCsn s r (pre ++ o :: post) k = finishI s r intCsn stCsnMismatch (mismatchPayload s o) := by
    simp only [checkCsn, he, changedSince_first post hpre ho]
  have hs := finishI_site s r intCsn stCsnMismatch (mismatchPayload s o)
  simp only [site, Prod.mk.injEq] at hs
  obtain ⟨hp, -, -, hcsn, hnext, -⟩ := hs
  extract_lets payload t
  have ht' : t = finishI s r intCsn stCsnMismatch (mismatchPayload s o) := ht
  rw [ht']
  exact ⟨rfl, mismatchPayload_length s o, hp, hcsn, hnext⟩

/-! ### Opcodes outside the list -/

/-- Settles O12: a live command of an unassigned opcode finishes with ST_BAD_OPCODE, an assigned one is left to its row. -/
theorem unassignedOpcodesAreTurnedAway : Obligations.UnassignedOpcodesAreTurnedAway := by
  unfold Obligations.UnassignedOpcodesAreTurnedAway
  refine ⟨fun r s hl hn => turnedAway_of_finish ?_ rfl hl, fun r s h => congrArg Host.Outcome.next (if_pos h)⟩
  have hu : ¬(opByCode r.opcode).isSome = true := by
    rw [Option.isNone_iff_eq_none] at hn
    simp [hn]
  exact congrArg Host.Outcome.next ((if_neg hu).trans (if_pos hl))

/-! ### The session list (R57) -/

theorem sessionEntry_free {s : State} {n : Nat} (h : sessionAt s n = none) : sessionEntry s n = zb 24 := by
  simp only [sessionEntry, h]

theorem sessionEntry_length (s : State) (n : Nat) : (sessionEntry s n).length = 24 := by
  unfold sessionEntry
  split <;> simp

theorem sessionsReply_eq (s : State) :
    sessionsReply s = sessionEntry s 0 ++ sessionEntry s 1 ++ sessionEntry s 2 ++ sessionEntry s 3 := by
  simp [sessionsReply, List.range_succ]

/-- Settles O15: the reply is the four entries one after the other, each of 24 bytes. -/
theorem sessionListHas24BytesForEachSlot : Obligations.SessionListHas24BytesForEachSlot := by
  unfold Obligations.SessionListHas24BytesForEachSlot
  refine ⟨fun s => ⟨?_, sessionsReply_eq s⟩, fun s n h => sessionEntry_free (Option.isNone_iff_eq_none.mp h)⟩
  rw [sessionsReply_eq]
  simp [sessionEntry_length]

end Sys2Proof.Machine
end

section
/-! PROOFS. The opcode rows: which of them execute, how they are turned away, and what they change for a lesser role. Every row
makes the checks of R576 in their order, through `runOp` or, for the stop opcodes, beside it. The lemmas `row_…` say what each
check does by itself, with `t` for all that may come after it, so that one lemma serves every row. -/

namespace Sys2Proof.Machine

open Sys2Proof

/-! ### Rows that do not execute -/

/-- A command that does not execute is carried. -/
theorem row_dead {s t : State} {r : Request} (hl : live s r = false) :
    (if !live s r then carry s r else t) = carry s r := by
  simp only [hl, Bool.not_false, ↓reduceIte]

/-- A row that may have to wait for a later FC before it is checked. -/
theorem waits_or_dead {w : Prop} [Decidable w] {s t : State} {r : Request} (hl : live s r = false) :
    (if w then s else if !live s r then carry s r else t) = s
      ∨ (if w then s else if !live s r then carry s r else t) = carry s r := by
  split
  · exact .inl rfl
  · exact .inr (row_dead hl)

theorem opUnassignedOpcode_dead {s : State} {r : Request} (hl : live s r = false) : opUnassignedOpcode r s = s := by
  simp only [opUnassignedOpcode, badOpcode, hl, Bool.false_eq_true, ↓reduceIte, ite_self]

/-- A row whose command does not execute leaves the state, or counts one held for want of journal slots (R54, R60, R99). -/
theorem exec_of_not_live {c : Instr} {r : Request} {s : State} (h : opcodeRequest c = some r) (hs : r.slot ≠ 4)
    (hl : live s r = false) : exec c s = .next s ∨ exec c s = .next (carry s r) := by
  cases c with
  | unassignedOpcode q =>
    cases h
    exact .inl (congrArg Host.Outcome.next (opUnassignedOpcode_dead hl))
  | sysSessionOpen q =>
    cases h
    exact .inr (congrArg Host.Outcome.next ((if_pos (bne_iff_ne.mpr hs)).trans (row_dead hl)))
  | strtHoldSet q | attestGet q | diagTableRead q =>
    cases h
    exact (waits_or_dead hl).imp (congrArg Host.Outcome.next) (congrArg Host.Outcome.next)
  | sysIdentity q | sysModeGet q | sysModeSet q | sysPowerConfig q
  | sysSessionClose q | sysSessionList q | sysHostEnrol q | sysHostRevoke q | sysTenderClose q
  | sysNetConfig q | sysAuxConfig q | sysAuxSet q | sysPortStatus q | timeGet q | timeConfig q | timeStep q
  | timeTriggerSet q | timeTriggerGet q | gnssStatus q | gnssConfig q | gnssMeasRead q | gnssNotchSet q
  | gnssCalibrate q | refStatus q | refBaseSet q | refConfig q | refSurveyStart q | refRtcmSubscribe q
  | buoyStatus q | buoyAnchorSet q | buoyConfig q | buoyCalibrate q | buoyZoneSet q | buoyFixSubscribe q
  | sessConfig q | sessClassSet q | sessClassGet q | sessEnrol q | sessRevoke q | sessRelease q | sessGet q
  | sessList q | taskPost q | taskModify q | taskCancel q | taskGet q | taskList q | taskConfig q
  | strtGridSet q | strtStatus q | strtHoldClear q | strtHoldList q | strtReservePath q
  | pathGet q | pathRequest q | pathStatus q | stopAll q | stopRobot q | stopStatus q | stopConfig q
  | stopReleaseArm q | stopReleaseConfirm q | radioStatus q | radioConfig q | radioBudget q | canStatus q
  | canConfig q | canRuleSet q | canNodeSet q | canSend q | canSubscribe q | keyStatus q | keySiteInstall q
  | keyDestroy q | keyAnchorSet q | keyLinkSet q | keyRobotExport q | keyRoll q | keyTamperConfig q
  | keyTamperClear q | updStatus q | updBegin q | updData q | updFinish q | updAbort q
  | updActivate q | updActivateAt q | updConfirm q | updRevert q | jrnlQuery q | jrnlEventRead q
  | diagStatus q | diagCounters q | diagQueueStatus q | diagQueueConfig q | diagSelfTest q
  | diagTableWrite q | sysResetWarm q | buoyRelayStart q | sysResetCold q | buoyRelayActivate q | buoyRelayAbort q
  | radioTestStart q | radioTestEnd q | canSleepSleep q | canSleepWake q =>
    cases h
    exact .inr (congrArg Host.Outcome.next (row_dead hl))
  | _ => cases h

theorem not_live_of_closed {s : State} {r : Request} (h : edtorRuns s = false ∨ (callerOf s r).isSome = false) :
    live s r = false := by
  rcases h with h | h <;> simp [live_eq, h]

theorem not_live_of_held {s : State} {r : Request} (h : held s = true) : live s r = false := by
  simp [live_eq, h]

/-- A carried command changes at most the count JRNL_HOLD, and that only where the journal is all but full (R99). -/
theorem carry_eq (s : State) (r : Request) : ∃ n, carry s r = { s with edtor.jrnlHold := n }
    ∧ (mramFog s = true ∨ journalFull s = false → n = s.edtor.jrnlHold) := by
  unfold carry
  split
  · next hf =>
    simp only [Bool.and_eq_true, Bool.not_eq_true'] at hf
    refine ⟨_, rfl, fun hn => ?_⟩
    rcases hn with hn | hn <;> simp [hn] at hf
  · exact ⟨s.edtor.jrnlHold, rfl, fun _ => rfl⟩

/-- Settles O10: a row that does not execute leaves the state or carries its command (`exec_of_not_live`), and `carry` counts only
what an open session sends while Edtor runs. -/
theorem closedSessionsExecuteNothing : Obligations.ClosedSessionsExecuteNothing := by
  unfold Obligations.ClosedSessionsExecuteNothing
  refine ⟨fun c r s h hs hc => ?_, fun c r s h hs hh => ?_, fun r s hr => ?_⟩
  · rcases exec_of_not_live h hs (not_live_of_closed hc) with he | he
    · exact he
    · rw [he, carry_closed hc]
  · rcases exec_of_not_live h hs (not_live_of_held hh) with he | he
    · exact ⟨s.edtor.jrnlHold, he, fun _ => rfl⟩
    · obtain ⟨n, hn, hk⟩ := carry_eq s r
      exact ⟨n, he.trans (congrArg Host.Outcome.next hn), hk⟩
  · refine congrArg Host.Outcome.next ?_
    simp only [opSysSessionOpen, bne_self_eq_false, hr, Bool.not_false, Bool.true_or, Bool.false_eq_true, ↓reduceIte]

/-! ### Payloads of the wrong length -/

/-- A live command whose payload fails the check of its length. -/
theorem row_badLength {s t : State} {r : Request} {len : Bool} (hl : live s r = true) (hn : len = false) :
    (if !live s r then carry s r else if !len then finish (takeLatched s r) r stBadLength [] else t)
      = finish (takeLatched s r) r stBadLength [] := by
  simp only [hl, hn, Bool.not_true, Bool.false_eq_true, Bool.not_false, ↓reduceIte]

/-- A row of fixed length ends a live command of another length with ST_BAD_LENGTH before it looks at anything else (R576). -/
theorem exec_badLength {c : Instr} {r : Request} {s : State} {n : Nat} (h : opcodeRequest c = some r) (hf : fixedLen c = some n)
    (hl : live s r = true) (hn : r.payload.length ≠ n) : exec c s = .next (finish (takeLatched s r) r stBadLength []) := by
  cases c with
  | sysIdentity q | sysModeGet q | sysSessionList q | sysTenderClose q | sysPortStatus q | timeGet q
  | timeTriggerGet q | gnssStatus q | refStatus q | buoyStatus q | sessList q | strtStatus q
  | strtHoldList q | pathStatus q | stopStatus q | radioStatus q | radioBudget q | keyStatus q | updStatus q
  | updFinish q | updAbort q | updActivate q | updConfirm q | updRevert q | diagStatus q =>
    cases h
    cases hf
    exact congrArg Host.Outcome.next (row_badLength hl (by simpa using hn))
  | sysSessionClose q | sysHostRevoke q | sysAuxSet q | refRtcmSubscribe q | buoyFixSubscribe q
  | sessClassGet q | sessRevoke q | sessRelease q | taskCancel q | taskGet q | taskList q | strtHoldClear q
  | pathGet q | canStatus q | canSubscribe q | canSleepSleep q | canSleepWake q | keyRoll q
  | keyTamperClear q | diagCounters q | diagQueueStatus q | diagSelfTest q
  | sysModeSet q | sysResetWarm q | sysResetCold q | gnssMeasRead q | buoyCalibrate q | pathRequest q
  | stopReleaseArm q | stopReleaseConfirm q | radioTestStart q | radioTestEnd q | keyDestroy q
  | keyRobotExport q | keyTamperConfig q
  | diagQueueConfig q
  | sysPowerConfig q | gnssNotchSet q | gnssCalibrate q | refSurveyStart q | sessConfig q | sessEnrol q
  | sessGet q | taskConfig q | strtGridSet q | stopConfig q | canNodeSet q | updActivateAt q
  | jrnlEventRead q
  | canRuleSet q
  | timeConfig q | timeStep q | buoyRelayStart q | buoyRelayActivate q | buoyRelayAbort q | keyAnchorSet q
  | sysHostEnrol q | timeTriggerSet q | gnssConfig q | buoyAnchorSet q | buoyConfig q | buoyZoneSet q
  | taskModify q | radioConfig q | keyLinkSet q
  | canConfig q | keySiteInstall q | jrnlQuery q
  | sysNetConfig q | refBaseSet q | sessClassSet q
  | sysAuxConfig q
  | refConfig q
  | updBegin q =>
    cases h
    cases hf
    exact congrArg Host.Outcome.next (row_badLength hl (beq_false_of_ne hn))
  | _ => cases hf

/-- Settles O11: ST_BAD_LENGTH counts a violation, and the length is the first check of every row of fixed length
(`exec_badLength`). -/
theorem wrongLengthsAreTurnedAway : Obligations.WrongLengthsAreTurnedAway := by
  unfold Obligations.WrongLengthsAreTurnedAway
  exact fun c r s n h hf hl hn => turnedAway_of_finish (exec_badLength h hf hl hn) rfl hl

end Sys2Proof.Machine
end

section
/-! PROOFS. What the rows change for a lesser role, and the status rows. -/

namespace Sys2Proof.Machine

open Sys2Proof

/-! ### Roles too low (R48, R576) -/

section
variable {s t : State} {r : Request} {len rsv role mode : Bool}

/-- The checks before that of the role leave the site as it is, and so does a role that is refused. -/
theorem row_badRole (hr : role = false) :
    site (if !live s r then carry s r else if !len then finish (takeLatched s r) r stBadLength []
      else if !rsv then finish (takeLatched s r) r stBadReserved []
      else if !role then finish (takeLatched s r) r stBadRole [] else t) = site s := by
  subst hr
  simp only [Bool.not_false, ↓reduceIte, apply_ite site, carry_site, finish_site, takeLatched_site, ite_self]

/-- A row that asks for its role only in a payload of its length. -/
theorem row_badLengthOrRole (hr : len = true → role = false) :
    site (if !live s r then carry s r else if !len then finish (takeLatched s r) r stBadLength []
      else if !rsv then finish (takeLatched s r) r stBadReserved []
      else if !role then finish (takeLatched s r) r stBadRole [] else t) = site s := by
  cases len with
  | true => exact row_badRole (hr rfl)
  | false => simp only [Bool.not_false, ↓reduceIte, apply_ite site, carry_site, finish_site, takeLatched_site, ite_self]

/-- A settings row whose role is refused unless it only reads: it refuses, or it reads. -/
theorem row_readsOrBadRole {read : Bool} (hr : role = false) (ht : read = true → site t = site s) :
    site (if !live s r then carry s r else if !len then finish (takeLatched s r) r stBadLength []
      else if !rsv then finish (takeLatched s r) r stBadReserved []
      else if !(read || role) then finish (takeLatched s r) r stBadRole []
      else if !mode then finish (takeLatched s r) r stBadMode [] else t) = site s := by
  subst hr
  cases read with
  | false => exact row_badRole rfl
  | true => simp only [apply_ite site, carry_site, finish_site, takeLatched_site, ht, ite_self]

end

/-- The read form of a settings row. -/
theorem read_site {read : Bool} {s t u : State} (h : read = true) (ht : site t = site s) :
    site (if read then t else u) = site s := by
  rw [if_pos h, ht]

theorem need_site {c : Bool} {s u : State} {r : Request} {st : Nat} {k : State → State} (hu : site u = site s)
    (hk : site (k u) = site s) : site (need c u r st k) = site s := by
  unfold need
  split
  · exact hk
  · rw [finish_site, hu]

theorem isSvc_of_not_isSup {x : Role} (h : isSup x = false) : isSvc x = false := by
  cases x with
  | operator => rfl
  | supervisor | service => cases h

/-- The role SYS_MODE_SET asks for is never below SUPERVISOR (R126). -/
theorem modeSetRole_of_not_isSup {s : State} {r : Request} (h : isSup (roleOf s r) = false) : modeSetRole s r = false := by
  have hv : svcOk s r = false := isSvc_of_not_isSup h
  unfold modeSetRole
  split
  · exact Bool.and_eq_false_iff.mpr (.inl hv)
  · exact h

/-- A row in which TENDER, or a cold reset, asks for SERVICE and everything else for SUPERVISOR. -/
theorem svcOrSup_of_not_isSup {c : Prop} [Decidable c] {s : State} {r : Request} (h : isSup (roleOf s r) = false) :
    (if c then svcOk s r else supOk s r) = false := by
  split
  · exact isSvc_of_not_isSup h
  · exact h

/-- A row for SUPERVISOR and SERVICE leaves the site alone for any other role (R574). -/
theorem exec_supervised_site {c : Instr} {r : Request} {s : State} (h : opcodeRequest c = some r) (hc : supervised c = true)
    (hr : isSup (roleOf s r) = false) : ∃ t, exec c s = .next t ∧ site t = site s := by
  cases c with
  | sysModeSet q =>
    cases h
    exact ⟨_, rfl, row_badRole (modeSetRole_of_not_isSup hr)⟩
  | sysResetWarm q | sysHostRevoke q =>
    cases h
    exact ⟨_, rfl, row_badRole (svcOrSup_of_not_isSup hr)⟩
  | sysPowerConfig q | timeStep q | timeTriggerSet q | gnssNotchSet q | refBaseSet q | refSurveyStart q | buoyAnchorSet q
  | buoyCalibrate q | sessClassSet q | sessEnrol q | sessRevoke q | sessRelease q | stopReleaseArm q | stopReleaseConfirm q
  | canConfig q | canNodeSet q | canSleepSleep q | canSleepWake q | diagQueueConfig q | diagSelfTest q | diagTableWrite q =>
    cases h
    exact ⟨_, rfl, row_badRole hr⟩
  | sysAuxConfig q | timeConfig q | gnssConfig q | refConfig q | buoyConfig q | buoyZoneSet q | sessConfig q | taskConfig q
  | strtGridSet q | stopConfig q | radioConfig q =>
    cases h
    exact ⟨_, rfl, row_readsOrBadRole hr fun hread => read_site hread (finish_site ..)⟩
  | sysNetConfig q =>
    cases h
    exact ⟨_, rfl, row_readsOrBadRole hr fun hread => need_site rfl (read_site hread (finish_site ..))⟩
  | canRuleSet q =>
    cases h
    exact ⟨_, rfl, row_readsOrBadRole hr fun hread => need_site rfl (read_site hread (finishFrags_site ..))⟩
  | _ => cases hc

/-- The selector byte a row fixes stands at the head of a payload that has one. -/
theorem fld_withHead {r : Request} {b : Nat} (hb : b < 256) (h : (withHead r b).payload.length ≠ 0) :
    fld (withHead r b).payload 0 1 = b := by
  cases hp : r.payload with
  | nil => simp [withHead, hp] at h
  | cons x l => simp [withHead, hp, fld, slice, fromLe, hb]

/-- A row for SERVICE leaves the site alone for any other role (R574). -/
theorem exec_serviced_site {c : Instr} {r : Request} {s : State} (h : opcodeRequest c = some r) (hc : serviced c = true)
    (hr : isSvc (roleOf s r) = false) : ∃ t, exec c s = .next t ∧ site t = site s := by
  cases c with
  | sysResetCold q =>
    cases h
    refine ⟨_, rfl, row_badLengthOrRole fun hlen => ?_⟩
    have hk : fld (withHead q 2).payload 0 1 = 2 := fld_withHead (by decide) (by rw [beq_iff_eq.mp hlen]; decide)
    exact (if_pos hk).trans hr
  | keyRobotExport q =>
    cases h
    exact ⟨_, rfl, row_badRole (Bool.and_eq_false_iff.mpr (.inl hr))⟩
  | keyTamperConfig q =>
    cases h
    exact ⟨_, rfl, row_readsOrBadRole hr fun hread => read_site hread (finish_site ..)⟩
  | sysHostEnrol q | sysTenderClose q | gnssCalibrate q | buoyRelayStart q | buoyRelayActivate q | buoyRelayAbort q
  | radioTestStart q | radioTestEnd q | keySiteInstall q | keyDestroy q | keyAnchorSet q | keyLinkSet q | keyRoll q
  | keyTamperClear q | updBegin q | updData q | updFinish q | updAbort q | updActivate q | updActivateAt q | updConfirm q
  | updRevert q =>
    cases h
    exact ⟨_, rfl, row_badRole hr⟩
  | _ => cases hc

theorem parts_of_site {s t : State} (h : site t = site s) :
    t.p = s.p ∧ t.bk = s.bk ∧ t.flash = s.flash ∧ t.com.csn = s.com.csn ∧ t.com.nextCsn = s.com.nextCsn ∧ t.mode = s.mode
      ∧ t.time = s.time ∧ t.stop = s.stop ∧ t.allot = s.allot ∧ t.strt = s.strt ∧ t.can = s.can ∧ t.upd = s.upd := by
  simpa only [site, Prod.mk.injEq] using h

/-- Settles O13: a row for a higher role refuses the lesser one, or reads (`exec_supervised_site`, `exec_serviced_site`). -/
theorem lesserRolesChangeNothing : Obligations.LesserRolesChangeNothing := by
  unfold Obligations.LesserRolesChangeNothing
  refine ⟨fun c r s t h hc hr ht => ?_, fun c r s t h hc hr ht => ?_⟩
  · obtain ⟨u, hu, hs⟩ := exec_supervised_site h hc hr
    cases hu.symm.trans ht
    exact parts_of_site hs
  · obtain ⟨u, hu, hs⟩ := exec_serviced_site h hc hr
    cases hu.symm.trans ht
    exact parts_of_site hs

/-! ### The status rows -/

/-- A row that only reads ends with its report. -/
theorem ends_of_readOp {c : Instr} {r : Request} {s : State} {opcode : Nat} {reply : State → Bytes}
    (h : exec c s = .next (readOp s r opcode reply)) (hl : live s r = true) (hp : r.payload = []) (he : edt s opcode = true) :
    Ends c r s (takeLatched s r) stOk (reply (takeLatched s r)) := by
  have hr : readOp s r opcode reply = finish (takeLatched s r) r stOk (reply (takeLatched s r)) :=
    runOp_passes _ hl (List.isEmpty_iff.mpr hp) rfl rfl he
  exact ends_of_finish (h.trans (congrArg Host.Outcome.next hr)) rfl (live_answerable hl)

theorem readsAs_of_readOp {c : Request → Instr} {opcode : Nat} {reply : State → Bytes}
    (h : ∀ r s, exec (c r) s = .next (readOp s r opcode reply)) : ReadsAs c opcode reply :=
  fun r s hl hp he => ends_of_readOp (h r s) hl hp he

/-- Settles O14: each of the status rows is a `readOp` with its report. -/
theorem statusReadsAnswerAndChangeNothing : Obligations.StatusReadsAnswerAndChangeNothing := by
  unfold Obligations.StatusReadsAnswerAndChangeNothing
  refine ⟨?_, ?_, ?_, ?_, ?_, ?_, ?_, ?_, ?_, ?_, ?_, ?_, ?_, ?_, ?_, ?_,
    fun r s hl hp he => ends_of_readOp (c := .timeGet r) rfl hl hp he⟩
  all_goals exact readsAs_of_readOp fun _ _ => rfl

end Sys2Proof.Machine
end

section
/-! PROOFS. Datagrams of a session: their sequence numbers, and what becomes of a datagram that is refused, of a command and of a
credit packet. -/

namespace Sys2Proof.Machine

open Sys2Proof

/-! ### Sequence numbers (R45) -/

theorem seqFresh_iff (e : Session) (q : Nat) :
    seqFresh e q = true ↔ 0 < q ∧ (e.rxHigh < q ∨ (q < e.rxHigh ∧ e.rxHigh ≤ q + 1024 ∧ q ∉ e.rxSeen)) := by
  simp [seqFresh, and_assoc]

theorem noteSeq_above {e : Session} {q : Nat} (h : e.rxHigh < q) :
    (noteSeq e q).rxHigh = q
      ∧ ∀ x, x ∈ (noteSeq e q).rxSeen ↔ (x = e.rxHigh ∨ x ∈ e.rxSeen) ∧ 0 < x ∧ q ≤ x + 1024 := by
  simp [noteSeq, h]

theorem noteSeq_below {e : Session} {q : Nat} (h : ¬e.rxHigh < q) :
    (noteSeq e q).rxHigh = e.rxHigh ∧ (noteSeq e q).rxSeen = q :: e.rxSeen := by
  simp [noteSeq, h]

theorem noteSeq_rxHigh (e : Session) (q : Nat) : (noteSeq e q).rxHigh = max e.rxHigh q := by
  by_cases h : e.rxHigh < q
  · rw [(noteSeq_above h).1]; omega
  · rw [(noteSeq_below h).1]; omega

/-- A SEQ noted is not accepted again: it is the highest, or among those seen. -/
theorem not_seqFresh_noteSeq_self (e : Session) (q : Nat) : seqFresh (noteSeq e q) q = false := by
  rw [← Bool.not_eq_true, seqFresh_iff]
  by_cases h : e.rxHigh < q
  · rw [(noteSeq_above h).1]
    omega
  · rw [(noteSeq_below h).1, (noteSeq_below h).2]
    simp [h]

/-- A SEQ not accepted stays so: what is noted raises the highest, or stays among those seen while the window covers it. -/
theorem not_seqFresh_noteSeq {e : Session} {q : Nat} (p : Nat) (hq : seqFresh e q = false) :
    seqFresh (noteSeq e p) q = false := by
  rw [← Bool.not_eq_true, seqFresh_iff] at hq ⊢
  rintro ⟨hpos, hf⟩
  refine hq ⟨hpos, ?_⟩
  by_cases h : e.rxHigh < p
  · obtain ⟨hh, hs⟩ := noteSeq_above h
    rw [hh, hs] at hf
    rcases hf with hlt | ⟨hlt, hwin, hseen⟩
    · exact .inl (h.trans hlt)
    · have hold : ¬(q = e.rxHigh ∨ q ∈ e.rxSeen) := fun hx => hseen ⟨hx, hpos, hwin⟩
      obtain ⟨hne, hns⟩ := not_or.mp hold
      rcases Nat.lt_or_ge e.rxHigh q with hg | hg
      · exact .inl hg
      · exact .inr ⟨by omega, by omega, hns⟩
  · obtain ⟨hh, hs⟩ := noteSeq_below h
    rw [hh, hs] at hf
    exact hf.imp_right fun ⟨hlt, hwin, hseen⟩ => ⟨hlt, hwin, fun hx => hseen (List.mem_cons_of_mem _ hx)⟩

/-! ### Sessions by their slot -/

theorem sessionAt_eq_some {s : State} {slot : Nat} {e : Session} :
    sessionAt s slot = some e ↔ tget s.edtor.sessions slot = some e ∧ e.sopen = true := by
  unfold sessionAt
  cases tget s.edtor.sessions slot with
  | none => simp
  | some x =>
    cases hx : x.sopen with
    | true => simpa [hx] using fun h : x = e => h ▸ hx
    | false => simpa [hx] using fun h : x = e => h ▸ hx

theorem modSession_sessions (s : State) (slot : Nat) (f : Session → Session) :
    (modSession s slot f).edtor.sessions = tmap s.edtor.sessions fun i x => if i = slot then f x else x := by
  refine List.map_congr_left fun x _ => ?_
  by_cases hx : x.1 = slot <;> simp [hx]

/-- An open session after a change that leaves it open. -/
theorem sessionAt_modSession {s : State} {slot : Nat} {e : Session} {f : Session → Session} (h : sessionAt s slot = some e)
    (hf : (f e).sopen = e.sopen) : sessionAt (modSession s slot f) slot = some (f e) := by
  rw [sessionAt_eq_some] at h ⊢
  obtain ⟨hget, hopen⟩ := h
  rw [modSession_sessions, tget_tmap, hget]
  exact ⟨congrArg some (if_pos rfl), hf.trans hopen⟩

theorem sessionAt_congr {s t : State} (h : t.edtor.sessions = s.edtor.sessions) (slot : Nat) :
    sessionAt t slot = sessionAt s slot := by
  unfold sessionAt
  rw [h]

theorem sessionAt_of_bound {s : State} {d : Datagram} {slot : Nat} {e : Session} (h : boundSession s d = some (slot, e)) :
    sessionAt s slot = some e := by
  simp only [boundSession] at h
  split at h
  · next x hx =>
    split at h
    · cases h; exact hx
    · cases h
  · cases h

/-! ### What reception leaves alone -/

/-- What the marks of a queue's occupancy do not touch: the commands captured, the sessions, the MRAM, the CSN and
the replies. -/
def received (s : State) : List Request × Tbl Session × Mram × Nat × List Packet :=
  (s.edtor.inbox, s.edtor.sessions, s.p, s.com.csn, s.com.replies)

theorem noteOccupancy_received (s : State) (q : Nat) (p : QParam) (before : Nat) :
    received (noteOccupancy s q p before) = received s := by
  unfold noteOccupancy
  dsimp only
  split <;> rfl

theorem noteQueue_received (s : State) (q : Nat) : received (noteQueue s q) = received s := by
  unfold noteQueue
  split
  · rfl
  · dsimp only
    split
    · rfl
    · exact noteOccupancy_received ..

theorem parts_of_received {s t : State} (h : received t = received s) :
    t.edtor.inbox = s.edtor.inbox ∧ t.edtor.sessions = s.edtor.sessions ∧ t.p = s.p ∧ t.com.csn = s.com.csn
      ∧ t.com.replies = s.com.replies := by
  simpa only [received, Prod.mk.injEq] using h

/-! ### A datagram of a session -/

/-- A datagram reaches the session in a slot: it passes the checks of its port and of its header (R36 to R39). -/
structure Reaches (s : State) (d : Datagram) (slot : Nat) (e : Session) : Prop where
  runs : running s = true
  inTime : inFc s d.pclk = true
  room : (tgetD s.ports.hosts (portCode d.port) {}).frames < 2048
  addressed : toUs s d = true
  sized : sizeOk d = true
  headed : headerOk d = true
  named : hSession d ≠ 0
  bound : boundSession s d = some (slot, e)

/-- The state in which the frame has been counted for its port. -/
theorem portFrame_counts {s : State} {port : Port} (h : (tgetD s.ports.hosts (portCode port) {}).frames < 2048) :
    ∃ hosts, portFrame s port = (true, { s with ports.hosts := hosts }) :=
  ⟨_, if_pos h⟩

/-- A datagram that reaches its session is left to the session's checks. -/
theorem receive_of_reaches {s : State} {d : Datagram} {slot : Nat} {e : Session} (h : Reaches s d slot e) :
    ∃ hosts, receive s d = receiveIn { s with ports.hosts := hosts } d slot e := by
  obtain ⟨hosts, hf⟩ := portFrame_counts h.room
  refine ⟨hosts, ?_⟩
  have hu : toUs { s with ports.hosts := hosts } d = true := h.addressed
  have hb : boundSession { s with ports.hosts := hosts } d = some (slot, e) := h.bound
  simp only [receive, h.runs, h.inTime, hf, hu, h.sized, h.headed, h.named, hb, Bool.not_true, Bool.or_self, Bool.false_eq_true,
    ↓reduceIte]

/-- A refused packet of a session is counted for it and for its port, and leaves the rest of its session. -/
theorem countSession_modPort (s : State) (slot i : Nat) (port : Port) (f : PortCounters → PortCounters) {e : Session}
    (h : sessionAt s slot = some e) :
    let t := modPort (countSession s slot i) port f
    t.edtor.inbox = s.edtor.inbox ∧ t.p = s.p ∧ t.com.csn = s.com.csn ∧ t.com.replies = s.com.replies
      ∧ ∃ x, sessionAt t slot = some x ∧ x.rxHigh = e.rxHigh ∧ x.rxSeen = e.rxSeen ∧ x.renewFc = e.renewFc
        ∧ x.outs = e.outs :=
  ⟨rfl, rfl, rfl, rfl, _, sessionAt_modSession (f := fun e => { e with cnt := lmod e.cnt i inc32 }) h rfl, rfl, rfl, rfl, rfl⟩

/-- Settles O48: the window of SEQ values (`not_seqFresh_noteSeq`), and a datagram that `receiveIn` only counts. -/
theorem noSequenceNumberIsAcceptedTwice : Obligations.NoSequenceNumberIsAcceptedTwice := by
  unfold Obligations.NoSequenceNumberIsAcceptedTwice
  refine ⟨fun e q _ => not_seqFresh_noteSeq_self e q, fun e q p hq _ => not_seqFresh_noteSeq p hq,
    fun s d slot e hr hi hf hu hz hh hn hb ho => ?_, fun s d o slot e hr hi hf hu hz hh hn hb ho hq => ?_⟩
  · obtain ⟨hosts, hd⟩ := receive_of_reaches ⟨hr, hi, hf, hu, hz, hh, hn, hb⟩
    refine ⟨_, congrArg Host.Outcome.next hd, ?_⟩
    simp only [receiveIn, ho]
    exact countSession_modPort { s with ports.hosts := hosts } slot 11 d.port _ (sessionAt_of_bound hb)
  · obtain ⟨hosts, hd⟩ := receive_of_reaches ⟨hr, hi, hf, hu, hz, hh, hn, hb⟩
    refine ⟨_, congrArg Host.Outcome.next hd, ?_⟩
    simp only [receiveIn, ho, hq, Bool.not_false, ↓reduceIte]
    exact countSession_modPort { s with ports.hosts := hosts } slot 12 o.port _ (sessionAt_of_bound hb)

/-! ### A packet that is accepted -/

/-- The session of a fresh packet: the SEQ is noted and the lease renewed (R45, R53). -/
def refreshed (s : State) (e : Session) (q : Nat) : Session := { noteSeq e q with renewFc := fcNow s }

theorem noteSeq_kept (e : Session) (q : Nat) :
    (noteSeq e q).sopen = e.sopen ∧ (noteSeq e q).outs = e.outs ∧ (noteSeq e q).limits = e.limits := by
  unfold noteSeq
  split <;> exact ⟨rfl, rfl, rfl⟩

/-- A fresh packet whose tag holds goes on to the checks of R59 in its refreshed session. -/
theorem receiveIn_fresh {s : State} {d o : Datagram} {slot : Nat} {e : Session} (ho : openDatagram e.key d = some o)
    (hq : seqFresh e (hSeq o) = true) :
    receiveIn s d slot e
      = acceptPacket (modSession s slot fun _ => refreshed s e (hSeq o)) o slot (refreshed s e (hSeq o)) := by
  simp only [receiveIn, ho, hq, Bool.not_true, Bool.false_eq_true, ↓reduceIte]
  rfl

/-- A command with a free TAG and credit left enters the queue (R59). -/
theorem acceptPacket_command {s : State} {o : Datagram} {slot : Nat} {e : Session} (hst : hStatus o = 0) (hop : hOpenHost o = 0)
    (hfl : hFlags o < 256) (hk : hKind o = 1) (hre : bit (hFlags o) 4 = false) (htag : ∀ x ∈ e.outs, x.tag ≠ hTag o)
    (hcr : e.outs.length < 512) : acceptPacket s o slot e = enqueue s o slot := by
  have hany : (e.outs.any fun x => x.tag == hTag o) = false := by simpa using htag
  have hlen : ¬512 ≤ e.outs.length := Nat.not_le.mpr hcr
  have hflag : ¬256 ≤ hFlags o := Nat.not_le.mpr hfl
  simp [acceptPacket, hk, hst, hop, hre, hany, hlen, hflag]

/-- A credit packet as it should be brings its limit (R66). -/
theorem acceptPacket_credit {s : State} {o : Datagram} {slot : Nat} {e : Session} (hst : hStatus o = 0) (hop : hOpenHost o = 0)
    (hfl : hFlags o < 256) (hk : hKind o = 4) (hlen : hLength o = 8) (hz : zeros (hPayload o) 4 4 = true) :
    acceptPacket s o slot e = modSession s slot fun e => { e with limits := e.limits ++ [fld (hPayload o) 0 4] } := by
  have hflag : ¬256 ≤ hFlags o := Nat.not_le.mpr hfl
  simp [acceptPacket, takeCredit, hk, hst, hop, hlen, hz, hflag]

/-- A session with one more command outstanding. -/
def withOutstanding (d : Datagram) (e : Session) : Session :=
  { e with outs := e.outs ++ [{ tag := hTag d, opcode := hOpcode d }] }

/-- A command entered, before its queue's occupancy is noted. -/
def inboxed (s : State) (d : Datagram) (slot : Nat) : State :=
  let s := modSession s slot (withOutstanding d)
  { s with edtor.inbox := s.edtor.inbox ++ [requestOf s d slot] }

theorem enqueue_eq (s : State) (d : Datagram) (slot : Nat) : enqueue s d slot = noteQueue (inboxed s d slot) slot := rfl

/-- A command enters its session's queue and becomes outstanding, and nothing else of its session changes. -/
theorem enqueue_effect {s : State} (o : Datagram) {slot : Nat} {e : Session} (h : sessionAt s slot = some e) :
    let t := enqueue s o slot
    t.edtor.inbox = s.edtor.inbox ++ [requestOf s o slot] ∧ t.p = s.p ∧ t.com.csn = s.com.csn ∧ t.com.replies = s.com.replies
      ∧ sessionAt t slot = some (withOutstanding o e) := by
  rw [enqueue_eq]
  obtain ⟨hin, hses, hp, hcsn, hrep⟩ := parts_of_received (noteQueue_received (inboxed s o slot) slot)
  exact ⟨hin, hp, hcsn, hrep, (sessionAt_congr hses slot).trans (sessionAt_modSession (f := withOutstanding o) h rfl)⟩

/-- The session of a fresh packet as it stands while the packet is accepted. -/
theorem sessionAt_refreshed {s : State} {slot : Nat} {e : Session} (q : Nat) (h : sessionAt s slot = some e) :
    sessionAt (modSession s slot fun _ => refreshed s e q) slot = some (refreshed s e q) :=
  sessionAt_modSession (f := fun _ => refreshed s e q) h (noteSeq_kept e q).1

/-- One limit sent is the one in force from the boundary on (R66). -/
theorem applyLimits_singleton {e : Session} {l : Nat} (h : e.limits = [l]) :
    (applyLimits e).1 = { e with limits := [], evLimit := newLimit e l } := by
  simp only [applyLimits, h, List.foldl_cons, List.foldl_nil]
  rfl

/-- Settles O35: a datagram that reaches its session, is fresh and passes the checks of R59 is `enqueue`d or brings its limit; the
lease and the closing by the lemmas on `opLease` and `closeSession`. -/
theorem datagramsOfASessionAreTakenIn : Obligations.DatagramsOfASessionAreTakenIn := by
  unfold Obligations.DatagramsOfASessionAreTakenIn
  refine ⟨fun s d o slot e hr hi hf hu hz hh hn hb ho hq hst hop hfl hk hre htag hcr => ?_,
    fun s d o slot e hr hi hf hu hz hh hn hb ho hq hst hop hfl hk hlen hzero => ?_, fun e l hl => ?_,
    fun s slot e hr hslot he hd hw hf => (if_pos hslot).trans (congrArg Host.Outcome.next (opLease_due hr he hd hw hf)),
    fun s slot reason own tag e he _ => (closeSession_gone reason own tag he).1⟩
  · obtain ⟨hosts, hd⟩ := receive_of_reaches ⟨hr, hi, hf, hu, hz, hh, hn, hb⟩
    refine ⟨_, congrArg Host.Outcome.next hd, ?_⟩
    obtain ⟨-, houts, -⟩ := noteSeq_kept e (hSeq o)
    rw [receiveIn_fresh ho hq, acceptPacket_command hst hop hfl hk hre (houts ▸ htag) (houts ▸ hcr)]
    obtain ⟨hin, hp, hcsn, hrep, hses⟩ := enqueue_effect o
      (sessionAt_refreshed (s := { s with ports.hosts := hosts }) (hSeq o) (sessionAt_of_bound hb))
    exact ⟨hin, hp, hcsn, hrep, _, hses, rfl, noteSeq_rxHigh e (hSeq o), congrArg (· ++ _) houts⟩
  · obtain ⟨hosts, hd⟩ := receive_of_reaches ⟨hr, hi, hf, hu, hz, hh, hn, hb⟩
    refine ⟨_, congrArg Host.Outcome.next hd, ?_⟩
    obtain ⟨-, -, hlim⟩ := noteSeq_kept e (hSeq o)
    rw [receiveIn_fresh ho hq, acceptPacket_credit hst hop hfl hk hlen hzero]
    exact ⟨rfl, rfl, rfl, rfl, _, sessionAt_modSession
      (sessionAt_refreshed (s := { s with ports.hosts := hosts }) (hSeq o) (sessionAt_of_bound hb)) rfl, rfl,
      congrArg (· ++ _) hlim⟩
  · rw [applyLimits_singleton hl]
    exact ⟨rfl, rfl⟩

end Sys2Proof.Machine
end

section
/-! PROOFS. Opening and closing sessions, enrolling and revoking hosts. -/

namespace Sys2Proof.Machine

open Sys2Proof

/-! ### What the end of a command and a commit leave of the sessions -/

/-- A command that ends with a status no violation goes with leaves the sessions. -/
theorem finish_edtor {s : State} {r : Request} {status : Nat} {payload : Bytes} (h : exCounter status = none) :
    (finish s r status payload).edtor = s.edtor := by
  simp only [finish, finishI, countStatus, h, ↓reduceIte, queueReply]
  split <;> rfl

theorem commit_edtor (s : State) (k i : Nat) : (commit s k i).edtor = s.edtor := by
  unfold commit
  split <;> rfl

/-- The key cache and the end of a command leave the sessions, the MRAM and the CSN. -/
theorem finish_cacheKey_received {c : Prop} [Decidable c] (s : State) (r : Request) (entry gen : Nat) {status : Nat}
    (payload : Bytes) (h : exCounter status = none) :
    let t := finish (if c then s else cacheKey s entry gen) r status payload
    t.edtor.sessions = s.edtor.sessions ∧ t.p = s.p ∧ t.com.csn = s.com.csn := by
  have hsite := parts_of_site (finish_site (if c then s else cacheKey s entry gen) r status payload)
  obtain ⟨hp, -, -, hcsn, -⟩ := hsite
  refine (?_ : _ ∧ _ ∧ _)
  rw [finish_edtor h, hp, hcsn]
  split <;> exact ⟨rfl, rfl, rfl⟩

/-! ### SYS_SESSION_OPEN (R52, R55) -/

/-- A command of the open exchange whose checks all pass opens its session. -/
theorem opSysSessionOpen_opens {r : Request} {s : State} {role : Role} {slot : Nat} (hs : r.slot = 4) (hr : edtorRuns s = true)
    (hh : held s = false) (hlen : r.payload.length = 32) (hz : zeros r.payload 1 1 = true) (hz' : zeros r.payload 24 8 = true)
    (hg : roleGranted s r = some role) (hl : fld r.payload 2 2 ≤ 60)
    (hsvc : (isSvc role && r.port != .l23 && !s.ports.svcLatched) = false) (hf : freeSlot s = some slot)
    (hc : csnHolds s r [(okSession, slot)] = true) : opSysSessionOpen r s = openSession r role slot (takeLatched s r) := by
  have hg' : roleGranted (takeLatched s r) r = some role := hg
  have hf' : freeSlot (takeLatched s r) = some slot := hf
  have hc' : csnHolds (takeLatched s r) r [(okSession, slot)] = true := hc
  simp only [opSysSessionOpen, hs, hr, hh, hlen, hz, hz', hg', need_passes _ (decide_eq_true hl), takeLatched_ports, hsvc, hf',
    need_passes _ (Bool.not_false), checkCsn_passes _ hc', bne_self_eq_false, beq_self_eq_true, Bool.and_self, Bool.not_true,
    Bool.or_self, Bool.false_eq_true, ↓reduceIte]

/-- The state in which an open makes its commit: the nonce drawn and the generation of the slot raised (R51, R52). -/
def openDrawn (slot : Nat) (s : State) : State :=
  { (freshBytes s 16).2 with
    p.control.slotGen := s.p.control.slotGen.set slot (nextSlotGen (s.p.control.slotGen.getD slot 0)) }

/-- The session that an open makes: its slot and generation, its binding, its lease and the CSN of its open (R52, R53, R55). -/
def openedSession (r : Request) (role : Role) (slot : Nat) (s : State) : Session :=
  let id := slot + 4 * nextSlotGen (s.p.control.slotGen.getD slot 0)
  { sopen := true, id := id, host := r.openHost, role := role, port := r.port, addr := r.addr, udp := r.udp
    leaseS := if fld r.payload 2 2 = 0 then 5 else fld r.payload 2 2
    renewFc := r.latchFc - 1
    key := sessionKey (freshBytes s 16).2 r.openHost (slice r.payload 8 16) (freshBytes s 16).1 id
    evLimit := newLimit {} (fld r.payload 4 4)
    openedCsn := (commit (openDrawn slot s) okSession slot).com.csn }

theorem openSession_opened (r : Request) (role : Role) (slot : Nat) (s : State) :
    let t := openSession r role slot s
    let u := commit (openDrawn slot s) okSession slot
    t.edtor.sessions = tput u.edtor.sessions slot (openedSession r role slot s) ∧ t.p = u.p ∧ t.com.csn = u.com.csn :=
  finish_cacheKey_received _ r _ _ _ rfl

theorem sessionAt_openSession (r : Request) (role : Role) (slot : Nat) (s : State) :
    sessionAt (openSession r role slot s) slot = some (openedSession r role slot s) := by
  obtain ⟨hs, -, -⟩ := openSession_opened r role slot s
  rw [sessionAt_eq_some, hs, tget_tput_same]
  exact ⟨rfl, rfl⟩

/-- Where commits are made, an open is one on its session (R68, R72). -/
theorem openSession_commits (r : Request) (role : Role) (slot : Nat) {s : State} (h : mramFog s = false) :
    (openSession r role slot s).com.csn = s.com.nextCsn ∧ objCsn (openSession r role slot s) okSession slot = s.com.nextCsn := by
  obtain ⟨-, hp, hcsn⟩ := openSession_opened r role slot s
  rw [commit_eq (s := openDrawn slot s) _ _ h] at hp hcsn
  refine ⟨hcsn, ?_⟩
  have hobj := objCsn_committed (openDrawn slot s) (List.mem_singleton_self (okSession, slot))
  unfold objCsn at hobj ⊢
  rw [hp]
  exact hobj

/-! ### SYS_SESSION_CLOSE (R54, R56) -/

theorem fromLe_le {n x : Nat} (h : x < 256 ^ n) : fromLe (le n x) = x := by
  induction n generalizing x with
  | zero => simp only [Nat.pow_zero] at h; simp [le, fromLe]; omega
  | succ n ih =>
    have hd : x / 256 < 256 ^ n := Nat.div_lt_of_lt_mul (by rwa [Nat.pow_succ'] at h)
    rw [le, fromLe, ih hd, BitVec.toNat_ofNat]
    omega

theorem slotById_of_sessionAt {s : State} {slot : Nat} {e : Session} (h : sessionAt s slot = some e) (hm : e.id % 4 = slot) :
    slotById s e.id = some slot := by
  subst hm
  simp only [slotById, h, ↓reduceIte]

/-- A close whose checks all pass commits on the session; it answers before it closes its own session, and after it closes another
(R56). -/
theorem opSysSessionClose_closes {r : Request} {s : State} {slot : Nat} {e : Session} (hl : live s r = true)
    (hp : r.payload = le 2 e.id ++ zb 2) (hid : e.id < 2 ^ 16) (hm : e.id % 4 = slot) (he : sessionAt s slot = some e)
    (hr : (e.id == r.sessionId || supOk s r) = true) (hmode : edt s 0x0121 = true) (hc : csnHolds s r [(okSession, slot)] = true) :
    opSysSessionClose r s =
      let t := commit (takeLatched s r) okSession slot
      if slot = r.slot then closeSession (finish t r stOk []) slot 1 true none
      else finish (opSysSessionClose.closeOther t r slot) r stOk [] := by
  have hf : fld r.payload 0 2 = e.id := by
    rw [hp]
    exact fromLe_le (n := 2) hid
  have hz : zeros r.payload 2 2 = true := by
    rw [hp]
    rfl
  have hs : slotById (takeLatched s r) e.id = some slot := slotById_of_sessionAt he hm
  have hc' : csnHolds (takeLatched s r) r [(okSession, slot)] = true := hc
  simp only [opSysSessionClose, hf]
  rw [runOp_passes _ hl (by rw [hp]; rfl) hz hr hmode]
  simp only [hs, checkCsn_passes _ hc']

/-- A session that closes itself leaves its slot free. -/
theorem sessionAt_closeOwn {s : State} {r : Request} {slot : Nat} {e : Session} (he : sessionAt s slot = some e) :
    sessionAt (closeSession (finish (commit (takeLatched s r) okSession slot) r stOk []) slot 1 true none) slot = none := by
  have hs : sessionAt (finish (commit (takeLatched s r) okSession slot) r stOk []) slot = some e := by
    rw [← he]
    refine sessionAt_congr ?_ slot
    rw [finish_edtor rfl, commit_edtor]
    rfl
  exact (closeSession_gone 1 true none hs).1

/-! ### Hosts (R129, R130) -/

/-- What an enrolment changes besides its commit, where `h` is the host's record so far (R129, R481). -/
def enrolHost (r : Request) (role : Role) (h : HostRec) (u : State) : State :=
  let i := fld r.payload 0 1
  { u with
    p.control.hosts := tput u.p.control.hosts i { h with enrolled := true, ceiling := role, name := slice r.payload 4 16 }
    p.keys.hostGen := tput u.p.keys.hostGen i (nextGen (tgetD u.p.keys.hostGen i 0)) }

/-- An enrolment whose checks all pass is one commit on the host (R129). -/
theorem opSysHostEnrol_enrols {r : Request} {s : State} {role : Role} (hl : live s r = true) (hlen : r.payload.length = 32)
    (hz : zeros r.payload 2 2 = true) (hz' : zeros r.payload 20 12 = true) (hr : svcOk s r = true)
    (hmode : inModes s [.tender] = true) (hrole : roleOfCode (fld r.payload 1 1) = some role) (hi : fld r.payload 0 1 ≤ 15)
    (hn : nameOk (slice r.payload 4 16) = true) (he : (tgetD s.p.control.hosts (fld r.payload 0 1) {}).enrolled = false)
    (hk : siteValid s = true) :
    opSysHostEnrol r s = change1 (takeLatched s r) r (okHost, fld r.payload 0 1)
      (enrolHost r role (tgetD s.p.control.hosts (fld r.payload 0 1) {}))
      (fun u => le 1 (fld r.payload 0 1) ++ zb 7 ++ hostKey u (fld r.payload 0 1)) := by
  have hk' : siteValid (takeLatched s r) = true := hk
  rw [opSysHostEnrol, runOp_passes _ hl (beq_iff_eq.mpr hlen) (by rw [hz, hz']; rfl) hr hmode]
  simp only [hrole, hn, decide_eq_true hi, need_passes, takeLatched_p, he, hk', Bool.and_self, Bool.not_false]
  rfl

/-- The commit of a revocation (R130). -/
def revokeCommit (s : State) (i : Nat) : State :=
  commit { s with p.control.hosts := tput s.p.control.hosts i { tgetD s.p.control.hosts i {} with enrolled := false } } okHost i

/-- The end of a revocation: the sessions in some slots close, and the command answers for its own commit (R130). -/
def closeAndFinish (r : Request) (slots : List Nat) (s : State) : State :=
  finish { slots.foldl (fun s slot => closeSession s slot 2 false (tagOf s r)) s with com.cmdCommits := s.com.cmdCommits } r stOk []

theorem slotsOfHost_revokeCommit (s : State) (i : Nat) : slotsOfHost (revokeCommit s i) i = slotsOfHost s i := by
  unfold slotsOfHost revokeCommit
  rw [commit_edtor]

/-- A revocation whose checks all pass is one commit on the host, and its sessions close (R130). -/
theorem opSysHostRevoke_revokes {r : Request} {s : State} (hl : live s r = true) (hlen : r.payload.length = 4)
    (hz : zeros r.payload 1 3 = true) (hr : (if s.mode.cur == .tender then svcOk s r else supOk s r) = true)
    (hmode : inModes s [.tender, .calm] = true) (hi : fld r.payload 0 1 < 16)
    (he : (tgetD s.p.control.hosts (fld r.payload 0 1) {}).enrolled = true) (hn : fld r.payload 0 1 ≠ hostOf s r)
    (ho : othersSup s (fld r.payload 0 1) = true) (hc : csnHolds s r [(okHost, fld r.payload 0 1)] = true) :
    opSysHostRevoke r s
      = closeAndFinish r (slotsOfHost s (fld r.payload 0 1)) (revokeCommit (takeLatched s r) (fld r.payload 0 1)) := by
  have hrange : (decide (fld r.payload 0 1 < 16) && (tgetD s.p.control.hosts (fld r.payload 0 1) {}).enrolled
      && fld r.payload 0 1 != hostOf s r) = true := by
    simp only [hi, he, decide_true, Bool.and_self, bne_iff_ne.mpr hn]
  have hc' : csnHolds (takeLatched s r) r [(okHost, fld r.payload 0 1)] = true := hc
  rw [opSysHostRevoke, runOp_passes _ hl (beq_iff_eq.mpr hlen) hz hr hmode]
  refine (need_passes _ hrange).trans ((need_passes _ ho).trans ((checkCsn_passes _ hc').trans ?_))
  exact congrArg (closeAndFinish r · _) (slotsOfHost_revokeCommit (takeLatched s r) _)

/-- Settles O19: the equation of each row whose checks all pass, and what its change leaves. -/
theorem sysHostsAndSessionsOpenAndClose : Obligations.SysHostsAndSessionsOpenAndClose := by
  unfold Obligations.SysHostsAndSessionsOpenAndClose
  refine ⟨fun r s role slot hs hr hh hlen hz hz' hg hl hsvc hf hc => ?_,
    fun r s slot e hl hp hid hslot hm he hr hmode hc => ?_, fun r s slot e hl hp hid hslot hm hne he hr hmode hc => ?_,
    fun r s role hl hlen hz hz' hr hmode hrole hi hn he hk hc => ?_, fun r s hl hlen hz hr hmode hi he hn ho hc =>
      congrArg Host.Outcome.next (opSysHostRevoke_revokes hl hlen hz hr hmode hi he hn ho hc)⟩
  · refine ⟨_, _, congrArg Host.Outcome.next (opSysSessionOpen_opens hs hr hh hlen hz hz' hg hl hsvc hf hc),
      sessionAt_openSession r role slot (takeLatched s r), rfl, rfl, rfl, rfl, rfl, rfl, rfl, rfl, rfl, ?_,
      fun hm => openSession_commits r role slot (s := takeLatched s r) hm⟩
    exact (openSession_opened r role slot (takeLatched s r)).2.2.symm
  · refine ⟨_, congrArg Host.Outcome.next (opSysSessionClose_closes hl hp hid hm he hr hmode hc), fun hown => ?_⟩
    simp only [hown, ↓reduceIte]
    exact sessionAt_closeOwn (hown ▸ he)
  · have hr' : (e.id == r.sessionId || supOk s r) = true := by rw [hr, Bool.or_true]
    exact congrArg Host.Outcome.next ((opSysSessionClose_closes hl hp hid hm he hr' hmode hc).trans (if_neg hne))
  · have hmode' : inModes s [.tender] = true := by simp [inModes, hmode]
    have ha : Answerable s r := live_answerable hl
    exact ends_of_change1 (c := .sysHostEnrol r) (f := enrolHost r role _)
      (congrArg Host.Outcome.next (opSysHostEnrol_enrols hl hlen hz hz' hr hmode' hrole hi hn he hk)) hc
      (mramFog_of_inModes hmode' rfl) ha

end Sys2Proof.Machine
end

section
/-! PROOFS. The JRNL and DIAG rows: reads of the journal, of counters and of queues, the configuration of a queue, self-tests, and
the reads and writes of the table DMA. For each row a lemma says what it comes to once its checks have passed. -/

namespace Sys2Proof.Machine

open Sys2Proof

/-- Whether a command is answered depends on the sessions alone. -/
theorem Answerable.congr {s t : State} {r : Request} (ha : Answerable s r) (h : t.edtor.sessions = s.edtor.sessions) :
    Answerable t r := by
  unfold Answerable callerOf at ha ⊢
  rwa [sessionAt_congr h]

/-! ### The journal (R101, R102) -/

theorem opJrnlQuery_answers {r : Request} {s : State} (hl : live s r = true) (hlen : r.payload.length = 40)
    (hz : (zeros r.payload 1 1 && zeros r.payload 18 6 && queryUnused r.payload) = true)
    (hrole : (isSup (roleOf s r) || fld r.payload 0 1 != 3) = true) (hmode : edt s 0x0E01 = true)
    (hrange : queryRange r.payload = true) :
    opJrnlQuery r s = finish (takeLatched s r) r stOk (queryReply r (takeLatched s r)) := by
  rw [opJrnlQuery, runOp_passes _ hl (beq_iff_eq.mpr hlen) hz hrole hmode]
  exact need_passes _ hrange

theorem opJrnlEventRead_answers {r : Request} {s : State} (hl : live s r = true) (hlen : r.payload.length = 16)
    (hz : zeros r.payload 10 6 = true) (hmode : edt s 0x0E02 = true) (hn : 1 ≤ fld r.payload 8 2 ∧ fld r.payload 8 2 ≤ 21) :
    opJrnlEventRead r s = finish (takeLatched s r) r stOk (eventReadReply r.payload (takeLatched s r)) := by
  rw [opJrnlEventRead, runOp_passes _ hl (beq_iff_eq.mpr hlen) hz rfl hmode]
  exact need_passes _ (by simpa using hn)

/-! ### Counters and queues (R567, R568, R569) -/

theorem opDiagCounters_answers {r : Request} {s : State} {l : List Nat} (hl : live s r = true) (hlen : r.payload.length = 4)
    (hz : zeros r.payload 2 2 = true) (hmode : edt s 0x0F02 = true)
    (hg : counterGroup s (fld r.payload 0 1) (fld r.payload 1 1) = some l) :
    opDiagCounters r s
      = finish (takeLatched s r) r stOk (le 2 l.length ++ zb 2 ++ l.flatMap fun x => le 4 (sat 32 x)) := by
  have hg' : counterGroup (takeLatched s r) (fld r.payload 0 1) (fld r.payload 1 1) = some l := hg
  rw [opDiagCounters, runOp_passes _ hl (beq_iff_eq.mpr hlen) hz rfl hmode]
  simp only [hg']

/-- The overrun marks of some queues cleared, as a read of them does (R568). -/
def clearOverruns (l : List (Nat × SpillQueue)) (s : State) : State :=
  l.foldl (fun s e => if e.2.overrun then setQueue s e.1 { e.2 with overrun := false } else s) s

theorem clearOverruns_sessions (l : List (Nat × SpillQueue)) (s : State) :
    (clearOverruns l s).edtor.sessions = s.edtor.sessions := by
  refine foldl_keeps (·.edtor.sessions) _ l s fun u e => ?_
  split <;> rfl

theorem opDiagQueueStatus_answers {r : Request} {s : State} {l : List (Nat × SpillQueue)} (hl : live s r = true)
    (hlen : r.payload.length = 4) (hz : zeros r.payload 1 3 = true) (hmode : edt s 0x0F03 = true)
    (hq : l = queuesNamed (takeLatched s r) (fld r.payload 0 1)) (hne : l ≠ []) :
    opDiagQueueStatus r s
      = finish (clearOverruns l (takeLatched s r)) r stOk (l.flatMap fun e => queueEntry (takeLatched s r) e.1 e.2) := by
  subst hq
  rw [opDiagQueueStatus, runOp_passes _ hl (beq_iff_eq.mpr hlen) hz rfl hmode]
  exact need_passes _ (by simpa using hne)

/-- The settings of a queue as DIAG_QUEUE_CONFIG changes them: a field of 0 leaves what stands, and a level is in force from the
next boundary on (R569). -/
def configQueue (q depth level : Nat) (k : QParam) (s : State) : State :=
  let c := tgetD s.p.queueCfg q {}
  let c := { c with
    depth := if depth = 0 then c.depth else depth
    level := if level = 0 then c.level else level
    levelSet := c.levelSet || level != 0 }
  let s : State := { s with p.queueCfg := tput s.p.queueCfg q c }
  if level = 0 then s else setQueue s q { queueAt s q k with levelNext := some level }

theorem configQueue_sessions (q depth level : Nat) (k : QParam) (s : State) :
    (configQueue q depth level k s).edtor.sessions = s.edtor.sessions := by
  by_cases h : level = 0 <;> simp only [configQueue, h, ↓reduceIte, setQueue_edtor]

theorem opDiagQueueConfig_changes {r : Request} {s : State} {k : QParam} (hl : live s r = true) (hlen : r.payload.length = 12)
    (hz : zeros r.payload 1 3 = true) (hrole : supOk s r = true) (hmode : inModes s mCfg = true)
    (hk : qParam (fld r.payload 0 1) = some k)
    (hdepth : (fld r.payload 4 4 == 0 || (k.minDepth != k.maxDepth && decide (k.minDepth ≤ fld r.payload 4 4)
      && decide (fld r.payload 4 4 ≤ k.maxDepth))) = true)
    (hlevel : fld r.payload 8 4 ≤ (if fld r.payload 4 4 = 0 then depthCfg s (fld r.payload 0 1) k else fld r.payload 4 4)) :
    opDiagQueueConfig r s = change1 (takeLatched s r) r siteObj
      (configQueue (fld r.payload 0 1) (fld r.payload 4 4) (fld r.payload 8 4) k)
      fun u => queueEntry u (fld r.payload 0 1) (queueAt u (fld r.payload 0 1) k) := by
  rw [opDiagQueueConfig, runOp_passes _ hl (beq_iff_eq.mpr hlen) hz hrole hmode]
  simp only [hk]
  exact need_passes _ (Bool.and_eq_true_iff.mpr ⟨hdepth, decide_eq_true hlevel⟩)

/-! ### Self-tests (R563, R564, R570) -/

/-- A test entered among those running; one of the standby FLT or of another core takes that core. -/
def beginTest (r : Request) (target d : Nat) (s : State) : State :=
  let s : State := { s with cores.tests := s.cores.tests ++ [{ target := target, endFc := fcNow s + d, req := r }] }
  let s := if target = 0x23 then { s with cores.standbyReady := false } else s
  if 0x20 ≤ target && target ≤ 0x22 then { s with cores.reload := s.cores.reload ++ [(testCore s target, fcNow s + d)] } else s

theorem beginTest_effect (r : Request) (target d : Nat) (s : State) :
    (beginTest r target d s).cores.tests = s.cores.tests ++ [{ target := target, endFc := fcNow s + d, req := r }]
      ∧ (beginTest r target d s).p = s.p ∧ (beginTest r target d s).com.csn = s.com.csn
      ∧ (beginTest r target d s).edtor.sessions = s.edtor.sessions := by
  unfold beginTest
  split <;> split <;> exact ⟨rfl, rfl, rfl, rfl⟩

/-- The scrub of the reservation table detects corrupt ways and leaves the sessions. -/
theorem scrubStrt_sessions (s : State) : (scrubStrt s).2.edtor.sessions = s.edtor.sessions := by
  refine foldl_keeps (·.edtor.sessions) detectWay _ s fun u i => ?_
  unfold detectWay
  split <;> rfl

/-- A test that its checks permit: the scrub of the reservation table ends at once, another one begins. -/
theorem opDiagSelfTest_permitted {r : Request} {s : State} {d : Nat} (hl : live s r = true) (hlen : r.payload.length = 4)
    (hz : zeros r.payload 1 3 = true) (hrole : supOk s r = true)
    (hmode : inModes s (if watchOnly (fld r.payload 0 1) then [.watch] else mRun) = true)
    (hd : testFcs (fld r.payload 0 1) = some d)
    (hfree : (s.cores.tests.any fun t => t.target == fld r.payload 0 1) = false)
    (hchan : (decide (fld r.payload 0 1 ≤ 3) && (chanTestBusy s || votingCount s != 3)) = false)
    (hstandby : (fld r.payload 0 1 == 0x23 && !s.cores.standbyReady) = false) :
    opDiagSelfTest r s =
      if fld r.payload 0 1 = 0x10 then
        finish (scrubStrt (takeLatched s r)).2 r stOk
          (testReply ((scrubStrt (takeLatched s r)).1 != 0) 0 (scrubStrt (takeLatched s r)).1)
      else accept (beginTest r (fld r.payload 0 1) d (takeLatched s r)) r 0 [] := by
  obtain ⟨hbusy, hvoting⟩ : (decide (fld r.payload 0 1 ≤ 3) && chanTestBusy s) = false
      ∧ (decide (fld r.payload 0 1 ≤ 3) && votingCount s != 3) = false := by
    rwa [Bool.and_or_distrib_left, Bool.or_eq_false_iff] at hchan
  have hidle : (!((s.cores.tests.any fun t => t.target == fld r.payload 0 1)
      || (decide (fld r.payload 0 1 ≤ 3) && chanTestBusy s))) = true := by
    rw [hfree, hbusy]
    rfl
  have hready : (!(decide (fld r.payload 0 1 ≤ 3) && votingCount s != 3)
      && !(fld r.payload 0 1 == 0x23 && !s.cores.standbyReady)) = true := by
    rw [hvoting, hstandby]
    rfl
  rw [opDiagSelfTest, runOp_passes _ hl (beq_iff_eq.mpr hlen) hz hrole hmode]
  simp only [hd]
  exact (need_passes (s := takeLatched s r) _ hidle).trans (need_passes (s := takeLatched s r) _ hready)

/-! ### The table DMA (R317, R571, R572) -/

/-- Taking a command from those latched removes no snapshot. -/
theorem takeSnap_takeLatched_isSome (s : State) (r : Request) (id : Nat) :
    (takeSnap (takeLatched s r) r id).isSome = (takeSnap s r id).isSome := by
  unfold takeSnap
  split
  · rfl
  · exact (Option.isSome_map ..).trans (Option.isSome_map ..).symm

theorem opDiagTableRead_presenceTable {r : Request} {s : State} (hl : live s r = true) (hlen : r.payload.length = 16)
    (hz : zeros r.payload 1 3 = true) (ht : fld r.payload 0 1 = 5) (hid : fld r.payload 4 4 = 0) (hmode : edt s 0x0F20 = true)
    (hn : 1 ≤ fld r.payload 12 4 ∧ fld r.payload 12 4 ≤ 16384) (hsize : fld r.payload 8 4 + fld r.payload 12 4 ≤ 4096) :
    opDiagTableRead r s = sendTable (takeLatched s r) r s.com.csn (tableParts (le 4 0 ++ le 4 (fld r.payload 12 4) ++ le 8 0)
      (((List.range (fld r.payload 12 4)).map (· + fld r.payload 8 4)).map (rptRecord s))) := by
  rw [opDiagTableRead, if_neg (by simp [ht]),
    runOp_passes _ hl (beq_iff_eq.mpr hlen) (by simp [hz, hid]) rfl hmode]
  refine (need_passes _ (by simp [ht, hn, hsize])).trans ?_
  exact if_pos ht

theorem opDiagTableRead_reservationTable {r : Request} {s u : State} {k : StrtSnap} (hl : live s r = true)
    (hlen : r.payload.length = 16) (hz : zeros r.payload 1 3 = true) (ht : fld r.payload 0 1 = 1)
    (hfirst : (fld r.payload 4 4 == 0 && s.strt.snapFc == some (fcNow s)) = false) (hmode : edt s 0x0F20 = true)
    (hn : 1 ≤ fld r.payload 12 4 ∧ fld r.payload 12 4 ≤ 16384) (hsize : fld r.payload 8 4 + fld r.payload 12 4 ≤ 262144)
    (hk : takeSnap (takeLatched s r) r (fld r.payload 4 4) = some (k, u)) :
    opDiagTableRead r s = sendTable u r k.csn (tableParts (le 4 k.id ++ le 4 (fld r.payload 12 4) ++ le 8 k.slot)
      (((List.range (fld r.payload 12 4)).map (· + fld r.payload 8 4)).map (strtRecord k))) := by
  have hwait : ¬(r.payload.length = 16 && fld r.payload 0 1 = 1 && fld r.payload 4 4 = 0 && s.strt.snapFc == some (fcNow s)) = true := by
    simpa [hlen, ht] using hfirst
  rw [opDiagTableRead, if_neg hwait, runOp_passes _ hl (beq_iff_eq.mpr hlen) (by simp [hz, ht]) rfl hmode]
  refine (need_passes _ (by simp [ht, hn, hsize])).trans ((if_neg (by simp [ht])).trans ?_)
  simp only [hk]

theorem findExpected_congr {s t : State} (h : t.strt = s.strt) (i : Nat) (w : BitVec 64) :
    findExpected t i w = findExpected s i w := by
  unfold findExpected
  rw [h]

/-- An item of a write to the STRT goes by the reservation table alone. -/
theorem writeStrtItem_congr {s t : State} (h : t.strt = s.strt) (item : Bytes) :
    (writeStrtItem t item).2.1 = (writeStrtItem s item).2.1
      ∧ (writeStrtItem t item).2.2.strt = (writeStrtItem s item).2.2.strt := by
  simp only [writeStrtItem, findExpected_congr h, h]
  cases findExpected s (fld item 0 4) (BitVec.ofNat 64 (fld item 8 8)) with
  | none => exact ⟨rfl, h⟩
  | some i => simp only [apply_ite Prod.snd, apply_ite Prod.fst, apply_ite State.strt, h, and_self]

/-- An item of a write to the Robot Presence Table goes by the state of the sessions with robots alone. -/
theorem writeRptItem_congr {s t : State} (h : t.sess = s.sess) (item : Bytes) :
    (writeRptItem t item).2.1 = (writeRptItem s item).2.1
      ∧ (writeRptItem t item).2.2.sess = (writeRptItem s item).2.2.sess := by
  have hr : rptAt t = rptAt s := by
    unfold rptAt
    rw [h]
  simp only [writeRptItem, apply_ite Prod.snd, apply_ite Prod.fst, apply_ite State.sess, modRpt, hr, h, and_self]

theorem itemObjs_strt_congr {s t : State} (h : t.strt = s.strt) (items : List Bytes) : itemObjs 1 items t = itemObjs 1 items s := by
  induction items generalizing s t with
  | nil => rfl
  | cons item l ih =>
    obtain ⟨hobj, hstrt⟩ := writeStrtItem_congr h item
    simp only [itemObjs, ↓reduceIte, hobj, ih hstrt]

theorem itemObjs_rpt_congr {s t : State} (h : t.sess = s.sess) {table : Nat} (ht : table ≠ 1) (items : List Bytes) :
    itemObjs table items t = itemObjs table items s := by
  induction items generalizing s t with
  | nil => rfl
  | cons item l ih =>
    obtain ⟨hobj, hsess⟩ := writeRptItem_congr h item
    simp only [itemObjs, ht, ↓reduceIte, hobj, ih hsess]

/-- The objects that items commit on are read from the tables, which a command leaves as it begins to execute. -/
theorem itemObjs_takeLatched (table : Nat) (items : List Bytes) (s : State) (r : Request) :
    itemObjs table items (takeLatched s r) = itemObjs table items s := by
  by_cases ht : table = 1
  · subst ht
    exact itemObjs_strt_congr (s := s) (t := takeLatched s r) rfl items
  · exact itemObjs_rpt_congr (s := s) (t := takeLatched s r) rfl ht items

theorem opDiagTableWrite_writes {r : Request} {s : State} {items : List Bytes} (hl : live s r = true)
    (hlen : r.payload.length = 8 + 16 * fld r.payload 1 1)
    (hitems : items = (List.range (fld r.payload 1 1)).map fun i => slice r.payload (8 + 16 * i) 16)
    (hz : (zeros r.payload 2 2 && (fld r.payload 0 1 != 5 || fld r.payload 4 4 == 0)
      && items.all (itemRsv (fld r.payload 0 1))) = true)
    (hrole : supOk s r = true) (hmode : inModes s mNorm = true) (ht : fld r.payload 0 1 = 1 ∨ fld r.payload 0 1 = 5)
    (hn : 1 ≤ fld r.payload 1 1 ∧ fld r.payload 1 1 ≤ 64) (hok : items.all (itemOk (fld r.payload 0 1)) = true)
    (hid : fld r.payload 4 4 = 0) (hc : csnHolds s r (itemObjs (fld r.payload 0 1) items s) = true) :
    opDiagTableWrite r s = finish (writeItems (fld r.payload 0 1) items [] (takeLatched s r)).2 r stOk
      (le 1 (fld r.payload 1 1) ++ zb 3 ++ fit (4 * cdiv (fld r.payload 1 1) 4)
        ((writeItems (fld r.payload 0 1) items [] (takeLatched s r)).1.map fun x => BitVec.ofNat 8 x)) := by
  have hc' : csnHolds (takeLatched s r) r (itemObjs (fld r.payload 0 1) items (takeLatched s r)) = true := by
    rw [itemObjs_takeLatched]
    exact hc
  have hrange : ((fld r.payload 0 1 == 1 || fld r.payload 0 1 == 5) && decide (1 ≤ fld r.payload 1 1)
      && decide (fld r.payload 1 1 ≤ 64) && items.all (itemOk (fld r.payload 0 1))
      && (fld r.payload 4 4 == 0 || (takeSnap (takeLatched s r) r (fld r.payload 4 4)).isSome)) = true := by
    simp [ht, hn, hid, hok]
  subst hitems
  rw [opDiagTableWrite, runOp_passes _ hl (beq_iff_eq.mpr hlen) hz hrole hmode]
  exact (need_passes _ hrange).trans (checkCsn_passes _ hc')

/-- Settles O33: each row whose checks pass comes to the equation of its own lemma, and what it leaves keeps its caller's session. -/
theorem journalAndDiagnosticsCommandsAnswer : Obligations.JournalAndDiagnosticsCommandsAnswer := by
  unfold Obligations.JournalAndDiagnosticsCommandsAnswer
  refine ⟨fun r s hl hlen hz hr hm hq => ?_, fun r s hl hlen hz hm hn => ?_, fun r s l hl hlen hz hm hg => ?_,
    fun r s l hl hlen hz hm hq hne => ?_, fun r s k hl hc hlen hz hr hm hk hd hv => ?_,
    fun r s hl hlen hz ht hr hm hfree => ?_, fun r s d hl hlen hz hr hm hd hne hfree hchan hstandby => ?_,
    fun r s hl hlen hz ht hid hm hn hsize => congrArg Host.Outcome.next (opDiagTableRead_presenceTable hl hlen hz ht hid hm hn hsize),
    fun r s hl hlen hz ht hfirst hm hn hsize hid => ?_, fun r s items hl hlen hi hz hr hm ht hn hok hid hc =>
      ⟨_, _, rfl, congrArg Host.Outcome.next (opDiagTableWrite_writes hl hlen hi hz hr hm ht hn hok hid hc)⟩⟩
  · exact ends_of_finish (congrArg Host.Outcome.next (opJrnlQuery_answers hl hlen hz hr hm hq)) rfl (live_answerable hl)
  · exact ends_of_finish (congrArg Host.Outcome.next (opJrnlEventRead_answers hl hlen hz hm hn)) rfl (live_answerable hl)
  · exact ends_of_finish (congrArg Host.Outcome.next (opDiagCounters_answers hl hlen hz hm hg)) rfl (live_answerable hl)
  · exact ends_of_finish (congrArg Host.Outcome.next (opDiagQueueStatus_answers hl hlen hz hm hq hne)) rfl
      ((live_answerable hl).congr (clearOverruns_sessions l (takeLatched s r)))
  · have hfog : mramFog s = false := mramFog_of_inModes hm rfl
    rw [commit_eq (s := takeLatched s r) _ _ hfog]
    have h := ends_of_change1 (c := .diagQueueConfig r)
      (congrArg Host.Outcome.next (opDiagQueueConfig_changes hl hlen hz hr hm hk hd hv)) hc hfog
      ((live_answerable hl).congr (configQueue_sessions _ _ _ k (committed (takeLatched s r) [siteObj])))
    exact h
  · have h := opDiagSelfTest_permitted (d := 0) hl hlen hz hr (by rwa [ht]) (by rw [ht]; rfl) (by rwa [ht]) (by simp [ht])
      (by simp [ht])
    rw [if_pos ht] at h
    exact ends_of_finish (congrArg Host.Outcome.next h) rfl ((live_answerable hl).congr (scrubStrt_sessions (takeLatched s r)))
  · have h := opDiagSelfTest_permitted hl hlen hz hr hm hd hfree hchan hstandby
    rw [if_neg hne] at h
    obtain ⟨htests, hp, hcsn, hsessions⟩ := beginTest_effect r (fld r.payload 0 1) d (takeLatched s r)
    exact ⟨_, goesOn_of_accept (congrArg Host.Outcome.next h) ((live_answerable hl).congr hsessions), htests, hp, hcsn⟩
  · have hsome : (takeSnap (takeLatched s r) r (fld r.payload 4 4)).isSome = true := by
      rw [takeSnap_takeLatched_isSome]
      by_cases h0 : fld r.payload 4 4 = 0
      · simp only [takeSnap, h0, ↓reduceIte, Option.isSome_some]
      · simpa [h0] using hid
    obtain ⟨⟨k, u⟩, hk⟩ := Option.isSome_iff_exists.mp hsome
    exact ⟨k, u, hk, congrArg Host.Outcome.next (opDiagTableRead_reservationTable hl hlen hz ht hfirst hm hn hsize hk)⟩

end Sys2Proof.Machine
end

section
/-! PROOFS. The state after manufacture, and the events of a device at rest: in DOLDRUMS and STILL no firmware runs. -/

namespace Sys2Proof.Machine

open Sys2Proof

/-! ### Manufacture and power-on (R114, R116, R117) -/

/-- Settles O6: the reset state lists no way of the table, no command and no session, and each field has its value at reset. -/
theorem resetMeetsTheInvariants : Obligations.ResetMeetsTheInvariants := by
  unfold Obligations.ResetMeetsTheInvariants
  exact ⟨rfl, rfl, rfl, rfl, rfl, rfl, rfl, rfl⟩

/-! ### Events in which the firmware takes part (R103, R117) -/

/-- An event that leaves the state or names a unit the RD-824 does not have. -/
def LeavesOrFaults (o : Host.Outcome State Fault Refusal) (s : State) : Prop := o = .next s ∨ o = .fault .noSuchUnit

theorem leaves {s t : State} (h : t = s) : LeavesOrFaults (.next t) s := .inl (congrArg Host.Outcome.next h)

/-- An event of a numbered unit. -/
theorem unit_leaves {c : Prop} [Decidable c] {s t : State} (h : t = s) :
    LeavesOrFaults (if c then .next t else .fault .noSuchUnit) s := by
  split
  · exact leaves h
  · exact .inr rfl

section
variable {s : State} (hr : running s = false)
include hr

/-- At rest no queue is noted. -/
theorem noteQueue_rests {t : State} (h : t = s) (q : Nat) : noteQueue t q = s := by
  subst h
  unfold noteQueue
  split
  · rfl
  · exact if_pos (by simp [hr])

theorem noteTx_rests {t : State} (h : t = s) : noteTx t = s :=
  noteQueue_rests hr (noteQueue_rests hr h _) _

theorem slotNowOk_rests (k : Nat) : slotNowOk s k = false := by
  simp [slotNowOk, radiosOn, hr]

theorem opCanTxOutcome_rests (ch : Nat) (stop : Bool) (outcome : Nat) (sof : Option Counter) :
    opCanTxOutcome ch stop outcome sof s = s := by
  unfold opCanTxOutcome
  dsimp only
  split
  · rfl
  · exact if_pos (by simp [hr])

/-- Every firmware event asks first whether the firmware runs, if need be after it has found the object it is about. -/
theorem firmwareEvent_rests {c : Instr} (hc : firmwareEvent c = true) : LeavesOrFaults (exec c s) s := by
  cases c with
  | commandReceive | hostCredit | stopFilter | taskDeadline | terminalKeep | releaseApply | radioSettingsEffect | radioTestExpiry
  | ppsOut | zda | ppsIn | rtcSet | epochLatch | syncReq | reportDeadline | assocReq | assocConfirm | assocTimeout
  | positionReport | planReq | sleep | adrift | agingSweep | wakeMissed | sloutTestPulse | plannedSelfTest | leadChange | fltSwap
  | expirySweep => exact leaves (if_pos (by simp [hr]))
  | hostLoss | referenceLost => exact leaves (if_neg (by simp [hr]))
  | anchorActivateSend | activationCheck | activation | fltImageHandover | safUpdateTurn | activationAbandon | rollEffective
  | selfTestDone | updFinishDone | freezeEnd | reset | step =>
    refine leaves ?_
    simp only [opAnchorActivateSend, opActivationCheck, opActivation, opFltImageHandover, opSafUpdateTurn, opActivationAbandon,
      opRollEffective, opSelfTestDone, opUpdFinishDone, opFreezeEnd, opReset, opStep, hr, Bool.not_false, Bool.true_or,
      Bool.false_and, Bool.false_eq_true, ↓reduceIte]
    repeat' split
    all_goals rfl
  | beaconLaunch => exact leaves (noteTx_rests hr (if_pos (by simp [slotNowOk_rests hr])))
  | coreReload | syncResp | hello | report | relayAck | phyLinkChange | podlDetection | podlOverload | podlRestore | radioRx
  | slInput | inputTestPulse | clockLoss | channelRejoin | canRx | busOffRecovery | memoryFault =>
    exact unit_leaves (if_pos (by simp [hr]))
  | windowOverrun => exact unit_leaves (if_neg (by simp [hr]))
  | stopFrame => exact unit_leaves (if_pos (by simp [slotNowOk_rests hr]))
  | lease | timeTrigger | pulseEnd | relayResend | faultRetry =>
    refine unit_leaves ?_
    simp only [opLease, opTimeTrigger, opPulseEnd, opRelayResend, opFaultRetry, hr, Bool.not_false, Bool.true_or, Bool.false_and,
      Bool.false_eq_true, ↓reduceIte]
    split <;> rfl
  | timeslot => exact unit_leaves (noteTx_rests hr (if_pos (by simp [slotNowOk_rests hr])))
  | canTxOutcome => exact unit_leaves (noteQueue_rests hr (opCanTxOutcome_rests hr ..) _)
  | busOff | canWake | canBusError => exact unit_leaves (noteQueue_rests hr (if_pos (by simp [hr])) _)
  | _ => cases hc

/-! ### The clock's own events (R21, R24, R392) -/

theorem entersWindow_rests (w : Window) : entersWindow s w = false := by
  simp [entersWindow, hr]

/-- At rest no window is entered: the clock's event is a boundary, or passes a window. -/
theorem clockEvent_rests {c : Instr} (hc : clockEvent c = true) :
    (∃ i, c = .fcBoundary i) ∨ ∃ w, exec c s = .next (passWindow s w) := by
  cases c with
  | fcBoundary i => exact .inl ⟨i, rfl⟩
  | safeWindow => exact .inr ⟨_, congrArg Host.Outcome.next (if_neg (by simp [entersWindow_rests hr]))⟩
  | solveWindow | commandWindow | planWindow | emitWindow | persistWindow | guardWindow =>
    exact .inr ⟨_, congrArg Host.Outcome.next (if_pos (by simp [entersWindow_rests hr]))⟩
  | _ => cases hc

end

theorem not_running_of_doldrums {s : State} (h : s.mode.cur = .doldrums) : running s = false := by
  simp [running, edtorRuns, h]

theorem not_running_of_still {s : State} (h : s.mode.cur = .still) : running s = false := by
  simp [running, edtorRuns, h]

theorem passWindow_of_not_still {s : State} (h : s.mode.cur ≠ .still) (w : Window) : passWindow s w = s :=
  if_neg (by simp [h])

theorem opFcBoundary_of_not_running {s : State} (i : BoundaryIn) (h : s.mode.cur ≠ .still) (hr : running s = false) :
    opFcBoundary i s = s :=
  (if_neg (by simpa using h)).trans (if_pos (by simp [hr]))

theorem opFcBoundary_of_still {s : State} (i : BoundaryIn) (h : s.mode.cur = .still) : opFcBoundary i s = provBoundary s :=
  if_pos (by simp [h])

/-- Two states differ at most in the clock, the start-up phase and the count of provisional FCs. -/
def OnlyClockMoves (s t : State) : Prop :=
  t = { s with
    clk := t.clk
    mode := { s.mode with stillPhase := t.mode.stillPhase }
    stop := { s.stop with provFc := t.stop.provFc } }

theorem passWindow_onlyClock (s : State) (w : Window) : OnlyClockMoves s (passWindow s w) := by
  unfold passWindow
  split <;> rfl

theorem provBoundary_onlyClock (s : State) : OnlyClockMoves s (provBoundary s) := by
  unfold provBoundary
  split <;> rfl

/-- Settles O7: every firmware event asks first whether the firmware runs (`firmwareEvent_rests`), a window is passed without
work (`clockEvent_rests`), and a boundary of STILL is provisional. -/
theorem eventsOfARestingDeviceChangeNothing : Obligations.EventsOfARestingDeviceChangeNothing := by
  unfold Obligations.EventsOfARestingDeviceChangeNothing
  refine ⟨fun c s hc hr => firmwareEvent_rests hr hc, fun c s hc hm => ?_, fun c s hc hm => ?_⟩
  · have hr : running s = false := not_running_of_doldrums hm
    have hs : s.mode.cur ≠ .still := by simp [hm]
    obtain ⟨i, rfl⟩ | ⟨w, h⟩ := clockEvent_rests hr hc
    · exact congrArg Host.Outcome.next (opFcBoundary_of_not_running i hs hr)
    · rw [h, passWindow_of_not_still hs]
  · obtain ⟨i, rfl⟩ | ⟨w, h⟩ := clockEvent_rests (not_running_of_still hm) hc
    · exact ⟨_, congrArg Host.Outcome.next (opFcBoundary_of_still i hm), provBoundary_onlyClock s⟩
    · exact ⟨_, h, passWindow_onlyClock s w⟩

end Sys2Proof.Machine
end

section
/-! PROOFS. Settings rows: their read forms, and the changes of the host-side settings; SYS_MODE_SET, SYS_RESET and
SYS_TENDER_CLOSE. -/

namespace Sys2Proof.Machine

open Sys2Proof

/-! ### Fields of payloads that are built up -/

theorem fromLe_zb (n : Nat) : fromLe (zb n) = 0 := by
  induction n with
  | zero => rfl
  | succ n ih => exact congrArg (0 + 256 * ·) ih

@[simp] theorem slice_zb (n off k : Nat) : slice (zb n) off k = zb (min k (n - off)) := by
  simp [slice, zb]

@[simp] theorem fld_zb (n off k : Nat) : fld (zb n) off k = 0 := by
  rw [fld, slice_zb, fromLe_zb]

@[simp] theorem allZero_zb (n : Nat) : allZero (zb n) = true := by
  simp [allZero, zb]

@[simp] theorem zeros_zb (n off k : Nat) : zeros (zb n) off k = true := by
  rw [zeros, slice_zb]
  exact allZero_zb _

theorem slice_append (a b : Bytes) (off k : Nat) : slice (a ++ b) (a.length + off) k = slice b off k := by
  rw [slice, slice, List.drop_append, List.drop_eq_nil_of_le (Nat.le_add_right ..), Nat.add_sub_cancel_left, List.nil_append]

theorem fld_le_append {n x : Nat} (h : x < 256 ^ n) (b : Bytes) : fld (le n x ++ b) 0 n = x := by
  have hs : slice (le n x ++ b) 0 n = le n x := List.take_left' (le_length n x)
  rw [fld, hs, fromLe_le h]

/-- A field behind a selector byte is one of the bytes that follow it. -/
theorem fld_after_byte (x : Nat) (b : Bytes) (off k : Nat) : fld (le 1 x ++ b) (1 + off) k = fld b off k :=
  congrArg fromLe (slice_append (le 1 x) b off k)

theorem zeros_after_byte (x : Nat) (b : Bytes) (off k : Nat) : zeros (le 1 x ++ b) (1 + off) k = zeros b off k :=
  congrArg (·.all (· == 0)) (slice_append (le 1 x) b off k)

/-! ### The read forms -/

section
variable {r : Request} {s : State} {len rsv read role : Bool} {opcode : Nat} {l : List Mode} {rd k : State → State}

/-- A settings row in its read form, for which any role and every mode of Edtor will do. -/
theorem runOp_reads (hl : live s r = true) (hlen : len = true) (hz : rsv = true) (hread : read = true)
    (hm : edt s opcode = true) :
    runOp s r len rsv (read || role) (edtOr s opcode read l) (fun u => if read then rd u else k u) = rd (takeLatched s r) := by
  subst hread
  exact (runOp_passes _ hl hlen hz rfl hm).trans (if_pos rfl)

/-- A settings row that changes something. -/
theorem runOp_changes (hl : live s r = true) (hlen : len = true) (hz : rsv = true) (hr : role = true) (hm : inModes s l = true)
    (hread : read = false) :
    runOp s r len rsv (read || role) (edtOr s opcode read l) (fun u => if read then rd u else k u) = k (takeLatched s r) := by
  subst hread
  exact (runOp_passes _ hl hlen hz hr hm).trans (if_neg Bool.false_ne_true)

/-- A row that reads answers with its report. -/
theorem ends_of_read {c : Instr} {t : State} (reply : State → Bytes) (h : exec c s = .next t)
    (ht : t = runOp s r len rsv (read || role) (edtOr s opcode read l) fun u =>
      if read then finish u r stOk (reply u) else k u)
    (hl : live s r = true) (hlen : len = true) (hz : rsv = true) (hread : read = true) (hm : edt s opcode = true) :
    Ends c r s (takeLatched s r) stOk (reply (takeLatched s r)) :=
  ends_of_finish (h.trans (congrArg Host.Outcome.next (ht.trans (runOp_reads hl hlen hz hread hm)))) rfl (live_answerable hl)

end

theorem auxRsv_zb (n : Nat) : auxRsv (zb n) = true := by
  simp [auxRsv]

theorem auxEntries_zb (n : Nat) : ((List.range 8).all fun io => auxRsv (auxEntry (zb n) io)) = true := by
  simp [auxEntry, auxRsv_zb]

theorem opSysPowerConfig_reads {r : Request} {s : State} (hl : live s r = true) (hp : r.payload = zb 16)
    (hr : supOk s r = true) (hm : inModes s mNorm = true) :
    opSysPowerConfig r s = finish (takeLatched s r) r stOk (powerReply s) := by
  rw [opSysPowerConfig, runOp_passes _ hl (by simp [hp]) (by simp [hp]) hr hm]
  exact if_pos (by simp [hp])

/-- SYS_NET_CONFIG with ACTION 2 reads the settings of the port named (R474). -/
theorem opSysNetConfig_reads {r : Request} {s : State} {h : Nat} (hl : live s r = true) (hh : h < 2)
    (hp : r.payload = le 1 h ++ le 1 2 ++ zb 46) (hm : edt s 0x0140 = true) :
    opSysNetConfig r s = finish (takeLatched s r) r stOk (netReply h 2 (tgetD s.p.net h {})) := by
  have hport : fld r.payload 0 1 = h := by
    rw [hp, List.append_assoc]
    exact fld_le_append (by omega) _
  have haction : fld r.payload 1 1 = 2 := by
    rw [hp, List.append_assoc]
    exact (fld_after_byte h _ 0 1).trans (fld_le_append (by decide) _)
  have hz : zeros r.payload 2 46 = true := by
    rw [hp, List.append_assoc]
    exact (zeros_after_byte h _ 1 46).trans ((zeros_after_byte 2 _ 0 46).trans (zeros_zb ..))
  simp only [opSysNetConfig, hport, haction]
  refine (runOp_passes _ hl (by simp [hp]) hz rfl hm).trans ?_
  exact (need_passes _ (by simp [hh])).trans (if_pos rfl)

/-- Settles O16: the checks pass on a payload of zeros, and the row reads (`ends_of_read`). -/
theorem settingsReadsAnswerAndChangeNothing : Obligations.SettingsReadsAnswerAndChangeNothing := by
  unfold Obligations.SettingsReadsAnswerAndChangeNothing
  refine ⟨fun r s hl hp hm => ends_of_read (fun u => timeCfgBytes u.p.timeCfg) rfl (by unfold opTimeConfig; rfl) hl ?_ ?_ ?_ hm,
    fun r s hl hp hm => ends_of_read (gnssCfgBytes · 0) rfl (by unfold opGnssConfig; rfl) hl ?_ ?_ ?_ hm,
    fun r s hl hp hm => ends_of_read (fun u => refCfgBytes u.p.refCfg) rfl (by unfold opRefConfig; rfl) hl ?_ ?_ ?_ hm,
    fun r s hl hp hm => ends_of_read (fun u => buoyCfgBytes u.p.buoyCfg) rfl (by unfold opBuoyConfig; rfl) hl ?_ ?_ ?_ hm,
    fun r s hl hp hm => ends_of_read (fun u => sessCfgBytes u.p.sessCfg) rfl (by unfold opSessConfig; rfl) hl ?_ ?_ ?_ hm,
    fun r s hl hp hm => ends_of_read (fun u => taskCfgBytes u.p.taskCfg) rfl (by unfold opTaskConfig; rfl) hl ?_ ?_ ?_ hm,
    fun r s hl hp hm => ends_of_read (fun u => stopCfgBytes u.p.stopCfg) rfl (by unfold opStopConfig; rfl) hl ?_ ?_ ?_ hm,
    fun r s hl hp hm => ends_of_read radioCfgReply rfl (by unfold opRadioConfig; rfl) hl ?_ ?_ ?_ hm,
    fun r s hl hp hm => ends_of_read tamperReply rfl (by unfold opKeyTamperConfig; rfl) hl ?_ ?_ ?_ hm,
    fun r s hl hp hm => ends_of_read auxReply rfl (by unfold opSysAuxConfig; rfl) hl ?_ ?_ ?_ hm,
    fun r s hl hp hm => ends_of_read (fun u => gridBytes u.p.grid) rfl (by unfold opStrtGridSet; rfl) hl ?_ ?_ ?_ hm,
    fun r s hl hp hr hm => ends_of_finish (congrArg Host.Outcome.next (opSysPowerConfig_reads hl hp hr hm)) rfl
      (live_answerable hl),
    fun r s h hl hh hp hm => ends_of_finish (congrArg Host.Outcome.next (opSysNetConfig_reads hl hh hp hm)) rfl
      (live_answerable hl),
    fun r s hl hp hm => ends_of_read zonesReply rfl (by unfold opBuoyZoneSet; rfl) hl (by rw [hp]; rfl)
      (by rw [hp]; rfl) (by rw [hp]; rfl) hm⟩
  all_goals simp [hp, auxEntries_zb, bit]

/-! ### Changes of the site configuration -/

/-- What a one-commit change of the site configuration does. -/
theorem ends_of_siteChange {c : Instr} {r : Request} {s : State} {f : State → State} {reply : State → Bytes}
    (h : exec c s = .next (change1 (takeLatched s r) r siteObj f reply)) (hl : live s r = true)
    (hc : csnHolds s r [siteObj] = true) (hf : ∀ u, (f u).edtor.sessions = u.edtor.sessions) (hm : mramFog s = false) :
    Ends c r s (f (committed (takeLatched s r) [siteObj])) stOk (reply (f (committed (takeLatched s r) [siteObj]))) :=
  ends_of_change1 h hc hm ((live_answerable hl).congr (hf _))

section
variable {r : Request} {s : State} (hl : live s r = true)
include hl

/-- SYS_POWER_CONFIG with its checks passed (R120, R121, R128). -/
theorem opSysPowerConfig_changes (hlen : r.payload.length = 16) (hz : zeros r.payload 13 3 = true)
    (hk : fld r.payload 10 2 < 1024) (hr : supOk s r = true) (hm : inModes s mNorm = true) (hn : allZero r.payload = false)
    (hok : powerOk (powerFrom r.payload) = true) :
    opSysPowerConfig r s = change1 (takeLatched s r) r siteObj
      (fun u => { u with p.power := powerFrom r.payload, supply.cfgDue := true }) powerReply := by
  rw [opSysPowerConfig, runOp_passes _ hl (beq_iff_eq.mpr hlen) (by simp [hz, hk]) hr hm]
  exact (if_neg (by simp [hn])).trans (need_passes _ hok)

/-- SYS_NET_CONFIG with ACTION 1 and its checks passed (R474). -/
theorem opSysNetConfig_changes (hlen : r.payload.length = 48) (ha : fld r.payload 1 1 = 1) (hz : zeros r.payload 5 3 = true)
    (hmode : fld r.payload 2 1 < 4) (hr : supOk s r = true) (hm : inModes s mCfg = true) (hport : fld r.payload 0 1 < 2)
    (hok : netOk (netFrom r.payload) = true) :
    opSysNetConfig r s = change1 (takeLatched s r) r siteObj
      (fun u => { u with p.net := tput u.p.net (fld r.payload 0 1) (netFrom r.payload) })
      (fun _ => netReply (fld r.payload 0 1) 1 (netFrom r.payload)) := by
  simp only [opSysNetConfig, ha]
  refine (runOp_passes _ hl (beq_iff_eq.mpr hlen) (by simp [hz, hmode]) hr hm).trans ?_
  exact (need_passes _ (by simp [hport, hok])).trans (if_neg (by decide))

/-- The settings of the auxiliary I/Os as a SYS_AUX_CONFIG payload changes them: an entry with DIR 0 leaves its I/O (R475). -/
def auxChanged (p : Bytes) (t : Tbl AuxConfig) : Tbl AuxConfig :=
  (List.range 8).foldl (fun t io => if fld (auxEntry p io) 0 1 = 0 then t else tput t io (auxFrom (auxEntry p io))) t

/-- SYS_AUX_CONFIG with its checks passed (R470, R475). -/
theorem opSysAuxConfig_changes (hlen : r.payload.length = 64) (hz : ∀ io ∈ List.range 8, auxRsv (auxEntry r.payload io) = true)
    (hr : supOk s r = true) (hm : inModes s mCfg = true) (hn : allZero r.payload = false)
    (hok : ∀ io ∈ List.range 8, auxOk (auxEntry r.payload io) = true)
    (hfree : ∀ io ∈ List.range 8, auxBusy s r.payload io = false) :
    opSysAuxConfig r s = change1 (takeLatched s r) r siteObj (fun u => { u with p.aux := auxChanged r.payload u.p.aux })
      auxReply := by
  have hfree' : (!((List.range 8).any (auxBusy s r.payload))) = true := by
    simpa using hfree
  unfold opSysAuxConfig
  exact (runOp_changes hl (beq_iff_eq.mpr hlen) (List.all_eq_true.mpr hz) hr hm hn).trans
    ((need_passes _ (List.all_eq_true.mpr hok)).trans (need_passes _ hfree'))

/-- TIME_CONFIG with its checks passed (R160). -/
theorem opTimeConfig_changes (hlen : r.payload.length = 24) (hz : zeros r.payload 19 5 = true) (hr : supOk s r = true)
    (hm : inModes s mCfg = true) (hn : allZero r.payload = false) (hok : timeCfgOk r.payload = true) :
    opTimeConfig r s = change1 (takeLatched s r) r siteObj
      (fun u => { u with p.timeCfg := timeCfgFrom u.p.timeCfg r.payload }) (fun u => timeCfgBytes u.p.timeCfg) := by
  unfold opTimeConfig
  exact (runOp_changes hl (beq_iff_eq.mpr hlen) hz hr hm hn).trans (need_passes _ hok)

/-- STOP_CONFIG with its checks passed (R400). -/
theorem opStopConfig_changes (hlen : r.payload.length = 16) (hz : zeros r.payload 5 11 = true) (hr : supOk s r = true)
    (hm : inModes s mCfg = true) (hn : allZero r.payload = false)
    (hok : stopCfgOk (stopCfgFrom s.p.stopCfg r.payload) = true) :
    opStopConfig r s = change1 (takeLatched s r) r siteObj
      (fun u => { u with p.stopCfg := stopCfgFrom s.p.stopCfg r.payload }) (fun u => stopCfgBytes u.p.stopCfg) := by
  unfold opStopConfig
  exact (runOp_changes hl (beq_iff_eq.mpr hlen) hz hr hm hn).trans (need_passes _ hok)

end

/-- Settles O17: each row comes to one change of the site configuration. -/
theorem hostSideSettingsTakeEffect : Obligations.HostSideSettingsTakeEffect := by
  unfold Obligations.HostSideSettingsTakeEffect
  refine ⟨fun r s hl hc hlen hz hk hr hm hn hok => ?_, fun r s hl hc hlen ha hz hmode hr hm hport hok => ?_,
    fun r s hl hc hlen hz hr hm hn hok hfree => ?_, fun r s hl hc hlen hz hr hm hn hok => ?_,
    fun r s hl hc hlen hz hr hm hn hok => ?_⟩
  all_goals
    have hfog : mramFog s = false := mramFog_of_inModes hm rfl
    rw [commit_eq (s := takeLatched s r) _ _ hfog]
  · exact ends_of_siteChange (c := .sysPowerConfig r)
      (congrArg Host.Outcome.next (opSysPowerConfig_changes hl hlen hz hk hr hm hn hok)) hl hc (fun _ => rfl) hfog
  · exact ends_of_siteChange (c := .sysNetConfig r)
      (congrArg Host.Outcome.next (opSysNetConfig_changes hl hlen ha hz hmode hr hm hport hok)) hl hc (fun _ => rfl) hfog
  · exact ends_of_siteChange (c := .sysAuxConfig r)
      (congrArg Host.Outcome.next (opSysAuxConfig_changes hl hlen hz hr hm hn hok hfree)) hl hc (fun _ => rfl) hfog
  · exact ends_of_siteChange (c := .timeConfig r)
      (congrArg Host.Outcome.next (opTimeConfig_changes hl hlen hz hr hm hn hok)) hl hc (fun _ => rfl) hfog
  · exact ends_of_siteChange (c := .stopConfig r)
      (congrArg Host.Outcome.next (opStopConfig_changes hl hlen hz hr hm hn hok)) hl hc (fun _ => rfl) hfog

/-! ### SYS_MODE_SET (R107, R110, R126) -/

theorem modeOf_modeCode (m : Mode) : modeOf (modeCode m) = some m := by
  cases m <;> rfl

/-- The mode change that a SYS_MODE_SET decides. Where it leaves FOG into SQUALL or LULL, RETURN_MODE is CALM (R109). -/
def enterCommanded (r : Request) (base eff : Mode) (csn : Nat) (s : State) : State :=
  let t := decideMode s eff 0x02 (some csn) (some (r.sessionId, r.tag))
  if base == .fog then
    { t with mode.next := t.mode.next.map fun c => { c with ret := if isOver eff then some .calm else none } }
  else t

theorem decideMode_edtor (s : State) (target : Mode) (cause : Nat) (csn : Option Nat) (tag : Option (Nat × Nat)) :
    (decideMode s target cause csn tag).edtor = s.edtor := by
  unfold decideMode
  dsimp only
  split <;> rfl

theorem enterCommanded_edtor (r : Request) (base eff : Mode) (csn : Nat) (s : State) :
    (enterCommanded r base eff csn s).edtor = s.edtor := by
  unfold enterCommanded
  split <;> exact decideMode_edtor ..

/-- A SYS_MODE_SET that its row of R110 and the preconditions of R126 permit. -/
theorem opSysModeSet_decides {r : Request} {s : State} {m : Mode} (hl : live s r = true)
    (hp : r.payload = le 1 (modeCode m) ++ zb 7) (hr : modeSetRole s r = true)
    (hmode : inModes s [.calm, .zephyr, .breeze, .drift, .watch, .fog] = true) (hrow : m ∈ setRow (modeSelected s))
    (hstep : s.time.steppedThisFc = false) (hcause : (modeSelected s == .fog && fogCauseSelected s == 0x0B) = false)
    (hn : modeSetNotReady s (modeSelected s) m = 0) :
    opSysModeSet r s = change1 (takeLatched s r) r siteObj
      (fun u => enterCommanded r (modeSelected s) (modeSetEffect s (modeSelected s) m) u.com.csn u)
      fun _ => modeSetReply (modeSetEffect s (modeSelected s) m) 0 := by
  have hcode : fld r.payload 0 1 = modeCode m := by
    rw [hp]
    exact fld_le_append (by cases m <;> decide) _
  have hz : zeros r.payload 1 7 = true := by
    rw [hp]
    exact (zeros_after_byte _ _ 0 7).trans (zeros_zb ..)
  have hmay : ¬(!((setRow (modeSelected s)).contains m && !s.time.steppedThisFc
      && !(modeSelected s == .fog && fogCauseSelected s == 0x0B))) = true := by
    simp [hrow, hstep, hcause]
  have hready : ¬(modeSetNotReady s (modeSelected s) m != 0) = true := by
    simp [hn]
  rw [opSysModeSet, runOp_passes _ hl (by simp [hp]) hz hr hmode]
  simp only [hcode, modeOf_modeCode]
  exact (if_neg hmay).trans (if_neg hready)

/-! ### SYS_RESET (R127) -/

/-- A confirmed SYS_RESET of either KIND requests its reset for the end of the FC. -/
theorem opSysReset_requests {r : Request} {s : State} {kind : Nat} (hk : kind = 1 ∨ kind = 2) (hl : live s r = true)
    (hp : r.payload = le 1 kind ++ zb 3 ++ le 4 0xC0DE) (hr : (if kind = 2 then svcOk s r else supOk s r) = true)
    (hm : inModes s [.tender, .calm, .zephyr, .lull, .squall, .watch, .fog] = true) :
    opSysReset (withHead r kind) s
      = finish { takeLatched s (withHead r kind) with mode.resetAt := some (if kind = 1 then 0x03 else 0x04) }
          (withHead r kind) stOk [] := by
  have hp' : (withHead r kind).payload = le 1 kind ++ zb 3 ++ le 4 0xC0DE := by
    rw [withHead, hp]
    rfl
  have hkind : fld (withHead r kind).payload 0 1 = kind := by
    rw [hp', List.append_assoc]
    exact fld_le_append (by omega) _
  have hz : zeros (withHead r kind).payload 1 3 = true := by
    rw [hp']
    rfl
  have hconfirm : fld (withHead r kind).payload 4 4 = 0xC0DE := by
    rw [hp']
    rfl
  have hl' : live s (withHead r kind) = true := hl
  have hr' : (if kind = 2 then svcOk s (withHead r kind) else supOk s (withHead r kind)) = true := hr
  simp only [opSysReset, hkind]
  rw [runOp_passes _ hl' (by simp [hp']) hz hr' hm]
  exact need_passes _ (by simp [hk, hconfirm])

/-! ### SYS_TENDER_CLOSE (R123, R131) -/

theorem opSysTenderClose_closes {r : Request} {s : State} (hl : live s r = true) (hp : r.payload = []) (hr : svcOk s r = true)
    (hm : s.mode.cur = .tender) (hn : notReadyTender s = 0) :
    opSysTenderClose r s = change1 (takeLatched s r) r siteObj
      (fun u => { u with mode.resetAt := some 0x05, p.control.provRefused := true }) fun _ => le 4 0 := by
  have hready : ¬(notReadyTender s != 0) = true := by
    simp [hn]
  rw [opSysTenderClose, runOp_passes _ hl (by simp [hp]) rfl hr (by simp [inModes, hm])]
  exact if_neg hready

/-- Settles O18: SYS_MODE_SET and SYS_TENDER_CLOSE come to one change of the site configuration, SYS_RESET to its request. -/
theorem sysModeAndResetCommandsTakeEffect : Obligations.SysModeAndResetCommandsTakeEffect := by
  unfold Obligations.SysModeAndResetCommandsTakeEffect
  refine ⟨fun r s m hl hc hp hr hmode hrow hstep hcause hfog hn => ?_, fun r s hl hp hr hm => ?_, fun r s hl hp hr hm => ?_,
    fun r s hl hc hp hr hm hn => ?_⟩
  · rw [commit_eq (s := takeLatched s r) _ _ hfog]
    exact ends_of_siteChange (c := .sysModeSet r)
      (congrArg Host.Outcome.next (opSysModeSet_decides hl hp hr hmode hrow hstep hcause hn)) hl hc
      (fun u => congrArg (·.sessions) (enterCommanded_edtor ..)) hfog
  · exact ends_of_finish (congrArg Host.Outcome.next (opSysReset_requests (.inl rfl) hl hp hr hm)) rfl (live_answerable hl)
  · exact ends_of_finish (congrArg Host.Outcome.next (opSysReset_requests (.inr rfl) hl hp hr hm)) rfl (live_answerable hl)
  · have hfog : mramFog s = false := by simp [mramFog, hm]
    rw [commit_eq (s := takeLatched s r) _ _ hfog]
    exact ends_of_siteChange (c := .sysTenderClose r)
      (congrArg Host.Outcome.next (opSysTenderClose_closes hl hp hr hm hn)) hl hc (fun _ => rfl) hfog

end Sys2Proof.Machine
end

section
/-! PROOFS. The time base: the registers at a boundary, what a step leaves of them, and the events of the PPS, the RTC, the time
triggers and the pulses. For each event a lemma says what it does once it is due, and those after it what that leaves behind. -/

namespace Sys2Proof.Machine

open Sys2Proof

/-! ### The registers at a boundary (R132, R133, R137) -/

@[simp] theorem slew_anchor (g : TimeRegs) : slew g g.anchor = 0 := by
  simp [slew]

/-- Moving the anchor to a counter value, with the slew it had there taken into the offset, leaves the time read there (R133). -/
theorem time64_reanchor (g : TimeRegs) (b : Counter) (rate : Int) :
    time64 { g with offset := g.offset + BitVec.ofInt 64 (slew g b), anchor := b, rate := rate } b = time64 g b := by
  have hs : slew { g with offset := g.offset + BitVec.ofInt 64 (slew g b), anchor := b, rate := rate } b = 0 := slew_anchor _
  simp only [time64, hs]
  simp [BitVec.add_assoc]

/-- The rate from a boundary on: what the phase loop left in ACQUIRING and LOCKED, and 0 in every other state (R137). -/
def rateNext (s : State) : Int :=
  if s.time.state == .acquiring || s.time.state == .locked then s.time.nextRate.getD s.time.regs.rate else 0

/-- The registers with which a boundary goes on: anchored anew where the rate changes (R133). -/
def regsMoved (s : State) (b : Counter) : TimeRegs :=
  let g := s.time.regs
  if rateNext s == g.rate then g
  else { g with offset := g.offset + BitVec.ofInt 64 (slew g b), anchor := b, rate := rateNext s }

theorem nextRegs_eq (s : State) (b : Counter) (fc : Nat) :
    nextRegs s b fc = { regsMoved s b with fc := fc, boundary := b, era := eraOf (fullTime s.time.regs b) } := rfl

theorem time64_regsMoved (s : State) (b : Counter) : time64 (regsMoved s b) b = time64 s.time.regs b := by
  unfold regsMoved
  dsimp only
  split
  · rfl
  · exact time64_reanchor ..

theorem regsMoved_rate (s : State) (b : Counter) : (regsMoved s b).rate = rateNext s := by
  unfold regsMoved
  dsimp only
  split
  · next h => exact (beq_iff_eq.mp h).symm
  · rfl

theorem rateNext_free {s : State} (ha : s.time.state ≠ .acquiring) (hl : s.time.state ≠ .locked) : rateNext s = 0 := by
  simp [rateNext, ha, hl]

/-- Settles O49: a boundary marks the registers and, where the rate changes, anchors them anew (`nextRegs_eq`), which leaves the
time read there. -/
theorem reportedTimeDoesNotJumpAtARateChange : Obligations.ReportedTimeDoesNotJumpAtARateChange := by
  unfold Obligations.ReportedTimeDoesNotJumpAtARateChange
  refine ⟨fun s b fc => ⟨time64_regsMoved s b, rfl, rfl⟩, fun s b fc ha hl => ?_⟩
  rw [nextRegs_eq]
  exact (regsMoved_rate s b).trans (rateNext_free ha hl)

/-! ### What taking the references and a step keep -/

/-- The settings and records MRAM takes and the time registers: what the references taken at a boundary and the time state after a
step keep. -/
def mramRegs (s : State) : Mram × TimeRegs := (s.p, s.time.regs)

theorem mramRegs_mk (pending freeCtr fuse flash p nv bk clk cores mode supply edtor com queues time gnss ref buoy sess strt
    holds allot stop radio can ports sec upd) :
    mramRegs (State.mk pending freeCtr fuse flash p nv bk clk cores mode supply edtor com queues time gnss ref buoy sess strt
      holds allot stop radio can ports sec upd) = (p, time.regs) := by unfold mramRegs; rfl

theorem mramRegs_fold (s : State) : (s.p, s.time.regs) = mramRegs s := by unfold mramRegs; rfl

theorem leaveLocked_mramRegs (s : State) : mramRegs (leaveLocked s) = mramRegs s := by
  simp only [leaveLocked, trigger, ↓mramRegs_mk, ↓mramRegs_fold, ↓apply_ite mramRegs, ite_self]

theorem loseReference_mramRegs (s : State) : mramRegs (loseReference s) = mramRegs s := by
  simp only [loseReference]
  split <;> simp only [↓mramRegs_mk, ↓mramRegs_fold, ↓leaveLocked_mramRegs]

theorem acquireReference_mramRegs (s : State) (ref : Nat) (x : Int) :
    mramRegs (acquireReference s ref x) = mramRegs s := by
  simp only [acquireReference, ↓mramRegs_mk, ↓mramRegs_fold, ↓apply_ite mramRegs, ite_self, ↓leaveLocked_mramRegs]

theorem selectReference_mramRegs (s : State) : mramRegs (selectReference s) = mramRegs s := by
  simp only [selectReference]
  (repeat' split) <;> simp only [↓acquireReference_mramRegs, ↓loseReference_mramRegs]

theorem useMeasurement_mramRegs (s : State) (x dy : Int) : mramRegs (useMeasurement s x dy) = mramRegs s := by
  simp only [useMeasurement, ↓mramRegs_mk, ↓mramRegs_fold, ↓apply_ite mramRegs, ite_self]

theorem measurePps_mramRegs (s : State) (c : Counter) : mramRegs (measurePps s c) = mramRegs s := by
  simp only [measurePps]
  split <;> simp only [↓mramRegs_mk, ↓mramRegs_fold, ↓apply_ite mramRegs, ite_self, ↓selectReference_mramRegs,
    ↓useMeasurement_mramRegs]

theorem latchPps_mramRegs (s : State) : mramRegs (latchPps s) = mramRegs s := by
  simp only [latchPps, ↓mramRegs_mk, ↓mramRegs_fold, ↓foldl_keeps mramRegs, implies_true, ↓measurePps_mramRegs]

theorem ppsLoss_mramRegs (s : State) (now : Nat) : mramRegs (ppsLoss s now) = mramRegs s := by
  simp only [ppsLoss]
  split <;> simp only [↓mramRegs_mk, ↓mramRegs_fold, ↓apply_ite mramRegs, ite_self]

theorem latchReferences_mramRegs (s : State) (b : Counter) : mramRegs (latchReferences s b) = mramRegs s := by
  simp only [latchReferences, ↓mramRegs_mk, ↓mramRegs_fold, ↓latchPps_mramRegs, ↓ppsLoss_mramRegs,
    ↓selectReference_mramRegs]

theorem stepState_mramRegs (s : State) (q : StepReq) : mramRegs (stepState s q) = mramRegs s := by
  simp only [stepState, ↓mramRegs_mk, ↓mramRegs_fold, ↓apply_ite mramRegs, ite_self]

/-! ### The step (R137, R145) -/

/-- The registers a step leaves: at its boundary they read the full time it sets, and they run at rate 0 (R137, R145). -/
def steppedRegs (g : TimeRegs) (b : Counter) (t : Nat) : TimeRegs :=
  { g with fc := fcOfTime t, boundary := b, anchor := b, rate := 0, offset := BitVec.ofNat 64 t - b, era := eraOf t }

/-- A step reads its boundary in the old registers, moves that by the step and keeps the memory of the settings. -/
theorem applyStep_mramRegs (s : State) (q : StepReq) :
    mramRegs (applyStep s q)
      = (s.p, steppedRegs s.time.regs (nextBoundary s) ((fullTime s.time.regs (nextBoundary s) : Int) + q.ftu).toNat) := by
  have hl := latchReferences_mramRegs s (nextBoundary s)
  have hs := (stepState_mramRegs (latchReferences s (nextBoundary s)) q).trans hl
  rw [mramRegs, mramRegs, Prod.mk.injEq] at hl hs
  obtain ⟨-, hlr⟩ := hl
  obtain ⟨hsp, hsr⟩ := hs
  simp only [mramRegs, applyStep, hsp, hsr, hlr, steppedRegs]

theorem applyStep_regs (s : State) (q : StepReq) :
    (applyStep s q).time.regs
      = steppedRegs s.time.regs (nextBoundary s) ((fullTime s.time.regs (nextBoundary s) : Int) + q.ftu).toNat :=
  congrArg Prod.snd (applyStep_mramRegs s q)

theorem applyStep_p (s : State) (q : StepReq) : (applyStep s q).p = s.p := congrArg Prod.fst (applyStep_mramRegs s q)

/-! ### Each event at its instant -/

section
variable {s : State} {pclk : Nat}

theorem opPpsOut_crossing (hr : running s = true) (hp : inFc s pclk = true) (hc : crosses s pclk ftuPerSec 0 = true)
    (ha : ppsApart s (counterAt s pclk) = true) :
    opPpsOut pclk s = if ppsSquelched s then { s with time.ppsSuppressed := true } else { s with
      time.ppsSuppressed := false
      time.ppsPrevOut := some (counterAt s pclk)
      time.ppsFall := some (counterAt s pclk + BitVec.ofNat 64 (63897600 * s.time.cfg.ppsWidth))
      time.ppsTime := timeAt s pclk / ftuPerSec * ftuPerSec
      time.zdaDue := s.time.cfg.zdaEnable == 1 } := by
  have hg : ¬(!running s || !inFc s pclk || !crosses s pclk ftuPerSec 0 || !ppsApart s (counterAt s pclk)) = true := by
    simp [hr, hp, hc, ha]
  exact if_neg hg

theorem opZda_due (hr : running s = true) (hp : inFc s pclk = true) (hd : s.time.zdaDue = true)
    (hlo : s.time.ppsTime + zdaDelay ≤ timeAt s pclk) (hhi : timeAt s pclk < s.time.ppsTime + zdaDelay + 513) :
    opZda pclk s = { s with time.zda := zdaSentence s s.time.ppsTime, time.zdaDue := false } := by
  have hg : ¬(!running s || !inFc s pclk || !s.time.zdaDue || timeAt s pclk < s.time.ppsTime + zdaDelay
      || s.time.ppsTime + zdaDelay + 513 ≤ timeAt s pclk) = true := by
    simp [hr, hp, hd, hlo, hhi]
  exact if_neg hg

theorem opPpsIn_edge {ftu : Nat} {rising wide : Bool} (hr : running s = true) (hw : wide = true)
    (hf : ftu < 512 * s.clk.fcLen) (he : (rising == (s.time.cfg.ppsEdge == 1)) = true) :
    opPpsIn ftu rising wide s
      = { s with time.ppsIn := s.time.ppsIn ++ [s.clk.boundary + BitVec.ofInt 64 (ftu - ppsDelayFtu s)] } := by
  have hg : ¬(!running s || !wide || ftu ≥ 512 * s.clk.fcLen || rising != (s.time.cfg.ppsEdge == 1)) = true := by
    simp [hr, hw, hf, beq_iff_eq.mp he]
  exact if_neg hg

theorem opStep_guard {q : StepReq} (hr : running s = true) (hq : s.time.step = some q) (hw : s.clk.window = .guard) :
    opStep s = applyStep s q := by
  simp only [opStep, hq, hr, hw, beq_self_eq_true, Bool.and_self, ↓reduceIte]

/-- The RTC as it is set at a second: trimmed besides at the whole hours (R148). -/
theorem opRtcSet_crossing (hr : running s = true) (hp : inFc s pclk = true) (hc : crosses s pclk ftuPerSec 0 = true) :
    opRtcSet pclk s =
      let u : State := { s with bk.rtc := timeAt s pclk / ftuPerSec * 32768 }
      if timeAt s pclk / ftuPerSec % 3600 = 0 then { (freshNat u).2 with bk.rtcTrim := (freshNat u).1 } else u := by
  have hg : ¬(!running s || !inFc s pclk || !crosses s pclk ftuPerSec 0) = true := by
    simp [hr, hp, hc]
  exact if_neg hg

theorem opPulseEnd_over {io : Nat} {c : Counter} (hr : running s = true) (he : (auxLive s io).pulseEnd = some c)
    (hp : inFc s pclk = true) (hc : c ≤ counterAt s pclk) (hb : pclk = 0 ∨ counterAt s (pclk - 1) < c) :
    opPulseEnd io pclk s = modIo (setOut s io false) io fun x => { x with pulseEnd := none } := by
  have hg : ¬(!running s || !inFc s pclk || counterAt s pclk < c
      || (pclk != 0 && decide (c ≤ counterAt s (pclk - 1)))) = true := by
    rcases hb with rfl | hb <;> simp [*]
  simp only [opPulseEnd, he]
  exact if_neg hg

theorem tryFire_due {id : Nat} {g : TimeTrigger} (hg : tget s.time.triggers id = some g) (hf : firesAt s g pclk = true) :
    tryFire s id pclk = fireTrigger s id g pclk := by
  simp only [tryFire, hg, hf, ↓reduceIte]

/-- No trigger goes before one whose output none of a lower TRIGGER_ID shares (R157). -/
theorem triggersBefore_eq_nil {id out : Nat}
    (h : (List.range id).all (fun j => (tget s.time.triggers j).all fun x => x.output != out) = true) :
    ((List.range id).filter fun j => (tget s.time.triggers j).any fun x => x.output == out) = [] := by
  refine List.filter_eq_nil_iff.mpr fun j hj => ?_
  have hj' := List.all_eq_true.mp h j hj
  cases ht : tget s.time.triggers j with
  | none => simp
  | some x => simpa [ht] using hj'

theorem opTimeTrigger_due {id : Nat} {g : TimeTrigger} (hr : running s = true) (hg : tget s.time.triggers id = some g)
    (hp : inFc s pclk = true) (hf : firesAt s g pclk = true)
    (hfirst : (List.range id).all (fun j => (tget s.time.triggers j).all fun x => x.output != g.output) = true) :
    opTimeTrigger id pclk s = fireTrigger s id g pclk := by
  simp only [opTimeTrigger, hg, hr, hp, hf, Bool.not_true, Bool.or_self, Bool.false_eq_true, ↓reduceIte,
    triggersBefore_eq_nil hfirst, List.foldl_nil]
  exact tryFire_due hg hf

end

/-- An edge after another one: its interval is judged before it is measured (R138, R150). -/
theorem measurePps_after {s : State} (c : Counter) {t0 : Nat} (h : s.time.pps.lastTime = some t0) :
    measurePps s c =
      let t := scaledTime s c
      if !ppsInterval t0 t then
        { s with time.pps := { s.time.pps with lastTime := some t, good := 0 }, time.ppsBad := inc32 s.time.ppsBad }
      else
        let x := ppsOffset t
        let y := counterOffset x c t
        let u := selectReference { s with time.pps :=
          { s.time.pps with
            lastTime := some t, good := min 10 (s.time.pps.good + 1)
            qualified := s.time.pps.qualified || decide (9 ≤ s.time.pps.good), lastX := x, lastY := y } }
        if u.time.ref == some 2 then useMeasurement u x (y - s.time.pps.lastY) else u := by
  unfold measurePps
  dsimp only
  rw [h]

/-- Settles O38 by the equation of each event at its instant. -/
theorem timeEventsAct : Obligations.TimeEventsAct := by
  unfold Obligations.TimeEventsAct
  refine ⟨fun s pclk hr hp hc ha => congrArg Host.Outcome.next (opPpsOut_crossing hr hp hc ha),
    fun s pclk hr hp hd hlo hhi => congrArg Host.Outcome.next (opZda_due hr hp hd hlo hhi),
    fun s ftu rising wide hr hw hf he => congrArg Host.Outcome.next (opPpsIn_edge hr hw hf he),
    fun s c t0 h => measurePps_after c h,
    fun s q hr hq hw => congrArg Host.Outcome.next (opStep_guard hr hq hw), fun s q => ?_,
    fun s pclk hr hp hc => ⟨_, congrArg Host.Outcome.next (opRtcSet_crossing hr hp hc), ?_, fun hh => if_neg hh⟩,
    fun s id pclk g hr hi hg hp hf hfirst => ?_, fun s io pclk c hr hi he hp hc hb => ?_⟩
  · rw [applyStep_regs]
    exact ⟨rfl, rfl, rfl⟩
  · dsimp only
    split <;> rfl
  · exact (if_pos hi).trans (congrArg Host.Outcome.next (opTimeTrigger_due hr hg hp hf hfirst))
  · exact (if_pos hi).trans (congrArg Host.Outcome.next (opPulseEnd_over hr he hp hc hb))

/-! ### What a trigger leaves behind (R156, R157, R158) -/

/-- The action of a trigger changes the live state of the I/Os alone. -/
theorem triggerAction_eq (s : State) (g : TimeTrigger) (c : Counter) :
    triggerAction s g c = { s with ports.io := (triggerAction s g c).ports.io } := by
  unfold triggerAction
  (repeat' split) <;> rfl

@[simp] theorem auxLive_setOut_same (s : State) (io : Nat) (v : Bool) : (auxLive (setOut s io v) io).out = v :=
  congrArg AuxLive.out (auxLive_modIo_same ..)

/-- ACTION 0x01 and 0x03 turn the output on (R156). -/
theorem triggerAction_turns_on (s : State) {g : TimeTrigger} (c : Counter) (h : g.action = 1 ∨ g.action = 3) :
    (auxLive (triggerAction s g c) g.output).out = true := by
  unfold triggerAction
  rcases h with h | h <;> simp [h, auxLive_modIo_same]

/-- ACTION 0x02 turns the output off (R156). -/
theorem triggerAction_turns_off (s : State) {g : TimeTrigger} (c : Counter) (h : g.action = 2) :
    (auxLive (triggerAction s g c) g.output).out = false := by
  unfold triggerAction
  simp [h]

/-- A trigger that has fired for the last time is free. -/
theorem triggerNext_last {g : TimeTrigger} (t : Nat) (h : g.period = 0 ∨ g.left = 1) : triggerNext g t = {} :=
  if_pos (by simpa using h)

/-- A trigger that fires again has one firing less, and its next due time lies ahead. -/
theorem triggerNext_again {g : TimeTrigger} (t : Nat) (hp : g.period ≠ 0) (hl : g.left ≠ 1) :
    (triggerNext g t).action = g.action ∧ (triggerNext g t).left = g.left - 1 ∧ t < (triggerNext g t).due := by
  have hg : ¬(decide (g.period = 0) || decide (g.left = 1)) = true := by simp [hp, hl]
  rw [show triggerNext g t = _ from if_neg hg]
  refine ⟨rfl, rfl, ?_⟩
  dsimp only
  split
  · assumption
  · next hd =>
    have hlt := Nat.lt_mul_div_succ (t - g.due) (Nat.pos_of_ne_zero hp)
    omega

/-- A trigger with STOP_SUPPRESS is suppressed while the voted state is stop (R158). -/
theorem fireOutcome_suppressed {s : State} {g : TimeTrigger} (t : Nat) (hb : bit g.flags 1 = true)
    (hv : s.stop.voted = false) : fireOutcome s g t = 3 := by
  simp [fireOutcome, hb, hv]

theorem fireOutcome_not_suppressed {s : State} {g : TimeTrigger} (t : Nat) (h : bit g.flags 1 = false ∨ s.stop.voted = true) :
    fireOutcome s g t ≠ 3 := by
  unfold fireOutcome
  rw [if_neg (by rcases h with h | h <;> simp [h])]
  split <;> decide

/-- What a firing does before it may raise its report: its action unless it is suppressed. -/
def fireActed (s : State) (g : TimeTrigger) (pclk : Nat) : State :=
  if fireOutcome s g (timeAt s pclk) = 3 then s else triggerAction s g (counterAt s pclk)

theorem fireActed_eq (s : State) (g : TimeTrigger) (pclk : Nat) :
    fireActed s g pclk = { s with ports.io := (fireActed s g pclk).ports.io } := by
  unfold fireActed
  split
  · rfl
  · exact triggerAction_eq ..

/-- What a firing changes: its own entry, and the outputs unless it is suppressed. The report it may raise touches neither. -/
theorem fireTrigger_effect (s : State) (id : Nat) (g : TimeTrigger) (pclk : Nat) :
    let t := fireTrigger s id g pclk
    (∃ x, t.time.triggers = tput s.time.triggers id { triggerNext g (timeAt s pclk) with eventFc := x })
      ∧ t.ports = (fireActed s g pclk).ports ∧ t.p = s.p := by
  have htime : (fireActed s g pclk).time = s.time := by rw [fireActed_eq]
  have hp : (fireActed s g pclk).p = s.p := by rw [fireActed_eq]
  rw [← htime, ← hp]
  unfold fireTrigger fireActed
  dsimp only
  generalize (if fireOutcome s g (timeAt s pclk) = 3 then s else triggerAction s g (counterAt s pclk)) = u
  split <;> exact ⟨⟨_, rfl⟩, rfl, rfl⟩

theorem auxLive_congr {s t : State} (h : t.ports = s.ports) (io : Nat) : auxLive t io = auxLive s io := by
  rw [auxLive, auxLive, h]

/-- A firing that is not suppressed leaves the outputs as its action does. -/
theorem fireTrigger_ports_acted {s : State} (id : Nat) {g : TimeTrigger} (pclk : Nat)
    (h : bit g.flags 1 = false ∨ s.stop.voted = true) :
    (fireTrigger s id g pclk).ports = (triggerAction s g (counterAt s pclk)).ports := by
  obtain ⟨-, hports, -⟩ := fireTrigger_effect s id g pclk
  rw [hports, fireActed, if_neg (fireOutcome_not_suppressed _ h)]

/-- A suppressed firing leaves the outputs. -/
theorem fireTrigger_ports_suppressed {s : State} (id : Nat) {g : TimeTrigger} (pclk : Nat) (hb : bit g.flags 1 = true)
    (hv : s.stop.voted = false) : (fireTrigger s id g pclk).ports = s.ports := by
  obtain ⟨-, hports, -⟩ := fireTrigger_effect s id g pclk
  rw [hports, fireActed, if_pos (fireOutcome_suppressed _ hb hv)]

/-! ### The end of a pulse (R156) -/

theorem auxLive_pulseEnded (s : State) (io : Nat) :
    (auxLive (modIo (setOut s io false) io fun x => { x with pulseEnd := none }) io).out = false := by
  rw [auxLive_modIo_same]
  exact auxLive_setOut_same s io false

theorem auxLive_pulseEnded_other (s : State) {io k : Nat} (h : k ≠ io) :
    auxLive (modIo (setOut s io false) io fun x => { x with pulseEnd := none }) k = auxLive s k :=
  (auxLive_modIo_other _ _ h).trans (auxLive_modIo_other s _ h)

/-- Settles O53, event by event: the equation of the event at its instant, and what it leaves behind. -/
theorem timeEventsComplete : Obligations.TimeEventsComplete := by
  unfold Obligations.TimeEventsComplete
  refine ⟨fun s pclk hr hp hc ha hq =>
      ⟨_, congrArg Host.Outcome.next ((opPpsOut_crossing hr hp hc ha).trans (if_neg (by simp [hq]))), rfl, rfl, rfl,
        Nat.mul_mod_left .., Nat.div_mul_le_self .., Nat.lt_div_mul_add (by decide), rfl, rfl, rfl⟩,
    fun s pclk hr hp hc ha hq => ⟨_, congrArg Host.Outcome.next ((opPpsOut_crossing hr hp hc ha).trans (if_pos hq)), rfl, rfl,
      rfl, rfl, rfl, rfl⟩,
    fun s pclk hr hp hd hlo hhi => ⟨_, congrArg Host.Outcome.next (opZda_due hr hp hd hlo hhi), rfl, rfl, rfl, rfl⟩,
    fun s ftu rising wide hr hw hf he => ⟨_, congrArg Host.Outcome.next (opPpsIn_edge hr hw hf he), rfl, rfl, rfl, rfl, rfl,
      rfl⟩,
    fun s q hr hq hw => ⟨_, congrArg Host.Outcome.next (opStep_guard hr hq hw), ?_⟩,
    fun s pclk hr hp hc => ⟨_, congrArg Host.Outcome.next (opRtcSet_crossing hr hp hc), ?_⟩,
    fun s id pclk g hr hi hg hp hf hfirst =>
      ⟨_, (if_pos hi).trans (congrArg Host.Outcome.next (opTimeTrigger_due hr hg hp hf hfirst)), ?_⟩,
    fun s io pclk c hr hi he hp hc hb =>
      ⟨_, (if_pos hi).trans (congrArg Host.Outcome.next (opPulseEnd_over hr he hp hc hb)), auxLive_pulseEnded s io, ?_,
        fun k hk => auxLive_pulseEnded_other s hk, rfl, rfl⟩⟩
  · rw [applyStep_regs, applyStep_p]
    exact ⟨rfl, rfl, rfl, clk_of_bedrock (applyStep_bedrock s q), BitVec.sub_add_cancel .., rfl⟩
  · dsimp only
    split
    · next hh => exact ⟨rfl, rfl, rfl, rfl, rfl, fun hn => absurd hh hn⟩
    · exact ⟨rfl, rfl, rfl, rfl, rfl, fun _ => rfl⟩
  · obtain ⟨⟨x, htrig⟩, -, hpk⟩ := fireTrigger_effect s id g pclk
    rw [htrig, tgetD_tput_same, hpk]
    refine ⟨fun j hj => tget_tput_other _ _ hj, fun hl => ?_, triggerNext_again _, fun hv ha => ?_, fun hv ha => ?_,
      fun hb hv => fireTrigger_ports_suppressed id pclk hb hv, rfl⟩
    · rw [triggerNext_last _ hl]
    · rw [auxLive_congr (fireTrigger_ports_acted id pclk hv)]
      exact triggerAction_turns_on s _ ha
    · rw [auxLive_congr (fireTrigger_ports_acted id pclk hv)]
      exact triggerAction_turns_off s _ ha
  · rw [auxLive_modIo_same]

end Sys2Proof.Machine
end

section
/-! PROOFS. The time commands: TIME_STEP and TIME_TRIGGER_SET. -/

namespace Sys2Proof.Machine

open Sys2Proof

/-! ### TIME_STEP (R145, R161) -/

/-- What a TIME_STEP asks for: consent to the step pending, or a time of the host's own with its error (R161). -/
def stepAsked (s : State) (r : Request) : Prop :=
  (fld r.payload 0 1 = 1 ∧ zeros r.payload 8 16 = true ∧ s.time.state = .stepPending)
    ∨ (fld r.payload 0 1 = 2 ∧ 1 ≤ fld r.payload 20 4 ∧ fld r.payload 20 4 ≤ 10000000
      ∧ (s.time.state = .unaligned ∨ s.time.state = .holdover))

/-- The fields a consent leaves unused are zero. -/
theorem stepAsked_reserved {s : State} {r : Request} (h : stepAsked s r) :
    (fld r.payload 0 1 != 1 || zeros r.payload 8 16) = true := by
  rcases h with ⟨-, hz, -⟩ | ⟨hsrc, -⟩
  · simp [hz]
  · simp [hsrc]

theorem stepAsked_range {s : State} {r : Request} (h : stepAsked s r) :
    (fld r.payload 0 1 == 1
      || (fld r.payload 0 1 == 2 && decide (1 ≤ fld r.payload 20 4) && decide (fld r.payload 20 4 ≤ 10000000))) = true := by
  rcases h with ⟨hsrc, -⟩ | ⟨hsrc, hlo, hhi, -⟩
  · simp [hsrc]
  · simp [hsrc, hlo, hhi]

theorem stepAsked_ready {s : State} {r : Request} (h : stepAsked s r) (hn : s.time.step = none) :
    (s.time.step.isNone && (if fld r.payload 0 1 = 1 then s.time.state == .stepPending
      else s.time.state == .unaligned || s.time.state == .holdover)) = true := by
  rcases h with ⟨hsrc, -, hst⟩ | ⟨hsrc, -, -, hst⟩
  · simp [hn, hsrc, hst]
  · rcases hst with hst | hst <;> simp [hn, hsrc, hst]

/-- The step a TIME_STEP requests. -/
def stepWanted (s : State) (r : Request) : StepReq :=
  { ftu := stepFtu s r, fromPending := fld r.payload 0 1 == 1, errNs := 1000 * fld r.payload 20 4 }

/-- A TIME_STEP raises its event for the step it has requested. -/
def stepRaised (u : State) (r : Request) (q : StepReq) : State :=
  raiseBy (requestStep u q) r 0x8202 .all (stepEvent (requestStep u q) q.ftu)

/-- The FC a step takes effect in is not moved by requesting the step. -/
theorem stepEffectFc_raised {s : State} (r : Request) (q : StepReq) (ftu : Int) (h : mramFog s = false) :
    stepEffectFc (stepRaised (commit (takeLatched s r) okSite 0) r q) ftu = stepEffectFc s ftu := by
  rw [commit_eq (s := takeLatched s r) _ _ h]
  rfl

/-- A TIME_STEP whose checks all pass commits on the site, requests its step, raises the event and answers (R145, R161). -/
theorem opTimeStep_requests {r : Request} {s : State} (hl : live s r = true) (hc : csnHolds s r [siteObj] = true)
    (hlen : r.payload.length = 24) (hz : zeros r.payload 1 7 = true) (hz' : zeros r.payload 18 2 = true) (hr : supOk s r = true)
    (hm : s.mode.cur = .calm) (hn : s.time.step = none) (hask : stepAsked s r) :
    opTimeStep r s = finish (stepRaised (commit (takeLatched s r) okSite 0) r (stepWanted s r)) r stOk
      (leI 8 (stepFtu s r) ++ le 8 (stepEffectFc s (stepFtu s r))) := by
  have hfog : mramFog s = false := by simp [mramFog, hm]
  rw [opTimeStep, runOp_passes _ hl (beq_iff_eq.mpr hlen) (by rw [hz, hz', stepAsked_reserved hask]; rfl) hr
    (by simp [inModes, hm])]
  refine (need_passes _ (stepAsked_range hask)).trans ((need_passes _ (stepAsked_ready (s := s) hask hn)).trans ?_)
  refine (checkCsn_passes (s := takeLatched s r) _ hc).trans ?_
  rw [← stepEffectFc_raised r (stepWanted s r) (stepFtu s r) hfog]
  rfl

/-! ### TIME_TRIGGER_SET (R156, R162) -/

/-- The entry a TIME_TRIGGER_SET writes: armed from the FC after the one it executes in, or free (R162). -/
def triggerFrom (s : State) (p : Bytes) : TimeTrigger :=
  if fld p 1 1 = 0 then {} else
  { action := fld p 1 1, output := fld p 2 1, flags := fld p 3 1, pulseUs := fld p 4 4, due := triggerFirst p,
    left := fld p 20 4, period := fld p 24 8, armedFc := fcNow s + 1 }

/-- What a TIME_TRIGGER_SET changes besides its commit. -/
def setTrigger (p : Bytes) (u : State) : State :=
  { u with time.triggers := tput u.time.triggers (fld p 0 1) (triggerFrom u p) }

/-- A TIME_TRIGGER_SET whose checks all pass is one change of the site configuration (R162). -/
theorem opTimeTriggerSet_changes {r : Request} {s : State} (hl : live s r = true) (hlen : r.payload.length = 32)
    (hz : triggerRsv r.payload = true) (hr : supOk s r = true)
    (hm : inModes s [.calm, .zephyr, .breeze, .drift, .lull, .squall, .watch] = true) (hok : triggerOk s r.payload = true)
    (hfirst : fld r.payload 1 1 = 0 ∨ startOfSecondNext s ≤ triggerFirst r.payload) :
    opTimeTriggerSet r s = change1 (takeLatched s r) r siteObj (setTrigger r.payload) fun _ => [] := by
  have hdue : (fld r.payload 1 1 == 0 || decide (startOfSecondNext s ≤ triggerFirst r.payload)) = true := by
    simpa using hfirst
  rw [opTimeTriggerSet, runOp_passes _ hl (beq_iff_eq.mpr hlen) hz hr hm]
  exact (need_passes (s := takeLatched s r) _ hok).trans (need_passes (s := takeLatched s r) _ hdue)

/-- Such a command ends with the entry written. -/
theorem timeTriggerSet_ends {r : Request} {s : State} (hl : live s r = true) (hc : csnHolds s r [siteObj] = true)
    (hlen : r.payload.length = 32) (hz : triggerRsv r.payload = true) (hr : supOk s r = true)
    (hm : inModes s [.calm, .zephyr, .breeze, .drift, .lull, .squall, .watch] = true) (hok : triggerOk s r.payload = true)
    (hfirst : fld r.payload 1 1 = 0 ∨ startOfSecondNext s ≤ triggerFirst r.payload) :
    Ends (.timeTriggerSet r) r s { commit (takeLatched s r) okSite 0 with
      time.triggers := tput s.time.triggers (fld r.payload 0 1) (triggerFrom s r.payload) } stOk [] := by
  have hfog : mramFog s = false := mramFog_of_inModes hm rfl
  rw [commit_eq (s := takeLatched s r) _ _ hfog]
  exact ends_of_siteChange (c := .timeTriggerSet r) (f := setTrigger r.payload) (reply := fun _ => [])
    (congrArg Host.Outcome.next (opTimeTriggerSet_changes hl hlen hz hr hm hok hfirst)) hl hc (fun _ => rfl) hfog

/-- Settles O21: TIME_STEP by its equation, TIME_TRIGGER_SET by the entry it writes, armed or free. -/
theorem timeCommandsStepAndArmTriggers : Obligations.TimeCommandsStepAndArmTriggers := by
  unfold Obligations.TimeCommandsStepAndArmTriggers
  refine ⟨fun r s hl hc hlen hz hz' hr hm hn hask => ?_, fun r s hl hc hlen hz hr hm hok ha hfirst => ?_,
    fun r s hl hc hlen hz hr hm hok ha => ?_⟩
  · refine ends_of_finish (c := .timeStep r) (u := stepRaised (commit (takeLatched s r) okSite 0) r (stepWanted s r))
      (congrArg Host.Outcome.next (opTimeStep_requests hl hc hlen hz hz' hr hm hn hask)) rfl
      ((live_answerable hl).congr ?_)
    exact congrArg (·.sessions) (commit_edtor (takeLatched s r) okSite 0)
  · have h := timeTriggerSet_ends hl hc hlen hz hr hm hok (.inr hfirst)
    rwa [triggerFrom, if_neg ha] at h
  · have h := timeTriggerSet_ends hl hc hlen hz hr hm hok (.inl ha)
    rwa [triggerFrom, if_pos ha] at h

end Sys2Proof.Machine
end

section
/-! PROOFS. The events of the GNSS baseband: the epoch latch, the lock states of the channels, the antenna retry and the ends of
the calibrations. For each event a lemma says what it does once it is due; what that leaves behind follows from it. -/

namespace Sys2Proof.Machine

open Sys2Proof

/-! ### What the end of a command leaves -/

/-- The end of a command touches the sessions, the records and the replies alone. -/
theorem finish_frame (s : State) (r : Request) (status : Nat) (payload : Bytes) :
    finish s r status payload
      = { s with edtor := (finish s r status payload).edtor, com := (finish s r status payload).com } := by
  unfold finish finishI countStatus queueReply
  dsimp only
  (repeat' split) <;> rfl

theorem finish_keeps (s : State) (r : Request) (status : Nat) (payload : Bytes) :
    let t := finish s r status payload
    t.p = s.p ∧ t.com.csn = s.com.csn ∧ t.gnss = s.gnss ∧ t.buoy = s.buoy := by
  obtain ⟨hp, -, -, hcsn, -⟩ := parts_of_site (finish_site s r status payload)
  have hframe := finish_frame s r status payload
  exact ⟨hp, hcsn, (congrArg State.gnss hframe :), (congrArg State.buoy hframe :)⟩

/-! ### The channel pool and the acquisition engine (R174, R176) -/

theorem modChan_some {s : State} {c : Nat} {x : Channel} (f : Channel → Channel) (hx : tget s.gnss.chans c = some x) :
    modChan s c f = { s with gnss.chans := tput s.gnss.chans c (f x) } := by
  simp only [modChan, hx]

theorem modChan_none {s : State} {c : Nat} (f : Channel → Channel) (hx : tget s.gnss.chans c = none) : modChan s c f = s := by
  simp only [modChan, hx]

/-- The acquisition engine goes from state to state by single starts of a search. -/
theorem startSearches_induction {P : State → Prop} {s : State} (h0 : P s)
    (hstart : ∀ u c, P u → P (modChan u c fun x => { x with searching := true, searchFc := fcNow u })) :
    P (startSearches s) := by
  unfold startSearches
  refine List.foldlRecOn _ _ h0 fun u hu _ _ => ?_
  split
  · exact hu
  · split
    · exact hstart u _ hu
    · exact hu

/-- One state follows from another by searches alone: every channel stays in its place, and only that it searches, and since
when, may differ. -/
def SearchedFrom (s u : State) : Prop :=
  ∃ l, u = { s with gnss.chans := l }
    ∧ ∀ k x, tget s.gnss.chans k = some x → ∃ b n, tget l k = some { x with searching := b, searchFc := n }

theorem searchedFrom_start {s u : State} (c fc : Nat) (h : SearchedFrom s u) :
    SearchedFrom s (modChan u c fun x => { x with searching := true, searchFc := fc }) := by
  obtain ⟨l, rfl, hl⟩ := h
  cases hc : tget l c with
  | none => exact ⟨l, modChan_none _ hc, hl⟩
  | some z =>
    refine ⟨_, modChan_some _ hc, fun k x hx => ?_⟩
    obtain ⟨b, n, hk⟩ := hl k x hx
    by_cases hkc : k = c
    · subst hkc
      obtain rfl : z = _ := Option.some.inj (hc.symm.trans hk)
      exact ⟨_, _, tget_tput_same ..⟩
    · exact ⟨b, n, (tget_tput_other _ _ hkc).trans hk⟩

theorem startSearches_searchedFrom (s : State) : SearchedFrom s (startSearches s) :=
  startSearches_induction ⟨_, rfl, fun _ _ hx => ⟨_, _, hx⟩⟩ fun u c h => searchedFrom_start c (fcNow u) h

/-- Taking up an assignment changes the channels alone, and none waits any longer (R174). -/
theorem assignChannels_eq (s : State) : ∃ l, assignChannels s = { s with gnss.chans := l, gnss.assignNext := none } := by
  unfold assignChannels
  split
  · next h => exact ⟨s.gnss.chans, by rw [← h]⟩
  · exact (startSearches_searchedFrom _).imp fun _ ⟨h, _⟩ => h

theorem assignChannels_idle {s : State} (h : s.gnss.assignNext = none) : assignChannels s = s := by
  simp only [assignChannels, h]

/-! ### The epoch latch (R179, R180) -/

/-- The epoch of the FC captured, with SLIP cleared on every channel. -/
def epochTaken (s : State) (e : EpochIn) : State :=
  let l := epochRecords s e
  { s with
    gnss.captured := some (epochOf s l)
    gnss.chans := tmap s.gnss.chans fun _ x => { x with slip := false }
    gnss.ants := tput (tmod s.gnss.ants 0 {} fun x => { x with strong := strongOn l 0 }) 1
      { (tgetD s.gnss.ants 1 {}) with strong := strongOn l 1 } }

theorem opEpochLatch_captures {s : State} (e : EpochIn) (hr : running s = true) (he : isEpochFc s = true)
    (hc : s.gnss.captured.isNone = true) : opEpochLatch e s = assignChannels (epochTaken s e) := by
  have hg : ¬(!running s || !isEpochFc s || s.gnss.captured.isSome) = true := by
    simp [hr, he, Option.isNone_iff_eq_none.mp hc]
  exact if_neg hg

theorem epochTaken_slips (s : State) (e : EpochIn) : ∀ v ∈ (epochTaken s e).gnss.chans, v.2.slip = false := by
  intro v hv
  obtain ⟨w, -, rfl⟩ := List.mem_map.mp hv
  rfl

/-! ### The lock state of a channel (R176, R183, R184) -/

theorem lockCode_active {x : Channel} (s : State) (pclk : Nat) (h : x.active = true) :
    lockCode s pclk x = { x with codeLock := true, codeAt := counterAt s pclk, ambig := 1, searching := false } := by
  rw [lockCode, ← h]

section
variable {s : State} {c : Nat} {x : Channel}

/-- The channels once the search of one has ended: it has its code, and those of its satellite are active (R176). -/
def acquired (s : State) (c pclk : Nat) (x : Channel) : State :=
  { s with gnss.chans := tmap s.gnss.chans fun i y =>
      if i = c then lockCode s pclk y else if sameSat x y then { y with active := true } else y }

theorem opAcquisitionDone_searching {pclk : Nat} (hp : inFc s pclk = true) (hx : tget s.gnss.chans c = some x)
    (hs : x.searching = true) : opAcquisitionDone c pclk s = startSearches (acquired s c pclk x) := by
  simp only [opAcquisitionDone, hx, hp, hs, Bool.not_true, Bool.or_self, Bool.false_eq_true, ↓reduceIte, acquired]

theorem acquired_same (pclk : Nat) (hx : tget s.gnss.chans c = some x) :
    tget (acquired s c pclk x).gnss.chans c = some (lockCode s pclk x) := by
  rw [acquired, tget_tmap, hx, Option.map_some, if_pos rfl]

theorem acquired_sameSat {k : Nat} {z : Channel} (pclk : Nat) (hz : tget s.gnss.chans k = some z) (hk : k ≠ c)
    (hs : sameSat x z = true) : tget (acquired s c pclk x).gnss.chans k = some { z with active := true } := by
  rw [acquired, tget_tmap, hz, Option.map_some, if_neg hk, if_pos hs]

theorem opCodeLock_at {pclk : Nat} (hp : inFc s pclk = true) (hx : tget s.gnss.chans c = some x) :
    opCodeLock c pclk s
      = { s with gnss.chans := tput s.gnss.chans c (if x.active && !x.codeLock then lockCode s pclk x else x) } := by
  rw [opCodeLock, modChan_some _ hx, hp, Bool.true_and]

theorem opPhaseLock_at {pclk : Nat} (hp : inFc s pclk = true) (hx : tget s.gnss.chans c = some x) :
    opPhaseLock c pclk s = { s with gnss.chans := tput s.gnss.chans c (if x.codeLock && !x.phaseLock then
      { x with phaseLock := true, lockAt := counterAt s pclk, halfCycle := (signalOf x.bit).pilot } else x) } := by
  rw [opPhaseLock, modChan_some _ hx, hp, Bool.true_and]

/-- A channel with its carrier or its code lost: the slip is marked and counted (R184). -/
def lockLost (s : State) (code phase : Bool) (pclk : Nat) (x : Channel) : Channel :=
  if !x.codeLock then x else
  { x with
    slip := true
    slips := (x.slips + 1) % 65536
    lockAt := counterAt s pclk
    phaseLock := x.phaseLock && !phase && !code
    halfCycle := x.halfCycle && !phase && !code
    codeLock := !code
    ambig := if code then 3 else x.ambig
    active := x.active && !(code && (signalOf x.bit).primary) }

theorem opLossOfLock_at {pclk : Nat} (code phase : Bool) (hp : inFc s pclk = true) (hx : tget s.gnss.chans c = some x) :
    opLossOfLock c code phase pclk s
      = startSearches { s with gnss.chans := tput s.gnss.chans c (lockLost s code phase pclk x) } := by
  rw [opLossOfLock, hp, modChan_some _ hx]
  rfl

end

/-! ### The antenna retry (R172) -/

/-- A shorted antenna with its bias on again. -/
def biasedAgain (s : State) (a : Nat) : State :=
  { s with
    gnss.ants := tput s.gnss.ants a { (tgetD s.gnss.ants a {}) with biasOffFc := 0, biasOnFc := 10, count := 0 }
    gnss.shortRetries := sat 16 (s.gnss.shortRetries + 1) }

theorem opAntShortRetry_due {s : State} {a : Nat} (hs : (tgetD s.gnss.ants a {}).state = 4)
    (hb : (tgetD s.gnss.ants a {}).biasOffFc = 1) : opAntShortRetry a s = biasedAgain s a := by
  have hg : ¬((tgetD s.gnss.ants a {}).state != 4 || (tgetD s.gnss.ants a {}).biasOffFc != 1) = true := by
    simp [hs, hb]
  exact if_neg hg

/-! ### The end of a GNSS calibration (R190) -/

/-- The calibration that runs taken off, before its command is answered. -/
def gnssCalOver (s : State) : State := { s with gnss.cal := none, com.cmdCommits := 0 }

section
variable {s : State} {c : GnssCal} (hc : s.gnss.cal = some c) (he : c.endFc ≤ fcNow s)
include hc he

theorem opGnssCalibrationDone_cable_failed (align : List Int) (hk : c.kind = 1) :
    opGnssCalibrationDone none align s = finish (gnssCalOver s) c.req stCalFailed (calReply (gnssCalOver s)) := by
  simp only [opGnssCalibrationDone, hc, Nat.not_lt.mpr he, hk, ↓reduceIte, gnssCalOver]

theorem opGnssCalibrationDone_cable_measured (d : Nat) (align : List Int) (hk : c.kind = 1)
    (hcsn : csnHolds s c.req [siteObj] = true) :
    opGnssCalibrationDone (some d) align s =
      let t := setCable (commit (gnssCalOver s) okSite 0) c.antenna d
      finish t c.req stOk (calReply t) := by
  simp only [opGnssCalibrationDone, hc, Nat.not_lt.mpr he, hk, ↓reduceIte]
  exact checkCsn_passes (s := gnssCalOver s) _ hcsn

/-- An alignment of antenna B ends as failed where satellites were lacking or the three components are not there. -/
theorem opGnssCalibrationDone_align (delay : Option Nat) (align : List Int) (hk : c.kind = 3)
    (hcsn : csnHolds s c.req [siteObj] = true) :
    opGnssCalibrationDone delay align s =
      if c.lacked || align.length != 3 then finish (gnssCalOver s) c.req stCalFailed (calReply (gnssCalOver s)) else
        let t : State := { commit (gnssCalOver s) okSite 0 with p.gnssCfg.align := align }
        finish t c.req stOk (calReply t) := by
  have hk1 : ¬3 = 1 := by decide
  simp only [opGnssCalibrationDone, hc, Nat.not_lt.mpr he, hk, hk1, ↓reduceIte]
  exact congrArg (ite _ _) (checkCsn_passes (s := gnssCalOver s) _ hcsn)

end

/-- A change of the GNSS settings. -/
def withGnssCfg (f : GnssConfig → GnssConfig) (s : State) : State := { s with p.gnssCfg := f s.p.gnssCfg }

/-- The cable delay of one antenna written. -/
def cableSet (a d : Nat) (g : GnssConfig) : GnssConfig := if a = 0 then { g with cableA := d } else { g with cableB := d }

theorem setCable_eq (s : State) (a d : Nat) : setCable s a d = withGnssCfg (cableSet a d) s := by
  unfold setCable withGnssCfg cableSet
  split <;> rfl

/-! ### The end of a BUOY calibration (R230) -/

/-- The calibration that runs taken off, before its command is answered. -/
def buoyCalOver (s : State) : State := { s with buoy.cal := none, com.cmdCommits := 0 }

/-- The settings of every anchor with what the calibration measured, each to be sent to its anchor. -/
def storeCalibrated (c : BuoyCal) (asym delay : List Int) (s : State) : State :=
  links.foldl (fun s l => setContext s l (calibrated c asym delay l (anchorSet s l))) s

/-- The state in which a calibration that has measured is answered. -/
def buoyCalStored (s : State) (c : BuoyCal) (fits : List CalFit) : State :=
  storeCalibrated c (fitAsym (buoyCalOver s) c) (fitDelay (buoyCalOver s) c fits)
    (commitAll (buoyCalOver s) (maskObjs 0x3FF))

section
variable {s : State} {c : BuoyCal} (hc : s.buoy.cal = some c) (he : c.endFc ≤ fcNow s)
include hc he

/-- A calibration in which no two anchors heard each other fails. -/
theorem opBuoyCalibrationDone_failed (fits : List CalFit) (hg : (links.filterMap (groupHead c)).isEmpty = true) :
    opBuoyCalibrationDone fits s
      = finish (buoyCalOver s) c.req stCalFailed (buoyCalReply (buoyCalOver s) { c with heard := [] } [] []) := by
  simp only [opBuoyCalibrationDone, hc, Nat.not_lt.mpr he, hg, ↓reduceIte, buoyCalOver]

theorem opBuoyCalibrationDone_measured (fits : List CalFit) (hg : (links.filterMap (groupHead c)).isEmpty = false)
    (hcsn : csnHolds s c.req (maskObjs 0x3FF) = true) :
    opBuoyCalibrationDone fits s = finish (buoyCalStored s c fits) c.req stOk
      (buoyCalReply (buoyCalStored s c fits) c (fitAsym (buoyCalOver s) c) (fitDelay (buoyCalOver s) c fits)) := by
  simp only [opBuoyCalibrationDone, hc, Nat.not_lt.mpr he, hg, Bool.false_eq_true, ↓reduceIte]
  exact checkCsn_passes (s := buoyCalOver s) _ hcsn

end

/-- The commits, the OBJ_CSNs, the calibration that runs and the identity of one anchor: what storing a calibration keeps. -/
def calKept (k : Nat) (s : State) : Commits × Tbl Nat × Option BuoyCal × BitVec 64 :=
  (s.com, s.p.control.objCsn, s.buoy.cal, (anchorSet s k).eui)

theorem setContext_calKept (s : State) (l k : Nat) {x : AnchorRec} (h : x.eui = (anchorSet s l).eui) :
    calKept k (setContext s l x) = calKept k s := by
  have heui : (anchorSet (setContext s l x) k).eui = (anchorSet s k).eui := by
    unfold anchorSet setContext
    by_cases hk : k = l
    · subst hk
      exact (congrArg AnchorRec.eui (tgetD_tput_same ..)).trans h
    · exact congrArg AnchorRec.eui (tgetD_tput_other _ _ _ hk)
  rw [calKept, calKept, heui]
  rfl

theorem storeCalibrated_keeps (c : BuoyCal) (asym delay : List Int) (s : State) (k : Nat) :
    let t := storeCalibrated c asym delay s
    t.com = s.com ∧ t.p.control.objCsn = s.p.control.objCsn ∧ t.buoy.cal = s.buoy.cal
      ∧ (anchorSet t k).eui = (anchorSet s k).eui := by
  have h : calKept k (storeCalibrated c asym delay s) = calKept k s :=
    foldl_keeps (calKept k) _ _ _ fun u l => setContext_calKept u l k rfl
  simpa only [calKept, Prod.mk.injEq] using h

theorem commitAll_links {s : State} (h : mramFog s = false) : commitAll s (maskObjs 0x3FF) = committed s (maskObjs 0x3FF) := by
  rw [show maskObjs 0x3FF = (okAnchor, 0) :: maskObjs 0x3FE by decide]
  exact commitAll_eq _ _ h

theorem mem_maskObjs_links : ∀ l < 10, (okAnchor, l) ∈ maskObjs 0x3FF := by
  decide

/-- A command that ends after one commit has taken the next CSN, and so have the objects of the commit. -/
theorem finish_committed {s w : State} {objs : List (Nat × Nat)} (r : Request) (status : Nat) (payload : Bytes)
    (hcom : w.com = (committed s objs).com) (hobj : w.p.control.objCsn = (committed s objs).p.control.objCsn) :
    (finish w r status payload).com.csn = s.com.nextCsn
      ∧ ∀ o ∈ objs, objCsn (finish w r status payload) o.1 o.2 = s.com.nextCsn := by
  obtain ⟨hp, hcsn, -⟩ := finish_keeps w r status payload
  refine ⟨by rw [hcsn, hcom]; rfl, fun o ho => ?_⟩
  rw [objCsn, hp, hobj]
  exact objCsn_committed s ho

/-- A calibration that has measured ends with one commit of the site, its result stored in the settings (R190). -/
theorem gnssCalibration_stores {i : Instr} {s : State} {f : GnssConfig → GnssConfig} {r : Request} {payload : Bytes}
    (h : exec i s = .next (finish (withGnssCfg f (commit (gnssCalOver s) okSite 0)) r stOk payload)) (hfog : mramFog s = false) :
    ∃ t, exec i s = .next t ∧ t.gnss.cal = none ∧ t.com.csn = s.com.nextCsn ∧ objCsn t okSite 0 = s.com.nextCsn
      ∧ t.p.gnssCfg = f s.p.gnssCfg := by
  refine ⟨_, h, ?_⟩
  rw [commit_eq (s := gnssCalOver s) okSite 0 hfog]
  obtain ⟨hcsn, hobj⟩ := finish_committed (s := gnssCalOver s) (objs := [siteObj])
    (w := withGnssCfg f (committed (gnssCalOver s) [siteObj])) r stOk payload rfl rfl
  obtain ⟨hp, -, hgnss, -⟩ := finish_keeps (withGnssCfg f (committed (gnssCalOver s) [siteObj])) r stOk payload
  exact ⟨congrArg Gnss.cal hgnss, hcsn, hobj siteObj (List.mem_singleton_self _), congrArg Mram.gnssCfg hp⟩

/-- A BUOY calibration that has measured ends with one commit of all the anchors (R230). -/
theorem opBuoyCalibrationDone_stores {s : State} {c : BuoyCal} (hc : s.buoy.cal = some c) (he : c.endFc ≤ fcNow s)
    (fits : List CalFit) (hg : (links.filterMap (groupHead c)).isEmpty = false)
    (hcsn : csnHolds s c.req (maskObjs 0x3FF) = true) (hfog : mramFog s = false) :
    ∃ t, exec (.buoyCalibrationDone fits) s = .next t ∧ t.buoy.cal = none ∧ t.com.csn = s.com.nextCsn
      ∧ (∀ l, l < 10 → objCsn t okAnchor l = s.com.nextCsn)
      ∧ ∀ l, l < 10 → (anchorSet t l).eui = (anchorSet s l).eui := by
  refine ⟨_, congrArg Host.Outcome.next (opBuoyCalibrationDone_measured hc he fits hg hcsn), ?_⟩
  have hkeeps := storeCalibrated_keeps c (fitAsym (buoyCalOver s) c) (fitDelay (buoyCalOver s) c fits)
    (committed (buoyCalOver s) (maskObjs 0x3FF))
  have hstored := congrArg (storeCalibrated c (fitAsym (buoyCalOver s) c) (fitDelay (buoyCalOver s) c fits))
    (commitAll_links (s := buoyCalOver s) hfog)
  rw [← buoyCalStored] at hstored
  rw [← hstored] at hkeeps
  obtain ⟨hcom, hobjs, hcal, -⟩ := hkeeps 0
  obtain ⟨hcsn', hobj⟩ := finish_committed c.req stOk _ hcom hobjs
  obtain ⟨hp, -, -, hbuoy⟩ := finish_keeps (buoyCalStored s c fits) c.req stOk _
  refine ⟨(congrArg Buoy.cal hbuoy).trans hcal, hcsn', fun l hl => hobj (okAnchor, l) (mem_maskObjs_links l hl),
    fun l _ => ?_⟩
  obtain ⟨-, -, -, heui⟩ := hkeeps l
  rw [anchorSet, hp]
  exact heui

/-- Settles O39 by the equation of each event once it is due. -/
theorem gnssEventsAct : Obligations.GnssEventsAct := by
  unfold Obligations.GnssEventsAct
  refine ⟨fun s e hr he hc => congrArg Host.Outcome.next (opEpochLatch_captures e hr he hc),
    fun s c pclk x h320 hp hx hs =>
      (if_pos h320).trans (congrArg Host.Outcome.next (opAcquisitionDone_searching hp hx hs)),
    fun s c x pclk h320 hp hx => (if_pos h320).trans (congrArg Host.Outcome.next (opCodeLock_at hp hx)),
    fun s c x pclk h320 hp hx => (if_pos h320).trans (congrArg Host.Outcome.next (opPhaseLock_at hp hx)),
    fun s c x m h320 hx => (if_pos h320).trans (congrArg Host.Outcome.next (modChan_some _ hx)),
    fun s c x code phase pclk h320 hp hx =>
      (if_pos h320).trans (congrArg Host.Outcome.next (opLossOfLock_at code phase hp hx)),
    fun s a ha hs hb => (if_pos ha).trans (congrArg Host.Outcome.next (opAntShortRetry_due hs hb)),
    fun s delay align c hc he hk hcsn => congrArg Host.Outcome.next ?_,
    fun s delay align c hc he hk hcsn =>
      congrArg Host.Outcome.next (opGnssCalibrationDone_align hc he delay align hk hcsn),
    fun s fits c hc he hg => congrArg Host.Outcome.next (opBuoyCalibrationDone_failed hc he fits hg),
    fun s fits c hc he hg hcsn => congrArg Host.Outcome.next (opBuoyCalibrationDone_measured hc he fits hg hcsn)⟩
  cases delay with
  | none => exact opGnssCalibrationDone_cable_failed hc he align hk
  | some d => exact opGnssCalibrationDone_cable_measured hc he d align hk hcsn

/-! ### What the events leave behind -/

theorem exec_epochLatch_leaves {s : State} (e : EpochIn) (hr : running s = true) (he : isEpochFc s = true)
    (hc : s.gnss.captured = none) :
    ∃ t, exec (.epochLatch e) s = .next t ∧ (∃ x, t.gnss.captured = some x ∧ x.fc = fcNow s ∧ x.counter = latchEdge s
        ∧ x.records = epochRecords s e ∧ x.frozen = freeze s)
      ∧ t.gnss.assignNext = none ∧ (s.gnss.assignNext = none → ∀ v ∈ t.gnss.chans, v.2.slip = false) ∧ t.p = s.p := by
  refine ⟨_, congrArg Host.Outcome.next (opEpochLatch_captures e hr he (by rw [hc]; rfl)), ?_⟩
  have hidle : s.gnss.assignNext = none → ∀ v ∈ (assignChannels (epochTaken s e)).gnss.chans, v.2.slip = false := by
    intro h
    rw [assignChannels_idle (s := epochTaken s e) h]
    exact epochTaken_slips s e
  refine And.imp_right (And.imp_right (And.intro hidle)) ?_
  obtain ⟨l, hl⟩ := assignChannels_eq (epochTaken s e)
  rw [hl]
  exact ⟨⟨epochOf s (epochRecords s e), rfl, rfl, rfl, rfl, rfl⟩, rfl, rfl⟩

/-- An event that writes one channel leaves every other channel and the memories alone. -/
theorem exec_writes_one_channel {c : Instr} {s : State} {k : Nat} {y z : Channel}
    (h : exec c s = .next { s with gnss.chans := tput s.gnss.chans k y }) (hy : y = z) :
    ∃ t, exec c s = .next t ∧ tget t.gnss.chans k = some z ∧ (∀ j, j ≠ k → tget t.gnss.chans j = tget s.gnss.chans j)
      ∧ t.p = s.p :=
  ⟨_, h, (tget_tput_same ..).trans (congrArg some hy), fun _ hj => tget_tput_other _ _ hj, rfl⟩

/-- Settles O54, event by event: its equation once it is due, and what that leaves behind. -/
theorem gnssEventsComplete : Obligations.GnssEventsComplete := by
  unfold Obligations.GnssEventsComplete
  refine ⟨fun s e hr he hc => exec_epochLatch_leaves e hr he hc, fun s c pclk x h320 hp hx hs => ?_,
    fun s c pclk x h320 hp hx ha hl => ?_, fun s c pclk x h320 hp hx hcl hpl => ?_, fun s c x h320 hx hcl ha => ?_,
    fun s c x h320 hx hcl ha => ?_, fun s c pclk code phase x h320 hp hx hcl => ?_, fun s a ha hs hb => ?_,
    fun s align c hc he hk => ?_, fun s d align c hc he hk hcsn hfog => ?_,
    fun s delay align c hc he hk hlack hlen hcsn hfog => ?_, fun s fits c hc he hg => ?_,
    fun s fits c hc he hg hcsn hfog => ?_⟩
  · obtain ⟨l, hl, hkept⟩ := startSearches_searchedFrom (acquired s c pclk x)
    refine ⟨_, (if_pos h320).trans (congrArg Host.Outcome.next (opAcquisitionDone_searching hp hx hs)), ?_⟩
    rw [hl]
    refine ⟨?_, fun k z hz hk hsat => ?_, rfl⟩
    · obtain ⟨b, n, hy⟩ := hkept c _ (acquired_same pclk hx)
      exact ⟨_, hy, rfl, rfl, rfl, rfl, rfl⟩
    · obtain ⟨b, n, hy⟩ := hkept k _ (acquired_sameSat pclk hz hk hsat)
      exact ⟨_, hy, rfl, rfl⟩
  · refine exec_writes_one_channel ((if_pos h320).trans (congrArg Host.Outcome.next (opCodeLock_at hp hx))) ?_
    exact (if_pos (by simp [ha, hl])).trans (lockCode_active s pclk ha)
  · exact exec_writes_one_channel ((if_pos h320).trans (congrArg Host.Outcome.next (opPhaseLock_at hp hx)))
      (if_pos (by simp [hcl, hpl]))
  · exact exec_writes_one_channel ((if_pos h320).trans (congrArg Host.Outcome.next (modChan_some _ hx))) (by simp [hcl, ha])
  · exact exec_writes_one_channel ((if_pos h320).trans (congrArg Host.Outcome.next (modChan_some _ hx))) (by simp [hcl, ha])
  · obtain ⟨l, hl, hkept⟩ := startSearches_searchedFrom { s with
      gnss.chans := tput s.gnss.chans c (lockLost s code phase pclk x) }
    obtain ⟨b, n, hy⟩ := hkept c _ (tget_tput_same ..)
    refine ⟨_, (if_pos h320).trans (congrArg Host.Outcome.next (opLossOfLock_at code phase hp hx)), ?_⟩
    rw [hl]
    refine ⟨⟨_, hy, ?_⟩, rfl⟩
    simp only [lockLost, hcl, Bool.not_true, Bool.false_eq_true, ↓reduceIte]
    refine ⟨trivial, trivial, trivial, trivial, ?_, ?_, ?_⟩ <;> rintro rfl <;> simp
  · refine ⟨_, (if_pos ha).trans (congrArg Host.Outcome.next (opAntShortRetry_due hs hb)), ?_⟩
    have hother : 1 - a ≠ a := by omega
    simp only [biasedAgain, tgetD_tput_same, tgetD_tput_other _ _ _ hother]
    exact ⟨trivial, trivial, hs, trivial, trivial, trivial⟩
  · obtain ⟨hp, hcsn, hgnss, -⟩ := finish_keeps (gnssCalOver s) c.req stCalFailed (calReply (gnssCalOver s))
    exact ⟨_, congrArg Host.Outcome.next (opGnssCalibrationDone_cable_failed hc he align hk),
      congrArg Gnss.cal hgnss, hp, hcsn⟩
  · have hdone := opGnssCalibrationDone_cable_measured hc he d align hk hcsn
    simp only [setCable_eq] at hdone
    obtain ⟨t, ht, hcal, hcsn', hobj, hcfg⟩ := gnssCalibration_stores (i := .gnssCalibrationDone (some d) align)
      (congrArg Host.Outcome.next hdone) hfog
    refine ⟨t, ht, hcal, hcsn', hobj, fun h => ?_, fun h => ?_⟩ <;> rw [hcfg]
    · rw [cableSet, if_pos h]
      exact ⟨rfl, rfl⟩
    · rw [cableSet, if_neg h]
      exact ⟨rfl, rfl⟩
  · have hg : ¬(c.lacked || align.length != 3) = true := by simp [hlack, hlen]
    obtain ⟨t, ht, hcal, hcsn', -, hcfg⟩ := gnssCalibration_stores (i := .gnssCalibrationDone delay align)
      (f := fun g => { g with align := align })
      (congrArg Host.Outcome.next ((opGnssCalibrationDone_align hc he delay align hk hcsn).trans (if_neg hg))) hfog
    refine ⟨t, ht, hcal, hcsn', ?_⟩
    rw [hcfg]
    exact ⟨rfl, rfl, rfl⟩
  · obtain ⟨hp, hcsn, -, hbuoy⟩ := finish_keeps (buoyCalOver s) c.req stCalFailed
      (buoyCalReply (buoyCalOver s) { c with heard := [] } [] [])
    exact ⟨_, congrArg Host.Outcome.next (opBuoyCalibrationDone_failed hc he fits hg), congrArg Buoy.cal hbuoy, hp, hcsn⟩
  · exact opBuoyCalibrationDone_stores hc he fits hg hcsn hfog

end Sys2Proof.Machine
end

section
/-! PROOFS. The GNSS commands: GNSS_CONFIG, GNSS_NOTCH_SET, GNSS_MEAS_READ and GNSS_CALIBRATE. -/

namespace Sys2Proof.Machine

open Sys2Proof

/-- The ranges of a GNSS_NOTCH_SET: one of the 4 notches of one of the 6 streams, its mode, its width and its offset (R193). -/
def notchInRange (p : Bytes) : Prop :=
  fld p 0 1 < 6 ∧ fld p 1 1 < 4 ∧ (1 ≤ fld p 2 1 ∧ fld p 2 1 ≤ 3) ∧ (1 ≤ fld p 3 1 ∧ fld p 3 1 ≤ 4)
    ∧ (fldI p 4 4).natAbs ≤ 30000000

/-- The settings of the notches as a GNSS_NOTCH_SET payload changes them. -/
def notchSet (p : Bytes) (g : GnssConfig) : GnssConfig :=
  { g with notchMode := tput g.notchMode (4 * fld p 0 1 + fld p 1 1) (fld p 2 1, fld p 3 1, fldI p 4 4) }

/-- The calibration a GNSS_CALIBRATE with KIND CABLE_MEASURE or ANT_B_ALIGN starts (R190). -/
def calibrationFrom (s : State) (r : Request) : GnssCal :=
  { kind := fld r.payload 0 1
    antenna := fld r.payload 1 1
    endFc := fcNow s + (if fld r.payload 0 1 = 1 then 200 else 60000)
    req := r }

section
variable {r : Request} {s : State} (hl : live s r = true)
include hl

/-- GNSS_CONFIG with its checks passed (R189). -/
theorem opGnssConfig_changes (hlen : r.payload.length = 32)
    (hz : (zeros r.payload 19 13 && decide (fld r.payload 4 4 < 2 ^ 18) && decide (fld r.payload 8 4 < 2 ^ 18)
      && (fld r.payload 17 1 != 0 || fld r.payload 18 1 == 0)) = true)
    (hn : allZero r.payload = false) (hr : supOk s r = true) (hm : inModes s mCfg = true) (hok : gnssCfgOk r.payload = true) :
    opGnssConfig r s = change1 (takeLatched s r) r siteObj (withGnssCfg (gnssCfgFrom · r.payload))
      (gnssCfgBytes · (fld r.payload 17 1)) := by
  unfold opGnssConfig
  exact (runOp_changes hl (beq_iff_eq.mpr hlen) hz hr hm hn).trans (need_passes _ hok)

/-- GNSS_NOTCH_SET with its checks passed (R193). -/
theorem opGnssNotchSet_changes (hlen : r.payload.length = 16)
    (hz : (zeros r.payload 8 8 && (fld r.payload 2 1 == 2 || zeros r.payload 4 4)) = true) (hr : supOk s r = true)
    (hm : inModes s [.tender, .calm, .zephyr, .breeze, .drift, .watch] = true) (hok : notchInRange r.payload) :
    opGnssNotchSet r s = change1 (takeLatched s r) r siteObj (withGnssCfg (notchSet r.payload)) fun _ => [] := by
  obtain ⟨hstream, hnotch, ⟨hmode, hmode'⟩, ⟨hwidth, hwidth'⟩, hoff⟩ := hok
  rw [opGnssNotchSet, runOp_passes _ hl (beq_iff_eq.mpr hlen) hz hr hm]
  exact need_passes _ (by simp [hstream, hnotch, hmode, hmode', hwidth, hwidth', hoff])

/-- GNSS_MEAS_READ of a retained epoch (R191). -/
theorem opGnssMeasRead_streams {e : Epoch} (hlen : r.payload.length = 8) (hm : edt s 0x0303 = true)
    (he : (if fld r.payload 0 8 = 0 then s.gnss.epochs.head? else s.gnss.epochs.find? (·.fc == fld r.payload 0 8)) = some e) :
    opGnssMeasRead r s = finishFrags (takeLatched s r) r (measParts e) 12 := by
  have he' : (if fld r.payload 0 8 = 0 then (takeLatched s r).gnss.epochs.head?
      else (takeLatched s r).gnss.epochs.find? (·.fc == fld r.payload 0 8)) = some e := he
  rw [opGnssMeasRead, runOp_passes _ hl (beq_iff_eq.mpr hlen) rfl rfl hm]
  simp only [he']

section
variable (hlen : r.payload.length = 16) (hz : zeros r.payload 2 2 = true) (hz' : zeros r.payload 8 8 = true)
  (hr : svcOk s r = true) (hm : s.mode.cur = .watch) (ha : fld r.payload 1 1 < 2) (hc : s.gnss.cal.isNone = true)
include hlen hz hz' hr hm ha hc

/-- GNSS_CALIBRATE with KIND CABLE_SET writes the cable delay at once (R190). -/
theorem opGnssCalibrate_cable (hk : fld r.payload 0 1 = 2) (hd : 1 ≤ fld r.payload 4 4 ∧ fld r.payload 4 4 ≤ 2000000) :
    opGnssCalibrate r s = change1 (takeLatched s r) r siteObj
      (withGnssCfg (cableSet (fld r.payload 1 1) (fld r.payload 4 4))) calReply := by
  obtain ⟨hlo, hhi⟩ := hd
  rw [opGnssCalibrate, runOp_passes _ hl (beq_iff_eq.mpr hlen) (by simp [hz, hz', hk]) hr (by simp [inModes, hm])]
  refine (need_passes _ (by simp [hk, ha, hlo, hhi])).trans ((need_passes (s := takeLatched s r) _ hc).trans ?_)
  simp only [hk, ↓reduceIte, setCable_eq]

/-- GNSS_CALIBRATE with KIND CABLE_MEASURE or ANT_B_ALIGN goes on to its end FC (R190). -/
theorem opGnssCalibrate_goesOn (hz'' : zeros r.payload 4 4 = true) (hz3 : (fld r.payload 0 1 != 3 || zeros r.payload 1 1) = true)
    (hk : fld r.payload 0 1 = 1 ∨ fld r.payload 0 1 = 3) :
    opGnssCalibrate r s = accept { takeLatched s r with gnss.cal := some (calibrationFrom s r) } r 1 [] := by
  have hk2 : fld r.payload 0 1 ≠ 2 := by omega
  have hrange : 1 ≤ fld r.payload 0 1 ∧ fld r.payload 0 1 ≤ 3 := by omega
  obtain ⟨hlo, hhi⟩ := hrange
  rw [opGnssCalibrate, runOp_passes _ hl (beq_iff_eq.mpr hlen) (by rw [hz, hz', hz'', hz3]; simp) hr (by simp [inModes, hm])]
  refine (need_passes _ (by simp [hlo, hhi, ha, hk2])).trans ((need_passes (s := takeLatched s r) _ hc).trans ?_)
  exact if_neg hk2

end

end

/-- Settles O22: three of the rows come to one change of the GNSS settings, the others to their stream and to the calibration
accepted. -/
theorem gnssCommandsTakeEffect : Obligations.GnssCommandsTakeEffect := by
  unfold Obligations.GnssCommandsTakeEffect
  refine ⟨fun r s hl hc hlen hz hn hr hm hok => ?_, fun r s hl hc hlen hz hr hm hstream hnotch hmode hwidth hoff => ?_,
    fun r s e hl hlen hm he => streams_of_finishFrags (congrArg Host.Outcome.next (opGnssMeasRead_streams hl hlen hm he)),
    fun r s hl hc hlen hz hk hr hm ha hd hcal => ?_, fun r s hl hlen hz hk ha hr hm hcal => ?_⟩
  · have hfog : mramFog s = false := mramFog_of_inModes hm rfl
    rw [commit_eq (s := takeLatched s r) _ _ hfog]
    exact ends_of_siteChange (c := .gnssConfig r)
      (congrArg Host.Outcome.next (opGnssConfig_changes hl hlen hz hn hr hm hok)) hl hc (fun _ => rfl) hfog
  · have hfog : mramFog s = false := mramFog_of_inModes hm rfl
    rw [commit_eq (s := takeLatched s r) _ _ hfog]
    exact ends_of_siteChange (c := .gnssNotchSet r) (congrArg Host.Outcome.next
      (opGnssNotchSet_changes hl hlen hz hr hm ⟨hstream, hnotch, hmode, hwidth, hoff⟩)) hl hc (fun _ => rfl) hfog
  · have hfog : mramFog s = false := by simp [mramFog, hm]
    obtain ⟨hz2, hz8⟩ := Bool.and_eq_true_iff.mp hz
    simp only [setCable_eq]
    rw [commit_eq (s := takeLatched s r) _ _ hfog]
    exact ends_of_siteChange (c := .gnssCalibrate r) (congrArg Host.Outcome.next
      (opGnssCalibrate_cable hl hlen hz2 hz8 hr hm ha hcal hk hd)) hl hc (fun _ => rfl) hfog
  · simp only [Bool.and_eq_true] at hz
    obtain ⟨⟨⟨hz2, hz8⟩, hz4⟩, hz3⟩ := hz
    exact goesOn_of_accept (c := .gnssCalibrate r) (congrArg Host.Outcome.next
      (opGnssCalibrate_goesOn hl hlen hz2 hz8 hr hm ha hcal hz4 hz3 hk)) (live_answerable hl)

end Sys2Proof.Machine
end

section
/-! PROOFS. The REF commands: REF_BASE_SET, REF_CONFIG, REF_SURVEY_START and REF_RTCM_SUBSCRIBE. For each row a lemma says
what it comes to once its checks have passed. -/

namespace Sys2Proof.Machine

open Sys2Proof

/-- The tie a REF_BASE_SET payload carries (R214). -/
def tieFrom (p : Bytes) : Vec := (fldI p 0 8, fldI p 8 8, fldI p 16 8)

/-- The ranges of a REF_SURVEY_START: its least time, its accuracy and its longest time (R216). -/
def surveyInRange (p : Bytes) : Prop :=
  (60 ≤ fld p 0 4 ∧ fld p 0 4 ≤ 86400) ∧ (10 ≤ fld p 4 4 ∧ fld p 4 4 ≤ 10000)
    ∧ fld p 0 4 ≤ fld p 8 4 ∧ fld p 8 4 ≤ 604800

/-- The survey a REF_SURVEY_START starts; it keeps the base position of before (R216). -/
def surveyFrom (s : State) (r : Request) : Survey :=
  { minS := fld r.payload 0 4
    accMm := fld r.payload 4 4
    maxS := fld r.payload 8 4
    startFc := fcNow s
    baseBefore := s.p.refFrame.base
    req := r }

/-- The RTCM subscription of one session taken up in the FC of its command, or dropped (R217). -/
def subscribeRtcm (r : Request) (u : State) : State :=
  modSession u r.slot fun e => { e with rtcmSub := if fld r.payload 0 1 = 1 then some (fcNow u) else none }

section
variable {r : Request} {s : State} (hl : live s r = true)
include hl

/-- REF_CONFIG with its checks passed (R215). -/
theorem opRefConfig_changes (hlen : r.payload.length = 96)
    (hz : (zeros r.payload 19 13 && decide (fld r.payload 4 4 < 2 ^ 18)) = true) (hn : allZero r.payload = false)
    (hr : supOk s r = true) (hm : inModes s mCfg = true) (hok : refCfgOk r.payload = true) :
    opRefConfig r s = change1 (takeLatched s r) r siteObj
      (fun u => { u with p.refCfg := refCfgFrom u.p.refCfg r.payload }) (fun u => refCfgBytes u.p.refCfg) := by
  unfold opRefConfig
  exact (runOp_changes hl (beq_iff_eq.mpr hlen) hz hr hm hn).trans (need_passes _ hok)

/-- REF_BASE_SET with its checks passed: a REORIENT only in TENDER, and outside it a tie near the one in force (R196, R214). -/
theorem opRefBaseSet_changes {bl : Option Vec} (hlen : r.payload.length = 48) (hz : zeros r.payload 37 11 = true)
    (hflags : fld r.payload 36 1 < 2) (hr : supOk s r = true) (hm : inModes s [.tender, .calm, .zephyr] = true)
    (hturn : (!bit (fld r.payload 36 1) 0 || inModes s [.tender]) = true) (hbl : baselineFrom r.payload = some bl)
    (hshell : tieInShell (tieFrom r.payload) = true) (hnear : (inModes s [.tender] || tieNear s (tieFrom r.payload)) = true)
    (hs : s.ref.survey.isNone = true) :
    opRefBaseSet r s = change1 (takeLatched s r) r siteObj
      (fun u => setBase u (tieFrom r.payload) bl (bit (fld r.payload 36 1) 0) 3) fun _ => [] := by
  have hgranted : ¬(bit (fld r.payload 36 1) 0 && !inModes s [.tender]) = true := by
    simpa [imp_iff_not_or] using hturn
  rw [opRefBaseSet, runOp_passes _ hl (beq_iff_eq.mpr hlen) (by simp [hz, hflags]) hr hm]
  refine (if_neg hgranted).trans ?_
  simp only [hbl]
  exact (need_passes (s := takeLatched s r) _ (Bool.and_eq_true_iff.mpr ⟨hshell, hnear⟩)).trans (need_passes _ hs)

/-- REF_SURVEY_START with its checks passed goes on as the survey (R216). -/
theorem opRefSurveyStart_goesOn (hlen : r.payload.length = 16) (hz : zeros r.payload 12 4 = true) (hr : supOk s r = true)
    (hm : s.mode.cur = .zephyr) (hok : surveyInRange r.payload) (hs : s.ref.survey.isNone = true) :
    opRefSurveyStart r s
      = accept { takeLatched s r with ref.surveying := true, ref.survey := some (surveyFrom s r) } r 1 [] := by
  obtain ⟨⟨hmin, hmin'⟩, ⟨hacc, hacc'⟩, hmax, hmax'⟩ := hok
  rw [opRefSurveyStart, runOp_passes _ hl (beq_iff_eq.mpr hlen) hz hr (by simp [inModes, hm])]
  exact (need_passes _ (by simp [hmin, hmin', hacc, hacc', hmax, hmax'])).trans (need_passes (s := takeLatched s r) _ hs)

/-- REF_RTCM_SUBSCRIBE with its checks passed is one change of its own session (R217). -/
theorem opRefRtcmSubscribe_changes (hlen : r.payload.length = 4) (hz : zeros r.payload 1 3 = true) (hm : edt s 0x0420 = true)
    (hact : fld r.payload 0 1 = 1 ∨ fld r.payload 0 1 = 2) :
    opRefRtcmSubscribe r s = change1 (takeLatched s r) r (okSession, r.slot) (subscribeRtcm r) fun _ => [] := by
  rw [opRefRtcmSubscribe, subscribeOp, runOp_passes _ hl (beq_iff_eq.mpr hlen) hz rfl hm]
  exact need_passes _ (by simpa using hact)

/-- A session stays open through a change of its subscription. -/
theorem answerable_subscribeRtcm : Answerable (subscribeRtcm r (committed (takeLatched s r) [(okSession, r.slot)])) r := by
  rcases (live_answerable hl).congr (t := committed (takeLatched s r) [(okSession, r.slot)]) rfl with hslot | hopen
  · exact .inl hslot
  · refine .inr ?_
    rw [subscribeRtcm, callerOf_modSession]
    · exact hopen
    · exact fun _ => ⟨rfl, rfl⟩

end

/-- Settles O23: REF_CONFIG and REF_BASE_SET come to one change of the site configuration, REF_RTCM_SUBSCRIBE to one of its
session, REF_SURVEY_START to the survey accepted. -/
theorem refCommandsTakeEffect : Obligations.RefCommandsTakeEffect := by
  unfold Obligations.RefCommandsTakeEffect
  refine ⟨fun r s hl hc hlen hz hn hr hm hok => ?_, fun r s bl hl hc hlen hz hflags hr hm hbl hshell hnear hs => ?_,
    fun r s hl hlen hz hr hm hmin hacc hmax hs => ?_, fun r s hl hc hlen hz hm hfog hact => ?_⟩
  · have hfog : mramFog s = false := mramFog_of_inModes hm rfl
    rw [commit_eq (s := takeLatched s r) _ _ hfog]
    exact ends_of_siteChange (c := .refConfig r)
      (congrArg Host.Outcome.next (opRefConfig_changes hl hlen hz hn hr hm hok)) hl hc (fun _ => rfl) hfog
  · obtain ⟨hmode, hturn⟩ := Bool.and_eq_true_iff.mp hm
    have hfog : mramFog s = false := mramFog_of_inModes hmode rfl
    rw [commit_eq (s := takeLatched s r) _ _ hfog]
    exact ends_of_siteChange (c := .refBaseSet r) (congrArg Host.Outcome.next
      (opRefBaseSet_changes hl hlen hz hflags hr hmode hturn hbl hshell hnear hs)) hl hc (fun _ => rfl) hfog
  · exact goesOn_of_accept (c := .refSurveyStart r) (congrArg Host.Outcome.next
      (opRefSurveyStart_goesOn hl hlen hz hr hm ⟨hmin, hacc, hmax⟩ hs)) (live_answerable hl)
  · rw [commit_eq (s := takeLatched s r) _ _ hfog]
    exact ends_of_change1 (c := .refRtcmSubscribe r)
      (congrArg Host.Outcome.next (opRefRtcmSubscribe_changes hl hlen hz hm hact)) hc hfog (answerable_subscribeRtcm hl)

end Sys2Proof.Machine
end

section
/-! PROOFS. The BUOY commands: BUOY_ANCHOR_SET, BUOY_CONFIG, BUOY_CALIBRATE, BUOY_ZONE_SET, BUOY_FIX_SUBSCRIBE and the three
forms of BUOY_RELAY. For each row a lemma says what it comes to once its checks have passed. -/

namespace Sys2Proof.Machine

open Sys2Proof

/-! ### The sessions through the traffic of the anchors and the robots -/

theorem startCal_edtor (s : State) (who : List Nat) : (startCal s who).edtor = s.edtor :=
  foldl_keeps State.edtor _ _ _ fun _ _ => rfl

theorem assignBlinks_edtor (s : State) (i t : Nat) (was : List (Nat × Nat × Nat)) :
    (assignBlinks s i t was).edtor = s.edtor := by
  unfold assignBlinks
  split <;> rfl

theorem reassignBlinks_edtor (s : State) : (reassignBlinks s).edtor = s.edtor :=
  foldl_keeps State.edtor _ _ _ fun _ _ => assignBlinks_edtor ..

theorem applyBuoyCfg_edtor (s : State) (c : BuoyConfig) : (applyBuoyCfg s c).edtor = s.edtor := by
  unfold applyBuoyCfg
  dsimp only
  split
  · exact reassignBlinks_edtor _
  · rfl

/-- A session stays open through a change that leaves it open under its SESSION_ID. -/
theorem answerable_modSession {u : State} {r : Request} {slot : Nat} {f : Session → Session} (ha : Answerable u r)
    (hf : ∀ e, (f e).sopen = e.sopen ∧ (f e).id = e.id) : Answerable (modSession u slot f) r :=
  ha.imp_right ((callerOf_modSession u slot f r hf).trans ·)

/-! ### The rows of the settings -/

/-- The ranges of a BUOY_ANCHOR_SET with ACTION 1: its class, its priority and the spread of its coordinates (R255). -/
def contextInRange (p : Bytes) : Prop :=
  fld p 2 1 ∈ [0, 10, 11, 12] ∧ fld p 3 1 ≤ 7 ∧ 1 ≤ fld p 24 2 ∧ fld p 24 2 ≤ 1000

/-- The anchors a BUOY_CALIBRATE measures: those in sync that have coordinates (R257). -/
def calAnchors (s : State) : List Nat := links.filter fun l => inSync s l && surveyed s l

/-- The calibration a BUOY_CALIBRATE starts: 100 FCs for each of its anchors and 100 more (R257). -/
def buoyCalFrom (s : State) (r : Request) : BuoyCal :=
  { endFc := fcNow s + 100 * (calAnchors s).length + 100
    who := calAnchors s
    req := r }

/-- The fix subscription of one session taken up in the FC of its command, or dropped (R258). -/
def subscribeFixes (r : Request) (u : State) : State :=
  modSession u r.slot fun e => { e with fixSub := if fld r.payload 0 1 = 1 then some (fcNow u) else none }

section
variable {r : Request} {s : State} (hl : live s r = true)
include hl

section
variable (hlen : r.payload.length = 32) (hz : zeros r.payload 26 6 = true) (hr : supOk s r = true) (hm : inModes s mCfg = true)
  (hlink : fld r.payload 0 1 < 10) (hcal : s.buoy.cal.isNone = true)
  (hrelay : (anchorAt s (fld r.payload 0 1)).relay.isNone = true)
include hlen hz hr hm hlink hcal hrelay

/-- BUOY_ANCHOR_SET with ACTION 1 and its checks passed (R255). -/
theorem opBuoyAnchorSet_sets (ha : fld r.payload 1 1 = 1) (hok : contextInRange r.payload) :
    opBuoyAnchorSet r s = change1 (takeLatched s r) r (okAnchor, fld r.payload 0 1)
      (fun u => setContext u (fld r.payload 0 1) (anchorFrom (anchorSet u (fld r.payload 0 1)) r.payload)) fun _ => [] := by
  obtain ⟨hclass, hprio, hlo, hhi⟩ := hok
  rw [opBuoyAnchorSet, runOp_passes _ hl (beq_iff_eq.mpr hlen) (by simp [hz, ha]) hr hm]
  refine (need_passes _ ?_).trans ((need_passes (s := takeLatched s r) _ (Bool.and_eq_true_iff.mpr ⟨hcal, hrelay⟩)).trans ?_)
  · rw [List.contains_iff_mem.mpr hclass]
    simp [hlink, ha, hprio, hlo, hhi]
  · simp only [ha, beq_self_eq_true, ↓reduceIte]

/-- BUOY_ANCHOR_SET with ACTION 2 and its checks passed (R255). -/
theorem opBuoyAnchorSet_clears (ha : fld r.payload 1 1 = 2) (hz' : zeros r.payload 2 24 = true) :
    opBuoyAnchorSet r s = change1 (takeLatched s r) r (okAnchor, fld r.payload 0 1)
      (fun u => setContext u (fld r.payload 0 1) (clearedContext (anchorSet u (fld r.payload 0 1)))) fun _ => [] := by
  rw [opBuoyAnchorSet, runOp_passes _ hl (beq_iff_eq.mpr hlen) (by simp [hz, hz']) hr hm]
  refine (need_passes _ (by simp [hlink, ha])).trans
    ((need_passes (s := takeLatched s r) _ (Bool.and_eq_true_iff.mpr ⟨hcal, hrelay⟩)).trans ?_)
  simp only [ha, Nat.reduceBEq, Bool.false_eq_true, ↓reduceIte]

end

/-- BUOY_CONFIG with its checks passed (R254). -/
theorem opBuoyConfig_changes (hlen : r.payload.length = 32) (hz : zeros r.payload 10 2 = true) (hz' : zeros r.payload 28 4 = true)
    (hn : allZero r.payload = false) (hr : supOk s r = true) (hm : inModes s mCfg = true) (hok : buoyCfgOk r.payload = true) :
    opBuoyConfig r s = change1 (takeLatched s r) r siteObj
      (fun u => applyBuoyCfg u (buoyCfgFrom u.p.buoyCfg r.payload)) (fun u => buoyCfgBytes u.p.buoyCfg) := by
  unfold opBuoyConfig
  exact (runOp_changes hl (beq_iff_eq.mpr hlen) (Bool.and_eq_true_iff.mpr ⟨hz, hz'⟩) hr hm hn).trans (need_passes _ hok)

/-- BUOY_CALIBRATE with its checks passed goes on to its end FC (R257). -/
theorem opBuoyCalibrate_goesOn (hlen : r.payload.length = 8) (hz : zeros r.payload 1 7 = true) (ha : fld r.payload 0 1 = 1)
    (hr : supOk s r = true) (hm : inModes s [.zephyr, .watch] = true) (hcal : s.buoy.cal.isNone = true)
    (hrelay : s.buoy.relayCmd.isNone = true) :
    opBuoyCalibrate r s
      = accept { startCal (takeLatched s r) (calAnchors s) with buoy.cal := some (buoyCalFrom s r) } r 1 [] := by
  rw [opBuoyCalibrate, runOp_passes _ hl (beq_iff_eq.mpr hlen) hz hr hm]
  exact (need_passes _ (beq_iff_eq.mpr ha)).trans
    (need_passes (s := takeLatched s r) _ (Bool.and_eq_true_iff.mpr ⟨hcal, hrelay⟩))

/-- BUOY_ZONE_SET of one zone with its checks passed (R250, R256). -/
theorem opBuoyZoneSet_changes (hlen : r.payload.length = 32)
    (hz : (zeros r.payload 2 2 && zeros r.payload 28 4 && (fld r.payload 1 1 != 0 || zeros r.payload 4 24)
      && (fld r.payload 1 1 != 1 || zeros r.payload 20 4)) = true)
    (hn : fld r.payload 0 1 ≠ 0xFF) (hr : supOk s r = true) (hm : inModes s mCfg = true) (hok : zoneOk r.payload = true) :
    opBuoyZoneSet r s = change1 (takeLatched s r) r siteObj
      (fun u => setZone u (fld r.payload 0 1) (zoneFrom r.payload)) fun _ => [] := by
  have hread : (fld r.payload 0 1 == 0xFF) = false := beq_eq_false_iff_ne.mpr hn
  unfold opBuoyZoneSet
  refine (runOp_changes hl (beq_iff_eq.mpr hlen) ?_ hr hm hread).trans (need_passes _ hok)
  rw [hread, Bool.not_false, Bool.true_or, Bool.and_true]
  exact hz

/-- BUOY_FIX_SUBSCRIBE with its checks passed is one change of its own session (R258). -/
theorem opBuoyFixSubscribe_changes (hlen : r.payload.length = 4) (hz : zeros r.payload 1 3 = true) (hm : edt s 0x0530 = true)
    (hact : fld r.payload 0 1 = 1 ∨ fld r.payload 0 1 = 2) :
    opBuoyFixSubscribe r s = change1 (takeLatched s r) r (okSession, r.slot) (subscribeFixes r) fun _ => [] := by
  rw [opBuoyFixSubscribe, subscribeOp, runOp_passes _ hl (beq_iff_eq.mpr hlen) hz rfl hm]
  exact need_passes _ (by simpa using hact)

end

/-- Settles O24: the settings rows come to one change each, BUOY_CALIBRATE to the calibration accepted. -/
theorem buoyCommandsTakeEffect : Obligations.BuoyCommandsTakeEffect := by
  unfold Obligations.BuoyCommandsTakeEffect
  refine ⟨fun r s hl hc hlen hz ha hr hm hlink hclass hprio hsigma hcal hrelay => ?_,
    fun r s hl hc hlen hz hz' ha hr hm hlink hcal hrelay => ?_, fun r s hl hc hlen hz hz' hn hr hm hok => ?_,
    fun r s hl hlen hz ha hr hm hcal hrelay => ?_, fun r s hl hc hlen hz hn hr hm hok => ?_,
    fun r s hl hc hlen hz hm hfog hact => ?_⟩
  · have hfog : mramFog s = false := mramFog_of_inModes hm rfl
    rw [commit_eq (s := takeLatched s r) _ _ hfog]
    exact ends_of_change1 (c := .buoyAnchorSet r) (congrArg Host.Outcome.next
      (opBuoyAnchorSet_sets hl hlen hz hr hm hlink hcal hrelay ha ⟨hclass, hprio, hsigma⟩)) hc hfog
      ((live_answerable hl).congr rfl)
  · have hfog : mramFog s = false := mramFog_of_inModes hm rfl
    rw [commit_eq (s := takeLatched s r) _ _ hfog]
    exact ends_of_change1 (c := .buoyAnchorSet r) (congrArg Host.Outcome.next
      (opBuoyAnchorSet_clears hl hlen hz hr hm hlink hcal hrelay ha hz')) hc hfog ((live_answerable hl).congr rfl)
  · have hfog : mramFog s = false := mramFog_of_inModes hm rfl
    rw [commit_eq (s := takeLatched s r) _ _ hfog]
    exact ends_of_siteChange (c := .buoyConfig r)
      (congrArg Host.Outcome.next (opBuoyConfig_changes hl hlen hz hz' hn hr hm hok)) hl hc
      (fun _ => congrArg Edtor.sessions (applyBuoyCfg_edtor ..)) hfog
  · have hopen := congrArg Edtor.sessions (startCal_edtor (takeLatched s r) (calAnchors s))
    exact goesOn_of_accept (c := .buoyCalibrate r)
      (congrArg Host.Outcome.next (opBuoyCalibrate_goesOn hl hlen hz ha hr hm hcal hrelay)) ((live_answerable hl).congr hopen)
  · have hfog : mramFog s = false := mramFog_of_inModes hm rfl
    rw [commit_eq (s := takeLatched s r) _ _ hfog]
    exact ends_of_siteChange (c := .buoyZoneSet r)
      (congrArg Host.Outcome.next (opBuoyZoneSet_changes hl hlen hz hn hr hm hok)) hl hc (fun _ => rfl) hfog
  · rw [commit_eq (s := takeLatched s r) _ _ hfog]
    exact ends_of_change1 (c := .buoyFixSubscribe r)
      (congrArg Host.Outcome.next (opBuoyFixSubscribe_changes hl hlen hz hm hact)) hc hfog
      (answerable_modSession ((live_answerable hl).congr rfl) fun _ => ⟨rfl, rfl⟩)

/-! ### The image relay (R251, R252, R259) -/

/-- The named heads told to take an image of a length; each relay starts at its first byte (R251). -/
def startHeads (s : State) (mask id len : Nat) : State :=
  (maskLinks mask).foldl (fun s l =>
    modAnchor (sendDownNow s l 0x04 (relayCtrl (anchorAt s l) 1 id len none)) l fun a =>
      { a with relay := some { imageId := id, len := len, ackFc := fcNow s }, rstate := 1 }) s

/-- The named heads told to discard any partial image (R259). -/
def abortHeads (s : State) (mask id : Nat) : State :=
  (maskLinks mask).foldl (fun s l =>
    modAnchor (sendDownNow s l 0x04 (relayCtrl (anchorAt s l) 3 id 0 none)) l fun a => { a with relay := none, rstate := 0 }) s

section
variable {q : Request} {s : State} (hl : live s q = true) (hlen : q.payload.length = 24)
  (hmask : fld q.payload 2 2 ≠ 0) (hr : svcOk s q = true) (hm : inModes s mWork = true)
include hl hlen hmask hr hm

/-- A form of BUOY_RELAY whose common checks pass goes on to its body with its mask. -/
theorem relayOp_passes {rsv : Bool} (body : Nat → State → State)
    (hz : (zeros q.payload 1 1 && zeros q.payload 18 6 && decide (fld q.payload 2 2 < 1024) && rsv) = true) :
    relayOp q s rsv body = body (fld q.payload 2 2) (takeLatched s q) := by
  rw [relayOp, runOp_passes _ hl (beq_iff_eq.mpr hlen) hz hr hm]
  exact need_passes _ (bne_iff_ne.mpr hmask)

/-- BUOY_RELAY START with its checks passed goes on as the relay of the image (R251, R259). -/
theorem opBuoyRelayStart_goesOn {len : Nat}
    (hz : (zeros q.payload 1 1 && zeros q.payload 18 6 && decide (fld q.payload 2 2 < 1024) && zeros q.payload 8 10) = true)
    (hstaged : stagedLen s (fld q.payload 4 4) = some len) (hsync : namedInSync s (fld q.payload 2 2) = true)
    (hrelay : s.buoy.relayCmd.isNone = true) (hcal : s.buoy.cal.isNone = true) :
    opBuoyRelayStart q s
      = accept { startHeads (takeLatched s q) (fld q.payload 2 2) (fld q.payload 4 4) len with
          buoy.relayCmd := some { mask := fld q.payload 2 2, req := q } } q 1 [] := by
  have hstaged' : stagedLen (takeLatched s q) (fld q.payload 4 4) = some len := hstaged
  rw [opBuoyRelayStart, relayOp_passes hl hlen hmask hr hm _ hz]
  simp only [hstaged']
  exact (need_passes (s := takeLatched s q) _ hsync).trans
    (need_passes (s := takeLatched s q) _ (Bool.and_eq_true_iff.mpr ⟨hrelay, hcal⟩))

/-- BUOY_RELAY ACTIVATE with its checks passed is one change of the named anchors (R252, R259). -/
theorem opBuoyRelayActivate_activates
    (hz : (zeros q.payload 1 1 && zeros q.payload 18 6 && decide (fld q.payload 2 2 < 1024) && true) = true)
    (hready : (namedInSync s (fld q.payload 2 2) && (stagedLen s (fld q.payload 4 4)).isSome
      && (maskLinks (fld q.payload 2 2)).all fun l => (anchorAt s l).rstate == 2) = true)
    (htime : startOfSecondNext s ≤ fullOf q.payload 8) (hrelay : s.buoy.relayCmd.isNone = true)
    (hc : csnHolds s q (maskObjs (fld q.payload 2 2)) = true) :
    opBuoyRelayActivate q s
      = finish (activateHeads (commitAll (takeLatched s q) (maskObjs (fld q.payload 2 2))) (fld q.payload 2 2)
          (fld q.payload 4 4) (fullOf q.payload 8)) q stOk (relayReply (fld q.payload 2 2) 0) := by
  rw [opBuoyRelayActivate, relayOp_passes hl hlen hmask hr hm _ hz]
  exact (need_passes (s := takeLatched s q) _ hready).trans
    ((need_passes (s := takeLatched s q) _ (decide_eq_true htime)).trans
      ((need_passes (s := takeLatched s q) _ hrelay).trans (checkCsn_passes (s := takeLatched s q) _ hc)))

/-- BUOY_RELAY ABORT with its checks passed is one change of the named anchors, and ends a START of theirs (R259). -/
theorem opBuoyRelayAbort_aborts
    (hz : (zeros q.payload 1 1 && zeros q.payload 18 6 && decide (fld q.payload 2 2 < 1024) && zeros q.payload 8 10) = true)
    (hc : csnHolds s q (maskObjs (fld q.payload 2 2)) = true) :
    opBuoyRelayAbort q s
      = abortStart (finish (abortHeads (commitAll (takeLatched s q) (maskObjs (fld q.payload 2 2))) (fld q.payload 2 2)
          (fld q.payload 4 4)) q stOk (relayReply (fld q.payload 2 2) 0)) (fld q.payload 2 2) := by
  rw [opBuoyRelayAbort, relayOp_passes hl hlen hmask hr hm _ hz]
  exact checkCsn_passes (s := takeLatched s q) _ hc

end

/-- Settles O25: each form of BUOY_RELAY by its equation, for the request with its selector fixed. -/
theorem buoyRelayCarriesOut : Obligations.BuoyRelayCarriesOut := by
  unfold Obligations.BuoyRelayCarriesOut
  refine ⟨?start, ?activate, ?abort⟩
  case start =>
    rintro r _ s len rfl hl hlen hz hmask hr hm hstaged hsync hrelay hcal
    exact congrArg Host.Outcome.next (opBuoyRelayStart_goesOn hl hlen hmask hr hm hz hstaged hsync hrelay hcal)
  case activate =>
    rintro r _ s rfl hl hlen hz hmask hr hm hready htime hrelay hc
    exact congrArg Host.Outcome.next (opBuoyRelayActivate_activates hl hlen hmask hr hm hz hready htime hrelay hc)
  case abort =>
    rintro r _ s rfl hl hlen hz hmask hr hm hc
    exact congrArg Host.Outcome.next (opBuoyRelayAbort_aborts hl hlen hmask hr hm hz hc)

end Sys2Proof.Machine
end

section
/-! PROOFS. The BUOY events: the frames of the anchor heads, the sync schedule, the relay, the PHY and PoDL events and the
deadlines of the links. -/

namespace Sys2Proof.Machine

open Sys2Proof

/-! ### The live part of a link -/

@[simp] theorem anchorAt_modAnchor_same (s : State) (l : Nat) (f : AnchorLive → AnchorLive) :
    anchorAt (modAnchor s l f) l = f (anchorAt s l) :=
  tgetD_tput_same ..

theorem anchorAt_modAnchor_other (s : State) {l k : Nat} (f : AnchorLive → AnchorLive) (h : k ≠ l) :
    anchorAt (modAnchor s l f) k = anchorAt s k :=
  tgetD_tput_other _ _ _ h

theorem setAnchor_p (s : State) (l : Nat) (st : AnchorState) (cause : Nat) : (setAnchor s l st cause).p = s.p := by
  unfold setAnchor
  dsimp only
  split <;> rfl

theorem anchorAt_setAnchor_other (s : State) {l k : Nat} (st : AnchorState) (cause : Nat) (h : k ≠ l) :
    anchorAt (setAnchor s l st cause) k = anchorAt s k := by
  unfold setAnchor
  dsimp only
  split
  · rfl
  · exact anchorAt_modAnchor_other s _ h

/-- A link switched off forgets its clock model and the exchange in flight (R226). -/
theorem anchorAt_setAnchor_off {s : State} {l : Nat} (cause : Nat) (h : (anchorAt s l).state ≠ .off) :
    anchorAt (setAnchor s l .off cause) l =
      { anchorAt s l with
        state := .off
        evOld := some ((anchorAt s l).evOld.getD (anchorAt s l).state)
        evCause := cause
        good := 0
        missing := 0
        pairs := []
        t1 := none } := by
  have hne : ¬((anchorAt s l).state == .off) = true := by simpa using h
  rw [setAnchor, if_neg hne, anchorAt_modAnchor_same]
  rfl

/-- What the identity of a head is told by: its EUI-64, its firmware, its model and the last counter of its frames. -/
def headOf (a : AnchorLive) : BitVec 64 × Nat × Nat × Nat := (a.heard, a.fw, a.model, a.upCtr)

theorem headOf_setAnchor (s : State) (l : Nat) (st : AnchorState) (cause : Nat) :
    headOf (anchorAt (setAnchor s l st cause) l) = headOf (anchorAt s l) := by
  unfold setAnchor
  dsimp only
  split
  · rfl
  · rw [anchorAt_modAnchor_same]
    rfl

/-! ### The receive path of an uplink frame (R222, R223, R225, R240) -/

/-- The state in which the entry of an uplink frame into its queue is decided: all but a HELLO have moved the counter of their
link. -/
def counted (f : BuoyFrame) (s : State) : State :=
  if isHello f then s else modAnchor s f.link fun a => { a with upCtr := bCtr f }

/-- The state with an uplink frame captured and its arrival in the report queue of its link noted. -/
def captured (f : BuoyFrame) (s : State) : State :=
  arrived (captureBuoy (counted f s) (.frame f (buoyDesc (counted f s) f))) (0x20 + f.link)
    (occOf (counted f s) (0x20 + f.link))

/-- A frame is admitted without a change: only a refused one is counted. -/
theorem admitFrame_admits {s : State} {q : Nat} {special : Bool} (h : (admitFrame s q special).1 = true) :
    admitFrame s q special = (true, s) := by
  unfold admitFrame at h ⊢
  split
  · next hq => simp [hq] at h
  · next p hq =>
    split
    · next hfull => simp [hq, hfull] at h
    · rfl

/-- Each of the four uplink rows is the receive path. -/
theorem exec_uplink {f : BuoyFrame} {s t : State} (hl : f.link < 10) (h : receiveBuoy f s = t) :
    exec (.hello f) s = .next t ∧ exec (.syncResp f) s = .next t ∧ exec (.report f) s = .next t
      ∧ exec (.relayAck f) s = .next t :=
  have hrow := (if_pos hl).trans (congrArg Host.Outcome.next h)
  ⟨hrow, hrow, hrow, hrow⟩

section
variable {s : State} {f : BuoyFrame} (hr : running s = true) (hphy : (anchorAt s f.link).phy = true)
include hr hphy

theorem receiveBuoy_badFrame (hf : frameOk s f = false) :
    receiveBuoy f s = modAnchor s f.link fun a => { a with badFrames := inc32 a.badFrames } := by
  simp [receiveBuoy, hr, hphy, hf]

theorem receiveBuoy_badMic (hf : frameOk s f = true) (hmic : micOk s f = false) :
    receiveBuoy f s = anchorMicFail s f.link := by
  simp [receiveBuoy, hr, hphy, hf, hmic]

theorem receiveBuoy_replay (hf : frameOk s f = true) (hmic : micOk s f = true) (hctr : bCtr f ≤ lastCtr s f) :
    receiveBuoy f s = modAnchor s f.link fun a => { a with replay := inc32 a.replay } := by
  simp [receiveBuoy, hr, hphy, hf, hmic, hctr]

theorem receiveBuoy_captures (hf : frameOk s f = true) (hmic : micOk s f = true) (hctr : lastCtr s f < bCtr f)
    (hroom : (admitFrame (counted f s) (0x20 + f.link) false).1 = true) : receiveBuoy f s = captured f s := by
  have hadm := admitFrame_admits hroom
  unfold counted at hadm
  simp only [receiveBuoy, hr, hphy, hf, hmic, Nat.not_le.mpr hctr, Bool.not_true, Bool.or_self, Bool.false_eq_true, ↓reduceIte,
    hadm]
  rfl

end

/-- Counting a frame moves the counter of its link, and nothing else. -/
theorem counted_keeps (f : BuoyFrame) (s : State) :
    let u := counted f s
    u.p = s.p ∧ u.buoy.ins = s.buoy.ins ∧ u.buoy.reports = s.buoy.reports
      ∧ (anchorAt u f.link).state = (anchorAt s f.link).state ∧ ∀ k, k ≠ f.link → anchorAt u k = anchorAt s k := by
  unfold counted
  split
  · exact ⟨rfl, rfl, rfl, rfl, fun _ _ => rfl⟩
  · exact ⟨rfl, rfl, rfl, (congrArg AnchorLive.state (anchorAt_modAnchor_same ..) :),
      fun _ hk => anchorAt_modAnchor_other s _ hk⟩

theorem counted_upCtr {f : BuoyFrame} (s : State) (h : isHello f = false) : (anchorAt (counted f s) f.link).upCtr = bCtr f := by
  rw [counted, h, if_neg Bool.false_ne_true, anchorAt_modAnchor_same]

/-- A frame noted on a queue leaves the links and the memories alone. -/
theorem arrived_keeps (s : State) (q before : Nat) : (arrived s q before).buoy = s.buoy ∧ (arrived s q before).p = s.p := by
  unfold arrived
  split
  · exact ⟨rfl, rfl⟩
  · unfold noteOccupancy
    extract_lets k occ crossed k' u
    split <;> exact ⟨rfl, rfl⟩

/-- A frame captured waits for LATCH; of the links only its counter has moved, and not by a HELLO. -/
theorem captured_leaves (f : BuoyFrame) (s : State) :
    let t := captured f s
    (∃ d, t.buoy.ins = s.buoy.ins ++ [.frame f d]) ∧ (isHello f = false → (anchorAt t f.link).upCtr = bCtr f)
      ∧ (anchorAt t f.link).state = (anchorAt s f.link).state ∧ t.buoy.reports = s.buoy.reports
      ∧ (∀ k, k ≠ f.link → anchorAt t k = anchorAt s k) ∧ t.p = s.p := by
  obtain ⟨hbuoy, hp⟩ := arrived_keeps (captureBuoy (counted f s) (.frame f (buoyDesc (counted f s) f))) (0x20 + f.link)
    (occOf (counted f s) (0x20 + f.link))
  rw [← captured] at hbuoy hp
  have hanchor : ∀ k, anchorAt (captured f s) k = anchorAt (counted f s) k :=
    fun k => (congrArg (fun b : Buoy => tgetD b.anchors k {}) hbuoy :)
  obtain ⟨hp', hins, hreports, hstate, hother⟩ := counted_keeps f s
  simp only [hanchor, hbuoy]
  exact ⟨⟨_, congrArg (· ++ [_]) hins⟩, counted_upCtr s, hstate, hreports, hother, hp.trans hp'⟩

/-! ### What LATCH makes of a frame (R226, R228, R241, R251) -/

/-- The head of a HELLO heard and paired anew, before its link moves on. -/
def headHeard (s : State) (f : BuoyFrame) : State :=
  let u : State := { cacheKey s (276 + f.link) (keySlot s (f.link + 1)).gen with
    p.keys.helloCtr := tput s.p.keys.helloCtr (helloEui f).toNat (bCtr f)
    p.anchors := tmod s.p.anchors f.link {} fun c => { c with downCtr := 1 } }
  modAnchor u f.link fun a =>
    { a with
      heard := helloEui f
      fw := fld (bPayload f) 8 4
      model := fld (bPayload f) 12 2
      pdHello := fld (bPayload f) 14 1
      key := anchorLinkKey u f.link (helloEui f) (bCtr f)
      upCtr := bCtr f
      mac := f.src }

section
variable {s : State} {f : BuoyFrame}

/-- What neither a change of state nor the end of a restart touches is as the HELLO wrote it. -/
theorem takeHello_keeps {α : Type} {π : State → α} (hset : ∀ u st cause, π (setAnchor u f.link st cause) = π u)
    (hback : ∀ u, π (modAnchor u f.link fun a => { a with relayUntil := none }) = π u) :
    π (takeHello s f) = π (headHeard s f) := by
  unfold takeHello
  dsimp only
  split
  case h_1 => exact hset ..
  case h_2 =>
    split
    · exact hset ..
    · rfl
  case h_3 =>
    split
    · exact (hset ..).trans (hback _)
    · rfl
  case h_4 => rfl

theorem takeFrame_hello (hf : isHello f = true) (hlen : 24 ≤ bLen f) : takeFrame s f = takeHello s f := by
  simp only [takeFrame, needBytes, hf, Nat.not_lt.mpr hlen, ↓reduceIte]

theorem takeFrame_report (hf : isReport f = true) (hlen : 4 + 20 * min 20 (fld (bPayload f) 0 1) ≤ bLen f) :
    takeFrame s f = takeReport s f := by
  have htype : bType f = 0x83 := beq_iff_eq.mp hf
  have hhello : isHello f = false := by simp [isHello, htype]
  simp [takeFrame, needBytes, hf, hhello, htype, Nat.not_lt.mpr hlen]

theorem takeFrame_syncResp (hf : bType f = 0x82) (hlen : 16 ≤ bLen f) : takeFrame s f = takeSyncResp s f := by
  simp [takeFrame, needBytes, isHello, isReport, hf, Nat.not_lt.mpr hlen]

theorem takeFrame_relayAck (hf : bType f = 0x84) (hlen : 12 ≤ bLen f) : takeFrame s f = takeRelayAck s f := by
  simp [takeFrame, needBytes, isHello, isReport, hf, Nat.not_lt.mpr hlen]

theorem takeHello_head :
    let t := takeHello s f
    (anchorAt t f.link).heard = helloEui f ∧ (anchorAt t f.link).fw = fld (bPayload f) 8 4
      ∧ (anchorAt t f.link).model = fld (bPayload f) 12 2 ∧ (anchorAt t f.link).upCtr = bCtr f
      ∧ tgetD t.p.keys.helloCtr (helloEui f).toNat 0 = bCtr f := by
  have hp : (takeHello s f).p = (headHeard s f).p :=
    takeHello_keeps (π := State.p) (fun u _ _ => setAnchor_p u ..) fun _ => rfl
  have hhead : headOf (anchorAt (takeHello s f) f.link) = headOf (anchorAt (headHeard s f) f.link) := by
    refine takeHello_keeps (π := fun u => headOf (anchorAt u f.link)) (fun u _ _ => headOf_setAnchor u ..) fun u => ?_
    rw [anchorAt_modAnchor_same]
    rfl
  rw [headHeard, anchorAt_modAnchor_same] at hhead
  simp only [headOf, Prod.mk.injEq] at hhead
  obtain ⟨heui, hfw, hmodel, hctr⟩ := hhead
  refine ⟨heui, hfw, hmodel, hctr, ?_⟩
  rw [hp]
  exact tgetD_tput_same ..

theorem takeReport_late
    (h : fcOfLow s (bFcLow f) = none
      ∨ ∃ fc, fcOfLow s (bFcLow f) = some fc ∧ reportLate fc (bPeriod f) (fcNow s - 1) f.pclk = true) :
    takeReport s f = modAnchor s f.link fun a => { a with reportLoss := sat 32 (a.reportLoss + 1) } := by
  rcases h with h | ⟨fc, h, hlate⟩
  · simp only [takeReport, h]
  · simp only [takeReport, h, hlate, ↓reduceIte]

theorem reportRecords_length (f : BuoyFrame) : (reportRecords f).length ≤ 20 := by
  simp [reportRecords]

/-- A REPORT in time enters its period, and of its records those that are no calibration blinks. -/
theorem takeReport_enters {fc : Nat} (h : fcOfLow s (bFcLow f) = some fc)
    (hlate : reportLate fc (bPeriod f) (fcNow s - 1) f.pclk = false) :
    let t := takeReport s f
    t.buoy.periods = s.buoy.periods ++ [(f.link, fc, bPeriod f, fcNow s - 1)]
      ∧ ∃ l, t.buoy.reports = s.buoy.reports ++ l ∧ l.length ≤ 20 := by
  have hrecs := (List.length_filter_le (fun b : BlinkReport => !bit b.bflags 3)
    ((reportRecords f).map (blinkReport f.link fc (bPeriod f) (fcNow s - 1)))).trans
    ((List.length_map _).trans_le (reportRecords_length f))
  simp only [takeReport, h, hlate, Bool.false_eq_true, ↓reduceIte]
  split
  · exact ⟨rfl, _, rfl, hrecs⟩
  · exact ⟨rfl, [], rfl, Nat.zero_le _⟩

theorem takeSyncResp_enters {t1 : Counter} (h1 : syncLaunch s f.link = some t1)
    (hst : (anchorAt s f.link).state = .syncing ∨ (anchorAt s f.link).state = .inSync) :
    let a := anchorAt s f.link
    let x2 := unwrap (lastLocal a) (fld (bPayload f) 0 5)
    let turn := unwrap x2 (fld (bPayload f) 5 5) - x2
    let d := (((f.stamp - t1).toNat : Int) - turn - turn * modelRate a.pairs / (2 ^ 40 : Nat)) / 2
    let pairs := ((x2, (t1.toNat : Int) + d + (anchorRec s f.link).asym / 2) :: a.pairs).take 16
    takeSyncResp s f = afterExchange (modAnchor s f.link fun a => { a with
      pairs := pairs
      t1 := none
      missing := 0
      good := min 100 (a.good + 1)
      pathDelay := (ftuToPs d).toNat % 2 ^ 32
      resid := sat 16 (fitResid pairs)
      temp := fldI (bPayload f) 10 1
      astatus := fld (bPayload f) 11 1 }) f.link := by
  have hstate : ¬((anchorAt s f.link).state != .syncing && (anchorAt s f.link).state != .inSync) = true := by
    rcases hst with h | h <;> simp [h]
  simp only [takeSyncResp, h1]
  exact if_neg hstate

/-- A RELAY_ACK of the running relay that ends nothing moves it on. -/
theorem takeRelayAck_advances {v : Relay} (hv : (anchorAt s f.link).relay = some v) (hid : v.imageId = fld (bPayload f) 0 4)
    (hst : fld (bPayload f) 8 1 ≠ 2 ∧ fld (bPayload f) 8 1 ≠ 3) :
    let t := takeRelayAck s f
    (anchorAt t f.link).rstate = fld (bPayload f) 8 1
      ∧ (anchorAt t f.link).relay = some { v with
          acked := max v.acked (fld (bPayload f) 4 4)
          sent := max v.sent (fld (bPayload f) 4 4)
          ackFc := fcNow s } := by
  obtain ⟨h2, h3⟩ := hst
  simp only [takeRelayAck, anchorAt_modAnchor_same, hv, hid, bne_self_eq_false, Bool.false_eq_true, h2, h3, decide_false,
    Bool.or_self, ↓reduceIte]
  exact ⟨trivial, rfl⟩

end

/-! ### The sync schedule (R227) -/

/-- A frame sent down a link joins its downlink queue, and nothing else of the link changes. -/
theorem anchorAt_sendDown (s : State) (l btype : Nat) (payload : Bytes) :
    ∃ x, anchorAt (sendDown s l btype payload) l = { anchorAt s l with downQ := (anchorAt s l).downQ ++ [x] } :=
  ⟨_, tgetD_tput_same ..⟩

theorem anchorAt_sendDownNow (s : State) (l btype : Nat) (payload : Bytes) :
    ∃ x, anchorAt (sendDownNow s l btype payload) l = { anchorAt s l with downQ := (anchorAt s l).downQ ++ [x] } :=
  anchorAt_sendDown s l btype payload

theorem anchorAt_sendDown_other (s : State) {l k : Nat} (btype : Nat) (payload : Bytes) (h : k ≠ l) :
    anchorAt (sendDown s l btype payload) k = anchorAt s k :=
  tgetD_tput_other _ _ _ h

theorem anchorAt_noteSent (s : State) (l link : Nat) (capture : Counter) :
    anchorAt (noteSent s link capture) l = anchorAt s l := rfl

theorem linkSchedule_idle {s : State} {l : Nat} (h : scheduled (anchorAt s l) = false) : linkSchedule s l = s := by
  simp [linkSchedule, h]

/-- The state with SYNC_REQ of a link on its way and its instant stamped. -/
def syncSent (s : State) (l : Nat) : State :=
  noteSent (modAnchor (sendDown s l 0x01 (syncReqPayload s (anchorAt s l))) l fun a => { a with t1 := some (syncInstant s) })
    (7 + l) (syncInstant s)

theorem linkSchedule_launches {s : State} {l : Nat} (h : scheduled (anchorAt s l) = true) (hw : s.clk.window = .latch) :
    linkSchedule s l = sendDownNow (syncSent s l) l 0x02 (configPayload (syncSent s l) (anchorAt (syncSent s l) l) 0 0) := by
  simp only [linkSchedule, h, hw, beq_self_eq_true, Bool.not_true, Bool.false_eq_true, ↓reduceIte]
  rfl

/-- A scheduled link gets SYNC_REQ and CONFIG, and its launch instant is stamped. -/
theorem linkSchedule_sends {s : State} {l : Nat} (h : scheduled (anchorAt s l) = true) (hw : s.clk.window = .latch) :
    let t := linkSchedule s l
    (anchorAt t l).t1 = some (counterAt s 6240) ∧ (anchorAt t l).downQ.length = (anchorAt s l).downQ.length + 2 := by
  obtain ⟨x, hreq⟩ := anchorAt_sendDown s l 0x01 (syncReqPayload s (anchorAt s l))
  have hsync : anchorAt (syncSent s l) l =
      { anchorAt s l with downQ := (anchorAt s l).downQ ++ [x], t1 := some (syncInstant s) } := by
    rw [syncSent, anchorAt_noteSent, anchorAt_modAnchor_same, hreq]
  obtain ⟨y, hcfg⟩ := anchorAt_sendDownNow (syncSent s l) l 0x02 (configPayload (syncSent s l) (anchorAt (syncSent s l) l) 0 0)
  rw [linkSchedule_launches h hw]
  constructor
  · exact (congrArg AnchorLive.t1 hcfg :).trans (congrArg AnchorLive.t1 hsync :)
  · rw [hcfg, hsync, List.length_append, List.length_append]
    rfl

/-- The schedule of one link touches no other. -/
theorem anchorAt_linkSchedule_other (s : State) {l k : Nat} (h : k ≠ l) : anchorAt (linkSchedule s l) k = anchorAt s k := by
  unfold linkSchedule
  dsimp only
  split
  · rfl
  · refine (anchorAt_sendDown_other _ _ _ h).trans ?_
    split
    · rw [anchorAt_noteSent, anchorAt_modAnchor_other _ _ h, anchorAt_sendDown_other s _ _ h]
    · rfl

/-- What the schedule leaves alone: the clock, the captures that wait and the commits. -/
def scheduleKept (s : State) : Clock × List BuoyIn × Commits := (s.clk, s.buoy.ins, s.com)

theorem linkSchedule_scheduleKept (s : State) (l : Nat) : scheduleKept (linkSchedule s l) = scheduleKept s := by
  unfold linkSchedule
  dsimp only
  split
  · rfl
  · split <;> rfl

section
variable {f : State → Nat → State} (hother : ∀ u l k, k ≠ l → anchorAt (f u l) k = anchorAt u k)
include hother

/-- Work done link by link leaves a link that is not among them alone. -/
theorem anchorAt_foldl_other {k : Nat} (ks : List Nat) (s : State) (h : k ∉ ks) : anchorAt (ks.foldl f s) k = anchorAt s k := by
  induction ks generalizing s with
  | nil => rfl
  | cons l ks ih =>
    obtain ⟨hne, hrest⟩ := not_or.mp (mt List.mem_cons.mpr h)
    exact (ih (f s l) hrest).trans (hother s l k hne)

/-- Work done link by link acts on each link once, with that link and the view kept as they were. -/
theorem anchorAt_foldl_mem {α : Type} {π : State → α} (hπ : ∀ u l, π (f u l) = π u) {k : Nat} {ks : List Nat} (hks : ks.Nodup)
    (hk : k ∈ ks) (s : State) :
    ∃ u, π u = π s ∧ anchorAt u k = anchorAt s k ∧ anchorAt (ks.foldl f s) k = anchorAt (f u k) k := by
  induction ks generalizing s with
  | nil => cases hk
  | cons l ks ih =>
    obtain ⟨hl, hnd⟩ := List.nodup_cons.mp hks
    rcases List.mem_cons.mp hk with rfl | hk'
    · exact ⟨s, rfl, rfl, anchorAt_foldl_other hother ks (f s k) hl⟩
    · have hne : k ≠ l := fun h => hl (h ▸ hk')
      obtain ⟨u, hu, hanchor, hdone⟩ := ih hnd hk' (f s l)
      exact ⟨u, hu.trans (hπ s l), hanchor.trans (hother s l k hne), hdone⟩

end

/-- The schedule of all links acts on each as it stood at its start. -/
theorem anchorAt_schedule {l : Nat} (hl : l < 10) (s : State) :
    ∃ u, u.clk = s.clk ∧ anchorAt u l = anchorAt s l ∧ anchorAt (links.foldl linkSchedule s) l = anchorAt (linkSchedule u l) l :=
  have ⟨u, hu, hanchor, hdone⟩ := anchorAt_foldl_mem (fun u _ _ => anchorAt_linkSchedule_other u) linkSchedule_scheduleKept
    List.nodup_range (List.mem_range.mpr hl) s
  ⟨u, congrArg Prod.fst hu, hanchor, hdone⟩

theorem opSyncReq_schedules {s : State} (hr : running s = true) (haway : lnkAway s = false) :
    opSyncReq s = links.foldl linkSchedule s := by
  simp [opSyncReq, hr, haway]

/-! ### The events of one link (R220, R221, R226, R241, R251) -/

/-- The class of a powered device as the detection notes it; one above 12 is refused (R220). -/
def classNoted (cls : Nat) (a : AnchorLive) : AnchorLive :=
  { a with
    detected := cls != 0 && !decide (13 ≤ cls)
    pdClass := cls
    classRefused := if 13 ≤ cls then inc32 a.classRefused else a.classRefused }

section
variable {s : State} (hr : running s = true)
include hr

theorem opReportDeadline_notes {fc period : Nat} (hp : period ≤ 9) (hfc : fc ≤ fcNow s)
    (h9 : (fcNow s == fc && period == 9) = false) :
    opReportDeadline fc period s = { s with buoy.deadlines := s.buoy.deadlines ++ [(fc, period, fcNow s)] } := by
  simp only [opReportDeadline, hr, h9, Nat.not_lt.mpr hp, Nat.not_lt.mpr hfc, Bool.not_true, decide_false, Bool.or_self,
    Bool.false_eq_true, ↓reduceIte]

variable {l : Nat}

theorem opRelayResend_goesBack {v : Relay} (hv : (anchorAt s l).relay = some v) (hdue : v.ackFc + 10 ≤ fcNow s) :
    opRelayResend l s = modAnchor s l fun a => { a with relay := some { v with sent := v.acked, ackFc := fcNow s } } := by
  simp only [opRelayResend, hv]
  exact if_neg (by simp [hr, hdue])

theorem opPhyLinkChange_changes {up : Bool} (level24 : Bool) (h : (anchorAt s l).phy = !up) :
    opPhyLinkChange l up level24 s = captureBuoy (modAnchor s l fun a => { a with phy := up, level24 := level24 }) (.phy l up) :=
  if_neg (by cases up <;> simp [hr, h])

theorem opPodlDetection_notes (cls : Nat) (hoff : (anchorAt s l).podlOn = false) (hst : (anchorAt s l).state ≠ .fault) :
    opPodlDetection l cls s = modAnchor s l (classNoted cls) := by
  have hg : ¬(!running s || (anchorAt s l).podlOn || (anchorAt s l).state == .fault) = true := by simp [hr, hoff, hst]
  refine (if_neg hg).trans ?_
  simp only [decide_eq_true_eq]
  rfl

theorem opPodlOverload_cuts (h : (anchorAt s l).podlOn = true) :
    opPodlOverload l s
      = captureBuoy (modAnchor s l fun a => { a with podlOn := false, granted := 0, phy := false }) (.overload l) :=
  if_neg (by simp [hr, h])

theorem opPodlRestore_restores (hshed : (anchorAt s l).shed = true) (hm : 1000 ≤ (anchorAt s l).marginFc) :
    opPodlRestore l s = modAnchor s l fun a => { a with shed := false, marginFc := 0 } :=
  if_neg (by simp [hr, hshed, hm])

theorem opFaultRetry_retries {fc : Nat} (hfc : (anchorAt s l).faultFc = some fc) (hst : (anchorAt s l).state = .fault)
    (hdue : fc + 1000 ≤ fcNow s) :
    opFaultRetry l s = setAnchor (modAnchor s l fun a => { a with faultFc := none, micFcs := [] }) l .off 0x01 := by
  simp only [opFaultRetry, hfc]
  exact if_neg (by simp [hr, hst, hdue])

end

/-- Settles O40: the receive path and LATCH by their cases, the schedule and the events of one link by their equations. -/
theorem buoyEventsAct : Obligations.BuoyEventsAct := by
  unfold Obligations.BuoyEventsAct
  refine ⟨fun s f hr hl hphy hf => exec_uplink hl (receiveBuoy_badFrame hr hphy hf),
    fun s f hr hl hphy hf hmic => exec_uplink hl (receiveBuoy_badMic hr hphy hf hmic),
    fun s f hr hl hphy hf hmic hctr => exec_uplink hl (receiveBuoy_replay hr hphy hf hmic hctr),
    fun s u f hr hl hphy hf hmic hctr hadm => ?_,
    fun s f t1 hf hlen h1 hst => (takeFrame_syncResp hf hlen).trans (takeSyncResp_enters h1 hst),
    fun s f hf hlen => ?_, fun s f hf hlen h => (takeFrame_report hf hlen).trans (takeReport_late h),
    fun s f fc hf hlen hfc hlate => ?_, fun s f v hf hlen hv hid hst => ?_,
    fun s hr haway => congrArg Host.Outcome.next (opSyncReq_schedules hr haway), fun s l h hw => linkSchedule_sends h hw,
    fun s fc period hr hp hfc h9 => congrArg Host.Outcome.next (opReportDeadline_notes hr hp hfc h9),
    fun s l v hr hl hv hdue => (if_pos hl).trans (congrArg Host.Outcome.next (opRelayResend_goesBack hr hv hdue)),
    fun s l up lv hr hl h => (if_pos hl).trans (congrArg Host.Outcome.next (opPhyLinkChange_changes hr lv h)),
    fun s l up => rfl,
    fun s l cls hr hl hoff hst => (if_pos hl).trans (congrArg Host.Outcome.next (opPodlDetection_notes hr cls hoff hst)),
    fun s l hr hl h => (if_pos hl).trans (congrArg Host.Outcome.next (opPodlOverload_cuts hr h)),
    fun s l hr hl hshed hm => (if_pos hl).trans (congrArg Host.Outcome.next (opPodlRestore_restores hr hshed hm)),
    fun s l fc hr hl hfc hst hdue =>
      (if_pos hl).trans (congrArg Host.Outcome.next (opFaultRetry_retries hr hfc hst hdue))⟩
  · have hroom := congrArg Prod.fst hadm
    obtain rfl : counted f s = u := congrArg Prod.snd ((admitFrame_admits hroom).symm.trans hadm)
    exact exec_uplink hl (receiveBuoy_captures hr hphy hf hmic hctr hroom)
  · rw [takeFrame_hello hf hlen]
    exact takeHello_head
  · rw [takeFrame_report hf hlen]
    exact takeReport_enters hfc hlate
  · rw [takeFrame_relayAck hf hlen]
    exact takeRelayAck_advances hv hid hst

/-! ### What the events leave behind -/

/-- An event that changes the live part of one link leaves every other link and the memories alone. -/
theorem exec_changes_one_link {c : Instr} {s : State} {l : Nat} {f : AnchorLive → AnchorLive}
    (h : exec c s = .next (modAnchor s l f)) :
    ∃ t, exec c s = .next t ∧ anchorAt t l = f (anchorAt s l) ∧ (∀ k, k ≠ l → anchorAt t k = anchorAt s k) ∧ t.p = s.p :=
  ⟨_, h, anchorAt_modAnchor_same .., fun _ hk => anchorAt_modAnchor_other s f hk, rfl⟩

/-- An event of one link that LATCH is to take leaves every other link and the memories alone. -/
theorem exec_captures_one_link {c : Instr} {s : State} {l : Nat} {f : AnchorLive → AnchorLive} {x : BuoyIn}
    (h : exec c s = .next (captureBuoy (modAnchor s l f) x)) :
    ∃ t, exec c s = .next t ∧ anchorAt t l = f (anchorAt s l) ∧ t.buoy.ins = s.buoy.ins ++ [x]
      ∧ (∀ k, k ≠ l → anchorAt t k = anchorAt s k) ∧ t.p = s.p :=
  ⟨_, h, anchorAt_modAnchor_same .., rfl, fun _ hk => anchorAt_modAnchor_other s f hk, rfl⟩

/-- A frame that passes its checks waits for LATCH, whichever row brings it. -/
theorem exec_uplink_captures {c : Instr} {s : State} {f : BuoyFrame}
    (hrow : exec c s = if f.link < 10 then .next (receiveBuoy f s) else .fault .noSuchUnit) (hr : running s = true)
    (hl : f.link < 10) (hphy : (anchorAt s f.link).phy = true) (hf : frameOk s f = true) (hmic : micOk s f = true)
    (hctr : lastCtr s f < bCtr f) (hroom : (admitFrame (counted f s) (0x20 + f.link) false).1 = true) :
    ∃ t, exec c s = .next t ∧ (∃ d, t.buoy.ins = s.buoy.ins ++ [.frame f d])
      ∧ (isHello f = false → (anchorAt t f.link).upCtr = bCtr f)
      ∧ (anchorAt t f.link).state = (anchorAt s f.link).state ∧ t.buoy.reports = s.buoy.reports
      ∧ (∀ k, k ≠ f.link → anchorAt t k = anchorAt s k) ∧ t.p = s.p :=
  ⟨captured f s,
    hrow.trans ((if_pos hl).trans (congrArg Host.Outcome.next (receiveBuoy_captures hr hphy hf hmic hctr hroom))),
    captured_leaves f s⟩

/-- SYNC_REQ in LATCH sends to every scheduled link, and to no other. -/
theorem exec_syncReq_leaves {s : State} (hr : running s = true) (hw : s.clk.window = .latch) (haway : lnkAway s = false) :
    ∃ t, exec .syncReq s = .next t
      ∧ (∀ l, l < 10 → scheduled (anchorAt s l) = true →
          (anchorAt t l).t1 = some (counterAt s 6240) ∧ (anchorAt t l).downQ.length = (anchorAt s l).downQ.length + 2)
      ∧ (∀ l, l < 10 → scheduled (anchorAt s l) = false → anchorAt t l = anchorAt s l)
      ∧ t.buoy.ins = s.buoy.ins ∧ t.com = s.com := by
  have hkept : scheduleKept (links.foldl linkSchedule s) = scheduleKept s :=
    foldl_keeps scheduleKept _ _ _ linkSchedule_scheduleKept
  simp only [scheduleKept, Prod.mk.injEq] at hkept
  obtain ⟨-, hins, hcom⟩ := hkept
  refine ⟨_, congrArg Host.Outcome.next (opSyncReq_schedules hr haway), fun l hl h => ?_, fun l hl h => ?_, hins, hcom⟩
  · obtain ⟨u, hclk, hanchor, hdone⟩ := anchorAt_schedule hl s
    obtain ⟨hstamp, hq⟩ := linkSchedule_sends (hanchor ▸ h) (hclk ▸ hw)
    rw [counterAt, hclk] at hstamp
    rw [hdone, ← hanchor]
    exact ⟨hstamp, hq⟩
  · obtain ⟨u, -, hanchor, hdone⟩ := anchorAt_schedule hl s
    rw [hdone, linkSchedule_idle (hanchor ▸ h), hanchor]

/-- FAULT_RETRY takes its link to OFF, without the failures and the clock model of before. -/
theorem exec_faultRetry_leaves {s : State} {l fc : Nat} (hr : running s = true) (hl : l < 10)
    (hfc : (anchorAt s l).faultFc = some fc) (hst : (anchorAt s l).state = .fault) (hdue : fc + 1000 ≤ fcNow s) :
    ∃ t, exec (.faultRetry l) s = .next t ∧ (anchorAt t l).state = .off ∧ (anchorAt t l).faultFc = none
      ∧ (anchorAt t l).micFcs = [] ∧ (anchorAt t l).pairs = [] ∧ (∀ k, k ≠ l → anchorAt t k = anchorAt s k) ∧ t.p = s.p := by
  have hne : (anchorAt (modAnchor s l fun a => { a with faultFc := none, micFcs := [] }) l).state ≠ .off := by
    simp [hst]
  refine ⟨_, (if_pos hl).trans (congrArg Host.Outcome.next (opFaultRetry_retries hr hfc hst hdue)), ?_⟩
  rw [anchorAt_setAnchor_off _ hne, anchorAt_modAnchor_same]
  exact ⟨rfl, rfl, rfl, rfl,
    fun k hk => (anchorAt_setAnchor_other _ _ _ hk).trans (anchorAt_modAnchor_other s _ hk), setAnchor_p ..⟩

/-- Settles O59, event by event: the equation of the event, and what it leaves of the links. -/
theorem buoyEventsComplete : Obligations.BuoyEventsComplete := by
  unfold Obligations.BuoyEventsComplete
  refine ⟨fun s f hr hl hphy hf hmic hctr => exec_uplink_captures (c := .hello f) rfl hr hl hphy hf hmic hctr,
    fun s f hr hl hphy hf hmic hctr => exec_uplink_captures (c := .syncResp f) rfl hr hl hphy hf hmic hctr,
    fun s f hr hl hphy hf hmic hctr => exec_uplink_captures (c := .report f) rfl hr hl hphy hf hmic hctr,
    fun s f hr hl hphy hf hmic hctr => exec_uplink_captures (c := .relayAck f) rfl hr hl hphy hf hmic hctr,
    fun s hr hw haway => exec_syncReq_leaves hr hw haway,
    fun s fc period hr hp hfc h9 =>
      ⟨_, congrArg Host.Outcome.next (opReportDeadline_notes hr hp hfc h9), rfl, rfl, rfl⟩,
    fun s l v hr hl hv hdue => ?resend, fun s l up lv hr hl h => ?phy, fun s l cls hr hl hoff hst => ?detection,
    fun s l hr hl h => ?overload, fun s l hr hl hshed hm => ?restore,
    fun s l fc hr hl hfc hst hdue => exec_faultRetry_leaves hr hl hfc hst hdue⟩
  case resend =>
    obtain ⟨t, h, ha, hframe⟩ := exec_changes_one_link (c := .relayResend l)
      ((if_pos hl).trans (congrArg Host.Outcome.next (opRelayResend_goesBack hr hv hdue)))
    exact ⟨t, h, congrArg AnchorLive.relay ha, (congrArg AnchorLive.state ha :), hframe⟩
  case phy =>
    obtain ⟨t, h, ha, hframe⟩ := exec_captures_one_link (c := .phyLinkChange l up lv)
      ((if_pos hl).trans (congrArg Host.Outcome.next (opPhyLinkChange_changes hr lv h)))
    exact ⟨t, h, congrArg AnchorLive.phy ha, congrArg AnchorLive.level24 ha, (congrArg AnchorLive.state ha :), hframe⟩
  case detection =>
    obtain ⟨t, h, ha, hframe⟩ := exec_changes_one_link (c := .podlDetection l cls)
      ((if_pos hl).trans (congrArg Host.Outcome.next (opPodlDetection_notes hr cls hoff hst)))
    refine ⟨t, h, congrArg AnchorLive.pdClass ha, (congrArg AnchorLive.podlOn ha).trans hoff, ?_,
      congrArg AnchorLive.classRefused ha, hframe⟩
    rw [ha]
    simp [classNoted]
  case overload =>
    obtain ⟨t, h, ha, hframe⟩ := exec_captures_one_link (c := .podlOverload l)
      ((if_pos hl).trans (congrArg Host.Outcome.next (opPodlOverload_cuts hr h)))
    exact ⟨t, h, congrArg AnchorLive.podlOn ha, congrArg AnchorLive.granted ha, congrArg AnchorLive.phy ha, hframe⟩
  case restore =>
    obtain ⟨t, h, ha, hframe⟩ := exec_changes_one_link (c := .podlRestore l)
      ((if_pos hl).trans (congrArg Host.Outcome.next (opPodlRestore_restores hr hshed hm)))
    exact ⟨t, h, congrArg AnchorLive.shed ha, congrArg AnchorLive.marginFc ha, (congrArg AnchorLive.state ha :), hframe⟩

end Sys2Proof.Machine
end

section
/-! PROOFS. The SESS commands: the settings, the classes, enrolment and the two readings of the robot sessions. For each row a
lemma says what it comes to once its checks have passed. -/

namespace Sys2Proof.Machine

open Sys2Proof

/-! ### The sessions through a change of the reservation table -/

theorem detectWay_edtor (s : State) (i : Nat) : (detectWay s i).edtor = s.edtor := by
  unfold detectWay
  split <;> rfl

theorem detectKeys_edtor (s : State) (keys : List Key) : (detectKeys s keys).edtor = s.edtor :=
  by
  unfold detectKeys
  split
  · rfl
  · exact foldl_keeps State.edtor detectWay _ _ detectWay_edtor

theorem removeKey_edtor (s : State) (k : Key) : (removeKey s k).edtor = s.edtor := by
  unfold removeKey
  repeat' split
  all_goals rfl

theorem removeKeys_edtor (s : State) (keys : List Key) : (removeKeys s keys).edtor = s.edtor :=
  (foldl_keeps State.edtor removeKey keys _ removeKey_edtor).trans (detectKeys_edtor s keys)

theorem unlockHold_edtor (s : State) (h : HoldRec) : (unlockHold s h).edtor = s.edtor := by
  unfold unlockHold
  split
  · rfl
  · exact removeKeys_edtor ..

theorem removeHold_edtor (s : State) (r : Request) (n : Nat) : (removeHold s r n).edtor = s.edtor := by
  unfold removeHold
  split
  · rfl
  · exact unlockHold_edtor ..

theorem revokeRobot_edtor (s : State) (i : Nat) : (revokeRobot s i).edtor = s.edtor := by
  simp only [revokeRobot]
  split <;> rfl

/-! ### The changes of the rows -/

/-- What an enrolment changes besides its commit: the place `k` of the Robot Presence Table and session `i` (R278, R287). -/
def enrolSession (r : Request) (i k : Nat) (u : State) : State :=
  tagSess (enrolRobot (rptEnrol u k i (BitVec.ofNat 64 (fld r.payload 0 8))) i (fld r.payload 8 1)
    (BitVec.ofNat 64 (fld r.payload 0 8))) i r

/-- The LOST hold of a session taken off its robot, which is ENROLLED again where it was LOST (R283, R289). -/
def endLostHold (r : Request) (i : Nat) (s : State) : State :=
  let u : State := { s with p.robots := tmod s.p.robots i {} fun x => { x with lostHold := false } }
  if (robotRec u i).sstate == .lost then tagSess (setSState u i .enrolled 0x0C) i r else u

theorem endLostHold_edtor (r : Request) (i : Nat) (s : State) : (endLostHold r i s).edtor = s.edtor := by
  simp only [endLostHold]
  split <;> rfl

section
variable {r : Request} {s : State} (hl : live s r = true)
include hl

/-- A command that executes is answered whatever it commits on. -/
theorem answerable_committed (objs : List (Nat × Nat)) : Answerable (committed (takeLatched s r) objs) r :=
  (live_answerable hl).congr rfl

/-- SESS_CONFIG with its checks passed (R284). -/
theorem opSessConfig_changes (hlen : r.payload.length = 16) (hz : zeros r.payload 8 8 = true) (hn : allZero r.payload = false)
    (hr : supOk s r = true) (hm : inModes s mCfg = true) (hok : sessCfgOk (sessCfgFrom s.p.sessCfg r.payload) = true) :
    opSessConfig r s = change1 (takeLatched s r) r siteObj
      (fun u => { u with p.sessCfg := sessCfgFrom s.p.sessCfg r.payload }) (fun u => sessCfgBytes u.p.sessCfg) := by
  unfold opSessConfig
  exact (runOp_changes hl (beq_iff_eq.mpr hlen) hz hr hm hn).trans (need_passes _ hok)

/-- SESS_CLASS_SET with its checks passed (R263, R285). -/
theorem opSessClassSet_changes (hlen : r.payload.length = 48) (hz : classRsv r.payload = true) (hr : supOk s r = true)
    (hm : inModes s (mCfg ++ [.breeze, .drift, .lull, .squall]) = true) (hi : fld r.payload 0 1 < 32)
    (hok : (!bit (classFrom r.payload).flags 0 || classOk (classFrom r.payload)) = true)
    (hfree : (!(classUsed s (fld r.payload 0 1) && (!bit (classFrom r.payload).flags 0 || !inModes s mCfg))) = true) :
    opSessClassSet r s = change1 (takeLatched s r) r (okClass, fld r.payload 0 1)
      (fun u => { u with p.classes := tput u.p.classes (fld r.payload 0 1) (classFrom r.payload) }) fun _ => [] := by
  rw [opSessClassSet, runOp_passes _ hl (beq_iff_eq.mpr hlen) hz hr hm]
  exact (need_passes _ (Bool.and_eq_true_iff.mpr ⟨decide_eq_true hi, hok⟩)).trans (need_passes (s := takeLatched s r) _ hfree)

/-- SESS_CLASS_GET of a class there is (R286). -/
theorem opSessClassGet_answers (hlen : r.payload.length = 4) (hz : zeros r.payload 1 3 = true) (hm : edt s 0x0604 = true)
    (hi : fld r.payload 0 1 < 32) :
    opSessClassGet r s
      = finish (takeLatched s r) r stOk (classBytes (fld r.payload 0 1) (tgetD s.p.classes (fld r.payload 0 1) {})) := by
  rw [opSessClassGet, runOp_passes _ hl (beq_iff_eq.mpr hlen) hz rfl hm]
  exact need_passes _ (decide_eq_true hi)

/-- SESS_ENROL with its checks passed is one change of the robot session it takes (R278, R287). -/
theorem opSessEnrol_enrols {i k : Nat} (hlen : r.payload.length = 16) (hz : zeros r.payload 10 6 = true) (hr : supOk s r = true)
    (hm : inModes s mEnrol = true) (hcls : bit (tgetD s.p.classes (fld r.payload 8 1) {}).flags 0 = true)
    (hfree : (fld r.payload 9 1 == 0xFF || (robotRec s (fld r.payload 9 1)).sstate == .free) = true)
    (hnew : (sessionOfEui s (BitVec.ofNat 64 (fld r.payload 0 8))).isNone = true) (hi : enrolAt s (fld r.payload 9 1) = some i)
    (hk : enrolPlace s (BitVec.ofNat 64 (fld r.payload 0 8)) = some k) :
    opSessEnrol r s = change1 (takeLatched s r) r (okRobot, i) (enrolSession r i k) fun _ => le 1 i ++ zb 3 := by
  have hi' : enrolAt (takeLatched s r) (fld r.payload 9 1) = some i := hi
  have hk' : enrolPlace (takeLatched s r) (BitVec.ofNat 64 (fld r.payload 0 8)) = some k := hk
  rw [opSessEnrol, runOp_passes _ hl (beq_iff_eq.mpr hlen) hz hr hm]
  refine (need_passes (s := takeLatched s r) _ (Bool.and_eq_true_iff.mpr ⟨hcls, hfree⟩)).trans
    ((need_passes (s := takeLatched s r) _ hnew).trans ?_)
  simp only [hi', hk']
  rfl

/-- SESS_REVOKE of an ENROLLED or LOST session without a LOST hold (R288). -/
theorem opSessRevoke_revokes (hlen : r.payload.length = 4) (hz : zeros r.payload 1 3 = true) (hr : supOk s r = true)
    (hm : inModes s mEnrol = true)
    (hst : (robotRec s (fld r.payload 0 1)).sstate = .enrolled ∨ (robotRec s (fld r.payload 0 1)).sstate = .lost)
    (hhold : (robotRec s (fld r.payload 0 1)).lostHold = false) :
    opSessRevoke r s = change1 (takeLatched s r) r (okRobot, fld r.payload 0 1)
      (fun u => tagSess (revokeRobot u (fld r.payload 0 1)) (fld r.payload 0 1) r) fun _ => [] := by
  have hused : ((robotRec s (fld r.payload 0 1)).sstate != .free) = true := by
    rcases hst with h | h <;> rw [h] <;> rfl
  have hends : (((robotRec s (fld r.payload 0 1)).sstate == .enrolled || (robotRec s (fld r.payload 0 1)).sstate == .lost)
      && !(robotRec s (fld r.payload 0 1)).lostHold) = true := by
    rw [hhold]
    rcases hst with h | h <;> rw [h] <;> rfl
  rw [opSessRevoke, runOp_passes _ hl (beq_iff_eq.mpr hlen) hz hr hm]
  exact (need_passes (s := takeLatched s r) _ hused).trans (need_passes (s := takeLatched s r) _ hends)

/-- SESS_RELEASE of a session with a LOST hold is one change of the robot session and its hold (R283, R289). -/
theorem opSessRelease_releases (hlen : r.payload.length = 4) (hz : zeros r.payload 1 3 = true) (hr : supOk s r = true)
    (hm : inModes s [.calm, .zephyr, .breeze, .drift, .lull, .squall, .watch] = true)
    (hhold : (robotRec s (fld r.payload 0 1)).lostHold = true) :
    opSessRelease r s = changeAll (takeLatched s r) r [(okRobot, fld r.payload 0 1), (okHold, 256 + fld r.payload 0 1)]
      (fun u => removeHold (endLostHold r (fld r.payload 0 1) u) r (256 + fld r.payload 0 1)) stOk fun _ => [] := by
  rw [opSessRelease, runOp_passes _ hl (beq_iff_eq.mpr hlen) hz hr hm]
  exact need_passes (s := takeLatched s r) _ hhold

/-- SESS_GET of a session it names (R290). -/
theorem opSessGet_answers {i : Nat} (hlen : r.payload.length = 16)
    (hz : (zeros r.payload 2 6 && (fld r.payload 0 1 != 1 || zeros r.payload 8 8)
      && (fld r.payload 0 1 != 2 || zeros r.payload 1 1)) = true)
    (hm : edt s 0x0620 = true) (hi : sessNamed s r.payload = some i) :
    opSessGet r s = finish (takeLatched s r) r stOk (sessReply s i) := by
  have hi' : sessNamed (takeLatched s r) r.payload = some i := hi
  rw [opSessGet, runOp_passes _ hl (beq_iff_eq.mpr hlen) hz rfl hm]
  simp only [hi']
  rfl

/-- SESS_LIST answers in two fragments, of sessions 0 to 173 and of 174 to 255 (R291). -/
theorem opSessList_streams (hp : r.payload = []) (hm : edt s 0x0621 = true) :
    opSessList r s = finishFrags (takeLatched s r) r
      [(List.range 174).flatMap (sessEntry s), ((List.range 82).map (· + 174)).flatMap (sessEntry s)] 2 :=
  runOp_passes _ hl (by rw [hp]; rfl) rfl rfl hm

end

/-- Settles O26: the rows that write come to one commit and their change, the reads to their answers. -/
theorem sessCommandsTakeEffect : Obligations.SessCommandsTakeEffect := by
  unfold Obligations.SessCommandsTakeEffect
  refine ⟨fun r s hl hc hlen hz hn hr hm hok => ?config, fun r s hl hc hlen hz hr hm hi hok hfree => ?classSet,
    fun r s hl hlen hz hm hi => ends_of_finish (c := .sessClassGet r)
      (congrArg Host.Outcome.next (opSessClassGet_answers hl hlen hz hm hi)) rfl (live_answerable hl),
    fun r s i k hl hc hlen hz hr hm hcls hfree hnew hi hk => ?enrol, fun r s hl hc hlen hz hr hm hst hhold => ?revoke,
    fun r s hl hlen hz hr hm hhold hc => ?release,
    fun r s i hl hlen hz hm hi => ends_of_finish (c := .sessGet r)
      (congrArg Host.Outcome.next (opSessGet_answers hl hlen hz hm hi)) rfl (live_answerable hl),
    fun r s hl hp hm => streams_of_finishFrags (c := .sessList r)
      (congrArg Host.Outcome.next (opSessList_streams hl hp hm))⟩
  all_goals have hfog : mramFog s = false := mramFog_of_inModes hm rfl
  case config =>
    rw [commit_eq (s := takeLatched s r) _ _ hfog]
    exact ends_of_siteChange (c := .sessConfig r)
      (congrArg Host.Outcome.next (opSessConfig_changes hl hlen hz hn hr hm hok)) hl hc (fun _ => rfl) hfog
  case classSet =>
    rw [commit_eq (s := takeLatched s r) _ _ hfog]
    exact ends_of_change1 (c := .sessClassSet r)
      (congrArg Host.Outcome.next (opSessClassSet_changes hl hlen hz hr hm hi hok hfree)) hc hfog
      ((live_answerable hl).congr rfl)
  case enrol =>
    rw [commit_eq (s := takeLatched s r) _ _ hfog]
    exact ends_of_change1 (c := .sessEnrol r) (f := enrolSession r i k)
      (congrArg Host.Outcome.next (opSessEnrol_enrols hl hlen hz hr hm hcls hfree hnew hi hk)) hc hfog
      ((live_answerable hl).congr rfl)
  case revoke =>
    rw [commit_eq (s := takeLatched s r) _ _ hfog]
    exact ends_of_change1 (c := .sessRevoke r)
      (congrArg Host.Outcome.next (opSessRevoke_revokes hl hlen hz hr hm hst hhold)) hc hfog
      ((answerable_committed hl _).congr (congrArg Edtor.sessions (revokeRobot_edtor ..)))
  case release =>
    dsimp only
    rw [commitAll_eq (s := takeLatched s r) _ _ hfog]
    exact ends_of_changeAll (c := .sessRelease r)
      (congrArg Host.Outcome.next (opSessRelease_releases hl hlen hz hr hm hhold)) hc hfog rfl
      ((answerable_committed hl _).congr (congrArg Edtor.sessions ((removeHold_edtor ..).trans (endLostHold_edtor ..))))

end Sys2Proof.Machine
end

section
/-! PROOFS. The events of the robots: the messages taken in their windows and the rows that age robots. -/

namespace Sys2Proof.Machine

open Sys2Proof

/-! ### Each event in its window (R266, R268, R273, R279, R281, R346, R432, R433) -/

/-- The windows before PLAN, as PLAN_REQ asks for them. -/
theorem window_before_plan {w : Window} (h : windowCode w ≤ 3) :
    (w == .latch || w == .safe || w == .solve || w == .command) = true := by
  cases w <;> simp [windowCode] at h ⊢

section
variable {s u : State} {m : AirMsg} (hr : running s = true)
include hr

/-- An event that acts in one window alone does its work there while the firmware runs. -/
theorem acts_in_window {w : Window} {t : State} (hw : s.clk.window = w) :
    (if !running s || s.clk.window != w then s else t) = t :=
  if_neg (by simp [hr, hw])

/-- An event of LATCH and SAFE does its work in either while the firmware runs. -/
theorem acts_in_latch_or_safe {t : State} (hw : s.clk.window = .latch ∨ s.clk.window = .safe) :
    (if !running s || !(s.clk.window == .latch || s.clk.window == .safe) then s else t) = t :=
  if_neg (by simpa [hr, ← or_iff_not_imp_left] using hw)

theorem opAssocReq_takes (hw : s.clk.window = .command) (hm : takeMsg s 0x10 = some (m, u)) :
    opAssocReq s = answerAssoc u m := by
  simp only [opAssocReq, hm]
  exact acts_in_window hr hw

theorem opAssocConfirm_takes (hw : s.clk.window = .command) (hm : takeMsg s 0x12 = some (m, u)) :
    opAssocConfirm s = confirmAssoc u m := by
  simp only [opAssocConfirm, hm]
  exact acts_in_window hr hw

theorem opPositionReport_takes (hw : s.clk.window = .latch ∨ s.clk.window = .safe) (hm : takeMsg s 0x20 = some (m, u)) :
    opPositionReport s = applyReport u m := by
  simp only [opPositionReport, hm]
  exact acts_in_latch_or_safe hr hw

theorem opSleep_takes (hw : s.clk.window = .latch ∨ s.clk.window = .safe) (hm : takeMsg s 0x28 = some (m, u)) :
    opSleep s = applySleep u m := by
  simp only [opSleep, hm]
  exact acts_in_latch_or_safe hr hw

/-- PLAN_REQ acts in every window before PLAN. -/
theorem opPlanReq_takes (hw : windowCode s.clk.window ≤ 3) (hm : takeMsg s 0x21 = some (m, u)) :
    opPlanReq s = applyPlanReq u m := by
  simp only [opPlanReq, hm]
  exact if_neg (by rw [hr, window_before_plan hw]; decide)

end

/-- Settles O41: each event by what it does in its window once its guard has passed. -/
theorem robotEventsAct : Obligations.RobotEventsAct := by
  unfold Obligations.RobotEventsAct
  exact ⟨fun s m u hr hw hm => congrArg Host.Outcome.next (opAssocReq_takes hr hw hm),
    fun s m u hr hw hm => congrArg Host.Outcome.next (opAssocConfirm_takes hr hw hm),
    fun s m u hr hw hm => congrArg Host.Outcome.next (opPositionReport_takes hr (.inl hw) hm),
    fun s m u hr hw hm => congrArg Host.Outcome.next (opSleep_takes hr (.inr hw) hm),
    fun s m u hr hw hm => congrArg Host.Outcome.next (opPlanReq_takes hr (by rw [hw]; decide) hm),
    fun s hr hw => congrArg Host.Outcome.next (acts_in_window hr hw),
    fun s hr hw => congrArg Host.Outcome.next (acts_in_window hr hw),
    fun s hr hw => congrArg Host.Outcome.next (acts_in_window hr hw),
    fun s hr hw => congrArg Host.Outcome.next (acts_in_window hr hw)⟩

/-! ### A confirmation that comes too late -/

/-- A confirmation latched more than 50 FCs after its response changes nothing (R266). -/
theorem confirmAssoc_late {s : State} {m : AirMsg} {i : Nat} (hi : sessionOfEui s m.eui = some i)
    (hlen : m.body.length = 20) (hz : zeros m.body 2 2 = true) (hn : slice m.body 4 16 = (robotAt s i).deviceNonce)
    (hlate : (robotAt s i).respFc + 50 < fcNow s) : confirmAssoc s m = s := by
  simp [confirmAssoc, hi, hlen, hz, hn, hlate]

/-- An ASSOC_CONFIRM with RESULT 0x00 of the robot whose EUI-64 and DEVICE_NONCE are 0. -/
def zeroConfirm : AirMsg := { body := le 1 0x12 ++ zb 19, kind := 1 }

/-- COMMAND of FC 51: session 0 has waited for its confirmation since the response of FC 0, and no message waits. -/
def overdueAssoc : State :=
  { State.reset with
    mode.cur := .breeze
    clk.window := .command
    clk.fcNumber := 51
    p.robots := [(0, { sstate := .associating })]
    sess.robots := [(0, { deviceNonce := zb 16 })] }

/-- The confirmation waits there. -/
def overdueConfirm : State := { overdueAssoc with radio.msgs := [zeroConfirm] }

theorem takeMsg_overdueConfirm : takeMsg overdueConfirm 0x12 = some (zeroConfirm, overdueAssoc) := by decide

theorem sessionOfEui_overdueAssoc : sessionOfEui overdueAssoc zeroConfirm.eui = some 0 := by decide

/-- The confirmation is taken and changes nothing else. -/
theorem exec_overdueConfirm : exec .assocConfirm overdueConfirm = .next overdueAssoc :=
  congrArg Host.Outcome.next ((opAssocConfirm_takes rfl rfl takeMsg_overdueConfirm).trans
    (confirmAssoc_late sessionOfEui_overdueAssoc rfl (by decide) (by decide) (by decide)))

/-- Refutes O51: its clause on ASSOC_CONFIRM has no bound on the age of the response, and R266 gives a confirmation 50 FCs. In
`overdueConfirm` one of an association 51 FCs old is taken, and the session stays ASSOCIATING. -/
theorem not_robotEventsComplete : ¬ Obligations.RobotEventsComplete := by
  unfold Obligations.RobotEventsComplete
  rintro ⟨-, hconfirm, -⟩
  obtain ⟨t, ht, hst, -⟩ := hconfirm overdueConfirm zeroConfirm overdueAssoc 0 rfl rfl takeMsg_overdueConfirm
    sessionOfEui_overdueAssoc rfl (by decide) rfl (by decide) (by decide) rfl
  rw [Host.Outcome.next.inj (ht.symm.trans exec_overdueConfirm)] at hst
  exact absurd hst (by decide)

end Sys2Proof.Machine
end

section
/-! PROOFS. What leaves the reservation table alone (R295, R298). `tableWf` is taken as a view of the state, in the manner of
`bedrock`: one lemma for each function of the model that writes no way of the table says that it keeps the view, in the order
of the model's files. They are simp lemmas, so each follows from the function's body and from those of the functions it calls. -/

namespace Sys2Proof.Machine

open Sys2Proof

/-! ### The table, as a view of the state -/

@[simp] theorem tableWf_mk (pending freeCtr fuse flash p nv bk clk cores mode supply edtor com queues time gnss ref buoy sess strt
    holds allot stop radio can ports sec upd) :
    tableWf (State.mk pending freeCtr fuse flash p nv bk clk cores mode supply edtor com queues time gnss ref buoy sess strt
      holds allot stop radio can ports sec upd) = waysWf strt.ways := by unfold tableWf; rfl

@[simp] theorem tableWf_fold (s : State) : waysWf s.strt.ways = tableWf s := by unfold tableWf; rfl

@[simp] theorem tableWf_ite (c : Prop) {_ : Decidable c} (s t : State) :
    tableWf (if c then s else t) = if c then tableWf s else tableWf t := apply_ite ..

@[simp] theorem tableWf_foldl {β : Type} {f : State → β → State} (h : ∀ u b, tableWf (f u b) = tableWf u)
    (l : List β) (s : State) :
    tableWf (l.foldl f s) = tableWf s := foldl_keeps tableWf f l s h


/-! ### Shared operations -/

@[simp] theorem commit_tableWf (s : State) (kind idx : Nat) : tableWf (commit s kind idx) = tableWf s := by
  simp [commit]

@[simp] theorem commitAll_tableWf (s : State) (objs : List (Nat × Nat)) : tableWf (commitAll s objs) = tableWf s := by
  simp only [commitAll]
  split <;> simp

@[simp] theorem commitBy_tableWf (s : State) (origin kind idx : Nat) : tableWf (commitBy s origin kind idx) = tableWf s := by
  simp [commitBy]

@[simp] theorem commitAllBy_tableWf (s : State) (origin : Nat) (objs : List (Nat × Nat)) :
    tableWf (commitAllBy s origin objs) = tableWf s := by
  simp [commitAllBy]

@[simp] theorem submit_tableWf (s : State) (origin kind idx : Nat) : tableWf (submit s origin kind idx) = tableWf s := by
  simp [submit]

@[simp] theorem freshNat_tableWf (s : State) : tableWf (freshNat s).2 = tableWf s := by
  simp [freshNat]

@[simp] theorem freshBytes_tableWf (s : State) (n : Nat) : tableWf (freshBytes s n).2 = tableWf s := by
  simp [freshBytes]

@[simp] theorem raiseAt_tableWf (s : State) (code : Nat) (aud : Audience) (t : Nat) (payload : Bytes) :
    tableWf (raiseAt s code aud t payload) = tableWf s := by
  simp [raiseAt]

@[simp] theorem raise_tableWf (s : State) (code : Nat) (aud : Audience) (payload : Bytes) :
    tableWf (raise s code aud payload) = tableWf s := by
  simp [raise]

@[simp] theorem raiseLater_tableWf (s : State) (code : Nat) (aud : Audience) (t : Nat) (payload : Bytes) :
    tableWf (raiseLater s code aud t payload) = tableWf s := by
  simp [raiseLater]

@[simp] theorem raiseBy_tableWf (s : State) (r : Request) (code : Nat) (aud : Audience) (payload : Bytes) :
    tableWf (raiseBy s r code aud payload) = tableWf s := by
  simp [raiseBy]

@[simp] theorem modSession_tableWf (s : State) (slot : Nat) (f : Session → Session) :
    tableWf (modSession s slot f) = tableWf s := by
  simp [modSession]

@[simp] theorem record_tableWf (s : State) (r : Request) (final : Bool) (intr status planned : Nat) :
    tableWf (record s r final intr status planned) = tableWf s := by
  simp [record]

@[simp] theorem raiseWith_tableWf (s : State) (csn : Nat) (tag : Option (Nat × Nat)) (code : Nat) (aud : Audience)
    (payload : Bytes) :
    tableWf (raiseWith s csn tag code aud payload) = tableWf s := by
  simp [raiseWith]

@[simp] theorem countViol_tableWf (s : State) (slot : Nat) (port : Port) (i : Nat) (executing : Bool) :
    tableWf (countViol s slot port i executing) = tableWf s := by
  simp [countViol]

@[simp] theorem countStatus_tableWf (s : State) (r : Request) (status : Nat) : tableWf (countStatus s r status) = tableWf s := by
  simp only [countStatus]
  split <;> simp

@[simp] theorem queueReply_tableWf (s : State) (r : Request) (k : Packet) : tableWf (queueReply s r k) = tableWf s := by
  simp [queueReply]

@[simp] theorem finishI_tableWf (s : State) (r : Request) (intr status : Nat) (payload : Bytes) :
    tableWf (finishI s r intr status payload) = tableWf s := by
  simp [finishI]

@[simp] theorem refuseMode_tableWf (s : State) (r : Request) : tableWf (refuseMode s r) = tableWf s := by
  simp [refuseMode]

@[simp] theorem finish_tableWf (s : State) (r : Request) (status : Nat) (payload : Bytes) :
    tableWf (finish s r status payload) = tableWf s := by
  simp [finish]

@[simp] theorem accept_tableWf (s : State) (r : Request) (planned : Nat) (payload : Bytes) :
    tableWf (accept s r planned payload) = tableWf s := by
  simp [accept]

@[simp] theorem deferred_tableWf (s : State) (r : Request) (payload : Bytes) : tableWf (deferred s r payload) = tableWf s := by
  simp [deferred]

@[simp] theorem finishFrags_tableWf (s : State) (r : Request) (parts : List Bytes) (perFc : Nat) :
    tableWf (finishFrags s r parts perFc) = tableWf s := by
  simp [finishFrags]

@[simp] theorem checkCsn_tableWf (s : State) (r : Request) (objs : List (Nat × Nat)) (k : State → State) :
    tableWf (checkCsn s r objs k) = if (r.expect.bind fun e => changedSince s e objs).isNone then tableWf (k s)
      else tableWf s := by
  unfold checkCsn
  cases r.expect with
  | none => rfl
  | some e => cases h : changedSince s e objs <;> simp [h]

@[simp] theorem trigger_tableWf (s : State) (t : Trigger) : tableWf (trigger s t) = tableWf s := by
  simp [trigger]

@[simp] theorem triggerLater_tableWf (s : State) (t : Trigger) : tableWf (triggerLater s t) = tableWf s := by
  simp [triggerLater]

/-! ### The shape in which an opcode is executed -/

@[simp] theorem carry_tableWf (s : State) (r : Request) : tableWf (carry s r) = tableWf s := by
  simp [carry]

@[simp] theorem takeLatched_tableWf (s : State) (r : Request) : tableWf (takeLatched s r) = tableWf s := by
  simp [takeLatched]

@[simp] theorem runOp_tableWf (s : State) (r : Request) (lenOk rsvOk roleOk modeOk : Bool) (body : State → State) :
    tableWf (runOp s r lenOk rsvOk roleOk modeOk body) =
      if live s r && lenOk && rsvOk && roleOk && modeOk then tableWf (body (takeLatched s r)) else tableWf s := by
  unfold runOp
  cases live s r <;> cases lenOk <;> cases rsvOk <;> cases roleOk <;> cases modeOk <;> simp

/-- A row keeps the view where its body does. -/
theorem runOp_keeps {s : State} {r : Request} {a b c d : Bool} {body : State → State}
    (h : tableWf (body (takeLatched s r)) = tableWf s) : tableWf (runOp s r a b c d body) = tableWf s := by
  simp [h]

theorem need_keeps {c : Bool} {s u : State} {r : Request} {st : Nat} {k : State → State} (hu : tableWf u = tableWf s)
    (h : tableWf (k u) = tableWf s) : tableWf (need c u r st k) = tableWf s := by
  unfold need
  split
  · exact h
  · exact (finish_tableWf ..).trans hu

@[simp] theorem readOp_tableWf (s : State) (r : Request) (opcode : Nat) (reply : State → Bytes) :
    tableWf (readOp s r opcode reply) = tableWf s := by
  simp [readOp]

@[simp] theorem need_tableWf (c : Bool) (s : State) (r : Request) (status : Nat) (k : State → State) :
    tableWf (need c s r status k) = if c then tableWf (k s) else tableWf s := by
  simp [need]

@[simp] theorem change1_tableWf (s : State) (r : Request) (obj : Nat × Nat) (f : State → State) (reply : State → Bytes) :
    tableWf (change1 s r obj f reply) =
      if (r.expect.bind fun e => changedSince s e [obj]).isNone then tableWf (f (commit s obj.1 obj.2)) else tableWf s := by
  simp [change1]

@[simp] theorem changeAll_tableWf (s : State) (r : Request) (objs : List (Nat × Nat)) (f : State → State) (status : Nat)
    (reply : State → Bytes) :
    tableWf (changeAll s r objs f status reply) =
      if (r.expect.bind fun e => changedSince s e objs).isNone then tableWf (f (commitAll s objs)) else tableWf s := by
  simp [changeAll]

/-! ### Air -/

@[simp] theorem queueMsg_tableWf (s : State) (cls : Nat) (session : Option Nat) (body : Bytes) :
    tableWf (queueMsg s cls session body) = tableWf s := by
  simp [queueMsg]

@[simp] theorem queueFragments_tableWf (s : State) (corr : Bool) (p : Bytes) : tableWf (queueFragments s corr p) = tableWf s := by
  simp [queueFragments]

@[simp] theorem noteSent_tableWf (s : State) (link : Nat) (capture : Counter) :
    tableWf (noteSent s link capture) = tableWf s := by
  simp [noteSent]

/-! ### Modes -/

@[simp] theorem requestStop_tableWf (s : State) (bit : Nat) : tableWf (requestStop s bit) = tableWf s := by
  simp [requestStop]

@[simp] theorem requestRobotStop_tableWf (s : State) (session cause : Nat) :
    tableWf (requestRobotStop s session cause) = tableWf s := by
  simp [requestRobotStop]

@[simp] theorem decideMode_tableWf (s : State) (target : Mode) (cause : Nat) (csn : Option Nat) (tag : Option (Nat × Nat)) :
    tableWf (decideMode s target cause csn tag) = tableWf s := by
  simp [decideMode]

@[simp] theorem evaluateTriggers_tableWf (s : State) : tableWf (evaluateTriggers s) = tableWf s := by
  simp only [evaluateTriggers]
  split <;> simp

@[simp] theorem applyMode_tableWf (s : State) (fc : Nat) : tableWf (applyMode s fc) = tableWf s := by
  simp only [applyMode]
  split <;> simp

/-! ### Crypto -/

@[simp] theorem cacheKey_tableWf (s : State) (entry gen : Nat) : tableWf (cacheKey s entry gen) = tableWf s := by
  simp [cacheKey]

/-! ### Journal -/

@[simp] theorem opJrnlQuery_tableWf (r : Request) (s : State) : tableWf (opJrnlQuery r s) = tableWf s := by
  simp [opJrnlQuery]

@[simp] theorem opJrnlEventRead_tableWf (r : Request) (s : State) : tableWf (opJrnlEventRead r s) = tableWf s := by
  simp [opJrnlEventRead]

/-! ### Queues -/

@[simp] theorem setQueue_tableWf (s : State) (q : Nat) (k : SpillQueue) : tableWf (setQueue s q k) = tableWf s := by
  simp [setQueue]

@[simp] theorem noteOccupancy_tableWf (s : State) (q : Nat) (p : QParam) (before : Nat) :
    tableWf (noteOccupancy s q p before) = tableWf s := by
  simp [noteOccupancy]

@[simp] theorem noteOverrun_tableWf (s : State) (q : Nat) (p : QParam) : tableWf (noteOverrun s q p) = tableWf s := by
  simp [noteOverrun]

@[simp] theorem admitFrame_tableWf (s : State) (q : Nat) (special : Bool) : tableWf (admitFrame s q special).2 = tableWf s := by
  simp only [admitFrame]
  (repeat' split) <;> simp

@[simp] theorem arrived_tableWf (s : State) (q before : Nat) : tableWf (arrived s q before) = tableWf s := by
  simp only [arrived]
  split <;> simp

@[simp] theorem noteQueue_tableWf (s : State) (q : Nat) : tableWf (noteQueue s q) = tableWf s := by
  simp only [noteQueue]
  split <;> simp

@[simp] theorem noteAll_tableWf (s : State) : tableWf (noteAll s) = tableWf s := by
  simp [noteAll]

@[simp] theorem resetCommandQueue_tableWf (s : State) (slot : Nat) : tableWf (resetCommandQueue s slot) = tableWf s := by
  simp [resetCommandQueue]

@[simp] theorem resetReplyQueue_tableWf (s : State) (slot : Nat) : tableWf (resetReplyQueue s slot) = tableWf s := by
  simp [resetReplyQueue]

@[simp] theorem resetEventQueue_tableWf (s : State) (slot : Nat) : tableWf (resetEventQueue s slot) = tableWf s := by
  simp [resetEventQueue]

@[simp] theorem resetCanTx_tableWf (s : State) (ch : Nat) : tableWf (resetCanTx s ch) = tableWf s := by
  simp [resetCanTx]

@[simp] theorem discardWork_tableWf (s : State) (q : Nat) : tableWf (discardWork s q) = tableWf s := by
  simp [discardWork]

@[simp] theorem resetQueue_tableWf (s : State) (q : Nat) (p : QParam) (cause : Nat) (reading : Bool) :
    tableWf (resetQueue s q p cause reading) = tableWf s := by
  simp [resetQueue]

@[simp] theorem persistBroken_tableWf (s : State) : tableWf (persistBroken s) = tableWf s := by
  simp [persistBroken]

@[simp] theorem faultQueue_tableWf (s : State) (q : Nat) (p : QParam) (cause : Nat) (reading : Bool) :
    tableWf (faultQueue s q p cause reading) = tableWf s := by
  simp [faultQueue]

@[simp] theorem writeRest_tableWf (s : State) (q : Nat) (p : QParam) (e : QEntry) (k : SpillQueue) :
    tableWf (writeRest s q p e k) = tableWf s := by
  simp [writeRest]

@[simp] theorem writeSop_tableWf (s : State) (q : Nat) (p : QParam) (e : QEntry) (special : Bool) (k : SpillQueue) :
    tableWf (writeSop s q p e special k) = tableWf s := by
  simp [writeSop]

@[simp] theorem writeWord_tableWf (s : State) (q : Nat) (p : QParam) (e : QEntry) (special : Bool) :
    tableWf (writeWord s q p e special) = tableWf s := by
  simp [writeWord]

@[simp] theorem opQueueWrite_tableWf (q : Nat) (e : QEntry) (special : Bool) (p : QParam) (s : State) :
    tableWf (opQueueWrite q e special p s) = tableWf s := by
  simp [opQueueWrite]

@[simp] theorem opQueueRead_tableWf (q : Nat) (p : QParam) (s : State) : tableWf (opQueueRead q p s) = tableWf s := by
  simp only [opQueueRead]
  (repeat' split) <;> simp

@[simp] theorem opDropRest_tableWf (q : Nat) (p : QParam) (s : State) : tableWf (opDropRest q p s) = tableWf s := by
  simp [opDropRest]

@[simp] theorem opHeadRefill_tableWf (q : Nat) (p : QParam) (s : State) : tableWf (opHeadRefill q p s) = tableWf s := by
  simp [opHeadRefill]

@[simp] theorem opQueueFault_tableWf (q : Nat) (dram reading : Bool) (p : QParam) (s : State) :
    tableWf (opQueueFault q dram reading p s) = tableWf s := by
  simp [opQueueFault]

/-! ### Ports -/

@[simp] theorem modIo_tableWf (s : State) (io : Nat) (f : AuxLive → AuxLive) : tableWf (modIo s io f) = tableWf s := by
  simp [modIo]

@[simp] theorem setOut_tableWf (s : State) (io : Nat) (v : Bool) : tableWf (setOut s io v) = tableWf s := by
  simp [setOut]

@[simp] theorem applyAuxSet_tableWf (s : State) : tableWf (applyAuxSet s) = tableWf s := by
  simp [applyAuxSet]

@[simp] theorem opAuxInput_tableWf (io : Nat) (level : Bool) (pclk : Nat) (s : State) :
    tableWf (opAuxInput io level pclk s) = tableWf s := by
  simp [opAuxInput]

@[simp] theorem opOutFault_tableWf (io pclk : Nat) (s : State) : tableWf (opOutFault io pclk s) = tableWf s := by
  simp [opOutFault]

@[simp] theorem opSvcEn_tableWf (active : Bool) (pclk : Nat) (s : State) : tableWf (opSvcEn active pclk s) = tableWf s := by
  simp [opSvcEn]

@[simp] theorem opVioLost_tableWf (present : Bool) (pclk : Nat) (s : State) : tableWf (opVioLost present pclk s) = tableWf s := by
  simp [opVioLost]

@[simp] theorem opPortLink_tableWf (port : Port) (up : Bool) (speed : Nat) (s : State) :
    tableWf (opPortLink port up speed s) = tableWf s := by
  simp [opPortLink]

@[simp] theorem portFrame_tableWf (s : State) (port : Port) : tableWf (portFrame s port).2 = tableWf s := by
  simp only [portFrame]
  split <;> simp

@[simp] theorem portOther_tableWf (s : State) (port : Port) : tableWf (portOther s port) = tableWf s := by
  simp [portOther]

@[simp] theorem opArpNdpEchoRequest_tableWf (port : Port) (kind : HostFrame) (s : State) :
    tableWf (opArpNdpEchoRequest port kind s) = tableWf s := by
  simp only [opArpNdpEchoRequest]
  (repeat' split) <;> simp

@[simp] theorem latchPorts_tableWf (s : State) : tableWf (latchPorts s) = tableWf s := by
  simp [latchPorts]

@[simp] theorem emitIo_tableWf (s : State) (io : Nat) (x : AuxLive) : tableWf (emitIo s io x) = tableWf s := by
  simp only [emitIo]
  split <;> simp

@[simp] theorem emitPort_tableWf (s : State) (port : Nat) (x : PortLive) : tableWf (emitPort s port x) = tableWf s := by
  simp [emitPort]

@[simp] theorem emitPorts_tableWf (s : State) : tableWf (emitPorts s) = tableWf s := by
  simp only [emitPorts]
  (repeat' split) <;> simp

@[simp] theorem opSysNetConfig_tableWf (r : Request) (s : State) : tableWf (opSysNetConfig r s) = tableWf s := by
  simp [opSysNetConfig]

@[simp] theorem opSysAuxConfig_tableWf (r : Request) (s : State) : tableWf (opSysAuxConfig r s) = tableWf s := by
  simp [opSysAuxConfig]

@[simp] theorem opSysAuxSet_tableWf (r : Request) (s : State) : tableWf (opSysAuxSet r s) = tableWf s := by
  simp [opSysAuxSet]

@[simp] theorem opSysPortStatus_tableWf (r : Request) (s : State) : tableWf (opSysPortStatus r s) = tableWf s := by
  simp [opSysPortStatus]

/-! ### Time -/

@[simp] theorem leaveLocked_tableWf (s : State) : tableWf (leaveLocked s) = tableWf s := by
  simp [leaveLocked]

@[simp] theorem loseReference_tableWf (s : State) : tableWf (loseReference s) = tableWf s := by
  simp only [loseReference]
  split <;> simp

@[simp] theorem acquireReference_tableWf (s : State) (ref : Nat) (x : Int) : tableWf (acquireReference s ref x) = tableWf s := by
  simp [acquireReference]

@[simp] theorem selectReference_tableWf (s : State) : tableWf (selectReference s) = tableWf s := by
  simp only [selectReference]
  (repeat' split) <;> simp

@[simp] theorem useMeasurement_tableWf (s : State) (x dy : Int) : tableWf (useMeasurement s x dy) = tableWf s := by
  simp [useMeasurement]

@[simp] theorem gnssMeasure_tableWf (s : State) (valid : Bool) (x : Int) (c : Counter) :
    tableWf (gnssMeasure s valid x c) = tableWf s := by
  simp [gnssMeasure]

@[simp] theorem measurePps_tableWf (s : State) (c : Counter) : tableWf (measurePps s c) = tableWf s := by
  simp only [measurePps]
  split <;> simp

@[simp] theorem latchPps_tableWf (s : State) : tableWf (latchPps s) = tableWf s := by
  simp [latchPps]

@[simp] theorem opPpsIn_tableWf (ftu : Nat) (rising wide : Bool) (s : State) :
    tableWf (opPpsIn ftu rising wide s) = tableWf s := by
  simp [opPpsIn]

@[simp] theorem enterTimeState_tableWf (s : State) : tableWf (enterTimeState s) = tableWf s := by
  simp only [enterTimeState]
  split <;> simp

@[simp] theorem ppsLoss_tableWf (s : State) (now : Nat) : tableWf (ppsLoss s now) = tableWf s := by
  simp only [ppsLoss]
  split <;> simp

@[simp] theorem latchReferences_tableWf (s : State) (b : Counter) : tableWf (latchReferences s b) = tableWf s := by
  simp [latchReferences]

@[simp] theorem settleTime_tableWf (s : State) (board : Int) : tableWf (settleTime s board) = tableWf s := by
  simp [settleTime]

@[simp] theorem emitTime_tableWf (s : State) : tableWf (emitTime s) = tableWf s := by
  simp [emitTime]

@[simp] theorem requestStep_tableWf (s : State) (q : StepReq) : tableWf (requestStep s q) = tableWf s := by
  simp [requestStep]

@[simp] theorem standingStep_tableWf (s : State) : tableWf (standingStep s) = tableWf s := by
  simp [standingStep]

@[simp] theorem opTimeStep_tableWf (r : Request) (s : State) : tableWf (opTimeStep r s) = tableWf s := by
  simp [opTimeStep]

@[simp] theorem opTimeGet_tableWf (r : Request) (s : State) : tableWf (opTimeGet r s) = tableWf s := by
  simp [opTimeGet]

@[simp] theorem opTimeConfig_tableWf (r : Request) (s : State) : tableWf (opTimeConfig r s) = tableWf s := by
  simp [opTimeConfig]

@[simp] theorem opPpsOut_tableWf (pclk : Nat) (s : State) : tableWf (opPpsOut pclk s) = tableWf s := by
  simp [opPpsOut]

@[simp] theorem opRtcSet_tableWf (pclk : Nat) (s : State) : tableWf (opRtcSet pclk s) = tableWf s := by
  simp [opRtcSet]

@[simp] theorem opZda_tableWf (pclk : Nat) (s : State) : tableWf (opZda pclk s) = tableWf s := by
  simp [opZda]

@[simp] theorem triggerAction_tableWf (s : State) (g : TimeTrigger) (c : Counter) :
    tableWf (triggerAction s g c) = tableWf s := by
  simp [triggerAction]

@[simp] theorem fireTrigger_tableWf (s : State) (id : Nat) (g : TimeTrigger) (pclk : Nat) :
    tableWf (fireTrigger s id g pclk) = tableWf s := by
  simp [fireTrigger]

@[simp] theorem tryFire_tableWf (s : State) (id pclk : Nat) : tableWf (tryFire s id pclk) = tableWf s := by
  simp only [tryFire]
  split <;> simp

@[simp] theorem opTimeTrigger_tableWf (id pclk : Nat) (s : State) : tableWf (opTimeTrigger id pclk s) = tableWf s := by
  simp only [opTimeTrigger]
  split <;> simp

@[simp] theorem opPulseEnd_tableWf (io pclk : Nat) (s : State) : tableWf (opPulseEnd io pclk s) = tableWf s := by
  simp only [opPulseEnd]
  split <;> simp

@[simp] theorem opTimeTriggerSet_tableWf (r : Request) (s : State) : tableWf (opTimeTriggerSet r s) = tableWf s := by
  simp [opTimeTriggerSet]

@[simp] theorem opTimeTriggerGet_tableWf (r : Request) (s : State) : tableWf (opTimeTriggerGet r s) = tableWf s := by
  simp [opTimeTriggerGet]

/-! ### Gnss -/

@[simp] theorem streamBoundary_tableWf (s : State) (stream : Nat) (i : StreamIn) :
    tableWf (streamBoundary s stream i) = tableWf s := by
  simp [streamBoundary]

@[simp] theorem antBoundary_tableWf (s : State) (a : Nat) (i : AntIn) : tableWf (antBoundary s a i) = tableWf s := by
  simp [antBoundary]

@[simp] theorem opAntShortRetry_tableWf (ant : Nat) (s : State) : tableWf (opAntShortRetry ant s) = tableWf s := by
  simp [opAntShortRetry]

@[simp] theorem modChan_tableWf (s : State) (c : Nat) (f : Channel → Channel) : tableWf (modChan s c f) = tableWf s := by
  simp only [modChan]
  split <;> simp

@[simp] theorem startSearches_tableWf (s : State) : tableWf (startSearches s) = tableWf s := by
  simp only [startSearches]
  refine (foldl_keeps tableWf _ _ _ fun u b => ?_).trans ?_ <;> simp
  (repeat' split) <;> simp

@[simp] theorem endSearches_tableWf (s : State) : tableWf (endSearches s) = tableWf s := by
  simp [endSearches]

@[simp] theorem opAcquisitionDone_tableWf (c pclk : Nat) (s : State) : tableWf (opAcquisitionDone c pclk s) = tableWf s := by
  simp only [opAcquisitionDone]
  split <;> simp

@[simp] theorem opCodeLock_tableWf (c pclk : Nat) (s : State) : tableWf (opCodeLock c pclk s) = tableWf s := by
  simp [opCodeLock]

@[simp] theorem opPhaseLock_tableWf (c pclk : Nat) (s : State) : tableWf (opPhaseLock c pclk s) = tableWf s := by
  simp [opPhaseLock]

@[simp] theorem opBitSynchronisation_tableWf (c : Nat) (message : Bool) (s : State) :
    tableWf (opBitSynchronisation c message s) = tableWf s := by
  simp [opBitSynchronisation]

@[simp] theorem opLossOfLock_tableWf (c : Nat) (code phase : Bool) (pclk : Nat) (s : State) :
    tableWf (opLossOfLock c code phase pclk s) = tableWf s := by
  simp [opLossOfLock]

@[simp] theorem assignChannels_tableWf (s : State) : tableWf (assignChannels s) = tableWf s := by
  simp only [assignChannels]
  split <;> simp

@[simp] theorem opEpochLatch_tableWf (e : EpochIn) (s : State) : tableWf (opEpochLatch e s) = tableWf s := by
  simp [opEpochLatch]

@[simp] theorem gnssBoundary_tableWf (s : State) (streams : List StreamIn) (ants : List AntIn) :
    tableWf (gnssBoundary s streams ants) = tableWf s := by
  simp [gnssBoundary]

@[simp] theorem opGnssConfig_tableWf (r : Request) (s : State) : tableWf (opGnssConfig r s) = tableWf s := by
  simp [opGnssConfig]

@[simp] theorem setCable_tableWf (s : State) (ant d : Nat) : tableWf (setCable s ant d) = tableWf s := by
  simp [setCable]

@[simp] theorem opGnssCalibrate_tableWf (r : Request) (s : State) : tableWf (opGnssCalibrate r s) = tableWf s := by
  simp [opGnssCalibrate]

@[simp] theorem opGnssCalibrationDone_tableWf (delay : Option Nat) (align : List Int) (s : State) :
    tableWf (opGnssCalibrationDone delay align s) = tableWf s := by
  simp only [opGnssCalibrationDone]
  (repeat' split) <;> simp

@[simp] theorem opGnssMeasRead_tableWf (r : Request) (s : State) : tableWf (opGnssMeasRead r s) = tableWf s := by
  unfold opGnssMeasRead
  exact runOp_keeps (by dsimp only; split <;> simp)

@[simp] theorem opGnssStatus_tableWf (r : Request) (s : State) : tableWf (opGnssStatus r s) = tableWf s := by
  simp [opGnssStatus]

@[simp] theorem opGnssNotchSet_tableWf (r : Request) (s : State) : tableWf (opGnssNotchSet r s) = tableWf s := by
  simp [opGnssNotchSet]

/-! ### Ref -/

@[simp] theorem crossCheck_tableWf (s : State) (e : Epoch) : tableWf (crossCheck s e) = tableWf s := by
  simp [crossCheck]

@[simp] theorem sendEpoch_tableWf (s : State) (e : Epoch) (ant : Nat) : tableWf (sendEpoch s e ant) = tableWf s := by
  simp [sendEpoch]

@[simp] theorem afterCells_tableWf (s : State) (e : Epoch) (ant : Nat) (sent : List Nat) :
    tableWf (afterCells s e ant sent) = tableWf s := by
  simp [afterCells]

@[simp] theorem correctionEpoch_tableWf (s : State) (e : Epoch) (ant tsol : Nat) :
    tableWf (correctionEpoch s e ant tsol) = tableWf s := by
  simp [correctionEpoch]

@[simp] theorem setBase_tableWf (s : State) (t : Vec) (bl : Option Vec) (reorient : Bool) (base : Nat) :
    tableWf (setBase s t bl reorient base) = tableWf s := by
  simp [setBase]

@[simp] theorem surveyEnd_tableWf (s : State) (v : Survey) (cause : Nat) (bl : Option Vec) :
    tableWf (surveyEnd s v cause bl) = tableWf s := by
  simp [surveyEnd]

@[simp] theorem surveyEpoch_tableWf (s : State) (e : Epoch) : tableWf (surveyEpoch s e) = tableWf s := by
  simp only [surveyEpoch]
  split <;> simp

@[simp] theorem solveEpoch_tableWf (s : State) : tableWf (solveEpoch s) = tableWf s := by
  simp only [solveEpoch]
  split <;> simp

@[simp] theorem refBoundary_tableWf (s : State) (wasA wasB : Nat) : tableWf (refBoundary s wasA wasB) = tableWf s := by
  simp [refBoundary]

@[simp] theorem emitRefState_tableWf (s : State) : tableWf (emitRefState s) = tableWf s := by
  simp [emitRefState]

@[simp] theorem emitRtcm_tableWf (s : State) : tableWf (emitRtcm s) = tableWf s := by
  simp [emitRtcm]

@[simp] theorem siteSent_tableWf (s : State) : tableWf (siteSent s) = tableWf s := by
  simp [siteSent]

@[simp] theorem opRefStatus_tableWf (r : Request) (s : State) : tableWf (opRefStatus r s) = tableWf s := by
  simp [opRefStatus]

@[simp] theorem opRefBaseSet_tableWf (r : Request) (s : State) : tableWf (opRefBaseSet r s) = tableWf s := by
  simp only [opRefBaseSet]
  (repeat' split) <;> simp

@[simp] theorem opRefConfig_tableWf (r : Request) (s : State) : tableWf (opRefConfig r s) = tableWf s := by
  simp [opRefConfig]

@[simp] theorem opRefSurveyStart_tableWf (r : Request) (s : State) : tableWf (opRefSurveyStart r s) = tableWf s := by
  simp [opRefSurveyStart]

@[simp] theorem subscribeOp_tableWf (r : Request) (s : State) (opcode : Nat) (f : Session → Option Nat → Session) :
    tableWf (subscribeOp r s opcode f) = tableWf s := by
  simp [subscribeOp]

@[simp] theorem opRefRtcmSubscribe_tableWf (r : Request) (s : State) : tableWf (opRefRtcmSubscribe r s) = tableWf s := by
  simp [opRefRtcmSubscribe]

/-! ### Buoy -/

@[simp] theorem modAnchor_tableWf (s : State) (l : Nat) (f : AnchorLive → AnchorLive) :
    tableWf (modAnchor s l f) = tableWf s := by
  simp [modAnchor]

@[simp] theorem setAnchor_tableWf (s : State) (l : Nat) (st : AnchorState) (cause : Nat) :
    tableWf (setAnchor s l st cause) = tableWf s := by
  simp [setAnchor]

@[simp] theorem emitAnchors_tableWf (s : State) : tableWf (emitAnchors s) = tableWf s := by
  unfold emitAnchors
  refine foldl_keeps tableWf _ _ _ fun u l => ?_
  dsimp only
  split
  · rfl
  · simp

@[simp] theorem enableLink_tableWf (s : State) (l : Nat) : tableWf (enableLink s l) = tableWf s := by
  simp [enableLink]

@[simp] theorem enableLinks_tableWf (s : State) : tableWf (enableLinks s) = tableWf s := by
  have key : ∀ (l : List Nat) (e : Bool × State), tableWf (l.foldl (fun (e : Bool × State) l =>
      let t := enableLink e.2 l
      let on := (anchorAt t l).podlOn && !(anchorAt e.2 l).podlOn
      if on && e.1 then e else (e.1 || on, t)) e).2 = tableWf e.2 := by
    intro l
    induction l with
    | nil => intro e; rfl
    | cons x l ih =>
      intro e
      refine (ih _).trans ?_
      dsimp only
      split
      · rfl
      · exact enableLink_tableWf e.2 x
  exact key _ _

@[simp] theorem unpower_tableWf (s : State) (l cause : Nat) : tableWf (unpower s l cause) = tableWf s := by
  simp [unpower]

@[simp] theorem shedLinks_tableWf (s : State) : tableWf (shedLinks s) = tableWf s :=
  foldl_keeps tableWf _ _ _ fun u l => by simp

@[simp] theorem keepLinks_tableWf (s : State) : tableWf (keepLinks s) = tableWf s := by
  simp [keepLinks]

@[simp] theorem opPodlDetection_tableWf (l cls : Nat) (s : State) : tableWf (opPodlDetection l cls s) = tableWf s := by
  simp [opPodlDetection]

@[simp] theorem captureBuoy_tableWf (s : State) (x : BuoyIn) : tableWf (captureBuoy s x) = tableWf s := by
  simp [captureBuoy]

@[simp] theorem opPodlOverload_tableWf (l : Nat) (s : State) : tableWf (opPodlOverload l s) = tableWf s := by
  simp [opPodlOverload]

@[simp] theorem opPodlRestore_tableWf (l : Nat) (s : State) : tableWf (opPodlRestore l s) = tableWf s := by
  simp [opPodlRestore]

@[simp] theorem opFaultRetry_tableWf (l : Nat) (s : State) : tableWf (opFaultRetry l s) = tableWf s := by
  simp only [opFaultRetry]
  split <;> simp

@[simp] theorem opPhyLinkChange_tableWf (l : Nat) (up level24 : Bool) (s : State) :
    tableWf (opPhyLinkChange l up level24 s) = tableWf s := by
  simp [opPhyLinkChange]

@[simp] theorem takePhy_tableWf (s : State) (l : Nat) (up : Bool) : tableWf (takePhy s l up) = tableWf s := by
  simp [takePhy]

@[simp] theorem faultAnchor_tableWf (s : State) (l cause : Nat) : tableWf (faultAnchor s l cause) = tableWf s := by
  simp [faultAnchor]

@[simp] theorem anchorMicFail_tableWf (s : State) (l : Nat) : tableWf (anchorMicFail s l) = tableWf s := by
  simp [anchorMicFail]

@[simp] theorem receiveBuoy_tableWf (f : BuoyFrame) (s : State) : tableWf (receiveBuoy f s) = tableWf s := by
  have hs : tableWf (if isHello f then s else modAnchor s f.link fun a => { a with upCtr := bCtr f }) = tableWf s := by
    simp
  unfold receiveBuoy
  dsimp only
  split
  · rfl
  split
  · exact modAnchor_tableWf ..
  split
  · exact anchorMicFail_tableWf ..
  split
  · exact modAnchor_tableWf ..
  · split <;> next h =>
      have ha := (snd_keeps h (admitFrame_tableWf ..)).trans hs
      simp [ha]

@[simp] theorem badFrame_tableWf (s : State) (l : Nat) : tableWf (badFrame s l) = tableWf s := by
  simp [badFrame]

@[simp] theorem takeHello_tableWf (s : State) (f : BuoyFrame) : tableWf (takeHello s f) = tableWf s := by
  simp only [takeHello]
  split <;> simp

@[simp] theorem afterExchange_tableWf (s : State) (l : Nat) : tableWf (afterExchange s l) = tableWf s := by
  simp [afterExchange]

@[simp] theorem takeSyncResp_tableWf (s : State) (f : BuoyFrame) : tableWf (takeSyncResp s f) = tableWf s := by
  simp only [takeSyncResp]
  split <;> simp

@[simp] theorem sendDown_tableWf (s : State) (l btype : Nat) (payload : Bytes) :
    tableWf (sendDown s l btype payload) = tableWf s := by
  simp [sendDown]

@[simp] theorem sendDownNow_tableWf (s : State) (l btype : Nat) (payload : Bytes) :
    tableWf (sendDownNow s l btype payload) = tableWf s := by
  simp [sendDownNow]

@[simp] theorem linkSchedule_tableWf (s : State) (l : Nat) : tableWf (linkSchedule s l) = tableWf s := by
  simp [linkSchedule]

@[simp] theorem opSyncReq_tableWf (s : State) : tableWf (opSyncReq s) = tableWf s := by
  simp [opSyncReq]

@[simp] theorem calHeard_tableWf (s : State) (l : Nat) (blinks : List BlinkReport) :
    tableWf (calHeard s l blinks) = tableWf s := by
  simp [calHeard]

@[simp] theorem takeReport_tableWf (s : State) (f : BuoyFrame) : tableWf (takeReport s f) = tableWf s := by
  simp only [takeReport]
  split <;> simp

@[simp] theorem opReportDeadline_tableWf (fc period : Nat) (s : State) : tableWf (opReportDeadline fc period s) = tableWf s := by
  simp [opReportDeadline]

@[simp] theorem relayData_tableWf (s : State) (l : Nat) : tableWf (relayData s l) = tableWf s := by
  simp only [relayData]
  split <;> simp

@[simp] theorem emitRelays_tableWf (s : State) : tableWf (emitRelays s) = tableWf s := by
  simp [emitRelays]

@[simp] theorem relayReported_tableWf (s : State) (l rstate : Nat) : tableWf (relayReported s l rstate) = tableWf s := by
  simp [relayReported]

@[simp] theorem takeRelayAck_tableWf (s : State) (f : BuoyFrame) : tableWf (takeRelayAck s f) = tableWf s := by
  simp only [takeRelayAck]
  split <;> simp

@[simp] theorem opRelayResend_tableWf (l : Nat) (s : State) : tableWf (opRelayResend l s) = tableWf s := by
  simp only [opRelayResend]
  split <;> simp

@[simp] theorem finishRelay_tableWf (s : State) : tableWf (finishRelay s) = tableWf s := by
  unfold finishRelay
  split
  · rfl
  · split
    · rfl
    · simp

@[simp] theorem relayOp_tableWf (r : Request) (s : State) (rsv : Bool) (body : Nat → State → State)
    (h : ∀ u, tableWf (body (fld r.payload 2 2) u) = tableWf u) : tableWf (relayOp r s rsv body) = tableWf s := by
  simp [relayOp, h]

@[simp] theorem opBuoyRelayStart_tableWf (r : Request) (s : State) : tableWf (opBuoyRelayStart r s) = tableWf s := by
  unfold opBuoyRelayStart
  refine relayOp_tableWf _ _ _ _ fun u => ?_
  dsimp only
  (repeat' split) <;> simp

@[simp] theorem activateHeads_tableWf (s : State) (mask id t : Nat) : tableWf (activateHeads s mask id t) = tableWf s := by
  simp [activateHeads]

@[simp] theorem opBuoyRelayActivate_tableWf (r : Request) (s : State) : tableWf (opBuoyRelayActivate r s) = tableWf s := by
  simp [opBuoyRelayActivate]

@[simp] theorem abortStart_tableWf (s : State) (mask : Nat) : tableWf (abortStart s mask) = tableWf s := by
  simp only [abortStart]
  split <;> simp

@[simp] theorem opBuoyRelayAbort_tableWf (r : Request) (s : State) : tableWf (opBuoyRelayAbort r s) = tableWf s := by
  simp [opBuoyRelayAbort]

@[simp] theorem takeFrame_tableWf (s : State) (f : BuoyFrame) : tableWf (takeFrame s f) = tableWf s := by
  simp only [takeFrame]
  split <;> simp

@[simp] theorem latchOne_tableWf (s : State) (x : BuoyIn) : tableWf (latchOne s x) = tableWf s := by
  simp only [latchOne]
  split <;> simp

@[simp] theorem micFault_tableWf (s : State) (l : Nat) : tableWf (micFault s l) = tableWf s := by
  simp [micFault]

@[simp] theorem latchBuoy_tableWf (s : State) : tableWf (latchBuoy s) = tableWf s := by
  simp [latchBuoy]

@[simp] theorem missedExchange_tableWf (s : State) (l : Nat) : tableWf (missedExchange s l) = tableWf s := by
  simp [missedExchange]

@[simp] theorem ctxActs_tableWf (s : State) (l : Nat) : tableWf (ctxActs s l) = tableWf s := by
  simp only [ctxActs]
  (repeat' split) <;> simp

@[simp] theorem ctxBoundary_tableWf (s : State) : tableWf (ctxBoundary s) = tableWf s := by
  simp [ctxBoundary]

@[simp] theorem activateBoundary_tableWf (s : State) (l : Nat) : tableWf (activateBoundary s l) = tableWf s := by
  simp only [activateBoundary]
  split <;> simp

@[simp] theorem pruneUwb_tableWf (s : State) : tableWf (pruneUwb s) = tableWf s := by
  simp [pruneUwb]

@[simp] theorem buoyBoundary_tableWf (s : State) (tAmb : Int) (podlMa : List Nat) :
    tableWf (buoyBoundary s tAmb podlMa) = tableWf s := by
  simp [buoyBoundary]

@[simp] theorem setZone_tableWf (s : State) (z : Nat) (v : Zone) : tableWf (setZone s z v) = tableWf s := by
  simp [setZone]

@[simp] theorem opBuoyZoneSet_tableWf (r : Request) (s : State) : tableWf (opBuoyZoneSet r s) = tableWf s := by
  simp [opBuoyZoneSet]

@[simp] theorem zonesBoundary_tableWf (s : State) : tableWf (zonesBoundary s) = tableWf s := by
  simp only [zonesBoundary]
  split <;> simp

@[simp] theorem assignBlinks_tableWf (s : State) (i t : Nat) (was : List (Nat × Nat × Nat)) :
    tableWf (assignBlinks s i t was) = tableWf s := by
  simp only [assignBlinks]
  split <;> simp

@[simp] theorem reassignBlinks_tableWf (s : State) : tableWf (reassignBlinks s) = tableWf s := by
  simp [reassignBlinks]

@[simp] theorem opBuoyStatus_tableWf (r : Request) (s : State) : tableWf (opBuoyStatus r s) = tableWf s := by
  simp [opBuoyStatus]

@[simp] theorem applyBuoyCfg_tableWf (s : State) (c : BuoyConfig) : tableWf (applyBuoyCfg s c) = tableWf s := by
  simp [applyBuoyCfg]

@[simp] theorem opBuoyConfig_tableWf (r : Request) (s : State) : tableWf (opBuoyConfig r s) = tableWf s := by
  simp [opBuoyConfig]

@[simp] theorem setContext_tableWf (s : State) (l : Nat) (c : AnchorRec) : tableWf (setContext s l c) = tableWf s := by
  simp [setContext]

@[simp] theorem opBuoyAnchorSet_tableWf (r : Request) (s : State) : tableWf (opBuoyAnchorSet r s) = tableWf s := by
  simp [opBuoyAnchorSet]

@[simp] theorem startCal_tableWf (s : State) (who : List Nat) : tableWf (startCal s who) = tableWf s := by
  simp [startCal]

@[simp] theorem opBuoyCalibrate_tableWf (r : Request) (s : State) : tableWf (opBuoyCalibrate r s) = tableWf s := by
  simp [opBuoyCalibrate]

@[simp] theorem opBuoyCalibrationDone_tableWf (fits : List CalFit) (s : State) :
    tableWf (opBuoyCalibrationDone fits s) = tableWf s := by
  simp only [opBuoyCalibrationDone]
  split <;> simp

@[simp] theorem opBuoyFixSubscribe_tableWf (r : Request) (s : State) : tableWf (opBuoyFixSubscribe r s) = tableWf s := by
  simp [opBuoyFixSubscribe]

/-! ### Tdoa -/

@[simp] theorem modRobot_tableWf (s : State) (i : Nat) (f : Robot → Robot) : tableWf (modRobot s i f) = tableWf s := by
  simp [modRobot]

@[simp] theorem countReject_tableWf (s : State) (i n : Nat) : tableWf (countReject s i n) = tableWf s := by
  simp [countReject]

@[simp] theorem openFix_tableWf (s : State) (i : Nat) (used : List BlinkReport) (flags group : Nat) :
    tableWf (openFix s i used flags group).2 = tableWf s := by
  simp [openFix]

@[simp] theorem releaseFix_tableWf (s : State) (i : Nat) (used : List BlinkReport) (v : Option TdoaSol) (flags group : Nat) :
    tableWf (releaseFix s i used v flags group).2 = tableWf s := by
  simp only [releaseFix]
  split <;> simp

@[simp] theorem solveFor_tableWf (s : State) (i : Nat) (l : List BlinkReport) (deadline : Bool) :
    tableWf (solveFor s i l deadline).2 = tableWf s := by
  simp only [solveFor]
  (repeat' split) <;> simp

@[simp] theorem enterFix_tableWf (s : State) (f : Fix) : tableWf (enterFix s f) = tableWf s := by
  simp [enterFix]

@[simp] theorem takeGroup_tableWf (s : State) (h : BlinkReport) : tableWf (takeGroup s h) = tableWf s := by
  simp only [takeGroup]
  (repeat' split) <;> simp

@[simp] theorem solveBlinks_tableWf (s : State) : tableWf (solveBlinks s) = tableWf s := by
  simp [solveBlinks]

@[simp] theorem prunePeriods_tableWf (s : State) : tableWf (prunePeriods s) = tableWf s := by
  simp [prunePeriods]

@[simp] theorem selectPos_tableWf (s : State) (x : Robot) : tableWf (selectPos s x).2 = tableWf s := by
  simp only [selectPos]
  (repeat' split) <;> simp

@[simp] theorem releasePos_tableWf (s : State) (i : Nat) : tableWf (releasePos s i) = tableWf s := by
  simp [releasePos]

@[simp] theorem releasePositions_tableWf (s : State) : tableWf (releasePositions s) = tableWf s := by
  simp [releasePositions]

@[simp] theorem emitFixes_tableWf (s : State) : tableWf (emitFixes s) = tableWf s := by
  simp [emitFixes]

@[simp] theorem emitBlinkRejects_tableWf (s : State) : tableWf (emitBlinkRejects s) = tableWf s := by
  simp [emitBlinkRejects]

/-! ### Strt -/

@[simp] theorem strtAlarm_tableWf (s : State) (cause owner kind index : Nat) :
    tableWf (strtAlarm s cause owner kind index) = tableWf s := by
  simp [strtAlarm]

@[simp] theorem detectWay_tableWf (s : State) (i : Nat) : tableWf (detectWay s i) = tableWf s := by
  simp [detectWay]

@[simp] theorem detectKeys_tableWf (s : State) (keys : List Key) : tableWf (detectKeys s keys) = tableWf s := by
  simp [detectKeys]

@[simp] theorem noteFill_tableWf (s : State) : tableWf (noteFill s) = tableWf s := by
  simp [noteFill]

@[simp] theorem chainFailed_tableWf (s : State) (k : Key) : tableWf (chainFailed s k) = tableWf s := by
  simp [chainFailed]

@[simp] theorem putHold_tableWf (s : State) (n : Nat) (h : HoldRec) : tableWf (putHold s n h) = tableWf s := by
  simp [putHold]

@[simp] theorem dropHold_tableWf (s : State) (n : Nat) : tableWf (dropHold s n) = tableWf s := by
  simp [dropHold]

@[simp] theorem expireHolds_tableWf (s : State) : tableWf (expireHolds s) = tableWf s := by
  simp [expireHolds]

@[simp] theorem dwellUnwritten_tableWf (s : State) (session : Nat) : tableWf (dwellUnwritten s session) = tableWf s := by
  simp [dwellUnwritten]

@[simp] theorem emitStrt_tableWf (s : State) : tableWf (emitStrt s) = tableWf s := by
  simp [emitStrt]

@[simp] theorem opProbe_tableWf (cell slot kind : Nat) (s : State) : tableWf (opProbe cell slot kind s) = tableWf s := by
  simp [opProbe]

@[simp] theorem activateHolds_tableWf (s : State) : tableWf (activateHolds s) = tableWf s := by
  simp [activateHolds]

@[simp] theorem opStrtGridSet_tableWf (r : Request) (s : State) : tableWf (opStrtGridSet r s) = tableWf s := by
  simp [opStrtGridSet]

@[simp] theorem opStrtStatus_tableWf (r : Request) (s : State) : tableWf (opStrtStatus r s) = tableWf s := by
  simp [opStrtStatus]

@[simp] theorem withHold_tableWf (s : State) (r : Request) (h : Nat) (k : Nat → State → State)
    (hk : ∀ n u, tableWf (k n u) = tableWf u) : tableWf (withHold s r h k) = tableWf s := by
  unfold withHold
  split <;> simp [hk]

@[simp] theorem opStrtHoldList_tableWf (r : Request) (s : State) : tableWf (opStrtHoldList r s) = tableWf s := by
  unfold opStrtHoldList
  exact runOp_keeps (by dsimp only; split <;> simp)

/-! ### Task -/

@[simp] theorem putTask_tableWf (s : State) (j : Nat) (t : Task) : tableWf (putTask s j t) = tableWf s := by
  simp [putTask]

@[simp] theorem moveTask_tableWf (s : State) (j : Nat) (new : TaskState) (cause : Nat) (f : Task → Task) :
    tableWf (moveTask s j new cause f) = tableWf s := by
  simp [moveTask]

@[simp] theorem moveTaskBy_tableWf (s : State) (r : Request) (j : Nat) (new : TaskState) (cause : Nat) (t : Task) :
    tableWf (moveTaskBy s r j new cause t) = tableWf s := by
  simp [moveTaskBy]

@[simp] theorem postOne_tableWf (s : State) (q : PostRun) : tableWf (postOne s q).2 = tableWf s := by
  simp only [postOne]
  split <;> simp

@[simp] theorem postSome_tableWf (n : Nat) (q : PostRun) (s : State) : tableWf (postSome n q s).2.1 = tableWf s := by
  induction n generalizing q s with
  | zero => rfl
  | succ n ih =>
    simp only [postSome]
    split
    · rfl
    · split
      · rfl
      · exact (ih _ _).trans (postOne_tableWf s q)

@[simp] theorem postFc_tableWf (s : State) (q : PostRun) : tableWf (postFc s q) = tableWf s := by
  simp only [postFc]
  split <;> simp

@[simp] theorem postEnd_tableWf (s : State) (q : PostRun) : tableWf (postEnd s q) = tableWf s := by
  simp [postEnd]

@[simp] theorem stepPosts_tableWf (s : State) : tableWf (stepPosts s) = tableWf s := by
  simp [stepPosts]

@[simp] theorem opTaskPost_tableWf (r : Request) (s : State) : tableWf (opTaskPost r s) = tableWf s := by
  unfold opTaskPost
  have h1 := takeLatched_tableWf s r
  exact runOp_keeps (need_keeps h1 (need_keeps h1 (by dsimp only; split <;> simp)))

@[simp] theorem opTaskModify_tableWf (r : Request) (s : State) : tableWf (opTaskModify r s) = tableWf s := by
  simp [opTaskModify]

@[simp] theorem opTaskGet_tableWf (r : Request) (s : State) : tableWf (opTaskGet r s) = tableWf s := by
  simp [opTaskGet]

@[simp] theorem opTaskList_tableWf (r : Request) (s : State) : tableWf (opTaskList r s) = tableWf s := by
  simp [opTaskList]

@[simp] theorem opTaskConfig_tableWf (r : Request) (s : State) : tableWf (opTaskConfig r s) = tableWf s := by
  simp [opTaskConfig]

@[simp] theorem opTaskDeadline_tableWf (s : State) : tableWf (opTaskDeadline s) = tableWf s := by
  simp [opTaskDeadline]

@[simp] theorem opTerminalKeep_tableWf (s : State) : tableWf (opTerminalKeep s) = tableWf s := by
  simp [opTerminalKeep]

@[simp] theorem reopenTasks_tableWf (s : State) : tableWf (reopenTasks s) = tableWf s := by
  simp [reopenTasks]

/-! ### Guard -/

@[simp] theorem modPlan_tableWf (s : State) (i : Nat) (f : Plan → Plan) : tableWf (modPlan s i f) = tableWf s := by
  simp [modPlan]

@[simp] theorem commitDwell_tableWf (s : State) (i : Nat) (written : Bool) (more : List (Nat × Nat)) :
    tableWf (commitDwell s i written more) = tableWf s := by
  simp [commitDwell]

@[simp] theorem conformanceEvent_tableWf (s : State) (i cause dev : Nat) :
    tableWf (conformanceEvent s i cause dev) = tableWf s := by
  simp [conformanceEvent]

@[simp] theorem loseTask_tableWf (s : State) (i cause : Nat) : tableWf (loseTask s i cause) = tableWf s := by
  simp only [loseTask]
  (repeat' split) <;> simp

@[simp] theorem heardDue_tableWf (s : State) (i : Nat) : tableWf (heardDue s i) = tableWf s := by
  simp [heardDue]

@[simp] theorem stopReleased_tableWf (s : State) (i : Nat) : tableWf (stopReleased s i) = tableWf s := by
  simp [stopReleased]

@[simp] theorem queueRobotFragments_tableWf (s : State) (session : Nat) (p : Bytes) :
    tableWf (queueRobotFragments s session p) = tableWf s := by
  simp [queueRobotFragments]

@[simp] theorem emitPlan_tableWf (s : State) (i : Nat) : tableWf (emitPlan s i) = tableWf s := by
  simp only [emitPlan]
  (repeat' split) <;> simp

@[simp] theorem emitPlans_tableWf (s : State) : tableWf (emitPlans s) = tableWf s := by
  simp [emitPlans]

/-! ### Allot -/

@[simp] theorem modReq_tableWf (s : State) (i : Nat) (f : PathReq → PathReq) : tableWf (modReq s i f) = tableWf s := by
  simp [modReq]

@[simp] theorem queueReq_tableWf (s : State) (q : PathReq) : tableWf (queueReq s q) = tableWf s := by
  unfold queueReq
  split
  · rfl
  · split <;> next h =>
      have ht := snd_keeps h (admitFrame_tableWf ..)
      exact ht

@[simp] theorem opLeadlightRequest_tableWf (s : State) : tableWf (opLeadlightRequest s) = tableWf s := by
  simp only [opLeadlightRequest]
  (repeat' split) <;> simp

@[simp] theorem excludePair_tableWf (s : State) (q : PathReq) : tableWf (excludePair s q) = tableWf s := by
  simp only [excludePair]
  split <;> simp

@[simp] theorem enterResult_tableWf (s : State) (i : Nat) (q : PathReq) (res : SearchResult) (tclk : Nat) :
    tableWf (enterResult s i q res tclk) = tableWf s := by
  simp [enterResult]

@[simp] theorem opSearchResult_tableWf (unit tclk : Nat) (s : State) : tableWf (opSearchResult unit tclk s) = tableWf s := by
  simp only [opSearchResult]
  (repeat' split) <;> simp

@[simp] theorem commitPath_tableWf (s : State) (q : PathReq) (kind : Nat) : tableWf (commitPath s q kind) = tableWf s := by
  simp only [commitPath]
  split <;> simp

@[simp] theorem reserveConflict_tableWf (s : State) (i : Nat) (q : PathReq) (k : Key) (w : BitVec 64) :
    tableWf (reserveConflict s i q k w) = tableWf s := by
  simp [reserveConflict]

@[simp] theorem tell_tableWf (s : State) (i status pos r : Nat) : tableWf (tell s i status pos r) = tableWf s := by
  simp [tell]

@[simp] theorem grantLeg_tableWf (s : State) (r : Nat) (q : PathReq) (l : Leg) : tableWf (grantLeg s r q l) = tableWf s := by
  simp only [grantLeg]
  (repeat' split) <;> simp

@[simp] theorem refuseReq_tableWf (s : State) (r : Nat) (q : PathReq) : tableWf (refuseReq s r q) = tableWf s := by
  simp only [refuseReq]
  split <;> simp

@[simp] theorem haltedRounds_tableWf (s : State) : tableWf (haltedRounds s) = tableWf s := by
  simp [haltedRounds]

@[simp] theorem reachEnd_tableWf (s : State) (i : Nat) (l : Leg) : tableWf (reachEnd s i l) = tableWf s := by
  simp only [reachEnd]
  split <;> simp

@[simp] theorem arriveRobot_tableWf (s : State) (i : Nat) : tableWf (arriveRobot s i) = tableWf s := by
  simp [arriveRobot]

@[simp] theorem doneRobot_tableWf (s : State) (i : Nat) : tableWf (doneRobot s i) = tableWf s := by
  simp only [doneRobot]
  split <;> simp

@[simp] theorem takeOver_tableWf (s : State) : tableWf (takeOver s) = tableWf s := by
  simp [takeOver]

@[simp] theorem cancelRobot_tableWf (s : State) (i : Nat) (halt : Bool) : tableWf (cancelRobot s i halt) = tableWf s := by
  simp [cancelRobot]

@[simp] theorem opTaskCancel_tableWf (r : Request) (s : State) : tableWf (opTaskCancel r s) = tableWf s := by
  simp [opTaskCancel]

@[simp] theorem opPathRequest_tableWf (r : Request) (s : State) : tableWf (opPathRequest r s) = tableWf s := by
  simp [opPathRequest]

@[simp] theorem opPathGet_tableWf (r : Request) (s : State) : tableWf (opPathGet r s) = tableWf s := by
  simp [opPathGet]

@[simp] theorem opPathStatus_tableWf (r : Request) (s : State) : tableWf (opPathStatus r s) = tableWf s := by
  simp [opPathStatus]

/-! ### Can -/

@[simp] theorem modCan_tableWf (s : State) (ch : Nat) (f : CanChan → CanChan) : tableWf (modCan s ch f) = tableWf s := by
  simp [modCan]

@[simp] theorem opBusOff_tableWf (ch : Nat) (head : Bool) (s : State) : tableWf (opBusOff ch head s) = tableWf s := by
  simp [opBusOff]

@[simp] theorem opBusOffRecovery_tableWf (ch : Nat) (s : State) : tableWf (opBusOffRecovery ch s) = tableWf s := by
  simp [opBusOffRecovery]

@[simp] theorem opCanBusError_tableWf (ch tec rec' : Nat) (s : State) : tableWf (opCanBusError ch tec rec' s) = tableWf s := by
  simp [opCanBusError]

@[simp] theorem recAfter_tableWf (s : State) (rec' : Nat) : tableWf (recAfter s rec').2 = tableWf s := by
  simp only [recAfter]
  split <;> simp

@[simp] theorem opCanRx_tableWf (ch : Nat) (f : CanIn) (s : State) : tableWf (opCanRx ch f s) = tableWf s := by
  simp [opCanRx]

@[simp] theorem takeCan_tableWf (s : State) (ch : Nat) (f : CanFrame) : tableWf (takeCan s ch f) = tableWf s := by
  simp only [takeCan]
  split <;> simp

@[simp] theorem latchRx_tableWf (s : State) (ch : Nat) : tableWf (latchRx s ch) = tableWf s := by
  simp [latchRx]

@[simp] theorem canLatch_tableWf (s : State) (ch : Nat) : tableWf (canLatch s ch) = tableWf s := by
  simp [canLatch]

@[simp] theorem canBoundary_tableWf (s : State) : tableWf (canBoundary s) = tableWf s := by
  simp [canBoundary]

@[simp] theorem canStart_tableWf (s : State) : tableWf (canStart s) = tableWf s := by
  simp [canStart]

@[simp] theorem measureDelay_tableWf (s : State) (ch : Nat) : tableWf (measureDelay s ch) = tableWf s := by
  simp [measureDelay]

@[simp] theorem opCanTxOutcome_tableWf (ch : Nat) (stop : Bool) (outcome : Nat) (sof : Option Counter) (s : State) :
    tableWf (opCanTxOutcome ch stop outcome sof s) = tableWf s := by
  unfold opCanTxOutcome
  dsimp only
  split
  · rfl
  · simp
    cases sof <;> simp

@[simp] theorem opCanWake_tableWf (ch : Nat) (w : CanWakeIn) (s : State) : tableWf (opCanWake ch w s) = tableWf s := by
  simp [opCanWake]

@[simp] theorem queueCanStop_tableWf (s : State) : tableWf (queueCanStop s) = tableWf s := by
  simp [queueCanStop]

@[simp] theorem emitCanChan_tableWf (s : State) (ch : Nat) : tableWf (emitCanChan s ch) = tableWf s := by
  simp only [emitCanChan]
  split <;> simp

@[simp] theorem emitCan_tableWf (s : State) : tableWf (emitCan s) = tableWf s := by
  simp [emitCan]

@[simp] theorem modCanSet_tableWf (s : State) (ch : Nat) (f : CanPersist → CanPersist) :
    tableWf (modCanSet s ch f) = tableWf s := by
  simp [modCanSet]

@[simp] theorem opCanConfig_tableWf (r : Request) (s : State) : tableWf (opCanConfig r s) = tableWf s := by
  simp [opCanConfig]

@[simp] theorem opCanStatus_tableWf (r : Request) (s : State) : tableWf (opCanStatus r s) = tableWf s := by
  simp [opCanStatus]

@[simp] theorem opCanRuleSet_tableWf (r : Request) (s : State) : tableWf (opCanRuleSet r s) = tableWf s := by
  simp [opCanRuleSet]

@[simp] theorem opCanNodeSet_tableWf (r : Request) (s : State) : tableWf (opCanNodeSet r s) = tableWf s := by
  simp [opCanNodeSet]

@[simp] theorem opCanSend_tableWf (r : Request) (s : State) : tableWf (opCanSend r s) = tableWf s := by
  simp [opCanSend]

@[simp] theorem opCanSubscribe_tableWf (r : Request) (s : State) : tableWf (opCanSubscribe r s) = tableWf s := by
  simp [opCanSubscribe]

@[simp] theorem opCanSleep_tableWf (r : Request) (s : State) : tableWf (opCanSleep r s) = tableWf s := by
  simp [opCanSleep]

/-! ### Robots -/

@[simp] theorem setSState_tableWf (s : State) (i : Nat) (new : SState) (cause : Nat) :
    tableWf (setSState s i new cause) = tableWf s := by
  simp [setSState]

@[simp] theorem tagSess_tableWf (s : State) (i : Nat) (r : Request) : tableWf (tagSess s i r) = tableWf s := by
  simp [tagSess]

@[simp] theorem lnkSState_tableWf (s : State) (i : Nat) (new : SState) (cause : Nat) :
    tableWf (lnkSState s i new cause) = tableWf s := by
  simp [lnkSState]

@[simp] theorem emitSess_tableWf (s : State) : tableWf (emitSess s) = tableWf s := by
  simp [emitSess]

@[simp] theorem emitSpoof_tableWf (s : State) : tableWf (emitSpoof s) = tableWf s := by
  simp [emitSpoof]

@[simp] theorem modRpt_tableWf (s : State) (k : Nat) (f : RptEntry → RptEntry) : tableWf (modRpt s k f) = tableWf s := by
  simp [modRpt]

@[simp] theorem rptAddr_tableWf (s : State) (eui : BitVec 64) (addr : Nat) : tableWf (rptAddr s eui addr) = tableWf s := by
  simp only [rptAddr]
  split <;> simp

@[simp] theorem cellEvent_tableWf (s : State) (i cause : Nat) (q : Option (Nat × Nat × Nat)) :
    tableWf (cellEvent s i cause q) = tableWf s := by
  simp [cellEvent]

@[simp] theorem assignCell_tableWf (s : State) (i : Nat) : tableWf (assignCell s i) = tableWf s := by
  simp [assignCell]

@[simp] theorem releaseCell_tableWf (s : State) (i : Nat) : tableWf (releaseCell s i) = tableWf s := by
  simp only [releaseCell]
  split <;> simp

@[simp] theorem endAssociation_tableWf (s : State) (i : Nat) : tableWf (endAssociation s i) = tableWf s := by
  simp [endAssociation]

@[simp] theorem queueKeys_tableWf (s : State) (i : Nat) : tableWf (queueKeys s i) = tableWf s := by
  simp only [queueKeys]
  split <;> simp

@[simp] theorem queueLinkFragments_tableWf (s : State) (session : Option Nat) (eui : BitVec 64) (p : Bytes) :
    tableWf (queueLinkFragments s session eui p) = tableWf s := by
  simp [queueLinkFragments]

@[simp] theorem acceptAssoc_tableWf (s : State) (i : Nat) (m : AirMsg) : tableWf (acceptAssoc s i m) = tableWf s := by
  simp [acceptAssoc]

@[simp] theorem answerAssoc_tableWf (s : State) (m : AirMsg) : tableWf (answerAssoc s m) = tableWf s := by
  simp only [answerAssoc]
  (repeat' split) <;> simp

@[simp] theorem confirmAssoc_tableWf (s : State) (m : AirMsg) : tableWf (confirmAssoc s m) = tableWf s := by
  simp only [confirmAssoc]
  split <;> simp

@[simp] theorem modOne_tableWf (s : State) (r : Nat) (f : OneRadio → OneRadio) : tableWf (modOne s r f) = tableWf s := by
  simp [modOne]

@[simp] theorem elementMicFail_tableWf (s : State) (radio : Nat) (eui : BitVec 64) :
    tableWf (elementMicFail s radio eui) = tableWf s := by
  simp only [elementMicFail]
  split <;> simp

@[simp] theorem elementDuplicate_tableWf (s : State) (radio : Nat) : tableWf (elementDuplicate s radio) = tableWf s := by
  simp [elementDuplicate]

@[simp] theorem elementReplay_tableWf (s : State) (radio : Nat) : tableWf (elementReplay s radio) = tableWf s := by
  simp [elementReplay]

@[simp] theorem latchMsg_tableWf (s : State) (frag : Bool) (m : AirMsg) : tableWf (latchMsg s frag m) = tableWf s := by
  simp [latchMsg]

@[simp] theorem chainElement_tableWf (s : State) (i : Nat) (radio : Nat) (e : Element) (eui : BitVec 64) :
    tableWf (chainElement s i radio e eui) = tableWf s := by
  simp [chainElement]

@[simp] theorem takeAssoc_tableWf (s : State) (radio : Nat) (e : Element) : tableWf (takeAssoc s radio e).2 = tableWf s := by
  simp only [takeAssoc]
  (repeat' split) <;> simp

@[simp] theorem learnUnenrolled_tableWf (s : State) (radio : Nat) (eui : BitVec 64) :
    tableWf (learnUnenrolled s radio eui) = tableWf s := by
  simp only [learnUnenrolled]
  (repeat' split) <;> simp

@[simp] theorem takeLink_tableWf (s : State) (radio : Nat) (e : Element) : tableWf (takeLink s radio e).2 = tableWf s := by
  simp only [takeLink]
  (repeat' split) <;> simp

@[simp] theorem portMoved_tableWf (s : State) (i radio ctr gap : Nat) : tableWf (portMoved s i radio ctr gap) = tableWf s := by
  simp [portMoved]

@[simp] theorem learnFrame_tableWf (s : State) (i radio ctr high t : Nat) (link : Bool) :
    tableWf (learnFrame s i radio ctr high t link) = tableWf s := by
  simp only [learnFrame]
  (repeat' split) <;> simp

@[simp] theorem wakeEvent_tableWf (s : State) (i cause : Nat) : tableWf (wakeEvent s i cause) = tableWf s := by
  simp [wakeEvent]

@[simp] theorem heardAgain_tableWf (s : State) (i : Nat) (sleepOnly : Bool) : tableWf (heardAgain s i sleepOnly) = tableWf s := by
  simp [heardAgain]

@[simp] theorem applyFrame_tableWf (s : State) (f : AirIn × Bytes) : tableWf (applyFrame s f) = tableWf s := by
  have hf := foldl_snd_keeps tableWf (fun (a : List (Nat × Nat × Bool × Bool) × State) (e : Element) =>
      let (r, s') := if e.kind = 1 then takeAssoc a.2 f.1.radio e else if e.kind = 3 then takeLink a.2 f.1.radio e else (none,
        a.2)
      match r with
      | some (i, c, sl) => (a.1 ++ [(i, c, e.kind == 3, sl)], s')
      | none => (a.1, s')) (elementsOf f.1) ([], s) fun a e => by
    have hp : tableWf (if e.kind = 1 then takeAssoc a.2 f.1.radio e else if e.kind = 3 then takeLink a.2 f.1.radio e
        else (none, a.2)).2 = tableWf a.2 := by
      split
      · exact takeAssoc_tableWf ..
      · split
        · exact takeLink_tableWf ..
        · rfl
    dsimp only
    split <;> exact hp
  unfold applyFrame
  dsimp only at hf ⊢
  split
  · exact hf
  · simp
    exact hf

@[simp] theorem latchRadio_tableWf (s : State) : tableWf (latchRadio s) = tableWf s := by
  simp [latchRadio]

@[simp] theorem takeMsg_tableWf {s u : State} {t : Nat} {m : AirMsg} (h : takeMsg s t = some (m, u)) : tableWf u = tableWf s := by
  obtain ⟨_, _, h⟩ := Option.map_eq_some_iff.mp h
  cases h
  rfl

@[simp] theorem opAssocReq_tableWf (s : State) : tableWf (opAssocReq s) = tableWf s := by
  unfold opAssocReq
  split
  · rfl
  · split
    · next h => exact (answerAssoc_tableWf ..).trans (takeMsg_tableWf h)
    · rfl

@[simp] theorem opAssocConfirm_tableWf (s : State) : tableWf (opAssocConfirm s) = tableWf s := by
  unfold opAssocConfirm
  split
  · rfl
  · split
    · next h => exact (confirmAssoc_tableWf ..).trans (takeMsg_tableWf h)
    · rfl

@[simp] theorem applyReport_tableWf (s : State) (m : AirMsg) : tableWf (applyReport s m) = tableWf s := by
  simp only [applyReport]
  split <;> simp

@[simp] theorem opPositionReport_tableWf (s : State) : tableWf (opPositionReport s) = tableWf s := by
  unfold opPositionReport
  split
  · rfl
  · split
    · next h => exact (applyReport_tableWf ..).trans (takeMsg_tableWf h)
    · rfl

@[simp] theorem applyPlanReq_tableWf (s : State) (m : AirMsg) : tableWf (applyPlanReq s m) = tableWf s := by
  simp only [applyPlanReq]
  split <;> simp

@[simp] theorem opPlanReq_tableWf (s : State) : tableWf (opPlanReq s) = tableWf s := by
  unfold opPlanReq
  split
  · rfl
  · split
    · next h => exact (applyPlanReq_tableWf ..).trans (takeMsg_tableWf h)
    · rfl

@[simp] theorem applySleep_tableWf (s : State) (m : AirMsg) : tableWf (applySleep s m) = tableWf s := by
  simp only [applySleep]
  split <;> simp

@[simp] theorem opSleep_tableWf (s : State) : tableWf (opSleep s) = tableWf s := by
  unfold opSleep
  split
  · rfl
  · split
    · next h => exact (applySleep_tableWf ..).trans (takeMsg_tableWf h)
    · rfl

theorem drainMsgs_tableWf (s : State) (t : Nat) (f : State → AirMsg → State) (hf : ∀ u m, tableWf (f u m) = tableWf u) :
    tableWf (drainMsgs s t f) = tableWf s := foldl_keeps tableWf f _ _ hf

@[simp] theorem opAssocTimeout_tableWf (s : State) : tableWf (opAssocTimeout s) = tableWf s := by
  simp [opAssocTimeout]

@[simp] theorem opAdrift_tableWf (s : State) : tableWf (opAdrift s) = tableWf s := by
  simp [opAdrift]

@[simp] theorem becomeLost_tableWf (s : State) (i : Nat) : tableWf (becomeLost s i) = tableWf s := by
  simp [becomeLost]

@[simp] theorem ageEntry_tableWf (s : State) (k : Nat) : tableWf (ageEntry s k) = tableWf s := by
  simp [ageEntry]

@[simp] theorem opAgingSweep_tableWf (s : State) : tableWf (opAgingSweep s) = tableWf s := by
  simp [opAgingSweep]

@[simp] theorem opWakeMissed_tableWf (s : State) : tableWf (opWakeMissed s) = tableWf s := by
  simp [opWakeMissed]

/-! ### Sess -/

@[simp] theorem opSessConfig_tableWf (r : Request) (s : State) : tableWf (opSessConfig r s) = tableWf s := by
  simp [opSessConfig]

@[simp] theorem opSessClassSet_tableWf (r : Request) (s : State) : tableWf (opSessClassSet r s) = tableWf s := by
  simp [opSessClassSet]

@[simp] theorem opSessClassGet_tableWf (r : Request) (s : State) : tableWf (opSessClassGet r s) = tableWf s := by
  simp [opSessClassGet]

@[simp] theorem rptEnrol_tableWf (s : State) (k i : Nat) (eui : BitVec 64) : tableWf (rptEnrol s k i eui) = tableWf s := by
  simp [rptEnrol]

@[simp] theorem enrolRobot_tableWf (s : State) (i cls : Nat) (eui : BitVec 64) :
    tableWf (enrolRobot s i cls eui) = tableWf s := by
  simp [enrolRobot]

@[simp] theorem opSessEnrol_tableWf (r : Request) (s : State) : tableWf (opSessEnrol r s) = tableWf s := by
  have h1 := takeLatched_tableWf s r
  unfold opSessEnrol
  exact runOp_keeps (need_keeps h1 (need_keeps h1 (by split <;> simp)))

@[simp] theorem revokeRobot_tableWf (s : State) (i : Nat) : tableWf (revokeRobot s i) = tableWf s := by
  simp only [revokeRobot]
  split <;> simp

@[simp] theorem opSessRevoke_tableWf (r : Request) (s : State) : tableWf (opSessRevoke r s) = tableWf s := by
  simp [opSessRevoke]

@[simp] theorem revokedWork_tableWf (s : State) : tableWf (revokedWork s) = tableWf s := by
  simp [revokedWork]

@[simp] theorem opSessGet_tableWf (r : Request) (s : State) : tableWf (opSessGet r s) = tableWf s := by
  unfold opSessGet
  exact runOp_keeps (by split <;> simp)

@[simp] theorem opSessList_tableWf (r : Request) (s : State) : tableWf (opSessList r s) = tableWf s := by
  simp [opSessList]

/-! ### Stop -/

@[simp] theorem driveSwitches_tableWf (s : State) : tableWf (driveSwitches s) = tableWf s := by
  simp [driveSwitches]

@[simp] theorem changeStop_tableWf (s : State) (pclk : Nat) (f : State → State) : tableWf (changeStop s pclk f) = tableWf (f s) :=
  (congrArg tableWf (Laws.changeStop_same s pclk f).1.rest).trans rfl

@[simp] theorem modChans_tableWf (s : State) (f : Channel3 → Channel3) : tableWf (modChans s f) = tableWf s := by
  simp [modChans]

@[simp] theorem modSaf_tableWf (s : State) (c : Nat) (f : Channel3 → Channel3) : tableWf (modSaf s c f) = tableWf s := by
  simp [modSaf]

@[simp] theorem latchSite_tableWf (bit : Nat) (active : Bool) (s : State) : tableWf (latchSite bit active s) = tableWf s := by
  simp [latchSite]

@[simp] theorem clearSite_tableWf (bit : Nat) (s : State) : tableWf (clearSite bit s) = tableWf s := by
  simp [clearSite]

@[simp] theorem latchRobot_tableWf (i why : Nat) (s : State) : tableWf (latchRobot i why s) = tableWf s := by
  simp [latchRobot]

@[simp] theorem applyRequests_tableWf (s : State) (start : Nat) : tableWf (applyRequests s start) = tableWf s := by
  unfold applyRequests
  split
  · rfl
  · refine (changeStop_tableWf ..).trans ((foldl_keeps tableWf _ _ _ fun u q => ?_).trans rfl)
    split
    · exact latchRobot_tableWf ..
    · exact latchSite_tableWf ..

@[simp] theorem outputFaulty_tableWf (s : State) : tableWf (outputFaulty s) = tableWf s := by
  simp [outputFaulty]

@[simp] theorem modSl_tableWf (s : State) (i : Nat) (f : SlInput → SlInput) : tableWf (modSl s i f) = tableWf s := by
  simp [modSl]

@[simp] theorem opSlInput_tableWf (inp line pclk : Nat) (s : State) : tableWf (opSlInput inp line pclk s) = tableWf s := by
  simp [opSlInput]

@[simp] theorem slFault_tableWf (i : Nat) (s : State) : tableWf (slFault i s) = tableWf s := by
  simp [slFault]

@[simp] theorem checkPulse_tableWf (src : Nat) (lows : List Bool) (s : State) (i : Nat) :
    tableWf (checkPulse src lows s i) = tableWf s := by
  simp [checkPulse]

@[simp] theorem opInputTestPulse_tableWf (src : Nat) (lows : List Bool) (s : State) :
    tableWf (opInputTestPulse src lows s) = tableWf s := by
  simp [opInputTestPulse]

@[simp] theorem slFaultStep_tableWf (s : State) (i : Nat) (h1 h2 : Bool) : tableWf (slFaultStep s i h1 h2) = tableWf s := by
  simp [slFaultStep]

@[simp] theorem slBoundary_tableWf (s : State) (i : Nat) (h1 h2 : Bool) : tableWf (slBoundary s i h1 h2) = tableWf s := by
  simp [slBoundary]

@[simp] theorem noteChan_tableWf (s : State) (c : Nat) (new old : ChState) (reason testId time : Nat) :
    tableWf (noteChan s c new old reason testId time) = tableWf s := by
  simp [noteChan]

@[simp] theorem chanState_tableWf (s : State) (c : Nat) (new : ChState) (reason testId pclk : Nat) :
    tableWf (chanState s c new reason testId pclk) = tableWf s := by
  simp [chanState]

@[simp] theorem withdraw_tableWf (c reason testId : Nat) (s : State) : tableWf (withdraw c reason testId s) = tableWf s := by
  simp [withdraw]

@[simp] theorem passLead_tableWf (s : State) : tableWf (passLead s) = tableWf s := by
  simp [passLead]

@[simp] theorem opLeadChange_tableWf (s : State) : tableWf (opLeadChange s) = tableWf s := by
  simp [opLeadChange]

@[simp] theorem noteDiffer_tableWf (differ : Bool) (s : State) : tableWf (noteDiffer differ s) = tableWf s := by
  simp [noteDiffer]

@[simp] theorem crossCompare_tableWf (i : SafeIn) (s : State) : tableWf (crossCompare i s) = tableWf s := by
  simp [crossCompare]

@[simp] theorem safeChannel_tableWf (i : SafeIn) (s : State) (c : Nat) : tableWf (safeChannel i s c) = tableWf s := by
  simp only [safeChannel]
  (repeat' split) <;> simp

@[simp] theorem chanBoundary_tableWf (s : State) (c : Nat) : tableWf (chanBoundary s c) = tableWf s := by
  simp [chanBoundary]

@[simp] theorem opChannelRejoin_tableWf (c : Nat) (s : State) : tableWf (opChannelRejoin c s) = tableWf s := by
  simp [opChannelRejoin]

@[simp] theorem plannedTest_tableWf (c : Nat) (s : State) : tableWf (plannedTest c s) = tableWf s := by
  simp [plannedTest]

@[simp] theorem opPlannedSelfTest_tableWf (s : State) : tableWf (opPlannedSelfTest s) = tableWf s := by
  simp only [opPlannedSelfTest]
  (repeat' split) <;> simp

@[simp] theorem opClockLoss_tableWf (c pclk : Nat) (s : State) : tableWf (opClockLoss c pclk s) = tableWf s := by
  simp [opClockLoss]

@[simp] theorem opSloutTestPulse_tableWf (fell rose : Bool) (s : State) : tableWf (opSloutTestPulse fell rose s) = tableWf s := by
  simp [opSloutTestPulse]

@[simp] theorem countBeacon_tableWf (s : State) : tableWf (countBeacon s) = tableWf s := by
  simp [countBeacon]

@[simp] theorem safeWork_tableWf (i : SafeIn) (s : State) : tableWf (safeWork i s) = tableWf s := by
  simp only [safeWork]
  split <;> simp

@[simp] theorem stopBoundary_tableWf (s : State) (a1 a2 b1 b2 voters : Bool) :
    tableWf (stopBoundary s a1 a2 b1 b2 voters) = tableWf s := by
  simp [stopBoundary]

@[simp] theorem opStopFilter_tableWf (d : Datagram) (wait : Nat) (s : State) : tableWf (opStopFilter d wait s) = tableWf s := by
  simp only [opStopFilter]
  (repeat' split) <;> simp

@[simp] theorem finishStop_tableWf (s : State) (r : Request) (hit : Option FilterRec) (status : Nat) :
    tableWf (finishStop s r hit status) = tableWf s := by
  simp [finishStop]

@[simp] theorem stopOp_tableWf (r : Request) (s : State) (opcode : Nat) (rsv ok : Bool) (req : State → State)
    (h : ∀ u, tableWf (req u) = tableWf u) : tableWf (stopOp r s opcode rsv ok req) = tableWf s := by
  simp [stopOp, h]

@[simp] theorem opStopAll_tableWf (r : Request) (s : State) : tableWf (opStopAll r s) = tableWf s := by
  simp [opStopAll]

@[simp] theorem opStopRobot_tableWf (r : Request) (s : State) : tableWf (opStopRobot r s) = tableWf s := by
  simp [opStopRobot]

@[simp] theorem opStopStatus_tableWf (r : Request) (s : State) : tableWf (opStopStatus r s) = tableWf s := by
  simp [opStopStatus]

@[simp] theorem opStopConfig_tableWf (r : Request) (s : State) : tableWf (opStopConfig r s) = tableWf s := by
  simp [opStopConfig]

@[simp] theorem opStopReleaseArm_tableWf (r : Request) (s : State) : tableWf (opStopReleaseArm r s) = tableWf s := by
  simp [opStopReleaseArm]

@[simp] theorem opStopReleaseConfirm_tableWf (r : Request) (s : State) : tableWf (opStopReleaseConfirm r s) = tableWf s := by
  unfold opStopReleaseConfirm
  exact runOp_keeps (by dsimp only; split <;> simp)

@[simp] theorem clearLatches_tableWf (site : Bool) (robot : Nat) (s : State) :
    tableWf (clearLatches site robot s) = tableWf s := by
  simp [clearLatches]

@[simp] theorem opReleaseApply_tableWf (s : State) : tableWf (opReleaseApply s) = tableWf s := by
  simp only [opReleaseApply]
  (repeat' split) <;> simp

@[simp] theorem opFltSwap_tableWf (s : State) : tableWf (opFltSwap s) = tableWf s := by
  simp [opFltSwap]

@[simp] theorem emitStop_tableWf (s : State) : tableWf (emitStop s) = tableWf s := by
  simp [emitStop]

/-! ### Radio -/

@[simp] theorem opRadioRx_tableWf (f : AirIn) (s : State) : tableWf (opRadioRx f s) = tableWf s := by
  unfold opRadioRx
  split
  · rfl
  split
  · exact modOne_tableWf ..
  split
  · exact modOne_tableWf ..
  · dsimp only
    split <;> next h =>
      have ha := snd_keeps h (admitFrame_tableWf ..)
      simp [ha]

@[simp] theorem addAir_tableWf (s : State) (khz us : Nat) : tableWf (addAir s khz us) = tableWf s := by
  simp [addAir]

@[simp] theorem cutAir_tableWf (s : State) (khz us : Nat) : tableWf (cutAir s khz us) = tableWf s := by
  simp [cutAir]

@[simp] theorem budgetEvent_tableWf (s : State) (cause r kind index : Nat) :
    tableWf (budgetEvent s cause r kind index) = tableWf s := by
  simp [budgetEvent]

@[simp] theorem onAir_tableWf (s : State) (r k khz us phy : Nat) (psdu : Bytes) :
    tableWf (onAir s r k khz us phy psdu) = tableWf s := by
  simp [onAir]

@[simp] theorem noteTx_tableWf (s : State) : tableWf (noteTx s) = tableWf s := by
  simp [noteTx]

@[simp] theorem queueCorrection_tableWf (s : State) (p : Bytes) : tableWf (queueCorrection s p) = tableWf s := by
  simp [queueCorrection]

@[simp] theorem raiseAirCeilings_tableWf (s : State) : tableWf (raiseAirCeilings s) = tableWf s := by
  simp [raiseAirCeilings]

@[simp] theorem launchDown_tableWf (s : State) (r k : Nat) : tableWf (launchDown s r k) = tableWf s := by
  simp only [launchDown]
  split <;> simp

@[simp] theorem launchFoghorn_tableWf (s : State) (r : Nat) : tableWf (launchFoghorn s r) = tableWf s := by
  simp [launchFoghorn]

@[simp] theorem opTimeslot_tableWf (k : Nat) (s : State) : tableWf (opTimeslot k s) = tableWf s := by
  simp [opTimeslot]

@[simp] theorem launchAlways_tableWf (s : State) (r k : Nat) (psdu : Bytes) (us : Nat) :
    tableWf (launchAlways s r k psdu us) = tableWf s := by
  simp [launchAlways]

@[simp] theorem launchBeacon_tableWf (s : State) (r : Nat) : tableWf (launchBeacon s r) = tableWf s := by
  simp only [launchBeacon]
  split <;> simp

@[simp] theorem opBeaconLaunch_tableWf (s : State) : tableWf (opBeaconLaunch s) = tableWf s := by
  simp [opBeaconLaunch]

@[simp] theorem launchStop_tableWf (s : State) (r k : Nat) : tableWf (launchStop s r k) = tableWf s := by
  simp [launchStop]

@[simp] theorem opStopFrame_tableWf (k : Nat) (s : State) : tableWf (opStopFrame k s) = tableWf s := by
  simp [opStopFrame]

@[simp] theorem radioBoundary_tableWf (s : State) : tableWf (radioBoundary s) = tableWf s := by
  simp [radioBoundary]

@[simp] theorem opRadioSettingsEffect_tableWf (s : State) : tableWf (opRadioSettingsEffect s) = tableWf s := by
  simp only [opRadioSettingsEffect]
  (repeat' split) <;> simp

@[simp] theorem opRadioTestExpiry_tableWf (s : State) : tableWf (opRadioTestExpiry s) = tableWf s := by
  simp [opRadioTestExpiry]

@[simp] theorem emitRadio_tableWf (s : State) : tableWf (emitRadio s) = tableWf s := by
  simp [emitRadio]

@[simp] theorem opRadioStatus_tableWf (r : Request) (s : State) : tableWf (opRadioStatus r s) = tableWf s := by
  simp [opRadioStatus]

@[simp] theorem applyRadioCfg_tableWf (p : Bytes) (c : RadioConfig) (s : State) : tableWf (applyRadioCfg p c s) = tableWf s := by
  simp [applyRadioCfg]

@[simp] theorem opRadioConfig_tableWf (r : Request) (s : State) : tableWf (opRadioConfig r s) = tableWf s := by
  simp [opRadioConfig]

@[simp] theorem opRadioBudget_tableWf (r : Request) (s : State) : tableWf (opRadioBudget r s) = tableWf s := by
  simp [opRadioBudget]

@[simp] theorem setTest_tableWf (s : State) (mask : Nat) (until' : Option Nat) : tableWf (setTest s mask until') = tableWf s := by
  simp [setTest]

@[simp] theorem opRadioTest_tableWf (r : Request) (s : State) : tableWf (opRadioTest r s) = tableWf s := by
  simp [opRadioTest]

/-! ### Sys -/

@[simp] theorem opSysIdentity_tableWf (r : Request) (s : State) : tableWf (opSysIdentity r s) = tableWf s := by
  simp [opSysIdentity]

@[simp] theorem opSysModeGet_tableWf (r : Request) (s : State) : tableWf (opSysModeGet r s) = tableWf s := by
  simp [opSysModeGet]

@[simp] theorem modeSetTo_tableWf (r : Request) (target : Mode) (s : State) : tableWf (modeSetTo r target s) = tableWf s := by
  simp [modeSetTo]

@[simp] theorem opSysModeSet_tableWf (r : Request) (s : State) : tableWf (opSysModeSet r s) = tableWf s := by
  unfold opSysModeSet
  split <;> simp

@[simp] theorem opSysReset_tableWf (r : Request) (s : State) : tableWf (opSysReset r s) = tableWf s := by
  simp [opSysReset]

@[simp] theorem opSysPowerConfig_tableWf (r : Request) (s : State) : tableWf (opSysPowerConfig r s) = tableWf s := by
  simp [opSysPowerConfig]

@[simp] theorem opSysSessionList_tableWf (r : Request) (s : State) : tableWf (opSysSessionList r s) = tableWf s := by
  simp [opSysSessionList]

@[simp] theorem opSysHostEnrol_tableWf (r : Request) (s : State) : tableWf (opSysHostEnrol r s) = tableWf s := by
  simp only [opSysHostEnrol]
  (repeat' split) <;> simp

@[simp] theorem opSysTenderClose_tableWf (r : Request) (s : State) : tableWf (opSysTenderClose r s) = tableWf s := by
  simp [opSysTenderClose]

/-! ### Keys -/

@[simp] theorem keyEvent_tableWf (s : State) (tag : Option (Nat × Nat)) (slot action gen : Nat) :
    tableWf (keyEvent s tag slot action gen) = tableWf s := by
  simp [keyEvent]

@[simp] theorem rollEvent_tableWf (s : State) (tag : Option (Nat × Nat)) (action beacon group effect : Nat) :
    tableWf (rollEvent s tag action beacon group effect) = tableWf s := by
  simp [rollEvent]

@[simp] theorem emitKeys_tableWf (s : State) : tableWf (emitKeys s) = tableWf s := by
  simp [emitKeys]

@[simp] theorem clearTags_tableWf (s : State) (l : List Nat) : tableWf (clearTags s l) = tableWf s := by
  simp [clearTags]

@[simp] theorem endAssocOf_tableWf (s : State) (eui : BitVec 64) : tableWf (endAssocOf s eui) = tableWf s := by
  simp only [endAssocOf]
  split <;> simp

@[simp] theorem orphan_tableWf (s : State) (i : Nat) : tableWf (orphan s i) = tableWf s := by
  simp only [orphan]
  (repeat' split) <;> simp

@[simp] theorem beginChange_tableWf (s : State) (r : Request) (i : Nat) (new : KeySlot) (destroy : Bool) (reply : Bytes) :
    tableWf (beginChange s r i new destroy reply) = tableWf s := by
  simp [beginChange]

@[simp] theorem opKeyStatus_tableWf (r : Request) (s : State) : tableWf (opKeyStatus r s) = tableWf s := by
  simp [opKeyStatus]

@[simp] theorem opKeySiteInstall_tableWf (r : Request) (s : State) : tableWf (opKeySiteInstall r s) = tableWf s := by
  simp only [opKeySiteInstall]
  (repeat' split) <;> simp

@[simp] theorem opKeyDestroy_tableWf (r : Request) (s : State) : tableWf (opKeyDestroy r s) = tableWf s := by
  simp [opKeyDestroy]

@[simp] theorem opKeyAnchorSet_tableWf (r : Request) (s : State) : tableWf (opKeyAnchorSet r s) = tableWf s := by
  simp [opKeyAnchorSet]

@[simp] theorem opKeyLinkSet_tableWf (r : Request) (s : State) : tableWf (opKeyLinkSet r s) = tableWf s := by
  unfold opKeyLinkSet
  exact runOp_keeps (need_keeps (takeLatched_tableWf s r) (by split <;> simp))

@[simp] theorem opKeyRobotExport_tableWf (r : Request) (s : State) : tableWf (opKeyRobotExport r s) = tableWf s := by
  simp [opKeyRobotExport]

@[simp] theorem opKeyRoll_tableWf (r : Request) (s : State) : tableWf (opKeyRoll r s) = tableWf s := by
  simp [opKeyRoll]

@[simp] theorem rollNow_tableWf (s : State) : tableWf (rollNow s) = tableWf s := by
  simp only [rollNow]
  split <;> simp

@[simp] theorem opRollEffective_tableWf (s : State) : tableWf (opRollEffective s) = tableWf s := by
  simp only [opRollEffective]
  split <;> simp

@[simp] theorem wipeSite_tableWf (s : State) : tableWf (wipeSite s) = tableWf s := by
  simp [wipeSite]

@[simp] theorem trip_tableWf (s : State) (i : Nat) : tableWf (trip s i) = tableWf s := by
  simp [trip]

@[simp] theorem opTamperCheck_tableWf (i : Nat) (found : Bool) (rtc : Nat) (s : State) :
    tableWf (opTamperCheck i found rtc s) = tableWf s := by
  simp [opTamperCheck]

@[simp] theorem opMaintenanceExpiry_tableWf (s : State) : tableWf (opMaintenanceExpiry s) = tableWf s := by
  simp [opMaintenanceExpiry]

@[simp] theorem keysBoundary_tableWf (s : State) : tableWf (keysBoundary s) = tableWf s := by
  simp [keysBoundary]

@[simp] theorem applyTamper_tableWf (s : State) : tableWf (applyTamper s) = tableWf s := by
  simp only [applyTamper]
  split <;> simp

@[simp] theorem opKeyTamperConfig_tableWf (r : Request) (s : State) : tableWf (opKeyTamperConfig r s) = tableWf s := by
  simp [opKeyTamperConfig]

@[simp] theorem opKeyTamperClear_tableWf (r : Request) (s : State) : tableWf (opKeyTamperClear r s) = tableWf s := by
  simp [opKeyTamperClear]

@[simp] theorem signStatements_tableWf (s : State) : tableWf (signStatements s) = tableWf s := by
  simp [signStatements]

@[simp] theorem opAttestGet_tableWf (r : Request) (s : State) : tableWf (opAttestGet r s) = tableWf s := by
  simp [opAttestGet]

/-! ### Update -/

@[simp] theorem modSlot_tableWf (s : State) (b : Bool) (f : ImageSlot → ImageSlot) : tableWf (modSlot s b f) = tableWf s := by
  simp [modSlot]

@[simp] theorem changeUpd_tableWf (s : State) (tag : Option (Nat × Nat)) (new cause : Nat) :
    tableWf (changeUpd s tag new cause) = tableWf s := by
  simp [changeUpd]

@[simp] theorem setUpd_tableWf (s : State) (new cause : Nat) : tableWf (setUpd s new cause) = tableWf s := by
  simp [setUpd]

@[simp] theorem setUpdBy_tableWf (s : State) (r : Request) (new cause : Nat) : tableWf (setUpdBy s r new cause) = tableWf s := by
  simp [setUpdBy]

@[simp] theorem emitUpd_tableWf (s : State) : tableWf (emitUpd s) = tableWf s := by
  simp [emitUpd]

@[simp] theorem opUpdStatus_tableWf (r : Request) (s : State) : tableWf (opUpdStatus r s) = tableWf s := by
  simp [opUpdStatus]

@[simp] theorem discardReady_tableWf (s : State) : tableWf (discardReady s) = tableWf s := by
  simp [discardReady]

@[simp] theorem opUpdBegin_tableWf (r : Request) (s : State) : tableWf (opUpdBegin r s) = tableWf s := by
  have h1 := takeLatched_tableWf s r
  unfold opUpdBegin
  refine runOp_keeps (need_keeps h1 (need_keeps h1 (need_keeps h1 ?_)))
  rw [change1_tableWf]
  refine ite_eq_of_both ?_ h1
  dsimp only
  split <;> simp

@[simp] theorem opUpdData_tableWf (r : Request) (s : State) : tableWf (opUpdData r s) = tableWf s := by
  simp [opUpdData]

@[simp] theorem opUpdFinish_tableWf (r : Request) (s : State) : tableWf (opUpdFinish r s) = tableWf s := by
  simp [opUpdFinish]

@[simp] theorem updBoundary_tableWf (s : State) : tableWf (updBoundary s) = tableWf s := by
  simp only [updBoundary]
  split <;> simp

@[simp] theorem opUpdFinishDone_tableWf (s : State) : tableWf (opUpdFinishDone s) = tableWf s := by
  simp only [opUpdFinishDone]
  split <;> simp

@[simp] theorem stopFinish_tableWf (s : State) : tableWf (stopFinish s) = tableWf s := by
  simp [stopFinish]

@[simp] theorem opUpdAbort_tableWf (r : Request) (s : State) : tableWf (opUpdAbort r s) = tableWf s := by
  have h1 := takeLatched_tableWf s r
  unfold opUpdAbort
  refine runOp_keeps (need_keeps h1 (need_keeps h1 ?_))
  rw [checkCsn_tableWf]
  refine ite_eq_of_both ?_ h1
  dsimp only
  (repeat' split) <;> simp

@[simp] theorem schedule_tableWf (r : Request) (v : Activation) (s : State) : tableWf (schedule r v s) = tableWf s := by
  simp [schedule]

@[simp] theorem opUpdActivate_tableWf (r : Request) (s : State) : tableWf (opUpdActivate r s) = tableWf s := by
  simp [opUpdActivate]

@[simp] theorem opUpdActivateAt_tableWf (r : Request) (s : State) : tableWf (opUpdActivateAt r s) = tableWf s := by
  simp [opUpdActivateAt]

@[simp] theorem opUpdRevert_tableWf (r : Request) (s : State) : tableWf (opUpdRevert r s) = tableWf s := by
  simp [opUpdRevert]

@[simp] theorem opAnchorActivateSend_tableWf (s : State) : tableWf (opAnchorActivateSend s) = tableWf s := by
  unfold opAnchorActivateSend
  split
  · rfl
  · split
    · rfl
    · refine foldl_keeps tableWf _ _ _ fun u l => ?_
      split
      · exact activateHeads_tableWf ..
      · rfl

@[simp] theorem checkPassed_tableWf (s : State) (v : Activation) : tableWf (checkPassed s v) = tableWf s := by
  simp [checkPassed]

@[simp] theorem opActivationCheck_tableWf (imagesOk : Bool) (s : State) : tableWf (opActivationCheck imagesOk s) = tableWf s := by
  simp only [opActivationCheck]
  (repeat' split) <;> simp

@[simp] theorem persistTrial_tableWf (s : State) : tableWf (persistTrial s) = tableWf s := by
  simp only [persistTrial]
  split <;> simp

@[simp] theorem applyFormat_tableWf (s : State) (new : PkgInfo) (revert : Bool) :
    tableWf (applyFormat s new revert) = tableWf s := by
  simp [applyFormat]

@[simp] theorem countReload_tableWf (s : State) (core : Nat) : tableWf (countReload s core) = tableWf s := by
  simp [countReload]

@[simp] theorem opActivation_tableWf (s : State) : tableWf (opActivation s) = tableWf s := by
  simp only [opActivation]
  split <;> simp

@[simp] theorem opCoreReload_tableWf (core : Nat) (s : State) : tableWf (opCoreReload core s) = tableWf s := by
  simp [opCoreReload]

@[simp] theorem opFltImageHandover_tableWf (s : State) : tableWf (opFltImageHandover s) = tableWf s := by
  simp only [opFltImageHandover]
  split <;> simp

@[simp] theorem freezeTrigger_tableWf (s : State) : tableWf (freezeTrigger s) = tableWf s := by
  simp only [freezeTrigger]
  split <;> simp

@[simp] theorem opFreezeEnd_tableWf (s : State) : tableWf (opFreezeEnd s) = tableWf s := by
  simp only [opFreezeEnd]
  (repeat' split) <;> simp

@[simp] theorem safOver_tableWf (s : State) (v : Activation) (failed : Bool) : tableWf (safOver s v failed) = tableWf s := by
  simp only [safOver]
  split <;> simp

@[simp] theorem nextTurn_tableWf (s : State) (v : Activation) : tableWf (nextTurn s v) = tableWf s := by
  simp only [nextTurn]
  split <;> simp

@[simp] theorem opSafUpdateTurn_tableWf (fail : Option Nat) (s : State) : tableWf (opSafUpdateTurn fail s) = tableWf s := by
  simp only [opSafUpdateTurn]
  (repeat' split) <;> simp

@[simp] theorem opActivationAbandon_tableWf (failed : Bool) (s : State) : tableWf (opActivationAbandon failed s) = tableWf s := by
  simp only [opActivationAbandon]
  split <;> simp

@[simp] theorem opUpdConfirm_tableWf (r : Request) (s : State) : tableWf (opUpdConfirm r s) = tableWf s := by
  simp [opUpdConfirm]

/-! ### Diag -/

@[simp] theorem addUnavail_tableWf (s : State) (cause n : Nat) : tableWf (addUnavail s cause n) = tableWf s := by
  simp [addUnavail]

@[simp] theorem emitFaults_tableWf (s : State) : tableWf (emitFaults s) = tableWf s := by
  simp [emitFaults]

@[simp] theorem opDiagStatus_tableWf (r : Request) (s : State) : tableWf (opDiagStatus r s) = tableWf s := by
  simp [opDiagStatus]

@[simp] theorem opDiagCounters_tableWf (r : Request) (s : State) : tableWf (opDiagCounters r s) = tableWf s := by
  unfold opDiagCounters
  exact runOp_keeps (by split <;> simp)

@[simp] theorem opDiagQueueStatus_tableWf (r : Request) (s : State) : tableWf (opDiagQueueStatus r s) = tableWf s := by
  simp [opDiagQueueStatus]

@[simp] theorem opDiagQueueConfig_tableWf (r : Request) (s : State) : tableWf (opDiagQueueConfig r s) = tableWf s := by
  simp only [opDiagQueueConfig]
  (repeat' split) <;> simp

@[simp] theorem scrubStrt_tableWf (s : State) : tableWf (scrubStrt s).2 = tableWf s := by
  simp [scrubStrt]

@[simp] theorem opDiagSelfTest_tableWf (r : Request) (s : State) : tableWf (opDiagSelfTest r s) = tableWf s := by
  simp only [opDiagSelfTest]
  (repeat' split) <;> simp

@[simp] theorem testsBoundary_tableWf (s : State) : tableWf (testsBoundary s) = tableWf s := by
  simp [testsBoundary]

@[simp] theorem reloadAfter_tableWf (s : State) (core : Nat) : tableWf (reloadAfter s core) = tableWf s := by
  simp [reloadAfter]

@[simp] theorem opSelfTestDone_tableWf (target : Nat) (fail : Bool) (detail : Nat) (s : State) :
    tableWf (opSelfTestDone target fail detail s) = tableWf s := by
  simp only [opSelfTestDone]
  split <;> simp

@[simp] theorem sendTable_tableWf (s : State) (r : Request) (csn : Nat) (parts : List Bytes) :
    tableWf (sendTable s r csn parts) = tableWf s := by
  simp only [sendTable]
  split <;> simp

@[simp] theorem takeSnap_tableWf {s u : State} {r : Request} {id : Nat} {k : StrtSnap} (h : takeSnap s r id = some (k, u)) :
    tableWf u = tableWf s := by
  unfold takeSnap at h
  split at h
  · cases h
    exact freshNat_tableWf s
  · obtain ⟨_, _, h⟩ := Option.map_eq_some_iff.mp h
    cases h
    rfl

@[simp] theorem opDiagTableRead_tableWf (r : Request) (s : State) : tableWf (opDiagTableRead r s) = tableWf s := by
  have h1 := takeLatched_tableWf s r
  unfold opDiagTableRead
  refine (tableWf_ite ..).trans (ite_eq_of_both rfl (runOp_keeps (need_keeps h1 ?_)))
  dsimp only
  split
  · exact (sendTable_tableWf ..).trans h1
  split
  · exact (finish_tableWf ..).trans h1
  · next h => exact (sendTable_tableWf ..).trans ((takeSnap_tableWf h).trans h1)

@[simp] theorem writeRptItem_tableWf (s : State) (item : Bytes) : tableWf (writeRptItem s item).2.2 = tableWf s := by
  simp only [writeRptItem]
  (repeat' split) <;> simp

/-! ### Running -/

@[simp] theorem endOne_tableWf (e : Ending) (s : State) (r : Request) : tableWf (endOne e s r) = tableWf s := by
  simp [endOne]

@[simp] theorem endGnssCal_tableWf (p : Request → Bool) (e : Ending) (s : State) : tableWf (endGnssCal p e s) = tableWf s := by
  simp only [endGnssCal]
  split <;> simp

@[simp] theorem endSurvey_tableWf (p : Request → Bool) (e : Ending) (s : State) : tableWf (endSurvey p e s) = tableWf s := by
  simp only [endSurvey]
  split <;> simp

@[simp] theorem endRelayCmd_tableWf (p : Request → Bool) (e : Ending) (s : State) : tableWf (endRelayCmd p e s) = tableWf s := by
  simp only [endRelayCmd]
  split <;> simp

@[simp] theorem endBuoyCal_tableWf (p : Request → Bool) (e : Ending) (s : State) : tableWf (endBuoyCal p e s) = tableWf s := by
  simp only [endBuoyCal]
  split <;> simp

@[simp] theorem endTests_tableWf (p : Request → Bool) (e : Ending) (s : State) : tableWf (endTests p e s) = tableWf s := by
  simp [endTests]

@[simp] theorem endFresh_tableWf (p : Request → Bool) (e : Ending) (s : State) : tableWf (endFresh p e s) = tableWf s := by
  simp [endFresh]

@[simp] theorem endChanges_tableWf (p : Request → Bool) (e : Ending) (s : State) : tableWf (endChanges p e s) = tableWf s := by
  simp [endChanges]

@[simp] theorem endUpdFinish_tableWf (p : Request → Bool) (e : Ending) (s : State) :
    tableWf (endUpdFinish p e s) = tableWf s := by
  simp only [endUpdFinish]
  split <;> simp

@[simp] theorem endPaths_tableWf (p : Request → Bool) (e : Ending) (s : State) : tableWf (endPaths p e s) = tableWf s := by
  simp [endPaths]

@[simp] theorem endRunning_tableWf (p : Request → Bool) (e : Ending) (s : State) : tableWf (endRunning p e s) = tableWf s := by
  simp [endRunning]

@[simp] theorem endByMode_tableWf (s : State) : tableWf (endByMode s) = tableWf s := by
  simp [endByMode]

/-! ### Sessions -/

@[simp] theorem modPort_tableWf (s : State) (port : Port) (f : PortCounters → PortCounters) :
    tableWf (modPort s port f) = tableWf s := by
  simp [modPort]

@[simp] theorem countSession_tableWf (s : State) (slot i : Nat) : tableWf (countSession s slot i) = tableWf s := by
  simp [countSession]

@[simp] theorem takeCredit_tableWf (d : Datagram) (slot : Nat) (s : State) : tableWf (takeCredit d slot s) = tableWf s := by
  simp [takeCredit]

@[simp] theorem latchLimits_tableWf (s : State) : tableWf (latchLimits s) = tableWf s := by
  simp [latchLimits]

@[simp] theorem reject_tableWf (s : State) (d : Datagram) (slot viol status : Nat) :
    tableWf (reject s d slot viol status) = tableWf s := by
  simp [reject]

@[simp] theorem resend_tableWf (s : State) (k : Packet) : tableWf (resend s k) = tableWf s := by
  simp [resend]

@[simp] theorem enqueue_tableWf (s : State) (d : Datagram) (slot : Nat) : tableWf (enqueue s d slot) = tableWf s := by
  simp [enqueue]

@[simp] theorem retry_tableWf (s : State) (d : Datagram) (slot : Nat) (e : Session) : tableWf (retry s d slot e) = tableWf s := by
  simp only [retry]
  (repeat' split) <;> simp

@[simp] theorem acceptPacket_tableWf (s : State) (d : Datagram) (slot : Nat) (e : Session) :
    tableWf (acceptPacket s d slot e) = tableWf s := by
  simp [acceptPacket]

@[simp] theorem setOpenSeq_tableWf (s : State) (host seq : Nat) : tableWf (setOpenSeq s host seq) = tableWf s := by
  simp [setOpenSeq]

@[simp] theorem receiveOpen_tableWf (s : State) (d : Datagram) : tableWf (receiveOpen s d) = tableWf s := by
  simp only [receiveOpen]
  split <;> simp

@[simp] theorem receiveIn_tableWf (s : State) (d : Datagram) (slot : Nat) (e : Session) :
    tableWf (receiveIn s d slot e) = tableWf s := by
  simp only [receiveIn]
  split <;> simp

@[simp] theorem countElsewhere_tableWf (s : State) (d : Datagram) : tableWf (countElsewhere s d) = tableWf s := by
  simp only [countElsewhere]
  split <;> simp

@[simp] theorem receive_tableWf (s : State) (d : Datagram) : tableWf (receive s d) = tableWf s := by
  simp only [receive]
  (repeat' split) <;> simp

@[simp] theorem opCommandReceive_tableWf (d : Datagram) (s : State) : tableWf (opCommandReceive d s) = tableWf s := by
  simp [opCommandReceive]

@[simp] theorem opHostCredit_tableWf (d : Datagram) (s : State) : tableWf (opHostCredit d s) = tableWf s := by
  simp [opHostCredit]

@[simp] theorem dropSession_tableWf (s : State) (slot : Nat) (own : Bool) : tableWf (dropSession s slot own) = tableWf s := by
  simp only [dropSession]
  split <;> simp

@[simp] theorem closeSession_tableWf (s : State) (slot reason : Nat) (own : Bool) (tag : Option (Nat × Nat)) :
    tableWf (closeSession s slot reason own tag) = tableWf s := by
  simp only [closeSession]
  split <;> simp

@[simp] theorem closeBy_tableWf (s : State) (slot reason : Nat) : tableWf (closeBy s slot reason) = tableWf s := by
  simp [closeBy]

@[simp] theorem checkLeases_tableWf (s : State) : tableWf (checkLeases s) = tableWf s := by
  simp [checkLeases]

@[simp] theorem opLease_tableWf (slot : Nat) (s : State) : tableWf (opLease slot s) = tableWf s := by
  simp only [opLease]
  split <;> simp

@[simp] theorem closeDue_tableWf (s : State) : tableWf (closeDue s) = tableWf s := by
  unfold closeDue
  refine (foldl_keeps tableWf _ _ _ fun u b => ?_).trans ?_
  · (repeat' split) <;> simp
  · dsimp only

@[simp] theorem openSession_tableWf (r : Request) (role : Role) (slot : Nat) (s : State) :
    tableWf (openSession r role slot s) = tableWf s := by
  simp [openSession]

@[simp] theorem opSysSessionOpen_tableWf (r : Request) (s : State) : tableWf (opSysSessionOpen r s) = tableWf s := by
  have h1 := takeLatched_tableWf s r
  unfold opSysSessionOpen
  dsimp only
  split
  · simp
  split
  · rfl
  split
  · exact (finish_tableWf ..).trans h1
  split
  · exact (finish_tableWf ..).trans h1
  split
  · exact (finish_tableWf ..).trans h1
  · refine need_keeps h1 (need_keeps h1 ?_)
    split <;> simp

@[simp] theorem opSysSessionClose_tableWf (r : Request) (s : State) : tableWf (opSysSessionClose r s) = tableWf s := by
  unfold opSysSessionClose
  exact runOp_keeps (by dsimp only; split <;> simp [opSysSessionClose.closeOther])

@[simp] theorem opSysHostRevoke_tableWf (r : Request) (s : State) : tableWf (opSysHostRevoke r s) = tableWf s := by
  simp [opSysHostRevoke]

@[simp] theorem opHostLoss_tableWf (s : State) : tableWf (opHostLoss s) = tableWf s := by
  simp [opHostLoss]

@[simp] theorem opReferenceLost_tableWf (s : State) : tableWf (opReferenceLost s) = tableWf s := by
  simp [opReferenceLost]

/-! ### Boot -/

@[simp] theorem opBackupDomainLoss_tableWf (s : State) : tableWf (opBackupDomainLoss s) = tableWf s := by
  simp [opBackupDomainLoss]

@[simp] theorem countTrial_tableWf (s : State) (b : Bool) : tableWf (countTrial s b) = tableWf s := by
  simp [countTrial]

@[simp] theorem trySlots_tableWf (i : BootIn) (first : Bool) (l : List Bool) (s : State) :
    tableWf (trySlots i first l s).2 = tableWf s := by
  induction l generalizing s with
  | nil => rfl
  | cons b l ih => simp [trySlots, apply_ite Prod.snd, ih]

@[simp] theorem bootFailed_tableWf (s : State) : tableWf (bootFailed s) = tableWf s := by
  simp [bootFailed]

@[simp] theorem slotChosen_tableWf (b : Bool) (s : State) : tableWf (slotChosen b s) = tableWf s := by
  simp [slotChosen]

@[simp] theorem checkSlot_tableWf (s : State) (i : Nat) : tableWf (checkSlot s i) = tableWf s := by
  simp [checkSlot]

@[simp] theorem restoreBackup_tableWf (s : State) : tableWf (restoreBackup s) = tableWf s := by
  simp [restoreBackup]

@[simp] theorem wipedWork_tableWf (s : State) : tableWf (wipedWork s) = tableWf s := by
  simp [wipedWork]

@[simp] theorem keysStill_tableWf (s : State) : tableWf (keysStill s) = tableWf s := by
  simp [keysStill]

@[simp] theorem ceilings_tableWf (s : State) : tableWf (ceilings s) = tableWf s := by
  simp [ceilings]

@[simp] theorem countReset_tableWf (i : BootIn) (s : State) : tableWf (countReset i s) = tableWf s := by
  simp [countReset]

@[simp] theorem rebuild_tableWf (s : State) : tableWf (rebuild s) = tableWf s := by
  simp [rebuild]

@[simp] theorem robotStill_tableWf (s : State) (i : Nat) : tableWf (robotStill s i) = tableWf s := by
  simp only [robotStill]
  (repeat' split) <;> simp

@[simp] theorem phase6_tableWf (i : BootIn) (s : State) : tableWf (phase6 i s) = tableWf s := by
  simp [phase6]

/-! ### Faults -/

@[simp] theorem fltFailed_tableWf (s : State) : tableWf (fltFailed s) = tableWf s := by
  simp [fltFailed]

@[simp] theorem voidPositions_tableWf (s : State) : tableWf (voidPositions s) = tableWf s := by
  simp [voidPositions]

@[simp] theorem safOverrun_tableWf (c : Nat) (s : State) : tableWf (safOverrun c s) = tableWf s := by
  simp only [safOverrun]
  split <;> simp

@[simp] theorem failSec_tableWf (s : State) : tableWf (failSec s) = tableWf s := by
  simp only [failSec]
  split <;> simp

@[simp] theorem secOverrun_tableWf (s : State) : tableWf (secOverrun s).2 = tableWf s := by
  simp only [secOverrun]
  (repeat' split) <;> simp

@[simp] theorem overrunAction_tableWf (s : State) (core : Nat) : tableWf (overrunAction s core).2 = tableWf s := by
  simp only [overrunAction]
  (repeat' split) <;> simp

@[simp] theorem overrun_tableWf (s : State) (core : Nat) (w : Window) : tableWf (overrun s core w) = tableWf s := by
  simp [overrun]

@[simp] theorem opWindowOverrun_tableWf (core : Nat) (w : Window) (s : State) :
    tableWf (opWindowOverrun core w s) = tableWf s := by
  simp [opWindowOverrun]

@[simp] theorem countUncorrected_tableWf (s : State) (k : Nat) : tableWf (countUncorrected s k) = tableWf s := by
  simp [countUncorrected]

@[simp] theorem countCorrected_tableWf (s : State) (block : Nat) : tableWf (countCorrected s block) = tableWf s := by
  simp only [countCorrected]
  split <;> simp

@[simp] theorem memEvent_tableWf (s : State) (f : MemFault) : tableWf (memEvent s f) = tableWf s := by
  simp [memEvent]

@[simp] theorem coreFault_tableWf (s : State) (core : Nat) (w : Window) : tableWf (coreFault s core w) = tableWf s := by
  simp [coreFault]

@[simp] theorem rptFault_tableWf (s : State) (k : Nat) : tableWf (rptFault s k) = tableWf s := by
  simp [rptFault]

@[simp] theorem tableFault_tableWf (s : State) (table k : Nat) : tableWf (tableFault s table k) = tableWf s := by
  simp only [tableFault]
  split <;> simp

@[simp] theorem rptRestored_tableWf (s : State) (k : Nat) : tableWf (rptRestored s k) = tableWf s := by
  simp [rptRestored]

@[simp] theorem restoreOne_tableWf (s : State) (e : Nat × Nat) : tableWf (restoreOne s e) = tableWf s := by
  simp only [restoreOne]
  split <;> simp

@[simp] theorem restoreTables_tableWf (s : State) : tableWf (restoreTables s) = tableWf s := by
  simp [restoreTables]

@[simp] theorem searchFault_tableWf (s : State) (unit : Nat) : tableWf (searchFault s unit) = tableWf s := by
  simp [searchFault]

@[simp] theorem captureFault_tableWf (s : State) : tableWf (captureFault s) = tableWf s :=
  foldl_keeps tableWf _ _ _ fun _ _ => rfl

@[simp] theorem stagingFault_tableWf (s : State) : tableWf (stagingFault s) = tableWf s := by
  simp [stagingFault]

@[simp] theorem dramFault_tableWf (s : State) (f : MemIn) : tableWf (dramFault s f) = tableWf s := by
  simp only [dramFault]
  split <;> simp

/-! ### Persist -/

@[simp] theorem finalise_tableWf (s : State) : tableWf (finalise s) = tableWf s := by
  simp [finalise]

@[simp] theorem writeRec_tableWf (s : State) (j : JournalRec) : tableWf (writeRec s j) = tableWf s := by
  simp [writeRec]

@[simp] theorem writeCmdRec_tableWf (s : State) (j : JournalRec) : tableWf (writeCmdRec s j) = tableWf s := by
  simp [writeCmdRec]

@[simp] theorem writeInternal_tableWf (s : State) (e : InternalRec) : tableWf (writeInternal s e) = tableWf s := by
  simp [writeInternal]

@[simp] theorem writeLogs_tableWf (s : State) : tableWf (writeLogs s) = tableWf s :=
  foldl_keeps tableWf _ _ s fun _ _ => rfl

@[simp] theorem writeJournal_tableWf (s : State) : tableWf (writeJournal s) = tableWf s := by
  simp [writeJournal]

@[simp] theorem writeControl_tableWf (s : State) : tableWf (writeControl s) = tableWf s := by
  simp [writeControl]

@[simp] theorem confirmStandby_tableWf (s : State) : tableWf (confirmStandby s) = tableWf s := by
  simp [confirmStandby]

/-! ### Cycle -/

@[simp] theorem shiftSessions_tableWf (d : Int) (s : State) : tableWf (shiftSessions d s) = tableWf s := by
  simp [shiftSessions]

@[simp] theorem shiftLinks_tableWf (d : Int) (s : State) : tableWf (shiftLinks d s) = tableWf s := by
  simp [shiftLinks]

@[simp] theorem shiftRobots_tableWf (d : Int) (s : State) : tableWf (shiftRobots d s) = tableWf s := by
  simp [shiftRobots]

@[simp] theorem shiftStop_tableWf (d : Int) (s : State) : tableWf (shiftStop d s) = tableWf s := by
  simp [shiftStop]

@[simp] theorem shiftAll_tableWf (d : Int) (s : State) : tableWf (shiftAll d s) = tableWf s := by
  simp [shiftAll]

@[simp] theorem stepState_tableWf (s : State) (q : StepReq) : tableWf (stepState s q) = tableWf s := by
  simp [stepState]

@[simp] theorem applyStep_tableWf (s : State) (q : StepReq) : tableWf (applyStep s q) = tableWf s := by
  simp [applyStep]

@[simp] theorem opStep_tableWf (s : State) : tableWf (opStep s) = tableWf s := by
  simp only [opStep]
  split <;> simp

@[simp] theorem handOver_tableWf (s : State) : tableWf (handOver s) = tableWf s := by
  simp only [handOver]
  split <;> simp

@[simp] theorem powerBoundary_tableWf (s : State) : tableWf (powerBoundary s) = tableWf s := by
  simp [powerBoundary]

@[simp] theorem supplyBoundary_tableWf (s : State) (mv : Nat) : tableWf (supplyBoundary s mv) = tableWf s := by
  simp [supplyBoundary]

@[simp] theorem latchInputs_tableWf (s : State) : tableWf (latchInputs s) = tableWf s := by
  simp [latchInputs]

@[simp] theorem modeBoundary_tableWf (s : State) (lull : Bool) : tableWf (modeBoundary s lull) = tableWf s := by
  simp [modeBoundary]

@[simp] theorem takeLeap_tableWf (s : State) (i : SolveIn) : tableWf (takeLeap s i) = tableWf s := by
  simp only [takeLeap]
  split <;> simp

@[simp] theorem posWork_tableWf (s : State) (i : SolveIn) : tableWf (posWork s i) = tableWf s := by
  simp [posWork]

@[simp] theorem countReferences_tableWf (s : State) : tableWf (countReferences s) = tableWf s := by
  simp [countReferences]

/-! ### Windows -/

@[simp] theorem opBuoyRelay_tableWf (r : Request) (s : State) : tableWf (opBuoyRelay r s) = tableWf s := by
  simp only [opBuoyRelay]
  split <;> simp

@[simp] theorem badOpcode_tableWf (r : Request) (s : State) : tableWf (badOpcode r s) = tableWf s := by
  simp [badOpcode]

@[simp] theorem opsSys_tableWf {n : Nat} {f : Request → State → State} (h : opsSys n = some f) (r : Request) (s : State) :
    tableWf (f r s) = tableWf s := by
  unfold opsSys at h
  split at h <;> simp at h <;> subst h <;>
    simp

@[simp] theorem opsTime_tableWf {n : Nat} {f : Request → State → State} (h : opsTime n = some f) (r : Request) (s : State) :
    tableWf (f r s) = tableWf s := by
  unfold opsTime at h
  split at h <;> simp at h <;> subst h <;>
    simp

@[simp] theorem opsGnss_tableWf {n : Nat} {f : Request → State → State} (h : opsGnss n = some f) (r : Request) (s : State) :
    tableWf (f r s) = tableWf s := by
  unfold opsGnss at h
  split at h <;> simp at h <;> subst h <;>
    simp

@[simp] theorem opsRef_tableWf {n : Nat} {f : Request → State → State} (h : opsRef n = some f) (r : Request) (s : State) :
    tableWf (f r s) = tableWf s := by
  unfold opsRef at h
  split at h <;> simp at h <;> subst h <;>
    simp

@[simp] theorem opsBuoy_tableWf {n : Nat} {f : Request → State → State} (h : opsBuoy n = some f) (r : Request) (s : State) :
    tableWf (f r s) = tableWf s := by
  unfold opsBuoy at h
  split at h <;> simp at h <;> subst h <;>
    simp

@[simp] theorem opsTask_tableWf {n : Nat} {f : Request → State → State} (h : opsTask n = some f) (r : Request) (s : State) :
    tableWf (f r s) = tableWf s := by
  unfold opsTask at h
  split at h <;> simp at h <;> subst h <;>
    simp

@[simp] theorem opsStop_tableWf {n : Nat} {f : Request → State → State} (h : opsStop n = some f) (r : Request) (s : State) :
    tableWf (f r s) = tableWf s := by
  unfold opsStop at h
  split at h <;> simp at h <;> subst h <;>
    simp

@[simp] theorem opsRadio_tableWf {n : Nat} {f : Request → State → State} (h : opsRadio n = some f) (r : Request) (s : State) :
    tableWf (f r s) = tableWf s := by
  unfold opsRadio at h
  split at h <;> simp at h <;> subst h <;>
    simp

@[simp] theorem opsCan_tableWf {n : Nat} {f : Request → State → State} (h : opsCan n = some f) (r : Request) (s : State) :
    tableWf (f r s) = tableWf s := by
  unfold opsCan at h
  split at h <;> simp at h <;> subst h <;>
    simp

@[simp] theorem opsKey_tableWf {n : Nat} {f : Request → State → State} (h : opsKey n = some f) (r : Request) (s : State) :
    tableWf (f r s) = tableWf s := by
  unfold opsKey at h
  split at h <;> simp at h <;> subst h <;>
    simp

@[simp] theorem opsUpd_tableWf {n : Nat} {f : Request → State → State} (h : opsUpd n = some f) (r : Request) (s : State) :
    tableWf (f r s) = tableWf s := by
  unfold opsUpd at h
  split at h <;> simp at h <;> subst h <;>
    simp

@[simp] theorem opsJrnl_tableWf {n : Nat} {f : Request → State → State} (h : opsJrnl n = some f) (r : Request) (s : State) :
    tableWf (f r s) = tableWf s := by
  unfold opsJrnl at h
  split at h <;> simp at h <;> subst h <;>
    simp

@[simp] theorem endFaulted_tableWf (s : State) : tableWf (endFaulted s) = tableWf s := by
  simp [endFaulted]

@[simp] theorem goOnPosts_tableWf (s : State) : tableWf (goOnPosts s) = tableWf s := by
  simp [goOnPosts]

@[simp] theorem makeSubmitted_tableWf (s : State) : tableWf (makeSubmitted s) = tableWf s := by
  simp [makeSubmitted]

@[simp] theorem endPathAtStep_tableWf (s : State) (i : Nat) : tableWf (endPathAtStep s i) = tableWf s := by
  simp [endPathAtStep]

@[simp] theorem stepEnds_tableWf (s : State) : tableWf (stepEnds s) = tableWf s := by
  simp [stepEnds]

/-! ### Release -/

@[simp] theorem emitViolations_tableWf (s : State) : tableWf (emitViolations s) = tableWf s := by
  unfold emitViolations
  refine (foldl_keeps tableWf _ _ _ fun u b => ?_).trans ?_
  · (repeat' split) <;> simp
  · dsimp only

@[simp] theorem emitDropped_tableWf (s : State) : tableWf (emitDropped s) = tableWf s := by
  simp [emitDropped]

@[simp] theorem emitMode_tableWf (s : State) : tableWf (emitMode s) = tableWf s := by
  simp only [emitMode]
  split <;> simp

@[simp] theorem emitCondition_tableWf (s : State) : tableWf (emitCondition s) = tableWf s := by
  simp [emitCondition]

@[simp] theorem emitBroadcasts_tableWf (s : State) : tableWf (emitBroadcasts s) = tableWf s := by
  simp only [emitBroadcasts]
  split <;> simp

@[simp] theorem emitAll_tableWf (s : State) : tableWf (emitAll s) = tableWf s := by
  simp [emitAll]

@[simp] theorem openWindow_tableWf (s : State) (w : Window) : tableWf (openWindow s w) = tableWf s := by
  simp [openWindow]

@[simp] theorem passWindow_tableWf (s : State) (w : Window) : tableWf (passWindow s w) = tableWf s := by
  simp [passWindow]

@[simp] theorem timeBoundary_tableWf (s : State) (b : Counter) (board encl : Int) :
    tableWf (timeBoundary s b board encl) = tableWf s := by
  simp [timeBoundary]

@[simp] theorem stepBoundary_tableWf (s : State) (b : Counter) (board encl : Int) :
    tableWf (stepBoundary s b board encl) = tableWf s := by
  unfold stepBoundary
  rw [selectReference_tableWf, shiftAll_tableWf, tableWf_mk, tableWf_fold, tableWf_mk, tableWf_fold, settleTime_tableWf,
    enterTimeState_tableWf, tableWf_mk, tableWf_fold]

@[simp] theorem clockBoundary_tableWf (s : State) (i : BoundaryIn) : tableWf (clockBoundary s i) = tableWf s := by
  unfold clockBoundary
  cases s.time.step <;> simp

@[simp] theorem completePersist_tableWf (s : State) : tableWf (completePersist s) = tableWf s := by
  simp [completePersist]

@[simp] theorem settlePersist_tableWf (s : State) : tableWf (settlePersist s) = tableWf s := by
  simp [settlePersist]

@[simp] theorem closeFc_tableWf (s : State) : tableWf (closeFc s) = tableWf s := by
  simp [closeFc]

@[simp] theorem sensorBoundary_tableWf (s : State) (i : BoundaryIn) : tableWf (sensorBoundary s i) = tableWf s := by
  simp [sensorBoundary]

@[simp] theorem provBoundary_tableWf (s : State) : tableWf (provBoundary s) = tableWf s := by
  simp [provBoundary]

@[simp] theorem mramFault_tableWf (s : State) (f : MemIn) : tableWf (mramFault s f) = tableWf s := by
  simp [mramFault]

@[simp] theorem phase5_tableWf (i : BootIn) (s : State) : tableWf (phase5 i s) = tableWf s := by
  simp [phase5]

@[simp] theorem phase5Fault_tableWf (s : State) : tableWf (phase5Fault s) = tableWf s := by
  simp [phase5Fault]

@[simp] theorem phase7_tableWf (i : BootIn) (bkLost : Bool) (s : State) : tableWf (phase7 i bkLost s) = tableWf s := by
  simp only [phase7, tableWf_mk, tableWf_fold]

@[simp] theorem opSafeWindow_tableWf (i : SafeIn) (s : State) : tableWf (opSafeWindow i s) = tableWf s := by
  simp [opSafeWindow]

@[simp] theorem opSolveWindow_tableWf (i : SolveIn) (s : State) : tableWf (opSolveWindow i s) = tableWf s := by
  have hd : tableWf (drainMsgs (drainMsgs (openWindow s .solve) 0x28 applySleep) 0x20 applyReport) = tableWf s := by
    rw [drainMsgs_tableWf _ _ _ applyReport_tableWf, drainMsgs_tableWf _ _ _ applySleep_tableWf, openWindow_tableWf]
  simp [opSolveWindow, hd]

@[simp] theorem opEmitWindow_tableWf (s : State) : tableWf (opEmitWindow s) = tableWf s := by
  simp [opEmitWindow]

@[simp] theorem next_tableWf {s t u : State} (h : (Host.Outcome.next u : Host.Outcome State Fault Refusal) = .next t)
    (hu : tableWf u = tableWf s) : tableWf t = tableWf s := by
  cases h
  exact hu

@[simp] theorem guarded_tableWf {c : Prop} [Decidable c] {s t u : State} {r : Fault}
    (h : (if c then Host.Outcome.next u else .fault r : Host.Outcome State Fault Refusal) = .next t)
    (hu : tableWf u = tableWf s) : tableWf t = tableWf s := by
  split at h
  · exact next_tableWf h hu
  · cases h

@[simp] theorem onQueue_tableWf {q : Nat} {f : QParam → State → State} {s t : State}
    (h : (match qParam q with
      | none => .fault .noSuchUnit
      | some p => .next (f p s) : Host.Outcome State Fault Refusal) = .next t)
    (hf : ∀ p, tableWf (f p s) = tableWf s) : tableWf t = tableWf s := by
  cases hq : qParam q with
  | none => rw [hq] at h; cases h
  | some p => rw [hq] at h; exact next_tableWf h (hf p)

end Sys2Proof.Machine
end

section
/-! PROOFS. What writes the reservation table keeps its form: the words of entries are never that of a free way, inserts, moves,
removals and sweeps go through `putWay`, `tdel`, `filter` and `map` (`putWay_wf`, `tdel_wf`, `filter_wf`, `map_wf`), and every
operation that writes ways is made of these. -/

namespace Sys2Proof.Machine

open Sys2Proof

/-! ### Words of entries (R295 to R298) -/

theorem nibbles_lt (n x : Nat) : nibbles n x < 2 ^ 4 := by
  induction n generalizing x with
  | zero => exact Nat.two_pow_pos 4
  | succ n ih => exact Nat.xor_lt_two_pow (Nat.mod_lt _ (by decide)) (ih _)

theorem chk_lt (w : BitVec 64) : chk w < 16 := Nat.xor_lt_two_pow (by decide) (nibbles_lt ..)

/-- A sealed word with its VALID bit set is not that of a free way. -/
theorem sealed_ne_freeWord {x : Nat} (h : x % 32 = 16) : sealed x ≠ freeWord := by
  intro he
  have hc := chk_lt (BitVec.ofNat 64 (x / 16 * 16))
  have ht := congrArg BitVec.toNat he
  simp only [sealed, freeWord, BitVec.toNat_ofNat] at ht
  omega

theorem entry_ne_freeWord (cell slot10 owner kind age : Nat) (lock : Bool) :
    entry cell slot10 owner kind age lock ≠ freeWord := by
  refine sealed_ne_freeWord ?_
  have hf : flag lock 6 = 64 * lock.toNat := by cases lock <;> rfl
  omega

theorem reEntry_ne_freeWord (w : BitVec 64) (kind age : Nat) : reEntry w kind age ≠ freeWord :=
  entry_ne_freeWord _ _ _ _ _ _

/-- Entries written again in their ways under another KIND and AGE. -/
theorem reEntries_wf {t : Tbl (BitVec 64)} (h : waysWf t = true) (p : Nat × BitVec 64 → Bool) (kind age : Nat) :
    waysWf (t.map fun e => (e.1, if p e then reEntry e.2 kind age else e.2)) = true := by
  refine map_wf h _ fun e he => ?_
  split
  · exact reEntry_ne_freeWord _ _ _
  · exact ((waysWf_iff t).mp h).2 e he

/-! ### Inserts, moves and the writes of a request (R304, R306) -/

section
variable {t u : Tbl (BitVec 64)} (h : waysWf t = true)
include h

theorem moveChain_wf (chain : List Nat) : waysWf (moveChain t chain) = true := by
  fun_induction moveChain t chain with
  | case1 a b rest t' ih => exact tdel_wf (putWay_wf ih b _) a
  | case2 => exact h

theorem insertEntry_wf {w : BitVec 64} {n : Nat} (hi : insertEntry t w = some (u, n)) : waysWf u = true := by
  unfold insertEntry at hi
  dsimp only at hi
  split at hi
  · cases hi
    exact putWay_wf h ..
  split at hi
  · cases hi
    exact putWay_wf (moveChain_wf h _) ..
  · cases hi

theorem writeKey_wf {age n : Nat} {k : Key} (hw : writeKey t age k = some (u, n)) : waysWf u = true := by
  unfold writeKey at hw
  split at hw
  · exact insertEntry_wf h hw
  all_goals cases hw
  · exact putWay_wf h ..
  · exact putWay_wf h ..
  · exact h
  · exact h

end

theorem writeKeys_wf {age : Nat} {keys : List Key} {t u : Tbl (BitVec 64)} {pos m n : Nat} (h : waysWf t = true)
    (hw : writeKeys age t pos m keys = .ok (u, n)) : waysWf u = true := by
  induction keys generalizing t pos m with
  | nil => cases hw; exact h
  | cons k ks ih =>
    rw [writeKeys] at hw
    split at hw
    · next hk => exact ih (writeKey_wf h hk) hw
    · cases hw

/-! ### The operations on the table -/

/-- The state of a pair as it is matched. -/
theorem snd_canonical {α : Type} {p : α × State} {x : α} {t : State} (h : p = (x, t)) (hp : tableWf p.2 = true) :
    tableWf t = true := by
  subst h
  exact hp

/-- A fold whose steps each keep the form of the table keeps it. -/
theorem foldl_canonical {β : Type} {f : State → β → State}
    (hf : ∀ {u : State}, tableWf u = true → ∀ b, tableWf (f u b) = true) (l : List β) {s : State} (h : tableWf s = true) :
    tableWf (l.foldl f s) = true := by
  induction l generalizing s with
  | nil => exact h
  | cons b l ih => exact ih (hf h b)

/-- The same for a fold that carries a value beside the state. -/
theorem foldl_snd_canonical {α β : Type} {f : α × State → β → α × State}
    (hf : ∀ {a : α × State}, tableWf a.2 = true → ∀ b, tableWf (f a b).2 = true) (l : List β) {a : α × State}
    (h : tableWf a.2 = true) : tableWf (l.foldl f a).2 = true := by
  induction l generalizing a with
  | nil => exact h
  | cons b l ih => exact ih (hf h b)

section
variable {s : State} (h : tableWf s = true)
include h

theorem reserve_canonical (keys : List Key) : tableWf (reserve s keys).2 = true := by
  have hd : tableWf (detectKeys s keys) = true := (detectKeys_tableWf s keys).trans h
  unfold reserve
  dsimp only
  split
  · exact hd
  split
  · exact hd
  split
  · exact (chainFailed_tableWf ..).trans hd
  · next hw => exact (noteFill_tableWf _).trans (writeKeys_wf hd hw)

theorem removeKey_canonical (k : Key) : tableWf (removeKey s k) = true := by
  unfold removeKey
  split
  · split
    · exact h
    split
    · exact putWay_wf h ..
    split
    · show waysWf (if _ then _ else _) = true
      split
      · exact putWay_wf h ..
      · exact h
    · exact tdel_wf h _
  · exact h

theorem removeKeys_canonical (keys : List Key) : tableWf (removeKeys s keys) = true :=
  foldl_canonical (fun h k => removeKey_canonical h k) keys ((detectKeys_tableWf s keys).trans h)

theorem removeTimed_canonical (owner : Nat) (f : BitVec 64 → Bool) : tableWf (removeTimed s owner f) = true := filter_wf h _

/-! ### Holds (R313 to R316, R581) -/

theorem lockCells_canonical (hr : HoldRec) (cells : List Nat) : tableWf (lockCells s hr cells).2 = true := by
  refine foldl_snd_canonical (fun {a} ha c => ?_) cells h
  dsimp only
  split
  · have hres := reserve_canonical ha (zoneKeys [c])
    split <;> next hm => exact snd_canonical hm hres
  · exact ha

theorem makeStanding_canonical (hr : HoldRec) : tableWf (makeStanding s hr).2 = true := by
  unfold makeStanding
  dsimp only
  have hres := reserve_canonical h (zoneKeys (holdCells hr))
  split
  · next hm => exact snd_canonical hm hres
  · next hm =>
    have ht := snd_canonical hm hres
    split
    · exact lockCells_canonical ht ..
    · exact ht

theorem dwellRemoved_canonical (cells : List Nat) : tableWf (dwellRemoved s cells) = true := by
  refine foldl_canonical (fun {u} hu e => ?_) _ h
  simp [lockCells_canonical hu]

theorem removeDwell_canonical (owner : Nat) (cells : List Nat) : tableWf (removeDwell s owner cells) = true := by
  unfold removeDwell
  split
  · exact h
  · exact dwellRemoved_canonical (removeKeys_canonical h _) cells

theorem unlockHold_canonical (hr : HoldRec) : tableWf (unlockHold s hr) = true := by
  unfold unlockHold
  split
  · exact filter_wf h _
  · exact removeKeys_canonical h _

theorem makeLostHold_canonical (session : Nat) (cells : List Nat) : tableWf (makeLostHold s session cells) = true := by
  have hu : tableWf (match tget s.holds (256 + session) with
      | some hr => dropHold (unlockHold s hr) (256 + session)
      | none => s) = true := by
    split
    · exact (dropHold_tableWf ..).trans (unlockHold_canonical h _)
    · exact h
  unfold makeLostHold
  dsimp only
  split <;> next hm =>
    have ht := snd_canonical hm (makeStanding_canonical hu _)
    simp [ht]

theorem removeHold_canonical (r : Request) (n : Nat) : tableWf (removeHold s r n) = true := by
  unfold removeHold
  split
  · exact h
  · exact (raiseBy_tableWf ..).trans (unlockHold_canonical ((dropHold_tableWf ..).trans h) _)

theorem retryHolds_canonical : tableWf (retryHolds s) = true := by
  refine foldl_canonical (fun {u} hu e => ?_) _ h
  simp [lockCells_canonical hu]

theorem restoreHolds_canonical : tableWf (restoreHolds s) = true := by
  refine foldl_canonical (fun {u} hu e => ?_) _ (s := { s with holds := [] }) h
  split <;> next hm =>
    have ht := snd_canonical hm (makeStanding_canonical hu _)
    simp [ht]

/-! ### PLAN's care of the table (R303, R307, R310) and the sweep (R309, R311) -/

theorem freeUnlocked_canonical : tableWf (freeUnlocked s) = true := by
  unfold freeUnlocked
  dsimp only
  split
  · exact filter_wf h _
  · exact dwellRemoved_canonical ((tableWf_mk ..).trans (filter_wf h _)) _

theorem refreshDwells_canonical : tableWf (refreshDwells s) = true := by
  unfold refreshDwells
  dsimp only
  exact (tableWf_mk ..).trans <| reEntries_wf (foldl_canonical (fun hu e => removeDwell_canonical hu _ _) _ h) ..

theorem opExpirySweep_canonical : tableWf (opExpirySweep s) = true := by
  unfold opExpirySweep
  dsimp only
  split
  · exact h
  · simp
    exact filter_wf h _

theorem stepTable_canonical : tableWf (stepTable s) = true := by
  unfold stepTable
  split
  · exact h
  · exact (activateHolds_tableWf _).trans ((tableWf_mk ..).trans (reEntries_wf (filter_wf h _) ..))

theorem reassert_canonical : tableWf (reassert s) = true := by
  unfold reassert
  split
  · exact h
  refine (noteFill_tableWf _).trans (foldl_canonical (fun {u} hu c => ?_) _
    (foldl_canonical (fun {v} hv e => foldl_canonical (fun {u} hu c => ?_) _ hv) _ h))
  · dsimp only
    split
    · next hi => exact (tableWf_mk ..).trans (insertEntry_wf hu hi)
    · simp [hu]
  · cases hi : insertEntry u.strt.ways (entry c 0 e.1 kDwell (fcNow u % 4096) false) with
    | none => simp [hi, hu]
    | some p => simp [hi, insertEntry_wf hu hi]

theorem planTable_canonical : tableWf (planTable s) = true :=
  refreshDwells_canonical (reassert_canonical (freeUnlocked_canonical ((expireHolds_tableWf _).trans (retryHolds_canonical h))))

/-! ### Dwells and halts (R341, R347, R348, R350) -/

theorem tryDwell_canonical (n session : Nat) (cells : List Nat) : tableWf (tryDwell n s session cells).2 = true := by
  induction n generalizing s cells with
  | zero => exact h
  | succ n ih =>
    rw [tryDwell]
    have hres := reserve_canonical h (dwellKeys session cells)
    split <;> next hm =>
      have ht := snd_canonical hm hres
      simp [ht, ih]

theorem putDwell_canonical (session : Nat) (cells : List Nat) (after : Option Nat) :
    tableWf (putDwell s session cells after).2 = true := by
  have hres := tryDwell_canonical h 65 session cells.eraseDups
  cases after <;> (unfold putDwell; dsimp only; split) <;> next hm =>
    have ht := snd_canonical hm hres
    simp [ht, removeDwell_canonical, removeTimed_canonical]

theorem dropNext_canonical (i : Nat) : tableWf (dropNext s i) = true := by
  unfold dropNext
  split
  · exact h
  · exact (modPlan_tableWf ..).trans (removeKeys_canonical h _)

theorem haltOne_canonical (i : Nat) (keepLeg : Bool) : tableWf (haltOne s i keepLeg).2 = true := by
  unfold haltOne
  dsimp only
  split
  · exact h
  · simp [putDwell_canonical (dropNext_canonical h i)]

theorem haltChain_canonical (n : Nat) (l : List Nat) : tableWf (haltChain n s l) = true := by
  induction n generalizing s l with
  | zero => exact h
  | succ n ih =>
    cases l with
    | nil => exact h
    | cons i is =>
      have hm := haltOne_canonical h i false
      rw [haltChain]
      cases hp : haltOne s i false with
      | mk met u =>
        rw [hp] at hm
        refine ih ?_ _
        split
        · exact (conformanceEvent_tableWf ..).trans hm
        · exact hm

theorem haltRobot_canonical (i : Nat) (cause : Option Nat) (dev : Nat) (keepLeg : Bool) :
    tableWf (haltRobot s i cause dev keepLeg) = true := by
  unfold haltRobot
  split
  · exact h
  · have hm := haltOne_canonical h i keepLeg
    cases hp : haltOne s i keepLeg with
    | mk met u =>
      rw [hp] at hm
      refine haltChain_canonical ?_ ..
      cases cause with
      | none => exact hm
      | some c => exact (conformanceEvent_tableWf ..).trans hm

theorem putRest_canonical (i x y d : Nat) (more : List (Nat × Nat)) : tableWf (putRest s i x y d more) = true := by
  have hm := putDwell_canonical h i (restCells s.strt.grid (classOf s i) x y d) (some (slotNow s))
  unfold putRest
  cases hp : putDwell s i (restCells s.strt.grid (classOf s i) x y d) (some (slotNow s)) with
  | mk met u =>
    rw [hp] at hm
    exact haltChain_canonical ((commitDwell_tableWf ..).trans hm) ..

theorem stopHard_canonical (i cause dev : Nat) : tableWf (stopHard s i cause dev) = true := by
  unfold stopHard
  refine haltChain_canonical ?_ ..
  rw [loseTask_tableWf, conformanceEvent_tableWf, commitDwell_tableWf]
  split
  · exact putDwell_canonical (by simp [h]) ..
  · simp [h]

theorem checkRobot_canonical (i : Nat) : tableWf (checkRobot s i) = true := by
  unfold checkRobot
  dsimp only
  split
  · exact h
  split
  · exact h
  split
  · refine (tableWf_ite ..).trans ?_
    rw [stopHard_canonical (by simp [h]), modPlan_tableWf, h, ite_self]
  split
  · simp [h]
  split
  · exact stopHard_canonical ((modPlan_tableWf ..).trans h) ..
  split
  · exact haltRobot_canonical (by simp [h]) ..
  · simp [h]

theorem conformance_canonical : tableWf (conformance s) = true := by
  unfold conformance
  split
  · exact foldl_canonical (fun hu i => checkRobot_canonical hu i) _ h
  · exact h

theorem restDue_canonical (i : Nat) : tableWf (restDue s i) = true := by
  unfold restDue
  dsimp only
  split
  · split
    · exact putRest_canonical ((modPlan_tableWf ..).trans h) ..
    · exact h
  · exact h

theorem initialDue_canonical (i : Nat) : tableWf (initialDue s i) = true := by
  unfold initialDue
  split
  · exact h
  split
  · exact h
  · exact (modPlan_tableWf ..).trans (putRest_canonical h ..)

theorem adriftDue_canonical (i : Nat) : tableWf (adriftDue s i) = true := by
  unfold adriftDue
  dsimp only
  split
  · exact h
  split
  · simp [h]
  · simp [haltChain_canonical, putDwell_canonical h]

theorem dwellsDue_canonical : tableWf (dwellsDue s) = true :=
  foldl_canonical (fun hu i => initialDue_canonical hu i) _ <|
  foldl_canonical (fun hu i => restDue_canonical hu i) _ <|
  foldl_canonical (fun hu i => (stopReleased_tableWf _ i).trans hu) _ <|
  foldl_canonical (fun hu i => (heardDue_tableWf _ i).trans hu) _ <|
  foldl_canonical (fun hu i => adriftDue_canonical hu i) _ h

theorem modeHalts_canonical : tableWf (modeHalts s) = true := by
  refine foldl_canonical (fun {u} hu i => ?_) _ (s := { s with allot.haltsDue := false }) h
  dsimp only
  split
  · exact haltRobot_canonical (by split <;> simp [hu]) ..
  · split <;> simp [hu]

theorem driftHalts_canonical : tableWf (driftHalts s) = true := by
  unfold driftHalts
  split
  · exact h
  refine foldl_canonical (fun {u} hu i => ?_) _ (s := { s with allot.driftSwept := true }) h
  dsimp only
  split
  · exact haltRobot_canonical hu ..
  · exact hu

/-! ### Allotment (R336 to R342, R350) -/

theorem openRound_canonical (r : Nat) : tableWf (openRound s r) = true := by
  simp [openRound, driftHalts_canonical h]

theorem opAllotmentRound_canonical : tableWf (opAllotmentRound s) = true := by
  simp [opAllotmentRound, h, openRound_canonical h]

theorem reserveDone_canonical (i : Nat) (q : PathReq) (l : Leg) : tableWf (reserveDone s i q l) = true := by
  unfold reserveDone
  dsimp only
  split <;> simp [removeDwell_canonical h]

theorem reserveOne_canonical (spent i : Nat) : tableWf (reserveOne s spent i).2 = true := by
  unfold reserveOne
  dsimp only
  split
  · simp [h]
  split
  · simp [h]
  split
  · exact h
  split
  · simp [h]
  · have hr := reserve_canonical h (legKeys s.strt.grid (s.allot.reqs.getD i {}).session
      (legFrom s (s.allot.reqs.getD i {}) ((s.allot.reqs.getD i {}).result.getD {})))
    split <;> next hm =>
      have ht := snd_canonical hm hr
      simp [ht, reserveDone_canonical]

theorem reserveAll_canonical (spent : Nat) (l : List Nat) : tableWf (reserveAll s spent l) = true := by
  induction l generalizing s spent with
  | nil => exact h
  | cons i is ih =>
    have hr := reserveOne_canonical h spent i
    rw [reserveAll]
    split <;> next hm =>
      have ht := snd_canonical hm hr
      simp [ht, ih]

theorem opLegReserve_canonical : tableWf (opLegReserve s) = true := by
  unfold opLegReserve
  split
  · exact h
  split
  · exact h
  · exact reserveAll_canonical (s := { s with allot.reserveFc := some (fcNow s) }) h ..

theorem abandonLeg_canonical (i : Nat) : tableWf (abandonLeg s i) = true := by
  unfold abandonLeg
  split
  · exact h
  · next l _ =>
    have hm := putDwell_canonical (dropNext_canonical h i) i (restCells s.strt.grid l.cls l.x l.y l.h) none
    cases hp : putDwell (dropNext s i) i (restCells s.strt.grid l.cls l.x l.y l.h) none with
    | mk met u =>
      rw [hp] at hm
      exact haltChain_canonical ((commitBy_tableWf ..).trans hm) ..

theorem releaseReq_canonical (q : PathReq) : tableWf (releaseReq s q) = true := by
  simp [releaseReq, abandonLeg_canonical h]

theorem dropRequests_canonical (i intr status : Nat) : tableWf (dropRequests s i intr status) = true := by
  exact (tableWf_mk ..).trans ((foldl_keeps tableWf _ _ _ fun u r => by simp).trans
    (foldl_canonical (fun hu q => releaseReq_canonical hu q) _ h))

theorem dropLeft_canonical : tableWf (dropLeft s) = true := by
  refine foldl_canonical (fun {u} hu i => ?_) _ h
  split
  · exact hu
  · exact dropRequests_canonical hu ..

theorem endRound_canonical : tableWf (endRound s) = true := by
  unfold endRound
  split
  · exact h
  · exact (tableWf_mk ..).trans (foldl_canonical (fun hu i => dropRequests_canonical hu ..) _ h)

theorem deferReq_canonical (r : Nat) (q : PathReq) : tableWf (deferReq s r q) = true := by
  have hn : tableWf (freshNat s).2 = true := (freshNat_tableWf s).trans h
  unfold deferReq
  cases q.queuePos <;> cases q.host <;> simp [abandonLeg_canonical h, abandonLeg_canonical hn]

theorem settleReq_canonical (frozen : Bool) (r : Nat) (q : PathReq) : tableWf (settleReq frozen r s q) = true := by
  unfold settleReq
  split
  · exact h
  · simp [h]
  · simp [h]
  · split
    · exact deferReq_canonical h r q
    split
    · simp [releaseReq_canonical h]
    · simp [h]
  · exact deferReq_canonical h r q

theorem opGrant_canonical : tableWf (opGrant s) = true := by
  unfold opGrant
  split
  · exact h
  split
  · exact h
  · next r _ _ =>
    have hf := foldl_canonical (fun hu q => settleReq_canonical hu (freeze s) r q) s.allot.reqs
      (s := { s with allot.reqs := [], allot.round := none, allot.pathReqs := [] }) h
    simp [hf]

theorem abandonCancelled_canonical : tableWf (abandonCancelled s) = true :=
  foldl_canonical (fun hu i => abandonLeg_canonical hu i) _ h

theorem planFleet_canonical : tableWf (planFleet s) = true := by
  refine foldl_canonical (fun hu i => by simp [hu]) _ (dwellsDue_canonical (abandonCancelled_canonical
    (endRound_canonical (dropLeft_canonical (modeHalts_canonical (conformance_canonical ?_))))))
  simp [h]

theorem clearPlan_canonical (i : Nat) : tableWf (clearPlan s i) = true := by
  simp [clearPlan, h, removeDwell_canonical (removeTimed_canonical h i fun _ => true)]

theorem lostWork_canonical : tableWf (lostWork s) = true := by
  refine foldl_canonical (fun {u} hu e => ?_) _ h
  have hc := clearPlan_canonical ((loseTask_tableWf _ e.1 8).trans (dropRequests_canonical
    ((modRobot_tableWf u e.1 fun x => { x with lostDue := false }).trans hu) e.1 intNone stInterrupted)) e.1
  dsimp only
  split
  · exact makeLostHold_canonical ((tableWf_mk ..).trans hc) ..
  · exact hc

/-! ### The opcodes that write the table (R289, R318, R321, R322, R324) -/

theorem runOp_canonical {r : Request} {a b c d : Bool} {body : State → State}
    (hb : tableWf (body (takeLatched s r)) = true) : tableWf (runOp s r a b c d body) = true := by
  simp [h, hb]

theorem need_canonical {c : Bool} {r : Request} {st : Nat} {k : State → State} (hk : tableWf (k s) = true) :
    tableWf (need c s r st k) = true := by
  simp [h, hk]

theorem checkCsn_canonical {r : Request} {objs : List (Nat × Nat)} {k : State → State} (hk : tableWf (k s) = true) :
    tableWf (checkCsn s r objs k) = true := by
  simp [h, hk]

theorem opStrtHoldSet_canonical (r : Request) : tableWf (opStrtHoldSet r s) = true := by
  unfold opStrtHoldSet
  dsimp only
  split
  · exact h
  have hu : tableWf { takeLatched s r with strt.holdSets := (takeLatched s r).strt.holdSets + 1 } = true := by simp [h]
  refine runOp_canonical h (need_canonical hu (need_canonical hu ?_))
  unfold withHold
  split
  · exact (finish_tableWf ..).trans hu
  refine need_canonical hu (need_canonical hu (checkCsn_canonical hu ?_))
  split
  · split <;> next hm =>
      have ht := snd_canonical hm (makeStanding_canonical hu _)
      simp [ht]
  · next hm => exact (finish_tableWf ..).trans (snd_canonical hm (reserve_canonical hu _))

theorem opStrtHoldClear_canonical (r : Request) : tableWf (opStrtHoldClear r s) = true := by
  have hu := (takeLatched_tableWf s r).trans h
  unfold opStrtHoldClear
  exact runOp_canonical h (need_canonical hu (checkCsn_canonical hu ((finish_tableWf ..).trans
    (removeHold_canonical ((commit_tableWf ..).trans hu) ..))))

theorem opStrtReservePath_canonical (r : Request) : tableWf (opStrtReservePath r s) = true := by
  have hu := (takeLatched_tableWf s r).trans h
  unfold opStrtReservePath
  refine runOp_canonical h (need_canonical hu (need_canonical hu (need_canonical hu (need_canonical hu ?_))))
  split
  · exact (finish_tableWf ..).trans hu
  refine checkCsn_canonical hu ?_
  have hr := reserve_canonical hu (((List.range (fld r.payload 2 2)).map (runAt r.payload)).flatMap keysOfRun)
  dsimp only
  split <;> next hm =>
    have ht := snd_canonical hm hr
    simp [ht]

theorem opSessRelease_canonical (r : Request) : tableWf (opSessRelease r s) = true := by
  have hu := (takeLatched_tableWf s r).trans h
  unfold opSessRelease
  refine runOp_canonical h (need_canonical hu (checkCsn_canonical hu ((finish_tableWf ..).trans (removeHold_canonical ?_ ..))))
  simp [h]

theorem writeStrtItem_canonical (item : Bytes) : tableWf (writeStrtItem s item).2.2 = true := by
  unfold writeStrtItem
  dsimp only
  split
  · exact h
  split
  · exact h
  split
  · exact h
  split
  · exact h
  · exact (tableWf_mk ..).trans (putWay_wf h _ _)

theorem writeItems_canonical (table : Nat) (l : List Bytes) (acc : List Nat) : tableWf (writeItems table l acc s).2 = true := by
  induction l generalizing s acc with
  | nil => exact h
  | cons item l ih =>
    have hw : tableWf (if table = 1 then writeStrtItem s item else writeRptItem s item).2.2 = true := by
      split
      · exact writeStrtItem_canonical h item
      · exact (writeRptItem_tableWf ..).trans h
    rw [writeItems]
    refine ih ?_ _
    split
    · exact (commit_tableWf ..).trans hw
    · exact hw

theorem opDiagTableWrite_canonical (r : Request) : tableWf (opDiagTableWrite r s) = true := by
  have hu := (takeLatched_tableWf s r).trans h
  unfold opDiagTableWrite
  exact runOp_canonical h (need_canonical hu (checkCsn_canonical hu ((finish_tableWf ..).trans (writeItems_canonical hu ..))))

end

/-! ### Resets and start-up (R117, R312) -/

theorem keptState_canonical (s : State) : tableWf (keptState s) = true := rfl

theorem resetDevice_canonical (s : State) (kind : Nat) : tableWf (resetDevice s kind) = true := rfl

section
variable {s : State} (h : tableWf s = true)
include h

theorem enterFirst_canonical (ctrl : Bool) : tableWf (enterFirst ctrl s) = true := by
  unfold enterFirst
  refine (driveSwitches_tableWf _).trans ((tableWf_mk ..).trans
    ((foldl_keeps tableWf _ _ _ fun u i => robotStill_tableWf u i).trans (restoreHolds_canonical ?_)))
  simp [h]

theorem finishStill_canonical (i : BootIn) (b : Bool) : tableWf (finishStill i b s) = true := by
  refine enterFirst_canonical ?_ _
  simp [h]

theorem bootFrom_canonical (i : BootIn) (first : Bool) : tableWf (bootFrom i first s) = true := by
  unfold bootFrom
  split <;> next hm =>
    have ht := snd_canonical hm ((trySlots_tableWf ..).trans h)
    simp [ht, finishStill_canonical]

theorem opStillComplete_canonical (i : BootIn) : tableWf (opStillComplete i s) = true := by
  simp [opStillComplete, h, bootFrom_canonical h]

theorem opBootRetry_canonical (i : BootIn) : tableWf (opBootRetry i s) = true := by
  simp [opBootRetry, h, bootFrom_canonical h]

theorem opReset_canonical : tableWf (opReset s) = true := by
  unfold opReset
  split
  · split
    · exact resetDevice_canonical ..
    · exact h
  · exact h

theorem opPowerOn_canonical : tableWf (opPowerOn s) = true := by
  simp [opPowerOn, h, resetDevice_canonical]

theorem opPowerFail_canonical : tableWf (opPowerFail s) = true := by
  unfold opPowerFail
  split
  · exact h
  · rfl

theorem opDfuDownload_canonical (p : Bytes) : tableWf (opDfuDownload p s) = true := by
  simp [opDfuDownload, h, resetDevice_canonical]

/-! ### Commands by their opcodes, and the windows that run them -/

theorem opsSess_canonical {n : Nat} {f : Request → State → State} (hf : opsSess n = some f) (r : Request) :
    tableWf (f r s) = true := by
  unfold opsSess at hf
  split at hf <;> simp only [Option.some.injEq, reduceCtorEq] at hf <;> subst hf <;> simp [h, opSessRelease_canonical]

theorem opsStrt_canonical {n : Nat} {f : Request → State → State} (hf : opsStrt n = some f) (r : Request) :
    tableWf (f r s) = true := by
  unfold opsStrt at hf
  split at hf <;> simp only [Option.some.injEq, reduceCtorEq] at hf <;> subst hf <;>
    simp [h, opStrtHoldSet_canonical, opStrtHoldClear_canonical, opStrtReservePath_canonical]

theorem opsDiag_canonical {n : Nat} {f : Request → State → State} (hf : opsDiag n = some f) (r : Request) :
    tableWf (f r s) = true := by
  unfold opsDiag at hf
  split at hf <;> simp only [Option.some.injEq, reduceCtorEq] at hf <;> subst hf <;> simp [h, opDiagTableWrite_canonical]

theorem opByCode_canonical {code : Nat} {f : Request → State → State} (hf : opByCode code = some f) (r : Request) :
    tableWf (f r s) = true := by
  unfold opByCode at hf
  split at hf
  · exact (opsSys_tableWf hf r s).trans h
  · exact (opsTime_tableWf hf r s).trans h
  · exact (opsGnss_tableWf hf r s).trans h
  · exact (opsRef_tableWf hf r s).trans h
  · exact (opsBuoy_tableWf hf r s).trans h
  · exact opsSess_canonical h hf r
  · exact (opsTask_tableWf hf r s).trans h
  · exact opsStrt_canonical h hf r
  · exact (opsStop_tableWf hf r s).trans h
  · exact (opsRadio_tableWf hf r s).trans h
  · exact (opsCan_tableWf hf r s).trans h
  · exact (opsKey_tableWf hf r s).trans h
  · exact (opsUpd_tableWf hf r s).trans h
  · exact (opsJrnl_tableWf hf r s).trans h
  · exact opsDiag_canonical h hf r
  · cases hf

theorem runCommand_canonical (r : Request) : tableWf (runCommand r s) = true := by
  unfold runCommand
  split
  · next hf => exact opByCode_canonical h hf r
  · exact (badOpcode_tableWf r s).trans h

theorem opUnassignedOpcode_canonical (r : Request) : tableWf (opUnassignedOpcode r s) = true := by
  simp [opUnassignedOpcode, h]

theorem runLatched_canonical (l : List Request) : tableWf (runLatched l s) = true := by
  induction l generalizing s with
  | nil => exact h
  | cons r rs ih =>
    have hr := runCommand_canonical (s := { s with edtor.unitsUsed := s.edtor.unitsUsed + opCost r }) h r
    simp only [runLatched, tableWf_ite, ih h, ih hr, h, hr, ite_self]

theorem executeCommands_canonical : tableWf (executeCommands s) = true := by
  simp [executeCommands, h, runLatched_canonical h]

theorem commandWork_canonical : tableWf (commandWork s) = true := executeCommands_canonical (by simp [h])

theorem opCommandWindow_canonical : tableWf (opCommandWindow s) = true := by
  unfold opCommandWindow
  split
  · simp [h]
  · simp [h, commandWork_canonical]

theorem planWork_canonical : tableWf (planWork s) = true := by
  unfold planWork
  refine planFleet_canonical (planTable_canonical ((revokedWork_tableWf _).trans (lostWork_canonical ?_)))
  rw [stepEnds_tableWf, makeSubmitted_tableWf, drainMsgs_tableWf _ _ _ applyPlanReq_tableWf,
    drainMsgs_tableWf _ _ _ confirmAssoc_tableWf, drainMsgs_tableWf _ _ _ answerAssoc_tableWf, h]

theorem opPlanWindow_canonical : tableWf (opPlanWindow s) = true := by
  unfold opPlanWindow
  split
  · simp [h]
  · simp [h, planWork_canonical]

theorem opFcBoundary_canonical (i : BoundaryIn) : tableWf (opFcBoundary i s) = true := by
  unfold opFcBoundary
  split
  · simp [h]
  split
  · exact h
  · simp [unitsBoundary, stepTable_canonical, h]

theorem wayFault_canonical (f : MemIn) : tableWf (wayFault s f) = true := putWay_wf h _ _

theorem opMemoryFault_canonical (f : MemIn) : tableWf (opMemoryFault f s) = true := by
  unfold opMemoryFault
  split
  · exact h
  split
  · simp [h]
  split
  all_goals simp [h, wayFault_canonical h]

end

theorem tableWf_of_persistKept {s t : State} (h : persistKept t = persistKept s) : tableWf t = tableWf s :=
  congrArg (fun v : Tbl HoldRec × Strt × Mode × Nat => waysWf v.2.1.ways) h

theorem tableWf_of_guardKept {s t : State} (h : guardKept t = guardKept s) : tableWf t = tableWf s :=
  congrArg (fun v : Nat × Backup × Tbl HoldRec × Strt => waysWf v.2.2.2.ways) h

theorem opPersistWindow_tableWf (s : State) : tableWf (opPersistWindow s) = tableWf s := by
  by_cases h : entersWindow s .persist = true
  · exact tableWf_of_persistKept (opPersistWindow_kept h).2
  · simp [opPersistWindow, h]

theorem opGuardWindow_tableWf (s : State) : tableWf (opGuardWindow s) = tableWf s := by
  by_cases h : entersWindow s .guard = true
  · exact tableWf_of_guardKept (opGuardWindow_kept h).2.2
  · simp [opGuardWindow, h]

/-! ### Every command -/

theorem next_canonical {t u : State} (h : (Host.Outcome.next u : Host.Outcome State Fault Refusal) = .next t)
    (hu : tableWf u = true) : tableWf t = true := by
  cases h
  exact hu

theorem guarded_canonical {c : Prop} [Decidable c] {t u : State} {r : Fault}
    (h : (if c then Host.Outcome.next u else .fault r : Host.Outcome State Fault Refusal) = .next t)
    (hu : tableWf u = true) : tableWf t = true := by
  split at h
  · exact next_canonical h hu
  · cases h

theorem onQueue_canonical {q : Nat} {f : QParam → State → State} {s t : State}
    (h : (match qParam q with
      | none => .fault .noSuchUnit
      | some p => .next (f p s) : Host.Outcome State Fault Refusal) = .next t)
    (hf : ∀ p, tableWf (f p s) = true) : tableWf t = true := by
  cases hq : qParam q with
  | none => rw [hq] at h; cases h
  | some p => rw [hq] at h; exact next_canonical h (hf p)

/-- Every command keeps the form of the table. -/
theorem exec_canonical (c : Instr) {s t : State} (hs : tableWf s = true) (h : exec c s = .next t) : tableWf t = true := by
  cases c with
  | fcBoundary x => exact next_canonical h (opFcBoundary_canonical hs x)
  | safeWindow x => exact next_canonical h ((opSafeWindow_tableWf x s).trans hs)
  | solveWindow x => exact next_canonical h ((opSolveWindow_tableWf x s).trans hs)
  | commandWindow => exact next_canonical h (opCommandWindow_canonical hs)
  | planWindow => exact next_canonical h (opPlanWindow_canonical hs)
  | emitWindow => exact next_canonical h ((opEmitWindow_tableWf s).trans hs)
  | persistWindow => exact next_canonical h ((opPersistWindow_tableWf s).trans hs)
  | guardWindow => exact next_canonical h ((opGuardWindow_tableWf s).trans hs)
  | windowOverrun core window => exact guarded_canonical h ((opWindowOverrun_tableWf core window s).trans hs)
  | commandReceive d => exact next_canonical h ((opCommandReceive_tableWf d s).trans hs)
  | hostCredit d => exact next_canonical h ((opHostCredit_tableWf d s).trans hs)
  | stopFilter d wait => exact next_canonical h ((opStopFilter_tableWf d wait s).trans hs)
  | unassignedOpcode r => exact next_canonical h (opUnassignedOpcode_canonical hs r)
  | lease slot => exact guarded_canonical h ((opLease_tableWf slot s).trans hs)
  | sysIdentity r => exact next_canonical h ((opSysIdentity_tableWf r s).trans hs)
  | sysModeGet r => exact next_canonical h ((opSysModeGet_tableWf r s).trans hs)
  | sysModeSet r => exact next_canonical h ((opSysModeSet_tableWf r s).trans hs)
  | sysResetWarm r => exact next_canonical h ((opSysReset_tableWf (withHead r 1) s).trans hs)
  | sysResetCold r => exact next_canonical h ((opSysReset_tableWf (withHead r 2) s).trans hs)
  | sysPowerConfig r => exact next_canonical h ((opSysPowerConfig_tableWf r s).trans hs)
  | sysSessionOpen r => exact next_canonical h ((opSysSessionOpen_tableWf r s).trans hs)
  | sysSessionClose r => exact next_canonical h ((opSysSessionClose_tableWf r s).trans hs)
  | sysSessionList r => exact next_canonical h ((opSysSessionList_tableWf r s).trans hs)
  | sysHostEnrol r => exact next_canonical h ((opSysHostEnrol_tableWf r s).trans hs)
  | sysHostRevoke r => exact next_canonical h ((opSysHostRevoke_tableWf r s).trans hs)
  | sysTenderClose r => exact next_canonical h ((opSysTenderClose_tableWf r s).trans hs)
  | sysNetConfig r => exact next_canonical h ((opSysNetConfig_tableWf r s).trans hs)
  | sysAuxConfig r => exact next_canonical h ((opSysAuxConfig_tableWf r s).trans hs)
  | sysAuxSet r => exact next_canonical h ((opSysAuxSet_tableWf r s).trans hs)
  | sysPortStatus r => exact next_canonical h ((opSysPortStatus_tableWf r s).trans hs)
  | timeGet r => exact next_canonical h ((opTimeGet_tableWf r s).trans hs)
  | timeConfig r => exact next_canonical h ((opTimeConfig_tableWf r s).trans hs)
  | timeStep r => exact next_canonical h ((opTimeStep_tableWf r s).trans hs)
  | timeTriggerSet r => exact next_canonical h ((opTimeTriggerSet_tableWf r s).trans hs)
  | timeTriggerGet r => exact next_canonical h ((opTimeTriggerGet_tableWf r s).trans hs)
  | gnssStatus r => exact next_canonical h ((opGnssStatus_tableWf r s).trans hs)
  | gnssConfig r => exact next_canonical h ((opGnssConfig_tableWf r s).trans hs)
  | gnssMeasRead r => exact next_canonical h ((opGnssMeasRead_tableWf r s).trans hs)
  | gnssNotchSet r => exact next_canonical h ((opGnssNotchSet_tableWf r s).trans hs)
  | gnssCalibrate r => exact next_canonical h ((opGnssCalibrate_tableWf r s).trans hs)
  | gnssCalibrationDone delay align => exact next_canonical h ((opGnssCalibrationDone_tableWf delay align s).trans hs)
  | refStatus r => exact next_canonical h ((opRefStatus_tableWf r s).trans hs)
  | refBaseSet r => exact next_canonical h ((opRefBaseSet_tableWf r s).trans hs)
  | refConfig r => exact next_canonical h ((opRefConfig_tableWf r s).trans hs)
  | refSurveyStart r => exact next_canonical h ((opRefSurveyStart_tableWf r s).trans hs)
  | refRtcmSubscribe r => exact next_canonical h ((opRefRtcmSubscribe_tableWf r s).trans hs)
  | buoyStatus r => exact next_canonical h ((opBuoyStatus_tableWf r s).trans hs)
  | buoyAnchorSet r => exact next_canonical h ((opBuoyAnchorSet_tableWf r s).trans hs)
  | buoyConfig r => exact next_canonical h ((opBuoyConfig_tableWf r s).trans hs)
  | buoyCalibrate r => exact next_canonical h ((opBuoyCalibrate_tableWf r s).trans hs)
  | buoyCalibrationDone fits => exact next_canonical h ((opBuoyCalibrationDone_tableWf fits s).trans hs)
  | buoyZoneSet r => exact next_canonical h ((opBuoyZoneSet_tableWf r s).trans hs)
  | buoyFixSubscribe r => exact next_canonical h ((opBuoyFixSubscribe_tableWf r s).trans hs)
  | buoyRelayStart r => exact next_canonical h ((opBuoyRelayStart_tableWf (withHead r 1) s).trans hs)
  | buoyRelayActivate r => exact next_canonical h ((opBuoyRelayActivate_tableWf (withHead r 2) s).trans hs)
  | buoyRelayAbort r => exact next_canonical h ((opBuoyRelayAbort_tableWf (withHead r 3) s).trans hs)
  | sessConfig r => exact next_canonical h ((opSessConfig_tableWf r s).trans hs)
  | sessClassSet r => exact next_canonical h ((opSessClassSet_tableWf r s).trans hs)
  | sessClassGet r => exact next_canonical h ((opSessClassGet_tableWf r s).trans hs)
  | sessEnrol r => exact next_canonical h ((opSessEnrol_tableWf r s).trans hs)
  | sessRevoke r => exact next_canonical h ((opSessRevoke_tableWf r s).trans hs)
  | sessRelease r => exact next_canonical h (opSessRelease_canonical hs r)
  | sessGet r => exact next_canonical h ((opSessGet_tableWf r s).trans hs)
  | sessList r => exact next_canonical h ((opSessList_tableWf r s).trans hs)
  | taskPost r => exact next_canonical h ((opTaskPost_tableWf r s).trans hs)
  | taskModify r => exact next_canonical h ((opTaskModify_tableWf r s).trans hs)
  | taskCancel r => exact next_canonical h ((opTaskCancel_tableWf r s).trans hs)
  | taskGet r => exact next_canonical h ((opTaskGet_tableWf r s).trans hs)
  | taskList r => exact next_canonical h ((opTaskList_tableWf r s).trans hs)
  | taskConfig r => exact next_canonical h ((opTaskConfig_tableWf r s).trans hs)
  | taskDeadline => exact next_canonical h ((opTaskDeadline_tableWf s).trans hs)
  | terminalKeep => exact next_canonical h ((opTerminalKeep_tableWf s).trans hs)
  | strtGridSet r => exact next_canonical h ((opStrtGridSet_tableWf r s).trans hs)
  | strtStatus r => exact next_canonical h ((opStrtStatus_tableWf r s).trans hs)
  | strtHoldSet r => exact next_canonical h (opStrtHoldSet_canonical hs r)
  | strtHoldClear r => exact next_canonical h (opStrtHoldClear_canonical hs r)
  | strtHoldList r => exact next_canonical h ((opStrtHoldList_tableWf r s).trans hs)
  | strtReservePath r => exact next_canonical h (opStrtReservePath_canonical hs r)
  | pathGet r => exact next_canonical h ((opPathGet_tableWf r s).trans hs)
  | pathRequest r => exact next_canonical h ((opPathRequest_tableWf r s).trans hs)
  | pathStatus r => exact next_canonical h ((opPathStatus_tableWf r s).trans hs)
  | stopAll r => exact next_canonical h ((opStopAll_tableWf r s).trans hs)
  | stopRobot r => exact next_canonical h ((opStopRobot_tableWf r s).trans hs)
  | stopStatus r => exact next_canonical h ((opStopStatus_tableWf r s).trans hs)
  | stopConfig r => exact next_canonical h ((opStopConfig_tableWf r s).trans hs)
  | stopReleaseArm r => exact next_canonical h ((opStopReleaseArm_tableWf r s).trans hs)
  | stopReleaseConfirm r => exact next_canonical h ((opStopReleaseConfirm_tableWf r s).trans hs)
  | releaseApply => exact next_canonical h ((opReleaseApply_tableWf s).trans hs)
  | radioStatus r => exact next_canonical h ((opRadioStatus_tableWf r s).trans hs)
  | radioConfig r => exact next_canonical h ((opRadioConfig_tableWf r s).trans hs)
  | radioSettingsEffect => exact next_canonical h ((opRadioSettingsEffect_tableWf s).trans hs)
  | radioBudget r => exact next_canonical h ((opRadioBudget_tableWf r s).trans hs)
  | radioTestStart r => exact next_canonical h ((opRadioTest_tableWf (withAction r 1) s).trans hs)
  | radioTestEnd r => exact next_canonical h ((opRadioTest_tableWf (withAction r 2) s).trans hs)
  | radioTestExpiry => exact next_canonical h ((opRadioTestExpiry_tableWf s).trans hs)
  | canStatus r => exact next_canonical h ((opCanStatus_tableWf r s).trans hs)
  | canConfig r => exact next_canonical h ((opCanConfig_tableWf r s).trans hs)
  | canRuleSet r => exact next_canonical h ((opCanRuleSet_tableWf r s).trans hs)
  | canNodeSet r => exact next_canonical h ((opCanNodeSet_tableWf r s).trans hs)
  | canSend r => exact next_canonical h ((opCanSend_tableWf r s).trans hs)
  | canSubscribe r => exact next_canonical h ((opCanSubscribe_tableWf r s).trans hs)
  | canSleepSleep r => exact next_canonical h ((opCanSleep_tableWf (withCanAction r 1) s).trans hs)
  | canSleepWake r => exact next_canonical h ((opCanSleep_tableWf (withCanAction r 2) s).trans hs)
  | keyStatus r => exact next_canonical h ((opKeyStatus_tableWf r s).trans hs)
  | keySiteInstall r => exact next_canonical h ((opKeySiteInstall_tableWf r s).trans hs)
  | keyDestroy r => exact next_canonical h ((opKeyDestroy_tableWf r s).trans hs)
  | keyAnchorSet r => exact next_canonical h ((opKeyAnchorSet_tableWf r s).trans hs)
  | keyLinkSet r => exact next_canonical h ((opKeyLinkSet_tableWf r s).trans hs)
  | keyRobotExport r => exact next_canonical h ((opKeyRobotExport_tableWf r s).trans hs)
  | keyRoll r => exact next_canonical h ((opKeyRoll_tableWf r s).trans hs)
  | rollEffective => exact next_canonical h ((opRollEffective_tableWf s).trans hs)
  | keyTamperConfig r => exact next_canonical h ((opKeyTamperConfig_tableWf r s).trans hs)
  | keyTamperClear r => exact next_canonical h ((opKeyTamperClear_tableWf r s).trans hs)
  | attestGet r => exact next_canonical h ((opAttestGet_tableWf r s).trans hs)
  | updStatus r => exact next_canonical h ((opUpdStatus_tableWf r s).trans hs)
  | updBegin r => exact next_canonical h ((opUpdBegin_tableWf r s).trans hs)
  | updData r => exact next_canonical h ((opUpdData_tableWf r s).trans hs)
  | updFinish r => exact next_canonical h ((opUpdFinish_tableWf r s).trans hs)
  | updFinishDone => exact next_canonical h ((opUpdFinishDone_tableWf s).trans hs)
  | updAbort r => exact next_canonical h ((opUpdAbort_tableWf r s).trans hs)
  | updActivate r => exact next_canonical h ((opUpdActivate_tableWf r s).trans hs)
  | updActivateAt r => exact next_canonical h ((opUpdActivateAt_tableWf r s).trans hs)
  | updConfirm r => exact next_canonical h ((opUpdConfirm_tableWf r s).trans hs)
  | updRevert r => exact next_canonical h ((opUpdRevert_tableWf r s).trans hs)
  | anchorActivateSend => exact next_canonical h ((opAnchorActivateSend_tableWf s).trans hs)
  | activationCheck imagesOk => exact next_canonical h ((opActivationCheck_tableWf imagesOk s).trans hs)
  | activation => exact next_canonical h ((opActivation_tableWf s).trans hs)
  | coreReload core => exact guarded_canonical h ((opCoreReload_tableWf core s).trans hs)
  | fltImageHandover => exact next_canonical h ((opFltImageHandover_tableWf s).trans hs)
  | freezeEnd => exact next_canonical h ((opFreezeEnd_tableWf s).trans hs)
  | safUpdateTurn fail => exact next_canonical h ((opSafUpdateTurn_tableWf fail s).trans hs)
  | activationAbandon failed => exact next_canonical h ((opActivationAbandon_tableWf failed s).trans hs)
  | dfuDownload p => exact next_canonical h (opDfuDownload_canonical hs p)
  | jrnlQuery r => exact next_canonical h ((opJrnlQuery_tableWf r s).trans hs)
  | jrnlEventRead r => exact next_canonical h ((opJrnlEventRead_tableWf r s).trans hs)
  | diagStatus r => exact next_canonical h ((opDiagStatus_tableWf r s).trans hs)
  | diagCounters r => exact next_canonical h ((opDiagCounters_tableWf r s).trans hs)
  | diagQueueStatus r => exact next_canonical h ((opDiagQueueStatus_tableWf r s).trans hs)
  | diagQueueConfig r => exact next_canonical h ((opDiagQueueConfig_tableWf r s).trans hs)
  | diagSelfTest r => exact next_canonical h ((opDiagSelfTest_tableWf r s).trans hs)
  | selfTestDone target fail detail => exact next_canonical h ((opSelfTestDone_tableWf target fail detail s).trans hs)
  | diagTableRead r => exact next_canonical h ((opDiagTableRead_tableWf r s).trans hs)
  | diagTableWrite r => exact next_canonical h (opDiagTableWrite_canonical hs r)
  | powerOn => exact next_canonical h (opPowerOn_canonical hs)
  | powerFail => exact next_canonical h (opPowerFail_canonical hs)
  | reset => exact next_canonical h (opReset_canonical hs)
  | stillComplete x => exact next_canonical h (opStillComplete_canonical hs x)
  | bootRetry x => exact next_canonical h (opBootRetry_canonical hs x)
  | hostLoss => exact next_canonical h ((opHostLoss_tableWf s).trans hs)
  | referenceLost => exact next_canonical h ((opReferenceLost_tableWf s).trans hs)
  | ppsOut pclk => exact next_canonical h ((opPpsOut_tableWf pclk s).trans hs)
  | zda pclk => exact next_canonical h ((opZda_tableWf pclk s).trans hs)
  | ppsIn ftu rising wide => exact next_canonical h ((opPpsIn_tableWf ftu rising wide s).trans hs)
  | step => exact next_canonical h ((opStep_tableWf s).trans hs)
  | rtcSet pclk => exact next_canonical h ((opRtcSet_tableWf pclk s).trans hs)
  | timeTrigger id pclk => exact guarded_canonical h ((opTimeTrigger_tableWf id pclk s).trans hs)
  | pulseEnd io pclk => exact guarded_canonical h ((opPulseEnd_tableWf io pclk s).trans hs)
  | epochLatch e => exact next_canonical h ((opEpochLatch_tableWf e s).trans hs)
  | acquisitionDone chan pclk => exact guarded_canonical h ((opAcquisitionDone_tableWf chan pclk s).trans hs)
  | antShortRetry ant => exact guarded_canonical h ((opAntShortRetry_tableWf ant s).trans hs)
  | syncReq => exact next_canonical h ((opSyncReq_tableWf s).trans hs)
  | syncResp f => exact guarded_canonical h ((receiveBuoy_tableWf f s).trans hs)
  | hello f => exact guarded_canonical h ((receiveBuoy_tableWf f s).trans hs)
  | report f => exact guarded_canonical h ((receiveBuoy_tableWf f s).trans hs)
  | reportDeadline fc period => exact next_canonical h ((opReportDeadline_tableWf fc period s).trans hs)
  | relayAck f => exact guarded_canonical h ((receiveBuoy_tableWf f s).trans hs)
  | relayResend link => exact guarded_canonical h ((opRelayResend_tableWf link s).trans hs)
  | phyLinkChange link up level24 => exact guarded_canonical h ((opPhyLinkChange_tableWf link up level24 s).trans hs)
  | podlDetection link cls => exact guarded_canonical h ((opPodlDetection_tableWf link cls s).trans hs)
  | podlOverload link => exact guarded_canonical h ((opPodlOverload_tableWf link s).trans hs)
  | podlRestore link => exact guarded_canonical h ((opPodlRestore_tableWf link s).trans hs)
  | faultRetry link => exact guarded_canonical h ((opFaultRetry_tableWf link s).trans hs)
  | radioRx f => exact guarded_canonical h ((opRadioRx_tableWf f s).trans hs)
  | assocReq => exact next_canonical h ((opAssocReq_tableWf s).trans hs)
  | assocConfirm => exact next_canonical h ((opAssocConfirm_tableWf s).trans hs)
  | assocTimeout => exact next_canonical h ((opAssocTimeout_tableWf s).trans hs)
  | positionReport => exact next_canonical h ((opPositionReport_tableWf s).trans hs)
  | planReq => exact next_canonical h ((opPlanReq_tableWf s).trans hs)
  | sleep => exact next_canonical h ((opSleep_tableWf s).trans hs)
  | adrift => exact next_canonical h ((opAdrift_tableWf s).trans hs)
  | agingSweep => exact next_canonical h ((opAgingSweep_tableWf s).trans hs)
  | wakeMissed => exact next_canonical h ((opWakeMissed_tableWf s).trans hs)
  | timeslot k => exact guarded_canonical h ((noteTx_tableWf ..).trans ((opTimeslot_tableWf k s).trans hs))
  | beaconLaunch => exact next_canonical h ((noteTx_tableWf ..).trans ((opBeaconLaunch_tableWf s).trans hs))
  | stopFrame k => exact guarded_canonical h ((opStopFrame_tableWf k s).trans hs)
  | slInput inp line pclk => exact guarded_canonical h ((opSlInput_tableWf inp line pclk s).trans hs)
  | inputTestPulse src lows => exact guarded_canonical h ((opInputTestPulse_tableWf src lows s).trans hs)
  | sloutTestPulse fell rose => exact next_canonical h ((opSloutTestPulse_tableWf fell rose s).trans hs)
  | clockLoss chan pclk => exact guarded_canonical h ((opClockLoss_tableWf chan pclk s).trans hs)
  | channelRejoin chan => exact guarded_canonical h ((opChannelRejoin_tableWf chan s).trans hs)
  | plannedSelfTest => exact next_canonical h ((opPlannedSelfTest_tableWf s).trans hs)
  | leadChange => exact next_canonical h ((opLeadChange_tableWf s).trans hs)
  | fltSwap => exact next_canonical h ((opFltSwap_tableWf s).trans hs)
  | canRx ch f => exact guarded_canonical h ((opCanRx_tableWf ch f s).trans hs)
  | canTxOutcome ch stop outcome sof =>
    exact guarded_canonical h ((noteQueue_tableWf ..).trans ((opCanTxOutcome_tableWf ch stop outcome sof s).trans hs))
  | busOff ch head => exact guarded_canonical h ((noteQueue_tableWf ..).trans ((opBusOff_tableWf ch head s).trans hs))
  | busOffRecovery ch => exact guarded_canonical h ((opBusOffRecovery_tableWf ch s).trans hs)
  | canWake ch w => exact guarded_canonical h ((noteQueue_tableWf ..).trans ((opCanWake_tableWf ch w s).trans hs))
  | portLink port up speed => exact next_canonical h ((opPortLink_tableWf port up speed s).trans hs)
  | auxInput io level pclk => exact guarded_canonical h ((opAuxInput_tableWf io level pclk s).trans hs)
  | outFault io pclk => exact guarded_canonical h ((opOutFault_tableWf io pclk s).trans hs)
  | svcEn active pclk => exact next_canonical h ((opSvcEn_tableWf active pclk s).trans hs)
  | vioLost present pclk => exact next_canonical h ((opVioLost_tableWf present pclk s).trans hs)
  | tamperCheck sensor found rtc => exact guarded_canonical h ((opTamperCheck_tableWf sensor found rtc s).trans hs)
  | maintenanceExpiry => exact next_canonical h ((opMaintenanceExpiry_tableWf s).trans hs)
  | allotmentRound => exact next_canonical h (opAllotmentRound_canonical hs)
  | leadlightRequest => exact next_canonical h ((opLeadlightRequest_tableWf s).trans hs)
  | searchResult unit tclk => exact guarded_canonical h ((opSearchResult_tableWf unit tclk s).trans hs)
  | probe cell slot kind _ => exact guarded_canonical h ((opProbe_tableWf cell slot kind s).trans hs)
  | legReserve => exact next_canonical h (opLegReserve_canonical hs)
  | grant => exact next_canonical h (opGrant_canonical hs)
  | expirySweep => exact next_canonical h (opExpirySweep_canonical hs)
  | queueWrite q e special => exact onQueue_canonical h fun p => (opQueueWrite_tableWf q e special p s).trans hs
  | queueRead q => exact onQueue_canonical h fun p => (opQueueRead_tableWf q p s).trans hs
  | dropRest q => exact onQueue_canonical h fun p => (opDropRest_tableWf q p s).trans hs
  | headRefill q => exact onQueue_canonical h fun p => (opHeadRefill_tableWf q p s).trans hs
  | queueFault q dram reading => exact onQueue_canonical h fun p => (opQueueFault_tableWf q dram reading p s).trans hs
  | memoryFault f => exact guarded_canonical h (opMemoryFault_canonical hs f)
  | backupDomainLoss => exact next_canonical h ((opBackupDomainLoss_tableWf s).trans hs)
  | arpNdpEchoRequest port kind => exact next_canonical h ((opArpNdpEchoRequest_tableWf port kind s).trans hs)
  | canBusError ch tec rec =>
    exact guarded_canonical h ((noteQueue_tableWf ..).trans ((opCanBusError_tableWf ch tec rec s).trans hs))
  | lossOfLock chan code phase pclk => exact guarded_canonical h ((opLossOfLock_tableWf chan code phase pclk s).trans hs)
  | phaseLock chan pclk => exact guarded_canonical h ((opPhaseLock_tableWf chan pclk s).trans hs)
  | bitSynchronisation chan message => exact guarded_canonical h ((opBitSynchronisation_tableWf chan message s).trans hs)
  | codeLock chan pclk => exact guarded_canonical h ((opCodeLock_tableWf chan pclk s).trans hs)

/-- Settles O5: a step takes the front command off the queue, which is no part of the table, and carries it out; no command
leaves the table in another form (`exec_canonical`). -/
theorem everyStepKeepsTheReservationTableCanonical : Obligations.EveryStepKeepsTheReservationTableCanonical := by
  intro s t hs h
  unfold step at h
  split at h
  · exact next_canonical h hs
  · exact exec_canonical _ ((tableWf_mk ..).trans hs) h

end Sys2Proof.Machine
end

section
/-! PROOFS. What leaves the open round alone (R336). `roundKept` is a view of the state, in the manner of `bedrock`: one lemma for
each function that the grant and the reservation of legs call, in the order of the model's files. -/

namespace Sys2Proof.Machine

open Sys2Proof

/-! ### The round, as a view of the state -/

/-- The round that is open, its requests and the FC of the last LEG_RESERVE. -/
def roundKept (s : State) : Option Nat × List PathReq × Option Nat := (s.allot.round, s.allot.reqs, s.allot.reserveFc)

@[simp] theorem roundKept_mk (pending freeCtr fuse flash p nv bk clk cores mode supply edtor com queues time gnss ref buoy sess
    strt holds allot stop radio can ports sec upd) :
    roundKept (State.mk pending freeCtr fuse flash p nv bk clk cores mode supply edtor com queues time gnss ref buoy sess strt
      holds allot stop radio can ports sec upd) = (allot.round, allot.reqs, allot.reserveFc) := by unfold roundKept; rfl

@[simp] theorem roundKept_fold (s : State) : (s.allot.round, s.allot.reqs, s.allot.reserveFc) = roundKept s := by
  unfold roundKept; rfl

@[simp] theorem roundKept_ite (c : Prop) {_ : Decidable c} (s t : State) :
    roundKept (if c then s else t) = if c then roundKept s else roundKept t := apply_ite ..

@[simp] theorem roundKept_foldl {β : Type} {f : State → β → State} (h : ∀ u b, roundKept (f u b) = roundKept u) (l : List β)
    (s : State) : roundKept (l.foldl f s) = roundKept s := foldl_keeps roundKept f l s h

@[simp] theorem commit_roundKept (s : State) (kind idx : Nat) : roundKept (commit s kind idx) = roundKept s := by
  simp [commit]

@[simp] theorem commitAll_roundKept (s : State) (objs : List (Nat × Nat)) : roundKept (commitAll s objs) = roundKept s := by
  simp only [commitAll]
  split <;> simp

@[simp] theorem commitBy_roundKept (s : State) (origin kind idx : Nat) :
    roundKept (commitBy s origin kind idx) = roundKept s := by
  simp [commitBy]

@[simp] theorem commitAllBy_roundKept (s : State) (origin : Nat) (objs : List (Nat × Nat)) :
    roundKept (commitAllBy s origin objs) = roundKept s := by
  simp [commitAllBy]

@[simp] theorem freshNat_roundKept (s : State) : roundKept (freshNat s).2 = roundKept s := by
  simp [freshNat]

@[simp] theorem raiseAt_roundKept (s : State) (code : Nat) (aud : Audience) (t : Nat) (payload : Bytes) :
    roundKept (raiseAt s code aud t payload) = roundKept s := by
  simp [raiseAt]

@[simp] theorem raise_roundKept (s : State) (code : Nat) (aud : Audience) (payload : Bytes) :
    roundKept (raise s code aud payload) = roundKept s := by
  simp [raise]

@[simp] theorem modSession_roundKept (s : State) (slot : Nat) (f : Session → Session) :
    roundKept (modSession s slot f) = roundKept s := by
  simp [modSession]

@[simp] theorem record_roundKept (s : State) (r : Request) (final : Bool) (intr status planned : Nat) :
    roundKept (record s r final intr status planned) = roundKept s := by
  simp [record]

@[simp] theorem countViol_roundKept (s : State) (slot : Nat) (port : Port) (i : Nat) (executing : Bool) :
    roundKept (countViol s slot port i executing) = roundKept s := by
  simp [countViol]

@[simp] theorem countStatus_roundKept (s : State) (r : Request) (status : Nat) :
    roundKept (countStatus s r status) = roundKept s := by
  simp only [countStatus]
  split <;> simp

@[simp] theorem queueReply_roundKept (s : State) (r : Request) (k : Packet) : roundKept (queueReply s r k) = roundKept s := by
  simp [queueReply]

@[simp] theorem finishI_roundKept (s : State) (r : Request) (intr status : Nat) (payload : Bytes) :
    roundKept (finishI s r intr status payload) = roundKept s := by
  simp [finishI]

@[simp] theorem finish_roundKept (s : State) (r : Request) (status : Nat) (payload : Bytes) :
    roundKept (finish s r status payload) = roundKept s := by
  simp [finish]

@[simp] theorem deferred_roundKept (s : State) (r : Request) (payload : Bytes) :
    roundKept (deferred s r payload) = roundKept s := by
  simp [deferred]

@[simp] theorem requestRobotStop_roundKept (s : State) (session cause : Nat) :
    roundKept (requestRobotStop s session cause) = roundKept s := by
  simp [requestRobotStop]

@[simp] theorem modRobot_roundKept (s : State) (i : Nat) (f : Robot → Robot) : roundKept (modRobot s i f) = roundKept s := by
  simp [modRobot]

@[simp] theorem strtAlarm_roundKept (s : State) (cause owner kind index : Nat) :
    roundKept (strtAlarm s cause owner kind index) = roundKept s := by
  simp [strtAlarm]

@[simp] theorem detectWay_roundKept (s : State) (i : Nat) : roundKept (detectWay s i) = roundKept s := by
  simp [detectWay]

@[simp] theorem detectKeys_roundKept (s : State) (keys : List Key) : roundKept (detectKeys s keys) = roundKept s := by
  simp [detectKeys]

@[simp] theorem noteFill_roundKept (s : State) : roundKept (noteFill s) = roundKept s := by
  simp [noteFill]

@[simp] theorem chainFailed_roundKept (s : State) (k : Key) : roundKept (chainFailed s k) = roundKept s := by
  simp [chainFailed]

@[simp] theorem reserve_roundKept (s : State) (keys : List Key) : roundKept (reserve s keys).2 = roundKept s := by
  simp only [reserve]
  (repeat' split) <;> simp

@[simp] theorem removeKey_roundKept (s : State) (k : Key) : roundKept (removeKey s k) = roundKept s := by
  unfold removeKey
  split
  · simp
  · rfl

@[simp] theorem removeKeys_roundKept (s : State) (keys : List Key) : roundKept (removeKeys s keys) = roundKept s := by
  simp [removeKeys]

@[simp] theorem removeTimed_roundKept (s : State) (owner : Nat) (f : BitVec 64 → Bool) :
    roundKept (removeTimed s owner f) = roundKept s := by
  simp [removeTimed]

@[simp] theorem putHold_roundKept (s : State) (n : Nat) (h : HoldRec) : roundKept (putHold s n h) = roundKept s := by
  simp [putHold]

@[simp] theorem lockCells_roundKept (s : State) (h : HoldRec) (cells : List Nat) :
    roundKept (lockCells s h cells).2 = roundKept s := by
  unfold lockCells
  refine foldl_snd_keeps roundKept _ _ (h, s) fun a c => ?_
  dsimp only
  split
  · split <;> next hr => exact snd_keeps hr (reserve_roundKept ..)
  · rfl

@[simp] theorem dwellRemoved_roundKept (s : State) (cells : List Nat) : roundKept (dwellRemoved s cells) = roundKept s := by
  simp [dwellRemoved]

@[simp] theorem removeDwell_roundKept (s : State) (owner : Nat) (cells : List Nat) :
    roundKept (removeDwell s owner cells) = roundKept s := by
  simp [removeDwell]

@[simp] theorem dwellUnwritten_roundKept (s : State) (session : Nat) : roundKept (dwellUnwritten s session) = roundKept s := by
  simp [dwellUnwritten]

@[simp] theorem putTask_roundKept (s : State) (j : Nat) (t : Task) : roundKept (putTask s j t) = roundKept s := by
  simp [putTask]

@[simp] theorem moveTask_roundKept (s : State) (j : Nat) (new : TaskState) (cause : Nat) (f : Task → Task) :
    roundKept (moveTask s j new cause f) = roundKept s := by
  simp [moveTask]

@[simp] theorem modPlan_roundKept (s : State) (i : Nat) (f : Plan → Plan) : roundKept (modPlan s i f) = roundKept s := by
  simp [modPlan]

@[simp] theorem tryDwell_roundKept (n : Nat) (s : State) (session : Nat) (cells : List Nat) :
    roundKept (tryDwell n s session cells).2 = roundKept s := by
  induction n generalizing s cells with
  | zero => rfl
  | succ n ih =>
    simp only [tryDwell]
    split
    · next hr => exact snd_keeps hr (reserve_roundKept ..)
    · next hr => exact (ih _ _).trans (snd_keeps hr (reserve_roundKept ..))
    · next hr => exact snd_keeps hr (reserve_roundKept ..)

@[simp] theorem putDwell_roundKept (s : State) (session : Nat) (cells : List Nat) (after : Option Nat) :
    roundKept (putDwell s session cells after).2 = roundKept s := by
  unfold putDwell
  dsimp only
  split <;> next hr =>
    have ht := snd_keeps hr (tryDwell_roundKept ..)
    cases after <;> simp [ht]

@[simp] theorem commitDwell_roundKept (s : State) (i : Nat) (written : Bool) (more : List (Nat × Nat)) :
    roundKept (commitDwell s i written more) = roundKept s := by
  simp [commitDwell]

@[simp] theorem conformanceEvent_roundKept (s : State) (i cause dev : Nat) :
    roundKept (conformanceEvent s i cause dev) = roundKept s := by
  simp [conformanceEvent]

@[simp] theorem dropNext_roundKept (s : State) (i : Nat) : roundKept (dropNext s i) = roundKept s := by
  simp only [dropNext]
  split <;> simp

@[simp] theorem haltOne_roundKept (s : State) (i : Nat) (keepLeg : Bool) : roundKept (haltOne s i keepLeg).2 = roundKept s := by
  simp only [haltOne]
  split <;> simp

@[simp] theorem haltChain_roundKept (n : Nat) (s : State) (l : List Nat) : roundKept (haltChain n s l) = roundKept s := by
  induction n generalizing s l with
  | zero => cases l <;> rfl
  | succ n ih =>
    cases l with
    | nil => rfl
    | cons i l =>
      simp [haltChain, ih]

@[simp] theorem loseTask_roundKept (s : State) (i cause : Nat) : roundKept (loseTask s i cause) = roundKept s := by
  simp only [loseTask]
  (repeat' split) <;> simp

@[simp] theorem excludePair_roundKept (s : State) (q : PathReq) : roundKept (excludePair s q) = roundKept s := by
  simp only [excludePair]
  split <;> simp

@[simp] theorem commitPath_roundKept (s : State) (q : PathReq) (kind : Nat) : roundKept (commitPath s q kind) = roundKept s := by
  simp only [commitPath]
  split <;> simp

@[simp] theorem abandonLeg_roundKept (s : State) (i : Nat) : roundKept (abandonLeg s i) = roundKept s := by
  simp only [abandonLeg]
  split <;> simp

@[simp] theorem releaseReq_roundKept (s : State) (q : PathReq) : roundKept (releaseReq s q) = roundKept s := by
  simp [releaseReq]

@[simp] theorem tell_roundKept (s : State) (i status pos r : Nat) : roundKept (tell s i status pos r) = roundKept s := by
  simp [tell]

@[simp] theorem grantLeg_roundKept (s : State) (r : Nat) (q : PathReq) (l : Leg) :
    roundKept (grantLeg s r q l) = roundKept s := by
  simp only [grantLeg]
  (repeat' split) <;> simp

@[simp] theorem deferReq_roundKept (s : State) (r : Nat) (q : PathReq) : roundKept (deferReq s r q) = roundKept s := by
  unfold deferReq
  cases q.queuePos <;> cases q.host <;>
    simp

@[simp] theorem refuseReq_roundKept (s : State) (r : Nat) (q : PathReq) : roundKept (refuseReq s r q) = roundKept s := by
  simp only [refuseReq]
  split <;> simp

@[simp] theorem settleReq_roundKept (frozen : Bool) (r : Nat) (s : State) (q : PathReq) :
    roundKept (settleReq frozen r s q) = roundKept s := by
  simp only [settleReq]
  (repeat' split) <;> simp

@[simp] theorem haltedRounds_roundKept (s : State) : roundKept (haltedRounds s) = roundKept s := by
  simp [haltedRounds]

end Sys2Proof.Machine
end

section
/-! PROOFS. The allotment round, its searches, reservations and grants, the probe and the sweep of the table, and the tasks whose
time has come. -/

namespace Sys2Proof.Machine

open Sys2Proof

/-! ### Each event once its guard has passed -/

section
variable {s : State}

/-- ALLOTMENT_ROUND opens the round of an FC divisible by 10 (R336). -/
theorem opAllotmentRound_opens (hw : s.clk.window = .plan) (hfc : fcNow s % 10 = 0) (hgo : isGo (fleetMode s) = true)
    (hg : s.strt.grid.cellMm ≠ 0) (hr : s.allot.round ≠ some (fcNow s / 10)) :
    opAllotmentRound s = noteQueue (openRound s (fcNow s / 10)) 0x41 :=
  if_neg (by simp [hw, hfc, hgo, hg, hr])

/-- LEADLIGHT_REQUEST gives the first request queued to the lowest free unit (R337). -/
theorem opLeadlightRequest_gives {age u i : Nat} (hw : s.clk.window = .plan) (hgo : isGo (fleetMode s) = true)
    (ha : roundAge s = some age) (hage : age ≤ 8)
    (hu : ((List.range 4).find? fun u => !(busyUnits s).contains u) = some u)
    (hi : (s.allot.reqs.findIdx? fun q => q.stage == .queued && decide (q.fromFc ≤ fcNow s)) = some i) :
    opLeadlightRequest s = noteQueue (modReq s i fun q => { q with stage := .searching, unit := u }) 0x41 := by
  simp only [opLeadlightRequest, ha, hu, hi]
  exact (if_neg (by simp [hw, hgo])).trans (if_neg (Nat.not_lt.mpr hage))

section
variable {unit age i : Nat} (tclk : Nat) (ha : roundAge s = some age)
  (hi : (s.allot.reqs.findIdx? fun q => q.stage == .searching && q.unit == unit) = some i)
include ha hi

/-- A search that ran out of its round is abandoned (R338). -/
theorem opSearchResult_abandons (hage : 8 < age ∨ (age = 8 ∧ s.clk.window ≠ .plan)) :
    opSearchResult unit tclk s = modReq s i fun q => { q with stage := .carried, result := some { code := .abandoned } } := by
  simp only [opSearchResult, ha, hi]
  exact if_pos (by simpa using hage)

/-- A search in its round enters what it finds on the table as it stands (R338). -/
theorem opSearchResult_enters {x y h : Nat} (hage : age ≤ 8) (hw : s.clk.window = .plan)
    (ho : (s.allot.reqs.getD i {}).origin = some (x, y, h)) :
    opSearchResult unit tclk s = enterResult s i (s.allot.reqs.getD i {})
      (search (searchCtx s (s.allot.reqs.getD i {})) (holdSlot s (s.allot.reqs.getD i {}) (fcNow s + 1)) x y h) tclk := by
  simp only [opSearchResult, ha, hi, ho]
  exact (if_neg (by simp [hw, hage])).trans (if_neg (by simp [hw]))

end

/-- The legs LEG_RESERVE takes up: those found before the FC (R341). -/
def readyLegs (s : State) : List Nat :=
  (s.allot.reqs.zipIdx.filter fun e => e.1.stage == .found && decide (e.1.doneFc < fcNow s)).map (·.2)

/-- LEG_RESERVE works once in an FC, from the second to the ninth of the round (R341). -/
theorem opLegReserve_reserves {age : Nat} (ha : roundAge s = some age) (hw : s.clk.window = .plan)
    (hgo : isGo (fleetMode s) = true) (hage : 2 ≤ age ∧ age ≤ 9) (hfc : s.allot.reserveFc ≠ some (fcNow s)) :
    opLegReserve s = reserveAll { s with allot.reserveFc := some (fcNow s) } 0 (readyLegs s) := by
  simp only [opLegReserve, ha]
  exact if_neg (by simp [hw, hgo, hage.2, hfc, show 1 < age from hage.1])

/-- The round of `r` with every request settled and the halted robots entered, before its statistics are kept. -/
def settled (s : State) (r : Nat) : State :=
  let t := s.allot.reqs.foldl (settleReq (freeze s) r) { s with allot.reqs := [], allot.round := none, allot.pathReqs := [] }
  haltedRounds { t with allot.pathReqs := t.allot.pathReqs ++ s.allot.pathReqs }

/-- A settled round with its statistics kept and its event raised where it left a request without a path (R342). -/
def closeRound (s : State) : State :=
  let t : State := { s with allot.last := s.allot.stats }
  if 0 < t.allot.stats.deferred + t.allot.stats.noPath + t.allot.stats.halts then
    raise t 0x8703 .sup (roundBytes t.allot.stats)
  else t

/-- GRANT settles the round in its tenth FC (R342). -/
theorem opGrant_settles {r : Nat} (hr : s.allot.round = some r) (hw : s.clk.window = .plan)
    (hfc : fcNow s = 10 * r + 9) (hgo : isGo (fleetMode s) = true) : opGrant s = closeRound (settled s r) := by
  simp only [opGrant, hr]
  exact if_neg (by simp [hw, hfc, hgo])

/-- PROBE's answer for what the two buckets of a key hold: whether and where it is entered, with its word. -/
def probeAnswer : Found → Nat × Nat × BitVec 64
  | .free => (0, 0xFFFFFFFF, 0)
  | .at i w => (1, i, w)
  | .corrupt i w => (2, i, w)

/-- PROBE answers at once where no relocation holds its key (R301). -/
theorem opProbe_answers {cell slot kind : Nat}
    (hk : s.strt.relocating ≠ some (keyInput cell (if isStanding kind then 0 else slot % 1024) kind).toNat) :
    opProbe cell slot kind s = { detectKeys s [{ cell := cell, slot := slot, kind := kind, owner := 0 }] with
      strt.reissue := none
      strt.probeOut := some (probeAnswer (probeKey s.strt.ways cell (if isStanding kind then 0 else slot % 1024) kind)) } :=
  if_neg (by simpa using hk)

theorem execProbe_acts {cell slot kind who : Nat} (h : who < 5 ∧ kind < 5 ∧ cell < 2 ^ 24) :
    execProbe cell slot kind who s = .next (opProbe cell slot kind s) :=
  if_pos (by simpa [and_assoc] using h)

end

/-! ### The open round (R336 to R338) -/

theorem noteQueue_allot (s : State) (q : Nat) : (noteQueue s q).allot = s.allot := by
  have ho : ∀ p before, (noteOccupancy s q p before).allot = s.allot := fun p before => by
    simp [noteOccupancy, setQueue, raiseLater, apply_ite State.allot]
  unfold noteQueue
  split
  · rfl
  · simp [apply_ite State.allot, ho]

theorem noteQueue_strt (s : State) (q : Nat) : (noteQueue s q).strt = s.strt :=
  congrArg (·.2.1) (noteQueue_persistKept s q)

theorem noteQueue_p (s : State) (q : Nat) : (noteQueue s q).p = s.p :=
  congrArg (·.2.2.1) (noteQueue_received s q)

theorem admitFrame_round (s : State) (q : Nat) (special : Bool) : (admitFrame s q special).2.allot.round = s.allot.round := by
  unfold admitFrame
  split
  · rfl
  · split
    · simp [noteOverrun, setQueue]
    · rfl

/-- A request that enters the round leaves the round open. -/
theorem queueReq_round (s : State) (q : PathReq) : (queueReq s q).allot.round = s.allot.round := by
  unfold queueReq
  split
  · rfl
  · have ha := admitFrame_round s 0x41 false
    split <;> next hm =>
      rw [hm] at ha
      exact ha

/-- What the plans of the robots entered leave alone. -/
def roundEntries (s : State) : Option Nat × List Request × RoundStats × List PathReq :=
  (s.allot.round, s.allot.pathReqs, s.allot.stats, s.allot.reqs)

/-- Round `r` as it opens: no path request waits, and its statistics count its requests (R336). -/
def Opened (r : Nat) (s : State) : Prop :=
  s.allot.round = some r ∧ s.allot.pathReqs = [] ∧ s.allot.stats.round = r ∧ s.allot.stats.requests = s.allot.reqs.length

theorem Opened.congr {r : Nat} {s t : State} (hs : Opened r s) (h : roundEntries t = roundEntries s) : Opened r t := by
  simp only [roundEntries, Prod.mk.injEq] at h
  obtain ⟨hround, hpath, hstats, hreqs⟩ := h
  simpa only [Opened, hround, hpath, hstats, hreqs] using hs

theorem openRound_opened (s : State) (r : Nat) : Opened r (openRound s r) := by
  have hqueue : ∀ (l : List PathReq) (u : State), (l.foldl queueReq u).allot.round = u.allot.round := fun l u =>
    foldl_keeps (fun v => v.allot.round) queueReq l u queueReq_round
  unfold openRound
  dsimp only
  refine Opened.congr ?_ (foldl_keeps roundEntries _ _ _ fun v q => by split <;> rfl)
  simp [Opened, hqueue]

theorem excludePair_rest (s : State) (q : PathReq) :
    (excludePair s q).strt = s.strt ∧ (excludePair s q).p = s.p ∧ (excludePair s q).com = s.com := by
  unfold excludePair
  split <;> exact ⟨rfl, rfl, rfl⟩

theorem excludePair_reqs (s : State) (q : PathReq) : (excludePair s q).allot.reqs = s.allot.reqs :=
  congrArg (·.2.1) (excludePair_roundKept s q)

/-- A search's result is entered at its request, and nothing is reserved or committed (R338). -/
theorem enterResult_enters (s : State) (i : Nat) (q : PathReq) (res : SearchResult) (tclk : Nat) :
    let t := enterResult s i q res tclk
    t.allot.reqs = lmod s.allot.reqs i (fun q => { q with
      result := some res, doneFc := fcNow s, stage := if res.code = .noPath then .failed else .found })
      ∧ t.strt = s.strt ∧ t.p = s.p ∧ t.com = s.com := by
  dsimp only [enterResult]
  by_cases hc : res.code = .noPath
  · obtain ⟨hstrt, hp, hcom⟩ := excludePair_rest _ q
    simp only [hc, beq_self_eq_true, ↓reduceIte]
    exact ⟨excludePair_reqs _ q, hstrt, hp, hcom⟩
  · simp [hc, modReq, fcNow]

/-! ### LEG_RESERVE and GRANT (R341, R342) -/

theorem modReq_reserveFc (s : State) (i : Nat) (f : PathReq → PathReq) :
    (modReq s i f).allot.reserveFc = s.allot.reserveFc := rfl

/-- The FC of the last LEG_RESERVE, as part of the view of the round. -/
theorem reserveFc_of_roundKept {s t : State} (h : roundKept t = roundKept s) : t.allot.reserveFc = s.allot.reserveFc :=
  congrArg (·.2.2) h

theorem reserveDone_reserveFc (s : State) (i : Nat) (q : PathReq) (l : Leg) :
    (reserveDone s i q l).allot.reserveFc = s.allot.reserveFc := by
  unfold reserveDone
  have hpath : ∀ u, (commitPath (removeDwell s q.session u) q okPath).allot.reserveFc = s.allot.reserveFc := fun u =>
    reserveFc_of_roundKept (by simp)
  dsimp only
  split
  · refine (reserveFc_of_roundKept (moveTask_roundKept ..)).trans ?_
    exact hpath _
  · exact hpath _

theorem reserveConflict_reserveFc (s : State) (i : Nat) (q : PathReq) (k : Key) (w : BitVec 64) :
    (reserveConflict s i q k w).allot.reserveFc = s.allot.reserveFc := by
  unfold reserveConflict
  dsimp only
  split
  · exact (reserveFc_of_roundKept (excludePair_roundKept _ _)).trans rfl
  · rfl

theorem reserveOne_reserveFc (s : State) (spent i : Nat) : (reserveOne s spent i).2.allot.reserveFc = s.allot.reserveFc := by
  unfold reserveOne
  dsimp only
  split
  · rfl
  split
  · rfl
  split
  · rfl
  split
  · exact (reserveFc_of_roundKept (finishI_roundKept ..)).trans rfl
  have hreserve := reserve_roundKept s (legKeys s.strt.grid (s.allot.reqs.getD i {}).session
    (legFrom s (s.allot.reqs.getD i {}) ((s.allot.reqs.getD i {}).result.getD {})))
  split <;> next hm =>
    have ht := reserveFc_of_roundKept (snd_keeps hm hreserve)
    simp only [reserveDone_reserveFc, reserveConflict_reserveFc, modReq_reserveFc, apply_ite State.allot,
      apply_ite Allot.reserveFc, reserveFc_of_roundKept (excludePair_roundKept ..), ite_self, ht]

theorem reserveAll_reserveFc (s : State) (spent : Nat) (l : List Nat) :
    (reserveAll s spent l).allot.reserveFc = s.allot.reserveFc := by
  induction l generalizing s spent with
  | nil => rfl
  | cons i is ih =>
    rw [reserveAll]
    split <;> next hm =>
      have ht := snd_keeps (π := fun s => s.allot.reserveFc) hm (reserveOne_reserveFc s spent i)
      simpa [ih] using ht

/-- No leg is ready where no request has found one. -/
theorem readyLegs_eq_nil {s : State} (h : ∀ q ∈ s.allot.reqs, q.stage ≠ .found) : readyLegs s = [] := by
  simp only [readyLegs, List.map_eq_nil_iff, List.filter_eq_nil_iff]
  intro e he
  simp [h e.1 (List.fst_mem_of_mem_zipIdx he)]

/-- A settled round is closed, with no request left in it (R342). -/
theorem settled_closed (s : State) (r : Nat) : (settled s r).allot.round = none ∧ (settled s r).allot.reqs = [] := by
  have h : roundKept (settled s r) = (none, [], s.allot.reserveFc) := by simp [settled]
  exact ⟨congrArg (·.1) h, congrArg (·.2.1) h⟩

theorem closeRound_closes (s : State) :
    (closeRound s).allot.round = s.allot.round ∧ (closeRound s).allot.reqs = s.allot.reqs
      ∧ (closeRound s).allot.last = (closeRound s).allot.stats := by
  unfold closeRound
  dsimp only
  split
  · simp
  · exact ⟨rfl, rfl, rfl⟩

/-! ### PROBE and EXPIRY_SWEEP (R301, R309) -/

/-- What a detected way leaves alone. -/
def lookKept (s : State) : Tbl (BitVec 64) × Option Nat × Tbl HoldRec × Commits :=
  (s.strt.ways, s.strt.sweptSlot, s.holds, s.com)

theorem detectWay_lookKept (s : State) (i : Nat) : lookKept (detectWay s i) = lookKept s := by
  unfold detectWay
  split <;> rfl

theorem detectKeys_lookKept (s : State) (keys : List Key) : lookKept (detectKeys s keys) = lookKept s := by
  unfold detectKeys
  split
  · rfl
  · exact foldl_keeps lookKept _ _ _ detectWay_lookKept

/-- The ways EXPIRY_SWEEP leaves (R309): all but those that ended corrupt and those timed and unlocked of the slot just ended. -/
def keptWays (s : State) : Tbl (BitVec 64) :=
  s.strt.ways.filter fun e =>
    !((s.strt.corrupt.filter fun e => decide (1024 ≤ e.2 + 1)).any fun o => o.1 == e.1)
      && !(holds e.2 && !isStanding (eKind e.2) && !eLock e.2 && eSlot e.2 == (slotNow s + 1023) % 1024)

/-- What the reports of the sweep leave alone. -/
def sweptKept (s : State) : Tbl (BitVec 64) × Option Nat × Nat := (s.strt.ways, s.strt.sweptSlot, s.com.csn)

theorem detectWay_sweptKept (s : State) (i : Nat) : sweptKept (detectWay s i) = sweptKept s := by
  unfold detectWay
  split <;> rfl

theorem activateHolds_sweptKept (s : State) : sweptKept (activateHolds s) = sweptKept s :=
  foldl_keeps sweptKept _ _ s fun u e => by simp [sweptKept, putHold]

theorem sweptKept_filled (s : State) (b : Bool) : sweptKept { s with strt.filled := b } = sweptKept s := rfl

theorem opExpirySweep_sweeps {s : State} (hr : running s = true) (hw : s.clk.window = .latch) (hfc : fcNow s % 5 = 0)
    (hs : s.strt.sweptSlot ≠ some (slotNow s)) :
    sweptKept (opExpirySweep s) = (keptWays s, some (slotNow s), s.com.csn) := by
  rw [opExpirySweep, if_neg (by simp [hr, hw, hfc, hs])]
  refine (activateHolds_sweptKept _).trans ((sweptKept_filled ..).trans ?_)
  refine (foldl_keeps sweptKept _ _ _ ?_).trans ((foldl_keeps sweptKept _ _ _ detectWay_sweptKept).trans ?_)
  · exact fun u e => rfl
  · rfl

/-- A way that the sweep leaves is none of the slot just ended. -/
theorem eSlot_of_mem_keptWays {s : State} {e : Nat × BitVec 64} (he : e ∈ keptWays s) (hh : holds e.2 = true)
    (hk : isStanding (eKind e.2) = false) (hl : eLock e.2 = false) : eSlot e.2 ≠ (slotNow s + 1023) % 1024 := by
  have hp := (List.mem_filter.mp he).2
  simp [hh, hk, hl] at hp
  exact hp.2

/-! ### TASK_DEADLINE and TERMINAL_KEEP (R328) -/

section
variable {s : State} (hfog : mramFog s = false)
include hfog

theorem moveTask_moves (j : Nat) (new : TaskState) (cause : Nat) (f : Task → Task) :
    moveTask s j new cause f = raise (putTask (commitBy s orgFlt okTask j) j (moved1 s (f (taskAt s j)) new cause)) 0x8701 .all
      (taskEvent j (taskCode new) (taskCode (taskAt s j).state) cause (moved1 s (f (taskAt s j)) new cause)) :=
  if_neg (by simp [hfog])

theorem moveTask_tasks (j : Nat) (new : TaskState) (cause : Nat) (f : Task → Task) :
    (moveTask s j new cause f).p.tasks =
      if new = .free then tdel s.p.tasks j else tput s.p.tasks j (moved1 s (f (taskAt s j)) new cause) := by
  rw [moveTask_moves hfog, commitBy_eq _ _ _ hfog]
  simp [putTask, committed, moved1]

theorem moveTask_commits (j : Nat) (new : TaskState) (cause : Nat) (f : Task → Task) :
    objCsn (moveTask s j new cause f) okTask j = s.com.nextCsn ∧ (moveTask s j new cause f).com.csn = s.com.nextCsn := by
  have hobj := objCsn_committed s (List.mem_singleton_self (okTask, j))
  rw [moveTask_moves hfog, commitBy_eq _ _ _ hfog]
  rw [objCsn] at hobj
  exact ⟨by rwa [objCsn, raise_p], by rw [raise_com_csn]; rfl⟩

end

/-- What moving a task leaves alone. -/
def taskKept (s : State) : Tbl RobotRec × Backup × ModeState := (s.p.robots, s.bk, s.mode)

theorem moveTask_taskKept (s : State) (j : Nat) (new : TaskState) (cause : Nat) (f : Task → Task) :
    taskKept (moveTask s j new cause f) = taskKept s := by
  cases hfog : mramFog s with
  | true => rw [moveTask, if_pos hfog]
  | false =>
    rw [moveTask_moves hfog, commitBy_eq _ _ _ hfog]
    rfl

theorem moveTask_mramFog (s : State) (j : Nat) (new : TaskState) (cause : Nat) (f : Task → Task) :
    mramFog (moveTask s j new cause f) = mramFog s :=
  congrArg (fun m : ModeState => m.cur == .fog && m.fogCause == 0x0B) (congrArg (·.2.2) (moveTask_taskKept s j new cause f))

/-- Every task of a list that is moved to a state that keeps it has that state and cause afterwards. -/
theorem foldl_moveTask_moved {new : TaskState} {cause : Nat} (hnew : new ≠ .free) (l : List (Nat × Task)) {s : State} {j : Nat}
    (hfog : mramFog s = false) (h : j ∈ l.map (·.1) ∨ ((taskAt s j).state = new ∧ (taskAt s j).cause = cause)) :
    let t := l.foldl (fun s e => moveTask s e.1 new cause id) s
    (taskAt t j).state = new ∧ (taskAt t j).cause = cause := by
  induction l generalizing s with
  | nil => simpa using h
  | cons e l ih =>
    refine ih ((moveTask_mramFog ..).trans hfog) ?_
    by_cases hj : j = e.1
    · right
      rw [hj]
      simp [taskAt, moveTask_tasks hfog, hnew, moved1]
    · rw [taskAt, moveTask_tasks hfog, if_neg hnew, tgetD_tput_other _ _ _ hj]
      simpa [hj, taskAt] using h

section
variable {α : Type} (t : Tbl α)

theorem mem_of_tget {t : Tbl α} {i : Nat} {x : α} (h : tget t i = some x) : (i, x) ∈ t := by
  induction t with
  | nil => cases h
  | cons e t ih =>
    obtain ⟨k, v⟩ := e
    rw [tget] at h
    split at h
    · next hk =>
      cases hk
      cases h
      exact List.mem_cons_self ..
    · exact List.mem_cons_of_mem _ (ih h)

theorem tget_eq_none {t : Tbl α} {i : Nat} (h : i ∉ t.map (·.1)) : tget t i = none :=
  Option.eq_none_iff_forall_ne_some.mpr fun _ hx => h (List.mem_map_of_mem (mem_of_tget hx))

theorem tdel_keys (i : Nat) : (tdel t i).map (·.1) = (t.map (·.1)).erase i := by
  induction t with
  | nil => rfl
  | cons e t ih =>
    obtain ⟨k, v⟩ := e
    by_cases hk : k = i
    · simp [tdel, hk]
    · simp [tdel, hk, ih]

end

/-- The keys left in the tasks after a list of them is freed. -/
theorem foldl_moveTask_keys (cause : Nat) (l : List (Nat × Task)) {s : State} (hfog : mramFog s = false) :
    (l.foldl (fun s e => moveTask s e.1 .free cause id) s).p.tasks.map (·.1) =
      (s.p.tasks.map (·.1)).diff (l.map (·.1)) := by
  induction l generalizing s with
  | nil => rfl
  | cons e l ih =>
    rw [List.foldl_cons, ih ((moveTask_mramFog ..).trans hfog), moveTask_tasks hfog, if_pos rfl, tdel_keys, List.map_cons,
      List.diff_cons]

/-- An index all of whose entries are freed is left with none. -/
theorem tget_foldl_free {s : State} (cause : Nat) (hfog : mramFog s = false) {p : Nat × Task → Bool} {j : Nat}
    (h : ∀ e ∈ s.p.tasks, e.1 = j → p e = true) :
    tget ((s.p.tasks.filter p).foldl (fun s e => moveTask s e.1 .free cause id) s).p.tasks j = none := by
  refine tget_eq_none ?_
  have hcount : ((s.p.tasks.filter p).map (·.1)).count j = (s.p.tasks.map (·.1)).count j := by
    simp only [List.count_eq_countP, List.countP_map, List.countP_filter]
    exact List.countP_congr fun e he => by simpa using fun hj => h e he hj
  rw [foldl_moveTask_keys cause _ hfog, ← List.count_eq_zero, List.count_diff, hcount, Nat.sub_self]

/-- A posted task whose deadline has come. -/
def overdue (s : State) (e : Nat × Task) : Bool :=
  e.2.state == .posted && e.2.deadlineNow != 0 && decide (e.2.deadlineNow ≤ timeAt s 624000 % 2 ^ 64)

/-- A terminal task kept long enough. -/
def keptOut (s : State) (e : Nat × Task) : Bool :=
  terminal e.2.state && decide (e.2.stateFc + 100 * s.allot.cfg.keepS ≤ fcNow s)

/-! ### The statements -/

/-- The MRAM as last persisted and the clock, as parts of the bedrock. -/
theorem nv_clk_of_bedrock {s t : State} (h : bedrock t = bedrock s) : t.nv = s.nv ∧ t.clk = s.clk :=
  ⟨congrArg (·.2.2.1) h, congrArg (·.2.2.2) h⟩

/-- Settles O43: each event by what it does once its guard has passed. -/
theorem allotmentEventsAct : Obligations.AllotmentEventsAct := by
  unfold Obligations.AllotmentEventsAct
  refine ⟨fun s hw hfc hgo hg hr => congrArg Host.Outcome.next (opAllotmentRound_opens hw hfc hgo hg hr),
    fun s age u i hw hgo ha hage hu hi => congrArg Host.Outcome.next (opLeadlightRequest_gives hw hgo ha hage hu hi),
    fun s unit tclk age i hunit ha hi hage =>
      (if_pos hunit).trans (congrArg Host.Outcome.next (opSearchResult_abandons tclk ha hi hage)),
    fun s unit tclk age i x y h hunit ha hi hage hw ho =>
      (if_pos hunit).trans (congrArg Host.Outcome.next (opSearchResult_enters tclk ha hi hage hw ho)),
    fun s age ha hw hgo hage hfc => congrArg Host.Outcome.next (opLegReserve_reserves ha hw hgo hage hfc),
    fun s r hr hw hfc hgo => congrArg Host.Outcome.next (opGrant_settles hr hw hfc hgo),
    fun s cell slot kind who hin hk => (execProbe_acts hin).trans (congrArg Host.Outcome.next (opProbe_answers hk)),
    fun s hr hw hfc hs => ⟨_, rfl, congrArg (·.2.1) (opExpirySweep_sweeps hr hw hfc hs)⟩,
    fun s hr hw => congrArg Host.Outcome.next (acts_in_window hr hw),
    fun s hr hw => congrArg Host.Outcome.next (acts_in_window hr hw), fun s j new cause f hfog => ?_⟩
  obtain ⟨hobj, hcsn⟩ := moveTask_commits hfog j new cause f
  have hkept := moveTask_taskKept s j new cause f
  exact ⟨hobj, hcsn, congrArg (·.1) hkept, congrArg (·.2.1) hkept⟩

/-- Settles O57: each event by what its work leaves behind. -/
theorem allotmentAndTaskEventsComplete : Obligations.AllotmentAndTaskEventsComplete := by
  unfold Obligations.AllotmentAndTaskEventsComplete
  refine ⟨fun s hw hfc hgo hg hr => ⟨_, rfl, ?round⟩, fun s age u i hw hgo ha hage hu hi => ⟨_, rfl, ?request⟩,
    fun s unit tclk age i hunit ha hi hage => ⟨_, if_pos hunit, ?abandon⟩,
    fun s unit tclk age i x y h hunit ha hi hage hw ho => ⟨_, if_pos hunit, ?enter⟩,
    fun s age ha hw hgo hage hfc => ⟨_, rfl, ?reserve⟩, fun s r hr hw hfc hgo => ⟨_, rfl, ?grant⟩,
    fun s cell slot kind who hin hk => ⟨_, execProbe_acts hin, ?probe⟩,
    fun s hr hw hfc hs => ⟨_, rfl, ?sweep⟩, fun s hr hw hfog => ⟨_, rfl, ?deadline⟩, fun s hr hw hfog => ⟨_, rfl, ?keep⟩⟩
  case round =>
    obtain ⟨hnv, hclk⟩ := nv_clk_of_bedrock (opAllotmentRound_bedrock s)
    obtain ⟨hround, hpath, hstats, hreqs⟩ := openRound_opened s (fcNow s / 10)
    rw [opAllotmentRound_opens hw hfc hgo hg hr] at hnv hclk ⊢
    rw [noteQueue_allot]
    exact ⟨hround, hpath, hstats, hreqs, hclk, hnv⟩
  case request =>
    rw [opLeadlightRequest_gives hw hgo ha hage hu hi, noteQueue_allot, noteQueue_strt, noteQueue_p]
    exact ⟨rfl, rfl, rfl⟩
  case abandon =>
    rw [opSearchResult_abandons tclk ha hi (.inl hage)]
    exact ⟨rfl, rfl, rfl, rfl⟩
  case enter =>
    rw [opSearchResult_enters tclk ha hi hage hw ho]
    obtain ⟨hreqs, hrest⟩ := enterResult_enters s i (s.allot.reqs.getD i {})
      (search (searchCtx s (s.allot.reqs.getD i {})) (holdSlot s (s.allot.reqs.getD i {}) (fcNow s + 1)) x y h) tclk
    exact ⟨⟨_, rfl, hreqs⟩, hrest⟩
  case reserve =>
    obtain ⟨hnv, hclk⟩ := nv_clk_of_bedrock (opLegReserve_bedrock s)
    refine ⟨?_, hnv, hclk, fun hnone => ?_⟩ <;> rw [opLegReserve_reserves ha hw hgo hage hfc]
    · exact reserveAll_reserveFc ..
    · rw [readyLegs_eq_nil hnone]
      exact ⟨rfl, rfl, rfl⟩
  case grant =>
    obtain ⟨hnv, hclk⟩ := nv_clk_of_bedrock (opGrant_bedrock s)
    obtain ⟨hround, hreqs⟩ := settled_closed s r
    obtain ⟨hr', hq, hlast⟩ := closeRound_closes (settled s r)
    rw [opGrant_settles hr hw hfc hgo] at hnv hclk ⊢
    exact ⟨hr'.trans hround, hq.trans hreqs, hlast, hnv, hclk⟩
  case probe =>
    have hkept := detectKeys_lookKept s [{ cell := cell, slot := slot, kind := kind, owner := 0 }]
    rw [opProbe_answers hk]
    exact ⟨rfl, congrArg (·.1) hkept, congrArg (·.2.2.1) hkept, congrArg (·.2.2.2) hkept, fun i w hp => by
      simp only [hp, probeAnswer], fun hp => by simp only [hp, probeAnswer]⟩
  case sweep =>
    obtain ⟨hnv, -⟩ := nv_clk_of_bedrock (opExpirySweep_bedrock s)
    have hswept := opExpirySweep_sweeps hr hw hfc hs
    simp only [sweptKept, Prod.mk.injEq] at hswept
    obtain ⟨hways, hslot, hcsn⟩ := hswept
    rw [hways]
    exact ⟨hslot, fun e he => (List.mem_filter.mp he).1, fun e he hh hk hl => eSlot_of_mem_keptWays he hh hk hl, hcsn, hnv⟩
  case deadline =>
    obtain ⟨hnv, -⟩ := nv_clk_of_bedrock (opTaskDeadline_bedrock s)
    have hacts : opTaskDeadline s = (s.p.tasks.filter (overdue s)).foldl (fun s e => moveTask s e.1 .failed 7 id) s :=
      acts_in_window hr hw
    rw [hacts] at hnv ⊢
    refine ⟨fun j x hx hst hne hle => foldl_moveTask_moved (by decide) _ hfog (.inl ?_),
      foldl_keeps (fun s => s.p.robots) _ _ s fun u e => congrArg (·.1) (moveTask_taskKept u e.1 .failed 7 id), hnv⟩
    exact List.mem_map_of_mem (f := Prod.fst) (List.mem_filter.mpr ⟨mem_of_tget hx, by simpa [overdue, hst, hne] using hle⟩)
  case keep =>
    obtain ⟨hnv, -⟩ := nv_clk_of_bedrock (opTerminalKeep_bedrock s)
    have hacts : opTerminalKeep s = (s.p.tasks.filter (keptOut s)).foldl (fun s e => moveTask s e.1 .free 10 id) s :=
      acts_in_window hr hw
    rw [hacts] at hnv ⊢
    exact ⟨fun j hj => tget_foldl_free 10 hfog fun e he hej => by simpa [keptOut] using hj e he hej,
      foldl_keeps (fun s => s.p.robots) _ _ s fun u e => congrArg (·.1) (moveTask_taskKept u e.1 .free 10 id), hnv⟩

end Sys2Proof.Machine
end

section
/-! PROOFS. The reservation commands: the grid, the holds, the reserved paths and the path requests. For each row a lemma says
what it comes to once its checks have passed. -/

namespace Sys2Proof.Machine

open Sys2Proof

/-! ### The sessions through a reservation -/

theorem reserve_edtor (s : State) (keys : List Key) : (reserve s keys).2.edtor = s.edtor := by
  have hfill : ∀ u, (noteFill u).edtor = u.edtor := fun u => by
    unfold noteFill
    dsimp only
    split <;> rfl
  have hd := detectKeys_edtor s keys
  unfold reserve
  dsimp only
  split
  · exact hd
  split
  · exact hd
  split
  · exact hd
  · exact (hfill _).trans hd

/-! ### What each row comes to -/

/-- A row that makes a hold goes on where the hold it names, or the first free one, is free. -/
theorem withHold_passes {s : State} {r : Request} {h n : Nat} (k : Nat → State → State) (hpick : pickHold s h = some n)
    (hfree : (tget s.holds n).isNone = true) : withHold s r h k = k n s := by
  rw [withHold, hpick]
  exact need_passes _ hfree

/-- STRT_HOLD_SET once its keys have been tried: its standing hold is made by a commit on the hold, or the table is full
(R321). -/
def endHoldSet (r : Request) (u : State) (n : Nat) (h : HoldRec) : Reserved × State → State
  | (.done, _) =>
    match makeStanding u h with
    | (some h, u) =>
      finish (raiseBy (putHold (commit u okHold n) n h) r 0x8801 .all (holdEvent n 1 h)) r stOk
        (le 2 n ++ le 1 (holdState h) ++ zb 1 ++ le 4 (holdCount h) ++ le 4 (holdPending h).length ++ zb 4 ++ le 8 h.activeSlot)
    | (none, u) => finish u r stTableFull []
  | (_, u) => finish u r stTableFull []

/-- The timed hold of a reserved path, from its runs and its name (R324). -/
def pathHold (runs : List (Nat × Nat × Nat × Nat × Nat × Nat)) (name : Bytes) : HoldRec :=
  { present := true, timed := true
    rect := boundsOf (runs.flatMap fun q => [cellId q.1 q.2.1, cellId q.2.2.1 q.2.2.2.1])
    runs := runs, active := true
    activeSlot := (runs.map fun q => q.2.2.2.2.1).foldl min (runs.headD (0, 0, 0, 0, 0, 0)).2.2.2.2.1
    lastSlot := (runs.map fun q => q.2.2.2.2.1 + q.2.2.2.2.2 - 1).foldl max 0
    name := name }

/-- The timed hold `x` put at `h` by a commit on it, with its event (R324). -/
def putPathHold (r : Request) (h : Nat) (x : HoldRec) (u : State) : State :=
  raiseBy (putHold (commit u okHold h) h x) r 0x8801 .all (holdEvent h 1 x)

/-- STRT_RESERVE_PATH once its keys have been tried: the first key in conflict, the position where room or a chain ran out, or the
hold (R324). -/
def endReservePath (r : Request) (h : Nat) (x : HoldRec) (keys : List Key) : Reserved × State → State
  | (.conflict pos i w c, u) =>
    finish u r stStrtConflict (conflictPayload (keys.getD pos { cell := 0, kind := 0, owner := 0 }) pos i w c)
  | (.fill pos, u) => finish u r stTableFull (le 1 1 ++ zb 3 ++ le 4 pos)
  | (.chain pos, u) => finish u r stTableFull (le 1 2 ++ zb 3 ++ le 4 pos)
  | (.done, u) => finish (putPathHold r h x u) r stOk (le 1 h ++ zb 3 ++ le 4 keys.length)

theorem putPathHold_strt (r : Request) (h : Nat) (x : HoldRec) (u : State) : (putPathHold r h x u).strt = u.strt := by
  simp [putPathHold, putHold, commit, apply_ite State.strt]

theorem putPathHold_edtor (r : Request) (h : Nat) (x : HoldRec) (u : State) : (putPathHold r h x u).edtor = u.edtor :=
  commit_edtor u okHold h

theorem putPathHold_hold (r : Request) (h : Nat) (x : HoldRec) (u : State) : tgetD (putPathHold r h x u).holds h {} = x :=
  tgetD_tput_same ..

section
variable {r : Request} {s : State} (hl : live s r = true)
include hl

/-- STRT_GRID_SET with its checks passed, while the table and the holds are empty (R319). -/
theorem opStrtGridSet_changes (hlen : r.payload.length = 16) (hz : zeros r.payload 6 2 = true) (hn : fld r.payload 0 2 ≠ 0)
    (hr : supOk s r = true) (hm : inModes s mCfg = true) (hok : gridOk (gridFrom r.payload) = true)
    (hways : validEntries s = 0) (hholds : s.holds.isEmpty = true) :
    opStrtGridSet r s = change1 (takeLatched s r) r siteObj (fun u => { u with p.grid := gridFrom r.payload })
      fun u => gridBytes u.p.grid := by
  have hread : (fld r.payload 0 2 == 0) = false := beq_eq_false_iff_ne.mpr hn
  have hempty : (validEntries s == 0 && s.holds.isEmpty) = true := by simp [hways, hholds]
  unfold opStrtGridSet
  exact (runOp_changes hl (beq_iff_eq.mpr hlen) (by simp [hz, hread]) hr hm hread).trans
    ((need_passes _ hok).trans (need_passes _ hempty))

/-- STRT_HOLD_SET with its checks passed tries its keys (R321). -/
theorem opStrtHoldSet_tries {n : Nat} (hfour : s.strt.holdSets < 4) (hlen : r.payload.length = 32)
    (hz : (decide (fld r.payload 1 1 < 2) && zeros r.payload 2 2 && zeros r.payload 28 4) = true)
    (hr : (!bit (fld r.payload 1 1) 0 || supOk s r) = true) (hm : inModes s mHold = true) (hg : s.strt.grid.cellMm ≠ 0)
    (hok : (rectOk s (fld r.payload 4 2) (fld r.payload 6 2) (fld r.payload 8 2) (fld r.payload 10 2)
      && nameOk (slice r.payload 12 16)) = true)
    (hpick : pickHold s (fld r.payload 0 1) = some n) (hfree : (tget s.holds n).isNone = true)
    (hcells : standingCells s + (rectCells (fld r.payload 4 2, fld r.payload 6 2, fld r.payload 8 2, fld r.payload 10 2)).length
      ≤ 65536)
    (hroom : (!bit (fld r.payload 1 1) 0
      || decide ((s.holds.filter fun e => e.2.persistent && !e.2.lost).length < 64)) = true)
    (hc : csnHolds s r [(okHold, n)] = true) :
    let rect := (fld r.payload 4 2, fld r.payload 6 2, fld r.payload 8 2, fld r.payload 10 2)
    let u : State := { takeLatched s r with strt.holdSets := s.strt.holdSets + 1 }
    opStrtHoldSet r s = endHoldSet r u n
      { present := true, persistent := bit (fld r.payload 1 1) 0, rect := rect, name := slice r.payload 12 16 }
      (reserve u (zoneKeys (rectCells rect))) := by
  intro rect u
  have hpick' : pickHold u (fld r.payload 0 1) = some n := hpick
  have hcells' : (decide (standingCells s + (rectCells rect).length ≤ 65536) && (!bit (fld r.payload 1 1) 0
      || decide ((s.holds.filter fun e => e.2.persistent && !e.2.lost).length < 64))) = true := by
    rw [hroom, Bool.and_true]
    exact decide_eq_true hcells
  rw [opStrtHoldSet, if_neg (Nat.not_le.mpr hfour), runOp_passes _ hl (beq_iff_eq.mpr hlen) hz hr hm]
  refine (need_passes _ (bne_iff_ne.mpr hg)).trans ((need_passes _ hok).trans ?_)
  refine (withHold_passes _ hpick' hfree).trans ((need_passes _ hcells').trans ?_)
  exact checkCsn_passes (s := u) _ hc

/-- STRT_HOLD_CLEAR with its checks passed removes the hold (R322). -/
theorem opStrtHoldClear_removes (hlen : r.payload.length = 4) (hz : zeros r.payload 2 2 = true)
    (hhold : (tgetD s.holds (fld r.payload 0 2) {}).present = true) (hkept : (tgetD s.holds (fld r.payload 0 2) {}).lost = false)
    (hr : (!(tgetD s.holds (fld r.payload 0 2) {}).persistent || supOk s r) = true) (hm : inModes s mHold = true) :
    opStrtHoldClear r s = change1 (takeLatched s r) r (okHold, fld r.payload 0 2)
      (fun u => removeHold u r (fld r.payload 0 2)) fun _ => [] := by
  have hrole : ∀ present persistent lost sup : Bool, present = true → lost = false → (!persistent || sup) = true →
      (!(present && persistent && !lost) || sup) = true := by decide
  rw [opStrtHoldClear, runOp_passes _ hl (beq_iff_eq.mpr hlen) hz (hrole _ _ _ _ hhold hkept hr) hm]
  exact need_passes _ (Bool.and_eq_true_iff.mpr ⟨hhold, congrArg not hkept⟩)

/-- STRT_HOLD_LIST with its checks passed answers 24 holds a fragment (R323). -/
theorem opStrtHoldList_answers (hp : r.payload = []) (hm : edt s 0x0812 = true) :
    let parts := (groups 24 s.holds.length s.holds).map fun g => g.flatMap fun e => holdEntry s e.1 e.2
    opStrtHoldList r s = if parts.length ≤ 1 then finish (takeLatched s r) r stOk parts.flatten
      else finishFrags (takeLatched s r) r parts parts.length :=
  runOp_passes _ hl (by rw [hp]; rfl) rfl rfl hm

/-- STRT_RESERVE_PATH with its checks passed tries its keys (R324). -/
theorem opStrtReservePath_tries {runs : List (Nat × Nat × Nat × Nat × Nat × Nat)} {h : Nat}
    (hlen : 32 ≤ r.payload.length ∧ r.payload.length = 32 + 12 * fld r.payload 2 2)
    (hz : (zeros r.payload 1 1 && zeros r.payload 4 4) = true)
    (hm : inModes s [.calm, .zephyr, .breeze, .drift, .lull, .squall, .watch] = true) (hg : s.strt.grid.cellMm ≠ 0)
    (hn : 1 ≤ fld r.payload 2 2 ∧ fld r.payload 2 2 ≤ 100) (hruns : runs = (List.range (fld r.payload 2 2)).map (runAt r.payload))
    (hok : (runsOk s runs && nameOk (slice r.payload 16 16)) = true) (hpick : pickHold s (fld r.payload 0 1) = some h)
    (hfree : (tget s.holds h).isNone = true) (htime : ∀ q ∈ runs, slotNow s ≤ q.2.2.2.2.1)
    (hc : csnHolds s r [(okHold, h)] = true) :
    opStrtReservePath r s = endReservePath r h (pathHold runs (slice r.payload 16 16)) (runs.flatMap keysOfRun)
      (reserve (takeLatched s r) (runs.flatMap keysOfRun)) := by
  subst hruns
  have hpick' : pickHold (takeLatched s r) (fld r.payload 0 1) = some h := hpick
  have hlen' : (decide (32 ≤ r.payload.length) && r.payload.length == 32 + 12 * fld r.payload 2 2) = true := by
    simpa using hlen
  have hok' : ∀ c d : Bool, (c && d) = true →
      (decide (1 ≤ fld r.payload 2 2) && decide (fld r.payload 2 2 ≤ 100) && c && d) = true :=
    fun c d h => by simpa [hn.1, hn.2] using h
  rw [opStrtReservePath, runOp_passes _ hl hlen' hz rfl hm]
  refine (need_passes _ (bne_iff_ne.mpr hg)).trans ((need_passes _ (hok' _ _ hok)).trans ?_)
  rw [hpick']
  refine (need_passes _ hfree).trans ((need_passes _ (List.all_eq_true.mpr fun q hq => decide_eq_true (htime q hq))).trans ?_)
  exact checkCsn_passes (s := takeLatched s r) _ hc

/-- PATH_GET with its checks passed answers (R357). -/
theorem opPathGet_answers (hlen : r.payload.length = 4) (hz : zeros r.payload 1 3 = true) (hm : edt s 0x0830 = true)
    (hst : (robotRec s (fld r.payload 0 1)).sstate ≠ .free) :
    opPathGet r s = finish (takeLatched s r) r stOk (pathReply s (fld r.payload 0 1)) := by
  rw [opPathGet, runOp_passes _ hl (beq_iff_eq.mpr hlen) hz rfl hm]
  exact need_passes _ (bne_iff_ne.mpr hst)

/-- PATH_REQUEST with its checks passed waits for the round (R358). -/
theorem opPathRequest_waits (hlen : r.payload.length = 8)
    (hz : (decide (fld r.payload 1 1 < 2) && zeros r.payload 3 1 && (bit (fld r.payload 1 1) 0 || zeros r.payload 2 1)) = true)
    (hm : inModes s [.breeze, .drift] = true) (hst : (robotRec s (fld r.payload 0 1)).sstate ≠ .free)
    (hcell : fld r.payload 4 2 < s.strt.grid.nx ∧ fld r.payload 6 2 < s.strt.grid.ny) (hh : fld r.payload 2 1 < 8)
    (hpark : (planAt s (fld r.payload 0 1)).state = .parked) (htask : (planAt s (fld r.payload 0 1)).task.isNone = true)
    (hreq : (requesters s).contains (fld r.payload 0 1) = false) (hc : csnHolds s r [(okPath, fld r.payload 0 1)] = true) :
    opPathRequest r s = accept { takeLatched s r with allot.pathReqs := s.allot.pathReqs ++ [r] } r 2 [] := by
  have hrange : ((robotRec s (fld r.payload 0 1)).sstate != .free && decide (fld r.payload 4 2 < s.strt.grid.nx)
      && decide (fld r.payload 6 2 < s.strt.grid.ny) && decide (fld r.payload 2 1 < 8)) = true := by
    simp [hst, hcell, hh]
  have hidle : ((planAt s (fld r.payload 0 1)).state == .parked && (planAt s (fld r.payload 0 1)).task.isNone
      && !(requesters s).contains (fld r.payload 0 1)) = true := by
    rw [hpark, htask, hreq]
    rfl
  rw [opPathRequest, runOp_passes _ hl (beq_iff_eq.mpr hlen) hz rfl hm]
  exact (need_passes _ hrange).trans ((need_passes _ hidle).trans (checkCsn_passes (s := takeLatched s r) _ hc))

end

/-- Settles O28: each row by what it comes to once its checks have passed, and the reserved path by the outcome of its keys. -/
theorem reservationCommandsTakeEffect : Obligations.ReservationCommandsTakeEffect := by
  unfold Obligations.ReservationCommandsTakeEffect
  refine ⟨fun r s hl hc hlen hz hn hr hm hok hways hholds => ?grid,
    fun r s n hl hfour hlen hz hr hm hg hok hpick hfree hcells hroom hc => congrArg Host.Outcome.next
      (opStrtHoldSet_tries hl hfour hlen hz hr hm hg hok hpick hfree hcells hroom hc),
    fun r s hfour => congrArg Host.Outcome.next (if_pos hfour), fun r s hl hc hlen hz hhold hm => ?clear,
    fun r s hl hp hm => ?list, fun r s runs h hl hlen hz hm hg hn hruns hok hpick hfree htime hc => ?reserve,
    fun r s hl hlen hz hm hst => ends_of_finish (c := .pathGet r)
      (congrArg Host.Outcome.next (opPathGet_answers hl hlen hz hm hst)) rfl (live_answerable hl),
    fun r s hl hlen hz hm hst hcell hh hpark htask hreq hc => goesOn_of_accept (c := .pathRequest r)
      (congrArg Host.Outcome.next (opPathRequest_waits hl hlen hz hm hst hcell hh hpark htask hreq hc))
      ((live_answerable hl).congr rfl)⟩
  case grid =>
    have hfog : mramFog s = false := mramFog_of_inModes hm rfl
    rw [commit_eq (s := takeLatched s r) _ _ hfog]
    exact ends_of_siteChange (c := .strtGridSet r)
      (congrArg Host.Outcome.next (opStrtGridSet_changes hl hlen hz hn hr hm hok hways hholds)) hl hc (fun _ => rfl) hfog
  case clear =>
    have hfog : mramFog s = false := mramFog_of_inModes hm rfl
    simp only [Bool.and_eq_true, Bool.not_eq_true'] at hhold
    obtain ⟨⟨hpresent, hkept⟩, hr⟩ := hhold
    dsimp only
    rw [commit_eq (s := takeLatched s r) _ _ hfog]
    exact ends_of_change1 (c := .strtHoldClear r) (f := fun u => removeHold u r (fld r.payload 0 2))
      (congrArg Host.Outcome.next (opStrtHoldClear_removes hl hlen hz hpresent hkept hr hm)) hc hfog
      ((answerable_committed hl _).congr (congrArg Edtor.sessions (removeHold_edtor ..)))
  case list =>
    have hacts := opStrtHoldList_answers hl hp hm
    dsimp only
    split
    · next hone =>
      exact ends_of_finish (c := .strtHoldList r) (congrArg Host.Outcome.next (hacts.trans (if_pos hone))) rfl
        (live_answerable hl)
    · next hmany =>
      exact streams_of_finishFrags (c := .strtHoldList r) (congrArg Host.Outcome.next (hacts.trans (if_neg hmany)))
  case reserve =>
    have hacts : exec (.strtReservePath r) s = .next _ := congrArg Host.Outcome.next
      (opStrtReservePath_tries hl hlen hz hm hg hn hruns hok hpick hfree htime hc)
    have htaken : Answerable (takeLatched s r) r := (live_answerable hl).congr rfl
    dsimp only
    cases hres : reserve (takeLatched s r) (runs.flatMap keysOfRun) with
    | mk outcome u =>
      rw [hres] at hacts
      have hed := snd_keeps (π := State.edtor) hres (reserve_edtor ..)
      have hans : Answerable u r := htaken.congr (congrArg Edtor.sessions hed)
      cases outcome with
      | conflict pos i w c => exact ends_of_finish (c := .strtReservePath r) hacts rfl hans
      | fill pos => exact ends_of_finish (c := .strtReservePath r) hacts rfl hans
      | chain pos => exact ends_of_finish (c := .strtReservePath r) hacts rfl hans
      | done =>
        have hhold := putPathHold_hold r h (pathHold runs (slice r.payload 16 16)) u
        refine ⟨_, ends_of_finish (c := .strtReservePath r) hacts rfl
          (hans.congr (congrArg Edtor.sessions (putPathHold_edtor ..))), putPathHold_strt .., ?_, ?_, ?_⟩ <;> rw [hhold] <;> rfl

end Sys2Proof.Machine
end

section
/-! PROOFS. The TASK commands: the posting and its commits, the changes of a task, its readings and the settings. For each row a
lemma says what it comes to once its checks have passed. -/

namespace Sys2Proof.Machine

open Sys2Proof

/-! ### One task of a post (R73, R352) -/

/-- Where the expected-CSN check holds, no object of the set has changed. -/
theorem changedSince_eq_none {s : State} {r : Request} {e : Nat} {objs : List (Nat × Nat)} (hc : csnHolds s r objs = true)
    (he : r.expect = some e) : changedSince s e objs = none := by
  have hold : ∀ o ∈ objs, objCsn s o.1 o.2 ≤ e := by simpa [csnHolds, he] using hc
  simpa [changedSince] using hold

/-- A post that has committed nothing yet goes on where the expected-CSN check holds of its tasks. -/
theorem postChanged_eq_none {s : State} {q : PostRun} (hdone : q.done = [])
    (hc : csnHolds s q.req (q.todo.map fun e => (okTask, e.1)) = true) : postChanged s q = none := by
  unfold postChanged
  split
  · rfl
  · next e he => simpa [hdone, Function.comp_def] using changedSince_eq_none hc he

/-- A post steps from its first task to the rest of them by one commit. -/
theorem postSome_succ {s : State} {q : PostRun} (n : Nat) (hmore : q.todo.isEmpty = false) (hc : postChanged s q = none) :
    postSome (n + 1) q s = postSome n (postOne s q).1 (postOne s q).2 := by
  simp [postSome, hmore, hc]

/-- A post without tasks left commits nothing more. -/
theorem postSome_done {s : State} {q : PostRun} (n : Nat) (hend : q.todo.isEmpty = true) : postSome n q s = (q, s, none) := by
  cases n <;> simp [postSome, hend]

/-- The FC that leaves a post without tasks is the one it ends in. -/
theorem postFc_ends {s u : State} {q q' : PostRun} (hsome : postSome 2 q s = (q', u, none)) (hend : q'.todo.isEmpty = true) :
    postFc s q = finish u q'.req stOk (postReply q') := by
  simp [postFc, hsome, hend]

/-- A post of one task left commits it as POSTED and ends. -/
theorem postFc_posts {s : State} {q : PostRun} {j : Nat} {t : Task} (htodo : q.todo = [(j, t)]) (hdone : q.done = [])
    (hc : csnHolds s q.req [(okTask, j)] = true) :
    postFc s q = finish (moveTaskBy s q.req j .posted 1 { t with state := (taskAt s j).state }) q.req stOk
      (postReply { q with done := [j] }) := by
  have hone : postOne s q = ({ q with todo := [], done := [j], lastCommit := (postOne s q).2.com.csn },
      moveTaskBy s q.req j .posted 1 { t with state := (taskAt s j).state }) := by
    simp [postOne, htodo, hdone]
  have hsome : postSome 2 q s = ((postOne s q).1, (postOne s q).2, none) :=
    (postSome_succ 1 (by rw [htodo]; rfl) (postChanged_eq_none hdone (by rw [htodo]; exact hc))).trans
      (postSome_done 1 (by rw [hone]; rfl))
  rw [postFc_ends hsome (by rw [hone]; rfl), hone]
  rfl

/-- The indexes a post takes depend on the task table alone. The table is the one part of the state the definition names, so its
text is rewritten as it stands: its equations would search all 4096 indexes. -/
theorem pickTasks_congr {s t : State} (h : t.p.tasks = s.p.tasks) : pickTasks t = pickTasks s := by
  delta pickTasks pickTasks._f
  rw [h]

/-! ### The sessions through the changes of a task -/

theorem moveTaskBy_edtor (s : State) (r : Request) (j : Nat) (new : TaskState) (cause : Nat) (t : Task) :
    (moveTaskBy s r j new cause t).edtor = s.edtor :=
  commit_edtor s okTask j

/-- Task `j`, which stands as `t`, made CANCELLED and taken from its robot, which is HALTED where `halt` says so (R354). -/
def cancelTask (r : Request) (j : Nat) (t : Task) (halt : Bool) (u : State) : State :=
  let u := moveTaskBy u r j .cancelled 6 t
  if t.session = 0xFF then u else cancelRobot u t.session halt

theorem cancelTask_edtor (r : Request) (j : Nat) (t : Task) (halt : Bool) (u : State) :
    (cancelTask r j t halt u).edtor = u.edtor := by
  have hmoved := moveTaskBy_edtor u r j .cancelled 6 t
  unfold cancelTask
  dsimp only
  split <;> exact hmoved

/-! ### What each row comes to -/

/-- The tasks in the states that `mask` selects, 87 in a fragment (R355). -/
def taskParts (mask : Nat) (s : State) : List Bytes :=
  let sel := (List.range 4096).filter fun j => bit mask (taskCode (taskAt s j).state)
  (groups 87 sel.length sel).map fun g => g.flatMap (taskEntry s)

theorem taskParts_takeLatched (mask : Nat) (s : State) (r : Request) : taskParts mask (takeLatched s r) = taskParts mask s := rfl

/-- A list that one reply holds ends its command with that reply, and a longer one leaves as fragments (R63). -/
theorem ends_or_streams {c : Instr} {r : Request} {s u : State} {parts : List Bytes} {n : Nat}
    (h : exec c s = .next (if parts.length ≤ 1 then finish u r stOk parts.flatten else finishFrags u r parts n))
    (ha : Answerable u r) :
    if parts.length ≤ 1 then Ends c r s u stOk parts.flatten else Streams c r s u parts n := by
  by_cases hone : parts.length ≤ 1
  · rw [if_pos hone] at h ⊢
    exact ends_of_finish h rfl ha
  · rw [if_neg hone] at h ⊢
    exact streams_of_finishFrags h

section
variable {r : Request} {s : State} (hl : live s r = true)
include hl

/-- TASK_POST with its checks passed begins its commits in the FC it arrives in (R352). -/
theorem opTaskPost_posts {n : Nat} {recs : List Bytes} {want idx : List Nat} (hn : n = fld r.payload 0 1)
    (hrecs : recs = (List.range n).map (postRec r.payload)) (hwant : want = recs.map fun b => fld b 2 2)
    (hlen : 8 ≤ r.payload.length ∧ r.payload.length = 8 + 160 * n) (hz : zeros r.payload 1 7 = true)
    (hrsv : recs.all taskRsv = true) (hm : inModes s mPost = true) (hg : s.strt.grid.cellMm ≠ 0) (hcount : 1 ≤ n ∧ n ≤ 8)
    (hok : (((recs.map taskFrom).zip want).all fun e => taskOk s e.1 e.2) = true)
    (hpick : pickTasks s (want.filter (· != 0xFFFF)) (heldTasks s) want = some idx)
    (hfree : postBusy s (want.filter (· != 0xFFFF)) = false) :
    opTaskPost r s = postFc (takeLatched s r)
      { req := r, todo := idx.zip (recs.map taskFrom), planned := n, firstFc := fcNow s } := by
  subst hn hrecs hwant
  have hlen' : (decide (8 ≤ r.payload.length) && r.payload.length == 8 + 160 * fld r.payload 0 1) = true := by
    simpa using hlen
  have hrange : ∀ c : Bool, c = true → (decide (1 ≤ fld r.payload 0 1) && decide (fld r.payload 0 1 ≤ 8) && c) = true :=
    fun c h => by simp [hcount, h]
  rw [opTaskPost, runOp_passes _ hl hlen' (Bool.and_eq_true_iff.mpr ⟨hz, hrsv⟩) rfl hm]
  refine (need_passes _ (bne_iff_ne.mpr hg)).trans ((need_passes (s := takeLatched s r) _ (hrange _ hok)).trans ?_)
  dsimp only
  rw [pickTasks_congr (t := takeLatched s r) (s := s) rfl, show heldTasks (takeLatched s r) = heldTasks s from rfl, hpick]
  exact need_passes (s := takeLatched s r) _ (congrArg not hfree)

/-- TASK_MODIFY with its checks passed rewrites the task it names (R353). -/
theorem opTaskModify_changes (hlen : r.payload.length = 32) (hz : modifyRsv r.payload = true) (hm : inModes s mTask = true)
    (hnamed : taskNamed s (fld r.payload 0 2) = true)
    (hvalue : (modified r.payload (taskAt s (fld r.payload 0 2))).valueMs ≤ 3600000)
    (hmask : (!bit (fld r.payload 2 1) 4 || maskOk s (modified r.payload (taskAt s (fld r.payload 0 2))).classMask) = true)
    (hlive : liveTask (modified r.payload (taskAt s (fld r.payload 0 2))).state = true)
    (hrobot : (bit (fld r.payload 2 1) 4 && excludesRobot s (modified r.payload (taskAt s (fld r.payload 0 2)))) = false) :
    opTaskModify r s = change1 (takeLatched s r) r (okTask, fld r.payload 0 2)
      (fun u => putTask u (fld r.payload 0 2) (modified r.payload (taskAt s (fld r.payload 0 2)))) fun _ => [] := by
  have hrange := Bool.and_eq_true_iff.mpr ⟨Bool.and_eq_true_iff.mpr ⟨hnamed, decide_eq_true hvalue⟩, hmask⟩
  rw [opTaskModify, runOp_passes _ hl (beq_iff_eq.mpr hlen) hz rfl hm]
  exact (need_passes (s := takeLatched s r) _ hrange).trans
    (need_passes (s := takeLatched s r) _ (Bool.and_eq_true_iff.mpr ⟨hlive, congrArg not hrobot⟩))

/-- TASK_CANCEL with its checks passed cancels the task it names (R354). -/
theorem opTaskCancel_cancels (hlen : r.payload.length = 4) (hz : zeros r.payload 3 1 = true) (hm : inModes s mTask = true)
    (hnamed : taskNamed s (fld r.payload 0 2) = true) (haction : fld r.payload 2 1 = 1 ∨ fld r.payload 2 1 = 2)
    (hlive : liveTask (taskAt s (fld r.payload 0 2)).state = true) (hc : csnHolds s r [(okTask, fld r.payload 0 2)] = true) :
    opTaskCancel r s = finish (cancelTask r (fld r.payload 0 2) (taskAt s (fld r.payload 0 2)) (fld r.payload 2 1 == 2)
      (takeLatched s r)) r stOk [] := by
  have haction' : (fld r.payload 2 1 == 1 || fld r.payload 2 1 == 2) = true := by simpa using haction
  rw [opTaskCancel, runOp_passes _ hl (beq_iff_eq.mpr hlen) hz rfl hm]
  exact (need_passes (s := takeLatched s r) _ (Bool.and_eq_true_iff.mpr ⟨hnamed, haction'⟩)).trans
    ((need_passes _ hlive).trans (checkCsn_passes (s := takeLatched s r) _ hc))

/-- TASK_GET of an index of the table answers (R355). -/
theorem opTaskGet_answers (hlen : r.payload.length = 4) (hz : zeros r.payload 2 2 = true) (hm : edt s 0x0710 = true)
    (hj : fld r.payload 0 2 < 4096) :
    opTaskGet r s = finish (takeLatched s r) r stOk (taskReply s (fld r.payload 0 2)) := by
  rw [opTaskGet, runOp_passes _ hl (beq_iff_eq.mpr hlen) hz rfl hm]
  exact need_passes _ (decide_eq_true hj)

/-- TASK_LIST with its checks passed answers the tasks of the states it selects, 87 in a fragment (R355). -/
theorem opTaskList_answers (hlen : r.payload.length = 4) (hz : zeros r.payload 1 3 = true) (hm : edt s 0x0711 = true) :
    opTaskList r s = if (taskParts (fld r.payload 0 1) s).length ≤ 1
      then finish (takeLatched s r) r stOk (taskParts (fld r.payload 0 1) s).flatten
      else finishFrags (takeLatched s r) r (taskParts (fld r.payload 0 1) s) 16 := by
  rw [opTaskList, runOp_passes _ hl (beq_iff_eq.mpr hlen) hz rfl hm, ← taskParts_takeLatched (r := r)]
  unfold taskParts
  rfl

/-- TASK_CONFIG with its checks passed (R356). -/
theorem opTaskConfig_changes (hlen : r.payload.length = 16) (hz : zeros r.payload 10 6 = true) (hn : allZero r.payload = false)
    (hr : supOk s r = true) (hm : inModes s mCfg = true) (hok : taskCfgOk (taskCfgFrom r.payload s.p.taskCfg) = true) :
    opTaskConfig r s = change1 (takeLatched s r) r siteObj
      (fun u => { u with p.taskCfg := taskCfgFrom r.payload u.p.taskCfg }) fun u => taskCfgBytes u.p.taskCfg := by
  unfold opTaskConfig
  exact (runOp_changes hl (beq_iff_eq.mpr hlen) hz hr hm hn).trans (need_passes _ hok)

end

/-- Settles O27: the post by its checks and its one commit on a task, the rows that write by their commit and their change, the
reads by their answers. -/
theorem taskCommandsTakeEffect : Obligations.TaskCommandsTakeEffect := by
  unfold Obligations.TaskCommandsTakeEffect
  refine ⟨fun r s idx hl hlen hz hrsv hm hg hcount hok hpick hfree => congrArg Host.Outcome.next
      (opTaskPost_posts hl rfl rfl rfl hlen hz hrsv hm hg hcount hok hpick hfree),
    fun s q j t htodo hdone hc => postFc_posts htodo hdone hc,
    fun r s hl hc hlen hz hm hnamed hvalue hmask hlive hrobot => ?modify,
    fun r s hl hlen hz hm hnamed haction hlive hc => ?cancel,
    fun r s hl hlen hz hm hj => ends_of_finish (c := .taskGet r)
      (congrArg Host.Outcome.next (opTaskGet_answers hl hlen hz hm hj)) rfl (live_answerable hl),
    fun r s hl hlen hz hm => ?list, fun r s hl hc hlen hz hn hr hm hok => ?config⟩
  case modify =>
    have hfog : mramFog s = false := mramFog_of_inModes hm rfl
    rw [commit_eq (s := takeLatched s r) _ _ hfog]
    exact ends_of_change1 (c := .taskModify r)
      (f := fun u => putTask u (fld r.payload 0 2) (modified r.payload (taskAt s (fld r.payload 0 2))))
      (congrArg Host.Outcome.next (opTaskModify_changes hl hlen hz hm hnamed hvalue hmask hlive hrobot)) hc hfog
      ((live_answerable hl).congr rfl)
  case cancel =>
    have htaken : Answerable (takeLatched s r) r := (live_answerable hl).congr rfl
    have hacts := opTaskCancel_cancels hl hlen hz hm hnamed haction hlive hc
    exact (ends_of_finish (c := .taskCancel r) (congrArg Host.Outcome.next hacts) rfl
      (htaken.congr (congrArg Edtor.sessions (cancelTask_edtor ..))) :)
  case list =>
    -- The answer holds of any parts; those of the 4096 indexes are forgotten before it is split by their number.
    intro sel parts
    have hparts : parts = taskParts (fld r.payload 0 1) s := rfl
    have hacts := opTaskList_answers hl hlen hz hm
    rw [← hparts] at hacts
    clear_value parts
    exact ends_or_streams (congrArg Host.Outcome.next hacts) ((live_answerable hl).congr rfl)
  case config =>
    have hfog : mramFog s = false := mramFog_of_inModes hm rfl
    rw [commit_eq (s := takeLatched s r) _ _ hfog]
    exact ends_of_siteChange (c := .taskConfig r)
      (congrArg Host.Outcome.next (opTaskConfig_changes hl hlen hz hn hr hm hok)) hl hc (fun _ => rfl) hfog

end Sys2Proof.Machine
end

section
/-! PROOFS. Each command is carried out where it names a unit the RD-824 has, and stops with noSuchUnit where it does not. -/

namespace Sys2Proof.Machine

open Sys2Proof

/-! ### The step -/

/-- Settles O1: a step takes the command at the front of the queue and carries it out on the rest. -/
theorem stepRunsTheFrontCommand : Obligations.StepRunsTheFrontCommand := by
  unfold Obligations.StepRunsTheFrontCommand
  refine ⟨fun c rest s => rfl, fun s hs => ?_⟩
  unfold step
  rw [hs]

/-! ### Units (R94, R565) -/

/-- The queue set has the queues of R94. -/
theorem qParam_isSome (q : Nat) : (qParam q).isSome = isQueue q := by
  have hset : (qParam q).isSome = true ↔ isQueue q = true := by
    simp only [qParam, apply_ite Option.isSome, Option.isSome_some, Option.isSome_none, isQueue]
    simp
    omega
  exact Bool.eq_iff_iff.mpr hset

theorem tableSize_eq (t : Nat) : tableSize t = tableEntries t := by
  rcases t with _ | _ | _ | _ | _ | _ | _ | _ | t <;> rfl

/-- The units of a memory block are those of a well-formed fault. -/
theorem memUnitOk_eq (f : MemIn) : memUnitOk f = f.wf := by
  unfold memUnitOk MemIn.wf
  simp only [qParam_isSome, tableSize_eq] <;> rfl

/-! ### Every command -/

/-- A command goes on to a next state, or is ill-formed and stops with noSuchUnit. -/
def NextOrNoSuchUnit (wf : Bool) (o : Host.Outcome State Fault Refusal) : Prop :=
  (∃ t, o = .next t) ∨ (o = .fault .noSuchUnit ∧ wf = false)

/-- A command that asks first for its unit. -/
theorem unit_nextOrNoSuchUnit {wf : Bool} {c : Prop} [Decidable c] {t : State} (h : wf = true → c) :
    NextOrNoSuchUnit wf (if c then .next t else .fault .noSuchUnit) := by
  by_cases hc : c
  · exact .inl ⟨t, if_pos hc⟩
  · exact .inr ⟨if_neg hc, Bool.eq_false_iff.mpr fun hw => hc (h hw)⟩

/-- A command that asks first for its queue. -/
theorem queue_nextOrNoSuchUnit {wf : Bool} {q : Nat} {f : QParam → State} (h : wf = true → isQueue q = true) :
    NextOrNoSuchUnit wf (match qParam q with
      | none => .fault .noSuchUnit
      | some p => .next (f p)) := by
  cases hq : qParam q with
  | some p => exact .inl ⟨f p, rfl⟩
  | none =>
    refine .inr ⟨rfl, Bool.eq_false_iff.mpr fun hw => ?_⟩
    have := qParam_isSome q
    simp [hq, h hw] at this

/-- What becomes of a command: only the rows of numbered units can fail, and a well-formed command names a unit there is. -/
theorem exec_nextOrNoSuchUnit (c : Instr) (s : State) : NextOrNoSuchUnit c.wf (exec c s) := by
  cases c with
  | windowOverrun | lease | coreReload | timeTrigger | pulseEnd | auxInput | outFault | acquisitionDone | lossOfLock | phaseLock
  | bitSynchronisation | codeLock | antShortRetry | relayResend | phyLinkChange | podlDetection | podlOverload | podlRestore
  | faultRetry | timeslot | stopFrame | clockLoss | channelRejoin | canTxOutcome | busOff | busOffRecovery | canWake
  | canBusError | tamperCheck | searchResult =>
    exact unit_nextOrNoSuchUnit of_decide_eq_true
  | syncResp | hello | report | relayAck =>
    exact unit_nextOrNoSuchUnit fun h => by simp_all [Instr.wf, BuoyFrame.wf]
  | radioRx => exact unit_nextOrNoSuchUnit fun h => by simp_all [Instr.wf, AirIn.wf]
  | slInput | inputTestPulse | probe => exact unit_nextOrNoSuchUnit fun h => by simp_all [Instr.wf, fits]
  | canRx => exact unit_nextOrNoSuchUnit fun h => by simp_all [Instr.wf]
  | memoryFault f => exact unit_nextOrNoSuchUnit fun h => (memUnitOk_eq f).trans h
  | queueWrite => exact queue_nextOrNoSuchUnit fun h => by simp_all [Instr.wf]
  | queueRead | dropRest | headRefill | queueFault => exact queue_nextOrNoSuchUnit id
  | _ => exact .inl ⟨_, rfl⟩

/-- Settles O2: a well-formed command names a unit there is, so it goes on (`exec_nextOrNoSuchUnit`). -/
theorem wellFormedCommandsAreCarriedOut : Obligations.WellFormedCommandsAreCarriedOut := by
  unfold Obligations.WellFormedCommandsAreCarriedOut
  intro c s hwf
  obtain hnext | ⟨-, hill⟩ := exec_nextOrNoSuchUnit c s
  · exact hnext
  · simp [hwf] at hill

/-- A command on a queue the device does not have stops. -/
theorem queue_absent {q : Nat} (h : isQueue q = false) (f : QParam → State) :
    (match qParam q with
      | none => .fault .noSuchUnit
      | some p => .next (f p) : Host.Outcome State Fault Refusal) = .fault .noSuchUnit := by
  have hq : qParam q = none := by simpa [h] using qParam_isSome q
  rw [hq]

/-- Settles O3: a command ends in a next state or in noSuchUnit, the latter only where it is ill-formed
(`exec_nextOrNoSuchUnit`); each row of a numbered unit asks for the unit first. -/
theorem absentUnitsFault : Obligations.AbsentUnitsFault := by
  unfold Obligations.AbsentUnitsFault
  refine ⟨fun c s hwf hf => ?_, fun c s q hq => ?_, fun n w s h => ?_, fun n s h => ?_, fun n p s h => ?_, fun n p b s h => ?_,
    fun n p s h => ?_, fun n s h => ?_, fun n e b s h => ?_, fun f s h => ?_⟩
  · obtain ⟨t, ht⟩ := wellFormedCommandsAreCarriedOut c s hwf
    rw [ht] at hf
    cases hf
  · obtain ⟨t, ht⟩ | ⟨ht, -⟩ := exec_nextOrNoSuchUnit c s <;> rw [ht] at hq <;> cases hq
  · exact ⟨if_neg h.not_gt, if_neg h.not_gt⟩
  · exact ⟨if_neg h.not_gt, if_neg h.not_gt, if_neg h.not_gt⟩
  · exact if_neg h.not_gt
  · exact ⟨if_neg h.not_gt, if_neg h.not_gt, if_neg h.not_gt⟩
  · exact ⟨if_neg h.not_gt, if_neg h.not_gt, if_neg h.not_gt⟩
  · exact ⟨if_neg h.not_gt, if_neg h.not_gt, if_neg h.not_gt, if_neg h.not_gt⟩
  · exact ⟨queue_absent h _, queue_absent h _, queue_absent h _, queue_absent h _, queue_absent h _⟩
  · exact if_neg (by simp [memUnitOk_eq, h])

end Sys2Proof.Machine
end

section
/-! PROOFS. The STOP commands: STOP_ALL and STOP_ROBOT beside their filter, STOP_RELEASE_ARM and STOP_RELEASE_CONFIRM. -/

namespace Sys2Proof.Machine

open Sys2Proof

/-! ### STOP_ALL and STOP_ROBOT (R397, R398, R404) -/

section
variable {r : Request} {s : State} (hl : live s r = true)
include hl

/-- A stop command whose checks pass requests its stop, unless the filter holds a record of it. -/
theorem stopOp_requests {opcode : Nat} {rsv ok : Bool} (req : State → State) (hlen : r.payload.length = 16) (hz : rsv = true)
    (hm : edt s opcode = true) (hok : ok = true) :
    stopOp r s opcode rsv ok req
      = finishStop (if (filterRec s r).isSome then takeLatched s r else req (takeLatched s r)) r (filterRec s r) stOk := by
  have hm' : edt (takeLatched s r) opcode = true := hm
  simp only [stopOp, hl, hlen, hz, hm', hok, Bool.not_true, Bool.false_eq_true, ↓reduceIte, bne_self_eq_false]
  rfl

theorem opStopAll_requests (hlen : r.payload.length = 16) (hz : zeros r.payload 2 14 = true) (hm : edt s 0x0901 = true) :
    opStopAll r s = finishStop (if (filterRec s r).isSome then takeLatched s r else requestStop (takeLatched s r) 4) r
      (filterRec s r) stOk :=
  stopOp_requests hl (fun s => requestStop s 4) hlen hz hm rfl

theorem opStopRobot_requests (hlen : r.payload.length = 16) (hz : (zeros r.payload 1 1 && zeros r.payload 4 12) = true)
    (hm : edt s 0x0902 = true) (hrobot : (robotRec s (fld r.payload 0 1)).sstate ≠ .free) :
    opStopRobot r s = finishStop (if (filterRec s r).isSome then takeLatched s r
        else requestRobotStop (takeLatched s r) (fld r.payload 0 1) 1) r (filterRec s r) stOk :=
  stopOp_requests hl (fun s => requestRobotStop s (fld r.payload 0 1) 1) hlen hz hm (bne_iff_ne.mpr hrobot)

end

/-- A stop command that ends with ST_OK is answered last, with STOP_FILTER where the filter had acted. -/
theorem finishStop_replies {s : State} {r : Request} (hit : Option FilterRec) (ho : (callerOf s r).isSome = true) :
    ∃ x, (finishStop s r hit stOk).com.replies = s.com.replies ++ [x]
      ∧ x.flags = fFinal + (if hit.isSome then fStopFilter else 0) ∧ x.status = stOk := by
  have hb : (r.slot = 4 || (callerOf s r).isSome) = true := by simp [ho]
  exact ⟨_, congrArg (fun u : State => u.com.replies) (if_pos hb), rfl, rfl⟩

/-! ### The two steps of a release (R401, R402) -/

/-- The arm a STOP_RELEASE_ARM payload makes. -/
def armFrom (s : State) (r : Request) : ReleaseArm :=
  { armId := s.stop.armIds % (2 ^ 32 - 1) + 1
    sessionId := r.sessionId
    site := fld r.payload 0 1 == 1
    robot := fld r.payload 1 1
    fc := fcNow s }

/-- The arm is spent and its release is requested for the next FC. -/
def requestRelease (a : ReleaseArm) (s : State) : State :=
  { s with
    stop.arms := s.stop.arms.filter fun x => x.armId != a.armId
    stop.release := some (a.site, a.robot) }

section
variable {r : Request} {s : State} (hl : live s r = true) (hlen : r.payload.length = 8) (hr : supOk s r = true)
  (hm : inModes s mRelease = true)
include hl hlen hr hm

theorem opStopReleaseArm_arms
    (hz : (zeros r.payload 2 6 && (!(fld r.payload 0 1 == 1) || zeros r.payload 1 1)) = true)
    (hscope : fld r.payload 0 1 = 1 ∨ fld r.payload 0 1 = 2)
    (hsome : releasable s (fld r.payload 0 1 == 1) (fld r.payload 1 1) = true)
    (hb : blocking s (fld r.payload 0 1 == 1) = 0) (hown : ∀ a ∈ pendingArms s, a.sessionId = r.sessionId) :
    opStopReleaseArm r s = finish { takeLatched s r with
        stop.armIds := (armFrom s r).armId
        stop.arms := s.stop.arms.filter (fun a => a.sessionId != r.sessionId) ++ [armFrom s r] } r stOk
      (le 4 (armFrom s r).armId ++ zb 4) := by
  have hrange : ((fld r.payload 0 1 == 1 || fld r.payload 0 1 == 2)
      && releasable s (fld r.payload 0 1 == 1) (fld r.payload 1 1)) = true := by
    rw [hsome, Bool.and_true]
    simpa using hscope
  have hfree : (!((pendingArms s).any fun a => a.sessionId != r.sessionId)) = true := by simpa using hown
  have hclear : ¬(blocking (takeLatched s r) (fld r.payload 0 1 == 1) != 0) = true := by
    have : blocking (takeLatched s r) (fld r.payload 0 1 == 1) = 0 := hb
    simp [this]
  rw [opStopReleaseArm, runOp_passes _ hl (beq_iff_eq.mpr hlen) hz hr hm]
  exact (need_passes (s := takeLatched s r) _ hrange).trans ((if_neg hclear).trans (need_passes (s := takeLatched s r) _ hfree))

theorem opStopReleaseConfirm_confirms {a : ReleaseArm} (hz : zeros r.payload 4 4 = true)
    (ha : (s.stop.arms.find? fun a => a.sessionId == r.sessionId && a.armId == fld r.payload 0 4) = some a)
    (hb : blocking s a.site = 0) (hin : releaseInputOk s = true) (hfc : fcNow s ≤ a.fc + 500) :
    opStopReleaseConfirm r s = change1 (takeLatched s r) r (if a.site then siteObj else (okRobot, a.robot)) (requestRelease a)
      fun u => le 8 (fcNow u + 1) := by
  have ha' : ((takeLatched s r).stop.arms.find? fun a => a.sessionId == r.sessionId && a.armId == fld r.payload 0 4)
      = some a := ha
  have hready : (blocking s a.site == 0 && releaseInputOk s) = true := by simp [hb, hin]
  rw [opStopReleaseConfirm, runOp_passes _ hl (beq_iff_eq.mpr hlen) hz hr hm]
  simp only [ha']
  exact (need_passes (s := takeLatched s r) _ hready).trans (need_passes (s := takeLatched s r) _ (decide_eq_true hfc))

end

/-- Settles O29: STOP_ALL and STOP_ROBOT by `stopOp_requests`, the arm by its answer, the confirmation by its one change of the
robot or of the site. -/
theorem stopCommandsTakeEffect : Obligations.StopCommandsTakeEffect := by
  unfold Obligations.StopCommandsTakeEffect
  refine ⟨fun r s hl hlen hz hm => congrArg Host.Outcome.next (opStopAll_requests hl hlen hz hm),
    fun r s hl hlen hz hm hrobot => congrArg Host.Outcome.next (opStopRobot_requests hl hlen hz hm hrobot),
    fun s r hit ho => ?_,
    fun r s hl hlen hz hr hm hscope hsome hb hown => ends_of_finish (c := .stopReleaseArm r)
      (congrArg Host.Outcome.next (opStopReleaseArm_arms hl hlen hr hm hz hscope hsome hb hown)) rfl
      ((live_answerable hl).congr rfl),
    fun r s a hl hc hlen hz hr hm ha hsite hb hin hfc => ?_, fun r s a hl hc hlen hz hr hm ha hsite hb hin hfc => ?_⟩
  · obtain ⟨x, hx, hflags, hst⟩ := finishStop_replies hit ho
    exact ⟨x, _, hx, rfl, hflags, hst⟩
  · have hfog : mramFog s = false := mramFog_of_inModes hm rfl
    have hacts := opStopReleaseConfirm_confirms hl hlen hr hm hz ha (hsite ▸ hb) hin hfc
    rw [commit_eq (s := takeLatched s r) _ _ hfog]
    simp only [hsite, Bool.false_eq_true, ↓reduceIte] at hacts
    have h := ends_of_change1 (c := .stopReleaseConfirm r) (congrArg Host.Outcome.next hacts) hc hfog
      ((live_answerable hl).congr rfl)
    simp only [requestRelease, hsite] at h
    exact h
  · have hfog : mramFog s = false := mramFog_of_inModes hm rfl
    have hacts := opStopReleaseConfirm_confirms hl hlen hr hm hz ha (hsite ▸ hb) hin hfc
    rw [commit_eq (s := takeLatched s r) _ _ hfog]
    simp only [hsite, ↓reduceIte] at hacts
    have h := ends_of_siteChange (c := .stopReleaseConfirm r) (congrArg Host.Outcome.next hacts) hl hc (fun _ => rfl) hfog
    simp only [requestRelease, hsite] at h
    exact h

end Sys2Proof.Machine
end

section
/-! PROOFS. The CAN events: frames received and sent, bus errors, bus-off, recovery and wake. Each writes one channel. -/

namespace Sys2Proof.Machine

open Sys2Proof

/-! ### One channel -/

/-- A queue noted: nothing but the queues and the events of the next FC changes. -/
theorem noteOccupancy_eq (s : State) (q : Nat) (p : QParam) (before : Nat) :
    ∃ k l, noteOccupancy s q p before = { s with queues := k, com.later := l } := by
  unfold noteOccupancy
  extract_lets k occ crossed k' u
  split <;> exact ⟨_, _, rfl⟩

theorem noteQueue_eq (s : State) (q : Nat) : ∃ k l, noteQueue s q = { s with queues := k, com.later := l } := by
  unfold noteQueue
  split
  · exact ⟨s.queues, s.com.later, rfl⟩
  · dsimp only
    split
    · exact ⟨s.queues, s.com.later, rfl⟩
    · exact noteOccupancy_eq ..

theorem arrived_eq (s : State) (q before : Nat) : ∃ k l, arrived s q before = { s with queues := k, com.later := l } := by
  unfold arrived
  split
  · exact ⟨s.queues, s.com.later, rfl⟩
  · exact noteOccupancy_eq ..

theorem canAt_modCan_same {s : State} {ch : Nat} (f : CanChan → CanChan) (h : ch < s.can.length) :
    canAt (modCan s ch f) ch = f (canAt s ch) := by
  simp [canAt, modCan, lmod, List.getD_eq_getElem?_getD, h]

theorem canAt_modCan_other (s : State) {ch k : Nat} (f : CanChan → CanChan) (h : k ≠ ch) :
    canAt (modCan s ch f) k = canAt s k := by
  simp [canAt, modCan, lmod, List.getD_eq_getElem?_getD, Ne.symm h]

/-- A channel that does not read as one switched off and never used is among those the device has. -/
theorem canAt_inRange {s : State} {ch : Nat} (h : canAt s ch ≠ {}) : ch < s.can.length := by
  by_contra hn
  exact h (List.getD_eq_default _ _ (Nat.le_of_not_lt hn))

theorem canOn_inRange {s : State} {ch : Nat} (h : canOn (canAt s ch) = true) : ch < s.can.length :=
  canAt_inRange fun he => by rw [he] at h; cases h

/-- From the first state to the second one channel becomes what is given; the other channels, the stop path and the memories
stay as they are. -/
structure WritesChannel (s t : State) (ch : Nat) (c : CanChan) : Prop where
  inRange : ch < t.can.length
  same : canAt t ch = c
  other : ∀ k, k ≠ ch → canAt t k = canAt s k
  stop : t.stop = s.stop
  p : t.p = s.p

namespace WritesChannel

variable {s t : State} {ch : Nat} {c : CanChan}

theorem refl (h : ch < s.can.length) : WritesChannel s s ch (canAt s ch) := ⟨h, rfl, fun _ _ => rfl, rfl, rfl⟩

theorem modCan (h : WritesChannel s t ch c) (f : CanChan → CanChan) : WritesChannel s (modCan t ch f) ch (f c) where
  inRange := by simpa [Machine.modCan, lmod] using h.inRange
  same := (canAt_modCan_same f h.inRange).trans (congrArg f h.same)
  other k hk := (canAt_modCan_other t f hk).trans (h.other k hk)
  stop := h.stop
  p := h.p

theorem arrived (h : WritesChannel s t ch c) (q before : Nat) : WritesChannel s (arrived t q before) ch c := by
  obtain ⟨k, l, he⟩ := arrived_eq t q before
  rw [he]
  exact ⟨h.inRange, h.same, h.other, h.stop, h.p⟩

theorem noteQueue (h : WritesChannel s t ch c) (q : Nat) : WritesChannel s (noteQueue t q) ch c := by
  obtain ⟨k, l, he⟩ := noteQueue_eq t q
  rw [he]
  exact ⟨h.inRange, h.same, h.other, h.stop, h.p⟩

end WritesChannel

/-! ### Changes of CSTATE (R443, R449, R452) -/

theorem setCan_eq (c : CanChan) (st : CState) (cause : Nat) :
    ∃ old n, setCan c st cause = { c with state := st, evOld := old, evCause := n } := by
  unfold setCan
  split
  · next h =>
    obtain rfl : c.state = st := by simpa using h
    exact ⟨c.evOld, c.evCause, rfl⟩
  · exact ⟨_, _, rfl⟩

theorem byCounters_eq (c : CanChan) :
    ∃ st old n, byCounters c = { c with state := st, evOld := old, evCause := n } := by
  unfold byCounters
  split
  · exact ⟨c.state, c.evOld, c.evCause, rfl⟩
  · exact ⟨_, setCan_eq ..⟩

/-- After a bus-off the channel is off the bus or disabled, its counter stands as it was set and the stop frame is lost. -/
theorem goBusOff_effect (fc : Nat) (head : Bool) (c : CanChan) :
    let g := goBusOff fc head c
    (g.state = .busOff ∨ g.state = .disabled) ∧ g.tecCtr = c.tecCtr ∧ g.stopBuf = none
      ∧ g.busoffCount = inc32 c.busoffCount := by
  obtain ⟨old, n, hset⟩ := setCan_eq c .busOff 1
  unfold goBusOff
  simp only [hset]
  split
  · obtain ⟨old', n', hset'⟩ := setCan_eq _ .disabled 3
    rw [hset']
    exact ⟨.inr rfl, rfl, rfl, rfl⟩
  · exact ⟨.inl rfl, rfl, rfl, rfl⟩

/-! ### Receiving (R441, R444) -/

/-- The state in which a frame received is dealt with: its arrival has lowered the receive counter. -/
def frameHeard (s : State) (ch : Nat) : State :=
  modCan (recAfter s (canAt s ch).recCtr).2 ch fun c => byCounters { c with recCtr := (recAfter s (canAt s ch).recCtr).1 }

/-- A frame as the receive queue holds it. -/
def queuedFrame (s : State) (f : CanIn) : CanFrame :=
  { id := f.id, ide := f.ide, fdf := f.fdf, brs := f.brs, esi := f.esi, data := f.data, sof := capturedTime s f.sof }

section
variable {s : State} {ch : Nat} {f : CanIn} (hr : running s = true) (hon : canOn (canAt s ch) = true)
  (hok : canFrameOk f.ide f.fdf f.id f.data.length = true)
include hr hon hok

theorem opCanRx_remote (hrem : f.remote = true) :
    opCanRx ch f s = modCan (frameHeard s ch) ch fun c => { c with rxRemote := inc32 c.rxRemote } :=
  (if_neg (by simp [hr, hon, hok])).trans (if_pos hrem)

theorem opCanRx_queues (hrem : f.remote = false) (hroom : (admitFrame (frameHeard s ch) (0x30 + 2 * ch) false).1 = true) :
    opCanRx ch f s = arrived (modCan (frameHeard s ch) ch fun c =>
        { c with rx := c.rx ++ [queuedFrame (frameHeard s ch) f], rxFrames := inc32 c.rxFrames })
      (0x30 + 2 * ch) (occOf (frameHeard s ch) (0x30 + 2 * ch)) := by
  have hadm : ¬(!(admitFrame (frameHeard s ch) (0x30 + 2 * ch) false).1) = true := by simp [hroom]
  exact (if_neg (by simp [hr, hon, hok])).trans ((if_neg (by simp [hrem])).trans (if_neg hadm))

end

theorem recAfter_writes {s : State} {ch : Nat} (n : Nat) (h : ch < s.can.length) :
    WritesChannel s (recAfter s n).2 ch (canAt s ch) := by
  unfold recAfter
  split <;> exact ⟨h, rfl, fun _ _ => rfl, rfl, rfl⟩

theorem frameHeard_writes {s : State} {ch : Nat} (h : ch < s.can.length) :
    WritesChannel s (frameHeard s ch) ch (byCounters { canAt s ch with recCtr := (recAfter s (canAt s ch).recCtr).1 }) :=
  (recAfter_writes _ h).modCan _

/-- Hearing a frame moves the counters of its channel alone. -/
theorem frameHeard_chan {s : State} {ch : Nat} (h : ch < s.can.length) :
    (canAt (frameHeard s ch) ch).rx = (canAt s ch).rx ∧ (canAt (frameHeard s ch) ch).txq = (canAt s ch).txq
      ∧ (canAt (frameHeard s ch) ch).rxFrames = (canAt s ch).rxFrames := by
  rw [(frameHeard_writes h).same]
  obtain ⟨st, old, n, hc⟩ := byCounters_eq { canAt s ch with recCtr := (recAfter s (canAt s ch).recCtr).1 }
  rw [hc]
  exact ⟨rfl, rfl, rfl⟩

/-! ### Sending (R448, R449) -/

/-- The state with the start of a frame sent noted for the completion table, and the transmitter delay measured (R441, R152). -/
def sendNoted (s : State) (ch : Nat) (x : CanTx) (outcome : Nat) (sof : Option Counter) : State :=
  let s := match sof with
    | some c => if outcome = 1 then noteSent s (canLink ch) c else s
    | none => s
  if outcome = 1 && x.frame.brs then measureDelay s ch else s

/-- A channel that is to sleep does so once it has nothing released left to send (R453). -/
def sleepsWhenIdle (s : State) (c : CanChan) : CanChan :=
  match c.sleepDue with
  | some n =>
    if (decide (n < fcNow s) || s.clk.window == .guard) && c.stopBuf.isNone && !(c.txq.any fun t => t.releasedFc.isSome)
    then setCan { c with sleepDue := none } .asleep 4 else c
  | none => c

/-- A channel whose stop frame, or the head of whose queue, leaves with its outcome. -/
def frameLeaves (s : State) (x : CanTx) (stop : Bool) (outcome time : Nat) (c : CanChan) : CanChan :=
  let c := if outcome = 1 then byCounters { c with tecCtr := c.tecCtr - 1 } else c
  sleepsWhenIdle s { c with
    stopBuf := if stop then none else c.stopBuf
    txq := if stop then c.txq else c.txq.drop 1
    outcomes := c.outcomes ++ [(x, outcome, time)] }

/-- The outcomes that a frame released in an FC may have (R449). -/
def outcomeMay (s : State) (c : CanChan) (x : CanTx) (fc outcome : Nat) : Bool :=
  if outcome = 1 then canOn c
  else if outcome = 2 || outcome = 3 then canOn c && x.oneShot
  else outcome = 5 && decide (fc + c.cfg.ttl ≤ fcNow s)

theorem opCanTxOutcome_leaves {s : State} {ch outcome fc : Nat} {stop : Bool} {x : CanTx} (sof : Option Counter)
    (hr : running s = true) (hx : (if stop then (canAt s ch).stopBuf else (canAt s ch).txq.head?) = some x)
    (hfc : x.releasedFc = some fc) (hmay : outcomeMay s (canAt s ch) x fc outcome = true) :
    opCanTxOutcome ch stop outcome sof s = modCan (sendNoted s ch x outcome sof) ch
      (frameLeaves (sendNoted s ch x outcome sof) x stop outcome ((sof.map (capturedTime s)).getD 0)) := by
  have hg : ¬(!running s || !outcomeMay s (canAt s ch) x fc outcome) = true := by simp [hr, hmay]
  simp only [opCanTxOutcome, hx, hfc]
  exact if_neg hg

/-- What noting a frame sent leaves of its channel: all but the delay measured. -/
theorem sendNoted_writes {s : State} {ch : Nat} (x : CanTx) (outcome : Nat) (sof : Option Counter) (h : ch < s.can.length) :
    ∃ n, WritesChannel s (sendNoted s ch x outcome sof) ch { canAt s ch with tdc := n } := by
  have hnoted : ∀ u : State, u.can = s.can → u.stop = s.stop → u.p = s.p →
      ∃ n, WritesChannel s (if outcome = 1 && x.frame.brs then measureDelay u ch else u) ch { canAt s ch with tdc := n } := by
    intro u hcan hstop hp
    have hu : WritesChannel s u ch (canAt s ch) :=
      ⟨hcan ▸ h, by rw [canAt, hcan]; rfl, fun k _ => by rw [canAt, hcan]; rfl, hstop, hp⟩
    split
    · have hv : WritesChannel s (freshNat u).2 ch (canAt s ch) := ⟨hu.inRange, hu.same, hu.other, hu.stop, hu.p⟩
      exact ⟨_, hv.modCan fun c => { c with tdc := (freshNat u).1 % 65536 }⟩
    · exact ⟨(canAt s ch).tdc, hu⟩
  unfold sendNoted
  split
  · split
    · exact hnoted _ rfl rfl rfl
    · exact hnoted s rfl rfl rfl
  · exact hnoted s rfl rfl rfl

theorem sleepsWhenIdle_eq (s : State) (c : CanChan) :
    ∃ due st old n, sleepsWhenIdle s c = { c with sleepDue := due, state := st, evOld := old, evCause := n } := by
  unfold sleepsWhenIdle
  split
  · split
    · exact ⟨none, .asleep, setCan_eq { c with sleepDue := none } .asleep 4⟩
    · exact ⟨c.sleepDue, c.state, c.evOld, c.evCause, rfl⟩
  · exact ⟨c.sleepDue, c.state, c.evOld, c.evCause, rfl⟩

/-- The frame that leaves is gone from the channel and stands among the outcomes. -/
theorem frameLeaves_effect (s : State) (x : CanTx) (stop : Bool) (outcome time : Nat) (c : CanChan) :
    let d := frameLeaves s x stop outcome time c
    d.stopBuf = (if stop then none else c.stopBuf) ∧ d.txq = (if stop then c.txq else c.txq.drop 1)
      ∧ d.outcomes = c.outcomes ++ [(x, outcome, time)] ∧ d.tecCtr = (if outcome = 1 then c.tecCtr - 1 else c.tecCtr) := by
  unfold frameLeaves
  by_cases ho : outcome = 1
  · obtain ⟨st, old, n, hc⟩ := byCounters_eq { c with tecCtr := c.tecCtr - 1 }
    simp only [ho, ↓reduceIte, hc]
    obtain ⟨due, st', old', n', hs⟩ := sleepsWhenIdle_eq s { c with
      tecCtr := c.tecCtr - 1, state := st, evOld := old, evCause := n
      stopBuf := if stop then none else c.stopBuf
      txq := if stop then c.txq else c.txq.drop 1
      outcomes := c.outcomes ++ [(x, 1, time)] }
    rw [hs]
    exact ⟨rfl, rfl, rfl, rfl⟩
  · simp only [ho, ↓reduceIte]
    obtain ⟨due, st', old', n', hs⟩ := sleepsWhenIdle_eq s { c with
      stopBuf := if stop then none else c.stopBuf
      txq := if stop then c.txq else c.txq.drop 1
      outcomes := c.outcomes ++ [(x, outcome, time)] }
    rw [hs]
    exact ⟨rfl, rfl, rfl, rfl⟩

/-- The outcome of a frame sent writes its channel alone. -/
theorem canTxOutcome_writes {s : State} {ch outcome fc : Nat} {stop : Bool} {x : CanTx} (sof : Option Counter) (hch : ch < 2)
    (hr : running s = true) (hx : (if stop then (canAt s ch).stopBuf else (canAt s ch).txq.head?) = some x)
    (hfc : x.releasedFc = some fc) (hmay : outcomeMay s (canAt s ch) x fc outcome = true) :
    ∃ t d, exec (.canTxOutcome ch stop outcome sof) s = .next t ∧ WritesChannel s t ch d
      ∧ d.stopBuf = (if stop then none else (canAt s ch).stopBuf)
      ∧ d.txq = (if stop then (canAt s ch).txq else (canAt s ch).txq.drop 1)
      ∧ (∃ n, d.outcomes = (canAt s ch).outcomes ++ [(x, outcome, n)])
      ∧ d.tecCtr = (if outcome = 1 then (canAt s ch).tecCtr - 1 else (canAt s ch).tecCtr) := by
  have hrange : ch < s.can.length := canAt_inRange fun he => by
    cases stop <;> simp [he] at hx
  obtain ⟨n, hnoted⟩ := sendNoted_writes x outcome sof hrange
  obtain ⟨hbuf, hq, hout, htec⟩ := frameLeaves_effect (sendNoted s ch x outcome sof) x stop outcome
    ((sof.map (capturedTime s)).getD 0) { canAt s ch with tdc := n }
  have hexec : exec (.canTxOutcome ch stop outcome sof) s
      = .next (noteQueue (opCanTxOutcome ch stop outcome sof s) (0x31 + 2 * ch)) := if_pos hch
  rw [opCanTxOutcome_leaves sof hr hx hfc hmay] at hexec
  exact ⟨_, _, hexec, (hnoted.modCan _).noteQueue _, hbuf, hq, ⟨_, hout⟩, htec⟩

/-! ### Bus errors, bus-off, recovery and wake (R443, R449, R452, R453) -/

section
variable {s : State} {ch : Nat} (hr : running s = true)
include hr

theorem opCanBusError_off {tec rc : Nat} (hon : canOn (canAt s ch) = true) (h : 255 < (canAt s ch).tecCtr + tec) :
    opCanBusError ch tec rc s = modCan s ch fun c =>
      goBusOff (fcNow s) c.stopBuf.isNone { c with tecCtr := 256, recCtr := min 255 (c.recCtr + rc) } :=
  (if_neg (by simp [hr, hon])).trans (if_pos h)

theorem opCanBusError_counts {tec rc : Nat} (hon : canOn (canAt s ch) = true) (h : (canAt s ch).tecCtr + tec ≤ 255) :
    opCanBusError ch tec rc s = modCan s ch fun c =>
      byCounters { c with tecCtr := c.tecCtr + tec, recCtr := min 255 (c.recCtr + rc) } :=
  (if_neg (by simp [hr, hon])).trans (if_neg (Nat.not_lt.mpr h))

theorem opBusOff_goes (head : Bool) (hon : canOn (canAt s ch) = true) (h : 248 ≤ (canAt s ch).tecCtr) :
    opBusOff ch head s = modCan s ch fun c => goBusOff (fcNow s) head { c with tecCtr := 256 } :=
  if_neg (by simp [hr, hon, Nat.not_lt.mpr h])

theorem opBusOffRecovery_recovers (h : (canAt s ch).state = .busOff) :
    opBusOffRecovery ch s = modCan s ch fun c => setCan { c with tecCtr := 0, recCtr := 0 } .errorActive 2 :=
  if_neg (by simp [hr, h])

/-- The condition of a wake from the bus: a dominant level, or a wake frame under WAKE_MODE FRAME. -/
def wakeHits (c : CanConfig) (w : CanWakeIn) : Bool :=
  if c.wakeMode = 1 then decide (5 ≤ w.dominantUs) else
  match w.frame with
  | none => false
  | some (id, data) =>
    Nat.land (Nat.xor id c.wakeId) c.wakeIdMask == 0 && data.length == c.wakeLen
      && (data.zip c.wakeData).any fun e => (e.1 &&& e.2) != 0

theorem opCanWake_wakes {w : CanWakeIn} (h : (canAt s ch).state = .asleep) (hw : wakeHits (canAt s ch).cfg w = true) :
    opCanWake ch w s = modCan s ch (wakeChan (fcNow s) 5 false false) := by
  have hg : ¬(!running s || (canAt s ch).state != .asleep || !wakeHits (canAt s ch).cfg w) = true := by simp [hr, h, hw]
  exact if_neg hg

end

/-- An error on the bus writes its channel: beyond 255 it goes off the bus, else its counters rise. -/
theorem canBusError_writes {s : State} {ch : Nat} (tec rc : Nat) (hr : running s = true) (hch : ch < 2)
    (hon : canOn (canAt s ch) = true) :
    ∃ t d, exec (.canBusError ch tec rc) s = .next t ∧ WritesChannel s t ch d
      ∧ (255 < (canAt s ch).tecCtr + tec → (d.state = .busOff ∨ d.state = .disabled) ∧ d.tecCtr = 256)
      ∧ ((canAt s ch).tecCtr + tec ≤ 255 →
          d.tecCtr = (canAt s ch).tecCtr + tec ∧ d.recCtr = min 255 ((canAt s ch).recCtr + rc)) := by
  have hexec : exec (.canBusError ch tec rc) s = .next (noteQueue (opCanBusError ch tec rc s) (0x31 + 2 * ch)) := if_pos hch
  have hin := WritesChannel.refl (canOn_inRange hon)
  rcases Nat.lt_or_ge 255 ((canAt s ch).tecCtr + tec) with h | h
  · rw [opCanBusError_off hr hon h] at hexec
    obtain ⟨hst, htec, -⟩ := goBusOff_effect (fcNow s) (canAt s ch).stopBuf.isNone
      { canAt s ch with tecCtr := 256, recCtr := min 255 ((canAt s ch).recCtr + rc) }
    exact ⟨_, _, hexec, (hin.modCan _).noteQueue _, fun _ => ⟨hst, htec⟩, fun hle => absurd h (Nat.not_lt.mpr hle)⟩
  · rw [opCanBusError_counts hr hon h] at hexec
    obtain ⟨st, old, n, hc⟩ := byCounters_eq
      { canAt s ch with tecCtr := (canAt s ch).tecCtr + tec, recCtr := min 255 ((canAt s ch).recCtr + rc) }
    refine ⟨_, _, hexec, (hin.modCan _).noteQueue _, fun hlt => absurd hlt (Nat.not_lt.mpr h), fun _ => ?_⟩
    rw [hc]
    exact ⟨rfl, rfl⟩

/-- A recovery writes its channel: ERROR_ACTIVE with both counters 0. -/
theorem busOffRecovery_writes {s : State} {ch : Nat} (hr : running s = true) (hch : ch < 2)
    (h : (canAt s ch).state = .busOff) :
    ∃ t old n, exec (.busOffRecovery ch) s = .next t
      ∧ WritesChannel s t ch { canAt s ch with tecCtr := 0, recCtr := 0, state := .errorActive, evOld := old, evCause := n } := by
  have hexec : exec (.busOffRecovery ch) s = .next (opBusOffRecovery ch s) := if_pos hch
  rw [opBusOffRecovery_recovers hr h] at hexec
  obtain ⟨old, n, hc⟩ := setCan_eq { canAt s ch with tecCtr := 0, recCtr := 0 } .errorActive 2
  have hin := WritesChannel.refl (canAt_inRange fun he => by rw [he] at h; cases h)
  exact ⟨_, old, n, hexec, hc ▸ hin.modCan _⟩

/-- A wake from the bus writes its channel: ERROR_ACTIVE with both counters 0, and no sleep is due. -/
theorem canWake_writes {s : State} {ch : Nat} {w : CanWakeIn} (hr : running s = true) (hch : ch < 2)
    (h : (canAt s ch).state = .asleep) (hw : wakeHits (canAt s ch).cfg w = true) :
    ∃ t old n, exec (.canWake ch w) s = .next t ∧ WritesChannel s t ch { canAt s ch with
      sleepDue := none, tecCtr := 0, recCtr := 0, state := .errorActive, evOld := old, evCause := n } := by
  have hexec : exec (.canWake ch w) s = .next (noteQueue (opCanWake ch w s) (0x31 + 2 * ch)) := if_pos hch
  rw [opCanWake_wakes hr h hw] at hexec
  obtain ⟨old, n, hc⟩ := setCan_eq { canAt s ch with sleepDue := none, tecCtr := 0, recCtr := 0 } .errorActive 5
  have hwake : wakeChan (fcNow s) 5 false false (canAt s ch)
      = setCan { canAt s ch with sleepDue := none, tecCtr := 0, recCtr := 0 } .errorActive 5 := if_neg (by simp [h])
  have hin := WritesChannel.refl (canAt_inRange fun he => by rw [he] at h; cases h)
  exact ⟨_, old, n, hexec, hc ▸ hwake ▸ (hin.modCan _).noteQueue _⟩

/-- Settles O46: each event by what it writes of its channel. -/
theorem canEventsAct : Obligations.CanEventsAct := by
  unfold Obligations.CanEventsAct
  refine ⟨fun s ch f k u hr hch hon hok hrec hrem => ?remote, fun s ch f k u v hr hch hon hok hrec hrem hadm => ?queued,
    fun s ch outcome sof x fc hr hch hx hfc ho hon => ?stop, fun s ch outcome sof x rest fc hr hch hx hfc hmay => ?head,
    fun s ch tec rc hr hch hon => ?error,
    fun s ch head hr hch hon h => (if_pos hch).trans
      (congrArg (fun u => Host.Outcome.next (noteQueue u _)) (opBusOff_goes hr head hon h)),
    fun s ch hr hch h => ?recovery,
    fun s ch w hr hch h hw => (if_pos hch).trans
      (congrArg (fun u => Host.Outcome.next (noteQueue u _)) (opCanWake_wakes hr h hw))⟩
  case remote =>
    obtain ⟨rfl, rfl⟩ := Prod.ext_iff.mp hrec
    exact (if_pos hch).trans (congrArg Host.Outcome.next (opCanRx_remote hr hon hok hrem))
  case queued =>
    obtain ⟨rfl, rfl⟩ := Prod.ext_iff.mp hrec
    have hroom := congrArg Prod.fst hadm
    obtain rfl : frameHeard s ch = v := congrArg Prod.snd ((admitFrame_admits hroom).symm.trans hadm)
    have hw := ((WritesChannel.refl (frameHeard_writes (canOn_inRange hon)).inRange).modCan fun c =>
      { c with rx := c.rx ++ [queuedFrame (frameHeard s ch) f], rxFrames := inc32 c.rxFrames }).arrived
        (0x30 + 2 * ch) (occOf (frameHeard s ch) (0x30 + 2 * ch))
    exact ⟨_, (if_pos hch).trans (congrArg Host.Outcome.next (opCanRx_queues hr hon hok hrem hroom)), _,
      congrArg CanChan.rx hw.same, rfl, rfl, rfl, rfl, rfl, rfl⟩
  case stop =>
    subst ho
    obtain ⟨t, d, ht, hw, hbuf, -, hout, -⟩ := canTxOutcome_writes (stop := true) (outcome := 1) sof hch hr hx hfc hon
    exact ⟨t, ht, hw.same ▸ hbuf, hw.same ▸ hout⟩
  case head =>
    have hhead : (canAt s ch).txq.head? = some x := by rw [hx]; rfl
    have hmay' : outcomeMay s (canAt s ch) x fc outcome = true := by
      rcases hmay with ⟨rfl, hon⟩ | ⟨rfl | rfl, hon, hone⟩ | ⟨rfl, hfc⟩
      · exact hon
      · simp [outcomeMay, hon, hone]
      · simp [outcomeMay, hon, hone]
      · simpa [outcomeMay] using hfc
    obtain ⟨t, d, ht, hw, -, hq, hout, -⟩ := canTxOutcome_writes (stop := false) sof hch hr hhead hfc hmay'
    refine ⟨t, ht, ?_, hw.same ▸ hout⟩
    rw [hw.same, hq, hx]
    rfl
  case error =>
    obtain ⟨t, d, ht, hw, hoff, hcount⟩ := canBusError_writes tec rc hr hch hon
    rw [← hw.same] at hoff hcount
    exact ⟨t, ht, hoff, hcount⟩
  case recovery =>
    obtain ⟨t, old, n, ht, hw⟩ := busOffRecovery_writes hr hch h
    exact ⟨t, ht, congrArg CanChan.state hw.same, congrArg CanChan.tecCtr hw.same, congrArg CanChan.recCtr hw.same, hw.p⟩

end Sys2Proof.Machine
end

section
/-! PROOFS. The radio events: frames received, the slots and what they launch, and the settings and tests that take effect at
LATCH. A launch writes one radio. -/

namespace Sys2Proof.Machine

open Sys2Proof

/-! ### One radio -/

theorem noteTx_eq (s : State) : ∃ k l, noteTx s = { s with queues := k, com.later := l } := by
  obtain ⟨k, l, h⟩ := noteQueue_eq s 0x11
  rw [noteTx, h]
  exact noteQueue_eq { s with queues := k, com.later := l } 0x13

@[simp] theorem oneRadio_modOne_same (s : State) (r : Nat) (f : OneRadio → OneRadio) :
    oneRadio (modOne s r f) r = f (oneRadio s r) := by
  unfold oneRadio modOne
  split <;> rfl

theorem oneRadio_modOne_other (s : State) {r k : Nat} (f : OneRadio → OneRadio) (hr : r < 2) (hk : k < 2) (h : k ≠ r) :
    oneRadio (modOne s r f) k = oneRadio s k := by
  obtain ⟨rfl, rfl⟩ | ⟨rfl, rfl⟩ : (r = 0 ∧ k = 1) ∨ (r = 1 ∧ k = 0) := by omega
  all_goals rfl

/-- From the first state to the second one radio becomes what is given; the other radio, the frames and messages received, the
stop path, the memories and the clock stay as they are. -/
structure WritesRadio (s t : State) (r : Nat) (x : OneRadio) : Prop where
  same : oneRadio t r = x
  other : ∀ k, k < 2 → k ≠ r → oneRadio t k = oneRadio s k
  rx : t.radio.rx = s.radio.rx
  msgs : t.radio.msgs = s.radio.msgs
  stop : t.stop = s.stop
  p : t.p = s.p
  clk : t.clk = s.clk
  beacon : t.radio.beaconAsn = s.radio.beaconAsn

namespace WritesRadio

variable {s t : State} {r : Nat} {x : OneRadio}

theorem refl (s : State) (r : Nat) : WritesRadio s s r (oneRadio s r) := ⟨rfl, fun _ _ _ => rfl, rfl, rfl, rfl, rfl, rfl, rfl⟩

theorem modOne (h : WritesRadio s t r x) (hr : r < 2) (f : OneRadio → OneRadio) : WritesRadio s (modOne t r f) r (f x) where
  same := (oneRadio_modOne_same t r f).trans (congrArg f h.same)
  other k hk hne := (oneRadio_modOne_other t f hr hk hne).trans (h.other k hk hne)
  rx := by simpa [Machine.modOne, apply_ite (fun u : State => u.radio.rx)] using h.rx
  msgs := by simpa [Machine.modOne, apply_ite (fun u : State => u.radio.msgs)] using h.msgs
  stop := by simpa [Machine.modOne, apply_ite State.stop] using h.stop
  p := by simpa [Machine.modOne, apply_ite State.p] using h.p
  clk := by simpa [Machine.modOne, apply_ite State.clk] using h.clk
  beacon := by simpa [Machine.modOne, apply_ite (fun u : State => u.radio.beaconAsn)] using h.beacon

/-- Accounts of airtime, notes of what was sent and the queues belong to neither radio. -/
theorem elsewhere (h : WritesRadio s t r x) {u : State}
    (hu : u = { t with
      radio := { t.radio with bins := u.radio.bins, budgetEvs := u.radio.budgetEvs }
      time := u.time
      queues := u.queues
      com := u.com }) : WritesRadio s u r x := by
  rw [hu]
  exact ⟨h.same, h.other, h.rx, h.msgs, h.stop, h.p, h.clk, h.beacon⟩

theorem onAir (h : WritesRadio s t r x) (hr : r < 2) (k khz us phy : Nat) (psdu : Bytes) :
    WritesRadio s (onAir t r k khz us phy psdu) r { x with framesTx := inc32 x.framesTx, air := x.air ++ [(khz, psdu)] } :=
  ((h.elsewhere (u := addAir t khz us) rfl).modOne hr fun x =>
    { x with framesTx := inc32 x.framesTx, air := x.air ++ [(khz, psdu)] }).elsewhere rfl

theorem budgetEvent (h : WritesRadio s t r x) (cause q kind index : Nat) :
    WritesRadio s (budgetEvent t cause q kind index) r x := h.elsewhere rfl

theorem noteTx (h : WritesRadio s t r x) : WritesRadio s (noteTx t) r x := by
  obtain ⟨k, l, he⟩ := noteTx_eq t
  rw [he]
  exact h.elsewhere rfl

end WritesRadio

/-! ### Receiving (R415, R435) -/

section
variable {s : State} {f : AirIn} (hr : running s = true) (hh : hears s f = true)
include hr hh

theorem opRadioRx_badFcs (hf : f.fcsOk = false) :
    opRadioRx f s = modOne s f.radio fun x => { x with fcsFail := inc32 x.fcsFail } :=
  (if_neg (by simp [hr, hh])).trans (if_pos (by simp [hf]))

theorem opRadioRx_badHeader (hf : f.fcsOk = true) (hp : headerHolds s f.psdu = false) :
    opRadioRx f s = modOne s f.radio fun x => { x with badHeader := inc32 x.badHeader } :=
  (if_neg (by simp [hr, hh])).trans ((if_neg (by simp [hf])).trans (if_pos (by simp [hp])))

/-- A frame counted on its radio and appended, with its descriptor, to what waits. -/
def frameTaken (f : AirIn) (s : State) : State :=
  let t := modOne s f.radio fun x => { x with framesRx := inc32 x.framesRx }
  { t with radio.rx := t.radio.rx ++ [(f, airDesc t f)] }

theorem opRadioRx_queues (hf : f.fcsOk = true) (hp : headerHolds s f.psdu = true)
    (hroom : (admitFrame s (rxQueue f.radio) false).1 = true) :
    opRadioRx f s = arrived (frameTaken f s) (rxQueue f.radio) (occOf s (rxQueue f.radio)) := by
  simp only [opRadioRx, hr, hh, hf, hp, admitFrame_admits hroom, Bool.not_true, Bool.or_self, Bool.false_eq_true, ↓reduceIte]
  rfl

end

theorem exec_radioRx {s t : State} {f : AirIn} (hu : f.radio < 2 ∧ f.slot < 4) (h : opRadioRx f s = t) :
    exec (.radioRx f) s = .next t :=
  (if_pos (by simp [hu])).trans (congrArg Host.Outcome.next h)

/-- A frame with another header than an uplink's does not hold (R414). -/
theorem headerHolds_other {s : State} {p : Bytes}
    (h : fld p 0 2 ≠ 0xA941 ∨ fld p 2 2 ≠ panId s ∨ fld p 4 2 ≠ 0 ∨ fld p 8 1 ≠ 4 ∨ fld p 9 1 ≠ 1) :
    headerHolds s p = false := by
  refine Bool.eq_false_iff.mpr fun hp => ?_
  simp only [headerHolds, Bool.and_eq_true, beq_iff_eq] at hp
  obtain ⟨⟨⟨⟨⟨-, h0⟩, h2⟩, h4⟩, h8⟩, h9⟩ := hp
  rcases h with h | h | h | h | h
  · exact h h0
  · exact h h2
  · exact h h4
  · exact h h8
  · exact h h9

/-! ### Launches (R413, R417, R418, R426) -/

/-- The foghorn setting of this FC, which the boundary took. -/
def fogSettled (s : State) : State := { s with p.radio.cfg.foghornFc := s.radio.foghornNow }

section
variable {s : State} {k : Nat} (hnow : slotNowOk s k = true)
include hnow

theorem opTimeslot_downlink (hs : stopInSlot s k = false)
    (hfog : (foghornFc (fogSettled s) (fcNow s) && decide (k = 2) && decide (asnOf s k % 40 = 30)) = false) :
    opTimeslot k s
      = if downlinkCell (fogSettled s) (radioCfg s) (fcNow s) k then launchDown (launchDown s 0 k) 1 k else s := by
  refine (if_neg (by simp [hnow, hs])).trans ((if_neg (by simpa [fogSettled] using hfog)).trans ?_)
  cases hc : downlinkCell (fogSettled s) (radioCfg s) (fcNow s) k
  · exact if_pos (by simpa [fogSettled] using hc)
  · exact if_neg (by simpa [fogSettled] using hc)

theorem opStopFrame_launches (hs : stopInSlot s k = true) (hb : s.radio.beaconAsn ≠ some (asnOf s k)) :
    opStopFrame k s = launchStop (launchStop s 0 k) 1 k :=
  if_neg (by simp [hnow, hs, hb])

end

theorem opBeaconLaunch_launches {s : State} (hnow : slotNowOk s 0 = true) :
    opBeaconLaunch s = launchBeacon (launchBeacon s 0) 1 :=
  if_neg (by simp [hnow])

/-- A beacon or stop frame is put on air whatever the budget; what goes above the dwell limit is counted. -/
theorem launchAlways_writes {s t : State} {r : Nat} {x : OneRadio} (h : WritesRadio s t r x) (hr : r < 2) (k us : Nat)
    (psdu : Bytes) : ∃ f n, WritesRadio s (launchAlways t r k psdu us) r
      { x with framesTx := inc32 x.framesTx, air := x.air ++ [f], dwellOver := n } := by
  have hair := h.onAir hr k (hopKhz t (hopChannel t (radioCfg t) r (asnOf t k))) us (radioCfg t).phyMode psdu
  unfold launchAlways
  extract_lets ch u
  split
  · exact ⟨_, x.dwellOver, hair⟩
  · exact ⟨_, _, (hair.modOne hr fun x => { x with dwellOver := sat 16 (x.dwellOver + 1) }).budgetEvent ..⟩

/-- A stop frame on one radio leaves its queue. -/
theorem launchStop_writes {s t : State} {r : Nat} {x : OneRadio} (h : WritesRadio s t r x) (hr : r < 2) (k : Nat) :
    ∃ f n m, WritesRadio s (launchStop t r k) r
      { x with framesTx := inc32 x.framesTx, air := x.air ++ [f], dwellOver := n, busyUntil := m } := by
  unfold launchStop
  extract_lets asn u psdu
  have hcut : ∃ m, WritesRadio s u r { x with busyUntil := m } := by
    unfold u
    split
    · exact ⟨_, (h.elsewhere (u := cutAir t (fogKhz t r) 1110) rfl).modOne hr fun x => { x with busyUntil := asn }⟩
    · exact ⟨x.busyUntil, h⟩
  obtain ⟨m, hu⟩ := hcut
  obtain ⟨f, n, hw⟩ := launchAlways_writes hu hr k (airOf (radioCfg u).phyMode (psdu.length + 4)) psdu
  exact ⟨f, n, m, hw⟩

/-- A downlink frame within the dwell budget is put on air and leaves its queue. -/
theorem launchDown_sends {s : State} {r k : Nat} {f : SlotFrame} (hr : r < 2)
    (hf : ((oneRadio s r).queue.find? fun g => !g.beacon) = some f) (hslot : f.slot ≤ asnOf s k) (he : eligible s f = true)
    (hdwell : 4 * (usedOf s (hopKhz s (hopChannel s (radioCfg s) r (asnOf s k))) + f.air) ≤ 3 * (prof s).dwell) :
    WritesRadio s (launchDown s r k) r { oneRadio s r with
      queue := (oneRadio s r).queue.erase f
      framesTx := inc32 (oneRadio s r).framesTx
      air := (oneRadio s r).air ++ [(hopKhz s (hopChannel s (radioCfg s) r (asnOf s k)), f.psdu)] } := by
  have hdue : ¬(decide (asnOf s k < f.slot) || !eligible s f) = true := by simp [he, Nat.not_lt.mpr hslot]
  simp only [launchDown, hf]
  rw [if_neg (by simpa using hdue), if_neg (Nat.not_lt.mpr hdwell)]
  exact ((WritesRadio.refl s r).modOne hr fun x => { x with queue := x.queue.erase f }).onAir hr ..

theorem launchDown_writes {s t : State} {r : Nat} {x : OneRadio} (h : WritesRadio s t r x) (hr : r < 2) (k : Nat) :
    ∃ y, WritesRadio s (launchDown t r k) r y := by
  unfold launchDown
  split
  · exact ⟨x, h⟩
  · next f _ =>
    split
    · exact ⟨x, h⟩
    · extract_lets ch khz
      split
      · exact ⟨_, (h.modOne hr fun x => { x with deferred := inc32 x.deferred }).budgetEvent ..⟩
      · exact ⟨_, (h.modOne hr fun x => { x with queue := x.queue.erase f }).onAir hr ..⟩

/-- The state with a beacon put on air: it stands for the stop frame of its slot (R417, R418). -/
def beaconSent (s : State) (r : Nat) (f : SlotFrame) : State :=
  { launchAlways (modOne s r fun x => { x with queue := x.queue.erase f }) r 0 f.psdu f.air with
    stop.beaconOnAir := true
    radio.beaconAsn := some (asnOf (launchAlways (modOne s r fun x => { x with queue := x.queue.erase f }) r 0 f.psdu f.air) 0) }

theorem launchBeacon_sends {s : State} {r : Nat} {f : SlotFrame}
    (hf : ((oneRadio s r).queue.find? fun g => g.beacon && g.slot == asnOf s 0) = some f)
    (hs : beaconSuppressed (modOne s r fun x => { x with queue := x.queue.erase f }) f.token = false) :
    launchBeacon s r = beaconSent s r f := by
  simp only [launchBeacon, hf]
  exact if_neg (by simp [hs])

theorem launchBeacon_suppressed {s : State} {r : Nat} {f : SlotFrame}
    (hf : ((oneRadio s r).queue.find? fun g => g.beacon && g.slot == asnOf s 0) = some f)
    (hs : beaconSuppressed (modOne s r fun x => { x with queue := x.queue.erase f }) f.token = true) :
    launchBeacon s r = modOne (modOne s r fun x => { x with queue := x.queue.erase f }) r fun x =>
      { x with notLaunched := sat 16 (x.notLaunched + 1) } := by
  simp only [launchBeacon, hf]
  exact if_pos hs

theorem beaconSent_writes {s : State} {r : Nat} (f : SlotFrame) (hr : r < 2) :
    let t := beaconSent s r f
    (∃ g n, oneRadio t r = { oneRadio s r with
      queue := (oneRadio s r).queue.erase f
      framesTx := inc32 (oneRadio s r).framesTx
      air := (oneRadio s r).air ++ [g]
      dwellOver := n })
      ∧ (∀ k, k < 2 → k ≠ r → oneRadio t k = oneRadio s k) ∧ t.stop = { s.stop with beaconOnAir := true }
      ∧ t.radio.beaconAsn = some (asnOf s 0) ∧ t.p = s.p ∧ t.clk = s.clk := by
  obtain ⟨g, n, hw⟩ := launchAlways_writes
    ((WritesRadio.refl s r).modOne hr fun x => { x with queue := x.queue.erase f }) hr 0 f.air f.psdu
  refine ⟨⟨g, n, hw.same⟩, hw.other, ?_, ?_, hw.p, hw.clk⟩
  · rw [beaconSent, hw.stop]
  · rw [beaconSent, asnOf, fcNow, hw.clk]
    rfl

/-- Of radio B's beacon only its own radio and the mark of a beacon on air are written. -/
theorem launchBeacon_second {s : State} (hon : s.stop.beaconOnAir = true) (hasn : s.radio.beaconAsn = some (asnOf s 0)) :
    let t := launchBeacon s 1
    oneRadio t 0 = oneRadio s 0 ∧ t.stop = s.stop ∧ t.radio.beaconAsn = some (asnOf s 0) ∧ t.p = s.p := by
  cases hf : (oneRadio s 1).queue.find? fun g => g.beacon && g.slot == asnOf s 0 with
  | none =>
    have hidle : launchBeacon s 1 = s := by simp only [launchBeacon, hf]
    rw [hidle]
    exact ⟨rfl, rfl, hasn, rfl⟩
  | some f =>
    cases hs : beaconSuppressed (modOne s 1 fun x => { x with queue := x.queue.erase f }) f.token with
    | true =>
      have hw := ((WritesRadio.refl s 1).modOne (by decide) fun x => { x with queue := x.queue.erase f }).modOne (by decide)
        fun x => { x with notLaunched := sat 16 (x.notLaunched + 1) }
      rw [launchBeacon_suppressed hf hs]
      exact ⟨hw.other 0 (by decide) (by decide), hw.stop, hw.beacon.trans hasn, hw.p⟩
    | false =>
      obtain ⟨-, hother, hstop, hbeacon, hp, -⟩ := beaconSent_writes (s := s) f (r := 1) (by decide)
      rw [launchBeacon_sends hf hs]
      refine ⟨hother 0 (by decide) (by decide), hstop.trans ?_, hbeacon, hp⟩
      rw [← hon]

/-! ### Settings and tests at LATCH (R437, R439) -/

/-- A radio whose test is over no longer runs it. -/
def testExpired (fc : Nat) (x : OneRadio) : OneRadio :=
  { x with testUntil := if (x.testUntil.map fun u => decide (u ≤ fc)).getD false then none else x.testUntil }

theorem testExpired_testUntil (fc : Nat) (x : OneRadio) :
    (∀ u, x.testUntil = some u → (testExpired fc x).testUntil = if u ≤ fc then none else some u)
      ∧ (x.testUntil = none → (testExpired fc x).testUntil = none) := by
  refine ⟨fun u h => ?_, fun h => ?_⟩ <;> simp [testExpired, h]

section
variable {s : State} (hr : running s = true) (hw : s.clk.window = .latch)
include hr hw

theorem opRadioSettingsEffect_applies {c : RadioConfig} {e : Nat} (hp : s.p.radio.pendingCfg = some (c, e))
    (hdue : e ≤ fcNow s) :
    opRadioSettingsEffect s = { s with
      p.radio.cfg := { c with
        foghornFc := s.p.radio.cfg.foghornFc, startupS := s.p.radio.cfg.startupS
        powerA := s.p.radio.cfg.powerA, powerB := s.p.radio.cfg.powerB }
      p.radio.pendingCfg := none
      radio.a.startupUntil := some (fcNow s + 100 * s.p.radio.cfg.startupS)
      radio.b.startupUntil := some (fcNow s + 100 * s.p.radio.cfg.startupS) } := by
  simp only [opRadioSettingsEffect, hr, hw, hp, Nat.not_lt.mpr hdue, bne_self_eq_false, Bool.not_true, Bool.or_self,
    Bool.false_eq_true, ↓reduceIte]

theorem opRadioTestExpiry_expires :
    opRadioTestExpiry s
      = { s with radio.a := testExpired (fcNow s) s.radio.a, radio.b := testExpired (fcNow s) s.radio.b } :=
  if_neg (by simp [hr, hw])

end

/-- Settles O42: the equation of each event. -/
theorem radioEventsAct : Obligations.RadioEventsAct := by
  unfold Obligations.RadioEventsAct
  refine ⟨fun s f hr hu hh => ⟨fun hf => exec_radioRx hu (opRadioRx_badFcs hr hh hf),
      fun hf hp => exec_radioRx hu (opRadioRx_badHeader hr hh hf hp), fun u hf hp hadm => ?_⟩,
    fun s p h => headerHolds_other h,
    fun s k hk hnow hs _ hfog => (if_pos hk).trans
      (congrArg (fun u => Host.Outcome.next (noteTx u)) (opTimeslot_downlink hnow hs hfog)),
    fun s hnow => congrArg (fun u => Host.Outcome.next (noteTx u)) (opBeaconLaunch_launches hnow),
    fun s k hk hnow hs hb => (if_pos hk).trans (congrArg Host.Outcome.next (opStopFrame_launches hnow hs hb)),
    fun s c e hr hw hp hdue => congrArg Host.Outcome.next (opRadioSettingsEffect_applies hr hw hp hdue),
    fun s hr hw => congrArg Host.Outcome.next (opRadioTestExpiry_expires hr hw)⟩
  have hroom := congrArg Prod.fst hadm
  obtain rfl : s = u := congrArg Prod.snd ((admitFrame_admits hroom).symm.trans hadm)
  exact exec_radioRx hu (opRadioRx_queues hr hh hf hp hroom)

/-! ### What the events leave behind -/

theorem exec_radioRx_queues {s : State} {f : AirIn} (hr : running s = true) (hu : f.radio < 2 ∧ f.slot < 4)
    (hh : hears s f = true) (hf : f.fcsOk = true) (hp : headerHolds s f.psdu = true)
    (hroom : (admitFrame s (rxQueue f.radio) false).1 = true) :
    ∃ t d, exec (.radioRx f) s = .next t ∧ t.radio.rx = s.radio.rx ++ [(f, d)]
      ∧ oneRadio t f.radio = { oneRadio s f.radio with framesRx := inc32 (oneRadio s f.radio).framesRx }
      ∧ t.radio.msgs = s.radio.msgs ∧ t.p = s.p := by
  have hw := (WritesRadio.refl s f.radio).modOne hu.1 fun x => { x with framesRx := inc32 x.framesRx }
  obtain ⟨k, l, harr⟩ := arrived_eq (frameTaken f s) (rxQueue f.radio) (occOf s (rxQueue f.radio))
  have hexec := exec_radioRx hu (opRadioRx_queues hr hh hf hp hroom)
  rw [harr] at hexec
  exact ⟨_, _, hexec, congrArg (· ++ [_]) hw.rx, hw.same, hw.msgs, hw.p⟩

theorem exec_timeslot_sends {s : State} {k : Nat} {f : SlotFrame} (hk : k < 4) (hnow : slotNowOk s k = true)
    (hs : stopInSlot s k = false)
    (hfog : (foghornFc (fogSettled s) (fcNow s) && decide (k = 2) && decide (asnOf s k % 40 = 30)) = false)
    (hcell : downlinkCell (fogSettled s) (radioCfg s) (fcNow s) k = true)
    (hf : ((oneRadio s 0).queue.find? fun g => !g.beacon) = some f) (hslot : f.slot ≤ asnOf s k) (he : eligible s f = true)
    (hdwell : 4 * (usedOf s (hopKhz s (hopChannel s (radioCfg s) 0 (asnOf s k))) + f.air) ≤ 3 * (prof s).dwell) :
    ∃ t, exec (.timeslot k) s = .next t
      ∧ oneRadio t 0 = { oneRadio s 0 with
        queue := (oneRadio s 0).queue.erase f
        framesTx := inc32 (oneRadio s 0).framesTx
        air := (oneRadio s 0).air ++ [(hopKhz s (hopChannel s (radioCfg s) 0 (asnOf s k)), f.psdu)] }
      ∧ t.stop = s.stop ∧ t.p = s.p := by
  have hact : opTimeslot k s = launchDown (launchDown s 0 k) 1 k :=
    (opTimeslot_downlink hnow hs hfog).trans (if_pos hcell)
  have hexec : exec (.timeslot k) s = .next (noteTx (opTimeslot k s)) := if_pos hk
  rw [hact] at hexec
  have ha := launchDown_sends (by decide) hf hslot he hdwell
  obtain ⟨y, hb⟩ := launchDown_writes (WritesRadio.refl (launchDown s 0 k) 1) (by decide) k
  have hb := hb.noteTx
  exact ⟨_, hexec, (hb.other 0 (by decide) (by decide)).trans ha.same, hb.stop.trans ha.stop, hb.p.trans ha.p⟩

theorem exec_beaconLaunch_sends {s : State} {f : SlotFrame} (hnow : slotNowOk s 0 = true)
    (hf : ((oneRadio s 0).queue.find? fun g => g.beacon && g.slot == asnOf s 0) = some f)
    (hs : beaconSuppressed s f.token = false) :
    ∃ t g n, exec .beaconLaunch s = .next t ∧ t.stop = { s.stop with beaconOnAir := true }
      ∧ t.radio.beaconAsn = some (asnOf s 0) ∧ oneRadio t 0 = { oneRadio s 0 with
        queue := (oneRadio s 0).queue.erase f
        framesTx := inc32 (oneRadio s 0).framesTx
        air := (oneRadio s 0).air ++ [g]
        dwellOver := n } ∧ t.p = s.p := by
  obtain ⟨⟨g, n, hsame⟩, -, hstop, hbeacon, hp, hclk⟩ := beaconSent_writes (s := s) f (r := 0) (by decide)
  have hasn : asnOf (beaconSent s 0 f) 0 = asnOf s 0 := by rw [asnOf, fcNow, hclk]; rfl
  obtain ⟨hradio, hstop', hbeacon', hp'⟩ := launchBeacon_second (s := beaconSent s 0 f) rfl (hbeacon.trans (by rw [hasn]))
  have hexec : exec .beaconLaunch s = .next (noteTx (opBeaconLaunch s)) := rfl
  rw [opBeaconLaunch_launches hnow, launchBeacon_sends hf hs] at hexec
  obtain ⟨k, l, htx⟩ := noteTx_eq (launchBeacon (beaconSent s 0 f) 1)
  rw [htx] at hexec
  exact ⟨_, g, n, hexec, hstop'.trans hstop, hbeacon'.trans (by rw [hasn]), hradio.trans hsame, hp'.trans hp⟩

theorem exec_stopFrame_sends {s : State} {k : Nat} (hk : k < 4) (hnow : slotNowOk s k = true) (hs : stopInSlot s k = true)
    (hb : s.radio.beaconAsn ≠ some (asnOf s k)) :
    ∃ t, exec (.stopFrame k) s = .next t
      ∧ (∀ r < 2, ∃ f n m, oneRadio t r = { oneRadio s r with
          framesTx := inc32 (oneRadio s r).framesTx, air := (oneRadio s r).air ++ [f], dwellOver := n, busyUntil := m })
      ∧ t.stop = s.stop ∧ t.p = s.p := by
  obtain ⟨f, n, m, ha⟩ := launchStop_writes (WritesRadio.refl s 0) (by decide) k
  obtain ⟨f', n', m', hb'⟩ := launchStop_writes (WritesRadio.refl (launchStop s 0 k) 1) (by decide) k
  refine ⟨_, (if_pos hk).trans (congrArg Host.Outcome.next (opStopFrame_launches hnow hs hb)), fun r hr => ?_,
    hb'.stop.trans ha.stop, hb'.p.trans ha.p⟩
  obtain rfl | rfl : r = 0 ∨ r = 1 := by omega
  · exact ⟨f, n, m, (hb'.other 0 (by decide) (by decide)).trans ha.same⟩
  · rw [ha.other 1 (by decide) (by decide)] at hb'
    exact ⟨f', n', m', hb'.same⟩

/-- Settles O50, event by event: what it writes of its radio or of its channel. -/
theorem radioAndCanEventsComplete : Obligations.RadioAndCanEventsComplete := by
  unfold Obligations.RadioAndCanEventsComplete
  refine ⟨fun s f hr hu hh hf hp hroom => ?rx, fun s f hr hu hh hf hp => ?header, fun s f hr hu hh hf => ?fcs,
    fun s k f hk hnow hs hfog hcell hf hslot he hdwell => ?timeslot, fun s f hnow hf hs => ?beacon,
    fun s k hk hnow hs hb => ?stopFrame,
    fun s c e hr hw hp hdue => ⟨_, congrArg Host.Outcome.next (opRadioSettingsEffect_applies hr hw hp hdue),
      rfl, rfl, rfl, rfl, rfl, rfl, rfl, rfl⟩,
    fun s hr hw => ?expiry, fun s ch f hr hch hon hok hrem hroom => ?canRx, fun s ch sof x rest fc hr hch hx hfc hon => ?canTx,
    fun s ch tec rc hr hch hon => ?busError, fun s ch head hr hch hon h => ?busOff, fun s ch hr hch h => ?recovery,
    fun s ch w hr hch h hm hw => ?wake⟩
  case rx =>
    obtain ⟨t, d, ht, hrx, hsame, hmsgs, hp'⟩ := exec_radioRx_queues hr hu hh hf hp hroom
    exact ⟨t, ht, ⟨d, hrx⟩, congrArg OneRadio.framesRx hsame, (congrArg OneRadio.badHeader hsame :),
      (congrArg OneRadio.fcsFail hsame :), hmsgs, hp'⟩
  case header =>
    have hw := (WritesRadio.refl s f.radio).modOne hu.1 fun x => { x with badHeader := inc32 x.badHeader }
    exact ⟨_, exec_radioRx hu (opRadioRx_badHeader hr hh hf hp), congrArg OneRadio.badHeader hw.same, hw.rx, hw.p⟩
  case fcs =>
    have hw := (WritesRadio.refl s f.radio).modOne hu.1 fun x => { x with fcsFail := inc32 x.fcsFail }
    exact ⟨_, exec_radioRx hu (opRadioRx_badFcs hr hh hf), congrArg OneRadio.fcsFail hw.same, hw.rx, hw.p⟩
  case timeslot =>
    obtain ⟨t, ht, hsame, hstop, hp⟩ := exec_timeslot_sends hk hnow hs hfog hcell hf hslot he hdwell
    exact ⟨t, ht, congrArg OneRadio.queue hsame, congrArg OneRadio.framesTx hsame, congrArg OneRadio.air hsame, hstop, hp⟩
  case beacon =>
    obtain ⟨t, g, n, ht, hstop, hbeacon, hsame, hp⟩ := exec_beaconLaunch_sends hnow hf hs
    exact ⟨t, ht, congrArg Stop.beaconOnAir hstop, hbeacon, congrArg OneRadio.queue hsame, congrArg OneRadio.framesTx hsame,
      (congrArg Stop.voted hstop :), hp⟩
  case stopFrame =>
    obtain ⟨t, ht, hradio, hstop, hp⟩ := exec_stopFrame_sends hk hnow hs hb
    obtain ⟨f, n, m, ha⟩ := hradio 0 (by decide)
    obtain ⟨f', n', m', hb'⟩ := hradio 1 (by decide)
    exact ⟨t, ht, ⟨f, congrArg OneRadio.air ha⟩, ⟨f', congrArg OneRadio.air hb'⟩, congrArg OneRadio.framesTx ha,
      congrArg OneRadio.framesTx hb', (congrArg OneRadio.queue ha :), hstop, hp⟩
  case expiry =>
    refine ⟨_, congrArg Host.Outcome.next (opRadioTestExpiry_expires hr hw), fun r u hr hu => ?_, fun r hr hu => ?_,
      rfl, rfl, rfl⟩
    all_goals obtain rfl | rfl : r = 0 ∨ r = 1 := by omega
    · exact (testExpired_testUntil (fcNow s) s.radio.a).1 u hu
    · exact (testExpired_testUntil (fcNow s) s.radio.b).1 u hu
    · exact (testExpired_testUntil (fcNow s) s.radio.a).2 hu
    · exact (testExpired_testUntil (fcNow s) s.radio.b).2 hu
  case canRx =>
    have hheard := frameHeard_writes (canOn_inRange hon)
    obtain ⟨hrx, htxq, hframes⟩ := frameHeard_chan (canOn_inRange hon)
    rw [hheard.same] at hrx htxq hframes
    have hw := (hheard.modCan fun c =>
      { c with rx := c.rx ++ [queuedFrame (frameHeard s ch) f], rxFrames := inc32 c.rxFrames }).arrived
        (0x30 + 2 * ch) (occOf (frameHeard s ch) (0x30 + 2 * ch))
    refine ⟨_, (if_pos hch).trans (congrArg Host.Outcome.next (opCanRx_queues hr hon hok hrem hroom)),
      ⟨queuedFrame (frameHeard s ch) f, ?_, rfl, rfl, rfl, rfl, rfl, rfl⟩, ?_, ?_, hw.other, hw.stop, hw.p⟩
    · exact (congrArg CanChan.rx hw.same).trans (congrArg (· ++ [_]) hrx)
    · exact (congrArg CanChan.rxFrames hw.same).trans (congrArg inc32 hframes)
    · exact (congrArg CanChan.txq hw.same).trans htxq
  case canTx =>
    have hhead : (canAt s ch).txq.head? = some x := by rw [hx]; rfl
    obtain ⟨t, d, ht, hw, hbuf, hq, hout, htec⟩ := canTxOutcome_writes (stop := false) (outcome := 1) sof hch hr hhead hfc hon
    rw [← hw.same] at hbuf hq hout htec
    exact ⟨t, ht, hq.trans (by rw [hx]; rfl), hout, htec, hbuf, hw.other, hw.stop, hw.p⟩
  case busError =>
    obtain ⟨t, d, ht, hw, hoff, hcount⟩ := canBusError_writes tec rc hr hch hon
    rw [← hw.same] at hoff hcount
    exact ⟨t, ht, hoff, hcount, hw.other, hw.stop, hw.p⟩
  case busOff =>
    have hexec : exec (.busOff ch head) s = .next (noteQueue (opBusOff ch head s) (0x31 + 2 * ch)) := if_pos hch
    rw [opBusOff_goes hr head hon h] at hexec
    have hw := ((WritesChannel.refl (canOn_inRange hon)).modCan fun c =>
      goBusOff (fcNow s) head { c with tecCtr := 256 }).noteQueue (0x31 + 2 * ch)
    obtain ⟨hst, htec, hbuf, hcount⟩ := goBusOff_effect (fcNow s) head { canAt s ch with tecCtr := 256 }
    refine ⟨_, hexec, ?_, ?_, ?_, ?_, hw.other, hw.stop, hw.p⟩ <;> rw [hw.same]
    · exact hst
    · exact htec
    · exact hbuf
    · exact hcount
  case recovery =>
    obtain ⟨t, old, n, ht, hw⟩ := busOffRecovery_writes hr hch h
    exact ⟨t, ht, congrArg CanChan.state hw.same, congrArg CanChan.tecCtr hw.same, congrArg CanChan.recCtr hw.same,
      (congrArg CanChan.txq hw.same :), hw.other, hw.stop, hw.p⟩
  case wake =>
    obtain ⟨t, old, n, ht, hw'⟩ := canWake_writes (w := w) hr hch h (by simp [wakeHits, hm, hw])
    exact ⟨t, ht, congrArg CanChan.state hw'.same, congrArg CanChan.tecCtr hw'.same, congrArg CanChan.recCtr hw'.same,
      congrArg CanChan.sleepDue hw'.same, hw'.other, hw'.stop, hw'.p⟩

end Sys2Proof.Machine
end

section
/-! PROOFS. The RADIO and CAN commands. For each row a lemma says what it comes to once its checks have passed. -/

namespace Sys2Proof.Machine

open Sys2Proof

/-- An opcode that is not one of those of FOG makes its commits. -/
theorem mramFog_of_edt {s : State} {opcode : Nat} (h : edt s opcode = true) (hf : fogOpcodes.contains opcode = false) :
    mramFog s = false := by
  have hm : s.mode.cur ≠ .fog := fun he => by
    have hno : edt s opcode = false := by simp only [edt, he, hf, bne_self_eq_false, Bool.or_self, Bool.and_false]
    rw [hno] at h
    cases h
  simp [mramFog, hm]

theorem fromLe_of_allZero {p : Bytes} (h : allZero p = true) : fromLe p = 0 := by
  have hp : p = zb p.length := List.eq_replicate_iff.mpr ⟨rfl, by simpa [allZero] using h⟩
  rw [hp, fromLe_zb]

/-- A field within bytes that are all zero is 0. -/
theorem fld_of_zeros {p : Bytes} {n k : Nat} (h : zeros p 0 n = true) (hk : k ≤ n) : fld p 0 k = 0 := by
  refine fromLe_of_allZero (List.all_eq_true.mpr fun b hb => List.all_eq_true.mp h b ?_)
  exact List.mem_of_mem_take (i := k) (by rwa [slice, List.take_take, Nat.min_eq_left hk])

/-! ### RADIO_CONFIG and RADIO_TEST (R437, R439) -/

theorem setTest_edtor (s : State) (mask : Nat) (until' : Option Nat) : (setTest s mask until').edtor = s.edtor := by
  refine foldl_keeps (·.edtor) _ _ s fun u r => ?_
  split
  · unfold modOne
    split <;> rfl
  · rfl

/-- The frames of a CAN_SEND as they are queued. -/
def sentFrames (s : State) (r : Request) (l : List Bytes) : List CanTx :=
  l.map fun f => sendFrame f (canAt s (fld r.payload 0 1)).cfg r.sessionId

/-- The frames of a CAN_SEND appended to the transmit queue of their channel, and the queue noted. -/
def queueSent (r : Request) (l : List Bytes) (s : State) : State :=
  arrived (modCan s (fld r.payload 0 1) fun c => { c with txq := c.txq ++ sentFrames s r l }) (0x31 + 2 * fld r.payload 0 1)
    (occOf s (0x31 + 2 * fld r.payload 0 1))

theorem queueSent_edtor (r : Request) (l : List Bytes) (s : State) : (queueSent r l s).edtor = s.edtor := by
  obtain ⟨k, e, h⟩ := arrived_eq (modCan s (fld r.payload 0 1) fun c => { c with txq := c.txq ++ sentFrames s r l })
    (0x31 + 2 * fld r.payload 0 1) (occOf s (0x31 + 2 * fld r.payload 0 1))
  rw [queueSent, h]
  rfl

section
variable {r : Request} {s : State} (hl : live s r = true)
include hl

theorem opRadioConfig_changes (hlen : r.payload.length = 32) (hz : zeros r.payload 16 16 = true)
    (hn : allZero r.payload = false) (hr : supOk s r = true) (hm : inModes s mCfg = true)
    (hok : radioOk s (radioFrom s r.payload) = true) :
    opRadioConfig r s = change1 (takeLatched s r) r siteObj (applyRadioCfg r.payload (radioFrom s r.payload)) radioCfgReply := by
  unfold opRadioConfig
  exact (runOp_changes hl (beq_iff_eq.mpr hlen) hz hr hm hn).trans (need_passes _ hok)

section
variable (hlen : r.payload.length = 8) (hz : zeros r.payload 4 4 = true) (hr : svcOk s r = true) (hm : s.mode.cur = .watch)
  (hmask : 1 ≤ fld r.payload 0 1 ∧ fld r.payload 0 1 ≤ 3)
include hlen hz hr hm hmask

/-- RADIO_TEST with ACTION 1 starts the test of the radios named. -/
theorem opRadioTest_starts (ha : fld r.payload 1 1 = 1) (hd : 1 ≤ fld r.payload 2 2 ∧ fld r.payload 2 2 ≤ 3600)
    (hfree : testRunning s (fld r.payload 0 1) = false) :
    opRadioTest r s = finish (setTest (takeLatched s r) (fld r.payload 0 1)
      (some (fcNow s + 1 + 100 * fld r.payload 2 2))) r stOk [] := by
  have hfree' : (!testRunning (takeLatched s r) (fld r.payload 0 1)) = true := by
    have : testRunning (takeLatched s r) (fld r.payload 0 1) = false := hfree
    simp [this]
  rw [opRadioTest, runOp_passes _ hl (beq_iff_eq.mpr hlen) (by simp [hz, ha]) hr (by simp [inModes, hm])]
  exact (need_passes _ (by simp [hmask, ha, hd])).trans ((if_pos ha).trans (need_passes _ hfree'))

/-- RADIO_TEST with ACTION 2 ends it. -/
theorem opRadioTest_ends (ha : fld r.payload 1 1 = 2) (hd : fld r.payload 2 2 = 0) :
    opRadioTest r s = finish (setTest (takeLatched s r) (fld r.payload 0 1) none) r stOk [] := by
  rw [opRadioTest, runOp_passes _ hl (beq_iff_eq.mpr hlen) (by simp [hz, hd]) hr (by simp [inModes, hm])]
  exact (need_passes _ (by simp [hmask, ha])).trans (if_neg (by simp [ha]))

end

/-! ### CAN_STATUS, CAN_CONFIG, CAN_RULE_SET and CAN_NODE_SET (R455, R456, R457, R458) -/

theorem opCanStatus_answers (hlen : r.payload.length = 4) (hz : zeros r.payload 1 3 = true) (hm : edt s 0x0B01 = true)
    (hch : fld r.payload 0 1 < 2) :
    opCanStatus r s = finish (takeLatched s r) r stOk (canStatusReply s (fld r.payload 0 1)) := by
  rw [opCanStatus, runOp_passes _ hl (beq_iff_eq.mpr hlen) hz rfl hm]
  exact need_passes _ (decide_eq_true hch)

/-- A channel's settings as CAN_CONFIG writes them; the channel is to restart. -/
def configChannel (p : Bytes) (s : State) : State :=
  modCan (modCanSet s (fld p 0 1) fun x => { x with cfg := canCfgFrom p }) (fld p 0 1) fun x => { x with restart := true }

theorem opCanConfig_changes (hlen : r.payload.length = 40)
    (hz : (decide ((canCfgFrom r.payload).wakeId < 2 ^ 11) && decide ((canCfgFrom r.payload).wakeIdMask < 2 ^ 11)
      && zeros r.payload 32 8) = true) (hr : supOk s r = true) (hm : inModes s mCfg = true) (hch : fld r.payload 0 1 < 2)
    (hok : canCfgOk (canCfgFrom r.payload) = true)
    (hid : isNodeId (canSet s (fld r.payload 0 1)) false (canCfgFrom r.payload).stopId none = false) :
    opCanConfig r s = change1 (takeLatched s r) r siteObj (configChannel r.payload) fun _ => [] := by
  have hrange : (decide (fld r.payload 0 1 < 2) && canCfgOk (canCfgFrom r.payload)
      && !isNodeId (canSet s (fld r.payload 0 1)) false (canCfgFrom r.payload).stopId none) = true := by
    simp [hch, hok, hid]
  rw [opCanConfig, runOp_passes _ hl (beq_iff_eq.mpr hlen) hz hr hm]
  exact need_passes (s := takeLatched s r) _ hrange

/-- The rules of a channel that one fragment of a CAN_RULE_SET read carries, from one index on. -/
def rulePart (s : State) (ch a n : Nat) : Bytes :=
  ((List.range n).map (· + a)).flatMap fun i => ruleBytes (tgetD (canSet s ch).rules i {}) (tgetD (canAt s ch).hits i 0)

/-- A rule written, its hits zeroed. -/
def writeRule (p : Bytes) (s : State) : State :=
  modCan (modCanSet s (fld p 0 1) fun x => { x with rules := tput x.rules (fld p 1 1) (ruleFrom p) }) (fld p 0 1)
    fun c => { c with hits := tdel c.hits (fld p 1 1) }

section
variable (hlen : r.payload.length = 20)
  (hz : (zeros r.payload 2 2 && decide ((ruleFrom r.payload).idValue < 2 ^ 29) && decide ((ruleFrom r.payload).idMask < 2 ^ 29)
    && decide ((ruleFrom r.payload).fmt < 16) && zeros r.payload 16 4) = true)
include hlen hz

theorem opCanRuleSet_changes (hact : (ruleFrom r.payload).action ≤ 3) (hr : supOk s r = true) (hm : inModes s mNorm = true)
    (hch : fld r.payload 0 1 < 2)
    (hlens : (ruleFrom r.payload).minLen ≤ (ruleFrom r.payload).maxLen ∧ (ruleFrom r.payload).maxLen ≤ 64) :
    opCanRuleSet r s = change1 (takeLatched s r) r siteObj (writeRule r.payload) fun _ => [] := by
  have hread : ((ruleFrom r.payload).action == 0xFF && zeros r.payload 0 13 && zeros r.payload 14 6) = false := by
    have : (ruleFrom r.payload).action ≠ 0xFF := by omega
    simp [this]
  simp only [opCanRuleSet, hread, Bool.false_or, Bool.false_eq_true, ↓reduceIte]
  refine (runOp_passes _ hl (beq_iff_eq.mpr hlen) hz hr hm).trans ?_
  exact need_passes _ (by simp [hch, hact, hlens])

theorem opCanRuleSet_reads (hact : (ruleFrom r.payload).action = 0xFF) (h0 : zeros r.payload 0 13 = true)
    (h14 : zeros r.payload 14 6 = true) (hm : edt s 0x0B10 = true) (hch : fld r.payload 0 1 < 2) :
    opCanRuleSet r s = finishFrags (takeLatched s r) r
      [rulePart s (fld r.payload 0 1) 0 87, rulePart s (fld r.payload 0 1) 87 87, rulePart s (fld r.payload 0 1) 174 82] 3 := by
  have hread : ((ruleFrom r.payload).action == 0xFF && zeros r.payload 0 13 && zeros r.payload 14 6) = true := by
    simp [hact, h0, h14]
  simp only [opCanRuleSet, hread, Bool.true_or, ↓reduceIte]
  refine (runOp_passes _ hl (beq_iff_eq.mpr hlen) hz rfl hm).trans ?_
  exact need_passes _ (by simp [hch])

end

/-- A node of a channel written. -/
def writeNode (p : Bytes) (s : State) : State :=
  modCanSet s (fld p 0 1) fun x => { x with
    nodes := tput x.nodes (fld p 1 1)
      { enable := fld p 2 1 == 1, ide := fld p 3 1 == 1, stopId := fld p 4 4, name := slice p 8 8 } }

theorem opCanNodeSet_changes (hlen : r.payload.length = 16) (hid : fld r.payload 4 4 < 2 ^ 29) (hr : supOk s r = true)
    (hm : inModes s mCfg = true) (hch : fld r.payload 0 1 < 2 ∧ fld r.payload 1 1 < 16)
    (hen : fld r.payload 2 1 = 1 ∨ fld r.payload 2 1 = 2) (hide : fld r.payload 3 1 ≤ 1)
    (hfits : (fld r.payload 3 1 == 1 || decide (fld r.payload 4 4 < 2 ^ 11)) = true)
    (hname : nameOk (slice r.payload 8 8) = true)
    (hown : (!(fld r.payload 3 1 == 1) && fld r.payload 4 4 == (canSet s (fld r.payload 0 1)).cfg.stopId) = false)
    (hother : isNodeId (canSet s (fld r.payload 0 1)) (fld r.payload 3 1 == 1) (fld r.payload 4 4) (some (fld r.payload 1 1))
      = false) :
    opCanNodeSet r s = change1 (takeLatched s r) r siteObj (writeNode r.payload) fun _ => [] := by
  have hen' : (fld r.payload 2 1 == 1 || fld r.payload 2 1 == 2) = true := by simpa using hen
  have hrange : (decide (fld r.payload 0 1 < 2) && decide (fld r.payload 1 1 < 16)
      && (fld r.payload 2 1 == 1 || fld r.payload 2 1 == 2) && decide (fld r.payload 3 1 ≤ 1)
      && (fld r.payload 3 1 == 1 || decide (fld r.payload 4 4 < 2 ^ 11)) && nameOk (slice r.payload 8 8)
      && !(!(fld r.payload 3 1 == 1) && fld r.payload 4 4 == (canSet s (fld r.payload 0 1)).cfg.stopId)
      && !isNodeId (canSet s (fld r.payload 0 1)) (fld r.payload 3 1 == 1) (fld r.payload 4 4)
        (some (fld r.payload 1 1))) = true := by
    rw [hen', hfits, hname, hown, hother, decide_eq_true hch.1, decide_eq_true hch.2, decide_eq_true hide]
    rfl
  rw [opCanNodeSet, runOp_passes _ hl (beq_iff_eq.mpr hlen) (decide_eq_true hid) hr hm]
  exact need_passes (s := takeLatched s r) _ hrange

/-! ### CAN_SEND, CAN_SUBSCRIBE and CAN_SLEEP (R459, R460, R461) -/

theorem opCanSend_queues {l : List Bytes} (hlen : 4 ≤ r.payload.length)
    (hf : sendFrames (fld r.payload 1 1) (r.payload.drop 4) = some l)
    (hz : (zeros r.payload 2 2 && l.all sendRsv) = true) (hm : inModes s mRun = true) (hch : fld r.payload 0 1 < 2)
    (hn : 1 ≤ fld r.payload 1 1 ∧ fld r.payload 1 1 ≤ 8)
    (hok : (sentFrames s r l).all (sendOk (canSet s (fld r.payload 0 1))) = true)
    (hroom : (canRoom (takeLatched s r) (fld r.payload 0 1) (sentFrames s r l)
      && (canAt s (fld r.payload 0 1)).state != .asleep && (canAt s (fld r.payload 0 1)).state != .disabled
      && (canAt s (fld r.payload 0 1)).state != .off) = true) :
    opCanSend r s = finish (queueSent r l (takeLatched s r)) r stOk [] := by
  have hrange : (decide (fld r.payload 0 1 < 2) && decide (1 ≤ fld r.payload 1 1) && decide (fld r.payload 1 1 ≤ 8)
      && (sentFrames s r l).all (sendOk (canSet s (fld r.payload 0 1)))) = true := by
    simp [hch, hn, hok]
  simp only [opCanSend, hf, Option.getD_some]
  refine (runOp_passes _ hl (by simp [hlen]) hz rfl hm).trans ?_
  exact (need_passes (s := takeLatched s r) _ hrange).trans (need_passes (s := takeLatched s r) _ hroom)

/-- The subscription of one session to the frames of a channel taken up in the FC of its command, or dropped. -/
def subscribeCan (r : Request) (s : State) : State :=
  modSession s r.slot fun e =>
    { e with canSub := e.canSub.set (fld r.payload 0 1) (if fld r.payload 1 1 = 1 then some (fcNow s) else none) }

theorem opCanSubscribe_changes (hlen : r.payload.length = 4) (hz : zeros r.payload 2 2 = true) (hm : edt s 0x0B21 = true)
    (hch : fld r.payload 0 1 < 2) (hact : fld r.payload 1 1 = 1 ∨ fld r.payload 1 1 = 2) :
    opCanSubscribe r s = change1 (takeLatched s r) r (okSession, r.slot) (subscribeCan r) fun _ => [] := by
  rw [opCanSubscribe, runOp_passes _ hl (beq_iff_eq.mpr hlen) hz rfl hm]
  exact need_passes _ (by simpa [hch] using hact)

/-- A channel told to sleep does so once it has nothing left to send; one that is off or asleep is left alone. -/
def sleepChannel (p : Bytes) (s : State) : State :=
  modCan s (fld p 0 1) fun c => if canOn c || c.state == .busOff then { c with sleepDue := some (fcNow s) } else c

/-- A channel woken by its host. -/
def wakeChannel (p : Bytes) (s : State) : State := modCan s (fld p 0 1) (wakeChan (fcNow s) 6 true true)

section
variable (hlen : r.payload.length = 4) (hz : zeros r.payload 2 2 = true) (hr : supOk s r = true)
  (hm : inModes s [.calm, .zephyr, .breeze, .drift, .lull, .watch] = true) (hch : fld r.payload 0 1 < 2)
include hlen hz hr hm hch

theorem opCanSleep_sleeps (ha : fld r.payload 1 1 = 1) (hv : s.stop.voted = true) :
    opCanSleep r s = change1 (takeLatched s r) r siteObj (sleepChannel r.payload) fun _ => [] := by
  have hgo : (!(fld r.payload 1 1 == 1 && !s.stop.voted)) = true := by simp [hv]
  rw [opCanSleep, runOp_passes _ hl (beq_iff_eq.mpr hlen) hz hr hm]
  refine (need_passes _ (by simp [hch, ha])).trans ((need_passes (s := takeLatched s r) _ hgo).trans ?_)
  simp only [ha, OfNat.one_ne_ofNat, ↓reduceIte]
  rfl

theorem opCanSleep_wakes (ha : fld r.payload 1 1 = 2) :
    opCanSleep r s = change1 (takeLatched s r) r siteObj (wakeChannel r.payload) fun _ => [] := by
  rw [opCanSleep, runOp_passes _ hl (beq_iff_eq.mpr hlen) hz hr hm]
  refine (need_passes _ (by simp [hch, ha])).trans ((need_passes _ (by simp [ha])).trans ?_)
  simp only [ha, ↓reduceIte]
  rfl

end

end

/-- Settles O30: five rows come to one change of the site configuration, CAN_SUBSCRIBE to one of its session; the tests, CAN_SEND
and the reads by their answers. -/
theorem radioAndCanCommandsTakeEffect : Obligations.RadioAndCanCommandsTakeEffect := by
  unfold Obligations.RadioAndCanCommandsTakeEffect
  refine ⟨fun r s hl hc hlen hz hn hr hm hok => ?radioConfig, ?testStart, ?testEnd,
    fun r s hl hlen hz hm hch => ends_of_finish (c := .canStatus r)
      (congrArg Host.Outcome.next (opCanStatus_answers hl hlen hz hm hch)) rfl (live_answerable hl),
    fun r s hl hc hlen hz hr hm hch hok hid => ?canConfig, fun r s hl hc hlen hz hact hr hm hch hlens => ?ruleSet,
    fun r s hl hlen hact hz h0 h14 hm => ?ruleRead,
    fun r s hl hc hlen hid hr hm hch hen hide hfits hname hown hother => ?nodeSet,
    fun r s l hl hlen hf hz hm hch hn hok hroom => ?send, fun r s hl hc hlen hz hm hch hact => ?subscribe, ?sleep, ?wake⟩
  case radioConfig =>
    have hfog : mramFog s = false := mramFog_of_inModes hm rfl
    rw [commit_eq (s := takeLatched s r) _ _ hfog]
    exact ends_of_siteChange (c := .radioConfig r)
      (congrArg Host.Outcome.next (opRadioConfig_changes hl hlen hz hn hr hm hok)) hl hc (fun _ => rfl) hfog
  case testStart =>
    rintro r _ s rfl hl hlen hz ha hr hm hmask hd hfree
    exact ends_of_finish (c := .radioTestStart r)
      (congrArg Host.Outcome.next (opRadioTest_starts hl hlen hz hr hm hmask ha hd hfree)) rfl
      (((live_answerable hl).congr (t := takeLatched s _) rfl).congr (congrArg Edtor.sessions (setTest_edtor ..)))
  case testEnd =>
    rintro r _ s rfl hl hlen hz ha hd hr hm hmask
    exact ends_of_finish (c := .radioTestEnd r)
      (congrArg Host.Outcome.next (opRadioTest_ends hl hlen hz hr hm hmask ha hd)) rfl
      (((live_answerable hl).congr (t := takeLatched s _) rfl).congr (congrArg Edtor.sessions (setTest_edtor ..)))
  case canConfig =>
    have hfog : mramFog s = false := mramFog_of_inModes hm rfl
    rw [commit_eq (s := takeLatched s r) _ _ hfog]
    exact ends_of_siteChange (c := .canConfig r)
      (congrArg Host.Outcome.next (opCanConfig_changes hl hlen hz hr hm hch hok hid)) hl hc (fun _ => rfl) hfog
  case ruleSet =>
    have hfog : mramFog s = false := mramFog_of_inModes hm rfl
    rw [commit_eq (s := takeLatched s r) _ _ hfog]
    exact ends_of_siteChange (c := .canRuleSet r)
      (congrArg Host.Outcome.next (opCanRuleSet_changes hl hlen hz hact hr hm hch hlens)) hl hc (fun _ => rfl) hfog
  case ruleRead =>
    have hch : fld r.payload 0 1 < 2 := by rw [fld_of_zeros h0 (by decide)]; decide
    exact streams_of_finishFrags (c := .canRuleSet r)
      (congrArg Host.Outcome.next (opCanRuleSet_reads hl hlen hz hact h0 h14 hm hch))
  case nodeSet =>
    have hfog : mramFog s = false := mramFog_of_inModes hm rfl
    rw [commit_eq (s := takeLatched s r) _ _ hfog]
    exact ends_of_siteChange (c := .canNodeSet r)
      (congrArg Host.Outcome.next (opCanNodeSet_changes hl hlen hid hr hm hch hen hide hfits hname hown hother)) hl hc
      (fun _ => rfl) hfog
  case send =>
    have htaken : Answerable (takeLatched s r) r := (live_answerable hl).congr rfl
    exact (ends_of_finish (c := .canSend r)
      (congrArg Host.Outcome.next (opCanSend_queues hl hlen hf hz hm hch hn hok hroom)) rfl
      (htaken.congr (congrArg Edtor.sessions (queueSent_edtor ..))) :)
  case subscribe =>
    have hfog : mramFog s = false := mramFog_of_edt hm (by decide)
    rw [commit_eq (s := takeLatched s r) _ _ hfog]
    exact ends_of_change1 (c := .canSubscribe r)
      (congrArg Host.Outcome.next (opCanSubscribe_changes hl hlen hz hm hch hact)) hc hfog
      (answerable_modSession ((live_answerable hl).congr rfl) fun _ => ⟨rfl, rfl⟩)
  case sleep =>
    rintro r _ s rfl hl hlen hz ha hr hm hch hv hc
    have hfog : mramFog s = false := mramFog_of_inModes hm rfl
    rw [commit_eq (s := takeLatched s (withCanAction r 1)) _ _ hfog]
    exact ends_of_siteChange (c := .canSleepSleep r)
      (congrArg Host.Outcome.next (opCanSleep_sleeps hl hlen hz hr hm hch ha hv)) hl hc (fun _ => rfl) hfog
  case wake =>
    rintro r _ s rfl hl hlen hz ha hr hm hch hc
    have hfog : mramFog s = false := mramFog_of_inModes hm rfl
    rw [commit_eq (s := takeLatched s (withCanAction r 2)) _ _ hfog]
    exact ends_of_siteChange (c := .canSleepWake r)
      (congrArg Host.Outcome.next (opCanSleep_wakes hl hlen hz hr hm hch ha)) hl hc (fun _ => rfl) hfog

end Sys2Proof.Machine
end

section
/-! PROOFS. The ports' and the tamper sensors' events, and the outputs that SYS_AUX_SET names. -/

namespace Sys2Proof.Machine

open Sys2Proof

/-! ### Events of the ports, the tamper sensors and the keys (R465, R468, R471, R473, R493, R495, R502) -/

theorem opArpNdpEchoRequest_of_passed {s u : State} {port : Port} (kind : HostFrame) (h : portFrame s port = (true, u)) :
    opArpNdpEchoRequest port kind s
      = let x := tgetD u.ports.hosts (portCode port) {}
        match kind with
        | .echo =>
            if x.echoes < 16 then
              { u with ports.hosts := tput u.ports.hosts (portCode port) { x with echoes := x.echoes + 1 } }
            else portOther u port
        | .other => portOther u port
        | _ =>
            if x.arps < 64 then { u with ports.hosts := tput u.ports.hosts (portCode port) { x with arps := x.arps + 1 } }
            else portOther u port := by
  unfold opArpNdpEchoRequest
  rw [h]
  cases kind <;> rfl

theorem trip_tripRun (s : State) (i : Nat) : (trip s i).bk.tripRun = s.bk.tripRun := by
  unfold trip wipeSite
  extract_lets maint invalidate u
  split <;> rfl

theorem rollNow_of_roll {s : State} {what e : Nat} (h : s.p.keys.roll = some (what, e)) :
    rollNow s = { s with
      p.keys.roll := none
      p.keys.groupGen := if bit what 0 then nextGen s.p.keys.groupGen else s.p.keys.groupGen
      p.keys.beaconGen := if bit what 1 then nextGen s.p.keys.beaconGen else s.p.keys.beaconGen } := by
  simp only [rollNow, h]

/-- The checks of a sensor that found it in a row, capped at 3, after one more. -/
def nextRun (s : State) (i : Nat) (found : Bool) : Nat := if found then min 3 (s.bk.tripRun.getD i 0 + 1) else 0

theorem nextRun_eq_two {s : State} {i : Nat} {found : Bool} :
    nextRun s i found = 2 ↔ found = true ∧ s.bk.tripRun.getD i 0 = 1 := by
  unfold nextRun
  cases found
  · simp
  · simp only [↓reduceIte, true_and]
    omega

theorem opTamperCheck_tripRun (s : State) (i rtc : Nat) (found : Bool) :
    (opTamperCheck i found rtc s).bk.tripRun = s.bk.tripRun.set i (nextRun s i found) := by
  unfold opTamperCheck
  extract_lets n now bk u
  split
  · exact trip_tripRun u i
  · rfl

/-- A check counts its sensor's run, and one that does not make it 2 on an enabled sensor trips nothing. -/
theorem opTamperCheck_counts (s : State) (i rtc : Nat) (found : Bool) :
    let t := opTamperCheck i found rtc s
    t.bk.rtc = rtc ∧ (i < s.bk.tripRun.length → t.bk.tripRun.getD i 0 = nextRun s i found)
      ∧ (nextRun s i found ≠ 2 ∨ bit s.bk.enable i = false → t.bk.latched = s.bk.latched ∧ t.p = s.p) := by
  obtain ⟨hrtc, -, -, hquiet⟩ := opTamperCheck_effect s i rtc found
  refine ⟨hrtc, fun hi => ?_, fun h => ?_⟩
  · rw [opTamperCheck_tripRun, List.getD_eq_getElem _ _ (by simpa using hi)]
    exact List.getElem_set_self ..
  · obtain ⟨hlatched, -, -, hp⟩ := hquiet fun ⟨hf, hrun, hen⟩ =>
      h.elim (· (nextRun_eq_two.mpr ⟨hf, hrun⟩)) (by simp [hen])
    exact ⟨hlatched, hp⟩

/-- Settles O45: each event by what it does once it applies. -/
theorem portAndTamperEventsAct : Obligations.PortAndTamperEventsAct := by
  unfold Obligations.PortAndTamperEventsAct
  refine ⟨fun s port up speed h => congrArg Host.Outcome.next (opPortLink_change h),
    fun s port kind u h => congrArg Host.Outcome.next (opArpNdpEchoRequest_of_passed kind h),
    fun s io pclk level hio hp ho hl hv => (if_pos hio).trans (congrArg Host.Outcome.next (opAuxInput_edge hp ho hl hv)),
    fun s io pclk hio hp ho => (if_pos hio).trans (congrArg Host.Outcome.next (opOutFault_on hp ho)),
    fun s active pclk hp h => congrArg Host.Outcome.next (opSvcEn_change hp h),
    fun s present pclk hp h => congrArg Host.Outcome.next (opVioLost_change hp h),
    fun s i rtc found hi => ⟨_, if_pos hi, opTamperCheck_counts s i rtc found⟩,
    fun s h => congrArg Host.Outcome.next (if_pos h), fun s h => congrArg Host.Outcome.next (if_neg h),
    fun s what e hr h he => congrArg Host.Outcome.next ((opRollEffective_due hr h he).trans (by rw [rollNow_of_roll h]))⟩

/-! ### SYS_AUX_SET (R476) -/

/-- The value an I/O takes at PLAN, where a SYS_AUX_SET with this mask and these values names it. -/
def takeValue (mask values io : Nat) (x : AuxLive) : AuxLive :=
  if bit mask io then { x with setNext := some (bit values io) } else x

/-- What SYS_AUX_SET does to one I/O. -/
def setIo (mask values : Nat) (s : State) (io : Nat) : State :=
  if bit mask io then modIo s io fun x => { x with setNext := some (bit values io) } else s

theorem auxLive_setIo_same (mask values : Nat) (s : State) (io : Nat) :
    auxLive (setIo mask values s io) io = takeValue mask values io (auxLive s io) := by
  unfold setIo takeValue
  split
  · exact auxLive_modIo_same ..
  · rfl

theorem auxLive_setIo_other (mask values : Nat) (s : State) {io k : Nat} (h : k ≠ io) :
    auxLive (setIo mask values s io) k = auxLive s k := by
  unfold setIo
  split
  · exact auxLive_modIo_other _ _ h
  · rfl

/-- Setting I/Os changes nothing but their live states. -/
theorem setIos_eq (mask values : Nat) (ios : List Nat) (s : State) :
    ∃ t, ios.foldl (setIo mask values) s = { s with ports.io := t } := by
  induction ios generalizing s with
  | nil => exact ⟨_, rfl⟩
  | cons io ios ih =>
    obtain ⟨t, ht⟩ := ih (setIo mask values s io)
    refine ⟨t, ht.trans ?_⟩
    unfold setIo
    split <;> rfl

theorem auxLive_setIos_other (mask values : Nat) (ios : List Nat) (s : State) {k : Nat} (h : k ∉ ios) :
    auxLive (ios.foldl (setIo mask values) s) k = auxLive s k := by
  induction ios generalizing s with
  | nil => rfl
  | cons io ios ih =>
    obtain ⟨hk, hks⟩ := not_or.mp (mt List.mem_cons.mpr h)
    exact (ih _ hks).trans (auxLive_setIo_other _ _ _ hk)

theorem auxLive_setIos_mem (mask values : Nat) {ios : List Nat} (s : State) (hnd : ios.Nodup) {k : Nat} (h : k ∈ ios) :
    auxLive (ios.foldl (setIo mask values) s) k = takeValue mask values k (auxLive s k) := by
  induction ios generalizing s with
  | nil => cases h
  | cons io ios ih =>
    obtain ⟨hio, hnd⟩ := List.nodup_cons.mp hnd
    obtain rfl | hk := List.mem_cons.mp h
    · exact (auxLive_setIos_other _ _ _ _ hio).trans (auxLive_setIo_same ..)
    · have hne : k ≠ io := fun he => hio (he ▸ hk)
      exact (ih _ hnd hk).trans (congrArg _ (auxLive_setIo_other _ _ _ hne))

theorem opSysAuxSet_sets {r : Request} {s : State} (hl : live s r = true) (hlen : r.payload.length = 4)
    (hz : zeros r.payload 2 2 = true) (hm : inModes s [.calm, .zephyr, .breeze, .drift, .lull, .squall, .watch] = true)
    (hout : ∀ io ∈ List.range 8, bit (fld r.payload 0 1) io = true → isOutput s io = true) :
    opSysAuxSet r s
      = finish ((List.range 8).foldl (setIo (fld r.payload 0 1) (fld r.payload 1 1)) (takeLatched s r)) r stOk [] := by
  have hall : ((List.range 8).all fun io => !bit (fld r.payload 0 1) io || isOutput (takeLatched s r) io) = true :=
    List.all_eq_true.mpr fun io hio => by
      have hio : bit (fld r.payload 0 1) io = true → isOutput (takeLatched s r) io = true := hout io hio
      cases hb : bit (fld r.payload 0 1) io
      · rfl
      · exact hio hb
  rw [opSysAuxSet, runOp_passes _ hl (beq_iff_eq.mpr hlen) hz rfl hm]
  exact need_passes (s := takeLatched s r) _ hall

/-- What an I/O becomes at the first PCLK of PLAN. -/
def atPlan (x : AuxLive) : AuxLive :=
  match x.setNext with
  | none => x
  | some v => { x with out := v, outFault := x.outFault && !v, setNext := none }

theorem atPlan_of_named {x : AuxLive} {v : Bool} (h : x.setNext = some v) :
    atPlan x = { x with out := v, outFault := x.outFault && !v, setNext := none } := by
  simp only [atPlan, h]

theorem atPlan_of_unnamed {x : AuxLive} (h : x.setNext = none) : atPlan x = x := by
  simp only [atPlan, h]

theorem auxLive_applyAuxSet (s : State) (io : Nat) : auxLive (applyAuxSet s) io = atPlan (auxLive s io) := by
  refine (congrArg (Option.getD · {}) (tget_tmap s.ports.io (fun _ x => atPlan x) io)).trans ?_
  unfold auxLive tgetD
  cases tget s.ports.io io <;> rfl

/-- Settles O20: the opcode by what its fold leaves on each I/O, PLAN by `atPlan`. -/
theorem auxOutputsAreSetAtPlan : Obligations.AuxOutputsAreSetAtPlan := by
  unfold Obligations.AuxOutputsAreSetAtPlan
  refine ⟨fun r s hl hlen hz hm hout => ?_, fun s io v hio h ho => ?_, fun s io hio h => ?_⟩
  · obtain ⟨io', hio'⟩ := setIos_eq (fld r.payload 0 1) (fld r.payload 1 1) (List.range 8) (takeLatched s r)
    have hacts := opSysAuxSet_sets hl hlen hz hm hout
    refine ⟨_, ends_of_finish (c := .sysAuxSet r) (congrArg Host.Outcome.next hacts) rfl ((live_answerable hl).congr ?_),
      ?_, ?_, fun io hio => auxLive_setIos_mem _ _ _ List.nodup_range (List.mem_range.mpr hio)⟩
    all_goals
      rw [hio']
      rfl
  · simp only [auxLive_applyAuxSet, atPlan_of_named h, true_and]
    rintro rfl
    exact Bool.and_false _
  · rw [auxLive_applyAuxSet, atPlan_of_unnamed h]

end Sys2Proof.Machine
end

section
/-! PROOFS. The KEY opcodes and ATTEST_GET. -/

namespace Sys2Proof.Machine

open Sys2Proof

/-! ### The key slots (R488) -/

theorem keySlot_beginChange_same (s : State) (r : Request) (i : Nat) (new : KeySlot) (destroy : Bool) (reply : Bytes) :
    keySlot (beginChange s r i new destroy reply) i = { keySlot s i with shadow := true } := tgetD_tput_same ..

/-- The first step of a change sets SHADOW on its slot and notes the change, and does no more. -/
theorem beginChange_effect (s : State) (r : Request) (i : Nat) (new : KeySlot) (destroy : Bool) (reply : Bytes) :
    let t := beginChange s r i new destroy reply
    (keySlot t i).shadow = true ∧ (keySlot t i).valid = (keySlot s i).valid ∧ t.com = s.com ∧ t.p = s.p
      ∧ t.sec.change.length = s.sec.change.length + 1 := by
  intro t
  rw [show keySlot t i = _ from keySlot_beginChange_same ..]
  exact ⟨rfl, rfl, rfl, rfl, List.length_append⟩

/-! ### Rows that begin the change of a key slot (R498 to R500) -/

section
variable {r : Request} {s : State} (hl : live s r = true) (hr : svcOk s r = true)
include hl hr

section
variable (hlen : r.payload.length = 40) (hz : zeros r.payload 1 7 = true) (hm : s.mode.cur = .tender)
  (hnone : siteValid s = false) (hc : csnHolds s r [(okKey, 0)] = true)
include hlen hz hm hnone hc

/-- A KEY_SITE_INSTALL whose source and key agree installs the key of its source. -/
theorem opKeySiteInstall_installs (hrsv : (fld r.payload 0 1 != 1 || zeros r.payload 8 32) = true)
    (hsrc : ((fld r.payload 0 1 == 1 || fld r.payload 0 1 == 2)
      && !(fld r.payload 0 1 == 2 && zeros r.payload 8 32)) = true) :
    opKeySiteInstall r s
      = let key := if fld r.payload 0 1 = 1 then freshBytes (takeLatched s r) 32 else (slice r.payload 8 32, takeLatched s r)
        beginChange key.2 r 0 (installed (keySlot key.2 0) 1 32 0 key.1) false
          (le 2 (keySlot key.2 0).gen ++ zb 2 ++ (hmac256 key.1 (ascii "KCV")).take 4) := by
  have hz' : (zeros r.payload 1 7 && (fld r.payload 0 1 != 1 || zeros r.payload 8 32)) = true := by rw [hz, hrsv]; rfl
  have hm' : inModes s [.tender] = true := by simp [inModes, hm]
  have hnone' : (!siteValid (takeLatched s r)) = true := by
    rw [show siteValid (takeLatched s r) = false from hnone]
    rfl
  rw [opKeySiteInstall, runOp_passes _ hl (beq_iff_eq.mpr hlen) hz' hr hm']
  exact (need_passes (s := takeLatched s r) _ hsrc).trans ((need_passes (s := takeLatched s r) _ hnone').trans
    (checkCsn_passes (s := takeLatched s r) _ hc))

theorem opKeySiteInstall_given (hsrc : fld r.payload 0 1 = 2) (hkey : zeros r.payload 8 32 = false) :
    opKeySiteInstall r s = beginChange (takeLatched s r) r 0 (installed (keySlot s 0) 1 32 0 (slice r.payload 8 32)) false
      (le 2 (keySlot s 0).gen ++ zb 2 ++ (hmac256 (slice r.payload 8 32) (ascii "KCV")).take 4) := by
  rw [opKeySiteInstall_installs hl hr hlen hz hm hnone hc (by simp [hsrc]) (by simp [hsrc, hkey])]
  simp only [hsrc, OfNat.ofNat_ne_one, ↓reduceIte]
  rfl

theorem opKeySiteInstall_drawn (hsrc : fld r.payload 0 1 = 1) (hkey : zeros r.payload 8 32 = true) :
    opKeySiteInstall r s
      = let key := (freshBytes (takeLatched s r) 32).1
        beginChange (freshBytes (takeLatched s r) 32).2 r 0 (installed (keySlot s 0) 1 32 0 key) false
          (le 2 (keySlot s 0).gen ++ zb 2 ++ (hmac256 key (ascii "KCV")).take 4) := by
  rw [opKeySiteInstall_installs hl hr hlen hz hm hnone hc (by simp [hkey]) (by simp [hsrc])]
  simp only [hsrc, ↓reduceIte]
  rfl

end

section
variable (hm : inModes s mCfg = true)
include hm

theorem opKeyDestroy_destroys (hlen : r.payload.length = 8) (hz : zeros r.payload 1 3 = true) (hi : fld r.payload 0 1 < 64)
    (hv : (keySlot s (fld r.payload 0 1)).valid = true) (hconfirm : fld r.payload 4 4 = 0xDE57)
    (hc : csnHolds s r [(okKey, fld r.payload 0 1)] = true) :
    opKeyDestroy r s = beginChange (takeLatched s r) r (fld r.payload 0 1) (destroyed (keySlot s (fld r.payload 0 1))) true
      [] := by
  have hok : (decide (fld r.payload 0 1 < 64) && (keySlot (takeLatched s r) (fld r.payload 0 1)).valid
      && fld r.payload 4 4 == 0xDE57) = true := by
    rw [show (keySlot (takeLatched s r) (fld r.payload 0 1)).valid = true from hv, hconfirm, decide_eq_true hi]
    rfl
  rw [opKeyDestroy, runOp_passes _ hl (beq_iff_eq.mpr hlen) hz hr hm]
  exact (need_passes (s := takeLatched s r) _ hok).trans (checkCsn_passes (s := takeLatched s r) _ hc)

theorem opKeyAnchorSet_installs (hlen : r.payload.length = 24) (hz : zeros r.payload 1 7 = true) (hi : fld r.payload 0 1 ≤ 9)
    (hc : csnHolds s r [(okKey, fld r.payload 0 1 + 1)] = true) :
    opKeyAnchorSet r s = beginChange (takeLatched s r) r (fld r.payload 0 1 + 1)
      (installed (keySlot s (fld r.payload 0 1 + 1)) 2 16 0 (slice r.payload 8 16)) false [] := by
  rw [opKeyAnchorSet, runOp_passes _ hl (beq_iff_eq.mpr hlen) hz hr hm]
  exact (need_passes (s := takeLatched s r) _ (decide_eq_true (Nat.succ_le_succ hi))).trans
    (checkCsn_passes (s := takeLatched s r) _ hc)

theorem opKeyLinkSet_installs {i : Nat} (hlen : r.payload.length = 32) (hz : zeros r.payload 1 7 = true)
    (hn : (fld r.payload 0 1 == 0xFF || (decide (11 ≤ fld r.payload 0 1) && decide (fld r.payload 0 1 ≤ 63))) = true)
    (hi : linkSlotNamed s (fld r.payload 0 1) = some i)
    (hfree : (linkSlotOf s (BitVec.ofNat 64 (fld r.payload 8 8))).all (· == i) = true)
    (hc : csnHolds s r [(okKey, i)] = true) :
    opKeyLinkSet r s = beginChange (takeLatched s r) r i
      (installed (keySlot s i) 3 16 (BitVec.ofNat 64 (fld r.payload 8 8)) (slice r.payload 16 16)) false (le 1 i ++ zb 3) := by
  have hi' : linkSlotNamed (takeLatched s r) (fld r.payload 0 1) = some i := hi
  rw [opKeyLinkSet, runOp_passes _ hl (beq_iff_eq.mpr hlen) hz hr hm]
  refine (need_passes (s := takeLatched s r) _ hn).trans ?_
  simp only [hi']
  exact (need_passes (s := takeLatched s r) _ hfree).trans (checkCsn_passes (s := takeLatched s r) _ hc)

/-! ### KEY_ROBOT_EXPORT and the tamper latch (R501, R504) -/

/-- What KEY_ROBOT_EXPORT answers. -/
def exportReply (s : State) (e : BitVec 64) : Bytes :=
  fit 16 (linkKey s e) ++ le 1 (if (linkSlotOf s e).isSome then 2 else 1) ++ zb 7 ++ fingerprint s.fuse.secret

theorem opKeyRobotExport_answers (hlen : r.payload.length = 8) (hport : r.port = .l23)
    (hkey : (siteValid s || (linkSlotOf s (BitVec.ofNat 64 (fld r.payload 0 8))).isSome) = true) :
    opKeyRobotExport r s = finish (takeLatched s r) r stOk (exportReply s (BitVec.ofNat 64 (fld r.payload 0 8))) := by
  have hrole : (svcOk s r && r.port == .l23) = true := by simp [hr, hport]
  rw [opKeyRobotExport, runOp_passes _ hl (beq_iff_eq.mpr hlen) rfl hrole hm]
  exact need_passes (s := takeLatched s r) _ hkey

/-- The tamper latch cleared. -/
def clearLatch (s : State) : State := { s with bk.latched := false, bk.tsrc := 0, bk.firstTrip := 0 }

theorem opKeyTamperClear_changes (hlen : r.payload.length = 4) (hkey : fld r.payload 0 4 = 0x7A3C)
    (hlatched : s.bk.latched = true)
    (hidle : ((List.range 5).all fun i => !(bit s.bk.tsrcNow i && bit s.bk.enable i)) = true) :
    opKeyTamperClear r s = change1 (takeLatched s r) r siteObj clearLatch fun _ => [] := by
  have hok : (fld r.payload 0 4 == 0x7A3C && s.bk.latched) = true := by simp [hkey, hlatched]
  rw [opKeyTamperClear, runOp_passes _ hl (beq_iff_eq.mpr hlen) rfl hr hm]
  exact (need_passes (s := takeLatched s r) _ hok).trans (need_passes (s := takeLatched s r) _ hidle)

end

/-! ### KEY_ROLL (R502) -/

/-- A roll made known to the robots associated and to the hosts. -/
def scheduleRoll (r : Request) (what e beacon group : Nat) (s : State) : State :=
  let u : State := { s with p.keys.roll := some (what, e) }
  let u := (associatedSessions u).foldl (fun x i => queueMsg x 3 (some i) (keyMessage x true e)) u
  rollEvent u (tagOf u r) 6 beacon group e

omit hl hr in
theorem queueKeyMessages_edtor (e : Nat) (l : List Nat) (s : State) :
    (l.foldl (fun x i => queueMsg x 3 (some i) (keyMessage x true e)) s).edtor = s.edtor :=
  foldl_keeps (·.edtor) _ l s fun _ _ => rfl

/-- The generation a roll brings in, where it rolls that key. -/
def rolledGen (rolls : Bool) (gen : Nat) : Nat := if rolls then nextGen gen else gen

theorem opKeyRoll_changes (hlen : r.payload.length = 4) (hwhat : fld r.payload 0 1 < 4) (hz : zeros r.payload 1 3 = true)
    (hm : inModes s mWork = true) (hsome : fld r.payload 0 1 ≠ 0) (hroll : s.p.keys.roll.isNone = true)
    (hsite : siteValid s = true) :
    opKeyRoll r s = change1 (takeLatched s r) r siteObj
      (scheduleRoll r (fld r.payload 0 1) (rollFc (fcNow s)) (rolledGen (bit (fld r.payload 0 1) 1) s.p.keys.beaconGen)
        (rolledGen (bit (fld r.payload 0 1) 0) s.p.keys.groupGen))
      fun _ => le 8 (rollFc (fcNow s)) ++ le 2 (rolledGen (bit (fld r.payload 0 1) 0) s.p.keys.groupGen)
        ++ le 2 (rolledGen (bit (fld r.payload 0 1) 1) s.p.keys.beaconGen) ++ zb 4 := by
  have hz' : (decide (fld r.payload 0 1 < 4) && zeros r.payload 1 3) = true := by rw [hz, decide_eq_true hwhat]; rfl
  rw [opKeyRoll, runOp_passes _ hl (beq_iff_eq.mpr hlen) hz' hr hm]
  exact (need_passes (s := takeLatched s r) _ (bne_iff_ne.mpr hsome)).trans
    ((need_passes (s := takeLatched s r) _ hroll).trans (need_passes (s := takeLatched s r) _ hsite))

/-! ### KEY_TAMPER_CONFIG (R503) -/

/-- The tamper settings a payload carries, written and kept for PLAN. -/
def writeTamper (p : Bytes) (s : State) : State :=
  let policy := if fld p 0 1 = 0 then none else some (fld p 0 1)
  let enable := if bit (fld p 1 1) 7 then some (fld p 1 1 % 32) else none
  { s with
    p.keys.tamperPolicy := policy.getD s.p.keys.tamperPolicy
    p.keys.tamperEnable := enable.getD s.p.keys.tamperEnable
    sec.tamperNext := mergeTamper s.sec.tamperNext policy enable (fld p 2 2) }

theorem opKeyTamperConfig_changes (hlen : r.payload.length = 8)
    (hz : (!bit (fld r.payload 1 1) 5 && !bit (fld r.payload 1 1) 6 && (bit (fld r.payload 1 1) 7 || fld r.payload 1 1 == 0)
      && zeros r.payload 4 4) = true)
    (hn : allZero r.payload = false) (hm : inModes s [.tender, .calm, .zephyr, .lull, .squall, .watch] = true)
    (hok : (decide (fld r.payload 0 1 ≤ 2) && (decide (fld r.payload 2 2 ≤ 3600) || fld r.payload 2 2 == 0xFFFF)) = true)
    (hclear : (fld r.payload 0 1 == 2 && s.bk.latched) = false) :
    opKeyTamperConfig r s
      = change1 (takeLatched s r) r siteObj (writeTamper r.payload) fun u => tamperReply (applyTamper u) := by
  have hclear' : (!(fld r.payload 0 1 == 2 && s.bk.latched)) = true := by rw [hclear]; rfl
  unfold opKeyTamperConfig
  exact (runOp_changes hl (beq_iff_eq.mpr hlen) hz hr hm hn).trans ((need_passes (s := takeLatched s r) _ hok).trans
    (need_passes (s := takeLatched s r) _ hclear'))

end

/-! ### ATTEST_GET (R505) -/

section
variable {r : Request} {s : State} (hl : live s r = true) (hlen : r.payload.length = 16) (hm : edt s 0x0C30 = true)
include hl hlen hm

theorem opAttestGet_answers (hz : allZero r.payload = true) :
    opAttestGet r s = finish (takeLatched s r) r stOk (fit 496 s.sec.attest) := by
  simp only [opAttestGet, hz, Bool.not_true, Bool.false_and, Bool.false_eq_true, ↓reduceIte]
  exact runOp_passes _ hl (beq_iff_eq.mpr hlen) rfl rfl hm

theorem opAttestGet_waits (hz : allZero r.payload = false) (hroom : s.sec.freshUsed < 4) :
    opAttestGet r s
      = { takeLatched s r with sec.fresh := s.sec.fresh ++ [r], sec.freshUsed := s.sec.freshUsed + 1 } := by
  simp only [opAttestGet, hz, Bool.not_false, Bool.true_and, Nat.not_le.mpr hroom, decide_false, Bool.and_false,
    Bool.false_eq_true, ↓reduceIte]
  exact runOp_passes _ hl (beq_iff_eq.mpr hlen) rfl rfl hm

end

/-- Settles O31: four rows begin the change of a key slot, three come to one change of the site configuration, and
KEY_ROBOT_EXPORT and ATTEST_GET answer. -/
theorem keyCommandsTakeEffect : Obligations.KeyCommandsTakeEffect := by
  unfold Obligations.KeyCommandsTakeEffect
  refine ⟨fun r s hl hlen hz hsrc hkey hr hm hnone hc =>
      congrArg Host.Outcome.next (opKeySiteInstall_given hl hr hlen hz hm hnone hc hsrc hkey),
    fun r s hl hlen hz hsrc hkey hr hm hnone hc =>
      ⟨_, _, rfl, congrArg Host.Outcome.next (opKeySiteInstall_drawn hl hr hlen hz hm hnone hc hsrc hkey)⟩,
    fun r s hl hlen hz hr hm hi hv hconfirm hc =>
      congrArg Host.Outcome.next (opKeyDestroy_destroys hl hr hm hlen hz hi hv hconfirm hc),
    fun r s hl hlen hz hr hm hi hc => congrArg Host.Outcome.next (opKeyAnchorSet_installs hl hr hm hlen hz hi hc),
    fun r s i hl hlen hz hr hm hn hi hfree hc =>
      congrArg Host.Outcome.next (opKeyLinkSet_installs hl hr hm hlen hz hn hi hfree hc),
    beginChange_effect,
    fun r s hl hlen hr hport hm hkey => ends_of_finish (c := .keyRobotExport r)
      (congrArg Host.Outcome.next (opKeyRobotExport_answers hl hr hm hlen hport hkey)) rfl ((live_answerable hl).congr rfl),
    fun r s hl hc hlen hwhat hz hr hm hsome hroll hsite => ?roll,
    fun r s hl hc hlen hz hn hr hm hok hclear => ?config, fun r s hl hc hlen hr hm hkey hlatched hidle => ?clear,
    fun r s hl hlen hz hm => ends_of_finish (c := .attestGet r)
      (congrArg Host.Outcome.next (opAttestGet_answers hl hlen hm hz)) rfl ((live_answerable hl).congr rfl),
    fun r s hl hlen hz hm hroom => congrArg Host.Outcome.next (opAttestGet_waits hl hlen hm hz hroom)⟩
  case roll =>
    have hfog : mramFog s = false := mramFog_of_inModes hm rfl
    rw [commit_eq (s := takeLatched s r) _ _ hfog]
    exact ends_of_siteChange (c := .keyRoll r)
      (congrArg Host.Outcome.next (opKeyRoll_changes hl hr hlen hwhat hz hm hsome hroll hsite)) hl hc
      (fun _ => congrArg Edtor.sessions (queueKeyMessages_edtor ..)) hfog
  case config =>
    have hfog : mramFog s = false := mramFog_of_inModes hm rfl
    rw [commit_eq (s := takeLatched s r) _ _ hfog]
    exact ends_of_siteChange (c := .keyTamperConfig r)
      (congrArg Host.Outcome.next (opKeyTamperConfig_changes hl hr hlen hz hn hm hok hclear)) hl hc (fun _ => rfl) hfog
  case clear =>
    have hfog : mramFog s = false := mramFog_of_inModes hm rfl
    rw [commit_eq (s := takeLatched s r) _ _ hfog]
    exact ends_of_siteChange (c := .keyTamperClear r)
      (congrArg Host.Outcome.next (opKeyTamperClear_changes hl hr hm hlen hkey hlatched hidle)) hl hc (fun _ => rfl) hfog

end Sys2Proof.Machine
end

section
/-! PROOFS. The UPD opcodes. -/

namespace Sys2Proof.Machine

open Sys2Proof

/-! ### What the update's parts leave of the sessions -/

theorem modSlot_edtor (s : State) (b : Bool) (f : ImageSlot → ImageSlot) : (modSlot s b f).edtor = s.edtor := by
  cases b <;> rfl

theorem discardReady_edtor (s : State) : (discardReady s).edtor = s.edtor := by
  unfold discardReady
  split
  · exact modSlot_edtor ..
  · rfl

theorem stopFinish_edtor (s : State) : (stopFinish s).edtor = s.edtor := by
  unfold stopFinish
  extract_lets u
  split
  · exact modSlot_edtor ..
  · rfl

/-! ### UPD_BEGIN and UPD_DATA (R526, R527) -/

/-- A download begun: a READY package is discarded and nothing has been received. -/
def beginDownload (r : Request) (s : State) : State :=
  { setUpdBy (discardReady (cacheKey s 287 1)) r 1 1 with
    upd.pkgId := slice r.payload 0 16
    upd.len := fld r.payload 16 8
    upd.capsule := slice r.payload 24 88
    upd.blocks := []
    upd.staged := false
    upd.blocksEver := pkgBlocks (fld r.payload 16 8) }

/-- A download resumed with the capsule of its command. -/
def resumeDownload (r : Request) (s : State) : State := { cacheKey s 287 1 with upd.capsule := slice r.payload 24 88 }

/-- The download of an UPD_BEGIN, resumed or begun. -/
def takeDownload (resume : Bool) (r : Request) (s : State) : State :=
  if resume then resumeDownload r s else beginDownload r s

theorem takeDownload_edtor (resume : Bool) (r : Request) (s : State) : (takeDownload resume r s).edtor = s.edtor := by
  cases resume
  · exact discardReady_edtor _
  · rfl

/-- What UPD_BEGIN answers: the blocks of the package and those not yet received. -/
def beginReply (r : Request) (s : State) : Bytes := le 4 (pkgBlocks (fld r.payload 16 8)) ++ le 4 (blocksLeft s)

/-- The download that an UPD_BEGIN asks for is the one being received. -/
def resumes (s : State) (r : Request) : Bool := s.upd.state == 1 && s.upd.pkgId == slice r.payload 0 16

section
variable {r : Request} {s : State} (hl : live s r = true) (hr : svcOk s r = true)
include hl hr

section
variable (hlen : r.payload.length = 120) (hz : (zeros r.payload 60 4 && zeros r.payload 112 8) = true)
  (hm : inModes s mDownload = true)
  (hsize : (decide (1 ≤ fld r.payload 16 8) && decide (fld r.payload 16 8 ≤ 67100672)
    && (!resumes s r || fld r.payload 16 8 == s.upd.len)) = true)
  (hfree : (resumes s r || s.upd.state == 0 || s.upd.state == 3) = true)
include hlen hz hm hsize hfree

/-- An UPD_BEGIN of a package whose turn it is comes to the check of its capsule. -/
theorem opUpdBegin_checks :
    opUpdBegin r s
      = need (capsuleGood (takeLatched s r) (slice r.payload 0 16) (slice r.payload 24 88)) (takeLatched s r) r stImageInvalid
        fun u => change1 u r siteObj (takeDownload (resumes s r) r) (beginReply r) := by
  rw [opUpdBegin, runOp_passes _ hl (beq_iff_eq.mpr hlen) hz hr hm]
  exact (need_passes (s := takeLatched s r) _ hsize).trans (need_passes (s := takeLatched s r) _ hfree)

theorem ends_updBegin (hc : csnHolds s r [siteObj] = true) :
    if capsuleGood (takeLatched s r) (slice r.payload 0 16) (slice r.payload 24 88) then
      let t := takeDownload (resumes s r) r (committed (takeLatched s r) [siteObj])
      Ends (.updBegin r) r s t stOk (beginReply r t)
    else Ends (.updBegin r) r s (takeLatched s r) stImageInvalid [] := by
  have hfog : mramFog s = false := mramFog_of_inModes hm rfl
  have h := opUpdBegin_checks hl hr hlen hz hm hsize hfree
  split
  · next hgood =>
    exact ends_of_siteChange (c := .updBegin r) (congrArg Host.Outcome.next (h.trans (need_passes _ hgood))) hl hc
      (fun u => congrArg Edtor.sessions (takeDownload_edtor ..)) hfog
  · next hbad =>
    exact ends_of_finish (c := .updBegin r) (congrArg Host.Outcome.next (h.trans (if_neg hbad))) rfl
      ((live_answerable hl).congr rfl)

end

section
variable (hm : inModes s mDownload = true)
include hm

theorem opUpdData_stores (hlen : 8 ≤ r.payload.length ∧ r.payload.length = 8 + fld r.payload 4 2)
    (hz : zeros r.payload 6 2 = true) (hstate : s.upd.state = 1) (hi : fld r.payload 0 4 < s.upd.blocksEver)
    (hblock : fld r.payload 4 2 = blockLen s (fld r.payload 0 4)) :
    opUpdData r s
      = let t : State := { takeLatched s r with upd.blocks := tput s.upd.blocks (fld r.payload 0 4) (r.payload.drop 8) }
        finish t r stOk (le 4 (blocksLeft t)) := by
  have hlen' : (decide (8 ≤ r.payload.length) && r.payload.length == 8 + fld r.payload 4 2) = true := by
    rw [decide_eq_true hlen.1, beq_iff_eq.mpr hlen.2]
    rfl
  have hok : (s.upd.state != 1
      || (decide (fld r.payload 0 4 < s.upd.blocksEver) && fld r.payload 4 2 == blockLen s (fld r.payload 0 4))) = true := by
    rw [decide_eq_true hi, beq_iff_eq.mpr hblock]
    exact Bool.or_true _
  rw [opUpdData, runOp_passes _ hl hlen' hz hr hm]
  exact (need_passes (s := takeLatched s r) _ hok).trans (need_passes (s := takeLatched s r) _ (beq_iff_eq.mpr hstate))

/-! ### UPD_FINISH and UPD_ABORT (R528, R529) -/

theorem opUpdFinish_accepts (hempty : r.payload = []) (hstate : s.upd.state = 1) (hleft : blocksLeft s = 0)
    (hidle : s.upd.finish.isNone = true) (hc : csnHolds s r [siteObj] = true) :
    opUpdFinish r s = accept { takeLatched s r with
      upd.finish := some (fcNow s + verifyFcs s.upd.len, fcNow s + verifyFcs s.upd.len + writeFcs s.upd.len, r) } r 1 [] := by
  have hok : (s.upd.state == 1 && blocksLeft s == 0 && s.upd.finish.isNone) = true := by simp [hstate, hleft, hidle]
  rw [opUpdFinish, runOp_passes _ hl (by rw [hempty]; rfl) rfl hr hm]
  exact (need_passes (s := takeLatched s r) _ hok).trans (checkCsn_passes (s := takeLatched s r) _ hc)

theorem opUpdAbort_stopsDownload (hempty : r.payload = []) (hstate : s.upd.state = 1) (hidle : s.upd.finish.isNone = true)
    (hnone : s.upd.act.isNone = true) (hc : csnHolds s r [siteObj] = true) :
    opUpdAbort r s = finish (setUpdBy (commit (stopFinish (takeLatched s r)) okSite 0) r 0 1) r stOk [] := by
  have hstate' : (takeLatched s r).upd.state = 1 := hstate
  have hfinish : (takeLatched s r).upd.finish = none := Option.isNone_iff_eq_none.mp hidle
  have hact : (takeLatched s r).upd.act = none := Option.isNone_iff_eq_none.mp hnone
  rw [opUpdAbort, runOp_passes _ hl (by rw [hempty]; rfl) rfl hr hm]
  refine (need_passes (s := takeLatched s r) _ (by simp [hstate])).trans
    ((need_passes (s := takeLatched s r) _ (by simp [hstate])).trans ((checkCsn_passes (s := takeLatched s r) _ hc).trans ?_))
  simp only [hstate', hfinish, hact]
  rfl

theorem opUpdAbort_withdraws {x : Activation} (hempty : r.payload = []) (hstate : s.upd.state = 4)
    (hsoon : fcNow s + 1 < actFc s) (hidle : s.upd.finish.isNone = true) (hact : s.upd.act = some x)
    (hc : csnHolds s r [siteObj] = true) :
    opUpdAbort r s = finish
      (setUpdBy (commit (finishI { takeLatched s r with upd.act := none } x.req intNone stInterrupted []) okSite 0) r 3 0x0A)
      r stOk [] := by
  have hstate' : (takeLatched s r).upd.state = 4 := hstate
  have hfinish : (takeLatched s r).upd.finish = none := Option.isNone_iff_eq_none.mp hidle
  have hact' : (takeLatched s r).upd.act = some x := hact
  have hsoon' : ¬actFc (takeLatched s r) ≤ fcNow (takeLatched s r) + 1 := Nat.not_le.mpr hsoon
  rw [opUpdAbort, runOp_passes _ hl (by rw [hempty]; rfl) rfl hr hm]
  refine (need_passes (s := takeLatched s r) _ (by simp [hstate, hsoon'])).trans
    ((need_passes (s := takeLatched s r) _ (by simp [hstate])).trans ((checkCsn_passes (s := takeLatched s r) _ hc).trans ?_))
  simp only [hstate', hfinish, hact']
  rfl

end

/-! ### UPD_ACTIVATE, UPD_ACTIVATE_AT, UPD_REVERT and UPD_CONFIRM (R530, R532) -/

omit hl hr in
/-- A schedule whose CSN holds is committed and accepted with its FC. -/
theorem schedule_accepts (v : Activation) (hc : csnHolds s r [siteObj] = true) :
    schedule r v s = accept (setUpdBy { commit s okSite 0 with upd.act := some { v with last := (commit s okSite 0).com.csn } }
      r 4 1) r (if v.restart then 2 else 3) (le 8 v.a) :=
  checkCsn_passes _ hc

section
variable (hm : inModes s mUpd = true)
include hm

theorem opUpdActivate_schedules (hempty : r.payload = []) (hstate : s.upd.state = 3) :
    opUpdActivate r s = schedule r
      { a := nextActFc (fcNow s), n := fcNow s, restart := bit (otherSlot s).pkg.pflags 0,
        target := !s.flash.active, req := r } (takeLatched s r) := by
  rw [opUpdActivate, runOp_passes _ hl (by rw [hempty]; rfl) rfl hr hm]
  exact need_passes (s := takeLatched s r) _ (beq_iff_eq.mpr hstate)

theorem opUpdRevert_schedules (hempty : r.payload = []) (hstate : s.upd.state = 7) (hother : (otherSlot s).state = 3) :
    opUpdRevert r s = schedule r
      { a := nextActFc (fcNow s), n := fcNow s, restart := bit (activeSlot s).pkg.pflags 0,
        revert := true, target := !s.flash.active, req := r } (takeLatched s r) := by
  have hnot : (s.upd.state != 6) = true := by rw [hstate]; rfl
  have hok : (s.upd.state == 7 && (otherSlot s).state == 3) = true := by rw [hstate, hother]; rfl
  rw [opUpdRevert, runOp_passes _ hl (by rw [hempty]; rfl) rfl hr hm]
  exact (need_passes (s := takeLatched s r) _ hnot).trans (need_passes (s := takeLatched s r) _ hok)

theorem opUpdActivateAt_schedules (hlen : r.payload.length = 16)
    (hz : (decide (fld r.payload 10 1 < 2) && zeros r.payload 11 1 && decide (fld r.payload 12 2 < 1024)
      && zeros r.payload 14 2) = true)
    (hwhole : fullOf r.payload 0 % ftuPerSec = 0) (hmax : fcOfTime (fullOf r.payload 0) ≤ fcNow s + 259200000)
    (hstate : s.upd.state = 3) (hheads : (maskLinks (fld r.payload 12 2)).all (headReady s) = true)
    (hmin : fcNow s + 200 ≤ fcOfTime (fullOf r.payload 0)) :
    opUpdActivateAt r s = schedule r
      { a := fcOfTime (fullOf r.payload 0), n := fcNow s,
        restart := bit (otherSlot s).pkg.pflags 0, requireLocked := bit (fld r.payload 10 1) 0,
        linkMask := fld r.payload 12 2, target := !s.flash.active, req := r } (takeLatched s r) := by
  have hrange : (fullOf r.payload 0 % ftuPerSec == 0 && decide (fcOfTime (fullOf r.payload 0) ≤ fcNow s + 259200000)) = true := by
    rw [hwhole, decide_eq_true hmax]
    rfl
  have hready : (s.upd.state == 3 && (maskLinks (fld r.payload 12 2)).all (headReady s)) = true := by
    rw [hstate, hheads]
    rfl
  rw [opUpdActivateAt, runOp_passes _ hl (beq_iff_eq.mpr hlen) hz hr hm]
  exact (need_passes (s := takeLatched s r) _ hrange).trans ((need_passes (s := takeLatched s r) _ hready).trans
    (need_passes (s := takeLatched s r) _ (decide_eq_true hmin)))

/-- The running image confirmed: its slot is CURRENT, and both headers carry its rollback floor. -/
def confirmImage (r : Request) (s : State) : State :=
  let floor := (activeSlot s).pkg.rollback
  let u := modSlot s s.flash.active fun x => { x with state := 3, floor := floor }
  let u := setUpdBy (modSlot u (!s.flash.active) fun x => { x with floor := floor }) r 0 8
  { u with
    p.upd.dual := false
    p.upd.oldFormat := none
    upd.safNew := 0 }

omit hl hr hm in
theorem confirmImage_edtor (r : Request) (s : State) : (confirmImage r s).edtor = s.edtor :=
  (modSlot_edtor ..).trans (modSlot_edtor ..)

omit hl hr hm in
theorem modSlot_active (s : State) (b : Bool) (f : ImageSlot → ImageSlot) : (modSlot s b f).flash.active = s.flash.active := by
  cases b <;> rfl

theorem opUpdConfirm_changes (hempty : r.payload = []) (hstate : s.upd.state = 7) (hsaf : s.upd.safFailed = false) :
    opUpdConfirm r s = change1 (takeLatched s r) r siteObj (confirmImage r) fun _ => [] := by
  have hok : (s.upd.state == 7 && !s.upd.safFailed) = true := by rw [hstate, hsaf]; rfl
  rw [opUpdConfirm, runOp_passes _ hl (by rw [hempty]; rfl) rfl hr hm]
  refine (need_passes (s := takeLatched s r) _ hok).trans ?_
  refine congrArg (fun f => change1 (takeLatched s r) r siteObj f fun _ => []) (funext fun u => ?_)
  simp only [modSlot_active]
  rfl

end

end

/-- Settles O32: UPD_BEGIN by `ends_updBegin` for a download begun and one resumed, three rows by `schedule_accepts`, the rest by
their answers. -/
theorem updateCommandsTakeEffect : Obligations.UpdateCommandsTakeEffect := by
  unfold Obligations.UpdateCommandsTakeEffect
  refine ⟨fun r s hl hlen hz hz' hr hm hsize hstate hc => ?begin,
    fun r s hl hlen hz hz' hr hm hsize hstate hid hlen' hc => ?resume,
    fun r s hl hlen hz hr hm hstate hi hblock => ends_of_finish (c := .updData r)
      (congrArg Host.Outcome.next (opUpdData_stores hl hr hm hlen hz hstate hi hblock)) rfl ((live_answerable hl).congr rfl),
    fun r s hl hempty hr hm hstate hleft hidle hc => goesOn_of_accept (c := .updFinish r)
      (congrArg Host.Outcome.next (opUpdFinish_accepts hl hr hm hempty hstate hleft hidle hc)) ((live_answerable hl).congr rfl),
    fun r s hl hempty hr hm hstate hidle hnone hc => ?abort, fun r s x hl hempty hr hm hstate hsoon hidle hact hc => ?withdraw,
    fun r s hl hempty hr hm hstate hc => congrArg Host.Outcome.next
      ((opUpdActivate_schedules hl hr hm hempty hstate).trans (schedule_accepts (s := takeLatched s r) _ hc)),
    fun r s hl hempty hr hm hstate hother hc => congrArg Host.Outcome.next
      ((opUpdRevert_schedules hl hr hm hempty hstate hother).trans (schedule_accepts (s := takeLatched s r) _ hc)),
    fun r s hl hlen hz hr hm hwhole hmax hstate hheads hmin hc => congrArg Host.Outcome.next
      ((opUpdActivateAt_schedules hl hr hm hlen hz hwhole hmax hstate hheads hmin).trans
        (schedule_accepts (s := takeLatched s r) _ hc)),
    fun r s hl hc hempty hr hm hstate hsaf => ?confirm⟩
  case begin =>
    have hfog : mramFog s = false := mramFog_of_inModes hm rfl
    have hnew : resumes s r = false := by
      unfold resumes
      rcases hstate with h | h <;> rw [h] <;> rfl
    have h := ends_updBegin hl hr hlen (by rw [hz, hz']; rfl) hm (by simp [hsize, hnew]) (by simpa [hnew] using hstate) hc
    rw [commit_eq (s := takeLatched s r) _ _ hfog]
    rw [hnew] at h
    exact h
  case resume =>
    have hfog : mramFog s = false := mramFog_of_inModes hm rfl
    have hsame : resumes s r = true := by simp [resumes, hstate, hid]
    have h := ends_updBegin hl hr hlen (by rw [hz, hz']; rfl) hm (by simp [hsize, hlen']) (by simp [hsame]) hc
    rw [commit_eq (s := takeLatched s r) _ _ hfog]
    rw [hsame] at h
    exact h
  case abort =>
    refine ends_of_finish (c := .updAbort r)
      (congrArg Host.Outcome.next (opUpdAbort_stopsDownload hl hr hm hempty hstate hidle hnone hc)) rfl
      (((live_answerable hl).congr (t := takeLatched s r) rfl).congr (congrArg Edtor.sessions ?_))
    exact (commit_edtor ..).trans (stopFinish_edtor _)
  case withdraw =>
    refine ends_of_finish (c := .updAbort r)
      (congrArg Host.Outcome.next (opUpdAbort_withdraws hl hr hm hempty hstate hsoon hidle hact hc)) rfl
      (((live_answerable hl).congr (t := takeLatched s r) rfl).congr (congrArg Edtor.sessions ?_))
    exact (commit_edtor ..).trans (finish_edtor (status := stInterrupted) rfl)
  case confirm =>
    have hfog : mramFog s = false := mramFog_of_inModes hm rfl
    rw [commit_eq (s := takeLatched s r) _ _ hfog]
    exact ends_of_siteChange (c := .updConfirm r)
      (congrArg Host.Outcome.next (opUpdConfirm_changes hl hr hm hempty hstate hsaf)) hl hc
      (fun u => congrArg Edtor.sessions (confirmImage_edtor r u)) hfog

end Sys2Proof.Machine
end

section
/-! PROOFS. The events of an update and of its activation, and the ends of the self-tests. -/

namespace Sys2Proof.Machine

open Sys2Proof

/-! ### The image slots -/

theorem modSlot_frame (s : State) (b : Bool) (f : ImageSlot → ImageSlot) :
    modSlot s b f = { s with flash := (modSlot s b f).flash } := by
  cases b <;> rfl

theorem imageSlot_congr {s t : State} (h : t.flash = s.flash) (b : Bool) : imageSlot t b = imageSlot s b := by
  simp only [imageSlot, h]

theorem imageSlot_modSlot_same (s : State) (b : Bool) (f : ImageSlot → ImageSlot) :
    imageSlot (modSlot s b f) b = { f (imageSlot s b) with hdrCount := (imageSlot s b).hdrCount + 1 } := by
  cases b <;> rfl

theorem imageSlot_modSlot_not (s : State) (b : Bool) (f : ImageSlot → ImageSlot) :
    imageSlot (modSlot s b f) (!b) = imageSlot s (!b) := by
  cases b <;> rfl

/-! ### What the end of a command leaves of the update -/

theorem finish_cores (s : State) (r : Request) (status : Nat) (payload : Bytes) : (finish s r status payload).cores = s.cores :=
  (congrArg State.cores (finish_frame s r status payload) :)

theorem refuseMode_site (s : State) (r : Request) : site (refuseMode s r) = site s := by
  rw [refuseMode, queueReply_site, record_site]

/-! ### UPD_FINISH_DONE (R529) -/

/-- The verification is over. -/
def verificationOver (s : State) : State := { s with upd.finish := none, upd.verified := none, com.cmdCommits := 0 }

/-- The other slot written with the package in staging, by one commit. -/
def writePackage (r : Request) (s : State) : State :=
  setUpdBy (commit { modSlot s (!s.flash.active) (writtenSlot s) with upd.staged := true, upd.blocks := [] } okSite 0) r 3 3

theorem opUpdFinishDone_due {s : State} {r : Request} {d e st : Nat} (hr : running s = true)
    (hf : s.upd.finish = some (d, e, r)) (hv : s.upd.verified = some st) (he : e ≤ fcNow s) :
    opUpdFinishDone s = if st != stOk then finish (verificationOver s) r st [] else
      finish (writePackage r (verificationOver s)) r stOk (finishReply (writePackage r (verificationOver s))) := by
  unfold opUpdFinishDone
  simp only [hf, hv]
  exact if_neg (by simp [hr, he])

theorem writePackage_effect {s : State} (r : Request) (hfog : mramFog s = false) :
    let t := writePackage r s
    t.upd.finish = s.upd.finish ∧ t.upd.verified = s.upd.verified ∧ t.upd.staged = true ∧ t.upd.blocks = [] ∧ t.upd.state = 3
      ∧ t.com.csn = s.com.nextCsn ∧ t.flash = (modSlot s (!s.flash.active) (writtenSlot s)).flash := by
  have hfog' : mramFog { modSlot s (!s.flash.active) (writtenSlot s) with upd.staged := true, upd.blocks := [] } = false := by
    rw [modSlot_frame]
    exact hfog
  rw [writePackage, commit_eq _ _ hfog', modSlot_frame]
  exact ⟨rfl, rfl, rfl, rfl, rfl, rfl, rfl⟩

/-- A package that verified stands WRITTEN in the slot that does not run, which makes one commit. -/
theorem opUpdFinishDone_verified {s : State} {r : Request} {d e : Nat} (hr : running s = true)
    (hf : s.upd.finish = some (d, e, r)) (hv : s.upd.verified = some stOk) (he : e ≤ fcNow s) (hfog : mramFog s = false) :
    let t := opUpdFinishDone s
    t.upd.finish = none ∧ t.upd.verified = none ∧ t.upd.staged = true ∧ t.upd.blocks = [] ∧ t.upd.state = 3
      ∧ t.com.csn = s.com.nextCsn ∧ (imageSlot t (!s.flash.active)).state = 1
      ∧ imageSlot t s.flash.active = imageSlot s s.flash.active ∧ t.flash.active = s.flash.active := by
  obtain ⟨hfin, hver, hstaged, hblocks, hstate, hcsn, hflash⟩ := writePackage_effect (s := verificationOver s) r hfog
  obtain ⟨-, -, hflash', hcsn', -, -, -, -, -, -, -, hupd⟩ := parts_of_site (finish_site
    (writePackage r (verificationOver s)) r stOk (finishReply (writePackage r (verificationOver s))))
  have hslots := imageSlot_congr (hflash'.trans hflash)
  intro t
  rw [show t = _ from opUpdFinishDone_due hr hf hv he, if_neg (by decide), hupd, hcsn', hslots, hslots]
  refine ⟨hfin, hver, hstaged, hblocks, hstate, hcsn, ?_, ?_, ?_⟩
  · exact congrArg ImageSlot.state (imageSlot_modSlot_same ..)
  · have hother := imageSlot_modSlot_not (verificationOver s) (!s.flash.active) (writtenSlot (verificationOver s))
    rw [Bool.not_not] at hother
    exact hother
  · exact (congrArg Flash.active (hflash'.trans hflash)).trans (modSlot_active ..)

/-- A package that did not verify leaves the slots and MRAM, and makes no commit. -/
theorem opUpdFinishDone_failed {s : State} {r : Request} {d e st : Nat} (hr : running s = true)
    (hf : s.upd.finish = some (d, e, r)) (hv : s.upd.verified = some st) (hst : st ≠ stOk) (he : e ≤ fcNow s) :
    let t := opUpdFinishDone s
    t.upd.finish = none ∧ t.upd.verified = none ∧ t.com.csn = s.com.csn ∧ t.flash = s.flash ∧ t.p = s.p := by
  obtain ⟨hp, -, hflash, hcsn, -, -, -, -, -, -, -, hupd⟩ := parts_of_site (finish_site (verificationOver s) r st [])
  intro t
  rw [show t = _ from opUpdFinishDone_due hr hf hv he, if_pos (bne_iff_ne.mpr hst)]
  exact ⟨congrArg Upd.finish hupd, congrArg Upd.verified hupd, hcsn, hflash, hp⟩

/-! ### ANCHOR_ACTIVATE_SEND (R522) -/

theorem mem_maskLinks {m k : Nat} : k ∈ maskLinks m ↔ k < 10 ∧ bit m k = true := by
  rw [maskLinks, List.mem_filter, links, List.mem_range]

theorem maskLinks_nodup (m : Nat) : (maskLinks m).Nodup := List.nodup_range.filter _

/-- The head of one link told the image and the instant. -/
def activateHead (id t : Nat) (s : State) (l : Nat) : State :=
  modAnchor (sendDownNow s l 0x04 (relayCtrl (anchorAt s l) 2 id 0 (some (counterOf s t)))) l fun a =>
    { a with relay := none, activate := some (id, t) }

theorem anchorAt_activateHead_other (id t : Nat) (s : State) {l k : Nat} (h : k ≠ l) :
    anchorAt (activateHead id t s l) k = anchorAt s k :=
  (anchorAt_modAnchor_other _ _ h).trans (anchorAt_sendDown_other s _ _ h)

theorem anchorAt_activateHeads_other (id t m : Nat) (s : State) {k : Nat} (h : k ∉ maskLinks m) :
    anchorAt (activateHeads s m id t) k = anchorAt s k :=
  anchorAt_foldl_other (f := activateHead id t) (fun u _ _ => anchorAt_activateHead_other id t u) _ s h

theorem anchorAt_activateHeads_mem (id t m : Nat) (s : State) {k : Nat} (h : k ∈ maskLinks m) :
    (anchorAt (activateHeads s m id t) k).activate = some (id, t) ∧ (anchorAt (activateHeads s m id t) k).relay = none := by
  obtain ⟨u, -, -, hdone⟩ := anchorAt_foldl_mem (f := activateHead id t) (fun u _ _ => anchorAt_activateHead_other id t u)
    (π := fun _ => ()) (fun _ _ => rfl) (maskLinks_nodup m) h s
  have hat : anchorAt (activateHeads s m id t) k = _ := hdone.trans (anchorAt_modAnchor_same _ k _)
  exact ⟨congrArg AnchorLive.activate hat, congrArg AnchorLive.relay hat⟩

/-- What the heads' activation leaves: the image slots, the update and the commits. -/
def activationKept (s : State) : Flash × Upd × Commits := (s.flash, s.upd, s.com)

theorem activateHeads_kept (s : State) (m id t : Nat) : activationKept (activateHeads s m id t) = activationKept s :=
  foldl_keeps activationKept (activateHead id t) _ s fun _ _ => rfl

/-- The head of a link told its image and the instant, where the package has an image for it. -/
def activateNamed (v : Activation) (s : State) (l : Nat) : State :=
  match anchorImage s l with
  | some id => activateHeads s (2 ^ l) id (v.a * ftuPerFc)
  | none => s

theorem activateNamed_other (v : Activation) (s : State) {l k : Nat} (h : k ≠ l) :
    anchorAt (activateNamed v s l) k = anchorAt s k := by
  unfold activateNamed
  split
  · refine anchorAt_activateHeads_other _ _ _ s fun hk => h ?_
    have hbit : (2 ^ l).testBit k = true := (mem_maskLinks.mp hk).2
    rw [Nat.testBit_two_pow] at hbit
    exact (of_decide_eq_true hbit).symm
  · rfl

theorem activateNamed_kept (v : Activation) (s : State) (l : Nat) : activationKept (activateNamed v s l) = activationKept s := by
  unfold activateNamed
  split
  · exact activateHeads_kept ..
  · rfl

theorem activateNamed_same {v : Activation} {s : State} {l id : Nat} (hl : l < 10) (h : anchorImage s l = some id) :
    (anchorAt (activateNamed v s l) l).activate = some (id, v.a * ftuPerFc)
      ∧ (anchorAt (activateNamed v s l) l).relay = none := by
  have hmem : l ∈ maskLinks (2 ^ l) := mem_maskLinks.mpr ⟨hl, Nat.testBit_two_pow_self⟩
  simp only [activateNamed, h]
  exact anchorAt_activateHeads_mem _ _ _ s hmem

theorem anchorImage_congr {s t : State} {l : Nat} (hf : t.flash = s.flash) (ha : anchorAt t l = anchorAt s l) :
    anchorImage t l = anchorImage s l := by
  simp only [anchorImage, imageSlot, hf, ha]

/-- Each head named is told its image and the instant; no other link is touched. -/
theorem activateNamed_fold (v : Activation) (s : State) :
    let t := (maskLinks v.linkMask).foldl (activateNamed v) s
    (∀ l id, l < 10 → bit v.linkMask l = true → anchorImage s l = some id →
        (anchorAt t l).activate = some (id, v.a * ftuPerFc) ∧ (anchorAt t l).relay = none)
      ∧ (∀ l, bit v.linkMask l = false → anchorAt t l = anchorAt s l) ∧ t.upd = s.upd ∧ t.com = s.com := by
  intro t
  have hkept : activationKept t = activationKept s := foldl_keeps _ _ _ s fun u l => activateNamed_kept v u l
  refine ⟨fun l id hl hb hid => ?_, fun l hb => ?_, congrArg (·.2.1) hkept, congrArg (·.2.2) hkept⟩
  · obtain ⟨u, hu, hanchor, hdone⟩ := anchorAt_foldl_mem (fun u _ _ => activateNamed_other v u) (activateNamed_kept v)
      (maskLinks_nodup v.linkMask) (mem_maskLinks.mpr ⟨hl, hb⟩) s
    rw [show anchorAt t l = _ from hdone]
    exact activateNamed_same hl ((anchorImage_congr (congrArg Prod.fst hu) hanchor).trans hid)
  · exact anchorAt_foldl_other (fun u _ _ => activateNamed_other v u) _ s fun hmem =>
      Bool.false_ne_true (hb.symm.trans (mem_maskLinks.mp hmem).2)

section
variable {s : State} {v : Activation} (hr : running s = true) (hact : s.upd.act = some v)
include hr hact

theorem opAnchorActivateSend_due (hstate : s.upd.state = 4) (ha : fcNow s + 100 = v.a) :
    opAnchorActivateSend s = (maskLinks v.linkMask).foldl (activateNamed v) s := by
  unfold opAnchorActivateSend
  simp only [hact]
  exact if_neg (by simp [hr, hstate, ha])

/-! ### ACTIVATION_CHECK (R516, R519) -/

/-- How the check of an activation ends: with the first condition that fails, with the object another has changed, or passed. -/
def endCheck (v : Activation) (s : State) : Option Nat → Option (Nat × Nat) → State
  | some st, _ =>
    let t := setUpd { s with upd.act := none } 3 0x0A
    if st = stBadMode then refuseMode t v.req else finish t v.req st []
  | none, some o => finishI (setUpd { s with upd.act := none } 3 0x0A) v.req intCsn stCsnMismatch (mismatchPayload s o)
  | none, none => checkPassed s v

theorem opActivationCheck_due {ok : Bool} (hstate : s.upd.state = 4) (ha : v.a ≤ fcNow s + 1) (hp : v.passed = false)
    (hw : s.clk.window = .solve) :
    opActivationCheck ok s = endCheck v { s with com.cmdCommits := 0 } (checkFails { s with com.cmdCommits := 0 } v ok)
      (siteChanged { s with com.cmdCommits := 0 } v) := by
  unfold opActivationCheck
  simp only [hact]
  refine (if_neg (by simp [hr, hstate, ha, hp, hw])).trans ?_
  unfold endCheck
  rfl

omit hr hact in
/-- A check that passes makes one commit; a restart is due, or the mode machine is told of the activation. -/
theorem checkPassed_effect (v : Activation) (hfog : mramFog s = false) :
    let t := checkPassed s v
    (∃ w, t.upd.act = some w ∧ w.passed = true ∧ w.a = v.a ∧ w.target = v.target) ∧ t.com.csn = s.com.nextCsn
      ∧ t.upd.state = s.upd.state
      ∧ (v.restart = true → t.mode.resetAt = some 6 ∧ t.mode.triggers = s.mode.triggers)
      ∧ (v.restart = false → t.mode.triggers = s.mode.triggers ++ [.activation] ∧ t.mode.resetAt = s.mode.resetAt) := by
  unfold checkPassed
  rw [commit_eq _ _ hfog]
  cases v.restart
  · exact ⟨⟨_, rfl, rfl, rfl, rfl⟩, rfl, rfl, fun h => (nomatch h), fun _ => ⟨rfl, rfl⟩⟩
  · exact ⟨⟨_, rfl, rfl, rfl, rfl⟩, rfl, rfl, fun _ => ⟨rfl, rfl⟩, fun h => (nomatch h)⟩

omit hr hact in
/-- A check that fails withdraws the activation and makes no commit. -/
theorem endCheck_failed (v : Activation) (s : State) (st : Nat) (o : Option (Nat × Nat)) :
    let t := endCheck v s (some st) o
    t.upd.act = none ∧ t.upd.state = 3 ∧ t.com.csn = s.com.csn ∧ t.flash = s.flash ∧ t.mode.resetAt = s.mode.resetAt
      ∧ t.p = s.p := by
  have hsite : site (endCheck v s (some st) o) = site (setUpd { s with upd.act := none } 3 0x0A) := by
    unfold endCheck
    dsimp only
    split
    · exact refuseMode_site ..
    · exact finish_site ..
  obtain ⟨hp, -, hflash, hcsn, -, hmode, -, -, -, -, -, hupd⟩ := parts_of_site hsite
  exact ⟨congrArg Upd.act hupd, congrArg Upd.state hupd, hcsn, hflash, congrArg ModeState.resetAt hmode, hp⟩

/-! ### ACTIVATION, FLT_IMAGE_HANDOVER and FREEZE_END (R517) -/

omit hr hact in
/-- Counting the reloads of cores touches the diagnostics in MRAM alone. -/
theorem countReloads_frame (cores : List Nat) (s : State) :
    cores.foldl countReload s = { s with p := (cores.foldl countReload s).p } := by
  induction cores generalizing s with
  | nil => rfl
  | cons core cores ih => exact ih (countReload s core)

theorem opActivation_effect (hstate : s.upd.state = 4) (hp : v.passed = true) (ha : fcNow s = v.a) :
    let t := opActivation s
    t.upd.state = 5 ∧ t.cores.standbyReady = false ∧ t.cores.active = s.cores.active ∧ t.flash = s.flash
      ∧ t.cores.reload = s.cores.reload ++ [(5, v.a + 12), (6, v.a + 5), (7, v.a + 20), (4 - s.cores.active, v.a + 9)]
      ∧ t.com.csn = s.com.csn := by
  unfold opActivation
  simp only [hact]
  rw [if_neg (by simp [hr, hstate, hp, ha]), countReloads_frame]
  exact ⟨rfl, rfl, rfl, rfl, rfl, rfl⟩

theorem opFltImageHandover_effect (hstate : s.upd.state = 5) (hc : v.c.isNone = true)
    (ha : v.a + 9 ≤ fcNow s ∧ fcNow s ≤ v.a + 14) (hw : s.clk.window = .guard) :
    let t := opFltImageHandover s
    t.flash.active = v.target ∧ t.cores.active = 1 - s.cores.active ∧ t.cores.resultsFrom = 1 - s.cores.active
      ∧ t.upd.act = some { v with c := some (fcNow s) } ∧ t.upd.pkgId = (imageSlot s v.target).pkg.pkgId
      ∧ t.p.keys = s.p.keys := by
  have hnone : v.c.isSome = false := by simpa using hc
  unfold opFltImageHandover
  simp only [hact]
  rw [if_neg (by simp [hr, hstate, hnone, ha, hw])]
  exact ⟨rfl, rfl, rfl, rfl, rfl, rfl⟩

theorem opFreezeEnd_due {c : Nat} (hc : v.c = some c) (hstate : s.upd.state = 5) (hfc : c + 11 ≤ fcNow s) :
    opFreezeEnd s = { setUpd s 6 4 with
      cores.standbyReady := true
      cores.reload := s.cores.reload.filter fun e => e.1 != 4 - s.cores.active
      upd.safNext := 0 } := by
  unfold opFreezeEnd
  simp only [hact, hc]
  exact if_neg (by simp [hr, hstate, hfc])

/-! ### SAF_UPDATE_TURN (R520) -/

section
variable (hstate : s.upd.state = 6) (hw : s.clk.window = .latch)
include hstate hw

theorem opSafUpdateTurn_between {fail : Option Nat} (ht : s.upd.safTurn = none) : opSafUpdateTurn fail s = nextTurn s v := by
  unfold opSafUpdateTurn
  simp only [hact, ht]
  exact if_neg (by simp [hr, hstate, hw])

/-- A channel whose image is loaded and tested rejoins, or takes the running image back. -/
def endTurn (v : Activation) (c : Nat) (s : State) : Option Nat → State
  | none => modSaf (chanState s c .rejoining 7 0 0) c fun x => { x with matchFc := 0 }
  | some testId => safOver (changeStop s 2 (withdraw c 1 testId)) v true

theorem opSafUpdateTurn_tested {fail : Option Nat} {c k : Nat} (ht : s.upd.safTurn = some (c, k))
    (hch : (chanAt s c).state = .updating) (hk : k + 14 ≤ fcNow s) : opSafUpdateTurn fail s = endTurn v c s fail := by
  unfold opSafUpdateTurn
  simp only [hact, ht, hch]
  refine (if_neg (by simp [hr, hstate, hw])).trans ((if_neg (Nat.not_lt.mpr hk)).trans ?_)
  cases fail <;> rfl

end

/-! ### ACTIVATION_ABANDON (R521) -/

theorem opActivationAbandon_effect {failed : Bool} (h : abandons s v failed = true) :
    let t := opActivationAbandon failed s
    t.upd.state = 0 ∧ t.upd.act = none ∧ t.flash.active = !v.target ∧ (imageSlot t v.target).state = 4
      ∧ t.mode.resetAt = some 6 ∧ t.com.csn = s.com.csn ∧ t.p = s.p := by
  unfold opActivationAbandon
  simp only [hact]
  rw [if_neg (by simp [hr, h])]
  cases v.target <;> cases v.revert <;> exact ⟨rfl, rfl, rfl, rfl, rfl, rfl, rfl⟩

end

/-- The channel leaves the vote to take the other image. -/
def leaveForUpdate (c : Nat) (s : State) : State :=
  modSaf (chanState s c .updating 7 0 0) c fun x => { x with planned := true, leftFc := 0, matchFc := 0, testPassed := true }

theorem leaveForUpdate_chanAt {s : State} {c : Nat} (hl : c < s.stop.chans.length) :
    (chanAt (leaveForUpdate c s) c).state = .updating ∧ ∀ k, k ≠ c → chanAt (leaveForUpdate c s) k = chanAt s k := by
  obtain ⟨hsame, hother⟩ := chanAt_modSaf_chanState hl .updating 7 _
  exact ⟨congrArg Channel3.state hsame, hother⟩

theorem passLead_withUpd (s : State) (w : Upd) : passLead { s with upd := w } = { passLead s with upd := w } := by
  have hlead : leadFor { s with upd := w } = leadFor s := rfl
  simp only [passLead, hlead]
  split <;> rfl

theorem changeStop_fcNow (s : State) (pclk : Nat) (f : State → State) : fcNow (changeStop s pclk f) = fcNow (f s) := by
  unfold fcNow
  rw [(Laws.changeStop_same s pclk f).1.rest]

/-- The turn of a channel begins while all three vote. -/
theorem nextTurn_begins {s : State} {v : Activation} {c : Nat} (hc : (turnsLeft s v s.upd.safNext).head? = some c)
    (hv : votingCount s = 3) :
    nextTurn s v = { passLead (changeStop s 2 (leaveForUpdate c)) with
      upd := { (changeStop s 2 (leaveForUpdate c)).upd with safTurn := some (c, fcNow s), safNext := c + 1 } } := by
  have hfc : fcNow (changeStop s 2 (leaveForUpdate c)) = fcNow s := changeStop_fcNow s 2 (leaveForUpdate c)
  unfold nextTurn
  simp only [hc, hv, bne_self_eq_false, Bool.false_eq_true, ↓reduceIte]
  rw [← passLead_withUpd, ← hfc]
  rfl

theorem nextTurn_effect {s : State} {v : Activation} {c : Nat} (hc : (turnsLeft s v s.upd.safNext).head? = some c)
    (hv : votingCount s = 3) (hl : c < s.stop.chans.length) :
    let t := nextTurn s v
    t.upd.safTurn = some (c, fcNow s) ∧ t.upd.safNext = c + 1 ∧ (chanAt t c).state = .updating
      ∧ (∀ k, k ≠ c → chanAt t k = chanAt s k) ∧ t.stop.sw1 = t.stop.sw2 ∧ t.p = s.p := by
  obtain ⟨hchans, hsw, hp⟩ := passLead_changeStop s 2 (leaveForUpdate c)
  obtain ⟨hsame, hother⟩ := leaveForUpdate_chanAt hl
  intro t
  rw [show t = _ from nextTurn_begins hc hv]
  generalize passLead (changeStop s 2 (leaveForUpdate c)) = u at hchans hsw hp ⊢
  exact ⟨rfl, rfl, (congrArg Channel3.state (hchans c)).trans hsame, fun k hk => (hchans k).trans (hother k hk), hsw, hp⟩

/-! ### DFU_DOWNLOAD (R513) -/

/-- The rescue image of a download as slot A takes it: the package, and its capsule behind it. -/
def rescueSlot (s : State) (b capsule : Bytes) (x : ImageSlot) : ImageSlot :=
  { x with
    state := 2
    trial := 0
    seq := max s.flash.a.seq s.flash.b.seq + 1
    floor := rollbackFloor s
    capsule := capsule
    pkg := pkgInfo b
    body := b }

section
variable {s : State} {p : Bytes} (hm : s.mode.cur = .still) (hd : s.upd.dfu = true) (hmin : 89 ≤ p.length)
  (hmax : p.length - 88 ≤ 67100672)
include hm hd hmin hmax

theorem opDfuDownload_awaited :
    opDfuDownload p s =
      let len := p.length - 88
      if verifyPkg s (p.take len) (p.drop len) len != stOk || !capsuleGood s (slice (p.take len) 40 16) (p.drop len) then s
      else resetDevice (modSlot s false (rescueSlot s (p.take len) (p.drop len))) 6 := by
  unfold opDfuDownload
  exact if_neg (by simp [hm, hd, Nat.not_lt.mpr hmin, Nat.not_lt.mpr hmax])

theorem opDfuDownload_effect :
    let b := p.take (p.length - 88)
    let c := p.drop (p.length - 88)
    let t := opDfuDownload p s
    t.nv = s.nv
      ∧ (verifyPkg s b c (p.length - 88) ≠ stOk ∨ capsuleGood s (slice b 40 16) c = false → t = s)
      ∧ (verifyPkg s b c (p.length - 88) = stOk → capsuleGood s (slice b 40 16) c = true →
          t.mode.cur = .still ∧ t.mode.lastKind = 6 ∧ (imageSlot t false).state = 2 ∧ (imageSlot t false).body = b
            ∧ (imageSlot t false).capsule = c ∧ imageSlot t true = imageSlot s true) := by
  intro b c t
  have ht : t = if (verifyPkg s b c (p.length - 88) != stOk || !capsuleGood s (slice b 40 16) c) = true then s
      else resetDevice (modSlot s false (rescueSlot s b c)) 6 := opDfuDownload_awaited hm hd hmin hmax
  obtain ⟨hmode, hkind, -, hnv, -, hflash, -, -⟩ := resetDevice_kept (modSlot s false (rescueSlot s b c)) (k := 6) (by decide)
  by_cases hbad : (verifyPkg s b c (p.length - 88) != stOk || !capsuleGood s (slice b 40 16) c) = true
  · rw [if_pos hbad] at ht
    refine ⟨by rw [ht], fun _ => ht, fun hv hc => ?_⟩
    simp [hv, hc] at hbad
  · rw [if_neg hbad] at ht
    refine ⟨by rw [ht, hnv]; rfl, fun h => absurd ?_ hbad, fun _ _ => ?_⟩
    · simpa using h
    · rw [ht, hmode, hkind, imageSlot_congr hflash, imageSlot_congr hflash]
      exact ⟨rfl, rfl, rfl, rfl, rfl, rfl⟩

end

/-! ### SELF_TEST_DONE (R570) -/

/-- The test of a target is over. -/
def testOver (target : Nat) (s : State) : State :=
  { s with cores.tests := s.cores.tests.filter fun x => x.target != target, com.cmdCommits := 0 }

/-- What a memory test has mended is counted. -/
def countRepairs (target detail : Nat) (s : State) : State :=
  if target = 0x11 then { s with cores.repairs := sat 32 (s.cores.repairs + detail) } else s

theorem countRepairs_keeps (target detail : Nat) (s : State) :
    (countRepairs target detail s).cores.tests = s.cores.tests ∧ (countRepairs target detail s).com.csn = s.com.csn
      ∧ (countRepairs target detail s).p = s.p := by
  unfold countRepairs
  split <;> exact ⟨rfl, rfl, rfl⟩

section
variable {s : State} {target detail : Nat} {fail : Bool} {q : TestRun} (hr : running s = true)
  (hq : (s.cores.tests.find? fun t => t.target == target) = some q) (hend : q.endFc ≤ fcNow s)
include hr hq hend

theorem opSelfTestDone_memory (h : target = 0x11 ∨ target = 0x12) :
    opSelfTestDone target fail detail s
      = finish (countRepairs target detail (testOver target s)) q.req stOk (testReply fail 0 detail) := by
  unfold opSelfTestDone
  simp only [hq]
  refine (if_neg (by simp [hr, hend])).trans ?_
  rcases h with rfl | rfl <;> rfl

theorem opSelfTestDone_channel (h : target ≤ 3) :
    opSelfTestDone target fail detail s =
      let ok := (chanAt s (target - 1)).state == .voting
      finish (testOver target s) q.req stOk (testReply (!ok) (if ok then 0 else (chanAt s (target - 1)).testId) 0) := by
  unfold opSelfTestDone
  simp only [hq]
  exact (if_neg (by simp [hr, hend])).trans (if_pos h)

/-- The end of a test ends that test alone, and counts what a memory test has mended. -/
theorem opSelfTestDone_ends (h : target = 0x11 ∨ target = 0x12 ∨ target ≤ 3) :
    ∃ payload, opSelfTestDone target fail detail s
      = finish (countRepairs target detail (testOver target s)) q.req stOk payload := by
  by_cases h3 : target ≤ 3
  · have hskip : countRepairs target detail (testOver target s) = testOver target s := if_neg (by omega)
    rw [hskip]
    exact ⟨_, opSelfTestDone_channel hr hq hend h3⟩
  · exact ⟨_, opSelfTestDone_memory hr hq hend (by omega)⟩

theorem opSelfTestDone_effect (h : target = 0x11 ∨ target = 0x12 ∨ target ≤ 3) :
    let t := opSelfTestDone target fail detail s
    (∀ x ∈ t.cores.tests, x.target ≠ target) ∧ (∀ x ∈ s.cores.tests, x.target ≠ target → x ∈ t.cores.tests)
      ∧ (target = 0x11 → t.cores.repairs = sat 32 (s.cores.repairs + detail))
      ∧ (target ≠ 0x11 → t.cores.repairs = s.cores.repairs) ∧ t.com.csn = s.com.csn ∧ t.p = s.p := by
  obtain ⟨payload, hends⟩ := opSelfTestDone_ends hr hq hend (fail := fail) (detail := detail) h
  obtain ⟨hp, hcsn, -, -⟩ := finish_keeps (countRepairs target detail (testOver target s)) q.req stOk payload
  obtain ⟨htests, hcsn', hp'⟩ := countRepairs_keeps target detail (testOver target s)
  intro t
  rw [show t = _ from hends, finish_cores, hcsn, hp, htests, hcsn', hp']
  exact ⟨fun x hx => bne_iff_ne.mp (List.mem_filter.mp hx).2,
    fun x hx hne => List.mem_filter.mpr ⟨hx, bne_iff_ne.mpr hne⟩,
    fun h11 => (congrArg (fun u : State => u.cores.repairs) (if_pos h11) :),
    fun h11 => (congrArg (fun u : State => u.cores.repairs) (if_neg h11) :), rfl, rfl⟩

end

/-- Settles O44: each event by what it does once it is due. -/
theorem updateAndSelfTestEventsAct : Obligations.UpdateAndSelfTestEventsAct := by
  unfold Obligations.UpdateAndSelfTestEventsAct
  refine ⟨fun s r d e st hr hf hv he => congrArg Host.Outcome.next (opUpdFinishDone_due hr hf hv he),
    fun s v hr hact hstate ha => congrArg Host.Outcome.next (opAnchorActivateSend_due hr hact hstate ha),
    fun s v ok hr hact hstate ha hp hw => congrArg Host.Outcome.next
      ((opActivationCheck_due hr hact hstate ha hp hw).trans ?check),
    fun s v hr hact hstate hp ha => ?activation, fun s v hr hact hstate hc ha hw => ?handover,
    fun s v c hr hact hc hstate hfc => congrArg Host.Outcome.next (opFreezeEnd_due hr hact hc hstate hfc),
    fun s v fail hr hact hstate hw ht => congrArg Host.Outcome.next (opSafUpdateTurn_between hr hact hstate hw ht),
    fun s v fail c k hr hact hstate hw ht hch hk => congrArg Host.Outcome.next
      ((opSafUpdateTurn_tested hr hact hstate hw ht hch hk).trans ?tested),
    fun s v failed hr hact h => ?abandon,
    fun s p hm hd hmin hmax => congrArg Host.Outcome.next (opDfuDownload_awaited hm hd hmin hmax),
    fun s target detail fail q hr hq hend h => congrArg Host.Outcome.next (opSelfTestDone_memory hr hq hend h),
    fun s target detail fail q hr hq hend h => congrArg Host.Outcome.next (opSelfTestDone_channel hr hq hend h)⟩
  case check =>
    unfold endCheck
    rfl
  case activation =>
    obtain ⟨hs, hready, -, -, hreload, hcsn⟩ := opActivation_effect hr hact hstate hp ha
    exact ⟨_, rfl, hs, hready, hreload, hcsn⟩
  case handover =>
    obtain ⟨hactive, hcore, -, hact', hid, hkeys⟩ := opFltImageHandover_effect hr hact hstate hc ha hw
    exact ⟨_, rfl, hactive, hcore, hact', hid, hkeys⟩
  case tested => cases fail <;> rfl
  case abandon =>
    obtain ⟨hs, hnone, hactive, hslot, hreset, hcsn, -⟩ := opActivationAbandon_effect hr hact h
    exact ⟨_, rfl, hs, hnone, hactive, hslot, hreset, hcsn⟩

/-- Settles O58: each event by the effect of what it does once it is due. -/
theorem updateAndSelfTestEventsComplete : Obligations.UpdateAndSelfTestEventsComplete := by
  unfold Obligations.UpdateAndSelfTestEventsComplete
  refine ⟨fun s r d e hr hf hv he hfog => ⟨_, rfl, opUpdFinishDone_verified hr hf hv he hfog⟩,
    fun s r d e st hr hf hv hst he => ⟨_, rfl, opUpdFinishDone_failed hr hf hv hst he⟩,
    fun s v hr hact hstate ha => ⟨_, congrArg Host.Outcome.next (opAnchorActivateSend_due hr hact hstate ha),
      activateNamed_fold v s⟩,
    fun s v ok hr hact hstate ha hp hw hfog hok hsite => ?passes, fun s v ok st hr hact hstate ha hp hw hfail => ?fails,
    fun s v hr hact hstate hp ha => ⟨_, rfl, opActivation_effect hr hact hstate hp ha⟩,
    fun s v hr hact hstate hc ha hw => ⟨_, rfl, opFltImageHandover_effect hr hact hstate hc ha hw⟩,
    fun s v c hr hact hc hstate hfc => ⟨_, congrArg Host.Outcome.next (opFreezeEnd_due hr hact hc hstate hfc), rfl, rfl, rfl,
      fun e he => bne_iff_ne.mp (List.mem_filter.mp he).2, rfl, rfl, rfl⟩,
    fun s v fail c hr hact hstate hw ht hc hv hl => ⟨_, congrArg Host.Outcome.next
      (opSafUpdateTurn_between hr hact hstate hw ht), nextTurn_effect hc hv hl⟩,
    fun s v c k hr hact hstate hw ht hch hl hk => ?tested,
    fun s v failed hr hact h => ⟨_, rfl, opActivationAbandon_effect hr hact h⟩,
    fun s p hm hd hmin hmax => ⟨_, rfl, opDfuDownload_effect hm hd hmin hmax⟩,
    fun s target detail fail q hr hq hend h => ⟨_, rfl, opSelfTestDone_effect hr hq hend h⟩⟩
  case passes =>
    have hdue := opActivationCheck_due (ok := ok) hr hact hstate ha hp hw
    rw [hok, hsite] at hdue
    obtain ⟨hw, hcsn, hs, hrestart, hgo⟩ := checkPassed_effect (s := { s with com.cmdCommits := 0 }) v hfog
    exact ⟨_, congrArg Host.Outcome.next hdue, hw, hcsn, hs.trans hstate, hrestart, hgo⟩
  case fails =>
    have hdue := opActivationCheck_due (ok := ok) hr hact hstate ha hp hw
    rw [hfail] at hdue
    exact ⟨_, congrArg Host.Outcome.next hdue, endCheck_failed v _ st _⟩
  case tested =>
    obtain ⟨hsame, -⟩ := chanAt_modSaf_chanState hl .rejoining 7 fun x => { x with matchFc := 0 }
    exact ⟨_, congrArg Host.Outcome.next (opSafUpdateTurn_tested (fail := none) hr hact hstate hw ht hch hk),
      congrArg Channel3.state hsame, congrArg Channel3.matchFc hsame, rfl, rfl⟩

end Sys2Proof.Machine
end
